-- ==== Sys2Proof/Word.lean ====
section
/-! DEFINITION. The word types of the LX-3210 and their plainest arithmetic: bytes, 32-bit register and
payload words (R6, Table 0.4), and the saturation and clamping that register fields use. -/

namespace Sys2Proof

/-- One byte of a datagram, of the frame store or of the boot flash. -/
abbrev Byte := BitVec 8

/-- One 32-bit register value or event-record word (R6, R506). -/
abbrev Word := BitVec 32

/-- A 32-bit word from a number, modulo 2^32. -/
def w32 (n : Nat) : Word := BitVec.ofNat 32 n

/-- A byte from a number, modulo 2^8. -/
def b8 (n : Nat) : Byte := BitVec.ofNat 8 n

/-- Restrict a number to a closed range, as clamping register writes do. -/
def clampNat (lo hi n : Nat) : Nat := if n < lo then lo else if hi < n then hi else n

/-- Two's complement reading of the low `w` bits of a number. -/
def signedOf (w n : Nat) : Int := (BitVec.ofNat w n).toInt

/-- Two's complement writing of an integer into `w` bits. -/
def unsignedOf (w : Nat) (i : Int) : Nat := (BitVec.ofInt w i).toNat

/-- Saturate an integer to the signed range of `w` bits. -/
def satInt (w : Nat) (i : Int) : Int :=
  if i < -(2 ^ (w - 1) : Int) then -(2 ^ (w - 1) : Int)
  else if (2 ^ (w - 1) : Int) - 1 < i then (2 ^ (w - 1) : Int) - 1 else i

end Sys2Proof
end

