-- ==== Sys2Proof/Machine/Memory.lean ====
section
/-! DEFINITION. Byte memory in one canonical form: addresses strictly rising, and no cell listed that holds what an
unlisted address reads as. The frame store reads 0 where nothing is listed (R66), the boot flash 0xFF (erased). -/

namespace Sys2Proof.Machine

/-- The byte of an address; `d` is what an unlisted address reads as. -/
def memRead (d : Byte) : List Host.Cell → Nat → Byte
  | [], _ => d
  | (a, b) :: r, n => if a = n then b else memRead d r n

/-- Write one byte, keeping the canonical form. -/
def memWrite (d : Byte) : List Host.Cell → Nat → Byte → List Host.Cell
  | [], n, x => if x = d then [] else [(n, x)]
  | (a, b) :: r, n, x =>
    if n < a then (if x = d then (a, b) :: r else (n, x) :: (a, b) :: r)
    else if a = n then (if x = d then r else (n, x) :: r)
    else (a, b) :: memWrite d r n x

/-- The listed cells of a run of bytes from an address upward. -/
def runCells (d : Byte) : Nat → List Byte → List Host.Cell
  | _, [] => []
  | a, x :: xs => if x = d then runCells d (a + 1) xs else (a, x) :: runCells d (a + 1) xs

/-- Write a run of bytes from an address upward, in one pass over the cells. -/
def memWriteList (d : Byte) (m : List Host.Cell) (a : Nat) (xs : List Byte) : List Host.Cell :=
  m.filter (fun c => decide (c.1 < a)) ++ runCells d a xs ++ m.filter (fun c => decide (a + xs.length ≤ c.1))

/-- The bytes of `n` addresses from `a` upward, given the cells that lie there. -/
def fillFrom (d : Byte) : List Host.Cell → Nat → Nat → List Byte
  | _, _, 0 => []
  | [], _, n + 1 => List.replicate (n + 1) d
  | (k, b) :: r, a, n + 1 => if k = a then b :: fillFrom d r (a + 1) n else d :: fillFrom d ((k, b) :: r) (a + 1) n

/-- Read a run of bytes from an address upward. -/
def memReadList (d : Byte) (m : List Host.Cell) (a n : Nat) : List Byte :=
  fillFrom d (m.filter (fun c => decide (a ≤ c.1) && decide (c.1 < a + n))) a n

/-- Every address of a range reads as the default again: an erase, or memory initialisation. -/
def memClear (m : List Host.Cell) (lo hi : Nat) : List Host.Cell :=
  m.filter (fun c => decide (c.1 < lo) || decide (hi ≤ c.1))

/-- Every listed address is below a bound. -/
def memBelow (m : List Host.Cell) (hi : Nat) : Bool := m.all (fun c => decide (c.1 < hi))

/-- The canonical form: addresses strictly rising, and no listed cell equal to the default. -/
def memWf (d : Byte) : List Host.Cell → Bool
  | [] => true
  | (a, b) :: r =>
    decide (b ≠ d) && (match r with | [] => true | (a', _) :: _ => decide (a < a')) && memWf d r

end Sys2Proof.Machine
end

