-- ==== Sys2Proof/Machine/Table.lean ====
section
/-! DEFINITION. Sparse tables: a list of key and value pairs with strictly rising keys, read with a default. -/

namespace Sys2Proof.Machine

/-- A sparse table. A key that is not listed reads as the default of the reader. -/
abbrev Table (α : Type) := List (Nat × α)

/-- The value listed for a key, if any. -/
def tfind {α : Type} : Table α → Nat → Option α
  | [], _ => none
  | (k, v) :: r, n => if k = n then some v else tfind r n

/-- The value of a key, or the default `d`. -/
def tget {α : Type} (d : α) (m : Table α) (n : Nat) : α := (tfind m n).getD d

/-- Store a value for a key, keeping the keys rising. -/
def tset {α : Type} : Table α → Nat → α → Table α
  | [], n, x => [(n, x)]
  | (k, v) :: r, n, x =>
    if n < k then (n, x) :: (k, v) :: r
    else if k = n then (n, x) :: r
    else (k, v) :: tset r n x

/-- Remove a key. -/
def tdel {α : Type} : Table α → Nat → Table α
  | [], _ => []
  | (k, v) :: r, n => if k = n then tdel r n else (k, v) :: tdel r n

/-- Change the value of a key, reading the default where it is not listed. -/
def tmod {α : Type} (d : α) (m : Table α) (n : Nat) (f : α → α) : Table α := tset m n (f (tget d m n))

/-- Change every listed value. -/
def tmap {α : Type} (m : Table α) (f : Nat → α → α) : Table α := m.map (fun p => (p.1, f p.1 p.2))

/-- Counters of one block of registers: 32 bits each, wrapping (R8). -/
abbrev Counters := Table Word

/-- Add `n` to the counter of an index, modulo 2^32. -/
def bumpBy (m : Counters) (i n : Nat) : Counters := tset m i (tget 0#32 m i + w32 n)

/-- Add one to the counter of an index, modulo 2^32. -/
def bump (m : Counters) (i : Nat) : Counters := bumpBy m i 1

/-- The keys of a table rise strictly. -/
def Table.sorted {α : Type} : Table α → Bool
  | [] => true
  | (k, _) :: r => (match r with | [] => true | (k', _) :: _ => decide (k < k')) && Table.sorted r

end Sys2Proof.Machine
end

