-- ==== Sys2Proof/Packets.lean ====
section
/-! DEFINITION. The packets that commands carry: command packets, datagrams, media and timing messages, and the host
opcodes. -/

namespace Sys2Proof

/-- Roles of a session (R95), with the anonymous session 0 (R97). -/
inductive Role where
  | anonymous | operator | safety | maintenance
deriving DecidableEq, Repr

/-- A command that has passed the checks of Table 3.3 up to queueing (R104): its session and role, sequence,
address field and flags, its parameters joined in index order, and where its reply goes (R81). -/
structure HostCmd where
  session : Nat := 0
  role    : Role := .anonymous
  seq     : Nat := 0
  scope   : Nat := 0
  addr    : Nat := 0
  ackReq  : Bool := false
  params  : List Byte := []
  /-- Ethernet port of the last fragment: 0 A, 1 B. -/
  port    : Nat := 0
  srcIp   : Nat := 0
  srcPort : Nat := 0
  /-- UDP port to which the request was sent (R112). -/
  dstPort : Nat := 41210
  /-- Tag of the last fragment, as received (R102). -/
  tag     : List Byte := []
  /-- The session key under which the command was accepted, with which its reply is tagged (R100). -/
  key     : List Byte := []
  /-- A command named by the sequencer's epoch record: it has no reply of its own here and is not checked again (R463). -/
  named   : Bool := false
  /-- A command that the partner relayed over the halyard: its result goes back there (R463, R464). -/
  relayed : Bool := false
deriving DecidableEq, Repr

/-- A UDP datagram at the control port, as the Ethernet side hands it over (R79 to R82). -/
structure Datagram where
  payload  : List Byte := []
  port     : Nat := 0
  srcIp    : Nat := 0
  srcPort  : Nat := 0
  dstPort  : Nat := 41210
  /-- Destination: 0 a unicast interface address, 1 the IPv4 control group, 2 the IPv6 control group. -/
  dest     : Nat := 0
  ipFragment : Bool := false
  oversize : Bool := false
deriving DecidableEq, Repr

/-- The straps that the board fixes (R47, R41). `pairRole` is 0 open, 1 tied low, 2 tied high. -/
structure Straps where
  bootSrc  : Bool := false
  pairRole : Nat := 0
  pos      : Nat := 0
deriving DecidableEq, Repr


/-- A PTP message as a port receives it (R427, IEEE 1588-2019). `kind` is 0 Sync, 1 Follow_Up, 2 Delay_Resp, 3 Announce,
4 Delay_Req, 5 a message that the client does not support; `sender` is the port identity of its source, `origin` the
timestamp in its body in nanoseconds, and `correction` the correctionField in nanoseconds. -/
structure PtpMsg where
  kind     : Nat := 0
  valid    : Bool := true
  domain   : Nat := 127
  sender   : Nat := 0
  seq      : Nat := 0
  twoStep  : Bool := false
  origin   : Nat := 0
  correction : Int := 0
  /-- The requesting port identity of a Delay_Resp is this device's. -/
  forUs    : Bool := true
  priority1 : Nat := 0
  clockClass : Nat := 0
  accuracy : Nat := 0
  variance : Nat := 0
  priority2 : Nat := 0
  grandmaster : Nat := 0
  steps    : Nat := 0
  utcOffset : Nat := 0
deriving DecidableEq, Repr

/-- One audio sample with its AES3 bits (R354). -/
structure AesSample where
  value : Int := 0
  v : Bool := false
  u : Bool := false
  c : Bool := false
deriving DecidableEq, Repr

/-- An audio packet of the frame that a source reads out, as the de-embedder finds it (R360, R361): a control packet when
`control` is given (true: 48 kHz and synchronous), else a data packet with a sample for each channel of group 1 to 4.
`fault` is 0 for a checksum that fails after correction, 1 for a byte that fails parity, 2 for ECC that cannot correct;
`corrected` counts ECC corrections; `nonAudio` is what channel status says of each channel (R356). -/
structure AudPacket where
  group     : Nat := 1
  control   : Option Bool := none
  fault     : Option Nat := none
  corrected : Nat := 0
  samples   : List AesSample := []
  nonAudio  : List Bool := []
deriving DecidableEq, Repr


/-- A media packet as a port receives it (R402, R408, R412): multicast group, UDP port and source address, payload type,
sequence number (32 bits with the extension for video, 16 bits for audio and ancillary data), RTP timestamp, the element of
its header extension (frame sequence number, byte 4), and payload. `malformed` says that an SRD lies outside the picture, or
that lengths disagree. -/
structure MediaPkt where
  group   : Nat := 0
  udpPort : Nat := 0
  src     : Nat := 0
  pt      : Nat := 96
  seq     : Nat := 0
  rtp     : Nat := 0
  element : Option (Nat × Nat) := none
  malformed : Bool := false
  payload : List Byte := []
deriving DecidableEq, Repr

/-- What a received Ethernet frame carries: PAUSE with its quanta, priority-based flow control, another MAC Control frame, a
ring-check frame (system address and sequence), ARP or neighbour discovery for an address (`claims`: the sender says that it
has that address), an echo request, a PTP message, a command datagram, a media packet, IPv4 or UDP with a wrong checksum, a
verify request or response of the MAC merge sublayer, a frame with an assembly error, or anything else. -/
inductive FrameBody where
  | pause (quanta : Nat)
  | pfc
  | macControl
  | ringCheck (addr seq : Nat)
  | neighbour (v6 claims : Bool) (addr : Nat)
  | echo (v6 : Bool) (sender : Nat) (data : List Byte)
  | ptp (m : PtpMsg)
  | command (d : Datagram)
  | media (m : MediaPkt)
  | badChecksum
  | verifyRequest
  | verifyResponse
  | badAssembly
  | other
deriving DecidableEq, Repr

/-- A received Ethernet frame (R386): its length, whether its FCS is good, the VIDs of its tags from the outermost on, MAC
addresses, whether the receive buffer is full, the bytes before the FCS, and how many nanoseconds the bridge holds it. -/
structure EthFrame where
  len     : Nat := 64
  fcsOk   : Bool := true
  tags    : List Nat := []
  src     : Nat := 0
  dst     : Nat := 0
  full    : Bool := false
  body    : FrameBody := .other
  raw     : List Byte := []
  residence : Nat := 0
deriving DecidableEq, Repr

/-- What stands in the shared control SRAM where a byte fails parity (R534): the reply cache of a session, its command in
reassembly, a queued command by session and sequence, the copy of a cell's context (with whether the live context has failed
too), the epoch record kept for a tick, or an entry of a configuration table. -/
inductive SramUse where
  | replyCache (session : Nat)
  | reassembly (session : Nat)
  | queued (session seq : Nat)
  | contextCopy (cell : Nat) (liveBad : Bool)
  | keptRecord (tick : Nat)
  | configTable
deriving DecidableEq, Repr
/-- The host opcodes of Tables 3.7 and 3.9: the commands that a datagram can carry (R113). -/
inductive Op where
  | identify
  | status
  | modeSet
  | reset
  | regRead
  | regWrite
  | regRmw
  | regReadBlock
  | regWriteBlock
  | lockConfig
  | addrSet
  | sessionKeyLoad
  | sessionKeyErase
  | sessionInfo
  | echo
  | imgInfo
  | imgWriteBegin
  | imgWrite
  | imgWriteEnd
  | imgActivate
  | imgTrialAbort
  | imgConfirm
  | laneStatus
  | laneConfig
  | lanePrbs
  | laneLoop
  | laneErrInject
  | laneCounters
  | flowSrcDefine
  | flowDstDefine
  | flowDelete
  | flowGroupSet
  | flowParkSet
  | flowQuery
  | flowAdmitCheck
  | xptTake
  | xptTakeBatch
  | xptTakeAt
  | xptQueueCancel
  | xptLock
  | xptUnlock
  | xptQuery
  | xptTpSet
  | xptQueueStatus
  | cueLoad
  | cueRun
  | cueAbort
  | cueStatus
  | cueUnload
  | fstZoneSet
  | fstObjWrite
  | fstObjRead
  | fstObjFree
  | fstBankStatus
  | fstInvalidClear
  | fstRetainSet
  | cmpConfig
  | cmpLayerSet
  | cmpCommit
  | cmpLutLoad
  | cmpSurfaceLoad
  | cmpDisable
  | cmpQuery
  | cmpProtWrite
  | cmpProtRectSet
  | cmpProtGoldenSet
  | cmpProtStatus
  | audRoute
  | audRouteBatch
  | audGain
  | audFollow
  | audPortConfig
  | audStreamConfig
  | audQuery
  | ethPortConfig
  | ethIpConfig
  | ethCounters
  | ethTxFlow
  | ethRxFlow
  | ethFlowQuery
  | timStatus
  | timRefConfig
  | timPtpConfig
  | timCompareSet
  | timPulseSet
  | timRealign
  | redStatus
  | redLeaseRequest
  | redLeaseRelease
  | redResync
  | redHealth
  | safStatus
  | safClear
  | safConfig
  | evtRead
  | evtInfo
  | evtRateSet
  | pwrStatus
  | pwrLevelSet
  | pwrSleep
deriving DecidableEq, Repr

end Sys2Proof
end

