-- ==== Sys2Proof/Machine/StBase.lean ====
section
/-! DEFINITION. The state of the general block, the start-up logic, the host interpreter, the safety monitor, the event
recorder, the control complex and the power-state logic (chapters 1, 2, 3, 15, 16 and 17). -/

namespace Sys2Proof.Machine

/-- The eight operating modes (Table 1.8). -/
inductive Mode where
  | boot | calibrate | active | standby | isolated | safe | maintenance | retain
deriving DecidableEq, Repr

/-- The mode code of Table 1.8. -/
def Mode.code : Mode → Nat
  | .boot => 0 | .calibrate => 1 | .active => 2 | .standby => 3
  | .isolated => 4 | .safe => 5 | .maintenance => 6 | .retain => 7

/-- READY is 1 in these modes (Table 1.8). -/
def Mode.ready : Mode → Bool
  | .active | .standby | .isolated => true
  | _ => false

/-- Time as the model holds it: `clk` counts nanoseconds of the model's own clock, `now` is the PTP nanosecond count N
(R423), and `running` says that the time counter runs (R448). -/
structure Clock where
  clk : Nat := 0
  now : Nat := 0
  running : Bool := false
deriving DecidableEq, Repr

/-- What manufacture fixes in fuses and the package (R73, R96, Table 2.8 reason 4, Table 3.8). -/
structure Fuses where
  floor      : Nat := 0
  keyDigest  : List Byte := List.replicate 32 0#8
  factoryKey : List Byte := List.replicate 32 0#8
  serial     : Nat := 0
  stepping   : Nat := 0
  grade      : Nat := 0
  macA       : Nat := 0
  macB       : Nat := 0
deriving DecidableEq, Repr

/-- Where the regulator sequencer stands (R41 to R45). -/
inductive SeqPhase where
  | off | waitPg | waitDelay | fixed | complete | faultWait | lockout
deriving DecidableEq, Repr

/-- The power sequencer and PWR_SEQ_STATUS (Table 2.13). It runs from VDD_AON. `en` and `pg` list EN_* and PG_* with
bit 0 for CORE; `step` is the step of Table 2.1 in hand. -/
structure Seq where
  aonUp      : Bool := false
  pgMode     : Bool := false
  phase      : SeqPhase := .off
  step       : Nat := 0
  en         : List Bool := [false, false, false, false, false]
  pg         : List Bool := [false, false, false, false, false]
  lowSince   : Table Nat := []
  faultTimes : List Nat := []
  lastFault  : Nat := 0
  faultCount : Nat := 0
  lockout    : Bool := false
  restartAt  : Nat := 0
  clkWait    : Bool := false
deriving DecidableEq, Repr

/-- PWR_BOOT_STATUS (Table 2.14) without FLOOR, which the fuses give. -/
structure BootStatus where
  slot       : Nat := 0
  trial      : Bool := false
  bootSrc    : Bool := false
  reject     : Nat := 0
  rejectSlot : Nat := 0
  romFail    : Bool := false
  calFail    : Bool := false
  skip       : List Bool := [false, false, false]
deriving DecidableEq, Repr

/-- One host session held in the always-on domain (R95). -/
structure Session where
  id      : Nat
  role    : Role
  key     : List Byte
  lastSeq : Nat := 0
deriving DecidableEq, Repr

/-- The IP registers of one port, always-on (R399). -/
structure IpRegs where
  ip4 : Nat := 0
  prefix4 : Nat := 0
  gw4 : Nat := 0
  ip6 : Nat := 0
  prefix6 : Nat := 0
  gw6 : Nat := 0
deriving DecidableEq, Repr

/-- The always-on time record (R448). -/
structure TimeRecord where
  at32k   : Nat
  now     : Nat
  timErr  : Nat
  loop    : Nat
  house   : Nat
  holdFreq : Int
  houseFreq : Int
deriving DecidableEq, Repr

/-- The always-on retention store of an entry into S2 (Table 8.20): what the wake checks compare. The canary of a bank is
a function of its number and of the sleep count (Table 8.9); `slices` holds the CRC of each slice of the object table. -/
structure Retention where
  count   : Nat
  mask    : Table Bool
  flagged : List Nat := []
  slices  : List Word := []
deriving DecidableEq, Repr

/-- The always-on domain (Table 17.5), with the wake logic. -/
structure Aon where
  boot      : BootStatus := {}
  laneWaitMs : Nat := 0x7D0
  trialS    : Nat := 0x12C
  frameId   : Nat := 0
  udpPort   : Nat := 0xA0FA
  groupEn   : Bool := true
  anonEn    : Bool := true
  groupV4   : Word := 0xEF29D201#32
  sessions  : Table Session := []
  ethChain  : Bool := false
  ringBlock : Nat := 0
  ip        : Table IpRegs := []
  retainMask : Table Bool := []
  retainCount : Nat := 0
  retainLost : Nat := 0
  retainChecked : Bool := false
  /-- The retention store of the sleep in hand (R284). -/
  retainStore : Option Retention := none
  timeRec   : Option TimeRecord := none
  /-- Nanoseconds of the model's clock when the 32.768 kHz count was zero. -/
  countZero : Nat := 0
  onRing    : Bool := false
  ringUsed  : Bool := false
  wakeLast  : Nat := 0
  wakeCause : Nat := 0
  xtalLost  : Bool := false
  alarm     : Nat := 0
  /-- Last accepted sequence of the factory session (R96, R102). -/
  factorySeq : Nat := 0
  /-- Wake sources seen for the sleep in hand, as PWR_WAKE.CAUSE counts them (R549, R550). -/
  wakeSeen  : Nat := 0
  prevMode  : Nat := 0
  lastTrans : Nat := 0
deriving DecidableEq, Repr

/-- Pin levels: the straps that the board fixes, RST_N and WAKE_N as driven, and the outputs of the device. -/
structure Pins where
  straps   : Straps := {}
  rstLow   : Bool := false
  wakeLow  : Bool := false
  ready    : Bool := false
  coreVsel : Nat := 0
  leaseOut : Bool := false
  /-- Answers of the PAIR_ROLE test while in reset, newest first: pulled up, pulled down (R566). -/
  roleTests : List (Bool × Bool) := []
deriving DecidableEq, Repr

/-- The start from t0 to T2 (R46 to R65). `procs` gives each processor (0 Conductor, 1 cue processor, 2 to 5 stewards,
6 safety pair) 0 held, 1 released, 2 alive. -/
structure Start where
  inReset   : Bool := true
  t0        : Option Nat := none
  straps    : Straps := {}
  pllLocked : Bool := false
  romDone   : Bool := false
  recovery  : Bool := false
  loading   : Bool := false
  procs     : Table Nat := []
  t2Ms      : Nat := 0
  readyMs   : Nat := 0xFFFF
  readySeen : Bool := false
  /-- Wake from S2 in hand: the recorded slot is loaded and T17 follows (R68). -/
  wake      : Bool := false
deriving DecidableEq, Repr

/-- The activities of R66 and what they left. -/
structure Calib where
  startAt   : Nat := 0
  lanes     : Bool := false
  hbm       : Bool := false
  memory    : Bool := false
  scrub     : Bool := true
  /-- The state image has been applied, or there is none to apply (R551). -/
  restored  : Bool := true
  failed    : Bool := false
  /-- When every activity had finished. -/
  doneAt    : Option Nat := none
deriving DecidableEq, Repr

/-- What the flash logic knows of an image slot beside its contents (R77). -/
inductive SlotPhase where
  | idle | erasing | writing | abandoned
deriving DecidableEq, Repr

/-- An image write in hand (R76, R77). -/
structure ImageWrite where
  slot    : Nat
  session : Nat
  length  : Nat
  written : Nat := 0
  lastAt  : Nat := 0
deriving DecidableEq, Repr

/-- The boot flash and the image commands' state. Unlisted bytes of `mem` read 0xFF (R52). -/
structure Flash where
  mem     : List Host.Cell := []
  phases  : List SlotPhase := [.idle, .idle, .idle]
  write   : Option ImageWrite := none
  /-- A start-now activation, or an activation under the recovery listener, waits for its T1 (R59, R75). -/
  startNow : Option Nat := none
  /-- Slots whose image was written under the recovery listener and passed its checks (R59). -/
  recoveryOk : List Nat := []
  /-- Start of the present service of a trial image, and what withholds its confirmation (R71). -/
  trialSince : Option Nat := none
  trialBlocked : Bool := false
deriving DecidableEq, Repr

/-- A command in reassembly (R93). `frags` holds the parameter bytes of each fragment that arrived. -/
structure Reasm where
  session : Nat
  seq     : Nat
  opcode  : Nat
  address : Nat
  flags   : Nat
  count   : Nat
  frags   : Table (List Byte) := []
  total   : Nat := 0
  started : Nat := 0
  /-- The command as its first fragment gave it: where a reply would go. -/
  from_   : HostCmd := {}
deriving DecidableEq, Repr

/-- The reply cache of a session (R103). `done` is false while the command is queued or executing. -/
structure Cache where
  op     : Option Op := none
  cmd    : HostCmd := {}
  opcode : Nat := 0
  done   : Bool := false
  status : Nat := 0
  reply  : List Byte := []
  long   : Bool := false
  lastFrag : List Byte := []
deriving DecidableEq, Repr

/-- The host interpreter (chapter 3). -/
structure HostSt where
  queue   : List (Op × HostCmd) := []
  reasm   : List Reasm := []
  cache   : Table Cache := []
  cnt     : Counters := []
  locked  : Bool := false
  /-- Untagged replies: credit in nanoseconds, one reply costing 5,000,000 (R105). -/
  credit  : Nat := 320000000
  creditAt : Nat := 0
  /-- RESET has been answered at this instant and T1 follows (R107). -/
  resetAt : Option Nat := none
  resetSession : Nat := 0
  /-- The partner's system address as last learned (R87). -/
  partnerAddr : Option Nat := none
deriving DecidableEq, Repr

/-- One event as detected (R506), before the recorder numbers it. -/
structure Ev where
  code : Nat
  sev  : Nat
  cls  : Nat
  path : Nat := 0
  mode : Nat := 0
  at_  : Nat := 0
  payload : List Word := []
deriving DecidableEq, Repr

/-- Token bucket of an event code (R511). Credit is in units of 10^-9 records. -/
structure Bucket where
  rate   : Nat := 10
  burst  : Nat := 20
  credit : Nat := 20000000000
  stamp  : Nat := 0
  suppressed : Nat := 0
deriving DecidableEq, Repr

/-- A record held in the recorder: its sequence, first word index and length in words. -/
structure Held where
  seq : Nat
  pos : Nat
  len : Nat
deriving DecidableEq, Repr

/-- The event recorder (R508 to R512). `words` lists the recorder words that are not zero; `preRec` holds what arose
before the recorder ran (R78). -/
structure Recorder where
  words   : Table Word := []
  firstFull : Bool := false
  firstNext : Nat := 0
  circNext  : Nat := 16384
  first   : List Held := []
  circ    : List Held := []
  nextSeq : Nat := 0
  written : Bool := false
  generation : Nat := 0
  pending : List Ev := []
  lost    : Nat := 0
  cnt     : Counters := []
  buckets : Table Bucket := []
  preRec  : List Ev := []
  running : Bool := false
  /-- Recorder words whose stored parity fails (R510). -/
  bad     : List Nat := []
deriving DecidableEq, Repr

/-- The SAFE pins (Table 15.4). -/
inductive PinState where
  | low | toggling | high
deriving DecidableEq, Repr

/-- The safety monitor pair (chapter 15). `react` is SAF_REACT, `disagree` counts the samples in a row in which each SAFE
pin disagreed (R494), and `clocksOkSince` is when the last clock of SM6 or of island 258 came back. -/
structure Safety where
  reacted   : Bool := false
  lockstep  : Bool := false
  selftest  : Bool := false
  chipFault : Bool := false
  yielded   : Bool := false
  pins      : PinState := .low
  stalled   : List Nat := []
  react     : Nat := 0
  faultYield : Bool := true
  stallAction : Bool := false
  escCnt    : Counters := []
  gateAt    : Option Nat := none
  gateOpen  : Bool := false
  disagree  : List Nat := [0, 0]
  held      : Bool := false
  /-- Self-tests passed since the last failure of SM2 to SM5. -/
  passes    : Nat := 0
  testFailed : Bool := false
  clocksLost : List Nat := []
  clocksOkSince : Nat := 0
  supervisorLost : Bool := false
  overTemp  : List Nat := []
  /-- Sliding counts of Table 15.5, as lists of instants, newest first. -/
  cellReloads : Table (List Nat) := []
  isolated  : List Nat := []
  blockFails : Table (List Nat) := []
  restarts  : Table (List Nat) := []
  planeFails : Table (List Nat) := []
  cmpFails  : Table (List Nat) := []
  arbFails  : Table (List Nat) := []
  audFails  : List Nat := []
  pcStored  : Table (List Nat) := []
  /-- Work in hand: cells whose context reloads, blocks that restart, stewards that reload. -/
  reloading : List Nat := []
  restarting : List Nat := []
  stewardReload : List Nat := []
deriving DecidableEq, Repr

/-- What a transfer of the bus matrix addresses: chip-level registers or SRAM, a compositor, or a block register file
(R520, Table 16.2). -/
inductive BusTarget where
  | chip
  | comp (n : Nat)
  | block (n : Nat)
deriving DecidableEq, Repr

/-- One transfer on a master port of the bus matrix (R523 to R526, R529). `answered` is its response, held back while an
older transfer of its stream is outstanding: 0 GOOD, 1 VOID, 2 FAIL. -/
structure Transfer where
  tag    : Nat
  stream : Nat := 0
  target : BusTarget := .chip
  write  : Bool := false
  beats  : Nat := 1
  /-- Half of a locked pair: a read opens it, a write closes it (R529). -/
  locked : Bool := false
  since  : Nat := 0
  answered : Option Nat := none
deriving DecidableEq, Repr

/-- The control complex (chapter 16). -/
structure Ctl where
  reloads  : Table Nat := []
  halted   : List Nat := []
  out      : Table (List Transfer) := []
  portReset : List Nat := []
  /-- The locked pair that is open: its port, stream and start (R529). -/
  lockedPair : Option (Nat × Nat × Nat) := none
  cnt      : Counters := []
  compatEn : Bool := true
  compatBank : Nat := 0
deriving DecidableEq, Repr

/-- Performance level and sleep (chapter 17). `sleep` is 0 none, 1 S1, 2 S2, 3 S3. -/
structure Pwr where
  level    : Nat := 0
  target   : Nat := 0
  changing : Bool := false
  switched : Bool := false
  levelCmd : Option HostCmd := none
  changeAt : Nat := 0
  sleep    : Nat := 0
  entering : Bool := false
  acceptedAt : Nat := 0
  fromMode : Mode := .calibrate
  /-- Units of the state image of the entry in hand (R547). -/
  imageUnits : Nat := 0
  imageWritten : Bool := false
  committed : Bool := false
  /-- When the last enable went low. -/
  enLowAt  : Option Nat := none
  enteredAt : Nat := 0
  alarmArg : Nat := 0
  entryMs  : Nat := 0
  wakeAt   : Nat := 0
  wakeReadyMs : Nat := 0
  wakeCounting : Bool := false
  exiting  : Bool := false
deriving DecidableEq, Repr

/-- What the device puts out: UDP datagrams to the host, frames, lane output, halyard messages and pin changes. -/
inductive Out where
  | datagram (t port dstIp dstPort srcPort : Nat) (payload : List Byte)
  | frame (t port : Nat) (payload : List Byte)
  /-- A message of a standard protocol, by kind, with its arguments and data: 0 ARP or 1 neighbour advertisement (address,
  asker), 2 ICMP or 3 ICMPv6 echo reply (address), 4 IGMP report (flow, group, sources, 1 to leave), 5 address probe
  (family, address), 6 address defence (family, address), 7 PTP Delay_Req (sequence), 8 MLDv2 report, 9 verify request and
  10 verify response of the MAC merge sublayer. -/
  | service (t port kind : Nat) (args : List Nat) (data : List Byte)
  | media (t port flow : Nat) (payload : List Byte)
  | pennant (t lane : Nat) (ensign : Bool) (ptype : Nat) (payload : List Byte)
  | injected (t lane target : Nat)
  /-- A halyard message: its lane, its number on that lane, its type (Table 14.3) and its data. -/
  | halyard (t lane number kind : Nat) (payload : List Byte)
  | destFrame (t dest : Nat) (payload : List Byte)
  /-- A register read that no reply carries: its address and the value returned (R536). -/
  | busRead (t addr value : Nat)
  | pin (t : Nat) (name : String) (level : Nat)
  | pulse (t output : Nat) (level : Bool)
  /-- The words Y, Cb and Cr of a composition output at a picture position; Cb and Cr at even x only. -/
  | composed (t comp x y luma cb cr : Nat)
  | sample (t channel : Nat) (value : Int)
  /-- An embedded sample with its AES3 bits V, U and C (R363, R364). -/
  | aes (t output : Nat) (value : Int) (v u c : Bool)
deriving DecidableEq, Repr

end Sys2Proof.Machine
end

