-- ==== Sys2Proof/Machine/StXpt.lean ====
section
/-! DEFINITION. The state of the crosspoint (chapter 6) and of the cue processor (chapter 7). -/

namespace Sys2Proof.Machine

/-- What an audio change does to the gain of its output: keep it, mute, or set it in 0.1 dB (R234, R379). -/
inductive GainArg where
  | keep | mute | set (g : Int)
deriving DecidableEq, Repr

/-- What a take-queue entry does when it lands (R210). `audio` names output and input (none is silence), the gain
argument, and the options HARD and KEEP_FOLLOW; an input of `keepInput` true leaves the connection (AUD_GAIN).
`realign` names the planes and pulse outputs of a TIM_REALIGN, its method (true: slew) and rate (R443). -/
inductive Action where
  | video (dst : Nat) (src : Option Nat)
  | audio (out : Nat) (inp : Option Nat) (keepInput : Bool) (gain : GainArg) (hard keepFollow : Bool)
  | commit (comp : Nat)
  | realign (planes pulses : Nat) (slew : Bool) (rate : Nat)
deriving DecidableEq, Repr

/-- One entry of the take queue (R210 to R218). `order` is the order of execution (R214); `sealed` holds the tick that
sealed it and `arm` its arming instant; `target` is the target time of a timed entry, in PTP nanoseconds. -/
structure Entry where
  order   : Nat
  action  : Action
  session : Nat := 0
  role    : Role := .operator
  seq     : Nat := 0
  tag     : Nat := 0
  wait    : Bool := false
  target  : Option Nat := none
  late    : Bool := false
  sealed_ : Option Nat := none
  arm     : Nat := 0
  /-- Cue instance and run number of an entry that a group placed (R237). -/
  cue     : Option (Nat × Nat) := none
  /-- Index of the entry in its command (R229). -/
  index   : Nat := 0
  /-- Mask of the outputs whose follow change the sealed take carries (R365, R367). -/
  follow  : Nat := 0
  /-- The destination of an embedded audio change has passed the switching line on which it lands (R368). -/
  due     : Bool := false
deriving DecidableEq, Repr

/-- A reply that waits for the landing of its command's entries (R228). `left` counts the entries still in the queue,
`worst` keeps the first failing status, `frame` the landing frame count, `tick` the tick that sealed them. -/
structure WaitReply where
  op     : Op
  cmd    : HostCmd
  left   : Nat
  worst  : Option Nat := none
  /-- Index in the command of the first entry that failed, and the failing check of a commit. -/
  index  : Option Nat := none
  check  : Nat := 0
  frame  : Nat := 0
  tick   : Nat := 0
  late   : Bool := false
deriving DecidableEq, Repr

/-- One destination of the crosspoint (Tables 6.10 to 6.12). `lock` is 0 free, 1 LOCKED, 2 PROTECTED. -/
structure XptDst where
  selected : Option Nat := none
  lock     : Nat := 0
  owner    : Nat := 0
  land     : Nat := 0
deriving DecidableEq, Repr

/-- One timing plane as XPT_TP_SET leaves it (Table 6.16). -/
structure TpCfg where
  family : Nat := 0
  ref    : Nat := 0
  phase  : Int := 0
deriving DecidableEq, Repr

/-- The crosspoint fabric and take scheduler. `landing` keeps, for the follower of a pair, the frame that a record
gives for a tick, plane and rate (R466). -/
structure Xpt where
  dst      : Table XptDst := []
  queue    : List Entry := []
  nextOrder : Nat := 0
  highWater : Nat := 0
  highSent : Bool := false
  tick     : Nat := 0
  ticked   : Bool := false
  landEvt  : Bool := false
  lateMs   : Nat := 0x3E8
  cnt      : Counters := []
  tps      : Table TpCfg := []
  waits    : List WaitReply := []
  landing  : List (Nat × Nat × Nat × Nat) := []
  /-- Deficits of the arbiters in bytes: block arbiters by 16 × block + cell, region arbiters by 64 × region + input
  (16 blocks, 16 compositors, the agent at 32), the chip arbiter by input (4 regions, 2 ports, loader, scrubber). -/
  blockDef : Table Nat := []
  regionDef : Table Nat := []
  chipDef  : Table Nat := []
deriving DecidableEq, Repr

/-- A loaded cue program (R249). -/
structure CueProg where
  session : Nat
  words   : List (BitVec 64)
  crc     : Word
deriving DecidableEq, Repr

/-- Where an instance stands (Table 7.11). -/
inductive CueState where
  | executing | waitFrames | waitTime | waitEntries
deriving DecidableEq, Repr

/-- A loop counter of an instance (R244). -/
inductive LoopCtr where
  | idle | forever | count (n : Nat)
deriving DecidableEq, Repr

/-- An operation of a group as executed, its operands resolved (R233 to R235). -/
inductive CueOp where
  | take (dst src : Nat)
  | audio (out inp gain : Nat) (hard : Bool)
  | layerSet (layer attr value : Nat)
  | commit (comp : Nat)
  | pulse (out width start : Nat)
  | mark (severity a b c : Nat)
deriving DecidableEq, Repr

/-- A running instance. `timed` is the target of the group under construction when it is a timed group (R242, R245);
`resumeAt` is when an instance that waits for a time resumes; `plane`, `rate` and `left` are the frames still awaited;
`ref` is the instant from which frame starts count (R241). `group` holds, while it waits for entries (R239), the group that
begins at word `from_`, with the index of each word. -/
structure CueInst where
  prog    : Nat
  session : Nat
  role    : Role
  run     : Nat
  trigger : Bool := false
  state   : CueState := .executing
  word    : Nat := 0
  vars    : List Nat := []
  loops   : List LoopCtr := [.idle, .idle, .idle, .idle]
  t0      : Nat := 0
  timed   : Option Nat := none
  resumeAt : Nat := 0
  plane   : Nat := 0
  rate    : Nat := 0
  left    : Nat := 0
  ref     : Nat := 0
  ticks   : Nat := 0
  placed  : Nat := 0
  group   : List (Nat × CueOp) := []
  from_   : Nat := 0
deriving DecidableEq, Repr

/-- A mark or a pulse of a group, held until the group's arming instant (R235). -/
structure CueMarkItem where
  inst    : Nat
  run     : Nat
  prog    : Nat
  order   : Nat
  arm     : Option Nat := none
  target  : Option Nat := none
  severity : Nat := 0
  a       : Nat := 0
  b       : Nat := 0
  c       : Nat := 0
  /-- A PULSE: output `a`, width `b` in µs, when `c`; otherwise an EMIT. -/
  pulse   : Bool := false
deriving DecidableEq, Repr

/-- The cue processor. -/
structure Cue where
  progs   : Table CueProg := []
  insts   : Table CueInst := []
  nextRun : Nat := 0
  stallTicks : Nat := 0x14
  cnt     : Counters := []
  marks   : List CueMarkItem := []
deriving DecidableEq, Repr

end Sys2Proof.Machine
end

