-- ==== Sys2Proof/Machine/StAud.lean ====
section
/-! DEFINITION. The state of the audio engine (chapter 11). -/

namespace Sys2Proof.Machine

/-- A signal of the matrix as a change sees it (R369, R370): silence, an input at a held factor with 24 fractional bits,
or a mixture with a held weight in units of 1/48. -/
inductive Sig48 where
  | silence
  | input (n : Nat) (factor : Nat)
  | mix (w : Nat) (new old : Sig48)
deriving DecidableEq, Repr

/-- A change in progress on an output (R368 to R370): `kind` is 0 a zero-crossing change, 1 a gain ramp; `stage` is 0
old, 1 gap, 2 done; it landed at sample time `at_` and its window is `window` samples. -/
structure AudChange where
  kind   : Nat
  stage  : Nat := 0
  at_    : Nat
  window : Nat
  old    : Sig48
  oldGain : Int := 0
  oldMute : Bool := false
deriving DecidableEq, Repr

/-- A matrix output (Table 11.7). -/
structure AudOut where
  input  : Option Nat := none
  gain   : Int := 0
  mute   : Bool := false
  change : Option AudChange := none
  /-- Its entry failed parity: it stays silent until a change or a write (R377). -/
  failed : Bool := false
  failedAt : Nat := 0
deriving DecidableEq, Repr

/-- A linear crossfade of an input from a value it held to what it plays now (R362, R372, R376): sample time and length. -/
structure Seam where
  from_ : Int
  at_   : Nat
  len   : Nat
deriving DecidableEq, Repr

/-- A matrix input as it stands: its sample, its AES3 bits, and whether its channel status marks it non-audio (R356).
`misses` counts samples concealed in a row (R361); `silent` says that it has faded to silence, and `rateBad` that its group
declares a rate that is not de-embedded (R360). -/
structure AudIn where
  sample : Int := 0
  v      : Bool := false
  u      : Bool := false
  c      : Bool := false
  nonAudio : Bool := false
  misses : Nat := 0
  silent : Bool := false
  rateBad : Bool := false
  seam   : Option Seam := none
deriving DecidableEq, Repr

/-- AUD_FOLLOW of a destination (Table 11.8). `next` is an EMBED that takes effect at the next frame start. -/
structure AudFollow where
  mask  : Nat := 0xFFFF
  embed : Bool := true
  now   : Bool := true
deriving DecidableEq, Repr

/-- A serial port (Tables 11.9 and 11.10). `windows` lists the offsets in ppm of the windows that agree, `frames` and
`glitches` what the window in hand holds. -/
structure AudPort where
  inEn   : Bool := false
  outEn  : Bool := false
  format : Nat := 0
  clocks : Nat := 1
  width  : Nat := 1
  state  : Nat := 0
  rate   : Nat := 0
  fifoIn : Nat := 0
  fifoOut : Nat := 0
  ppm    : Int := 0
  agree  : Nat := 0
  lastHz : Nat := 0
  glitches : Nat := 0
  lastL  : Int := 0
  lastR  : Int := 0
  lastEdge : Nat := 0
  cnt    : Counters := []
deriving DecidableEq, Repr

/-- A stream context (Table 11.11). -/
structure AudStream where
  dir      : Nat := 0
  depth    : Nat := 1
  ptime    : Nat := 0
  channels : Nat := 0
  flow     : Nat := 0
  linkUs   : Nat := 0x0BB8
  state    : Nat := 0
  lastAt   : Nat := 0
  since    : Nat := 0
  /-- RTP timestamp of the sample that a receive context expects next. -/
  next     : Option Nat := none
deriving DecidableEq, Repr

/-- A follow change whose switching line has passed (R365, R368): its output and input, and the seal and order of its
take. -/
structure FollowDue where
  out   : Nat
  input : Option Nat
  arm   : Nat
  order : Nat
deriving DecidableEq, Repr

/-- The audio engine. -/
structure Aud where
  outs    : Table AudOut := []
  ins     : Table AudIn := []
  follows : Table AudFollow := []
  due     : List FollowDue := []
  ports   : Table AudPort := []
  streams : Table AudStream := []
  housePlane : Nat := 0
  zcMs    : Nat := 5
  cnt     : Counters := []
deriving DecidableEq, Repr

end Sys2Proof.Machine
end

