-- ==== Sys2Proof/Machine/StCmp.lean ====
section
/-! DEFINITION. The state of the compositors and of the protected content (chapters 9 and 10). -/

namespace Sys2Proof.Machine

/-- The attributes of a layer (Table 9.2). `content` is 0 none, 1 live, 2 surface, 3 kite, 4 still. -/
structure Layer where
  content : Nat := 0
  kernel  : Nat := 0
  obj     : Nat := 0
  fill    : Word := 0xFFFFFFFF#32
  visible : Bool := false
  liveCap : Nat := 2
  alpha   : Nat := 65535
  x       : Int := 0
  y       : Int := 0
  w       : Nat := 0
  h       : Nat := 0
  winX    : Nat := 0
  winY    : Nat := 0
  winW    : Nat := 0
  winH    : Nat := 0
deriving DecidableEq, Repr

/-- A signature rectangle (R333) with its golden value. -/
structure Rect where
  enable : Bool := false
  golden : Bool := false
  x      : Nat := 0
  y      : Nat := 0
  w      : Nat := 0
  h      : Nat := 0
  value  : Word := 0#32
deriving DecidableEq, Repr

/-- What the active and the shadow state hold (R319), with the protection state, which is part of layer 7 (R331). -/
structure Picture where
  layers : List Layer := List.replicate 8 {}
  bgR    : Nat := 0
  bgG    : Nat := 0
  bgB    : Nat := 0
  lutEnable : Bool := false
  rects  : List Rect := List.replicate 4 {}
deriving DecidableEq, Repr

/-- A LUT memory's content: the object it was copied from, and its bytes (R317). -/
structure LutCopy where
  obj  : Nat
  data : List Byte
deriving DecidableEq, Repr

/-- A copy into the shadow memory in hand: the object, the command that waits for it (none: the automatic reload of
R318), and whether it starts only at the landing of a sealed commit (R317). -/
structure LutJob where
  obj     : Nat
  cmd     : Option HostCmd := none
  waiting : Bool := false
deriving DecidableEq, Repr

/-- The two LUT memories of a compositor. -/
structure Lut where
  active  : Option LutCopy := none
  shadow  : Option LutCopy := none
  pending : Bool := false
  bypass  : Bool := false
  /-- Copies in order; the front one is in progress unless it waits. -/
  jobs    : List LutJob := []
  /-- The shadow holds an automatic reload, swapped in at the next output frame start (R318). -/
  autoSwap : Bool := false
deriving DecidableEq, Repr

/-- A sealed commit that awaits its frame (R320): the snapshot with its arming instant and tick, and whose it is. -/
structure Snapshot where
  tick    : Nat
  arm     : Nat
  picture : Picture
  session : Nat
  swap    : Bool := true
deriving DecidableEq, Repr

/-- A signature rectangle as the safety monitor pair follows it (R340, R344, R345). -/
structure RectWatch where
  bad     : Nat := 0
  good    : Nat := 0
  lastFrame : Option Nat := none
  matched : Bool := false
  failed  : Bool := false
  atFailure : Bool := false
  sigRef  : Word := 0#32
  sigOut  : Word := 0#32
deriving DecidableEq, Repr

/-- CMP_PROT_CFG (Table 10.6). -/
structure ProtCfg where
  confirm   : Nat := 2
  holdDest  : Bool := false
  safeStill : Nat := 0x7FF
deriving DecidableEq, Repr

/-- A change of CMP_CONFIG that awaits its output frame start (R323). -/
structure CmpChange where
  plane  : Nat
  format : Nat
  enable : Bool
  at_    : Nat
deriving DecidableEq, Repr

/-- A compositor. `state` is CMP_STATE.STATE (Table 9.13); `conds` gives each layer's condition and blank cause, `sizes`
its W′ and H′ in the current output frame (Tables 9.16 and 9.17). -/
structure Comp where
  state   : Nat := 0
  plane   : Nat := 0
  format  : Nat := 0
  colour  : Nat := 0
  colourNext : Option Nat := none
  change  : Option CmpChange := none
  disableAt : Option Nat := none
  leader  : Nat := 0
  active  : Picture := {}
  shadow  : Picture := {}
  sealed_ : List Snapshot := []
  land    : Nat := 0
  cost    : Nat := 0
  /-- The layers' costs when they last fitted the budget (R321). -/
  costs   : List Nat := List.replicate 8 0
  conds   : List (Nat × Nat) := List.replicate 8 (0, 0)
  sizes   : List (Nat × Nat) := List.replicate 8 (0, 0)
  tainted : Bool := false
  frame   : Nat := 0
  lut     : Lut := {}
  cfg     : ProtCfg := {}
  cfgNext : Option ProtCfg := none
  watch   : List RectWatch := List.replicate 4 {}
  armed   : List Bool := [false, false, false, false]
  reacted : Bool := false
  lastKind : Nat := 0
  compared : Nat := 0
  protCnt : Counters := []
  /-- The partner's last PROT_SIG: frame count, armed rectangles and reference signatures (R348). -/
  peerSig : Option (Nat × Nat × List Word) := none
  /-- Destinations that show the safe frame of this compositor's failure (R343). -/
  safe    : List Nat := []
  cnt     : Counters := []
deriving DecidableEq, Repr

/-- The compositors. -/
structure Cmps where
  comps : Table Comp := []
deriving DecidableEq, Repr

end Sys2Proof.Machine
end

