-- ==== Sys2Proof/Machine/StFlow.lean ====
section
/-! DEFINITION. The state of the flow engines (chapter 5): sources, destinations, aligned groups. -/

namespace Sys2Proof.Machine

/-- A copy or output descriptor (R192): kind 0 none, 1 lane with its first global slot, 2 packet with its flow. -/
structure CopyDef where
  kind  : Nat := 0
  index : Nat := 0
deriving DecidableEq, Repr

/-- The definition of a source (R157, R158). `slot` and `count` are its plane position. -/
structure SrcDef where
  cls    : Nat
  format : Nat
  plane  : Nat
  copy1  : CopyDef
  copy2  : CopyDef := {}
  slot   : Nat := 0
  count  : Nat := 0
deriving DecidableEq, Repr

/-- FLOW_SRC_CFG (Table 5.6). -/
structure SrcCfg where
  hold   : Nat := 0x032
  window : Nat := 8
  taintRepeat : Bool := true
  ptAllow : Bool := true
deriving DecidableEq, Repr

/-- A run of parcels held alike: `crc` is the CRC-32 of each parcel's bytes, `copy` the copy that wrote them (R168). -/
structure ParcelRun where
  first : Nat
  count : Nat
  clean : Bool
  crc   : Word
  copy  : Nat
deriving DecidableEq, Repr

/-- A frame in one of the three buffers of a ring (R167 to R169, R172, R176). -/
structure FrameBuf where
  seq     : Nat
  slot    : Nat
  lead    : Nat
  leadAt  : Nat
  parcels : List ParcelRun := []
  /-- The frame began at a control error and is tainted whatever its parcels (R163). -/
  marked  : Bool := false
  joined  : Bool := false
  leadEnded : Bool := false
  joinEnded : Bool := false
  closed  : Bool := false
  short   : Bool := false
  tainted : Bool := false
  read    : Bool := false
  /-- When its read-out began in pass-through (R175). -/
  readAt  : Option Nat := none
  phi     : Int := 0
deriving DecidableEq, Repr

/-- One copy of a source as it arrives (R162, R167, R170). `inFrame` is the sequence of the frame in hand, `taking`
whether it leads or has joined that frame. -/
structure CopySt where
  lastSeq : Option Nat := none
  inFrame : Option Nat := none
  taking  : Bool := false
  bytes   : Nat := 0
  lost    : Bool := false
  late    : Bool := false
  runGood : Nat := 0
  lastAt  : Nat := 0
deriving DecidableEq, Repr

/-- A source. `phase` is FLOW_SRC_STATUS.STATE (Table 5.7). -/
structure Src where
  cfg     : SrcCfg := {}
  cfgNext : Option SrcCfg := none
  def_    : Option SrcDef := none
  redef   : Option (SrcDef × SrcCfg) := none
  deleting : Bool := false
  phase   : Nat := 0
  format  : Nat := 0
  readFormat : Nat := 0
  units   : Nat := 0
  /-- The Z0 units of the ring, as runs of first unit and length (R266). -/
  ring    : List (Nat × Nat) := []
  adoptCode  : Nat := 0
  adoptCount : Nat := 0
  fmtOver    : Bool := false
  c1      : CopySt := {}
  c2      : CopySt := {}
  lead    : Nat := 0
  skew    : Option Int := none
  phi     : Int := 0
  timedRun : Nat := 0
  bufs    : List FrameBuf := []
  /-- Frames led lately, newest first: sequence, leading copy, arrival. -/
  recent  : List (Nat × Nat × Nat) := []
  lastRead : Nat := 0
  everRead : Bool := false
  repeated : Bool := false
  outTainted : Bool := false
  /-- The next read-out is synchronised: a parcel came too late in pass-through (R175). -/
  ptBroken : Bool := false
  run     : Nat := 0
  newRun  : Nat := 0
  failedFor : Nat := 0
  anc     : List Byte := List.replicate 5 0#8
  group   : Option Nat := none
  cnt     : Counters := []
deriving DecidableEq, Repr

/-- The definition of a destination (R159). -/
structure DstDef where
  cls    : Nat
  format : Nat
  plane  : Nat
  lane   : CopyDef := {}
  packet : CopyDef := {}
deriving DecidableEq, Repr

/-- A destination; layer inputs 1024 to 1535 use the park and display fields only. `shown` is FLOW_DST_STATUS.STATE. -/
structure Dst where
  def_     : Option DstDef := none
  redef    : Option DstDef := none
  deleting : Bool := false
  parkType : Nat := 0
  parkValue : Nat := 0
  shown    : Nat := 0
  cause    : Nat := 0
  seq      : Nat := 0
  /-- The selected source was deleted: only a take brings the destination back (R186). -/
  srcGone  : Bool := false
  /-- DEST_PARKED stands for the park in hand, and PARK_FALLBACK with its reason. -/
  parkSaid : Bool := false
  fallback : Option Nat := none
  /-- Data position at which a parcel left with bad parity, for its PARCEL_CHECK (R156). -/
  badWord  : Bool := false
deriving DecidableEq, Repr

/-- An aligned group (R180, R181). A base is none until the offsets hold. -/
structure Group where
  members : List Nat
  bases   : List (Option Nat)
deriving DecidableEq, Repr

/-- FLOW_TP_CFG of a plane (Table 5.12). -/
structure FlowTp where
  outDelay : Nat := 8
  ptSpan   : Nat := 16
deriving DecidableEq, Repr

/-- The flow engines. -/
structure Flow where
  src    : Table Src := []
  dst    : Table Dst := []
  groups : Table Group := []
  tps    : Table FlowTp := []
deriving DecidableEq, Repr

end Sys2Proof.Machine
end

