-- ==== Sys2Proof/Machine/StFst.lean ====
section
/-! DEFINITION. The state of the frame store (chapter 8). -/

namespace Sys2Proof.Machine

/-- A zone (R262, Table 8.4). `order` is 0 LINEAR, 1 BANKSPREAD, 2 TILE. -/
structure Zone where
  defined  : Bool := false
  order    : Nat := 0
  pcBase   : Nat := 0
  pcLog2   : Nat := 0
  rowBase  : Nat := 0
  rowCount : Nat := 0
deriving DecidableEq, Repr

/-- The reset zones (Table 8.4). -/
def resetZones : List Zone :=
  [⟨true, 1, 0, 7, 0, 10240⟩, ⟨true, 1, 0, 7, 10240, 512⟩, ⟨true, 2, 0, 7, 10752, 4096⟩, ⟨true, 1, 0, 7, 14848, 1024⟩,
   ⟨true, 0, 0, 2, 15872, 510⟩, {}, {}, {}]

/-- One version of an object: its run of units in a zone (R267, R268). `width` and `height` are those of a version built
by CMP_SURFACE_LOAD (R327), else 0; `opaque_` is the opacity map of a version that CMP_PROT_WRITE ended (R335). -/
structure Version where
  kind   : Nat
  zone   : Nat
  format : Nat
  length : Nat
  crc    : Nat
  first  : Nat
  units  : Nat
  width  : Nat := 0
  height : Nat := 0
  opaque_ : List Bool := []
deriving DecidableEq, Repr

/-- What refers to an object (R269): the park setting of a destination, a committed layer, a compositor's LUT memory, or
the protected layer's rectangles. -/
inductive Referencer where
  | park (dest : Nat)
  | layer (comp layer : Nat)
  | lut (comp : Nat)
deriving DecidableEq, Repr

/-- A version that its object no longer holds, and the referencers that have not yet moved (R269). -/
structure OldVersion where
  version : Version
  waiting : List Referencer
  /-- The object was freed by force: the referencers drop it rather than move. -/
  forced  : Bool := false
deriving DecidableEq, Repr

/-- An object ID (R268). `cur` is its version; with `invalid` the ID reads INVALID (`cur` none: its table entry was lost,
R286). `load` is the version being loaded with the instant of its last write. -/
structure Obj where
  cur     : Option Version := none
  invalid : Bool := false
  load    : Option (Version × Nat) := none
  old     : List OldVersion := []
  prot    : Bool := false
  filling : Bool := false
deriving DecidableEq, Repr

/-- A pseudo-channel. `state` is FST_PC_STATUS.STATE (Table 8.17), `openRows` its open rows by bank with the instant of
the last access, `refreshed` the last refresh of each bank. -/
structure FstPc where
  state    : Nat := 0
  retained : Bool := false
  hot      : Bool := false
  service  : Nat := 0
  stored   : Nat := 0
  openRows : Table (Nat × Nat) := []
  refreshed : Table Nat := []
  lastAccess : Nat := 0
deriving DecidableEq, Repr

/-- A burst that awaits its confirming read (R280): its first byte address, who read it (Table 8.19), the failing bytes
and when. -/
structure Confirm where
  addr      : Nat
  requester : Nat
  fails     : List Nat
  at_       : Nat
deriving DecidableEq, Repr

/-- The frame store. `mem` lists the bytes that are not zero by physical address: PC, bank, row and byte within the row;
`bad` lists the addresses whose stored parity fails. -/
structure Fst where
  mem     : List Host.Cell := []
  bad     : List Nat := []
  zones   : List Zone := resetZones
  objs    : Table Obj := []
  pcs     : Table FstPc := []
  lost    : List Nat := []
  confirm : List Confirm := []
  pageIdle : Nat := 0x40
  srIdleUs : Nat := 0x000A
  periodS : Nat := 0x258
  progress : Nat := 0
  passes  : Nat := 0
  passAt  : Nat := 0
  passStored : Nat := 0
  passTransient : Nat := 0
  cnt     : Counters := []
deriving DecidableEq, Repr

end Sys2Proof.Machine
end

