-- ==== Sys2Proof/Machine/StRed.lean ====
section
/-! DEFINITION. The state of the redundancy block (chapter 14). -/

namespace Sys2Proof.Machine

/-- The halyard link (Table 14.4). -/
inductive Link where
  | down | linked | resyncing | inStep
deriving DecidableEq, Repr

/-- The code of a link state (Table 14.4). -/
def Link.code : Link → Nat
  | .down => 0 | .linked => 1 | .resyncing => 2 | .inStep => 3

/-- An item of an epoch record (Table 14.5). -/
inductive RecItem where
  | command (session seq status : Nat)
  | sealed_ (session seq entries : Nat)
  | cueGroup (inst word run entries : Nat) (loops : List Nat)
  | cueBranch (inst word run outcome : Nat)
  | cueStart (inst prog unit run : Nat)
  | landing (plane rate count : Nat)
  | reference (selected house : Nat)
  | handover (position leaseMoves : Nat)
deriving DecidableEq, Repr

/-- An epoch record (Table 14.5). -/
structure EpochRecord where
  tick     : Nat
  gen      : Nat := 0
  position : Nat := 0
  lease    : Bool := false
  items    : List RecItem := []
deriving DecidableEq, Repr

/-- A HELLO as received (Table 14.3). -/
structure Hello where
  addr     : Nat := 0
  position : Nat := 0
  version  : Nat := 1
  mode     : Nat := 0
  build    : Nat := 0
  gen      : Nat := 0
  lease    : Bool := false
  grant    : Bool := false
  link     : Nat := 0
  health   : Nat := 0
deriving DecidableEq, Repr

/-- A command that the follower holds until a record names it (R463). `replied` says that the sequencer's refusal of it has been passed on to the host. -/
structure HeldCmd where
  op    : Op
  cmd   : HostCmd
  since : Nat
  replied : Bool := false
deriving DecidableEq, Repr

/-- A CMD_RESULT whose command has not been executed yet (R464). -/
structure CmdResult where
  session : Nat
  seq     : Nat
  status  : Nat
  params  : List Byte
deriving DecidableEq, Repr

/-- A signature of one frame as a SIGNATURES message carries it (Table 14.3 type 8, Table 14.7). -/
structure Sig where
  index : Nat
  flags : Nat := 0
  value : Word := 0#32
deriving DecidableEq, Repr

/-- Runs of comparison of one signature index (R483). -/
structure SigRun where
  bad  : Nat := 0
  good : Nat := 0
deriving DecidableEq, Repr

/-- A resynchronisation in hand (R478): the role, the snapshot tick, its start on the model's clock, the bytes of the
serialised state, and whether the joiner has loaded it. -/
structure Resync where
  source  : Bool
  tick    : Nat
  started : Nat
  bytes   : Nat := 0
  loaded  : Bool := false
deriving DecidableEq, Repr

/-- The redundancy block. -/
structure Red where
  link      : Link := .down
  resyncDone : Bool := false
  lease     : Bool := false
  grant     : Bool := false
  /-- A pending grant whose handover record has been applied or sent: T7 follows at the next tick (R473, R474). -/
  granted   : Bool := false
  leaseSrc  : Nat := 0
  termMs    : Nat := 0x14
  /-- Term in ms of the lease or grant in hand, and its last renewal. -/
  term      : Nat := 0x14
  renewed   : Nat := 0
  lastEdge  : Option Nat := none
  byCommand : Bool := false
  gen       : Nat := 0
  /-- T6 is due at the next tick (R35, R475); then T7, T10 and T11 likewise. -/
  t6Due     : Bool := false
  t7Due     : Bool := false
  t10Due    : Bool := false
  t11Due    : Bool := false
  /-- The generation of a claim of the partner that awaits its handover (R473). -/
  claim     : Option Nat := none
  /-- A HANDOVER to the partner has been sent, and the partner's lease does not show yet (R473). -/
  handed    : Bool := false
  -- configuration
  autoResync : Bool := true
  divergeFrames : Nat := 3
  resyncDest : Nat := 0x10
  -- partner
  peer      : Hello := {}
  lastCtrl  : Nat := 0
  badCause  : Option Nat := none
  -- records
  kept      : List EpochRecord := []
  items     : List RecItem := []
  applied   : Nat := 0
  peerApplied : Nat := 0
  unacked   : Nat := 0
  held      : List HeldCmd := []
  forwarded : List HeldCmd := []
  results   : List CmdResult := []
  /-- A record is being applied; the outcome of the command in hand as it completed. -/
  applying  : Bool := false
  noted     : Option (Nat × List Byte) := none
  /-- Branch outcomes told by records whose group has not come yet: instance, run, word, outcome. -/
  branches  : List (Nat × Nat × Nat × Bool) := []
  -- read-out choices: sequence and pass-through flag, misses in a row, and the instant of the last miss
  choices   : Table (Nat × Bool) := []
  missed    : Table Nat := []
  missTimes : Table Nat := []
  -- resynchronisation
  resync    : Option Resync := none
  retryAt   : Option Nat := none
  buffered  : List EpochRecord := []
  filling   : Bool := false
  fillLeft  : List Nat := []
  fillFails : Table Nat := []
  fillSent  : Nat := 0
  fillSkipped : Nat := 0
  fillBytes : Nat := 0
  settling  : Table Nat := []
  -- signatures and health
  runs      : Table SigRun := []
  diverged  : List Nat := []
  compTimes : List Nat := []
  mismTimes : List Nat := []
  missing   : Nat := 0
  health    : Nat := 0
  peerReport : List Byte := List.replicate 20 0#8
  peerReportAt : Nat := 0
  /-- Messages sent on each halyard lane (Table 14.2). -/
  msgNo     : Table Nat := []
  cnt       : Counters := []
deriving DecidableEq, Repr

end Sys2Proof.Machine
end

