-- ==== Sys2Proof/Machine/StTim.lean ====
section
/-! DEFINITION. The state of the time subsystem (chapter 13). -/

namespace Sys2Proof.Machine

/-- The loop states (Table 13.1). -/
inductive LoopState where
  | freeRun | acquiring | locked | holdover | lost
deriving DecidableEq, Repr

/-- The code of a loop state (Table 13.1). -/
def LoopState.code : LoopState → Nat
  | .freeRun => 0 | .acquiring => 1 | .locked => 2 | .holdover => 3 | .lost => 4

/-- A master as its Announce gives it, on one PTP port (R427, R428). -/
structure PtpMaster where
  port   : Nat
  msg    : PtpMsg
deriving DecidableEq, Repr

/-- A transmit stamp in the egress time-stamp queue (R430). -/
structure Stamp where
  port : Nat
  seq  : Nat
  at_  : Nat
deriving DecidableEq, Repr

/-- The PTP client (R427 to R430). Offsets and delays are in nanoseconds. -/
structure Ptp where
  domain   : Nat := 0x7F
  unicast  : Bool := false
  portA    : Bool := true
  portB    : Bool := true
  masters  : List PtpMaster := []
  chosen   : Option PtpMaster := none
  /-- Sync in hand: sequence, receive stamp, correction. -/
  sync     : Option (Nat × Nat × Int) := none
  /-- Last complete Sync: origin time with correction, and receive stamp. -/
  lastSync : Option (Int × Nat) := none
  offset   : Option Int := none
  delay    : Int := 0
  queue    : List Stamp := []
  overflow : Bool := false
  delaySeq : Nat := 0
deriving DecidableEq, Repr

/-- One loop. `holdFreq` is the holdover frequency in ppb from nominal, `since` the instant of the last state change on
the model's clock, `restarted` whether the holdover in hand began with a restart (R425, R572). -/
structure Loop where
  state    : LoopState := .freeRun
  everLocked : Bool := false
  freq     : Int := 0
  holdFreq : Int := 0
  since    : Nat := 0
  restarted : Bool := false
deriving DecidableEq, Repr

/-- A reference input (Tables 13.11 and 13.12). `phase` is 0 off, 1 disqualified, 2 waiting, 3 qualified. -/
structure RefIn where
  kind   : Nat := 0
  edge   : Nat := 0
  family : Nat := 1
  rank   : Nat := 8
  tol    : Nat := 0x0A
  phase  : Nat := 0
  suspect : Bool := false
  cause  : Nat := 0
  /-- Never qualified since T2 or since its configuration changed (R434). -/
  first  : Bool := true
  /-- The wait starts when the acquisition in hand ends (R434). -/
  deferred : Bool := false
  waitUntil : Nat := 0
  freq   : Int := 0
  /-- Instant of the last active edge on the model's clock, and on the time counter. -/
  lastEdge : Option Nat := none
  edgeTime : Option Nat := none
  started : Nat := 0
deriving DecidableEq, Repr

/-- The selector and the house loop's switch (R435 to R438). -/
structure Selector where
  ptpRank  : Nat := 8
  wtr      : Nat := 0x12C
  selected : Option Nat := none
  /-- The reference last selected, to which an ISOLATED device returns (R438). -/
  last     : Option Nat := none
  /-- PTP has left LOCKED and waits for WTR_S of LOCKED (R435). -/
  ptpBarred : Bool := false
  /-- Stage of a switch: 0 none, 1 build-out, 2 pull (R436). -/
  stage    : Nat := 0
  stageAt  : Nat := 0
  edges    : Nat := 0
  /-- Pairs of inputs that disagree, with the one not chosen (R437). -/
  disagree : List (Nat × Nat × Nat) := []
deriving DecidableEq, Repr

/-- A timing plane's counts and phase (R440 to R443). `last` is its last frame start at the slowest rate on the time
counter; `slew` is the rate of a realignment in progress, and `stepping` says that the step frame runs. -/
structure Plane where
  started  : Bool := false
  slow     : Nat := 0
  fast     : Nat := 0
  last     : Option Nat := none
  /-- The last frame start at either rate. -/
  lastAny  : Option Nat := none
  slew     : Option Nat := none
  /-- The error that the slew in progress removes. -/
  removing : Int := 0
  stepping : Bool := false
  /-- The partner's count stands and is set at the first frame start (R442, R478). -/
  adopt    : Option Nat := none
deriving DecidableEq, Repr

/-- A compare unit (R444 to R446). `state` is 0 idle, 1 armed, 2 FIRED, 3 MISSED. -/
structure Compare where
  actions : Nat := 0
  output  : Nat := 0
  state   : Nat := 0
  program : Nat := 0
  session : Nat := 0
  role    : Role := .operator
  target  : Nat := 0
  period  : Nat := 0
  /-- The program start of the present target has been taken or refused (R245). -/
  started : Bool := false
deriving DecidableEq, Repr

/-- A pulse output (R447). `next` is the next start of mode PERIODIC on the time counter, `due` a frame start that
awaits its edge, `endAt` the end of the pulse in hand on the model's clock. -/
structure Pulse where
  mode     : Nat := 0
  polarity : Nat := 0
  plane    : Nat := 0
  fastest  : Bool := false
  width    : Nat := 0
  period   : Nat := 0
  start    : Nat := 0
  next     : Nat := 0
  due      : Bool := false
  active   : Bool := false
  endAt    : Nat := 0
  slew     : Option Nat := none
deriving DecidableEq, Repr

/-- A realignment whose entry has been sealed and which lands plane by plane (R443). -/
structure Realign where
  order   : Nat
  planes  : Nat
  pulses  : Nat
  slew    : Bool
  rate    : Nat
  arm     : Nat
  /-- Planes and outputs dealt with so far, and those of them whose error was known. -/
  donePlanes : List Nat := []
  donePulses : List Nat := []
  landedPlanes : Nat := 0
  landedPulses : Nat := 0
deriving DecidableEq, Repr

/-- The time subsystem. `errKind` says how TIM_ERR runs (R572): 0 unknown, 1 locked, 2 growing by XO_PPB since `errAt`,
3 growing by 20 ppm since `errAt`, both from `errBase`; `acqOffset` is the last offset of the acquisition in hand. -/
structure Tim where
  time     : Loop := {}
  house    : Loop := {}
  estimated : Bool := false
  errKind  : Nat := 0
  errBase  : Nat := 0
  errAt    : Nat := 0
  acqOffset : Option Int := none
  restart  : Option (Nat × Nat) := none
  good     : Nat := 0
  bad      : Nat := 0
  holdLimit : Nat := 0x03E8
  xoPpb    : Nat := 0x064
  slew     : Nat := 2
  ptp      : Ptp := {}
  refs     : Table RefIn := []
  sel      : Selector := {}
  planes   : Table Plane := []
  compares : Table Compare := []
  pulses   : Table Pulse := []
  realigns : List Realign := []
  latch    : Table Nat := []
  cnt      : Counters := []
  htState  : Nat := 7
deriving DecidableEq, Repr

end Sys2Proof.Machine
end

