-- ==== Sys2Proof/Machine/StPair.lean ====
section
/-! DEFINITION. The pair state that a resynchronisation carries over the halyard (Table 14.1, R478). -/

namespace Sys2Proof.Machine

/-- The pair state of Table 14.1 as a snapshot holds it. -/
structure PairState where
  -- flows
  src      : Table Src := []
  dst      : Table Dst := []
  groups   : Table Group := []
  flowTps  : Table FlowTp := []
  -- crosspoint
  xdst     : Table XptDst := []
  tps      : Table TpCfg := []
  queue    : List Entry := []
  nextOrder : Nat := 0
  landEvt  : Bool := false
  lateMs   : Nat := 0x3E8
  -- cue programs
  progs    : Table CueProg := []
  insts    : Table CueInst := []
  nextRun  : Nat := 0
  stallTicks : Nat := 0x14
  marks    : List CueMarkItem := []
  -- frame store: objects without contents
  zones    : List Zone := resetZones
  objs     : Table Obj := []
  pageIdle : Nat := 0x40
  srIdleUs : Nat := 0x000A
  periodS  : Nat := 0x258
  -- composition and protected content
  comps    : Table Comp := []
  -- audio
  outs     : Table AudOut := []
  follows  : Table AudFollow := []
  audDue   : List FollowDue := []
  ports    : Table AudPort := []
  streams  : Table AudStream := []
  housePlane : Nat := 0
  zcMs     : Nat := 5
  -- time
  compares : Table Compare := []
  pulses   : Table Pulse := []
  realigns : List Realign := []
  planes   : Table Plane := []
  selected : Option Nat := none
deriving DecidableEq, Repr

end Sys2Proof.Machine
end

