-- ==== Sys2Proof/Syntax.lean ====
section
/-! DEFINITION. The commands of the LX-3210 block: one constructor per row of the opcode table. -/

namespace Sys2Proof

/-- The commands of the block: one constructor per row of spec/opcode_table.json.
`t` is the instant, in nanoseconds of the model's clock, at which the row happens.
A host opcode carries the command packet that asked for it; an event row carries what the event brings. -/
inductive Instr where
  /-- VDD_AON_UP (R41). -/
  | vddAonUp (t : Nat) (pgMode : Bool) (straps : Straps)
  /-- VDD_AON_LOST (R553). -/
  | vddAonLost (t : Nat)
  /-- PG_INPUT_ASSERTED (R42). -/
  | pgInputAsserted (t : Nat) (pg : Nat)
  /-- SEQUENCE_STEP_DELAY_EXPIRED (R42). -/
  | sequenceStepDelayExpired (t : Nat)
  /-- PG_TIMEOUT (R42). -/
  | pgTimeout (t : Nat)
  /-- FIXED_DELAY_ENABLE (R43). -/
  | fixedDelayEnable (t : Nat)
  /-- PG_INPUT_LOW (R44). -/
  | pgInputLow (t : Nat) (pg : Nat)
  /-- POWER_FAULT (R44). -/
  | powerFault (t : Nat) (pg : Nat)
  /-- POWER_FAULT_RESTART (R44). -/
  | powerFaultRestart (t : Nat)
  /-- RST_N_LOW (R46). -/
  | rstNLow (t : Nat)
  /-- RST_N_RELEASE (R46). -/
  | rstNRelease (t : Nat) (straps : Straps)
  /-- PAIR_ROLE_TEST (R566). -/
  | pairRoleTest (t : Nat) (up down : Bool)
  /-- PLL_LOCKED (R48). -/
  | pllLocked (t : Nat) (romStep : Nat)
  /-- CLK_WAIT_RETRY (R48). -/
  | clkWaitRetry (t : Nat)
  /-- IMAGE_SELECTION (R57). -/
  | imageSelection (t : Nat) (badParity : Bool)
  /-- PROCESSOR_ALIVE (R65). -/
  | processorAlive (t : Nat) (proc : Nat)
  /-- ALIVE_TIMEOUT (R63). -/
  | aliveTimeout (t : Nat) (proc : Nat)
  /-- LANE_WAIT_EXPIRED (R66). -/
  | laneWaitExpired (t : Nat)
  /-- HBM_TRAINING_DONE (R66). -/
  | hbmTrainingDone (t : Nat) (failed : Option Nat)
  /-- MEMORY_INIT_DONE (R66). -/
  | memoryInitDone (t : Nat) (failed : Option (Nat × Nat))
  /-- MODE_HAL_WAIT_EXPIRED (R39). -/
  | modeHalWaitExpired (t : Nat)
  /-- TRIAL_CONFIRM_TIMER (R71). -/
  | trialConfirmTimer (t : Nat)
  /-- COMMAND_DATAGRAM (R104). -/
  | commandDatagram (t : Nat) (d : Datagram)
  /-- REASSEMBLY_TIMEOUT (R93). -/
  | reassemblyTimeout (t : Nat) (session : Nat)
  /-- IDENTIFY (R110). -/
  | identify (t : Nat) (c : HostCmd)
  /-- STATUS (R110). -/
  | status (t : Nat) (c : HostCmd)
  /-- MODE_SET (R33). -/
  | modeSet (t : Nat) (c : HostCmd)
  /-- RESET (R110). -/
  | reset (t : Nat) (c : HostCmd)
  /-- RESET_DELAY_EXPIRED (R107). -/
  | resetDelayExpired (t : Nat)
  /-- REG_READ (R111). -/
  | regRead (t : Nat) (c : HostCmd)
  /-- REG_WRITE (R111). -/
  | regWrite (t : Nat) (c : HostCmd)
  /-- REG_RMW (R111). -/
  | regRmw (t : Nat) (c : HostCmd)
  /-- REG_READ_BLOCK (R111). -/
  | regReadBlock (t : Nat) (c : HostCmd)
  /-- REG_WRITE_BLOCK (R111). -/
  | regWriteBlock (t : Nat) (c : HostCmd)
  /-- REGISTER_WRITE (R8). -/
  | registerWrite (t : Nat) (addr value : Nat)
  /-- LOCK_CONFIG (R110). -/
  | lockConfig (t : Nat) (c : HostCmd)
  /-- ADDR_SET (R112). -/
  | addrSet (t : Nat) (c : HostCmd)
  /-- SESSION_KEY_LOAD (R98). -/
  | sessionKeyLoad (t : Nat) (c : HostCmd)
  /-- SESSION_KEY_ERASE (R99). -/
  | sessionKeyErase (t : Nat) (c : HostCmd)
  /-- SESSION_INFO (R110). -/
  | sessionInfo (t : Nat) (c : HostCmd)
  /-- ECHO (R110). -/
  | echo (t : Nat) (c : HostCmd)
  /-- IMG_INFO (R75). -/
  | imgInfo (t : Nat) (c : HostCmd)
  /-- IMG_WRITE_BEGIN (R75). -/
  | imgWriteBegin (t : Nat) (c : HostCmd)
  /-- SLOT_ERASE_DONE (R77). -/
  | slotEraseDone (t : Nat) (slot : Nat)
  /-- IMG_WRITE (R77). -/
  | imgWrite (t : Nat) (c : HostCmd)
  /-- IMAGE_WRITE_TIMEOUT (R77). -/
  | imageWriteTimeout (t : Nat)
  /-- IMG_WRITE_END (R77). -/
  | imgWriteEnd (t : Nat) (c : HostCmd)
  /-- IMG_ACTIVATE (R75). -/
  | imgActivate (t : Nat) (c : HostCmd)
  /-- IMG_TRIAL_ABORT (R72). -/
  | imgTrialAbort (t : Nat) (c : HostCmd)
  /-- IMG_CONFIRM (R71). -/
  | imgConfirm (t : Nat) (c : HostCmd)
  /-- LANE_STATUS (R147). -/
  | laneStatus (t : Nat) (c : HostCmd)
  /-- LANE_CONFIG (R148). -/
  | laneConfig (t : Nat) (c : HostCmd)
  /-- LANE_PRBS (R140). -/
  | lanePrbs (t : Nat) (c : HostCmd)
  /-- LANE_LOOP (R141). -/
  | laneLoop (t : Nat) (c : HostCmd)
  /-- LANE_ERR_INJECT (R142). -/
  | laneErrInject (t : Nat) (c : HostCmd)
  /-- ERROR_INJECTION (R142). -/
  | errorInjection (t : Nat) (lane : Nat)
  /-- LANE_COUNTERS (R147). -/
  | laneCounters (t : Nat) (c : HostCmd)
  /-- LANE_RX_ENABLE_WRITE (R145). -/
  | laneRxEnableWrite (t : Nat) (lane value : Nat)
  /-- CTLE_CODE_WRITE (R138). -/
  | ctleCodeWrite (t : Nat) (lane code : Nat) (auto : Bool)
  /-- LANE_TX_ENABLE_WRITE (R144). -/
  | laneTxEnableWrite (t : Nat) (lane value : Nat)
  /-- LANE_SIGNAL_LOST (R122). -/
  | laneSignalLost (t : Nat) (lane : Nat)
  /-- LANE_SIGNAL_RETURN (R122). -/
  | laneSignalReturn (t : Nat) (lane : Nat)
  /-- CTLE_SWEEP_DONE (R138). -/
  | ctleSweepDone (t : Nat) (lane : Nat) (eyes : List Nat)
  /-- CTLE_TRACK (R138). -/
  | ctleTrack (t : Nat) (lane below here above : Nat)
  /-- LANE_BLOCK_RECEIVED (R119). -/
  | laneBlockReceived (t : Nat) (lane header : Nat) (bytes : List Byte) (errs : Nat)
  /-- BLOCK_LOCK_GAINED (R119). -/
  | blockLockGained (t : Nat) (lane : Nat)
  /-- BLOCK_LOCK_LOST (R119). -/
  | blockLockLost (t : Nat) (lane : Nat)
  /-- BER_INTERVAL (R121). -/
  | berInterval (t : Nat) (lane more : Nat)
  /-- RX_FIFO_OVERFLOW (R123). -/
  | rxFifoOverflow (t : Nat) (lane : Nat)
  /-- PENNANT_RECEIVED (R133). -/
  | pennantReceived (t : Nat) (lane : Nat) (bytes : List Byte)
  /-- PENNANT_LOCK_GAINED (R127). -/
  | pennantLockGained (t : Nat) (lane : Nat)
  /-- PENNANT_LOCK_LOST (R127). -/
  | pennantLockLost (t : Nat) (lane : Nat)
  /-- PENNANT_TRANSMIT (R129). -/
  | pennantTransmit (t : Nat) (lane : Nat)
  /-- FLOW_SRC_DEFINE (R157). -/
  | flowSrcDefine (t : Nat) (c : HostCmd)
  /-- FLOW_DST_DEFINE (R159). -/
  | flowDstDefine (t : Nat) (c : HostCmd)
  /-- FLOW_DELETE (R187). -/
  | flowDelete (t : Nat) (c : HostCmd)
  /-- FLOW_GROUP_SET (R180). -/
  | flowGroupSet (t : Nat) (c : HostCmd)
  /-- FLOW_PARK_SET (R184). -/
  | flowParkSet (t : Nat) (c : HostCmd)
  /-- FLOW_QUERY (R192). -/
  | flowQuery (t : Nat) (c : HostCmd)
  /-- FLOW_ADMIT_CHECK (R191). -/
  | flowAdmitCheck (t : Nat) (c : HostCmd)
  /-- FLOW_SRC_CFG_WRITE (R194). -/
  | flowSrcCfgWrite (t : Nat) (source value : Nat)
  /-- FLOW_TP_CFG_WRITE (R195). -/
  | flowTpCfgWrite (t : Nat) (plane value : Nat)
  /-- SOURCE_DELETE_LANDS (R187). -/
  | sourceDeleteLands (t : Nat) (source : Nat)
  /-- DEST_DELETE_LANDS (R188). -/
  | destDeleteLands (t : Nat) (dest : Nat)
  /-- SOURCE_REDEFINE_LANDS (R189). -/
  | sourceRedefineLands (t : Nat) (source : Nat)
  /-- FLOW_FRAME_START (R162). -/
  | flowFrameStart (t : Nat) (source copy seq flags format : Nat) (anc : Option (List Byte)) (inferred : Bool)
  /-- FLOW_PARCEL (R168). -/
  | flowParcel (t : Nat) (source copy first count : Nat) (data : List Byte) (parity : Bool) (check : Option Word)
  /-- MERGE_WINDOW_EXPIRED (R167). -/
  | mergeWindowExpired (t : Nat) (source seq : Nat)
  /-- COPY_LOST (R170). -/
  | copyLost (t : Nat) (source copy : Nat)
  /-- READ_OUT_POINT (R176). -/
  | readOutPoint (t : Nat) (source : Nat) (packets : List AudPacket)
  /-- HOLD_FRAMES_REACHED (R183). -/
  | holdFramesReached (t : Nat) (source : Nat)
  /-- SWITCHING_LINE (R215). -/
  | switchingLine (t : Nat) (dest : Nat)
  /-- DEST_FRAME_START (R179). -/
  | destFrameStart (t : Nat) (dest : Nat)
  /-- PLANE_WORD_RECEIVED (R201). -/
  | planeWordReceived (t : Nat) (slot word0 word1 word2 word3 : Nat)
  /-- XPT_TAKE (R212). -/
  | xptTake (t : Nat) (c : HostCmd)
  /-- XPT_TAKE_BATCH (R229). -/
  | xptTakeBatch (t : Nat) (c : HostCmd)
  /-- XPT_TAKE_AT (R218). -/
  | xptTakeAt (t : Nat) (c : HostCmd)
  /-- XPT_QUEUE_CANCEL (R228). -/
  | xptQueueCancel (t : Nat) (c : HostCmd)
  /-- XPT_LOCK (R222). -/
  | xptLock (t : Nat) (c : HostCmd)
  /-- XPT_UNLOCK (R222). -/
  | xptUnlock (t : Nat) (c : HostCmd)
  /-- XPT_QUERY (R228). -/
  | xptQuery (t : Nat) (c : HostCmd)
  /-- XPT_TP_SET (R207). -/
  | xptTpSet (t : Nat) (c : HostCmd)
  /-- XPT_QUEUE_STATUS (R228). -/
  | xptQueueStatus (t : Nat) (c : HostCmd)
  /-- EPOCH_TICK (R211). -/
  | epochTick (t : Nat)
  /-- CUE_LOAD (R249). -/
  | cueLoad (t : Nat) (c : HostCmd)
  /-- CUE_RUN (R245). -/
  | cueRun (t : Nat) (c : HostCmd)
  /-- CUE_ABORT (R247). -/
  | cueAbort (t : Nat) (c : HostCmd)
  /-- CUE_STATUS (R252). -/
  | cueStatus (t : Nat) (c : HostCmd)
  /-- CUE_UNLOAD (R253). -/
  | cueUnload (t : Nat) (c : HostCmd)
  /-- CUE_GROUP_EXECUTE (R236). -/
  | cueGroupExecute (t : Nat) (inst : Nat) (parity : Bool)
  /-- CUE_ENTRIES_RETRY (R239). -/
  | cueEntriesRetry (t : Nat) (inst : Nat)
  /-- CUE_STALL_EXPIRED (R239). -/
  | cueStallExpired (t : Nat) (inst : Nat)
  /-- WAIT_FRAMES_RESUME (R241). -/
  | waitFramesResume (t : Nat) (inst : Nat)
  /-- WAIT_TIME_RESUME (R242). -/
  | waitTimeResume (t : Nat) (inst : Nat)
  /-- CUE_TRIGGER_START (R245). -/
  | cueTriggerStart (t : Nat) (unit : Nat)
  /-- CUE_MARK (R235). -/
  | cueMark (t : Nat) (inst : Nat)
  /-- FST_ZONE_SET (R265). -/
  | fstZoneSet (t : Nat) (c : HostCmd)
  /-- FST_OBJ_WRITE (R268). -/
  | fstObjWrite (t : Nat) (c : HostCmd)
  /-- FST_OBJ_READ (R288). -/
  | fstObjRead (t : Nat) (c : HostCmd)
  /-- FST_OBJ_FREE (R269). -/
  | fstObjFree (t : Nat) (c : HostCmd)
  /-- FST_BANK_STATUS (R288). -/
  | fstBankStatus (t : Nat) (c : HostCmd)
  /-- FST_INVALID_CLEAR (R287). -/
  | fstInvalidClear (t : Nat) (c : HostCmd)
  /-- FST_RETAIN_SET (R283). -/
  | fstRetainSet (t : Nat) (c : HostCmd)
  /-- OBJECT_LOAD_TIMEOUT (R268). -/
  | objectLoadTimeout (t : Nat) (object : Nat)
  /-- OBJECT_REFERENCER_MOVE (R269). -/
  | objectReferencerMove (t : Nat) (object kind index : Nat)
  /-- BANK_REINIT (R287). -/
  | bankReinit (t : Nat) (bank : Nat) (ok : Bool)
  /-- SCRUB_READ (R279). -/
  | scrubRead (t : Nat) (pc bank row col : Nat) (raw : Option (List Byte × Word))
  /-- CONFIRMING_READ (R280). -/
  | confirmingRead (t : Nat) (pc bank row col : Nat) (raw : Option (List Byte × Word)) (hard : Bool)
  /-- PC_READ_TIMEOUT (R282). -/
  | pcReadTimeout (t : Nat) (pc : Nat)
  /-- BANK_REFRESH (R276). -/
  | bankRefresh (t : Nat) (pc bank : Nat)
  /-- STACK_TEMPERATURE_CHANGE (R276). -/
  | stackTemperatureChange (t : Nat) (stack : Nat) (celsius : Int)
  /-- PAGE_IDLE_EXPIRED (R275). -/
  | pageIdleExpired (t : Nat) (pc bank : Nat)
  /-- SELF_REFRESH_ENTRY (R277). -/
  | selfRefreshEntry (t : Nat) (pc : Nat)
  /-- WRITE_DRAIN (R273). -/
  | writeDrain (t : Nat) (pc forwarded : Nat)
  /-- CMP_CONFIG (R323). -/
  | cmpConfig (t : Nat) (c : HostCmd)
  /-- CMP_LAYER_SET (R319). -/
  | cmpLayerSet (t : Nat) (c : HostCmd)
  /-- CMP_COMMIT (R320). -/
  | cmpCommit (t : Nat) (c : HostCmd)
  /-- CMP_LUT_LOAD (R317). -/
  | cmpLutLoad (t : Nat) (c : HostCmd)
  /-- CMP_SURFACE_LOAD (R327). -/
  | cmpSurfaceLoad (t : Nat) (c : HostCmd)
  /-- CMP_DISABLE (R322). -/
  | cmpDisable (t : Nat) (c : HostCmd)
  /-- CMP_QUERY (R326). -/
  | cmpQuery (t : Nat) (c : HostCmd)
  /-- CMP_CONFIG_LANDS (R323). -/
  | cmpConfigLands (t : Nat) (comp : Nat)
  /-- CMP_DISABLE_LANDS (R322). -/
  | cmpDisableLands (t : Nat) (comp : Nat)
  /-- OUTPUT_FRAME_START (R312). -/
  | outputFrameStart (t : Nat) (comp : Nat) (late : List (Nat × Nat)) (parity : List (Nat × Nat × Nat)) (probes : List (Nat × Nat))
  /-- LUT_COPY_DONE (R317). -/
  | lutCopyDone (t : Nat) (comp : Nat)
  /-- CMP_PROT_WRITE (R349). -/
  | cmpProtWrite (t : Nat) (c : HostCmd)
  /-- CMP_PROT_RECT_SET (R349). -/
  | cmpProtRectSet (t : Nat) (c : HostCmd)
  /-- CMP_PROT_GOLDEN_SET (R349). -/
  | cmpProtGoldenSet (t : Nat) (c : HostCmd)
  /-- CMP_PROT_STATUS (R349). -/
  | cmpProtStatus (t : Nat) (c : HostCmd)
  /-- CMP_PROT_CFG_WRITE (R351). -/
  | cmpProtCfgWrite (t : Nat) (comp value : Nat)
  /-- SIGNATURE_REPORT (R340). -/
  | signatureReport (t : Nat) (comp rect frame : Nat) (ref out : Option Word) (clear : Option Bool)
  /-- SIGNATURE_REPORT_MISSING (R340). -/
  | signatureReportMissing (t : Nat) (comp rect frame : Nat)
  /-- AUD_ROUTE (R366). -/
  | audRoute (t : Nat) (c : HostCmd)
  /-- AUD_ROUTE_BATCH (R380). -/
  | audRouteBatch (t : Nat) (c : HostCmd)
  /-- AUD_GAIN (R368). -/
  | audGain (t : Nat) (c : HostCmd)
  /-- AUD_FOLLOW (R365). -/
  | audFollow (t : Nat) (c : HostCmd)
  /-- AUD_PORT_CONFIG (R374). -/
  | audPortConfig (t : Nat) (c : HostCmd)
  /-- AUD_STREAM_CONFIG (R375). -/
  | audStreamConfig (t : Nat) (c : HostCmd)
  /-- AUD_QUERY (R379). -/
  | audQuery (t : Nat) (c : HostCmd)
  /-- AUDIO_CHANGE_LANDS (R368). -/
  | audioChangeLands (t : Nat) (output : Nat)
  /-- ZERO_CROSSING_TIMEOUT (R369). -/
  | zeroCrossingTimeout (t : Nat) (output : Nat)
  /-- AUDIO_PARITY (R377). -/
  | audioParity (t : Nat) (channel place : Nat)
  /-- AUDIO_PORT_RATE_WINDOW (R372). -/
  | audioPortRateWindow (t : Nat) (port mhz : Nat)
  /-- AUDIO_PORT_STOP (R374). -/
  | audioPortStop (t : Nat) (port : Nat)
  /-- AUDIO_PORT_FRAME (R374). -/
  | audioPortFrame (t : Nat) (port clocks left right fifoIn fifoOut : Nat) (ppm : Int)
  /-- AUDIO_STREAM_LATE (R376). -/
  | audioStreamLate (t : Nat) (stream : Nat)
  /-- ETH_PORT_CONFIG (R386). -/
  | ethPortConfig (t : Nat) (c : HostCmd)
  /-- ETH_IP_CONFIG (R399). -/
  | ethIpConfig (t : Nat) (c : HostCmd)
  /-- ETH_COUNTERS (R418). -/
  | ethCounters (t : Nat) (c : HostCmd)
  /-- ETH_TX_FLOW (R401). -/
  | ethTxFlow (t : Nat) (c : HostCmd)
  /-- ETH_RX_FLOW (R401). -/
  | ethRxFlow (t : Nat) (c : HostCmd)
  /-- ETH_FLOW_QUERY (R419). -/
  | ethFlowQuery (t : Nat) (c : HostCmd)
  /-- ETH_PORT_CNT_LOW_READ (R418). -/
  | ethPortCntLowRead (t : Nat) (port index master : Nat)
  /-- ETH_MODE_TAKES_EFFECT (R389). -/
  | ethModeTakesEffect (t : Nat)
  /-- PCS_BLOCK_LOCK (R384). -/
  | pcsBlockLock (t : Nat) (port : Nat)
  /-- LINK_UP (R384). -/
  | linkUp (t : Nat) (port : Nat)
  /-- PCS_ALIGNMENT_LOST (R384). -/
  | pcsAlignmentLost (t : Nat) (port : Nat)
  /-- LINK_FAULT_EXPIRED (R384). -/
  | linkFaultExpired (t : Nat) (port : Nat) (remote : Bool)
  /-- PREEMPT_VERIFY_EXPIRED (R394). -/
  | preemptVerifyExpired (t : Nat) (port : Nat)
  /-- ETH_FRAME_RECEIVED (R386). -/
  | ethFrameReceived (t : Nat) (port : Nat) (f : EthFrame)
  /-- RING_CHECK_SEND (R391). -/
  | ringCheckSend (t : Nat)
  /-- RING_CHECK_MISSING (R391). -/
  | ringCheckMissing (t : Nat)
  /-- PAUSE_EXPIRED (R396). -/
  | pauseExpired (t : Nat) (port : Nat)
  /-- PAUSE_TX_THRESHOLD (R397). -/
  | pauseTxThreshold (t : Nat) (port share : Nat)
  /-- PAUSE_REPEAT (R397). -/
  | pauseRepeat (t : Nat) (port : Nat)
  /-- IGMP_QUERY_RECEIVED (R400). -/
  | igmpQueryReceived (t : Nat) (port version querier group : Nat)
  /-- IGMP_REPORT_SEND (R400). -/
  | igmpReportSend (t : Nat) (flow : Nat)
  /-- ADDRESS_PROBE (R399). -/
  | addressProbe (t : Nat) (port family addr : Nat) (conflict : Option Nat)
  /-- MERGE_RELEASE (R412). -/
  | mergeRelease (t : Nat) (flow : Nat) (fails : List (Nat × Nat))
  /-- LEG_LOST (R413). -/
  | legLost (t : Nat) (flow leg : Nat)
  /-- LEG_RESTORED (R413). -/
  | legRestored (t : Nat) (flow leg : Nat)
  /-- MEDIA_PACKET_SEND (R404). -/
  | mediaPacketSend (t : Nat) (flow leg index sched : Nat) (parity : Bool) (data : List Byte)
  /-- TIM_STATUS (R450). -/
  | timStatus (t : Nat) (c : HostCmd)
  /-- TIM_REF_CONFIG (R432). -/
  | timRefConfig (t : Nat) (c : HostCmd)
  /-- TIM_PTP_CONFIG (R427). -/
  | timPtpConfig (t : Nat) (c : HostCmd)
  /-- TIM_COMPARE_SET (R444). -/
  | timCompareSet (t : Nat) (c : HostCmd)
  /-- TIM_PULSE_SET (R447). -/
  | timPulseSet (t : Nat) (c : HostCmd)
  /-- TIM_REALIGN (R443). -/
  | timRealign (t : Nat) (c : HostCmd)
  /-- TIM_NOW_NS_READ (R452). -/
  | timNowNsRead (t : Nat) (master : Nat)
  /-- REALIGN_LANDS (R443). -/
  | realignLands (t : Nat) (out : Bool) (n : Nat)
  /-- ANNOUNCE_TIMEOUT (R429). -/
  | announceTimeout (t : Nat) (port : Nat)
  /-- HOLDOVER_LIMIT (R425). -/
  | holdoverLimit (t : Nat) (house : Bool)
  /-- REF_EDGE (R433). -/
  | refEdge (t : Nat) (input : Nat)
  /-- REF_ABSENT (R433). -/
  | refAbsent (t : Nat) (input : Nat)
  /-- REF_FREQUENCY_WINDOW (R433). -/
  | refFrequencyWindow (t : Nat) (input : Nat) (ppb : Int)
  /-- REF_QUALIFY (R434). -/
  | refQualify (t : Nat) (input : Nat)
  /-- BUILD_OUT_DONE (R436). -/
  | buildOutDone (t : Nat)
  /-- HOUSE_LOOP_LOCKED (R436). -/
  | houseLoopLocked (t : Nat)
  /-- REF_DISAGREE (R437). -/
  | refDisagree (t : Nat) (a b : Nat) (ppbA ppbB : Int)
  /-- PLANE_FRAME_START (R442). -/
  | planeFrameStart (t : Nat) (plane : Nat) (slow : Bool)
  /-- COMPARE_FIRE (R445). -/
  | compareFire (t : Nat) (unit : Nat)
  /-- PULSE_EDGE (R447). -/
  | pulseEdge (t : Nat) (output : Nat) (rising : Bool)
  /-- AON_TIME_RECORD (R448). -/
  | aonTimeRecord (t : Nat)
  /-- RED_STATUS (R486). -/
  | redStatus (t : Nat) (c : HostCmd)
  /-- RED_LEASE_REQUEST (R471). -/
  | redLeaseRequest (t : Nat) (c : HostCmd)
  /-- RED_LEASE_RELEASE (R475). -/
  | redLeaseRelease (t : Nat) (c : HostCmd)
  /-- RED_RESYNC (R477). -/
  | redResync (t : Nat) (c : HostCmd)
  /-- RED_HEALTH (R486). -/
  | redHealth (t : Nat) (c : HostCmd)
  /-- LEASE_IN_EDGE (R471). -/
  | leaseInEdge (t : Nat)
  /-- LEASE_LAPSE (R475). -/
  | leaseLapse (t : Nat)
  /-- HALYARD_HELLO (R462). -/
  | halyardHello (t : Nat) (hello : Machine.Hello) (bad : Bool)
  /-- HELLO_SEND (R460). -/
  | helloSend (t : Nat)
  /-- HALYARD_EPOCH_RECORD (R465). -/
  | halyardEpochRecord (t : Nat) (record : Machine.EpochRecord) (bad : Bool)
  /-- HALYARD_EPOCH_ACK (R465). -/
  | halyardEpochAck (t : Nat) (tick status wanted : Nat) (bad : Bool)
  /-- RECORDS_UNACKNOWLEDGED (R465). -/
  | recordsUnacknowledged (t : Nat)
  /-- HALYARD_CMD_RELAY (R463). -/
  | halyardCmdRelay (t : Nat) (payload : List Byte) (bad : Bool)
  /-- HALYARD_CMD_FORWARD (R463). -/
  | halyardCmdForward (t : Nat) (payload : List Byte) (bad : Bool)
  /-- HALYARD_CMD_RESULT (R464). -/
  | halyardCmdResult (t : Nat) (session seq status : Nat) (params : List Byte) (bad : Bool)
  /-- HELD_COMMAND_TIMEOUT (R463). -/
  | heldCommandTimeout (t : Nat) (session seq : Nat)
  /-- READOUT_DECISION (R467). -/
  | readoutDecision (t : Nat) (plane rate : Nat)
  /-- HALYARD_READOUT (R467). -/
  | halyardReadout (t : Nat) (plane rate : Nat) (choices : List (Nat × Nat × Bool)) (bad : Bool)
  /-- HALYARD_SIGNATURES (R482). -/
  | halyardSignatures (t : Nat) (plane rate frame : Nat) (own peer : List Machine.Sig) (bad : Bool)
  /-- SIGNATURE_WAIT_EXPIRED (R482). -/
  | signatureWaitExpired (t : Nat) (plane rate frame : Nat) (own : List Machine.Sig)
  /-- HALYARD_PROT_SIG (R348). -/
  | halyardProtSig (t : Nat) (comp armed frame : Nat) (sigs : List Word) (bad : Bool)
  /-- HALYARD_HEALTH (R484). -/
  | halyardHealth (t : Nat) (report : List Byte) (bad : Bool)
  /-- HEALTH_SEND (R484). -/
  | healthSend (t : Nat)
  /-- HALYARD_LEASE_CLAIM (R473). -/
  | halyardLeaseClaim (t : Nat) (gen : Nat) (bad : Bool)
  /-- HALYARD_BULK_REQUEST (R459). -/
  | halyardBulkRequest (t : Nat) (kind object offset : Nat) (bad : Bool)
  /-- HALYARD_RESYNC_STATE (R478). -/
  | halyardResyncState (t : Nat) (part : Nat) (snapshot : Option (Nat × Nat × Machine.PairState)) (bad : Bool)
  /-- HALYARD_OBJECT_FILL (R479). -/
  | halyardObjectFill (t : Nat) (object offset : Nat) (data : List Byte) (bad : Bool)
  /-- HALYARD_LOSS (R461). -/
  | halyardLoss (t : Nat)
  /-- PLANE_PHASE_DIVERGE (R468). -/
  | planePhaseDiverge (t : Nat) (plane : Nat)
  /-- RESYNC_TIMEOUT (R478). -/
  | resyncTimeout (t : Nat)
  /-- RESYNC_RETRY (R478). -/
  | resyncRetry (t : Nat)
  /-- SETTLING_END (R480). -/
  | settlingEnd (t : Nat) (plane : Nat)
  /-- SAF_STATUS (R514). -/
  | safStatus (t : Nat) (c : HostCmd)
  /-- SAF_CLEAR (R501). -/
  | safClear (t : Nat) (c : HostCmd)
  /-- SAF_CONFIG (R514). -/
  | safConfig (t : Nat) (c : HostCmd)
  /-- EVT_READ (R512). -/
  | evtRead (t : Nat) (c : HostCmd)
  /-- EVT_INFO (R514). -/
  | evtInfo (t : Nat) (c : HostCmd)
  /-- EVT_RATE_SET (R511). -/
  | evtRateSet (t : Nat) (c : HostCmd)
  /-- EVENT_RECORD_WRITE (R509). -/
  | eventRecordWrite (t : Nat) (fails : List Nat)
  /-- TOGGLE_GATE_REFRESH (R494). -/
  | toggleGateRefresh (t : Nat)
  /-- GATE_EXPIRED (R494). -/
  | gateExpired (t : Nat)
  /-- SAFE_PIN_READBACK (R494). -/
  | safePinReadback (t : Nat) (phase a b : Bool)
  /-- LOCKSTEP_FAIL (R495). -/
  | lockstepFail (t : Nat) (channel : Nat)
  /-- SAFETY_CORE_RELOAD_DONE (R495). -/
  | safetyCoreReloadDone (t : Nat) (flagged spurious : Bool)
  /-- COMPARATOR_SELF_TEST (R496). -/
  | comparatorSelfTest (t : Nat) (flagged spurious : Bool)
  /-- PROC_STALL (R497). -/
  | procStall (t : Nat) (proc : Nat)
  /-- OVER_TEMP (R498). -/
  | overTemp (t : Nat) (sensor celsius : Nat)
  /-- ISLAND_CLOCK_LOST (R28). -/
  | islandClockLost (t : Nat) (island : Nat)
  /-- SUPERVISOR_CLOCK (R29). -/
  | supervisorClock (t : Nat) (khz : Nat)
  /-- CONTEXT_PARITY_CONFIRM (R502). -/
  | contextParityConfirm (t : Nat) (level index : Nat)
  /-- CONTEXT_RELOAD_DONE (R502). -/
  | contextReloadDone (t : Nat) (cell : Nat)
  /-- BLOCK_RESTART_DONE (R502). -/
  | blockRestartDone (t : Nat) (block : Nat)
  /-- STEWARD_RELOAD_DONE (R520). -/
  | stewardReloadDone (t : Nat) (region : Nat)
  /-- PRIVATE_SRAM_PARITY (R519). -/
  | privateSramParity (t : Nat) (proc : Nat)
  /-- CONTROL_SRAM_PARITY (R534). -/
  | controlSramParity (t : Nat) (place : SramUse)
  /-- BACKGROUND_SRAM_CHECK (R535). -/
  | backgroundSramCheck (t : Nat) (proc : Option Nat) (place : Option SramUse)
  /-- BUS_TRANSFER_RESPONSE (R524). -/
  | busTransferResponse (t : Nat) (port tag status : Nat) (badData : Bool) (issued : List (Nat × Machine.Transfer))
  /-- TARGET_TIMEOUT (R525). -/
  | targetTimeout (t : Nat) (port tag : Nat) (issued : List (Nat × Machine.Transfer))
  /-- MASTER_PORT_RESET (R526). -/
  | masterPortReset (t : Nat) (port left : Nat) (issued : List (Nat × Machine.Transfer))
  /-- PORT_RETIRE_DONE (R526). -/
  | portRetireDone (t : Nat) (port : Nat)
  /-- LOCKED_PAIR_TIMEOUT (R529). -/
  | lockedPairTimeout (t : Nat) (waits : Nat) (issued : List (Nat × Machine.Transfer))
  /-- COMPAT_WINDOW_READ (R537). -/
  | compatWindowRead (t : Nat) (addr : Nat)
  /-- PWR_STATUS (R554). -/
  | pwrStatus (t : Nat) (c : HostCmd)
  /-- PWR_LEVEL_SET (R540). -/
  | pwrLevelSet (t : Nat) (c : HostCmd)
  /-- LEVEL_CLOCK_SWITCH (R541). -/
  | levelClockSwitch (t : Nat)
  /-- LEVEL_CHANGE_DONE (R541). -/
  | levelChangeDone (t : Nat)
  /-- PWR_SLEEP (R546). -/
  | pwrSleep (t : Nat) (c : HostCmd)
  /-- STATE_IMAGE_WRITE (R284). -/
  | stateImageWrite (t : Nat) (flagged : List Nat)
  /-- SLEEP_COMMIT_POINT (R547). -/
  | sleepCommitPoint (t : Nat)
  /-- SLEEP_ENABLE_DEASSERT (R547). -/
  | sleepEnableDeassert (t : Nat)
  /-- SLEEP_ABANDONED (R548). -/
  | sleepAbandoned (t : Nat) (mech : Option Nat)
  /-- WAKE_N_LOW (R549). -/
  | wakeNLow (t : Nat) (low : Bool)
  /-- WAKE_ALARM (R549). -/
  | wakeAlarm (t : Nat)
  /-- WAKE_START (R550). -/
  | wakeStart (t : Nat)
  /-- STATE_IMAGE_RESTORE (R551). -/
  | stateImageRestore (t : Nat)
  /-- S1_EXIT (R543). -/
  | s1Exit (t : Nat)
  /-- AON_XTAL_LOST (R553). -/
  | aonXtalLost (t : Nat)
  /-- IMAGE_START_NOW (R75). -/
  | imageStartNow (t : Nat)
  /-- WAKE_SCRUB_DONE (R285). -/
  | wakeScrubDone (t : Nat) (canaries descs scrubbed : List Nat) (ms : Nat)
  /-- ZERO_CROSSING (R369). -/
  | zeroCrossing (t : Nat) (output which : Nat)
  /-- GAIN_RAMP_DONE (R368). -/
  | gainRampDone (t : Nat) (output : Nat)
  /-- CONVERTER_SLIP (R359). -/
  | converterSlip (t : Nat) (channel : Nat)
  /-- REALIGN_SLEW_DONE (R443). -/
  | realignSlewDone (t : Nat) (out : Bool) (n : Nat)
  /-- REF_DISAGREEMENT_END (R437). -/
  | refDisagreementEnd (t : Nat) (a b : Nat)
  /-- PTP_WTR_EXPIRED (R435). -/
  | ptpWtrExpired (t : Nat)
  /-- DELAY_REQ_SEND (R427). -/
  | delayReqSend (t : Nat)
  /-- CUE_PROCESSOR_RELOAD_DONE (R519). -/
  | cueProcessorReloadDone (t : Nat)
  /-- ISLAND_CLOCK_RESTORED (R501). -/
  | islandClockRestored (t : Nat) (island : Nat)
  /-- AON_XTAL_RETURN (R553). -/
  | aonXtalReturn (t : Nat)
deriving DecidableEq, Repr

end Sys2Proof
end

