-- ==== Sys2Proof/Decode.lean ====
section
/-! DEFINITION. What a word of the opcode table spells. No row of the table gives bits: commands of the LX-3210 arrive as
datagrams, which COMMAND_DATAGRAM reads (R79 to R92), and events have no encoding. -/

namespace Sys2Proof

/-- The command that a word spells by the table's bits: none, for no row gives bits.
Log 1 (DESIGN CHOICE, safe). -/
def decodeTableWord (_nbits _w : Nat) : Option Instr := none

end Sys2Proof
end

