-- ==== Sys2Proof/Config.lean ====
section
/-! DEFINITION. What one implementation fixes and the specification leaves open. Every constant here is opaque: no proof
can see its value, and a statement that holds is true whatever it is. -/

namespace Sys2Proof.Config

/-- R265: how many units of zone Z1 the media engine takes for a number of held packets. -/
opaque packetUnits : Nat → Nat

/-- How a rounding to nearest breaks a tie where no rule says (R307 to R309, R355). -/
opaque tieUp : Bool

/-- R309: the coefficient of tap `k` other than the middle one, in 1/256, of kernel 0 (windowed sinc): axis (true vertical),
window size, scaled size, phase and tap. The specification names the filter and gives no table of its coefficients. -/
opaque sincTap : Bool → Nat → Nat → Nat → Nat → Int

/-- R297, R309: where the sample of a component (0 Y, 1 Cb, 2 Cr) of picture position x, y lies in the SDI data stream of a
format, in bits from the start of the frame; the mapping is that of the format's SMPTE standard. -/
opaque sdiSampleBit : Nat → Nat → Nat → Nat → Nat

/-- R316, R317: what a LUT memory holds into which nothing has been copied. -/
opaque emptyLut : List Byte

/-- R355: whether the factor 10^(g/200) of a gain g other than 0 is held one step of 2^-24 above its value rounded down;
the rule gives the resolution and not the rounding. -/
opaque gainUp : Int → Bool

/-- R364: the sample at which a generated AES3 channel-status block begins, modulo 192. -/
opaque aesPhase : Nat

/-- R495: the comparator channel on which a core that halts differs from the other one; no rule gives the channels. -/
opaque lockstepChannel : Nat → Nat

/-- R545, R547: how many units a state image takes, less 1 and modulo 1,024; the rules give its contents and the bound of
64 MiB, not its form. -/
opaque imageUnits : Nat → Nat

/-- R545: the bytes of a state image by offset. -/
opaque imageByte : Nat → Nat → BitVec 8

/-- R525, Table 3.8: the value of a register word that is delivered with BUS_ERROR. -/
opaque failedRead : Nat → Word

/-- R478: how many bytes the serialised pair state of a snapshot takes; the rules give its contents and the bound of 64 MiB,
not its form. -/
opaque resyncBytes : Nat → Nat

end Sys2Proof.Config
end

