-- ==== Sys2Proof/Machine/Crc.lean ====
section
/-! DEFINITION. The cyclic redundancy checks of R571, and big-endian packing of fields (R6). -/

namespace Sys2Proof.Machine

/-- Big-endian value of a run of bytes (R6). -/
def beNat (bs : List Byte) : Nat := bs.foldl (fun a b => a * 256 + b.toNat) 0

/-- The `n` low bytes of a number, most significant first (R6). -/
def beBytes : Nat → Nat → List Byte
  | 0, _ => []
  | n + 1, x => b8 (x / 256 ^ n) :: beBytes n x

/-- The 4 bytes of a register or record word, most significant first. -/
def wordBytes (w : Word) : List Byte := beBytes 4 w.toNat

/-- The words of a run of bytes taken 4 at a time, most significant byte first. -/
def wordsOf : List Byte → List Word
  | a :: b :: c :: d :: r => w32 (beNat [a, b, c, d]) :: wordsOf r
  | _ => []

/-- One bit of CRC-32, polynomial 0x04C11DB7, shifting toward the most significant bit. -/
def crc32Step (c : BitVec 32) : BitVec 32 :=
  if c.msb then (c <<< 1) ^^^ 0x04C11DB7#32 else c <<< 1

/-- CRC-32 of a run of bytes with initial value 0xFFFF_FFFF and final inversion, without reflection (R571). -/
def crc32 (bs : List Byte) : BitVec 32 :=
  ~~~ bs.foldl (fun c b =>
    (List.range 8).foldl (fun c _ => crc32Step c) (c ^^^ (BitVec.ofNat 32 (b.toNat * 16777216)))) 0xFFFFFFFF#32

/-- CRC-8 of a run of bytes with polynomial x^8 + x^2 + x + 1 and initial value 0 (R571). -/
def crc8 (bs : List Byte) : BitVec 8 :=
  bs.foldl (fun c b =>
    (List.range 8).foldl (fun c _ => if c.msb then (c <<< 1) ^^^ 0x07#8 else c <<< 1) (c ^^^ b)) 0#8

end Sys2Proof.Machine
end

