-- ==== Sys2Proof/Machine/Crypto.lean ====
section
/-! DEFINITION. The standard functions that the host protocol and the image checks name: SHA-256, HMAC-SHA-256
(FIPS 198-1, R101), AES-256 key unwrap (RFC 3394, R98) and ECDSA P-256 verification (R55). -/

namespace Sys2Proof.Machine

/-- The round constants of SHA-256. -/
def sha256K : List (BitVec 32) :=
  [0x428a2f98#32, 0x71374491#32, 0xb5c0fbcf#32, 0xe9b5dba5#32, 0x3956c25b#32, 0x59f111f1#32, 0x923f82a4#32, 0xab1c5ed5#32,
   0xd807aa98#32, 0x12835b01#32, 0x243185be#32, 0x550c7dc3#32, 0x72be5d74#32, 0x80deb1fe#32, 0x9bdc06a7#32, 0xc19bf174#32,
   0xe49b69c1#32, 0xefbe4786#32, 0x0fc19dc6#32, 0x240ca1cc#32, 0x2de92c6f#32, 0x4a7484aa#32, 0x5cb0a9dc#32, 0x76f988da#32,
   0x983e5152#32, 0xa831c66d#32, 0xb00327c8#32, 0xbf597fc7#32, 0xc6e00bf3#32, 0xd5a79147#32, 0x06ca6351#32, 0x14292967#32]
  ++
  [0x27b70a85#32, 0x2e1b2138#32, 0x4d2c6dfc#32, 0x53380d13#32, 0x650a7354#32, 0x766a0abb#32, 0x81c2c92e#32, 0x92722c85#32,
   0xa2bfe8a1#32, 0xa81a664b#32, 0xc24b8b70#32, 0xc76c51a3#32, 0xd192e819#32, 0xd6990624#32, 0xf40e3585#32, 0x106aa070#32,
   0x19a4c116#32, 0x1e376c08#32, 0x2748774c#32, 0x34b0bcb5#32, 0x391c0cb3#32, 0x4ed8aa4a#32, 0x5b9cca4f#32, 0x682e6ff3#32,
   0x748f82ee#32, 0x78a5636f#32, 0x84c87814#32, 0x8cc70208#32, 0x90befffa#32, 0xa4506ceb#32, 0xbef9a3f7#32, 0xc67178f2#32]

/-- The chaining value of SHA-256. -/
structure Sha256State where
  a : BitVec 32 := 0x6a09e667#32
  b : BitVec 32 := 0xbb67ae85#32
  c : BitVec 32 := 0x3c6ef372#32
  d : BitVec 32 := 0xa54ff53a#32
  e : BitVec 32 := 0x510e527f#32
  f : BitVec 32 := 0x9b05688c#32
  g : BitVec 32 := 0x1f83d9ab#32
  h : BitVec 32 := 0x5be0cd19#32
deriving DecidableEq, Repr

/-- Rotation to the right of a 32-bit word. -/
def rotr32 (x : BitVec 32) (n : Nat) : BitVec 32 := (x >>> n) ||| (x <<< (32 - n))

/-- The next word of the message schedule from a window of 16 words. -/
def sha256Next (w : List (BitVec 32)) : BitVec 32 :=
  let w1 := w.getD 1 0#32
  let w14 := w.getD 14 0#32
  let s0 := rotr32 w1 7 ^^^ rotr32 w1 18 ^^^ (w1 >>> 3)
  let s1 := rotr32 w14 17 ^^^ rotr32 w14 19 ^^^ (w14 >>> 10)
  w.getD 0 0#32 + s0 + w.getD 9 0#32 + s1

/-- The rounds of SHA-256 over the round constants, with a sliding window of the message schedule. -/
def sha256Rounds : List (BitVec 32) → List (BitVec 32) → Sha256State → Sha256State
  | [], _, s => s
  | k :: ks, w, s =>
    let s1 := rotr32 s.e 6 ^^^ rotr32 s.e 11 ^^^ rotr32 s.e 25
    let ch := (s.e &&& s.f) ^^^ (~~~ s.e &&& s.g)
    let t1 := s.h + s1 + ch + k + w.getD 0 0#32
    let s0 := rotr32 s.a 2 ^^^ rotr32 s.a 13 ^^^ rotr32 s.a 22
    let maj := (s.a &&& s.b) ^^^ (s.a &&& s.c) ^^^ (s.b &&& s.c)
    let t2 := s0 + maj
    sha256Rounds ks (w.drop 1 ++ [sha256Next w])
      { a := t1 + t2, b := s.a, c := s.b, d := s.c, e := s.d + t1, f := s.e, g := s.f, h := s.g }

/-- One block of 16 words. -/
def sha256Block (s : Sha256State) (w : List (BitVec 32)) : Sha256State :=
  let r := sha256Rounds sha256K w s
  { a := s.a + r.a, b := s.b + r.b, c := s.c + r.c, d := s.d + r.d,
    e := s.e + r.e, f := s.f + r.f, g := s.g + r.g, h := s.h + r.h }

/-- All the blocks of a padded message, `n` of them. -/
def sha256Blocks : Nat → List (BitVec 32) → Sha256State → Sha256State
  | 0, _, s => s
  | n + 1, ws, s => sha256Blocks n (ws.drop 16) (sha256Block s (ws.take 16))

/-- The padding of SHA-256: a one bit, zeros, and the length in bits. -/
def sha256Pad (len : Nat) : List Byte :=
  0x80#8 :: (List.replicate ((119 - len % 64) % 64) 0#8 ++ beBytes 8 (len * 8))

/-- SHA-256 of a run of bytes.
Log 116 (PRESUMED, safe). -/
def sha256 (m : List Byte) : List Byte :=
  let p := m ++ sha256Pad m.length
  let s := sha256Blocks (p.length / 64) (wordsOf p) {}
  [s.a, s.b, s.c, s.d, s.e, s.f, s.g, s.h].flatMap wordBytes

/-- HMAC-SHA-256 (FIPS 198-1) with a key of at most 64 bytes.
Log 116 (PRESUMED, safe). -/
def hmacSha256 (key m : List Byte) : List Byte :=
  let k := key ++ List.replicate (64 - key.length) 0#8
  sha256 (k.map (· ^^^ 0x5c#8) ++ sha256 (k.map (· ^^^ 0x36#8) ++ m))

/-- The tag of a fragment: the first 16 bytes of the HMAC (R101). -/
def cmdTag (key m : List Byte) : List Byte := (hmacSha256 key m).take 16

/-- Doubling in the field of AES. -/
def aesX (a : Byte) : Byte :=
  BitVec.ofNat 8 (if 128 ≤ a.toNat then (2 * a.toNat) ^^^ 0x11b else 2 * a.toNat)

/-- The S-box of AES as FIPS 197 tabulates it, entry 0 in the top byte. -/
def aesSboxTable : Nat :=
  0x637c777bf26b6fc53001672bfed7ab76ca82c97dfa5947f0add4a2af9ca472c0b7fd9326363ff7cc34a5e5f171d8311504c723c31896059a071280e2eb27b27509832c1a1b6e5aa0523bd6b329e32f8453d100ed20fcb15b6acbbe394a4c58cfd0efaafb434d338545f9027f503c9fa851a3408f929d38f5bcb6da2110fff3d2cd0c13ec5f974417c4a77e3d645d197360814fdc222a908846eeb814de5e0bdbe0323a0a4906245cc2d3ac629195e479e7c8376d8dd54ea96c56f4ea657aae08ba78252e1ca6b4c6e8dd741f4bbd8b8a703eb5664803f60e613557b986c11d9ee1f8981169d98e949b1e87e9ce5528df8ca1890dbfe6426841992d0fb054bb16

/-- The inverse S-box of AES as FIPS 197 tabulates it, entry 0 in the top byte. -/
def aesInvSboxTable : Nat :=
  0x52096ad53036a538bf40a39e81f3d7fb7ce339829b2fff87348e4344c4dee9cb547b9432a6c2233dee4c950b42fac34e082ea16628d924b2765ba2496d8bd12572f8f66486689816d4a45ccc5d65b6926c704850fdedb9da5e154657a78d9d8490d8ab008cbcd30af7e45805b8b34506d02c1e8fca3f0f02c1afbd0301138a6b3a9111414f67dcea97f2cfcef0b4e67396ac7422e7ad3585e2f937e81c75df6e47f11a711d29c5896fb7620eaa18be1bfc563e4bc6d279209adbc0fe78cd5af41fdda8338807c731b11210592780ec5f60517fa919b54a0d2de57a9f93c99cefa0e03b4dae2af5b0c8ebbb3c83539961172b047eba77d626e169146355210c7d

/-- The S-box of AES. -/
def aesSbox (a : Byte) : Byte := BitVec.ofNat 8 (aesSboxTable / 256 ^ (255 - a.toNat))

/-- The inverse S-box of AES. -/
def aesInvSbox (a : Byte) : Byte := BitVec.ofNat 8 (aesInvSboxTable / 256 ^ (255 - a.toNat))

/-- Byte-wise exclusive or of two runs of bytes. -/
def xorBytes (a b : List Byte) : List Byte := List.zipWith (· ^^^ ·) a b

/-- The key expansion of AES-256 from round word 8 on: `acc` holds the last 8 words, newest last. -/
def aesExpand : Nat → Nat → Byte → List (List Byte) → List (List Byte)
  | 0, _, _, _ => []
  | n + 1, i, rc, acc =>
    let last := acc.getD 7 []
    let t := if i % 8 = 0 then
        xorBytes ((last.drop 1 ++ last.take 1).map aesSbox) [rc, 0#8, 0#8, 0#8]
      else if i % 8 = 4 then last.map aesSbox else last
    let w := xorBytes (acc.getD 0 []) t
    w :: aesExpand n (i + 1) (if i % 8 = 0 then aesX rc else rc) (acc.drop 1 ++ [w])

/-- A run of bytes cut into pieces of 4. -/
def chunks4 : List Byte → List (List Byte)
  | a :: b :: c :: d :: r => [a, b, c, d] :: chunks4 r
  | _ => []

/-- The 15 round keys of AES-256, 16 bytes each, first round first. -/
def aesRoundKeys (key : List Byte) : List (List Byte) :=
  let k := chunks4 key
  let ws := k ++ aesExpand 52 8 0x01#8 k
  (List.range 15).map (fun r => ((ws.drop (4 * r)).take 4).flatten)

/-- The inverse of the row shift of AES, on 16 bytes in column order. -/
def aesInvShift (s : List Byte) : List Byte :=
  (List.range 16).map (fun i => s.getD ((i + 12 * (i % 4)) % 16) 0#8)

/-- One row of the inverse column mix of AES: 14, 11, 13 and 9 times the four bytes, by doublings. -/
def aesInvMixRow (a b c d : Byte) : Byte :=
  let s := a ^^^ b ^^^ c ^^^ d
  let ab := aesX (a ^^^ b)
  let ac := aesX (aesX (a ^^^ c))
  let e := aesX (aesX (aesX s))
  s ^^^ a ^^^ e ^^^ ac ^^^ ab

/-- The inverse column mix of AES on 16 bytes. -/
def aesInvMix : List Byte → List Byte
  | a :: b :: c :: d :: r =>
    aesInvMixRow a b c d :: aesInvMixRow b c d a :: aesInvMixRow c d a b :: aesInvMixRow d a b c :: aesInvMix r
  | _ => []

/-- Decryption of one block with round keys given last round first. -/
def aesDecrypt (rks : List (List Byte)) (b : List Byte) : List Byte :=
  match rks with
  | [] => b
  | k :: ks =>
    let s0 := xorBytes b k
    let mid := ks.dropLast.foldl (fun s k => aesInvMix (xorBytes ((aesInvShift s).map aesInvSbox) k)) s0
    xorBytes ((aesInvShift mid).map aesInvSbox) (ks.getLast?.getD [])

/-- One step of the key unwrap of RFC 3394 on register `i` (1 to 4) at count `t`. -/
def unwrapStep (rks : List (List Byte)) (a : List Byte) (r : List (List Byte)) (i t : Nat) :
    List Byte × List (List Byte) :=
  let b := aesDecrypt rks (xorBytes a (beBytes 8 t) ++ r.getD (i - 1) [])
  (b.take 8, r.set (i - 1) (b.drop 8))

/-- AES-256 key unwrap of 40 bytes with the default initial value (RFC 3394): the 32-byte key, if the check holds.
Log 116 (PRESUMED, safe). -/
def keyUnwrap (kek c : List Byte) : Option (List Byte) :=
  let rks := (aesRoundKeys kek).reverse
  let r0 := [(c.drop 8).take 8, (c.drop 16).take 8, (c.drop 24).take 8, (c.drop 32).take 8]
  let p := ((List.range 24).map (fun n => 24 - n)).foldl
    (fun (x : List Byte × List (List Byte)) t => unwrapStep rks x.1 x.2 ((t - 1) % 4 + 1) t) (c.take 8, r0)
  if p.1 = List.replicate 8 0xA6#8 then some p.2.flatten else none

/-- The prime of the P-256 field. -/
def p256P : Nat := 0xffffffff00000001000000000000000000000000ffffffffffffffffffffffff
/-- The coefficient b of P-256. -/
def p256B : Nat := 0x5ac635d8aa3a93e7b3ebbd55769886bc651d06b0cc53b0f63bce3c3e27d2604b
/-- The order of the P-256 group. -/
def p256N : Nat := 0xffffffff00000000ffffffffffffffffbce6faada7179e84f3b9cac2fc632551
/-- The base point of P-256. -/
def p256G : Nat × Nat :=
  (0x6b17d1f2e12c4247f8bce6e563a440f277037d812deb33a0f4a13945d898c296,
   0x4fe342e2fe1a7f9b8ee7eb4a7c0f9e162bce33576b315ececbb6406837bf51f5)

/-- Powers modulo `m`, over the bits of the exponent from the least significant one; `n` bounds the bits. -/
def powMod (m : Nat) : Nat → Nat → Nat → Nat → Nat
  | 0, _, _, acc => acc
  | n + 1, b, e, acc => powMod m n (b * b % m) (e / 2) (if e % 2 = 1 then acc * b % m else acc)

/-- The inverse modulo a prime. -/
def invMod (m a : Nat) : Nat := powMod m 256 (a % m) (m - 2) 1

/-- Subtraction modulo `m` of numbers below `m`. -/
def subMod (m a b : Nat) : Nat := (a + m - b % m) % m

/-- A point of P-256 in Jacobian coordinates; z = 0 is the point at infinity. -/
abbrev P256Point := Nat × Nat × Nat

/-- Doubling of a point. -/
def p256Double (q : P256Point) : P256Point :=
  let x := q.1
  let y := q.2.1
  let z := q.2.2
  if z = 0 then q else
  let p := p256P
  let delta := z * z % p
  let gamma := y * y % p
  let beta := x * gamma % p
  let alpha := 3 * (subMod p x delta * ((x + delta) % p)) % p
  let x3 := subMod p (alpha * alpha % p) (8 * beta)
  let z3 := subMod p (((y + z) % p) * ((y + z) % p) % p) (gamma + delta)
  let y3 := subMod p (alpha * subMod p (4 * beta % p) x3 % p) (8 * (gamma * gamma % p))
  (x3, y3, z3)

/-- Addition of two points. -/
def p256Add (q r : P256Point) : P256Point :=
  if q.2.2 = 0 then r else if r.2.2 = 0 then q else
  let p := p256P
  let z1z1 := q.2.2 * q.2.2 % p
  let z2z2 := r.2.2 * r.2.2 % p
  let u1 := q.1 * z2z2 % p
  let u2 := r.1 * z1z1 % p
  let s1 := q.2.1 * r.2.2 % p * z2z2 % p
  let s2 := r.2.1 * q.2.2 % p * z1z1 % p
  if u1 = u2 then (if s1 = s2 then p256Double q else (1, 1, 0)) else
  let h := subMod p u2 u1
  let rr := subMod p s2 s1
  let h2 := h * h % p
  let h3 := h * h2 % p
  let v := u1 * h2 % p
  let x3 := subMod p (rr * rr % p) (h3 + 2 * v)
  let y3 := subMod p (rr * subMod p v x3 % p) (s1 * h3 % p)
  let z3 := q.2.2 * r.2.2 % p * h % p
  (x3, y3, z3)

/-- A multiple of a point, over `n` bits of the factor from the most significant one. -/
def p256Mul : Nat → Nat → P256Point → P256Point
  | 0, _, _ => (1, 1, 0)
  | n + 1, k, q =>
    let d := p256Double (p256Mul n (k / 2) q)
    if k % 2 = 1 then p256Add d q else d

/-- A public key that lies on the curve. -/
def p256OnCurve (x y : Nat) : Bool :=
  decide (x < p256P) && decide (y < p256P)
    && decide (y * y % p256P = (x * x % p256P * x + (p256P - 3) * x + p256B) % p256P)

/-- Verification of an ECDSA P-256 signature (r, s) over a digest with the public key (x, y).
Log 116 (PRESUMED, safe). -/
def ecdsaVerify (x y r s digest : Nat) : Bool :=
  if p256OnCurve x y && decide (0 < r) && decide (r < p256N) && decide (0 < s) && decide (s < p256N) then
    let w := invMod p256N s
    let u1 := digest * w % p256N
    let u2 := r * w % p256N
    let q := p256Add (p256Mul 256 u1 (p256G.1, p256G.2, 1)) (p256Mul 256 u2 (x, y, 1))
    if q.2.2 = 0 then false
    else
      let zi := invMod p256P q.2.2
      decide (q.1 * (zi * zi % p256P) % p256P % p256N = r)
  else false

end Sys2Proof.Machine
end

