-- ==== Sys2Proof/Machine/StEth.lean ====
section
/-! DEFINITION. The state of the Ethernet ports and the media engine (chapter 12). -/

namespace Sys2Proof.Machine

/-- Counters of 64 bits (R417). -/
abbrev Counters64 := Table (BitVec 64)

/-- A port (Tables 12.7 to 12.9). `link` is 0 DOWN, 1 ALIGNING, 2 UP. -/
structure EthPort where
  enable   : Bool := true
  preempt  : Bool := true
  pauseRx  : Bool := false
  pauseTx  : Bool := false
  mediaPct : Nat := 0x5A
  dscpPtp  : Nat := 0x2E
  dscpCtl  : Nat := 0
  maxFrame : Nat := 0x05F2
  vid      : Nat := 0
  pcpExp   : Nat := 6
  pcpMedia : Nat := 5
  txPol    : Nat := 0
  rxPol    : Nat := 0
  -- link
  link     : Nat := 0
  localFault : Bool := false
  remoteFault : Bool := false
  /-- When ALIGNING began. -/
  goodSince : Nat := 0
  preemptState : Nat := 0
  verifyTries : Nat := 0
  verifyAt : Nat := 0
  pausedTo : Option Nat := none
  pausing  : Bool := false
  pauseAt  : Nat := 0
  igmpV2   : Bool := false
  /-- Share of the Z1 packet buffers that the port's reception holds, in percent (R397). -/
  share    : Nat := 0
  echoCredit : Nat := 100
  echoAt   : Nat := 0
  cnt      : Counters64 := []
  /-- High words latched by reads of the low words, by master and counter: 0 host, 1 compatibility window (R418). -/
  latch    : Table (BitVec 32) := []
deriving DecidableEq, Repr

/-- One leg of a flow (R401). -/
structure Leg where
  group   : Nat := 0
  udpPort : Nat := 0
  srcPort : Nat := 0
  src1    : Nat := 0
  src2    : Nat := 0
deriving DecidableEq, Repr

/-- A packet that the merge holds (R412): number, the leg's copies that came (bit 0 A, bit 1 B), when the first came, and
its payload. -/
structure HeldPkt where
  n       : Nat
  legs    : Nat
  at_     : Nat
  payload : List Byte := []
  rtp     : Nat := 0
  marker  : Bool := false
  /-- The RTP header extension's element: frame sequence number and flags (R405). -/
  element : Option (Nat × Nat) := none
  firstOfFrame : Bool := false
deriving DecidableEq, Repr

/-- One receive leg's health (R413). `good` counts the 1 ms intervals in a row that held a packet. -/
structure LegState where
  lost    : Bool := false
  lastAt  : Nat := 0
  goodSince : Nat := 0
deriving DecidableEq, Repr

/-- A receive flow (Table 12.11). -/
structure RxFlow where
  kind    : Nat := 0
  legA    : Option Leg := none
  legB    : Option Leg := none
  format  : Nat := 0
  pt      : Nat := 0xFF
  pd      : Nat := 0x0A
  anc     : Option Nat := none
  state   : Nat := 0
  ensign  : Bool := false
  element : Bool := false
  noElement : Bool := false
  next    : Option Nat := none
  held    : List HeldPkt := []
  a       : LegState := {}
  b       : LegState := {}
  lastRtp : Option Nat := none
  frameSeq : Nat := 0
  bytesIn : Nat := 0
  joinAt  : Nat := 0
  joinLeft : Nat := 0
  cnt     : Counters := []
deriving DecidableEq, Repr

/-- A change of a bound transmit flow, which waits for the destination's next frame start (R420), and the flow itself
(Table 12.12). -/
structure TxCfg where
  kind    : Nat := 0
  legA    : Option Leg := none
  legB    : Option Leg := none
  format  : Nat := 0
  pt      : Nat := 0x60
  dscp    : Nat := 0
  ttl     : Nat := 0
  ssrc    : Nat := 0
  ext     : Bool := true
  exclAudio : Bool := false
  anc     : Option Nat := none
deriving DecidableEq, Repr

/-- A transmit flow. -/
structure TxFlow where
  cfg     : TxCfg := {}
  next    : Option TxCfg := none
  /-- A packet of the frame in hand was dropped for parity (R406). -/
  tainted : Bool := false
  /-- RTP sequence number of the next audio or ancillary packet. -/
  seq     : Nat := 0
  cnt     : Counters := []
deriving DecidableEq, Repr

/-- The ring block of R391. `isOpen` says that the blocked port forwards; `seen` counts ring-check frames that came in a row
up to `lastSeq`, and `heardAt` is when the last came. -/
structure Ring where
  isOpen : Bool := false
  seen   : Nat := 0
  lastSeq : Option Nat := none
  seq    : Nat := 0
  sentAt : Nat := 0
  heardAt : Nat := 0
deriving DecidableEq, Repr

/-- An address of a port (R399): `state` is 0 being probed, 1 in use, 2 in conflict; `sent` counts its probes. -/
structure Probe where
  addr   : Nat := 0
  sent   : Nat := 0
  state  : Nat := 0
deriving DecidableEq, Repr

/-- The Ethernet side. `modeChange` is an ETH_MODE that takes effect 10 ms after its reply (R389). -/
structure Eth where
  ports   : Table EthPort := []
  rx      : Table RxFlow := []
  tx      : Table TxFlow := []
  ring    : Ring := {}
  modeChange : Option (Bool × Nat × Nat) := none
  tsOverflow : Nat := 0
  probes  : Table Probe := []
deriving DecidableEq, Repr

end Sys2Proof.Machine
end

