-- ==== Sys2Proof/Machine/StLane.lean ====
section
/-! DEFINITION. The state of the Rolist and halyard lanes (chapter 4). Lanes 0 to 127 are LRX and LTX, 128 to 131 HAL. -/

namespace Sys2Proof.Machine

/-- Where a receive lane stands (Table 4.6). -/
inductive RxState where
  | disabled | noSignal | sweep | blockHunt | pennantHunt | locked | test
deriving DecidableEq, Repr

/-- The code of a receive lane's state (Table 4.6). -/
def RxState.code : RxState → Nat
  | .disabled => 0 | .noSignal => 1 | .sweep => 2 | .blockHunt => 3 | .pennantHunt => 4 | .locked => 5 | .test => 6

/-- A receive lane. `pennants` keeps bytes 2 to 6 of the last valid pennant of each type (R133); `ident` is the last
IDENT content, accepted when it comes twice. -/
structure RxLane where
  enable    : Bool := true
  auto      : Bool := true
  code      : Nat := 0x0A
  mapCheck  : Bool := true
  expectMap : Nat := 0
  state     : RxState := .disabled
  lostAt    : Nat := 0
  sweepAt   : Nat := 0
  huntAt    : Nat := 0
  ctleNow   : Nat := 0
  ber       : Bool := false
  mismatch  : Bool := false
  mapDiff   : Nat := 0
  ensign    : Bool := false
  pennants  : Table (List Byte) := []
  ident     : Option (List Byte) := none
  peer      : Word := 0#32
  timeAt    : Nat := 0
  -- block alignment (R119) and the BER interval (R121)
  huntBit   : Nat := 0
  huntGood  : Nat := 0
  winBlocks : Nat := 0
  winBad    : Nat := 0
  berBad    : Nat := 0
  recent    : List Nat := []
  -- pennant alignment (R127)
  position  : Nat := 0
  runGood   : Nat := 0
  lastType  : Nat := 0
  runBad    : Nat := 0
  -- PRBS checker (R140)
  checker   : Nat := 0
  prbsSync  : Bool := false
  prbsGood  : Nat := 0
  winBits   : Nat := 0
  winErrs   : Nat := 0
  bitRest   : Nat := 0
  cnt       : Counters := []
deriving DecidableEq, Repr

/-- Error injection in hand (R142). `next` is the instant of the next injection. -/
structure Injection where
  target   : Nat
  left     : Nat
  interval : Nat
  next     : Nat
deriving DecidableEq, Repr

/-- A transmit lane. `map` is the slot map as the flow engine writes it (version, occupancy, class codes), and `sent`
what its pennants carry (R137). -/
structure TxLane where
  enable   : Bool := true
  swing    : Nat := 5
  post     : Nat := 4
  pre      : Nat := 1
  tag      : Nat := 0
  mapVersion : Nat := 0
  classes  : List Nat := List.replicate 16 0
  sentVersion : Nat := 0
  sentClasses : List Nat := List.replicate 16 0
  frame    : Nat := 0
  bunting  : Nat := 0
  gen      : Nat := 0
  near     : Bool := false
  far      : Bool := false
  inject   : Option Injection := none
  /-- The next pennant's CRC is corrupted (R142). -/
  badCrc   : Bool := false
  seed     : Nat := 0
deriving DecidableEq, Repr

/-- The lanes. `signals` lists the receive lanes whose pins carry a signal; `ensign` is the condition of R131 with the
instant of its last change. -/
structure Lanes where
  rx      : Table RxLane := []
  tx      : Table TxLane := []
  signals : List Nat := []
  ensign  : Bool := false
  ensAt   : Nat := 0
deriving DecidableEq, Repr

end Sys2Proof.Machine
end

