-- ==== Sys2Proof/Machine/StImage.lean ====
section
/-! DEFINITION. The state image of an entry into S2 (R545). -/

namespace Sys2Proof.Machine

/-- What the state image holds (R545): the parts with pair state, the device-local settings, the configuration lock and the
performance level. The restore takes from each part what R551 names. The recorder keeps its contents by itself (R508). -/
structure SavedState where
  flow  : Flow := {}
  xpt   : Xpt := {}
  stallTicks : Nat := 0x14
  pageIdle : Nat := 0x40
  srIdleUs : Nat := 0x000A
  periodS  : Nat := 0x258
  cmp   : Cmps := {}
  aud   : Aud := {}
  tim   : Tim := {}
  lane  : Lanes := {}
  eth   : Eth := {}
  red   : Red := {}
  halWaitMs : Nat := 0x3E8
  locked : Bool := false
  faultYield : Bool := true
  stallAction : Bool := false
  compatEn : Bool := true
  compatBank : Nat := 0
  level : Nat := 0
deriving DecidableEq, Repr

end Sys2Proof.Machine
end

