-- ==== Sys2Proof/Machine/State.lean ====
section
/-! DEFINITION. The state of the LX-3210 block, its reset, and the reasons a step can stop. -/

namespace Sys2Proof.Machine

/-- The machine. Every piece of state that the spec gives the device stands in one of these parts; `pending` is the
queue of commands of the model, `out` the model's log of what the device puts out (newest first), and `free` the
model's own counter behind the free values. -/
structure State where
  pending : List Instr := []
  clock  : Clock := {}
  mode   : Mode := .boot
  halWaitMs : Nat := 0x3E8
  fuses  : Fuses := {}
  seq    : Seq := {}
  aon    : Aon := {}
  pins   : Pins := {}
  start  : Start := {}
  cal    : Calib := {}
  flash  : Flash := {}
  host   : HostSt := {}
  evt    : Recorder := {}
  saf    : Safety := {}
  ctl    : Ctl := {}
  pwr    : Pwr := {}
  xpt    : Xpt := {}
  cue    : Cue := {}
  red    : Red := {}
  eth    : Eth := {}
  tim    : Tim := {}
  lane   : Lanes := {}
  flow   : Flow := {}
  fst    : Fst := {}
  cmp    : Cmps := {}
  aud    : Aud := {}
  out    : List Out := []
  free   : Nat := 0
  /-- What the state image says that stands as object 2047 (R545). -/
  image  : Option SavedState := none
deriving DecidableEq, Repr

/-- The machine before VDD_AON comes up: every field at its reset value.
Log 3 (DESIGN CHOICE, unsafe). -/
def State.reset : State := {}

/-- Why the model stops with a fault.
Log 8 (DESIGN CHOICE, safe). -/
inductive Fault where
  /-- Raised by an event row that names a lane, source, destination, compositor, port or other object outside the
  ranges of Table 0.6: no such object exists (R14), so nothing can happen to it. Safe: the machine stops. -/
  | noSuchObject
deriving DecidableEq, Repr

/-- Why the model refuses a command. -/
inductive Refusal where
  /-- Raised by the dispatch for a row that has no meaning yet. Safe: the machine stops. -/
  | notModelled (mnemonic : String)
deriving DecidableEq, Repr

end Sys2Proof.Machine
end

