-- ==== Sys2Proof/Machine/Parts.lean ====
section
/-! DEFINITION. Updates of one part of the state by a function of that part. -/

namespace Sys2Proof.Machine

/-- Change the `clock` part of the state. -/
def onClock (f : Clock → Clock) (s : State) : State := { s with clock := f s.clock }

/-- Change the `fuses` part of the state. -/
def onFuses (f : Fuses → Fuses) (s : State) : State := { s with fuses := f s.fuses }

/-- Change the `seq` part of the state. -/
def onSeq (f : Seq → Seq) (s : State) : State := { s with seq := f s.seq }

/-- Change the `aon` part of the state. -/
def onAon (f : Aon → Aon) (s : State) : State := { s with aon := f s.aon }

/-- Change the `pins` part of the state. -/
def onPins (f : Pins → Pins) (s : State) : State := { s with pins := f s.pins }

/-- Change the `start` part of the state. -/
def onStart (f : Start → Start) (s : State) : State := { s with start := f s.start }

/-- Change the `cal` part of the state. -/
def onCal (f : Calib → Calib) (s : State) : State := { s with cal := f s.cal }

/-- Change the `flash` part of the state. -/
def onFlash (f : Flash → Flash) (s : State) : State := { s with flash := f s.flash }

/-- Change the `host` part of the state. -/
def onHost (f : HostSt → HostSt) (s : State) : State := { s with host := f s.host }

/-- Change the `evt` part of the state. -/
def onEvt (f : Recorder → Recorder) (s : State) : State := { s with evt := f s.evt }

/-- Change the `saf` part of the state. -/
def onSaf (f : Safety → Safety) (s : State) : State := { s with saf := f s.saf }

/-- Change the `ctl` part of the state. -/
def onCtl (f : Ctl → Ctl) (s : State) : State := { s with ctl := f s.ctl }

/-- Change the `pwr` part of the state. -/
def onPwr (f : Pwr → Pwr) (s : State) : State := { s with pwr := f s.pwr }

/-- Change the `xpt` part of the state. -/
def onXpt (f : Xpt → Xpt) (s : State) : State := { s with xpt := f s.xpt }

/-- Change the `cue` part of the state. -/
def onCue (f : Cue → Cue) (s : State) : State := { s with cue := f s.cue }

/-- Change the `red` part of the state. -/
def onRed (f : Red → Red) (s : State) : State := { s with red := f s.red }

/-- Change the `eth` part of the state. -/
def onEth (f : Eth → Eth) (s : State) : State := { s with eth := f s.eth }

/-- Change the `tim` part of the state. -/
def onTim (f : Tim → Tim) (s : State) : State := { s with tim := f s.tim }

/-- Change the `lane` part of the state. -/
def onLane (f : Lanes → Lanes) (s : State) : State := { s with lane := f s.lane }

/-- Change the `flow` part of the state. -/
def onFlow (f : Flow → Flow) (s : State) : State := { s with flow := f s.flow }

/-- Change the `fst` part of the state. -/
def onFst (f : Fst → Fst) (s : State) : State := { s with fst := f s.fst }

/-- Change the `cmp` part of the state. -/
def onCmp (f : Cmps → Cmps) (s : State) : State := { s with cmp := f s.cmp }

/-- Change the `aud` part of the state. -/
def onAud (f : Aud → Aud) (s : State) : State := { s with aud := f s.aud }

end Sys2Proof.Machine
end

