-- ==== Sys2Proof/Machine/Ops.lean ====
section
/-! DEFINITION. The named operations that every command shares: the passing of time, the raising of events, the log of
outputs and the reply to a command. -/

namespace Sys2Proof.Machine

/-- Advance the model's clock to instant `t`. An instant that lies before the clock is taken as the clock's own. While
the time counter runs it advances by the same time (R423).
Log 6 (DESIGN CHOICE, safe). -/
def advance (t : Nat) (s : State) : State :=
  { s with clock := { s.clock with
      clk := max s.clock.clk t
      now := if s.clock.running then s.clock.now + (t - s.clock.clk) else s.clock.now } }

/-- What a step does when no command waits: one period of the 500 MHz core clock passes (Table 0.8).
Log 2 (DESIGN CHOICE, unsafe). -/
def idle (s : State) : State := advance (s.clock.clk + 2) s

/-- Log one output of the device, newest first.
Log 4 (DESIGN CHOICE, safe). -/
def emit (o : Out) (s : State) : State := { s with out := o :: s.out }

/-- Log a change of an output pin at the present instant. -/
def emitPin (name : String) (level : Nat) (s : State) : State := emit (.pin s.clock.clk name level) s

/-- Hierarchy path of a region, a block and a cell (R15). -/
def pathRegion (r : Nat) : Nat := 0x4000 + r
/-- Hierarchy path of a block (R15). -/
def pathBlock (b : Nat) : Nat := 0x8000 + b
/-- Hierarchy path of a cell (R15). -/
def pathCell (c : Nat) : Nat := 0xC000 + c

/-- Put a detected happening where it waits for the recorder: the pending queue of 256 records (R509), or, while the
recorder does not run, the list that is recorded when it runs again (R78). -/
def pushEvent (e : Ev) (s : State) : State :=
  if s.evt.running then
    if s.evt.pending.length < 256 then { s with evt := { s.evt with pending := s.evt.pending ++ [e] } }
    else { s with evt := { s.evt with lost := s.evt.lost + 1, cnt := bump s.evt.cnt 1 } }
  else { s with evt := { s.evt with preRec := s.evt.preRec ++ [e] } }

/-- A fault or dangerous event, or a safety reaction, withholds the confirmation of a trial image (R71). -/
def blockTrial (sev : Nat) (s : State) : State :=
  if 4 ≤ sev && s.aon.boot.trial then { s with flash := { s.flash with trialBlocked := true } } else s

/-- Raise event `code` with severity `sev` and class `cls`, detected now in the present mode (R506). -/
def raise (sev cls code path : Nat) (payload : List Word) (s : State) : State :=
  pushEvent { code := code, sev := sev, cls := cls, path := path, mode := s.mode.code, at_ := s.clock.now,
              payload := payload } (blockTrial sev s)

/-- The recorder starts to run: what arose before is recorded now, with the time of the recording (R78). -/
def startRecorder (s : State) : State :=
  let evs := s.evt.preRec.map (fun e => { e with at_ := s.clock.now })
  evs.foldl (fun s e => pushEvent e s)
    { s with evt := { s.evt with running := true, preRec := [] } }

/-- A word of four 8-bit fields, first field in bits [31:24]. -/
def pack8 (a b c d : Nat) : Word := w32 (a % 256 * 0x1000000 + b % 256 * 0x10000 + c % 256 * 0x100 + d % 256)
/-- A word of two 16-bit fields, first field in bits [31:16]. -/
def pack16 (a b : Nat) : Word := w32 (a % 0x10000 * 0x10000 + b % 0x10000)
/-- A word of one 16-bit field in bits [31:16] and two 8-bit fields. -/
def pack16_8 (a b c : Nat) : Word := w32 (a % 0x10000 * 0x10000 + b % 256 * 0x100 + c % 256)
/-- A word of two 8-bit fields in bits [31:16] and a 16-bit field. -/
def pack8_16 (a b c : Nat) : Word := w32 (a % 256 * 0x1000000 + b % 256 * 0x10000 + c % 0x10000)
/-- One bit as a number. -/
def bit (b : Bool) : Nat := if b then 1 else 0
/-- The two words of a 64-bit field, high word first. -/
def words64 (n : Nat) : List Word := [w32 (n / 0x100000000), w32 n]

/-- The paired strap as sampled (R454). -/
def paired (s : State) : Bool := s.start.straps.pairRole != 0

/-- The halyard is in step with the partner (Table 1.10 HALYARD). -/
def inStep (s : State) : Bool := s.red.link == .inStep

/-- Halyard lane `h` is usable (R458): it holds pennant lock, and its IDENT shows an LX-3210, the lane number of the
receiving lane and the opposite pair position. -/
def laneUsable (s : State) (h : Nat) : Bool :=
  let r := tget {} s.lane.rx (128 + h)
  let w := r.peer.toNat
  r.state == .locked && w / 0x1000000 == 1 && w / 0x10000 % 256 == 128 + h
    && paired s && w / 0x4000 % 4 + s.start.straps.pairRole == 3

/-- The usable halyard lanes, lowest first: the first is the control lane, the others are bulk lanes (R458). -/
def usableLanes (s : State) : List Nat := (List.range 4).filter (laneUsable s)

/-- The usable halyard lanes as bits (Table 14.13). -/
def laneBits (s : State) : Nat := (usableLanes s).foldl (fun a h => a + 2 ^ h) 0

/-- A device of a pair whose halyard is in step is the sequencer when it holds the lease, or when nobody does and it is
the first half; every other device is its own sequencer (R455). -/
def isSequencer (s : State) : Bool :=
  !paired s || !inStep s || s.red.lease || (!s.red.peer.lease && !s.red.handed && s.start.straps.pairRole == 1)

/-- The device follows its partner: in step, and not the sequencer (R455). -/
def follows (s : State) : Bool := paired s && inStep s && !isSequencer s

/-- The device leads its partner: in step, and the sequencer (R455). -/
def leads (s : State) : Bool := paired s && inStep s && isSequencer s

/-- The device writes epoch records: it leads in step, or it is the source of a resynchronisation (R465, R478). -/
def writesRecords (s : State) : Bool :=
  leads s || (paired s && s.red.link == .resyncing && (s.red.resync.map (·.source)).getD false)

/-- Name an item in the epoch record in hand (R465). -/
def recordItem (it : RecItem) (s : State) : State :=
  if writesRecords s then { s with red := { s.red with items := s.red.items ++ [it] } } else s

/-- Send a halyard message of a type on the control lane, or, for the parts of a resynchronisation, on a bulk lane; it has
the next number of its lane (R458 to R460, Table 14.2). Without a usable lane nothing is sent.
Log 90 (DESIGN CHOICE, safe). -/
def sendHalyard (kind : Nat) (payload : List Byte) (s : State) : State :=
  match usableLanes s with
  | [] => s
  | c :: bulk =>
    let lane := if kind = 11 || kind = 12 then bulk.headD c else c
    let n := tget 0 s.red.msgNo lane
    emit (.halyard s.clock.clk lane n kind payload)
      { s with red := { s.red with msgNo := tset s.red.msgNo lane ((n + 1) % 0x10000) } }

/-- The Conductor is stalled or halted: no command is executed (R499, R519). -/
def conductorStopped (s : State) : Bool := s.saf.stalled.contains 0 || s.ctl.halted.contains 0

/-- The device's system address (R16). -/
def sysAddr (s : State) : Nat := s.aon.frameId % 256 * 64 + s.start.straps.pos % 64

/-- Objects or banks hold the device in CALIBRATE, or its resynchronisation does, is decided in the mode logic; the
sleep state S1 refuses classes S and T (R543). -/
def inS1 (s : State) : Bool := s.pwr.sleep == 1 && !s.pwr.entering

/-- The Ethernet port `p`. -/
def ethPort (s : State) (p : Nat) : EthPort := tget {} s.eth.ports p

/-- P_reply of a port: the largest multiple of 8 not above ETH_MAX_FRAME − 110, at most 8,192 (R83). -/
def pReply (s : State) (p : Nat) : Nat := min 8192 ((((ethPort s p).maxFrame - 110) / 8) * 8)

/-- The port on which a reply leaves: that of the request, or the other one when the first cannot carry replies (R83). -/
def replyPort (s : State) (p : Nat) : Option Nat :=
  if 8 ≤ pReply s p then some p
  else if (ethPort s (1 - p)).link = 2 && decide (8 ≤ pReply s (1 - p)) then some (1 - p) else none

/-- Status codes of a reply (Table 3.6). -/
inductive Status where
  | ok | scheduled | badOpcode | badLength | badParam | badAuth | seqReplay | frameTruncated | roleDenied
  | notInMode | busy | noResource | capacity | formatMismatch | destLocked | linebufShort | cancelled | objectInvalid
  | notAuthority | leaseLost | decodeZero | busError | imageInvalid | rollbackRefused | trialActive | internal
deriving DecidableEq, Repr

/-- The code of a status (Table 3.6). -/
def Status.code : Status → Nat
  | .ok => 0x0000 | .scheduled => 0x0001 | .badOpcode => 0x0010 | .badLength => 0x0011 | .badParam => 0x0012
  | .badAuth => 0x0013 | .seqReplay => 0x0014 | .frameTruncated => 0x0015 | .roleDenied => 0x0016
  | .notInMode => 0x0020 | .busy => 0x0021 | .noResource => 0x0022 | .capacity => 0x0023
  | .formatMismatch => 0x0024 | .destLocked => 0x0025 | .linebufShort => 0x0026 | .cancelled => 0x0027
  | .objectInvalid => 0x0028 | .notAuthority => 0x0030 | .leaseLost => 0x0031 | .decodeZero => 0x0040
  | .busError => 0x0041 | .imageInvalid => 0x0050 | .rollbackRefused => 0x0051 | .trialActive => 0x0052
  | .internal => 0x00FF

/-- The statuses that count as success for the suppression of replies (Table 3.2). -/
def Status.success : Status → Bool
  | .ok | .scheduled => true
  | _ => false

/-- The 24 header bytes of a packet (Table 3.1). -/
def cmdHeader (flags addr session seq opcode status plen idx cnt : Nat) : List Byte :=
  beBytes 2 0x4C58 ++ beBytes 1 1 ++ beBytes 1 flags ++ beBytes 2 addr ++ beBytes 2 session ++ beBytes 4 seq
    ++ beBytes 2 opcode ++ beBytes 2 status ++ beBytes 2 plen ++ beBytes 1 idx ++ beBytes 1 cnt ++ beBytes 4 0

/-- The parameter pieces of a reply: each holds at most `p` bytes; a reply without parameters has one empty piece. -/
def pieces (p : Nat) (ps : List Byte) : List (List Byte) :=
  (List.range (max 1 ((ps.length + p - 1) / p))).map (fun i => (ps.drop (i * p)).take p)

/-- One reply fragment: header, piece, and the tag over both when the reply is tagged (R85, R101). -/
def replyFragment (key : Option (List Byte)) (addr session seq opcode status n i : Nat) (piece : List Byte) :
    List Byte :=
  let flags := 1 + (if key.isSome then 4 else 0) + (if i + 1 < n then 8 else 0)
  let h := cmdHeader flags addr session seq opcode status piece.length i n
  match key with
  | some k => h ++ piece ++ cmdTag k (h ++ piece)
  | none => h ++ piece

/-- The fragments of a reply, or the one BAD_LENGTH fragment when 255 do not suffice (R83). -/
def replyFragments (p : Nat) (key : Option (List Byte)) (addr session seq opcode : Nat) (st : Status)
    (ps : List Byte) : List (List Byte) :=
  if 255 * p < ps.length then
    [replyFragment key addr session seq opcode Status.badLength.code 1 0 (beBytes 4 (255 * p))]
  else
    let q := pieces p ps
    (List.range q.length).map (fun i => replyFragment key addr session seq opcode st.code q.length i (q.getD i []))

/-- Refill the bucket of untagged replies: 200 a second, at most 64 (R105).
Log 24 (DEDUCED, safe). -/
def refillUntagged (s : State) : State :=
  { s with host := { s.host with
      credit := min 320000000 (s.host.credit + (s.clock.clk - s.host.creditAt)), creditAt := s.clock.clk } }

/-- Send a reply: no port can carry it (index 14), the untagged limit holds it back (index 13), or its fragments
leave, delayed by POS × 50 µs under scope 2 and 3 (R81, R83, R85, R88, R105). -/
def sendReply (key : Option (List Byte)) (opcode : Nat) (c : HostCmd) (st : Status) (ps : List Byte) (s0 : State) :
    State :=
  let s := refillUntagged s0
  match replyPort s c.port with
  | none => { s with host := { s.host with cnt := bump s.host.cnt 14 } }
  | some p =>
    if key.isNone && s.host.credit < 5000000 then { s with host := { s.host with cnt := bump s.host.cnt 13 } }
    else
      let at_ := s.clock.clk + (if 2 ≤ c.scope then s.start.straps.pos % 64 * 50000 else 0)
      let s := if key.isNone then { s with host := { s.host with credit := s.host.credit - 5000000 } } else s
      (replyFragments (pReply s p) key (sysAddr s) c.session c.seq opcode st ps).foldl
        (fun s f => emit (.datagram at_ p c.srcIp c.srcPort c.dstPort f) s) s

/-- A success reply is sent under its scope only as Table 3.2 says; an error reply always. -/
def replyWanted (c : HostCmd) (st : Status) (s : State) : Bool :=
  !st.success || c.scope == 0 || c.ackReq || (c.scope == 1 && (s.red.lease || !paired s))

end Sys2Proof.Machine
end

