-- ==== Sys2Proof/Machine/Operands.lean ====
section
/-! DEFINITION. The operand forms of commands: fields of a parameter block, the opcodes with their classes, modes and
roles (Tables 3.4, 3.7 and 3.9 and the command tables of every chapter), and the shared course of a command. -/

namespace Sys2Proof.Machine

/-- An unsigned 8-bit parameter at a byte offset. -/
def u8 (ps : List Byte) (o : Nat) : Nat := (ps.getD o 0#8).toNat
/-- An unsigned 16-bit parameter at a byte offset (R6). -/
def u16 (ps : List Byte) (o : Nat) : Nat := beNat ((ps.drop o).take 2)
/-- An unsigned 24-bit parameter at a byte offset (R6). -/
def u24 (ps : List Byte) (o : Nat) : Nat := beNat ((ps.drop o).take 3)
/-- An unsigned 32-bit parameter at a byte offset (R6). -/
def u32 (ps : List Byte) (o : Nat) : Nat := beNat ((ps.drop o).take 4)
/-- An unsigned 48-bit parameter at a byte offset (R6). -/
def u48 (ps : List Byte) (o : Nat) : Nat := beNat ((ps.drop o).take 6)
/-- An unsigned 64-bit parameter at a byte offset (R6). -/
def u64 (ps : List Byte) (o : Nat) : Nat := beNat ((ps.drop o).take 8)
/-- A run of bytes of the parameters. -/
def sub (ps : List Byte) (o n : Nat) : List Byte := (ps.drop o).take n
/-- Bits [hi:lo] of a number. -/
def bitsOf (n hi lo : Nat) : Nat := n / 2 ^ lo % 2 ^ (hi + 1 - lo)
/-- Bit `i` of a number. -/
def bitOf (n i : Nat) : Bool := n.testBit i

/-- The classes of opcodes (Table 3.4). -/
inductive OpClass where
  | q | s | a | t
deriving DecidableEq, Repr

/-- What the tables say of an opcode: its code, class, the modes in which it executes, whether SAFE accepts it from
SAFETY sessions only, and the roles that may use it. -/
structure OpInfo where
  code  : Nat
  cls   : OpClass
  modes : List Mode
  safeOnlySafety : Bool
  roles : List Role
deriving DecidableEq, Repr

/-- The opcodes of Tables 3.7 and 3.9 with their classes, modes and roles. -/
def opInfo : Op → OpInfo
  | .identify => ⟨0x0001, .q, [.boot, .calibrate, .active, .standby, .isolated, .safe, .maintenance], false, [.anonymous, .operator, .safety, .maintenance]⟩
  | .status => ⟨0x0002, .q, [.boot, .calibrate, .active, .standby, .isolated, .safe, .maintenance], false, [.anonymous, .operator, .safety, .maintenance]⟩
  | .modeSet => ⟨0x0003, .a, [.calibrate, .active, .standby, .isolated, .maintenance], false, [.maintenance]⟩
  | .reset => ⟨0x0004, .a, [.calibrate, .active, .standby, .isolated, .maintenance, .safe], true, [.maintenance, .safety]⟩
  | .regRead => ⟨0x0008, .q, [.calibrate, .active, .standby, .isolated, .safe, .maintenance], false, [.operator, .safety, .maintenance]⟩
  | .regWrite => ⟨0x0009, .s, [.calibrate, .active, .standby, .safe, .maintenance], true, [.maintenance, .safety]⟩
  | .regRmw => ⟨0x000A, .s, [.calibrate, .active, .standby, .safe, .maintenance], true, [.maintenance, .safety]⟩
  | .regReadBlock => ⟨0x000B, .q, [.calibrate, .active, .standby, .isolated, .safe, .maintenance], false, [.operator, .safety, .maintenance]⟩
  | .regWriteBlock => ⟨0x000C, .s, [.calibrate, .active, .standby, .safe, .maintenance], true, [.maintenance, .safety]⟩
  | .lockConfig => ⟨0x0010, .a, [.calibrate, .active, .standby, .maintenance], false, [.maintenance]⟩
  | .addrSet => ⟨0x0011, .a, [.calibrate, .active, .standby, .isolated, .safe, .maintenance], false, [.maintenance]⟩
  | .sessionKeyLoad => ⟨0x0018, .a, [.calibrate, .active, .standby, .isolated, .safe, .maintenance], false, [.maintenance, .safety]⟩
  | .sessionKeyErase => ⟨0x0019, .a, [.calibrate, .active, .standby, .isolated, .safe, .maintenance], false, [.maintenance, .safety]⟩
  | .sessionInfo => ⟨0x001A, .q, [.calibrate, .active, .standby, .isolated, .safe, .maintenance], false, [.maintenance, .safety]⟩
  | .echo => ⟨0x0020, .q, [.calibrate, .active, .standby, .isolated, .safe, .maintenance], false, [.anonymous, .operator, .safety, .maintenance]⟩
  | .imgInfo => ⟨0x0C10, .q, [.boot, .calibrate, .active, .standby, .isolated, .safe, .maintenance], false, [.operator, .safety, .maintenance]⟩
  | .imgWriteBegin => ⟨0x0C11, .a, [.boot, .calibrate, .active, .standby, .isolated, .safe, .maintenance], false, [.maintenance]⟩
  | .imgWrite => ⟨0x0C12, .a, [.boot, .calibrate, .active, .standby, .isolated, .safe, .maintenance], false, [.maintenance]⟩
  | .imgWriteEnd => ⟨0x0C13, .a, [.boot, .calibrate, .active, .standby, .isolated, .safe, .maintenance], false, [.maintenance]⟩
  | .imgActivate => ⟨0x0C14, .a, [.boot, .calibrate, .active, .standby, .isolated, .safe, .maintenance], false, [.maintenance]⟩
  | .imgTrialAbort => ⟨0x0C15, .a, [.boot, .calibrate, .active, .standby, .isolated, .safe, .maintenance], false, [.maintenance, .safety]⟩
  | .imgConfirm => ⟨0x0C16, .a, [.boot, .calibrate, .active, .standby, .isolated, .safe, .maintenance], false, [.maintenance]⟩
  | .laneStatus => ⟨0x0100, .q, [.calibrate, .active, .standby, .isolated, .safe, .maintenance], false, [.operator, .safety, .maintenance]⟩
  | .laneConfig => ⟨0x0101, .s, [.calibrate, .active, .standby, .safe, .maintenance], true, [.maintenance]⟩
  | .lanePrbs => ⟨0x0102, .t, [.maintenance], false, [.maintenance]⟩
  | .laneLoop => ⟨0x0103, .t, [.maintenance], false, [.maintenance]⟩
  | .laneErrInject => ⟨0x0104, .t, [.maintenance], false, [.maintenance]⟩
  | .laneCounters => ⟨0x0105, .q, [.calibrate, .active, .standby, .isolated, .safe, .maintenance], false, [.operator, .safety, .maintenance]⟩
  | .flowSrcDefine => ⟨0x0200, .s, [.calibrate, .active, .standby, .safe, .maintenance], true, [.operator, .maintenance]⟩
  | .flowDstDefine => ⟨0x0201, .s, [.calibrate, .active, .standby, .safe, .maintenance], true, [.operator, .maintenance]⟩
  | .flowDelete => ⟨0x0202, .s, [.calibrate, .active, .standby, .safe, .maintenance], true, [.operator, .maintenance]⟩
  | .flowGroupSet => ⟨0x0203, .s, [.calibrate, .active, .standby, .safe, .maintenance], true, [.operator, .maintenance]⟩
  | .flowParkSet => ⟨0x0204, .s, [.calibrate, .active, .standby, .safe, .maintenance], true, [.operator, .maintenance]⟩
  | .flowQuery => ⟨0x0205, .q, [.calibrate, .active, .standby, .isolated, .safe, .maintenance], false, [.operator, .safety, .maintenance]⟩
  | .flowAdmitCheck => ⟨0x0206, .q, [.calibrate, .active, .standby, .isolated, .safe, .maintenance], false, [.operator, .safety, .maintenance]⟩
  | .xptTake => ⟨0x0300, .s, [.active, .standby, .maintenance, .safe], true, [.operator, .safety, .maintenance]⟩
  | .xptTakeBatch => ⟨0x0301, .s, [.active, .standby, .maintenance, .safe], true, [.operator, .safety, .maintenance]⟩
  | .xptTakeAt => ⟨0x0302, .s, [.active, .standby, .maintenance, .safe], true, [.operator, .safety, .maintenance]⟩
  | .xptQueueCancel => ⟨0x0303, .s, [.active, .standby, .maintenance, .safe], false, [.operator, .safety, .maintenance]⟩
  | .xptLock => ⟨0x0304, .s, [.calibrate, .active, .standby, .safe, .maintenance], true, [.operator, .safety, .maintenance]⟩
  | .xptUnlock => ⟨0x0305, .s, [.calibrate, .active, .standby, .safe, .maintenance], true, [.operator, .safety, .maintenance]⟩
  | .xptQuery => ⟨0x0306, .q, [.calibrate, .active, .standby, .isolated, .safe, .maintenance], false, [.operator, .safety, .maintenance]⟩
  | .xptTpSet => ⟨0x0307, .s, [.calibrate, .active, .standby, .maintenance], false, [.maintenance]⟩
  | .xptQueueStatus => ⟨0x0308, .q, [.calibrate, .active, .standby, .isolated, .safe, .maintenance], false, [.operator, .safety, .maintenance]⟩
  | .cueLoad => ⟨0x0900, .s, [.calibrate, .active, .standby, .safe, .maintenance], true, [.operator, .safety, .maintenance]⟩
  | .cueRun => ⟨0x0901, .s, [.active, .standby, .maintenance, .safe], true, [.operator, .safety, .maintenance]⟩
  | .cueAbort => ⟨0x0902, .s, [.active, .standby, .maintenance, .safe], true, [.operator, .safety, .maintenance]⟩
  | .cueStatus => ⟨0x0903, .q, [.calibrate, .active, .standby, .isolated, .safe, .maintenance], false, [.operator, .safety, .maintenance]⟩
  | .cueUnload => ⟨0x0904, .s, [.calibrate, .active, .standby, .safe, .maintenance], true, [.operator, .safety, .maintenance]⟩
  | .fstZoneSet => ⟨0x0400, .s, [.calibrate, .maintenance], false, [.maintenance]⟩
  | .fstObjWrite => ⟨0x0401, .s, [.calibrate, .active, .standby, .safe, .maintenance], true, [.operator, .safety, .maintenance]⟩
  | .fstObjRead => ⟨0x0402, .q, [.calibrate, .active, .standby, .isolated, .safe, .maintenance], false, [.operator, .safety, .maintenance]⟩
  | .fstObjFree => ⟨0x0403, .s, [.calibrate, .active, .standby, .safe, .maintenance], true, [.operator, .safety, .maintenance]⟩
  | .fstBankStatus => ⟨0x0404, .q, [.calibrate, .active, .standby, .isolated, .safe, .maintenance], false, [.operator, .safety, .maintenance]⟩
  | .fstInvalidClear => ⟨0x0405, .s, [.calibrate, .active, .standby, .safe, .maintenance], true, [.operator, .safety, .maintenance]⟩
  | .fstRetainSet => ⟨0x0406, .s, [.calibrate, .active, .standby, .safe, .maintenance], true, [.maintenance]⟩
  | .cmpConfig => ⟨0x0500, .s, [.calibrate, .active, .standby, .safe, .maintenance], true, [.operator, .maintenance]⟩
  | .cmpLayerSet => ⟨0x0501, .s, [.calibrate, .active, .standby, .safe, .maintenance], true, [.operator, .safety, .maintenance]⟩
  | .cmpCommit => ⟨0x0502, .s, [.active, .standby, .maintenance, .safe], true, [.operator, .safety, .maintenance]⟩
  | .cmpLutLoad => ⟨0x0503, .s, [.calibrate, .active, .standby, .safe, .maintenance], true, [.operator, .safety, .maintenance]⟩
  | .cmpSurfaceLoad => ⟨0x0504, .s, [.calibrate, .active, .standby, .safe, .maintenance], true, [.operator, .safety, .maintenance]⟩
  | .cmpDisable => ⟨0x0505, .s, [.calibrate, .active, .standby, .safe, .maintenance], true, [.operator, .safety, .maintenance]⟩
  | .cmpQuery => ⟨0x0506, .q, [.calibrate, .active, .standby, .isolated, .safe, .maintenance], false, [.operator, .safety, .maintenance]⟩
  | .cmpProtWrite => ⟨0x0510, .s, [.calibrate, .active, .standby, .safe, .maintenance], true, [.safety]⟩
  | .cmpProtRectSet => ⟨0x0511, .s, [.calibrate, .active, .standby, .safe, .maintenance], true, [.safety]⟩
  | .cmpProtGoldenSet => ⟨0x0512, .s, [.calibrate, .active, .standby, .safe, .maintenance], true, [.safety]⟩
  | .cmpProtStatus => ⟨0x0513, .q, [.calibrate, .active, .standby, .isolated, .safe, .maintenance], false, [.operator, .safety, .maintenance]⟩
  | .audRoute => ⟨0x0600, .s, [.active, .standby, .maintenance, .safe], true, [.operator, .safety, .maintenance]⟩
  | .audRouteBatch => ⟨0x0601, .s, [.active, .standby, .maintenance, .safe], true, [.operator, .safety, .maintenance]⟩
  | .audGain => ⟨0x0602, .s, [.active, .standby, .maintenance, .safe], true, [.operator, .safety, .maintenance]⟩
  | .audFollow => ⟨0x0603, .s, [.calibrate, .active, .standby, .safe, .maintenance], true, [.operator, .safety, .maintenance]⟩
  | .audPortConfig => ⟨0x0604, .s, [.calibrate, .active, .standby, .safe, .maintenance], true, [.operator, .maintenance]⟩
  | .audStreamConfig => ⟨0x0605, .s, [.calibrate, .active, .standby, .safe, .maintenance], true, [.operator, .maintenance]⟩
  | .audQuery => ⟨0x0606, .q, [.calibrate, .active, .standby, .isolated, .safe, .maintenance], false, [.operator, .safety, .maintenance]⟩
  | .ethPortConfig => ⟨0x0700, .s, [.calibrate, .active, .standby, .safe, .maintenance], true, [.maintenance]⟩
  | .ethIpConfig => ⟨0x0701, .s, [.calibrate, .active, .standby, .safe, .maintenance], true, [.maintenance]⟩
  | .ethCounters => ⟨0x0702, .q, [.calibrate, .active, .standby, .isolated, .safe, .maintenance], false, [.operator, .safety, .maintenance]⟩
  | .ethTxFlow => ⟨0x0703, .s, [.calibrate, .active, .standby, .safe, .maintenance], true, [.operator, .maintenance]⟩
  | .ethRxFlow => ⟨0x0704, .s, [.calibrate, .active, .standby, .safe, .maintenance], true, [.operator, .maintenance]⟩
  | .ethFlowQuery => ⟨0x0705, .q, [.calibrate, .active, .standby, .isolated, .safe, .maintenance], false, [.operator, .safety, .maintenance]⟩
  | .timStatus => ⟨0x0800, .q, [.calibrate, .active, .standby, .isolated, .safe, .maintenance], false, [.operator, .safety, .maintenance]⟩
  | .timRefConfig => ⟨0x0801, .s, [.calibrate, .active, .standby, .safe, .maintenance], true, [.maintenance]⟩
  | .timPtpConfig => ⟨0x0802, .s, [.calibrate, .active, .standby, .safe, .maintenance], true, [.maintenance]⟩
  | .timCompareSet => ⟨0x0803, .s, [.calibrate, .active, .standby, .safe, .maintenance], true, [.operator, .safety, .maintenance]⟩
  | .timPulseSet => ⟨0x0804, .s, [.calibrate, .active, .standby, .safe, .maintenance], true, [.operator, .maintenance]⟩
  | .timRealign => ⟨0x0805, .s, [.active, .standby, .maintenance], false, [.maintenance]⟩
  | .redStatus => ⟨0x0A00, .q, [.calibrate, .active, .standby, .isolated, .safe, .maintenance], false, [.operator, .safety, .maintenance]⟩
  | .redLeaseRequest => ⟨0x0A01, .a, [.calibrate, .active, .standby, .isolated], false, [.maintenance, .safety]⟩
  | .redLeaseRelease => ⟨0x0A02, .a, [.calibrate, .active, .standby, .isolated], false, [.maintenance, .safety]⟩
  | .redResync => ⟨0x0A03, .a, [.standby, .isolated], false, [.maintenance]⟩
  | .redHealth => ⟨0x0A04, .q, [.calibrate, .active, .standby, .isolated, .safe, .maintenance], false, [.operator, .safety, .maintenance]⟩
  | .safStatus => ⟨0x0B00, .q, [.calibrate, .active, .standby, .isolated, .safe, .maintenance], false, [.operator, .safety, .maintenance]⟩
  | .safClear => ⟨0x0B01, .a, [.calibrate, .active, .standby, .isolated, .safe, .maintenance], false, [.safety]⟩
  | .safConfig => ⟨0x0B02, .s, [.calibrate, .active, .standby, .safe, .maintenance], false, [.safety]⟩
  | .evtRead => ⟨0x0B10, .q, [.calibrate, .active, .standby, .isolated, .safe, .maintenance], false, [.operator, .safety, .maintenance]⟩
  | .evtInfo => ⟨0x0B11, .q, [.calibrate, .active, .standby, .isolated, .safe, .maintenance], false, [.operator, .safety, .maintenance]⟩
  | .evtRateSet => ⟨0x0B12, .s, [.calibrate, .active, .standby, .safe, .maintenance], false, [.maintenance, .safety]⟩
  | .pwrStatus => ⟨0x0C00, .q, [.calibrate, .active, .standby, .isolated, .safe, .maintenance], false, [.operator, .safety, .maintenance]⟩
  | .pwrLevelSet => ⟨0x0C01, .a, [.calibrate, .active, .standby, .isolated, .maintenance], false, [.maintenance]⟩
  | .pwrSleep => ⟨0x0C02, .a, [.calibrate, .active, .standby, .isolated, .maintenance], false, [.maintenance]⟩

/-- The opcode of a 16-bit code, if it is defined (R113). -/
def opOfCode : Nat → Option Op
  | 0x0001 => some .identify
  | 0x0002 => some .status
  | 0x0003 => some .modeSet
  | 0x0004 => some .reset
  | 0x0008 => some .regRead
  | 0x0009 => some .regWrite
  | 0x000A => some .regRmw
  | 0x000B => some .regReadBlock
  | 0x000C => some .regWriteBlock
  | 0x0010 => some .lockConfig
  | 0x0011 => some .addrSet
  | 0x0018 => some .sessionKeyLoad
  | 0x0019 => some .sessionKeyErase
  | 0x001A => some .sessionInfo
  | 0x0020 => some .echo
  | 0x0C10 => some .imgInfo
  | 0x0C11 => some .imgWriteBegin
  | 0x0C12 => some .imgWrite
  | 0x0C13 => some .imgWriteEnd
  | 0x0C14 => some .imgActivate
  | 0x0C15 => some .imgTrialAbort
  | 0x0C16 => some .imgConfirm
  | 0x0100 => some .laneStatus
  | 0x0101 => some .laneConfig
  | 0x0102 => some .lanePrbs
  | 0x0103 => some .laneLoop
  | 0x0104 => some .laneErrInject
  | 0x0105 => some .laneCounters
  | 0x0200 => some .flowSrcDefine
  | 0x0201 => some .flowDstDefine
  | 0x0202 => some .flowDelete
  | 0x0203 => some .flowGroupSet
  | 0x0204 => some .flowParkSet
  | 0x0205 => some .flowQuery
  | 0x0206 => some .flowAdmitCheck
  | 0x0300 => some .xptTake
  | 0x0301 => some .xptTakeBatch
  | 0x0302 => some .xptTakeAt
  | 0x0303 => some .xptQueueCancel
  | 0x0304 => some .xptLock
  | 0x0305 => some .xptUnlock
  | 0x0306 => some .xptQuery
  | 0x0307 => some .xptTpSet
  | 0x0308 => some .xptQueueStatus
  | 0x0900 => some .cueLoad
  | 0x0901 => some .cueRun
  | 0x0902 => some .cueAbort
  | 0x0903 => some .cueStatus
  | 0x0904 => some .cueUnload
  | 0x0400 => some .fstZoneSet
  | 0x0401 => some .fstObjWrite
  | 0x0402 => some .fstObjRead
  | 0x0403 => some .fstObjFree
  | 0x0404 => some .fstBankStatus
  | 0x0405 => some .fstInvalidClear
  | 0x0406 => some .fstRetainSet
  | 0x0500 => some .cmpConfig
  | 0x0501 => some .cmpLayerSet
  | 0x0502 => some .cmpCommit
  | 0x0503 => some .cmpLutLoad
  | 0x0504 => some .cmpSurfaceLoad
  | 0x0505 => some .cmpDisable
  | 0x0506 => some .cmpQuery
  | 0x0510 => some .cmpProtWrite
  | 0x0511 => some .cmpProtRectSet
  | 0x0512 => some .cmpProtGoldenSet
  | 0x0513 => some .cmpProtStatus
  | 0x0600 => some .audRoute
  | 0x0601 => some .audRouteBatch
  | 0x0602 => some .audGain
  | 0x0603 => some .audFollow
  | 0x0604 => some .audPortConfig
  | 0x0605 => some .audStreamConfig
  | 0x0606 => some .audQuery
  | 0x0700 => some .ethPortConfig
  | 0x0701 => some .ethIpConfig
  | 0x0702 => some .ethCounters
  | 0x0703 => some .ethTxFlow
  | 0x0704 => some .ethRxFlow
  | 0x0705 => some .ethFlowQuery
  | 0x0800 => some .timStatus
  | 0x0801 => some .timRefConfig
  | 0x0802 => some .timPtpConfig
  | 0x0803 => some .timCompareSet
  | 0x0804 => some .timPulseSet
  | 0x0805 => some .timRealign
  | 0x0A00 => some .redStatus
  | 0x0A01 => some .redLeaseRequest
  | 0x0A02 => some .redLeaseRelease
  | 0x0A03 => some .redResync
  | 0x0A04 => some .redHealth
  | 0x0B00 => some .safStatus
  | 0x0B01 => some .safClear
  | 0x0B02 => some .safConfig
  | 0x0B10 => some .evtRead
  | 0x0B11 => some .evtInfo
  | 0x0B12 => some .evtRateSet
  | 0x0C00 => some .pwrStatus
  | 0x0C01 => some .pwrLevelSet
  | 0x0C02 => some .pwrSleep
  | _ => none

/-- Step 13 of Table 3.3: the role may use the opcode; session 0 only IDENTIFY, STATUS and ECHO (R97). -/
def roleRefusal (op : Op) (c : HostCmd) : Option Status :=
  if (opInfo op).roles.contains c.role then none else some .roleDenied

/-- Step 14 of Table 3.3: the mode, or the sleep state S1, allows the opcode (R108, Table 1.8, Table 3.4, R543). In
BOOT only the recovery listener answers (R59). -/
def modeRefusal (op : Op) (c : HostCmd) (s : State) : Option Status :=
  let i := opInfo op
  if s.mode = .boot then
    (if s.start.recovery && i.modes.contains .boot then none else some .notInMode)
  else if s.mode = .retain then some .notInMode
  else if inS1 s && (i.cls == .s || i.cls == .t || op == .pwrLevelSet) then some .notInMode
  else if i.cls = .s && s.mode = .isolated then some .notAuthority
  else if !i.modes.contains s.mode then some .notInMode
  else if s.mode = .safe && i.safeOnlySafety && c.role != .safety then some .notInMode
  else none

/-- The payload of the host protocol events 0x0020 to 0x0023 (R114). -/
def violationPayload (step status session opcode seq ip udp port : Nat) : List Word :=
  [pack8_16 step 0 status, pack16 session opcode, w32 seq,
   w32 (ip / 2 ^ 96), w32 (ip / 2 ^ 64), w32 (ip / 2 ^ 32), w32 ip, pack16_8 udp port 0]

/-- Raise CMD_ROLE_DENIED for a command refused for its role (R114). -/
def raiseRoleDenied (op : Op) (c : HostCmd) (s : State) : State :=
  raise 2 0 0x0023 0
    (violationPayload 13 Status.roleDenied.code c.session (opInfo op).code c.seq c.srcIp c.srcPort c.port) s

/-- The key that tags the replies of a command: none on session 0 (R97, R104). -/
def replyKey (c : HostCmd) : Option (List Byte) := if c.session = 0 then none else some c.key

/-- Remember a completed command's reply for its session (R103). -/
def cacheReply (c : HostCmd) (st : Status) (ps : List Byte) (s : State) : State :=
  if c.session = 0 then s
  else match tfind s.host.cache c.session with
    | none => s
    | some k =>
      if k.cmd.seq = c.seq then
        let k' : Cache := { k with done := true, status := st.code, reply := ps.take 8192, long := decide (8192 < ps.length) }
        { s with host := { s.host with cache := tset s.host.cache c.session k' } }
      else s

/-- The first command opcodes of the register block, which are in step only for some addresses (R457). -/
def regSpan (op : Op) (c : HostCmd) : List Nat :=
  match op with
  | .regWrite | .regRmw => [u32 c.params 0]
  | .regWriteBlock =>
    if u8 c.params 6 = 1 then [u32 c.params 0]
    else [u32 c.params 0, u32 c.params 0 + 4 * (u16 c.params 4 - 1)]
  | _ => []

/-- An address of the pair state, 0x0200_0000 to 0x06FF_FFFF (R457). -/
def pairAddr (a : Nat) : Bool := decide (0x02000000 ≤ a) && decide (a ≤ 0x06FFFFFF)

/-- The in-step commands of a pair (R457). -/
def inStepCmd (op : Op) (c : HostCmd) : Bool :=
  match op with
  | .fstRetainSet => false
  | .timCompareSet | .timPulseSet | .timRealign => true
  | .regWrite | .regRmw | .regWriteBlock => (regSpan op c).all pairAddr
  | _ =>
    let i := opInfo op
    i.cls == .s && (decide (i.code / 256 ∈ [2, 3, 9, 4, 5, 6]))

/-- The datagram of a command as the halyard carries it: header, parameters and tag (Table 14.3). -/
def cmdBytes (opcode : Nat) (c : HostCmd) : List Byte :=
  cmdHeader 4 (c.scope * 0x4000 + c.addr) c.session c.seq opcode 0 c.params.length 0 1 ++ c.params ++ c.tag

/-- A CMD_RESULT (Table 14.3). -/
def resultBytes (c : HostCmd) (st : Nat) (ps : List Byte) : List Byte :=
  beBytes 2 c.session ++ beBytes 2 st ++ beBytes 4 c.seq ++ ps

/-- What a pair in step adds when the sequencer has dealt with an in-step command: an executed one is named in the
record, and forwarded when the follower has not relayed it (R463); the result of a relayed one goes back (R464). -/
def pairAfter (op : Op) (c : HostCmd) (executed : Bool) (st : Status) (ps : List Byte) (s : State) : State :=
  if (follows s || writesRecords s) && inStepCmd op c && !c.named then
    let s := if executed then recordItem (.command c.session c.seq st.code) s else s
    if c.relayed then sendHalyard 6 (resultBytes c st.code ps) s
    else if executed then
      sendHalyard 5 (cmdBytes (opInfo op).code c) { s with red := { s.red with cnt := bump s.red.cnt 4 } }
    else s
  else s

/-- Cache the reply of a completed command and send it as its scope asks (R85, R103, Table 3.2). -/
def replyTo (opcode : Nat) (c : HostCmd) (st : Status) (ps : List Byte) (s : State) : State :=
  let s := cacheReply c st ps s
  if replyWanted c st s then sendReply (replyKey c) opcode c st ps s else s

/-- Complete a command given by its opcode number. A command that a record names is only noted while the record is
applied, and its later landing is answered when the host sent it here; one that the partner relayed is answered there
(R463, R464). -/
def finishCode (opcode : Nat) (c : HostCmd) (st : Status) (ps : List Byte) (s : State) : State :=
  if c.named && s.red.applying then { s with red := { s.red with noted := some (st.code, ps) } }
  else if c.relayed then cacheReply c st ps s
  else replyTo opcode c st ps s

/-- Complete a command. -/
def finish (op : Op) (c : HostCmd) (st : Status) (ps : List Byte) (s : State) : State :=
  finishCode (opInfo op).code c st ps s

/-- Take a command out of the device's own queue (R106).
Log 9 (DESIGN CHOICE, safe). -/
def dequeue (op : Op) (c : HostCmd) (s : State) : State :=
  { s with host := { s.host with queue := s.host.queue.erase (op, c) } }

/-- Count a command that passed every step of Table 3.3 (R104). -/
def countPassed (s : State) : State := { s with host := { s.host with cnt := bump s.host.cnt 0 } }

/-- What an opcode's own rules say: a refusal with its reply parameters, or nothing. -/
abbrev Refuse := State → HostCmd → Option (Status × List Byte)

/-- What an opcode does: the new state, and its reply unless the reply comes later. -/
abbrev Effect := State → HostCmd → State × Option (Status × List Byte)

/-- The refusal that decides a command's status, if any: role, mode, then the opcode's own rules (R104, R36).
Log 20 (DEDUCED, safe). -/
def refusal (op : Op) (own : Refuse) (s : State) (c : HostCmd) : Option (Status × List Byte) :=
  match roleRefusal op c with
  | some st => some (st, [])
  | none => match modeRefusal op c s with
    | some st => some (st, [])
    | none => own s c

/-- A refused command changes no state but its reply, and for a role refusal the event 0x0023. -/
def refuseWith (op : Op) (c : HostCmd) (r : Status × List Byte) (s : State) : State :=
  pairAfter op c false r.1 r.2 (finish op c r.1 r.2 (if r.1 = .roleDenied then raiseRoleDenied op c s else s))

/-- The statuses of a command that passed every step of Table 3.3: success, and what a register access found (R111). -/
def Status.passed (st : Status) : Bool := st.success || st == .decodeZero || st == .busError

/-- An accepted command takes its effect, is counted, and replies unless its reply comes later. -/
def acceptWith (op : Op) (c : HostCmd) (eff : Effect) (s : State) : State :=
  let r := eff s c
  match r.2 with
  | some (st, ps) => pairAfter op c true st ps (finish op c st ps (if st.passed then countPassed r.1 else r.1))
  | none => pairAfter op c true .scheduled [] (countPassed r.1)

/-- The device executes commands: not in reset, not in RETAIN, in BOOT only under the recovery listener (R59, Table 1.8),
and not while the Conductor is stopped (R499).
Log 25 (DEDUCED, safe).
Log 104 (DEDUCED, safe). -/
def hostServes (s : State) : Bool :=
  !conductorStopped s && !s.start.inReset && s.mode != .retain && (s.mode != .boot || s.start.recovery)

/-- The course of a command: time passes, it leaves the device's queue, it is judged and takes effect (R104, R106). A
command named by the sequencer's record is not judged again (R463). Where the device executes no command, only time
passes.
Log 9 (DESIGN CHOICE, safe).
Log 11 (DESIGN CHOICE, unsafe). -/
def runCommand (op : Op) (own : Refuse) (eff : Effect) (t : Nat) (c : HostCmd) (s : State) : State :=
  let s := advance t s
  if !hostServes s then s
  else
    let s := dequeue op c s
    match (if c.named then none else refusal op own s c) with
    | some r => refuseWith op c r s
    | none => acceptWith op c eff s

/-- An opcode whose parameters must have exactly `n` bytes (step 16 of Table 3.3). -/
def needLen (n : Nat) (c : HostCmd) : Option (Status × List Byte) :=
  if c.params.length = n then none else some (.badLength, [])

/-- The first refusal of a list. -/
def firstRefusal : List (Option (Status × List Byte)) → Option (Status × List Byte)
  | [] => none
  | some r :: _ => some r
  | none :: rest => firstRefusal rest

/-- A refusal under a condition. -/
def refuseIf (b : Bool) (st : Status) : Option (Status × List Byte) := if b then some (st, []) else none

end Sys2Proof.Machine
end

