-- ==== Sys2Proof/Machine/QueueOps.lean ====
section
/-! DEFINITION. The take queue and the cue instances as the mode transitions and several commands act on them: the
reports of discarded entries, the replies that wait for a landing, and the ending of an instance. -/

namespace Sys2Proof.Machine

/-- The number a 16-bit source field carries for a selection: 0xFFFF for none (R228). -/
def srcField : Option Nat → Nat
  | some n => n
  | none => 0xFFFF

/-- The hierarchy path of a destination: its cell, or the region of its compositor (R231). -/
def dstPath (d : Nat) : Nat := if d < 1024 then pathCell d else pathRegion ((d - 1024) / 8 / 16)

/-- The parameters of a landing reply (Tables 6.8, 9.11, 11.4). A single change that failed has none (R85). -/
def waitParams (w : WaitReply) : List Byte :=
  match w.op with
  | .xptTakeBatch | .audRouteBatch => beBytes 4 w.tick ++ beBytes 2 (w.index.getD 0xFFFF) ++ beBytes 2 0
  | .xptTakeAt => beBytes 4 w.tick ++ beBytes 2 (w.index.getD 0xFFFF) ++ beBytes 1 (bit w.late) ++ beBytes 1 0
  | .cmpCommit => beBytes 4 w.tick ++ beBytes 1 (w.index.getD 0xFF) ++ beBytes 1 w.check ++ beBytes 2 0
  | .timRealign => beBytes 1 (w.frame / 256) ++ beBytes 1 w.frame ++ beBytes 2 0
  | _ => if w.worst.isSome then [] else beBytes 4 w.tick ++ beBytes 4 w.frame

/-- The status whose code is kept in a waiting reply. -/
def statusOfCode (n : Nat) : Status :=
  if n = Status.leaseLost.code then .leaseLost
  else if n = Status.roleDenied.code then .roleDenied
  else if n = Status.objectInvalid.code then .objectInvalid
  else if n = Status.badParam.code then .badParam
  else if n = Status.linebufShort.code then .linebufShort
  else if n = Status.capacity.code then .capacity
  else .cancelled

/-- One entry of a waiting command is gone: landed (`res` none) or discarded with a status and, for a commit, the failing
check. When the last one is gone the reply is sent (R228, R213). -/
def entryGone (e : Entry) (res : Option (Status × Nat)) (frame : Nat) (s : State) : State :=
  if !e.wait then s
  else
    let hit := fun (w : WaitReply) => w.cmd.session == e.session && w.cmd.seq == e.seq
    match s.xpt.waits.find? hit with
    | none => s
    | some w =>
      let first := w.worst.isNone
      let w' := { w with
        left := w.left - 1
        worst := (match w.worst with | some x => some x | none => res.map (fun r => r.1.code))
        index := if first && res.isSome then some e.index else w.index
        check := if first then (match res with | some r => r.2 | none => w.check) else w.check
        frame := if res.isNone then frame else w.frame
        tick := (match e.sealed_ with | some k => k | none => w.tick)
        late := w.late || e.late }
      if w'.left = 0 then
        let s := { s with xpt := { s.xpt with waits := s.xpt.waits.filter (fun x => !hit x) } }
        match w'.worst with
        | some c => finish w'.op w'.cmd (statusOfCode c) (waitParams w') s
        | none => finish w'.op w'.cmd .ok (waitParams w') s
      else { s with xpt := { s.xpt with waits := s.xpt.waits.map (fun x => if hit x then w' else x) } }

/-- The status that a waiting reply carries for a cause of TAKE_CANCELLED (R220, R320). -/
def causeStatus (cause : Nat) : Status := if cause = 6 then .leaseLost else .cancelled

/-- COMMIT_REJECTED (R320), counted in CMP_CNT index 2. -/
def rejectCommit (c check : Nat) (st : Status) (session cause seq : Nat) (s : State) : State :=
  let s := onCmp (fun k => { k with comps := tmod {} k.comps c (fun (x : Comp) => { x with cnt := bump x.cnt 2 }) }) s
  raise 2 5 0x5011 (pathRegion (c / 16)) [pack8_16 c check st.code, pack16_8 session cause 0, w32 seq] s

/-- AUD_CHANGE_CANCELLED (R378); a superseded change counts in AUD_CNT index 2. -/
def cancelAudio (out : Nat) (inp : Option Nat) (session cause seq : Nat) (s : State) : State :=
  let s := if cause = 1 then onAud (fun a => { a with cnt := bump a.cnt 2 }) s else s
  raise 1 6 0x6030 0 [pack16 out (srcField inp), pack16_8 session cause 0, w32 seq] s

/-- Report a discarded entry by the event of its kind (R213): TAKE_CANCELLED, AUD_CHANGE_CANCELLED, COMMIT_REJECTED. -/
def reportDiscard (cause : Nat) (e : Entry) (s : State) : State :=
  match e.action with
  | .video d src =>
    let s := { s with xpt := { s.xpt with cnt := bump s.xpt.cnt (if cause = 1 then 3 else 2) } }
    raise 1 3 0x3002 (dstPath d) [pack16 d (srcField src), pack16_8 e.session cause 0, w32 e.seq] s
  | .audio out inp _ _ _ _ => cancelAudio out inp e.session cause e.seq s
  | .commit c => rejectCommit c (if cause = 3 then 1 else 0) (if cause = 3 then .objectInvalid else causeStatus cause)
      e.session cause e.seq s
  | .realign _ _ _ _ => s

/-- The status and check that a waiting reply carries for an entry discarded with a cause (R220, R320). -/
def discardResult (cause : Nat) (e : Entry) : Status × Nat :=
  match e.action with
  | .commit _ => if cause = 3 then (.objectInvalid, 1) else (causeStatus cause, 0)
  | _ => (causeStatus cause, 0)

/-- QUEUE_HIGH may be raised again once USED has fallen below 2,048 (Table 6.18). -/
def queueFell (s : State) : State :=
  if s.xpt.queue.length < 2048 then { s with xpt := { s.xpt with highSent := false } } else s

/-- Discard the entries that meet a condition, with their reports and waiting replies (R213, R220). -/
def discardEntries (p : Entry → Bool) (cause : Nat) (s : State) : State :=
  let gone := s.xpt.queue.filter p
  let s := { s with xpt := { s.xpt with queue := s.xpt.queue.filter (fun e => !p e) } }
  queueFell (gone.foldl (fun s e => entryGone e (some (discardResult cause e)) 0 (reportDiscard cause e s)) s)

/-- An entry names a source. -/
def Entry.namesSource (e : Entry) (n : Nat) : Bool := match e.action with | .video _ (some x) => x == n | _ => false
/-- An entry names a destination. -/
def Entry.namesDest (e : Entry) (d : Nat) : Bool := match e.action with | .video x _ => x == d | _ => false

/-- An entry that no tick has sealed. -/
def Entry.unsealed (e : Entry) : Bool := e.sealed_.isNone

/-- End an instance with a cause of CUE_ENDED (R247, Table 7.12); its marks not yet armed go with it.
Log 52 (DEDUCED, safe). -/
def endInstance (i cause : Nat) (s : State) : State :=
  match tfind s.cue.insts i with
  | none => s
  | some x =>
    let k := if cause = 0 then 1 else if cause = 1 then 2 else if cause = 3 then 3 else 4
    let s := { s with cue := { s.cue with
      insts := tdel s.cue.insts i
      cnt := bump s.cue.cnt k
      marks := if cause = 0 then s.cue.marks
        else s.cue.marks.filter (fun m => !(m.inst == i && m.run == x.run && m.arm.isNone
          && !(cause == 5 && m.target.isSome))) } }
    raise 1 9 0x9111 0 [pack8 i x.prog cause 0, w32 x.run, pack16 x.word x.placed] s

/-- End every instance that meets a condition. -/
def endInstances (p : CueInst → Bool) (cause : Nat) (s : State) : State :=
  (s.cue.insts.filter (fun x => p x.2)).foldl (fun s x => endInstance x.1 cause s) s

/-- What a transition does to the take queue (R220) and to the instances (R248). -/
def transitionQueues (n : Nat) (s : State) : State :=
  match n with
  | 16 => { s with xpt := { s.xpt with queue := [], waits := [], highSent := false }
                   cue := { s.cue with insts := [], progs := [], marks := [] } }
  | 12 => endInstances (fun x => x.role != .safety) 4
            (discardEntries (fun e => e.unsealed && e.role != .safety) 7 s)
  | 8 | 9 => endInstances (fun _ => true) 5 (discardEntries (fun e => e.unsealed && e.target.isNone) 6 s)
  | 13 | 15 => endInstances (fun _ => true) 4 (discardEntries (fun e => e.unsealed) 8 s)
  | _ => s

end Sys2Proof.Machine
end

