-- ==== Sys2Proof/Machine/TimeOps.lean ====
section
/-! DEFINITION. Time, the two loops, the reference selector and the alignment of planes, as several commands share them
(chapter 13). -/

namespace Sys2Proof.Machine

/-- The slowest rate of a family as frames per second, numerator and denominator (Table 6.3). -/
def famRate : Nat → Option (Nat × Nat)
  | 1 => some (25, 1) | 2 => some (30000, 1001) | 3 => some (30, 1) | 4 => some (24, 1) | 5 => some (24000, 1001)
  | _ => none

/-- The family has a rate twice its slowest one (Table 6.3). -/
def famHasFast (f : Nat) : Bool := f == 1 || f == 2 || f == 3

/-- The base period of a family in nanoseconds, rounded down (Table 6.3). -/
def basePeriod (f : Nat) : Nat := match famRate f with | some (n, d) => d * 1000000000 / n | none => 0

/-- ⌊t × r⌋ mod 2^32 for the slowest rate of a family (R442). -/
def countAt (f t : Nat) : Nat := match famRate f with | some (n, d) => t * n / (d * 1000000000) % 0x100000000 | none => 0

/-- ⌊t × r⌋ mod 2^32 for the fastest rate of a family (R442). -/
def fastCountAt (f t : Nat) : Nat :=
  match famRate f with | some (n, d) => t * (2 * n) / (d * 1000000000) % 0x100000000 | none => 0

/-- Signed distance of `x` from the nearest multiple of `p / n`, both scaled by `n`; ties round down.
Log 84 (DEDUCED, safe).
Log 85 (DEDUCED, safe). -/
def nearestError (x : Int) (n p : Nat) : Int :=
  let y := x * n
  let k := (y + p / 2) / p
  (y - k * p) / n

/-- The 10 MHz and PTP references have no frame period; a frame pulse has the base period of its family (R432).
Log 83 (DEDUCED, safe). -/
def refIn (s : State) (i : Nat) : RefIn := tget {} s.tim.refs i

/-- A timing plane. -/
def planeOf (s : State) (p : Nat) : Plane := tget {} s.tim.planes p

/-- The plane's configuration (Table 6.16). -/
def tpCfg (s : State) (p : Nat) : TpCfg := tget {} s.xpt.tps p

/-- A plane's alignment error E (R440, Table 13.3), or none when it is unknown. -/
def planeAlign (s : State) (p : Nat) : Option Int :=
  let c := tpCfg s p
  match famRate c.family, (planeOf s p).last with
  | some (n, d), some f =>
    if c.ref = 0 then some (nearestError ((f : Int) - c.phase) n (d * 1000000000))
    else if c.ref = 1 then
      match s.tim.sel.selected with
      | some i =>
        let r := refIn s i
        match r.edgeTime with
        | some e => if i < 4 && r.kind == 1 && r.family == c.family then
            some (nearestError ((f : Int) - c.phase - e) n (d * 1000000000)) else none
        | none => none
      | none => none
    else none
  | _, _ => none

/-- TIM_ERR (R572). -/
def timErr (s : State) : Nat :=
  let m := s.tim
  match m.time.state, m.acqOffset with
  | .acquiring, some o => min 0xFFFFFFFE (o.natAbs + 100)
  | _, _ =>
    if m.errKind = 0 then 0xFFFFFFFF
    else if m.errKind = 1 then 100
    else
      let rate := if m.errKind = 2 then m.xoPpb else 20000
      min 0xFFFFFFFE (m.errBase + rate * (s.clock.clk - m.errAt) / 1000000000)

/-- The estimated holdover error of a loop in nanoseconds (R425, R572). -/
def holdError (l : Loop) (s : State) : Nat :=
  (if l.restarted then 0 else 100) + s.tim.xoPpb * (s.clock.clk - l.since) / 1000000000

/-- The identity of the selected grandmaster, or 0. -/
def grandmaster (s : State) : Nat := (s.tim.ptp.chosen.map (·.msg.grandmaster)).getD 0

/-- The bookkeeping of TIM_ERR when the time state becomes `new` (R572). -/
def errOnState (new : LoopState) (s : State) : State :=
  match new with
  | .locked => onTim (fun m => { m with errKind := 1, acqOffset := none, estimated := false, restart := none }) s
  | .acquiring => onTim (fun m => { m with acqOffset := none, good := 0, bad := 0 }) s
  | .holdover =>
    let e := timErr s
    onTim (fun m => { m with errKind := if e = 0xFFFFFFFF then 0 else 2, errBase := e, errAt := s.clock.clk
                             acqOffset := none }) s
  | .lost => s
  | .freeRun => match s.tim.restart with
    | some (b, at_) => onTim (fun m => { m with errKind := 3, errBase := b, errAt := at_, acqOffset := none }) s
    | none => onTim (fun m => { m with errKind := 0, acqOffset := none }) s

/-- The house loop's state stands on HT_STATE (R439). -/
def driveHt (v : Nat) (s : State) : State :=
  if s.tim.htState = v then s else emitPin "HT_STATE" v (onTim (fun m => { m with htState := v }) s)

/-- A loop in a new state; entry into HOLDOVER keeps its frequency (R425). -/
def Loop.enter (l : Loop) (new : LoopState) (now : Nat) : Loop :=
  { l with
    state := new
    everLocked := l.everLocked || new == .locked
    holdFreq := if new = .holdover then l.freq else l.holdFreq
    since := if new = .lost then l.since else now
    restarted := if new = .lost then l.restarted else false }

/-- PTP leaves LOCKED: it is no candidate until WTR_S of LOCKED (R435). -/
def barPtp (s : State) : State := onTim (fun m => { m with sel := { m.sel with ptpBarred := true } }) s

/-- The time loop changes state (R439). -/
def setTimeState (new : LoopState) (s : State) : State :=
  let old := s.tim.time.state
  if old = new then s
  else
    let s := errOnState new s
    let s := if old = .locked then barPtp s else s
    let s := onTim (fun m => { m with time := m.time.enter new s.clock.clk }) s
    raise 1 8 0x8001 0 ([pack8 old.code new.code 0 0] ++ words64 (grandmaster s)) s

/-- The number a selected reference has in registers and events: 7 for none. -/
def selCode (x : Option Nat) : Nat := x.getD 7

/-- The waits that were put off until an acquisition ends start now (R434). -/
def startDeferred (s : State) : State :=
  onTim (fun m => { m with refs := tmap m.refs (fun _ r =>
    if r.deferred then { r with deferred := false, waitUntil := s.clock.clk + m.sel.wtr * 1000000000 } else r) }) s

/-- The house loop changes state (R439); the end of an acquisition starts the deferred waits (R434). -/
def setHouseState (new : LoopState) (s : State) : State :=
  let old := s.tim.house.state
  if old = new then s
  else
    let s := onTim (fun m => { m with house := m.house.enter new s.clock.clk }) s
    let s := driveHt new.code s
    let s := raise 1 8 0x8002 0 [pack8 old.code new.code (selCode s.tim.sel.selected) 0] s
    if old = .acquiring then startDeferred s else s

/-- The rank of a reference number. -/
def rankOf (s : State) (i : Nat) : Nat := if i = 4 then s.tim.sel.ptpRank else (refIn s i).rank

/-- A reference is a candidate of the selector (R435). -/
def isCandidate (s : State) (i : Nat) : Bool :=
  if i = 4 then s.tim.sel.ptpRank != 0 && s.tim.time.state == .locked && !s.tim.sel.ptpBarred
  else
    let r := refIn s i
    r.kind != 0 && r.phase == 3 && !r.suspect

/-- The better of two candidates: the lower rank, and at equal rank the earlier.
Log 83 (DEDUCED, safe). -/
def betterRef (s : State) (b : Option Nat) (i : Nat) : Option Nat :=
  match b with
  | none => some i
  | some j => if rankOf s i < rankOf s j then some i else some j

/-- The best candidate; at equal rank the selected one stays, else the lower number (R436).
Log 83 (DEDUCED, safe). -/
def bestCandidate (s : State) : Option Nat :=
  let order := (match s.tim.sel.selected with | some i => [i] | none => []) ++ [0, 1, 2, 3, 4]
  (order.filter (isCandidate s)).foldl (betterRef s) none

/-- Name a selection or a holdover in the epoch record of the sequencer in step (R438, R455). -/
def recordReference (s : State) : State :=
  recordItem (.reference (selCode s.tim.sel.selected) s.tim.house.state.code) s

/-- Switch to a reference (R436): the event, the count, and the house loop ACQUIRING with phase build-out. -/
def switchTo (i cause : Nat) (s : State) : State :=
  let old := s.tim.sel.selected
  let s := raise 1 8 0x8020 0 [pack8 (selCode old) i cause 0] s
  let s := onTim (fun m => { m with
    sel := { m.sel with selected := some i, last := some i, stage := 1, stageAt := s.clock.clk, edges := 0 }
    cnt := bump m.cnt 4 }) s
  let s := if s.tim.house.state = .acquiring then s else setHouseState .acquiring s
  recordReference s

/-- Enter HOLDOVER for want of a reference (R438). A loop that never had one stays in FREE_RUN (Table 13.1). -/
def houseHoldover (s : State) : State :=
  if s.tim.sel.selected.isNone then s
  else
    let s := onTim (fun m => { m with sel := { m.sel with selected := none, stage := 0 } }) s
    recordReference (setHouseState .holdover s)

/-- The device itself selects: the sequencer does so for a pair in step (R438, R455). -/
def selectsItself (s : State) : Bool := isSequencer s

/-- The house loop has started (R425). -/
def loopsRun (s : State) : Bool := s.tim.htState != 7

/-- An ISOLATED device makes no switch: it returns only to the reference it last had (R438). -/
def isolatedSelect (s : State) : State :=
  match s.tim.sel.selected with
  | some i => if isCandidate s i then s else houseHoldover s
  | none => match s.tim.sel.last with
    | some i => if isCandidate s i then
        setHouseState .acquiring (onTim (fun m => { m with
          sel := { m.sel with selected := some i, stage := 1, stageAt := s.clock.clk, edges := 0 } }) s)
      else s
    | none => s

/-- The selector acts on the candidates as they stand (R436, R438). A switch in hand is not aborted for a better
candidate; when its reference is lost, the loop enters HOLDOVER and selects again at once. -/
def runSelector (lossCause : Nat) (s : State) : State :=
  if !loopsRun s then s
  else if s.mode = .isolated then isolatedSelect s
  else if !selectsItself s then
    match s.tim.sel.selected with
    | some i => if isCandidate s i then s else houseHoldover s
    | none => s
  else
    match s.tim.sel.selected with
    | none => match bestCandidate s with
      | some j => switchTo j 1 s
      | none => s
    | some i =>
      if isCandidate s i then
        if s.tim.house.state = .acquiring then s
        else match bestCandidate s with
          | some j => if rankOf s j < rankOf s i then switchTo j 1 s else s
          | none => s
      else
        match bestCandidate s with
        | some j =>
          if s.tim.house.state = .acquiring then
            switchTo j lossCause (houseHoldover s)
          else switchTo j lossCause s
        | none => houseHoldover s

/-- The always-on 32.768 kHz count (R448). -/
def aonCount (s : State) : Nat := (s.clock.clk - s.aon.countZero) * 32768 / 1000000000

/-- Write the time record of the always-on domain (R448); whether the ring oscillator counts counts from here on
(R553). -/
def recordTime (s : State) : State :=
  { s with aon := { s.aon with ringUsed := s.aon.onRing, timeRec := some {
      at32k := aonCount s, now := s.clock.now, timErr := timErr s, loop := s.tim.time.state.code
      house := s.tim.house.state.code, holdFreq := s.tim.time.holdFreq, houseFreq := s.tim.house.holdFreq } } }

/-- The loop that a recorded state becomes after a stop (R448). -/
def restoredLoop (code : Nat) (f : Int) (now : Nat) : Loop :=
  if code = 1 || code = 2 || code = 3 then
    { state := .holdover, holdFreq := f, freq := f, since := now, restarted := true, everLocked := true }
  else { since := now }

/-- Set the time counter after a stop, from the record or from zero (R448, R553, R572).
Log 86 (DEDUCED, safe). -/
def timeRestore (s : State) : State :=
  match s.aon.timeRec with
  | none => { s with clock := { s.clock with now := 0, running := true } }
  | some r =>
    let elapsed := (aonCount s - r.at32k) * 1000000000 / 32768
    let known := r.timErr != 0xFFFFFFFF && !s.aon.onRing && !s.aon.ringUsed
    let bound := min 0xFFFFFFFE (r.timErr + elapsed / 10000)
    let tl := restoredLoop r.loop r.holdFreq s.clock.clk
    let s := { s with clock := { s.clock with now := r.now + elapsed, running := true } }
    onTim (fun m => { m with
      time := tl
      house := restoredLoop r.house r.houseFreq s.clock.clk
      estimated := true
      restart := if known then some (bound, s.clock.clk) else none
      errKind := if !known then 0 else if tl.state = .holdover then 2 else 3
      errBase := bound
      errAt := s.clock.clk }) s

/-- The loops start at T2 or at the wake (R425, R439): HT_STATE shows the house loop, and every configured input starts
its first qualification (R434). -/
def loopsStart (s : State) : State :=
  let s := driveHt s.tim.house.state.code s
  onTim (fun m => { m with refs := tmap m.refs (fun _ r =>
    if r.kind = 0 then r
    else { r with phase := 2, first := true, deferred := false, suspect := false, lastEdge := none, edgeTime := none
                  started := s.clock.clk, waitUntil := s.clock.clk + 2000000000 }) }) s

/-- d of R444: (target − N) mod 2^40 as a signed 40-bit number. -/
def compareDist (target now : Nat) : Int := signedOf 40 ((target + 0x10000000000 - now % 0x10000000000) % 0x10000000000)

/-- The targets of a unit that have passed, by cause (R446): a single-shot unit is MISSED, a periodic one moves to its
first target still ahead.
Log 87 (DEDUCED, safe). -/
def missTargets (unit cause : Nat) (s : State) : State :=
  let u := tget {} s.tim.compares unit
  let d := compareDist u.target s.clock.now
  let n := if u.period = 0 then 1 else (-d).toNat / u.period + 1
  let u' := if u.period = 0 then { u with state := 3 }
    else { u with target := (u.target + n * u.period) % 0x10000000000, started := false }
  let s := onTim (fun m => { m with compares := tset m.compares unit u', cnt := bumpBy m.cnt 7 n }) s
  raise 2 8 0x8040 0 [pack8_16 unit cause (min n 0xFFFF)] s

/-- The time counter steps by an offset from master (R429): planes and periodic outputs hold their phase (R441, R447),
and armed units whose target a forward step passes have missed it (R446). -/
def stepTime (delta : Int) (s : State) : State :=
  let old := s.clock.now
  let new := (old + delta).toNat
  let ahead := (s.tim.compares.filter (fun p => p.2.state == 1 && decide (0 < compareDist p.2.target old))).map (·.1)
  let s := { s with clock := { s.clock with now := new } }
  let s := onTim (fun m => { m with
    cnt := bump m.cnt 0
    planes := tmap m.planes (fun _ p => { p with last := p.last.map (fun f => (f + delta).toNat)
                                                 lastAny := p.lastAny.map (fun f => (f + delta).toNat) })
    refs := tmap m.refs (fun _ r => { r with edgeTime := r.edgeTime.map (fun f => (f + delta).toNat) })
    pulses := tmap m.pulses (fun _ p => if p.mode = 2 then { p with next := (p.next + delta).toNat } else p) }) s
  let s := raise 2 8 0x8003 0 ([0#32] ++ words64 (unsignedOf 64 delta)) s
  ahead.foldl (fun s u =>
    if compareDist (tget {} s.tim.compares u).target new ≤ 0 then missTargets u 1 s else s) s

end Sys2Proof.Machine
end

