-- ==== Sys2Proof/Machine/Zones.lean ====
section
/-! DEFINITION. The geometry of the frame store: zones, address orders, the address key and units (R256 to R263), and the
bytes of a zone as requesters read and write them. -/

namespace Sys2Proof.Machine

/-- A location in the frame store (R256, R263). -/
structure Loc where
  pc   : Nat
  bank : Nat
  row  : Nat
  col  : Nat
  byte : Nat
deriving DecidableEq, Repr

/-- Table 8.3: the location of zone offset `z`. -/
def locate (zn : Zone) (z : Nat) : Loc :=
  let p := zn.pcLog2
  let r := z / 2 ^ (15 + p)
  let row := zn.rowBase + r
  match zn.order with
  | 0 => ⟨zn.pcBase + z / 2 ^ 15 % 2 ^ p, bitsOf z 14 10, row, bitsOf z 9 5, z % 32⟩
  | 1 => ⟨zn.pcBase + z / 2 ^ 8 % 2 ^ p, z / 2 ^ (8 + p) % 32, row, z / 2 ^ (13 + p) % 4 * 8 + bitsOf z 7 5, z % 32⟩
  | _ => ⟨zn.pcBase + z / 2 ^ 10 % 2 ^ p, Nat.xor (z / 2 ^ (10 + p) % 32) (r % 32), row, bitsOf z 9 5, z % 32⟩

/-- The byte address of a location: PC, bank, row and the byte within its row. -/
def Loc.addr (l : Loc) : Nat := l.pc * 2 ^ 29 + l.bank * 2 ^ 24 + l.row * 1024 + l.col * 32 + l.byte

/-- The location of a byte address. -/
def locOf (a : Nat) : Loc := ⟨a / 2 ^ 29, a / 2 ^ 24 % 32, a / 1024 % 16384, a / 32 % 32, a % 32⟩

/-- The global bank number of a location (R256). -/
def Loc.globalBank (l : Loc) : Nat := l.pc * 32 + l.bank

/-- The address word A of a burst (R259). -/
def addressWord (l : Loc) : Nat := l.pc * 2 ^ 24 + l.bank * 2 ^ 19 + l.row * 32 + l.col

/-- The key K of a burst (R259): a CRC-32 without final inversion. -/
def addressKey (l : Loc) : Word := ~~~ (crc32 (beBytes 4 (addressWord l)))

/-- The parity bit P of a byte: the nine bits hold an odd number of ones (R259). -/
def parityBit (b : Byte) : Bool := (List.range 8).foldl (fun a i => a != b.toNat.testBit i) true

/-- The ECC bit stored for byte `n` of a burst, beat n ÷ 4 and lane n mod 4 (R259).
Log 117 (DEDUCED, safe). -/
def storedBit (l : Loc) (n : Nat) (b : Byte) : Bool := parityBit b != (addressKey l).toNat.testBit n

/-- The bytes of a burst that fail parity, as the controller finds them from the data and the ECC bits that it read,
ECC bit 4i + j for lane j of beat i (R260). -/
def failingBytes (l : Loc) (data : List Byte) (ecc : Word) : List Nat :=
  (List.range 32).filter (fun n => storedBit l n (data.getD n 0#8) != ecc.toNat.testBit n)

/-- The definition of a zone. -/
def zoneOf (s : State) (k : Nat) : Zone := s.fst.zones.getD k {}

/-- The units of a zone (R262). -/
def Zone.units (z : Zone) : Nat := if z.defined then z.rowCount * 2 ^ z.pcLog2 / 2 else 0

/-- A unit touches a bank of a PC: one of its 256-byte pieces lies there (R263). -/
def unitTouches (z : Zone) (u bank pc : Nat) : Bool :=
  (List.range 256).any (fun i => let l := locate z (u * 65536 + i * 256); l.pc == pc && l.bank == bank)

/-- A unit touches a PC. -/
def unitTouchesPc (z : Zone) (u pc : Nat) : Bool :=
  (List.range 256).any (fun i => (locate z (u * 65536 + i * 256)).pc == pc)

/-- A unit touches a LOST bank (R266). -/
def unitLost (s : State) (z : Zone) (u : Nat) : Bool :=
  s.fst.lost.any (fun g => unitTouches z u (g % 32) (g / 32))

/-- Add a unit to a list of runs that grows upward. -/
def pushUnit (rs : List (Nat × Nat)) (u : Nat) : List (Nat × Nat) :=
  match rs with
  | (f, n) :: r => if f + n = u then (f, n + 1) :: r else (u, 1) :: (f, n) :: r
  | [] => [(u, 1)]

/-- The runs of a zone's units that touch LOST banks. -/
def lostRuns (s : State) (k : Nat) : List (Nat × Nat) :=
  if s.fst.lost.isEmpty then []
  else
    let z := zoneOf s k
    ((List.range z.units).foldl (fun rs u => if unitLost s z u then pushUnit rs u else rs) []).reverse

/-- The zone, and the zone offset, in which a byte address lies; none for device rows and rows of no zone. -/
def zoneAt (s : State) (a : Nat) : Option (Nat × Nat) :=
  let l := locOf a
  let hit := fun k =>
    let z := zoneOf s k
    z.defined && decide (z.pcBase ≤ l.pc) && decide (l.pc < z.pcBase + 2 ^ z.pcLog2)
      && decide (z.rowBase ≤ l.row) && decide (l.row < z.rowBase + z.rowCount)
  match (List.range 8).find? hit with
  | none => none
  | some k =>
    let z := zoneOf s k
    let p := z.pcLog2
    let c := l.pc - z.pcBase
    let r := l.row - z.rowBase
    let low := match z.order with
      | 0 => c * 2 ^ 15 + l.bank * 1024 + l.col * 32
      | 1 => l.col / 8 * 2 ^ (13 + p) + l.bank * 2 ^ (8 + p) + c * 2 ^ 8 + l.col % 8 * 32
      | _ => Nat.xor l.bank (r % 32) * 2 ^ (10 + p) + c * 2 ^ 10 + l.col * 32
    some (k, r * 2 ^ (15 + p) + low + l.byte)

/-- The pieces of at most 256 bytes into which a run of zone bytes falls, as byte addresses and lengths. -/
def zonePieces (z : Zone) : Nat → Nat → Nat → List (Nat × Nat)
  | 0, _, _ => []
  | fuel + 1, off, len =>
    if len = 0 then []
    else
      let n := min len (256 - off % 256)
      ((locate z off).addr, n) :: zonePieces z fuel (off + n) (len - n)

/-- The pieces of a run of zone bytes. -/
def pieces256 (z : Zone) (off len : Nat) : List (Nat × Nat) := zonePieces z (len / 256 + 2) off len

/-- An access opens its row, and takes its PC out of self-refresh (R275, R277). -/
def touchPc (a : Nat) (s : State) : State :=
  let l := locOf a
  { s with fst := { s.fst with pcs := tmod {} s.fst.pcs l.pc (fun p => { p with
      openRows := tset p.openRows l.bank (l.row, s.clock.clk), lastAccess := s.clock.clk
      state := if p.state = 2 then 1 else p.state }) } }

/-- Read a run of bytes of a zone, without a check. -/
def zoneRead (s : State) (k off len : Nat) : List Byte :=
  (pieces256 (zoneOf s k) off len).flatMap (fun p => memReadList 0#8 s.fst.mem p.1 p.2)

/-- Write one piece: its bytes are stored with correct parity. -/
def writePiece (a : Nat) (xs : List Byte) (s : State) : State :=
  touchPc a { s with fst := { s.fst with
    mem := memWriteList 0#8 s.fst.mem a xs
    bad := s.fst.bad.filter (fun b => decide (b < a) || decide (a + xs.length ≤ b)) } }

/-- Write a run of bytes of a zone.
Log 117 (DEDUCED, safe). -/
def zoneWriteAt (k off : Nat) (data : List Byte) (s : State) : State :=
  ((pieces256 (zoneOf s k) off data.length).foldl
    (fun (x : State × List Byte) p => (writePiece p.1 (x.2.take p.2) x.1, x.2.drop p.2)) (s, data)).1

/-- Write a run of bytes at an offset of a unit of a zone. -/
def zoneWrite (zone unit off : Nat) (data : List Byte) (s : State) : State := zoneWriteAt zone (unit * 65536 + off) data s

/-- The addresses with failing parity in a run of zone bytes, with their offsets in the run. -/
def zoneBad (s : State) (k off len : Nat) : List (Nat × Nat) :=
  if s.fst.bad.isEmpty then []
  else (s.fst.bad.filterMap (fun a => match zoneAt s a with
    | some (k', o) => if k' = k && decide (off ≤ o) && decide (o < off + len) then some (o - off, a) else none
    | none => none))

/-- Count in one index of FST_CNT (Table 8.18). -/
def fstCount (i n : Nat) (s : State) : State := { s with fst := { s.fst with cnt := bumpBy s.fst.cnt i n } }

/-- Change a pseudo-channel. -/
def modPc (n : Nat) (f : FstPc → FstPc) (s : State) : State :=
  { s with fst := { s.fst with pcs := tmod {} s.fst.pcs n f } }

/-- STORE_PARITY for a burst (Table 8.19): kind 0 service read, 1 stored, 2 hard. -/
def raiseStoreParity (burst kind requester fails : Nat) (s : State) : State :=
  let l := locOf burst
  raise 2 4 0x4020 0 [pack8 l.pc l.bank kind requester, pack16_8 l.row l.col fails] s

/-- A burst in which a read found failing bytes waits for its confirming read (R261, R279, R280). -/
def addConfirm (burst requester : Nat) (fails : List Nat) (s : State) : State :=
  if s.fst.confirm.any (fun c => c.addr == burst) then s
  else { s with fst := { s.fst with confirm := s.fst.confirm ++ [⟨burst, requester, fails, s.clock.clk⟩] } }

/-- The bursts of a list of failing addresses, each with its failing bytes. -/
def burstsOf (as : List Nat) : List (Nat × List Nat) :=
  as.foldl (fun bs a => bs.map (fun b => if b.1 = a / 32 then (b.1, b.2 ++ [a % 32]) else b)
    ++ (if bs.any (fun b => b.1 == a / 32) then [] else [(a / 32, [a % 32])])) []

/-- A service read delivers failing bytes (R261): each burst is counted and reported, and passed to the scrubber. -/
def serviceFailures (requester : Nat) (as : List Nat) (s : State) : State :=
  (burstsOf as).foldl (fun s b =>
    let a := b.1 * 32
    let s := modPc (locOf a).pc (fun p => { p with service := min 0xFFFF (p.service + 1) }) (fstCount 0 1 s)
    addConfirm a requester b.2 (raiseStoreParity a 0 requester b.2.length s)) s

/-- A service read of a run of zone bytes: the bytes, the offset of the first that fails, and the state after it. -/
def serviceRead (requester k off len : Nat) (s : State) : List Byte × Option Nat × State :=
  let data := zoneRead s k off len
  let bad := zoneBad s k off len
  let first := bad.foldl (fun (m : Option Nat) p => match m with | some x => some (min x p.1) | none => some p.1) none
  (data, first, serviceFailures requester (bad.map (·.2)) s)

/-- The bytes of a version's run from an offset, without a check. -/
def versionBytes (s : State) (v : Version) (off len : Nat) : List Byte := zoneRead s v.zone (v.first * 65536 + off) len

end Sys2Proof.Machine
end

