-- ==== Sys2Proof/Machine/Objects.lean ====
section
/-! DEFINITION. Objects of the frame store as requesters and commands see them (R266 to R270), the runs of units, and what
the flow engines read of the compositors, the frame store and the media engine. -/

namespace Sys2Proof.Machine

/-- Insert a run of units into a list sorted by first unit. -/
def insertRun (r : Nat × Nat) : List (Nat × Nat) → List (Nat × Nat)
  | [] => [r]
  | x :: xs => if r.1 ≤ x.1 then r :: x :: xs else x :: insertRun r xs

/-- Sort runs of units by first unit. -/
def sortRuns (rs : List (Nat × Nat)) : List (Nat × Nat) := rs.foldl (fun a r => insertRun r a) []

/-- The free runs between sorted used runs, from unit `p` to `total`. -/
def freeRuns (total : Nat) : Nat → List (Nat × Nat) → List (Nat × Nat)
  | p, [] => if p < total then [(p, total - p)] else []
  | p, (f, n) :: r => (if p < f then [(p, f - p)] else []) ++ freeRuns total (max p (f + n)) r

/-- Take `n` units from the lowest free runs; none when they do not suffice. -/
def takeUnits : Nat → List (Nat × Nat) → Option (List (Nat × Nat))
  | 0, _ => some []
  | _ + 1, [] => none
  | n + 1, (f, k) :: r =>
    if n + 1 ≤ k then some [(f, n + 1)] else (takeUnits (n + 1 - k) r).map (fun l => (f, k) :: l)

/-- The unit of index `i` in a list of runs. -/
def unitAt : List (Nat × Nat) → Nat → Nat
  | [], _ => 0
  | (f, n) :: r, i => if i < n then f + i else unitAt r (i - n)

/-- The compositor `c`. -/
def compOf (s : State) (c : Nat) : Comp := tget {} s.cmp.comps c
/-- Change a compositor. -/
def modComp (c : Nat) (f : Comp → Comp) (s : State) : State := onCmp (fun k => { k with comps := tmod {} k.comps c f }) s
/-- A compositor is enabled, disabling included; a gang member is not (R292, R293, R322). -/
def compOn (s : State) (c : Nat) : Bool := decide (c < 64) && ((compOf s c).state == 1 || (compOf s c).state == 3)
/-- The timing plane of a compositor. -/
def compPlane (s : State) (c : Nat) : Nat := (compOf s c).plane
/-- The output format of a compositor. -/
def compFormat (s : State) (c : Nat) : Nat := (compOf s c).format
/-- A format of 2160 lines, which takes a gang of four engines (R293). -/
def is2160 (code : Nat) : Bool := decide (0x30 ≤ code)
/-- The output format with which a compositor counts in admission: that of an accepted change, or its own (R294). -/
def admittedFormat (k : Comp) : Option Nat :=
  match k.change with
  | some x => some x.format
  | none => if k.state = 1 || k.state = 3 then some k.format else none
/-- Add up a weight over the compositors that count in admission, but compositor `c` (Table 9.1). -/
def compSum (s : State) (c : Nat) (w : Nat → Nat) : Nat :=
  s.cmp.comps.foldl (fun a p => if p.1 = c then a else match admittedFormat p.2 with | some f => a + w f | none => a) 0
/-- The composition slot-equivalents in use, but those of compositor `c` (Table 9.1). -/
def compSlots (s : State) (c : Nat) : Nat := compSum s c (fun f => if is2160 f then 8 else 2)
/-- The 1080p60-equivalents in use, but those of compositor `c` (Table 9.1). -/
def compLoad (s : State) (c : Nat) : Nat := compSum s c (fun f => if is2160 f then 4 else 1)

/-- The object of an ID. -/
def objOf (s : State) (n : Nat) : Obj := tget {} s.fst.objs n
/-- Change an object. -/
def modObj (n : Nat) (f : Obj → Obj) (s : State) : State := onFst (fun k => { k with objs := tmod {} k.objs n f }) s
/-- The state code of an object (R268): 0 FREE, 1 LOADING, 2 VALID, 3 INVALID, 4 FILLING. -/
def Obj.code (o : Obj) : Nat :=
  if o.filling then 4 else if o.invalid then 3 else if o.cur.isSome then 2 else if o.load.isSome then 1 else 0
/-- The VALID version of an object. -/
def Obj.valid (o : Obj) : Option Version := if o.invalid || o.filling then none else o.cur
/-- The version that an object ID holds and that a referencer uses: a referencer that has not moved uses the old one
until its next frame boundary (R269). -/
def versionFor (s : State) (n : Nat) (r : Referencer) : Option Version :=
  match (objOf s n).old.find? (fun x => x.waiting.contains r) with
  | some x => some x.version
  | none => (objOf s n).valid
/-- The format of a VALID still. -/
def stillFormat (s : State) (n : Nat) : Option Nat :=
  match (objOf s n).valid with
  | some v => if v.kind = 1 then some v.format else none
  | none => none

/-- The runs of units that objects hold in a zone. -/
def objectRuns (s : State) (k : Nat) : List (Nat × Nat) :=
  s.fst.objs.flatMap (fun p =>
    let vs := p.2.cur.toList ++ (p.2.load.map (·.1)).toList ++ p.2.old.map (·.version)
    vs.filterMap (fun v => if v.zone = k && v.units ≠ 0 then some (v.first, v.units) else none))

/-- The units of Z1 that the media engine's packet buffers hold: none while no packet is held, else a number that the
specification does not give (R265).
Log 57 (DESIGN CHOICE, safe). -/
def packetRuns1 (s : State) : List (Nat × Nat) :=
  let held := s.eth.rx.foldl (fun a p => a + p.2.held.length) 0
  if held = 0 then [] else [(0, min (zoneOf s 1).units (Config.packetUnits held))]

/-- The runs of units of a zone that are in use. -/
def usedRuns (s : State) (k : Nat) : List (Nat × Nat) :=
  match k with
  | 0 => s.flow.src.flatMap (fun p => p.2.ring)
  | 1 => packetRuns1 s
  | _ => objectRuns s k

/-- The free runs of a zone: no run in use, and no unit that touches a LOST bank (R266, R290). -/
def zoneFreeRuns (s : State) (k : Nat) : List (Nat × Nat) :=
  freeRuns (zoneOf s k).units 0 (sortRuns (usedRuns s k ++ lostRuns s k))

/-- The units of zone Z0. -/
def ringTotal (s : State) : Nat := (zoneOf s 0).units
/-- The units of zone Z0 that no ring can have. -/
def ringBlocked (s : State) : List (Nat × Nat) := lostRuns s 0

/-- The lowest-addressed free run of a zone that fits (R267). -/
def findRun (s : State) (k units : Nat) : Option Nat :=
  ((zoneFreeRuns s k).find? (fun r => decide (units ≤ r.2))).map (·.1)

/-- What refers to an object now (R269): park settings, committed layers and LUT memories. -/
def referencers (s : State) (n : Nat) : List Referencer :=
  (s.flow.dst.filterMap (fun p => if p.2.parkType = 1 && p.2.parkValue = n then some (.park p.1) else none))
    ++ s.cmp.comps.flatMap (fun p =>
      if p.2.state = 1 || p.2.state = 3 then
        ((List.range 8).filterMap (fun l =>
          let y := p.2.active.layers.getD l {}
          if 2 ≤ y.content && y.obj = n then some (.layer p.1 l) else none))
        ++ (if (p.2.lut.active.map (·.obj)) = some n || (p.2.lut.shadow.map (·.obj)) = some n then [.lut p.1] else [])
      else [])

/-- An object is safety-owned: it is protected, or the protected layer of some compositor uses it (R269, R332). -/
def safetyOwned (s : State) (n : Nat) : Bool :=
  (objOf s n).prot || s.cmp.comps.any (fun p =>
    let y := p.2.active.layers.getD 7 {}
    (p.2.state == 1 || p.2.state == 3) && decide (2 ≤ y.content) && y.obj == n)

/-- Drop an object entry that holds nothing. -/
def tidyObj (n : Nat) (s : State) : State :=
  let o := objOf s n
  if o.cur.isNone && !o.invalid && o.load.isNone && o.old.isEmpty && !o.filling then
    onFst (fun k => { k with objs := tdel k.objs n }) s
  else s

/-- A version leaves its object: its run stays while referencers have still to move (R269). -/
def retire (n : Nat) (v : Version) (forced : Bool) (s : State) : State :=
  let already := (objOf s n).old.flatMap (·.waiting)
  let refs := (referencers s n).filter (fun r => !already.contains r)
  if refs.isEmpty then s else modObj n (fun o => { o with old := o.old ++ [⟨v, refs, forced⟩] }) s

/-- A referencer passes its frame boundary (R269): it moves to the new version or drops a forced object, and runs that
nobody uses any more are freed. -/
def referencerMoves (n : Nat) (r : Referencer) (s : State) : State :=
  let o := objOf s n
  if o.old.any (fun x => x.waiting.contains r) then
    tidyObj n (modObj n (fun o => { o with old :=
      (o.old.map (fun x => { x with waiting := x.waiting.filter (fun y => y != r) })).filter (fun x => !x.waiting.isEmpty) }) s)
  else s

/-- Every referencer of a class passes its frame boundary. -/
def referencersMove (p : Referencer → Bool) (s : State) : State :=
  s.fst.objs.foldl (fun s o => ((o.2.old.flatMap (·.waiting)).filter p).foldl (fun s r => referencerMoves o.1 r s) s) s

/-- An object becomes INVALID (R270). Its run stays until it is cleared. -/
def invalidate (n cause : Nat) (s : State) : State :=
  let o := objOf s n
  if o.cur.isNone || o.invalid then s
  else
    let kind := (o.cur.map (·.kind)).getD 0
    raise 3 4 0x4021 0 [pack16_8 n kind cause] (fstCount 3 1 (modObj n (fun o => { o with invalid := true }) s))

/-- Objects or banks hold the device in CALIBRATE: any bank is LOST or any object is INVALID (R32, R286).
Log 13 (DEDUCED, safe). -/
def storeHolds (s : State) : Bool := !s.fst.lost.isEmpty || s.fst.objs.any (fun p => p.2.invalid)

/-- A receive flow is a defined video flow. -/
def rxFlowDefined (s : State) (f : Nat) : Bool := decide (f < 512) && (tget {} s.eth.rx f).kind == 1
/-- A transmit flow is a defined video flow. -/
def txFlowDefined (s : State) (f : Nat) : Bool := decide (f < 512) && (tget {} s.eth.tx f).cfg.kind == 1
/-- The ensign that the media engine reports for a receive flow (R411). -/
def rxFlowEnsign (s : State) (f : Nat) : Bool := (tget {} s.eth.rx f).ensign

end Sys2Proof.Machine
end

