-- ==== Sys2Proof/Machine/FlowOps.lean ====
section
/-! DEFINITION. Sources and destinations as several commands act on them: formats, frames and their closing, the state
of a source, and parking (chapter 5). -/

namespace Sys2Proof.Machine

/-- A format of Table 6.4. `fast` says that its rate is the faster one of its family. -/
structure Format where
  cls    : Nat
  family : Nat
  fast   : Bool
  bytes  : Nat
  units  : Nat
  lines  : Nat
deriving DecidableEq, Repr

/-- Table 6.4; a code that is not listed is reserved (R205). -/
def formatOf : Nat → Option Format
  | 0x10 => some ⟨1, 1, false, 7425000, 114, 1125⟩
  | 0x11 => some ⟨1, 2, false, 6187500, 95, 1125⟩
  | 0x12 => some ⟨1, 3, false, 6187500, 95, 1125⟩
  | 0x13 => some ⟨1, 1, false, 7425000, 114, 1125⟩
  | 0x14 => some ⟨1, 2, false, 6187500, 95, 1125⟩
  | 0x15 => some ⟨1, 3, false, 6187500, 95, 1125⟩
  | 0x16 => some ⟨1, 4, false, 7734375, 119, 1125⟩
  | 0x17 => some ⟨1, 5, false, 7734375, 119, 1125⟩
  | 0x18 => some ⟨1, 1, true, 3712500, 57, 750⟩
  | 0x19 => some ⟨1, 2, true, 3093750, 48, 750⟩
  | 0x1A => some ⟨1, 3, true, 3093750, 48, 750⟩
  | 0x1B => some ⟨1, 1, false, 7425000, 114, 1125⟩
  | 0x1C => some ⟨1, 2, false, 6187500, 95, 1125⟩
  | 0x1D => some ⟨1, 5, false, 7734375, 119, 1125⟩
  | 0x20 | 0x28 => some ⟨2, 1, true, 7425000, 114, 1125⟩
  | 0x21 | 0x29 => some ⟨2, 2, true, 6187500, 95, 1125⟩
  | 0x22 | 0x2A => some ⟨2, 3, true, 6187500, 95, 1125⟩
  | 0x30 => some ⟨3, 1, false, 29700000, 454, 1125⟩
  | 0x31 => some ⟨3, 2, false, 24750000, 378, 1125⟩
  | 0x32 => some ⟨3, 3, false, 24750000, 378, 1125⟩
  | 0x33 => some ⟨3, 4, false, 30937500, 473, 1125⟩
  | 0x34 => some ⟨3, 5, false, 30937500, 473, 1125⟩
  | 0x40 => some ⟨4, 1, true, 29700000, 454, 1125⟩
  | 0x41 => some ⟨4, 2, true, 24750000, 378, 1125⟩
  | 0x42 => some ⟨4, 3, true, 24750000, 378, 1125⟩
  | _ => none

/-- The slots of a class (Table 5.1). -/
def classSlots : Nat → Nat
  | 1 => 1 | 2 => 2 | 3 => 4 | 4 => 8 | _ => 0

/-- Frames per second of a format, numerator and denominator. -/
def formatRate (f : Format) : Nat × Nat :=
  match famRate f.family with
  | some (n, d) => (if f.fast then 2 * n else n, d)
  | none => (1, 1)

/-- Frames per second of a format code; a reserved code counts as 1. -/
def codeRate (code : Nat) : Nat × Nat := match formatOf code with | some f => formatRate f | none => (1, 1)

/-- The frame period of a format code in nanoseconds, rounded down. -/
def framePeriod (code : Nat) : Nat := (codeRate code).2 * 1000000000 / (codeRate code).1

/-- The frame bytes of a format code. -/
def frameBytes (code : Nat) : Nat := match formatOf code with | some f => f.bytes | none => 0

/-- The lines per frame of a format code. -/
def frameLines (code : Nat) : Nat := match formatOf code with | some f => f.lines | none => 1125

/-- The parcels of a frame (R155). -/
def parcelCount (code : Nat) : Nat := (frameBytes code + 255) / 256

/-- The frame count of a plane at the rate of a format (R204). -/
def planeCount (s : State) (plane code : Nat) : Nat :=
  match formatOf code with
  | some f => if f.fast then (planeOf s plane).fast else (planeOf s plane).slow
  | none => 0

/-- The source `n`. -/
def srcOf (s : State) (n : Nat) : Src := tget {} s.flow.src n
/-- The destination `n`. -/
def dstOf (s : State) (n : Nat) : Dst := tget {} s.flow.dst n
/-- Change a source. -/
def modSrc (n : Nat) (f : Src → Src) (s : State) : State := onFlow (fun w => { w with src := tmod {} w.src n f }) s
/-- Change a destination. -/
def modDst (n : Nat) (f : Dst → Dst) (s : State) : State := onFlow (fun w => { w with dst := tmod {} w.dst n f }) s
/-- Add to a counter of a source (Table 5.10). -/
def srcCount (n i k : Nat) (s : State) : State := modSrc n (fun x => { x with cnt := bumpBy x.cnt i k }) s
/-- FLOW_TP_CFG of a plane. -/
def flowTp (s : State) (p : Nat) : FlowTp := tget {} s.flow.tps p

/-- A copy of a source by its number 1 or 2. -/
def Src.copy (x : Src) (c : Nat) : CopySt := if c = 2 then x.c2 else x.c1
/-- Change a copy of a source. -/
def Src.setCopy (x : Src) (c : Nat) (f : CopySt → CopySt) : Src :=
  if c = 2 then { x with c2 := f x.c2 } else { x with c1 := f x.c1 }
/-- The descriptor of a copy. -/
def Src.copyDef (x : Src) (c : Nat) : CopyDef :=
  match x.def_ with
  | some d => if c = 2 then d.copy2 else d.copy1
  | none => {}
/-- The source has two copies. -/
def Src.twoCopies (x : Src) : Bool := (x.copyDef 2).kind != 0
/-- The plane of a source. -/
def Src.plane (x : Src) : Nat := (x.def_.map (·.plane)).getD 0

/-- A source is defined; one whose deletion has not landed still is (R190). -/
def srcDefined (s : State) (n : Nat) : Bool := (srcOf s n).def_.isSome

/-- A source 0 to 1087 is defined: an external one, or the output of an enabled compositor (R208). -/
def sourceDefined (s : State) (n : Nat) : Bool :=
  if n < 1024 then srcDefined s n else decide (n < 1088) && compOn s (n - 1024)

/-- The timing plane of a source or composition output. -/
def sourcePlane (s : State) (n : Nat) : Nat := if n < 1024 then (srcOf s n).plane else compPlane s (n - 1024)

/-- The format code of a source or composition output. -/
def sourceFormat (s : State) (n : Nat) : Nat := if n < 1024 then (srcOf s n).format else compFormat s (n - 1024)

/-- A cell of a source or destination is isolated, reloads its context, or lies in a block that restarts (R502). -/
def cellDown (s : State) (n : Nat) : Bool :=
  decide (n < 1024) && (s.saf.isolated.contains n || s.saf.reloading.contains n || s.saf.restarting.contains (n / 16))

/-- A source cannot be shown: it is FAILED, over its format, or undefined (R165, R186, R215). -/
def sourceFailed (s : State) (n : Nat) : Bool :=
  !sourceDefined s n || (decide (n < 1024) && ((srcOf s n).phase == 4 || (srcOf s n).phase == 5))

/-- A destination is defined: an external one, or a layer input of an enabled compositor (R159). -/
def destDefined (s : State) (d : Nat) : Bool :=
  if d < 1024 then (dstOf s d).def_.isSome else decide (d < 1536) && compOn s ((d - 1024) / 8)

/-- A source changes its state, with SOURCE_STATE (Table 5.13). -/
def setSrcPhase (n p : Nat) (s : State) : State :=
  let old := (srcOf s n).phase
  if old = p then s
  else raise 0 2 0x2001 (pathCell n) [pack16_8 n old p] (modSrc n (fun x => { x with phase := p }) s)

/-- A source becomes FAILED (R183) or enters FORMAT_OVER (R165), with SOURCE_FAILED unless it is FAILED already. -/
def failSource (n cause : Nat) (s : State) : State :=
  let x := srcOf s n
  let was := x.phase = 4 || x.phase = 5
  let s := setSrcPhase n (if cause = 1 then 5 else 4) s
  let s := modSrc n (fun x => { x with newRun := 0, failedFor := if was then x.failedFor else 0 }) s
  if was then s else raise 2 2 0x2002 (pathCell n) [pack16_8 n cause 0, w32 x.run] s

/-- Parcels held by some copy in a list of runs. -/
def heldCount (rs : List ParcelRun) : Nat := rs.foldl (fun a r => a + r.count) 0
/-- Parcels held only bad. -/
def badCount (rs : List ParcelRun) : Nat := rs.foldl (fun a r => if r.clean then a else a + r.count) 0

/-- Change the frame of a sequence in a source's ring. -/
def modBuf (n seq : Nat) (f : FrameBuf → FrameBuf) (s : State) : State :=
  modSrc n (fun x => { x with bufs := x.bufs.map (fun b => if b.seq = seq then f b else b) }) s

/-- The frame of a sequence in a source's ring. -/
def bufOf (s : State) (n seq : Nat) : Option FrameBuf := (srcOf s n).bufs.find? (fun b => b.seq == seq)

/-- A frame closes (R169): short when a parcel is held by no copy, tainted when one is held only bad.
Log 38 (DEDUCED, safe). -/
def closeFrame (n seq : Nat) (s : State) : State :=
  match bufOf s n seq with
  | none => s
  | some b =>
    if b.closed then s
    else
      let short := decide (heldCount b.parcels < parcelCount (srcOf s n).format)
      let bad := badCount b.parcels
      let tainted := !short && (decide (0 < bad) || b.marked)
      let s := modBuf n seq (fun b => { b with closed := true, short := short, tainted := b.tainted || tainted }) s
      if tainted && !b.tainted then
        raise 2 2 0x2012 (pathCell n) [pack16 n 0, w32 seq, w32 bad] (srcCount n 4 1 s)
      else s

/-- The merge window of a source in nanoseconds (R167). -/
def mergeWindow (x : Src) : Nat := x.cfg.window * 1000000

/-- The conditions of R169 under which a frame closes now. -/
def closeIfDone (n seq : Nat) (s : State) : State :=
  match bufOf s n seq with
  | none => s
  | some b =>
    let x := srcOf s n
    let all := heldCount b.parcels = parcelCount x.format && badCount b.parcels = 0
    let windowOver := !x.twoCopies || decide (b.leadAt + mergeWindow x ≤ s.clock.clk)
    if all || (b.leadEnded && (if b.joined then b.joinEnded else windowOver)) then closeFrame n seq s else s

/-- A copy has ended the frame in hand, by its next FRAME_START or by the loss of its lock (R169). -/
def copyEnds (n c : Nat) (s : State) : State :=
  let x := srcOf s n
  match (x.copy c).inFrame with
  | none => s
  | some q =>
    if !(x.copy c).taking then s
    else
      let s := modBuf n q (fun b => if b.lead = c then { b with leadEnded := true } else { b with joinEnded := true }) s
      closeIfDone n q s

/-- Every source copy on a lane that stops delivering ends its frame (R128, R169). -/
def laneStops (k : Nat) (s : State) : State :=
  if 128 ≤ k then s
  else
    let srcs := (s.flow.src.filter (fun p => p.2.def_.isSome && p.1 / 16 == k / 2)).map (·.1)
    srcs.foldl (fun s n =>
      [1, 2].foldl (fun s c =>
        let d := (srcOf s n).copyDef c
        if d.kind = 1 && d.index / 16 = k then
          modSrc n (fun x => x.setCopy c (fun y => { y with inFrame := none, taking := false })) (copyEnds n c s)
        else s) s) s

/-- The rates at which a source plays: its present format lies within what the ring, the class and the plane allow. -/
def formatOver (s : State) (n code : Nat) : Bool :=
  let x := srcOf s n
  match x.def_, formatOf code with
  | some d, some f => decide (x.units < f.units) || f.cls != d.cls || f.family != (tpCfg s d.plane).family
  | _, _ => true

end Sys2Proof.Machine
end

