-- ==== Sys2Proof/Machine/LaneOps.lean ====
section
/-! DEFINITION. The lanes as the mode logic and several commands act on them: lock and its loss, electrical idle, the
ensign condition and the end of test functions (chapter 4). -/

namespace Sys2Proof.Machine

/-- A receive lane. -/
def rxLane (s : State) (k : Nat) : RxLane := tget {} s.lane.rx k
/-- A transmit lane. -/
def txLane (s : State) (k : Nat) : TxLane := tget {} s.lane.tx k
/-- Change a receive lane. -/
def modRx (k : Nat) (f : RxLane → RxLane) (s : State) : State := onLane (fun l => { l with rx := tmod {} l.rx k f }) s
/-- Change a transmit lane. -/
def modTx (k : Nat) (f : TxLane → TxLane) (s : State) : State := onLane (fun l => { l with tx := tmod {} l.tx k f }) s
/-- Add `n` to a counter of a receive lane (LANE_RX_CNT). -/
def laneCount (k i n : Nat) (s : State) : State := modRx k (fun r => { r with cnt := bumpBy r.cnt i n }) s

/-- The hierarchy path of a lane's events (R150). -/
def lanePath (k : Nat) : Nat := if k < 128 then pathBlock (k / 2) else 0

/-- The lane's pins carry a signal. -/
def hasSignal (s : State) (k : Nat) : Bool := s.lane.signals.contains k

/-- The lanes run: not in reset, BOOT or RETAIN (Table 1.8). -/
def lanesRun (s : State) : Bool := s.mode != .boot && s.mode != .retain

/-- LANE_LOCK_LOST on the receive side (Table 4.11). -/
def raiseLockLost (k cause : Nat) (s : State) : State := raise 2 1 0x1001 (lanePath k) [pack8 k 0 cause 0] s

/-- The alignment of a lane starts again (R119). -/
def RxLane.unlock (r : RxLane) (st : RxState) (now : Nat) : RxLane :=
  { r with state := st, huntAt := now, huntGood := 0, winBlocks := 0, winBad := 0, berBad := 0, position := 0
           runGood := 0, runBad := 0, huntBit := (r.huntBit + 1) % 66 }

/-- A lane leaves its lock for state `st` with the cause of LANE_LOCK_LOST. A lane with block lock counts its loss, one
with pennant lock counts that too (R127, R128). `always` reports the change whether or not there was a lock. -/
def loseLock (k cause : Nat) (st : RxState) (always : Bool) (s : State) : State :=
  let r := rxLane s k
  let block := r.state == .pennantHunt || r.state == .locked
  let s := if block then laneCount k 1 1 s else s
  let s := if r.state = .locked then laneCount k 3 1 s else s
  let s := if r.state = .locked then laneStops k s else s
  let s := modRx k (fun r => r.unlock st s.clock.clk) s
  if block || always then raiseLockLost k cause s else s

/-- A lane starts a sweep, or hunts at once with CTLE_AUTO 0 (R138); without a signal it waits for one. -/
def startReceive (k : Nat) (s : State) : State :=
  let now := s.clock.clk
  if !hasSignal s k then modRx k (fun r => r.unlock .noSignal now) s
  else modRx k (fun r =>
    if r.auto then { r.unlock .sweep now with sweepAt := now }
    else { r.unlock .blockHunt now with ctleNow := r.code }) s

/-- Every lane number. -/
def allLanes : List Nat := List.range 132

/-- The seed of a transmit lane's scrambler (R117). -/
def scramblerSeed (s : State) (k : Nat) : Nat := k * 2 ^ 50 + sysAddr s * 2 ^ 36 + 0x96A5C3E17

/-- A transmit lane leaves electrical idle or a test function: its scrambler is loaded anew (R117).
Log 34 (DESIGN CHOICE, safe). -/
def reseed (k : Nat) (s : State) : State := modTx k (fun x => { x with seed := scramblerSeed s k }) s

/-- Lane calibration begins (R66): every enabled receive lane adapts and hunts, every enabled transmit lane leaves
electrical idle. -/
def lanesStart (s : State) : State :=
  let s := allLanes.foldl (fun s k => if (txLane s k).enable then reseed k s else s) s
  allLanes.foldl (fun s k => if (rxLane s k).enable then startReceive k s else s) s

/-- Every enabled receive lane has block lock (R66). -/
def lanesCalibrated (s : State) : Bool :=
  allLanes.all (fun k => let r := rxLane s k; !r.enable || r.state == .pennantHunt || r.state == .locked)

/-- A lane delivers its slots (R128, R136). -/
def laneDelivers (s : State) (k : Nat) : Bool :=
  lanesRun s && (rxLane s k).state == .locked && !(rxLane s k).mismatch && (rxLane s k).checker == 0

/-- LANE_TEST_STATE (Table 4.11). -/
def raiseTest (k fn st : Nat) (s : State) : State := raise 1 1 0x1006 (lanePath k) [pack8 k fn st 0] s

/-- The receive side of a lane whose last test function has stopped hunts again, and the stop is reported (R143). -/
def endRxTest (k : Nat) (s : State) : State :=
  if (rxLane s k).state = .test && (rxLane s k).checker = 0 && !(txLane s k).near then
    let s := loseLock k 5 .blockHunt true s
    if hasSignal s k then s else modRx k (fun r => { r with state := .noSignal }) s
  else s

/-- Stop the PRBS checker of a lane (R140, R143). -/
def stopChecker (k : Nat) (s : State) : State :=
  if (rxLane s k).checker = 0 then s
  else endRxTest k (raiseTest k 0 0 (modRx k (fun r => { r with checker := 0, prbsSync := false, prbsGood := 0 }) s))

/-- Stop the PRBS generator of a lane (R143). -/
def stopGenerator (k : Nat) (s : State) : State :=
  if (txLane s k).gen = 0 then s else reseed k (raiseTest k 0 0 (modTx k (fun x => { x with gen := 0 }) s))

/-- Stop the loops of a lane (R143). -/
def stopLoops (k : Nat) (s : State) : State :=
  let s := if (txLane s k).near then endRxTest k (raiseTest k 1 0 (modTx k (fun x => { x with near := false }) s)) else s
  if (txLane s k).far then reseed k (raiseTest k 2 0 (modTx k (fun x => { x with far := false }) s)) else s

/-- Stop the error injection of a lane (R143). -/
def stopInjection (k : Nat) (s : State) : State :=
  if (txLane s k).inject.isNone then s
  else raiseTest k 3 0 (modTx k (fun x => { x with inject := none, badCrc := false }) s)

/-- Every test function stops as the device leaves MAINTENANCE, or enters S1 (R143, R543). -/
def stopTests (s : State) : State :=
  allLanes.foldl (fun s k => stopInjection k (stopLoops k (stopGenerator k (stopChecker k s)))) s

/-- Note a change of the ensign condition: ACTIVE, paired, and the lease held (R131). -/
def noteEnsign (s : State) : State :=
  let c := s.mode == .active && paired s && s.red.lease
  if c = s.lane.ensign then s else onLane (fun l => { l with ensign := c, ensAt := s.clock.clk }) s

end Sys2Proof.Machine
end

