-- ==== Sys2Proof/Machine/Modes.lean ====
section
/-! DEFINITION. Mode transitions (Table 1.9), the T1 reset, the safety reaction and the chip fault: what several
commands share when they move the machine between its modes. -/

namespace Sys2Proof.Machine

/-- Milliseconds from instant `a` to now, at most 16 bits. -/
def msSince (a : Nat) (s : State) : Nat := min 0xFFFF ((s.clock.clk - a) / 1000000)

/-- Drive READY. The first rise after t0 fixes PWR_START_TIME.READY_MS, and the first after a wake PWR_WAKE_TIME
(R69, Table 2.15, Table 17.8).
Log 114 (DEDUCED, safe). -/
def setReady (v : Bool) (s : State) : State :=
  if s.pins.ready = v then s
  else
    let s := emitPin "READY" (bit v) { s with pins := { s.pins with ready := v } }
    if !v then s
    else
      let s := match s.start.t0, s.start.readySeen with
        | some t, false => { s with start := { s.start with readyMs := msSince t s, readySeen := true } }
        | _, _ => s
      if s.pwr.wakeCounting then
        { s with pwr := { s.pwr with wakeReadyMs := msSince s.pwr.wakeAt s, wakeCounting := false } } else s

/-- Record MODE_CHANGE. Word 4 carries the new mode (R38). -/
def raiseModeChange (n : Nat) (old new : Mode) (cause : Nat) (s : State) : State :=
  pushEvent { code := 0x0010, sev := 1, cls := 0, mode := new.code, at_ := s.clock.now,
              payload := [pack8 n old.code new.code cause] } s

/-- Take transition `n` to mode `to` with the cause code of R38: the mode, its history, READY and MODE_CHANGE
(R31, R38, R40, R69). -/
def setMode (n : Nat) (dest : Mode) (cause : Nat) (s : State) : State :=
  let old := s.mode
  let s := { s with
    mode := dest
    aon := { s.aon with prevMode := old.code, lastTrans := n }
    flash := { s.flash with trialSince :=
      if dest.ready then (match s.flash.trialSince with | some a => some a | none => some s.clock.clk) else none } }
  noteEnsign (setReady dest.ready (raiseModeChange n old dest cause s))

/-- The external destinations whose selection is the output of compositor `c`. -/
def selecting (s : State) (c : Nat) : List Nat :=
  (s.xpt.dst.filter (fun p => decide (p.1 < 1024) && p.2.selected == some (1024 + c))).map (·.1)

/-- The safe frame goes onto every destination that selects the output of compositor `c` (R343), with PROT_SAFE_FRAME.
Log 69 (DEDUCED, safe). -/
def addSafeFrame (c : Nat) (s : State) : State :=
  let k := compOf s c
  if k.reacted then s
  else
    let ds := selecting s c
    let black := (stillFormat s k.cfg.safeStill).isNone
    raise 4 5 0x5052 (pathRegion (c / 16)) [pack8_16 c (bit black) ds.length]
      (modComp c (fun k => { k with reacted := true, safe := ds }) s)

/-- The safe frame on the destinations of every compositor that a failure affects (R343, R499). -/
def addSafeFrames (cs : List Nat) (s : State) : State := cs.foldl (fun s c => addSafeFrame c s) s

/-- Raise LEASE_STATE (Table 14.17): 0 lapsed, 1 acquired, 2 pending, 3 released, 4 handed over. -/
def raiseLease (state : Nat) (s : State) : State :=
  raise 1 10 0xA010 0 [pack8_16 state (bit s.red.byCommand) 0, w32 s.red.gen] s

/-- The lease, or a pending grant, is gone: a lapse (0) or a release (3) is recorded, a lease is counted, and LEASE_OUT goes
low (R471, R472). -/
def dropLease (state : Nat) (s : State) : State :=
  if s.red.lease || s.red.grant then
    let s := raiseLease state { s with red := { s.red with
      lease := false, grant := false, granted := false, t6Due := false, t7Due := false, t10Due := false
      cnt := if s.red.lease && !s.red.t6Due then bump s.red.cnt 11 else s.red.cnt } }
    let s := noteEnsign s
    if s.pins.leaseOut then emitPin "LEASE_OUT" 0 { s with pins := { s.pins with leaseOut := false } } else s
  else s

/-- A lease can be held in these modes only (R471). -/
def Mode.mayLease : Mode → Bool
  | .calibrate | .active | .standby | .isolated => true
  | _ => false

/-- Take transition `n`: the take queue and the instances (R220, R248), the test functions (R143), the lease (R471),
then the mode itself (R31, R38). -/
def applyTransition (n : Nat) (dest : Mode) (cause : Nat) (s : State) : State :=
  let s := transitionQueues n s
  let s := if s.mode = .maintenance then stopTests s else s
  let s := if dest.mayLease then s else dropLease 0 s
  let s := if n = 12 then blockTrial 4 s else s
  setMode n dest cause s

/-- The lease is acquired with a generation (R473, R474). -/
def acquireLease (gen : Nat) (s : State) : State :=
  raiseLease 1 (noteEnsign
    { s with red := { s.red with lease := true, grant := false, granted := false, t6Due := false, gen := gen
                                 cnt := bump s.red.cnt 10 } })

/-- Reply NOT_AUTHORITY to every command still held by a follower whose link leaves IN_STEP (R463). -/
def refuseHeld (s : State) : State :=
  let h := s.red.held
  h.foldl (fun s x => if x.replied then s else finish x.op x.cmd .notAuthority [] s) { s with red := { s.red with held := [], forwarded := [] } }

/-- The link goes to a lower state. Leaving IN_STEP is "halyard lost" (R461): held commands are refused, a pending
grant is discarded unless its handover was applied (R474), and a STANDBY device takes T9, then T10 at once when its
applied grant is still renewed. -/
def linkTo (new : Link) (cause : Nat) (s : State) : State :=
  if s.red.link = new then s
  else
    let old := s.red.link
    let keepItems := new = .inStep
    let s := { s with red := { s.red with
      link := new, resync := none, buffered := [], resyncDone := false, claim := none, handed := false, unacked := 0
      items := if keepItems then s.red.items else [], kept := if keepItems then s.red.kept else []
      choices := [], missed := [], branches := [], results := [] } }
    let s := raise 2 10 0xA001 0 [pack8 old.code new.code cause (laneBits s)] s
    if old = .inStep then
      let s := refuseHeld s
      let keep := s.red.granted && decide (s.clock.clk - s.red.renewed ≤ s.red.term * 1000000)
      let s := if keep then s else { s with red := { s.red with grant := false, granted := false, t7Due := false } }
      let s := { s with red := { s.red with filling := false, fillLeft := [] } }
      if s.mode = .standby then
        let s := applyTransition 9 .isolated 2 s
        if keep then applyTransition 10 .active 2 (acquireLease (s.red.peer.gen + 1) s) else s
      else s
    else s

/-- Take transition `n` to mode `to`. The link leaves IN_STEP when the device leaves ACTIVE and STANDBY (Table 14.4). -/
def transition (n : Nat) (dest : Mode) (cause : Nat) (s : State) : State :=
  let s := applyTransition n dest cause s
  if dest = .active || dest = .standby || dest = .calibrate then s
  else if s.red.link = .inStep || s.red.link = .resyncing then linkTo .linked 3 s else s

/-- The device holds the lease no longer (R475): a lapse (0) or a release (3). In step and ACTIVE it takes T6 at the
next tick; not in step it takes T8.
Log 14 (DEDUCED, safe). -/
def endLease (state : Nat) (s : State) : State :=
  if !s.red.lease then dropLease state s
  else if s.mode = .active && paired s && inStep s then
    if s.red.t6Due then s
    else raiseLease state { s with red := { s.red with t6Due := true, cnt := bump s.red.cnt 11 } }
  else
    let s := dropLease state s
    if s.mode = .active && paired s then transition 8 .isolated 2 s else s

/-- A chip fault (R504): CHIP_FAULT with the source code, and with FAULT_YIELD the lease is released. -/
def chipFault (source : Nat) (s : State) : State :=
  let yields := s.saf.faultYield && s.red.lease
  let s := { s with saf := { s.saf with chipFault := true, escCnt := bump s.saf.escCnt 4
                                        yielded := s.saf.yielded || yields } }
  let s := raise 4 11 0xB033 0 [pack16_8 source (bit yields) 0] s
  if yields then endLease 3 s else s

/-- Drive the SAFE pins (Table 15.4). -/
def setSafePins (p : PinState) (s : State) : State :=
  if s.saf.pins = p then s
  else
    let lv := if p = .high then 3 else if p = .low then 0 else 1
    emitPin "SAFE" lv { s with saf := { s.saf with pins := p } }

/-- The bit of mechanism SM`m` in SAF_REACT (Table 15.11). -/
def mechBit (m : Nat) : Nat := 2 ^ (m - 1)

/-- A safety reaction abandons an entry into RETAIN (R37, R548): the device is again in the state that it had left. -/
def abandonEntry (s : State) : State :=
  let s := raise 2 12 0xC024 0 [pack8_16 s.pwr.sleep 0 0] s
  driveHt s.tim.house.state.code
    { s with mode := s.pwr.fromMode, pwr := { s.pwr with entering := false, sleep := 0, imageWritten := false } }

/-- A dangerous failure by mechanism SM`m` (R499): the safe frame on the affected compositors' destinations, the SAFE
pins high, SAF_REACT, and T12 with SAFE_ENTERED; a further failure extends the reaction (R500), and one that comes
during entry into RETAIN abandons the entry (R37, R548). -/
def reaction (m : Nat) (comps : List Nat) (s : State) : State :=
  let s := addSafeFrames comps s
  let s := setSafePins .high s
  let s := { s with saf := { s.saf with
    react := if s.saf.react.testBit (m - 1) then s.saf.react else s.saf.react + mechBit m
    passes := if 2 ≤ m && m ≤ 5 then 0 else s.saf.passes } }
  let s := if s.saf.reacted then s
    else { s with saf := { s.saf with reacted := true, escCnt := bump s.saf.escCnt 5 } }
  let s := if s.mode = .retain && s.pwr.entering then abandonEntry s else s
  if s.mode = .safe || s.mode = .boot || s.mode = .retain then s
  else transition 12 .safe 3 (raise 5 11 0xB001 0 [pack8 m 0 0 0] s)

/-- The activities of R66 have all finished. -/
def calDone (s : State) : Bool :=
  s.cal.lanes && s.cal.hbm && s.cal.memory && s.cal.scrub && s.cal.restored && !s.cal.failed

/-- MODE.CAL_HOLD (R32, Table 1.10): calibration has completed, and invalid objects or LOST banks bar T3, or the pair is
in step with no lease and its resynchronisation is not complete. -/
def calHold (s : State) : Bool :=
  s.mode == .calibrate && calDone s
    && (((!paired s || s.red.lease) && storeHolds s)
      || (paired s && inStep s && !s.red.lease && !s.red.resyncDone))

/-- The mode decision at the end of calibration: T3, T4, or the device stays (Table 1.9, R32), as it does in S1
(Table 17.1).
Log 13 (DEDUCED, safe). -/
def modeDecision (s : State) : State :=
  if s.mode = .calibrate && calDone s && s.pwr.sleep ≠ 1 then
    if (!paired s || s.red.lease) && !storeHolds s then transition 3 .active 4 s
    else if paired s && !s.red.lease && inStep s && s.red.resyncDone then transition 4 .standby 4 s
    else s
  else s

/-- Calibration completes with its last activity; then the mode decision is taken (R66). -/
def calProgress (s : State) : State :=
  if s.mode = .calibrate && calDone s then
    modeDecision (if s.cal.doneAt.isSome then s else { s with cal := { s.cal with doneAt := some s.clock.clk } })
  else s

/-- CALIBRATE again by T13 or T15 with lock, training and contents kept: only the checks are repeated, and the mode
decision follows (R34). -/
def reenterCalibrate (n : Nat) (s : State) : State :=
  calProgress (onCal (fun k => { k with doneAt := none }) (transition n .calibrate 0 s))

/-- The straps as t0 samples them: PAIR_ROLE is the result of the last complete test, and open where the results of the
last 1 ms (10 tests) differ (R47, R566).
Log 16 (DEDUCED, safe). -/
def sampleStraps (s : State) : Straps :=
  let decode := fun (r : Bool × Bool) => if r.1 && !r.2 then 0 else if r.2 then 2 else 1
  let rs := (s.pins.roleTests.take 10).map decode
  let role := match rs with
    | [] => s.pins.straps.pairRole
    | r :: rest => if rest.all (fun x => x == r) then r else 0
  { s.pins.straps with pairRole := role, pos := s.pins.straps.pos % 64 }

/-- The start instant t0 (R46, R47, R50): the straps are sampled and the PLLs start to lock. -/
def takeT0 (s : State) : State :=
  let st := sampleStraps s
  { s with
    start := { s.start with inReset := false, t0 := some s.clock.clk, straps := st, readyMs := 0xFFFF, readySeen := false }
    aon := { s.aon with boot := { s.aon.boot with bootSrc := st.bootSrc } }
    saf := { s.saf with pins := .low } }

/-- The state after a T1 or T18 reset (R31, R106, R220, R248, R264, R508, R539): every part takes its reset value but
the always-on domain (Table 17.5), the fuses, the sequencer, the pins that the board drives, the boot flash, the events
that wait for the recorder, and the model's own queue, clock, output log and counter.
Log 12 (DEDUCED, safe). -/
def resetState (s : State) : State :=
  { State.reset with
    pending := s.pending
    clock := { clk := s.clock.clk, now := 0, running := false }
    fuses := s.fuses
    seq := s.seq
    aon := { s.aon with retainStore := none }
    pins := { straps := s.pins.straps, rstLow := s.pins.rstLow, wakeLow := s.pins.wakeLow, roleTests := s.pins.roleTests }
    flash := { mem := s.flash.mem, write := none
               phases := s.flash.phases.map (fun p => if p = .erasing || p = .writing then .abandoned else p) }
    evt := { preRec := s.evt.preRec }
    lane := { signals := s.lane.signals }
    pwr := { entryMs := s.pwr.entryMs, wakeAt := s.pwr.wakeAt, wakeReadyMs := s.pwr.wakeReadyMs
             wakeCounting := s.pwr.wakeCounting }
    out := s.out
    free := s.free }

/-- Drive CORE_VSEL (R541). -/
def setVsel (v : Nat) (s : State) : State :=
  if s.pins.coreVsel = v then s else emitPin "CORE_VSEL" v { s with pins := { s.pins with coreVsel := v } }

/-- The output pins as BOOT and the sleep states S2 and S3 have them (R50, R69, R439, R472, R544). -/
def pinsDown (s : State) : State :=
  let s := setSafePins .low (driveHt 7 (setReady false s))
  let s := if s.pins.leaseOut then emitPin "LEASE_OUT" 0 { s with pins := { s.pins with leaseOut := false } } else s
  setVsel 0 s

/-- T1 (R31, R35): the device enters BOOT at once. Outputs fall, READY with them, and MODE_CHANGE waits for the
recorder of the next CALIBRATE (R38).
Log 12 (DEDUCED, safe). -/
def takeT1 (cause : Nat) (s : State) : State :=
  let old := s.mode
  let s := if old = .retain && s.pwr.entering then
      { s with aon := { s.aon with retainStore := none }
               evt := { s.evt with preRec := s.evt.preRec ++ [{ code := 0xC024, sev := 2, cls := 12, mode := old.code
                                                                payload := [pack8_16 s.pwr.sleep 1 0] }] } }
    else s
  raiseModeChange 1 old .boot cause
    (resetState (pinsDown { s with aon := { s.aon with prevMode := old.code, lastTrans := 1 } }))

/-- T1 taken by the device itself or by a command: t0 follows at the instant of its release (R46).
Log 12 (DEDUCED, safe). -/
def takeT1Start (cause : Nat) (s : State) : State :=
  let s := takeT1 cause s
  if s.pins.rstLow || s.seq.phase != .complete then s else takeT0 s

end Sys2Proof.Machine
end

