-- ==== Sys2Proof/Machine/Escalate.lean ====
section
/-! DEFINITION. The escalation of internal parity failures (R502 to R504, Table 15.5): sliding counts, isolation of cells,
block restarts, region faults, and the chip level. -/

namespace Sys2Proof.Machine

/-- The instants of a sliding count that still lie in its window of `ns` nanoseconds. -/
def within (s : State) (ns : Nat) (l : List Nat) : List Nat := l.filter (fun a => decide (s.clock.clk < a + ns))

/-- One more failure in a sliding count: whether its threshold is reached, and the count afterwards. A count that has
reached its threshold begins afresh.
Log 100 (DEDUCED, safe). -/
def slide (s : State) (ns threshold : Nat) (l : List Nat) : Bool × List Nat :=
  let l' := s.clock.clk :: within s ns l
  if threshold ≤ l'.length then (true, []) else (false, l')

/-- Count in one index of SAF_ESC_CNT (Table 15.11). -/
def escCount (i : Nat) (s : State) : State := onSaf (fun k => { k with escCnt := bump k.escCnt i }) s

/-- A region fault (Table 15.5): the Conductor reloads the steward; the chip level follows. Cause 0 block restarts,
1 plane, 2 compositor, 3 arbiter. -/
def regionFault (r cause : Nat) (s : State) : State :=
  let s := onSaf (fun k => { k with stewardReload := k.stewardReload ++ (if k.stewardReload.contains r then [] else [r]) }) s
  chipFault 0xB032 (raise 4 11 0xB032 (pathRegion r) [pack8_16 r cause 0] (escCount 3 s))

/-- A block restart (Table 15.5): every cell's isolation in the block ends, the counts of its cells' reloads begin afresh,
and the region counts it. Cause 0 cells, 1 failures. -/
def restartBlock (b cause : Nat) (s : State) : State :=
  if s.saf.restarting.contains b then s
  else
    let s := onSaf (fun k => { k with
      restarting := k.restarting ++ [b]
      isolated := k.isolated.filter (fun c => c / 16 != b)
      reloading := k.reloading.filter (fun c => c / 16 != b)
      blockFails := tdel k.blockFails b
      cellReloads := k.cellReloads.filter (fun p => p.1 / 16 != b) }) s
    let s := raise 3 11 0xB031 (pathBlock b) [pack8_16 b cause 0] (escCount 2 s)
    let r := b / 16
    let x := slide s 600000000000 3 (tget [] s.saf.restarts r)
    let s := onSaf (fun k => { k with restarts := tset k.restarts r x.2 }) s
    if x.1 then regionFault r 0 s else s

/-- A failure counted at block level: 32 in any 1 s restart the block (Table 15.5). -/
def blockFailure (b : Nat) (s : State) : State :=
  let x := slide s 1000000000 32 (tget [] s.saf.blockFails b)
  let s := onSaf (fun k => { k with blockFails := tset k.blockFails b x.2 }) s
  if x.1 then restartBlock b 1 s else s

/-- A cell is isolated after its third reload in 600 s (Table 15.5): its source is FAILED, its destination parks, and two
isolated cells restart the block. -/
def isolateCell (n reloads : Nat) (s : State) : State :=
  let s := onSaf (fun k => { k with isolated := k.isolated ++ [n] }) s
  let s := raise 3 11 0xB030 (pathCell n) [pack16 n reloads] (escCount 1 s)
  let s := if srcDefined s n then failSource n 0 s else s
  let b := n / 16
  if 2 ≤ (s.saf.isolated.filter (fun c => c / 16 == b)).length then restartBlock b 0 s else s

/-- A context word of a cell fails on two reads: the steward reloads the context, or after the third reload in 600 s the
cell stays isolated (Table 15.5). -/
def cellFailure (n : Nat) (s : State) : State :=
  if s.saf.isolated.contains n || s.saf.reloading.contains n || s.saf.restarting.contains (n / 16) then s
  else
    let ts := s.clock.clk :: within s 600000000000 (tget [] s.saf.cellReloads n)
    let s := onSaf (fun k => { k with cellReloads := tset k.cellReloads n ts, reloading := k.reloading ++ [n] }) s
    escCount 0 s

/-- The reload of a cell's context is complete: the third in 600 s leaves the cell isolated (Table 15.5). -/
def cellReloaded (n : Nat) (s : State) : State :=
  if !s.saf.reloading.contains n then s
  else
    let s := onSaf (fun k => { k with reloading := k.reloading.filter (fun c => c != n) }) s
    let k := (within s 600000000000 (tget [] s.saf.cellReloads n)).length
    if 3 ≤ k then isolateCell n k s else s

/-- A failure of a plane receiver of region `r` that is not common to all four (R201): 1,000 in any 1 s. -/
def planeFailure (r : Nat) (s : State) : State :=
  let x := slide s 1000000000 1000 (tget [] s.saf.planeFails r)
  let s := onSaf (fun k => { k with planeFails := tset k.planeFails r x.2 }) s
  if x.1 then regionFault r 1 s else s

/-- A compositor failure in region `r` (R325): 100 in any 1 s. -/
def compFailure (r : Nat) (s : State) : State :=
  let x := slide s 1000000000 100 (tget [] s.saf.cmpFails r)
  let s := onSaf (fun k => { k with cmpFails := tset k.cmpFails r x.2 }) s
  if x.1 then regionFault r 2 s else s

/-- A region-arbiter failure in region `r`: 100 in any 1 s. -/
def arbiterFailure (r : Nat) (s : State) : State :=
  let x := slide s 1000000000 100 (tget [] s.saf.arbFails r)
  let s := onSaf (fun k => { k with arbFails := tset k.arbFails r x.2 }) s
  if x.1 then regionFault r 3 s else s

/-- An audio failure (R377): 100 in any 1 s reach the chip level. -/
def audioFailure (s : State) : State :=
  let x := slide s 1000000000 100 s.saf.audFails
  let s := onSaf (fun k => { k with audFails := x.2 }) s
  if x.1 then chipFault 0x6011 s else s

/-- A stored error confirmed in a PC (R281): 64 in 600 s reach the chip level. -/
def storedError (pc : Nat) (s : State) : State :=
  let x := slide s 600000000000 64 (tget [] s.saf.pcStored pc)
  let s := onSaf (fun k => { k with pcStored := tset k.pcStored pc x.2 }) s
  if x.1 then chipFault 0x4020 s else s

/-- STORE_PC_FAULT (R282, R503): the PC is in fault until T1, every object with a unit in it becomes INVALID, and the
chip level follows. Cause 0 whole burst, 1 no data, 2 retraining. -/
def storePcFault (pc cause : Nat) (s : State) : State :=
  let s := raise 4 4 0x4022 0 [pack8_16 pc cause 0] (modPc pc (fun p => { p with state := 4 }) s)
  let hit := s.fst.objs.filter (fun p => match p.2.cur with
    | some v => (List.range v.units).any (fun i => unitTouchesPc (zoneOf s v.zone) (v.first + i) pc)
    | none => false)
  chipFault 0x4022 (hit.foldl (fun s p => invalidate p.1 0 s) s)

end Sys2Proof.Machine
end

