-- ==== Sys2Proof/Machine/Pixels.lean ====
section
/-! DEFINITION. Pixels: surfaces and kite tiles as bytes (R301 to R306), the working form and its conversions (R307, R308),
blending (R313), the 3D LUT (R315, R316), and the signature of a sample sequence (R338). -/

namespace Sys2Proof.Machine

/-- A reader of an object's bytes: offset and length. -/
abbrev Reader := Nat → Nat → List Byte

/-- Divide and round up. -/
def ceilDiv (a b : Nat) : Nat := (a + b - 1) / b

/-- Round a quotient of integers to nearest; a tie goes as the implementation breaks it.
Log 58 (DESIGN CHOICE, safe).
Log 72 (DESIGN CHOICE, safe). -/
def roundDiv (a : Int) (b : Nat) : Int :=
  let q := a / (b : Int)
  let r := 2 * (a - q * b)
  if r < b then q else if (b : Int) < r then q + 1 else if Config.tieUp then q + 1 else q

/-- Restrict an integer to a range of naturals. -/
def clampInt (lo hi : Nat) (x : Int) : Nat := if x < lo then lo else if (hi : Int) < x then hi else x.toNat

/-- Width of a tile of a surface format (Table 9.4). -/
def tileSide (format : Nat) : Nat := if format = 4 then 32 else 16
/-- Bytes per pixel of a surface format (Table 9.4). -/
def pixelBytes (format : Nat) : Nat := if format = 4 then 1 else 4
/-- The length of a surface object (R302). -/
def surfaceLength (w h format : Nat) : Nat :=
  1024 * (1 + ceilDiv w (tileSide format) * ceilDiv h (tileSide format))
/-- The byte of a pixel in a surface object (R302). -/
def surfaceOffset (w format x y : Nat) : Nat :=
  let k := tileSide format
  1024 * (1 + y / k * ceilDiv w k + x / k) + (y % k * k + x % k) * pixelBytes format

/-- All bytes of a run are zero. -/
def allZero (bs : List Byte) : Bool := bs.all (fun b => b == 0#8)

/-- A size of Tables 9.3 and 9.5 is in range. -/
def sizeFits (n : Nat) : Bool := decide (1 ≤ n) && decide (n ≤ 16384)

/-- The checks of R303 on a surface header. -/
def surfaceOk (rd : Reader) (format length : Nat) : Bool :=
  let h := rd 0 1024
  u32 h 0 == 0x53555246 && u16 h 4 == 1 && u16 h 6 == 0 && sizeFits (u16 h 8) && sizeFits (u16 h 10)
    && u16 h 12 == format && allZero (h.drop 14) && length == surfaceLength (u16 h 8) (u16 h 10) format

/-- The header of a surface (Table 9.3). -/
def surfaceHeader (w h format : Nat) : List Byte :=
  beBytes 4 0x53555246 ++ beBytes 2 1 ++ beBytes 2 0 ++ beBytes 2 w ++ beBytes 2 h ++ beBytes 2 format
    ++ List.replicate 1010 0#8

/-- The checks of R303 on a kite header. -/
def kiteOk (rd : Reader) (length : Nat) : Bool :=
  let h := rd 0 1024
  u32 h 0 == 0x4B495445 && u16 h 4 == 1 && u16 h 6 == 0 && sizeFits (u16 h 8) && sizeFits (u16 h 10)
    && u24 h 13 == 0 && u32 h 20 == length && allZero (h.drop 24)

/-- A kite header as read (Table 9.5). -/
structure Kite where
  width  : Nat
  height : Nat
  premul : Bool
  start  : Nat
  length : Nat
deriving DecidableEq, Repr

/-- The header of a kite object. -/
def kiteOf (rd : Reader) : Kite :=
  let h := rd 0 24
  ⟨u16 h 8, u16 h 10, u8 h 12 == 1, u32 h 16, u32 h 20⟩

/-- The tile table entry of tile (tx, ty) (Table 9.6). -/
def kiteEntry (rd : Reader) (k : Kite) (tx ty : Nat) : List Byte := rd (1024 + 8 * (ty * ceilDiv k.width 16 + tx)) 8

/-- The payload bytes that a mode lays out, and those that it fetches (Table 9.7). -/
def kitePayload (mode : Nat) : Nat × Nat :=
  match mode with | 2 => (80, 128) | 3 => (192, 192) | 4 => (1024, 1024) | _ => (0, 0)

/-- A bad tile table entry (R305). -/
def kiteBad (k : Kite) (e : List Byte) : Bool :=
  let m := u8 e 0
  let o := u32 e 4
  decide (4 < m) || u24 e 1 != 0 || (m == 0 && o != 0)
    || (decide (2 ≤ m) && (o % 64 != 0 || decide (o < k.start) || decide (k.length < o + (kitePayload m).1)))

/-- The bytes fetched for an entry; a bad one counts as none (R306). -/
def kiteFetch (k : Kite) (e : List Byte) : Nat := if kiteBad k e then 0 else (kitePayload (u8 e 0)).2

/-- K of R306. -/
def kiteTotal (rd : Reader) (k : Kite) : Nat :=
  let tw := ceilDiv k.width 16
  let th := ceilDiv k.height 16
  8 * tw * th + (List.range (tw * th)).foldl (fun a i => a + kiteFetch k (kiteEntry rd k (i % tw) (i / tw))) 0

/-- Pixel `n` of a kite tile, as ARGB (Table 9.7); a bad tile is transparent (R305). -/
def kiteTilePixel (rd : Reader) (k : Kite) (e : List Byte) (n : Nat) : Nat :=
  if kiteBad k e then 0
  else
    let o := u32 e 4
    match u8 e 0 with
    | 1 => o
    | 2 => u32 (rd (o + 4 * (u8 (rd (o + 16 + n / 4) 1) 0 / 4 ^ (3 - n % 4) % 4)) 4) 0
    | 3 => u32 (rd (o + 4 * (u8 (rd (o + 64 + n / 2) 1) 0 / 16 ^ (1 - n % 2) % 16)) 4) 0
    | 4 => u32 (rd (o + 4 * n) 4) 0
    | _ => 0

/-- The colour of pixel (x, y) of a kite. -/
def kitePixel (rd : Reader) (k : Kite) (x y : Nat) : Nat :=
  kiteTilePixel rd k (kiteEntry rd k (x / 16) (y / 16)) (16 * (y % 16) + x % 16)

/-- A pixel as its content stores it: alpha and three components in the widths of `form`: 0 eight bits, 1 ten bits with two
bits of alpha, 2 narrow-range Y, Cb and Cr of ten bits. -/
structure Px where
  form : Nat
  a    : Nat
  c1   : Nat
  c2   : Nat
  c3   : Nat
deriving DecidableEq, Repr

/-- An ARGB word of eight-bit components. -/
def px8888 (w : Nat) : Px := ⟨0, bitsOf w 31 24, bitsOf w 23 16, bitsOf w 15 8, bitsOf w 7 0⟩

/-- The chroma of an odd sample of 4:2:2 content: the mean of its neighbours, rounded half up; at an edge of [lo, hi] the
neighbour inside stands for both (R308, R337). -/
def oddChroma (lo hi x : Nat) (c : Nat → Nat) : Nat :=
  if x % 2 = 0 then c x
  else
    let a := if lo < x then x - 1 else x + 1
    let b := if x < hi then x + 1 else x - 1
    (c a + c b + 1) / 2

/-- The word of a surface pixel. -/
def surfaceWord (rd : Reader) (w format x y : Nat) : Nat := u32 (rd (surfaceOffset w format x y) 4) 0

/-- The pixel (x, y) of a surface (Table 9.4); chroma is read within columns [lo, hi]. -/
def surfacePixel (rd : Reader) (fill : Word) (w format lo hi x y : Nat) : Px :=
  match format with
  | 3 => let v := surfaceWord rd w format x y; ⟨1, bitsOf v 31 30, bitsOf v 29 20, bitsOf v 19 10, bitsOf v 9 0⟩
  | 4 => { px8888 fill.toNat with a := u8 (rd (surfaceOffset w format x y) 1) 0 }
  | 5 =>
    let cb := fun i => bitsOf (surfaceWord rd w format i y) 31 22
    let cr := fun i => bitsOf (surfaceWord rd w format (i + 1) y) 31 22
    ⟨2, 65535, bitsOf (surfaceWord rd w format x y) 15 6, oddChroma lo hi x cb, oddChroma lo hi x cr⟩
  | _ => px8888 (surfaceWord rd w format x y)

/-- A working pixel: alpha and R′, G′, B′ in 16 bits (R307). -/
structure Rgb where
  a : Nat
  r : Nat
  g : Nat
  b : Nat
deriving DecidableEq, Repr

/-- Kr and Kb in ten-thousandths: BT.709 or BT.2020 (R307). -/
def lumaK (colour : Nat) : Nat × Nat := if colour = 1 then (2627, 593) else (2126, 722)

/-- Table 9.8 for Y′CbCr of ten bits in narrow range. -/
def yccToRgb (colour y cb cr : Nat) : Nat × Nat × Nat :=
  let kr : Int := (lumaK colour).1
  let kb : Int := (lumaK colour).2
  let d : Nat := 876 * 896 * 10000
  let yn : Int := ((y : Int) - 64) * 896 * 10000
  let rn : Int := yn + 2 * (10000 - kr) * ((cr : Int) - 512) * 876
  let bn : Int := yn + 2 * (10000 - kb) * ((cb : Int) - 512) * 876
  let gn : Int := yn * 10000 - kr * rn - kb * bn
  let g : Nat := (10000 - kr - kb).toNat * d
  (clampInt 0 65535 (roundDiv (rn * 65535) d), clampInt 0 65535 (roundDiv (gn * 65535) g),
   clampInt 0 65535 (roundDiv (bn * 65535) d))

/-- Table 9.8. -/
def toWorking (colour : Nat) (p : Px) : Rgb :=
  match p.form with
  | 0 => ⟨p.a * 257, p.c1 * 257, p.c2 * 257, p.c3 * 257⟩
  | 1 => ⟨p.a * 21845, p.c1 * 64 + p.c1 / 16, p.c2 * 64 + p.c2 / 16, p.c3 * 64 + p.c3 / 16⟩
  | _ => let x := yccToRgb colour p.c1 p.c2 p.c3; ⟨65535, x.1, x.2.1, x.2.2⟩

/-- The luma of a working pixel over 65,535 × 10,000 (R308). -/
def lumaNum (colour : Nat) (p : Rgb) : Int :=
  let kr := (lumaK colour).1
  let kb := (lumaK colour).2
  ((kr * p.r + (10000 - kr - kb) * p.g + kb * p.b : Nat) : Int)

/-- Y of R308. -/
def outY (colour : Nat) (p : Rgb) : Nat :=
  clampInt 4 1019 (roundDiv (64 * 655350000 + 876 * lumaNum colour p) 655350000)
/-- Cb of R308 at one sample. -/
def outCb (colour : Nat) (p : Rgb) : Nat :=
  let k : Nat := 2 * (10000 - (lumaK colour).2) * 65535
  clampInt 4 1019 (roundDiv (512 * (k : Int) + 896 * (10000 * (p.b : Int) - lumaNum colour p)) k)
/-- Cr of R308 at one sample. -/
def outCr (colour : Nat) (p : Rgb) : Nat :=
  let k : Nat := 2 * (10000 - (lumaK colour).1) * 65535
  clampInt 4 1019 (roundDiv (512 * (k : Int) + 896 * (10000 * (p.r : Int) - lumaNum colour p)) k)

/-- The [1 2 1] ÷ 4 chroma filter at an even sample, with the edge samples of [lo, hi] repeated (R308, R337). -/
def chroma422 (lo hi x : Nat) (c : Nat → Nat) : Nat :=
  let a := c (if x = lo then lo else x - 1)
  let b := c (min hi (x + 1))
  (roundDiv ((a + 2 * c x + b : Nat) : Int) 4).toNat

/-- mul of R313. -/
def mulWork (x y : Nat) : Nat := let t := x * y + 32768; (t + t / 65536) / 65536

/-- One component of the blend of R313. -/
def blendOne (premul : Bool) (d c e al : Nat) : Nat :=
  min 65535 ((if premul then mulWork c al else mulWork c e) + mulWork d (65535 - e))

/-- A layer pixel with layer alpha over the pixel below it (R313). -/
def blend (premul : Bool) (al : Nat) (d p : Rgb) : Rgb :=
  let e := mulWork p.a al
  ⟨65535, blendOne premul d.r p.r e al, blendOne premul d.g p.g e al, blendOne premul d.b p.b e al⟩

/-- A lattice entry of a LUT (R315). -/
def lutAt (data : List Byte) (r g b : Nat) : Int × Int × Int :=
  let o := 6 * (1089 * r + 33 * g + b)
  (u16 data o % 4096, u16 data (o + 2) % 4096, u16 data (o + 4) % 4096)

/-- The lattice index and fraction of a working value (R316). -/
def lutIndex (x : Nat) : Nat × Nat :=
  let s := (x + x / 32768) * 32
  let i := min (s / 65536) 31
  (i, s - i * 65536)

/-- Insert an axis into a list sorted by fraction, highest first, equal ones in their order. -/
def insertAxis (f : Nat → Nat) (a : Nat) : List Nat → List Nat
  | [] => [a]
  | x :: r => if f x < f a then a :: x :: r else x :: insertAxis f a r

/-- The axes r, g, b (0, 1, 2) sorted by fraction descending (R316). -/
def sortAxes (f : Nat → Nat) : List Nat := insertAxis f 2 (insertAxis f 1 (insertAxis f 0 []))

/-- Tetrahedral interpolation (R316).
Log 58 (DESIGN CHOICE, safe). -/
def lutMap (data : List Byte) (p : Rgb) : Rgb :=
  let ix := [lutIndex p.r, lutIndex p.g, lutIndex p.b]
  let i := fun k => (ix.getD k (0, 0)).1
  let f := fun k => (ix.getD k (0, 0)).2
  let ord := sortAxes f
  let ax := fun k => ord.getD k 0
  let at_ := fun (n : Nat) =>
    let moved := ord.take n
    let pos := fun k => i k + (if moved.contains k then 1 else 0)
    lutAt data (pos 0) (pos 1) (pos 2)
  let v := [at_ 0, at_ 1, at_ 2, at_ 3]
  let comp := fun (sel : Int × Int × Int → Int) =>
    let w := fun n => sel (v.getD n (0, 0, 0))
    let o := w 0 * 65536 + (f (ax 0) : Int) * (w 1 - w 0) + (f (ax 1) : Int) * (w 2 - w 1)
      + (f (ax 2) : Int) * (w 3 - w 2)
    let o12 := ((o + 32768) / 65536).toNat
    o12 * 16 + o12 / 256
  ⟨p.a, comp (·.1), comp (·.2.1), comp (·.2.2)⟩

/-- One 10-bit sample of the signature's bit stream, most significant bit first (R338). -/
def crcSample (c : BitVec 32) (v : Nat) : BitVec 32 :=
  (List.range 10).foldl (fun c i =>
    let c' := c ^^^ (if v.testBit (9 - i) then 0x80000000#32 else 0#32)
    crc32Step c') c

/-- The signature of a sequence of samples (R338). -/
def signatureOf (samples : List Nat) : Word := ~~~ (samples.foldl crcSample 0xFFFFFFFF#32)

/-- The opacity of a kite tile (R335). -/
def kiteTileOpaque (rd : Reader) (k : Kite) (tx ty : Nat) : Bool :=
  let e := kiteEntry rd k tx ty
  match u8 e 0 with
  | 1 => !kiteBad k e && u32 e 4 / 0x1000000 == 255
  | 2 | 3 | 4 => !kiteBad k e && (List.range 256).all (fun n => kiteTilePixel rd k e n / 0x1000000 == 255)
  | _ => false

/-- The opacity of a surface tile: every pixel of it within the width and height has alpha 1.0 (R335). -/
def surfaceTileOpaque (rd : Reader) (w h format tx ty : Nat) : Bool :=
  let k := tileSide format
  format == 5 || (List.range k).all (fun dy => (List.range k).all (fun dx =>
    let x := tx * k + dx
    let y := ty * k + dy
    if x < w && y < h then
      let p := surfacePixel rd 0#32 w format 0 (w - 1) x y
      if format = 3 then p.a == 3 else p.a == 255
    else true))

end Sys2Proof.Machine
end

