-- ==== Sys2Proof/Machine/CompOps.lean ====
section
/-! DEFINITION. Layers as the compositors judge them (R300, R303, R310 to R312, R321), the commit checks (R320, R334), and
the tiles that rectangles touch (R335). -/

namespace Sys2Proof.Machine

/-- The active picture of a format: width and height (R300). -/
def activePicture (code : Nat) : Nat × Nat :=
  if is2160 code then (3840, 2160) else if 0x18 ≤ code && code ≤ 0x1A then (1280, 720) else (1920, 1080)

/-- A reader of a version's bytes. -/
def readerOf (s : State) (v : Version) : Reader := fun off len => versionBytes s v off len

/-- The layer-input destination of a layer (R299). -/
def layerDest (c l : Nat) : Nat := 1024 + 8 * c + l

/-- What a live layer shows: the format of its source, of its park source or park still, or nothing (R299, R300). -/
def liveFormat (s : State) (c l : Nat) : Option Nat :=
  let d := dstOf s (layerDest c l)
  let sel := (tget {} s.xpt.dst (layerDest c l)).selected
  match sel with
  | none => none
  | some n =>
    if d.shown = 2 then
      if d.fallback.isSome then none
      else if d.parkType = 1 then (versionFor s d.parkValue (.park (layerDest c l))).map (·.format)
      else if d.parkType = 2 then some (sourceFormat s d.parkValue)
      else none
    else some (sourceFormat s n)

/-- The source that a live layer shows, if it shows one. -/
def liveSource (s : State) (c l : Nat) : Option Nat :=
  let d := dstOf s (layerDest c l)
  match (tget {} s.xpt.dst (layerDest c l)).selected with
  | none => none
  | some n => if d.shown = 2 then (if d.parkType = 2 && d.fallback.isNone then some d.parkValue else none) else some n

/-- The object kind that a CONTENT needs (check 3 of Table 9.9). -/
def contentKind (content : Nat) : Nat := match content with | 2 => 2 | 3 => 3 | 4 => 1 | _ => 0

/-- The version passes the header checks of R303; a still has no header. -/
def headerOk (s : State) (v : Version) : Bool :=
  match v.kind with
  | 2 => surfaceOk (readerOf s v) v.format v.length
  | 3 => kiteOk (readerOf s v) v.length
  | _ => true

/-- The content size of a layer whose object version is `v` (R300). -/
def contentSize (s : State) (c l : Nat) (y : Layer) (v : Option Version) : Nat × Nat :=
  match y.content, v with
  | 1, _ => activePicture ((liveFormat s c l).getD (compFormat s c))
  | 4, some v => activePicture v.format
  | _, some v => let h := versionBytes s v 0 16; (u16 h 8, u16 h 10)
  | _, none => (0, 0)

/-- The effective window and layer size WW, WH, W′, H′ for a content size (R300). -/
structure Extent where
  ww : Nat
  wh : Nat
  w  : Nat
  h  : Nat
deriving DecidableEq, Repr

/-- R300: the window clipped to the content, and the layer size. -/
def extentOf (y : Layer) (size : Nat × Nat) : Extent :=
  let ww := if y.winW = 0 then size.1 - y.winX else min y.winW (size.1 - y.winX)
  let wh := if y.winH = 0 then size.2 - y.winY else min y.winH (size.2 - y.winY)
  ⟨ww, wh, if y.w = 0 then ww else y.w, if y.h = 0 then wh else y.h⟩

/-- The scale limits (R310). -/
def scaleOk (e : Extent) : Bool :=
  decide (ceilDiv e.ww 8 ≤ e.w) && decide (e.w ≤ 16 * e.ww) && decide (ceilDiv e.wh 8 ≤ e.h) && decide (e.h ≤ 16 * e.wh)

/-- The tile side of a content: stills count as 16 × 16 (R335). -/
def contentTile (v : Version) : Nat := if v.kind = 2 then tileSide v.format else 16

/-- Tiles touched by a window along one axis (R321). -/
def tilesAlong (start len side : Nat) : Nat := if len = 0 then 0 else (start + len - 1) / side - start / side + 1

/-- A rectangle touches a tile of layer 7's content (R335). -/
def rectTouches (y : Layer) (r : Rect) (side tx ty : Nat) : Bool :=
  let x0 : Int := (y.winX : Int) + r.x - y.x
  let y0 : Int := (y.winY : Int) + r.y - y.y
  let tx0 : Int := (tx * side : Nat)
  let ty0 : Int := (ty * side : Nat)
  r.enable && decide (x0 < tx0 + side) && decide (tx0 < x0 + r.w) && decide (y0 < ty0 + side) && decide (ty0 < y0 + r.h)

/-- The tiles of a content that enabled rectangles touch, as raster indices. -/
def touchedTiles (y : Layer) (rs : List Rect) (side : Nat) (size : Nat × Nat) : List Nat :=
  let tw := ceilDiv size.1 side
  (List.range (tw * ceilDiv size.2 side)).filter (fun i => rs.any (fun r => rectTouches y r side (i % tw) (i / tw)))

/-- The largest frame bytes among the formats of a family whose class is within a cap (Table 9.10). -/
def liveBytes (family cap : Nat) : Nat :=
  (List.range 0x43).foldl (fun a k => match formatOf k with
    | some f => if f.family = family && decide (f.cls ≤ cap) then max a f.bytes else a
    | none => a) 0

/-- The bytes of one output frame that a layer fetches (Table 9.10). -/
def layerBytes (s : State) (c : Nat) (y : Layer) (v : Option Version) (e : Extent) : Nat :=
  match y.content, v with
  | 1, _ => liveBytes (tpCfg s (compPlane s c)).family y.liveCap
  | 2, some v => 1024 * (tilesAlong y.winX e.ww (contentTile v) * tilesAlong y.winY e.wh (contentTile v))
  | 3, some v => min (kiteTotal (readerOf s v) (kiteOf (readerOf s v)))
      (1032 * (tilesAlong y.winX e.ww 16 * tilesAlong y.winY e.wh 16))
  | 4, some v => frameBytes v.format
  | _, _ => 0

/-- The bytes that the reference fetch of armed rectangles adds (R339). -/
def rectBytes (s : State) (y : Layer) (rs : List Rect) (v : Option Version) (size : Nat × Nat) : Nat :=
  if !y.visible || !rs.any (·.enable) then 0
  else match y.content, v with
    | 2, some v => 1024 * (touchedTiles y rs (contentTile v) size).length
    | 3, some v => min (kiteTotal (readerOf s v) (kiteOf (readerOf s v))) (1032 * (touchedTiles y rs 16 size).length)
    | 4, some v => frameBytes v.format
    | _, _ => 0

/-- The rectangles that count for layer `l`. -/
def rectsOf (p : Picture) (l : Nat) : List Rect := if l = 7 then p.rects else []

/-- What a picture's layer costs per output frame. -/
def layerCost (s : State) (c : Nat) (p : Picture) (l : Nat) (v : Option Version) : Nat :=
  let y := p.layers.getD l {}
  if y.content = 0 then 0
  else
    let size := contentSize s c l y v
    layerBytes s c y v (extentOf y size) + rectBytes s y (rectsOf p l) v size

/-- A sum of frame bytes as bytes per second, over the rate's denominator: within the budget of Table 9.1. -/
def withinBudget (s : State) (c bytes : Nat) : Bool :=
  let r := codeRate (compFormat s c)
  decide (bytes * r.1 ≤ (if is2160 (compFormat s c) then 16000000000 else 4000000000) * r.2)

/-- A cost in MB/s, rounded up (Table 9.14). -/
def costMbs (s : State) (c bytes : Nat) : Nat :=
  let r := codeRate (compFormat s c)
  ceilDiv (bytes * r.1) (r.2 * 1000000)

/-- The layers of a picture with nonzero CONTENT, by number. -/
def usedLayers (p : Picture) : List (Nat × Layer) :=
  ((List.range 8).map (fun l => (l, p.layers.getD l {}))).filter (fun x => x.2.content != 0)

/-- Layer 7 and the protection state of two pictures are equal (check 2, R331). -/
def sameProtected (a b : Picture) : Bool := a.layers.getD 7 {} == b.layers.getD 7 {} && a.rects == b.rects

/-- A layer passes check 3: its object is VALID and of its kind, and its format suits. -/
def objectSuits (s : State) (c : Nat) (y : Layer) : Bool :=
  if y.content ≤ 1 then true
  else match (objOf s y.obj).valid with
    | none => false
    | some v => v.kind == contentKind y.content
        && (if v.kind = 2 then decide (1 ≤ v.format) && decide (v.format ≤ 5)
            else if v.kind = 1 then ((formatOf v.format).map (·.family)) == some (tpCfg s (compPlane s c)).family
            else true)

/-- The extent of a layer of a picture by the object version that a commit would use. -/
def commitExtent (s : State) (c : Nat) (x : Nat × Layer) : Extent :=
  extentOf x.2 (contentSize s c x.1 x.2 (objOf s x.2.obj).valid)

/-- The cost of a picture as a commit judges it (check 6). -/
def commitCost (s : State) (c : Nat) (p : Picture) : Nat :=
  (usedLayers p).foldl (fun a x => a + layerCost s c p x.1 (objOf s x.2.obj).valid) 0

/-- Check 9 for one rectangle (R333, Table 10.1). -/
def rectFits (pic : Nat × Nat) (y : Layer) (e : Extent) (r : Rect) : Bool :=
  !r.enable || (r.x % 2 == 0 && r.w % 2 == 0 && decide (2 ≤ r.w) && decide (2 ≤ r.h)
    && decide (r.x + r.w ≤ pic.1) && decide (r.y + r.h ≤ pic.2)
    && decide (y.x ≤ r.x) && decide ((r.x : Int) + r.w ≤ y.x + e.w) && decide (y.y ≤ r.y) && decide ((r.y : Int) + r.h ≤ y.y + e.h))

/-- Check 10: every content tile that an enabled rectangle touches is opaque in a version's map (R335). -/
def tilesOpaque (y : Layer) (rs : List Rect) (v : Version) (size : Nat × Nat) : Bool :=
  v.kind == 1 || (touchedTiles y rs (contentTile v) size).all (fun i => v.opaque_.getD i false)

/-- The first failing check of Tables 9.9 and 10.1, with its status. `safety` says that a SAFETY session commits.
Log 70 (DEDUCED, safe). -/
def commitCheck (s : State) (c : Nat) (p : Picture) (safety : Bool) : Option (Nat × Status) :=
  let k := compOf s c
  let ls := usedLayers p
  let y7 := p.layers.getD 7 {}
  let v7 := (objOf s y7.obj).valid
  let e7 := commitExtent s c (7, y7)
  let rects := p.rects.any (·.enable)
  if !compOn s c then some (1, .objectInvalid)
  else if !safety && !sameProtected p k.active then some (2, .roleDenied)
  else if ls.any (fun x => !objectSuits s c x.2) then some (3, .objectInvalid)
  else if ls.any (fun x => !scaleOk (commitExtent s c x)) then some (4, .badParam)
  else if ls.any (fun x => decide (4096 < (commitExtent s c x).w)) then some (5, .linebufShort)
  else if !withinBudget s c (commitCost s c p) then some (6, .capacity)
  else if !rects then none
  else if y7.content < 2 || !(objOf s y7.obj).prot then some (7, .roleDenied)
  else if y7.alpha ≠ 65535 || e7.w ≠ e7.ww || e7.h ≠ e7.wh then some (8, .badParam)
  else if p.rects.any (fun r => !rectFits (activePicture k.format) y7 e7 r) then some (9, .badParam)
  else match v7 with
    | some v => if tilesOpaque y7 p.rects v (contentSize s c 7 y7 v7) then none else some (10, .badParam)
    | none => some (10, .badParam)

/-- The version of an active layer's object, as the layer uses it. -/
def layerVersion (s : State) (c l : Nat) : Option Version :=
  let y := (compOf s c).active.layers.getD l {}
  if 2 ≤ y.content then versionFor s y.obj (.layer c l) else none

/-- The blank cause of an active layer, if any, but for the budget (R312). -/
def blankCause (s : State) (c l : Nat) (y : Layer) (v : Option Version) (e : Extent) : Option Nat :=
  let dead := decide (2 ≤ y.content) && (match v with
    | some v => v.kind != contentKind y.content || !headerOk s v
    | none => true)
  let cls := ((liveFormat s c l).bind formatOf).map (·.cls)
  if dead then some 2
  else if y.content = 1 && decide (y.liveCap < cls.getD 0) then some 4
  else if e.ww = 0 || e.wh = 0 then some 1
  else if !scaleOk e then some 3
  else if 8192 < e.w then some 0
  else none

/-- The condition of an active layer: 0 normal, 1 degraded, 2 blanked, with the blank cause, its extent and its cost. -/
structure LayerEval where
  cond  : Nat
  cause : Nat
  e     : Extent
  cost  : Nat
deriving DecidableEq, Repr

/-- The evaluation of an active layer at an output frame start, before the budget (R312). -/
def evalLayer (s : State) (c l : Nat) : LayerEval :=
  let p := (compOf s c).active
  let y := p.layers.getD l {}
  if y.content = 0 then ⟨0, 0, ⟨0, 0, 0, 0⟩, 0⟩
  else
    let v := layerVersion s c l
    let e := extentOf y (contentSize s c l y v)
    let cost := layerCost s c p l v
    match blankCause s c l y v e with
    | some k => ⟨2, k, e, cost⟩
    | none => ⟨if 4096 < e.w then 1 else 0, 0, e, cost⟩

/-- The evaluations of all layers with the budget (R321): when the cost does not fit, the layers whose content changed are
blanked with cause 5.
Log 59 (DEDUCED, safe). -/
def evalLayers (s : State) (c : Nat) : List LayerEval :=
  let es := (List.range 8).map (fun l => evalLayer s c l)
  let total := es.foldl (fun a x => a + x.cost) 0
  let k := compOf s c
  if withinBudget s c total then es
  else (List.range 8).map (fun l =>
    let x := es.getD l ⟨0, 0, ⟨0, 0, 0, 0⟩, 0⟩
    if x.cond ≠ 2 && (decide (k.costs.getD l 0 < x.cost) || k.conds.getD l (0, 0) = (2, 5)) then { x with cond := 2, cause := 5 }
    else x)

/-- A compositor's rectangles that its active state would arm now (R333), given layer 7's condition. -/
def armedRects (p : Picture) (cond7 : Nat) : List Bool :=
  let y := p.layers.getD 7 {}
  p.rects.map (fun r => r.enable && y.visible && decide (2 ≤ y.content) && cond7 != 2)

/-- Any rectangle of a compositor is armed. -/
def anyArmed (k : Comp) : Bool := k.armed.any (fun b => b)

/-- The destinations of a compositor are held (R346). -/
def compHolds (s : State) (c : Nat) : Bool := (compOf s c).cfg.holdDest && anyArmed (compOf s c)

/-- A destination is held: its selection is the output of a compositor that holds (R346). -/
def destHeld (s : State) (d : Nat) : Bool :=
  decide (d < 1024) && (match (tget {} s.xpt.dst d).selected with
    | some n => decide (1024 ≤ n) && decide (n < 1088) && compHolds s (n - 1024)
    | none => false)

end Sys2Proof.Machine
end

