-- ==== Sys2Proof/Machine/AudOps.lean ====
section
/-! DEFINITION. The audio matrix as several commands act on it: its outputs, the factor of a gain, changes and their
freezing, and the sample that an output carries (R353 to R356, R368 to R370). -/

namespace Sys2Proof.Machine

/-- A matrix output. -/
def outOf (s : State) (n : Nat) : AudOut := tget {} s.aud.outs n
/-- Change a matrix output. -/
def modOut (n : Nat) (f : AudOut → AudOut) (s : State) : State := onAud (fun a => { a with outs := tmod {} a.outs n f }) s
/-- A matrix input. -/
def inOf (s : State) (n : Nat) : AudIn := tget {} s.aud.ins n
/-- Change a matrix input. -/
def modIn (n : Nat) (f : AudIn → AudIn) (s : State) : State := onAud (fun a => { a with ins := tmod {} a.ins n f }) s
/-- AUD_FOLLOW of a destination. -/
def followOf (s : State) (d : Nat) : AudFollow := tget {} s.aud.follows d
/-- Count in one index of AUD_CNT. -/
def audCount (i n : Nat) (s : State) : State := onAud (fun a => { a with cnt := bumpBy a.cnt i n }) s

/-- The outputs and inputs of the matrix (R353). -/
def matrixSize : Nat := 24608

/-- The number of the sample of the 48 kHz house domain that begins at or after now (R354). -/
def sampleNow (s : State) : Nat := (s.clock.now * 48 + 999999) / 1000000

/-- One half of the binary search: the largest value below `lo + 2^k` whose 200th power does not exceed the bound. -/
def rootSearch (ok : Nat → Bool) : Nat → Nat → Nat
  | 0, lo => lo
  | k + 1, lo => rootSearch ok k (if ok (lo + 2 ^ k) then lo + 2 ^ k else lo)

/-- 10^(g ÷ 200) in units of 2^-24, rounded down (R355). -/
def gainFloor (g : Int) : Nat :=
  let ok := fun x => if 0 ≤ g then decide (x ^ 200 ≤ 10 ^ g.toNat * 2 ^ 4800)
    else decide (x ^ 200 * 10 ^ (-g).toNat ≤ 2 ^ 4800)
  rootSearch ok 27 0

/-- The factor of a gain, with 24 fractional bits (R355).
Log 72 (DESIGN CHOICE, safe). -/
def gainFactor (g : Int) : Nat := if g = 0 then 0x1000000 else gainFloor g + bit (Config.gainUp g)

/-- The factor that an output applies: none when muted, and 1 to a non-audio input (R355, R356). -/
def outFactor (s : State) (o : AudOut) : Nat :=
  if o.mute then 0
  else if (match o.input with | some n => (inOf s n).nonAudio | none => false) then 0x1000000
  else gainFactor o.gain

/-- An input is silent: it has faded, its group's rate is not de-embedded, or its source is undefined (R360, R362). -/
def inSilent (s : State) (n : Nat) : Bool :=
  (inOf s n).silent || (inOf s n).rateBad || (decide (n < 16384) && !srcDefined s (n / 16))

/-- The value of an input at this sample, within a seam a linear mixture with what it left (R362). -/
def inValue (s : State) (n : Nat) : Int :=
  let x := inOf s n
  let base : Int := if inSilent s n then 0 else x.sample
  match x.seam with
  | none => base
  | some m =>
    let k := sampleNow s + 1 - m.at_
    if m.len ≤ k then base else roundDiv (m.from_ * ((m.len : Int) - k) + base * k) (max 1 m.len)

/-- An input crosses a seam of `len` samples from what it plays now. -/
def startSeam (n len : Nat) (s : State) : State :=
  let v := inValue s n
  modIn n (fun x => { x with seam := some ⟨v, sampleNow s, len⟩ }) s

/-- An input fades to silence over 1 ms. -/
def fadeOut (n : Nat) (s : State) : State :=
  if (inOf s n).silent then s else modIn n (fun x => { x with silent := true }) (startSeam n 48 s)

/-- A silent input fades in over 1 ms. -/
def fadeIn (n : Nat) (s : State) : State :=
  if (inOf s n).silent then modIn n (fun x => { x with silent := false }) (startSeam n 48 s) else s

/-- AUD_DEEMBED_ERROR (Table 11.12), with the path of the source's cell. -/
def deembedError (n group kind : Nat) (s : State) : State := raise 2 6 0x6010 (pathCell n) [pack16_8 n group kind] s

/-- The four inputs of a group of a source (R360). -/
def groupInputs (n group : Nat) : List Nat := (List.range 4).map (fun k => 16 * n + 4 * (group - 1) + k)

/-- A sample of an input is missing: the previous one stands for up to 4 in a row, then zero (R361). -/
def concealIn (n : Nat) (s : State) : State :=
  modIn n (fun x => { x with misses := x.misses + 1, sample := if 4 ≤ x.misses then 0 else x.sample }) s

/-- One audio packet of the frame read out (R360, R361). -/
def takeAudPacket (n : Nat) (p : AudPacket) (s : State) : State :=
  if p.group < 1 || 4 < p.group then s
  else
    let ins := groupInputs n p.group
    match p.control with
    | some ok =>
      let s := ins.foldl (fun s i => modIn i (fun x => { x with rateBad := !ok }) s) s
      if ok then s else deembedError n p.group 3 s
    | none =>
      let s := audCount 5 p.corrected s
      match p.fault with
      | some k => audCount 4 4 (ins.foldl (fun s i => concealIn i s) (deembedError n p.group k (audCount 3 1 s)))
      | none => (List.range 4).foldl (fun s k =>
          let a := p.samples.getD k {}
          modIn (16 * n + 4 * (p.group - 1) + k) (fun x => { x with
            sample := a.value, v := a.v, u := a.u, c := a.c, nonAudio := p.nonAudio.getD k false, misses := 0 }) s) s

/-- The audio of a read-out (R360 to R362): `before` is the source before its read-out point. At a seam the inputs
crossfade over 2 ms; from the second repeat of a run on they are silent until a new frame is read; a group without data
packets is silent. -/
def readAudio (n : Nat) (before : Src) (ps : List AudPacket) (s : State) : State :=
  let x := srcOf s n
  let ins := (List.range 16).map (fun k => 16 * n + k)
  if x.phase = 2 then
    ps.foldl (fun s p => takeAudPacket n p s) (ins.foldl (fun s i => fadeIn i s) s)
  else if x.repeated && 2 ≤ x.run then ins.foldl (fun s i => fadeOut i s) s
  else
    let seam := x.repeated || (before.everRead && x.lastRead != (before.lastRead + 1) % 0x100000000)
    let has := fun i => ps.any (fun p => p.control.isNone && p.group == i % 16 / 4 + 1)
    let s := ins.foldl (fun s i =>
      if !has i then fadeOut i s
      else if (inOf s i).silent then fadeIn i s
      else if seam then startSeam i 96 s else s) s
    ps.foldl (fun s p => takeAudPacket n p s) s

/-- A signal at this sample, with 24 fractional bits, before rounding (R369). -/
def sigValue (s : State) : Sig48 → Int
  | .silence => 0
  | .input n f => inValue s n * f
  | .mix w a b => ((w : Int) * sigValue s a + (48 - (w : Int)) * sigValue s b) / 48

/-- The signal of an output's present input and factor. -/
def newSig (s : State) (o : AudOut) : Sig48 :=
  match o.input with
  | some n => if o.mute then .silence else .input n (outFactor s o)
  | none => .silence

/-- The ramp factor at `k` samples from the landing sample (R368). -/
def rampFactor (from_ to_ k : Nat) : Nat :=
  if 48 ≤ k then to_ else (from_ * (48 - k) + to_ * k) / 48

/-- The factor at which a ramp starts: that of the signal it left. -/
def sigFactor : Sig48 → Nat
  | .input _ f => f
  | _ => 0

/-- The weight of the final crossfade at a sample of a change, in 48ths (R369); 0 before it. -/
def crossWeight (c : AudChange) (n : Nat) : Nat :=
  let k := n + 49 - (c.at_ + c.window)
  if n + 48 < c.at_ + c.window then 0 else min 48 k

/-- The signal that an output carries at sample `n` (R369, R370). -/
def sigAt (s : State) (o : AudOut) (n : Nat) : Sig48 :=
  match o.change with
  | none => newSig s o
  | some c =>
    if c.kind = 1 then
      match o.input with
      | some i => .input i (rampFactor (sigFactor c.old) (outFactor s o) (n + 1 - c.at_))
      | none => .silence
    else if c.stage = 2 || c.at_ + c.window ≤ n then newSig s o
    else
      let w := crossWeight c n
      let cur := if c.stage = 0 then c.old else .silence
      if w = 0 then cur else .mix w (newSig s o) cur

/-- The sample that an output carries (R355, R377): rounded and saturated; an entry that failed parity fades over 1 ms.
Log 72 (DESIGN CHOICE, safe). -/
def outSample (s : State) (n : Nat) : Int :=
  let o := outOf s n
  let v := satInt 24 (roundDiv (sigValue s (sigAt s o (sampleNow s))) 0x1000000)
  if o.failed then roundDiv (v * ((48 - (sampleNow s + 1 - o.failedAt) : Nat) : Int)) 48 else v

/-- The gain of an output after a change (R368, R379). -/
def GainArg.apply (o : AudOut) : GainArg → AudOut
  | .keep => o
  | .mute => { o with mute := true }
  | .set g => { o with mute := false, gain := g }

/-- The old signal of a change crosses zero at every sample (R369). -/
def Sig48.flat : Sig48 → Bool
  | .silence => true
  | .input _ f => f == 0
  | .mix _ _ _ => false

/-- A change lands on an output at this sample (R356, R367 to R370), counted in AUD_CNT index 0.
Log 73 (DEDUCED, safe). -/
def landAudio (n : Nat) (inp : Option Nat) (keepInput : Bool) (gain : GainArg) (hard : Bool) (s : State) : State :=
  let o := outOf s n
  let now := sampleNow s
  let old := sigAt s o now
  let inp' := if keepInput then o.input else inp
  let o' := gain.apply { o with input := inp', change := none, failed := false }
  let isData := fun (x : Option Nat) => match x with | some i => (inOf s i).nonAudio | none => false
  let step := hard || isData o.input || isData inp'
  let ramps := inp' = o.input && (match old with
    | .input i _ => o.input == some i
    | .silence => o.mute || o.input.isNone
    | .mix _ _ _ => false)
  let ch : Option AudChange :=
    if step then none
    else if ramps then
      (if inp'.isNone then none else some { kind := 1, at_ := now, window := 48, old := old })
    else
      let stage := if old.flat then (if inp'.isNone then 2 else 1) else 0
      if stage = 2 then none else some { kind := 0, stage := stage, at_ := now, window := s.aud.zcMs * 48, old := old }
  let crossed := match o.change with | some c => c.kind == 0 && decide (0 < crossWeight c now) | none => false
  let s := if crossed then audCount 1 1 s else s
  audCount 0 1 (modOut n (fun _ => { o' with change := ch }) s)

end Sys2Proof.Machine
end

