-- ==== Sys2Proof/Machine/Host.lean ====
section
/-! DEFINITION. The host interpreter (chapter 3): datagrams, reassembly, sessions and the general commands that touch
no register. -/

namespace Sys2Proof.Machine

/-- The session of an ID (R95). -/
def findSession (s : State) (id : Nat) : Option Session := (s.aon.sessions.find? (fun p => p.2.id == id)).map (·.2)

/-- FACTORY_OPEN: no host session is held (R96). -/
def factoryOpen (s : State) : Bool := s.aon.sessions.isEmpty

/-- SAFETY_HELD: a SAFETY session is held (Table 3.13). -/
def safetyHeld (s : State) : Bool := s.aon.sessions.any (fun p => p.2.role == .safety)

/-- The role and key with which a session number authenticates, if it exists (R96, R97, step 9 of Table 3.3). -/
def sessionAuth (s : State) (id : Nat) : Option (Role × List Byte) :=
  if id = 0 then (if s.aon.anonEn then some (.anonymous, []) else none)
  else if id = 0xFFFF then (if factoryOpen s then some (.maintenance, s.fuses.factoryKey) else none)
  else (findSession s id).map (fun x => (x.role, x.key))

/-- The last accepted sequence L of a session (R102). -/
def lastSeq (s : State) (id : Nat) : Nat :=
  if id = 0xFFFF then s.aon.factorySeq else ((findSession s id).map (·.lastSeq)).getD 0

/-- Set the last accepted sequence of a session (R102). -/
def setLastSeq (id seq : Nat) (s : State) : State :=
  if id = 0 then s
  else if id = 0xFFFF then { s with aon := { s.aon with factorySeq := seq } }
  else onAon (fun a => { a with sessions := tmap a.sessions (fun _ x => if x.id = id then { x with lastSeq := seq } else x) }) s

/-- Count in one index of HOST_CNT (Table 3.14). -/
def hostCount (i : Nat) (s : State) : State := { s with host := { s.host with cnt := bump s.host.cnt i } }

/-- The header fields of a datagram (Table 3.1); bytes that are missing read zero. -/
structure Header where
  magic   : Nat
  version : Nat
  flags   : Nat
  address : Nat
  session : Nat
  seq     : Nat
  opcode  : Nat
  status  : Nat
  plen    : Nat
  idx     : Nat
  cnt     : Nat
  resv    : Nat
deriving DecidableEq, Repr

/-- Read the header of a datagram. -/
def readHeader (p : List Byte) : Header :=
  let h := p.take 24 ++ List.replicate (24 - p.length) 0#8
  { magic := u16 h 0, version := u8 h 2, flags := u8 h 3, address := u16 h 4, session := u16 h 6, seq := u32 h 8
    opcode := u16 h 12, status := u16 h 14, plen := u16 h 16, idx := u8 h 18, cnt := u8 h 19, resv := u32 h 20 }

/-- AUTH, MORE and ACK_REQ of a header. -/
def Header.auth (h : Header) : Bool := bitOf h.flags 2
/-- MORE of a header. -/
def Header.more (h : Header) : Bool := bitOf h.flags 3

/-- The command packet of a header, for its reply. -/
def headerCmd (d : Datagram) (h : Header) (role : Role) (key : List Byte) : HostCmd :=
  { session := h.session, role := role, seq := h.seq, scope := h.address / 0x4000, addr := h.address % 0x4000
    ackReq := bitOf h.flags 1, port := d.port, srcIp := d.srcIp, srcPort := d.srcPort, dstPort := d.dstPort
    key := key, tag := (d.payload.drop (24 + h.plen)).take 16, params := (d.payload.drop 24).take h.plen }

/-- R86: the address and scope of a header select the device. -/
def selects (h : Header) (s : State) : Bool :=
  let a := h.address % 0x4000
  match h.address / 0x4000 with
  | 0 => a == sysAddr s
  | 1 => a == sysAddr s || (paired s && s.host.partnerAddr == some a)
  | 2 => a / 64 == s.aon.frameId
  | _ => true

/-- The event of a violation of Table 3.3, with the status sent (R114). -/
def raiseViolation (code step : Nat) (status : Nat) (d : Datagram) (h : Header) (s : State) : State :=
  raise 2 0 code 0 (violationPayload step status h.session h.opcode h.seq d.srcIp d.srcPort d.port) s

/-- A datagram that fails a check without reply: count and, but for step 4, record it (Table 3.3). -/
def discardAt (step cntIdx : Nat) (d : Datagram) (h : Header) (s : State) : State :=
  hostCount cntIdx (if step = 4 then s else raiseViolation 0x0020 step 0 d h s)

/-- A datagram that fails one of steps 5 to 9: an untagged reply with the status (Table 3.3, R104). -/
def refuseAt (step cntIdx code : Nat) (st : Status) (d : Datagram) (h : Header) (s : State) : State :=
  sendReply none h.opcode (headerCmd d h .anonymous []) st []
    (hostCount cntIdx (raiseViolation code step st.code d h s))

/-- Steps 1 to 8 of Table 3.3: the first that fails, as its handling. -/
def earlyCheck (d : Datagram) (h : Header) (s : State) : Option (State → State) :=
  if d.payload.length < 24 || d.ipFragment then some (discardAt 1 1 d h)
  else if h.magic ≠ 0x4C58 then some (discardAt 2 2 d h)
  else if bitOf h.flags 0 then some (discardAt 3 3 d h)
  else if !selects h s then some (discardAt 4 4 d h)
  else if d.oversize then some (refuseAt 5 5 0x0020 .frameTruncated d h)
  else if h.version ≠ 1 || h.status ≠ 0 || h.flags / 16 ≠ 0 || h.resv ≠ 0 then
    some (refuseAt 6 6 0x0020 .badParam d h)
  else if 8192 < h.plen || d.payload.length ≠ 24 + h.plen + (if h.auth then 16 else 0) then
    some (refuseAt 7 7 0x0020 .badLength d h)
  else if h.cnt = 0 || h.cnt ≤ h.idx || h.more ≠ decide (h.idx + 1 < h.cnt) then
    some (refuseAt 8 6 0x0020 .badParam d h)
  else none

/-- Step 9 of Table 3.3: the session exists, AUTH agrees with it and the tag verifies (R97, R101).
Log 21 (DEDUCED, safe). -/
def authCheck (d : Datagram) (h : Header) (s : State) : Option (Role × List Byte) :=
  match sessionAuth s h.session with
  | none => none
  | some (r, k) =>
    if h.session = 0 then (if h.auth then none else some (r, k))
    else if h.auth && (d.payload.drop (24 + h.plen)).take 16 == cmdTag k (d.payload.take (24 + h.plen)) then
      some (r, k)
    else none

/-- Steps 12 to 15 of Table 3.3 for a complete command, and the hold of an in-step command on the follower of a pair
(R463); a command that passes enters the queue of 256 (R106). -/
def acceptComplete (opcode : Nat) (c : HostCmd) (s : State) : State :=
  match opOfCode opcode with
  | none => finishCode opcode c .badOpcode [] s
  | some op =>
    if follows s && inStepCmd op c && !c.relayed then
      sendHalyard 4 (cmdBytes opcode c)
        { s with red := { s.red with held := s.red.held ++ [{ op := op, cmd := c, since := s.clock.clk }], cnt := bump s.red.cnt 3 } }
    else match roleRefusal op c with
      | some st => pairAfter op c false st [] (finish op c st [] (raiseRoleDenied op c s))
      | none => match modeRefusal op c s with
        | some st => pairAfter op c false st [] (finish op c st [] s)
        | none =>
          if 256 ≤ s.host.queue.length then pairAfter op c false .busy [] (finish op c .busy [] (hostCount 12 s))
          else { s with host := { s.host with queue := s.host.queue ++ [(op, c)] } }

/-- A command whose fragments have all arrived: L rises, its cache entry is opened, and it goes on (R102, R103). -/
def commandArrived (opcode : Nat) (c : HostCmd) (lastTag : List Byte) (s : State) : State :=
  let s := setLastSeq c.session c.seq s
  let k : Cache := { op := opOfCode opcode, cmd := c, opcode := opcode, lastFrag := lastTag }
  let s := if c.session = 0 then s else onHost (fun h => { h with cache := tset h.cache c.session k }) s
  acceptComplete opcode c s

/-- Abandon the reassembly of a session, counted in HOST_CNT index 11 (R93). -/
def abandonReasm (session : Nat) (s : State) : State :=
  if s.host.reasm.any (fun r => r.session == session) then
    hostCount 11 { s with host := { s.host with reasm := s.host.reasm.filter (fun r => r.session != session) } }
  else s

/-- A first-arriving fragment of a command of several fragments takes a context of the 4 (R93, R94). -/
def openReasm (h : Header) (c : HostCmd) (s : State) : State :=
  if 4 ≤ s.host.reasm.length then sendReply (replyKey c) h.opcode c .busy [] s
  else
    let r : Reasm := { session := h.session, seq := h.seq, opcode := h.opcode, address := h.address
                       flags := h.flags % 8, count := h.cnt, frags := [(h.idx, c.params ++ c.tag)]
                       total := h.plen, started := s.clock.clk, from_ := c }
    { s with host := { s.host with reasm := s.host.reasm ++ [r] } }

/-- A further fragment of the command in reassembly (R92 to R94). Each fragment is kept with its tag behind it. -/
def addFragment (h : Header) (c : HostCmd) (r : Reasm) (s : State) : State :=
  if r.opcode ≠ h.opcode || r.address ≠ h.address || r.flags ≠ h.flags % 8 || r.count ≠ h.cnt then
    sendReply (replyKey c) h.opcode c .badParam [] (abandonReasm h.session s)
  else if (tfind r.frags h.idx).isSome then hostCount 10 s
  else if 262144 < r.total + h.plen then
    sendReply (replyKey c) h.opcode c .badLength [] (abandonReasm h.session s)
  else
    let r' := { r with frags := tset r.frags h.idx (c.params ++ c.tag), total := r.total + h.plen }
    if r'.frags.length = r'.count then
      let tagLen := if h.session = 0 then 0 else 16
      let ps := r'.frags.flatMap (fun p => p.2.take (p.2.length - tagLen))
      let last := tget [] r'.frags (r'.count - 1)
      let s := { s with host := { s.host with reasm := s.host.reasm.filter (fun x => x.session != h.session) } }
      commandArrived h.opcode { c with params := ps } (last.drop (last.length - tagLen)) s
    else
      { s with host := { s.host with reasm := s.host.reasm.map (fun x => if x.session = h.session then r' else x) } }

/-- Step 11 of Table 3.3. -/
def reassemble (h : Header) (c : HostCmd) (s : State) : State :=
  let cur := s.host.reasm.find? (fun r => r.session == h.session)
  match cur with
  | none => if h.cnt = 1 then commandArrived h.opcode c c.tag s else openReasm h c s
  | some r =>
    if h.session ≠ 0 && r.seq < h.seq then
      let s := abandonReasm h.session s
      if h.cnt = 1 then commandArrived h.opcode c c.tag s else openReasm h c s
    else if h.seq < r.seq || (h.session = 0 && h.cnt = 1) then
      if h.cnt = 1 then commandArrived h.opcode c c.tag s
      else sendReply (replyKey c) h.opcode c .busy [] s
    else addFragment h c r s

/-- Step 10 of Table 3.3 for a sequence equal to L: a repeat of the last accepted command (R102, R103). -/
def repeatOfLast (d : Datagram) (h : Header) (c : HostCmd) (s : State) : State :=
  match tfind s.host.cache h.session with
  | none => finishReplay s
  | some k =>
    if k.cmd.seq ≠ h.seq then finishReplay s
    else if !k.done then hostCount 10 s
    else if h.idx + 1 = h.cnt && c.tag == k.lastFrag then
      let s := hostCount 10 s
      if k.long then acceptComplete k.opcode { k.cmd with port := c.port, srcIp := c.srcIp, srcPort := c.srcPort } s
      else if replyWanted c (statusByCode k.status) s then
        sendReply (replyKey c) k.opcode c (statusByCode k.status) k.reply s
      else s
    else hostCount 10 s
where
  /-- Refuse with SEQ_REPLAY (step 10). -/
  finishReplay (s : State) : State :=
    sendReply (replyKey c) h.opcode c .seqReplay []
      (hostCount 9 (raiseViolation 0x0022 10 Status.seqReplay.code d h s))
  /-- The status of a code (Table 3.6). -/
  statusByCode (n : Nat) : Status :=
    ([.ok, .scheduled, .badOpcode, .badLength, .badParam, .badAuth, .seqReplay, .frameTruncated, .roleDenied,
      .notInMode, .busy, .noResource, .capacity, .formatMismatch, .destLocked, .linebufShort, .cancelled,
      .objectInvalid, .notAuthority, .leaseLost, .decodeZero, .busError, .imageInvalid, .rollbackRefused,
      .trialActive].find? (fun x => x.code == n)).getD .internal

/-- Step 10 of Table 3.3 (R102). Session 0 has no sequence (R97). -/
def sequenceCheck (d : Datagram) (h : Header) (c : HostCmd) (s : State) : State :=
  if h.session = 0 then reassemble h c s
  else
    let l := lastSeq s h.session
    if h.seq ≠ 0 && l < h.seq then reassemble h c s
    else if h.seq ≠ 0 && h.seq = l then repeatOfLast d h c s
    else
      sendReply (replyKey c) h.opcode c .seqReplay []
        (hostCount 9 (raiseViolation 0x0022 10 Status.seqReplay.code d h s))

/-- The checks of Table 3.3 in order (R104). -/
def judgeDatagram (d : Datagram) (s : State) : State :=
  let h := readHeader d.payload
  match earlyCheck d h s with
  | some f => f s
  | none => match authCheck d h s with
    | none => refuseAt 9 8 0x0021 .badAuth d h s
    | some (role, key) => sequenceCheck d h (headerCmd d h role key) s

/-- The datagram reaches the interpreter: on the control port and addresses of R79; in BOOT only at the recovery
listener, on port A and the default port (R59); never in reset, in RETAIN (Table 1.8) or while the Conductor is stopped
(R499).
Log 21 (DEDUCED, safe). -/
def hostReachable (d : Datagram) (s : State) : Bool :=
  if !hostServes s then false
  else if s.mode = .boot then d.port == 0 && d.dstPort == 41210
  else d.dstPort == s.aon.udpPort && (d.dest == 0 || s.aon.groupEn)

/-- COMMAND_DATAGRAM (R104): a UDP datagram arrives at the control port.
Log 9 (DESIGN CHOICE, safe). -/
def execCommandDatagram (t : Nat) (d : Datagram) (s : State) : Host.Outcome State Fault Refusal :=
  let s := advance t s
  .next (if hostReachable d s then judgeDatagram d s else s)

/-- REASSEMBLY_TIMEOUT (R93): the reassembly of a session is still incomplete 500 ms after its first fragment. -/
def execReassemblyTimeout (t session : Nat) (s : State) : Host.Outcome State Fault Refusal :=
  let s := advance t s
  .next (match s.host.reasm.find? (fun r => r.session == session) with
    | some r => if r.started + 500000000 ≤ s.clock.clk then abandonReasm session s else s
    | none => s)

end Sys2Proof.Machine
end

