-- ==== Sys2Proof/Machine/Flags.lean ====
section
/-! DEFINITION. The images of the status, flag and configuration registers of the general block, the start-up logic, the
host interpreter, the safety monitor and the power-state logic, as a read returns them. -/

namespace Sys2Proof.Machine

/-- A register image from fields given as (lowest bit, width, value); a reserved bit reads zero (R10). -/
def fields (fs : List (Nat × Nat × Nat)) : Word :=
  w32 (fs.foldl (fun a f => a + f.2.2 % 2 ^ f.2.1 * 2 ^ f.1) 0)

/-- MODE (Table 1.10). -/
def regMode (s : State) : Word :=
  fields [(0, 3, s.mode.code), (4, 3, s.aon.prevMode), (8, 8, s.aon.lastTrans), (16, 1, bit (paired s)),
    (17, 1, bit s.red.lease), (18, 1, bit (inStep s)), (19, 1, bit (calHold s))]

/-- MODE_HAL_WAIT (Table 1.11). -/
def regHalWait (s : State) : Word := fields [(0, 16, s.halWaitMs)]

/-- HOST_ADDR (Table 3.10). -/
def regHostAddr (s : State) : Word := fields [(0, 6, s.start.straps.pos), (6, 8, s.aon.frameId)]

/-- HOST_CFG (Table 3.11). -/
def regHostCfg (s : State) : Word :=
  fields [(0, 16, s.aon.udpPort), (16, 1, bit s.aon.groupEn), (17, 1, bit s.aon.anonEn)]

/-- HOST_KEY_STATE (Table 3.13).
Log 22 (DEDUCED, safe). -/
def regKeyState (s : State) : Word :=
  fields [(0, 16, s.aon.sessions.foldl (fun a p => a + 2 ^ p.1) 0), (16, 1, bit (factoryOpen s)),
    (17, 1, bit (safetyHeld s))]

/-- PWR_SEQ_STATUS (Table 2.13). -/
def regSeqStatus (s : State) : Word :=
  fields [(0, 1, bit (s.seq.pg.getD 0 false)), (1, 1, bit (s.seq.pg.getD 1 false)), (2, 1, bit (s.seq.pg.getD 2 false)),
    (3, 1, bit (s.seq.pg.getD 3 false)), (4, 1, bit (s.seq.pg.getD 4 false)), (5, 1, bit s.seq.pgMode),
    (6, 1, bit s.seq.clkWait), (7, 1, bit s.seq.lockout), (8, 3, s.seq.lastFault), (16, 8, s.seq.faultCount)]

/-- PWR_BOOT_STATUS (Table 2.14). -/
def regBootStatus (s : State) : Word :=
  let b := s.aon.boot
  fields [(0, 2, b.slot), (2, 1, bit b.trial), (3, 1, bit b.bootSrc), (4, 4, b.reject), (8, 2, b.rejectSlot),
    (10, 1, bit b.romFail), (11, 1, bit b.calFail), (12, 1, bit (b.skip.getD 0 false)),
    (13, 1, bit (b.skip.getD 1 false)), (14, 1, bit (b.skip.getD 2 false)), (16, 8, s.fuses.floor)]

/-- PWR_START_TIME (Table 2.15). -/
def regStartTime (s : State) : Word := fields [(0, 16, s.start.t2Ms), (16, 16, s.start.readyMs)]

/-- PWR_START_CFG (Table 2.16). -/
def regStartCfg (s : State) : Word := fields [(0, 16, s.aon.laneWaitMs), (16, 12, s.aon.trialS)]

/-- The pin state code of SAF_STATUS.PINS (Table 15.11). -/
def PinState.code : PinState → Nat
  | .low => 0 | .toggling => 1 | .high => 2

/-- SAF_STATUS (Table 15.11). -/
def regSafStatus (s : State) : Word :=
  let st := s.saf.stalled
  let stew := (st.filter (fun p => decide (2 ≤ p) && decide (p ≤ 5))).length
  fields [(0, 1, bit s.saf.reacted), (1, 1, bit s.saf.lockstep), (2, 1, bit s.saf.selftest),
    (3, 1, bit s.saf.chipFault), (4, 1, bit s.saf.yielded), (5, 2, s.saf.pins.code), (8, 1, bit (st.contains 0)),
    (9, 1, bit (st.contains 1)), (10, 1, bit (decide (1 ≤ stew))), (11, 1, bit (decide (2 ≤ stew)))]

/-- SAF_REACT. -/
def regSafReact (s : State) : Word := fields [(0, 11, s.saf.react)]

/-- SAF_CFG (Table 15.12). -/
def regSafCfg (s : State) : Word := fields [(0, 1, bit s.saf.faultYield), (1, 1, bit s.saf.stallAction)]

/-- EVT_STATE. -/
def regEvtState (s : State) : Word := fields [(0, 1, bit s.evt.firstFull), (16, 16, s.evt.pending.length)]

/-- EVT_NEWEST: the sequence of the newest record, 0 before the first. -/
def evtNewest (s : State) : Nat := s.evt.nextSeq - 1

/-- EVT_OLDEST: the sequence of the oldest record in the circulating area. -/
def evtOldest (s : State) : Nat := (s.evt.circ.head?.map (·.seq)).getD 0

/-- EVT_HEAD: the word index of the oldest record in the circulating area. -/
def evtHead (s : State) : Nat := (s.evt.circ.head?.map (·.pos)).getD 0

/-- PWR_STATE (Table 17.6). -/
def regPwrState (s : State) : Word :=
  fields [(0, 2, s.pwr.level), (2, 2, if s.pwr.changing then s.pwr.target else s.pwr.level), (4, 1, bit s.pwr.changing),
    (8, 2, s.pwr.sleep), (10, 1, bit s.pwr.entering)]

/-- PWR_WAKE (Table 17.7). CAUSE stands in bits [5:2] by its own bit numbers. -/
def regPwrWake (s : State) : Word := fields [(0, 2, s.aon.wakeLast), (2, 4, s.aon.wakeCause), (6, 1, bit s.aon.xtalLost)]

/-- PWR_ALARM. -/
def regPwrAlarm (s : State) : Word := w32 s.aon.alarm

/-- PWR_WAKE_TIME (Table 17.8). -/
def regWakeTime (s : State) : Word := fields [(0, 16, s.pwr.wakeReadyMs), (16, 16, s.pwr.entryMs)]

/-- EVT_RATE of a code. -/
def regEvtRate (s : State) (code : Nat) : Word :=
  let b := tget {} s.evt.buckets code
  fields [(0, 16, b.rate), (16, 8, b.burst)]

/-- The start of a slot in the boot flash (Table 2.4). -/
def slotBase (slot : Nat) : Nat := 0x00100000 + slot * 0x00800000

/-- The build ID of the running image; 0 in the recovery listener (Table 3.8). -/
def runningBuild (s : State) : Nat :=
  if 3 ≤ s.aon.boot.slot || s.start.recovery then 0
  else beNat (memReadList 0xFF#8 s.flash.mem (slotBase s.aon.boot.slot + 24) 4)

/-- The reply of IDENTIFY (Table 3.8). -/
def identifyReply (s : State) : List Byte :=
  beBytes 4 0x3210 ++ beBytes 2 s.fuses.stepping ++ beBytes 2 0 ++ beBytes 8 s.fuses.serial
    ++ beBytes 2 (sysAddr s) ++ beBytes 1 (s.start.straps.pos % 64) ++ beBytes 1 s.aon.frameId
    ++ beBytes 1 s.start.straps.pairRole ++ beBytes 1 s.fuses.grade ++ beBytes 2 0
    ++ beBytes 4 (runningBuild s) ++ beBytes 1 s.aon.boot.slot ++ beBytes 1 (bit s.aon.boot.trial)
    ++ beBytes 1 s.fuses.floor ++ beBytes 1 0 ++ beBytes 6 s.fuses.macA ++ beBytes 2 0 ++ beBytes 6 s.fuses.macB
    ++ beBytes 2 0

/-- The flags word of STATUS (Table 3.8). -/
def statusFlags (s : State) : Word :=
  fields [(0, 1, bit s.pins.ready), (1, 1, bit s.host.locked), (2, 1, bit (factoryOpen s)), (4, 2, s.pwr.level)]

/-- The reply of STATUS (Table 3.8). -/
def statusReply (s : State) : List Byte :=
  wordBytes (regMode s) ++ wordBytes (statusFlags s)
    ++ beBytes 4 ((s.clock.clk - s.start.t0.getD s.clock.clk) / 1000000000) ++ beBytes 4 (evtNewest s)
    ++ beBytes 4 s.evt.generation ++ wordBytes (regBootStatus s) ++ beBytes 2 s.host.queue.length
    ++ beBytes 1 (4 - s.host.reasm.length) ++ beBytes 5 0

end Sys2Proof.Machine
end

