-- ==== Sys2Proof/Machine/Image.lean ====
section
/-! DEFINITION. The boot record, the checks of a Skord image, and the image commands (chapter 2). -/

namespace Sys2Proof.Machine

/-- The boot record (Table 2.5). -/
structure BootRec where
  active   : Nat := 0
  gen      : Nat := 0
  trial    : Option Nat := none
  attempts : Nat := 0
deriving DecidableEq, Repr

/-- The 32 bytes of a copy of the boot record. -/
def recCopy (s : State) (n : Nat) : List Byte := memReadList 0xFF#8 s.flash.mem (n * 0x10000) 32

/-- A copy is valid when magic, version and CRC are right (R53). -/
def recParse (b : List Byte) : Option BootRec :=
  if u16 b 0 = 0x5342 && u8 b 2 = 1 && w32 (u32 b 28) == crc32 (b.take 28) then
    some { active := u8 b 3, gen := u32 b 4, trial := if u8 b 8 = 0xFF then none else some (u8 b 8), attempts := u8 b 9 }
  else none

/-- The copy in force: the higher generation, copy 0 when equal; slot A and no trial when neither is valid (R53).
Log 18 (DEDUCED, safe). -/
def bootRec (s : State) : BootRec :=
  match recParse (recCopy s 0), recParse (recCopy s 1) with
  | some a, some b => if a.gen < b.gen then b else a
  | some a, none => a
  | none, some b => b
  | none, none => {}

/-- The bytes of a boot record (Table 2.5). -/
def recBytes (r : BootRec) : List Byte :=
  let b := beBytes 2 0x5342 ++ beBytes 1 1 ++ beBytes 1 r.active ++ beBytes 4 r.gen
    ++ beBytes 1 (r.trial.getD 0xFF) ++ beBytes 1 r.attempts ++ List.replicate 18 0#8
  b ++ wordBytes (crc32 b)

/-- The copy that an update rewrites, and its new generation (R54). -/
def recTarget (s : State) : Nat × Nat :=
  match recParse (recCopy s 0), recParse (recCopy s 1) with
  | some a, some b => if a.gen < b.gen then (0, b.gen + 1) else (1, a.gen + 1)
  | some a, none => (1, a.gen + 1)
  | none, some b => (0, b.gen + 1)
  | none, none => (0, 1)

/-- Erase and rewrite the copy that does not hold the higher generation (R54).
Log 18 (DEDUCED, safe). -/
def writeRec (r : BootRec) (s : State) : State :=
  let n := recTarget s
  let m := memClear s.flash.mem (n.1 * 0x10000) (n.1 * 0x10000 + 0x10000)
  onFlash (fun f => { f with mem := memWriteList 0xFF#8 m (n.1 * 0x10000) (recBytes { r with gen := n.2 }) }) s

/-- Bytes of a slot's image. -/
def imgBytes (s : State) (slot o n : Nat) : List Byte := memReadList 0xFF#8 s.flash.mem (slotBase slot + o) n

/-- The security version, build ID and length in a slot's header (Table 2.6). -/
def imgSecVer (s : State) (slot : Nat) : Nat := beNat (imgBytes s slot 16 8)
/-- The image length in a slot's header. -/
def imgLength (s : State) (slot : Nat) : Nat := beNat (imgBytes s slot 8 4)
/-- The build ID in a slot's header. -/
def imgBuild (s : State) (slot : Nat) : Nat := beNat (imgBytes s slot 24 4)

/-- One entry of the section table (Table 2.7). -/
structure Section where
  target : Nat
  off    : Nat
  len    : Nat
  addr   : Nat
deriving DecidableEq, Repr

/-- The section table of a slot's image. -/
def imgSections (s : State) (slot : Nat) : List Section :=
  let h := imgBytes s slot 0 128
  (List.range (min 32 (u16 h 12))).map (fun i =>
    let e := imgBytes s slot (128 + 16 * i) 16
    { target := u8 e 0, off := u32 e 4, len := u32 e 8, addr := u32 e 12 })

/-- Two sections overlap in one target: their load ranges meet. -/
def sectionsOverlap (a b : Section) : Bool :=
  a.target == b.target && decide (a.addr < b.addr + b.len) && decide (b.addr < a.addr + a.len)

/-- No two sections of a list overlap. -/
def noOverlap : List Section → Bool
  | [] => true
  | a :: r => r.all (fun b => !sectionsOverlap a b) && noOverlap r

/-- Check 3 of Table 2.8: lengths, and sections inside the image before the signature. -/
def imgLayoutOk (s : State) (slot : Nat) : Bool :=
  let h := imgBytes s slot 0 128
  let len := u32 h 8
  let n := u16 h 12
  decide (4096 ≤ len) && decide (len ≤ 8388608) && decide (1 ≤ n) && decide (n ≤ 32)
    && decide (128 + 16 * n + 64 ≤ len)
    && (imgSections s slot).all (fun x => decide (x.off + x.len + 64 ≤ len))
    && noOverlap (imgSections s slot)

/-- Check 5 of Table 2.8: the signature verifies over every byte before it (R55). -/
def imgSignatureOk (s : State) (slot : Nat) : Bool :=
  let len := imgLength s slot
  let key := imgBytes s slot 64 64
  let sig := imgBytes s slot (len - 64) 64
  ecdsaVerify (beNat (key.take 32)) (beNat (key.drop 32)) (beNat (sig.take 32)) (beNat (sig.drop 32))
    (beNat (sha256 (imgBytes s slot 0 (len - 64))))

/-- The checks of Table 2.8, reasons 1 to 8, in order: the first that fails. -/
def imgReason (s : State) (slot : Nat) : Option Nat :=
  let h := imgBytes s slot 0 128
  if u32 h 0 ≠ 0x534B5244 || u16 h 4 ≠ 1 || u16 h 6 ≠ 128 then some 1
  else if u32 h 28 ≠ 0x3210 then some 2
  else if !imgLayoutOk s slot then some 3
  else if sha256 (imgBytes s slot 64 64) ≠ s.fuses.keyDigest then some 4
  else if !imgSignatureOk s slot then some 5
  else if 128 < imgSecVer s slot then some 6
  else if imgSecVer s slot < s.fuses.floor then some 7
  else if !((List.range 7).all (fun t => (imgSections s slot).any (fun x => x.target == t))) then some 8
  else none

/-- The phase of a slot. -/
def slotPhase (s : State) (slot : Nat) : SlotPhase := s.flash.phases.getD slot .idle

/-- Every byte of a slot is erased. -/
def slotEmpty (s : State) (slot : Nat) : Bool :=
  s.flash.mem.all (fun c => decide (c.1 < slotBase slot) || decide (slotBase slot + 0x800000 ≤ c.1))

/-- The state of a slot as IMG_INFO shows it: 0 EMPTY, 1 ERASING, 2 WRITING, 3 VALID, 4 INVALID, with its reason. -/
def slotState (s : State) (slot : Nat) : Nat × Nat :=
  match slotPhase s slot with
  | .erasing => (1, 0)
  | .writing => (2, 0)
  | .abandoned => (4, 0)
  | .idle => if slotEmpty s slot then (0, 0) else match imgReason s slot with
    | none => (3, 0)
    | some r => (4, r)

/-- A trial is pending or running. -/
def trialExists (s : State) : Bool := (bootRec s).trial.isSome || s.aon.boot.trial

/-- Reject an image: IMAGE_REJECTED, and the reject fields of PWR_BOOT_STATUS (R56). -/
def rejectImage (slot reason : Nat) (s : State) : State :=
  raise 2 12 0xC010 0 [pack8_16 slot reason 0]
    (onAon (fun a => { a with boot := { a.boot with reject := reason, rejectSlot := slot } }) s)

/-- Set or clear the SKIP bit of a slot (R63, R64). -/
def setSkip (slot : Nat) (v : Bool) (s : State) : State :=
  onAon (fun a => { a with boot := { a.boot with skip := a.boot.skip.set slot v } }) s

/-- Blow security-version fuses up to the running image's version, when it runs from the active slot, not in trial, and
its version exceeds F (R73).
Log 118 (DEDUCED, safe). -/
def raiseFloor (s : State) : State :=
  let v := imgSecVer s s.aon.boot.slot
  if s.aon.boot.slot = (bootRec s).active && !s.aon.boot.trial && s.fuses.floor < v then
    raise 1 12 0xC014 0 [pack8_16 s.fuses.floor v 0] (onFuses (fun f => { f with floor := v }) s)
  else s

/-- A running trial is confirmed: its slot becomes active, the trial is cleared, IMAGE_CONFIRMED, and the floor rises
(R71, R73). -/
def confirmTrial (s : State) : State :=
  let slot := s.aon.boot.slot
  let s := writeRec { bootRec s with active := slot, trial := none, attempts := 0 } s
  let s := onAon (fun a => { a with boot := { a.boot with trial := false } }) s
  raiseFloor (raise 1 12 0xC012 0 ([pack8_16 slot 0 0] ++ words64 (imgSecVer s slot)) s)

/-- IMG_INFO takes no parameters. -/
def refuseImgInfo : Refuse := fun _ c => needLen 0 c
/-- The 24 bytes of a slot in IMG_INFO (Table 2.11). -/
def imgInfoSlot (s : State) (slot : Nat) : List Byte :=
  let st := slotState s slot
  let shown := decide (st.1 = 3) || decide (st.1 = 4)
  beBytes 1 st.1 ++ beBytes 1 st.2 ++ beBytes 2 0 ++ beBytes 8 (if shown then imgSecVer s slot else 0)
    ++ beBytes 4 (if shown then imgBuild s slot else 0) ++ beBytes 4 (if shown then imgLength s slot else 0)
    ++ beBytes 1 (bit (s.aon.boot.skip.getD slot false)) ++ beBytes 3 0
/-- IMG_INFO answers the slots, the boot record's first 12 bytes and F (Table 2.11). -/
def effImgInfo : Effect := fun s _ =>
  (s, some (.ok, imgInfoSlot s 0 ++ imgInfoSlot s 1 ++ imgInfoSlot s 2
    ++ (recBytes (bootRec s)).take 12 ++ beBytes 1 s.fuses.floor))
/-- IMG_INFO (R75). -/
def execImgInfo (t : Nat) (c : HostCmd) (s : State) : Host.Outcome State Fault Refusal :=
  .next (runCommand .imgInfo refuseImgInfo effImgInfo t c s)

/-- Another session holds an image write that is not ended (Table 2.12). -/
def foreignWrite (s : State) (c : HostCmd) : Bool :=
  match s.flash.write with | some w => w.session != c.session | none => false

/-- IMG_WRITE_BEGIN (Table 2.12). -/
def refuseImgWriteBegin : Refuse := fun s c =>
  firstRefusal [needLen 8 c, refuseIf (u24 c.params 1 != 0) .badParam, refuseIf (trialExists s) .trialActive,
    refuseIf (u8 c.params 0 == s.aon.boot.slot && !s.start.recovery) .busy, refuseIf (foreignWrite s c) .busy,
    refuseIf (decide (1 < u8 c.params 0) || decide (u32 c.params 4 = 0) || decide (8388608 < u32 c.params 4)) .badParam]
/-- IMG_WRITE_BEGIN starts the erase of the slot and clears its SKIP bit (R64, R77). -/
def effImgWriteBegin : Effect := fun s c =>
  let slot := u8 c.params 0
  let s := onFlash (fun f =>
    let ps := match f.write with
      | some w => f.phases.set w.slot .abandoned
      | none => f.phases
    { f with phases := ps.set slot .erasing
             mem := memClear f.mem (slotBase slot) (slotBase slot + 0x800000)
             recoveryOk := f.recoveryOk.filter (· != slot)
             write := some ⟨slot, c.session, u32 c.params 4, 0, s.clock.clk⟩ }) s
  (setSkip slot false s, some (.scheduled, []))
/-- IMG_WRITE_BEGIN (R75 to R77). -/
def execImgWriteBegin (t : Nat) (c : HostCmd) (s : State) : Host.Outcome State Fault Refusal :=
  .next (runCommand .imgWriteBegin refuseImgWriteBegin effImgWriteBegin t c s)

/-- SLOT_ERASE_DONE (R77): the slot enters WRITING and its 60 s timer starts. -/
def execSlotEraseDone (t slot : Nat) (s : State) : Host.Outcome State Fault Refusal :=
  if 2 < slot then .fault .noSuchObject
  else
    let s := advance t s
    .next (if slotPhase s slot = .erasing then
      onFlash (fun f => { f with phases := f.phases.set slot .writing
                                 write := f.write.map (fun w => { w with lastAt := s.clock.clk }) }) s
    else s)

/-- The session's own write to a slot that is WRITING. -/
def ownWrite (s : State) (c : HostCmd) (slot : Nat) : Option ImageWrite :=
  match s.flash.write with
  | some w => if w.session = c.session && w.slot = slot && slotPhase s slot = .writing then some w else none
  | none => none

/-- IMG_WRITE (Table 2.12). -/
def refuseImgWrite : Refuse := fun s c =>
  let n := c.params.length - 8
  firstRefusal [refuseIf (decide (c.params.length < 9) || decide (8192 < c.params.length)) .badLength,
    refuseIf (u24 c.params 1 != 0) .badParam, refuseIf (foreignWrite s c) .busy,
    refuseIf (decide (1 < u8 c.params 0)) .badParam,
    refuseIf (slotPhase s (u8 c.params 0) == .erasing) .busy,
    match ownWrite s c (u8 c.params 0) with
    | none => some (.badParam, [])
    | some w => refuseIf (u32 c.params 4 != w.written || decide (w.length < w.written + n)) .badParam]
/-- IMG_WRITE programs the data at the end of what is written (R77). -/
def effImgWrite : Effect := fun s c =>
  let slot := u8 c.params 0
  let data := c.params.drop 8
  (onFlash (fun f => { f with
    mem := memWriteList 0xFF#8 f.mem (slotBase slot + u32 c.params 4) data
    write := f.write.map (fun w => { w with written := w.written + data.length, lastAt := s.clock.clk }) }) s,
   some (.ok, []))
/-- IMG_WRITE (R75 to R77). -/
def execImgWrite (t : Nat) (c : HostCmd) (s : State) : Host.Outcome State Fault Refusal :=
  .next (runCommand .imgWrite refuseImgWrite effImgWrite t c s)

/-- IMAGE_WRITE_TIMEOUT (R77): a WRITING slot has received no IMG_WRITE for 60 s. -/
def execImageWriteTimeout (t : Nat) (s : State) : Host.Outcome State Fault Refusal :=
  let s := advance t s
  .next (match s.flash.write with
    | some w => if slotPhase s w.slot = .writing && w.lastAt + 60000000000 ≤ s.clock.clk then
        onFlash (fun f => { f with phases := f.phases.set w.slot .abandoned, write := none }) s
      else s
    | none => s)

/-- IMG_WRITE_END (Table 2.12). -/
def refuseImgWriteEnd : Refuse := fun s c =>
  firstRefusal [needLen 4 c, refuseIf (u24 c.params 1 != 0) .badParam, refuseIf (foreignWrite s c) .busy,
    refuseIf (decide (1 < u8 c.params 0)) .badParam,
    refuseIf (slotPhase s (u8 c.params 0) == .erasing) .busy,
    refuseIf (ownWrite s c (u8 c.params 0)).isNone .badParam]
/-- IMG_WRITE_END checks the slot as read back, reasons 1 to 8 (R74, R77). -/
def effImgWriteEnd : Effect := fun s c =>
  let slot := u8 c.params 0
  let s := onFlash (fun f => { f with phases := f.phases.set slot .idle, write := none }) s
  match imgReason s slot with
  | none => (if s.start.recovery then onFlash (fun f => { f with recoveryOk := slot :: f.recoveryOk }) s else s,
             some (.ok, []))
  | some r => (rejectImage slot r s, some (if r = 7 then .rollbackRefused else .imageInvalid, []))
/-- IMG_WRITE_END (R75 to R77). -/
def execImgWriteEnd (t : Nat) (c : HostCmd) (s : State) : Host.Outcome State Fault Refusal :=
  .next (runCommand .imgWriteEnd refuseImgWriteEnd effImgWriteEnd t c s)

/-- IMG_ACTIVATE (Table 2.12); the recovery listener answers IMAGE_INVALID until an image written under it has passed
its checks (R59). -/
def refuseImgActivate : Refuse := fun s c =>
  firstRefusal [needLen 4 c, refuseIf (u16 c.params 2 != 0 || decide (1 < u8 c.params 1)) .badParam,
    refuseIf (trialExists s) .trialActive, refuseIf (decide (1 < u8 c.params 0)) .badParam,
    refuseIf (s.start.recovery && s.flash.recoveryOk.isEmpty) .imageInvalid,
    refuseIf ((slotState s (u8 c.params 0)).1 != 3) .imageInvalid,
    refuseIf (u8 c.params 1 == 1 && s.red.lease && inStep s) .busy]
/-- IMG_ACTIVATE records the slot as a trial and clears its SKIP bit; a start now follows by IMAGE_START_NOW (R54, R59,
R64, R71). -/
def effImgActivate : Effect := fun s c =>
  let slot := u8 c.params 0
  let s := setSkip slot false (writeRec { bootRec s with trial := some slot, attempts := 0 } s)
  (if u8 c.params 1 = 1 || s.start.recovery then onFlash (fun f => { f with startNow := some s.clock.clk }) s else s,
   some (.ok, []))
/-- IMG_ACTIVATE (R75, R76). -/
def execImgActivate (t : Nat) (c : HostCmd) (s : State) : Host.Outcome State Fault Refusal :=
  .next (runCommand .imgActivate refuseImgActivate effImgActivate t c s)

/-- IMAGE_START_NOW (R75, R59): at least 10 ms after the reply to IMG_ACTIVATE, T1. -/
def execImageStartNow (t : Nat) (s : State) : Host.Outcome State Fault Refusal :=
  let s := advance t s
  .next (match s.flash.startNow with
    | some a => if a + 10000000 ≤ s.clock.clk then takeT1Start 0 s else s
    | none => s)

/-- IMG_TRIAL_ABORT takes no parameters. -/
def refuseImgTrialAbort : Refuse := fun _ c => needLen 0 c
/-- IMG_TRIAL_ABORT clears a trial without a start; OK without effect when there is none (R72, Table 2.12). -/
def effImgTrialAbort : Effect := fun s _ =>
  if trialExists s then
    (onAon (fun a => { a with boot := { a.boot with trial := false } })
      (writeRec { bootRec s with trial := none, attempts := 0 } s), some (.ok, []))
  else (s, some (.ok, []))
/-- IMG_TRIAL_ABORT (R75). -/
def execImgTrialAbort (t : Nat) (c : HostCmd) (s : State) : Host.Outcome State Fault Refusal :=
  .next (runCommand .imgTrialAbort refuseImgTrialAbort effImgTrialAbort t c s)

/-- IMG_CONFIRM takes no parameters. -/
def refuseImgConfirm : Refuse := fun _ c => needLen 0 c
/-- IMG_CONFIRM confirms a running trial; OK without effect when none runs (R71, Table 2.12). -/
def effImgConfirm : Effect := fun s _ => (if s.aon.boot.trial then confirmTrial s else s, some (.ok, []))
/-- IMG_CONFIRM (R75). -/
def execImgConfirm (t : Nat) (c : HostCmd) (s : State) : Host.Outcome State Fault Refusal :=
  .next (runCommand .imgConfirm refuseImgConfirm effImgConfirm t c s)

/-- TRIAL_CONFIRM_TIMER (R71): a trial image has served for TRIAL_S undisturbed, so it confirms itself. -/
def execTrialConfirmTimer (t : Nat) (s : State) : Host.Outcome State Fault Refusal :=
  let s := advance t s
  .next (match s.flash.trialSince with
    | some a => if s.aon.boot.trial && !s.flash.trialBlocked && decide (a + s.aon.trialS * 1000000000 ≤ s.clock.clk)
        then confirmTrial s else s
    | none => s)

end Sys2Proof.Machine
end

