-- ==== Sys2Proof/Machine/Start.lean ====
section
/-! DEFINITION. Power sequencing, the start from t0 to T2, and calibration (chapter 2). -/

namespace Sys2Proof.Machine

/-- The names of the enables in the order of Table 2.1. -/
def enName (i : Nat) : String := ["EN_CORE", "EN_SRAM", "EN_LANE", "EN_HBM", "EN_IO"].getD i "EN"

/-- Drive one enable. -/
def setEnable (i : Nat) (v : Bool) (s : State) : State :=
  if s.seq.en.getD i false = v then s
  else emitPin (enName i) (bit v) (onSeq (fun q => { q with en := q.en.set i v }) s)

/-- Start the regulator sequence from EN_CORE (R41 to R43). -/
def startSequence (s : State) : State :=
  setEnable 0 true (onSeq (fun q => { q with phase := if q.pgMode then .fixed else .waitPg, step := 1 }) s)

/-- The sequence completes; with RST_N high this is t0 (R46). -/
def sequenceComplete (s : State) : State :=
  let s := onSeq (fun q => { q with phase := .complete }) s
  if s.pins.rstLow then s else takeT0 s

/-- The step after `step`; a wake from S2 skips EN_HBM, which stays asserted (R551). -/
def nextStep (s : State) : Nat := if s.seq.step = 3 && s.seq.en.getD 3 false then 5 else s.seq.step + 1

/-- The state with VDD_AON gone: everything is lost but the boot flash, the fuses and the model's own parts (R553). -/
def aonLost (s : State) : State :=
  { State.reset with
    pending := s.pending
    clock := { clk := s.clock.clk }
    fuses := s.fuses
    flash := { mem := s.flash.mem
               phases := s.flash.phases.map (fun p => if p = .erasing || p = .writing then .abandoned else p) }
    pins := { straps := s.pins.straps, rstLow := s.pins.rstLow, wakeLow := s.pins.wakeLow }
    lane := { signals := s.lane.signals }
    out := s.out
    free := s.free }

/-- VDD_AON_UP (R41): PG_MODE is sampled and the regulator sequence starts. -/
def execVddAonUp (t : Nat) (pgMode : Bool) (straps : Straps) (s : State) : Host.Outcome State Fault Refusal :=
  let s := advance t s
  .next (if s.seq.aonUp then s
    else startSequence (onAon (fun a => { a with countZero := s.clock.clk })
      (onPins (fun p => { p with straps := straps })
        (onSeq (fun q => { q with aonUp := true, pgMode := pgMode }) s))))

/-- VDD_AON_LOST (R553): the whole always-on domain is lost, and the device with it. -/
def execVddAonLost (t : Nat) (s : State) : Host.Outcome State Fault Refusal :=
  .next (aonLost (pinsDown (advance t s)))

/-- PG_INPUT_ASSERTED (R42): the awaited PG_* input asserts, and the 1 ms wait starts. -/
def execPgInputAsserted (t pg : Nat) (s : State) : Host.Outcome State Fault Refusal :=
  if 4 < pg then .fault .noSuchObject
  else
    let s := onSeq (fun q => { q with pg := q.pg.set pg true, lowSince := tdel q.lowSince pg }) (advance t s)
    .next (if s.seq.phase = .waitPg && s.seq.step = pg + 1 then onSeq (fun q => { q with phase := .waitDelay }) s
      else s)

/-- SEQUENCE_STEP_DELAY_EXPIRED (R42, R46): the next enable is asserted, or the sequence completes. -/
def execSequenceStepDelayExpired (t : Nat) (s : State) : Host.Outcome State Fault Refusal :=
  let s := advance t s
  .next (if s.seq.phase ≠ .waitDelay then s
    else if 5 ≤ s.seq.step then sequenceComplete s
    else
      let n := nextStep s
      setEnable (n - 1) true (onSeq (fun q => { q with phase := .waitPg, step := n }) s))

/-- FIXED_DELAY_ENABLE (R43): the fixed time of the next enable, or of the deemed completion, is reached. -/
def execFixedDelayEnable (t : Nat) (s : State) : Host.Outcome State Fault Refusal :=
  let s := advance t s
  .next (if s.seq.phase ≠ .fixed then s
    else if 5 ≤ s.seq.step then sequenceComplete s
    else
      let n := nextStep s
      setEnable (n - 1) true (onSeq (fun q => { q with step := n }) s))

/-- Deassert the enables in the reverse of Table 2.1, 1 ms apart; the log carries each instant (R44). -/
def dropEnables (keepHbm : Bool) (s : State) : State :=
  let up := [4, 3, 2, 1, 0].filter (fun i => s.seq.en.getD i false && !(keepHbm && i == 3))
  let s := (List.range up.length).foldl
    (fun s k => emit (.pin (s.clock.clk + k * 1000000) (enName (up.getD k 0)) 0) s) s
  onSeq (fun q => { q with en := [false, false, false, keepHbm && q.en.getD 3 false, false] }) s

/-- A power fault of a step of Table 2.1 (R44, R45): T1 at once, the enables fall, and after 100 ms the sequence starts
again, or the third fault within 10 s locks the sequencer. -/
def powerFault (step : Nat) (s : State) : State :=
  let n := (s.seq.en.filter id).length
  let times := s.clock.clk :: s.seq.faultTimes.filter (fun a => decide (s.clock.clk < a + 10000000000))
  let locks := decide (3 ≤ times.length)
  let s := onSeq (fun q => { q with
    faultTimes := times.take 3, lastFault := step, faultCount := min 255 (q.faultCount + 1)
    lockout := q.lockout || locks, phase := if locks then .lockout else .faultWait
    restartAt := s.clock.clk + (n - 1) * 1000000 + 100000000 }) s
  let s := dropEnables false (takeT1 1 s)
  raise 4 12 0xC020 0 [pack8_16 step s.seq.faultCount 0] s

/-- PG_TIMEOUT (R42): the awaited PG_* input is still low at the timeout of its step. -/
def execPgTimeout (t : Nat) (s : State) : Host.Outcome State Fault Refusal :=
  let s := advance t s
  .next (if s.seq.phase = .waitPg then powerFault s.seq.step s else s)

/-- PG_INPUT_LOW (R44): a PG_* input goes low; the sequencer notes when. -/
def execPgInputLow (t pg : Nat) (s : State) : Host.Outcome State Fault Refusal :=
  if 4 < pg then .fault .noSuchObject
  else
    let s := advance t s
    .next (onSeq (fun q => { q with pg := q.pg.set pg false, lowSince := tset q.lowSince pg s.clock.clk }) s)

/-- The step of a PG_* input has completed, and its rail is on (R44, R544). -/
def pgWatched (s : State) (pg : Nat) : Bool :=
  !s.seq.pgMode && s.seq.en.getD pg false && (s.seq.phase == .complete || decide (pg + 1 < s.seq.step)
    || (s.seq.phase == .waitDelay && s.seq.step == pg + 1) || (pg == 3 && s.start.wake))

/-- POWER_FAULT (R44): a PG_* input has stayed low for more than 2 µs after its step completed. -/
def execPowerFault (t pg : Nat) (s : State) : Host.Outcome State Fault Refusal :=
  if 4 < pg then .fault .noSuchObject
  else
    let s := advance t s
    .next (match tfind s.seq.lowSince pg with
      | some a => if pgWatched s pg && decide (a + 2000 < s.clock.clk) then powerFault (pg + 1) s else s
      | none => s)

/-- POWER_FAULT_RESTART (R44): 100 ms after the enables fell the sequence starts again. -/
def execPowerFaultRestart (t : Nat) (s : State) : Host.Outcome State Fault Refusal :=
  let s := advance t s
  .next (if s.seq.phase = .faultWait && s.seq.restartAt ≤ s.clock.clk then startSequence s else s)

/-- RST_N_LOW (R46): RST_N has been low for the filter time, so T1 takes effect. -/
def execRstNLow (t : Nat) (s : State) : Host.Outcome State Fault Refusal :=
  let s := advance t s
  .next (if !s.seq.aonUp then s
    else
      let s := takeT1 1 (onPins (fun p => { p with rstLow := true, roleTests := [] }) s)
      if s.seq.phase = .off then startSequence s else s)

/-- RST_N_RELEASE (R46, R45): RST_N rises. A lockout is cleared and the sequence restarts; with the sequence complete
this is t0. `straps` are the levels that the board then drives. -/
def execRstNRelease (t : Nat) (straps : Straps) (s : State) : Host.Outcome State Fault Refusal :=
  let s := advance t s
  .next (if !s.pins.rstLow then s
    else
      let s := onPins (fun p => { p with rstLow := false, straps := straps }) s
      if s.seq.phase = .lockout then
        startSequence (onSeq (fun q => { q with lockout := false, faultTimes := [] }) s)
      else if s.seq.phase = .complete then takeT0 s
      else s)

/-- PAIR_ROLE_TEST (R566): in reset the pin is pulled up, then down, and its levels are noted. -/
def execPairRoleTest (t : Nat) (up down : Bool) (s : State) : Host.Outcome State Fault Refusal :=
  let s := advance t s
  .next (if s.start.inReset then onPins (fun p => { p with roleTests := ((up, down) :: p.roleTests).take 10 }) s else s)

/-- PLL_LOCKED (R48, R49): the PLLs report lock and the ROM tests itself; `romStep` is the step of R49 that fails, or 0.
The time counter is set from the always-on record (R448).
Log 10 (DESIGN CHOICE, safe). -/
def execPllLocked (t romStep : Nat) (s : State) : Host.Outcome State Fault Refusal :=
  let s := advance t s
  .next (if s.start.inReset || s.start.t0.isNone || s.start.pllLocked then s
    else
      let s := onSeq (fun q => { q with clkWait := false }) (onStart (fun x => { x with pllLocked := true }) s)
      let s := timeRestore s
      if romStep = 0 then onStart (fun x => { x with romDone := true }) s
      else onAon (fun a => { a with boot := { a.boot with romFail := true } }) s)

/-- CLK_WAIT_RETRY (R48): the PLLs are not locked 10 ms after t0. -/
def execClkWaitRetry (t : Nat) (s : State) : Host.Outcome State Fault Refusal :=
  let s := advance t s
  .next (match s.start.t0 with
    | some a => if !s.start.pllLocked && decide (a + 10000000 ≤ s.clock.clk) then
        onSeq (fun q => { q with clkWait := true }) s else s
    | none => s)

/-- The order in which the Conductor releases the other processors: the safety pair, the stewards, the cue processor
(R61). -/
def loadOrder : List Nat := [6, 2, 3, 4, 5, 1]

/-- Release the next processor that is still held (R61). -/
def releaseNext (s : State) : State :=
  match loadOrder.find? (fun p => tget 0 s.start.procs p = 0) with
  | some p => onStart (fun x => { x with procs := tset x.procs p 1 }) s
  | none => s

/-- Reject the booted image with reason 9: its SKIP bit is set and the device takes T1 (R63). -/
def rejectBooted (s : State) : State :=
  let slot := s.aon.boot.slot
  takeT1Start 6 (setSkip slot true (rejectImage slot 9 s))

/-- Boot a slot: the Conductor runs and loads the others; a parity error in a section read rejects the image (R58, R61,
R63).
Log 17 (DESIGN CHOICE, safe). -/
def bootSlot (slot : Nat) (trial badParity : Bool) (s : State) : State :=
  let active := (bootRec s).active
  let s := onAon (fun a => { a with boot := { a.boot with slot := slot, trial := trial } }) s
  let s := if !trial && slot ≠ active then raise 2 12 0xC011 0 [pack8_16 slot active 0] s else s
  let s := onStart (fun x => { x with loading := true, recovery := false, procs := [(0, 2)] }) s
  if badParity then rejectBooted s else releaseNext s

/-- Enter the recovery listener (R59). -/
def enterRecovery (s : State) : State :=
  let s := onAon (fun a => { a with boot := { a.boot with slot := 3, trial := false } }) s
  onStart (fun x => { x with recovery := true, loading := false }) s

/-- The check of a candidate, with its report when it is rejected (R56). -/
def tryImage (slot : Nat) (s : State) : State × Bool :=
  match imgReason s slot with
  | none => (s, true)
  | some r => (rejectImage slot r s, false)

/-- The search of R57 over the slots without a trial. -/
def searchSlots (badParity : Bool) : List Nat → State → State
  | [], s => enterRecovery s
  | slot :: rest, s =>
    let r := tryImage slot s
    if r.2 && !s.aon.boot.skip.getD slot false then bootSlot slot false badParity r.1 else searchSlots badParity rest r.1

/-- A trial whose attempts are used up is cleared, with TRIAL_FAILED (R57, R72). -/
def closeTrial (s : State) : State :=
  let rec_ := bootRec s
  match rec_.trial with
  | some tr =>
    if 2 ≤ rec_.attempts then
      raise 3 12 0xC013 0 [pack8_16 tr rec_.attempts 0] (writeRec { rec_ with trial := none, attempts := 0 } s)
    else s
  | none => s

/-- The selection of R57 from the boot record on. -/
def selectImage (badParity : Bool) (s : State) : State :=
  let rec_ := bootRec s
  match rec_.trial with
  | some tr =>
    if rec_.attempts < 2 then
      let s := writeRec { rec_ with attempts := rec_.attempts + 1 } s
      let r := tryImage tr s
      if r.2 && !s.aon.boot.skip.getD tr false then bootSlot tr true badParity r.1
      else
        let s := closeTrial r.1
        searchSlots badParity [rec_.active, 1 - rec_.active, 2] s
    else
      let s := closeTrial s
      searchSlots badParity [rec_.active, 1 - rec_.active, 2] s
  | none => searchSlots badParity [rec_.active, 1 - rec_.active, 2] s

/-- IMAGE_SELECTION (R57): after its self-test the ROM selects and loads an image; on wake from S2 it loads the recorded
slot, and T1 follows where that fails (R68). `badParity` says that a section read shows a parity error (R63). -/
def execImageSelection (t : Nat) (badParity : Bool) (s : State) : Host.Outcome State Fault Refusal :=
  let s := advance t s
  .next (if !s.start.romDone || s.start.loading || s.start.recovery then s
    else if s.start.wake then
      let r := tryImage s.aon.boot.slot s
      if r.2 then bootSlot s.aon.boot.slot s.aon.boot.trial badParity r.1 else takeT1Start 6 r.1
    else if s.mode ≠ .boot then s
    else if s.start.straps.bootSrc then enterRecovery s
    else selectImage badParity s)

/-- T2 (R65, R66): calibration starts, the recorder and the loops run, and IMAGE_STARTED is raised. -/
def takeT2 (s : State) : State :=
  let s := startRecorder s
  let s := onStart (fun x => { x with loading := false, t2Ms := msSince (x.t0.getD 0) s }) s
  let s := onCal (fun _ => { startAt := s.clock.clk }) s
  let s := lanesStart (loopsStart (transition 2 .calibrate 4 s))
  raise 0 12 0xC001 0 [pack8_16 s.aon.boot.slot (bit s.aon.boot.trial) 0, w32 (runningBuild s)] s

/-- T17 (R68): the wake from S2 enters CALIBRATE with the retention checks. -/
def takeT17 (s : State) : State :=
  let s := startRecorder s
  let s := onStart (fun x => { x with loading := false, wake := false, t2Ms := msSince (x.t0.getD 0) s }) s
  let s := onCal (fun _ => { startAt := s.clock.clk, scrub := false, restored := false }) s
  lanesStart (loopsStart (transition 17 .calibrate 5 s))

/-- PROCESSOR_ALIVE (R65): a released processor reports alive. The safety pair starts the SAFE pins (R50). When all have
reported, the fuse floor is raised (R73) and the device takes T2, or T17 on wake (R68).
Log 17 (DESIGN CHOICE, safe). -/
def execProcessorAlive (t proc : Nat) (s : State) : Host.Outcome State Fault Refusal :=
  if 6 < proc then .fault .noSuchObject
  else
    let s := advance t s
    .next (if !s.start.loading || tget 0 s.start.procs proc ≠ 1 then s
      else
        let s := onStart (fun x => { x with procs := tset x.procs proc 2 }) s
        let s := if proc = 6 then
            setSafePins .toggling (onSaf (fun x => { x with gateAt := some s.clock.clk, gateOpen := true }) s) else s
        if loadOrder.all (fun p => tget 0 s.start.procs p = 2) then
          (if s.start.wake then takeT17 s else takeT2 (raiseFloor s))
        else releaseNext s)

/-- ALIVE_TIMEOUT (R63): a released processor is not alive 10 ms after its release. -/
def execAliveTimeout (t proc : Nat) (s : State) : Host.Outcome State Fault Refusal :=
  if 6 < proc then .fault .noSuchObject
  else
    let s := advance t s
    .next (if s.start.loading && tget 0 s.start.procs proc = 1 then rejectBooted s else s)

/-- LANE_WAIT_EXPIRED (R66): the lane wait ends, and unlit lanes no longer hold calibration.
Log 7 (DESIGN CHOICE, safe). -/
def execLaneWaitExpired (t : Nat) (s : State) : Host.Outcome State Fault Refusal :=
  let s := advance t s
  .next (if s.mode = .calibrate && s.cal.startAt + s.aon.laneWaitMs * 1000000 ≤ s.clock.clk then
      calProgress (onCal (fun k => { k with lanes := true }) s)
    else s)

/-- Calibration fails (R67): the event of its cause, CAL_FAIL, and the device stays in CALIBRATE. -/
def calFail (code : Nat) (payload : List Word) (s : State) : State :=
  let s := onCal (fun k => { k with failed := true }) s
  let s := onAon (fun a => { a with boot := { a.boot with calFail := true } }) s
  raise 4 12 code 0 payload s

/-- HBM_TRAINING_DONE (R66, R67): training completes, or the pseudo-channel named fails after 3 attempts. -/
def execHbmTrainingDone (t : Nat) (failed : Option Nat) (s : State) : Host.Outcome State Fault Refusal :=
  let s := advance t s
  .next (if s.mode ≠ .calibrate || s.cal.hbm || s.cal.failed then s
    else match failed with
      | none => calProgress (onCal (fun k => { k with hbm := true }) s)
      | some pc => calFail 0x4002 [pack8_16 pc 3 0] s)

/-- MODE_HAL_WAIT_EXPIRED (R39, T5): WAIT_MS after calibration, a paired device without lease and not in step takes T5. -/
def execModeHalWaitExpired (t : Nat) (s : State) : Host.Outcome State Fault Refusal :=
  let s := advance t s
  .next (match s.cal.doneAt with
    | some a =>
      if s.mode = .calibrate && paired s && !s.red.lease && !inStep s
          && decide (a + s.halWaitMs * 1000000 ≤ s.clock.clk) then transition 5 .isolated 4 s
      else s
    | none => s)

end Sys2Proof.Machine
end

