-- ==== Sys2Proof/Machine/Lane.lean ====
section
/-! DEFINITION. The Rolist and halyard lanes (chapter 4): their registers, commands and events. -/

namespace Sys2Proof.Machine

/-- LANE_RX_CFG (Table 4.5). -/
def regRxCfg (s : State) (k : Nat) : Word :=
  let r := rxLane s k
  fields [(0, 1, bit r.enable), (1, 1, bit r.auto), (2, 5, r.code), (7, 1, bit r.mapCheck), (16, 16, r.expectMap)]

/-- The slot map version of the last valid MAP pennant. -/
def rxMap (r : RxLane) : Nat := beNat ((tget [] r.pennants 1).take 2)

/-- LANE_RX_STATUS (Table 4.6). -/
def regRxStatus (s : State) (k : Nat) : Word :=
  let r := rxLane s k
  fields [(0, 3, r.state.code), (3, 1, bit r.ber), (4, 1, bit r.mismatch), (5, 1, bit r.ensign), (6, 1, bit r.prbsSync),
    (8, 5, r.ctleNow), (16, 16, rxMap r)]

/-- LANE_TX_CFG (Table 4.8). -/
def regTxCfg (s : State) (k : Nat) : Word :=
  let x := txLane s k
  fields [(0, 1, bit x.enable), (1, 3, x.swing), (4, 4, x.post), (8, 3, x.pre), (11, 1, bit x.far),
    (12, 1, bit (x.gen != 0)), (16, 16, x.mapVersion)]

/-- Raise LANE_MAP_MISMATCH (Table 4.11). -/
def raiseMismatch (k state received : Nat) (s : State) : State :=
  raise 2 1 0x1005 (lanePath k) [pack8_16 k state 0, pack16 (rxLane s k).expectMap received] s

/-- No comparison is made, so no mismatch stands (R136). -/
def clearMismatch (k : Nat) (s : State) : State :=
  if (rxLane s k).mismatch then
    raiseMismatch k 0 (rxMap (rxLane s k)) (modRx k (fun r => { r with mismatch := false, mapDiff := 0 }) s)
  else s

/-- A write of LANE_RX_CFG (R138, R145, R148): disabling is a loss of lock; enabling, or a write with CTLE_AUTO 1, sweeps;
CTLE_AUTO 0 applies the code at once and ends a sweep. -/
def writeRxCfg (k v : Nat) (s : State) : State :=
  let old := rxLane s k
  let en := v.testBit 0
  let au := v.testBit 1
  let s := modRx k (fun r => { r with enable := en, auto := au, code := bitsOf v 6 2, mapCheck := v.testBit 7
                                      expectMap := bitsOf v 31 16 }) s
  let s := if v.testBit 7 && bitsOf v 31 16 != 0 then s else clearMismatch k s
  if !lanesRun s then s
  else if !en then (if old.enable then loseLock k 4 .disabled true s else s)
  else if old.state = .test then (if au then s else modRx k (fun r => { r with ctleNow := r.code }) s)
  else if !old.enable then startReceive k s
  else if au then
    (if hasSignal s k then startReceive k (loseLock k 1 .sweep false s) else s)
  else
    let s := modRx k (fun r => { r with ctleNow := r.code }) s
    if old.state = .sweep then startReceive k s else s

/-- A write of LANE_TX_CFG (R139, R144): a lane that leaves electrical idle loads its scrambler (R117). -/
def writeTxCfg (k v : Nat) (s : State) : State :=
  let old := txLane s k
  let s := modTx k (fun x => { x with enable := v.testBit 0, swing := bitsOf v 3 1, post := bitsOf v 7 4
                                      pre := bitsOf v 10 8 }) s
  if v.testBit 0 && !old.enable && lanesRun s then reseed k s else s

/-- A write of LANE_TX_TAG. -/
def writeTxTag (k v : Nat) (s : State) : State := modTx k (fun x => { x with tag := v }) s

/-- The lane parameter of R147. -/
def badLane (c : HostCmd) : Bool := decide (131 < u8 c.params 0)

/-- LANE_STATUS: the lane and the reserved bits. -/
def refuseLaneStatus : Refuse := fun _ c =>
  firstRefusal [needLen 4 c, refuseIf (badLane c || u24 c.params 1 != 0) .badParam]
/-- LANE_STATUS answers Table 4.4. -/
def effLaneStatus : Effect := fun s c =>
  let k := u8 c.params 0
  let r := rxLane s k
  let pad := fun n (l : List Byte) => l.take n ++ List.replicate (n - l.length) 0#8
  (s, some (.ok, wordBytes (regRxStatus s k) ++ wordBytes r.peer ++ wordBytes (regTxCfg s k)
    ++ pad 4 (tget [] r.pennants 4) ++ pad 5 (tget [] r.pennants 5) ++ beBytes 3 0))
/-- LANE_STATUS (R147). -/
def execLaneStatus (t : Nat) (c : HostCmd) (s : State) : Host.Outcome State Fault Refusal :=
  .next (runCommand .laneStatus refuseLaneStatus effLaneStatus t c s)

/-- LANE_CONFIG: the lane, the select bits and the reserved bits. -/
def refuseLaneConfig : Refuse := fun _ c =>
  firstRefusal [needLen 16 c, refuseIf (badLane c || decide (7 < u8 c.params 1) || u16 c.params 2 != 0) .badParam]
/-- LANE_CONFIG writes the selected settings (R148). -/
def effLaneConfig : Effect := fun s c =>
  let k := u8 c.params 0
  let sel := u8 c.params 1
  let s := if sel.testBit 0 then writeRxCfg k (u32 c.params 4) s else s
  let s := if sel.testBit 1 then writeTxCfg k (u32 c.params 8) s else s
  (if sel.testBit 2 then writeTxTag k (u32 c.params 12) s else s, some (.ok, []))
/-- LANE_CONFIG (R148). -/
def execLaneConfig (t : Nat) (c : HostCmd) (s : State) : Host.Outcome State Fault Refusal :=
  .next (runCommand .laneConfig refuseLaneConfig effLaneConfig t c s)

/-- LANE_PRBS: the ranges, and a generator excludes a far-end loop on its lane (R143). -/
def refuseLanePrbs : Refuse := fun s c =>
  firstRefusal [needLen 4 c,
    refuseIf (badLane c || decide (3 < u8 c.params 1) || decide (4 < u8 c.params 2) || u8 c.params 3 != 0) .badParam,
    refuseIf (bitOf (u8 c.params 1) 1 && u8 c.params 2 != 0 && (txLane s (u8 c.params 0)).far) .busy]

/-- Start the PRBS checker of a lane: the lane reports a loss of lock with cause "test function" (R140, R143).
Log 34 (DESIGN CHOICE, safe). -/
def startChecker (k pattern : Nat) (s : State) : State :=
  let s := loseLock k 5 .test true s
  raiseTest k 0 1 (modRx k (fun r => { r with checker := pattern, prbsSync := false, prbsGood := 0, winBits := 0
                                              winErrs := 0 }) s)

/-- LANE_PRBS starts or stops the functions named (R140). -/
def effLanePrbs : Effect := fun s c =>
  let k := u8 c.params 0
  let f := u8 c.params 1
  let p := u8 c.params 2
  let s := if bitOf f 0 then (if p = 0 then stopChecker k s else startChecker k p s) else s
  let s := if bitOf f 1 then
      (if p = 0 then stopGenerator k s else raiseTest k 0 1 (modTx k (fun x => { x with gen := p }) s)) else s
  (s, some (.ok, []))
/-- LANE_PRBS (R140). -/
def execLanePrbs (t : Nat) (c : HostCmd) (s : State) : Host.Outcome State Fault Refusal :=
  .next (runCommand .lanePrbs refuseLanePrbs effLanePrbs t c s)

/-- LANE_LOOP: the ranges, and a far-end loop excludes a generator on its lane (R143). -/
def refuseLaneLoop : Refuse := fun s c =>
  firstRefusal [needLen 4 c,
    refuseIf (badLane c || decide (2 < u8 c.params 1) || u16 c.params 2 != 0) .badParam,
    refuseIf (u8 c.params 1 == 2 && (txLane s (u8 c.params 0)).gen != 0) .busy]
/-- LANE_LOOP sets the loop of a lane (R141). -/
def effLaneLoop : Effect := fun s c =>
  let k := u8 c.params 0
  let v := u8 c.params 1
  let x := txLane s k
  let s := if (v = 1 && x.near) || (v = 2 && x.far) then s else stopLoops k s
  let s :=
    if v = 1 && !x.near then
      raiseTest k 1 1 (modTx k (fun x => { x with near := true }) (loseLock k 5 .test true s))
    else if v = 2 && !x.far then raiseTest k 2 1 (modTx k (fun x => { x with far := true }) s)
    else s
  (s, some (.ok, []))
/-- LANE_LOOP (R141). -/
def execLaneLoop (t : Nat) (c : HostCmd) (s : State) : Host.Outcome State Fault Refusal :=
  .next (runCommand .laneLoop refuseLaneLoop effLaneLoop t c s)

/-- LANE_ERR_INJECT: the ranges. -/
def refuseLaneErrInject : Refuse := fun _ c =>
  firstRefusal [needLen 8 c,
    refuseIf (badLane c || decide (3 < u8 c.params 1) || u16 c.params 2 == 0 || u16 c.params 4 == 0 || u16 c.params 6 != 0)
      .badParam]
/-- LANE_ERR_INJECT schedules the injections; a request replaces one still running (R142). -/
def effLaneErrInject : Effect := fun s c =>
  let k := u8 c.params 0
  let j : Injection := ⟨u8 c.params 1, u16 c.params 2, u16 c.params 4, s.clock.clk⟩
  (raiseTest k 3 1 (modTx k (fun x => { x with inject := some j }) s), some (.scheduled, []))
/-- LANE_ERR_INJECT (R142). -/
def execLaneErrInject (t : Nat) (c : HostCmd) (s : State) : Host.Outcome State Fault Refusal :=
  .next (runCommand .laneErrInject refuseLaneErrInject effLaneErrInject t c s)

/-- A run of `n` blocks in nanoseconds (R115). -/
def blocksNs (n : Nat) : Nat := n * 660000 / 265625

/-- ERROR_INJECTION (R142): the interval has elapsed, and one error is injected; after the last one the function stops. -/
def execErrorInjection (t k : Nat) (s : State) : Host.Outcome State Fault Refusal :=
  if 131 < k then .fault .noSuchObject
  else
    let s := advance t s
    .next (match (txLane s k).inject with
      | some j =>
        if s.clock.clk < j.next then s
        else
          let s := emit (.injected s.clock.clk k j.target) s
          let s := modTx k (fun x => { x with
            badCrc := x.badCrc || j.target == 2
            inject := if j.left ≤ 1 then none
              else some { j with left := j.left - 1, next := j.next + blocksNs j.interval } }) s
          if j.left ≤ 1 then raiseTest k 3 0 s else s
      | none => s)

/-- LANE_COUNTERS: the lane and the reserved bits. -/
def refuseLaneCounters : Refuse := fun _ c =>
  firstRefusal [needLen 4 c, refuseIf (badLane c || u24 c.params 1 != 0) .badParam]
/-- LANE_COUNTERS answers the 10 words of LANE_RX_CNT. -/
def effLaneCounters : Effect := fun s c =>
  (s, some (.ok, (List.range 10).flatMap (fun i => wordBytes (tget 0#32 (rxLane s (u8 c.params 0)).cnt i))))
/-- LANE_COUNTERS (R147). -/
def execLaneCounters (t : Nat) (c : HostCmd) (s : State) : Host.Outcome State Fault Refusal :=
  .next (runCommand .laneCounters refuseLaneCounters effLaneCounters t c s)

/-- LANE_SIGNAL_LOST (R122): the amplitude has been too low for 100 ns. -/
def execLaneSignalLost (t k : Nat) (s : State) : Host.Outcome State Fault Refusal :=
  if 131 < k then .fault .noSuchObject
  else
    let s := advance t s
    let s := onLane (fun l => { l with signals := l.signals.filter (fun x => x != k) }) s
    let r := rxLane s k
    .next (if !lanesRun s || !r.enable || r.state = .noSignal || r.state = .disabled || (txLane s k).near then s
      else if r.state = .test then modRx k (fun r => { r with lostAt := s.clock.clk, prbsSync := false }) (laneCount k 6 1 s)
      else modRx k (fun r => { r with lostAt := s.clock.clk }) (loseLock k 0 .noSignal false (laneCount k 6 1 s)))

/-- LANE_SIGNAL_RETURN (R122): after a loss longer than 1 ms a lane with CTLE_AUTO sweeps, otherwise it hunts with its
last code. -/
def execLaneSignalReturn (t k : Nat) (s : State) : Host.Outcome State Fault Refusal :=
  if 131 < k then .fault .noSuchObject
  else
    let s := advance t s
    let s := onLane (fun l => { l with signals := k :: l.signals.filter (fun x => x != k) }) s
    let r := rxLane s k
    let now := s.clock.clk
    .next (if !lanesRun s || r.state ≠ .noSignal then s
      else if r.auto && decide (r.lostAt + 1000000 < now) then
        modRx k (fun r => { r.unlock .sweep now with sweepAt := now }) s
      else modRx k (fun r => { r.unlock .blockHunt now with ctleNow := if r.auto then r.ctleNow else r.code }) s)

/-- The code of the largest eye height, the lower code on a tie (R138). -/
def bestEye (eyes : List Nat) : Nat :=
  ((List.range 32).foldl (fun (b : Nat × Nat) i => if b.2 < eyes.getD i 0 then (i, eyes.getD i 0) else b)
    (0, eyes.getD 0 0)).1

/-- CTLE_SWEEP_DONE (R138): after 32 dwells of 100 µs the best code is applied and the hunt starts. `eyes` holds the eye
height of each code.
Log 10 (DESIGN CHOICE, safe). -/
def execCtleSweepDone (t k : Nat) (eyes : List Nat) (s : State) : Host.Outcome State Fault Refusal :=
  if 131 < k then .fault .noSuchObject
  else
    let s := advance t s
    let r := rxLane s k
    .next (if r.state = .sweep && decide (r.sweepAt + 3200000 ≤ s.clock.clk) then
        modRx k (fun r => { r.unlock .blockHunt s.clock.clk with ctleNow := bestEye eyes }) s
      else s)

/-- The code after a tracking test: one code toward a neighbour that improves the eye by more than 5 % (R138). -/
def trackedCode (now below here above : Nat) : Nat :=
  let up := decide (now < 31) && decide (here * 105 < above * 100)
  let down := decide (0 < now) && decide (here * 105 < below * 100)
  if down && (!up || decide (above ≤ below)) then now - 1 else if up then now + 1 else now

/-- CTLE_TRACK (R138): in pennant lock without BER alarm the lane tests the neighbouring codes; the eye heights of the
lower code, the present one and the higher one are given. -/
def execCtleTrack (t k below here above : Nat) (s : State) : Host.Outcome State Fault Refusal :=
  if 131 < k then .fault .noSuchObject
  else
    let s := advance t s
    let r := rxLane s k
    .next (if r.auto && r.state = .locked && !r.ber then
        modRx k (fun r => { r with ctleNow := trackedCode r.ctleNow below here above }) s
      else s)

/-- Block lock is gained and the pennant hunt starts (R119, R127). -/
def gainBlockLock (k : Nat) (s : State) : State :=
  let s := modRx k (fun r => { r with state := .pennantHunt, winBlocks := 0, winBad := 0, berBad := 0, position := 0
                                      runGood := 0, runBad := 0 }) s
  if s.mode = .calibrate && !s.cal.lanes && lanesCalibrated s then
    calProgress (onCal (fun c => { c with lanes := true }) s)
  else s

/-- Pennant lock is gained: LANE_LOCKED with the time from hunt start (R127, Table 4.11). -/
def gainPennantLock (k : Nat) (s : State) : State :=
  let r := rxLane s k
  raise 0 1 0x1002 (lanePath k) [pack8_16 k r.ctleNow 0, w32 (s.clock.clk - r.huntAt)]
    (modRx k (fun r => { r with state := .locked, position := 0, runBad := 0 }) s)

/-- Pennant lock is lost; block lock stands (R127). -/
def losePennantLock (k : Nat) (s : State) : State :=
  raiseLockLost k 2 (laneCount k 3 1
    (laneStops k <| modRx k (fun r => { r with state := .pennantHunt, runGood := 0, runBad := 0, position := 0, huntAt := s.clock.clk }) s))

/-- R126: bytes 0 to 7 of a control block are a valid pennant. -/
def validPennant (b : List Byte) : Bool := b.length == 8 && u8 b 0 == 0xD2 && crc8 (sub b 1 6) == b.getD 7 0#8

/-- A class code of R130 is reserved. -/
def reservedClass (n : Nat) : Bool := (5 ≤ n && n ≤ 7) || (9 ≤ n && n ≤ 14)

/-- The eight class codes of a CLASS pennant. -/
def classNibbles (content : List Byte) : List Nat := (content.take 4).flatMap (fun b => [b.toNat / 16, b.toNat % 16])

/-- The content of an IDENT as LANE_RX_PEER (Table 4.7). -/
def peerWord (content : List Byte) : Word :=
  fields [(0, 14, u16 content 0), (14, 2, u16 content 0 / 0x4000), (16, 8, u8 content 2), (24, 8, u8 content 3)]

/-- A new IDENT content takes effect when two consecutive IDENT pennants carry it (R133). -/
def takeIdent (k : Nat) (content : List Byte) (s : State) : State :=
  let r := rxLane s k
  let w := peerWord content
  let s := modRx k (fun r => { r with ident := some content }) s
  if r.ident == some content && w != r.peer then
    raise 1 1 0x1004 (lanePath k) [pack8 k 0 0 0, r.peer, w] (modRx k (fun r => { r with peer := w }) s)
  else s

/-- The slot map check at a MAP pennant (R136). -/
def takeMap (k : Nat) (content : List Byte) (s : State) : State :=
  let r := rxLane s k
  let v := u16 content 0
  if !r.mapCheck || r.expectMap = 0 || v = 0 then modRx k (fun r => { r with mapDiff := 0 }) s
  else if v = r.expectMap then
    let s := modRx k (fun r => { r with mapDiff := 0, mismatch := false }) s
    if r.mismatch then raiseMismatch k 0 v s else s
  else
    let s := modRx k (fun r => { r with mapDiff := min 2 (r.mapDiff + 1) }) s
    if 2 ≤ r.mapDiff + 1 && !r.mismatch then
      raiseMismatch k 1 v (laneCount k 7 1 (modRx k (fun r => { r with mismatch := true }) (laneStops k s)))
    else s

/-- The content of a valid pennant is applied (R133). -/
def applyPennant (k : Nat) (b : List Byte) (s : State) : State :=
  let ty := u8 b 1 / 32
  let content := sub b 2 5
  let s := modRx k (fun r => { r with ensign := bitOf (u8 b 1) 4, pennants := tset r.pennants ty content }) s
  match ty with
  | 0 => takeIdent k content s
  | 1 => takeMap k content s
  | 2 | 3 => laneCount k 4 ((classNibbles content).filter reservedClass).length s
  | 5 => modRx k (fun r => { r with timeAt := s.clock.now }) s
  | _ => s

/-- A pennant block at an expected position, or in the hunt 257 blocks after the one before (R126, R127, R133). -/
def takePennant (k : Nat) (b : List Byte) (s : State) : State :=
  let r := rxLane s k
  let ty := u8 b 1 / 32
  if r.state = .locked then
    if validPennant b then applyPennant k b (modRx k (fun r => { r with runBad := 0, lastType := ty }) s)
    else
      let s := laneCount k 2 1 (modRx k (fun r => { r with runBad := r.runBad + 1 }) s)
      if 4 ≤ r.runBad + 1 then losePennantLock k s else s
  else if r.state = .pennantHunt then
    if validPennant b then
      let n := if r.runGood ≠ 0 && ty = (r.lastType + 1) % 8 then r.runGood + 1 else 1
      let s := applyPennant k b (modRx k (fun r => { r with runGood := n, lastType := ty, position := 0 }) s)
      if 3 ≤ n then gainPennantLock k s else s
    else modRx k (fun r => { r with runGood := 0 }) s
  else s

/-- PENNANT_RECEIVED (R126, R127, R133): the eight bytes of the block at the next pennant position. -/
def execPennantReceived (t k : Nat) (bytes : List Byte) (s : State) : Host.Outcome State Fault Refusal :=
  if 131 < k then .fault .noSuchObject
  else
    let s := advance t s
    .next (if lanesRun s then takePennant k bytes s else s)

/-- An in-slot control block is in error (R127, R134). -/
def controlError (b : List Byte) : Bool :=
  let ty := u8 b 0
  if ty = 0x3C then b.drop 1 != List.replicate 7 0#8
  else if ty = 0x5A || ty = 0x66 || ty = 0x78 then crc8 (sub b 1 6) != b.getD 7 0#8
  else true

/-- A block at a data position of a lane in pennant lock (R125, R134). -/
def dataPosition (k header : Nat) (b : List Byte) (s : State) : State :=
  if header = 2 && controlError b then laneCount k 4 1 s else s

/-- A block of a lane with block lock is placed against the pennant positions (R124, R127). -/
def placeBlock (k header : Nat) (b : List Byte) (s : State) : State :=
  let r := rxLane s k
  if r.state = .locked then
    let s := modRx k (fun r => { r with position := (r.position + 1) % 257 }) s
    if r.position + 1 = 257 then takePennant k (if header = 2 then b else []) s
    else dataPosition k header b s
  else if r.state = .pennantHunt then
    if header = 2 && validPennant b then
      takePennant k b (if r.position + 1 = 257 then s else modRx k (fun r => { r with runGood := 0 }) s)
    else
      modRx k (fun r => { r with position := r.position + 1, runGood := if 257 ≤ r.position + 1 then 0 else r.runGood }) s
  else s

/-- The PRBS checker takes the 66 bits of a block with `errs` errors (R140). -/
def checkPrbs (k errs : Nat) (s : State) : State :=
  let r := rxLane s k
  if !r.prbsSync then
    let g := if errs = 0 then r.prbsGood + 66 else 0
    modRx k (fun r => { r with prbsGood := g, prbsSync := decide (64 ≤ g), winBits := 0, winErrs := 0 }) s
  else
    let bits := r.bitRest + 66
    let s := laneCount k 9 (bits / 65536) (laneCount k 8 errs s)
    let w := r.winErrs + errs
    let lost := decide (32 < w)
    let full := decide (1024 ≤ r.winBits + 66)
    modRx k (fun r => { r with
      bitRest := bits % 65536
      prbsSync := !lost
      prbsGood := 0
      winBits := if lost || full then 0 else r.winBits + 66
      winErrs := if lost || full then 0 else w }) s

/-- A block in the hunt: the first invalid header moves the position under test, 64 valid ones give lock (R119). -/
def huntBlock (k : Nat) (valid : Bool) (s : State) : State :=
  if valid then
    let g := (rxLane s k).huntGood + 1
    let s := modRx k (fun r => { r with huntGood := g }) s
    if 64 ≤ g then gainBlockLock k s else s
  else modRx k (fun r => { r with huntGood := 0, huntBit := (r.huntBit + 1) % 66 }) s

/-- Block lock is lost, and the hunt resumes at the next bit position (R119). -/
def loseBlockLock (k cause : Nat) (s : State) : State := loseLock k cause .blockHunt false s

/-- A block in block lock is counted in its window of 64 and in its 125 µs interval (R119, R121). -/
def lockedBlock (k header : Nat) (b : List Byte) (valid : Bool) (s : State) : State :=
  let r := rxLane s k
  let bad := r.winBad + (if valid then 0 else 1)
  let s := if valid then s else laneCount k 0 1 s
  let s := modRx k (fun r => { r with
    winBlocks := if 64 ≤ r.winBlocks + 1 then 0 else r.winBlocks + 1
    winBad := if 64 ≤ r.winBlocks + 1 then 0 else bad
    berBad := r.berBad + (if valid then 0 else 1) }) s
  if 16 ≤ bad then loseBlockLock k 1 s else placeBlock k (if valid then header else 0) b s

/-- LANE_BLOCK_RECEIVED (R119, R120, R134, R140): a block with its 2-bit sync header (1 data, 2 control) and its eight
descrambled bytes; `errs` is the bit errors that a running PRBS checker finds in it.
Log 34 (DESIGN CHOICE, safe). -/
def execLaneBlockReceived (t k header : Nat) (bytes : List Byte) (errs : Nat) (s : State) :
    Host.Outcome State Fault Refusal :=
  if 131 < k then .fault .noSuchObject
  else
    let s := advance t s
    let r := rxLane s k
    let valid := header = 1 || header = 2
    .next (match r.state with
      | .test => if r.checker = 0 then s else checkPrbs k errs s
      | .blockHunt => huntBlock k valid s
      | .pennantHunt | .locked => lockedBlock k header bytes valid s
      | _ => s)

/-- BLOCK_LOCK_GAINED (R119): 64 consecutive valid headers have been found. -/
def execBlockLockGained (t k : Nat) (s : State) : Host.Outcome State Fault Refusal :=
  if 131 < k then .fault .noSuchObject
  else
    let s := advance t s
    .next (if (rxLane s k).state = .blockHunt then gainBlockLock k s else s)

/-- BLOCK_LOCK_LOST (R119): a window of 64 blocks has reached 16 invalid headers. -/
def execBlockLockLost (t k : Nat) (s : State) : Host.Outcome State Fault Refusal :=
  if 131 < k then .fault .noSuchObject
  else
    let s := advance t s
    let st := (rxLane s k).state
    .next (if st = .pennantHunt || st = .locked then loseBlockLock k 1 s else s)

/-- Raise LANE_BER_ALARM (Table 4.11). -/
def raiseBer (k state : Nat) (s : State) : State := raise 2 1 0x1003 (lanePath k) [pack8_16 k state 0] s

/-- BER_INTERVAL (R121): a 125 µs interval ends. `more` counts the invalid headers of the interval that no
LANE_BLOCK_RECEIVED itemised. -/
def execBerInterval (t k more : Nat) (s : State) : Host.Outcome State Fault Refusal :=
  if 131 < k then .fault .noSuchObject
  else
    let s := advance t s
    let r := rxLane s k
    .next (if r.state = .pennantHunt || r.state = .locked then
        let n := r.berBad + more
        let s := laneCount k 0 more s
        let s := modRx k (fun r => { r with berBad := 0, recent := (n :: r.recent).take 8, ber := decide (16 ≤ n) }) s
        if 16 ≤ n && !r.ber then raiseBer k 1 (laneCount k 5 1 s)
        else if n < 16 && r.ber then raiseBer k 0 s
        else s
      else s)

/-- RX_FIFO_OVERFLOW (R123): a loss of block lock with cause FIFO overflow. -/
def execRxFifoOverflow (t k : Nat) (s : State) : Host.Outcome State Fault Refusal :=
  if 131 < k then .fault .noSuchObject
  else
    let s := advance t s
    let st := (rxLane s k).state
    .next (if st = .pennantHunt || st = .locked then loseBlockLock k 3 s else s)

/-- PENNANT_LOCK_GAINED (R127): three valid pennants in succession have been found. -/
def execPennantLockGained (t k : Nat) (s : State) : Host.Outcome State Fault Refusal :=
  if 131 < k then .fault .noSuchObject
  else
    let s := advance t s
    .next (if (rxLane s k).state = .pennantHunt then gainPennantLock k s else s)

/-- PENNANT_LOCK_LOST (R127): four consecutive expected pennants have failed. -/
def execPennantLockLost (t k : Nat) (s : State) : Host.Outcome State Fault Refusal :=
  if 131 < k then .fault .noSuchObject
  else
    let s := advance t s
    .next (if (rxLane s k).state = .locked then losePennantLock k s else s)

/-- The receive lane of the same number as HEALTH reports it (Table 4.2). -/
def healthContent (s : State) (k : Nat) : List Byte :=
  let r := rxLane s k
  let block := r.state == .pennantHunt || r.state == .locked
  beBytes 1 (bit block * 128 + bit (r.state == .locked) * 64 + bit r.ber * 32 + s.mode.code * 4
      + bit (s.tim.time.state == .locked) * 2)
    ++ beBytes 2 (min 0xFFFF (r.recent.foldl (· + ·) 0)) ++ beBytes 2 0

/-- Four bytes of class codes, the first in the high nibble (Table 4.2). -/
def classBytes (cs : List Nat) : List Byte :=
  (List.range 4).map (fun i => b8 (cs.getD (2 * i) 0 % 16 * 16 + cs.getD (2 * i + 1) 0 % 16))

/-- The slots that carry a flow, bit `s` for slot `s` (Table 4.2, R130). -/
def occupancy (cs : List Nat) : Nat :=
  (List.range 16).foldl (fun a i => let n := cs.getD i 0; a + (if n ≠ 0 && n ≠ 0xF then 2 ^ i else 0)) 0

/-- Bytes 2 to 6 of a pennant (Table 4.2); in CALIBRATE the map is all idle fill (R131). -/
def pennantContent (s : State) (k ty : Nat) : List Byte :=
  let x := txLane s k
  let cal := s.mode = .calibrate
  let ver := if cal then 0 else x.sentVersion
  let cls := if cal then List.replicate 16 0xF else x.sentClasses
  match ty with
  | 0 => beBytes 2 (s.start.straps.pairRole % 4 * 0x4000 + sysAddr s) ++ beBytes 1 k ++ beBytes 1 1 ++ beBytes 1 0
  | 1 => beBytes 2 ver ++ beBytes 2 (if cal then 0 else occupancy cls) ++ beBytes 1 0
  | 2 => classBytes (cls.take 8) ++ beBytes 1 (ver % 256)
  | 3 => classBytes (cls.drop 8) ++ beBytes 1 (ver % 256)
  | 4 => healthContent s k
  | 5 => beBytes 5 (s.clock.now % 0x10000000000)
  | 6 => beBytes 1 0x0F ++ beBytes 1 1 ++ beBytes 3 0
  | _ => beBytes 4 x.tag ++ beBytes 1 0

/-- The ensign that a pennant starting now carries: a change counts from 100 ns after it (R131).
Log 35 (DEDUCED, safe). -/
def ensignNow (s : State) : Bool := if s.lane.ensAt + 100 ≤ s.clock.clk then s.lane.ensign else !s.lane.ensign

/-- A transmit lane sends pennant frames: it is enabled, the mode lets it, and no generator or far-end loop drives it
(R140, R141, R144). -/
def sendsPennants (s : State) (k : Nat) : Bool :=
  let x := txLane s k
  lanesRun s && x.enable && x.gen == 0 && !x.far

/-- PENNANT_TRANSMIT (R129, R131, R137): a transmit lane starts its next pennant frame. -/
def execPennantTransmit (t k : Nat) (s : State) : Host.Outcome State Fault Refusal :=
  if 131 < k then .fault .noSuchObject
  else
    let s := advance t s
    .next (if !sendsPennants s k then s
      else
        let ty := (txLane s k).frame % 8
        let s := modTx k (fun x => { x with
          bunting := if ty = 0 && x.frame ≠ 0 then (x.bunting + 1) % 16 else x.bunting
          sentVersion := if ty = 1 then x.mapVersion else x.sentVersion
          sentClasses := if ty = 1 then x.classes else x.sentClasses }) s
        let x := txLane s k
        let body := beBytes 1 (ty * 32 + bit (ensignNow s) * 16 + x.bunting % 16) ++ pennantContent s k ty
        let crc := if x.badCrc then crc8 body ^^^ 0xFF#8 else crc8 body
        emit (.pennant s.clock.clk k (ensignNow s) ty ([0xD2#8] ++ body ++ [crc]))
          (modTx k (fun x => { x with frame := x.frame + 1, badCrc := false }) s))

end Sys2Proof.Machine
end

