-- ==== Sys2Proof/Machine/FlowRead.lean ====
section
/-! DEFINITION. The flow engines' frame path (R161 to R183): frames and parcels as copies deliver them, the synchroniser
ring, read-out and aligned groups. -/

namespace Sys2Proof.Machine

/-- Raise a flow event with the path of the source's cell (R196). -/
def raiseSrc (sev code n : Nat) (payload : List Word) (s : State) : State := raise sev 2 code (pathCell n) payload s

/-- The frame bytes received of a copy's frame in hand are judged as it ends (R162): short or long frames of a copy that
leads or has joined are counted and reported.
Log 37 (DEDUCED, safe). -/
def judgeSize (n c : Nat) (s : State) : State :=
  let x := srcOf s n
  let y := x.copy c
  match y.inFrame with
  | none => s
  | some q =>
    let want := frameBytes x.format
    if !y.taking || y.bytes = want then s
    else
      let kind := if y.bytes < want then 0 else 1
      let s := if kind = 0 then modBuf n q (fun b => if b.lead = c && !b.joined then { b with short := true } else b) s
        else s
      raiseSrc 2 0x2021 n [pack16_8 n c kind, w32 q, w32 y.bytes] (srcCount n (5 + kind) 1 s)

/-- A LOST copy that joins or leads is restored by its second such frame in succession (R170). -/
def copyTook (n c : Nat) (s : State) : State :=
  let y := (srcOf s n).copy c
  let back := y.lost && decide (2 ≤ y.runGood + 1)
  let s := modSrc n (fun x => x.setCopy c (fun y => { y with
    runGood := y.runGood + 1, lastAt := s.clock.clk, late := false, lost := y.lost && !back })) s
  if back then raiseSrc 1 0x2011 n [pack16_8 n c 0] s else s

/-- A FRAME_START that names a closed frame, or comes after the merge window, is late (R167). -/
def copyLate (n c : Nat) (s : State) : State :=
  srcCount n 8 1 (modSrc n (fun x => x.setCopy c (fun y => { y with late := true, runGood := 0, taking := false })) s)

/-- φ of R174 in lines: the time from the plane's frame start, as a signed number of lines within half a frame. -/
def phaseLines (s : State) (plane code : Nat) : Int :=
  match (planeOf s plane).last with
  | none => 0
  | some f =>
    let (num, den) := codeRate code
    let p : Int := den * 1000000000
    let x : Int := (((s.clock.now : Int) - f) * num) % p
    let x := if p < 2 * x then x - p else x
    x * frameLines code / p

/-- A frame is timed when φ lies in the pass-through window (R174). -/
def isTimed (s : State) (plane : Nat) (phi : Int) : Bool :=
  let w := flowTp s plane
  decide ((w.outDelay : Int) - w.ptSpan ≤ phi) && decide (phi ≤ (w.outDelay : Int) - 2)

/-- Every member of a source's group meets the conditions of pass-through (R182). -/
def groupTimed (s : State) (n : Nat) : Bool :=
  match (srcOf s n).group with
  | none => true
  | some g => ((tget ⟨[], []⟩ s.flow.groups g).members).all
      (fun m => let x := srcOf s m; x.cfg.ptAllow && decide (8 ≤ x.timedRun))

/-- The phase of a led frame enters or ends timed pass-through (R174).
Log 39 (DEDUCED, safe). -/
def takePhase (n : Nat) (s : State) : State :=
  let x := srcOf s n
  let phi := phaseLines s x.plane x.format
  let timed := isTimed s x.plane phi
  let run := if !timed then 0 else if x.timedRun = 0 || decide ((phi - x.phi).natAbs ≤ 1) then x.timedRun + 1 else 1
  let s := modSrc n (fun x => { x with phi := phi, timedRun := run }) s
  if x.phase = 3 && x.cfg.ptAllow && decide (8 ≤ run) && groupTimed s n then setSrcPhase n 2 s
  else if x.phase = 2 && !timed then setSrcPhase n 3 s
  else s

/-- The complete unread frames of a ring, newest first (R176).
Log 39 (DEDUCED, safe). -/
def unreadComplete (x : Src) : List FrameBuf := (x.bufs.filter (fun b => b.closed && !b.short && !b.read)).reverse

/-- The ring takes a new frame into the buffer that is neither being read nor holding the newest complete unread frame;
a complete unread frame there is dropped (R176). -/
def assignBuffer (n : Nat) (b : FrameBuf) (s : State) : State :=
  let x := srcOf s n
  let newest := (unreadComplete x).head?.map (·.seq)
  let free := x.bufs.filter (fun y => !(x.everRead && y.seq == x.lastRead) && newest != some y.seq)
  if x.bufs.length < 3 then
    let slot := ((List.range 3).find? (fun i => !x.bufs.any (fun y => y.slot == i))).getD 0
    modSrc n (fun x => { x with bufs := x.bufs ++ [{ b with slot := slot }] }) s
  else match free with
    | [] => s
    | y :: _ =>
      let s := if y.closed && !y.short && !y.read then srcCount n 1 1 s else s
      modSrc n (fun x => { x with bufs := x.bufs.filter (fun z => z.slot != y.slot) ++ [{ b with slot := y.slot }] }) s

/-- Adoption by R165 of the format of a led frame: the new source, and whether the frame is accepted.
Log 37 (DEDUCED, safe). -/
def adopt (n code : Nat) (s : State) : State × Bool :=
  let x := srcOf s n
  if code = x.format then (modSrc n (fun x => { x with adoptCount := 0 }) s, true)
  else
    let k := if x.adoptCount ≠ 0 && code = x.adoptCode then x.adoptCount + 1 else 1
    let s := modSrc n (fun x => { x with adoptCode := code, adoptCount := k }) s
    if k < 3 then (s, false)
    else
      let s := modSrc n (fun x => { x with format := code, adoptCount := 0, bufs := [], timedRun := 0 }) s
      let s := raiseSrc 1 0x2004 n [pack16_8 n x.format code] s
      if formatOver s n code then (failSource n 1 (modSrc n (fun x => { x with fmtOver := true }) s), true)
      else if x.fmtOver then (setSrcPhase n 4 (modSrc n (fun x => { x with fmtOver := false, newRun := 0 }) s), true)
      else (s, true)

/-- The offsets of a group, formed from the frames that its members last led: frames within a quarter of a frame period
match (R181). A member without a matching frame leaves the offsets open.
Log 40 (DEDUCED, safe). -/
def formBases (s : State) (members : List Nat) : List (Option Nat) :=
  match members with
  | [] => []
  | m :: _ =>
    match (srcOf s m).recent.head? with
    | none => members.map (fun _ => none)
    | some (q0, _, t0) =>
      let quarter := framePeriod (srcOf s m).format / 4
      let bs := members.map (fun k => ((srcOf s k).recent.find?
        (fun r => decide (r.2.2 ≤ t0 + quarter) && decide (t0 ≤ r.2.2 + quarter))).map
          (fun r => (r.1 + 0x100000000 - q0) % 0x100000000))
      if bs.all (·.isSome) then bs else members.map (fun _ => none)

/-- A member's frame that arrives more than a quarter of a frame period from another member's frame of the same number
makes the group form its offsets again (R181).
Log 40 (DEDUCED, safe). -/
def groupArrival (n seq : Nat) (s : State) : State :=
  match (srcOf s n).group with
  | none => s
  | some g =>
    let gr := tget ⟨[], []⟩ s.flow.groups g
    let at_ := s.clock.clk
    let quarter := framePeriod (srcOf s n).format / 4
    let own := ((gr.members.zip gr.bases).find? (fun p => p.1 == n)).bind (·.2)
    match own with
    | none => onFlow (fun w => { w with groups := tset w.groups g { gr with bases := formBases s gr.members } }) s
    | some b =>
      let num := (seq + 0x100000000 - b) % 0x100000000
      let apart := (gr.members.zip gr.bases).any (fun p => p.1 != n && match p.2 with
        | some b' => (srcOf s p.1).recent.any (fun r => r.1 == (num + b') % 0x100000000
            && (decide (r.2.2 + quarter < at_) || decide (at_ + quarter < r.2.2)))
        | none => false)
      if apart then
        let low := gr.members.foldl min 1023
        raise 1 2 0x2030 (pathCell low) [pack8 g 1 0 0]
          (onFlow (fun w => { w with groups := tset w.groups g { gr with bases := formBases s gr.members } }) s)
      else s

/-- A copy leads a new frame (R165, R167, R176). -/
def leadFrame (n c seq code : Nat) (marked : Bool) (s : State) : State :=
  let s := copyTook n c (modSrc n (fun x => { (x.setCopy c (fun y => { y with taking := true })) with
    lead := c - 1, recent := ((seq, c, s.clock.clk) :: x.recent).take 8 }) s)
  let r := adopt n code s
  if !r.2 then modSrc n (fun x => x.setCopy c (fun y => { y with taking := false })) r.1
  else
    let s := r.1
    if (srcOf s n).fmtOver then modSrc n (fun x => x.setCopy c (fun y => { y with taking := false })) s
    else
      let s := takePhase n s
      let s := assignBuffer n { seq := seq, slot := 0, lead := c, leadAt := s.clock.clk, marked := marked
                                phi := (srcOf s n).phi } s
      groupArrival n seq s

/-- A second copy joins a frame within its merge window, and the arrival skew is measured (R167, R171). -/
def joinFrame (n c seq : Nat) (b : FrameBuf) (s : State) : State :=
  let late : Int := (s.clock.clk : Int) - b.leadAt
  let s := modSrc n (fun x => { (x.setCopy c (fun y => { y with taking := true })) with
    skew := some (if c = 2 then late else -late) }) s
  copyTook n c (modBuf n seq (fun b => { b with joined := true }) s)

/-- A FRAME_START with byte 5 bit 0 at 0 begins a frame on a copy (R162 to R167). -/
def beginFrame (n c seq code : Nat) (marked : Bool) (s : State) : State :=
  let s := copyEnds n c (judgeSize n c s)
  let y := (srcOf s n).copy c
  let s := match y.lastSeq with
    | some l =>
      let want := (l + 1) % 0x100000000
      if seq = want then s else raiseSrc 0 0x2020 n [pack16_8 n c 0, w32 want, w32 seq] (srcCount n 7 1 s)
    | none => s
  let s := modSrc n (fun x => x.setCopy c (fun y => { y with lastSeq := some seq, inFrame := some seq, bytes := 0,
                                                             taking := false })) s
  let x := srcOf s n
  match x.recent.find? (fun r => r.1 == seq && r.2.1 != c) with
  | some r =>
    match bufOf s n seq with
    | some b =>
      if !b.closed && decide (s.clock.clk ≤ r.2.2 + mergeWindow x) then joinFrame n c seq b s else copyLate n c s
    | none => copyLate n c s
  | none => leadFrame n c seq code marked s

/-- A copy of a defined source can deliver: its lane does, or its packet flow is defined (R128). -/
def copyDelivers (s : State) (n c : Nat) : Bool :=
  let d := (srcOf s n).copyDef c
  if d.kind = 1 then laneDelivers s (d.index / 16)
  else decide (d.kind = 2) && rxFlowDefined s d.index && lanesRun s

/-- The flow engine of a source works: the copy exists and delivers, and S1 does not stop the fabric (R543). -/
def flowRuns (s : State) (n c : Nat) : Bool := srcDefined s n && copyDelivers s n c && !inS1 s

/-- FLOW_FRAME_START (R162 to R167): a FRAME_START arrives on copy 1 or 2. `flags` is its byte 5, `anc` the ANC_INFO
bytes 1 to 5 that follow it, if any; `inferred` says that a control error stood in its place (R163). -/
def execFlowFrameStart (t n c seq flags format : Nat) (anc : Option (List Byte)) (inferred : Bool) (s : State) :
    Host.Outcome State Fault Refusal :=
  if 1023 < n || c < 1 || 2 < c then .fault .noSuchObject
  else
    let s := advance t s
    .next (if !flowRuns s n c then s
      else if inferred then
        let y := (srcOf s n).copy c
        if y.bytes = frameBytes (srcOf s n).format then
          beginFrame n c ((y.lastSeq.getD 0 + 1) % 0x100000000) (srcOf s n).format true s
        else s
      else if flags.testBit 0 then s
      else
        let s := beginFrame n c (seq % 0x100000000) format false s
        match anc with
        | some a => modSrc n (fun x => { x with anc := a.take 5 ++ List.replicate (5 - a.length) 0#8 }) s
        | none => s)

/-- What the merge makes of a run of arriving parcels beside held ones (R168): the runs, the runs written, the parcels
repaired, and those in disagreement with the copy kept. -/
structure MergeResult where
  runs   : List ParcelRun := []
  wrote  : List (Nat × Nat) := []
  repairs : Nat := 0
  differ : List (Nat × Nat × Nat) := []
deriving DecidableEq, Repr

/-- Put a run before a result. -/
def MergeResult.keep (r : ParcelRun) (m : MergeResult) : MergeResult := { m with runs := r :: m.runs }

/-- The decision of R168 for parcels that are held: `h` held, `a` arriving, over the same parcels. `prefers` says that the
arriving copy carries the ensign and the held one does not, and that no read has started. -/
def mergeSame (prefers : Nat → Bool) (h a : ParcelRun) (m : MergeResult) : MergeResult :=
  if !h.clean && a.clean then
    { m with runs := a :: m.runs, wrote := (a.first, a.count) :: m.wrote, repairs := m.repairs + a.count }
  else if h.clean && a.clean && h.crc != a.crc then
    if prefers h.copy then
      { m with runs := a :: m.runs, wrote := (a.first, a.count) :: m.wrote, differ := (a.first, a.count, a.copy) :: m.differ }
    else { m with runs := h :: m.runs, differ := (a.first, a.count, h.copy) :: m.differ }
  else m.keep h

/-- Merge an arriving run into the held runs, in order of parcels. `fuel` bounds the pieces.
Log 45 (DESIGN CHOICE, safe). -/
def mergeRuns (prefers : Nat → Bool) : Nat → List ParcelRun → ParcelRun → MergeResult
  | 0, rs, _ => { runs := rs }
  | _ + 1, [], a => { runs := [a], wrote := [(a.first, a.count)] }
  | fuel + 1, h :: rs, a =>
    if a.count = 0 then { runs := h :: rs }
    else if h.first + h.count ≤ a.first then (mergeRuns prefers fuel rs a).keep h
    else if a.first + a.count ≤ h.first then { runs := a :: h :: rs, wrote := [(a.first, a.count)] }
    else if a.first < h.first then
      let k := h.first - a.first
      let m := mergeRuns prefers fuel (h :: rs) { a with first := h.first, count := a.count - k }
      { m with runs := { a with count := k } :: m.runs, wrote := (a.first, k) :: m.wrote }
    else if h.first < a.first then
      let k := a.first - h.first
      (mergeRuns prefers fuel ({ h with first := a.first, count := h.count - k } :: rs) a).keep { h with count := k }
    else
      let k := min h.count a.count
      let rest := if h.count = k then rs else { h with first := h.first + k, count := h.count - k } :: rs
      let m := if a.count = k then { runs := rest }
        else mergeRuns prefers fuel rest { a with first := a.first + k, count := a.count - k }
      mergeSame prefers { h with count := k } { a with count := k } m

/-- The ensign of a copy of a source (R168). -/
def copyEnsign (s : State) (n c : Nat) : Bool :=
  let d := (srcOf s n).copyDef c
  if d.kind = 1 then (rxLane s (d.index / 16)).ensign else if d.kind = 2 then rxFlowEnsign s d.index else false

/-- Write the bytes of parcels into the ring (R168, R266). -/
def writeParcels (n slot : Nat) (data : List Byte) (runs : List (Nat × Nat)) (s : State) : State :=
  runs.foldl (fun s r => (List.range r.2).foldl (fun s i =>
    let x := srcOf s n
    let off := (r.1 + i) * 256
    zoneWrite 0 (unitAt x.ring (slot * x.units + off / 65536)) (off % 65536) data s) s) s

/-- In pass-through a parcel that comes after it was due for reading was replaced from the previous frame: the frame
counts as tainted, and the source is synchronised from the next read-out point (R175). -/
def lateInPassThrough (n : Nat) (b : FrameBuf) (first : Nat) (s : State) : State :=
  let x := srcOf s n
  match b.readAt with
  | some r =>
    let due := r + first * framePeriod x.format / max 1 (parcelCount x.format)
    if due < s.clock.clk && !x.ptBroken then
      srcCount n 4 1 (modSrc n (fun x => { x with ptBroken := true, outTainted := true }) s)
    else s
  | none => s

/-- Parcels of a frame that a copy takes are merged into the ring (R168).
Log 38 (DEDUCED, safe). -/
def takeParcels (n c seq first count : Nat) (data : List Byte) (clean : Bool) (s : State) : State :=
  match bufOf s n seq with
  | none => s
  | some b =>
    if b.closed then s
    else
      let s := lateInPassThrough n b first s
      let prefers := fun held => copyEnsign s n c && !copyEnsign s n held && b.readAt.isNone && !b.read
      let a : ParcelRun := { first := first, count := count, clean := clean, crc := crc32 data, copy := c }
      let m := mergeRuns prefers (2 * b.parcels.length + 2) b.parcels a
      let s := modBuf n seq (fun b => { b with parcels := m.runs }) s
      let s := writeParcels n b.slot data m.wrote s
      let s := if m.repairs = 0 then s else srcCount n 3 m.repairs s
      let s := m.differ.foldl (fun s d => (List.range d.2.1).foldl (fun s i =>
        raiseSrc 3 0x2013 n [pack16_8 n d.2.2 0, w32 seq, w32 (d.1 + i)] (srcCount n 9 1 s)) s) s
      closeIfDone n seq s

/-- FLOW_PARCEL (R166, R168): parcel `first`, or `count` parcels alike from it on, of the frame that a copy is sending,
with its bytes, whether every byte has good parity, and the CRC of its PARCEL_CHECK (none when it is missing or a
control error). Bytes beyond the frame bytes are discarded (R162).
Log 45 (DESIGN CHOICE, safe). -/
def execFlowParcel (t n c first count : Nat) (data : List Byte) (parity : Bool) (check : Option Word) (s : State) :
    Host.Outcome State Fault Refusal :=
  if 1023 < n || c < 1 || 2 < c then .fault .noSuchObject
  else
    let s := advance t s
    let y := (srcOf s n).copy c
    .next (match y.inFrame with
      | none => s
      | some q =>
        if !flowRuns s n c then s
        else
          let s := modSrc n (fun x => x.setCopy c (fun y => { y with bytes := y.bytes + count * data.length })) s
          let inside := min count (parcelCount (srcOf s n).format - first)
          if y.taking && inside ≠ 0 then
            takeParcels n c q first inside data (parity && check == some (crc32 data)) s
          else s)

/-- MERGE_WINDOW_EXPIRED (R167, R169): the merge window of a frame ends.
Log 7 (DESIGN CHOICE, safe). -/
def execMergeWindowExpired (t n seq : Nat) (s : State) : Host.Outcome State Fault Refusal :=
  if 1023 < n then .fault .noSuchObject
  else
    let s := advance t s
    .next (match bufOf s n seq with
      | some b => if b.leadAt + mergeWindow (srcOf s n) ≤ s.clock.clk then closeIfDone n seq s else s
      | none => s)

/-- COPY_LOST (R170): a copy has led or joined no frame for 2 frame periods and the merge window.
Log 44 (DEDUCED, safe). -/
def execCopyLost (t n c : Nat) (s : State) : Host.Outcome State Fault Refusal :=
  if 1023 < n || c < 1 || 2 < c then .fault .noSuchObject
  else
    let s := advance t s
    let x := srcOf s n
    let y := x.copy c
    .next (if x.def_.isNone || (x.copyDef c).kind = 0 || y.lost
          || s.clock.clk < y.lastAt + 2 * framePeriod x.format + mergeWindow x then s
      else
        raiseSrc 2 0x2010 n [pack16_8 n c (bit y.late)]
          (modSrc n (fun x => x.setCopy c (fun y => { y with lost := true, runGood := 0 })) s))

/-- The frames that a source may read at a read-out point, newest first (R176). -/
def candidates (x : Src) : List FrameBuf :=
  (unreadComplete x).filter (fun b => !(x.cfg.taintRepeat && b.tainted))

/-- A read-out point that reads no new frame (R176, R183). A source that waits for its first frame counts no repeat. -/
def readRepeat (n : Nat) (s : State) : State :=
  let x := srcOf s n
  let s := if x.phase = 1 || !x.everRead then s else srcCount n 2 1 s
  let s := modSrc n (fun x => { x with run := x.run + 1, newRun := 0, repeated := true
                                       failedFor := if x.phase = 4 || x.phase = 5 then x.failedFor + 1 else x.failedFor }) s
  let s := if x.phase = 2 then setSrcPhase n 3 s else s
  let x := srcOf s n
  if x.cfg.hold ≤ x.run && (x.phase = 1 || x.phase = 2 || x.phase = 3) then failSource n 0 s else s

/-- A new frame has been read: a waiting source is synchronised, and a FAILED one is restored by its second new frame in
succession (R183). -/
def afterNewFrame (n : Nat) (s : State) : State :=
  let x := srcOf s n
  if x.phase = 1 then setSrcPhase n 3 s
  else if x.phase = 4 && 2 ≤ x.newRun then
    raiseSrc 1 0x2003 n [pack16 n 0, w32 x.failedFor] (modSrc n (fun x => { x with failedFor := 0 }) (setSrcPhase n 3 s))
  else s

/-- Read the frame of a sequence: older unread frames are dropped, everything up to it is read (R176). -/
def readFrame (n seq : Nat) (s : State) : State :=
  let x := srcOf s n
  let i := (x.bufs.findIdx? (fun b => b.seq == seq)).getD 0
  let older := ((x.bufs.take i).filter (fun b => b.closed && !b.short && !b.read)).length
  let tainted := (x.bufs[i]?.map (·.tainted)).getD false
  let s := srcCount n 0 1 (if older = 0 then s else srcCount n 1 older s)
  let s := modSrc n (fun x => { x with
    bufs := (x.bufs.take (i + 1)).map (fun b => { b with read := true }) ++ x.bufs.drop (i + 1)
    lastRead := seq, everRead := true, repeated := false, outTainted := tainted, readFormat := x.format
    run := 0, newRun := x.newRun + 1, failedFor := if x.phase = 4 then x.failedFor + 1 else x.failedFor }) s
  afterNewFrame n s

/-- The read-out of a source in pass-through: the frame being written (R175). -/
def readThrough (n : Nat) (s : State) : State :=
  let x := srcOf s n
  if x.ptBroken then
    setSrcPhase n 3 (modSrc n (fun x => { x with ptBroken := false, timedRun := 0 }) s)
  else s

/-- A read-out choice is missed: the source repeats its last frame, counted in RED_CNT index 8, and the third in a row is
reported (R178, R467). -/
def missChoice (n : Nat) (s : State) : State :=
  let k := tget 0 s.red.missed n + 1
  let s := onRed (fun r => { r with missed := tset r.missed n k, missTimes := tset r.missTimes n s.clock.clk
                                    cnt := bump r.cnt 8 }) s
  let s := if k = 3 then raise 3 10 0xA030 0 [pack8_16 2 0 n, w32 (planeCount s (srcOf s n).plane (srcOf s n).format)] s
    else s
  readRepeat n s

/-- Read what the sequencer chose for a source (R178, R467): the frame last read again, a frame that is complete in the
ring, or, in pass-through, the frame that is being written; any other choice is missed. -/
def readChosen (n seq : Nat) (through : Bool) (s : State) : State :=
  let x := srcOf s n
  let again := onRed (fun r => { r with missed := tdel r.missed n })
  match bufOf s n seq with
  | some b =>
    if b.read then (if seq = x.lastRead then readRepeat n (again s) else missChoice n s)
    else if b.closed && !b.short then readFrame n seq (again s)
    else if through && !b.closed then
      readFrame n seq (modBuf n seq (fun b => { b with readAt := some s.clock.clk }) (again s))
    else missChoice n s
  | none => if seq = x.lastRead then readRepeat n (again s) else missChoice n s

/-- The source's own choice at its read-out point (R175, R176). -/
def readOwn (n : Nat) (s : State) : State :=
  let s := if (srcOf s n).phase = 2 then readThrough n s else s
  let x := srcOf s n
  if x.phase = 2 then
    match x.bufs.getLast? with
    | some b =>
      if b.read then readRepeat n s
      else readFrame n b.seq (modBuf n b.seq (fun b => { b with readAt := some s.clock.clk }) s)
    | none => readRepeat n s
  else match candidates x with
    | b :: _ => readFrame n b.seq s
    | [] => readRepeat n s

/-- The group frames that every member holds complete, unread and eligible (R182). -/
def groupCommon (s : State) (gr : Group) : List Nat :=
  let nums := fun (p : Nat × Option Nat) => match p.2 with
    | some b => (candidates (srcOf s p.1)).map (fun (f : FrameBuf) => (f.seq + 0x100000000 - b) % 0x100000000)
    | none => []
  match gr.members.zip gr.bases with
  | [] => []
  | p :: ps => (nums p).filter (fun g => ps.all (fun q => (nums q).contains g))

/-- The members that lack a frame, as bits in the order of the group (R182). -/
def groupLacking (s : State) (gr : Group) : Nat :=
  (List.range gr.members.length).foldl (fun a i =>
    if (candidates (srcOf s (gr.members.getD i 0))).isEmpty then a + 2 ^ i else a) 0

/-- The members of a group read together (R182). -/
def readGroup (g : Nat) (s : State) : State :=
  let gr := tget ⟨[], []⟩ s.flow.groups g
  if gr.members.all (fun m => (srcOf s m).phase = 2) then gr.members.foldl (fun s m => readOwn m s) s
  else
    match groupCommon s gr with
    | [] =>
      let low := gr.members.foldl min 1023
      let s := gr.members.foldl (fun s m => readRepeat m s) s
      raise 2 2 0x2031 (pathCell low) [pack8_16 g (groupLacking s gr) 0] s
    | c :: cs =>
      let best := cs.foldl (fun a x => if (x + 0x100000000 - a) % 0x100000000 < 0x80000000 then x else a) c
      (gr.members.zip gr.bases).foldl (fun s p => readFrame p.1 ((best + p.2.getD 0) % 0x100000000) s) s

/-- A write of FLOW_SRC_CFG takes effect at a read-out point (R194). -/
def applyCfg (n : Nat) (s : State) : State :=
  match (srcOf s n).cfgNext with
  | none => s
  | some c =>
    let s := modSrc n (fun x => { x with cfg := c, cfgNext := none }) s
    if !c.ptAllow && (srcOf s n).phase = 2 then setSrcPhase n 3 s else s

/-- Take the choice that stands for a source. -/
def takeChoice (n : Nat) (s : State) : State := onRed (fun r => { r with choices := tdel r.choices n }) s

/-- What a source reads at its read-out point. A follower reads what the sequencer chose (R178); a sequencer in step reads
what it decided and sent (R467). -/
def readSource (n : Nat) (s : State) : State :=
  let told := if follows s || (leads s && (srcOf s n).phase != 2) then tfind s.red.choices n else none
  if (srcOf s n).fmtOver then readRepeat n s
  else if cellDown s n then readRepeat n s
  else match told with
  | some ch => readChosen n ch.1 ch.2 (takeChoice n s)
  | none =>
  if follows s then missChoice n s
  else match (srcOf s n).group with
    | some g =>
      if ((tget ⟨[], []⟩ s.flow.groups g).members).head? = some n then readGroup g s else s
    | none => readOwn n s

end Sys2Proof.Machine
end

