-- ==== Sys2Proof/Machine/FlowDef.lean ====
section
/-! DEFINITION. Admission, and the definition, deletion and query of flows (R157 to R160, R184 to R195). -/

namespace Sys2Proof.Machine

/-- FLOW_SRC_CFG as a word (Table 5.6). -/
def srcCfgWord (c : SrcCfg) : Word :=
  fields [(0, 10, c.hold), (10, 4, c.window), (14, 1, bit c.taintRepeat), (15, 1, bit c.ptAllow)]

/-- FLOW_SRC_CFG of a source: the value stored, which takes effect at the next read-out point (R194, R532).
Log 32 (DEDUCED, safe). -/
def regSrcCfg (s : State) (n : Nat) : Word := srcCfgWord ((srcOf s n).cfgNext.getD (srcOf s n).cfg)

/-- FLOW_SRC_STATUS (Table 5.7). -/
def regSrcStatus (s : State) (n : Nat) : Word :=
  let x := srcOf s n
  let phi := if x.phi < -128 then -128 else if 127 < x.phi then 127 else x.phi
  fields [(0, 3, x.phase), (3, 1, bit x.twoCopies), (4, 1, bit x.c1.lost), (5, 1, bit x.c2.lost), (6, 1, x.lead),
    (7, 1, bit x.group.isSome), (8, 3, x.plane), (16, 8, x.format), (24, 8, unsignedOf 8 phi)]

/-- FLOW_SRC_SKEW (Table 5.8). -/
def regSrcSkew (s : State) (n : Nat) : Word :=
  match (srcOf s n).skew with
  | some d => w32 (unsignedOf 32 d)
  | none => 0x80000000#32

/-- FLOW_DST_STATUS (Table 5.11). -/
def regDstStatus (s : State) (d : Nat) : Word :=
  let x := dstOf s d
  let sel := (tget {} s.xpt.dst d).selected
  fields [(0, 2, x.shown), (2, 2, x.parkType), (4, 4, if x.shown = 2 && x.fallback.isSome then 4 else x.cause),
    (16, 11, sel.getD 0x7FF)]

/-- FLOW_TP_CFG of a plane (Table 5.12). -/
def regFlowTp (s : State) (p : Nat) : Word := fields [(0, 6, (flowTp s p).outDelay), (8, 7, (flowTp s p).ptSpan)]

/-- A write of FLOW_SRC_CFG, clamped, waits for the next read-out point (Table 5.6, R194).
Log 33 (DEDUCED, safe). -/
def writeSrcCfg (n v : Nat) (s : State) : State :=
  modSrc n (fun x => { x with cfgNext := some {
    hold := clampNat 1 1000 (bitsOf v 9 0), window := clampNat 1 8 (bitsOf v 13 10)
    taintRepeat := v.testBit 14, ptAllow := v.testBit 15 } }) s

/-- A source or destination is defined on a plane (R195, R207). -/
def flowOnPlane (s : State) (p : Nat) : Bool :=
  s.flow.src.any (fun x => x.2.def_.any (fun d => d.plane == p) || x.2.redef.any (fun d => d.1.plane == p))
    || s.flow.dst.any (fun x => x.2.def_.any (fun d => d.plane == p) || x.2.redef.any (fun d => d.plane == p))

/-- A write of FLOW_TP_CFG (Table 5.12): frozen by LOCK_CONFIG, and without effect while anything is defined on the
plane (R8, R195). -/
def writeFlowTp (p v : Nat) (s : State) : State :=
  if s.host.locked || flowOnPlane s p then s
  else
    let x : FlowTp := { outDelay := clampNat 2 32 (bitsOf v 5 0), ptSpan := clampNat 4 64 (bitsOf v 14 8) }
    onFlow (fun w => { w with tps := tset w.tps p x }) s

/-- A descriptor of R192 with its reserved bits. -/
def descBad (w : Nat) : Bool :=
  let k := w / 0x40000000
  bitsOf w 29 12 != 0 || k == 3 || (k == 1 && decide (2047 < bitsOf w 11 0)) || (k == 2 && decide (511 < bitsOf w 11 0))
    || (k == 0 && bitsOf w 11 0 != 0)

/-- The descriptor of a word. -/
def descOf (w : Nat) : CopyDef := { kind := w / 0x40000000, index := bitsOf w 11 0 }

/-- The lane slots of a descriptor. -/
def descSlots (cls : Nat) (d : CopyDef) : List Nat :=
  if d.kind = 1 then (List.range (classSlots cls)).map (· + d.index) else []

/-- A lane descriptor keeps R152 and lies on a lane of the block of cell `n` (R157, R159). -/
def laneFits (n cls : Nat) (d : CopyDef) : Bool :=
  d.kind != 1 ||
    (d.index % classSlots cls == 0 && decide (d.index % 16 + classSlots cls ≤ 16) && d.index / 32 == n / 16)

/-- The receive slots that the other sources hold (R160). -/
def rxSlotsHeld (s : State) (n : Nat) : List Nat :=
  s.flow.src.flatMap (fun p =>
    if p.1 = n then [] else
      (match p.2.def_ with | some d => descSlots d.cls d.copy1 ++ descSlots d.cls d.copy2 | none => [])
        ++ (match p.2.redef with | some r => descSlots r.1.cls r.1.copy1 ++ descSlots r.1.cls r.1.copy2 | none => []))

/-- The packet flow of a definition's copies. -/
def SrcDef.flows (d : SrcDef) : List Nat := [d.copy1, d.copy2].filterMap (fun c => if c.kind = 2 then some c.index else none)

/-- The receive flows that the other sources hold (R401). -/
def rxFlowsHeld (s : State) (n : Nat) : List Nat :=
  s.flow.src.flatMap (fun p =>
    if p.1 = n then [] else
      (match p.2.def_ with | some d => d.flows | none => []) ++ (match p.2.redef with | some r => r.1.flows | none => []))

/-- The packet flow of a destination's definition. -/
def DstDef.flows (d : DstDef) : List Nat := if d.packet.kind = 2 then [d.packet.index] else []

/-- The transmit flows that the other destinations hold (R401). -/
def txFlowsHeld (s : State) (n : Nat) : List Nat :=
  s.flow.dst.flatMap (fun p =>
    if p.1 = n then [] else
      (match p.2.def_ with | some d => d.flows | none => []) ++ (match p.2.redef with | some d => d.flows | none => []))

/-- The transmit slots that the other destinations hold (R160). -/
def txSlotsHeld (s : State) (n : Nat) : List Nat :=
  s.flow.dst.flatMap (fun p =>
    if p.1 = n then [] else
      (match p.2.def_ with | some d => descSlots d.cls d.lane | none => [])
        ++ (match p.2.redef with | some d => descSlots d.cls d.lane | none => []))

/-- The source has a lane copy (R158). -/
def SrcDef.hasLane (d : SrcDef) : Bool := d.copy1.kind == 1 || d.copy2.kind == 1

/-- The definition that a source has in the configuration that would result (R190): a deletion still counts in full. -/
def Src.resulting (x : Src) : Option SrcDef := match x.redef with | some r => some r.1 | none => x.def_

/-- The definition that a destination has in the configuration that would result. -/
def Dst.resulting (x : Dst) : Option DstDef := match x.redef with | some d => some d | none => x.def_

/-- Packet slot-equivalents in use by the other sources, as runs (R158). -/
def packetRuns (s : State) (n : Nat) : List (Nat × Nat) :=
  sortRuns (s.flow.src.flatMap (fun p =>
    if p.1 = n then [] else
      (match p.2.def_ with | some d => if d.hasLane then [] else [(d.slot, d.count)] | none => [])
        ++ (match p.2.redef with | some r => if r.1.hasLane then [] else [(r.1.slot, r.1.count)] | none => [])))

/-- The plane position of a definition: its lane copy's slots, or the lowest free run of packet slot-equivalents (R158). -/
def planePosition (s : State) (n : Nat) (d : SrcDef) : Option (Nat × Nat) :=
  let k := classSlots d.cls
  if d.copy1.kind = 1 then some (d.copy1.index, k)
  else if d.copy2.kind = 1 then some (d.copy2.index, k)
  else ((freeRuns 2560 2048 (packetRuns s n)).find? (fun r => decide (k ≤ r.2))).map (fun r => (r.1, k))

/-- The totals of Table 5.3. -/
structure Totals where
  slots  : Nat
  comp   : Nat
  ring   : Nat
  rate   : Nat
  rxPkt  : Nat
  txPkt  : Nat
deriving DecidableEq, Repr

/-- Add up a list of numbers. -/
def sumNat (l : List Nat) : Nat := l.foldl (· + ·) 0

/-- The totals over given sources and destinations and the compositors' load (R190). -/
def totalsOf (srcs : List SrcDef) (dsts : List DstDef) (compSl compEq : Nat) : Totals :=
  let sl := sumNat (srcs.map (fun d => classSlots d.cls))
  { slots := sl + compSl
    comp := compEq
    ring := sumNat (srcs.map (fun d => 3 * ((formatOf d.format).map (·.units)).getD 0))
    rate := 410 * sl
    rxPkt := sumNat (srcs.map (fun d => if d.hasLane then 0 else classSlots d.cls))
    txPkt := sumNat (dsts.map (fun d => if d.packet.kind = 2 then classSlots d.cls else 0)) }

/-- The sources of the resulting configuration but `n`. -/
def otherSrcs (s : State) (n : Nat) : List SrcDef :=
  s.flow.src.filterMap (fun p => if p.1 = n then none else p.2.resulting)
/-- The destinations of the resulting configuration but `n`. -/
def otherDsts (s : State) (n : Nat) : List DstDef :=
  s.flow.dst.filterMap (fun p => if p.1 = n then none else p.2.resulting)
/-- All sources of the resulting configuration. -/
def allSrcs (s : State) : List SrcDef := s.flow.src.filterMap (fun p => p.2.resulting)
/-- All destinations of the resulting configuration. -/
def allDsts (s : State) : List DstDef := s.flow.dst.filterMap (fun p => p.2.resulting)

/-- The limits of checks 1 and 2 at a level (Table 1.7). -/
def levelSlots (l : Nat) : Nat := [2688, 2150, 1720, 1075].getD l 1075
/-- The composed limit at a level (Table 1.7). -/
def levelComp (l : Nat) : Nat := [64, 51, 40, 25].getD l 25

/-- The units of zone Z0 that rings can have: all but those that touch a LOST bank (R265, R266). -/
def ringLimit (s : State) : Nat := ringTotal s - sumNat ((ringBlocked s).map (·.2))

/-- The number of the first check of Table 5.3 that fails at a level; contexts always suffice, since each source and
destination has its own cell. -/
def firstFailing (s : State) (level : Nat) (t : Totals) : Option Nat :=
  if levelSlots level < t.slots then some 1
  else if levelComp level < t.comp then some 2
  else if ringLimit s < t.ring then some 3
  else if 1050000 < t.rate then some 4
  else if 512 < t.rxPkt then some 5
  else if 512 < t.txPkt then some 6
  else none

/-- The level at which a definition is checked: the lower-capacity one while a change runs (R542). -/
def admitLevel (s : State) : Nat := if s.pwr.changing then max s.pwr.level s.pwr.target else s.pwr.level

/-- The refusal of a configuration that fails a check (R191). -/
def capacityRefusal (s : State) (t : Totals) : Option (Status × List Byte) :=
  (firstFailing s (admitLevel s) t).map (fun k => (.capacity, beBytes 1 k ++ beBytes 3 0))

/-- The definition that a FLOW_SRC_DEFINE carries. -/
def srcDefOf (c : HostCmd) : SrcDef :=
  { cls := u8 c.params 2, format := u8 c.params 3, plane := u8 c.params 4, copy1 := descOf (u32 c.params 12)
    copy2 := descOf (u32 c.params 16) }

/-- The format lies in the plane's family and in the class (Table 5.5). -/
def formatFits (s : State) (plane cls code : Nat) : Bool :=
  match formatOf code with
  | some f => f.cls == cls && f.family == (tpCfg s plane).family
  | none => false

/-- A format code of Table 6.4; the others are reserved (R205). -/
def formatKnown (code : Nat) : Bool := (formatOf code).isSome

/-- FLOW_SRC_DEFINE (Table 5.5).
Log 43 (DEDUCED, safe). -/
def refuseFlowSrcDefine : Refuse := fun s c =>
  let n := u16 c.params 0
  let d := srcDefOf c
  let slots := descSlots d.cls d.copy1 ++ descSlots d.cls d.copy2
  firstRefusal [needLen 20 c,
    refuseIf (decide (d.cls < 1) || decide (4 < d.cls) || !formatKnown d.format || decide (7 < d.plane)
      || decide (3 < u8 c.params 5) || decide (u8 c.params 6 < 1) || decide (8 < u8 c.params 6) || u8 c.params 7 != 0
      || decide (u16 c.params 8 < 1) || decide (1000 < u16 c.params 8) || descBad (u32 c.params 12)
      || descBad (u32 c.params 16) || d.copy1.kind == 0 || decide (1023 < n)) .badParam,
    refuseIf (!laneFits n d.cls d.copy1 || !laneFits n d.cls d.copy2
      || (d.copy1.kind == 1 && d.copy2.kind == 1 && (descSlots d.cls d.copy1).any (fun x => (descSlots d.cls d.copy2).contains x))
      || slots.any (fun x => (rxSlotsHeld s n).contains x)) .badParam,
    refuseIf ((d.copy1.kind == 2 && d.copy2.kind == 2) || (d.copy1.kind == 2 && !rxFlowDefined s d.copy1.index)
      || (d.copy2.kind == 2 && !rxFlowDefined s d.copy2.index)
      || d.flows.any (fun f => (rxFlowsHeld s n).contains f)) .badParam,
    refuseIf (!formatFits s d.plane d.cls d.format || d.flows.any (fun f => (tget {} s.eth.rx f).format != d.format))
      .formatMismatch,
    refuseIf (planePosition s n d).isNone .noResource,
    capacityRefusal s (totalsOf (d :: otherSrcs s n) (allDsts s) (compSlots s 64) (compLoad s 64))]

/-- The configuration fields that a FLOW_SRC_DEFINE carries. -/
def srcCfgOf (c : HostCmd) : SrcCfg :=
  { hold := u16 c.params 8, window := u8 c.params 6, ptAllow := bitOf (u8 c.params 5) 0
    taintRepeat := bitOf (u8 c.params 5) 1 }

/-- The Z0 units that rings hold or that cannot be used, as sorted runs. -/
def ringUsed (s : State) : List (Nat × Nat) := sortRuns (ringBlocked s ++ s.flow.src.flatMap (fun p => p.2.ring))

/-- Units for the ring of a format (R172, R266). -/
def allocRing (s : State) (code : Nat) : List (Nat × Nat) :=
  (takeUnits (3 * ((formatOf code).map (·.units)).getD 0) (freeRuns (ringTotal s) 0 (ringUsed s))).getD []

/-- A source begins with a definition: it waits for its first frame (R157, R183). Counters keep counting. -/
def installSource (n : Nat) (d : SrcDef) (g : SrcCfg) (s : State) : State :=
  let old := srcOf s n
  let fresh : Src := {
    cfg := g, def_ := some d, format := d.format, readFormat := d.format
    units := ((formatOf d.format).map (·.units)).getD 0, ring := allocRing s d.format
    c1 := { lastAt := s.clock.clk }, c2 := { lastAt := s.clock.clk }, cnt := old.cnt, phase := 0 }
  setSrcPhase n 1 (modSrc n (fun _ => fresh) s)

/-- A map version of a source definition is expected on each of its lane copies' lanes (R160). -/
def expectMap (d : SrcDef) (v : Nat) (s : State) : State :=
  if v = 0 then s
  else [d.copy1, d.copy2].foldl (fun s x =>
    if x.kind = 1 then modRx (x.index / 16) (fun r => { r with expectMap := v }) s else s) s

/-- FLOW_SRC_DEFINE: a new source is defined at once, a defined one is redefined at its next read-out point (R189).
Log 42 (DEDUCED, safe). -/
def effFlowSrcDefine : Effect := fun s c =>
  let n := u16 c.params 0
  let d0 := srcDefOf c
  let pos := (planePosition s n d0).getD (0, 0)
  let d := { d0 with slot := pos.1, count := pos.2 }
  let g := srcCfgOf c
  let s := expectMap d (u16 c.params 10) s
  let s := if srcDefined s n then modSrc n (fun x => { x with redef := some (d, g), deleting := false }) s
    else installSource n d g s
  (s, some (.ok, beBytes 2 pos.1 ++ beBytes 1 pos.2 ++ beBytes 1 0))
/-- FLOW_SRC_DEFINE (R157). -/
def execFlowSrcDefine (t : Nat) (c : HostCmd) (s : State) : Host.Outcome State Fault Refusal :=
  .next (runCommand .flowSrcDefine refuseFlowSrcDefine effFlowSrcDefine t c s)

/-- The definition that a FLOW_DST_DEFINE carries. -/
def dstDefOf (c : HostCmd) : DstDef :=
  { cls := u8 c.params 2, format := u8 c.params 3, plane := u8 c.params 4, lane := descOf (u32 c.params 8)
    packet := descOf (u32 c.params 12) }

/-- FLOW_DST_DEFINE (Table 5.5).
Log 43 (DEDUCED, safe). -/
def refuseFlowDstDefine : Refuse := fun s c =>
  let n := u16 c.params 0
  let d := dstDefOf c
  firstRefusal [needLen 16 c,
    refuseIf (decide (d.cls < 1) || decide (4 < d.cls) || !formatKnown d.format || decide (7 < d.plane)
      || u24 c.params 5 != 0 || descBad (u32 c.params 8) || descBad (u32 c.params 12)
      || d.lane.kind == 2 || d.packet.kind == 1 || (d.lane.kind == 0 && d.packet.kind == 0) || decide (1023 < n)) .badParam,
    refuseIf (!laneFits n d.cls d.lane || (descSlots d.cls d.lane).any (fun x => (txSlotsHeld s n).contains x)) .badParam,
    refuseIf (d.flows.any (fun f => !txFlowDefined s f || (txFlowsHeld s n).contains f)) .badParam,
    refuseIf (!formatFits s d.plane d.cls d.format || d.flows.any (fun f => (tget {} s.eth.tx f).cfg.format != d.format))
      .formatMismatch,
    capacityRefusal s (totalsOf (allSrcs s) (d :: otherDsts s n) (compSlots s 64) (compLoad s 64))]

/-- The class codes of a transmit lane's slots from the destinations that will hold them (R130). -/
def laneClasses (s : State) (k : Nat) : List Nat :=
  let ds := allDsts s
  (List.range 16).map (fun i =>
    let g := 16 * k + i
    match ds.find? (fun d => (descSlots d.cls d.lane).contains g) with
    | some d => if d.lane.index = g then d.cls else 8
    | none => 0)

/-- The next map version: from 0xFFFF to 1, skipping 0 (R160). -/
def nextVersion (v : Nat) : Nat := if 0xFFFF ≤ v then 1 else v + 1

/-- A transmit lane whose slots change has a new map (R137, R160). -/
def newMap (k : Nat) (s : State) : State :=
  modTx k (fun x => { x with mapVersion := nextVersion x.mapVersion, classes := laneClasses s k }) s

/-- FLOW_DST_DEFINE: a new destination is defined at once and parks for want of a source; a defined one changes its
outputs on its next switching line (R189).
Log 41 (DEDUCED, safe).
Log 42 (DEDUCED, safe). -/
def effFlowDstDefine : Effect := fun s c =>
  let n := u16 c.params 0
  let d := dstDefOf c
  let old := (dstOf s n).resulting
  let s := if (dstOf s n).def_.isSome then modDst n (fun x => { x with redef := some d, deleting := false }) s
    else modDst n (fun x => { x with def_ := some d, shown := 2, cause := 3, parkSaid := false, srcGone := false }) s
  let was := match old with | some o => descSlots o.cls o.lane | none => []
  let now := descSlots d.cls d.lane
  let lanes := ((was ++ now).map (· / 16)).eraseDups
  let s := if was = now && old.map (·.cls) = some d.cls then s else lanes.foldl (fun s k => newMap k s) s
  let v := if d.lane.kind = 1 then (txLane s (d.lane.index / 16)).mapVersion else 0
  (s, some (.ok, beBytes 2 v ++ beBytes 2 0))
/-- FLOW_DST_DEFINE (R159). -/
def execFlowDstDefine (t : Nat) (c : HostCmd) (s : State) : Host.Outcome State Fault Refusal :=
  .next (runCommand .flowDstDefine refuseFlowDstDefine effFlowDstDefine t c s)

/-- FLOW_DELETE (Table 5.5); a held destination only from a SAFETY session (R346). -/
def refuseFlowDelete : Refuse := fun s c =>
  let n := u16 c.params 2
  firstRefusal [needLen 4 c,
    refuseIf (decide (1 < u8 c.params 0) || u8 c.params 1 != 0 || decide (1023 < n)) .badParam,
    refuseIf (if u8 c.params 0 = 0 then !srcDefined s n else (dstOf s n).def_.isNone) .objectInvalid,
    refuseIf (u8 c.params 0 == 1 && c.role != .safety && destHeld s n) .roleDenied]
/-- FLOW_DELETE schedules the deletion (R187, R188). -/
def effFlowDelete : Effect := fun s c =>
  let n := u16 c.params 2
  (if u8 c.params 0 = 0 then modSrc n (fun x => { x with deleting := true, redef := none }) s
   else modDst n (fun x => { x with deleting := true, redef := none }) s, some (.scheduled, []))
/-- FLOW_DELETE (R187). -/
def execFlowDelete (t : Nat) (c : HostCmd) (s : State) : Host.Outcome State Fault Refusal :=
  .next (runCommand .flowDelete refuseFlowDelete effFlowDelete t c s)

/-- A source leaves its group; a group left with one member dissolves (R187). -/
def leaveGroup (n : Nat) (s : State) : State :=
  match (srcOf s n).group with
  | none => s
  | some g =>
    let gr := tget ⟨[], []⟩ s.flow.groups g
    let low := gr.members.foldl min 1023
    let left := (gr.members.zip gr.bases).filter (fun p => p.1 != n)
    let s := modSrc n (fun x => { x with group := none }) s
    let s := raise 1 2 0x2030 (pathCell low) [pack8 g 2 0 0] s
    if left.length < 2 then
      left.foldl (fun s p => modSrc p.1 (fun x => { x with group := none }) s)
        (onFlow (fun w => { w with groups := tdel w.groups g }) s)
    else onFlow (fun w => { w with groups := tset w.groups g ⟨left.map (·.1), left.map (·.2)⟩ }) s

/-- A source is gone: its ring is freed, entries that name it are discarded with cause 2, and every destination that
selects it will park (R187). -/
def dropSource (n : Nat) (s : State) : State :=
  let s := leaveGroup n s
  let s := discardEntries (fun e => e.namesSource n) 2 s
  let s := modSrc n (fun x => { cfg := x.cfg, cnt := x.cnt }) s
  let ds := (s.xpt.dst.filter (fun p => p.2.selected == some n)).map (·.1)
  ds.foldl (fun s d => modDst d (fun x => { x with srcGone := true }) s) s

/-- SOURCE_DELETE_LANDS (R187): the deletion of a source lands at its read-out point.
Log 44 (DEDUCED, safe). -/
def landSrcDelete (n : Nat) (s : State) : State :=
  if (srcOf s n).deleting then raise 1 2 0x2005 (pathCell n) [pack8_16 0 0 n] (dropSource n s) else s
/-- SOURCE_DELETE_LANDS (R187). -/
def execSourceDeleteLands (t n : Nat) (s : State) : Host.Outcome State Fault Refusal :=
  if 1023 < n then .fault .noSuchObject else .next (landSrcDelete n (advance t s))

/-- The redefinition of a source lands (R189): with the same class, format and plane only copies and options change,
else it is a deletion followed by a new definition. -/
def landSrcRedefine (n : Nat) (s : State) : State :=
  let x := srcOf s n
  match x.redef, x.def_ with
  | some (d, g), some old =>
    if d.cls = old.cls && d.format = old.format && d.plane = old.plane then
      let s := modSrc n (fun x => { x with
        def_ := some d, cfg := g, cfgNext := none, redef := none
        c1 := if d.copy1 = old.copy1 then x.c1 else { lastAt := s.clock.clk }
        c2 := if d.copy2 = old.copy2 then x.c2 else { lastAt := s.clock.clk } }) s
      if !g.ptAllow && (srcOf s n).phase = 2 then setSrcPhase n 3 s else s
    else installSource n d g (dropSource n s)
  | _, _ => s
/-- SOURCE_REDEFINE_LANDS (R189). -/
def execSourceRedefineLands (t n : Nat) (s : State) : Host.Outcome State Fault Refusal :=
  if 1023 < n then .fault .noSuchObject else .next (landSrcRedefine n (advance t s))

/-- The frame that a source reads out passes its bytes that fail parity to the scrubber (R261, requester 0). -/
def ringFailures (n : Nat) (s : State) : State :=
  let x := srcOf s n
  if s.fst.bad.isEmpty then s
  else match x.bufs.find? (fun b => b.seq == x.lastRead) with
    | none => s
    | some b =>
      let bad := (List.range x.units).flatMap (fun i =>
        (zoneBad s 0 (unitAt x.ring (b.slot * x.units + i) * 65536) 65536).map (·.2))
      if bad.isEmpty then s else serviceFailures 0 bad s

/-- READ_OUT_POINT (R173, R176): a source's read-out point. What waits for it lands first (R187, R189, R194); then the
reader picks its frame, and the de-embedder reads the audio packets of that frame (R360). -/
def execReadOutPoint (t n : Nat) (packets : List AudPacket) (s : State) : Host.Outcome State Fault Refusal :=
  if 1023 < n then .fault .noSuchObject
  else
    let s := advance t s
    .next (if !srcDefined s n || inS1 s || !lanesRun s then s
      else if (srcOf s n).deleting then landSrcDelete n s
      else
        let s := applyCfg n (landSrcRedefine n s)
        let before := srcOf s n
        ringFailures n (readAudio n before packets (readSource n s)))

/-- HOLD_FRAMES_REACHED (R183): the consecutive repeats have reached HOLD_FRAMES. -/
def execHoldFramesReached (t n : Nat) (s : State) : Host.Outcome State Fault Refusal :=
  if 1023 < n then .fault .noSuchObject
  else
    let s := advance t s
    let x := srcOf s n
    .next (if srcDefined s n && x.cfg.hold ≤ x.run && (x.phase = 1 || x.phase = 2 || x.phase = 3) then failSource n 0 s
      else s)

/-- FLOW_SRC_CFG_WRITE (R194). -/
def execFlowSrcCfgWrite (t n v : Nat) (s : State) : Host.Outcome State Fault Refusal :=
  if 1023 < n then .fault .noSuchObject else .next (writeSrcCfg n v (advance t s))

/-- FLOW_TP_CFG_WRITE (R195). -/
def execFlowTpCfgWrite (t p v : Nat) (s : State) : Host.Outcome State Fault Refusal :=
  if 7 < p then .fault .noSuchObject else .next (writeFlowTp p v (advance t s))

/-- The members that a FLOW_GROUP_SET lists. -/
def groupMembers (c : HostCmd) : List Nat := (List.range (u8 c.params 1)).map (fun i => u16 c.params (4 + 2 * i))

/-- FLOW_GROUP_SET (Table 5.5). -/
def refuseFlowGroupSet : Refuse := fun s c =>
  let k := u8 c.params 1
  let ms := groupMembers c
  let head := ms.headD 0
  firstRefusal [
    refuseIf (decide (c.params.length < 4)) .badLength,
    needLen (4 + (2 * k + 3) / 4 * 4) c,
    refuseIf (decide (127 < u8 c.params 0) || k == 1 || decide (8 < k) || u16 c.params 2 != 0
      || (c.params.drop (4 + 2 * k)).any (fun b => b != 0#8) || ms.any (fun m => decide (1023 < m))
      || ms.eraseDups.length != ms.length) .badParam,
    refuseIf (ms.any (fun m => !srcDefined s m)) .badParam,
    refuseIf (ms.any (fun m => (srcOf s m).format != (srcOf s head).format || (srcOf s m).plane != (srcOf s head).plane))
      .formatMismatch,
    refuseIf (ms.any (fun m => match (srcOf s m).group with | some g => g != u8 c.params 0 | none => false)) .busy]

/-- FLOW_GROUP_SET forms, changes or dissolves a group (R180, R181). -/
def effFlowGroupSet : Effect := fun s c =>
  let g := u8 c.params 0
  let ms := groupMembers c
  let old := (tget ⟨[], []⟩ s.flow.groups g).members
  let s := old.foldl (fun s m => modSrc m (fun x => { x with group := none }) s) s
  if ms.isEmpty then (onFlow (fun w => { w with groups := tdel w.groups g }) s, some (.ok, []))
  else
    let s := ms.foldl (fun s m => modSrc m (fun x => { x with group := some g }) s) s
    let s := onFlow (fun w => { w with groups := tset w.groups g ⟨ms, formBases s ms⟩ }) s
    (raise 1 2 0x2030 (pathCell (ms.foldl min 1023)) [pack8 g 0 0 0] s, some (.ok, []))
/-- FLOW_GROUP_SET (R180). -/
def execFlowGroupSet (t : Nat) (c : HostCmd) (s : State) : Host.Outcome State Fault Refusal :=
  .next (runCommand .flowGroupSet refuseFlowGroupSet effFlowGroupSet t c s)

/-- A park source or still is compatible with a destination (R185). -/
def parkFits (s : State) (d type value : Nat) : Bool :=
  let ext := decide (d < 1024)
  let dd := (dstOf s d).def_
  let plane := if ext then (dd.map (·.plane)).getD 0 else compPlane s ((d - 1024) / 8)
  let fmt := (dd.map (·.format)).getD 0
  if type = 1 then
    match stillFormat s value with
    | some f => if ext then f == fmt else ((formatOf f).map (·.family)).getD 0 == (tpCfg s plane).family
    | none => true
  else if type = 2 then
    sourceDefined s value && sourcePlane s value == plane
      && (if ext then sourceFormat s value == fmt
          else decide (value < 1024) && ((formatOf (sourceFormat s value)).map (·.family)).getD 0 == (tpCfg s plane).family)
  else true

/-- FLOW_PARK_SET (Table 5.5). -/
def refuseFlowParkSet : Refuse := fun s c =>
  let d := u16 c.params 0
  let ty := u8 c.params 2
  let v := u32 c.params 4
  firstRefusal [needLen 8 c,
    refuseIf (decide (1535 < d) || decide (2 < ty) || u8 c.params 3 != 0 || (ty == 1 && decide (2047 < v))
      || (ty == 2 && decide (1087 < v))) .badParam,
    refuseIf (ty == 2 && !sourceDefined s v) .badParam,
    refuseIf (ty != 0 && !destDefined s d) .objectInvalid,
    refuseIf (!parkFits s d ty v) .formatMismatch,
    refuseIf (ty == 1 && (stillFormat s v).isNone) .objectInvalid]
/-- FLOW_PARK_SET sets the park source of a destination (R184). -/
def effFlowParkSet : Effect := fun s c =>
  (modDst (u16 c.params 0) (fun x => { x with parkType := u8 c.params 2, parkValue := u32 c.params 4, fallback := none }) s,
   some (.ok, []))
/-- FLOW_PARK_SET (R184). -/
def execFlowParkSet (t : Nat) (c : HostCmd) (s : State) : Host.Outcome State Fault Refusal :=
  .next (runCommand .flowParkSet refuseFlowParkSet effFlowParkSet t c s)

/-- The sender's time was LOCKED at its last HEALTH pennant (Table 4.2). -/
def healthLocked (r : RxLane) : Bool := bitOf (u8 (tget [] r.pennants 4) 0) 1

/-- The link delay that the last TIME pennant of a lane shows (R171). -/
def linkDelay (r : RxLane) : Int :=
  signedOf 40 ((r.timeAt % 0x10000000000 + 0x10000000000 - beNat (tget [] r.pennants 5)) % 0x10000000000)

/-- The path difference of a source with two lane copies, or 0x8000_0000 when it is unknown (R171). -/
def pathDifference (s : State) (n : Nat) : Nat :=
  let x := srcOf s n
  let a := x.copyDef 1
  let b := x.copyDef 2
  let ra := rxLane s (a.index / 16)
  let rb := rxLane s (b.index / 16)
  if a.kind = 1 && b.kind = 1 && healthLocked ra && healthLocked rb && (tfind ra.pennants 5).isSome
      && (tfind rb.pennants 5).isSome then unsignedOf 32 (linkDelay rb - linkDelay ra)
  else 0x80000000

/-- FLOW_QUERY: the kind and the ID. -/
def refuseFlowQuery : Refuse := fun _ c =>
  firstRefusal [needLen 4 c,
    refuseIf (decide (1 < u8 c.params 0) || u8 c.params 1 != 0
      || decide ((if u8 c.params 0 = 0 then 1023 else 1535) < u16 c.params 2)) .badParam]
/-- FLOW_QUERY (Table 5.4). -/
def effFlowQuery : Effect := fun s c =>
  let n := u16 c.params 2
  let x := srcOf s n
  let d := dstOf s n
  (s, some (.ok,
    if u8 c.params 0 = 0 then
      wordBytes (regSrcCfg s n) ++ wordBytes (regSrcStatus s n) ++ wordBytes (regSrcSkew s n) ++ beBytes 4 x.lastRead
        ++ beBytes 4 (pathDifference s n) ++ x.anc.take 5 ++ beBytes 3 0
        ++ (List.range 10).flatMap (fun i => wordBytes (tget 0#32 x.cnt i))
    else wordBytes (regDstStatus s n) ++ beBytes 4 d.parkValue ++ beBytes 4 d.seq))
/-- FLOW_QUERY (R192). -/
def execFlowQuery (t : Nat) (c : HostCmd) (s : State) : Host.Outcome State Fault Refusal :=
  .next (runCommand .flowQuery refuseFlowQuery effFlowQuery t c s)

/-- FLOW_ADMIT_CHECK: the level. -/
def refuseFlowAdmitCheck : Refuse := fun _ c =>
  firstRefusal [needLen 4 c, refuseIf (decide (3 < u8 c.params 0) || u24 c.params 1 != 0) .badParam]
/-- FLOW_ADMIT_CHECK reports the totals of every check (R191, Table 5.4). -/
def effFlowAdmitCheck : Effect := fun s c =>
  let l := u8 c.params 0
  let t := totalsOf (allSrcs s) (allDsts s) (compSlots s 64) (compLoad s 64)
  (s, some (.ok, beBytes 1 ((firstFailing s l t).getD 0) ++ beBytes 1 l ++ beBytes 2 0
    ++ beBytes 2 t.slots ++ beBytes 2 (levelSlots l) ++ beBytes 1 t.comp ++ beBytes 1 (levelComp l) ++ beBytes 2 0
    ++ beBytes 4 t.ring ++ beBytes 4 (ringLimit s) ++ beBytes 4 t.rate ++ beBytes 4 1050000
    ++ beBytes 2 t.rxPkt ++ beBytes 2 512 ++ beBytes 2 t.txPkt ++ beBytes 2 512))
/-- FLOW_ADMIT_CHECK (R191). -/
def execFlowAdmitCheck (t : Nat) (c : HostCmd) (s : State) : Host.Outcome State Fault Refusal :=
  .next (runCommand .flowAdmitCheck refuseFlowAdmitCheck effFlowAdmitCheck t c s)

/-- The level checks of PWR_LEVEL_SET at a requested level (R540). -/
def levelFails (s : State) (l : Nat) : Option Nat :=
  firstFailing s l (totalsOf (allSrcs s) (allDsts s) (compSlots s 64) (compLoad s 64))

end Sys2Proof.Machine
end

