-- ==== Sys2Proof/Machine/Landing.lean ====
section
/-! DEFINITION. What destinations show and how operations land (R186, R206, R212, R215, R224, R343 to R345). -/

namespace Sys2Proof.Machine

/-- The crosspoint's entry of a destination. -/
def xdst (s : State) (d : Nat) : XptDst := tget {} s.xpt.dst d
/-- Change the crosspoint's entry of a destination. -/
def modXd (d : Nat) (f : XptDst → XptDst) (s : State) : State := onXpt (fun x => { x with dst := tmod {} x.dst d f }) s
/-- Count in one index of XPT_CNT (Table 6.15). -/
def xptCount (i : Nat) (s : State) : State := onXpt (fun x => { x with cnt := bump x.cnt i }) s

/-- The timing plane of a destination. -/
def destPlane (s : State) (d : Nat) : Nat :=
  if d < 1024 then ((dstOf s d).def_.map (·.plane)).getD 0 else compPlane s ((d - 1024) / 8)

/-- The format at whose rate a destination counts frames: its own, or that of its compositor's output. -/
def destFormat (s : State) (d : Nat) : Nat :=
  if d < 1024 then ((dstOf s d).def_.map (·.format)).getD 0 else compFormat s ((d - 1024) / 8)

/-- The frame count of a destination (R204). -/
def destCount (s : State) (d : Nat) : Nat := planeCount s (destPlane s d) (destFormat s d)

/-- The format rules of R208 for a selection. -/
def takeFits (s : State) (d : Nat) (src : Option Nat) : Bool :=
  match src with
  | none => true
  | some n =>
    if d < 1024 then sourceDefined s n && sourceFormat s n == destFormat s d && sourcePlane s n == destPlane s d
    else decide (n < 1024) && sourceDefined s n && sourcePlane s n == destPlane s d

/-- What a destination shows while it is parked (R184, R185): none for its park source, or the reason of a fallback to
black. -/
def parkReason (s : State) (d : Nat) : Option Nat :=
  let x := dstOf s d
  let fam := fun code => ((formatOf code).map (·.family)).getD 0
  if x.parkType = 1 then
    match versionFor s x.parkValue (.park d) with
    | some v =>
      if v.kind ≠ 1 then some 0
      else if (if d < 1024 then v.format == destFormat s d else fam v.format == (tpCfg s (destPlane s d)).family) then none
      else some 2
    | none => some 0
  else if x.parkType = 2 then
    if sourceFailed s x.parkValue then some 1
    else if sourcePlane s x.parkValue == destPlane s d
        && (if d < 1024 then sourceFormat s x.parkValue == destFormat s d else decide (x.parkValue < 1024)) then none
    else some 2
  else none

/-- The cause for which a destination parks, if any (R186): 1 its source is FAILED, 2 deleted or undefined, 3 none. -/
def parkCause (s : State) (d : Nat) : Option Nat :=
  match (xdst s d).selected with
  | none => some 3
  | some n =>
    if (dstOf s d).srcGone || !sourceDefined s n then some 2
    else if sourceFailed s n then some 1
    else none

/-- PARK_FALLBACK is raised once for each reason in force (R184). -/
def noteFallback (d : Nat) (s : State) : State :=
  let x := dstOf s d
  let r := parkReason s d
  if r = x.fallback then s
  else
    let s := modDst d (fun x => { x with fallback := r }) s
    match r with
    | some k => raise 2 2 0x2042 (dstPath d) [pack16_8 d x.parkType k] s
    | none => s

/-- A destination decides what it shows (R186, R215 step 2). `took` says that a take changed its selection on this line. A
destination whose own cell is contained stays parked (Table 15.5).
Log 41 (DEDUCED, safe). -/
def showDest (d : Nat) (took : Bool) (s : State) : State :=
  let x := dstOf s d
  match parkCause s d with
  | none =>
    if cellDown s d then modDst d (fun x => { x with shown := 2, cause := 0 }) s
    else
      let s := modDst d (fun x => { x with shown := 1, cause := 0, parkSaid := false, fallback := none }) s
      if x.shown = 2 && x.cause = 1 && !took then
        raise 1 2 0x2041 (dstPath d) [pack16 d (srcField (xdst s d).selected)] s
      else s
  | some c =>
    let said := x.shown = 2 && x.parkSaid && x.cause = c
    let s := modDst d (fun x => { x with shown := 2, cause := c, parkSaid := true }) s
    let s := if said then s else raise 1 2 0x2040 (dstPath d) [pack16_8 d c x.parkType] s
    noteFallback d s

/-- A destination parks at once because its cell is contained (Table 15.5). -/
def parkNow (d : Nat) (s : State) : State :=
  if destDefined s d && (dstOf s d).shown = 1 then modDst d (fun x => { x with shown := 2, cause := 0 }) s else s

/-- The membership of a destination in the safe frames of compositors after its selection changed (R344). -/
def safeAfterTake (d : Nat) (s : State) : State :=
  let sel := (xdst s d).selected
  onCmp (fun k => { k with comps := tmap k.comps (fun c (x : Comp) =>
    if sel = some (1024 + c) then
      (if x.reacted && !x.safe.contains d then { x with safe := x.safe ++ [d] } else x)
    else { x with safe := x.safe.filter (fun y => y != d) }) }) s

/-- The safe frame ends on a destination at its first switching line after T13 (R345). -/
def safeEnds (d : Nat) (s : State) : State :=
  onCmp (fun k => { k with comps := tmap k.comps (fun _ (x : Comp) =>
    if x.reacted then x else { x with safe := x.safe.filter (fun y => y != d) }) }) s

/-- The compositor whose safe frame a destination shows. -/
def safeOn (s : State) (d : Nat) : Option Nat := (s.cmp.comps.find? (fun p => p.2.safe.contains d)).map (·.1)

/-- The instant at or after which a sealed entry lands (R212). -/
def Entry.landAt (e : Entry) : Nat := max e.arm (e.target.getD 0)

/-- A sealed entry may land now on a plane and rate with frame count `n` (R212). A follower lands on the frame that the
record gives (R466). -/
def entryReady (s : State) (plane : Nat) (fast : Bool) (n : Nat) (e : Entry) : Bool :=
  match e.sealed_ with
  | none => false
  | some k =>
    match s.xpt.landing.find? (fun x => x.1 == k && x.2.1 == plane && x.2.2.1 == bit fast) with
    | some x => decide ((n + 0x100000000 - x.2.2.2) % 0x100000000 < 0x80000000)
    | none => decide (e.landAt ≤ s.clock.now)

/-- Insert an entry in order of epoch, then of execution (R214). -/
def insertEntry (e : Entry) : List Entry → List Entry
  | [] => [e]
  | x :: xs => if e.arm < x.arm || (e.arm == x.arm && decide (e.order < x.order)) then e :: x :: xs else x :: insertEntry e xs

/-- Entries in order of epoch, then of execution. -/
def sortEntries (es : List Entry) : List Entry := es.foldl (fun a e => insertEntry e a) []

/-- Take an entry out of the queue (R210). -/
def freeEntry (e : Entry) (s : State) : State :=
  queueFell (onXpt (fun x => { x with queue := x.queue.filter (fun y => y.order != e.order) }) s)

/-- The follow changes that a landed take opens (R365): each output of the mask takes the like channel of an external
source, and silence otherwise. -/
def openFollows (e : Entry) (d : Nat) (src : Option Nat) (s : State) : State :=
  if 1024 ≤ d then s
  else
    let ks := (List.range 16).filter (fun k => e.follow.testBit k)
    let fs := ks.map (fun k => ({
      out := 16 * d + k
      input := (match src with | some n => if n < 1024 then some (16 * n + k) else none | none => none)
      arm := e.arm
      order := e.order } : FollowDue))
    onAud (fun a => { a with due := a.due ++ fs }) s

/-- A video take lands on its destination at frame count `n` (R212, R215 step 1): the selection, the events and the reply. -/
def landTake (e : Entry) (d : Nat) (src : Option Nat) (n : Nat) (s : State) : State :=
  let s := freeEntry e s
  let s := modXd d (fun x => { x with selected := src, land := n }) s
  let s := modDst d (fun x => { x with srcGone := false }) s
  let s := xptCount 1 s
  let s := if s.xpt.landEvt then
      raise 0 3 0x3001 (dstPath d) [pack16 d (srcField src), w32 n, pack16 e.session e.tag] s
    else s
  let s := openFollows e d src (safeAfterTake d s)
  entryGone e none n s

/-- Land the takes of a list that name destination `d`. -/
def landTakes (d n : Nat) (es : List Entry) (s : State) : State :=
  es.foldl (fun s e => match e.action with | .video _ src => landTake e d src n s | _ => s) s

/-- The takes to a destination that land now. -/
def readyTakes (s : State) (d : Nat) : List Entry :=
  let fast := ((formatOf (destFormat s d)).map (·.fast)).getD false
  sortEntries (s.xpt.queue.filter (fun e => (match e.action with | .video x _ => x == d | _ => false)
    && entryReady s (destPlane s d) fast (destCount s d) e))

/-- The embedded audio changes of a destination pass the switching line on which they land (R368). -/
def dueAudio (d : Nat) (s : State) : State :=
  let fast := ((formatOf (destFormat s d)).map (·.fast)).getD false
  let hit := fun (e : Entry) => (match e.action with | .audio o _ _ _ _ _ => o / 16 == d | _ => false)
    && entryReady s (destPlane s d) fast (destCount s d) e
  onXpt (fun x => { x with queue := x.queue.map (fun e => if hit e then { e with due := true } else e) }) s

/-- FLOW_DST_DEFINE of a defined destination lands (R189): it keeps its selection while R208 still holds. -/
def landDstRedefine (d : Nat) (s : State) : State :=
  match (dstOf s d).redef with
  | none => s
  | some x =>
    let s := modDst d (fun y => { y with def_ := some x, redef := none }) s
    if takeFits s d (xdst s d).selected then s
    else safeAfterTake d (modXd d (fun y => { y with selected := none }) s)

/-- The deletion of a destination lands (R188): its slots carry IDLE, its packet flow stops, and entries that name it are
discarded with cause 2. Its park setting stays. -/
def landDstDelete (d : Nat) (s : State) : State :=
  if !(dstOf s d).deleting then s
  else
    let s := discardEntries (fun e => e.namesDest d) 2 s
    let s := modXd d (fun x => { x with selected := none }) s
    let s := safeAfterTake d (modDst d (fun x => { parkType := x.parkType, parkValue := x.parkValue, seq := x.seq }) s)
    raise 1 2 0x2005 (pathCell d) [pack8_16 1 0 d] s

/-- A destination's switching line (R206, R215): what waits for it lands, then it shows its selection or parks. -/
def switchingLine (d : Nat) (s : State) : State :=
  if (dstOf s d).deleting then landDstDelete d s
  else
    let s := landDstRedefine d s
    let old := (xdst s d).selected
    let s := landTakes d (destCount s d) (readyTakes s d) s
    showDest d ((xdst s d).selected != old) (safeEnds d (dueAudio d s))

end Sys2Proof.Machine
end

