-- ==== Sys2Proof/Machine/Seal.lean ====
section
/-! DEFINITION. The take queue: placing entries, the rechecks and the choice at sealing (R210 to R214, R218, R221, R320,
R346, R366, R367). -/

namespace Sys2Proof.Machine

/-- The take queue has room for `n` more entries (R210). -/
def queueFits (s : State) (n : Nat) : Bool := decide (s.xpt.queue.length + n ≤ 4096)

/-- The lock of a destination refuses a take of a session (R221). -/
def lockRefuses (s : State) (d session : Nat) : Bool :=
  let x := xdst s d
  x.lock == 1 || (x.lock == 2 && x.owner != session)

/-- The hold of a destination refuses a take (R346). -/
def holdRefuses (s : State) (d : Nat) (role : Role) : Bool := role != .safety && destHeld s d

/-- A take is late when its target has passed: it becomes immediate, counts in XPT_CNT index 5 and raises TAKE_LATE with
the lateness at receipt (R218). -/
def makeLate (lateUs : Nat) (e : Entry) (s : State) : State :=
  match e.action with
  | .video d src =>
    raise 2 3 0x3003 (dstPath d) [pack16 d (srcField src), pack16 e.session e.tag, w32 (min lateUs 0xFFFFFFFF)] (xptCount 5 s)
  | _ => s

/-- Put entries into the queue in order (R210, R211), with QUEUE_HIGH when the use passes 3,584 (Table 6.18).
Log 48 (DEDUCED, safe). -/
def placeEntries (es : List Entry) (s : State) : State :=
  let s := es.foldl (fun s e =>
    let late := match e.target with | some g => decide (g < s.clock.now) | none => false
    let us := match e.target with | some g => (s.clock.now - g) / 1000 | none => 0
    let e' := { e with order := s.xpt.nextOrder, late := late, target := if late then none else e.target }
    let s := onXpt (fun x => { x with queue := x.queue ++ [e'], nextOrder := x.nextOrder + 1 }) s
    let s := match e.action with | .video _ _ => xptCount 0 s | _ => s
    if late then makeLate us e' s else s) s
  let used := s.xpt.queue.length
  let s := onXpt (fun x => { x with highWater := max x.highWater used }) s
  if 3584 < used && !s.xpt.highSent then
    raise 2 3 0x3030 0 [pack16 used 0] (onXpt (fun x => { x with highSent := true }) s)
  else s

/-- Place the entries of a command, with the reply that waits for their landing (R228). -/
def placeCommand (op : Op) (c : HostCmd) (wait : Bool) (es : List Entry) (s : State) : State :=
  let s := if wait then onXpt (fun x => { x with waits := x.waits ++ [{ op := op, cmd := c, left := es.length }] }) s else s
  placeEntries ((List.range es.length).zip es |>.map (fun p =>
    { p.2 with session := c.session, role := c.role, seq := c.seq, wait := wait, index := p.1 })) s

/-- The cause for which a take fails the rechecks of R213: 3 definition, 4 lock or hold, 5 format.
Log 46 (DEDUCED, safe). -/
def recheckTake (s : State) (e : Entry) (d : Nat) (src : Option Nat) : Option Nat :=
  if !destDefined s d || (match src with | some n => !sourceDefined s n | none => false) then some 3
  else if lockRefuses s d e.session || holdRefuses s d e.role then some 4
  else if !takeFits s d src then some 5
  else none

/-- Discard one entry with a cause. -/
def discardOne (e : Entry) (cause : Nat) (s : State) : State := discardEntries (fun x => x.order == e.order) cause s

/-- The video takes of an epoch are rechecked (R213); of those that pass, the last for each destination stays (R214). -/
def sealVideo (batch : List Entry) (s : State) : State :=
  let r := batch.foldl (fun (x : List Entry × State) e => match e.action with
    | .video d src => match recheckTake x.2 e d src with
      | some c => (x.1, discardOne e c x.2)
      | none => (x.1 ++ [e], x.2)
    | _ => x) ([], s)
  let last := fun (e : Entry) => r.1.all (fun o => match e.action, o.action with
    | .video d _, .video d' _ => d != d' || decide (o.order ≤ e.order)
    | _, _ => true)
  r.1.foldl (fun s e => if last e then s else discardOne e 1 s) r.2

/-- The entry of this order is still in the queue. -/
def stillQueued (s : State) (e : Entry) : Bool := s.xpt.queue.any (fun x => x.order == e.order)

/-- An audio entry is an explicit change (R366), not one of gain alone. -/
def Entry.explicitFor (e : Entry) (o : Nat) : Bool :=
  match e.action with | .audio x _ keep _ _ _ => x == o && !keep | _ => false

/-- An audio entry names an output. -/
def Entry.audioFor (e : Entry) (o : Nat) : Bool := match e.action with | .audio x _ _ _ _ _ => x == o | _ => false

/-- The mask of the follow changes of a take: the destination's mask less the outputs whose explicit change, or later
change, the epoch holds (R365, R367). -/
def followMask (s : State) (batch : List Entry) (e : Entry) (d : Nat) : Nat :=
  let m := if d < 1024 then (followOf s d).mask else 0
  (List.range 16).foldl (fun a k =>
    let o := 16 * d + k
    if m.testBit k && !batch.any (fun x => x.explicitFor o || (x.audioFor o && decide (e.order < x.order))) then a + 2 ^ k
    else a) 0

/-- The follow changes of a take that another change of the epoch supersedes are reported (R367).
Log 74 (DEDUCED, safe). -/
def reportFollows (e : Entry) (d : Nat) (src : Option Nat) (mask kept : Nat) (s : State) : State :=
  (List.range 16).foldl (fun s k =>
    if mask.testBit k && !kept.testBit k then
      cancelAudio (16 * d + k) (match src with | some n => if n < 1024 then some (16 * n + k) else none | none => none)
        e.session 1 e.seq s
    else s) s

/-- An audio change of an epoch is superseded (R367): by a later change for its output, or, when it changes gain alone, by
a follow change of a later take. -/
def audioSuperseded (s : State) (batch : List Entry) (e : Entry) (o : Nat) : Bool :=
  batch.any (fun x => x.audioFor o && decide (e.order < x.order))
    || (!e.explicitFor o && decide (o < 16384) && batch.any (fun x => match x.action with
      | .video d _ => d == o / 16 && decide (e.order < x.order) && (followOf s d).mask.testBit (o % 16)
          && !batch.any (fun y => y.explicitFor o)
      | _ => false))

/-- The audio changes of an epoch (R367). -/
def sealAudio (batch : List Entry) (s : State) : State :=
  batch.foldl (fun s e => match e.action with
    | .audio o _ _ _ _ _ => if audioSuperseded s batch e o then discardOne e 1 s else s
    | _ => s) s

/-- An entry is a commit of a compositor. -/
def Entry.commitOf (e : Entry) (c : Nat) : Bool := match e.action with | .commit x => x == c | _ => false

/-- The commits of an epoch for compositor `c` share one snapshot and one result (R320). -/
def sealCommit (k arm : Nat) (batch : List Entry) (c : Nat) (s : State) : State :=
  let es := batch.filter (fun e => e.commitOf c)
  let pic := (compOf s c).shadow
  match commitCheck s c pic (es.any (fun e => e.role == .safety)) with
  | some (1, _) => es.foldl (fun s e => discardOne e 3 s) s
  | some (n, st) => es.foldl (fun s e =>
      entryGone e (some (st, n)) 0 (rejectCommit c n st e.session 0xFF e.seq (freeEntry e s))) s
  | none =>
    let land := es.foldl (fun a e => max a (e.target.getD 0)) arm
    let snap : Snapshot := { tick := k, arm := land, picture := pic, session := (es.head?.map (·.session)).getD 0
                             swap := (compOf s c).lut.jobs.all (·.waiting) }
    modComp c (fun x => { x with sealed_ := x.sealed_ ++ [snap] }) s

/-- The commits of an epoch. -/
def sealCommits (k arm : Nat) (batch : List Entry) (s : State) : State :=
  let cs := (batch.filterMap (fun e => match e.action with | .commit c => some c | _ => none)).eraseDups
  cs.foldl (fun s c => sealCommit k arm batch c s) s

/-- A realignment is sealed: it waits for the frame starts of its planes and the edges of its outputs (R443). -/
def sealRealigns (arm : Nat) (batch : List Entry) (s : State) : State :=
  batch.foldl (fun s e => match e.action with
    | .realign planes pulses slew rate =>
      onTim (fun m => { m with realigns := m.realigns ++ [{ order := e.order, planes := planes, pulses := pulses, slew := slew
                                                            rate := rate, arm := arm }] }) s
    | _ => s) s

/-- The entries that stay are sealed with their tick and arming instant; takes take their follow mask (R366, R367). -/
def markSealed (k arm : Nat) (batch : List Entry) (s : State) : State :=
  let mine := fun (e : Entry) => batch.any (fun b => b.order == e.order)
  let s := batch.foldl (fun s e => match e.action with
    | .video d src => if stillQueued s e && decide (d < 1024) then
        reportFollows e d src (followOf s d).mask (followMask s (batch.filter (stillQueued s)) e d) s else s
    | _ => s) s
  let live := batch.filter (stillQueued s)
  onXpt (fun x => { x with queue := x.queue.map (fun e =>
    if mine e then { e with sealed_ := some k, arm := arm, follow := (match e.action with
      | .video d _ => followMask s live e d
      | _ => 0) } else e) }) s

/-- Timed entries whose target has passed before the tick that seals them become immediate and late (R218); the tick is
1 ms before the arming instant. -/
def lateAtSeal (arm : Nat) (batch : List Entry) (s : State) : State :=
  let late := fun (e : Entry) => match e.target with | some g => decide (g + 1000000 < arm) | none => false
  let s' := onXpt (fun x => { x with queue := x.queue.map (fun e =>
    if batch.any (fun b => b.order == e.order) && late e then { e with late := true, target := none } else e) }) s
  batch.foldl (fun s e => if late e then makeLate 0 e s else s) s'

/-- Seal the entries that meet a condition at tick `k` (modulo 2^32) with arming instant `arm` (R211 to R214). -/
def sealEpoch (k arm : Nat) (sel : Entry → Bool) (s : State) : State :=
  let pick := fun (s : State) => s.xpt.queue.filter (fun e => e.unsealed && sel e)
  let names := (pick s).map (·.order)
  let again := fun (s : State) => s.xpt.queue.filter (fun e => names.contains e.order)
  let s := lateAtSeal arm (pick s) s
  let s := sealVideo (again s) s
  let s := sealAudio (again s) s
  let s := sealCommits k arm (again s) s
  let s := markSealed k arm (again s) s
  sealRealigns arm (again s) s

/-- An unsealed entry is due at the tick whose arming instant is `arm` (R218): it is immediate, or `arm` is the last arming
instant at or before its target. -/
def Entry.dueAt (e : Entry) (arm : Nat) : Bool := match e.target with | none => true | some g => decide (g < arm + 500000)

end Sys2Proof.Machine
end

