-- ==== Sys2Proof/Machine/Xpt.lean ====
section
/-! DEFINITION. The crosspoint: its commands, switching lines, destination frames and plane words (chapter 6). -/

namespace Sys2Proof.Machine

/-- The number of the next tick (R211). -/
def nextTick (s : State) : Nat := (s.clock.now / 500000 + 1) % 0x100000000

/-- The arming instant of the next tick (R212). -/
def nextArm (s : State) : Nat := (s.clock.now / 500000 + 1) * 500000 + 1000000

/-- The selection that a source field names: 0xFFFF is none (R228). -/
def selOf (n : Nat) : Option Nat := if n = 0xFFFF then none else some n

/-- The frame count on which an operation armed at `arm` will land on a destination (R212, R224, Table 6.8): that of the
first switching line, or output frame start, at or after it; 0 while the plane has shown no frame start. -/
def landFrame (s : State) (d arm : Nat) : Nat :=
  let p := destPlane s d
  match formatOf (destFormat s d) with
  | none => 0
  | some f =>
    let pl := planeOf s p
    let r := formatRate f
    match (if f.fast then pl.lastAny else pl.last) with
    | none => 0
    | some at_ =>
      let k := if d < 1024 then (flowTp s p).outDelay + 6 else 0
      let num : Int := ((arm : Int) - at_) * r.1 * f.lines - (k : Int) * r.2 * 1000000000
      let den : Int := (r.2 : Int) * 1000000000 * f.lines
      let i := if num ≤ 0 then 0 else ((num + den - 1) / den).toNat
      ((if f.fast then pl.fast else pl.slow) + i) % 0x100000000

/-- The first row of Table 6.9 that a take entry meets, given the destinations named before it. -/
def takeRow (s : State) (c : HostCmd) (before : List Nat) (p : Nat × Nat) : Option Status :=
  let d := p.1
  let n := p.2
  let src := selOf n
  if 1535 < d || (1087 < n && n ≠ 0xFFFF) then some .badParam
  else if before.contains d then some .badParam
  else if 1024 ≤ d && 1024 ≤ n && n ≠ 0xFFFF then some .badParam
  else if 1024 ≤ d && d % 8 = 7 && c.role != .safety then some .roleDenied
  else if !destDefined s d || (src.isSome && !sourceDefined s n) then some .objectInvalid
  else if !takeFits s d src then some .formatMismatch
  else if lockRefuses s d c.session || holdRefuses s d c.role then some .destLocked
  else none

/-- The first entry of a batch that is refused, with its index (R229). -/
def firstTakeFail (s : State) (c : HostCmd) : Nat → List Nat → List (Nat × Nat) → Option (Nat × Status)
  | _, _, [] => none
  | i, before, p :: ps =>
    match takeRow s c before p with
    | some st => some (i, st)
    | none => firstTakeFail s c (i + 1) (p.1 :: before) ps

/-- The take entries that stand in the parameters from a byte offset. -/
def takePairs (ps : List Byte) (o n : Nat) : List (Nat × Nat) :=
  (List.range n).map (fun i => (u16 ps (o + 4 * i), u16 ps (o + 4 * i + 2)))

/-- The target time of a timed command at a byte offset: seconds (48), reserved (16), nanoseconds (32). -/
def targetOf (ps : List Byte) (o : Nat) : Nat := u48 ps o * 1000000000 + u32 ps (o + 8)

/-- A target breaks R218, or its nanoseconds are out of range. -/
def targetBad (s : State) (ps : List Byte) (o : Nat) : Bool :=
  decide (999999999 < u32 ps (o + 8)) || decide (s.clock.now + 86400000000000 < targetOf ps o)
    || decide (targetOf ps o + s.xpt.lateMs * 1000000 < s.clock.now)

/-- The parameters of a refused batch (R229): the deciding index, or 0xFFFF. -/
def batchError (i : Nat) : List Byte := beBytes 4 0 ++ beBytes 2 i ++ beBytes 2 0

/-- XPT_TAKE (Table 6.9). -/
def refuseXptTake : Refuse := fun s c =>
  firstRefusal [needLen 8 c,
    refuseIf (u8 c.params 4 / 2 != 0 || u8 c.params 5 != 0) .badParam,
    (takeRow s c [] (u16 c.params 0, u16 c.params 2)).map (fun st => (st, [])),
    refuseIf (!queueFits s 1) .busy]

/-- XPT_TAKE queues one take in the open epoch (R210, R211). -/
def effXptTake : Effect := fun s c =>
  let wait := bitOf (u8 c.params 4) 0
  let d := u16 c.params 0
  let e : Entry := { order := 0, action := .video d (selOf (u16 c.params 2)), session := c.session, tag := u16 c.params 6 }
  let r := beBytes 4 (nextTick s) ++ beBytes 4 (landFrame s d (nextArm s))
  (placeCommand .xptTake c wait [e] s, if wait then none else some (.scheduled, r))

/-- A batch from byte `o` on: its length, count, options and reserved fields, target, entries and queue space (R229). -/
def refuseBatch (o : Nat) (s : State) (c : HostCmd) : Option (Status × List Byte) :=
  let n := u16 c.params (o + 2)
  if c.params.length < o + 8 || c.params.length ≠ o + 8 + 4 * n then some (.badLength, [])
  else if u8 c.params o / 2 ≠ 0 || u8 c.params (o + 1) ≠ 0 || u16 c.params (o + 6) ≠ 0 || n < 1 || 1536 < n
      || (o = 12 && (u16 c.params 6 ≠ 0 || targetBad s c.params 0)) then some (.badParam, batchError 0xFFFF)
  else match firstTakeFail s c 0 [] (takePairs c.params (o + 8) n) with
    | some (i, st) => some (st, batchError i)
    | none => if queueFits s n then none else some (.busy, batchError 0xFFFF)

/-- The entries of a batch from byte `o` on. -/
def batchEntries (o : Nat) (c : HostCmd) (target : Option Nat) : List Entry :=
  (takePairs c.params (o + 8) (u16 c.params (o + 2))).map (fun p =>
    { order := 0, action := .video p.1 (selOf p.2), session := c.session, tag := u16 c.params (o + 4), target := target })

/-- XPT_TAKE_BATCH queues its takes whole (R229). -/
def effXptTakeBatch : Effect := fun s c =>
  let wait := bitOf (u8 c.params 0) 0
  (placeCommand .xptTakeBatch c wait (batchEntries 0 c none) s,
   if wait then none else some (.scheduled, beBytes 4 (nextTick s) ++ beBytes 2 0xFFFF ++ beBytes 2 0))

/-- XPT_TAKE_AT queues its takes with a target time (R218). -/
def effXptTakeAt : Effect := fun s c =>
  let wait := bitOf (u8 c.params 12) 0
  let g := targetOf c.params 0
  (placeCommand .xptTakeAt c wait (batchEntries 12 c (some g)) s,
   if wait then none
   else some (.scheduled, beBytes 4 0 ++ beBytes 2 0xFFFF ++ beBytes 1 (bit (decide (g < s.clock.now))) ++ beBytes 1 0))

/-- The takes that a command carries. -/
def pairsOf (op : Op) (c : HostCmd) : List (Nat × Nat) :=
  match op with
  | .xptTake => takePairs c.params 0 1
  | .xptTakeBatch => takePairs c.params 8 (u16 c.params 2)
  | _ => takePairs c.params 20 (u16 c.params 14)

/-- The takes of a command refused with DEST_LOCKED are counted in XPT_CNT index 4, those refused by a hold in
CMP_PROT_CNT index 3 of its compositor as well (Tables 6.15, 10.8).
Log 47 (DEDUCED, safe). -/
def countLocked (op : Op) (c : HostCmd) (s : State) : State :=
  (pairsOf op c).foldl (fun s p =>
    let held := holdRefuses s p.1 c.role
    if lockRefuses s p.1 c.session || held then
      let s := xptCount 4 s
      match held, (xdst s p.1).selected with
      | true, some n => modComp (n - 1024) (fun k => { k with protCnt := bump k.protCnt 3 }) s
      | _, _ => s
    else s) s

/-- The course of a take command: as every command, with the count of the takes that a lock or hold refuses. -/
def runTake (op : Op) (own : Refuse) (eff : Effect) (t : Nat) (c : HostCmd) (s : State) : State :=
  let s := advance t s
  if !hostServes s then s
  else
    let s := dequeue op c s
    match (if c.named then none else refusal op own s c) with
    | some r => refuseWith op c r (if r.1 = .destLocked then countLocked op c s else s)
    | none => acceptWith op c eff s

/-- XPT_TAKE (R212). -/
def execXptTake (t : Nat) (c : HostCmd) (s : State) : Host.Outcome State Fault Refusal :=
  .next (runTake .xptTake refuseXptTake effXptTake t c s)
/-- XPT_TAKE_BATCH (R229). -/
def execXptTakeBatch (t : Nat) (c : HostCmd) (s : State) : Host.Outcome State Fault Refusal :=
  .next (runTake .xptTakeBatch (refuseBatch 0) effXptTakeBatch t c s)
/-- XPT_TAKE_AT (R218). -/
def execXptTakeAt (t : Nat) (c : HostCmd) (s : State) : Host.Outcome State Fault Refusal :=
  .next (runTake .xptTakeAt (refuseBatch 12) effXptTakeAt t c s)

/-- A session of MAINTENANCE or SAFETY. -/
def isWide (r : Role) : Bool := r == .maintenance || r == .safety

/-- XPT_QUEUE_CANCEL: selector and value, and selector 3 for MAINTENANCE and SAFETY (Table 6.8). -/
def refuseXptQueueCancel : Refuse := fun _ c =>
  let k := u8 c.params 0
  firstRefusal [needLen 4 c,
    refuseIf (decide (3 < k) || u8 c.params 1 != 0 || (k == 0 && decide (1535 < u16 c.params 2))) .badParam,
    refuseIf (k == 3 && !isWide c.role) .roleDenied]
/-- The entries that a cancel names (R228). -/
def cancelNames (c : HostCmd) (e : Entry) : Bool :=
  let k := u8 c.params 0
  let v := u16 c.params 2
  let own := e.session == c.session
  if k = 3 then true
  else if k = 2 then own
  else (own || isWide c.role) && (if k = 0 then e.namesDest v else e.tag == v)
/-- XPT_QUEUE_CANCEL cancels the unsealed entries that it names; sealed ones are left to land (R228). -/
def effXptQueueCancel : Effect := fun s c =>
  let hit := s.xpt.queue.filter (cancelNames c)
  let n := (hit.filter (fun e => e.unsealed)).length
  (discardEntries (fun e => e.unsealed && cancelNames c e) 0 s,
   some (.ok, beBytes 2 n ++ beBytes 2 (hit.length - n)))
/-- XPT_QUEUE_CANCEL (R228). -/
def execXptQueueCancel (t : Nat) (c : HostCmd) (s : State) : Host.Outcome State Fault Refusal :=
  .next (runCommand .xptQueueCancel refuseXptQueueCancel effXptQueueCancel t c s)

/-- LOCK_CHANGED (Table 6.18). -/
def raiseLock (d state forced owner actor : Nat) (s : State) : State :=
  raise 1 3 0x3020 (dstPath d) [pack16_8 d state forced, pack16 owner actor] s

/-- XPT_LOCK (R222). -/
def refuseXptLock : Refuse := fun s c =>
  let d := u16 c.params 0
  let k := u8 c.params 2
  let x := xdst s d
  firstRefusal [needLen 4 c,
    refuseIf (decide (1535 < d) || k == 0 || decide (2 < k) || u8 c.params 3 != 0) .badParam,
    refuseIf (!destDefined s d) .objectInvalid,
    refuseIf (x.lock != 0 && x.owner != c.session) .destLocked]
/-- XPT_LOCK sets the lock at execution (R222). -/
def effXptLock : Effect := fun s c =>
  let d := u16 c.params 0
  let k := u8 c.params 2
  if (xdst s d).lock = k then (s, some (.ok, []))
  else (raiseLock d k 0 c.session c.session (modXd d (fun x => { x with lock := k, owner := c.session }) s), some (.ok, []))
/-- XPT_LOCK (R222). -/
def execXptLock (t : Nat) (c : HostCmd) (s : State) : Host.Outcome State Fault Refusal :=
  .next (runCommand .xptLock refuseXptLock effXptLock t c s)

/-- XPT_UNLOCK (R222, Table 6.8). -/
def refuseXptUnlock : Refuse := fun s c =>
  let d := u16 c.params 0
  let f := u8 c.params 2
  let x := xdst s d
  firstRefusal [needLen 4 c,
    refuseIf (decide (1535 < d) || decide (1 < f) || u8 c.params 3 != 0) .badParam,
    refuseIf (f == 1 && !isWide c.role) .roleDenied,
    refuseIf (!destDefined s d) .objectInvalid,
    refuseIf (x.lock != 0 && x.owner != c.session && f == 0) .destLocked]
/-- XPT_UNLOCK frees the destination (R222). -/
def effXptUnlock : Effect := fun s c =>
  let d := u16 c.params 0
  let x := xdst s d
  if x.lock = 0 then (s, some (.ok, []))
  else (raiseLock d 0 (u8 c.params 2) x.owner c.session (modXd d (fun x => { x with lock := 0, owner := 0 }) s), some (.ok, []))
/-- XPT_UNLOCK (R222). -/
def execXptUnlock (t : Nat) (c : HostCmd) (s : State) : Host.Outcome State Fault Refusal :=
  .next (runCommand .xptUnlock refuseXptUnlock effXptUnlock t c s)

/-- The sealed take that waits to land on a destination, the last when there are several. -/
def pendingTake (s : State) (d : Nat) : Option Entry :=
  (sortEntries (s.xpt.queue.filter (fun e => e.namesDest d && !e.unsealed))).getLast?

/-- The source that the pending take of a destination names. -/
def pendingSource (s : State) (d : Nat) : Option Nat :=
  match pendingTake s d with
  | some e => (match e.action with | .video _ src => src | _ => none)
  | none => none

/-- XPT_QUERY: a range within the 1,536 destinations. -/
def refuseXptQuery : Refuse := fun _ c =>
  firstRefusal [needLen 4 c,
    refuseIf (u16 c.params 2 == 0 || decide (1536 < u16 c.params 2) || decide (1536 < u16 c.params 0 + u16 c.params 2)) .badParam]
/-- XPT_QUERY (Table 6.8). -/
def effXptQuery : Effect := fun s c =>
  (s, some (.ok, (List.range (u16 c.params 2)).flatMap (fun i =>
    let d := u16 c.params 0 + i
    let x := xdst s d
    let shown := (dstOf s d).shown
    beBytes 2 (srcField x.selected) ++ beBytes 2 (srcField (pendingSource s d)) ++ beBytes 1 x.lock
      ++ beBytes 1 (if shown = 1 then 0 else if shown = 2 then 1 else 2) ++ beBytes 2 x.owner)))
/-- XPT_QUERY (R228). -/
def execXptQuery (t : Nat) (c : HostCmd) (s : State) : Host.Outcome State Fault Refusal :=
  .next (runCommand .xptQuery refuseXptQuery effXptQuery t c s)

/-- A source, destination or compositor is defined on a plane (R207). -/
def planeUsed (s : State) (p : Nat) : Bool :=
  flowOnPlane s p || s.cmp.comps.any (fun x =>
    (x.2.state != 0 && x.2.plane == p) || (match x.2.change with | some g => g.plane == p | none => false))

/-- A phase offset lies beyond half the base period, or is not zero with family 0 (Table 6.9). -/
def phaseBad (family : Nat) (phase : Int) : Bool :=
  match famRate family with
  | some (n, d) => decide (d * 1000000000 < 2 * phase.natAbs * n)
  | none => phase != 0

/-- XPT_TP_SET (R207). -/
def refuseXptTpSet : Refuse := fun s c =>
  let p := u8 c.params 0
  let f := u8 c.params 1
  firstRefusal [needLen 8 c,
    refuseIf (decide (7 < p) || decide (5 < f) || decide (2 < u8 c.params 2) || u8 c.params 3 != 0
      || phaseBad f (signedOf 32 (u32 c.params 4))) .badParam,
    refuseIf (f != (tpCfg s p).family && planeUsed s p) .busy]

/-- The audio PLL runs free: the house plane has family 0 (R357). -/
def audFree (s : State) : Bool := (tpCfg s s.aud.housePlane).family == 0

/-- AUD_CLOCK_STATE when a change made the audio PLL follow the house plane or run free (R357, Table 11.12). -/
def audClock (before : State) (s : State) : State :=
  if audFree before = audFree s then s
  else raise 2 6 0x6040 0 [pack8_16 s.aud.housePlane (bit (audFree s)) 0] s

/-- XPT_TP_SET sets the plane; one whose family changes starts afresh (R207, R441, R442). -/
def effXptTpSet : Effect := fun s c =>
  let p := u8 c.params 0
  let old := tpCfg s p
  let new : TpCfg := { family := u8 c.params 1, ref := u8 c.params 2, phase := signedOf 32 (u32 c.params 4) }
  if new = old then (s, some (.ok, []))
  else
    let s' := onXpt (fun x => { x with tps := tset x.tps p new }) s
    let s' := if new.family = old.family then s' else onTim (fun m => { m with planes := tset m.planes p {} }) s'
    let s' := raise 1 3 0x3040 0 [pack8 p new.family new.ref 0, w32 (unsignedOf 32 new.phase)] s'
    (audClock s s', some (.ok, []))
/-- XPT_TP_SET (R207). -/
def execXptTpSet (t : Nat) (c : HostCmd) (s : State) : Host.Outcome State Fault Refusal :=
  .next (runCommand .xptTpSet refuseXptTpSet effXptTpSet t c s)

/-- XPT_QUEUE_STATUS takes no parameters. -/
def refuseXptQueueStatus : Refuse := fun _ c => needLen 0 c
/-- XPT_QUEUE_STATUS (Table 6.8). -/
def effXptQueueStatus : Effect := fun s c =>
  (s, some (.ok, beBytes 2 s.xpt.queue.length ++ beBytes 2 s.xpt.highWater ++ beBytes 4 s.xpt.tick
    ++ beBytes 2 (s.xpt.queue.filter (fun e => e.session == c.session)).length ++ beBytes 2 0))
/-- XPT_QUEUE_STATUS (R228). -/
def execXptQueueStatus (t : Nat) (c : HostCmd) (s : State) : Host.Outcome State Fault Refusal :=
  .next (runCommand .xptQueueStatus refuseXptQueueStatus effXptQueueStatus t c s)

/-- SWITCHING_LINE (R206, R215): the switching line of external destination `d`. -/
def execSwitchingLine (t d : Nat) (s : State) : Host.Outcome State Fault Refusal :=
  if 1023 < d then .fault .noSuchObject
  else
    let s := advance t s
    .next (if (dstOf s d).def_.isSome && lanesRun s then switchingLine d s else s)

/-- DEST_DELETE_LANDS (R188): the next switching line of a destination whose deletion was accepted. -/
def execDestDeleteLands (t d : Nat) (s : State) : Host.Outcome State Fault Refusal :=
  if 1023 < d then .fault .noSuchObject else .next (landDstDelete d (advance t s))

/-- An in-slot control block: type byte, six bytes and their CRC-8 (Table 4.3, R126). -/
def controlBlock (ty : Nat) (bytes : List Byte) : List Byte := beBytes 1 ty ++ bytes ++ [crc8 bytes]

/-- What a destination shows: the source or composition output, if it shows one. -/
def shownSource (s : State) (d : Nat) : Option Nat :=
  let x := dstOf s d
  if (safeOn s d).isSome then none
  else if x.shown = 1 then (xdst s d).selected
  else if x.shown = 2 && x.parkType = 2 && x.fallback.isNone then some x.parkValue
  else none

/-- The still that a destination shows: its park still, or the safe still of R343. -/
def shownStill (s : State) (d : Nat) : Option Version :=
  let x := dstOf s d
  match safeOn s d with
  | some c =>
    match (objOf s (compOf s c).cfg.safeStill).valid with
    | some v => if v.kind = 1 && v.format = destFormat s d then some v else none
    | none => none
  | none => if x.shown = 2 && x.parkType = 1 && x.fallback.isNone then versionFor s x.parkValue (.park d) else none

/-- A source that waits for its first frame shows as black (R183). -/
def showsBlack (s : State) (d : Nat) : Bool :=
  match shownSource s d with
  | some n => decide (n < 1024) && (srcOf s n).phase == 1
  | none => (shownStill s d).isNone

/-- The repeated and tainted bits of the frame that a destination shows (R179, R297). -/
def frameBits (s : State) (d : Nat) : Bool × Bool :=
  match shownSource s d with
  | some n => if n < 1024 then ((srcOf s n).repeated, (srcOf s n).outTainted) else (false, (compOf s (n - 1024)).tainted)
  | none => (false, false)

/-- The FRAME_START and ANC_INFO of a destination's frame (R154, R179). -/
def frameBlocks (s : State) (d : Nat) : List Byte :=
  let b := frameBits s d
  let anc := match (xdst s d).selected with
    | some n => if showsBlack s d || 1024 ≤ n then List.replicate 5 0#8 else ((srcOf s n).anc ++ List.replicate 5 0#8).take 5
    | none => List.replicate 5 0#8
  controlBlock 0x5A (beBytes 4 (destCount s d) ++ beBytes 1 (2 * bit b.2 + 4 * bit b.1) ++ beBytes 1 (destFormat s d))
    ++ controlBlock 0x78 (anc ++ [0#8])

/-- CRC bit `i` of the generated channel-status block: professional use set, its CRCC in byte 23 (R364, AES3). -/
def generatedC (i : Nat) : Bool :=
  let step := fun (c : Nat) (b : Bool) => let x := (c / 128 % 2 == 1) != b; (c * 2 % 256) ^^^ (if x then 0x1D else 0)
  let crc := (List.range 184).foldl (fun c k => step c (k == 0)) 0xFF
  if i < 184 then i == 0 else crc.testBit (191 - i)

/-- The AES3 bits of an embedded output (R364): V of its input; U and C of its input when its pair takes a like pair of one
source, else U zero and the generated block.
Log 75 (DESIGN CHOICE, safe). -/
def aesBits (s : State) (n : Nat) : Bool × Bool × Bool :=
  let e := 2 * (n / 2)
  let paired := match (outOf s e).input, (outOf s (e + 1)).input with
    | some a, some b => a % 2 == 0 && b == a + 1 && decide (b < 16384)
    | _, _ => false
  let i := match (outOf s n).input with | some k => inOf s k | none => {}
  if paired then (i.v, i.u, i.c) else (i.v, false, generatedC ((sampleNow s + 192 - Config.aesPhase % 192) % 192))

/-- The re-embedder inserts audio packets (R363): EMBED is 1, and the destination shows neither a safe frame nor a type-0
park source. -/
def embeds (s : State) (d : Nat) : Bool :=
  (followOf s d).now && (safeOn s d).isNone && !((dstOf s d).shown == 2 && (dstOf s d).parkType == 0)

/-- A frame of a destination begins (R154, R179, R363): its control blocks leave, changes of EMBED and of a bound transmit
flow take effect, and its park still is read. The last byte logged says that a parcel of the frame before left with its
PARCEL_CHECK inverted (R156). -/
def destFrameStart (d : Nat) (s : State) : State :=
  let s := referencersMove (fun r => r == .park d) s
  let s := onAud (fun a => { a with follows := tmap a.follows (fun k f => if k = d then { f with now := f.embed } else f) })
    (onFlow (fun w => { w with dst := tmod {} w.dst d (fun x => { x with seq := planeCount s (destPlane s d) (destFormat s d) }) }) s)
  let s := match (dstOf s d).def_ with
    | some x => if x.packet.kind = 2 then
        onEth (fun e => { e with tx := tmap e.tx (fun k f => if k = x.packet.index then
          { f with cfg := f.next.getD f.cfg, next := none, tainted := false } else f) }) s else s
    | none => s
  let still := shownStill s d
  let bad := match still with
    | some v => (zoneBad s v.zone (v.first * 65536) v.length).map (·.2)
    | none => []
  let s := emit (.destFrame s.clock.clk d (frameBlocks s d ++ [b8 (bit (dstOf s d).badWord)])) s
  let s := modDst d (fun x => { x with badWord := !bad.isEmpty }) s
  let s := if bad.isEmpty then s else serviceFailures 1 bad s
  if embeds s d then
    (List.range 16).foldl (fun s k =>
      let n := 16 * d + k
      let b := aesBits s n
      emit (.aes s.clock.clk n (outSample s n) b.1 b.2.1 b.2.2) s) s
  else s

/-- DEST_FRAME_START (R179): a frame of external destination `d` begins. While its block restarts its slots carry
IDLE (Table 15.5). -/
def execDestFrameStart (t d : Nat) (s : State) : Host.Outcome State Fault Refusal :=
  if 1023 < d then .fault .noSuchObject
  else
    let s := advance t s
    .next (if (dstOf s d).def_.isSome && lanesRun s && !inS1 s && !s.saf.restarting.contains (d / 16) then destFrameStart d s else s)

/-- Odd parity of a number of bits. -/
def oddParity (n w : Nat) : Bool := (List.range w).foldl (fun a i => a != n.testBit i) true

/-- A plane word fails its PAR or SP check (R198, R201). Bit 64 is the parity of byte 7, the last of DATA. -/
def planeWordBad (w : Nat) : Bool :=
  (List.range 8).any (fun i => (w / 2 ^ (64 + i)).testBit 0 != oddParity (w / 2 ^ (8 * i) % 256) 8)
    || w.testBit 78 != oddParity (bitsOf w 77 72) 6

/-- The slot-equivalents at which a source or composition output stands on the plane (R158, R295). -/
def onSlot (s : State) (n slot : Nat) : Bool :=
  if n < 1024 then match (srcOf s n).def_ with
    | some x => decide (x.slot ≤ slot) && decide (slot < x.slot + x.count)
    | none => false
  else
    let c := n - 1024
    decide (2560 + 2 * c ≤ slot) && decide (slot < 2560 + 2 * c + classSlots (((formatOf (compFormat s c)).map (·.cls)).getD 0))

/-- The destinations of a region that read a slot-equivalent (R200). -/
def readersOf (s : State) (r slot : Nat) : List Nat :=
  (s.flow.dst.filter (fun p => p.2.def_.isSome && p.1 / 256 == r
    && (match shownSource s p.1 with | some n => onSlot s n slot | none => false))).map (·.1)

/-- A word that fails is delivered with its PAR bits inverted: the parcel of each reading destination leaves with its
PARCEL_CHECK inverted (R156, R201). -/
def markReaders (r slot : Nat) (s : State) : State :=
  (readersOf s r slot).foldl (fun s d => modDst d (fun x => { x with badWord := true }) s) s

/-- PLANE_WORD_RECEIVED (R198, R201): the word of a global slot-equivalent as each of the four region receivers has it. -/
def execPlaneWordReceived (t slot : Nat) (w0 w1 w2 w3 : Nat) (s : State) : Host.Outcome State Fault Refusal :=
  if 2687 < slot then .fault .noSuchObject
  else
    let s := advance t s
    let ws := [w0, w1, w2, w3]
    let fails := (List.range 4).filter (fun r => planeWordBad (ws.getD r 0))
    .next (if !lanesRun s then s
      else
        let s := fails.foldl (fun s r => markReaders r slot s) s
        if fails.length = 4 then chipFault 0x3011 (raise 4 3 0x3011 0 [pack16 slot 0] s)
        else fails.foldl (fun s r =>
          let s := xptCount (6 + r) s
          planeFailure r (raise 2 3 0x3010 (pathRegion r) [pack8_16 r 0 slot, tget 0#32 s.xpt.cnt (6 + r)] s)) s)

/-- XPT_DST_SEL (Table 6.10). -/
def regDstSel (s : State) (d : Nat) : Word :=
  let x := xdst s d
  fields [(0, 11, x.selected.getD 0x7FF), (16, 11, (pendingSource s d).getD 0x7FF), (27, 1, bit (pendingTake s d).isSome),
    (28, 2, x.lock)]
/-- XPT_TAKE_CTL (Table 6.13). -/
def regTakeCtl (s : State) : Word := fields [(0, 1, bit s.xpt.landEvt), (8, 16, s.xpt.lateMs)]
/-- A write of XPT_TAKE_CTL. -/
def writeTakeCtl (v : Nat) (s : State) : State :=
  onXpt (fun x => { x with landEvt := v.testBit 0, lateMs := min 10000 (bitsOf v 23 8) }) s
/-- XPT_QUEUE_STATE (Table 6.14). -/
def regQueueState (s : State) : Word := fields [(0, 13, s.xpt.queue.length), (16, 13, s.xpt.highWater)]
/-- XPT_TP_CFG (Table 6.16). -/
def regTpCfg (s : State) (p : Nat) : Word := fields [(0, 3, (tpCfg s p).family), (3, 2, (tpCfg s p).ref)]

end Sys2Proof.Machine
end

