-- ==== Sys2Proof/Machine/Audio.lean ====
section
/-! DEFINITION. The audio engine (chapter 11): its commands, the landing of changes, serial ports and packet streams. -/

namespace Sys2Proof.Machine

/-- A gain field is in range (R379): -800 to +120, or keep, or mute. -/
def gainFits (g : Nat) : Bool :=
  g == 0x8000 || g == 0x8001 || (decide (-800 ≤ signedOf 16 g) && decide (signedOf 16 g ≤ 120))

/-- What a gain field says (R379). -/
def gainOf (g : Nat) : GainArg := if g = 0x8000 then .keep else if g = 0x8001 then .mute else .set (signedOf 16 g)

/-- An input field is in range: an input of the matrix, or 0xFFFF for silence (R379). -/
def inputFits (i : Nat) : Bool := decide (i < matrixSize) || i == 0xFFFF

/-- A route entry at a byte offset is in range (R379). -/
def routeFits (ps : List Byte) (o : Nat) : Bool :=
  decide (u16 ps o < matrixSize) && inputFits (u16 ps (o + 2)) && gainFits (u16 ps (o + 4)) && u16 ps (o + 6) == 0

/-- The take-queue entry of a route entry (R210, R379). -/
def routeEntry (ps : List Byte) (o opts tag : Nat) : Entry :=
  let i := u16 ps (o + 2)
  { order := 0, tag := tag
    action := .audio (u16 ps o) (if i = 0xFFFF then none else some i) false (gainOf (u16 ps (o + 4))) (bitOf opts 0) (bitOf opts 1) }

/-- Breakaway (R366): an explicit change clears its output's bit of the follow mask unless it keeps following. -/
def breakAway (e : Entry) (s : State) : State :=
  match e.action with
  | .audio o _ keep _ _ keepFollow =>
    if o < 16384 && !keep && !keepFollow then
      onAud (fun a => { a with follows := tmod {} a.follows (o / 16) (fun f =>
        if f.mask.testBit (o % 16) then { f with mask := f.mask - 2 ^ (o % 16) } else f) }) s
    else s
  | _ => s

/-- The frame count that a SCHEDULED reply gives for an output (Table 11.4): 0 for port and packet outputs. -/
def audLandFrame (s : State) (o : Nat) : Nat :=
  if o < 16384 && destDefined s (o / 16) then landFrame s (o / 16) (nextArm s) else 0

/-- AUD_ROUTE (Table 11.5). -/
def refuseAudRoute : Refuse := fun s c =>
  firstRefusal [needLen 12 c,
    refuseIf (!routeFits c.params 0 || decide (7 < u8 c.params 8) || u8 c.params 9 != 0) .badParam,
    refuseIf (!queueFits s 1) .busy]
/-- AUD_ROUTE queues one change (R366, R368). -/
def effAudRoute : Effect := fun s c =>
  let opts := u8 c.params 8
  let e := routeEntry c.params 0 opts (u16 c.params 10)
  let r := beBytes 4 (nextTick s) ++ beBytes 4 (audLandFrame s (u16 c.params 0))
  (placeCommand .audRoute c (bitOf opts 2) [e] (breakAway e s), if bitOf opts 2 then none else some (.scheduled, r))
/-- AUD_ROUTE (R366). -/
def execAudRoute (t : Nat) (c : HostCmd) (s : State) : Host.Outcome State Fault Refusal :=
  .next (runCommand .audRoute refuseAudRoute effAudRoute t c s)

/-- The outputs that a batch names, in order. -/
def batchOutputs (c : HostCmd) : List Nat := (List.range (u16 c.params 2)).map (fun i => u16 c.params (8 + 8 * i))

/-- The first entry of a batch that is refused: out of range, or an output that appeared before (Table 11.5). -/
def firstRouteFail (c : HostCmd) : Option Nat :=
  let os := batchOutputs c
  (List.range (u16 c.params 2)).find? (fun i => !routeFits c.params (8 + 8 * i) || (os.take i).contains (os.getD i 0))

/-- AUD_ROUTE_BATCH, checked whole in the order of R229 (R380, Table 11.5). -/
def refuseAudRouteBatch : Refuse := fun s c =>
  let n := u16 c.params 2
  if c.params.length < 8 || c.params.length ≠ 8 + 8 * n then some (.badLength, [])
  else if 7 < u8 c.params 0 || u8 c.params 1 ≠ 0 || u16 c.params 6 ≠ 0 || n < 1 || 1536 < n then
    some (.badParam, batchError 0xFFFF)
  else match firstRouteFail c with
    | some i => some (.badParam, batchError i)
    | none => if queueFits s n then none else some (.busy, batchError 0xFFFF)
/-- AUD_ROUTE_BATCH queues its changes whole (R380). -/
def effAudRouteBatch : Effect := fun s c =>
  let opts := u8 c.params 0
  let es := (List.range (u16 c.params 2)).map (fun i => routeEntry c.params (8 + 8 * i) opts (u16 c.params 4))
  (placeCommand .audRouteBatch c (bitOf opts 2) es (es.foldl (fun s e => breakAway e s) s),
   if bitOf opts 2 then none else some (.scheduled, beBytes 4 (nextTick s) ++ beBytes 2 0xFFFF ++ beBytes 2 0))
/-- AUD_ROUTE_BATCH (R380). -/
def execAudRouteBatch (t : Nat) (c : HostCmd) (s : State) : Host.Outcome State Fault Refusal :=
  .next (runCommand .audRouteBatch refuseAudRouteBatch effAudRouteBatch t c s)

/-- AUD_GAIN (Table 11.5). -/
def refuseAudGain : Refuse := fun s c =>
  firstRefusal [needLen 8 c,
    refuseIf (!decide (u16 c.params 0 < matrixSize) || !gainFits (u16 c.params 2) || decide (7 < u8 c.params 4)
      || u8 c.params 5 != 0) .badParam,
    refuseIf (!queueFits s 1) .busy]
/-- AUD_GAIN queues a change of gain alone (R368). -/
def effAudGain : Effect := fun s c =>
  let opts := u8 c.params 4
  let e : Entry := { order := 0, tag := u16 c.params 6
                     action := .audio (u16 c.params 0) none true (gainOf (u16 c.params 2)) (bitOf opts 0) (bitOf opts 1) }
  let r := beBytes 4 (nextTick s) ++ beBytes 4 (audLandFrame s (u16 c.params 0))
  (placeCommand .audGain c (bitOf opts 2) [e] s, if bitOf opts 2 then none else some (.scheduled, r))
/-- AUD_GAIN (R368). -/
def execAudGain (t : Nat) (c : HostCmd) (s : State) : Host.Outcome State Fault Refusal :=
  .next (runCommand .audGain refuseAudGain effAudGain t c s)

/-- AUD_FOLLOW (Table 11.5). -/
def refuseAudFollow : Refuse := fun _ c =>
  firstRefusal [needLen 8 c,
    refuseIf (decide (1023 < u16 c.params 0) || decide (1 < u8 c.params 4) || u24 c.params 5 != 0) .badParam]
/-- AUD_FOLLOW sets a mask, and EMBED for the destination's next frame start (R363, R366). -/
def effAudFollow : Effect := fun s c =>
  (onAud (fun a => { a with follows := tmod {} a.follows (u16 c.params 0) (fun f =>
    { f with mask := u16 c.params 2, embed := u8 c.params 4 == 1 }) }) s, some (.ok, []))
/-- AUD_FOLLOW (R365). -/
def execAudFollow (t : Nat) (c : HostCmd) (s : State) : Host.Outcome State Fault Refusal :=
  .next (runCommand .audFollow refuseAudFollow effAudFollow t c s)

/-- A serial port. -/
def portOf (s : State) (p : Nat) : AudPort := tget {} s.aud.ports p
/-- Change a serial port. -/
def modPort (p : Nat) (f : AudPort → AudPort) (s : State) : State := onAud (fun a => { a with ports := tmod {} a.ports p f }) s
/-- Count in one index of AUD_PORT_CNT. -/
def portCount (p i : Nat) (s : State) : State := modPort p (fun x => { x with cnt := bump x.cnt i }) s
/-- The two matrix inputs of a port, which have the numbers of its outputs (R353). -/
def portPair (p : Nat) : List Nat := [16384 + 2 * p, 16385 + 2 * p]

/-- A port changes its state, with AUD_PORT_STATE (Table 11.12); its inputs fade out or in by R372 and R374. -/
def setPortState (p new rate : Nat) (s : State) : State :=
  let old := (portOf s p).state
  let s := modPort p (fun x => { x with state := new, rate := rate }) s
  let s := (portPair p).foldl (fun s i => if new = 2 && (portOf s p).inEn then fadeIn i s else fadeOut i s) s
  if old = new then s else raise 1 6 0x6001 0 [pack8 p old new rate] s

/-- AUD_PORT_CONFIG (Table 11.5). -/
def refuseAudPortConfig : Refuse := fun _ c =>
  let p := c.params
  firstRefusal [needLen 8 c,
    refuseIf (decide (15 < u8 p 0) || decide (3 < u8 p 1) || decide (1 < u8 p 2) || decide (1 < u8 p 3) || decide (1 < u8 p 4)
      || u24 p 5 != 0) .badParam,
    refuseIf (u8 p 4 == 1 && u8 p 3 == 0) .badParam]
/-- AUD_PORT_CONFIG sets a port and restarts its measurement (R374). -/
def effAudPortConfig : Effect := fun s c =>
  let p := c.params
  let n := u8 p 0
  let s := modPort n (fun x => { x with
    inEn := bitOf (u8 p 1) 0, outEn := bitOf (u8 p 1) 1, format := u8 p 2, clocks := u8 p 3, width := u8 p 4
    agree := 0, lastHz := 0, glitches := 0 }) s
  (setPortState n (if u8 p 1 = 0 then 0 else 1) 0 s, some (.ok, []))
/-- AUD_PORT_CONFIG (R374). -/
def execAudPortConfig (t : Nat) (c : HostCmd) (s : State) : Host.Outcome State Fault Refusal :=
  .next (runCommand .audPortConfig refuseAudPortConfig effAudPortConfig t c s)

/-- A stream context. -/
def streamOf (s : State) (k : Nat) : AudStream := tget {} s.aud.streams k
/-- Change a stream context. -/
def modStream (k : Nat) (f : AudStream → AudStream) (s : State) : State :=
  onAud (fun a => { a with streams := tmod {} a.streams k f }) s

/-- A stream changes its state, with AUD_STREAM_STATE (Table 11.12). -/
def setStreamState (k new : Nat) (s : State) : State :=
  let old := (streamOf s k).state
  if old = new then s else raise 1 6 0x6020 0 [pack8 k old new 0] (modStream k (fun x => { x with state := new }) s)

/-- The matrix inputs, and outputs, of a stream's channels (R353). -/
def streamChannels (k : Nat) : List Nat := (List.range 64).map (fun i => 16416 + 64 * k + i)

/-- An audio flow of a direction is defined in the media engine (R401). -/
def audFlowDefined (s : State) (dir f : Nat) : Bool :=
  if dir = 1 then (tget {} s.eth.rx f).kind == 2 else (tget {} s.eth.tx f).cfg.kind == 2

/-- AUD_STREAM_CONFIG (Table 11.5). -/
def refuseAudStreamConfig : Refuse := fun s c =>
  let p := c.params
  let k := u8 p 0
  let dir := u8 p 1
  let f := u16 p 4
  firstRefusal [needLen 12 c,
    refuseIf (decide (127 < k) || decide (2 < dir) || decide (u8 p 2 < 1) || decide (64 < u8 p 2) || decide (1 < u8 p 3)
      || decide (511 < f) || decide (1 < u8 p 6) || u8 p 7 != 0 || decide (u16 p 8 < 250) || decide (16000 < u16 p 8)
      || u16 p 10 != 0) .badParam,
    refuseIf (u8 p 6 == 0 && decide (8 < u8 p 2)) .badParam,
    refuseIf (dir != 0 && (!audFlowDefined s dir f || s.aud.streams.any (fun x => x.1 != k && x.2.dir == dir && x.2.flow == f)))
      .badParam]
/-- AUD_STREAM_CONFIG binds a stream context, or turns it off (R375). -/
def effAudStreamConfig : Effect := fun s c =>
  let p := c.params
  let k := u8 p 0
  let s := modStream k (fun x => { x with
    dir := u8 p 1, channels := u8 p 2, depth := u8 p 3, flow := u16 p 4, ptime := u8 p 6, linkUs := u16 p 8, next := none }) s
  let s := (streamChannels k).foldl (fun s i => fadeOut i s) s
  (setStreamState k (if u8 p 1 = 0 then 0 else 1) s, some (.ok, []))
/-- AUD_STREAM_CONFIG (R375). -/
def execAudStreamConfig (t : Nat) (c : HostCmd) (s : State) : Host.Outcome State Fault Refusal :=
  .next (runCommand .audStreamConfig refuseAudStreamConfig effAudStreamConfig t c s)

/-- A sealed change waits to land on an output. -/
def audPending (s : State) (o : Nat) : Bool :=
  s.xpt.queue.any (fun e => (e.sealed_.isSome && e.audioFor o)
      || (match e.action with | .video d _ => e.sealed_.isSome && d == o / 16 && decide (o < 16384) && e.follow.testBit (o % 16) | _ => false))
    || s.aud.due.any (fun x => x.out == o)

/-- AUD_XP (Table 11.7). -/
def regAudXp (s : State) (o : Nat) : Word :=
  let x := outOf s o
  fields [(0, 15, x.input.getD 0x7FFF), (16, 11, unsignedOf 11 x.gain), (27, 1, bit x.mute), (28, 1, bit (audPending s o)),
    (29, 1, bit x.change.isSome)]
/-- AUD_FOLLOW (Table 11.8). -/
def regAudFollow (s : State) (d : Nat) : Word := fields [(0, 16, (followOf s d).mask), (16, 1, bit (followOf s d).embed)]
/-- AUD_PORT_CFG (Table 11.9). -/
def regPortCfg (s : State) (p : Nat) : Word :=
  let x := portOf s p
  fields [(0, 1, bit x.inEn), (1, 1, bit x.outEn), (2, 1, x.format), (3, 1, x.clocks), (4, 1, x.width)]
/-- AUD_PORT_STATUS (Table 11.10). -/
def regPortStatus (s : State) (p : Nat) : Word :=
  let x := portOf s p
  fields [(0, 3, x.state), (4, 2, x.rate), (8, 7, x.fifoIn), (16, 7, x.fifoOut)]
/-- AUD_PORT_PPM. -/
def regPortPpm (s : State) (p : Nat) : Word := w32 (unsignedOf 32 (portOf s p).ppm)
/-- AUD_STREAM_CFG (Table 11.11). -/
def regStreamCfg (s : State) (k : Nat) : Word :=
  let x := streamOf s k
  fields [(0, 2, x.dir), (2, 1, x.depth), (3, 1, x.ptime), (4, 7, x.channels), (16, 9, x.flow)]
/-- AUD_STREAM_STATUS. -/
def regStreamStatus (s : State) (k : Nat) : Word := fields [(0, 2, (streamOf s k).state), (16, 16, (streamOf s k).linkUs)]
/-- AUD_CFG (Table 11.6). -/
def regAudCfg (s : State) : Word := fields [(0, 3, s.aud.housePlane), (8, 5, s.aud.zcMs)]
/-- AUD_STATUS. -/
def regAudStatus (s : State) : Word := fields [(0, 1, bit (!audFree s)), (1, 1, bit (audFree s))]
/-- A write of AUD_CFG (R357, Table 11.6). -/
def writeAudCfg (v : Nat) (s : State) : State :=
  let z := bitsOf v 12 8
  audClock s (onAud (fun a => { a with housePlane := v % 8, zcMs := if z = 0 then 1 else min 20 z }) s)

/-- How many items of a kind AUD_QUERY can answer. -/
def audKindSize (k : Nat) : Nat := match k with | 0 => matrixSize | 1 => 16 | 2 => 128 | _ => 1024
/-- AUD_QUERY (Table 11.5). -/
def refuseAudQuery : Refuse := fun _ c =>
  let p := c.params
  firstRefusal [needLen 8 c,
    refuseIf (decide (3 < u8 p 0) || u8 p 1 != 0 || decide (u16 p 4 < 1) || decide (1024 < u16 p 4) || u16 p 6 != 0
      || decide (audKindSize (u8 p 0) < u16 p 2 + u16 p 4)) .badParam]
/-- AUD_QUERY answers matrix entries, ports, streams or follow masks (Table 11.4). -/
def effAudQuery : Effect := fun s c =>
  let p := c.params
  let row := fun (n : Nat) => match u8 p 0 with
    | 0 => [regAudXp s n]
    | 1 => [regPortCfg s n, regPortStatus s n, regPortPpm s n] ++ (List.range 4).map (fun i => tget 0#32 (portOf s n).cnt i)
    | 2 => [regStreamCfg s n, regStreamStatus s n]
    | _ => [regAudFollow s n]
  (s, some (.ok, (List.range (u16 p 4)).flatMap (fun i => (row (u16 p 2 + i)).flatMap wordBytes)))
/-- AUD_QUERY (R379). -/
def execAudQuery (t : Nat) (c : HostCmd) (s : State) : Host.Outcome State Fault Refusal :=
  .next (runCommand .audQuery refuseAudQuery effAudQuery t c s)

/-- A queued change of an output lands now (R368): its destination has passed the switching line, or, for a port or packet
output or an undefined destination, its instant has come. -/
def audReady (s : State) (o : Nat) (e : Entry) : Bool :=
  e.audioFor o && e.sealed_.isSome
    && (if o < 16384 && destDefined s (o / 16) then e.due else decide (e.landAt ≤ s.clock.now))

/-- One queued change lands (R212, R228, R368). -/
def landAudioEntry (o : Nat) (e : Entry) (s : State) : State :=
  match e.action with
  | .audio _ inp keep gain hard _ =>
    entryGone e none (if o < 16384 then destCount s (o / 16) else 0) (landAudio o inp keep gain hard (freeEntry e s))
  | _ => s

/-- One follow change lands (R365). -/
def landFollow (x : FollowDue) (s : State) : State :=
  landAudio x.out x.input false .keep false (onAud (fun a => { a with due := a.due.erase x }) s)

/-- Insert an item by epoch, then by order. -/
def insertLand {α : Type} (x : Nat × Nat × α) : List (Nat × Nat × α) → List (Nat × Nat × α)
  | [] => [x]
  | y :: r => if x.1 < y.1 || (x.1 == y.1 && decide (x.2.1 < y.2.1)) then x :: y :: r else y :: insertLand x r

/-- What lands on an output: queued changes (true) and follow changes in order of epoch and execution (R367, R368). -/
def landList (s : State) (o : Nat) : List (Nat × Nat × (Entry ⊕ FollowDue)) :=
  let a := (s.xpt.queue.filter (audReady s o)).map (fun e => (e.arm, e.order, (Sum.inl e : Entry ⊕ FollowDue)))
  let b := (s.aud.due.filter (fun x => x.out == o)).map (fun x => (x.arm, x.order, (Sum.inr x : Entry ⊕ FollowDue)))
  (a ++ b).foldl (fun l x => insertLand x l) []

/-- AUDIO_CHANGE_LANDS (R368): the changes of an output whose landing has come take effect at this sample. -/
def execAudioChangeLands (t o : Nat) (s : State) : Host.Outcome State Fault Refusal :=
  if matrixSize ≤ o then .fault .noSuchObject
  else
    let s := advance t s
    .next ((landList s o).foldl (fun s x => match x.2.2 with
      | .inl e => landAudioEntry o e s
      | .inr f => landFollow f s) s)

/-- ZERO_CROSSING (R369): the old (0) or the new (1) signal of a changing output crosses zero. A new silence crosses at
once. A change that is completed within its final crossfade counts in AUD_CNT index 1. -/
def execZeroCrossing (t o which : Nat) (s : State) : Host.Outcome State Fault Refusal :=
  if matrixSize ≤ o then .fault .noSuchObject
  else
    let s := advance t s
    let done := fun (c : AudChange) =>
      let s := modOut o (fun x => { x with change := none }) s
      if c.at_ + c.window < sampleNow s + 48 then audCount 1 1 s else s
    .next (match (outOf s o).change with
      | some c =>
        if c.kind ≠ 0 || c.at_ + c.window ≤ sampleNow s then s
        else if c.stage = 0 && which = 0 then
          (if (outOf s o).input.isNone then done c else modOut o (fun x => { x with change := some { c with stage := 1 } }) s)
        else if c.stage = 1 && which = 1 then done c
        else s
      | none => s)

/-- ZERO_CROSSING_TIMEOUT (R369): the window of a change ends, and its final crossfade is complete. -/
def execZeroCrossingTimeout (t o : Nat) (s : State) : Host.Outcome State Fault Refusal :=
  if matrixSize ≤ o then .fault .noSuchObject
  else
    let s := advance t s
    .next (match (outOf s o).change with
      | some c => if c.kind = 0 && c.at_ + c.window ≤ sampleNow s then
          audCount 1 1 (modOut o (fun x => { x with change := none }) s) else s
      | none => s)

/-- GAIN_RAMP_DONE (R368): the 48-sample ramp of an output ends. -/
def execGainRampDone (t o : Nat) (s : State) : Host.Outcome State Fault Refusal :=
  if matrixSize ≤ o then .fault .noSuchObject
  else
    let s := advance t s
    .next (match (outOf s o).change with
      | some c => if c.kind = 1 && c.at_ + c.window ≤ sampleNow s then modOut o (fun x => { x with change := none }) s else s
      | none => s)

/-- CONVERTER_SLIP (R359): a converter repeats or drops samples. -/
def execConverterSlip (t channel : Nat) (s : State) : Host.Outcome State Fault Refusal :=
  if matrixSize ≤ channel then .fault .noSuchObject else .next (audCount 7 1 (advance t s))

/-- AUDIO_PARITY (R377): an input sample (0) or a matrix entry (1) fails parity. The sample before stands; the output of an
entry fades and stays silent until a change or a write sets it. -/
def execAudioParity (t channel place : Nat) (s : State) : Host.Outcome State Fault Refusal :=
  if matrixSize ≤ channel || 1 < place then .fault .noSuchObject
  else
    let s := advance t s
    .next (if !lanesRun s then s
      else
        let s := if place = 1 then modOut channel (fun x => { x with failed := true, failedAt := sampleNow s }) s else s
        audioFailure (raise 3 6 0x6011 0 [pack16_8 channel place 0] (audCount 6 1 s)))

/-- The nominal rates of a port in mHz with their codes (R372, Table 11.10). -/
def portRates : List (Nat × Nat) := [(44100000, 1), (48000000, 2), (96000000, 3)]

/-- Two rates agree within a number of ppm of the second. -/
def ratesAgree (ppm a b : Nat) : Bool := decide ((max a b - min a b) * 1000000 ≤ b * ppm)

/-- The code of a supported rate within 1,000 ppm; 0 for none (R372). -/
def rateCode (mhz : Nat) : Nat := ((portRates.find? (fun r => ratesAgree 1000 mhz r.1)).map (·.2)).getD 0

/-- The nominal rate of a code. -/
def nominalRate (code : Nat) : Nat := ((portRates.find? (fun r => r.2 == code)).map (·.1)).getD 0

/-- A running port takes a rate change: its inputs fade and it measures again (Table 11.3). -/
def portRateChange (p : Nat) (s : State) : State :=
  setPortState p 1 0 (portCount p 2 (modPort p (fun x => { x with agree := 0, lastHz := 0 }) s))

/-- A measurement window of 1 ms of a port ends (R372, Table 11.3). -/
def portWindow (p mhz : Nat) (s : State) : State :=
  let x := portOf s p
  let s := modPort p (fun x => { x with glitches := 0 }) s
  if x.state = 0 then s
  else if x.state = 2 && ratesAgree 1000 mhz (nominalRate x.rate) then s
  else
    let s := if x.state = 2 then portRateChange p s else s
    let y := portOf s p
    let agree := if y.lastHz ≠ 0 && ratesAgree 100 mhz y.lastHz then y.agree + 1 else 1
    let s := modPort p (fun x => { x with agree := agree, lastHz := mhz }) s
    if agree < 8 then s
    else if rateCode mhz = 0 then setPortState p 4 0 s
    else setPortState p 2 (rateCode mhz) (modPort p (fun x => { x with fifoIn := 32, fifoOut := 32, ppm := 0 }) s)

/-- AUDIO_PORT_RATE_WINDOW (R372): `mhz` is the frame rate that the window measured, in mHz. -/
def execAudioPortRateWindow (t p mhz : Nat) (s : State) : Host.Outcome State Fault Refusal :=
  if 15 < p then .fault .noSuchObject
  else
    let s := advance t s
    .next (if lanesRun s then portWindow p mhz s else s)

/-- AUDIO_PORT_STOP (R374): no clock edge for 4 word periods. -/
def execAudioPortStop (t p : Nat) (s : State) : Host.Outcome State Fault Refusal :=
  if 15 < p then .fault .noSuchObject
  else
    let s := advance t s
    .next (if !lanesRun s || (portOf s p).state = 0 || (portOf s p).state = 3 then s
      else setPortState p 3 0 (portCount p 1 (modPort p (fun x => { x with agree := 0, lastHz := 0 }) s)))

/-- A word of a port as a matrix sample (R354). -/
def portSample (width raw : Nat) : Int := if width = 1 then signedOf 24 raw else signedOf 16 raw * 256

/-- A matrix output as a word of a port: a 16-bit port takes it rounded and saturated (R371). -/
def portWord (width : Nat) (v : Int) : Int := if width = 1 then v else satInt 16 (roundDiv v 256)

/-- The words that DOUT carries for a frame: the two outputs while the port runs with OUT_EN, else low (R372, R374). -/
def portOut (p : Nat) (s : State) : State :=
  let x := portOf s p
  (portPair p).foldl (fun s o =>
    emit (.sample s.clock.clk o (if x.outEn && x.state = 2 then portWord x.width (outSample s o) else 0)) s) s

/-- The FIFO levels and the oscillator's offset after a frame; a level of 4 or 60 frames slips to 32 (R373). -/
def portLevels (p fifoIn fifoOut : Nat) (ppm : Int) (s : State) : State :=
  let slip := fun (n : Nat) => decide (n ≤ 4) || decide (60 ≤ n)
  let s := modPort p (fun x => { x with
    ppm := ppm, fifoIn := if slip fifoIn then 32 else fifoIn, fifoOut := if slip fifoOut then 32 else fifoOut }) s
  let s := if slip fifoIn then (portPair p).foldl (fun s i => startSeam i 48 s) (portCount p 3 s) else s
  if slip fifoOut then portCount p 3 s else s

/-- A port frame (R371, R373, R374). -/
def portFrame (p clocks left right fifoIn fifoOut : Nat) (ppm : Int) (s : State) : State :=
  let x := portOf s p
  if clocks ≠ (if x.clocks = 0 then 32 else 64) then
    let s := raise 2 6 0x6002 0 [pack8_16 p 0 clocks] (portCount p 0 (modPort p (fun x => { x with glitches := x.glitches + 1 }) s))
    let s := if (portOf s p).glitches = 9 && x.state = 2 then portRateChange p s else s
    portOut p s
  else
    let s := if x.state = 2 then portLevels p fifoIn fifoOut ppm s else s
    let s := if x.inEn && x.state = 2 then
        modIn (16385 + 2 * p) (fun i => { i with sample := portSample x.width right })
          (modIn (16384 + 2 * p) (fun i => { i with sample := portSample x.width left }) s)
      else s
    portOut p s

/-- AUDIO_PORT_FRAME (R374): a frame of `clocks` BCLK cycles with the words of its two channels; the FIFO levels and the
oscillator's offset in 0.01 ppm are those that the level loop gives after it.
Log 10 (DESIGN CHOICE, safe). -/
def execAudioPortFrame (t p clocks left right fifoIn fifoOut : Nat) (ppm : Int) (s : State) :
    Host.Outcome State Fault Refusal :=
  if 15 < p then .fault .noSuchObject
  else
    let s := advance t s
    .next (if lanesRun s && (portOf s p).state ≠ 0 then portFrame p clocks left right fifoIn fifoOut ppm s else s)

/-- The RTP timestamp of the 48 kHz media clock now (R402). -/
def audioClock (s : State) : Nat := s.clock.now * 48 / 1000000 % 0x100000000

/-- The samples of an audio payload, channel by channel (R375). -/
def payloadSamples (depth channels : Nat) (data : List Byte) : List (List Int) :=
  let b := if depth = 1 then 3 else 2
  let n := data.length / (b * max 1 channels)
  (List.range n).map (fun i => (List.range channels).map (fun k =>
    let raw := beNat (sub data ((i * channels + k) * b) b)
    if depth = 1 then signedOf 24 raw else signedOf 16 raw * 256))

/-- Samples of a receive context are missing at playout: they are zero, with fades at the gap, and count in AUD_CNT index 4
(R376). -/
def streamMissing (k n : Nat) (s : State) : State :=
  if n = 0 then s
  else
    let chs := (streamChannels k).take (streamOf s k).channels
    audCount 4 n (chs.foldl (fun s i => fadeOut i s) s)

/-- A packet of a receive context is played (R376): `rtp` is its timestamp. A packet whose size does not fit the context is
discarded; one that comes after its playout is missing.
Log 79 (DEDUCED, safe). -/
def streamPacket (k rtp : Nat) (data : List Byte) (s : State) : State :=
  let x := streamOf s k
  let size := if x.ptime = 0 then 48 else 6
  let rows := payloadSamples x.depth x.channels data
  if data.length ≠ size * x.channels * (if x.depth = 1 then 3 else 2) then s
  else
    let gap := match x.next with | some n => (rtp + 0x100000000 - n) % 0x100000000 | none => 0
    let s := if gap < 0x80000000 then streamMissing k gap s else s
    let late := (audioClock s + 0x100000000 - rtp) % 0x100000000
    let s := modStream k (fun y => { y with next := some ((rtp + size) % 0x100000000) }) s
    if late < 0x80000000 && x.linkUs * 48 < late * 1000 then streamMissing k size s
    else
      let s := (List.range x.channels).foldl (fun s i =>
        let n := 16416 + 64 * k + i
        fadeIn n (modIn n (fun y => { y with sample := (rows.getLastD []).getD i 0 }) s)) s
      let s := modStream k (fun y => { y with
        lastAt := s.clock.clk, since := if gap ≠ 0 || s.clock.clk ≥ y.lastAt + 10000000 then s.clock.clk else y.since }) s
      if x.state = 1 then setStreamState k 2 s else s

/-- AUDIO_STREAM_LATE (R376): a receive context has played nothing for 10 ms and becomes LATE, or has played for 10 ms
without a gap and runs again. -/
def execAudioStreamLate (t k : Nat) (s : State) : Host.Outcome State Fault Refusal :=
  if 127 < k then .fault .noSuchObject
  else
    let s := advance t s
    let x := streamOf s k
    .next (if x.dir ≠ 1 then s
      else if x.state = 2 && x.lastAt + 10000000 ≤ s.clock.clk then
        setStreamState k 3 (((streamChannels k).take x.channels).foldl (fun s i => fadeOut i s) s)
      else if x.state = 3 && x.since + 10000000 ≤ s.clock.clk && s.clock.clk < x.lastAt + 10000000 then setStreamState k 2 s
      else s)

end Sys2Proof.Machine
end

