-- ==== Sys2Proof/Machine/Compose.lean ====
section
/-! DEFINITION. The picture of a compositor as a function of its active state and contents (R296, R297, R300, R307 to R309,
R313 to R316, R337), and the signatures of a rectangle (R338, R339). -/

namespace Sys2Proof.Machine

/-- A reader of the frame buffer in a source's ring (R172). -/
def ringReader (s : State) (n slot : Nat) : Reader := fun off len =>
  let x := srcOf s n
  (List.range len).flatMap (fun i =>
    let o := off + i
    zoneRead s 0 (unitAt x.ring (slot * x.units + o / 65536) * 65536 + o % 65536) 1)

/-- The 10-bit sample of a component of an SDI data stream. -/
def videoSample (rd : Reader) (code comp x y : Nat) : Nat :=
  let b := Config.sdiSampleBit code comp x y
  u24 (rd (b / 8) 3) 0 / 2 ^ (14 - b % 8) % 1024

/-- A pixel of a video frame; chroma is read within columns [lo, hi] (R308). -/
def videoPx (rd : Reader) (code lo hi x y : Nat) : Px :=
  ⟨2, 65535, videoSample rd code 0 x y, oddChroma lo hi x (fun i => videoSample rd code 1 i y),
   oddChroma lo hi x (fun i => videoSample rd code 2 i y)⟩

/-- Black as a source that waits for its first frame shows (R183). -/
def blackPx : Px := ⟨2, 65535, 64, 512, 512⟩

/-- A pixel of a live layer (R297, R299): its source's frame that was read out last, its park still, or nothing.
Log 58 (DESIGN CHOICE, safe). -/
def livePx (s : State) (c l lo hi x y : Nat) : Option Px :=
  match liveSource s c l with
  | some n =>
    let v := srcOf s n
    match v.bufs.find? (fun b => b.seq == v.lastRead) with
    | some b => if v.phase = 1 then some blackPx else some (videoPx (ringReader s n b.slot) (sourceFormat s n) lo hi x y)
    | none => some blackPx
  | none =>
    let d := dstOf s (layerDest c l)
    if d.shown = 2 && d.parkType = 1 && d.fallback.isNone && (tget {} s.xpt.dst (layerDest c l)).selected.isSome then
      (versionFor s d.parkValue (.park (layerDest c l))).map (fun v => videoPx (readerOf s v) v.format lo hi x y)
    else none

/-- The width of a layer's content. -/
def contentWidth (s : State) (c l : Nat) : Nat :=
  (contentSize s c l ((compOf s c).active.layers.getD l {}) (layerVersion s c l)).1

/-- A pixel of an active layer's content; chroma is read within columns [lo, hi]. -/
def contentPx (s : State) (c l lo hi x y : Nat) : Option Px :=
  let a := (compOf s c).active.layers.getD l {}
  if a.content = 1 then livePx s c l lo hi x y
  else match layerVersion s c l with
    | none => none
    | some v =>
      let rd := readerOf s v
      if a.content = 4 then some (videoPx rd v.format lo hi x y)
      else if a.content = 2 then some (surfacePixel rd a.fill (u16 (rd 0 16) 8) v.format lo hi x y)
      else if a.content = 3 then some (px8888 (kitePixel rd (kiteOf rd) x y))
      else none

/-- The content of a layer is premultiplied (R313, Tables 9.4 and 9.5). -/
def premultiplied (s : State) (c l : Nat) : Bool :=
  let a := (compOf s c).active.layers.getD l {}
  match layerVersion s c l with
  | some v => (a.content == 2 && v.format == 2) || (a.content == 3 && (kiteOf (readerOf s v)).premul)
  | none => false

/-- The content position under output position `i` of an axis of `n` output samples over `m` content samples, as a whole
part and a phase of 64 (R309). -/
def scalePos (m n i : Nat) : Int × Nat :=
  let num : Int := ((2 * i + 1) * m : Nat) - (n : Int)
  let den : Int := (2 * n : Nat)
  (num / den, (num % den * 64 / den).toNat)

/-- The taps of an axis: offset from the whole part, and coefficient in 1/256; they sum to 256 (R309). An axis that is not
scaled passes its samples.
Log 58 (DESIGN CHOICE, safe). -/
def scaleTaps (kernel : Nat) (vertical : Bool) (m n phase : Nat) : List (Int × Int) :=
  if m = n then [(0, 256)]
  else match kernel with
    | 1 => [(0, 256 - 4 * phase), (1, 4 * phase)]
    | 2 => [(if phase < 32 then 0 else 1, 256)]
    | _ =>
      let ks : List Int := if vertical then [-2, -1, 1, 2, 3] else [-3, -2, -1, 1, 2, 3, 4]
      let side := ks.map (fun k => (k, max (-512) (min 511 (Config.sincTap vertical m n phase (k + 3).toNat))))
      (0, 256 - side.foldl (fun a t => a + t.2) 0) :: side

/-- The largest value of alpha and of the components in a form. -/
def pxLimits (form : Nat) : Nat × Nat := match form with | 0 => (255, 255) | 1 => (3, 1023) | _ => (65535, 1023)

/-- A filter over stored components and alpha, rounded and clamped (R309). -/
def filterPx (ts : List (Int × Px)) : Px :=
  let form := (ts.head?.map (fun t => t.2.form)).getD 0
  let one := fun (get : Px → Nat) (top : Nat) =>
    clampInt 0 top (roundDiv (ts.foldl (fun a t => a + t.1 * (get t.2 : Int)) 0) 256)
  let lim := pxLimits form
  ⟨form, one (·.a) lim.1, one (·.c1) lim.2, one (·.c2) lim.2, one (·.c3) lim.2⟩

/-- A content position within the window: taps outside repeat its edge (R309). -/
def inWindow (start len : Nat) (p : Int) : Nat := start + clampInt 0 (len - 1) p

/-- The pixel (i, j) of a scaled layer, horizontally first (R309, R311); a degraded layer filters lines bilinearly (R312). -/
def scaledPx (s : State) (c l : Nat) (e : Extent) (degraded : Bool) (lo hi i j : Nat) : Option Px :=
  let a := (compOf s c).active.layers.getD l {}
  let h := scalePos e.ww e.w i
  let v := scalePos e.wh e.h j
  let row := fun (y : Nat) => ((scaleTaps a.kernel false e.ww e.w h.2).mapM (fun t =>
    (contentPx s c l lo hi (inWindow a.winX e.ww (h.1 + t.1)) y).map (fun p => (t.2, p)))).map filterPx
  ((scaleTaps (if degraded then 1 else a.kernel) true e.wh e.h v.2).mapM (fun t =>
    (row (inWindow a.winY e.wh (v.1 + t.1))).map (fun p => (t.2, p)))).map filterPx

/-- The armed rectangle that holds a position, if any. -/
def rectAt (k : Comp) (x y : Nat) : Option Rect :=
  (((List.range 4).filter (fun r => k.armed.getD r false)).map (fun r => k.active.rects.getD r {})).find?
    (fun r => decide (r.x ≤ x) && decide (x < r.x + r.w) && decide (r.y ≤ y) && decide (y < r.y + r.h))

/-- The content columns within which chroma is interpolated: an armed rectangle's, else the whole content (R337). -/
def chromaSpan (s : State) (c l : Nat) (a : Layer) (r : Option Rect) : Nat × Nat :=
  match r with
  | some r => if l = 7 then
      let lo := ((a.winX : Int) + r.x - a.x).toNat
      (lo, lo + r.w - 1)
    else (0, contentWidth s c l - 1)
  | none => (0, contentWidth s c l - 1)

/-- One layer applied at an output position (R313). -/
def applyLayer (s : State) (c : Nat) (late : List (Nat × Nat)) (x y : Nat) (d : Rgb) (l : Nat) : Rgb :=
  let k := compOf s c
  let a := k.active.layers.getD l {}
  let cond := (k.conds.getD l (0, 0)).1
  let e := extentOf a (contentSize s c l a (layerVersion s c l))
  if a.visible && a.content != 0 && cond != 2 && !late.contains (l, y) && decide (a.x ≤ x) && decide ((x : Int) < a.x + e.w)
      && decide (a.y ≤ y) && decide ((y : Int) < a.y + e.h) then
    let span := chromaSpan s c l a (rectAt k x y)
    match scaledPx s c l e (cond == 1) span.1 span.2 ((x : Int) - a.x).toNat ((y : Int) - a.y).toNat with
    | some p => blend (premultiplied s c l) a.alpha d (toWorking k.colour p)
    | none => d
  else d

/-- The working pixel of a composed position (R313, R316, R337). -/
def composedPx (s : State) (c : Nat) (late : List (Nat × Nat)) (x y : Nat) : Rgb :=
  let k := compOf s c
  let p := (List.range 8).foldl (applyLayer s c late x y) ⟨65535, k.active.bgR, k.active.bgG, k.active.bgB⟩
  if k.active.lutEnable && !k.lut.bypass && (rectAt k x y).isNone then
    lutMap ((k.lut.active.map (·.data)).getD Config.emptyLut) p
  else p

/-- The columns that the chroma filter may read at a position (R308, R337). -/
def filterSpan (k : Comp) (x y : Nat) : Nat × Nat :=
  match rectAt k x y with
  | some r => (r.x, r.x + r.w - 1)
  | none => (0, (activePicture k.format).1 - 1)

/-- Y, Cb and Cr of the output at a picture position; Cb and Cr are meaningful at even columns (R308).
Log 65 (DESIGN CHOICE, safe). -/
def composedYcc (s : State) (c : Nat) (late : List (Nat × Nat)) (x y : Nat) : Nat × Nat × Nat :=
  let k := compOf s c
  let f := filterSpan k x y
  let px := fun i => composedPx s c late i y
  (outY k.colour (px x), chroma422 f.1 f.2 x (fun i => outCb k.colour (px i)), chroma422 f.1 f.2 x (fun i => outCr k.colour (px i)))

/-- The samples of a rectangle in the order of R338. -/
def rectSamples (r : Rect) (ycc : Nat → Nat → Nat × Nat × Nat) : List Nat :=
  (List.range r.h).flatMap (fun j => (List.range (r.w / 2)).flatMap (fun i =>
    let x := r.x + 2 * i
    let a := ycc x (r.y + j)
    [a.2.1, a.1, a.2.2, (ycc (x + 1) (r.y + j)).1]))

/-- The working pixel of layer 7's content under a rectangle's position, as the reference converter has it (R339). -/
def referencePx (s : State) (c : Nat) (r : Rect) (x y : Nat) : Rgb :=
  let k := compOf s c
  let a := k.active.layers.getD 7 {}
  let lo := ((a.winX : Int) + r.x - a.x).toNat
  match contentPx s c 7 lo (lo + r.w - 1) ((a.winX : Int) + x - a.x).toNat ((a.winY : Int) + y - a.y).toNat with
  | some p => toWorking k.colour p
  | none => ⟨0, 0, 0, 0⟩

/-- The reference signature of a rectangle (R338, R339). -/
def referenceSignature (s : State) (c : Nat) (r : Rect) : Word :=
  let col := (compOf s c).colour
  let px := referencePx s c r
  signatureOf (rectSamples r (fun x y =>
    (outY col (px x y), chroma422 r.x (r.x + r.w - 1) x (fun i => outCb col (px i y)),
     chroma422 r.x (r.x + r.w - 1) x (fun i => outCr col (px i y)))))

/-- The output signature of a rectangle over the words that the compositor writes (R338, R339).
Log 65 (DESIGN CHOICE, safe). -/
def outputSignature (s : State) (c : Nat) (r : Rect) : Word := signatureOf (rectSamples r (composedYcc s c []))

/-- A pixel that the reference fetcher reads has alpha below 1.0 (R339). -/
def referenceTransparent (s : State) (c : Nat) (r : Rect) : Bool :=
  (List.range r.h).any (fun j => (List.range r.w).any (fun i => (referencePx s c r (r.x + i) (r.y + j)).a != 65535))

/-- The tiles of a layer's kite window that are bad (R305). -/
def badKiteTiles (s : State) (c l : Nat) : List Nat :=
  let a := (compOf s c).active.layers.getD l {}
  match layerVersion s c l with
  | some v =>
    if a.content = 3 && v.kind = 3 then
      let rd := readerOf s v
      let k := kiteOf rd
      let e := extentOf a (k.width, k.height)
      let tw := ceilDiv k.width 16
      (List.range (tw * ceilDiv k.height 16)).filter (fun i =>
        decide (a.winX / 16 ≤ i % tw) && decide (i % tw * 16 < a.winX + e.ww) && decide (a.winY / 16 ≤ i / tw)
          && decide (i / tw * 16 < a.winY + e.wh) && kiteBad k (kiteEntry rd k (i % tw) (i / tw)))
    else []
  | none => []

end Sys2Proof.Machine
end

