-- ==== Sys2Proof/Machine/Store.lean ====
section
/-! DEFINITION. The frame store (chapter 8): its commands, the writing of objects that three commands share, scrubbing and
confirming reads, banks, refresh and power states of pseudo-channels, and memory initialisation. -/

namespace Sys2Proof.Machine

/-- The units that a number of bytes takes. -/
def unitsFor (length : Nat) : Nat := ceilDiv length 65536

/-- A zone that breaks R262. -/
def zoneBroken (z : Zone) : Bool :=
  decide (7 < z.pcLog2) || z.pcBase % 2 ^ z.pcLog2 != 0 || decide (128 < z.pcBase + 2 ^ z.pcLog2)
    || z.rowCount % 2 != 0 || decide (z.rowCount < 2) || decide (16382 < z.rowBase + z.rowCount)

/-- Two zones share a PC and a row (R262). -/
def zonesOverlap (a b : Zone) : Bool :=
  a.defined && b.defined && decide (a.pcBase < b.pcBase + 2 ^ b.pcLog2) && decide (b.pcBase < a.pcBase + 2 ^ a.pcLog2)
    && decide (a.rowBase < b.rowBase + b.rowCount) && decide (b.rowBase < a.rowBase + a.rowCount)

/-- The zone that a FST_ZONE_SET asks for; order 0xFF deletes it. -/
def zoneAsked (c : HostCmd) : Zone :=
  if u8 c.params 1 = 0xFF then {}
  else ⟨true, u8 c.params 1, u8 c.params 2, u8 c.params 3, u16 c.params 4, u16 c.params 6⟩

/-- FST_ZONE_SET (Table 8.11). -/
def refuseFstZoneSet : Refuse := fun s c =>
  let k := u8 c.params 0
  let z := zoneAsked c
  firstRefusal [needLen 8 c,
    refuseIf (decide (7 < k) || (z.defined && decide (2 < z.order))) .badParam,
    refuseIf (!z.defined && decide (k < 2)) .badParam,
    refuseIf (z.defined && (zoneBroken z || (k == 0 && z.order != 1) || (k == 1 && z.order == 2))) .badParam,
    refuseIf ((List.range 8).any (fun j => j != k && zonesOverlap z (zoneOf s j))) .badParam,
    refuseIf (!(usedRuns s k).isEmpty) .busy]
/-- FST_ZONE_SET redefines or deletes a zone; the bytes of its area stay (R265).
Log 54 (DEDUCED, safe). -/
def effFstZoneSet : Effect := fun s c =>
  let k := u8 c.params 0
  let s := onFst (fun f => { f with zones := f.zones.set k (zoneAsked c) }) s
  (s, some (.ok, beBytes 4 (zoneOf s k).units))
/-- FST_ZONE_SET (R265). -/
def execFstZoneSet (t : Nat) (c : HostCmd) (s : State) : Host.Outcome State Fault Refusal :=
  .next (runCommand .fstZoneSet refuseFstZoneSet effFstZoneSet t c s)

/-- The zone orders of a kind (Table 8.5): true for TILE. -/
def kindTiled (kind : Nat) : Bool := kind == 2 || kind == 3

/-- A kind, zone, format and length that Table 8.5 allows for an object that the host creates. -/
def createFits (s : State) (kind zone format length : Nat) : Bool :=
  let z := zoneOf s zone
  decide (2 ≤ zone) && decide (zone < 8) && z.defined && ((z.order == 2) == kindTiled kind)
    && (match kind with
      | 1 => (formatOf format).isSome && length == frameBytes format
      | 2 => decide (1 ≤ format) && decide (format ≤ 5) && length % 1024 == 0 && decide (2048 ≤ length)
          && decide (length ≤ surfaceLength 16384 16384 1)
      | 3 => format == 0 && decide (1 ≤ length) && decide (length ≤ 268435456)
      | 4 => format == 1 && length == 215622
      | _ => false)

/-- The parameters of an object write: FST_OBJ_WRITE and CMP_PROT_WRITE (Tables 8.10 and 10.4). -/
structure ObjWrite where
  obj    : Nat
  create : Bool
  end_   : Bool
  kind   : Nat
  zone   : Nat
  format : Nat
  length : Nat
  crc    : Nat
  offset : Nat
  data   : List Byte
deriving DecidableEq, Repr

/-- The parameters as the 24-byte header gives them. -/
def objWriteOf (c : HostCmd) : ObjWrite :=
  let f := u8 c.params 2
  ⟨u16 c.params 0, bitOf f 0, bitOf f 1, u8 c.params 3, u8 c.params 4, u16 c.params 6, u32 c.params 8, u32 c.params 12,
   u32 c.params 16, c.params.drop 24⟩

/-- The version that an object write acts on: the created one, or the one being loaded. -/
def writeLength (s : State) (w : ObjWrite) : Nat :=
  if w.create then w.length else ((objOf s w.obj).load.map (·.1.length)).getD 0

/-- An ID without the runs that a CREATE frees first (R268): the version being loaded, and an INVALID version. -/
def clearForCreate (n : Nat) (s : State) : State :=
  modObj n (fun o => if o.invalid then { o with load := none, cur := none, invalid := false } else { o with load := none }) s

/-- The refusals that object writes share (Table 8.11); `roleOk` says whether the session may write the object. -/
def objWriteRefusal (s : State) (c : HostCmd) (roleOk : Bool) : Option (Status × List Byte) :=
  let w := objWriteOf c
  let o := objOf s w.obj
  firstRefusal [
    refuseIf (decide (c.params.length < 24)) .badLength,
    refuseIf (decide (2046 < w.obj) || decide (3 < u8 c.params 2) || u8 c.params 5 != 0 || u32 c.params 20 != 0) .badParam,
    refuseIf (w.create && !createFits s w.kind w.zone w.format w.length) .badParam,
    refuseIf ((w.create || o.load.isSome) && decide (writeLength s w < w.offset + w.data.length)) .badParam,
    refuseIf (!roleOk) .roleDenied,
    refuseIf (!w.create && o.load.isNone) .objectInvalid,
    refuseIf (w.create && (findRun (clearForCreate w.obj s) w.zone (unitsFor w.length)).isNone) .noResource]

/-- Create a version to load on an ID (R268). -/
def createVersion (n kind zone format length crc width height : Nat) (s : State) : State :=
  let was := (objOf s n).invalid
  let s := clearForCreate n s
  let u := unitsFor length
  let v : Version := { kind := kind, zone := zone, format := format, length := length, crc := crc
                       first := (findRun s zone u).getD 0, units := u, width := width, height := height }
  let s := modObj n (fun o => { o with load := some (v, s.clock.clk) }) s
  if was then modeDecision s else s

/-- Write data into the version being loaded (R268). -/
def writeLoading (n off : Nat) (data : List Byte) (s : State) : State :=
  match (objOf s n).load with
  | none => s
  | some (v, _) =>
    let s := zoneWriteAt v.zone (v.first * 65536 + off) data s
    modObj n (fun o => { o with load := some (v, s.clock.clk) }) s

/-- The version being loaded reads back with good parity (R268). -/
def loadClean (s : State) (v : Version) : Bool := (zoneBad s v.zone (v.first * 65536) v.length).isEmpty

/-- The version being loaded becomes VALID (R268, R269): referencers move at their own next frame boundaries, and a LUT
whose copy is active is copied again (R318). -/
def loadValid (n : Nat) (v : Version) (s : State) : State :=
  let o := objOf s n
  let s := match o.cur with
    | some old => if o.invalid || o.filling then s else retire n old false s
    | none => s
  let s := modObj n (fun o => { o with cur := some v, invalid := false, filling := false, load := none }) s
  let s := s.cmp.comps.foldl (fun s p =>
    if (p.2.lut.active.map (·.obj)) = some n && !p.2.lut.pending then
      modComp p.1 (fun k => { k with lut := { k.lut with jobs := k.lut.jobs ++ [{ obj := n }], autoSwap := false } }) s
    else s) s
  if o.invalid then modeDecision s else s

/-- The version being loaded is freed (R268). -/
def loadFails (n : Nat) (s : State) : State := tidyObj n (modObj n (fun o => { o with load := none }) s)

/-- END of an object write: the CRC and parity decide (R268); the CRC is that of the bytes `data`. -/
def endLoading (n : Nat) (data : List Byte) (mapOf : State → Version → List Bool) (gate : State → Version → Bool)
    (s : State) : State × Status × Nat :=
  match (objOf s n).load with
  | none => (s, .objectInvalid, 0)
  | some (v, _) =>
    if !loadClean s v || (crc32 data).toNat ≠ v.crc then (loadFails n s, .objectInvalid, 0)
    else
      let v' := { v with opaque_ := mapOf s v }
      if !gate s v' then (loadFails n s, .badParam, 0)
      else (loadValid n v' s, .ok, (v'.opaque_.filter (fun b => b)).length)

/-- R336: while armed rectangles refer to a protected object, a new version must be opaque in each tile that they touch. -/
def armedGate (n : Nat) (s : State) (v : Version) : Bool :=
  !(objOf s n).prot || s.cmp.comps.all (fun p =>
    let y := p.2.active.layers.getD 7 {}
    if anyArmed p.2 && decide (2 ≤ y.content) && y.obj = n then
      tilesOpaque y p.2.active.rects v (contentSize s p.1 7 y (some v))
    else true)

/-- The bytes of the version being loaded. -/
def loadingBytes (s : State) (n : Nat) : List Byte :=
  match (objOf s n).load with | some (v, _) => versionBytes s v 0 v.length | none => []

/-- What object writes share once accepted (R268): create, write, end. The reply has the first unit with CREATE.
Log 71 (DEDUCED, safe). -/
def objWriteEffect (w : ObjWrite) (prot : Bool) (mapOf : State → Version → List Bool) (s : State) :
    State × Status × List Byte :=
  let s := if w.create then createVersion w.obj w.kind w.zone w.format w.length w.crc 0 0 s else s
  let s := if w.create && prot then modObj w.obj (fun o => { o with prot := true }) s else s
  let s := writeLoading w.obj w.offset w.data s
  let first := if w.create then beBytes 4 (((objOf s w.obj).load.map (·.1.first)).getD 0) else []
  if w.end_ then
    let r := endLoading w.obj (loadingBytes s w.obj) mapOf (armedGate w.obj) s
    let tail := if prot then beBytes 4 r.2.2 else []
    (r.1, r.2.1, if r.2.1 = .ok then first ++ tail else [])
  else (s, .ok, first)

/-- FST_OBJ_WRITE is for SAFETY sessions exactly on safety-owned objects (Table 8.10, R269). -/
def refuseFstObjWrite : Refuse := fun s c =>
  objWriteRefusal s c ((c.role == .safety) == safetyOwned s (u16 c.params 0))
/-- FST_OBJ_WRITE (R268). -/
def effFstObjWrite : Effect := fun s c =>
  let r := objWriteEffect (objWriteOf c) false (fun _ _ => []) s
  (r.1, some (r.2.1, r.2.2))
/-- FST_OBJ_WRITE (R268). -/
def execFstObjWrite (t : Nat) (c : HostCmd) (s : State) : Host.Outcome State Fault Refusal :=
  .next (runCommand .fstObjWrite refuseFstObjWrite effFstObjWrite t c s)

/-- FST_OBJ_READ (Table 8.11). -/
def refuseFstObjRead : Refuse := fun s c =>
  let n := u16 c.params 0
  let k := u32 c.params 8
  let o := objOf s n
  firstRefusal [needLen 12 c,
    refuseIf (decide (2047 < n) || u16 c.params 2 != 0 || k == 0 || decide (65536 < k)) .badParam,
    refuseIf ((o.cur.isSome || o.invalid) && !o.filling
      && decide (((o.cur.map (·.length)).getD 0) < u32 c.params 4 + k)) .badParam,
    refuseIf ((o.cur.isNone && !o.invalid) || o.filling) .objectInvalid]
/-- FST_OBJ_READ answers the object's bytes with the first offset that fails parity (R261, Table 8.2).
Log 55 (DEDUCED, safe). -/
def effFstObjRead : Effect := fun s c =>
  let o := objOf s (u16 c.params 0)
  match o.cur with
  | none => (s, some (.ok, []))
  | some v =>
    let off := u32 c.params 4
    let r := serviceRead 4 v.zone (v.first * 65536 + off) (u32 c.params 8) s
    (r.2.2, some (.ok, beBytes 1 o.code ++ beBytes 1 v.kind ++ beBytes 1 v.zone ++ beBytes 1 0
      ++ beBytes 4 (match r.2.1 with | some k => off + k | none => 0xFFFFFFFF) ++ r.1))
/-- FST_OBJ_READ (R288). -/
def execFstObjRead (t : Nat) (c : HostCmd) (s : State) : Host.Outcome State Fault Refusal :=
  .next (runCommand .fstObjRead refuseFstObjRead effFstObjRead t c s)

/-- FST_OBJ_FREE (Table 8.11). -/
def refuseFstObjFree : Refuse := fun s c =>
  let n := u16 c.params 0
  let o := objOf s n
  firstRefusal [needLen 4 c,
    refuseIf (decide (2046 < n) || decide (1 < u8 c.params 2) || u8 c.params 3 != 0) .badParam,
    refuseIf ((c.role == .safety) != safetyOwned s n) .roleDenied,
    refuseIf (o.code == 0) .objectInvalid,
    refuseIf (u8 c.params 2 == 0 && !(referencers s n).isEmpty) .busy]
/-- An object leaves its ID: a referenced one is kept for its referencers until their next frame boundaries (R269).
Log 55 (DEDUCED, safe). -/
def freeObject (n : Nat) (s : State) : State :=
  let o := objOf s n
  let hold := o.invalid
  let s := match o.cur with
    | some v =>
      if (referencers s n).isEmpty then s
      else
        let s := retire n v true s
        if o.invalid then s else raise 3 4 0x4021 0 [pack16_8 n v.kind 3] (fstCount 3 1 s)
    | none => s
  let s := tidyObj n (modObj n (fun o => { o with cur := none, invalid := false, load := none, prot := false, filling := false }) s)
  if hold then modeDecision s else s
/-- FST_OBJ_FREE frees the object, its version being loaded included (R269). -/
def effFstObjFree : Effect := fun s c => (freeObject (u16 c.params 0) s, some (.ok, []))
/-- FST_OBJ_FREE (R269). -/
def execFstObjFree (t : Nat) (c : HostCmd) (s : State) : Host.Outcome State Fault Refusal :=
  .next (runCommand .fstObjFree refuseFstObjFree effFstObjFree t c s)

/-- FST_BANK_STATE of a PC (R290). -/
def regBankState (s : State) (pc : Nat) : Word :=
  w32 ((s.fst.lost.filter (fun g => g / 32 == pc)).foldl (fun a g => a + 2 ^ (g % 32)) 0)
/-- FST_BANK_STATUS takes no parameters. -/
def refuseFstBankStatus : Refuse := fun _ c => needLen 0 c
/-- FST_BANK_STATUS (Table 8.10). -/
def effFstBankStatus : Effect := fun s _ =>
  (s, some (.ok, beBytes 2 s.fst.lost.length ++ beBytes 2 (s.fst.objs.filter (fun p => p.2.invalid)).length
    ++ (List.range 128).flatMap (fun n => wordBytes (regBankState s n))))
/-- FST_BANK_STATUS (R288). -/
def execFstBankStatus (t : Nat) (c : HostCmd) (s : State) : Host.Outcome State Fault Refusal :=
  .next (runCommand .fstBankStatus refuseFstBankStatus effFstBankStatus t c s)

/-- A VALID or INVALID object, or one that referencers still use, has a byte in a bank (R287). -/
def bankHeld (s : State) (g : Nat) : Bool :=
  s.fst.objs.any (fun p =>
    (p.2.cur.toList ++ p.2.old.map (·.version)).any (fun v =>
      (List.range v.units).any (fun i => unitTouches (zoneOf s v.zone) (v.first + i) (g % 32) (g / 32))))

/-- The INVALID objects that a FST_INVALID_CLEAR names. -/
def clearTargets (s : State) (c : HostCmd) : List Nat :=
  let n := u16 c.params 0
  (s.fst.objs.filter (fun p => p.2.invalid
    && (if n = 0xFFFF then (c.role == .safety) == safetyOwned s p.1 else p.1 == n))).map (·.1)
/-- FST_INVALID_CLEAR (Table 8.11). -/
def refuseFstInvalidClear : Refuse := fun s c =>
  let n := u16 c.params 0
  firstRefusal [needLen 4 c, refuseIf ((decide (2047 < n) && n != 0xFFFF) || u16 c.params 2 != 0) .badParam,
    refuseIf (n != 0xFFFF && safetyOwned s n && c.role != .safety) .roleDenied]
/-- FST_INVALID_CLEAR frees INVALID objects; the reply counts them and the LOST banks that can now be re-initialised. -/
def effFstInvalidClear : Effect := fun s c =>
  let ts := clearTargets s c
  let s := ts.foldl (fun s n => tidyObj n (modObj n (fun o =>
    { o with cur := none, invalid := false, load := none, prot := false }) s)) s
  let banks := (s.fst.lost.filter (fun g => !bankHeld s g)).length
  (modeDecision s, some (.ok, beBytes 2 ts.length ++ beBytes 2 banks))
/-- FST_INVALID_CLEAR (R270). -/
def execFstInvalidClear (t : Nat) (c : HostCmd) (s : State) : Host.Outcome State Fault Refusal :=
  .next (runCommand .fstInvalidClear refuseFstInvalidClear effFstInvalidClear t c s)

/-- FST_RETAIN_SET: four mask words (R288). -/
def refuseFstRetainSet : Refuse := fun _ c => needLen 16 c
/-- FST_RETAIN_SET sets the retained PCs (R283): the last word holds PC0 to PC31. -/
def effFstRetainSet : Effect := fun s c =>
  let m := beNat c.params
  (onAon (fun a => { a with retainMask := ((List.range 128).filter (fun n => m.testBit n)).map (fun n => (n, true)) }) s,
   some (.ok, []))
/-- FST_RETAIN_SET (R283). -/
def execFstRetainSet (t : Nat) (c : HostCmd) (s : State) : Host.Outcome State Fault Refusal :=
  .next (runCommand .fstRetainSet refuseFstRetainSet effFstRetainSet t c s)

/-- OBJECT_LOAD_TIMEOUT (R268): a loading version without a write for 60 s is freed. -/
def execObjectLoadTimeout (t n : Nat) (s : State) : Host.Outcome State Fault Refusal :=
  if 2047 < n then .fault .noSuchObject
  else
    let s := advance t s
    .next (match (objOf s n).load with
      | some (_, a) => if a + 60000000000 ≤ s.clock.clk then loadFails n s else s
      | none => s)

/-- OBJECT_REFERENCER_MOVE (R269): the next frame boundary of a referencer: kind 0 a parked destination, 1 a layer as
8 × compositor + layer, 2 a compositor's LUT. -/
def execObjectReferencerMove (t obj kind index : Nat) (s : State) : Host.Outcome State Fault Refusal :=
  if 2047 < obj then .fault .noSuchObject
  else
    let s := advance t s
    let r : Referencer := if kind = 0 then .park index else if kind = 1 then .layer (index / 8) (index % 8) else .lut index
    .next (referencerMoves obj r s)

/-- BANK_REINIT (R287): a LOST bank in which no object has a byte is written with zero and read back. -/
def execBankReinit (t g : Nat) (ok : Bool) (s : State) : Host.Outcome State Fault Refusal :=
  if 4095 < g then .fault .noSuchObject
  else
    let s := advance t s
    .next (if !s.fst.lost.contains g || bankHeld s g || s.cal.failed then s
      else if ok then
        let lo := g * 2 ^ 24
        let s := onFst (fun f => { f with
          lost := f.lost.filter (fun x => x != g), mem := memClear f.mem lo (lo + 2 ^ 24)
          bad := f.bad.filter (fun a => decide (a < lo) || decide (lo + 2 ^ 24 ≤ a)) }) s
        modeDecision (raise 1 4 0x4013 0 [pack16 g 0] s)
      else calFail 0x4003 [pack8 (g / 32) 0 0 0, w32 (g % 32 * 2 ^ 24)] s)

/-- What a read of a burst delivers: the data and ECC bits that came, or the burst as stored (R260). -/
def burstFails (s : State) (l : Loc) (raw : Option (List Byte × Word)) : List Nat :=
  match raw with
  | some r => failingBytes l r.1 r.2
  | none => (List.range 32).filter (fun n => s.fst.bad.contains (l.addr / 32 * 32 + n))

/-- How long the scrub pass has taken, in whole seconds. -/
def passSeconds (s : State) : Nat := (s.clock.clk - s.fst.passAt) / 1000000000
/-- The scrub pass has taken more than 1.05 times its period (R279). -/
def passLate (s : State) : Bool := decide (s.fst.periodS * 1050000000 < s.clock.clk - s.fst.passAt)

/-- The end of a scrub pass (R279). -/
def scrubPassEnd (s : State) : State :=
  let n := s.fst.passes + 1
  let late := passLate s
  let took := passSeconds s
  let s := raise 0 4 0x4030 0 [w32 n, pack16 s.fst.passStored s.fst.passTransient] (fstCount 7 1 s)
  let s := if late then raise 2 4 0x4031 0 [w32 n, w32 took] s else s
  onFst (fun f => { f with passes := n, passAt := s.clock.clk, passStored := 0, passTransient := 0, progress := 0 }) s

/-- SCRUB_READ (R279): the scrubber reads a burst; the last burst of the last PC ends the pass. -/
def execScrubRead (t pc bank row col : Nat) (raw : Option (List Byte × Word)) (s : State) : Host.Outcome State Fault Refusal :=
  if 127 < pc || 31 < bank || 16383 < row || 31 < col then .fault .noSuchObject
  else
    let s := advance t s
    .next (if (tget {} s.fst.pcs pc).state = 0 || (tget {} s.fst.pcs pc).state = 3 then s
      else
        let l : Loc := ⟨pc, bank, row, col, 0⟩
        let fails := burstFails s l raw
        let s := touchPc l.addr s
        let s := if fails.isEmpty then s else addConfirm l.addr 5 fails s
        let done := l.addr / 32 + 1
        let s := onFst (fun f => { f with progress := done * 100 / 2 ^ 31 }) s
        if done = 2 ^ 31 then scrubPassEnd s else s)

/-- Where a byte address lies for Table 8.8: in a run that rings, packets or objects use, or free. `some n` names the VALID
object. -/
inductive Place where
  | ring | object (n : Nat) | loading | free
deriving DecidableEq, Repr

/-- The place of a byte address (Table 8.8). -/
def placeOf (s : State) (a : Nat) : Place :=
  match zoneAt s a with
  | none => .free
  | some (k, z) =>
    let u := z / 65536
    let hit := fun (r : Nat × Nat) => decide (r.1 ≤ u) && decide (u < r.1 + r.2)
    if k ≤ 1 then (if (usedRuns s k).any hit then .ring else .free)
    else
      let holds := fun (v : Version) => v.zone == k && hit (v.first, v.units)
      match s.fst.objs.find? (fun p => p.2.cur.any holds && !p.2.invalid) with
      | some p => .object p.1
      | none =>
        if s.fst.objs.any (fun p => p.2.load.any (fun v => holds v.1) || p.2.invalid && p.2.cur.any holds
            || p.2.old.any (fun x => holds x.version)) then .loading
        else .free

/-- A stored error in a burst (R280, R281): counted, reported, and acted on by where it lies. `hard` says that a free burst
fails again after its rewriting. -/
def storedBurst (q : Confirm) (fails : List Nat) (hard : Bool) (s : State) : State :=
  let l := locOf q.addr
  let s := modPc l.pc (fun p => { p with stored := min 0xFFFF (p.stored + 1) }) s
  let s := onFst (fun f => { f with
    passStored := f.passStored + 1
    bad := f.bad ++ (fails.map (fun n => q.addr + n)).filter (fun a => !f.bad.contains a) }) s
  let s := storedError l.pc (raiseStoreParity q.addr 1 q.requester fails.length s)
  match placeOf s q.addr with
  | .object n => invalidate n 0 s
  | .free =>
    let s := writePiece q.addr (List.replicate 32 0#8) s
    if hard then
      let s := onFst (fun f => { f with bad := f.bad ++ fails.map (fun n => q.addr + n) }) s
      chipFault 0x4020 (raiseStoreParity q.addr 2 q.requester fails.length (fstCount 2 1 s))
    else s
  | _ => s

/-- CONFIRMING_READ (R280 to R282): a burst that failed is read again, at least 1 µs later. -/
def execConfirmingRead (t pc bank row col : Nat) (raw : Option (List Byte × Word)) (hard : Bool) (s : State) :
    Host.Outcome State Fault Refusal :=
  if 127 < pc || 31 < bank || 16383 < row || 31 < col then .fault .noSuchObject
  else
    let s := advance t s
    let l : Loc := ⟨pc, bank, row, col, 0⟩
    .next (match s.fst.confirm.find? (fun q => q.addr == l.addr) with
      | none => s
      | some q =>
        if s.clock.clk < q.at_ + 1000 then s
        else
          let fails := burstFails s l raw
          let same := fails.filter (fun n => q.fails.contains n)
          let s := onFst (fun f => { f with confirm := f.confirm.filter (fun x => x.addr != l.addr) }) (touchPc l.addr s)
          if same.isEmpty then
            onFst (fun f => { f with passTransient := f.passTransient + 1
                                     bad := f.bad.filter (fun a => a / 32 != l.addr / 32) }) (fstCount 1 1 s)
          else
            let s := storedBurst q same hard s
            if fails.length = 32 && q.fails.length = 32 then storePcFault pc 0 s else s)

/-- PC_READ_TIMEOUT (R282): a PC returns no read data within 10 µs. -/
def execPcReadTimeout (t pc : Nat) (s : State) : Host.Outcome State Fault Refusal :=
  if 127 < pc then .fault .noSuchObject else .next (storePcFault pc 1 (advance t s))

/-- BANK_REFRESH (R276): a bank of a PC is refreshed; its open row is closed for it, and no other bank is held up. -/
def execBankRefresh (t pc bank : Nat) (s : State) : Host.Outcome State Fault Refusal :=
  if 127 < pc || 31 < bank then .fault .noSuchObject
  else
    let s := advance t s
    .next (modPc pc (fun p => { p with refreshed := tset p.refreshed bank s.clock.clk, openRows := tdel p.openRows bank }) s)

/-- STACK_TEMPERATURE_CHANGE (R276): the sensor under a stack reads a new temperature: HOT above 85 °C, until below 80 °C. -/
def execStackTemperatureChange (t stack : Nat) (celsius : Int) (s : State) : Host.Outcome State Fault Refusal :=
  if 3 < stack then .fault .noSuchObject
  else
    let s := advance t s
    .next ((List.range 32).foldl (fun s i => modPc (stack * 32 + i) (fun p =>
      { p with hot := if 85 < celsius then true else if celsius < 80 then false else p.hot }) s) s)

/-- PAGE_IDLE_EXPIRED (R275): PAGE_IDLE cycles of 1.25 ns without an access close a bank's row.
Log 56 (DESIGN CHOICE, safe). -/
def execPageIdleExpired (t pc bank : Nat) (s : State) : Host.Outcome State Fault Refusal :=
  if 127 < pc || 31 < bank then .fault .noSuchObject
  else
    let s := advance t s
    .next (match tfind (tget {} s.fst.pcs pc).openRows bank with
      | some (_, a) =>
        if a * 4 + s.fst.pageIdle * 5 ≤ s.clock.clk * 4 then modPc pc (fun p => { p with openRows := tdel p.openRows bank }) s
        else s
      | none => s)

/-- SELF_REFRESH_ENTRY (R277): a PC with empty queues and no access for SR_IDLE_US enters self-refresh. -/
def execSelfRefreshEntry (t pc : Nat) (s : State) : Host.Outcome State Fault Refusal :=
  if 127 < pc then .fault .noSuchObject
  else
    let s := advance t s
    let p := tget {} s.fst.pcs pc
    .next (if p.state = 1 && s.fst.srIdleUs ≠ 0 && decide (p.lastAccess + s.fst.srIdleUs * 1000 ≤ s.clock.clk) then
        fstCount 6 1 (modPc pc (fun p => { p with state := 2, openRows := [] }) s)
      else s)

/-- WRITE_DRAIN (R273, R274): the write queue of a PC reaches 48 entries, and is drained to 16; `forwarded` reads were served
from it meanwhile. Writes have taken effect as they were accepted (R274).
Log 56 (DESIGN CHOICE, safe). -/
def execWriteDrain (t pc forwarded : Nat) (s : State) : Host.Outcome State Fault Refusal :=
  if 127 < pc then .fault .noSuchObject
  else
    let s := advance t s
    .next (fstCount 5 1 (fstCount 4 forwarded (modPc pc (fun p => { p with lastAccess := s.clock.clk }) s)))

/-- MEMORY_INIT_DONE (R66, R67): every byte of the store has been written with zero and read back, or byte `failed` (PC and
byte address in it) fails. Retained PCs keep their contents after S2 (R285). -/
def execMemoryInitDone (t : Nat) (failed : Option (Nat × Nat)) (s : State) : Host.Outcome State Fault Refusal :=
  let s := advance t s
  .next (if s.mode ≠ .calibrate || s.cal.memory || s.cal.failed then s
    else match failed with
      | some (pc, a) => calFail 0x4003 [pack8 pc 0 0 0, w32 a] s
      | none =>
        let kept := fun (a : Nat) => (tget {} s.fst.pcs (a / 2 ^ 29)).retained
        let s := onFst (fun f => { f with
          mem := f.mem.filter (fun c => kept c.1), bad := f.bad.filter kept, passAt := s.clock.clk
          pcs := (List.range 128).foldl (fun m n => tmod {} m n (fun p => { p with
            state := if p.state = 4 then 4 else 1, lastAccess := s.clock.clk })) f.pcs }) s
        calProgress (onCal (fun k => { k with memory := true }) s))

/-- FST_ZONE_CFG (Table 8.12). -/
def regZoneCfg (s : State) (k : Nat) : Word :=
  let z := zoneOf s k
  fields [(0, 2, z.order), (2, 1, bit z.defined), (4, 3, z.pcLog2), (8, 7, z.pcBase), (16, 2, min k 2)]
/-- FST_ZONE_ROWS (Table 8.13). -/
def regZoneRows (s : State) (k : Nat) : Word := fields [(0, 14, (zoneOf s k).rowBase), (16, 14, (zoneOf s k).rowCount)]
/-- FST_ZONE_FREE (R290). -/
def regZoneFree (s : State) (k : Nat) : Word := fields [(0, 21, (zoneFreeRuns s k).foldl (fun a r => a + r.2) 0)]
/-- FST_ZONE_RUN (R290). -/
def regZoneRun (s : State) (k : Nat) : Word := fields [(0, 21, (zoneFreeRuns s k).foldl (fun a r => max a r.2) 0)]
/-- FST_SCHED_CFG (Table 8.14). -/
def regSchedCfg (s : State) : Word := fields [(0, 8, s.fst.pageIdle), (16, 14, s.fst.srIdleUs)]
/-- A write of FST_SCHED_CFG. -/
def writeSchedCfg (v : Nat) (s : State) : State :=
  onFst (fun f => { f with pageIdle := bitsOf v 7 0, srIdleUs := min 10000 (bitsOf v 29 16) }) s
/-- FST_SCRUB_CFG (Table 8.15). -/
def regScrubCfg (s : State) : Word := fields [(0, 17, s.fst.periodS), (24, 7, s.fst.progress)]
/-- A write of FST_SCRUB_CFG. -/
def writeScrubCfg (v : Nat) (s : State) : State := onFst (fun f => { f with periodS := clampNat 10 86400 (bitsOf v 16 0) }) s
/-- FST_RETAIN_MASK. -/
def regRetainMask (s : State) (i : Nat) : Word :=
  w32 ((List.range 32).foldl (fun a b => if tget false s.aon.retainMask (32 * i + b) then a + 2 ^ b else a) 0)
/-- FST_RETAIN_STATUS (Table 8.16). -/
def regRetainStatus (s : State) : Word :=
  fields [(0, 16, s.aon.retainCount), (16, 12, min 4095 s.aon.retainLost), (28, 1, bit s.aon.retainChecked)]
/-- FST_PC_STATUS (Table 8.17). -/
def regPcStatus (s : State) (n : Nat) : Word :=
  let p := tget {} s.fst.pcs n
  fields [(0, 3, p.state), (3, 1, bit p.retained), (4, 1, bit p.hot)]
/-- FST_PC_ERR. -/
def regPcErr (s : State) (n : Nat) : Word :=
  let p := tget {} s.fst.pcs n
  fields [(0, 16, p.service), (16, 16, p.stored)]

end Sys2Proof.Machine
end

