-- ==== Sys2Proof/Machine/Comp.lean ====
section
/-! DEFINITION. The compositors (chapter 9): their commands, the landing of their configuration and commits, output frames
and the LUT memories. -/

namespace Sys2Proof.Machine

/-- Count in one index of CMP_CNT (Table 9.15). -/
def cmpCount (c i k : Nat) (s : State) : State := modComp c (fun x => { x with cnt := bumpBy x.cnt i k }) s

/-- Raise a composition event with the path of the compositor's region (R330). -/
def raiseCmp (sev code c : Nat) (payload : List Word) (s : State) : State := raise sev 5 code (pathRegion (c / 16)) payload s

/-- LUT_STATE (Table 9.18): 0 copied, 1 swapped, 2 copy failed, 3 bypassed, 4 automatic reload. -/
def lutState (c happening obj : Nat) (s : State) : State := raiseCmp 1 0x5040 c [pack8_16 c happening obj] s

/-- The engines of an output format (Table 9.1). -/
def engines (code : Nat) : Nat := if is2160 code then 4 else 1

/-- The first slot-equivalent and the slot count of a compositor's output (R295). -/
def outputSlots (c code : Nat) : List Byte :=
  beBytes 2 (2560 + 2 * c) ++ beBytes 1 (classSlots (((formatOf code).map (·.cls)).getD 0)) ++ beBytes 1 0

/-- A compositor is a gang member, or will be one when an accepted change lands (R293). -/
def ganged (s : State) (c : Nat) : Bool :=
  (compOf s c).state == 2 || (c % 4 != 0 && (match (compOf s (c / 4 * 4)).change with | some x => is2160 x.format | none => false))

/-- The members that a leader needs are disabled, and none awaits its own enabling (R293). -/
def membersFree (s : State) (c : Nat) : Bool :=
  [1, 2, 3].all (fun i =>
    let k := compOf s (c + i)
    (k.state == 0 || (k.state == 2 && k.leader == c)) && k.change.isNone)

/-- Any destination selects a compositor's output, or any of its layer inputs has a source selected (R323). -/
def compInUse (s : State) (c : Nat) : Bool :=
  s.xpt.dst.any (fun p => p.2.selected == some (1024 + c) || (decide (1024 ≤ p.1) && (p.1 - 1024) / 8 == c && p.2.selected.isSome))

/-- The plane and format that a compositor has, or will have when an accepted change lands. -/
def plannedOutput (s : State) (c : Nat) : Nat × Nat :=
  match (compOf s c).change with
  | some x => (x.plane, x.format)
  | none => ((compOf s c).plane, (compOf s c).format)

/-- The fields of a CMP_CONFIG that are out of range; only the fields of a selected part are judged (Table 9.12). -/
def configBad (s : State) (ps : List Byte) : Bool :=
  let c := u8 ps 0
  let out := bitOf (u8 ps 1) 0
  let sh := bitOf (u8 ps 1) 1
  let f := u8 ps 3
  decide (63 < c) || decide (3 < u8 ps 1) || u16 ps 6 != 0 || u16 ps 14 != 0
    || (out && (decide (7 < u8 ps 2) || (formatOf f).map (·.family) != some (tpCfg s (u8 ps 2)).family || decide (1 < u8 ps 4)
      || (is2160 f && c % 4 != 0)))
    || (sh && decide (1 < u8 ps 5))

/-- CMP_CONFIG (Table 9.12, R323). -/
def refuseCmpConfig : Refuse := fun s c =>
  let n := u8 c.params 0
  let out := bitOf (u8 c.params 1) 0
  let f := u8 c.params 3
  let changes := out && compOn s n && (u8 c.params 2, f) != plannedOutput s n
  firstRefusal [needLen 16 c,
    refuseIf (configBad s c.params) .badParam,
    refuseIf (!out && !compOn s n) .objectInvalid,
    refuseIf (out && (ganged s n || (is2160 f && !membersFree s n) || (changes && compInUse s n))) .busy,
    if out then capacityRefusal s (totalsOf (allSrcs s) (allDsts s) (compSlots s n + (if is2160 f then 8 else 2))
      (compLoad s n + (if is2160 f then 4 else 1))) else none]

/-- CMP_CONFIG: the output part awaits an output frame start at least 1 ms on, the shadow part is written now (R319, R323). -/
def effCmpConfig : Effect := fun s c =>
  let n := u8 c.params 0
  let sel := u8 c.params 1
  let p := u8 c.params 2
  let f := u8 c.params 3
  let on := compOn s n
  let s := if bitOf sel 0 then
      let new : CmpChange := { plane := p, format := f, enable := !on, at_ := s.clock.clk + 1000000 }
      let same := on && (p, f) == ((compOf s n).plane, (compOf s n).format)
      modComp n (fun k => { k with
        change := if same then none else some new
        shadow := if on || k.change.isSome then k.shadow else {}
        colourNext := some (u8 c.params 4) }) s
    else s
  let s := if bitOf sel 1 then
      modComp n (fun k => { k with shadow := { k.shadow with
        bgR := u16 c.params 8, bgG := u16 c.params 10, bgB := u16 c.params 12, lutEnable := u8 c.params 5 == 1 } }) s
    else s
  (s, some (.ok, outputSlots n (plannedOutput s n).2))
/-- CMP_CONFIG (R323). -/
def execCmpConfig (t : Nat) (c : HostCmd) (s : State) : Host.Outcome State Fault Refusal :=
  .next (runCommand .cmpConfig refuseCmpConfig effCmpConfig t c s)

/-- The layer record of a CMP_LAYER_SET at a byte offset (R326). -/
def layerRecord (ps : List Byte) (o : Nat) : Layer :=
  { content := u8 ps o, kernel := u8 ps (o + 1), obj := u16 ps (o + 2), fill := w32 (u32 ps (o + 4))
    visible := u8 ps (o + 8) == 1, liveCap := u8 ps (o + 9), alpha := u16 ps (o + 10)
    x := signedOf 16 (u16 ps (o + 12)), y := signedOf 16 (u16 ps (o + 14)), w := u16 ps (o + 16), h := u16 ps (o + 18)
    winX := u16 ps (o + 20), winY := u16 ps (o + 22), winW := u16 ps (o + 24), winH := u16 ps (o + 26) }

/-- A position attribute is in range (Table 9.2). -/
def positionFits (x : Int) : Bool := decide (-8192 ≤ x) && decide (x ≤ 8191)

/-- A selected attribute is out of its range (Table 9.2). -/
def layerBad (ps : List Byte) : Bool :=
  let sel := u16 ps 2
  let y := layerRecord ps 4
  let on := fun i (b : Bool) => bitOf sel i && b
  on 0 (decide (4 < y.content) || decide (2046 < y.obj)) || on 1 (decide (2 < y.kernel)) || on 3 (decide (1 < u8 ps 12))
    || on 4 (decide (y.liveCap < 1) || decide (4 < y.liveCap)) || on 6 (!positionFits y.x) || on 7 (!positionFits y.y)
    || on 8 (decide (16384 < y.w)) || on 9 (decide (16384 < y.h)) || on 10 (decide (16383 < y.winX))
    || on 11 (decide (16383 < y.winY)) || on 12 (decide (16384 < y.winW)) || on 13 (decide (16384 < y.winH))

/-- The selected attributes of a record put into a layer (R326). -/
def mergeLayer (sel : Nat) (old new : Layer) : Layer :=
  { content := if bitOf sel 0 then new.content else old.content
    kernel := if bitOf sel 1 then new.kernel else old.kernel
    obj := if bitOf sel 0 then new.obj else old.obj
    fill := if bitOf sel 2 then new.fill else old.fill
    visible := if bitOf sel 3 then new.visible else old.visible
    liveCap := if bitOf sel 4 then new.liveCap else old.liveCap
    alpha := if bitOf sel 5 then new.alpha else old.alpha
    x := if bitOf sel 6 then new.x else old.x
    y := if bitOf sel 7 then new.y else old.y
    w := if bitOf sel 8 then new.w else old.w
    h := if bitOf sel 9 then new.h else old.h
    winX := if bitOf sel 10 then new.winX else old.winX
    winY := if bitOf sel 11 then new.winY else old.winY
    winW := if bitOf sel 12 then new.winW else old.winW
    winH := if bitOf sel 13 then new.winH else old.winH }

/-- Write a layer of the shadow state. -/
def setShadow (c l : Nat) (f : Layer → Layer) (s : State) : State :=
  modComp c (fun k => { k with shadow := { k.shadow with layers := k.shadow.layers.set l (f (k.shadow.layers.getD l {})) } }) s

/-- The object that a selected CONTENT needs is VALID and of its kind. -/
def namedObjectOk (s : State) (y : Layer) : Bool :=
  decide (y.content ≤ 1) || (match (objOf s y.obj).valid with | some v => v.kind == contentKind y.content | none => false)

/-- CMP_LAYER_SET (Table 9.12). -/
def refuseCmpLayerSet : Refuse := fun s c =>
  let sel := u16 c.params 2
  firstRefusal [needLen 32 c,
    refuseIf (decide (63 < u8 c.params 0) || decide (7 < u8 c.params 1) || decide (0x3FFF < sel) || layerBad c.params) .badParam,
    refuseIf (u8 c.params 1 == 7 && c.role != .safety) .roleDenied,
    refuseIf (!compOn s (u8 c.params 0) || (bitOf sel 0 && !namedObjectOk s (layerRecord c.params 4))) .objectInvalid]
/-- CMP_LAYER_SET writes the selected attributes of a shadow layer (R319, R326). -/
def effCmpLayerSet : Effect := fun s c =>
  (setShadow (u8 c.params 0) (u8 c.params 1) (fun y => mergeLayer (u16 c.params 2) y (layerRecord c.params 4)) s, some (.ok, []))
/-- CMP_LAYER_SET (R319). -/
def execCmpLayerSet (t : Nat) (c : HostCmd) (s : State) : Host.Outcome State Fault Refusal :=
  .next (runCommand .cmpLayerSet refuseCmpLayerSet effCmpLayerSet t c s)

/-- The compositors that a CMP_COMMIT names. -/
def commitComps (c : HostCmd) : List Nat := (List.range (u8 c.params 2)).map (fun i => u8 c.params (8 + i))

/-- The failure of one compositor of a CMP_COMMIT: its row of Table 9.12, the check and the status. -/
def commitFailure (s : State) (c : HostCmd) (n : Nat) : Option (Nat × Nat × Status) :=
  (commitCheck s n (compOf s n).shadow (c.role == .safety)).map (fun f =>
    (if f.1 = 2 then 0 else if f.1 = 1 || f.1 = 3 then 1 else f.1, f.1, f.2))

/-- The failure that decides a CMP_COMMIT: the earliest row, then the lowest index.
Log 62 (DEDUCED, safe). -/
def firstFailure (s : State) (c : HostCmd) : Option (Nat × Nat × Status) :=
  let fs := (List.range (u8 c.params 2)).filterMap (fun i => (commitFailure s c (u8 c.params (8 + i))).map (fun f => (i, f)))
  (fs.foldl (fun (b : Option (Nat × Nat × Nat × Status)) f => match b with
    | some x => if f.2.1 < x.2.1 then some f else some x
    | none => some f) none).map (fun f => (f.1, f.2.2))

/-- The parameters of a refused CMP_COMMIT: the failing index and check. -/
def commitError (i k : Nat) : List Byte := beBytes 4 0 ++ beBytes 1 i ++ beBytes 1 k ++ beBytes 2 0

/-- CMP_COMMIT (R320, Tables 9.9, 9.12 and 10.1). -/
def refuseCmpCommit : Refuse := fun s c =>
  let n := u8 c.params 2
  if c.params.length < 8 || c.params.length ≠ 8 + (n + 3) / 4 * 4 then some (.badLength, [])
  else if 1 < u8 c.params 0 || u8 c.params 1 ≠ 0 || u8 c.params 3 ≠ 0 || u16 c.params 6 ≠ 0 || n < 1 || 64 < n
      || !allZero (c.params.drop (8 + n)) then some (.badParam, commitError 0xFF 0)
  else match (commitComps c).findIdx? (fun k => decide (63 < k)) with
    | some i => some (.badParam, commitError i 0)
    | none => match firstFailure s c with
      | some (i, k, st) => some (st, commitError i k)
      | none => if queueFits s n then none else some (.busy, commitError 0xFF 0)
/-- CMP_COMMIT queues a commit for each compositor (R320). -/
def effCmpCommit : Effect := fun s c =>
  let wait := bitOf (u8 c.params 0) 0
  let es := (commitComps c).map (fun n => ({ order := 0, action := .commit n, tag := u16 c.params 4 } : Entry))
  (placeCommand .cmpCommit c wait es s,
   if wait then none else some (.scheduled, beBytes 4 (nextTick s) ++ beBytes 1 0xFF ++ beBytes 1 0 ++ beBytes 2 0))
/-- CMP_COMMIT (R320). -/
def execCmpCommit (t : Nat) (c : HostCmd) (s : State) : Host.Outcome State Fault Refusal :=
  .next (runCommand .cmpCommit refuseCmpCommit effCmpCommit t c s)

/-- CMP_LUT_LOAD (Table 9.12). -/
def refuseCmpLutLoad : Refuse := fun s c =>
  firstRefusal [needLen 4 c,
    refuseIf (decide (63 < u8 c.params 0) || u8 c.params 1 != 0 || decide (2046 < u16 c.params 2)) .badParam,
    refuseIf (!compOn s (u8 c.params 0) || (match (objOf s (u16 c.params 2)).valid with
      | some v => v.kind != 4
      | none => true)) .objectInvalid]
/-- CMP_LUT_LOAD starts a copy into the shadow memory, or leaves it for the landing of a sealed commit that will swap
(R317). -/
def effCmpLutLoad : Effect := fun s c =>
  (modComp (u8 c.params 0) (fun k => { k with lut := { k.lut with jobs := k.lut.jobs ++ [{
      obj := u16 c.params 2, cmd := some c, waiting := k.lut.pending && k.sealed_.any (·.swap) }] } }) s, none)
/-- CMP_LUT_LOAD (R317). -/
def execCmpLutLoad (t : Nat) (c : HostCmd) (s : State) : Host.Outcome State Fault Refusal :=
  .next (runCommand .cmpLutLoad refuseCmpLutLoad effCmpLutLoad t c s)

/-- A copy ends: its command's reply, if a command waits for it. -/
def lutReply (j : LutJob) (st : Status) (s : State) : State :=
  match j.cmd with | some c => finish .cmpLutLoad c st [] s | none => s

/-- The front copy of a compositor completes, or fails on parity or for want of its object (R317, R318). An automatic copy is
dropped while a pending LUT awaits its commit. -/
def lutCopied (c : Nat) (j : LutJob) (s : State) : State :=
  let s := modComp c (fun k => { k with lut := { k.lut with jobs := k.lut.jobs.drop 1 } }) s
  if j.cmd.isNone && (compOf s c).lut.pending then s
  else
    let fail := fun (s : State) => lutReply j .objectInvalid (lutState c 2 j.obj
      (modComp c (fun k => { k with lut := { k.lut with shadow := none, pending := false, autoSwap := false } }) s))
    match (objOf s j.obj).valid with
    | none => fail s
    | some v =>
      let bad := zoneBad s v.zone (v.first * 65536) v.length
      if v.kind ≠ 4 then fail s
      else if !bad.isEmpty then fail (serviceFailures 2 (bad.map (·.2)) s)
      else
        let data := versionBytes s v 0 v.length
        let s := modComp c (fun k => { k with lut := { k.lut with
          shadow := some { obj := j.obj, data := data }, pending := j.cmd.isSome, autoSwap := j.cmd.isNone } }) s
        lutReply j .ok (lutState c 0 j.obj (cmpCount c 6 1 s))

/-- LUT_COPY_DONE (R317): the copy in progress of a compositor ends. -/
def execLutCopyDone (t c : Nat) (s : State) : Host.Outcome State Fault Refusal :=
  if 63 < c then .fault .noSuchObject
  else
    let s := advance t s
    .next (match (compOf s c).lut.jobs.head? with
      | some j => if j.waiting then s else lutCopied c j s
      | none => s)

/-- The parameters of a CMP_SURFACE_LOAD as its 20-byte header gives them, with the sizes of the version that it loads. -/
structure SurfaceLoad where
  obj    : Nat
  create : Bool
  end_   : Bool
  format : Nat
  width  : Nat
  height : Nat
  zone   : Nat
  first  : Nat
  count  : Nat
  crc    : Nat
  data   : List Byte
deriving DecidableEq, Repr

/-- The surface load that a command asks for: sizes come from the command with CREATE, else from the version in loading. -/
def surfaceLoadOf (s : State) (c : HostCmd) : SurfaceLoad :=
  let f := u8 c.params 2
  let load := ((objOf s (u16 c.params 0)).load.map (·.1))
  let make := bitOf f 0
  let get := fun (o : Nat) (g : Version → Nat) => if make then o else (load.map g).getD 0
  ⟨u16 c.params 0, make, bitOf f 1, get (u8 c.params 3) (·.format), get (u16 c.params 4) (·.width),
   get (u16 c.params 6) (·.height), u8 c.params 8, u16 c.params 10, u16 c.params 12, u32 c.params 16, c.params.drop 20⟩

/-- The version in loading was built by CMP_SURFACE_LOAD. -/
def surfaceLoading (s : State) (n : Nat) : Bool :=
  match (objOf s n).load with | some (v, _) => v.kind == 2 && v.width != 0 | none => false

/-- CMP_SURFACE_LOAD (R327, Table 9.12). -/
def refuseCmpSurfaceLoad : Refuse := fun s c =>
  let w := surfaceLoadOf s c
  let known := w.create || surfaceLoading s w.obj
  firstRefusal [refuseIf (decide (c.params.length < 20)) .badLength,
    refuseIf (decide (2046 < w.obj) || decide (3 < u8 c.params 2) || u8 c.params 9 != 0 || u16 c.params 14 != 0) .badParam,
    refuseIf (w.create && (!sizeFits w.width || !sizeFits w.height
      || !createFits s 2 w.zone w.format (surfaceLength w.width w.height w.format))) .badParam,
    refuseIf (known && (decide (w.height < w.first + w.count)
      || w.data.length != w.count * w.width * pixelBytes w.format)) .badParam,
    refuseIf ((c.role == .safety) != safetyOwned s w.obj) .roleDenied,
    refuseIf (!known) .busy,
    refuseIf (w.create && (findRun (clearForCreate w.obj s) w.zone
      (unitsFor (surfaceLength w.width w.height w.format))).isNone) .noResource]

/-- Zero the whole run of the version in loading (R327). -/
def zeroLoading (n : Nat) (s : State) : State :=
  match (objOf s n).load with
  | none => s
  | some (v, _) =>
    let mine := fun (a : Nat) => match zoneAt s a with
      | some (k, o) => k == v.zone && decide (v.first * 65536 ≤ o) && decide (o < v.first * 65536 + v.length)
      | none => false
    onFst (fun f => { f with mem := f.mem.filter (fun p => !mine p.1), bad := f.bad.filter (fun a => !mine a) }) s

/-- The runs of a line within tiles: first pixel and length. -/
def lineRuns (width side : Nat) : List (Nat × Nat) :=
  (List.range (ceilDiv width side)).map (fun i => (i * side, min side (width - i * side)))

/-- Write one raster line of a surface (R327). -/
def writeLine (w : SurfaceLoad) (y : Nat) (line : List Byte) (s : State) : State :=
  let b := pixelBytes w.format
  (lineRuns w.width (tileSide w.format)).foldl (fun s r =>
    writeLoading w.obj (surfaceOffset w.width w.format r.1 y) (sub line (r.1 * b) (r.2 * b)) s) s

/-- All lines of the version in loading, in raster order (R327). -/
def rasterLines (s : State) (w : SurfaceLoad) : List Byte :=
  match (objOf s w.obj).load with
  | none => []
  | some (v, _) => (List.range w.height).flatMap (fun y => (lineRuns w.width (tileSide w.format)).flatMap (fun r =>
      versionBytes s v (surfaceOffset w.width w.format r.1 y) (r.2 * pixelBytes w.format)))

/-- CMP_SURFACE_LOAD creates, writes lines and ends (R327). -/
def effCmpSurfaceLoad : Effect := fun s c =>
  let w := surfaceLoadOf s c
  let s := if w.create then
      writeLoading w.obj 0 (surfaceHeader w.width w.height w.format)
        (zeroLoading w.obj (createVersion w.obj 2 w.zone w.format (surfaceLength w.width w.height w.format) w.crc w.width w.height s))
    else s
  let bpl := w.width * pixelBytes w.format
  let s := (List.range w.count).foldl (fun s j => writeLine w (w.first + j) (sub w.data (j * bpl) bpl) s) s
  if w.end_ then
    let r := endLoading w.obj (rasterLines s w) (fun _ _ => []) (armedGate w.obj) s
    (r.1, some (r.2.1, []))
  else (s, some (.ok, []))
/-- CMP_SURFACE_LOAD (R327). -/
def execCmpSurfaceLoad (t : Nat) (c : HostCmd) (s : State) : Host.Outcome State Fault Refusal :=
  .next (runCommand .cmpSurfaceLoad refuseCmpSurfaceLoad effCmpSurfaceLoad t c s)

/-- CMP_DISABLE (Table 9.12, R324).
Log 61 (DEDUCED, safe). -/
def refuseCmpDisable : Refuse := fun s c =>
  let n := u8 c.params 0
  firstRefusal [needLen 4 c, refuseIf (decide (63 < n) || u24 c.params 1 != 0) .badParam,
    refuseIf (c.role != .safety && ((compOf s n).active.layers.getD 7 {}).content != 0) .roleDenied,
    refuseIf (!compOn s n) .objectInvalid]
/-- CMP_DISABLE: the compositor is disabling until an output frame start at least 1 ms on (R322). -/
def effCmpDisable : Effect := fun s c =>
  (modComp (u8 c.params 0) (fun k => { k with
     state := 3, disableAt := some (k.disableAt.getD (s.clock.clk + 1000000)) }) s, some (.scheduled, []))
/-- CMP_DISABLE (R322). -/
def execCmpDisable (t : Nat) (c : HostCmd) (s : State) : Host.Outcome State Fault Refusal :=
  .next (runCommand .cmpDisable refuseCmpDisable effCmpDisable t c s)

/-- CMP_STATE (Table 9.13). -/
def regCmpState (s : State) (c : Nat) : Word :=
  let k := compOf s c
  fields [(0, 2, k.state), (2, 3, k.plane), (8, 8, k.format), (16, 1, k.colour), (17, 1, bit k.active.lutEnable),
    (18, 1, bit k.lut.pending), (19, 1, bit k.lut.bypass), (24, 6, k.leader)]
/-- CMP_COST (Table 9.14). -/
def regCmpCost (s : State) (c : Nat) : Word := fields [(0, 24, (compOf s c).cost)]
/-- CMP_LAYER_STATE (Table 9.16). -/
def regLayerState (s : State) (c l : Nat) : Word :=
  let k := compOf s c
  let y := k.active.layers.getD l {}
  let d := k.conds.getD l (0, 0)
  fields [(0, 3, y.content), (3, 1, bit y.visible), (4, 2, y.kernel), (6, 2, d.1), (8, 3, d.2), (12, 3, y.liveCap), (16, 11, y.obj)]
/-- CMP_LAYER_SIZE (Table 9.17). -/
def regLayerSize (s : State) (c l : Nat) : Word :=
  let z := (compOf s c).sizes.getD l (0, 0)
  fields [(0, 15, z.1), (16, 15, z.2)]
/-- CMP_LAYER_POS. -/
def regLayerPos (s : State) (c l : Nat) : Word :=
  let y := (compOf s c).active.layers.getD l {}
  fields [(0, 16, unsignedOf 16 y.x), (16, 16, unsignedOf 16 y.y)]
/-- CMP_LAYER_ALPHA. -/
def regLayerAlpha (s : State) (c l : Nat) : Word := fields [(0, 16, ((compOf s c).active.layers.getD l {}).alpha)]

/-- The bytes of a layer record (R326). -/
def layerBytesOut (y : Layer) : List Byte :=
  beBytes 1 y.content ++ beBytes 1 y.kernel ++ beBytes 2 y.obj ++ wordBytes y.fill ++ beBytes 1 (bit y.visible)
    ++ beBytes 1 y.liveCap ++ beBytes 2 y.alpha ++ beBytes 2 (unsignedOf 16 y.x) ++ beBytes 2 (unsignedOf 16 y.y)
    ++ beBytes 2 y.w ++ beBytes 2 y.h ++ beBytes 2 y.winX ++ beBytes 2 y.winY ++ beBytes 2 y.winW ++ beBytes 2 y.winH

/-- CMP_QUERY (Table 9.11). -/
def refuseCmpQuery : Refuse := fun _ c =>
  firstRefusal [needLen 4 c, refuseIf (decide (63 < u8 c.params 0) || decide (1 < u8 c.params 1) || u16 c.params 2 != 0) .badParam]
/-- CMP_QUERY answers the state of a compositor. -/
def effCmpQuery : Effect := fun s c =>
  let n := u8 c.params 0
  let k := compOf s n
  let p := if u8 c.params 1 = 0 then k.active else k.shadow
  (s, some (.ok, wordBytes (regCmpState s n) ++ wordBytes (w32 k.land) ++ wordBytes (regCmpCost s n)
    ++ beBytes 2 p.bgR ++ beBytes 2 p.bgG ++ beBytes 2 p.bgB ++ beBytes 2 0
    ++ (List.range 8).flatMap (fun l => layerBytesOut (p.layers.getD l {}) ++ beBytes 1 (k.conds.getD l (0, 0)).1
      ++ beBytes 1 (k.conds.getD l (0, 0)).2 ++ beBytes 2 0)))
/-- CMP_QUERY (R326). -/
def execCmpQuery (t : Nat) (c : HostCmd) (s : State) : Host.Outcome State Fault Refusal :=
  .next (runCommand .cmpQuery refuseCmpQuery effCmpQuery t c s)

/-- The gang of a leader takes or loses its members (R293). -/
def setMembers (c : Nat) (on : Bool) (s : State) : State :=
  [1, 2, 3].foldl (fun s i => modComp (c + i) (fun k =>
    if on then { k with state := 2, leader := c } else if k.state = 2 then { k with state := 0, leader := 0 } else k) s) s

/-- What a disabled compositor keeps: counters, its last landing, its protection configuration and a reaction in force.
Log 64 (DEDUCED, safe). -/
def clearedComp (k : Comp) : Comp :=
  { cnt := k.cnt, protCnt := k.protCnt, land := k.land, cfg := k.cfg, cfgNext := k.cfgNext, reacted := k.reacted
    safe := k.safe, lastKind := k.lastKind, compared := k.compared }

/-- An accepted CMP_CONFIG lands (R292, R293, R323). -/
def landConfig (c : Nat) (x : CmpChange) (s : State) : State :=
  let s := if x.enable then
      modComp c (fun k => { clearedComp k with state := 1, shadow := k.shadow, plane := x.plane, format := x.format
                                               colour := k.colourNext.getD 0 }) s
    else modComp c (fun k => { k with plane := x.plane, format := x.format, change := none }) s
  let s := if c % 4 = 0 then setMembers c (is2160 x.format) s else s
  if x.enable then
    let s := raiseCmp 1 0x5001 c [pack8 c x.plane x.format (engines x.format)] s
    (List.range 8).foldl (fun s l => showDest (layerDest c l) false s) s
  else s

/-- CMP_CONFIG_LANDS (R323): an output frame starts at least 1 ms after an accepted enable or change. -/
def execCmpConfigLands (t c : Nat) (s : State) : Host.Outcome State Fault Refusal :=
  if 63 < c then .fault .noSuchObject
  else
    let s := advance t s
    .next (match (compOf s c).change with
      | some x => if x.at_ ≤ s.clock.clk && lanesRun s then landConfig c x s else s
      | none => s)

/-- An entry is a commit of a compositor, or a take to one of its layer inputs. -/
def Entry.ofComp (e : Entry) (c : Nat) : Bool :=
  match e.action with
  | .commit x => x == c
  | .video d _ => decide (1024 ≤ d) && (d - 1024) / 8 == c
  | _ => false

/-- CMP_DISABLE lands (R322): entries are discarded, destinations will park at their switching lines, and the compositor and
its gang are cleared. Commands that wait for a LUT copy are cancelled.
Log 60 (DEDUCED, safe). -/
def landDisable (c : Nat) (s : State) : State :=
  let n := planeCount s (compPlane s c) (compFormat s c)
  let s := discardEntries (fun e => e.ofComp c) 2 s
  let s := (compOf s c).lut.jobs.foldl (fun s j => lutReply j .cancelled s) s
  let s := (selecting s c).foldl (fun s d => modDst d (fun x => { x with srcGone := true }) s) s
  let s := (List.range 8).foldl (fun s l =>
    let d := layerDest c l
    modDst d (fun x => { parkType := x.parkType, parkValue := x.parkValue })
      (onXpt (fun x => { x with dst := tdel x.dst d }) s)) s
  let s := referencersMove (fun r => match r with | .layer k _ => k == c | .lut k => k == c | _ => false) s
  let s := setMembers c false (modComp c clearedComp s)
  raiseCmp 1 0x5002 c [pack8_16 c 0 0, w32 n] s

/-- CMP_DISABLE_LANDS (R322): an output frame starts at least 1 ms after CMP_DISABLE. -/
def execCmpDisableLands (t c : Nat) (s : State) : Host.Outcome State Fault Refusal :=
  if 63 < c then .fault .noSuchObject
  else
    let s := advance t s
    .next (match (compOf s c).disableAt with
      | some a => if a ≤ s.clock.clk && (compOf s c).state = 3 && lanesRun s then landDisable c s else s
      | none => s)

/-- The two LUT memories are swapped. -/
def swapLut (c happening : Nat) (s : State) : State :=
  let k := compOf s c
  let s := modComp c (fun k => { k with lut := { k.lut with
    active := k.lut.shadow, shadow := k.lut.active, pending := false, autoSwap := false
    bypass := if happening = 1 then false else k.lut.bypass } }) s
  lutState c happening ((k.lut.shadow.map (·.obj)).getD 0) s

/-- The LUT memories at an output frame start (R318): an automatic reload is swapped in; an active copy whose object is no
longer VALID is bypassed; a copy that waited for a commit no longer sealed starts. -/
def lutFrame (c : Nat) (s : State) : State :=
  let s := if (compOf s c).lut.autoSwap && !(compOf s c).lut.pending then swapLut c 4 s else s
  let k := compOf s c
  let s := match k.lut.active with
    | some a => if !k.lut.bypass && (objOf s a.obj).valid.isNone then
        lutState c 3 a.obj (modComp c (fun k => { k with lut := { k.lut with bypass := true } }) s) else s
    | none => s
  if (compOf s c).sealed_.isEmpty then
    modComp c (fun k => { k with lut := { k.lut with jobs := k.lut.jobs.map (fun j => { j with waiting := false }) } }) s
  else s

/-- The queue entries of a sealed commit. -/
def snapEntries (s : State) (c tick : Nat) : List Entry :=
  s.xpt.queue.filter (fun e => e.commitOf c && e.sealed_ == some tick)

/-- A sealed commit may land on the output frame that starts (R320, R466). -/
def snapReady (s : State) (c n : Nat) (x : Snapshot) : Bool :=
  let fast := ((formatOf (compFormat s c)).map (·.fast)).getD false
  match (snapEntries s c x.tick).head? with
  | some e => entryReady s (compPlane s c) fast n { e with arm := x.arm, target := none }
  | none => true

/-- A sealed commit lands on output frame `n` (R317, R320). One whose entries were all discarded does not.
Log 63 (DEDUCED, safe). -/
def landCommit (c n : Nat) (x : Snapshot) (s : State) : State :=
  let es := snapEntries s c x.tick
  let s := modComp c (fun k => { k with sealed_ := k.sealed_.drop 1 }) s
  if es.isEmpty then s
  else
    let s := modComp c (fun k => { k with active := x.picture, land := n }) s
    let s := if x.swap && (compOf s c).lut.pending then
        modComp c (fun k => { k with lut := { k.lut with jobs := k.lut.jobs.map (fun j => { j with waiting := false }) } })
          (swapLut c 1 s)
      else s
    let s := cmpCount c 1 1 s
    let s := if s.xpt.landEvt then raiseCmp 0 0x5010 c [pack8_16 c 0 x.session, w32 n] s else s
    es.foldl (fun s e => entryGone e none n (freeEntry e s)) s

/-- The commits that are ready land in order. -/
def landCommits (c n : Nat) (s : State) : State :=
  (compOf s c).sealed_.foldl (fun (r : Bool × State) x =>
    if r.1 && snapReady r.2 c n x then (true, landCommit c n x r.2) else (false, r.2)) (true, s) |>.2

/-- Takes to the layer inputs land on the output frame start, and each input decides what it shows (R224, R299). -/
def landInputs (c n : Nat) (s : State) : State :=
  (List.range 8).foldl (fun s l =>
    let d := layerDest c l
    let old := (xdst s d).selected
    let s := landTakes d n (readyTakes s d) s
    showDest d ((xdst s d).selected != old) s) s

/-- The event of a layer whose condition changes (R312). -/
def layerEvent (c l : Nat) (old : Nat) (x : LayerEval) (s : State) : State :=
  if old = x.cond then s
  else if x.cond = 2 then raiseCmp 2 0x5021 c [pack8 c l x.cause 0, pack16 x.e.w 0] s
  else if x.cond = 1 then raiseCmp 2 0x5020 c [pack8 c l 0 0, pack16 x.e.w 0] s
  else raiseCmp 1 0x5022 c [pack8 c l 0 0] s

/-- Every committed layer is judged afresh (R300, R312, R321).
Log 59 (DEDUCED, safe). -/
def judgeLayers (c : Nat) (s : State) : State :=
  let es := evalLayers s c
  let old := (compOf s c).conds
  let total := es.foldl (fun a x => a + x.cost) 0
  let s := modComp c (fun k => { k with
    conds := es.map (fun x => (x.cond, x.cause))
    sizes := es.map (fun x => (x.e.w, x.e.h))
    cost := costMbs s c total
    costs := (List.range 8).map (fun l => match es[l]? with
      | some x => if x.cond = 2 && x.cause = 5 then k.costs.getD l 0 else x.cost
      | none => 0) }) s
  (List.range 8).foldl (fun s l => match es[l]? with
    | some x => layerEvent c l (old.getD l (0, 0)).1 x s
    | none => s) s

/-- A failure of the protected content (Table 10.2, R343, R344): a rectangle that has not yet failed in the reaction in force
is counted and reported, and the reaction starts or is extended.
Log 68 (DEDUCED, safe). -/
def protFail (c r kind n : Nat) (ref out : Word) (s : State) : State :=
  let k := compOf s c
  let w := k.watch.getD r {}
  let s := modComp c (fun k => { k with
    lastKind := kind, watch := k.watch.set r { (k.watch.getD r {}) with good := 0 } }) s
  if k.reacted && w.failed then s
  else
    let s := modComp c (fun k => { k with
      protCnt := bump k.protCnt 2
      watch := (List.range 4).map (fun j =>
        let y := k.watch.getD j {}
        { y with failed := y.failed || j == r
                 atFailure := y.atFailure || k.armed.getD j false || j == r
                 good := if y.atFailure || k.armed.getD j false || j == r then 0 else y.good }) }) s
    reaction 1 [c] (raise 5 11 0x5051 (pathRegion (c / 16)) [pack8 c r kind 0, w32 n, ref, out] s)

/-- Rectangles are armed and disarmed on an output frame (R333, R340, R345), and one that is enabled while layer 7 is blanked
fails with kind 3 (Table 10.2).
Log 66 (DEDUCED, safe). -/
def armRects (c n : Nat) (s : State) : State :=
  let k := compOf s c
  let cond7 := (k.conds.getD 7 (0, 0)).1
  let y := k.active.layers.getD 7 {}
  let now := armedRects k.active cond7
  let fresh := (List.range 4).any (fun r => now.getD r false && !k.armed.getD r false)
  let mask := (List.range 4).foldl (fun a r => if now.getD r false then a + 2 ^ r else a) 0
  let s := modComp c (fun k => { k with
    armed := now
    watch := (List.range 4).map (fun r =>
      let w := k.watch.getD r {}
      let kept := (k.active.rects.getD r {}).enable && y.visible && decide (2 ≤ y.content)
      let w := if now.getD r false then w else { w with bad := 0, lastFrame := none }
      if kept then w else { w with atFailure := false }) }) s
  let s := if fresh then raiseCmp 1 0x5050 c [pack8_16 c mask 0, w32 n] s else s
  if cond7 = 2 then
    (List.range 4).foldl (fun s r => if (k.active.rects.getD r {}).enable then protFail c r 3 n 0#32 0#32 s else s) s
  else s

/-- Bad kite tiles of the layers that are shown (R305). -/
def kiteFaults (c : Nat) (s : State) : State :=
  (List.range 8).foldl (fun s l =>
    if ((compOf s c).conds.getD l (0, 0)).1 = 2 then s
    else
      let y := (compOf s c).active.layers.getD l {}
      (badKiteTiles s c l).foldl (fun s i =>
        raiseCmp 2 0x5032 c [pack8_16 c l y.obj, w32 i] (cmpCount c 5 1 s)) s) s

/-- The byte of a version that a layer fetches for an output frame (R302, R304, Table 8.2). -/
def fetches (s : State) (y : Layer) (v : Version) (o : Nat) : Bool :=
  let rd := readerOf s v
  let h := rd 0 16
  let e := extentOf y (u16 h 8, u16 h 10)
  let side := contentTile v
  let touched := fun (tx ty : Nat) => decide (y.winX / side ≤ tx) && decide (tx * side < y.winX + e.ww)
    && decide (y.winY / side ≤ ty) && decide (ty * side < y.winY + e.wh)
  if o < 1024 || v.kind = 1 then true
  else if v.kind = 2 then
    let tw := max 1 (ceilDiv (u16 h 8) side)
    let i := o / 1024 - 1
    touched (i % tw) (i / tw)
  else
    let k := kiteOf rd
    let tw := max 1 (ceilDiv k.width 16)
    (List.range (tw * ceilDiv k.height 16)).any (fun i =>
      let t := kiteEntry rd k (i % tw) (i / tw)
      touched (i % tw) (i / tw) && ((decide (1024 + 8 * i ≤ o) && decide (o < 1032 + 8 * i))
        || (decide (u32 t 4 ≤ o) && decide (o < u32 t 4 + kiteFetch k t))))

/-- The fetches of the layers that are shown pass bytes that fail parity to the scrubber (R261). -/
def fetchFaults (c : Nat) (s : State) : State :=
  (List.range 8).foldl (fun s l =>
    let y := (compOf s c).active.layers.getD l {}
    if ((compOf s c).conds.getD l (0, 0)).1 = 2 then s
    else match layerVersion s c l with
      | some v =>
        let bad := (zoneBad s v.zone (v.first * 65536) v.length).filter (fun p => fetches s y v p.1)
        if bad.isEmpty then s else serviceFailures 2 (bad.map (·.2)) s
      | none => s) s

/-- CMP_FETCH_LATE and CMP_PARITY of an output frame (R325): `late` lists layer and line, `parity` layer (255 the LUT), where
(0 fetch, 1 line buffer, 2 LUT memory) and line. -/
def frameFaults (c : Nat) (late : List (Nat × Nat)) (parity : List (Nat × Nat × Nat)) (s : State) : State :=
  let s := late.foldl (fun s x => compFailure (c / 16)
    (raiseCmp 2 0x5031 c [pack8 c x.1 0 0, pack16 x.2 0] (cmpCount c 4 1 s))) s
  let s := parity.foldl (fun s x => compFailure (c / 16)
    (raiseCmp 3 0x5030 c [pack8 c x.1 x.2.1 0, pack16 x.2.2 0] (cmpCount c 3 1 s))) s
  if parity.isEmpty then s
  else (s.flow.dst.filter (fun p => shownSource s p.1 == some (1024 + c))).foldl
    (fun s p => modDst p.1 (fun x => { x with badWord := true }) s) s

/-- A live layer that is shown uses a tainted frame (R297). -/
def usesTainted (s : State) (c : Nat) : Bool :=
  (List.range 8).any (fun l => ((compOf s c).active.layers.getD l {}).content == 1
    && ((compOf s c).conds.getD l (0, 0)).1 != 2
    && (match liveSource s c l with | some n => decide (n < 1024) && (srcOf s n).outTainted | none => false))

/-- An output frame starts (R296, R312, R320). -/
def outputFrame (c : Nat) (late : List (Nat × Nat)) (parity : List (Nat × Nat × Nat)) (probes : List (Nat × Nat)) (s : State) :
    State :=
  let n := planeCount s (compPlane s c) (compFormat s c)
  let s := referencersMove (fun r => match r with | .layer k _ => k == c | .lut k => k == c | _ => false) s
  let s := modComp c (fun k => { k with
    colour := k.colourNext.getD k.colour, colourNext := none, cfg := k.cfgNext.getD k.cfg, cfgNext := none }) s
  let s := landCommits c n (landInputs c n (lutFrame c s))
  let s := armRects c n (judgeLayers c s)
  let s := frameFaults c late parity (fetchFaults c (kiteFaults c s))
  let tainted := usesTainted s c || !parity.isEmpty
  let s := modComp c (fun k => { k with frame := n, tainted := tainted }) (cmpCount c 0 1 s)
  let s := if tainted then cmpCount c 7 1 s else s
  probes.foldl (fun s p =>
    let v := composedYcc s c late p.1 p.2
    emit (.composed s.clock.clk c p.1 p.2 v.1 v.2.1 v.2.2) s) s

/-- OUTPUT_FRAME_START (R312): an output frame of a compositor starts; `probes` are the picture positions whose output words
the model logs.
Log 65 (DESIGN CHOICE, safe). -/
def execOutputFrameStart (t c : Nat) (late : List (Nat × Nat)) (parity : List (Nat × Nat × Nat)) (probes : List (Nat × Nat))
    (s : State) : Host.Outcome State Fault Refusal :=
  if 63 < c then .fault .noSuchObject
  else
    let s := advance t s
    .next (if compOn s c && lanesRun s && !inS1 s then outputFrame c late parity probes s else s)

end Sys2Proof.Machine
end

