-- ==== Sys2Proof/Machine/Prot.lean ====
section
/-! DEFINITION. Protected content (chapter 10): protected objects, signature rectangles and the comparison of signatures. -/

namespace Sys2Proof.Machine

/-- The opacity map of a version, one entry per tile in raster order (R335). -/
def opacityMap (s : State) (v : Version) : List Bool :=
  let rd := readerOf s v
  if v.kind = 1 then
    let p := activePicture v.format
    List.replicate (ceilDiv p.1 16 * ceilDiv p.2 16) true
  else if !headerOk s v then []
  else if v.kind = 2 then
    let w := u16 (rd 0 16) 8
    let h := u16 (rd 0 16) 10
    let tw := ceilDiv w (tileSide v.format)
    (List.range (tw * ceilDiv h (tileSide v.format))).map (fun i => surfaceTileOpaque rd w h v.format (i % tw) (i / tw))
  else
    let k := kiteOf rd
    let tw := ceilDiv k.width 16
    (List.range (tw * ceilDiv k.height 16)).map (fun i => kiteTileOpaque rd k (i % tw) (i / tw))

/-- CMP_PROT_WRITE (Table 10.5): the rules of FST_OBJ_WRITE, for stills, surfaces and kites. -/
def refuseCmpProtWrite : Refuse := fun s c =>
  firstRefusal [refuseIf (decide (c.params.length < 24)) .badLength,
    refuseIf (bitOf (u8 c.params 2) 0 && (u8 c.params 3 == 0 || decide (3 < u8 c.params 3))) .badParam,
    objWriteRefusal s c true]
/-- CMP_PROT_WRITE creates and writes a protected object; END builds its opacity map (R332, R335, R349). -/
def effCmpProtWrite : Effect := fun s c =>
  let r := objWriteEffect (objWriteOf c) true opacityMap s
  (r.1, some (r.2.1, r.2.2))
/-- CMP_PROT_WRITE (R349). -/
def execCmpProtWrite (t : Nat) (c : HostCmd) (s : State) : Host.Outcome State Fault Refusal :=
  .next (runCommand .cmpProtWrite refuseCmpProtWrite effCmpProtWrite t c s)

/-- Write a rectangle of the shadow state. -/
def setShadowRect (c r : Nat) (f : Rect → Rect) (s : State) : State :=
  modComp c (fun k => { k with shadow := { k.shadow with rects := k.shadow.rects.set r (f (k.shadow.rects.getD r {})) } }) s

/-- CMP_PROT_RECT_SET (Table 10.5). -/
def refuseCmpProtRectSet : Refuse := fun s c =>
  let p := c.params
  firstRefusal [needLen 12 c,
    refuseIf (decide (63 < u8 p 0) || decide (3 < u8 p 1) || decide (1 < u8 p 2) || decide (1 < u8 p 3)
      || decide (16383 < u16 p 4) || decide (16383 < u16 p 6) || decide (16384 < u16 p 8) || decide (16384 < u16 p 10)) .badParam,
    refuseIf (!compOn s (u8 p 0)) .objectInvalid]
/-- CMP_PROT_RECT_SET writes a rectangle of the shadow state (R331, R349). -/
def effCmpProtRectSet : Effect := fun s c =>
  let p := c.params
  (setShadowRect (u8 p 0) (u8 p 1) (fun r => { r with
    enable := u8 p 2 == 1, golden := u8 p 3 == 1, x := u16 p 4, y := u16 p 6, w := u16 p 8, h := u16 p 10 }) s, some (.ok, []))
/-- CMP_PROT_RECT_SET (R349). -/
def execCmpProtRectSet (t : Nat) (c : HostCmd) (s : State) : Host.Outcome State Fault Refusal :=
  .next (runCommand .cmpProtRectSet refuseCmpProtRectSet effCmpProtRectSet t c s)

/-- CMP_PROT_GOLDEN_SET (Table 10.5). -/
def refuseCmpProtGoldenSet : Refuse := fun s c =>
  firstRefusal [needLen 8 c,
    refuseIf (decide (63 < u8 c.params 0) || decide (3 < u8 c.params 1) || u16 c.params 2 != 0) .badParam,
    refuseIf (!compOn s (u8 c.params 0)) .objectInvalid]
/-- CMP_PROT_GOLDEN_SET writes the golden value of a rectangle of the shadow state (R331, R349). -/
def effCmpProtGoldenSet : Effect := fun s c =>
  (setShadowRect (u8 c.params 0) (u8 c.params 1) (fun r => { r with value := w32 (u32 c.params 4) }) s, some (.ok, []))
/-- CMP_PROT_GOLDEN_SET (R349). -/
def execCmpProtGoldenSet (t : Nat) (c : HostCmd) (s : State) : Host.Outcome State Fault Refusal :=
  .next (runCommand .cmpProtGoldenSet refuseCmpProtGoldenSet effCmpProtGoldenSet t c s)

/-- CMP_PROT_CFG (Table 10.6): the value stored, which takes effect at the next output frame start (R351, R532).
Log 32 (DEDUCED, safe). -/
def regProtCfg (s : State) (c : Nat) : Word :=
  let k := (compOf s c).cfgNext.getD (compOf s c).cfg
  fields [(0, 2, k.confirm), (2, 1, bit k.holdDest), (16, 11, k.safeStill)]
/-- Four flags as a mask. -/
def mask4 (f : Nat → Bool) : Nat := (List.range 4).foldl (fun a r => if f r then a + 2 ^ r else a) 0
/-- CMP_PROT_STATUS (Table 10.7). -/
def regProtStatus (s : State) (c : Nat) : Word :=
  let k := compOf s c
  fields [(0, 4, mask4 (fun r => k.armed.getD r false)), (4, 4, mask4 (fun r => (k.active.rects.getD r {}).golden)),
    (8, 4, mask4 (fun r => (k.watch.getD r {}).matched)), (12, 1, bit k.reacted), (13, 1, bit (compHolds s c)), (16, 3, k.lastKind)]
/-- CMP_PROT_RECT_POS of a rectangle (Table 10.8). -/
def rectPos (r : Rect) : Word := fields [(0, 14, r.x), (14, 1, bit r.enable), (16, 14, r.y)]
/-- CMP_PROT_RECT_SIZE of a rectangle. -/
def rectSize (r : Rect) : Word := fields [(0, 15, r.w), (16, 15, r.h)]

/-- CMP_PROT_STATUS (Table 10.4). -/
def refuseCmpProtStatus : Refuse := fun _ c =>
  firstRefusal [needLen 4 c, refuseIf (decide (63 < u8 c.params 0) || decide (1 < u8 c.params 1) || u16 c.params 2 != 0) .badParam]
/-- CMP_PROT_STATUS answers the protection state of a compositor. -/
def effCmpProtStatus : Effect := fun s c =>
  let n := u8 c.params 0
  let k := compOf s n
  let rs := if u8 c.params 1 = 0 then k.active.rects else k.shadow.rects
  (s, some (.ok, wordBytes (regProtCfg s n) ++ wordBytes (regProtStatus s n) ++ beBytes 4 k.compared
    ++ (List.range 4).flatMap (fun r =>
      let x := rs.getD r {}
      let w := k.watch.getD r {}
      wordBytes (rectPos x) ++ wordBytes (rectSize x) ++ wordBytes x.value ++ wordBytes w.sigRef ++ wordBytes w.sigOut)
    ++ (List.range 4).flatMap (fun i => wordBytes (tget 0#32 k.protCnt i))))
/-- CMP_PROT_STATUS (R349). -/
def execCmpProtStatus (t : Nat) (c : HostCmd) (s : State) : Host.Outcome State Fault Refusal :=
  .next (runCommand .cmpProtStatus refuseCmpProtStatus effCmpProtStatus t c s)

/-- A write of CMP_PROT_CFG awaits the compositor's next output frame start (R351, Table 10.6).
Log 33 (DEDUCED, safe). -/
def writeProtCfg (c v : Nat) (s : State) : State :=
  let n := v % 4
  modComp c (fun k => { k with cfgNext := some {
    confirm := if n = 0 then 1 else if n = 3 then 2 else n, holdDest := v.testBit 2, safeStill := bitsOf v 26 16 } }) s

/-- CMP_PROT_CFG_WRITE (R351): a SAFETY session writes CMP_PROT_CFG of a compositor. -/
def execCmpProtCfgWrite (t c value : Nat) (s : State) : Host.Outcome State Fault Refusal :=
  if 63 < c then .fault .noSuchObject else .next (writeProtCfg c value (advance t s))

/-- The confirmation count in force (R341): 1 below 50 frames a second. -/
def confirmCount (s : State) (c : Nat) : Nat :=
  let r := codeRate (compFormat s c)
  if r.1 < 50 * r.2 then 1 else (compOf s c).cfg.confirm

/-- The devices of a pair compare their reference signatures of a frame once each has both (R348). -/
def comparePair (c r : Nat) (s : State) : State :=
  let k := compOf s c
  match k.peerSig with
  | some (n, armed, sigs) =>
    let w := k.watch.getD r {}
    let theirs := sigs.getD r 0#32
    if inStep s && armed.testBit r && w.lastFrame = some n && w.sigRef ≠ theirs then
      raiseCmp 3 0x5053 c [pack8 c r 0 0, w32 n, w.sigRef, theirs] s
    else s
  | none => s

/-- When every armed rectangle of a frame is reported, the partner is told (R348, Table 14.3 type 9). -/
def sendProtSig (c n : Nat) (s : State) : State :=
  let k := compOf s c
  if inStep s && (List.range 4).all (fun r => !k.armed.getD r false || (k.watch.getD r {}).lastFrame == some n) then
    sendHalyard 9 (beBytes 1 c ++ beBytes 1 (mask4 (fun r => k.armed.getD r false)) ++ beBytes 2 0 ++ beBytes 4 n
      ++ (List.range 4).flatMap (fun r => wordBytes (if k.armed.getD r false then (k.watch.getD r {}).sigRef else 0#32))) s
  else s

/-- The comparison of one report (R340, Table 10.2 kinds 0 and 1). While the safety monitor pair's own check has failed no
comparison counts as passed (R342).
Log 67 (DEDUCED, safe). -/
def compareReport (c r n : Nat) (ref out : Word) (s : State) : State :=
  let x := (compOf s c).active.rects.getD r {}
  let set := fun (f : RectWatch → RectWatch) => modComp c (fun k => { k with watch := k.watch.set r (f (k.watch.getD r {})) })
  if s.saf.testFailed then set (fun w => { w with matched := false, good := 0 }) s
  else if ref = out && (!x.golden || out = x.value) then
    set (fun w => { w with matched := true, bad := 0, good := w.good + 1 }) s
  else
    let s := modComp c (fun k => { k with protCnt := bump k.protCnt 1 })
      (set (fun w => { w with matched := false, good := 0, bad := w.bad + 1 }) s)
    if confirmCount s c ≤ ((compOf s c).watch.getD r {}).bad then protFail c r (if ref = out then 1 else 0) n ref out s else s

/-- A report of one rectangle reaches the safety monitor pair (R339, R340). -/
def takeReport (c r n : Nat) (ref out : Word) (clear : Bool) (s : State) : State :=
  let last := ((compOf s c).watch.getD r {}).lastFrame
  let s := modComp c (fun k => { k with
    compared := n, protCnt := bump k.protCnt 0
    watch := k.watch.set r { (k.watch.getD r {}) with lastFrame := some n, sigRef := ref, sigOut := out } }) s
  let s := if clear then protFail c r 4 n ref out s else s
  let s := match last with
    | some l => if n = (l + 1) % 0x100000000 then s else protFail c r 5 n ref out s
    | none => s
  sendProtSig c n (comparePair c r (compareReport c r n ref out s))

/-- SIGNATURE_REPORT (R340): the signatures of a rectangle's frame arrive. An operand that is none is what the model's own
pixels give: the reference signature, the output signature, and whether the reference fetcher read a pixel that is not
opaque. While the cores are held nothing is compared (R342). -/
def execSignatureReport (t c r frame : Nat) (ref out : Option Word) (clear : Option Bool) (s : State) :
    Host.Outcome State Fault Refusal :=
  if 63 < c || 3 < r then .fault .noSuchObject
  else
    let s := advance t s
    let x := (compOf s c).active.rects.getD r {}
    .next (if compOn s c && (compOf s c).armed.getD r false && !s.saf.held then
        takeReport c r (frame % 0x100000000) (ref.getD (referenceSignature s c x)) (out.getD (outputSignature s c x))
          (clear.getD (referenceTransparent s c x)) s
      else s)

/-- SIGNATURE_REPORT_MISSING (R340, Table 10.2 kind 2): no signature pair has come for an armed rectangle's frame. -/
def execSignatureReportMissing (t c r frame : Nat) (s : State) : Host.Outcome State Fault Refusal :=
  if 63 < c || 3 < r then .fault .noSuchObject
  else
    let s := advance t s
    .next (if compOn s c && (compOf s c).armed.getD r false && ((compOf s c).watch.getD r {}).lastFrame ≠ some frame then
        protFail c r 2 frame 0#32 0#32 s
      else s)

/-- Every rectangle armed at a failure has matched on 25 consecutive frames or been disarmed (R345).
Log 68 (DEDUCED, safe). -/
def protClear (s : State) : Bool :=
  s.cmp.comps.all (fun p => !p.2.reacted || p.2.watch.all (fun w => !w.atFailure || decide (25 ≤ w.good)))

/-- T13 ends the reaction on every compositor (R344, R345). -/
def protCleared (s : State) : State :=
  onCmp (fun k => { k with comps := tmap k.comps (fun _ (x : Comp) => { x with
    reacted := false, watch := x.watch.map (fun w => { w with failed := false, atFailure := false }) }) }) s

end Sys2Proof.Machine
end

