-- ==== Sys2Proof/Machine/SafetyMon.lean ====
section
/-! DEFINITION. The safety monitor pair (chapter 15): its commands, the SAFE pins, the mechanisms SM2 to SM11 and the
containment of parity failures. -/

namespace Sys2Proof.Machine

/-- The safety monitor pair runs its loaded image (R50, Table 1.8). -/
def safetyRuns (s : State) : Bool := tget 0 s.start.procs 6 == 2

/-- The safety cores compare: they run and are not held in reset (R495). -/
def coresRun (s : State) : Bool := safetyRuns s && !s.saf.held

/-- Every compositor with armed rectangles: those that SM2 to SM7 affect (R499). -/
def armedComps (s : State) : List Nat := (s.cmp.comps.filter (fun p => p.2.armed.any id)).map (·.1)

/-- A dangerous failure by one of SM2 to SM7, with its event (R499). -/
def danger (m code cls : Nat) (payload : List Word) (s : State) : State :=
  reaction m (armedComps s) (raise 5 cls code 0 payload s)

/-- SAFE_ESC_CNT and CMP_PROT_STATUS follow the three registers (Table 15.9). -/
def safStatusReply (s : State) : List Byte :=
  wordBytes (regSafStatus s) ++ wordBytes (regSafReact s) ++ wordBytes (regSafCfg s)
    ++ (List.range 8).flatMap (fun i => wordBytes (tget 0#32 s.saf.escCnt i))
    ++ (List.range 64).flatMap (fun c => wordBytes (regProtStatus s c))

/-- SAF_STATUS takes no parameters (Table 15.9). -/
def refuseSafStatus : Refuse := fun _ c => needLen 0 c
/-- SAF_STATUS answers the state of the safety monitor. -/
def effSafStatus : Effect := fun s _ => (s, some (.ok, safStatusReply s))
/-- SAF_STATUS (R514). -/
def execSafStatus (t : Nat) (c : HostCmd) (s : State) : Host.Outcome State Fault Refusal :=
  .next (runCommand .safStatus refuseSafStatus effSafStatus t c s)

/-- Mechanism SM`m` reports no failure (R501): SM1 as R345 says, SM2 to SM5 after 3 self-tests without a fault, SM6 and SM7
after the clock has been within limits for 1 s.
Log 103 (DEDUCED, safe). -/
def mechClear (s : State) (m : Nat) : Bool :=
  if m = 1 then protClear s
  else if m ≤ 5 then decide (3 ≤ s.saf.passes) && !s.saf.held && !s.saf.testFailed
  else if m = 6 then !s.saf.supervisorLost && decide (s.saf.clocksOkSince + 1000000000 ≤ s.clock.clk)
  else if m = 7 then !s.saf.clocksLost.contains 258 && decide (s.saf.clocksOkSince + 1000000000 ≤ s.clock.clk)
  else true

/-- Every mechanism whose bit is set in SAF_REACT reports no failure (R501). -/
def reactionClear (s : State) : Bool :=
  (List.range 11).all (fun i => !s.saf.react.testBit i || mechClear s (i + 1))

/-- SAF_CLEAR (Table 15.10): reserved bits, the mode, then R501. -/
def refuseSafClear : Refuse := fun s c =>
  firstRefusal [needLen 4 c,
    refuseIf (decide (1 < u8 c.params 0) || u24 c.params 1 != 0) .badParam,
    refuseIf (s.mode != .safe && u8 c.params 0 == 0) .notInMode,
    if s.mode = .safe && !reactionClear s then some (.busy, wordBytes (regSafReact s)) else none]

/-- The reaction ends (R501): SAFE_CLEARED, the indications since the last clear go, the safe frames end at the next
switching lines, the pins toggle again, and the device takes T13.
Log 102 (DEDUCED, safe). -/
def endReaction (s : State) : State :=
  let s := raise 1 11 0xB002 0 [w32 s.saf.react] s
  let s := onSaf (fun k => { k with
    reacted := false, react := 0, lockstep := false, selftest := false, disagree := [0, 0]
    gateOpen := true, gateAt := some s.clock.clk }) s
  reenterCalibrate 13 (setSafePins .toggling (protCleared s))

/-- SAF_CLEAR clears the chip fault when it is asked to, and in SAFE the reaction (R501, R504).
Log 102 (DEDUCED, safe). -/
def effSafClear : Effect := fun s c =>
  let s := if u8 c.params 0 = 1 then onSaf (fun k => { k with chipFault := false, yielded := false }) s else s
  (if s.mode = .safe then endReaction s else s, some (.ok, []))
/-- SAF_CLEAR (R501, R514). -/
def execSafClear (t : Nat) (c : HostCmd) (s : State) : Host.Outcome State Fault Refusal :=
  .next (runCommand .safClear refuseSafClear effSafClear t c s)

/-- A write of SAF_CFG (Table 15.12). -/
def writeSafCfg (v : Nat) (s : State) : State :=
  onSaf (fun k => { k with faultYield := v.testBit 0, stallAction := v.testBit 1 }) s

/-- SAF_CONFIG takes one word without reserved bits (Tables 15.9 and 15.10). -/
def refuseSafConfig : Refuse := fun _ c =>
  firstRefusal [needLen 4 c, refuseIf (decide (3 < u32 c.params 0)) .badParam]
/-- SAF_CONFIG writes SAF_CFG. -/
def effSafConfig : Effect := fun s c => (writeSafCfg (u32 c.params 0) s, some (.ok, []))
/-- SAF_CONFIG (R514). -/
def execSafConfig (t : Nat) (c : HostCmd) (s : State) : Host.Outcome State Fault Refusal :=
  .next (runCommand .safConfig refuseSafConfig effSafConfig t c s)

/-- TOGGLE_GATE_REFRESH (R494): the safety firmware refreshes the toggle gate. -/
def execToggleGateRefresh (t : Nat) (s : State) : Host.Outcome State Fault Refusal :=
  let s := advance t s
  .next (if coresRun s then onSaf (fun k => { k with gateAt := some s.clock.clk }) s else s)

/-- GATE_EXPIRED (R494, SM4): no refresh has come for 2 ms; the gate drives both pins high and holds them. -/
def execGateExpired (t : Nat) (s : State) : Host.Outcome State Fault Refusal :=
  let s := advance t s
  .next (match s.saf.gateAt with
    | some a =>
      if s.saf.gateOpen && safetyRuns s && decide (a + 2000000 ≤ s.clock.clk) then
        danger 4 0xB014 11 [w32 ((s.clock.clk - a) / 1000)]
          (setSafePins .high (onSaf (fun k => { k with gateOpen := false }) s))
      else s
    | none => s)

/-- The level to which a SAFE pin is driven, SAFE_A being at `phase` while they toggle (Table 15.4). -/
def drivenLevel (s : State) (phase : Bool) (pin : Nat) : Bool :=
  match s.saf.pins with
  | .low => false
  | .high => true
  | .toggling => if pin = 0 then phase else !phase

/-- One read-back sample of one pin; the third disagreement in a row is a dangerous failure, and counting begins afresh
(R494, SM5).
Log 101 (DEDUCED, safe). -/
def readPin (pin : Nat) (driven sensed : Bool) (s : State) : State :=
  let n := if driven = sensed then 0 else s.saf.disagree.getD pin 0 + 1
  let s := onSaf (fun k => { k with disagree := k.disagree.set pin (n % 3) }) s
  if n = 3 then danger 5 0xB012 11 [pack8 pin (bit driven) (bit sensed) 0] s else s

/-- SAFE_PIN_READBACK (R494): every 100 µs the pad levels are compared with the driven levels. `phase` is the level to which
SAFE_A is driven while the pins toggle, `a` and `b` are the levels sensed. -/
def execSafePinReadback (t : Nat) (phase a b : Bool) (s : State) : Host.Outcome State Fault Refusal :=
  let s := advance t s
  let da := drivenLevel s phase 0
  let db := drivenLevel s phase 1
  .next (if coresRun s then readPin 1 db b (readPin 0 da a s) else s)

/-- Lockstep fails (R495, SM2): the pins go high, both cores are held in reset, and the reaction starts. -/
def lockstepFail (channel : Nat) (s : State) : State :=
  if coresRun s then
    danger 2 0xB010 11 [pack16 channel 0]
      (escCount 6 (onSaf (fun k => { k with lockstep := true, held := true }) s))
  else s

/-- LOCKSTEP_FAIL (R495). -/
def execLockstepFail (t channel : Nat) (s : State) : Host.Outcome State Fault Refusal :=
  .next (lockstepFail channel (advance t s))

/-- The comparator's self-test (R496, SM3): `flagged` says that it flagged the injected difference, `spurious` that it
flagged the test channel without one. -/
def selfTest (flagged spurious : Bool) (s : State) : State :=
  let s := escCount 7 s
  if flagged && !spurious then onSaf (fun k => { k with passes := k.passes + 1, testFailed := false }) s
  else
    danger 3 0xB011 11 [pack8 (bit flagged) 0 0 0]
      (onSaf (fun k => { k with selftest := true, testFailed := true }) s)

/-- COMPARATOR_SELF_TEST (R496). -/
def execComparatorSelfTest (t : Nat) (flagged spurious : Bool) (s : State) : Host.Outcome State Fault Refusal :=
  let s := advance t s
  .next (if coresRun s then selfTest flagged spurious s else s)

/-- Count a reload of a processor, at most 255 (Table 16.6). -/
def countReload (p : Nat) (s : State) : State :=
  onCtl (fun k => { k with reloads := tset k.reloads p (min 255 (tget 0 k.reloads p + 1)) }) s

/-- SAFETY_CORE_RELOAD_DONE (R495): the reloaded pair runs its self-test and resumes comparisons. -/
def execSafetyCoreReloadDone (t : Nat) (flagged spurious : Bool) (s : State) : Host.Outcome State Fault Refusal :=
  let s := advance t s
  .next (if safetyRuns s && s.saf.held then
      selfTest flagged spurious (countReload 6 (onSaf (fun k => { k with held := false }) s))
    else s)

/-- PROC_STALL (R497, SM8): the signal of processor 0 to 5 has been missing for 10 ms. -/
def execProcStall (t proc : Nat) (s : State) : Host.Outcome State Fault Refusal :=
  if 5 < proc then .fault .noSuchObject
  else
    let s := advance t s
    .next (if !coresRun s || s.saf.stalled.contains proc then s
      else
        let s := onSaf (fun k => { k with stalled := k.stalled ++ [proc] }) s
        let s := chipFault 0xB020 (raise 4 11 0xB020 0 [pack8 proc 0 0 0] s)
        if s.saf.stallAction then takeT1Start 6 s else s)

/-- OVER_TEMP (R498, SM11): sensor 0 (die) or 1 to 4 (stacks 0 to 3) has read above 110 °C for 100 ms, or below 105 °C for
1 s; the indication clears with the last sensor.
Log 101 (DEDUCED, safe). -/
def execOverTemp (t sensor celsius : Nat) (s : State) : Host.Outcome State Fault Refusal :=
  if 4 < sensor then .fault .noSuchObject
  else
    let s := advance t s
    let hot := s.saf.overTemp.contains sensor
    .next (if !coresRun s then s
      else if 110 < celsius && !hot then
        chipFault 0xB050 (raise 4 11 0xB050 0 [pack8_16 sensor 1 celsius]
          (onSaf (fun k => { k with overTemp := k.overTemp ++ [sensor] }) s))
      else if celsius < 105 && hot then
        let s := onSaf (fun k => { k with overTemp := k.overTemp.filter (fun x => x != sensor) }) s
        if s.saf.overTemp.isEmpty then raise 4 11 0xB050 0 [pack8_16 sensor 0 celsius] s else s
      else s)

/-- The power sequencer measures the clock of an island (R28): not those of the audio ports, the always-on domain and its
own, nor those that S1 has stopped (R543). -/
def clockMeasured (s : State) (i : Nat) : Bool :=
  s.start.pllLocked && !(decide (221 ≤ i) && decide (i ≤ 236)) && i != 259 && i != 261
    && !(inS1 s && (decide (192 ≤ i) && decide (i ≤ 195) || decide (216 ≤ i) && decide (i ≤ 220) || i == 242))

/-- ISLAND_CLOCK_LOST (R28, SM7): the clock of an island has stopped or left its limits for more than 1 µs. Island 258 is a
dangerous failure, any other a chip fault (R493, R504).
Log 15 (DEDUCED, safe). -/
def execIslandClockLost (t island : Nat) (s : State) : Host.Outcome State Fault Refusal :=
  if 261 < island then .fault .noSuchObject
  else
    let s := advance t s
    .next (if !clockMeasured s island || s.saf.clocksLost.contains island then s
      else
        let s := onSaf (fun k => { k with clocksLost := k.clocksLost ++ [island] }) s
        if island = 258 then
          (if safetyRuns s then danger 7 0xC031 12 [pack16 island 0] s else raise 5 12 0xC031 0 [pack16 island 0] s)
        else
          let s := raise 4 12 0xC031 0 [pack16 island 0] s
          if coresRun s then chipFault 0xC031 s else s)

/-- ISLAND_CLOCK_RESTORED (R501): the clock of an island, or the supervisor's (261), is within limits again. -/
def execIslandClockRestored (t island : Nat) (s : State) : Host.Outcome State Fault Refusal :=
  if 261 < island then .fault .noSuchObject
  else
    let s := advance t s
    .next (if island = 261 then
        (if s.saf.supervisorLost then
          onSaf (fun k => { k with supervisorLost := false, clocksOkSince := s.clock.clk }) s else s)
      else if s.saf.clocksLost.contains island then
        onSaf (fun k => { k with
          clocksLost := k.clocksLost.filter (fun x => x != island)
          clocksOkSince := if island = 258 then s.clock.clk else k.clocksOkSince }) s
      else s)

/-- SUPERVISOR_CLOCK (R29, SM6): the supervisor oscillator, nominally 100 MHz, measures `khz` for more than 1 µs. -/
def execSupervisorClock (t khz : Nat) (s : State) : Host.Outcome State Fault Refusal :=
  let s := advance t s
  .next (if coresRun s && !s.saf.supervisorLost && (decide (khz < 90000) || decide (110000 < khz)) then
      danger 6 0xB013 11 [w32 khz] (onSaf (fun k => { k with supervisorLost := true }) s)
    else s)

/-- Every cell of a block that is contained parks its destination (Table 15.5). -/
def parkBlock (b : Nat) (s : State) : State :=
  (List.range 16).foldl (fun s i => if cellDown s (16 * b + i) then parkNow (16 * b + i) s else s) s

/-- A target is reset: its bridge answers every transfer outstanding toward it with FAIL (R527).
Log 104 (DEDUCED, safe). -/
def failTransfers (b : Nat) (s : State) : State :=
  onCtl (fun k => { k with
    out := tmap k.out (fun _ ts => ts.map (fun x => if x.target = .block b && x.answered.isNone then { x with answered := some 2 } else x))
    cnt := bumpBy k.cnt 1 ((k.out.flatMap (fun p => p.2.filter (fun x => x.target = .block b && x.answered.isNone))).length) }) s

/-- What follows a failure in block `b`: its contained cells park, and when it restarts its transfers fail. -/
def containBlock (b : Nat) (s0 s : State) : State :=
  let s := parkBlock b s
  if s.saf.restarting.contains b && !s0.saf.restarting.contains b then failTransfers b s else s

/-- CONTEXT_PARITY_CONFIRM (R502, Table 15.5): a failure is confirmed at a level: 0 a context word of a cell that failed on
two reads, 1 the flow engine, arbiter or crossing FIFOs of a block, 2 a region's arbiter, 3 a chip-level island. -/
def execContextParityConfirm (t level index : Nat) (s : State) : Host.Outcome State Fault Refusal :=
  if 3 < level || [1023, 63, 3, 261].getD level 0 < index then .fault .noSuchObject
  else
    let s := advance t s
    .next (if s.mode = .boot || s.mode = .retain then s
      else if level = 0 then containBlock (index / 16) s (cellFailure index s)
      else if level = 1 then containBlock index s (blockFailure index s)
      else if level = 2 then arbiterFailure index s
      else chipFault 0 s)

/-- CONTEXT_RELOAD_DONE (R502): the steward has reloaded a cell's context; the third reload in 600 s isolates the cell. -/
def execContextReloadDone (t cell : Nat) (s : State) : Host.Outcome State Fault Refusal :=
  if 1023 < cell then .fault .noSuchObject
  else
    let s := advance t s
    .next (containBlock (cell / 16) s (cellReloaded cell s))

/-- The block SRAM of a block is written afresh: frames in assembly and frames not yet read are gone, and no copy is inside
a frame.
Log 104 (DEDUCED, safe). -/
def clearBlock (b : Nat) (s : State) : State :=
  onFlow (fun w => { w with src := tmap w.src (fun n (x : Src) =>
    if n / 16 = b then
      { x with bufs := x.bufs.filter (·.read), c1 := { x.c1 with inFrame := none, taking := false, bytes := 0 }
               c2 := { x.c2 with inFrame := none, taking := false, bytes := 0 } }
    else x) }) s

/-- BLOCK_RESTART_DONE (R502): the restart of a block is complete, and its sources resume under R183. -/
def execBlockRestartDone (t b : Nat) (s : State) : Host.Outcome State Fault Refusal :=
  if 63 < b then .fault .noSuchObject
  else
    let s := advance t s
    .next (if s.saf.restarting.contains b then
        clearBlock b (onSaf (fun k => { k with restarting := k.restarting.filter (fun x => x != b) }) s)
      else s)

/-- A processor runs again after its reload: it has neither halted nor stalled. -/
def runsAgain (p : Nat) (s : State) : State :=
  countReload p (onCtl (fun k => { k with halted := k.halted.filter (fun x => x != p) })
    (onSaf (fun k => { k with stalled := k.stalled.filter (fun x => x != p) }) s))

/-- STEWARD_RELOAD_DONE (R520): the steward of a region has been reloaded and has rewritten its contexts and registers from
their copies.
Log 108 (DEDUCED, safe). -/
def execStewardReloadDone (t r : Nat) (s : State) : Host.Outcome State Fault Refusal :=
  if 3 < r then .fault .noSuchObject
  else
    let s := advance t s
    .next (if s.saf.stewardReload.contains r then
        runsAgain (2 + r) (onSaf (fun k => { k with stewardReload := k.stewardReload.filter (fun x => x != r) }) s)
      else s)

end Sys2Proof.Machine
end

