-- ==== Sys2Proof/Machine/Ctl.lean ====
section
/-! DEFINITION. The control complex (chapter 16): parity failures of its SRAM, reloads of processors, and the transfers of
the bus matrix. -/

namespace Sys2Proof.Machine

/-- A processor halts at a parity failure of its own SRAM (R519): a steward is reloaded, a halted safety core breaks
lockstep on a channel that no rule gives.
Log 105 (DESIGN CHOICE, safe). -/
def haltProcessor (p : Nat) (s : State) : State :=
  if p = 6 then lockstepFail (Config.lockstepChannel s.free) { s with free := s.free + 1 }
  else if s.ctl.halted.contains p || tget 0 s.start.procs p ≠ 2 then s
  else
    let s := onCtl (fun k => { k with halted := k.halted ++ [p] }) s
    if 2 ≤ p then
      onSaf (fun k => { k with stewardReload := k.stewardReload ++ (if k.stewardReload.contains (p - 2) then [] else [p - 2]) }) s
    else s

/-- PRIVATE_SRAM_PARITY (R519). -/
def execPrivateSramParity (t proc : Nat) (s : State) : Host.Outcome State Fault Refusal :=
  if 6 < proc then .fault .noSuchObject else .next (haltProcessor proc (advance t s))

/-- What a parity failure of the shared control SRAM does to the thing that is stored there (R534). -/
def sramEffect (u : SramUse) (s : State) : State :=
  match u with
  | .replyCache x => onHost (fun h => { h with cache := tdel h.cache x }) s
  | .reassembly x => match s.host.reasm.find? (fun r => r.session == x) with
    | some r => sendReply (replyKey r.from_) r.opcode r.from_ .internal []
        (onHost (fun h => { h with reasm := h.reasm.filter (fun r => r.session != x) }) s)
    | none => s
  | .queued x seq => match s.host.queue.find? (fun q => q.2.session == x && q.2.seq == seq) with
    | some q => refuseWith q.1 q.2 (.internal, []) (dequeue q.1 q.2 s)
    | none => s
  | .contextCopy cell liveBad =>
    if liveBad && decide (cell < 1024) && !s.saf.isolated.contains cell then
      containBlock (cell / 16) s
        (isolateCell cell (within s 600000000000 (tget [] s.saf.cellReloads cell)).length s)
    else s
  | .keptRecord k => onRed (fun r => { r with kept := r.kept.filter (fun e => e.tick != k) }) s
  | .configTable => s

/-- A parity failure of the shared control SRAM: a chip-level failure, then its effect (R534). -/
def controlParity (u : SramUse) (s : State) : State :=
  if s.start.procs.isEmpty then s
  else sramEffect u (chipFault 0 (onCtl (fun k => { k with cnt := bump k.cnt 7 }) s))

/-- CONTROL_SRAM_PARITY (R534). -/
def execControlSramParity (t : Nat) (u : SramUse) (s : State) : Host.Outcome State Fault Refusal :=
  .next (controlParity u (advance t s))

/-- BACKGROUND_SRAM_CHECK (R535): one round of the background reader, with what it found: the processor whose private SRAM
fails, and the place in the shared control SRAM that fails. -/
def execBackgroundSramCheck (t : Nat) (proc : Option Nat) (u : Option SramUse) (s : State) :
    Host.Outcome State Fault Refusal :=
  if 6 < proc.getD 0 then .fault .noSuchObject
  else
    let s := advance t s
    let s := match proc with | some p => haltProcessor p s | none => s
    .next (match u with | some x => controlParity x s | none => s)

/-- CUE_PROCESSOR_RELOAD_DONE (R519): the halted cue processor runs again; every running instance has ended with cause 3, and
the program store is kept. -/
def execCueProcessorReloadDone (t : Nat) (s : State) : Host.Outcome State Fault Refusal :=
  let s := advance t s
  .next (if s.ctl.halted.contains 1 then runsAgain 1 (endInstances (fun _ => true) 3 s) else s)

/-- Count in one index of CTL_BUS_CNT (Table 16.7).
Log 29 (DEDUCED, safe). -/
def busCount (i n : Nat) (s : State) : State := onCtl (fun k => { k with cnt := bumpBy k.cnt i n }) s

/-- The transfers outstanding on a master port. -/
def transfers (s : State) (p : Nat) : List Transfer := tget [] s.ctl.out p

/-- Take the answered transfers whose streams hold no older unanswered one out of a port's list (R524). `held` are the
streams on which something older is outstanding.
Log 107 (DESIGN CHOICE, safe). -/
def retireList (held : List Nat) : List Transfer → List Transfer
  | [] => []
  | x :: xs =>
    if x.answered.isSome && !held.contains x.stream then retireList held xs
    else x :: retireList (x.stream :: held) xs

/-- The locked pair's write is among the transfers of a port. -/
def lockWrite (st : Nat) (l : List Transfer) : Bool := l.any (fun x => x.locked && x.write && x.stream == st)

/-- Complete what can complete on a port; a locked pair closes with its write (R524, R529). -/
def completePort (p : Nat) (s : State) : State :=
  let l := transfers s p
  let l' := retireList [] l
  onCtl (fun k => { k with
    out := if l'.isEmpty then tdel k.out p else tset k.out p l'
    lockedPair := match k.lockedPair with
      | some (q, st, a) => if q = p && lockWrite st l && !lockWrite st l' then none else some (q, st, a)
      | none => none }) s

/-- The answer that a layer or a bridge gives a new transfer by itself: VOID outside the master's reach, FAIL for a write of
the safety pair and for a block in a restart (R521, R522, R525, Table 16.2). -/
def ownAnswer (s : State) (p : Nat) (x : Transfer) : Option Nat :=
  let region := match x.target with | .chip => none | .comp n => some (n / 16) | .block n => some (n / 16)
  let reach := match region with
    | none => true
    | some r => if p = 1 then false else if decide (2 ≤ p) && decide (p ≤ 5) then r == p - 2 else true
  if !reach then some 1
  else if p = 6 && x.write then some 2
  else match x.target with
    | .block b => if s.saf.restarting.contains b then some 2 else none
    | _ => none

/-- A master issues a transfer (R523, R524): a tag in use, a 33rd transfer, or a port held in reset issues nothing.
Log 107 (DESIGN CHOICE, safe). -/
def issueOne (p : Nat) (x : Transfer) (s : State) : State :=
  let l := transfers s p
  if 6 < p || 31 < x.tag || 3 < x.stream || x.beats = 0 || 16 < x.beats || 32 ≤ l.length || s.ctl.portReset.contains p
      || l.any (fun y => y.tag == x.tag) then s
  else
    let a := ownAnswer s p x
    let s := match a with | some st => busCount (st - 1) 1 s | none => s
    let opens := x.locked && !x.write && s.ctl.lockedPair.isNone
    completePort p (onCtl (fun k => { k with
      out := tset k.out p (l ++ [{ x with since := s.clock.clk, answered := a }])
      lockedPair := if opens then some (p, x.stream, s.clock.clk) else k.lockedPair }) s)

/-- The transfers that masters have issued, in order. -/
def issueAll (issued : List (Nat × Transfer)) (s : State) : State := issued.foldl (fun s x => issueOne x.1 x.2 s) s

/-- A failure counted at the level of a target (R525, Table 15.5). -/
def targetFailure (g : BusTarget) (s : State) : State :=
  match g with
  | .chip => chipFault 0 s
  | .comp n => compFailure (n / 16) s
  | .block n => containBlock n s (blockFailure n s)

/-- A transfer is answered: FAIL is counted, and on a port in reset the transfer is retired and nothing returned (R524 to
R526). -/
def answer (p tag status : Nat) (s : State) : State :=
  let s := if status = 1 then busCount 0 1 s else if status = 2 then busCount 1 1 s else s
  if s.ctl.portReset.contains p then
    busCount 3 1 (onCtl (fun k => { k with out := tmod [] k.out p (fun l => l.filter (fun x => x.tag != tag)) }) s)
  else
    completePort p (onCtl (fun k => { k with
      out := tmod [] k.out p (fun l => l.map (fun x => if x.tag = tag then { x with answered := some status } else x)) }) s)

/-- The transfer of a tag that still awaits its answer. -/
def awaited (s : State) (p tag : Nat) : Option Transfer :=
  (transfers s p).find? (fun x => x.tag == tag && x.answered.isNone)

/-- BUS_TRANSFER_RESPONSE (R524, R525): a target answers a transfer with status 0 GOOD, 1 VOID or 2 FAIL; read data that
fails parity is delivered as FAIL. `issued` are the transfers issued since the command before.
Log 107 (DESIGN CHOICE, safe). -/
def execBusTransferResponse (t port tag status : Nat) (badData : Bool) (issued : List (Nat × Transfer)) (s : State) :
    Host.Outcome State Fault Refusal :=
  if 6 < port then .fault .noSuchObject
  else
    let s := issueAll issued (advance t s)
    .next (match awaited s port tag with
      | some x =>
        if badData && !x.write then targetFailure x.target (answer port tag 2 (busCount 5 1 s))
        else answer port tag (min status 2) s
      | none => s)

/-- TARGET_TIMEOUT (R525): a target has not answered within 10 µs; its bridge answers FAIL. -/
def execTargetTimeout (t port tag : Nat) (issued : List (Nat × Transfer)) (s : State) :
    Host.Outcome State Fault Refusal :=
  if 6 < port then .fault .noSuchObject
  else
    let s := issueAll issued (advance t s)
    .next (match awaited s port tag with
      | some x => if x.since + 10000 ≤ s.clock.clk then answer port tag 2 (busCount 2 1 s) else s
      | none => s)

/-- The master of a port is being reset: the reload of the halted cue processor or of a steward, or the lockstep reset
(R526). -/
def masterResets (s : State) (p : Nat) : Bool :=
  if p = 1 then s.ctl.halted.contains 1
  else if p = 6 then s.saf.held
  else decide (2 ≤ p) && s.saf.stewardReload.contains (p - 2)

/-- MASTER_PORT_RESET (R526): a master port is reset; `left` beats of write bursts already begun are sent with no byte
enables. -/
def execMasterPortReset (t port left : Nat) (issued : List (Nat × Transfer)) (s : State) :
    Host.Outcome State Fault Refusal :=
  if 6 < port then .fault .noSuchObject
  else
    let s := issueAll issued (advance t s)
    .next (if masterResets s port && !s.ctl.portReset.contains port then
        busCount 4 left (onCtl (fun k => { k with portReset := k.portReset ++ [port] }) s)
      else s)

/-- PORT_RETIRE_DONE (R526, R529): every transfer of the port is retired, the port is released, and a pair that its master
held open closes. -/
def execPortRetireDone (t port : Nat) (s : State) : Host.Outcome State Fault Refusal :=
  if 6 < port then .fault .noSuchObject
  else
    let s := advance t s
    .next (if s.ctl.portReset.contains port then
        busCount 3 (transfers s port).length (onCtl (fun k => { k with
          out := tdel k.out port, portReset := k.portReset.filter (fun x => x != port)
          lockedPair := match k.lockedPair with
            | some (q, st, a) => if q = port then none else some (q, st, a)
            | none => none }) s)
      else s)

/-- LOCKED_PAIR_TIMEOUT (R529): a locked pair has been open for 1 µs and closes; `waits` transfers of other masters waited
for it. -/
def execLockedPairTimeout (t waits : Nat) (issued : List (Nat × Transfer)) (s : State) :
    Host.Outcome State Fault Refusal :=
  let s := issueAll issued (advance t s)
  .next (match s.ctl.lockedPair with
    | some (_, _, a) =>
      if a + 1000 ≤ s.clock.clk then busCount 6 waits (onCtl (fun k => { k with lockedPair := none }) s) else s
    | none => s)

/-- CTL_PROC_STATE.STATE of a processor (Table 16.6): 0 held, 1 loading, 2 running, 3 halted. -/
def procState (s : State) (p : Nat) : Nat :=
  let r := tget 0 s.start.procs p
  if r = 0 || (p = 6 && s.saf.held) then 0
  else if s.ctl.halted.contains p then 3
  else if r = 1 || (decide (2 ≤ p) && s.saf.stewardReload.contains (p - 2)) then 1
  else 2

/-- CTL_PROC_STATE (Table 16.6). -/
def regProcState (s : State) (p : Nat) : Word :=
  fields [(0, 2, procState s p), (8, 8, tget 0 s.ctl.reloads p), (16, 6, (transfers s p).length)]

/-- CTL_COMPAT_CFG (Table 16.8). -/
def regCompatCfg (s : State) : Word := fields [(0, 1, bit s.ctl.compatEn), (1, 2, s.ctl.compatBank)]

/-- A write of CTL_COMPAT_CFG. -/
def writeCompatCfg (v : Nat) (s : State) : State :=
  onCtl (fun k => { k with compatEn := v.testBit 0, compatBank := bitsOf v 2 1 }) s

end Sys2Proof.Machine
end

