-- ==== Sys2Proof/Machine/Time.lean ====
section
/-! DEFINITION. Time, references, planes, compare units and pulse outputs (chapter 13): the commands of R450 and the
happenings of R423 to R448. -/

namespace Sys2Proof.Machine

/-- A compare unit. -/
def compareOf (s : State) (u : Nat) : Compare := tget {} s.tim.compares u
/-- A pulse output. -/
def pulseOf (s : State) (n : Nat) : Pulse := tget {} s.tim.pulses n
/-- Change a pulse output. -/
def modPulse (n : Nat) (f : Pulse → Pulse) (s : State) : State := onTim (fun m => { m with pulses := tmod {} m.pulses n f }) s
/-- Change a plane. -/
def modPlane (p : Nat) (f : Plane → Plane) (s : State) : State := onTim (fun m => { m with planes := tmod {} m.planes p f }) s
/-- Change a reference input. -/
def modRef (i : Nat) (f : RefIn → RefIn) (s : State) : State := onTim (fun m => { m with refs := tmod {} m.refs i f }) s
/-- Change the PTP client. -/
def onPtp (f : Ptp → Ptp) (s : State) : State := onTim (fun m => { m with ptp := f m.ptp }) s
/-- Count in TIM_CNT. -/
def timCount (i : Nat) (s : State) : State := onTim (fun m => { m with cnt := bump m.cnt i }) s

/-- TIM_STATUS (Table 13.8). -/
def regTimStatus (s : State) : Word :=
  fields [(0, 3, s.tim.time.state.code), (3, 1, bit s.tim.estimated), (4, 3, s.tim.house.state.code)
        , (8, 3, selCode s.tim.sel.selected), (12, 2, match s.tim.ptp.chosen with | some m => m.port + 1 | none => 0)
        , (16, 7, s.tim.ptp.queue.length)]
/-- TIM_CFG (Table 13.9). -/
def regTimCfg (s : State) : Word := fields [(0, 14, s.tim.holdLimit), (16, 10, s.tim.xoPpb), (26, 4, s.tim.slew)]
/-- A write of TIM_CFG (Table 13.9). -/
def writeTimCfg (v : Nat) (s : State) : State :=
  onTim (fun m => { m with holdLimit := clampNat 1 10000 (bitsOf v 13 0), xoPpb := clampNat 1 1000 (bitsOf v 25 16)
                           slew := max 1 (bitsOf v 29 26) }) s
/-- TIM_PTP_CFG (Table 13.10). -/
def regPtpCfg (s : State) : Word :=
  let p := s.tim.ptp
  fields [(0, 7, p.domain), (8, 1, bit p.unicast), (9, 1, bit p.portA), (10, 1, bit p.portB)]
/-- TIM_PTP_OFFSET: the last offset, or 0x8000_0000 for none. -/
def regPtpOffset (s : State) : Word :=
  match s.tim.ptp.offset with
  | some o => w32 (unsignedOf 32 (max (-0x7FFFFFFF) (satInt 32 o)))
  | none => 0x80000000#32
/-- TIM_PTP_DELAY. -/
def regPtpDelay (s : State) : Word := w32 (unsignedOf 32 s.tim.ptp.delay)
/-- TIM_REF_CFG (Table 13.11). -/
def regRefCfg (s : State) (i : Nat) : Word :=
  let r := refIn s i
  fields [(0, 2, r.kind), (2, 1, r.edge), (4, 3, r.family), (8, 4, r.rank), (16, 6, r.tol)]
/-- The state that TIM_REF_STATUS shows (Table 13.12). -/
def refState (s : State) (i : Nat) : Nat :=
  let r := refIn s i
  if r.kind = 0 then 0
  else if r.phase = 3 then (if r.suspect then 4 else if s.tim.sel.selected = some i then 5 else 3) else r.phase
/-- TIM_REF_STATUS (Table 13.12); the seconds left are rounded up. -/
def regRefStatus (s : State) (i : Nat) : Word :=
  let r := refIn s i
  let wait := if r.phase ≠ 2 || r.kind = 0 then 0
    else if r.deferred then s.tim.sel.wtr else (r.waitUntil - s.clock.clk + 999999999) / 1000000000
  fields [(0, 3, refState s i), (3, 2, r.cause), (16, 16, wait)]
/-- TIM_REF_FREQ. -/
def regRefFreq (s : State) (i : Nat) : Word := w32 (unsignedOf 32 (refIn s i).freq)
/-- TIM_SEL_CFG (Table 13.13). -/
def regSelCfg (s : State) : Word := fields [(4, 4, s.tim.sel.ptpRank), (16, 12, s.tim.sel.wtr)]
/-- TIM_TP_ALIGN: the alignment error, or 0x8000_0000 when unknown (R440). -/
def regTpAlign (s : State) (p : Nat) : Word :=
  match planeAlign s p with
  | some e => w32 (unsignedOf 32 e)
  | none => 0x80000000#32
/-- The state of the plane as TIM_TP_STATE shows it (Table 13.14). -/
def planeState (s : State) (p : Nat) : Nat :=
  let c := tpCfg s p
  let x := planeOf s p
  let code := fun (l : LoopState) => match l with
    | .locked | .acquiring => 1 | .holdover | .lost => 2 | .freeRun => 3
  if c.family = 0 then 0
  else if x.slew.isSome || x.stepping then 4
  else if c.ref = 0 then code s.tim.time.state
  else if c.ref = 1 then code s.tim.house.state
  else 3
/-- TIM_TP_STATE (Table 13.14): COUNT_DIFF compares the count with that of the last frame start (R442). -/
def regTpState (s : State) (p : Nat) : Word :=
  let c := tpCfg s p
  let x := planeOf s p
  let diff := match x.last with
    | some f => if c.family = 0 then 0 else satInt 16 (signedOf 32 (x.slow + 0x100000000 - countAt c.family f))
    | none => 0
  fields [(0, 3, planeState s p), (16, 16, unsignedOf 16 diff)]
/-- TIM_CMP_CFG (Table 13.15). -/
def regCmpCfg (s : State) (u : Nat) : Word :=
  let x := compareOf s u
  fields [(0, 3, x.actions), (3, 3, x.output), (6, 2, x.state), (8, 8, x.program), (16, 16, x.session)]
/-- TIM_PULSE_CFG. -/
def regPulseCfg (s : State) (n : Nat) : Word :=
  let x := pulseOf s n
  fields [(0, 3, x.mode), (3, 1, x.polarity), (4, 3, x.plane), (7, 1, bit x.fastest)]
/-- The error of a periodic output from its grid (R447). -/
def pulseAlign (x : Pulse) : Int := if x.mode = 2 then nearestError ((x.next : Int) - x.start) 1 x.period else 0
/-- TIM_PULSE_ALIGN. -/
def regPulseAlign (s : State) (n : Nat) : Word := w32 (unsignedOf 32 (pulseAlign (pulseOf s n)))
/-- TIM_NOW_SEC_HI and TIM_NOW_SEC as a master reads them: the seconds that its last read of TIM_NOW_NS latched, or those
of the time counter (R452).
Log 31 (DEDUCED, safe). -/
def nowSeconds (s : State) (master : Nat) : Nat := (tfind s.tim.latch master).getD (s.clock.now / 1000000000)
/-- A read of TIM_NOW_NS by a master (R452). -/
def readNowNs (master : Nat) (s : State) : Word × State :=
  (w32 (s.clock.now % 1000000000),
   onTim (fun m => { m with latch := tset m.latch master (s.clock.now / 1000000000) }) s)

/-- TIM_NOW_NS_READ (R452): master 0 is the host, 1 the compatibility window. -/
def execTimNowNsRead (t master : Nat) (s : State) : Host.Outcome State Fault Refusal :=
  .next (readNowNs master (advance t s)).2

/-- An instant as seconds (48), reserved (16) and nanoseconds (32) (R450). -/
def timeBytes (n : Nat) : List Byte := beBytes 6 (n / 1000000000) ++ beBytes 2 0 ++ beBytes 4 (n % 1000000000)

/-- TIM_STATUS takes no parameters. -/
def refuseTimStatus : Refuse := fun _ c => needLen 0 c
/-- TIM_STATUS (Table 13.6). -/
def effTimStatus : Effect := fun s _ =>
  let w := fun (x : Word) => beBytes 4 x.toNat
  let m := (s.tim.ptp.chosen.map (·.msg)).getD {}
  (s, some (.ok, w (regTimStatus s) ++ beBytes 4 (timErr s) ++ timeBytes s.clock.now ++ beBytes 8 (grandmaster s)
    ++ beBytes 2 m.steps ++ beBytes 2 m.utcOffset ++ w (regPtpOffset s) ++ w (regPtpDelay s)
    ++ (List.range 4).flatMap (fun i => w (regRefStatus s i) ++ w (regRefFreq s i))
    ++ (List.range 8).flatMap (fun p => w (regTpAlign s p) ++ w (regTpState s p))))
/-- TIM_STATUS (R450). -/
def execTimStatus (t : Nat) (c : HostCmd) (s : State) : Host.Outcome State Fault Refusal :=
  .next (runCommand .timStatus refuseTimStatus effTimStatus t c s)

/-- The time loop changes state, and the selector acts on what that does to PTP as a candidate (R435, R436). -/
def moveTime (new : LoopState) (s : State) : State :=
  let s' := setTimeState new s
  if s.tim.time.state = new then s' else runSelector 0 s'

/-- The value of a TIM_REF_CONFIG is out of range (Table 13.7). -/
def refCfgBad (v : Nat) : Bool :=
  decide (2 < bitsOf v 1 0) || bitsOf v 6 4 == 0 || decide (5 < bitsOf v 6 4) || bitsOf v 11 8 == 0 || decide (8 < bitsOf v 11 8)
    || bitsOf v 21 16 == 0 || decide (50 < bitsOf v 21 16)
/-- The value of a TIM_REF_CONFIG of the selector is out of range (Table 13.7). -/
def selCfgBad (v : Nat) : Bool :=
  decide (8 < bitsOf v 7 4) || decide (3600 < bitsOf v 27 16)
/-- TIM_REF_CONFIG (Table 13.7). -/
def refuseTimRefConfig : Refuse := fun _ c =>
  let i := u8 c.params 0
  let v := u32 c.params 4
  firstRefusal [needLen 8 c,
    refuseIf ((decide (3 < i) && i != 0xFF) || u24 c.params 1 != 0 || (if i = 0xFF then selCfgBad v else refCfgBad v)) .badParam]
/-- A changed input starts its first qualification; one that was selected is lost to the selector (R432, R434, R436). -/
def configRef (i v : Nat) (s : State) : State :=
  let r := refIn s i
  let r' : RefIn := { kind := bitsOf v 1 0, edge := bitsOf v 2 2, family := bitsOf v 6 4, rank := bitsOf v 11 8
                      tol := bitsOf v 21 16, phase := if bitsOf v 1 0 = 0 then 0 else 2, started := s.clock.clk
                      waitUntil := s.clock.clk + 2000000000 }
  if r.kind = r'.kind && r.edge = r'.edge && r.family = r'.family && r.rank = r'.rank && r.tol = r'.tol then s
  else
    let left := s.tim.sel.disagree.filter (fun x => x.1 != i && x.2.1 != i)
    runSelector 0 (onTim (fun m => { m with
      refs := tset (tmap m.refs (fun k x => { x with suspect := left.any (fun y => y.2.2 == k) })) i r'
      sel := { m.sel with disagree := left } }) s)
/-- TIM_REF_CONFIG sets an input or the selector (R432, R434, R435). -/
def effTimRefConfig : Effect := fun s c =>
  let i := u8 c.params 0
  let v := u32 c.params 4
  let s := if i = 0xFF then
      runSelector 0 (onTim (fun m => { m with sel := { m.sel with ptpRank := bitsOf v 7 4, wtr := bitsOf v 27 16 } }) s)
    else configRef i v s
  (s, some (.ok, []))
/-- TIM_REF_CONFIG (R450). -/
def execTimRefConfig (t : Nat) (c : HostCmd) (s : State) : Host.Outcome State Fault Refusal :=
  .next (runCommand .timRefConfig refuseTimRefConfig effTimRefConfig t c s)

/-- The loop starts a new acquisition, from whatever state it has (R429). -/
def acquire (s : State) : State :=
  onTim (fun m => { m with good := 0, bad := 0, acqOffset := none })
    (onPtp (fun p => { p with sync := none, lastSync := none }) (moveTime .acquiring s))

/-- TIM_PTP_CONFIG (Table 13.7): every value of its fields is in range. -/
def refuseTimPtpConfig : Refuse := fun _ c => needLen 4 c
/-- TIM_PTP_CONFIG: the client restarts in ACQUIRING (Table 13.6). -/
def effTimPtpConfig : Effect := fun s c =>
  let v := u32 c.params 0
  (acquire (onPtp (fun p => { p with
    domain := bitsOf v 6 0, unicast := bitOf v 8, portA := bitOf v 9, portB := bitOf v 10
    masters := [], chosen := none, offset := none, delay := 0 }) s), some (.ok, []))
/-- TIM_PTP_CONFIG (R450). -/
def execTimPtpConfig (t : Nat) (c : HostCmd) (s : State) : Host.Outcome State Fault Refusal :=
  .next (runCommand .timPtpConfig refuseTimPtpConfig effTimPtpConfig t c s)

/-- The program that a unit binds while it is armed with a program action (R254). -/
def Compare.binds (u : Compare) : Option Nat := if u.state = 1 && bitOf u.actions 2 then some u.program else none
/-- The unit has an instance that it started running. -/
def unitRuns (s : State) (u : Nat) : Bool := s.cue.insts.any (fun x => x.2.trigger && x.2.vars.head? == some u)

/-- TIM_COMPARE_SET (Table 13.7, R218's form of times). -/
def refuseTimCompareSet : Refuse := fun s c =>
  let u := u8 c.params 0
  let a := u8 c.params 1
  let per := u64 c.params 16
  let d := compareDist (targetOf c.params 4 % 0x10000000000) s.clock.now
  let prog := bitOf a 2
  firstRefusal [needLen 24 c,
    refuseIf (decide (31 < u) || decide (7 < a) || decide (7 < u8 c.params 2) || u16 c.params 10 != 0
      || decide (999999999 < u32 c.params 12) || (per != 0 && decide (per < 1000)) || decide (0x7FFFFFFFFF < per)
      || (a != 0 && per == 0 && decide (d ≤ 0)) || (prog && decide (0 < d) && decide (d ≤ 2000000))) .badParam,
    (if prog then match tfind s.cue.progs (u8 c.params 3) with
      | some p => refuseIf (p.session != c.session && c.role != .maintenance && c.role != .safety) .roleDenied
      | none => refuseIf true .objectInvalid
     else none),
    refuseIf (prog && (compareOf s u).binds.isSome && unitRuns s u) .busy]
/-- TIM_COMPARE_SET arms, replaces or disarms a unit (R444, R446): a periodic target that lies behind moves to the first
one ahead, which misses the program starts that have passed.
Log 87 (DEDUCED, safe). -/
def effTimCompareSet : Effect := fun s c =>
  let u := u8 c.params 0
  let a := u8 c.params 1
  let per := u64 c.params 16
  let g := targetOf c.params 4 % 0x10000000000
  let x : Compare := { actions := a, output := u8 c.params 2, state := if a = 0 then 0 else 1, program := u8 c.params 3
                       session := c.session, role := c.role, target := g, period := per }
  let s := onTim (fun m => { m with compares := tset m.compares u x }) s
  let d := compareDist g s.clock.now
  let n := (-d).toNat / per + 1
  let s := if a = 0 || per = 0 || decide (0 < d) then s
    else if bitOf a 2 then missTargets u 2 s
    else onTim (fun m => { m with compares := tset m.compares u { x with target := (g + n * per) % 0x10000000000 } }) s
  (s, some (.ok, beBytes 8 g))
/-- TIM_COMPARE_SET (R450). -/
def execTimCompareSet (t : Nat) (c : HostCmd) (s : State) : Host.Outcome State Fault Refusal :=
  .next (runCommand .timCompareSet refuseTimCompareSet effTimCompareSet t c s)

/-- The pin level of a pulse output that is or is not in a pulse (R447). -/
def Pulse.level (x : Pulse) (inPulse : Bool) : Bool := inPulse != (x.polarity == 1)
/-- A pulse starts on an output, or its width starts again (Table 13.4). -/
def startPulse (n width : Nat) (s : State) : State :=
  let x := pulseOf s n
  let s' := modPulse n (fun y => { y with active := true, endAt := s.clock.clk + width }) s
  if x.active then s' else emit (.pulse s.clock.clk n (x.level true)) s'
/-- A pulse ends. -/
def endPulse (n : Nat) (s : State) : State :=
  let x := pulseOf s n
  if x.active then emit (.pulse s.clock.clk n (x.level false)) (modPulse n (fun y => { y with active := false }) s) else s

/-- TIM_PULSE_SET (Table 13.7). -/
def refuseTimPulseSet : Refuse := fun _ c =>
  let m := u8 c.params 1
  let w := u32 c.params 4
  let per := u64 c.params 8
  firstRefusal [needLen 28 c,
    refuseIf (decide (7 < u8 c.params 0) || decide (4 < m) || decide (1 < u8 c.params 2) || bitsOf (u8 c.params 3) 6 3 != 0
      || decide (0xFFFFFFFFFF < per) || u16 c.params 22 != 0 || decide (999999999 < u32 c.params 24)
      || (m == 2 && decide (per ≤ w))) .badParam]
/-- TIM_PULSE_SET: a pulse in hand ends, and a periodic output starts at the first S + k × PERIOD at or after now (Table
13.4).
Log 88 (DEDUCED, safe). -/
def effTimPulseSet : Effect := fun s c =>
  let n := u8 c.params 0
  let st := targetOf c.params 16
  let per := u64 c.params 8
  let s := endPulse n s
  let old := pulseOf s n
  let x : Pulse := { mode := u8 c.params 1, polarity := u8 c.params 2, plane := u8 c.params 3 % 8
                     fastest := bitOf (u8 c.params 3) 7, width := u32 c.params 4, period := per, start := st
                     next := if per = 0 then st else st + (s.clock.now - st + per - 1) / per * per }
  let s := modPulse n (fun _ => x) s
  (if old.polarity = x.polarity then s else emit (.pulse s.clock.clk n (x.level false)) s, some (.ok, []))
/-- TIM_PULSE_SET (R450). -/
def execTimPulseSet (t : Nat) (c : HostCmd) (s : State) : Host.Outcome State Fault Refusal :=
  .next (runCommand .timPulseSet refuseTimPulseSet effTimPulseSet t c s)

/-- The bits of a mask of eight. -/
def maskBits (m : Nat) : List Nat := (List.range 8).filter (fun i => bitOf m i)
/-- A mask of the members that meet a condition. -/
def maskOf (p : Nat → Bool) (m : Nat) : Nat := ((maskBits m).filter p).foldl (fun a i => a + 2 ^ i) 0
/-- The alignment error of a plane is known. -/
def planeKnown (s : State) (p : Nat) : Bool := (planeAlign s p).isSome
/-- The alignment error of an output is known: it is periodic (R447). -/
def pulseKnown (s : State) (n : Nat) : Bool := (pulseOf s n).mode == 2 && (pulseOf s n).period != 0

/-- TIM_REALIGN (Table 13.7). -/
def refuseTimRealign : Refuse := fun s c =>
  let m := u8 c.params 2
  let r := u8 c.params 3
  firstRefusal [needLen 8 c,
    refuseIf (decide (1 < m) || r == 0 || decide (100 < r) || decide (1 < u8 c.params 4) || u24 c.params 5 != 0) .badParam,
    refuseIf (!queueFits s 1) .busy]
/-- TIM_REALIGN queues one entry and names the planes and outputs that land (R443). -/
def effTimRealign : Effect := fun s c =>
  let planes := u8 c.params 0
  let outs := u8 c.params 1
  let wait := bitOf (u8 c.params 4) 0
  let e : Entry := { order := 0, action := .realign planes outs (u8 c.params 2 == 1) (u8 c.params 3), session := c.session }
  let ps := beBytes 1 (maskOf (planeKnown s) planes) ++ beBytes 1 (maskOf (pulseKnown s) outs) ++ beBytes 2 0
  (placeCommand .timRealign c wait [e] s, if wait then none else some (.scheduled, ps))
/-- TIM_REALIGN (R450). -/
def execTimRealign (t : Nat) (c : HostCmd) (s : State) : Host.Outcome State Fault Refusal :=
  .next (runCommand .timRealign refuseTimRealign effTimRealign t c s)

/-- A realignment has dealt with every plane that has frame starts and every output that has edges of its own. -/
def Realign.finished (s : State) (r : Realign) : Bool :=
  decide (r.arm ≤ s.clock.now)
    && (maskBits r.planes).all (fun p => r.donePlanes.contains p || (tpCfg s p).family == 0)
    && (maskBits r.pulses).all (fun n => r.donePulses.contains n || !pulseKnown s n)

/-- Finished realignments leave the queue, and a reply that waits is sent (R443, R228). -/
def finishRealigns (s : State) : State :=
  let done := s.tim.realigns.filter (fun r => r.finished s)
  done.foldl (fun s r =>
    let s := onTim (fun m => { m with realigns := m.realigns.filter (fun x => x.order != r.order) }) s
    match s.xpt.queue.find? (fun e => e.order == r.order) with
    | some e => entryGone e none (r.landedPlanes * 256 + r.landedPulses) (freeEntry e s)
    | none => s) s

/-- The count of the aligned frame start that follows the last one of a plane at its slowest rate (R442, R443). -/
def alignedCount (s : State) (p : Nat) : Nat :=
  let c := tpCfg s p
  match famRate c.family, (planeOf s p).last, planeAlign s p with
  | some (n, d), some f, some e =>
    let q : Int := d * 1000000000
    let x : Int := if c.ref = 0 then (((f : Int) - c.phase) * n + q / 2) / q * q + c.phase * n else ((f : Int) - e) * n
    ((x + q) / q % 0x100000000).toNat
  | _, _, _ => 0

/-- A realignment lands on a plane (R443): the frame in hand is made longer or shorter, or the slew starts. -/
def realignPlane (p : Nat) (r : Realign) (s : State) : State :=
  match planeAlign s p with
  | none => s
  | some e =>
    if r.slew then modPlane p (fun x => { x with slew := some r.rate, removing := e }) s
    else
      raise 1 8 0x8030 0 [pack8_16 p 0 0, w32 (unsignedOf 32 e), w32 (alignedCount s p)]
        (modPlane p (fun x => { x with stepping := true, slew := none }) s)

/-- A realignment lands on a periodic output (R443, R447). -/
def realignPulse (n : Nat) (r : Realign) (s : State) : State :=
  let x := pulseOf s n
  if r.slew then modPulse n (fun y => { y with slew := some r.rate }) s
  else modPulse n (fun y => { y with next := ((x.next : Int) - pulseAlign x).toNat, slew := none }) s

/-- Mark a plane or output as dealt with in a realignment; its mask of those that landed grows when the error is known. -/
def Realign.note (out : Bool) (n : Nat) (known : Bool) (r : Realign) : Realign :=
  if out then { r with donePulses := n :: r.donePulses, landedPulses := r.landedPulses + (if known then 2 ^ n else 0) }
  else { r with donePlanes := n :: r.donePlanes, landedPlanes := r.landedPlanes + (if known then 2 ^ n else 0) }

/-- A realignment that still has to land on a plane or output whose frame start or edge at `at_` is the first at or after
its arming instant. -/
def Realign.wants (out : Bool) (n at_ : Nat) (r : Realign) : Bool :=
  decide (r.arm ≤ at_) && (if out then bitOf r.pulses n && !r.donePulses.contains n
    else bitOf r.planes n && !r.donePlanes.contains n)

/-- REALIGN_LANDS (R443): on plane `n`, or on pulse output `n`. -/
def execRealignLands (t : Nat) (out : Bool) (n : Nat) (s : State) : Host.Outcome State Fault Refusal :=
  if 7 < n then .fault .noSuchObject
  else
    let s := advance t s
    let at_ := if out then s.clock.now else (planeOf s n).lastAny.getD 0
    let known := if out then pulseKnown s n else planeKnown s n
    let mine := s.tim.realigns.filter (fun r => r.wants out n at_)
    let s := mine.foldl (fun s r =>
      let s := if !known then s else if out then realignPulse n r s else realignPlane n r s
      onTim (fun m => { m with realigns := m.realigns.map (fun x => if x.order = r.order then x.note out n known else x) }) s) s
    .next (finishRealigns s)

/-- REALIGN_SLEW_DONE (R443): the error of a slewed plane or output is zero. -/
def execRealignSlewDone (t : Nat) (out : Bool) (n : Nat) (s : State) : Host.Outcome State Fault Refusal :=
  if 7 < n then .fault .noSuchObject
  else
    let s := advance t s
    let x := planeOf s n
    let f := (tpCfg s n).family
    let count := countAt f (x.last.getD 0)
    .next (if out then
        (if (pulseOf s n).slew.isSome && pulseAlign (pulseOf s n) = 0 then modPulse n (fun y => { y with slew := none }) s else s)
      else match x.slew, planeAlign s n with
        | some _, some 0 =>
          raise 1 8 0x8030 0 [pack8_16 n 1 0, w32 (unsignedOf 32 x.removing), w32 count]
            (modPlane n (fun y => { y with
              slew := none, slow := count
              fast := if famHasFast f then fastCountAt f (x.lastAny.getD 0) else count }) s)
        | _, _ => s)

/-- Order of masters by the default best master clock algorithm: the fields in the order of their comparison. -/
def PtpMaster.key (m : PtpMaster) : List Nat :=
  [m.msg.priority1, m.msg.clockClass, m.msg.accuracy, m.msg.variance, m.msg.priority2, m.msg.grandmaster, m.msg.steps
  , m.msg.sender, m.port]
/-- Lexicographic order of two lists. -/
def lexLess : List Nat → List Nat → Bool
  | a :: as, b :: bs => decide (a < b) || (a == b && lexLess as bs)
  | _, _ => false
/-- The best of the masters; a message of 255 steps or more does not count. -/
def bestMaster (ms : List PtpMaster) : Option PtpMaster :=
  (ms.filter (fun m => decide (m.msg.steps < 255))).foldl (fun b m => match b with
    | none => some m
    | some x => if lexLess m.key x.key then some m else some x) none

/-- The client chooses its master (R427 to R429): a change of master, of port or of grandmaster starts an acquisition;
with no master left the loop enters HOLDOVER, or FREE_RUN when it never locked.
Log 89 (DEDUCED, safe). -/
def chooseMaster (s : State) : State :=
  let old := s.tim.ptp.chosen
  let new := bestMaster s.tim.ptp.masters
  let s := onPtp (fun p => { p with chosen := new }) s
  match new with
  | some m => match old with
    | some o => if o.port = m.port && o.msg.sender = m.msg.sender && o.msg.grandmaster = m.msg.grandmaster then s else acquire s
    | none => acquire s
  | none =>
    let st := s.tim.time.state
    if st = .acquiring || st = .locked then moveTime (if s.tim.time.everLocked then .holdover else .freeRun) s else s

/-- ANNOUNCE_TIMEOUT (R429): the announce receipt timeout of a PTP port (0 A, 1 B, 2 internal) expires; with the last
port the loop enters HOLDOVER. -/
def execAnnounceTimeout (t port : Nat) (s : State) : Host.Outcome State Fault Refusal :=
  if 2 < port then .fault .noSuchObject
  else
    let s := advance t s
    .next (if s.tim.ptp.masters.any (fun m => m.port == port) then
        chooseMaster (onPtp (fun p => { p with masters := p.masters.filter (fun m => m.port != port) }) (timCount 2 s))
      else s)

/-- A completed Sync exchange with an offset from master (R429). -/
def syncExchange (o : Int) (s : State) : State :=
  let s := onPtp (fun p => { p with offset := some o }) s
  match s.tim.time.state with
  | .acquiring =>
    let s := onTim (fun m => { m with acqOffset := some o, good := if o.natAbs < 100 then m.good + 1 else 0 }) s
    if 10000 < o.natAbs then onPtp (fun p => { p with sync := none, lastSync := none }) (stepTime (-o) s)
    else if 16 ≤ s.tim.good then moveTime .locked s
    else s
  | .locked =>
    let s := onTim (fun m => { m with bad := if 10000 < o.natAbs then m.bad + 1 else 0 }) s
    if 16 ≤ s.tim.bad then acquire s else s
  | _ => s

/-- A Sync is complete: its origin time with corrections, and its receive stamp. -/
def syncDone (origin : Int) (rx : Nat) (s : State) : State :=
  let s := onPtp (fun p => { p with lastSync := some (origin, rx), sync := none }) s
  syncExchange ((rx : Int) - origin - s.tim.ptp.delay) s

/-- The egress time-stamp queue as the client leaves it: an overflow episode ends at 32 entries (R430). -/
def setStamps (q : List Stamp) (s : State) : State :=
  onPtp (fun p => { p with queue := q, overflow := p.overflow && decide (32 < q.length) }) s

/-- A Delay_Resp: the stamp of its request is taken from the queue with those before it; without it the exchange is
discarded (R430). -/
def delayResponse (port : Nat) (m : PtpMsg) (s : State) : State :=
  let q := s.tim.ptp.queue
  let hit := fun (x : Stamp) => x.port == port && x.seq == m.seq
  match q.find? hit, s.tim.ptp.lastSync with
  | some x, some (origin, rx) =>
    setStamps ((q.dropWhile (fun y => !hit y)).drop 1)
      (onPtp (fun p => { p with delay := ((rx : Int) - origin + ((m.origin : Int) - m.correction - x.at_)) / 2 }) s)
  | some _, none => setStamps ((q.dropWhile (fun y => !hit y)).drop 1) s
  | none, _ => s

/-- The client uses a PTP port (R428): the internal port in chain mode, else the ports that are enabled. -/
def ptpPortUsed (s : State) (port : Nat) : Bool :=
  if s.aon.ethChain then port == 2
  else (port == 0 && s.tim.ptp.portA) || (port == 1 && s.tim.ptp.portB)

/-- A PTP message reaches the client on a PTP port, with its receive stamp (R427, R429, R430).
Log 82 (DEDUCED, safe). -/
def ptpReceive (port rx : Nat) (m : PtpMsg) (s : State) : State :=
  if !loopsRun s || !ptpPortUsed s port || m.domain ≠ s.tim.ptp.domain then s
  else if !m.valid then timCount 1 s
  else
    let mine := match s.tim.ptp.chosen with | some x => x.port == port && x.msg.sender == m.sender | none => false
    match m.kind with
    | 3 => chooseMaster (onPtp (fun p => { p with
        masters := p.masters.filter (fun x => !(x.port == port && x.msg.sender == m.sender)) ++ [{ port := port, msg := m }] }) s)
    | 0 =>
      if !mine then s
      else if m.twoStep then onPtp (fun p => { p with sync := some (m.seq, rx, m.correction) }) s
      else syncDone ((m.origin : Int) + m.correction) rx s
    | 1 => match s.tim.ptp.sync with
      | some (q, r, k) => if mine && q = m.seq then syncDone ((m.origin : Int) + k + m.correction) r s else s
      | none => s
    | 2 => if mine && m.forUs then delayResponse port m s else s
    | _ => s

/-- A Delay_Req message of the client (IEEE 1588-2019), with the unicast flag when DELAY_UNICAST is 1. -/
def delayReq (s : State) (port seq : Nat) : List Byte :=
  let mac := if port = 1 then s.fuses.macB else s.fuses.macA
  [0x01#8, 0x02#8] ++ beBytes 2 44 ++ beBytes 1 s.tim.ptp.domain ++ beBytes 1 0
    ++ beBytes 2 (if s.tim.ptp.unicast then 0x0400 else 0) ++ beBytes 8 0 ++ beBytes 4 0
    ++ beBytes 3 (mac / 0x1000000) ++ beBytes 2 0xFFFE ++ beBytes 3 mac ++ beBytes 2 (port + 1) ++ beBytes 2 seq
    ++ [0x01#8, 0x7F#8] ++ beBytes 10 0

/-- The transmit stamp of an event message goes into the time-stamp queue, or is lost when that is full (R430). -/
def queueStamp (port seq : Nat) (s : State) : State :=
  let p := s.tim.ptp
  if p.queue.length < 64 then
    timCount 5 (setStamps (p.queue ++ [{ port := port, seq := seq, at_ := s.clock.now }]) s)
  else
    let s := onEth (fun e => { e with tsOverflow := (e.tsOverflow + 1) % 0x100000000 }) s
    if p.overflow then s else raise 2 7 0x7041 0 [pack8_16 port 0 seq] (onPtp (fun p => { p with overflow := true }) s)

/-- DELAY_REQ_SEND (R427, R430): the client sends a Delay_Req on the port of its master. -/
def execDelayReqSend (t : Nat) (s : State) : Host.Outcome State Fault Refusal :=
  let s := advance t s
  .next (match s.tim.ptp.chosen with
    | none => s
    | some m =>
      let q := s.tim.ptp.delaySeq
      let s := emit (.service s.clock.clk m.port 7 [q] (delayReq s m.port q)) s
      queueStamp m.port q (onPtp (fun p => { p with delaySeq := (q + 1) % 0x10000 }) s))

/-- HOLDOVER_LIMIT (R425): the estimated error of the time loop, or of the house loop, has passed HOLD_LIMIT_US. -/
def execHoldoverLimit (t : Nat) (house : Bool) (s : State) : Host.Outcome State Fault Refusal :=
  let s := advance t s
  let l := if house then s.tim.house else s.tim.time
  .next (if l.state = .holdover && decide (s.tim.holdLimit * 1000 < holdError l s) then
      (if house then setHouseState .lost s else moveTime .lost s)
    else s)

/-- The wait of an input that has become free of every condition (R434). -/
def startWait (i : Nat) (s : State) : State :=
  let r := refIn s i
  modRef i (fun x =>
    if r.first then { x with phase := 2, waitUntil := s.clock.clk + 2000000000 }
    else if s.tim.house.state = .acquiring then { x with phase := 2, deferred := true }
    else { x with phase := 2, deferred := false, waitUntil := s.clock.clk + s.tim.sel.wtr * 1000000000 }) s

/-- An input is disqualified (R433), and the selector acts (R436). -/
def disqualify (i cause : Nat) (s : State) : State :=
  let s := timCount 3 (modRef i (fun x => { x with phase := 1, cause := cause, deferred := false }) s)
  let s := raise 2 8 0x8010 0 [pack8 i 1 cause 0, w32 (unsignedOf 32 (refIn s i).freq)] s
  runSelector 0 s

/-- An edge comes away from its expected position (Table 13.2). -/
def glitches (r : RefIn) (now : Nat) : Bool :=
  match r.lastEdge with
  | none => false
  | some l =>
    if r.kind = 1 then match famRate r.family with
      | some (n, d) => decide (1000 * n < (((now - l) * n : Nat) - (d * 1000000000 : Nat) : Int).natAbs)
      | none => false
    else decide (now - l < 80) || decide (120 < now - l)

/-- REF_EDGE (R433, R434): an active edge on an input. -/
def execRefEdge (t i : Nat) (s : State) : Host.Outcome State Fault Refusal :=
  if 3 < i then .fault .noSuchObject
  else
    let s := advance t s
    let r := refIn s i
    .next (if r.kind = 0 || !loopsRun s then s
      else
        let absent := r.phase == 1 && r.cause == 0
        let s := modRef i (fun x => { x with lastEdge := some s.clock.clk, edgeTime := some s.clock.now }) s
        let s := if s.tim.sel.stage = 1 && s.tim.sel.selected = some i then
            onTim (fun m => { m with sel := { m.sel with edges := m.sel.edges + 1 } }) s else s
        if absent then startWait i s
        else if glitches r s.clock.clk then
          startWait i (if r.phase = 1 then modRef i (fun x => { x with cause := 1 }) s else disqualify i 1 s)
        else s)

/-- REF_ABSENT (R433): no edge for the expected period plus 2 ms, or for 2 ms at 10 MHz. -/
def execRefAbsent (t i : Nat) (s : State) : Host.Outcome State Fault Refusal :=
  if 3 < i then .fault .noSuchObject
  else
    let s := advance t s
    let r := refIn s i
    let span := (if r.kind = 1 then basePeriod r.family else 0) + 2000000
    .next (if r.kind ≠ 0 && loopsRun s && (r.phase = 2 || r.phase = 3)
        && decide (r.lastEdge.getD r.started + span ≤ s.clock.clk) then disqualify i 0 s
      else s)

/-- REF_FREQUENCY_WINDOW (R432, R433): the mean frequency of an input over 1 s.
Log 82 (DEDUCED, safe). -/
def execRefFrequencyWindow (t i : Nat) (ppb : Int) (s : State) : Host.Outcome State Fault Refusal :=
  if 3 < i then .fault .noSuchObject
  else
    let s := advance t s
    let r := refIn s i
    .next (if r.kind = 0 || !loopsRun s then s
      else
        let s := modRef i (fun x => { x with freq := ppb }) s
        if r.tol * 1000 < ppb.natAbs then (if r.phase = 2 || r.phase = 3 then disqualify i 2 s else s)
        else if r.phase = 1 && r.cause = 2 then startWait i s
        else s)

/-- REF_QUALIFY (R434): the wait of an input has passed without a condition, and the selector may switch (R436). -/
def execRefQualify (t i : Nat) (s : State) : Host.Outcome State Fault Refusal :=
  if 3 < i then .fault .noSuchObject
  else
    let s := advance t s
    let r := refIn s i
    .next (if r.phase = 2 && !r.deferred && decide (r.waitUntil ≤ s.clock.clk) then
        runSelector 0 (modRef i (fun x => { x with phase := 3, first := false }) s)
      else s)

/-- BUILD_OUT_DONE (R436 step 2): the phase has been measured over 4 edges, or over 10 ms. -/
def execBuildOutDone (t : Nat) (s : State) : Host.Outcome State Fault Refusal :=
  let s := advance t s
  let x := s.tim.sel
  .next (match x.selected with
    | some i =>
      let pulse := decide (i < 4) && (refIn s i).kind == 1
      if s.tim.house.state = .acquiring && x.stage = 1
          && (if pulse then decide (4 ≤ x.edges) else decide (x.stageAt + 10000000 ≤ s.clock.clk)) then
        onTim (fun m => { m with sel := { m.sel with stage := 2, stageAt := s.clock.clk } }) s
      else s
    | none => s)

/-- HOUSE_LOOP_LOCKED (R436 step 4): the loop has stayed within 0.01 ppm for 1 s. Better candidates are considered now.
Log 82 (DEDUCED, safe). -/
def execHouseLoopLocked (t : Nat) (s : State) : Host.Outcome State Fault Refusal :=
  let s := advance t s
  let x := s.tim.sel
  .next (if s.tim.house.state = .acquiring && x.stage = 2 && decide (x.stageAt + 1000000000 ≤ s.clock.clk) then
      runSelector 1 (setHouseState .locked (onTim (fun m => { m with sel := { m.sel with stage := 0 } }) s))
    else s)

/-- A third qualified input, or PTP while the time is LOCKED, agrees within 0.5 ppm with a frequency (R437). -/
def thirdAgrees (s : State) (a b : Nat) (ppb : Int) : Bool :=
  (s.tim.time.state == .locked && decide (ppb.natAbs ≤ 500))
    || [0, 1, 2, 3].any (fun i => i != a && i != b && isCandidate s i && decide (((refIn s i).freq - ppb).natAbs ≤ 500))

/-- The input chosen in a disagreement, with the rule that chose it (R437). -/
def disagreeChoice (s : State) (a b : Nat) (pa pb : Int) : Nat × Nat :=
  let ga := thirdAgrees s a b pa
  let gb := thirdAgrees s a b pb
  if ga && !gb then (a, 0)
  else if gb && !ga then (b, 0)
  else if s.tim.sel.selected = some a then (a, 1)
  else if s.tim.sel.selected = some b then (b, 1)
  else (min a b, 2)

/-- REF_DISAGREE (R437): two qualified inputs of equal rank differ by more than 0.5 ppm over 10 s. -/
def execRefDisagree (t a b : Nat) (ppbA ppbB : Int) (s : State) : Host.Outcome State Fault Refusal :=
  if 3 < a || 3 < b then .fault .noSuchObject
  else
    let s := advance t s
    .next (if a ≠ b && isCandidate s a && isCandidate s b && (refIn s a).rank = (refIn s b).rank
        && decide (500 < (ppbA - ppbB).natAbs) then
        let (win, rule) := disagreeChoice s a b ppbA ppbB
        let lose := if win = a then b else a
        let s := raise 2 8 0x8022 0 [pack8 a b win rule, w32 (ppbA - ppbB).natAbs] s
        let s := onTim (fun m => { m with sel := { m.sel with disagree := m.sel.disagree ++ [(a, b, lose)] } })
          (modRef lose (fun x => { x with suspect := true }) s)
        if s.tim.sel.selected = some lose && loopsRun s && s.mode ≠ .isolated && selectsItself s then
          switchTo win 2 (if s.tim.house.state = .acquiring then houseHoldover s else s)
        else runSelector 2 s
      else s)

/-- REF_DISAGREEMENT_END (R437): two inputs agree again within 0.25 ppm over 10 s. -/
def execRefDisagreementEnd (t a b : Nat) (s : State) : Host.Outcome State Fault Refusal :=
  if 3 < a || 3 < b then .fault .noSuchObject
  else
    let s := advance t s
    let hit := fun (x : Nat × Nat × Nat) => (x.1 == a && x.2.1 == b) || (x.1 == b && x.2.1 == a)
    .next (if s.tim.sel.disagree.any hit then
        let left := s.tim.sel.disagree.filter (fun x => !hit x)
        let s := onTim (fun m => { m with
          sel := { m.sel with disagree := left }
          refs := tmap m.refs (fun i r => if i = a || i = b then { r with suspect := left.any (fun x => x.2.2 == i) } else r) }) s
        runSelector 0 s
      else s)

/-- PTP_WTR_EXPIRED (R435): the time has been LOCKED for WTR_S, and PTP is a candidate again. -/
def execPtpWtrExpired (t : Nat) (s : State) : Host.Outcome State Fault Refusal :=
  let s := advance t s
  .next (if s.tim.sel.ptpBarred && s.tim.time.state = .locked
      && decide (s.tim.time.since + s.tim.sel.wtr * 1000000000 ≤ s.clock.clk) then
      runSelector 0 (onTim (fun m => { m with sel := { m.sel with ptpBarred := false } }) s)
    else s)

/-- A frame start of a plane, at the slowest rate of its family or between two such (R442): the first one at the slowest
rate sets the counts, or takes those of the partner; a later one adds 1. -/
def countStart (p : Nat) (slow : Bool) (s : State) : State :=
  let f := (tpCfg s p).family
  let n := s.clock.now
  modPlane p (fun x =>
    if !x.started || x.stepping then
      if slow then
        let c := if x.started then countAt f n else x.adopt.getD (countAt f n)
        let k := if !famHasFast f then c else match x.adopt, x.started with
          | some a, false => 2 * a % 0x100000000
          | _, _ => fastCountAt f n
        { x with started := true, stepping := false, adopt := none, slow := c, fast := k, last := some n, lastAny := some n }
      else if x.started then { x with fast := (x.fast + 1) % 0x100000000, lastAny := some n }
      else x
    else if slow then
      { x with slow := (x.slow + 1) % 0x100000000, fast := (x.fast + 1) % 0x100000000, last := some n, lastAny := some n }
    else { x with fast := (x.fast + 1) % 0x100000000, lastAny := some n }) s

/-- Outputs in mode FRAME on the plane have an edge to drive, and cue pulses that wait for the plane may start (Table
13.4, R235). -/
def pulsesAtStart (p : Nat) (slow : Bool) (s : State) : State :=
  let s := onTim (fun m => { m with pulses := tmap m.pulses (fun _ x =>
    if x.mode = 3 && x.plane = p && (x.fastest || slow) then { x with due := true } else x) }) s
  onCue (fun q => { q with marks := q.marks.map (fun k =>
    if k.pulse && k.c = p + 1 && (match k.arm with | some a => decide (a ≤ s.clock.now) | none => false)
    then { k with c := 0 } else k) }) s

/-- An instance that waits for frames of the plane counts a frame start at or after its reference instant (R241). -/
def waitsAtStart (p : Nat) (slow : Bool) (s : State) : State :=
  onCue (fun q => { q with insts := tmap q.insts (fun _ x =>
    if x.state = .waitFrames && x.plane = p && (x.rate = 1 || slow) && decide (x.ref ≤ s.clock.now) then
      { x with left := x.left - 1 } else x) }) s

/-- PLANE_FRAME_START (R203, R204): a plane's frame start, at the slowest rate of its family or between two such.
Log 85 (DEDUCED, safe). -/
def execPlaneFrameStart (t p : Nat) (slow : Bool) (s : State) : Host.Outcome State Fault Refusal :=
  if 7 < p then .fault .noSuchObject
  else
    let s := advance t s
    let f := (tpCfg s p).family
    .next (if lanesRun s && f != 0 && (slow || famHasFast f) then waitsAtStart p slow (pulsesAtStart p slow (countStart p slow s))
      else s)

/-- COMPARE_FIRE (R445): the target of an armed unit is reached. -/
def execCompareFire (t u : Nat) (s : State) : Host.Outcome State Fault Refusal :=
  if 31 < u then .fault .noSuchObject
  else
    let s := advance t s
    let x := compareOf s u
    .next (if x.state = 1 && decide (compareDist x.target s.clock.now ≤ 0) then
        let s := if bitOf x.actions 1 && (pulseOf s x.output).mode = 1 then startPulse x.output (pulseOf s x.output).width s else s
        let s := if bitOf x.actions 0 then
            raise 0 8 0x8041 0 ([pack8_16 u x.actions 0] ++ words64 x.target) s else s
        let x' := if x.period = 0 then { x with state := 2 }
          else { x with target := (x.target + x.period) % 0x10000000000, started := false }
        onTim (fun m => { m with compares := tset m.compares u x', cnt := bump m.cnt 6 }) s
      else s)

/-- The next start of a periodic output; while it slews, the start moves towards its grid by its rate (R443, R447). -/
def Pulse.after (x : Pulse) : Nat :=
  match x.slew with
  | none => x.next + x.period
  | some r =>
    let e := pulseAlign x
    let m : Int := max 1 (x.period * r / 1000000)
    ((x.next + x.period : Nat) - (if 0 < e then min e m else max e (-m)) : Int).toNat

/-- A pulse starts on an output of mode PERIODIC, FRAME or CUE whose time has come (R447, R235). -/
def risePulse (n : Nat) (s : State) : State :=
  let x := pulseOf s n
  if x.mode = 2 then
    if x.next ≤ s.clock.now then modPulse n (fun y => { y with next := x.after }) (startPulse n x.width s) else s
  else if x.mode = 3 then
    if x.due then startPulse n x.width (modPulse n (fun y => { y with due := false }) s) else s
  else if x.mode = 4 then
    match s.cue.marks.find? (fun k => k.pulse && k.a == n && k.c == 0
        && (match k.arm with | some a => decide (a ≤ s.clock.now) | none => false)) with
    | some k => startPulse n (k.b * 1000) (onCue (fun q => { q with marks := q.marks.erase k }) s)
    | none => s
  else s

/-- PULSE_EDGE (R447): a pulse output reaches the start or the end of a pulse. -/
def execPulseEdge (t n : Nat) (rising : Bool) (s : State) : Host.Outcome State Fault Refusal :=
  if 7 < n then .fault .noSuchObject
  else
    let s := advance t s
    .next (if s.mode = .boot || s.mode = .retain then s
      else if rising then risePulse n s
      else if (pulseOf s n).active && decide ((pulseOf s n).endAt ≤ s.clock.clk) then endPulse n s
      else s)

/-- AON_TIME_RECORD (R448): the record of every second. -/
def execAonTimeRecord (t : Nat) (s : State) : Host.Outcome State Fault Refusal :=
  let s := advance t s
  .next (if s.seq.aonUp && s.clock.running then recordTime s else s)

end Sys2Proof.Machine
end

