-- ==== Sys2Proof/Machine/Cue.lean ====
section
/-! DEFINITION. Cue programs (chapter 7): loading, starting, executing groups, waits, and ending. -/

namespace Sys2Proof.Machine

/-- A cue word (Table 7.1). -/
abbrev CueWord := BitVec 64
/-- OP. -/
def cueOp (w : CueWord) : Nat := bitsOf w.toNat 63 56
/-- XF. -/
def cueXf (w : CueWord) : Nat := bitsOf w.toNat 55 52
/-- Indirection flags: 0 A, 1 B, 2 C. -/
def cueInd (w : CueWord) (k : Nat) : Bool := bitOf w.toNat (48 + k)
/-- Operand A. -/
def cueA (w : CueWord) : Nat := bitsOf w.toNat 47 32
/-- Operand B. -/
def cueB (w : CueWord) : Nat := bitsOf w.toNat 31 16
/-- Operand C. -/
def cueC (w : CueWord) : Nat := bitsOf w.toNat 15 0
/-- The word waits: WAIT_FRAMES or WAIT_TIME. -/
def cueWaits (w : CueWord) : Bool := cueOp w == 0x10 || cueOp w == 0x11
/-- The word closes a group: a wait or END (R236). -/
def cueCloses (w : CueWord) : Bool := cueWaits w || cueOp w == 0
/-- The word takes a queue entry (Table 7.2). -/
def cueEntry (w : CueWord) : Bool := cueOp w == 1 || cueOp w == 2 || cueOp w == 4
/-- The word jumps: BRANCH or LOOP. -/
def cueJumps (w : CueWord) : Bool := cueOp w == 0x20 || cueOp w == 0x21

/-- The operands are in the ranges of Table 7.2; for BRANCH of Table 7.3. A layer attribute's value is judged when its group
is placed (R240).
Log 53 (DEDUCED, safe). -/
def opFits : CueOp → Bool
  | .take d n => decide (d < 1536) && (decide (n < 1088) || n == 0xFFFF)
  | .audio o i g _ => decide (o < matrixSize) && inputFits i && gainFits g
  | .layerSet l a _ => decide (l < 512) && decide (a < 6)
  | .commit c => decide (c < 64) || c == 0xFFFF
  | .pulse o w k => decide (o < 8) && w != 0 && decide (k < 9)
  | .mark sev _ _ _ => decide (sev < 3)

/-- The operation that a word stands for, with given operands. -/
def opOf (w : CueWord) (a b c : Nat) : Option CueOp :=
  match cueOp w with
  | 0x01 => some (.take a b)
  | 0x02 => some (.audio a b c (bitOf (cueXf w) 0))
  | 0x03 => some (.layerSet a b c)
  | 0x04 => some (.commit a)
  | 0x30 => some (.pulse a b c)
  | 0x31 => some (.mark (cueXf w % 4) a b c)
  | _ => none

/-- Operand B of a BRANCH is in the range of its condition (R244). -/
def branchFits (cond b : Nat) : Bool :=
  match cond with
  | 0 | 3 => b == 0
  | 1 => decide (b < 1088)
  | 2 => decide (b < 1536)
  | 4 => decide (b < 16)
  | _ => false

/-- The operands that an opcode takes, A, B and C; the others must be zero (Table 7.2). -/
def usedOperands (op : Nat) : Bool × Bool × Bool :=
  match op with
  | 0x00 => (false, false, false)
  | 0x01 => (true, true, false)
  | 0x04 => (true, false, false)
  | _ => (true, true, true)
/-- The operands that may use indirection (R233, R244). -/
def mayIndirect (w : CueWord) : Bool × Bool × Bool :=
  match cueOp w with
  | 0x01 => (true, true, false)
  | 0x02 | 0x03 | 0x31 => (true, true, true)
  | 0x04 => (true, false, false)
  | 0x20 => (false, cueA w == 1 || cueA w == 2, false)
  | _ => (false, false, false)
/-- The mask of XF bits that an opcode defines (Table 7.2). -/
def xfMask (op : Nat) : Nat := match op with | 0x02 | 0x11 | 0x20 => 1 | 0x31 => 3 | _ => 0

/-- Check 2 of Table 7.4. -/
def check2 (w : CueWord) : Bool := [0x00, 0x01, 0x02, 0x03, 0x04, 0x10, 0x11, 0x20, 0x21, 0x30, 0x31].contains (cueOp w)
/-- Check 3 of Table 7.4: reserved bits, zero operands and unused XF bits are zero, and indirection stands only where it may. -/
def check3 (w : CueWord) : Bool :=
  let u := usedOperands (cueOp w)
  let m := mayIndirect w
  let part := fun (used may ind : Bool) (v : Nat) =>
    if ind then may && decide (v < 16) else used || v == 0
  !bitOf w.toNat 51 && cueXf w &&& (0xF - xfMask (cueOp w)) == 0
    && part u.1 m.1 (cueInd w 0) (cueA w) && part u.2.1 m.2.1 (cueInd w 1) (cueB w) && part u.2.2 m.2.2 (cueInd w 2) (cueC w)

/-- A direct operand that stands for any value in range, in place of an indirect one. -/
def orZero (ind : Bool) (v fallback : Nat) : Nat := if ind then fallback else v
/-- Check 7 of Table 7.4: every direct operand is in range. -/
def check7 (w : CueWord) : Bool :=
  let a := cueA w
  let b := cueB w
  match cueOp w with
  | 0x10 => decide (a < 8) && decide (b < 2) && cueC w != 0
  | 0x11 => decide (bitsOf w.toNat 47 0 ≤ 86400000000)
  | 0x20 => decide (a < 5) && (cueInd w 1 || branchFits a b)
  | 0x21 => decide (a < 4)
  | _ => match opOf w (orZero (cueInd w 0) a 0) (orZero (cueInd w 1) b 0) (orZero (cueInd w 2) (cueC w) 0) with
    | some o => opFits o
    | none => true
/-- Check 5 of Table 7.4. -/
def check5 (n i : Nat) (w : CueWord) : Bool :=
  !cueJumps w || (decide (cueC w < n) && (cueOp w == 0x20 || decide (cueC w < i)))
/-- Check 6 of Table 7.4. -/
def check6 (ws : List CueWord) (i : Nat) (w : CueWord) : Bool :=
  !cueJumps w || decide (i < cueC w) || ((ws.drop (cueC w)).take (i + 1 - cueC w)).any cueWaits
/-- Check 8 of Table 7.4: the index of the word that makes a run too long. -/
def check8 : Nat → Nat → List CueWord → Option Nat
  | _, _, [] => none
  | i, n, w :: ws =>
    let n' := if cueCloses w then 0 else n + bit (cueEntry w)
    if 4096 < n' then some i else check8 (i + 1) n' ws

/-- The first word that fails a check. -/
def firstBad (p : Nat → CueWord → Bool) (ws : List CueWord) : Option Nat :=
  (((List.range ws.length).zip ws).find? (fun x => !p x.1 x.2)).map (·.1)

/-- The first load check that fails, with its reason and word (Table 7.4).
Log 51 (DEDUCED, safe). -/
def loadCheck (bytes : List Byte) (ws : List CueWord) (crc : Nat) : Option (Nat × Nat) :=
  if (crc32 bytes).toNat ≠ crc then some (1, 0)
  else match firstBad (fun _ w => check2 w) ws with
  | some i => some (2, i)
  | none => match firstBad (fun _ w => check3 w) ws with
  | some i => some (3, i)
  | none =>
    if (ws.getLast?.map cueOp) ≠ some 0 then some (4, ws.length - 1)
    else match firstBad (check5 ws.length) ws with
    | some i => some (5, i)
    | none => match firstBad (check6 ws) ws with
    | some i => some (6, i)
    | none => match firstBad (fun _ w => check7 w) ws with
    | some i => some (7, i)
    | none => (check8 0 0 ws).map (fun i => (8, i))

/-- The words that stand in the parameters of a CUE_LOAD. -/
def cueWords (bs : List Byte) (n : Nat) : List CueWord :=
  (List.range n).map (fun i => BitVec.ofNat 64 (beNat ((bs.drop (8 * i)).take 8)))

/-- The pages of a program (R249). -/
def CueProg.pages (p : CueProg) : Nat := (p.words.length + 63) / 64
/-- The pages in use. -/
def pagesUsed (s : State) : Nat := s.cue.progs.foldl (fun a p => a + p.2.pages) 0
/-- A program has running instances or a bound compare (Table 7.6). -/
def progBusy (s : State) (p : Nat) : Bool :=
  s.cue.insts.any (fun x => x.2.prog == p) || s.tim.compares.any (fun u => u.2.binds == some p)
/-- A session may not act on a program (R253). -/
def notOwner (s : State) (c : HostCmd) (p : Nat) : Bool :=
  match tfind s.cue.progs p with
  | some x => x.session != c.session && !isWide c.role
  | none => false

/-- The parameters of a CUE_LOAD refused with BAD_PARAM. -/
def loadError (reason word : Nat) : List Byte := beBytes 1 reason ++ beBytes 1 0 ++ beBytes 2 word
/-- CUE_LOAD (Tables 7.4 and 7.6). -/
def refuseCueLoad : Refuse := fun s c =>
  let p := u8 c.params 0
  let replace := bitOf (u8 c.params 1) 0
  let n := u16 c.params 4
  let bytes := c.params.drop 12
  if c.params.length < 12 || c.params.length ≠ 12 + 8 * n then some (.badLength, [])
  else if 1 < u8 c.params 1 || u16 c.params 2 ≠ 0 || u16 c.params 6 ≠ 0 || n = 0 || 16384 < n then some (.badParam, loadError 0 0)
  else match loadCheck bytes (cueWords bytes n) (u32 c.params 8) with
    | some (r, i) => some (.badParam, loadError r i)
    | none =>
      let old := tfind s.cue.progs p
      let freed := match old with | some x => x.pages | none => 0
      firstRefusal [refuseIf (replace && notOwner s c p) .roleDenied, refuseIf (!replace && old.isSome) .busy,
        refuseIf (replace && progBusy s p) .busy, refuseIf (decide (2048 < pagesUsed s - freed + (n + 63) / 64)) .noResource]
/-- CUE_LOAD puts the program into the store (R249). -/
def effCueLoad : Effect := fun s c =>
  let n := u16 c.params 4
  let x : CueProg := { session := c.session, words := cueWords (c.params.drop 12) n, crc := w32 (u32 c.params 8) }
  let s := onCue (fun q => { q with progs := tset q.progs (u8 c.params 0) x }) s
  (s, some (.ok, beBytes 2 ((n + 63) / 64) ++ beBytes 2 (2048 - pagesUsed s)))
/-- CUE_LOAD (R252). -/
def execCueLoad (t : Nat) (c : HostCmd) (s : State) : Host.Outcome State Fault Refusal :=
  .next (runCommand .cueLoad refuseCueLoad effCueLoad t c s)

/-- The lowest free instance slot of 64 (R246). -/
def freeInst (s : State) : Option Nat := (List.range 64).find? (fun i => (tfind s.cue.insts i).isNone)

/-- Raise CUE_START_REFUSED, counted (Table 7.12).
Log 50 (DEDUCED, safe). -/
def startRefused (prog unit cause : Nat) (s : State) : State :=
  raise 2 9 0x9114 0 [pack8 prog unit cause 0] (onCue (fun q => { q with cnt := bump q.cnt 7 }) s)

/-- Raise CUE_LATE, counted (R242, R245). -/
def raiseLate (i prog word us : Nat) (s : State) : State :=
  raise 2 9 0x9113 0 [pack8_16 i prog word, w32 (min us 0xFFFFFFFF)] (onCue (fun q => { q with cnt := bump q.cnt 6 }) s)

/-- Start an instance in slot `i` (R245, R246).
Log 49 (DEDUCED, safe). -/
def startInst (i : Nat) (x : CueInst) (s : State) : State :=
  let late := match x.timed with | some g => decide (g < s.clock.now) | none => false
  let us := (s.clock.now - x.timed.getD 0) / 1000
  let x := { x with run := s.cue.nextRun, timed := if late then none else x.timed }
  let s := onCue (fun q => { q with insts := tset q.insts i x, nextRun := (q.nextRun + 1) % 0x100000000, cnt := bump q.cnt 0 }) s
  let s := raise 0 9 0x9110 0 [pack8_16 i x.prog x.session, w32 x.run, w32 (x.t0 % 1000000000)] s
  if late then raiseLate i x.prog 0 us s else s

/-- CUE_RUN (Table 7.6). -/
def refuseCueRun : Refuse := fun s c =>
  let p := u8 c.params 0
  let at_ := u8 c.params 1 == 1
  firstRefusal [needLen 48 c,
    refuseIf (decide (1 < u8 c.params 1) || u16 c.params 2 != 0 || u16 c.params 10 != 0 || (at_ && targetBad s c.params 4)) .badParam,
    refuseIf (notOwner s c p) .roleDenied, refuseIf (tfind s.cue.progs p).isNone .objectInvalid,
    refuseIf (freeInst s).isNone .noResource]
/-- CUE_RUN starts an instance (R245, R246). -/
def effCueRun : Effect := fun s c =>
  let at_ := u8 c.params 1 == 1
  let i := (freeInst s).getD 0
  let t0 := if at_ then targetOf c.params 4 else s.clock.now
  let run := s.cue.nextRun
  let s := startInst i { prog := u8 c.params 0, session := c.session, role := c.role, run := 0, t0 := t0
                         vars := (List.range 16).map (fun k => u16 c.params (16 + 2 * k))
                         timed := if at_ then some t0 else none } s
  (s, some (.ok, beBytes 1 i ++ beBytes 3 0 ++ beBytes 4 run))
/-- CUE_RUN (R252): with 64 instances running it is refused with CUE_START_REFUSED (R246, Table 7.12).
Log 50 (DEDUCED, safe). -/
def execCueRun (t : Nat) (c : HostCmd) (s : State) : Host.Outcome State Fault Refusal :=
  let s := advance t s
  .next (if !hostServes s then s
    else
      let s := dequeue .cueRun c s
      match (if c.named then none else refusal .cueRun refuseCueRun s c) with
      | some r => refuseWith .cueRun c r (if r.1 = .noResource then startRefused (u8 c.params 0) 0xFF 0 s else s)
      | none => acceptWith .cueRun c effCueRun s)

/-- The unsealed entries of an instance (R247). -/
def instEntry (i run : Nat) (e : Entry) : Bool := e.unsealed && e.cue == some (i, run)
/-- Abort an instance (R247): its entries that are not sealed are discarded with cause 0. -/
def abortInst (i cause : Nat) (s : State) : State :=
  match tfind s.cue.insts i with
  | none => s
  | some x => endInstance i cause (discardEntries (instEntry i x.run) 0 s)

/-- The instances that a CUE_ABORT names and may act on (R252, R253). -/
def abortSet (s : State) (c : HostCmd) : List Nat :=
  let sel := u8 c.params 0
  let mine := fun (x : CueInst) => x.session == c.session || isWide c.role
  (s.cue.insts.filter (fun x =>
    if sel < 64 then x.1 == sel && mine x.2
    else if sel = 0x80 then x.2.prog == u8 c.params 1 && mine x.2
    else if sel = 0xFE then x.2.session == c.session
    else true)).map (·.1)
/-- CUE_ABORT (Table 7.6). -/
def refuseCueAbort : Refuse := fun s c =>
  let sel := u8 c.params 0
  firstRefusal [needLen 4 c,
    refuseIf ((decide (63 < sel) && sel != 0x80 && sel != 0xFE && sel != 0xFF) || u16 c.params 2 != 0) .badParam,
    refuseIf (!isWide c.role && (sel == 0xFF || (decide (sel < 64) && (match tfind s.cue.insts sel with
      | some x => x.session != c.session | none => false)))) .roleDenied]
/-- CUE_ABORT aborts the selected instances (R247). -/
def effCueAbort : Effect := fun s c =>
  let is := abortSet s c
  let gone := is.foldl (fun a i => match tfind s.cue.insts i with
    | some x => a + (s.xpt.queue.filter (instEntry i x.run)).length | none => a) 0
  (is.foldl (fun s i => abortInst i 1 s) s, some (.ok, beBytes 1 is.length ++ beBytes 1 0 ++ beBytes 2 gone))
/-- CUE_ABORT (R252). -/
def execCueAbort (t : Nat) (c : HostCmd) (s : State) : Host.Outcome State Fault Refusal :=
  .next (runCommand .cueAbort refuseCueAbort effCueAbort t c s)

/-- The state code of an instance (Table 7.11). -/
def CueState.code : CueState → Nat
  | .executing => 1 | .waitFrames => 2 | .waitTime => 3 | .waitEntries => 4
/-- CUE_STATUS takes no parameters. -/
def refuseCueStatus : Refuse := fun _ c => needLen 0 c
/-- CUE_STATUS (Table 7.5). -/
def effCueStatus : Effect := fun s _ =>
  (s, some (.ok, (List.range 64).flatMap (fun i => match tfind s.cue.insts i with
    | some x => beBytes 1 x.state.code ++ beBytes 1 x.prog ++ beBytes 2 x.word ++ beBytes 4 x.run ++ beBytes 2 x.session
        ++ beBytes 2 x.placed
    | none => List.replicate 12 0#8)))
/-- CUE_STATUS (R252). -/
def execCueStatus (t : Nat) (c : HostCmd) (s : State) : Host.Outcome State Fault Refusal :=
  .next (runCommand .cueStatus refuseCueStatus effCueStatus t c s)

/-- The programs that a CUE_UNLOAD names. -/
def unloadSet (s : State) (c : HostCmd) : List Nat :=
  if bitOf (u8 c.params 1) 0 then (s.cue.progs.filter (fun p => p.2.session == c.session)).map (·.1) else [u8 c.params 0]
/-- CUE_UNLOAD (Table 7.6). -/
def refuseCueUnload : Refuse := fun s c =>
  let all := bitOf (u8 c.params 1) 0
  let p := u8 c.params 0
  firstRefusal [needLen 4 c, refuseIf (decide (1 < u8 c.params 1) || u16 c.params 2 != 0) .badParam,
    refuseIf (!all && notOwner s c p) .roleDenied, refuseIf (!all && (tfind s.cue.progs p).isNone) .objectInvalid,
    refuseIf ((unloadSet s c).any (progBusy s)) .busy]
/-- CUE_UNLOAD takes programs out of the store. -/
def effCueUnload : Effect := fun s c =>
  ((unloadSet s c).foldl (fun s p => onCue (fun q => { q with progs := tdel q.progs p }) s) s, some (.ok, []))
/-- CUE_UNLOAD (R252). -/
def execCueUnload (t : Nat) (c : HostCmd) (s : State) : Host.Outcome State Fault Refusal :=
  .next (runCommand .cueUnload refuseCueUnload effCueUnload t c s)

/-- CUE_STORE (Table 7.8). -/
def regCueStore (s : State) : Word := fields [(0, 12, pagesUsed s), (16, 9, s.cue.progs.length)]
/-- CUE_CFG (Table 7.7). -/
def regCueCfg (s : State) : Word := fields [(0, 8, s.cue.stallTicks)]
/-- A write of CUE_CFG. -/
def writeCueCfg (v : Nat) (s : State) : State := onCue (fun q => { q with stallTicks := max 1 (bitsOf v 7 0) }) s
/-- CUE_PROG (Table 7.10). -/
def regCueProg (s : State) (p : Nat) : Word :=
  fields [(0, 15, match tfind s.cue.progs p with | some x => x.words.length | none => 0)
        , (16, 7, (s.cue.insts.filter (fun x => x.2.prog == p)).length)]
/-- CUE_INST (Table 7.11). -/
def regCueInst (s : State) (i : Nat) : Word :=
  match tfind s.cue.insts i with
  | some x => fields [(0, 3, x.state.code), (3, 1, bit x.trigger), (8, 8, x.prog), (16, 14, x.word)]
  | none => 0#32

/-- An operand as executed: direct, or the variable that it names (R233). -/
def operand (x : CueInst) (w : CueWord) (k v : Nat) : Nat := if cueInd w k then x.vars.getD (v % 16) 0 else v

/-- A source is FAILED or not defined (Table 7.3). A composition output is defined while its compositor is enabled. -/
def sourceDown (s : State) (n : Nat) : Bool :=
  if n < 1024 then (srcOf s n).def_.isNone || (srcOf s n).phase == 4 else !compOn s (n - 1024)

/-- A condition of Table 7.3 holds. -/
def branchCond (s : State) (x : CueInst) (cond b : Nat) : Bool :=
  match cond with
  | 0 => true
  | 1 => sourceDown s b
  | 2 => (dstOf s b).shown == 2
  | 3 => s.tim.time.state == .locked
  | _ => x.vars.getD (b % 16) 0 != 0

/-- Raise CUE_OP_DISCARDED, counted (R240). -/
def opDiscarded (i prog word reason value : Nat) (s : State) : State :=
  raise 2 9 0x9112 0 [pack8_16 i prog word, pack8_16 reason 0 value] (onCue (fun q => { q with cnt := bump q.cnt 5 }) s)

/-- What executing a LOOP does (R244): its counter afterwards and whether it jumps. -/
def loopStep (k : LoopCtr) (count : Nat) : LoopCtr × Bool :=
  let k' : LoopCtr := match k with
    | .idle => if count = 0 then .forever else .count count
    | k => k
  match k' with
  | .forever => (.forever, true)
  | .count n => if 1 < n then (.count (n - 1), true) else (.idle, false)
  | .idle => (.idle, false)

/-- Execute words from the instance's word to the closing word of the group (R236), which becomes its word; `told` gives the
branch outcomes that a record carries (R251). The operations are collected in word order. -/
def collect (i : Nat) (ws : List CueWord) (told : Option (List (Nat × Bool))) : Nat → CueInst → State → CueInst × State
  | 0, x, s => (x, s)
  | fuel + 1, x, s =>
    let w := ws.getD x.word 0
    if cueCloses w then (x, s)
    else if cueOp w = 0x20 then
      let b := operand x w 1 (cueB w)
      let bad := cueInd w 1 && !branchFits (cueA w) b
      let own := !bad && (branchCond s x (cueA w) b != bitOf (cueXf w) 0)
      let known := (told.getD []).find? (fun y => y.1 == x.word)
      let jump := (known.map (·.2)).getD own
      let told := told.map (fun l => match known with | some y => l.erase y | none => l)
      let s := if bad then opDiscarded i x.prog x.word 0 b s else s
      let s := recordItem (.cueBranch i x.word x.run (bit jump)) s
      collect i ws told fuel { x with word := if jump then cueC w else x.word + 1 } s
    else if cueOp w = 0x21 then
      let r := loopStep (x.loops.getD (cueA w) .idle) (cueB w)
      collect i ws told fuel { x with loops := x.loops.set (cueA w) r.1, word := if r.2 then cueC w else x.word + 1 } s
    else
      let o := opOf w (operand x w 0 (cueA w)) (operand x w 1 (cueB w)) (operand x w 2 (cueC w))
      collect i ws told fuel { x with
        group := x.group ++ (match o with | some y => [(x.word, y)] | none => []), word := x.word + 1 } s

/-- The value of a LAYER_SET attribute is in range (R235, Table 9.2). -/
def attrFits (attr v : Nat) : Bool :=
  match attr with
  | 0 => decide (v ≤ 1)
  | 1 => true
  | 2 | 3 => positionFits (signedOf 16 v)
  | _ => decide (v ≤ 16384)
/-- An attribute written into a layer (Table 7.2). -/
def setAttr (attr v : Nat) (y : Layer) : Layer :=
  match attr with
  | 0 => { y with visible := v == 1 }
  | 1 => { y with alpha := v }
  | 2 => { y with x := signedOf 16 v }
  | 3 => { y with y := signedOf 16 v }
  | 4 => { y with w := v }
  | _ => { y with h := v }

/-- A direct or indirect operand that lies outside its range, for CUE_OP_DISCARDED. -/
def badOperand : CueOp → Nat
  | .take d n => if d < 1536 then n else d
  | .audio o i g _ => if matrixSize ≤ o then o else if inputFits i then g else i
  | .layerSet l a _ => if l < 512 then a else l
  | .commit c => c
  | .pulse o _ _ => o
  | .mark sev _ _ _ => sev

/-- Why an operation is discarded before it is placed, with the operand value (R240). A COMMIT of 0xFFFF stands already
divided among its compositors.
Log 53 (DEDUCED, safe). -/
def discardReason (s : State) (role : Role) (o : CueOp) : Option (Nat × Nat) :=
  if !opFits o then some (0, badOperand o)
  else match o with
    | .take d _ => if 1024 ≤ d && d % 8 = 7 && role ≠ .safety then some (1, d) else none
    | .layerSet l a v =>
      if l % 8 = 7 && role ≠ .safety then some (1, l)
      else if !compOn s (l / 8) then some (3, l)
      else if !attrFits a v then some (4, v) else none
    | .commit c =>
      if !compOn s c then some (3, c)
      else if role ≠ .safety && !sameProtected (compOf s c).shadow (compOf s c).active then some (1, c) else none
    | .pulse o _ _ => if (pulseOf s o).mode = 4 then none else some (2, o)
    | _ => none

/-- The compositors that the LAYER_SETs of a group name. -/
def namedComps (ops : List (Nat × CueOp)) : List Nat :=
  (ops.filterMap (fun o => match o.2 with | .layerSet l _ _ => some (l / 8) | _ => none)).eraseDups
/-- A group with each COMMIT of 0xFFFF divided among the compositors that it means (R235). -/
def dividedOps (ops : List (Nat × CueOp)) : List (Nat × CueOp) :=
  ops.flatMap (fun o => match o.2 with
    | .commit 0xFFFF => (namedComps ops).map (fun c => (o.1, CueOp.commit c))
    | _ => [o])

/-- The take-queue entry of an operation (Table 7.2). -/
def cueEntryOf (i : Nat) (x : CueInst) (o : CueOp) : Option Entry :=
  let e := fun (a : Action) => some ({ order := 0, action := a, session := x.session, role := x.role, target := x.timed
                                       cue := some (i, x.run) } : Entry)
  match o with
  | .take d n => e (.video d (selOf n))
  | .audio a n g h => e (.audio a (selOf n) false (gainOf g) h false)
  | .commit c => e (.commit c)
  | _ => none

/-- Place one operation of a group, or discard it (R235, R237, R240). -/
def placeOp (i : Nat) (x : CueInst) (wo : Nat × CueOp) (s : State) : State :=
  match discardReason s x.role wo.2 with
  | some (r, v) => opDiscarded i x.prog wo.1 r v s
  | none =>
    let hold := fun (k : CueMarkItem) => onCue (fun q => { q with marks := q.marks ++ [k] }) s
    let base : CueMarkItem := { inst := i, run := x.run, prog := x.prog, order := s.xpt.nextOrder, target := x.timed }
    match wo.2 with
    | .layerSet l a v => setShadow (l / 8) (l % 8) (setAttr a v) s
    | .pulse o w k => hold { base with a := o, b := w, c := k, pulse := true }
    | .mark sev a b c => hold { base with severity := sev, a := a, b := b, c := c }
    | o => match cueEntryOf i x o with
      | some e => placeEntries [e] (breakAway e s)
      | none => s

/-- The entries that a group needs now (R239). -/
def groupNeeds (s : State) (x : CueInst) : Nat :=
  ((dividedOps x.group).filter (fun o => (cueEntryOf 0 x o.2).isSome && (discardReason s x.role o.2).isNone)).length

/-- The arming instant of a group placed now (R238, R242). -/
def groupArm (s : State) (x : CueInst) : Nat := match x.timed with
  | some g => max (nextArm s) (g / 500000 * 500000)
  | none => nextArm s

/-- Put an instance back. -/
def setInst (i : Nat) (x : CueInst) (s : State) : State := onCue (fun q => { q with insts := tset q.insts i x }) s

/-- The closing word acts once its group is placed (R241, R242, R247). -/
def closeGroup (i : Nat) (w : CueWord) (ref : Nat) (x : CueInst) (s : State) : State :=
  let x := { x with group := [], timed := none, ticks := 0 }
  if cueOp w = 0x10 then
    setInst i { x with state := .waitFrames, plane := cueA w, rate := cueB w, left := cueC w, ref := ref } s
  else if cueOp w = 0x11 then
    let g := (if bitOf (cueXf w) 0 then s.clock.now else x.t0) + bitsOf w.toNat 47 0 * 1000
    if g < s.clock.now + 2000000 then setInst i { x with state := .executing, timed := some g, word := x.word + 1 } s
    else setInst i { x with state := .waitTime, timed := some g, resumeAt := g - 2000000 } s
  else endInstance i 0 (setInst i x s)

/-- The loop counters as a record carries them: 0 idle, 0xFFFF for ever (Table 14.5). -/
def loopCodes (x : CueInst) : List Nat := x.loops.map (fun k => match k with | .idle => 0 | .forever => 0xFFFF | .count n => n)

/-- Place the group that an instance holds, when the queue has room (R237 to R239, R242); the sequencer names it. -/
def placeGroup (i : Nat) (x : CueInst) (w : CueWord) (s : State) : State :=
  if !queueFits s (groupNeeds s x) then setInst i { x with state := .waitEntries } s
  else
    let late := match x.timed with | some g => decide (g < s.clock.now) | none => false
    let us := (s.clock.now - x.timed.getD 0) / 1000
    let x := { x with timed := if late then none else x.timed }
    let s := if late then raiseLate i x.prog x.word us s else s
    let ref := if x.group.isEmpty then s.clock.now else groupArm s x
    let s := recordItem (.cueGroup i x.from_ x.run (groupNeeds s x) (loopCodes x)) s
    let s := (dividedOps x.group).foldl (fun s o => placeOp i x o s) s
    closeGroup i w ref { x with placed := x.placed + 1 } s

/-- Execute a group of an executing instance up to its closing word, and place it (R236, R237); a WAIT_FRAMES of a plane
with family 0 aborts the instance (R241). -/
def executeGroup (i : Nat) (told : Option (List (Nat × Bool))) (s : State) : State :=
  match tfind s.cue.insts i with
  | none => s
  | some x => match tfind s.cue.progs x.prog with
    | none => abortInst i 3 s
    | some p =>
      if x.state ≠ .executing then s
      else
        let r := collect i p.words told (p.words.length + 1) { x with group := [], from_ := x.word } s
        let w := p.words.getD r.1.word 0
        if cueOp w = 0x10 && (tpCfg s (cueA w)).family = 0 then abortInst i 3 (setInst i { r.1 with group := [] } r.2)
        else placeGroup i r.1 w r.2

/-- Instances act on their own here: the device is not the follower of a pair in step (R251), and the cue processor has not
halted (R519). -/
def cueActs (s : State) : Bool := isSequencer s && !s.ctl.halted.contains 1

/-- CUE_GROUP_EXECUTE (R236, R237): the next group of an instance; with `parity` one of its words fails byte parity as it is
read, which aborts the instance and is a chip fault (R250, Table 15.5). -/
def execCueGroupExecute (t i : Nat) (parity : Bool) (s : State) : Host.Outcome State Fault Refusal :=
  if 63 < i then .fault .noSuchObject
  else
    let s := advance t s
    .next (match tfind s.cue.insts i with
      | some x =>
        if !cueActs s || x.state ≠ .executing then s
        else if parity then chipFault 0x9111 (abortInst i 3 s) else executeGroup i none s
      | none => s)

/-- CUE_ENTRIES_RETRY (R239): an instance in WAITING_ENTRIES tries again. -/
def execCueEntriesRetry (t i : Nat) (s : State) : Host.Outcome State Fault Refusal :=
  if 63 < i then .fault .noSuchObject
  else
    let s := advance t s
    .next (match tfind s.cue.insts i with
      | some x => match tfind s.cue.progs x.prog with
        | some p => if x.state = .waitEntries && cueActs s then placeGroup i x (p.words.getD x.word 0) s else s
        | none => s
      | none => s)

/-- CUE_STALL_EXPIRED (R239): an instance has waited STALL_TICKS ticks for entries. -/
def execCueStallExpired (t i : Nat) (s : State) : Host.Outcome State Fault Refusal :=
  if 63 < i then .fault .noSuchObject
  else
    let s := advance t s
    .next (match tfind s.cue.insts i with
      | some x => if x.state = .waitEntries && decide (s.cue.stallTicks ≤ x.ticks) then abortInst i 3 s else s
      | none => s)

/-- WAIT_FRAMES_RESUME (R241): the C-th frame start has come. -/
def execWaitFramesResume (t i : Nat) (s : State) : Host.Outcome State Fault Refusal :=
  if 63 < i then .fault .noSuchObject
  else
    let s := advance t s
    .next (match tfind s.cue.insts i with
      | some x => if x.state = .waitFrames && x.left = 0 then setInst i { x with state := .executing, word := x.word + 1 } s else s
      | none => s)

/-- WAIT_TIME_RESUME (R242): 2.0 ms remain before the target. -/
def execWaitTimeResume (t i : Nat) (s : State) : Host.Outcome State Fault Refusal :=
  if 63 < i then .fault .noSuchObject
  else
    let s := advance t s
    .next (match tfind s.cue.insts i with
      | some x => if x.state = .waitTime && decide (x.resumeAt ≤ s.clock.now) then
          setInst i { x with state := .executing, word := x.word + 1 } s else s
      | none => s)

/-- A trigger start of a program by a unit (R245, R246): the instance, or the refusal by cause. -/
def triggerStart (u : Nat) (s : State) : State :=
  let x := compareOf s u
  let s := onTim (fun m => { m with compares := tset m.compares u { x with started := true } }) s
  let t0 := ((s.clock.now : Int) + compareDist x.target s.clock.now).toNat
  if (tfind s.cue.progs x.program).isNone then startRefused x.program u 1 s
  else if (modeRefusal .cueRun { session := x.session, role := x.role } s).isSome then startRefused x.program u 2 s
  else match freeInst s with
    | none => startRefused x.program u 0 s
    | some i =>
      let run := s.cue.nextRun
      recordItem (.cueStart i x.program u run)
        (startInst i { prog := x.program, session := x.session, role := x.role, run := 0, trigger := true, t0 := t0
                       vars := u :: List.replicate 15 0, timed := some t0 } s)

/-- CUE_TRIGGER_START (R245): a unit with a program action is 2.0 ms before its target. -/
def execCueTriggerStart (t u : Nat) (s : State) : Host.Outcome State Fault Refusal :=
  if 31 < u then .fault .noSuchObject
  else
    let s := advance t s
    let x := compareOf s u
    let d := compareDist x.target s.clock.now
    .next (if x.binds.isSome && !x.started && decide (0 < d) && decide (d ≤ 2000000) && cueActs s then triggerStart u s else s)

/-- CUE_MARK (R235): the oldest mark of an instance whose arming instant has come is recorded. -/
def execCueMark (t i : Nat) (s : State) : Host.Outcome State Fault Refusal :=
  if 63 < i then .fault .noSuchObject
  else
    let s := advance t s
    .next (match s.cue.marks.find? (fun k => !k.pulse && k.inst == i
        && (match k.arm with | some a => decide (a ≤ s.clock.now) | none => false)) with
      | some k => raise k.severity 9 0x9120 0 [pack8_16 k.inst k.prog 0, pack16 k.a k.b, pack16 k.c 0]
          (onCue (fun q => { q with marks := q.marks.erase k }) s)
      | none => s)

end Sys2Proof.Machine
end

