-- ==== Sys2Proof/Machine/EthOps.lean ====
section
/-! DEFINITION. The Ethernet ports and the media engine as several commands share them (chapter 12): counters, links,
frames that the device originates, flows and their bindings, and the merge. -/

namespace Sys2Proof.Machine

/-- Change a port. -/
def modEth (p : Nat) (f : EthPort → EthPort) (s : State) : State := onEth (fun e => { e with ports := tmod {} e.ports p f }) s
/-- A receive flow. -/
def rxFlow (s : State) (f : Nat) : RxFlow := tget {} s.eth.rx f
/-- A transmit flow. -/
def txFlow (s : State) (f : Nat) : TxFlow := tget {} s.eth.tx f
/-- Change a receive flow. -/
def modRxFlow (n : Nat) (f : RxFlow → RxFlow) (s : State) : State := onEth (fun e => { e with rx := tmod {} e.rx n f }) s
/-- Change a transmit flow. -/
def modTxFlow (n : Nat) (f : TxFlow → TxFlow) (s : State) : State := onEth (fun e => { e with tx := tmod {} e.tx n f }) s

/-- ETH_CNT_RANGE when the top bit of a counter changes (R418). -/
def cntRange (scope index flow : Nat) (old new : Bool) (s : State) : State :=
  if old = new then s else raise 0 7 0x7011 0 [pack8 scope index (bit old) 0, pack16 flow 0] s

/-- Add to a port counter of 64 bits (R417, R418). -/
def ethAdd (p i n : Nat) (s : State) : State :=
  let old : BitVec 64 := tget 0 (ethPort s p).cnt i
  let new := old + BitVec.ofNat 64 n
  cntRange p i 0 old.msb new.msb (modEth p (fun x => { x with cnt := tset x.cnt i new }) s)
/-- Count one in a port counter. -/
def ethCount (p i : Nat) (s : State) : State := ethAdd p i 1 s
/-- Add to a counter of a receive flow (Table 12.11). -/
def rxAdd (f i n : Nat) (s : State) : State :=
  let old := tget 0#32 (rxFlow s f).cnt i
  cntRange 2 i f old.msb (old + w32 n).msb (modRxFlow f (fun x => { x with cnt := bumpBy x.cnt i n }) s)
/-- Count one in a counter of a transmit flow (Table 12.12). -/
def txCount (f i : Nat) (s : State) : State :=
  let old := tget 0#32 (txFlow s f).cnt i
  cntRange 3 i f old.msb (old + 1).msb (modTxFlow f (fun x => { x with cnt := bump x.cnt i }) s)

/-- The port can run: the Conductor runs, or the recovery listener has port A (R65, R385, Table 17.2). -/
def ethRuns (s : State) (p : Nat) : Bool :=
  if s.mode = .retain then false
  else if s.mode = .boot then (s.start.recovery && p == 0) || tget 0 s.start.procs 0 == 2
  else true

/-- The port's own MAC address (R399). -/
def macOf (s : State) (p : Nat) : Nat := if p = 1 then s.fuses.macB else s.fuses.macA

/-- One bit of the reflected CRC-32 of an Ethernet FCS. -/
def fcsBit (c : BitVec 32) : BitVec 32 := if c.getLsbD 0 then (c >>> 1) ^^^ 0xEDB88320#32 else c >>> 1
/-- The FCS of a frame as it is sent, first byte first (IEEE 802.3 Clause 3). -/
def fcsBytes (bs : List Byte) : List Byte :=
  let c := ~~~ bs.foldl (fun c b => (List.range 8).foldl (fun c _ => fcsBit c) (c ^^^ BitVec.ofNat 32 b.toNat)) 0xFFFFFFFF#32
  (beBytes 4 c.toNat).reverse

/-- A frame that the device originates on a port: one tag when VID is not zero (R398), padded to 64 bytes with its FCS
(R388). -/
def originate (s : State) (p dst pcp etherType : Nat) (data : List Byte) : List Byte :=
  let x := ethPort s p
  let tag := if x.vid = 0 then [] else beBytes 2 0x8100 ++ beBytes 2 (pcp * 0x2000 + x.vid)
  let f := beBytes 6 dst ++ beBytes 6 (macOf s p) ++ tag ++ beBytes 2 etherType ++ data
  let f := f ++ List.replicate (60 - f.length) 0#8
  f ++ fcsBytes f

/-- Send a frame on a port that is UP; it is counted with its octets. -/
def sendFrame (p : Nat) (f : List Byte) (s : State) : State :=
  if (ethPort s p).link = 2 then emit (.frame s.clock.clk p f) (ethAdd p 8 f.length (ethCount p 7 s)) else s

/-- Send a message of a standard protocol on a port that is UP. -/
def sendService (p kind : Nat) (args : List Nat) (data : List Byte) (s : State) : State :=
  if (ethPort s p).link = 2 then emit (.service s.clock.clk p kind args data) (ethCount p 7 s) else s

/-- Raise ETH_PAUSE_STATE (Table 12.13). -/
def raisePause (p dir st : Nat) (s : State) : State := raise 1 7 0x7003 0 [pack8 p dir st 0] s

/-- Send a PAUSE frame with a number of quanta (R397). -/
def sendPause (p quanta : Nat) (s : State) : State :=
  ethCount p 9 (sendFrame p (originate s p 0x0180C2000001 (ethPort s p).pcpExp 0x8808 (beBytes 2 1 ++ beBytes 2 quanta)) s)

/-- The port stops sending PAUSE (R397). -/
def stopPausing (p : Nat) (s : State) : State :=
  if (ethPort s p).pausing then raisePause p 1 0 (modEth p (fun x => { x with pausing := false }) s) else s

/-- A received PAUSE ends (R396). -/
def endPause (p : Nat) (s : State) : State :=
  if (ethPort s p).pausedTo.isSome then raisePause p 0 0 (modEth p (fun x => { x with pausedTo := none }) s) else s

/-- The link of a port changes state (R384): ETH_LINK with its cause. Below UP there is no preemption and no PAUSE. -/
def setLink (p new cause : Nat) (s : State) : State :=
  if (ethPort s p).link = new then s
  else
    let s := if new = 2 then s else endPause p (stopPausing p s)
    raise 2 7 0x7001 0 [pack8 p new cause 0] (modEth p (fun x => { x with
      link := new, goodSince := s.clock.clk
      preemptState := if new = 2 then x.preemptState else 0
      verifyTries := if new = 2 then x.verifyTries else 0 }) s)

/-- The legs of a receive flow with their ports. -/
def RxFlow.legs (x : RxFlow) : List (Nat × Leg) :=
  (match x.legA with | some l => [(0, l)] | none => []) ++ (match x.legB with | some l => [(1, l)] | none => [])
/-- The legs of a transmit flow with their ports. -/
def TxCfg.legs (x : TxCfg) : List (Nat × Leg) :=
  (match x.legA with | some l => [(0, l)] | none => []) ++ (match x.legB with | some l => [(1, l)] | none => [])

/-- Report membership of a leg, or leave its group (R400). -/
def reportLeg (f p : Nat) (l : Leg) (leave : Bool) (s : State) : State :=
  sendService p 4 [f, l.group, if (ethPort s p).igmpV2 then 0 else l.src1, if (ethPort s p).igmpV2 then 0 else l.src2, bit leave] [] s

/-- The receive flow feeds a source (R401). -/
def rxInSource (s : State) (f : Nat) : Bool := (rxFlowsHeld s 0x10000).contains f
/-- The destination that a video transmit flow serves (R401). -/
def txDest (s : State) (f : Nat) : Option Nat :=
  (s.flow.dst.find? (fun p => match p.2.def_ with | some d => d.flows.contains f | none => false)).map (·.1)
/-- The transmit flow is a destination's packet output (R401). -/
def txInDest (s : State) (f : Nat) : Bool := (txFlowsHeld s 0x10000).contains f
/-- The stream that an audio flow serves in a direction (R401). -/
def streamFor (s : State) (dir f : Nat) : Option Nat := (s.aud.streams.find? (fun p => p.2.dir == dir && p.2.flow == f)).map (·.1)
/-- The video receive flow that names an ancillary flow. -/
def rxNaming (s : State) (f : Nat) : Option Nat := (s.eth.rx.find? (fun p => p.2.kind == 1 && p.2.anc == some f)).map (·.1)
/-- The video transmit flow that names an ancillary flow. -/
def txNaming (s : State) (f : Nat) : Option Nat :=
  (s.eth.tx.find? (fun p => (p.2.cfg.kind == 1 && p.2.cfg.anc == some f)
    || (match p.2.next with | some c => c.anc == some f | none => false))).map (·.1)
/-- A receive flow is bound (R401). -/
def rxBound (s : State) (f : Nat) : Bool :=
  match (rxFlow s f).kind with
  | 0 => false
  | 1 => rxInSource s f
  | 2 => (streamFor s 1 f).isSome
  | _ => (rxNaming s f).isSome
/-- A transmit flow is bound (R401). -/
def txBound (s : State) (f : Nat) : Bool :=
  match (txFlow s f).cfg.kind with
  | 0 => false
  | 1 => txInDest s f
  | 2 => (streamFor s 2 f).isSome
  | _ => (txNaming s f).isSome

/-- The reservation of a leg in Mbit/s (R415). -/
def legRate (kind format : Nat) : Nat :=
  match kind with
  | 0 => 0
  | 1 => (match formatOf format with | some x => 1485 * classSlots x.cls | none => 0)
  | 2 => 100
  | _ => 50
/-- The reservations of receive legs on a port (R415). -/
def rxReserved (fs : Table RxFlow) (p : Nat) : Nat :=
  fs.foldl (fun a x => if x.2.legs.any (fun l => l.1 == p) then a + legRate x.2.kind x.2.format else a) 0
/-- The configuration that a transmit flow has or will have. -/
def TxFlow.newest (x : TxFlow) : TxCfg := x.next.getD x.cfg
/-- The reservations of transmit legs on a port (R415). -/
def txReserved (fs : Table TxFlow) (p : Nat) : Nat :=
  fs.foldl (fun a x => if x.2.newest.legs.any (fun l => l.1 == p) then a + legRate x.2.newest.kind x.2.newest.format else a) 0
/-- The first check of R416 that fails, by number: 8 and 9 on port A, 10 and 11 on port B, receive before transmit. -/
def admissionCheck (pctA pctB : Nat) (rx : Table RxFlow) (tx : Table TxFlow) : Option Nat :=
  if pctA * 4000 < rxReserved rx 0 then some 8
  else if pctA * 4000 < txReserved tx 0 then some 9
  else if pctB * 4000 < rxReserved rx 1 then some 10
  else if pctB * 4000 < txReserved tx 1 then some 11
  else none
/-- The refusal of a failed check (R416). -/
def admissionRefusal (s : State) (rx : Table RxFlow) (tx : Table TxFlow) : Option (Status × List Byte) :=
  (admissionCheck (ethPort s 0).mediaPct (ethPort s 1).mediaPct rx tx).map (fun n => (.capacity, beBytes 1 n ++ beBytes 3 0))

/-- The state of the ring: 0 not blocking, 1 BLOCKED, 2 OPEN (Table 12.10). -/
def ringState (s : State) : Nat := if !s.aon.ethChain || s.aon.ringBlock = 0 then 0 else if s.eth.ring.isOpen then 2 else 1
/-- The port that the ring blocks now, if any (R391). -/
def blockedPort (s : State) : Option Nat := if ringState s = 1 then some (s.aon.ringBlock - 1) else none
/-- The blocked port opens or blocks again (R391). -/
def setRing (isOpen : Bool) (s : State) : State :=
  if s.eth.ring.isOpen = isOpen then s
  else raise 2 7 0x7010 0 [pack8_16 s.aon.ringBlock (if isOpen then 2 else 1) 0]
    (onEth (fun e => { e with ring := { e.ring with isOpen := isOpen, seen := 0 } }) s)

/-- The state of a receive flow changes to or from NO_PACKETS (R413). -/
def setFlowState (f new : Nat) (s : State) : State :=
  let old := (rxFlow s f).state
  if old = new then s
  else
    let s := modRxFlow f (fun x => { x with state := new }) s
    if old = 3 || new = 3 then raise 2 7 0x7021 0 [pack16_8 f old new] s else s

/-- The frame number of an RTP timestamp of 90 kHz (R410): it is unwrapped to the time nearest to now.
Log 78 (DEDUCED, safe). -/
def rtpFrame (s : State) (format rtp : Nat) : Nat :=
  let r := codeRate format
  let now := s.clock.now * 9 / 100000
  let d := signedOf 32 ((rtp + 0x100000000 - now % 0x100000000) % 0x100000000)
  (((now : Int) + d).toNat * r.1 / (90000 * r.2)) % 0x100000000

/-- A frame of a video receive flow begins (R408, R410, R411). -/
def rxFrameStarts (f : Nat) (k : HeldPkt) (s : State) : State :=
  let x := rxFlow s f
  match k.element with
  | some (q, b) => modRxFlow f (fun y => { y with lastRtp := some k.rtp, element := true, ensign := bitOf b 0, frameSeq := q }) s
  | none =>
    let s := rxAdd f 7 1 (modRxFlow f (fun y => { y with
      lastRtp := some k.rtp, element := false, ensign := false, frameSeq := rtpFrame s x.format k.rtp, noElement := true }) s)
    if x.noElement then s else raise 1 7 0x7022 0 [pack16 f 0, w32 k.rtp] s

/-- The merge delivers a packet (R409, R411, R412, R414). Copies that fail parity are counted, and with no good copy the
bytes go on failing; audio packets are played.
Log 79 (DEDUCED, safe). -/
def deliverPacket (f : Nat) (k : HeldPkt) (fails : List (Nat × Nat)) (s : State) : State :=
  let bad := ((fails.filter (fun x => x.1 == k.n && k.legs.testBit x.2)).map (·.2)).eraseDups
  let s := rxAdd f 6 bad.length (rxAdd f 0 1 s)
  let x := rxFlow s f
  if x.kind = 1 then (if x.lastRtp = some k.rtp then s else rxFrameStarts f k s)
  else if x.kind = 2 then match streamFor s 1 f with
    | some n => if bad.length = (if k.legs = 3 then 2 else 1) then s else streamPacket n k.rtp k.payload s
    | none => s
  else s

/-- How far packet number `n` lies ahead of `next`, modulo 2^32. -/
def aheadOf (next n : Nat) : Nat := (n + 0x100000000 - next) % 0x100000000

/-- The loop of R412: packets are delivered in order, and those that never came are lost once the oldest has aged PD. -/
def releaseLoop (f : Nat) (fails : List (Nat × Nat)) : Nat → State → State
  | 0, s => s
  | fuel + 1, s =>
    let x := rxFlow s f
    match x.next, x.held with
    | some next, h :: hs =>
      match x.held.find? (fun k => k.n == next) with
      | some k =>
        releaseLoop f fails fuel (deliverPacket f k fails (modRxFlow f (fun y => { y with
          next := some ((next + 1) % 0x100000000), held := y.held.filter (fun z => z.n != next) }) s))
      | none =>
        if x.held.any (fun k => decide (k.at_ + x.pd * 100000 ≤ s.clock.clk)) then
          let gap := hs.foldl (fun a k => min a (aheadOf next k.n)) (aheadOf next h.n)
          releaseLoop f fails fuel (rxAdd f 1 gap (modRxFlow f (fun y => { y with
            next := some ((next + gap) % 0x100000000) }) s))
        else s
    | _, _ => s

/-- Run the merge of a flow as far as it goes now. -/
def mergeRelease (f : Nat) (fails : List (Nat × Nat)) (s : State) : State :=
  releaseLoop f fails (2 * (rxFlow s f).held.length) s

/-- A packet enters the merge (R412). -/
def mergePacket (f leg n : Nat) (m : MediaPkt) (s : State) : State :=
  let x := rxFlow s f
  let next := x.next.getD n
  let d := aheadOf next n
  if 0x80000000 ≤ d then rxAdd f 2 1 s
  else if x.held.any (fun k => k.n == n && k.legs.testBit leg) then rxAdd f 2 1 s
  else
    let reset := decide (32768 ≤ d)
    let s := if reset then rxAdd f 1 d s else s
    let keep := if reset then [] else x.held
    let held := if keep.any (fun k => k.n == n) then keep.map (fun k => if k.n = n then { k with legs := k.legs ||| 2 ^ leg } else k)
      else keep ++ [{ n := n, legs := 2 ^ leg, at_ := s.clock.clk, payload := m.payload, rtp := m.rtp, element := m.element }]
    modRxFlow f (fun y => { y with next := some (if reset then n else next), held := held }) s

/-- The number of a packet in the merge: the extended number for video, else the RTP number unwrapped to 32 bits (R412).
Log 78 (DEDUCED, safe). -/
def packetNumber (x : RxFlow) (seq : Nat) : Nat :=
  if x.kind = 1 then seq % 0x100000000
  else
    let next := x.next.getD (seq % 0x10000)
    let d := (seq + 0x10000 - next % 0x10000) % 0x10000
    if d < 0x8000 then (next + d) % 0x100000000 else (next + d + 0x100000000 - 0x10000) % 0x100000000

/-- A leg matches a packet: group, UDP port and, when it names sources, the source (R400). -/
def Leg.matches (l : Leg) (m : MediaPkt) : Bool :=
  l.group == m.group && l.udpPort == m.udpPort && ((l.src1 == 0 && l.src2 == 0) || m.src == l.src1 || m.src == l.src2)

/-- A leg has an accepted packet (R413). -/
def LegState.note (x : LegState) (now : Nat) : LegState :=
  { x with lastAt := now, goodSince := if x.lastAt + 1000000 < now then now else x.goodSince }

/-- A packet of a subscribed leg (R387, R408, R412, R413). -/
def flowPacket (f leg : Nat) (tooLong : Bool) (m : MediaPkt) (s : State) : State :=
  let x := rxFlow s f
  if tooLong || m.malformed || (x.pt ≠ 0xFF && x.pt ≠ m.pt) then rxAdd f 5 1 s
  else
    let s := rxAdd f (3 + leg) 1 s
    let s := modRxFlow f (fun y => if leg = 0 then { y with a := y.a.note s.clock.clk } else { y with b := y.b.note s.clock.clk }) s
    let s := if x.state = 1 then setFlowState f 2 s else s
    mergeRelease f [] (mergePacket f leg (packetNumber x m.seq) m s)

/-- A media packet reaches the media engine (R400, R412). -/
def mediaReceived (p : Nat) (tooLong : Bool) (m : MediaPkt) (s : State) : State :=
  let fs := (s.eth.rx.filter (fun x => x.2.kind != 0 && x.2.legs.any (fun l => l.1 == p && l.2.matches m))).map (·.1)
  if fs.isEmpty then ethCount p 19 s else fs.foldl (fun s f => flowPacket f p tooLong m s) s

/-- The addresses of a port: key by port and family, 0 IPv4, 1 IPv6 link-local, 2 IPv6 global (R399). -/
def probeOf (s : State) (p family : Nat) : Probe := tget {} s.eth.probes (3 * p + family)
/-- An address of a port is in use (R399). -/
def ownsAddress (s : State) (p : Nat) (v6 : Bool) (a : Nat) : Bool :=
  (if v6 then [1, 2] else [0]).any (fun f => (probeOf s p f).state == 1 && (probeOf s p f).addr == a && a != 0)

/-- A conflict on an address in use: ETH_ADDR_CONFLICT, and the port defends it (R399). -/
def addressConflict (p family mac a : Nat) (s : State) : State :=
  sendService p 6 [family, a] []
    (raise 3 7 0x7012 0 [pack8_16 p (bit (family != 0)) 0, w32 (mac / 0x10000), w32 (mac % 0x10000 * 0x10000)] s)

/-- Answer an echo request, at most 100 a second (R399). -/
def answerEcho (p : Nat) (v6 : Bool) (sender : Nat) (data : List Byte) (s : State) : State :=
  let x := ethPort s p
  let fresh := x.echoAt + 1000000000 ≤ s.clock.clk
  let credit := if fresh then 100 else x.echoCredit
  if credit = 0 then s
  else sendService p (if v6 then 3 else 2) [sender] data (modEth p (fun y => { y with
    echoCredit := credit - 1, echoAt := if fresh then s.clock.clk else y.echoAt }) s)

/-- The tags of a frame that the internal port accepts (R398). -/
def vlanFits (s : State) (p : Nat) (tags : List Nat) : Bool :=
  match tags with
  | [] => true
  | [v] => v == 0 || v == (ethPort s p).vid
  | _ => false

/-- A frame is delivered to its internal consumer (R387, R398, R399); `over` marks OVERSIZE. -/
def deliver (p : Nat) (tooLong : Bool) (f : EthFrame) (s : State) : State :=
  if !vlanFits s p f.tags then ethCount p 18 s
  else match f.body with
    | .command d =>
      let d := { d with port := p, oversize := tooLong }
      let s := ethCount p 23 s
      if hostReachable d s then judgeDatagram d s else s
    | .media m => mediaReceived p tooLong m s
    | .ptp m => if tooLong then s else ptpReceive (if s.aon.ethChain then 2 else p) s.clock.now m (ethCount p 22 s)
    | .neighbour v6 claims a =>
      if tooLong then s
      else
        let s := ethCount p 21 s
        let own := if s.aon.ethChain then 0 else p
        if !ownsAddress s own v6 a then s
        else if claims then addressConflict own (bit v6) f.src a s
        else sendService p (bit v6) [a, f.src] [] s
    | .echo v6 sender data => if tooLong then s else answerEcho p v6 sender data s
    | .badChecksum => ethCount p 20 s
    | _ => ethCount p 13 s

/-- Add the residence time to the correctionField of a forwarded Sync or Delay_Req, and put a nonzero UDP checksum right
(R431). `o` is where the UDP header begins. -/
def correctPtp (o residence : Nat) (raw : List Byte) : List Byte :=
  let old := (raw.drop (o + 16)).take 8
  let new := beBytes 8 (beNat old + residence * 65536)
  let ck := beNat ((raw.drop (o + 6)).take 2)
  let sum := fun (bs : List Byte) => (List.range 4).foldl (fun a i => a + beNat ((bs.drop (2 * i)).take 2)) 0
  let x := (0xFFFF - ck) + (4 * 0xFFFF - sum old) + sum new
  let y := x % 0xFFFF
  let ck' := if 0xFFFF - y = 0 then 0xFFFF else 0xFFFF - y
  raw.take (o + 6) ++ (if ck = 0 then beBytes 2 0 else beBytes 2 ck') ++ (raw.drop (o + 8)).take 8 ++ new ++ raw.drop (o + 24)

/-- The bytes that the bridge sends for a frame (R390, R392, R431): with its FCS; an OVERSIZE frame truncated, its last four
bytes the inverse of the FCS of those before. -/
def forwarded (s : State) (p : Nat) (tooLong : Bool) (f : EthFrame) : List Byte :=
  if tooLong then
    let b := f.raw.take ((ethPort s p).maxFrame - 4)
    b ++ (fcsBytes b).map (fun x => ~~~ x)
  else
    let raw := match f.body with
      | .ptp m => if m.kind = 0 || m.kind = 4 then correctPtp (34 + 4 * f.tags.length) f.residence f.raw else f.raw
      | _ => f.raw
    raw ++ fcsBytes raw

/-- The bridge forwards a frame to the other port, unless the ring blocks one of the two (R390, R391). -/
def bridgeForward (p : Nat) (tooLong : Bool) (f : EthFrame) (s : State) : State :=
  match blockedPort s with
  | some _ => ethCount p 17 s
  | none => if (ethPort s (1 - p)).link = 2 then
      ethCount (1 - p) 16 (sendFrame (1 - p) (forwarded s p tooLong f) s) else s

/-- A group address: multicast or broadcast. -/
def isGroupMac (a : Nat) : Bool := a / 2 ^ 40 % 2 == 1

/-- A ring-check frame of this device arrives on the port that it names (R391). -/
def ringHeard (q : Nat) (s : State) : State :=
  let r := s.eth.ring
  let seen := if r.lastSeq = some ((q + 0xFFFFFFFF) % 0x100000000) then r.seen + 1 else 1
  let s := onEth (fun e => { e with ring := { e.ring with seen := seen, lastSeq := some q, heardAt := s.clock.clk } }) s
  if r.isOpen && 10 ≤ seen then setRing false s else s

/-- The rules of the bridge (R390). The device's own ring-check frames count for R391 before rule 2 discards them. -/
def bridge (p : Nat) (tooLong : Bool) (f : EthFrame) (s : State) : State :=
  let own := match f.body with | .ringCheck a _ => ringState s != 0 && a == sysAddr s && p + 1 == s.aon.ringBlock | _ => false
  let s := match f.body with | .ringCheck _ q => if own then ringHeard q s else s | _ => s
  if f.src = s.fuses.macA || f.src = s.fuses.macB || own then ethCount p 17 s
  else if !isGroupMac f.dst && f.dst = s.fuses.macA then deliver p tooLong f s
  else
    let s := bridgeForward p tooLong f s
    if isGroupMac f.dst then (match f.body with | .ringCheck _ _ => s | _ => deliver p tooLong f s) else s

/-- A received PAUSE frame (R396). -/
def pauseReceived (p quanta : Nat) (s : State) : State :=
  let s := ethCount p 5 s
  if !(ethPort s p).pauseRx then s
  else if quanta = 0 then endPause p s
  else
    let was := (ethPort s p).pausedTo.isSome
    let s := modEth p (fun x => { x with pausedTo := some (s.clock.clk + quanta * 128 / 100) }) s
    if was then s else raisePause p 0 1 s

/-- A frame that Table 12.1 lets through goes to MAC control, to the bridge or to its consumer. -/
def consumeFrame (p : Nat) (tooLong : Bool) (f : EthFrame) (s : State) : State :=
  match f.body with
  | .pause q => pauseReceived p q s
  | .pfc | .macControl => ethCount p 13 s
  | _ =>
    if s.aon.ethChain && s.mode ≠ .boot then bridge p tooLong f s
    else if isGroupMac f.dst || f.dst = macOf s p then deliver p tooLong f s
    else ethCount p 13 s

/-- A received frame (R386, R394, Table 12.1). -/
def frameReceived (p : Nat) (f : EthFrame) (s : State) : State :=
  match f.body with
  | .badAssembly => ethCount p 6 s
  | .verifyRequest => if (ethPort s p).preempt then sendService p 10 [] [] s else s
  | .verifyResponse => modEth p (fun x => if x.preemptState = 1 then { x with preemptState := 2 } else x) s
  | _ =>
    if f.len < 64 then ethCount p 3 s
    else if f.full then ethCount p 14 s
    else if (ethPort s p).maxFrame < f.len then consumeFrame p true f (ethCount p 4 s)
    else if !f.fcsOk then ethCount p 2 s
    else consumeFrame p false f (ethAdd p 1 f.len (ethCount p 0 s))

end Sys2Proof.Machine
end

