-- ==== Sys2Proof/Machine/Eth.lean ====
section
/-! DEFINITION. The Ethernet commands, registers and happenings (R383 to R422). -/

namespace Sys2Proof.Machine

/-- ETH_PORT_CFG (Table 12.7). -/
def regEthPortCfg (s : State) (p : Nat) : Word :=
  let x := ethPort s p
  fields [(0, 1, bit x.enable), (1, 1, bit x.preempt), (2, 1, bit x.pauseRx), (3, 1, bit x.pauseTx), (8, 7, x.mediaPct)
        , (16, 6, x.dscpPtp), (24, 6, x.dscpCtl)]
/-- ETH_PORT_STATUS (Table 12.8). -/
def regEthPortStatus (s : State) (p : Nat) : Word :=
  let x := ethPort s p
  fields [(0, 2, x.link), (2, 1, bit x.localFault), (3, 1, bit x.remoteFault), (4, 2, x.preemptState)
        , (6, 1, bit x.pausedTo.isSome), (7, 1, bit x.pausing), (8, 1, bit x.igmpV2)]
/-- ETH_MAX_FRAME (Table 12.9). -/
def regEthMaxFrame (s : State) (p : Nat) : Word := fields [(0, 14, (ethPort s p).maxFrame)]
/-- ETH_PORT_VLAN (Table 12.9). -/
def regEthVlan (s : State) (p : Nat) : Word :=
  let x := ethPort s p
  fields [(0, 12, x.vid), (12, 3, x.pcpExp), (16, 3, x.pcpMedia)]
/-- ETH_PORT_POL (Table 12.9). -/
def regEthPol (s : State) (p : Nat) : Word := fields [(0, 8, (ethPort s p).txPol), (8, 8, (ethPort s p).rxPol)]
/-- ETH_MODE (Table 12.10). -/
def regEthMode (s : State) : Word := fields [(0, 1, bit s.aon.ethChain), (1, 2, s.aon.ringBlock), (3, 2, ringState s)]
/-- The key of a latched high word: master and counter (R418). -/
def latchKey (master index : Nat) : Nat := master * 32 + index
/-- A read of ETH_PORT_CNT by a master latches the high word for it (R418). -/
def readEthLow (p index master : Nat) (s : State) : Word × State :=
  let v : BitVec 64 := tget 0 (ethPort s p).cnt index
  (v.setWidth 32, modEth p (fun x => { x with latch := tset x.latch (latchKey master index) ((v >>> 32).setWidth 32) }) s)
/-- ETH_PORT_CNT_HI as a master reads it (R418): the high word that its last read of the low word latched.
Log 31 (DEDUCED, safe). -/
def regEthHigh (s : State) (p index master : Nat) : Word :=
  let v : BitVec 64 := tget 0 (ethPort s p).cnt index
  (tfind (ethPort s p).latch (latchKey master index)).getD ((v >>> 32).setWidth 32)
/-- ETH_RX_FLOW_CFG (Table 12.11). -/
def regRxFlowCfg (s : State) (f : Nat) : Word :=
  let x := rxFlow s f
  fields [(0, 2, x.kind), (2, 1, bit x.legA.isSome), (3, 1, bit x.legB.isSome), (4, 1, bit (rxBound s f)), (8, 8, x.format)
        , (16, 7, x.pd), (24, 8, x.pt)]
/-- ETH_RX_FLOW_STATUS. -/
def regRxFlowStatus (s : State) (f : Nat) : Word :=
  let x := rxFlow s f
  fields [(0, 2, x.state), (2, 1, bit x.a.lost), (3, 1, bit x.b.lost), (4, 1, bit x.ensign), (5, 1, bit x.element)]
/-- ETH_TX_FLOW_CFG (Table 12.12). -/
def regTxFlowCfg (s : State) (f : Nat) : Word :=
  let x := (txFlow s f).cfg
  fields [(0, 2, x.kind), (2, 1, bit x.legA.isSome), (3, 1, bit x.legB.isSome), (4, 1, bit (txBound s f)), (5, 1, bit x.ext)
        , (6, 1, bit x.exclAudio), (8, 8, x.format), (16, 6, x.dscp), (24, 8, x.pt)]

/-- ETH_PORT_CNT_LOW_READ (R418). -/
def execEthPortCntLowRead (t port index master : Nat) (s : State) : Host.Outcome State Fault Refusal :=
  if 1 < port || 23 < index then .fault .noSuchObject else .next (readEthLow port index master (advance t s)).2

/-- A video transmit flow has a leg on a port. -/
def videoLegOn (s : State) (p : Nat) : Bool := s.eth.tx.any (fun x => x.2.newest.kind == 1 && x.2.newest.legs.any (fun l => l.1 == p))
/-- The ports that an ETH_MAX_FRAME of port `p` sets (R388). -/
def maxFramePorts (s : State) (p : Nat) : List Nat := if s.aon.ethChain then [0, 1] else [p]

/-- ETH_PORT_CONFIG (Tables 12.5 and 12.6). -/
def refuseEthPortConfig : Refuse := fun s c =>
  let p := u8 c.params 0
  let sel := u8 c.params 1
  let cfg := u32 c.params 4
  let mx := u16 c.params 8
  let pct := bitsOf cfg 14 8
  let chain := bitOf sel 4 && s.mode != .calibrate && s.mode != .maintenance
  firstRefusal [needLen 24 c,
    refuseIf chain .notInMode,
    refuseIf (decide (1 < p) || decide (31 < sel) || u16 c.params 2 != 0 || u16 c.params 10 != 0
      || (bitOf sel 0 && (decide (pct < 50) || decide (95 < pct))) || (bitOf sel 1 && (decide (mx < 64) || decide (9216 < mx)))
      || (bitOf sel 2 && bitsOf (u32 c.params 12) 11 0 == 4095) || (bitOf sel 4 && bitsOf (u32 c.params 20) 2 1 == 3)) .badParam,
    refuseIf (bitOf sel 1 && decide (mx < 512) && (maxFramePorts s p).any (videoLegOn s)) .busy,
    if bitOf sel 0 then
      (admissionCheck (if p = 0 then pct else (ethPort s 0).mediaPct) (if p = 1 then pct else (ethPort s 1).mediaPct)
        s.eth.rx s.eth.tx).map (fun n => (.capacity, beBytes 1 n ++ beBytes 3 0))
    else none]

/-- The preemption state that a change of PREEMPT leads to (R394). -/
def setPreempt (p : Nat) (on : Bool) (s : State) : State :=
  modEth p (fun x => if x.preempt = on then x else
    { x with preempt := on
             preemptState := if on && x.link = 2 then 1 else 0
             verifyTries := if on && x.link = 2 then 1 else 0, verifyAt := s.clock.clk }) s

/-- The value of ETH_PORT_CFG takes effect (Table 12.7). -/
def applyPortCfg (p v : Nat) (s : State) : State :=
  let s := setPreempt p (bitOf v 1) s
  let s := modEth p (fun x => { x with enable := bitOf v 0, pauseRx := bitOf v 2, pauseTx := bitOf v 3, mediaPct := bitsOf v 14 8
                                       dscpPtp := bitsOf v 21 16, dscpCtl := bitsOf v 29 24 }) s
  let s := if bitOf v 2 then s else endPause p s
  let s := if bitOf v 3 then s else stopPausing p s
  if bitOf v 0 then s else setLink p 0 3 s

/-- ETH_PORT_CONFIG applies the selected values; a port mode takes effect 10 ms after the reply (R386, R388, R389). -/
def effEthPortConfig : Effect := fun s c =>
  let p := u8 c.params 0
  let sel := u8 c.params 1
  let vl := u32 c.params 12
  let pol := u32 c.params 16
  let mode := u32 c.params 20
  let s := if bitOf sel 0 then applyPortCfg p (u32 c.params 4) s else s
  let s := if bitOf sel 1 then
      (maxFramePorts s p).foldl (fun s q => modEth q (fun x => { x with maxFrame := u16 c.params 8 }) s) s else s
  let s := if bitOf sel 2 then
      modEth p (fun x => { x with vid := bitsOf vl 11 0, pcpExp := bitsOf vl 14 12, pcpMedia := bitsOf vl 18 16 }) s else s
  let s := if bitOf sel 3 then modEth p (fun x => { x with txPol := bitsOf pol 7 0, rxPol := bitsOf pol 15 8 }) s else s
  let s := if bitOf sel 4 then
      onEth (fun e => { e with modeChange := some (bitOf mode 0, bitsOf mode 2 1, s.clock.clk + 10000000) }) s else s
  (s, some (.ok, []))
/-- ETH_PORT_CONFIG (R419). -/
def execEthPortConfig (t : Nat) (c : HostCmd) (s : State) : Host.Outcome State Fault Refusal :=
  .next (runCommand .ethPortConfig refuseEthPortConfig effEthPortConfig t c s)

/-- The port mode changes (R389): port B takes the frame size of port A in chain mode, the ring block starts BLOCKED, and
the PTP client leaves the ports that it no longer uses (R388, R391, R428).
Log 77 (DEDUCED, safe). -/
def applyEthMode (chain : Bool) (block : Nat) (s : State) : State :=
  let before := ringState s
  let s := onEth (fun e => { e with modeChange := none, ring := { isOpen := false, sentAt := s.clock.clk, heardAt := s.clock.clk } })
    (onAon (fun a => { a with ethChain := chain, ringBlock := block }) s)
  let s := if chain then modEth 1 (fun x => { x with maxFrame := (ethPort s 0).maxFrame }) s else s
  let s := if ringState s ≠ before && ringState s ≠ 0 then raise 2 7 0x7010 0 [pack8_16 block 1 0] s else s
  chooseMaster (onPtp (fun q => { q with masters := q.masters.filter (fun m => ptpPortUsed s m.port) }) s)

/-- ETH_MODE_TAKES_EFFECT (R389). -/
def execEthModeTakesEffect (t : Nat) (s : State) : Host.Outcome State Fault Refusal :=
  let s := advance t s
  .next (match s.eth.modeChange with
    | some (chain, block, due) => if due ≤ s.clock.clk then applyEthMode chain block s else s
    | none => s)

/-- ETH_IP_CONFIG (Tables 12.5 and 12.6). -/
def refuseEthIpConfig : Refuse := fun _ c =>
  let sel := u8 c.params 1
  firstRefusal [needLen 52 c,
    refuseIf (decide (1 < u8 c.params 0) || decide (3 < sel) || u16 c.params 2 != 0 || u24 c.params 9 != 0 || u24 c.params 33 != 0
      || (bitOf sel 0 && decide (32 < u8 c.params 8)) || (bitOf sel 1 && decide (128 < u8 c.params 32))) .badParam]
/-- ETH_IP_CONFIG: the addresses must be probed before use (R399). -/
def effEthIpConfig : Effect := fun s c =>
  let p := u8 c.params 0
  let sel := u8 c.params 1
  let forget := fun (f : Nat) (s : State) => onEth (fun e => { e with probes := tdel e.probes (3 * p + f) }) s
  let s := if bitOf sel 0 then forget 0 (onAon (fun a => { a with ip := tmod {} a.ip p (fun x => { x with
    ip4 := u32 c.params 4, prefix4 := u8 c.params 8, gw4 := u32 c.params 12 }) }) s) else s
  let s := if bitOf sel 1 then forget 2 (onAon (fun a => { a with ip := tmod {} a.ip p (fun x => { x with
    ip6 := beNat (sub c.params 16 16), prefix6 := u8 c.params 32, gw6 := beNat (sub c.params 36 16) }) }) s) else s
  (s, some (.ok, []))
/-- ETH_IP_CONFIG (R419). -/
def execEthIpConfig (t : Nat) (c : HostCmd) (s : State) : Host.Outcome State Fault Refusal :=
  .next (runCommand .ethIpConfig refuseEthIpConfig effEthIpConfig t c s)

/-- ETH_COUNTERS. -/
def refuseEthCounters : Refuse := fun _ c =>
  firstRefusal [needLen 4 c, refuseIf (decide (1 < u8 c.params 0) || u24 c.params 1 != 0) .badParam]
/-- ETH_COUNTERS returns the 24 counters (R418). -/
def effEthCounters : Effect := fun s c =>
  (s, some (.ok, (List.range 24).flatMap (fun i => beBytes 8 (tget (0 : BitVec 64) (ethPort s (u8 c.params 0)).cnt i).toNat)))
/-- ETH_COUNTERS (R419). -/
def execEthCounters (t : Nat) (c : HostCmd) (s : State) : Host.Outcome State Fault Refusal :=
  .next (runCommand .ethCounters refuseEthCounters effEthCounters t c s)

/-- A leg record (R419). -/
def legAt (ps : List Byte) (o : Nat) : Leg :=
  { group := u32 ps o, udpPort := u16 ps (o + 4), srcPort := u16 ps (o + 6), src1 := u32 ps (o + 8), src2 := u32 ps (o + 12) }
/-- The legs that a flow command defines. -/
def legsOf (ps : List Byte) (mask o : Nat) : Option Leg × Option Leg :=
  (if bitOf mask 0 then some (legAt ps o) else none, if bitOf mask 1 then some (legAt ps (o + 16)) else none)
/-- A defined leg is out of range: its group is no IPv4 multicast, or a field that its direction reserves is not zero. -/
def legBad (tx : Bool) (l : Option Leg) : Bool :=
  match l with
  | none => false
  | some x => x.group / 2 ^ 28 != 14 || (if tx then x.src1 != 0 || x.src2 != 0 else x.srcPort != 0)
/-- The ancillary flow that a command names. -/
def ancOf (n : Nat) : Option Nat := if n = 0xFFFF then none else some n

/-- ETH_TX_FLOW of a definition: what its parameters say. -/
def txCfgOf (c : HostCmd) : TxCfg :=
  let l := legsOf c.params (u8 c.params 3) 16
  { kind := u8 c.params 2, legA := l.1, legB := l.2, format := u8 c.params 4, pt := u8 c.params 5, dscp := u8 c.params 6
    ttl := u8 c.params 7, ssrc := u32 c.params 8, ext := bitOf (u8 c.params 12) 0, exclAudio := bitOf (u8 c.params 12) 1
    anc := ancOf (u16 c.params 14) }

/-- ETH_TX_FLOW (Table 12.6). -/
def refuseEthTxFlow : Refuse := fun s c =>
  let f := u16 c.params 0
  let k := u8 c.params 2
  let x := txCfgOf c
  let old := (txFlow s f).newest
  if c.params.length ≠ 48 then some (.badLength, [])
  else if 511 < f || 3 < k || 3 < u8 c.params 3 || 3 < u8 c.params 12 || u8 c.params 13 ≠ 0 then some (.badParam, [])
  else if k = 0 then refuseIf (txBound s f) .busy
  else firstRefusal [
    refuseIf (u8 c.params 3 == 0 || (k == 1 && (formatOf x.format).isNone) || decide (x.pt < 96) || decide (127 < x.pt)
      || decide (63 < x.dscp) || legBad true x.legA || legBad true x.legB
      || (match x.anc with | some a => decide (511 < a) || (txFlow s a).newest.kind != 3 | none => false)) .badParam,
    refuseIf (k == 1 && x.legs.any (fun l => decide ((ethPort s l.1).maxFrame < 512))) .badParam,
    refuseIf ((txBound s f && (old.kind != k || old.format != x.format))
      || (k == 1 && (match x.anc with | some a => (match txNaming s a with | some g => g != f | none => false) | none => false)))
      .busy,
    admissionRefusal s s.eth.rx (tset s.eth.tx f { cfg := x })]
/-- ETH_TX_FLOW defines, changes or deletes a flow; the change of one that serves a destination waits for the destination's
next frame start (R420). -/
def effEthTxFlow : Effect := fun s c =>
  let f := u16 c.params 0
  let x := txCfgOf c
  let s := if x.kind = 0 then modTxFlow f (fun y => { cnt := y.cnt }) s
    else if (txDest s f).isSome then modTxFlow f (fun y => { y with next := some x }) s
    else modTxFlow f (fun y => { y with cfg := x, next := none }) s
  (s, some (.ok, []))
/-- ETH_TX_FLOW (R419, R420). -/
def execEthTxFlow (t : Nat) (c : HostCmd) (s : State) : Host.Outcome State Fault Refusal :=
  .next (runCommand .ethTxFlow refuseEthTxFlow effEthTxFlow t c s)

/-- ETH_RX_FLOW of a definition: what its parameters say. -/
def rxFlowOf (c : HostCmd) (now : Nat) : RxFlow :=
  let l := legsOf c.params (u8 c.params 3) 12
  { kind := u8 c.params 2, legA := l.1, legB := l.2, format := u8 c.params 4, pt := u8 c.params 5, pd := u8 c.params 6
    anc := ancOf (u16 c.params 8), state := 1, a := { lastAt := now }, b := { lastAt := now }, joinAt := now, joinLeft := 2 }

/-- ETH_RX_FLOW (Table 12.6). -/
def refuseEthRxFlow : Refuse := fun s c =>
  let f := u16 c.params 0
  let k := u8 c.params 2
  let x := rxFlowOf c s.clock.clk
  let old := rxFlow s f
  if c.params.length ≠ 44 then some (.badLength, [])
  else if 511 < f || 3 < k || 3 < u8 c.params 3 || u8 c.params 7 ≠ 0 || u16 c.params 10 ≠ 0 then some (.badParam, [])
  else if k = 0 then refuseIf (rxBound s f) .busy
  else firstRefusal [
    refuseIf (u8 c.params 3 == 0 || (k == 1 && (formatOf x.format).isNone) || (decide (127 < x.pt) && x.pt != 0xFF)
      || x.pd == 0 || decide (100 < x.pd) || legBad false x.legA || legBad false x.legB
      || (match x.anc with | some a => decide (511 < a) || (rxFlow s a).kind != 3 | none => false)) .badParam,
    refuseIf ((rxBound s f && (old.kind != k || old.format != x.format))
      || (k == 1 && (match x.anc with | some a => (match rxNaming s a with | some g => g != f | none => false) | none => false)))
      .busy,
    admissionRefusal s (tset s.eth.rx f x) s.eth.tx]
/-- ETH_RX_FLOW defines, changes or deletes a flow at once; groups that its legs leave are left (R400, R420). -/
def effEthRxFlow : Effect := fun s c =>
  let f := u16 c.params 0
  let old := rxFlow s f
  let x := rxFlowOf c s.clock.clk
  let gone := old.legs.filter (fun l => x.kind = 0 || !(x.legs.any (fun m => m.1 == l.1 && m.2.group == l.2.group)))
  let s := gone.foldl (fun s l => reportLeg f l.1 l.2 true s) s
  let same := old.kind = x.kind && old.format = x.format
  let s := modRxFlow f (fun y =>
    if x.kind = 0 then { cnt := y.cnt }
    else if same then { y with
      legA := x.legA, legB := x.legB, pt := x.pt, pd := x.pd, anc := x.anc, joinAt := x.joinAt, joinLeft := 2
      a := if y.legA = x.legA then y.a else x.a, b := if y.legB = x.legB then y.b else x.b }
    else { x with cnt := y.cnt }) s
  (s, some (.ok, []))
/-- ETH_RX_FLOW (R419, R420). -/
def execEthRxFlow (t : Nat) (c : HostCmd) (s : State) : Host.Outcome State Fault Refusal :=
  .next (runCommand .ethRxFlow refuseEthRxFlow effEthRxFlow t c s)

/-- A leg record of a reply; an undefined leg is zeros. -/
def legBytes (l : Option Leg) : List Byte :=
  match l with
  | none => List.replicate 16 0#8
  | some x => beBytes 4 x.group ++ beBytes 2 x.udpPort ++ beBytes 2 x.srcPort ++ beBytes 4 x.src1 ++ beBytes 4 x.src2
/-- ETH_FLOW_QUERY. -/
def refuseEthFlowQuery : Refuse := fun _ c =>
  let n := u16 c.params 4
  firstRefusal [needLen 8 c,
    refuseIf (decide (1 < u8 c.params 0) || u8 c.params 1 != 0 || u16 c.params 6 != 0 || n == 0 || decide (64 < n)
      || decide (512 < u16 c.params 2 + n)) .badParam]
/-- ETH_FLOW_QUERY (Table 12.5). -/
def effEthFlowQuery : Effect := fun s c =>
  (s, some (.ok, (List.range (u16 c.params 4)).flatMap (fun i =>
    let f := u16 c.params 2 + i
    if u8 c.params 0 = 0 then
      wordBytes (regRxFlowCfg s f) ++ wordBytes (regRxFlowStatus s f) ++ legBytes (rxFlow s f).legA ++ legBytes (rxFlow s f).legB
        ++ (List.range 8).flatMap (fun k => wordBytes (tget 0#32 (rxFlow s f).cnt k))
    else
      wordBytes (regTxFlowCfg s f) ++ beBytes 4 0 ++ legBytes (txFlow s f).cfg.legA ++ legBytes (txFlow s f).cfg.legB
        ++ (List.range 4).flatMap (fun k => wordBytes (tget 0#32 (txFlow s f).cnt k)) ++ List.replicate 16 0#8)))
/-- ETH_FLOW_QUERY (R419). -/
def execEthFlowQuery (t : Nat) (c : HostCmd) (s : State) : Host.Outcome State Fault Refusal :=
  .next (runCommand .ethFlowQuery refuseEthFlowQuery effEthFlowQuery t c s)

/-- PCS_BLOCK_LOCK (R384): a PCS lane of a port that is DOWN gains block lock. -/
def execPcsBlockLock (t p : Nat) (s : State) : Host.Outcome State Fault Refusal :=
  if 1 < p then .fault .noSuchObject
  else
    let s := advance t s
    .next (if ethRuns s p && (ethPort s p).enable && (ethPort s p).link = 0 then setLink p 1 0 s else s)

/-- The link is UP (R384): preemption is verified (R394), and memberships are reported (R400). -/
def linkUp (p : Nat) (s : State) : State :=
  let s := modEth p (fun x => { x with localFault := false, remoteFault := false }) (setLink p 2 0 s)
  let s := if (ethPort s p).preempt then
      sendService p 9 [] [] (modEth p (fun x => { x with preemptState := 1, verifyTries := 1, verifyAt := s.clock.clk }) s) else s
  let s := onEth (fun e => { e with rx := tmap e.rx (fun _ x =>
    if x.kind ≠ 0 && x.legs.any (fun l => l.1 == p) then { x with joinLeft := 2, joinAt := s.clock.clk } else x) }) s
  sendService p 8 [] [] s
/-- LINK_UP (R384): alignment has held for 10 ms without a fault. -/
def execLinkUp (t p : Nat) (s : State) : Host.Outcome State Fault Refusal :=
  if 1 < p then .fault .noSuchObject
  else
    let s := advance t s
    let x := ethPort s p
    .next (if ethRuns s p && x.link = 1 && decide (x.goodSince + 10000000 ≤ s.clock.clk) then linkUp p s else s)

/-- PCS_ALIGNMENT_LOST (R384): the port returns to DOWN at once. -/
def execPcsAlignmentLost (t p : Nat) (s : State) : Host.Outcome State Fault Refusal :=
  if 1 < p then .fault .noSuchObject else .next (setLink p 0 0 (advance t s))

/-- LINK_FAULT_EXPIRED (R384): a local or remote fault has lasted 1 ms. -/
def execLinkFaultExpired (t p : Nat) (remote : Bool) (s : State) : Host.Outcome State Fault Refusal :=
  if 1 < p then .fault .noSuchObject
  else
    let s := advance t s
    .next (if (ethPort s p).link = 0 then s
      else setLink p 0 (if remote then 2 else 1)
        (modEth p (fun x => if remote then { x with remoteFault := true } else { x with localFault := true }) s))

/-- PREEMPT_VERIFY_EXPIRED (R394): an attempt of 10 ms has had no response; the third failure ends verification. -/
def execPreemptVerifyExpired (t p : Nat) (s : State) : Host.Outcome State Fault Refusal :=
  if 1 < p then .fault .noSuchObject
  else
    let s := advance t s
    let x := ethPort s p
    .next (if x.preemptState ≠ 1 || s.clock.clk < x.verifyAt + 10000000 then s
      else if x.verifyTries < 3 then
        sendService p 9 [] [] (modEth p (fun y => { y with verifyTries := y.verifyTries + 1, verifyAt := s.clock.clk }) s)
      else raise 1 7 0x7002 0 [pack8_16 p 3 0] (modEth p (fun y => { y with preemptState := 3 }) s))

/-- ETH_FRAME_RECEIVED (R386): a frame arrives on a port that is UP.
Log 76 (DESIGN CHOICE, safe). -/
def execEthFrameReceived (t p : Nat) (f : EthFrame) (s : State) : Host.Outcome State Fault Refusal :=
  if 1 < p then .fault .noSuchObject
  else
    let s := advance t s
    .next (if ethRuns s p && (ethPort s p).link = 2 then frameReceived p f s else s)

/-- RING_CHECK_SEND (R391): every 1 ms a ring-check frame leaves from the port other than the one named. -/
def execRingCheckSend (t : Nat) (s : State) : Host.Outcome State Fault Refusal :=
  let s := advance t s
  let r := s.eth.ring
  let p := 1 - (s.aon.ringBlock - 1)
  .next (if ringState s = 0 || s.clock.clk < r.sentAt + 1000000 then s
    else sendFrame p (originate s p 0x034C58000001 (ethPort s p).pcpExp 0x88B5 (beBytes 2 (sysAddr s) ++ beBytes 4 r.seq))
      (onEth (fun e => { e with ring := { e.ring with seq := (r.seq + 1) % 0x100000000, sentAt := s.clock.clk } }) s))

/-- RING_CHECK_MISSING (R391): three ring-check frames have failed to arrive, and the blocked port opens. -/
def execRingCheckMissing (t : Nat) (s : State) : Host.Outcome State Fault Refusal :=
  let s := advance t s
  .next (if ringState s = 1 && decide (s.eth.ring.heardAt + 3000000 ≤ s.clock.clk) then setRing true s else s)

/-- PAUSE_EXPIRED (R396). -/
def execPauseExpired (t p : Nat) (s : State) : Host.Outcome State Fault Refusal :=
  if 1 < p then .fault .noSuchObject
  else
    let s := advance t s
    .next (match (ethPort s p).pausedTo with
      | some u => if u ≤ s.clock.clk then endPause p s else s
      | none => s)

/-- PAUSE_TX_THRESHOLD (R397): the port's share of the packet buffers, in percent, passes 75 or falls below 50.
Log 76 (DESIGN CHOICE, safe). -/
def execPauseTxThreshold (t p share : Nat) (s : State) : Host.Outcome State Fault Refusal :=
  if 1 < p then .fault .noSuchObject
  else
    let s := modEth p (fun x => { x with share := share }) (advance t s)
    let x := ethPort s p
    .next (if !x.pauseTx then s
      else if 75 < share && !x.pausing then
        raisePause p 1 1 (modEth p (fun y => { y with pausing := true, pauseAt := s.clock.clk }) (sendPause p 0xFFFF s))
      else if share < 50 && x.pausing then stopPausing p (sendPause p 0 s)
      else s)

/-- PAUSE_REPEAT (R397): while the share stays above 75 %, the PAUSE is repeated every 40 µs. -/
def execPauseRepeat (t p : Nat) (s : State) : Host.Outcome State Fault Refusal :=
  if 1 < p then .fault .noSuchObject
  else
    let s := advance t s
    let x := ethPort s p
    .next (if x.pausing && decide (75 < x.share) && decide (x.pauseAt + 40000 ≤ s.clock.clk) then
        sendPause p 0xFFFF (modEth p (fun y => { y with pauseAt := s.clock.clk }) s)
      else s)

/-- IGMP_QUERY_RECEIVED (R400): version 1 is ignored, version 2 enters compatibility mode, and queries of a group, or of
every group (0), are answered. -/
def execIgmpQueryReceived (t p version querier group : Nat) (s : State) : Host.Outcome State Fault Refusal :=
  if 1 < p then .fault .noSuchObject
  else
    let s := advance t s
    .next (if version < 2 || !ethRuns s p || (ethPort s p).link ≠ 2 then s
      else
        let s := if version = 2 && !(ethPort s p).igmpV2 then
            raise 1 7 0x7013 0 [pack8_16 p version 0, w32 querier] (modEth p (fun x => { x with igmpV2 := true }) s) else s
        s.eth.rx.foldl (fun s x => if x.2.kind = 0 then s
          else x.2.legs.foldl (fun s l =>
            if l.1 = p && (group = 0 || l.2.group = group) then reportLeg x.1 p l.2 false s else s) s) s)

/-- IGMP_REPORT_SEND (R400): one of the two unsolicited reports of a receive flow, the second 1 s after the first. -/
def execIgmpReportSend (t f : Nat) (s : State) : Host.Outcome State Fault Refusal :=
  if 511 < f then .fault .noSuchObject
  else
    let s := advance t s
    let x := rxFlow s f
    .next (if x.kind = 0 || x.joinLeft = 0 || (x.joinLeft = 1 && decide (s.clock.clk < x.joinAt + 1000000000)) then s
      else x.legs.foldl (fun s l => reportLeg f l.1 l.2 false s)
        (modRxFlow f (fun y => { y with joinLeft := y.joinLeft - 1, joinAt := s.clock.clk }) s))

/-- ADDRESS_PROBE (R399): a port probes an address of a family (0 IPv4, 1 IPv6 link-local, 2 IPv6 global); a link-local
address is the one given. The address is in use after three probes without conflict, and one found later is defended. -/
def execAddressProbe (t p family a : Nat) (conflict : Option Nat) (s : State) : Host.Outcome State Fault Refusal :=
  if 1 < p || 2 < family then .fault .noSuchObject
  else
    let s := advance t s
    let ip := tget {} s.aon.ip p
    let want := if family = 0 && ip.ip4 ≠ 0 then ip.ip4 else if family = 2 then ip.ip6 else a
    let old := probeOf s p family
    let x : Probe := if old.addr = want then old else { addr := want }
    let put := fun (y : Probe) (s : State) => onEth (fun e => { e with probes := tset e.probes (3 * p + family) y }) s
    .next (if want = 0 || !ethRuns s p then s
      else match conflict with
        | some mac => if x.state = 1 then addressConflict p family mac want s else put { x with state := 2 } s
        | none => if x.state ≠ 0 then s
          else sendService p 5 [family, want] []
            (put { x with sent := x.sent + 1, state := if 3 ≤ x.sent + 1 then 1 else 0 } s))

/-- MERGE_RELEASE (R412): the merge of a receive flow goes on; `fails` lists packet numbers with the leg whose copy failed
parity when it was read. -/
def execMergeRelease (t f : Nat) (fails : List (Nat × Nat)) (s : State) : Host.Outcome State Fault Refusal :=
  if 511 < f then .fault .noSuchObject else .next (mergeRelease f fails (advance t s))

/-- The state of a leg of a receive flow. -/
def RxFlow.leg (x : RxFlow) (leg : Nat) : LegState := if leg = 0 then x.a else x.b
/-- The flow has the leg. -/
def RxFlow.hasLeg (x : RxFlow) (leg : Nat) : Bool := x.kind != 0 && (if leg = 0 then x.legA.isSome else x.legB.isSome)
/-- A leg becomes LOST or is restored: ETH_LEG_STATE (R413). -/
def setLegLost (f leg : Nat) (lost : Bool) (s : State) : State :=
  raise 2 7 0x7020 0 [pack16_8 f leg (bit lost)] (modRxFlow f (fun x =>
    if leg = 0 then { x with a := { x.a with lost := lost } } else { x with b := { x.b with lost := lost } }) s)

/-- LEG_LOST (R413): a leg has had no packet for 10 ms; with every leg LOST the flow is in NO_PACKETS. -/
def execLegLost (t f leg : Nat) (s : State) : Host.Outcome State Fault Refusal :=
  if 511 < f || 1 < leg then .fault .noSuchObject
  else
    let s := advance t s
    let x := rxFlow s f
    .next (if x.hasLeg leg && !(x.leg leg).lost && decide ((x.leg leg).lastAt + 10000000 ≤ s.clock.clk) then
        let s := setLegLost f leg true s
        let x := rxFlow s f
        if x.legs.all (fun l => (x.leg l.1).lost) then setFlowState f 3 s else s
      else s)

/-- LEG_RESTORED (R413): a LOST leg has had a packet in every 1 ms for 10 ms. -/
def execLegRestored (t f leg : Nat) (s : State) : Host.Outcome State Fault Refusal :=
  if 511 < f || 1 < leg then .fault .noSuchObject
  else
    let s := advance t s
    let x := rxFlow s f
    let l := x.leg leg
    .next (if x.hasLeg leg && l.lost && decide (l.goodSince + 10000000 ≤ s.clock.clk)
        && decide (s.clock.clk ≤ l.lastAt + 1000000) then
        let s := setLegLost f leg false s
        if (rxFlow s f).state = 3 then setFlowState f 2 s else s
      else s)

/-- Transmit flows send (R402, Table 1.8): service, also in MAINTENANCE where that was the last state. -/
def mediaSends (s : State) : Bool :=
  match s.mode with
  | .active | .standby | .isolated | .safe => true
  | .maintenance => decide (2 ≤ s.aon.prevMode) && decide (s.aon.prevMode ≤ 5)
  | _ => false

/-- How a frame of a format is cut into packets on a leg (R404, R405): fields, lines of a field, bytes of a line, bytes of
the first SRD of a field, bytes of every other SRD, SRDs of the first line of a field, and of every other line. -/
structure Cut where
  fieldCount : Nat
  lines  : Nat
  bytes  : Nat
  first  : Nat
  cap    : Nat
  firstN : Nat
  otherN : Nat
deriving DecidableEq, Repr

/-- The two fields or segments of a format, else one frame (Table 6.4). -/
def fieldsOf (format : Nat) : Nat := if [0x10, 0x11, 0x12, 0x1B, 0x1C, 0x1D].contains format then 2 else 1

/-- The cut of a flow's frame on a port (R404). -/
def cutOf (s : State) (x : TxCfg) (p : Nat) : Cut :=
  let e := ethPort s p
  let pic := activePicture x.format
  let tooLong := 66 + (if e.vid = 0 then 0 else 4)
  let cap := max 5 (min 1200 ((e.maxFrame - tooLong) / 5 * 5))
  let first := if x.ext then max 5 (min 1200 ((e.maxFrame - tooLong - 12) / 5 * 5)) else cap
  let bytes := pic.1 * 5 / 2
  { fieldCount := fieldsOf x.format, lines := pic.2 / fieldsOf x.format, bytes := bytes, first := first, cap := cap
    firstN := 1 + (bytes - first + cap - 1) / cap, otherN := (bytes + cap - 1) / cap }

/-- The packets of a field. -/
def Cut.perField (k : Cut) : Nat := k.firstN + (k.lines - 1) * k.otherN
/-- The line and the byte offset in it of packet `j` of a field. -/
def Cut.place (k : Cut) (j : Nat) : Nat × Nat :=
  if j < k.firstN then (0, if j = 0 then 0 else k.first + (j - 1) * k.cap)
  else (1 + (j - k.firstN) / k.otherN, (j - k.firstN) % k.otherN * k.cap)

/-- The 12 bytes of an RTP header (R402). -/
def rtpHeader (ext marker : Bool) (pt seq ts ssrc : Nat) : List Byte :=
  beBytes 1 (0x80 + (if ext then 0x10 else 0)) ++ beBytes 1 (bit marker * 128 + pt) ++ beBytes 2 seq ++ beBytes 4 ts ++ beBytes 4 ssrc

/-- The media clock of a destination's frame: 90 kHz at the plane's frame start, half a period later in a second field
(R402). -/
def videoClock (s : State) (d format field : Nat) : Nat :=
  let p := planeOf s (destPlane s d)
  let start := match formatOf format with | some x => if x.fast then p.lastAny else p.last | none => none
  let r := codeRate format
  (start.getD s.clock.now * 9 / 100000 + field * 90000 * r.2 / (2 * r.1)) % 0x100000000

/-- The header extension of R405 with its element (Table 12.2). -/
def element (s : State) (f d field : Nat) : List Byte :=
  let b := frameBits s d
  beBytes 2 0xBEDE ++ beBytes 2 2 ++ beBytes 1 0x75 ++ beBytes 4 (dstOf s d).seq
    ++ beBytes 1 (bit (ensignNow s) + 2 * bit (b.2 || (txFlow s f).tainted) + 4 * bit b.1 + 8 * field)
    ++ beBytes 1 (s.start.straps.pairRole % 4) ++ beBytes 1 0

/-- The RTP packet at index `i` of a video flow's frame (R402 to R405), and whether it ends a field. -/
def videoPacket (s : State) (f d p i : Nat) (data : List Byte) : List Byte × Bool :=
  let x := (txFlow s f).cfg
  let k := cutOf s x p
  let n := ((dstOf s d).seq * (k.fieldCount * k.perField) + i) % 0x100000000
  let field := i / k.perField
  let j := i % k.perField
  let at_ := k.place j
  let ext := x.ext && j == 0
  let last := j + 1 == k.perField
  (rtpHeader ext last x.pt n (videoClock s d x.format field) x.ssrc ++ (if ext then element s f d field else [])
    ++ beBytes 2 (n / 0x10000) ++ beBytes 2 data.length ++ beBytes 2 (field * 0x8000 + at_.1) ++ beBytes 2 (at_.2 * 2 / 5)
    ++ data, last)

/-- The RTP packet of an audio or ancillary flow (R402, R407, R414), with the 16-bit number that follows the last. -/
def otherPacket (s : State) (f d : Nat) (data : List Byte) : List Byte :=
  let x := txFlow s f
  rtpHeader false false x.cfg.pt x.seq (if x.cfg.kind = 2 then audioClock s else videoClock s d (destFormat s d) 0) x.cfg.ssrc ++ data

/-- A packet that is not sent is counted (R396, R406). -/
def dropPacket (f p : Nat) (parity : Bool) (s : State) : State :=
  let s := txCount f 2 (ethCount p 15 s)
  if parity then modTxFlow f (fun y => { y with tainted := true }) s else s

/-- Send one media packet: its octets with tag, headers and FCS are counted (R404). -/
def sendMedia (f p : Nat) (rtp : List Byte) (s : State) : State :=
  let len := max 64 (14 + (if (ethPort s p).vid = 0 then 0 else 4) + 28 + rtp.length + 4)
  txCount f p (emit (.media s.clock.clk p f rtp) (ethAdd p 8 len (ethCount p 7 s)))

/-- MEDIA_PACKET_SEND (R396, R404, R406): the packet at index `i` of a transmit flow reaches its scheduled time on a leg,
with the bytes that it carries; `parity` says that one of them failed parity inside the device.
Log 76 (DESIGN CHOICE, safe). -/
def execMediaPacketSend (t f leg i sched : Nat) (parity : Bool) (data : List Byte) (s : State) :
    Host.Outcome State Fault Refusal :=
  if 511 < f || 1 < leg then .fault .noSuchObject
  else
    let s := advance t s
    let x := (txFlow s f).cfg
    let owner := if x.kind = 3 then (txNaming s f).getD f else f
    let dest := txDest s owner
    let has := x.legs.any (fun l => l.1 == leg)
    .next (if !mediaSends s || !has || (ethPort s leg).link ≠ 2 || (x.kind ≠ 2 && dest.isNone)
        || (x.kind = 2 && (streamFor s 2 f).isNone) then s
      else if parity then dropPacket f leg true s
      else if sched + 500000 < s.clock.clk then dropPacket f leg false s
      else if (ethPort s leg).pausedTo.isSome then s
      else if x.kind = 1 then
        let k := videoPacket s f (dest.getD 0) leg i data
        let s := sendMedia f leg k.1 s
        if k.2 && (x.legs.head?.map (·.1)) = some leg && i + 1 = (cutOf s x leg).fieldCount * (cutOf s x leg).perField then
          modTxFlow f (fun y => { y with tainted := false }) (txCount f 3 s) else s
      else
        let s := sendMedia f leg (otherPacket s f (dest.getD 0) data) s
        if (x.legs.getLast?.map (·.1)) = some leg then modTxFlow f (fun y => { y with seq := (y.seq + 1) % 0x10000 }) s else s)

end Sys2Proof.Machine
end

