-- ==== Sys2Proof/Machine/RedOps.lean ====
section
/-! DEFINITION. The redundancy block as its commands and happenings share it (chapter 14): health and registers, the lease,
resynchronisation, the object fill, and the readings of a divergence. -/

namespace Sys2Proof.Machine

/-- Instants of a list that lie within the last 10 s (Table 14.9). -/
def recentOf (s : State) (l : List Nat) : List Nat := l.filter (fun a => decide (s.clock.clk < a + 10000000000))

/-- The sources with a read-out choice missed in the last 10 s (Table 14.9). -/
def missedSources (s : State) : Nat := (recentOf s (s.red.missTimes.map (·.2))).length

/-- The device's health: the highest code of Table 14.8 that applies; 0 on an unpaired device (R484, Table 14.13). -/
def healthNow (s : State) : Nat :=
  if !paired s then 0
  else if !inStep s || decide (s.red.resyncDest ≤ s.red.diverged.length) then 3
  else if !s.red.diverged.isEmpty || decide (0 < missedSources s) || decide ((usableLanes s).length < 4) then 2
  else if s.red.filling || !s.red.settling.isEmpty then 1
  else 0

/-- The objects that the joiner has still to fill (R479). -/
def fillRemaining (s : State) : List Nat := s.red.fillLeft.filter (fun n => (objOf s n).filling)

/-- Bytes in whole MiB, rounded up. -/
def mebibytes (n : Nat) : Nat := (n + 0xFFFFF) / 0x100000

/-- The health report (Table 14.9). -/
def healthReport (s : State) : List Byte :=
  let left := (fillRemaining s).foldl (fun a n => a + (((objOf s n).cur.map (·.length)).getD 0)) 0
  beBytes 1 (healthNow s) ++ beBytes 1 s.mode.code ++ beBytes 1 s.red.link.code ++ beBytes 1 (laneBits s)
    ++ beBytes 2 s.red.diverged.length ++ beBytes 2 (missedSources s)
    ++ beBytes 4 (recentOf s s.red.compTimes).length ++ beBytes 4 (recentOf s s.red.mismTimes).length
    ++ beBytes 4 (mebibytes left)

/-- The ms left before the lease or pending grant lapses (RED_LEASE_LEFT). -/
def leaseLeft (s : State) : Nat :=
  if s.red.lease || s.red.grant then (s.red.renewed + s.red.term * 1000000 - s.clock.clk) / 1000000 else 0

/-- RED_STATUS (Table 14.13). -/
def regRedStatus (s : State) : Word :=
  fields [(0, 2, s.red.link.code), (2, 2, s.start.straps.pairRole), (4, 1, bit (isSequencer s)), (5, 1, bit s.red.lease),
    (6, 1, bit s.red.grant), (7, 1, bit s.red.filling), (8, 4, laneBits s), (12, 2, (usableLanes s).headD 0),
    (16, 2, healthNow s), (18, 2, s.red.peer.health), (20, 3, s.red.peer.mode)]
/-- RED_PEER. -/
def regRedPeer (s : State) : Word := fields [(0, 14, s.red.peer.addr), (14, 2, s.red.peer.position)]
/-- RED_PEER_BUILD. -/
def regRedPeerBuild (s : State) : Word := w32 s.red.peer.build
/-- RED_LEASE_GEN. -/
def regRedLeaseGen (s : State) : Word := w32 s.red.gen
/-- RED_LEASE_LEFT. -/
def regRedLeaseLeft (s : State) : Word := fields [(0, 16, leaseLeft s)]
/-- RED_CFG (Table 14.14). -/
def regRedCfg (s : State) : Word :=
  fields [(0, 1, bit s.red.autoResync), (4, 4, s.red.divergeFrames), (8, 11, s.red.resyncDest)]
/-- A write of RED_CFG. -/
def writeRedCfg (v : Nat) (s : State) : State :=
  onRed (fun r => { r with autoResync := bitOf v 0, divergeFrames := max 1 (bitsOf v 7 4)
                           resyncDest := min 1088 (max 1 (bitsOf v 18 8)) }) s
/-- RED_LEASE_CFG (Table 14.15). -/
def regRedLeaseCfg (s : State) : Word := fields [(0, 2, s.red.leaseSrc), (4, 10, s.red.termMs)]
/-- A write of RED_LEASE_CFG. -/
def writeRedLeaseCfg (v : Nat) (s : State) : State :=
  onRed (fun r => { r with leaseSrc := min 2 (bitsOf v 1 0), termMs := min 1000 (max 10 (bitsOf v 13 4)) }) s
/-- RED_DIV_MAP (Table 14.15). -/
def regRedDivMap (s : State) (i : Nat) : Word :=
  fields ((List.range 32).map (fun b => (b, 1, bit (s.red.diverged.contains (32 * i + b)))))
/-- RED_CNT (Table 14.16). -/
def regRedCnt (s : State) (i : Nat) : Word := tget 0#32 s.red.cnt i

/-- Count in one index of RED_CNT (Table 14.16). -/
def redCount (i : Nat) (s : State) : State := onRed (fun r => { r with cnt := bump r.cnt i }) s

/-- PAIR_DIVERGE (Table 14.17): cause, index, source or session, and frame count or sequence. -/
def pairDiverge (cause index seq : Nat) (s : State) : State :=
  raise 3 10 0xA030 0 [pack8_16 cause 0 index, w32 seq] s

/-- The HELLO that the device sends (Table 14.3). -/
def helloBytes (s : State) : List Byte :=
  beBytes 2 (s.start.straps.pairRole * 0x4000 + sysAddr s) ++ beBytes 1 1 ++ beBytes 1 s.mode.code
    ++ beBytes 4 (runningBuild s) ++ beBytes 4 s.red.gen ++ beBytes 1 (bit s.red.lease) ++ beBytes 1 (bit s.red.grant)
    ++ beBytes 1 s.red.link.code ++ beBytes 1 (healthNow s)

/-- The halyard works: the device is paired and its lanes run. -/
def halyardRuns (s : State) : Bool := paired s && lanesRun s

/-- A halyard message whose CRC, blocks or tail are bad is discarded (R459). -/
def discardMsg (s : State) : State := redCount 5 s

/-- A valid control message has arrived (Table 14.4). -/
def heardControl (s : State) : State := onRed (fun r => { r with lastCtrl := s.clock.clk }) s

/-- A mode in which a device can resynchronise: not BOOT, SAFE, MAINTENANCE or RETAIN (R477). -/
def resyncMode (code : Nat) : Bool := code == 1 || code == 2 || code == 3 || code == 4

/-- The device is the resync source (R477): the lease holder; else the one in ACTIVE, STANDBY or ISOLATED; else the first
half. -/
def isSource (s : State) : Bool :=
  if s.red.lease then true
  else if s.red.peer.lease then false
  else
    let a := s.mode == .active || s.mode == .standby || s.mode == .isolated
    let b := s.red.peer.mode == 2 || s.red.peer.mode == 3 || s.red.peer.mode == 4
    if a != b then a else s.start.straps.pairRole == 1

/-- Resynchronisation starts (R477, R478): the snapshot tick is the next one. It waits while a device is in BOOT, SAFE,
MAINTENANCE or RETAIN. -/
def startResync (s : State) : State :=
  if s.red.link = .linked && resyncMode s.mode.code && resyncMode s.red.peer.mode then
    let src := isSource s
    let k := (s.clock.now / 500000 + 1) % 0x100000000
    let s := linkTo .resyncing 0 s
    let s := onRed (fun r => { r with resync := some { source := src, tick := k, started := s.clock.clk }, retryAt := none }) s
    raise 1 10 0xA020 0 [pack8 (bit (!src)) 0 0 0, w32 k] s
  else s

/-- The conditions of R477 under which resynchronisation starts of itself here; the partner's start shows in its HELLO. -/
def resyncWanted (s : State) : Bool :=
  s.red.retryAt.isNone && s.red.link == .linked
    && ((s.mode == .calibrate && calDone s) || (s.mode == .isolated && s.red.autoResync) || s.red.peer.link == 2)

/-- Start resynchronisation when R477 says so. -/
def tryResync (s : State) : State := if halyardRuns s && resyncWanted s then startResync s else s

/-- The link leaves IN_STEP for a divergence; the follower resynchronises at once when AUTO_RESYNC says so (R469, R483). -/
def divergeOut (s : State) : State := if inStep s then tryResync (linkTo .linked 4 s) else s

/-- A claim goes to the partner that is the sequencer (R473). -/
def sendClaim (s : State) : State := if follows s then sendHalyard 14 (beBytes 4 s.red.gen) s else s

/-- A grant (R471, R473, R474): a lease or pending grant in hand is renewed; in step it becomes pending, and is claimed
unless the device is FILLING; otherwise the lease is acquired at once. -/
def grantLease (term : Nat) (byCommand : Bool) (s : State) : State :=
  let fresh := onRed (fun r => { r with term := term, renewed := s.clock.clk, byCommand := byCommand })
  if (s.red.lease && !s.red.t6Due) || s.red.grant then fresh s
  else if inStep s then
    let s := raiseLease 2 (onRed (fun r => { r with grant := true }) (fresh s))
    if s.red.filling then s else sendClaim s
  else
    let s := acquireLease ((max s.red.gen s.red.peer.gen + 1) % 0x100000000) (fresh s)
    if s.mode = .calibrate then modeDecision s
    else if s.mode = .isolated then onRed (fun r => { r with t10Due := true }) s
    else s

/-- The VALID objects that the source sends, in the order of R479: protected ones, stills that destinations park on and safe
stills, objects that layers and LUT memories refer to, all others; each class in order of ID, without object 2047.
Log 97 (DEDUCED, safe). -/
def fillOrder (s : State) : List Nat :=
  let ids := (s.fst.objs.filter (fun p => p.1 != 2047 && p.2.valid.isSome)).map (·.1)
  let parks := (s.flow.dst.filter (fun p => p.2.parkType == 1)).map (fun p => p.2.parkValue)
    ++ s.cmp.comps.map (fun p => p.2.cfg.safeStill)
  let used := fun n => (referencers s n).any (fun r => match r with | .park _ => false | _ => true)
  let rank := fun n => if (objOf s n).prot then 0 else if parks.contains n then 1 else if used n then 2 else 3
  [0, 1, 2, 3].flatMap (fun k => ids.filter (fun n => rank n == k))

/-- The bytes of object data in one OBJECT_FILL message: 8,191 data blocks of 8 bytes less the 8 bytes of its head. -/
def fillChunk : Nat := 65520

/-- OBJECT_FILL messages of a version from an offset on (Table 14.3). `fuel` bounds their number. -/
def sendFill (n : Nat) (v : Version) : Nat → Nat → State → State
  | 0, _, s => s
  | fuel + 1, off, s =>
    let len := min fillChunk (v.length - off)
    let s := sendHalyard 12 (beBytes 2 n ++ beBytes 1 v.kind ++ beBytes 1 0 ++ beBytes 4 off ++ versionBytes s v off len) s
    if v.length ≤ off + fillChunk then s else sendFill n v fuel (off + fillChunk) s

/-- Send an object from an offset on. -/
def sendObject (n off : Nat) (s : State) : State :=
  match (objOf s n).valid with
  | some v => sendFill n v (v.length / fillChunk + 1) off s
  | none => s

/-- FILL_DONE (R479). -/
def raiseFillDone (s : State) : State :=
  raise 1 10 0xA022 0 [pack16 s.red.fillSent s.red.fillSkipped, w32 (mebibytes s.red.fillBytes)] s

/-- The source sends its objects (R479). -/
def fillPartner (s : State) : State :=
  let ns := fillOrder s
  let bytes := ns.foldl (fun a n => a + (((objOf s n).valid.map (·.length)).getD 0)) 0
  let s := ns.foldl (fun s n => sendObject n 0 s) s
  raiseFillDone (onRed (fun r => { r with fillSent := ns.length, fillSkipped := 0, fillBytes := bytes }) s)

/-- The joiner's fill is complete when no object of it is FILLING any more; a pending grant is then claimed (R473, R479). -/
def fillCheck (s : State) : State :=
  if s.red.filling && (fillRemaining s).isEmpty then
    let s := raiseFillDone (onRed (fun r => { r with filling := false, fillLeft := [] }) s)
    if s.red.grant && !s.red.granted then sendClaim s else s
  else s

/-- Resynchronisation completes: the link enters IN_STEP (R478 to R480), the objects are filled, and a joiner or an ISOLATED
source becomes STANDBY by T4 or, at the next tick, T11. -/
def enterInStep (s : State) : State :=
  match s.red.resync with
  | none => s
  | some x =>
    let s := linkTo .inStep 0 s
    let planes := (s.xpt.tps.filter (fun p => p.2.family != 0)).map (fun p => (p.1, s.clock.clk + 3 * basePeriod p.2.family))
    let s := onRed (fun r => { r with resyncDone := true, retryAt := none, settling := planes
                                      cnt := bump r.cnt 9 }) s
    let s := raise 1 10 0xA021 0 [pack8 (bit (!x.source)) 0 0 0, w32 x.bytes, w32 ((s.clock.clk - x.started) / 1000000)] s
    let s := if x.source then fillPartner s else fillCheck (onRed (fun r => { r with filling := true }) s)
    if s.mode = .isolated && !s.red.lease then onRed (fun r => { r with t11Due := true }) s else modeDecision s

/-- The device's mode as its partner states it: a partner that leaves ACTIVE and STANDBY ends IN_STEP (Table 14.4). -/
def notePeerMode (m : Nat) (s : State) : State :=
  let old := s.red.peer.mode
  let s := onRed (fun r => { r with peer := { r.peer with mode := m } }) s
  if (old == 2 || old == 3) && !(m == 2 || m == 3) && (s.red.link == .inStep || s.red.link == .resyncing) then linkTo .linked 3 s
  else s

/-- An item of an epoch record (Table 14.5). -/
def itemBytes : RecItem → List Byte
  | .command session seq st => beBytes 2 0x0100 ++ beBytes 2 session ++ beBytes 4 seq ++ beBytes 2 st ++ beBytes 2 0
  | .sealed_ session seq n => beBytes 2 0x0200 ++ beBytes 2 session ++ beBytes 4 seq ++ beBytes 2 n ++ beBytes 2 0
  | .cueGroup i w run n loops => beBytes 1 3 ++ beBytes 1 i ++ beBytes 2 w ++ beBytes 4 run ++ beBytes 2 n ++ beBytes 2 0
      ++ loops.flatMap (fun x => beBytes 2 x)
  | .cueBranch i w run o => beBytes 1 4 ++ beBytes 1 i ++ beBytes 2 w ++ beBytes 4 run ++ beBytes 1 o ++ beBytes 3 0
  | .cueStart i p u run => beBytes 1 5 ++ beBytes 1 i ++ beBytes 1 p ++ beBytes 1 u ++ beBytes 4 run
  | .landing p r n => beBytes 1 6 ++ beBytes 1 p ++ beBytes 1 r ++ beBytes 1 0 ++ beBytes 4 n
  | .reference x h => beBytes 1 7 ++ beBytes 1 x ++ beBytes 1 h ++ beBytes 1 0
  | .handover p l => beBytes 1 8 ++ beBytes 1 p ++ beBytes 1 l ++ beBytes 1 0

/-- An epoch record (Table 14.5). -/
def recordBytes (r : EpochRecord) : List Byte :=
  beBytes 4 r.tick ++ beBytes 4 r.gen ++ beBytes 1 r.position ++ beBytes 1 (bit r.lease) ++ beBytes 2 r.items.length
    ++ r.items.flatMap itemBytes

/-- An EPOCH_ACK (Table 14.3). -/
def sendAck (status wanted : Nat) (s : State) : State :=
  sendHalyard 3 (beBytes 4 s.red.applied ++ beBytes 1 status ++ beBytes 1 0 ++ beBytes 2 wanted) s

end Sys2Proof.Machine
end

