-- ==== Sys2Proof/Machine/Red.lean ====
section
/-! DEFINITION. The redundant pair (chapter 14): its commands, the referee lease, epoch ticks, and the halyard messages that
need no record applied. -/

namespace Sys2Proof.Machine

/-- RED_STATUS is refused on an unpaired device (Table 14.12). -/
def refuseRedStatus : Refuse := fun s c => firstRefusal [needLen 0 c, refuseIf (!paired s) .notInMode]
/-- RED_STATUS (Table 14.11). -/
def effRedStatus : Effect := fun s _ =>
  (s, some (.ok, [regRedStatus s, regRedPeer s, regRedPeerBuild s, regRedLeaseGen s, regRedLeaseLeft s].flatMap wordBytes
    ++ beBytes 4 (if isSequencer s then s.xpt.tick else s.red.applied) ++ beBytes 4 s.red.peerApplied
    ++ (List.range 12).flatMap (fun i => wordBytes (regRedCnt s i))))
/-- RED_STATUS (R486). -/
def execRedStatus (t : Nat) (c : HostCmd) (s : State) : Host.Outcome State Fault Refusal :=
  .next (runCommand .redStatus refuseRedStatus effRedStatus t c s)

/-- The refusals of RED_LEASE_REQUEST (Table 14.12). -/
def refuseRedLeaseRequest : Refuse := fun s c =>
  firstRefusal [needLen 4 c,
    refuseIf (decide (u16 c.params 0 < 10) || decide (1000 < u16 c.params 0) || u16 c.params 2 != 0 || c.scope != 0) .badParam,
    refuseIf (!paired s) .notInMode,
    refuseIf (s.red.leaseSrc == 0) .notAuthority]
/-- RED_LEASE_REQUEST acquires or renews for the term that it names (R471). -/
def effRedLeaseRequest : Effect := fun s c =>
  let s := grantLease (u16 c.params 0) true s
  (s, some (.ok, beBytes 1 (bit s.red.grant) ++ beBytes 3 0 ++ beBytes 4 s.red.gen))
/-- RED_LEASE_REQUEST (R471, R486). -/
def execRedLeaseRequest (t : Nat) (c : HostCmd) (s : State) : Host.Outcome State Fault Refusal :=
  .next (runCommand .redLeaseRequest refuseRedLeaseRequest effRedLeaseRequest t c s)

/-- The refusals of RED_LEASE_RELEASE (Table 14.12). -/
def refuseRedLeaseRelease : Refuse := fun s c =>
  firstRefusal [needLen 0 c, refuseIf (c.scope != 0) .badParam, refuseIf (!paired s) .notInMode]
/-- RED_LEASE_RELEASE gives up a lease or a pending grant (R475). -/
def effRedLeaseRelease : Effect := fun s _ =>
  let s := onRed (fun r => { r with byCommand := true }) s
  (endLease 3 s, some (.ok, []))
/-- RED_LEASE_RELEASE (R475, R486). -/
def execRedLeaseRelease (t : Nat) (c : HostCmd) (s : State) : Host.Outcome State Fault Refusal :=
  .next (runCommand .redLeaseRelease refuseRedLeaseRelease effRedLeaseRelease t c s)

/-- The refusals of RED_RESYNC (Table 14.12). -/
def refuseRedResync : Refuse := fun s c =>
  firstRefusal [needLen 0 c, refuseIf (!paired s) .notInMode,
    refuseIf (s.red.lease || s.red.link == .down) .busy]
/-- RED_RESYNC: a link in step is first lost (R461, R486); then resynchronisation starts (R477). -/
def effRedResync : Effect := fun s _ =>
  let s := if inStep s then linkTo .linked 4 s else s
  (startResync s, some (.scheduled, []))
/-- RED_RESYNC (R477, R486). -/
def execRedResync (t : Nat) (c : HostCmd) (s : State) : Host.Outcome State Fault Refusal :=
  .next (runCommand .redResync refuseRedResync effRedResync t c s)

/-- The refusals of RED_HEALTH (Table 14.12). -/
def refuseRedHealth : Refuse := fun s c => firstRefusal [needLen 0 c, refuseIf (!paired s) .notInMode]
/-- RED_HEALTH (Table 14.11). -/
def effRedHealth : Effect := fun s _ =>
  (s, some (.ok, healthReport s ++ s.red.peerReport ++ beBytes 4 ((s.clock.clk - s.red.peerReportAt) / 1000000)))
/-- RED_HEALTH (R486). -/
def execRedHealth (t : Nat) (c : HostCmd) (s : State) : Host.Outcome State Fault Refusal :=
  .next (runCommand .redHealth refuseRedHealth effRedHealth t c s)

/-- LEASE_IN_EDGE (R471): a rising edge of LEASE_IN. An edge within 1 ms of the one before is ignored; the second renewal
within TERM_MS of the first acquires.
Log 93 (DEDUCED, safe). -/
def execLeaseInEdge (t : Nat) (s : State) : Host.Outcome State Fault Refusal :=
  let s := advance t s
  let soon := match s.red.lastEdge with | some a => decide (s.clock.clk < a + 1000000) | none => false
  .next (if !paired s || s.red.leaseSrc == 1 || !s.mode.mayLease || soon then s
    else
      let second := match s.red.lastEdge with | some a => decide (s.clock.clk ≤ a + s.red.termMs * 1000000) | none => false
      let s := onRed (fun r => { r with lastEdge := some s.clock.clk }) s
      if s.red.lease || s.red.grant || second then grantLease s.red.termMs false s else s)

/-- LEASE_LAPSE (R471, R475): the term of the lease, or of the pending grant, has passed since its last renewal. -/
def execLeaseLapse (t : Nat) (s : State) : Host.Outcome State Fault Refusal :=
  let s := advance t s
  .next (if (s.red.lease || s.red.grant) && decide (s.red.renewed + s.red.term * 1000000 ≤ s.clock.clk) then endLease 0 s else s)

/-- The transitions that were due at this tick, before it is sealed: T7 with the lease of the handover, T10, T11 (R35, R473,
R474, R478).
Log 14 (DEDUCED, safe). -/
def dueTransitions (s : State) : State :=
  let r := s.red
  let s := onRed (fun r => { r with t7Due := false, t10Due := false, t11Due := false }) s
  let s := if r.t7Due && r.grant && r.granted then
      let s := acquireLease ((max r.gen r.peer.gen + 1) % 0x100000000) s
      let s := onRed (fun r => { r with peer := { r.peer with lease := false } }) s
      if s.mode = .standby then transition 7 .active 2 s else modeDecision s
    else s
  let s := if r.t10Due && s.red.lease && s.mode = .isolated then transition 10 .active 2 s else s
  if r.t11Due && inStep s && !s.red.lease && s.mode = .isolated then transition 11 .standby 2 s else s

/-- The commands whose entries a tick seals, with how many entries each has (Table 14.5 item 2). Groups of cue instances are
named by items of their own. -/
def sealedItems (es : List Entry) : List RecItem :=
  let plain := es.filter (fun e => e.cue.isNone)
  let keys := (plain.map (fun e => (e.session, e.seq))).eraseDups
  keys.map (fun k => .sealed_ k.1 k.2 (plain.filter (fun e => e.session == k.1 && e.seq == k.2)).length)

/-- The destination on whose frames an entry lands: its own, that of an embedded output, or a layer input of its compositor. -/
def landingDest (e : Entry) : Option Nat :=
  match e.action with
  | .video d _ => some d
  | .audio o _ _ _ _ _ => if o < 16384 then some (o / 16) else none
  | .commit c => some (1024 + 8 * c)
  | .realign _ _ _ _ => none

/-- The landing frames of the entries that tick `k` sealed, one for each timing plane and rate (Table 14.5 item 6). -/
def landingItems (s : State) (k : Nat) : List RecItem :=
  let es := s.xpt.queue.filter (fun e => e.sealed_ == some k)
  let ls := es.filterMap (fun e => (landingDest e).map (fun d =>
    (destPlane s d, bit (((formatOf (destFormat s d)).map (·.fast)).getD false), landFrame s d e.landAt)))
  let keys := (ls.map (fun x => (x.1, x.2.1))).eraseDups
  keys.map (fun p => .landing p.1 p.2 ((ls.filter (fun x => x.1 == p.1 && x.2.1 == p.2)).foldl (fun a x => max a x.2.2) 0))

/-- The sequencer seals the epoch of tick `k` and names what it seals (R211, R216, R465). -/
def sealTick (k arm : Nat) (s : State) : State :=
  let picked := s.xpt.queue.filter (fun e => e.unsealed && e.dueAt arm)
  let s := (sealedItems picked).foldl (fun s i => recordItem i s) s
  let s := sealEpoch k arm (fun e => e.dueAt arm) s
  (landingItems s k).foldl (fun s i => recordItem i s) s

/-- The lease is given up at a tick: its ensign and LEASE_OUT go (R472, R473). Its lapse or release is recorded already. -/
def clearLease (s : State) : State :=
  let s := noteEnsign (onRed (fun r => { r with lease := false, t6Due := false }) s)
  if s.pins.leaseOut then emitPin "LEASE_OUT" 0 (onPins (fun p => { p with leaseOut := false }) s) else s

/-- The sequencer whose lease is gone hands over at this tick (R473, R475): to the partner that claims, to itself when its own
grant is pending, and with no claimant to the first half. When both claim, the first half acquires the lease.
Log 93 (DEDUCED, safe). -/
def handover (s : State) : State :=
  if !leads s || (s.red.lease && !s.red.t6Due) then s
  else
    let own := s.red.grant && !s.red.granted && !s.red.filling
    let first := s.start.straps.pairRole == 1
    let toSelf := own && (first || s.red.claim.isNone)
    let toPeer := s.red.claim.isSome && !toSelf
    let had := s.red.lease
    let s := if toPeer then recordItem (.handover (3 - s.start.straps.pairRole) 1) s
      else if toSelf then recordItem (.handover s.start.straps.pairRole 1) (onRed (fun r => { r with granted := true, t7Due := true }) s)
      else if had then recordItem (.handover 1 0) s else s
    let s := if toPeer then onRed (fun r => { r with claim := none, handed := true }) s else s
    if had then
      let s := if toPeer then raiseLease 4 s else s
      let s := clearLease s
      if s.mode = .active then applyTransition 6 .standby 2 s else s
    else s

/-- A lease that had lapsed in step and whose halyard was lost before the tick: the holder takes T8 (R475).
Log 14 (DEDUCED, safe). -/
def lapsedAlone (s : State) : State :=
  if s.red.t6Due && !inStep s then
    let s := clearLease s
    if s.mode = .active then transition 8 .isolated 2 s else s
  else s

/-- LEASE_OUT changes level at each tick while the lease is held (R472). -/
def toggleLeaseOut (s : State) : State :=
  if s.red.lease then
    emitPin "LEASE_OUT" (bit (!s.pins.leaseOut)) (onPins (fun p => { p with leaseOut := !p.leaseOut }) s)
  else s

/-- Marks and pulses of groups that this tick seals arm with it (R235, R238, R242), and instances that wait for entries
count it (R239).
Log 52 (DEDUCED, safe). -/
def cueTick (arm : Nat) (s : State) : State :=
  onCue (fun q => { q with
    marks := q.marks.map (fun m =>
      if m.arm.isNone && (match m.target with | some g => decide (g < arm + 500000) | none => true) then { m with arm := some arm }
      else m)
    insts := tmap q.insts (fun _ x => if x.state = .waitEntries then { x with ticks := x.ticks + 1 } else x) }) s

/-- The epoch record of a tick is sent (R465). The source of a resynchronisation takes its snapshot at the first tick after
the start instead, and sends it as RESYNC_STATE (R478); its records begin with the next tick.
Log 94 (DESIGN CHOICE, safe). -/
def recordTick (k : Nat) (s : State) : State :=
  match s.red.resync with
  | some x =>
    if x.source && !x.loaded then
      let n := min 0x4000000 (Config.resyncBytes s.free)
      sendHalyard 11 (beBytes 4 0) (onRed (fun r => { r with
        items := [], resync := some { x with tick := k, loaded := true, bytes := n } }) { s with free := s.free + 1 })
    else if x.source then sendRecord s else s
  | none => if leads s then sendRecord s else s
where
  /-- Send the record in hand and keep it for a resend. -/
  sendRecord (s : State) : State :=
    let rec_ : EpochRecord := { tick := k, gen := s.red.gen, position := s.start.straps.pairRole, lease := s.red.lease
                                items := s.red.items }
    let kept := s.red.kept ++ [rec_]
    redCount 0 (sendHalyard 2 (recordBytes rec_) (onRed (fun r => { r with
      items := [], kept := kept.drop (kept.length - 16), unacked := if r.link = .inStep then r.unacked + 1 else 0 }) s))

/-- Landing frames of records whose entries are all gone are forgotten. -/
def tidyLandings (s : State) : State :=
  onXpt (fun x => { x with landing := x.landing.filter (fun l => x.queue.any (fun e => e.sealed_ == some l.1)) }) s

/-- An epoch tick of number `k` (R211): the transitions that take effect at it (R35), the seal, the handover and the record of
a sequencer, LEASE_OUT, and what counts ticks. A follower seals only what a record names (R216). -/
def epochTick (s : State) : State :=
  let n := s.clock.now / 500000
  let k := n % 0x100000000
  let arm := n * 500000 + 1000000
  let s := onXpt (fun x => { x with tick := k, ticked := true }) s
  let s := lapsedAlone (dueTransitions s)
  let s := if follows s then s else cueTick arm (sealTick k arm s)
  let s := recordTick k (handover s)
  tidyLandings (fillCheck (finishRealigns (toggleLeaseOut s)))

/-- EPOCH_TICK (R211): the time counter has passed a multiple of 500,000 ns since the last tick.
Log 48 (DEDUCED, safe). -/
def execEpochTick (t : Nat) (s : State) : Host.Outcome State Fault Refusal :=
  let s := advance t s
  .next (if s.clock.running && s.mode != .boot && s.mode != .retain
      && (!s.xpt.ticked || s.clock.now / 500000 % 0x100000000 != s.xpt.tick) then epochTick s else s)

/-- Both devices hold the lease when the link becomes LINKED: the lower generation, or with equal ones the second half,
releases at once (R474). -/
def leaseConflict (s : State) : State :=
  let p := s.red.peer
  if s.red.lease && p.lease && (decide (s.red.gen < p.gen) || (s.red.gen == p.gen && s.start.straps.pairRole == 2)) then
    endLease 3 (raise 3 10 0xA011 0 [w32 s.red.gen, w32 p.gen] s)
  else s

/-- Why a HELLO is incompatible (R462): 0 its position, 1 its protocol version. -/
def helloFault (s : State) (h : Hello) : Option Nat :=
  if h.position + s.start.straps.pairRole ≠ 3 then some 0 else if h.version ≠ 1 then some 1 else none

/-- A compatible HELLO (R462): the partner's state and address are learned, a link that was down becomes LINKED, and
resynchronisation starts where it is wanted (R477). -/
def takeHello (h : Hello) (s : State) : State :=
  let s := notePeerMode h.mode s
  let s := onRed (fun r => { r with peer := h, badCause := none, handed := r.handed && !h.lease && h.grant }) s
  let s := { s with host := { s.host with partnerAddr := some h.addr } }
  let s := if s.red.link = .down then leaseConflict (linkTo .linked 0 s) else s
  tryResync s

/-- HALYARD_HELLO (R462): a HELLO arrives; `bad` says that the message fails a check of R459. -/
def execHalyardHello (t : Nat) (h : Hello) (bad : Bool) (s : State) : Host.Outcome State Fault Refusal :=
  let s := advance t s
  .next (if !halyardRuns s then s
    else if bad then discardMsg s
    else
      let s := heardControl s
      match helloFault s h with
      | some c =>
        let s := if s.red.badCause = some c then s
          else raise 3 10 0xA002 0 [pack8_16 c 0 h.addr] (onRed (fun r => { r with badCause := some c }) s)
        linkTo .down 0 s
      | none => takeHello h s)

/-- HELLO_SEND (Table 14.3): every 1 ms, and at each change. -/
def execHelloSend (t : Nat) (s : State) : Host.Outcome State Fault Refusal :=
  let s := advance t s
  .next (if halyardRuns s then sendHalyard 1 (helloBytes s) s else s)

/-- HALYARD_LOSS (Table 14.4): no lane is usable, or no valid control message has come for 2 ms. -/
def execHalyardLoss (t : Nat) (s : State) : Host.Outcome State Fault Refusal :=
  let s := advance t s
  .next (if s.red.link = .down then s
    else if (usableLanes s).isEmpty then linkTo .down 0 s
    else if s.red.lastCtrl + 2000000 ≤ s.clock.clk then linkTo .down 1 s
    else s)

/-- Ticks from `a` to `b`, modulo 2^32. -/
def ticksFrom (a b : Nat) : Nat := (b + 0x100000000 - a) % 0x100000000

/-- Records are sent again from a tick on whose low 16 bits are given (R465); when that record is kept no longer the link
leaves IN_STEP. -/
def resend (wanted : Nat) (s : State) : State :=
  if s.red.kept.any (fun r => r.tick % 0x10000 == wanted % 0x10000) then
    (s.red.kept.dropWhile (fun r => r.tick % 0x10000 != wanted % 0x10000)).foldl
      (fun s r => redCount 2 (sendHalyard 2 (recordBytes r) s)) s
  else if inStep s then linkTo .linked 5 s else s

/-- HALYARD_EPOCH_ACK (R465): the partner has applied records up to a tick, or wants records again. The source of a
resynchronisation enters IN_STEP with the joiner's acknowledgement (R478). -/
def execHalyardEpochAck (t tick status wanted : Nat) (bad : Bool) (s : State) : Host.Outcome State Fault Refusal :=
  let s := advance t s
  .next (if !halyardRuns s then s
    else if bad then discardMsg s
    else
      let s := heardControl s
      if !writesRecords s then s
      else if status = 0 then
        let s := onRed (fun r => { r with peerApplied := tick, unacked := min r.unacked (ticksFrom tick s.xpt.tick) }) s
        if s.red.link = .resyncing then enterInStep s else s
      else resend wanted s)

/-- RECORDS_UNACKNOWLEDGED (R465): records have gone without acknowledgement for 4 ticks. -/
def execRecordsUnacknowledged (t : Nat) (s : State) : Host.Outcome State Fault Refusal :=
  let s := advance t s
  .next (if leads s && decide (4 ≤ s.red.unacked) then tryResync (linkTo .linked 2 s) else s)

/-- The command in a relayed or forwarded datagram (Table 14.3 types 4 and 5), with the role and key of its session here. -/
def carriedCmd (p : List Byte) (s : State) : HostCmd :=
  let h := readHeader p
  let who := (sessionAuth s h.session).getD (.operator, [])
  { headerCmd { payload := p } h who.1 who.2 with relayed := true }

/-- A relayed command at the sequencer (R463): one whose session does not exist here is refused, one already accepted is
dropped, and any other goes on with steps 12 to 17 of Table 3.3.
Log 98 (DEDUCED, safe). -/
def takeRelay (p : List Byte) (s : State) : State :=
  let c := carriedCmd p s
  if (sessionAuth s c.session).isNone then sendHalyard 6 (resultBytes c Status.badAuth.code []) s
  else if c.seq ≤ lastSeq s c.session then s
  else commandArrived (readHeader p).opcode c c.tag s

/-- HALYARD_CMD_RELAY (R463). -/
def execHalyardCmdRelay (t : Nat) (payload : List Byte) (bad : Bool) (s : State) : Host.Outcome State Fault Refusal :=
  let s := advance t s
  .next (if !halyardRuns s then s
    else if bad then discardMsg s
    else
      let s := heardControl s
      if leads s then takeRelay payload s else s)

/-- HALYARD_CMD_FORWARD (R463): the follower, or a joiner, keeps the command until a record names it. -/
def execHalyardCmdForward (t : Nat) (payload : List Byte) (bad : Bool) (s : State) : Host.Outcome State Fault Refusal :=
  let s := advance t s
  .next (if !halyardRuns s then s
    else if bad then discardMsg s
    else
      let s := heardControl s
      match opOfCode (readHeader payload).opcode with
      | some op =>
        if follows s || s.red.link == .resyncing then
          onRed (fun r => { r with forwarded := r.forwarded ++ [{ op := op, cmd := carriedCmd payload s, since := s.clock.clk }] }) s
        else s
      | none => s)

/-- The status of a code (Table 3.6). -/
def statusByCode (n : Nat) : Status :=
  ([.ok, .scheduled, .badOpcode, .badLength, .badParam, .badAuth, .seqReplay, .frameTruncated, .roleDenied,
    .notInMode, .busy, .noResource, .capacity, .formatMismatch, .destLocked, .linebufShort, .cancelled,
    .objectInvalid, .notAuthority, .leaseLost, .decodeZero, .busError, .imageInvalid, .rollbackRefused,
    .trialActive].find? (fun x => x.code == n)).getD .internal

/-- HALYARD_CMD_RESULT (R463, R464): a refusal is passed on to the host at once; the result of an executed command waits for
the record that names it. -/
def execHalyardCmdResult (t session seq status : Nat) (params : List Byte) (bad : Bool) (s : State) :
    Host.Outcome State Fault Refusal :=
  let s := advance t s
  .next (if !halyardRuns s then s
    else if bad then discardMsg s
    else
      let s := heardControl s
      let hit := fun (h : HeldCmd) => h.cmd.session == session && h.cmd.seq == seq
      match s.red.held.find? hit with
      | none => s
      | some h =>
        if (statusByCode status).passed then
          onRed (fun r => { r with results := r.results ++ [⟨session, seq, status, params⟩] }) s
        else
          onRed (fun r => { r with held := r.held.map (fun x => if hit x then { x with replied := true } else x) })
            (finish h.op h.cmd (statusByCode status) params s))

/-- HELD_COMMAND_TIMEOUT (R463): a held command that no record names within 20 ms is discarded. -/
def execHeldCommandTimeout (t session seq : Nat) (s : State) : Host.Outcome State Fault Refusal :=
  let s := advance t s
  .next (onRed (fun r => { r with held := r.held.filter (fun h =>
    !(h.cmd.session == session && h.cmd.seq == seq && decide (h.since + 20000000 ≤ s.clock.clk))) }) s)

/-- What a source will read, as READOUT names it (R176, R467): the frame it reads, or the one read last; in timed
pass-through the frame that follows it. -/
def sourceChoice (s : State) (n : Nat) : Nat × Bool :=
  let x := srcOf s n
  if x.phase = 2 then ((x.lastRead + 1) % 0x100000000, true)
  else match candidates x with
    | b :: _ => (b.seq, false)
    | [] => (x.lastRead, false)

/-- The newest group frame that every member of a group can read (R182). -/
def groupBest (s : State) (gr : Group) : Option Nat :=
  match groupCommon s gr with
  | [] => none
  | c :: cs => some (cs.foldl (fun a x => if ticksFrom a x < 0x80000000 then x else a) c)

/-- The choice for a source, with its group (R182, R467). -/
def readoutChoice (s : State) (n : Nat) : Nat × Bool :=
  match (srcOf s n).group with
  | none => sourceChoice s n
  | some g =>
    let gr := tget ⟨[], []⟩ s.flow.groups g
    if gr.members.all (fun m => (srcOf s m).phase = 2) then sourceChoice s n
    else
      let base := (((gr.members.zip gr.bases).find? (fun p => p.1 == n)).bind (·.2)).getD 0
      match groupBest s gr with
      | some b => ((b + base) % 0x100000000, false)
      | none => ((srcOf s n).lastRead, false)

/-- The sources that read out on a plane at a rate. -/
def sourcesOn (s : State) (plane rate : Nat) : List Nat :=
  (s.flow.src.filter (fun p => match p.2.def_ with
    | some d => d.plane == plane && bit (((formatOf p.2.format).map (·.fast)).getD false) == rate
    | none => false)).map (·.1)

/-- A group on the plane has no common frame: the event of R182 stands at the decision. -/
def groupMisses (ns : List Nat) (s : State) : State :=
  let gs := (ns.filterMap (fun n => (srcOf s n).group)).eraseDups
  gs.foldl (fun s g =>
    let gr := tget ⟨[], []⟩ s.flow.groups g
    if gr.members.all (fun m => (srcOf s m).phase = 2) || (groupBest s gr).isSome then s
    else raise 2 2 0x2031 (pathCell (gr.members.foldl min 1023)) [pack8_16 g (groupLacking s gr) 0] s) s

/-- READOUT_DECISION (R467): the sequencer decides what each source of a plane and rate reads, and sends READOUT. -/
def execReadoutDecision (t plane rate : Nat) (s : State) : Host.Outcome State Fault Refusal :=
  if 7 < plane || 1 < rate then .fault .noSuchObject
  else
    let s := advance t s
    .next (if !leads s then s
      else
        let ns := sourcesOn s plane rate
        let count := if rate = 1 then (planeOf s plane).fast else (planeOf s plane).slow
        let cs := ns.map (fun n => (n, readoutChoice s n))
        let s := groupMisses ns s
        let s := cs.foldl (fun s c => onRed (fun r => { r with choices := tset r.choices c.1 c.2 }) s) s
        sendHalyard 7 (beBytes 1 plane ++ beBytes 1 rate ++ beBytes 2 cs.length ++ beBytes 4 count
          ++ cs.flatMap (fun c => beBytes 2 c.1 ++ beBytes 1 (bit c.2.2) ++ beBytes 1 0 ++ beBytes 4 c.2.1)) s)

/-- HALYARD_READOUT (R467): the sequencer's choices, as source, sequence and pass-through flag, come to the follower. -/
def execHalyardReadout (t plane rate : Nat) (choices : List (Nat × Nat × Bool)) (bad : Bool) (s : State) :
    Host.Outcome State Fault Refusal :=
  if 7 < plane || 1 < rate then .fault .noSuchObject
  else
    let s := advance t s
    .next (if !halyardRuns s then s
      else if bad then discardMsg s
      else
        let s := heardControl s
        if follows s then
          choices.foldl (fun s c => onRed (fun r => { r with choices := tset r.choices c.1 (c.2.1, c.2.2) }) s) s
        else s)

/-- One compared frame of a signature index (R482, R483): its run, and what becomes of it.
Log 99 (DEDUCED, safe). -/
def compareSig (index frame : Nat) (same : Bool) (s : State) : State :=
  let r := tget {} s.red.runs index
  let r' : SigRun := if same then { good := r.good + 1 } else { bad := r.bad + 1 }
  let n := s.red.divergeFrames
  let now := s.clock.clk
  let s := redCount 6 (onRed (fun x => { x with
    runs := tset x.runs index r', compTimes := now :: recentOf s x.compTimes
    mismTimes := if same then x.mismTimes else now :: recentOf s x.mismTimes }) s)
  let s := if same then s else redCount 7 s
  if !same && n ≤ r'.bad && !s.red.diverged.contains index then
    let s := pairDiverge 0 index frame (onRed (fun x => { x with diverged := x.diverged ++ [index] }) s)
    if follows s && decide (s.red.resyncDest ≤ s.red.diverged.length) then divergeOut s else s
  else if same && n ≤ r'.good && s.red.diverged.contains index then
    raise 1 10 0xA031 0 [pack16 index 0] (onRed (fun x => { x with diverged := x.diverged.filter (fun i => i != index) }) s)
  else s

/-- A SIGNATURES message (Table 14.3 type 8). -/
def sendSigs (plane rate frame : Nat) (sigs : List Sig) (s : State) : State :=
  sendHalyard 8 (beBytes 1 plane ++ beBytes 1 rate ++ beBytes 2 sigs.length ++ beBytes 4 frame
    ++ sigs.flatMap (fun g => beBytes 2 g.index ++ beBytes 1 g.flags ++ beBytes 1 0 ++ wordBytes g.value)) s

/-- HALYARD_SIGNATURES (R481 to R483): the device's signatures of a frame of a plane and rate, as its signature units give
them, are sent and compared with the partner's. A frame for which either device set a flag is excluded, and none is counted
while the plane settles (R480).
Log 90 (DESIGN CHOICE, safe). -/
def execHalyardSignatures (t plane rate frame : Nat) (own peer : List Sig) (bad : Bool) (s : State) :
    Host.Outcome State Fault Refusal :=
  if 7 < plane || 1 < rate then .fault .noSuchObject
  else
    let s := advance t s
    .next (if !halyardRuns s then s
      else
        let s := sendSigs plane rate frame own s
        if bad then discardMsg s
        else
          let s := heardControl s
          if !inStep s || (tfind s.red.settling plane).isSome then s
          else own.foldl (fun s a => match peer.find? (fun b => b.index == a.index) with
            | some b => if inStep s && a.flags = 0 && b.flags = 0 then compareSig a.index frame (a.value == b.value) s else s
            | none => s) s)

/-- SIGNATURE_WAIT_EXPIRED (R482): the partner's signatures of a frame have not come within tSIGW: they are missing, and
nothing is compared. -/
def execSignatureWaitExpired (t plane rate frame : Nat) (own : List Sig) (s : State) : Host.Outcome State Fault Refusal :=
  if 7 < plane || 1 < rate then .fault .noSuchObject
  else
    let s := advance t s
    .next (if halyardRuns s && inStep s then
        onRed (fun r => { r with missing := r.missing + own.length }) (sendSigs plane rate frame own s)
      else s)

/-- HALYARD_PROT_SIG (R348): the partner's reference signatures of a frame of a compositor. -/
def execHalyardProtSig (t comp armed frame : Nat) (sigs : List Word) (bad : Bool) (s : State) :
    Host.Outcome State Fault Refusal :=
  if 63 < comp then .fault .noSuchObject
  else
    let s := advance t s
    .next (if !halyardRuns s then s
      else if bad then discardMsg s
      else
        let s := modComp comp (fun k => { k with peerSig := some (frame, armed, sigs) }) (heardControl s)
        (List.range 4).foldl (fun s r => if ((compOf s comp).armed.getD r false) then comparePair comp r s else s) s)

/-- HALYARD_HEALTH (R484): the partner's health report is kept. -/
def execHalyardHealth (t : Nat) (report : List Byte) (bad : Bool) (s : State) : Host.Outcome State Fault Refusal :=
  let s := advance t s
  .next (if !halyardRuns s then s
    else if bad then discardMsg s
    else
      let s := onRed (fun r => { r with peerReport := report.take 20, peerReportAt := s.clock.clk
                                        peer := { r.peer with health := u8 report 0 % 4 } }) (heardControl s)
      notePeerMode (u8 report 1 % 8) s)

/-- HEALTH_SEND (R484): every 100 ms, and at each change of the health, which is recorded. -/
def execHealthSend (t : Nat) (s : State) : Host.Outcome State Fault Refusal :=
  let s := advance t s
  .next (if !halyardRuns s then s
    else
      let h := healthNow s
      let s := if h = s.red.health then s
        else raise 1 10 0xA040 0 [pack8 s.red.health h s.red.peer.health 0] (onRed (fun r => { r with health := h }) s)
      sendHalyard 10 (healthReport s) s)

/-- HALYARD_LEASE_CLAIM (R473): the partner claims the lease; the sequencer hands over at a tick. -/
def execHalyardLeaseClaim (t gen : Nat) (bad : Bool) (s : State) : Host.Outcome State Fault Refusal :=
  let s := advance t s
  .next (if !halyardRuns s then s
    else if bad then discardMsg s
    else
      let s := heardControl s
      if inStep s then onRed (fun r => { r with claim := some gen }) s else s)

/-- HALYARD_BULK_REQUEST (R459): a lost bulk part is sent again: a part of the snapshot (11), or an object from an offset
on (12). -/
def execHalyardBulkRequest (t kind object offset : Nat) (bad : Bool) (s : State) : Host.Outcome State Fault Refusal :=
  let s := advance t s
  .next (if !halyardRuns s then s
    else if bad then discardMsg s
    else
      let s := heardControl s
      if kind = 11 && (s.red.resync.map (fun x => x.source && x.loaded)).getD false then sendHalyard 11 (beBytes 4 offset) s
      else if kind = 12 && inStep s then sendObject object offset s
      else s)

/-- BULK_REQUEST (Table 14.3). -/
def askAgain (kind object offset : Nat) (s : State) : State :=
  sendHalyard 13 (beBytes 1 kind ++ beBytes 1 0 ++ beBytes 2 object ++ beBytes 4 offset) s

/-- The END check of a filled object (R268, R479): it becomes VALID, or is asked for again; the third failure ends IN_STEP.
Log 97 (DEDUCED, safe). -/
def endFill (n : Nat) (v : Version) (s : State) : State :=
  if crc32 (versionBytes s v 0 v.length) = BitVec.ofNat 32 v.crc && (zoneBad s v.zone (v.first * 65536) v.length).isEmpty then
    fillCheck (onRed (fun r => { r with fillSent := r.fillSent + 1, fillBytes := r.fillBytes + v.length })
      (modObj n (fun o => { o with filling := false }) s))
  else
    let k := tget 0 s.red.fillFails n + 1
    let s := onRed (fun r => { r with fillFails := tset r.fillFails n k }) s
    if 3 ≤ k then divergeOut s else askAgain 12 n 0 s

/-- HALYARD_OBJECT_FILL (R479): data of an object arrives at an offset; the message that holds its last byte ends it. An
object that is not FILLING here is left as it is. -/
def execHalyardObjectFill (t object offset : Nat) (data : List Byte) (bad : Bool) (s : State) :
    Host.Outcome State Fault Refusal :=
  if 2046 < object then .fault .noSuchObject
  else
    let s := advance t s
    .next (if !halyardRuns s then s
      else if bad then askAgain 12 object offset (discardMsg s)
      else
        let o := objOf s object
        match o.cur with
        | some v =>
          if inStep s && o.filling && decide (offset + data.length ≤ v.length) then
            let s := zoneWriteAt v.zone (v.first * 65536 + offset) data s
            if offset + data.length = v.length then endFill object v s else s
          else s
        | none => s)

/-- PLANE_PHASE_DIVERGE (R468): the follower's frame starts of a plane have differed by more than 1 µs for 1 s. -/
def execPlanePhaseDiverge (t plane : Nat) (s : State) : Host.Outcome State Fault Refusal :=
  if 7 < plane then .fault .noSuchObject
  else
    let s := advance t s
    .next (if follows s then divergeOut (pairDiverge 3 plane (planeOf s plane).slow s) else s)

/-- RESYNC_TIMEOUT (R478): resynchronisation has not completed within 200 ms; the link returns to LINKED.
Log 7 (DESIGN CHOICE, safe). -/
def execResyncTimeout (t : Nat) (s : State) : Host.Outcome State Fault Refusal :=
  let s := advance t s
  .next (match s.red.resync with
    | some x =>
      if s.red.link = .resyncing && decide (x.started + 200000000 ≤ s.clock.clk) then
        let s := raise 1 10 0xA021 0 [pack8 (bit (!x.source)) 1 0 0, w32 x.bytes, w32 ((s.clock.clk - x.started) / 1000000)] s
        onRed (fun r => { r with retryAt := some (s.clock.clk + 1000000000) }) (linkTo .linked 1 s)
      else s
    | none => s)

/-- RESYNC_RETRY (R478): 1 s after a timeout resynchronisation starts again. -/
def execResyncRetry (t : Nat) (s : State) : Host.Outcome State Fault Refusal :=
  let s := advance t s
  .next (match s.red.retryAt with
    | some a => if decide (a ≤ s.clock.clk) && halyardRuns s then startResync s else s
    | none => s)

/-- SETTLING_END (R480): three frame periods of a plane have passed since IN_STEP. -/
def execSettlingEnd (t plane : Nat) (s : State) : Host.Outcome State Fault Refusal :=
  if 7 < plane then .fault .noSuchObject
  else
    let s := advance t s
    .next (match tfind s.red.settling plane with
      | some a => if a ≤ s.clock.clk then onRed (fun r => { r with settling := tdel r.settling plane }) s else s
      | none => s)

end Sys2Proof.Machine
end

