-- ==== Sys2Proof/Machine/Adopt.lean ====
section
/-! DEFINITION. How a device takes over a configuration that it did not build by commands: from its state image after S2
(R551), or from its partner's snapshot (R478). Definitions and settings are taken; what runs begins afresh. -/

namespace Sys2Proof.Machine

/-- A source begins afresh and waits for its first frame, as after its definition (R543). -/
def restartSource (n : Nat) (s : State) : State :=
  let x := srcOf s n
  match x.def_ with
  | some d =>
    modSrc n (fun y => { y with ring := x.ring, redef := x.redef, cfgNext := x.cfgNext, deleting := x.deleting, group := x.group })
      (installSource n d x.cfg s)
  | none => s

/-- Every defined source begins afresh; aligned groups find their offsets again.
Log 114 (DEDUCED, safe). -/
def restartSources (s : State) : State :=
  onFlow (fun w => { w with groups := tmap w.groups (fun _ g => { g with bases := g.bases.map (fun _ => none) }) })
    ((s.flow.src.map (·.1)).foldl (fun s n => restartSource n s) s)

/-- Take over source definitions: rings are placed anew and start empty, and counters stay the device's own. -/
def adoptSources (srcs : Table Src) (s : State) : State :=
  let s := onFlow (fun w => { w with src := tmap w.src (fun _ x => { cnt := x.cnt }) }) s
  srcs.foldl (fun s p =>
    let x := p.2
    let s := match x.def_ with
      | some d => installSource p.1 d x.cfg s
      | none => s
    modSrc p.1 (fun y => { y with
      cfg := x.cfg, redef := x.redef, cfgNext := x.cfgNext, deleting := x.deleting, group := x.group }) s) s

/-- Take over destination definitions and park settings; each decides what it shows on its next switching line. -/
def adoptDests (dsts : Table Dst) (s : State) : State :=
  onFlow (fun w => { w with dst := dsts.map (fun p => (p.1, { p.2 with
    shown := if p.2.def_.isSome then 2 else 0, cause := 0, parkSaid := false, fallback := none, badWord := false })) }) s

/-- Take over the flow engines' settings. -/
def adoptFlow (src : Table Src) (dst : Table Dst) (groups : Table Group) (tps : Table FlowTp) (s : State) : State :=
  let s := adoptDests dst (adoptSources src s)
  onFlow (fun w => { w with tps := tps, groups := tmap groups (fun _ g => { g with bases := g.bases.map (fun _ => none) }) }) s

/-- A compositor taken over: its definition, its active, shadow and sealed states, its LUT memories and its protection
settings; counters stay those of `own`. -/
def Comp.adopt (x own : Comp) : Comp :=
  { x with
    cost := 0, costs := List.replicate 8 0, conds := List.replicate 8 (0, 0), sizes := List.replicate 8 (0, 0)
    tainted := false, watch := List.replicate 4 {}, armed := [false, false, false, false], reacted := false
    lastKind := 0, compared := 0, protCnt := own.protCnt, peerSig := none, safe := [], cnt := own.cnt
    lut := { x.lut with jobs := x.lut.jobs.map (fun j => { j with cmd := none }) } }

/-- Take over the compositors. -/
def adoptComps (comps : Table Comp) (s : State) : State :=
  onCmp (fun k => { k with comps := comps.map (fun p => (p.1, p.2.adopt (tget {} k.comps p.1))) }) s

/-- Take over the audio matrix and the settings of ports and streams; port clocks and converters are the device's own. -/
def adoptAudio (outs : Table AudOut) (follows : Table AudFollow) (ports : Table AudPort) (streams : Table AudStream)
    (house zc : Nat) (s : State) : State :=
  onAud (fun a => { a with
    outs := tmap outs (fun _ x => { input := x.input, gain := x.gain, mute := x.mute })
    follows := tmap follows (fun _ f => { f with now := f.embed })
    ports := ports.map (fun p =>
      let own := tget {} a.ports p.1
      (p.1, { own with inEn := p.2.inEn, outEn := p.2.outEn, format := p.2.format, clocks := p.2.clocks, width := p.2.width
                       state := if p.2.inEn || p.2.outEn then max 1 own.state else 0 }))
    streams := streams.map (fun p =>
      let own := tget {} a.streams p.1
      (p.1, { own with dir := p.2.dir, depth := p.2.depth, ptime := p.2.ptime, channels := p.2.channels, flow := p.2.flow
                       linkUs := p.2.linkUs, state := if p.2.dir = 0 then 0 else max 1 own.state }))
    housePlane := house, zcMs := zc }) s

end Sys2Proof.Machine
end

