-- ==== Sys2Proof/Machine/General.lean ====
section
/-! DEFINITION. The general commands of Table 3.7 that name no register: identity and status, mode set and reset, the
configuration lock, the address, and the session keys. -/

namespace Sys2Proof.Machine

/-- IDENTIFY takes no parameters. -/
def refuseIdentify : Refuse := fun _ c => needLen 0 c
/-- IDENTIFY answers Table 3.8. -/
def effIdentify : Effect := fun s _ => (s, some (.ok, identifyReply s))
/-- IDENTIFY (R110). -/
def execIdentify (t : Nat) (c : HostCmd) (s : State) : Host.Outcome State Fault Refusal :=
  .next (runCommand .identify refuseIdentify effIdentify t c s)

/-- STATUS takes no parameters. -/
def refuseStatus : Refuse := fun _ c => needLen 0 c
/-- STATUS answers Table 3.8. -/
def effStatus : Effect := fun s _ => (s, some (.ok, statusReply s))
/-- STATUS (R110). -/
def execStatus (t : Nat) (c : HostCmd) (s : State) : Host.Outcome State Fault Refusal :=
  .next (runCommand .status refuseStatus effStatus t c s)

/-- MODE_SET: only codes 6 and 1; T14 not while the lease is held in step (BUSY), not from MAINTENANCE; T15 only from
MAINTENANCE (R33, Table 3.7, R573). -/
def refuseModeSet : Refuse := fun s c =>
  firstRefusal [needLen 4 c,
    refuseIf ((u8 c.params 0 != 6 && u8 c.params 0 != 1) || u24 c.params 1 != 0) .badParam,
    refuseIf (u8 c.params 0 == 6 && s.red.lease && inStep s) .busy,
    refuseIf (u8 c.params 0 == 6 && s.mode == .maintenance) .notInMode,
    refuseIf (u8 c.params 0 == 1 && s.mode != .maintenance) .notInMode]
/-- MODE_SET takes T14, or T15 with the mode decision that follows the repeated checks (R34). -/
def effModeSet : Effect := fun s c =>
  if u8 c.params 0 = 6 then (transition 14 .maintenance 0 s, some (.ok, []))
  else (reenterCalibrate 15 s, some (.ok, []))
/-- MODE_SET (R33). -/
def execModeSet (t : Nat) (c : HostCmd) (s : State) : Host.Outcome State Fault Refusal :=
  .next (runCommand .modeSet refuseModeSet effModeSet t c s)

/-- RESET: the key word, and not while the lease is held in step (Table 3.7). -/
def refuseReset : Refuse := fun s c =>
  firstRefusal [needLen 4 c, refuseIf (u32 c.params 0 != 0x52535421) .badParam,
    refuseIf (s.red.lease && inStep s) .busy]
/-- RESET replies, and T1 follows after tRESET (R107). -/
def effReset : Effect := fun s _ => (onHost (fun h => { h with resetAt := some s.clock.clk }) s, some (.ok, []))
/-- RESET (R110). -/
def execReset (t : Nat) (c : HostCmd) (s : State) : Host.Outcome State Fault Refusal :=
  .next (runCommand .reset refuseReset effReset t c s)

/-- RESET_DELAY_EXPIRED (R107): at least 10 ms after the reply to RESET, T1 takes effect.
Log 11 (DESIGN CHOICE, unsafe). -/
def execResetDelayExpired (t : Nat) (s : State) : Host.Outcome State Fault Refusal :=
  let s := advance t s
  .next (match s.host.resetAt with
    | some a => if a + 10000000 ≤ s.clock.clk then takeT1Start 0 s else s
    | none => s)

/-- LOCK_CONFIG: the key word (Table 3.7). -/
def refuseLockConfig : Refuse := fun _ c =>
  firstRefusal [needLen 4 c, refuseIf (u32 c.params 0 != 0x4C4F434B) .badParam]
/-- LOCK_CONFIG locks the RWL fields; a repeat has no effect (Table 3.7, R8). -/
def effLockConfig : Effect := fun s c =>
  if s.host.locked then (s, some (.ok, []))
  else (raise 1 0 0x0025 0 [pack16 c.session 0] (onHost (fun h => { h with locked := true }) s), some (.ok, []))
/-- LOCK_CONFIG (R110). -/
def execLockConfig (t : Nat) (c : HostCmd) (s : State) : Host.Outcome State Fault Refusal :=
  .next (runCommand .lockConfig refuseLockConfig effLockConfig t c s)

/-- ADDR_SET: the serial number must be the device's (Table 3.7). -/
def refuseAddrSet : Refuse := fun s c =>
  firstRefusal [needLen 12 c, refuseIf (u64 c.params 0 != s.fuses.serial || u24 c.params 9 != 0) .badParam]
/-- ADDR_SET sets the frame ID after its reply, which carries the new address (R90, R112).
Log 26 (DEDUCED, safe). -/
def effAddrSet : Effect := fun s c =>
  let old := sysAddr s
  let new := u8 c.params 8 * 64 + s.start.straps.pos % 64
  let s := finish .addrSet c .ok (beBytes 2 new ++ beBytes 2 0) s
  (raise 1 0 0x0026 0 [pack16 old new] (onAon (fun a => { a with frameId := u8 c.params 8 }) s), none)
/-- ADDR_SET (R110). -/
def execAddrSet (t : Nat) (c : HostCmd) (s : State) : Host.Outcome State Fault Refusal :=
  .next (runCommand .addrSet refuseAddrSet effAddrSet t c s)

/-- The role of a role code (R95). -/
def roleOfCode : Nat → Option Role
  | 1 => some .operator | 2 => some .safety | 3 => some .maintenance | _ => none

/-- The code of a role (R95). -/
def roleCode : Role → Nat
  | .anonymous => 0 | .operator => 1 | .safety => 2 | .maintenance => 3

/-- The key-encryption key of a SESSION_KEY_LOAD (R98). -/
def loadKek (c : HostCmd) : List Byte :=
  hmacSha256 c.key ([0x4C#8, 0x58#8, 0x2D#8, 0x4B#8, 0x57#8] ++ beBytes 2 (u16 c.params 0) ++ beBytes 4 c.seq)

/-- The key that a SESSION_KEY_LOAD carries, if its integrity check holds (R98). -/
def loadKey (c : HostCmd) : Option (List Byte) := keyUnwrap (loadKek c) (sub c.params 4 40)

/-- The lowest free of the 16 session slots.
Log 22 (DEDUCED, safe). -/
def freeSlot (s : State) : Option Nat := (List.range 16).find? (fun i => (tfind s.aon.sessions i).isNone)

/-- The slot that holds a session. -/
def slotOf (s : State) (id : Nat) : Option Nat := (s.aon.sessions.find? (fun p => p.2.id == id)).map (·.1)

/-- R99: a sender's role may load a session of role `r` over what the ID holds now. -/
def mayLoad (sender r : Role) (s : State) (id : Nat) : Bool :=
  let held := (findSession s id).map (·.role)
  if sender = .safety then r == .safety
  else if held == some .safety then false
  else if r = .safety then !safetyHeld s
  else true

/-- SESSION_KEY_LOAD (R98, R99). -/
def refuseKeyLoad : Refuse := fun s c =>
  match needLen 44 c with
  | some r => some r
  | none => match roleOfCode (u8 c.params 2) with
    | none => some (.badParam, [])
    | some r =>
      firstRefusal [
        refuseIf (u16 c.params 0 == 0 || u16 c.params 0 == 0xFFFF || u8 c.params 3 != 0 || (loadKey c).isNone) .badParam,
        refuseIf (!mayLoad c.role r s (u16 c.params 0)) .roleDenied,
        refuseIf ((slotOf s (u16 c.params 0)).isNone && (freeSlot s).isNone) .noResource]

/-- Forget what the interpreter holds for a session whose key changed: its reassembly (R93) and its cached reply.
Log 23 (DEDUCED, safe). -/
def forgetSession (id : Nat) (s : State) : State :=
  let s := abandonReasm id s
  onHost (fun h => { h with cache := tdel h.cache id }) s

/-- SESSION_KEY_LOAD stores the session with last sequence 0 (R100) and records the change. -/
def effKeyLoad : Effect := fun s c =>
  let id := u16 c.params 0
  match roleOfCode (u8 c.params 2), loadKey c, (slotOf s id).orElse (fun _ => freeSlot s) with
  | some r, some k, some n =>
    let s := forgetSession id s
    let s := onAon (fun a => { a with sessions := tset a.sessions n ⟨id, r, k, 0⟩ }) s
    (raise 1 0 0x0024 0 [pack16 id c.session, pack8_16 (roleCode r) 0 0] s, some (.ok, []))
  | _, _, _ => (s, some (.badParam, []))
/-- SESSION_KEY_LOAD (R98 to R100). -/
def execSessionKeyLoad (t : Nat) (c : HostCmd) (s : State) : Host.Outcome State Fault Refusal :=
  .next (runCommand .sessionKeyLoad refuseKeyLoad effKeyLoad t c s)

/-- R99: a sender's role may erase a session of role `r`. -/
def mayErase (sender r : Role) : Bool := if sender = .safety then r == .safety else r != .safety

/-- SESSION_KEY_ERASE: a known ID, within the limits of R99. -/
def refuseKeyErase : Refuse := fun s c =>
  let id := u16 c.params 0
  firstRefusal [needLen 4 c,
    refuseIf (u16 c.params 2 != 0 || (id != 0 && (findSession s id).isNone)) .badParam,
    refuseIf (id != 0 && !((findSession s id).map (fun x => mayErase c.role x.role)).getD false) .roleDenied]

/-- Erase one session and record it (Table 3.15). -/
def eraseSession (sender : Nat) (x : Session) (s : State) : State :=
  let s := forgetSession x.id s
  let s := onAon (fun a => { a with sessions := a.sessions.filter (fun p => p.2.id != x.id) }) s
  raise 1 0 0x0024 0 [pack16 x.id sender, pack8_16 (roleCode x.role) 1 0] s

/-- SESSION_KEY_ERASE erases one session, or with ID 0 every session that the sender's role may erase (R99). -/
def effKeyErase : Effect := fun s c =>
  let id := u16 c.params 0
  let gone := (s.aon.sessions.map (·.2)).filter (fun x => if id = 0 then mayErase c.role x.role else x.id == id)
  (gone.foldl (fun s x => eraseSession c.session x s) s, some (.ok, []))
/-- SESSION_KEY_ERASE (R99, R100). -/
def execSessionKeyErase (t : Nat) (c : HostCmd) (s : State) : Host.Outcome State Fault Refusal :=
  .next (runCommand .sessionKeyErase refuseKeyErase effKeyErase t c s)

/-- SESSION_INFO takes no parameters. -/
def refuseSessionInfo : Refuse := fun _ c => needLen 0 c
/-- SESSION_INFO lists the 16 slots (Table 3.7).
Log 22 (DEDUCED, safe). -/
def effSessionInfo : Effect := fun s _ =>
  (s, some (.ok, (List.range 16).flatMap (fun i =>
    match tfind s.aon.sessions i with
    | some x => beBytes 2 x.id ++ beBytes 1 (roleCode x.role) ++ beBytes 1 0 ++ beBytes 4 x.lastSeq
    | none => beBytes 8 0)))
/-- SESSION_INFO (R110). -/
def execSessionInfo (t : Nat) (c : HostCmd) (s : State) : Host.Outcome State Fault Refusal :=
  .next (runCommand .sessionInfo refuseSessionInfo effSessionInfo t c s)

/-- ECHO takes at most 8,192 bytes. -/
def refuseEcho : Refuse := fun _ c => refuseIf (decide (8192 < c.params.length)) .badLength
/-- ECHO answers the same bytes. -/
def effEcho : Effect := fun s c => (s, some (.ok, c.params))
/-- ECHO (R110). -/
def execEcho (t : Nat) (c : HostCmd) (s : State) : Host.Outcome State Fault Refusal :=
  .next (runCommand .echo refuseEcho effEcho t c s)

end Sys2Proof.Machine
end

