-- ==== Sys2Proof/Machine/Power.lean ====
section
/-! DEFINITION. Performance levels and sleep states (chapter 17), with the retention of the frame store across S2 (R283 to
R286). -/

namespace Sys2Proof.Machine

/-- PWR_STATUS takes no parameters. -/
def refusePwrStatus : Refuse := fun _ c => needLen 0 c
/-- PWR_STATUS answers seven registers (Table 17.4). -/
def effPwrStatus : Effect := fun s _ =>
  (s, some (.ok, [regPwrState s, regPwrWake s, regPwrAlarm s, regWakeTime s, regSeqStatus s, regBootStatus s,
    regStartTime s].flatMap wordBytes))
/-- PWR_STATUS (R554). -/
def execPwrStatus (t : Nat) (c : HostCmd) (s : State) : Host.Outcome State Fault Refusal :=
  .next (runCommand .pwrStatus refusePwrStatus effPwrStatus t c s)

/-- PWR_LEVEL_SET (Table 17.2, R542). -/
def refusePwrLevelSet : Refuse := fun s c =>
  let l := u8 c.params 0
  firstRefusal [needLen 4 c,
    refuseIf (decide (3 < l) || u24 c.params 1 != 0) .badParam,
    refuseIf (s.pwr.sleep == 1) .notInMode,
    refuseIf s.pwr.changing .busy,
    if l = s.pwr.level then none else (levelFails s l).map (fun k => (.capacity, beBytes 1 k ++ beBytes 3 0))]
/-- PWR_LEVEL_SET starts a change; to a level of higher capacity CORE_VSEL is driven first (R541). -/
def effPwrLevelSet : Effect := fun s c =>
  let l := u8 c.params 0
  if l = s.pwr.level then (s, some (.ok, []))
  else
    let s := onPwr (fun p => { p with
      changing := true, target := l, switched := false, levelCmd := some c, changeAt := s.clock.clk }) s
    (if l < s.pwr.level then setVsel l s else s, none)
/-- PWR_LEVEL_SET (R540, R541). -/
def execPwrLevelSet (t : Nat) (c : HostCmd) (s : State) : Host.Outcome State Fault Refusal :=
  .next (runCommand .pwrLevelSet refusePwrLevelSet effPwrLevelSet t c s)

/-- LEVEL_CLOCK_SWITCH (R541): the scaled islands switch their clock at a plane-frame boundary: towards higher capacity once
the rail has had 2 ms to settle, towards lower capacity at once, after which CORE_VSEL is driven. -/
def execLevelClockSwitch (t : Nat) (s : State) : Host.Outcome State Fault Refusal :=
  let s := advance t s
  .next (if !s.pwr.changing || s.pwr.switched then s
    else if s.pwr.target < s.pwr.level then
      (if s.pwr.changeAt + 2000000 ≤ s.clock.clk then onPwr (fun p => { p with switched := true }) s else s)
    else setVsel s.pwr.target (onPwr (fun p => { p with switched := true }) s))

/-- LEVEL_CHANGE_DONE (R541): the change is complete; LEVEL_CHANGED is recorded and the command answered.
Log 109 (DEDUCED, safe). -/
def execLevelChangeDone (t : Nat) (s : State) : Host.Outcome State Fault Refusal :=
  let s := advance t s
  .next (if s.pwr.changing && s.pwr.switched then
      let cmd := s.pwr.levelCmd
      let old := s.pwr.level
      let s := onPwr (fun p => { p with level := p.target, changing := false, switched := false, levelCmd := none }) s
      let s := raise 1 12 0xC021 0 [pack8_16 old s.pwr.level 0] s
      match cmd with
      | some c => finish .pwrLevelSet c .ok [] s
      | none => s
    else s)

/-- PC `n` keeps its contents across S2 (R283). -/
def retainedPc (s : State) (n : Nat) : Bool := tget false s.aon.retainMask n

/-- The retained PCs, lowest first. -/
def retainedPcs (s : State) : List Nat := (List.range 128).filter (retainedPc s)

/-- Every PC of a zone is retained. -/
def zoneRetained (s : State) (z : Zone) : Bool := (List.range (2 ^ z.pcLog2)).all (fun i => retainedPc s (z.pcBase + i))

/-- The frame store without object 2047, whose run the next state image may take. -/
def withoutImage (s : State) : State := onFst (fun f => { f with objs := tdel f.objs 2047 }) s

/-- Where a state image of a size in units goes (R267): the lowest-numbered LINEAR object zone whose PCs are all retained and
which has a free run. -/
def imagePlace (s : State) (units : Nat) : Option (Nat × Nat) :=
  let s := withoutImage s
  [2, 3, 4, 5, 6, 7].findSome? (fun k =>
    let z := zoneOf s k
    if z.defined && z.order == 0 && zoneRetained s z then (findRun s k units).map (fun f => (k, f)) else none)

/-- The size in units of the state image that an entry would write now: its form is not given (R545). -/
def imageSize (s : State) : Nat := 1 + Config.imageUnits s.free % 1024

/-- T16 is allowed from these modes (Table 1.9). -/
def Mode.maySleep : Mode → Bool
  | .active | .standby | .isolated | .maintenance => true
  | _ => false

/-- PWR_SLEEP (Table 17.2). -/
def refusePwrSleep : Refuse := fun s c =>
  let n := u8 c.params 0
  let deep := decide (2 ≤ n)
  firstRefusal [needLen 8 c,
    refuseIf (decide (3 < n) || u24 c.params 1 != 0 || (!deep && u32 c.params 4 != 0)) .badParam,
    refuseIf (if deep then !s.mode.maySleep else n == 1 && s.mode != .calibrate && s.mode != .maintenance) .notInMode,
    refuseIf (n == 0 && !inS1 s) .notInMode,
    refuseIf ((deep && s.red.lease && inStep s) || (n != 0 && s.pins.wakeLow) || s.pwr.changing || s.pwr.entering
      || (n != 0 && s.flash.write.isSome)) .busy,
    refuseIf (deep && (s.aon.boot.trial || (bootRec s).trial.isSome)) .trialActive,
    refuseIf (n == 2 && (imagePlace s (imageSize s)).isNone) .noResource]

/-- The ports go to electrical idle (R547). -/
def portsIdle (s : State) : State := setLink 1 0 3 (setLink 0 0 3 s)

/-- PWR_SLEEP (R547 steps 1 and 2, R549): leave S1, or begin an entry; S2 and S3 take T16. The reply of S2 gives the size of
the state image.
Log 109 (DEDUCED, safe). -/
def effPwrSleep : Effect := fun s c =>
  let n := u8 c.params 0
  if n = 0 then
    (onPwr (fun p => { p with exiting := true, wakeAt := s.clock.clk })
      (onAon (fun a => { a with wakeSeen := Nat.lor a.wakeSeen 8 }) s), some (.ok, []))
  else if n = 1 && inS1 s then (s, some (.ok, []))
  else
    let units := imageSize s
    let s := onAon (fun a => { a with wakeSeen := 0, alarm := if n = 1 then 0 else a.alarm }) s
    let s := onPwr (fun p => { p with
      sleep := n, entering := true, acceptedAt := s.clock.clk, fromMode := s.mode, imageWritten := false, committed := false
      imageUnits := units, alarmArg := u32 c.params 4, exiting := false, enLowAt := none }) s
    if n = 1 then (s, some (.ok, []))
    else
      let s := portsIdle (driveHt 7 (transition 16 .retain 0 s))
      (s, some (.ok, if n = 2 then beBytes 4 units else []))
/-- PWR_SLEEP (R546). -/
def execPwrSleep (t : Nat) (c : HostCmd) (s : State) : Host.Outcome State Fault Refusal :=
  .next (runCommand .pwrSleep refusePwrSleep effPwrSleep t c s)

/-- One step of PRBS31, x^31 + x^28 + 1 (R140): the register shifts, and its new bit is output.
Log 112 (DEDUCED, safe). -/
def prbsStep (r : Nat) : Nat := r % 2 ^ 30 * 2 + bit (r.testBit 30 != r.testBit 27)

/-- Bits of PRBS31 from a register. -/
def prbsBits : Nat → Nat → List Bool
  | 0, _ => []
  | n + 1, r => let r' := prbsStep r; r'.testBit 0 :: prbsBits n r'

/-- Bits as bytes, most significant first. -/
def bytesOfBits : Nat → List Bool → List Byte
  | 0, _ => []
  | n + 1, bs => b8 ((bs.take 8).foldl (fun a b => 2 * a + bit b) 0) :: bytesOfBits n (bs.drop 8)

/-- The canary of a bank for a sleep count (Table 8.9). -/
def canary (pc bank count : Nat) : List Byte :=
  beBytes 1 pc ++ beBytes 1 bank ++ beBytes 2 0 ++ beBytes 4 count
    ++ bytesOfBits 56 (prbsBits 448 (count / 2 * 2 + 1))

/-- The byte address of a bank's canary, in row 16,383 (R258). -/
def canaryAt (g : Nat) : Nat := g * 2 ^ 24 + 16383 * 1024

/-- The global banks of the retained PCs. -/
def retainedBanks (s : State) : List Nat := (retainedPcs s).flatMap (fun p => (List.range 32).map (fun b => 32 * p + b))

/-- The state image of the device as it stands (R545). -/
def takeImage (s : State) : SavedState :=
  { flow := s.flow, xpt := { s.xpt with queue := [], waits := [] }, stallTicks := s.cue.stallTicks
    pageIdle := s.fst.pageIdle, srIdleUs := s.fst.srIdleUs, periodS := s.fst.periodS
    cmp := s.cmp, aud := s.aud, tim := s.tim, lane := s.lane, eth := s.eth, red := s.red, halWaitMs := s.halWaitMs
    locked := s.host.locked, faultYield := s.saf.faultYield, stallAction := s.saf.stallAction
    compatEn := s.ctl.compatEn, compatBank := s.ctl.compatBank, level := s.pwr.level }

/-- The bytes of the state image: their form is not given, so they are free values.
Log 111 (DESIGN CHOICE, safe). -/
def imageBytes (s : State) : List Byte := (List.range (s.pwr.imageUnits * 65536)).map (Config.imageByte s.free)
/-- The version that the state image takes at unit `f` of zone `k` (R267). -/
def imageVersion (k f : Nat) (s : State) : Version :=
  { kind := 5, zone := k, format := 0, length := s.pwr.imageUnits * 65536, crc := (crc32 (imageBytes s)).toNat
    first := f, units := s.pwr.imageUnits }
/-- Keep what the image says beside its bytes, which used a free value.
Log 111 (DESIGN CHOICE, safe). -/
def keepImage (img : SavedState) (s : State) : State := { s with image := some img, free := s.free + 1 }

/-- Write the state image as object 2047 (R267, R284 step 2). -/
def writeImage (s : State) : State :=
  match imagePlace s s.pwr.imageUnits with
  | none => withoutImage s
  | some (k, f) =>
    keepImage (takeImage s) (modObj 2047 (fun _ => { cur := some (imageVersion k f s) })
      (zoneWriteAt k (f * 65536) (imageBytes s) (withoutImage s)))

/-- STATE_IMAGE_WRITE (R284 steps 1 to 6): the state image and the canaries are written, the retention store filled, and the
banks whose read-back fails are flagged.
Log 112 (DEDUCED, safe). -/
def execStateImageWrite (t : Nat) (flagged : List Nat) (s : State) : Host.Outcome State Fault Refusal :=
  let s := advance t s
  .next (if s.pwr.entering && s.pwr.sleep = 2 && s.mode = .retain && !s.pwr.imageWritten then
      let s := writeImage s
      let count := (s.aon.retainCount + 1) % 0x10000
      let s := onAon (fun a => { a with
        retainCount := count, retainChecked := false
        retainStore := some { count := count, mask := a.retainMask
                              flagged := flagged.filter (fun g => retainedPc s (g / 32)) } }) s
      let s := (retainedBanks s).foldl (fun s g => writePiece (canaryAt g) (canary (g / 32) (g % 32) count) s) s
      onPwr (fun p => { p with imageWritten := true }) s
    else s)

/-- What a sleep state leaves of the device: the always-on domain, the boot flash, the pins of the board, what waits for the
recorder, and the recorder itself across S2 (R508, R544, Table 17.1). `keep` says that the retained PCs and the state image
are kept.
Log 110 (DEDUCED, safe). -/
def asleep (keep : Bool) (s : State) : State :=
  let pcKept := fun n => keep && retainedPc s n
  let fst : Fst := if keep then {
      mem := s.fst.mem.filter (fun c => pcKept (c.1 / 2 ^ 29)), bad := s.fst.bad.filter (fun a => pcKept (a / 2 ^ 29))
      zones := s.fst.zones
      objs := (s.fst.objs.filter (fun p => p.2.cur.isSome || p.2.invalid)).map (fun p =>
        (p.1, { cur := p.2.cur, invalid := p.2.invalid, prot := p.2.prot }))
      pcs := (retainedPcs s).map (fun n => (n, { state := 2, retained := true })) }
    else {}
  { resetState (pinsDown s) with
    mode := .retain
    aon := if keep then s.aon else { s.aon with retainStore := none }
    evt := { s.evt with running := false }
    pwr := { sleep := s.pwr.sleep, committed := true, enteredAt := s.pwr.enteredAt, entryMs := s.pwr.entryMs
             wakeReadyMs := s.pwr.wakeReadyMs, wakeAt := s.pwr.wakeAt }
    fst := fst
    image := if keep then s.image else none }

/-- SLEEP_COMMIT_POINT (R547 steps 4 to 6): the time and the alarm are recorded, SLEEP_ENTERED is raised, and past it the
device sleeps. In S1 its test functions stop (R543).
Log 110 (DEDUCED, safe). -/
def execSleepCommitPoint (t : Nat) (s : State) : Host.Outcome State Fault Refusal :=
  let s := advance t s
  let n := s.pwr.sleep
  .next (if !s.pwr.entering || (n = 2 && !s.pwr.imageWritten) then s
    else
      let s := recordTime s
      let s := if 2 ≤ n then onAon (fun a => { a with alarm := s.pwr.alarmArg }) s else s
      let s := raise 1 12 0xC022 0 [pack8_16 n 0 (retainedPcs s).length, w32 s.pwr.alarmArg] s
      let s := onPwr (fun p => { p with
        entering := false, committed := true, enteredAt := s.clock.clk, entryMs := msSince p.acceptedAt s
        exiting := p.sleep == 1 && s.aon.wakeSeen != 0, wakeAt := s.clock.clk }) s
      if n = 1 then stopTests s else asleep (n = 2) s)

/-- SLEEP_ENABLE_DEASSERT (R544, R547 step 6): the enables fall in the reverse of Table 2.1, 1 ms apart; EN_HBM stays in S2.
The log carries each instant. -/
def execSleepEnableDeassert (t : Nat) (s : State) : Host.Outcome State Fault Refusal :=
  let s := advance t s
  .next (if s.pwr.committed && 2 ≤ s.pwr.sleep && s.pwr.enLowAt.isNone then
      let hbm := s.pwr.sleep = 2
      let n := (s.seq.en.filter id).length - (if hbm && s.seq.en.getD 3 false then 1 else 0)
      let s := onSeq (fun q => { q with phase := .off, step := 5 }) (dropEnables hbm s)
      onPwr (fun p => { p with enLowAt := some (s.clock.clk + (n - 1) * 1000000) }) s
    else s)

/-- SLEEP_ABANDONED (R548): before the commit point a safety reaction by mechanism SM`m`, or a trigger of T1 where `mech` is
none, abandons the entry. -/
def execSleepAbandoned (t : Nat) (mech : Option Nat) (s : State) : Host.Outcome State Fault Refusal :=
  let s := advance t s
  .next (if s.mode = .retain && s.pwr.entering then
      match mech with
      | some m => if 1 ≤ m && m ≤ 7 then reaction m (armedComps s) s else s
      | none => takeT1Start 1 s
    else s)

/-- A wake source acts (R549, R550): before the entry is complete it is latched, with bit 1 of CAUSE; in S1 it starts the
exit. -/
def wakeSource (cause : Nat) (s : State) : State :=
  if s.pwr.sleep = 0 then s
  else
    let latched := s.pwr.entering || (2 ≤ s.pwr.sleep && s.pwr.enLowAt.isNone)
    let s := onAon (fun a => { a with wakeSeen := Nat.lor a.wakeSeen (if latched then Nat.lor cause 2 else cause) }) s
    if inS1 s && !s.pwr.exiting then onPwr (fun p => { p with exiting := true, wakeAt := s.clock.clk }) s else s

/-- WAKE_N_LOW (R549): WAKE_N has been low for tWDB; `low` false says that it is high again. -/
def execWakeNLow (t : Nat) (low : Bool) (s : State) : Host.Outcome State Fault Refusal :=
  let s := onPins (fun p => { p with wakeLow := low }) (advance t s)
  .next (if low then wakeSource 1 s else s)

/-- WAKE_ALARM (R549, R553): the alarm falls PWR_ALARM.SECONDS after the commit point on the always-on count, within 5 % of it
on the ring oscillator. -/
def execWakeAlarm (t : Nat) (s : State) : Host.Outcome State Fault Refusal :=
  let s := advance t s
  let due := s.aon.alarm * (if s.aon.onRing || s.aon.ringUsed then 950000000 else 1000000000)
  .next (if s.aon.alarm ≠ 0 && 2 ≤ s.pwr.sleep && s.pwr.committed && s.pwr.enteredAt + due ≤ s.clock.clk then wakeSource 4 s
    else s)

/-- The wake registers and WOKEN (R555, R556): the sleep that ends, its causes, and its length in seconds. -/
def noteWake (s : State) : State :=
  let s := onAon (fun a => { a with
    wakeLast := s.pwr.sleep, wakeCause := a.wakeSeen, xtalLost := a.onRing || a.ringUsed, wakeSeen := 0 }) s
  raise 1 12 0xC023 0 [pack8_16 s.pwr.sleep s.aon.wakeCause 0, w32 ((s.clock.clk - s.pwr.enteredAt) / 1000000000)] s

/-- T18 (R552): the wake from S3 starts the device as from power-up. -/
def takeT18 (s : State) : State :=
  raiseModeChange 18 .retain .boot 5
    (resetState { s with aon := { s.aon with prevMode := Mode.retain.code, lastTrans := 18 } })

/-- WAKE_START (R550 to R552): with the entry complete and every enable low for 10 ms, a wake source starts the rails again:
S2 keeps RETAIN until T17, S3 takes T18. -/
def execWakeStart (t : Nat) (s : State) : Host.Outcome State Fault Refusal :=
  let s := advance t s
  .next (match s.pwr.enLowAt with
    | some a =>
      if 2 ≤ s.pwr.sleep && s.aon.wakeSeen ≠ 0 && a + 10000000 ≤ s.clock.clk then
        let deep := s.pwr.sleep = 3
        let s := noteWake s
        let s := onPwr (fun p => { entryMs := p.entryMs, wakeAt := s.clock.clk, wakeReadyMs := 0xFFFF, wakeCounting := true }) s
        startSequence (if deep then takeT18 s else onStart (fun x => { x with wake := true }) s)
      else s
    | none => s)

/-- S1_EXIT (R543): the stopped islands run again, and each defined source waits for its first frame. -/
def execS1Exit (t : Nat) (s : State) : Host.Outcome State Fault Refusal :=
  let s := advance t s
  .next (if inS1 s && s.pwr.exiting then
      let s := noteWake s
      modeDecision (restartSources (onPwr (fun p => { p with
        sleep := 0, committed := false, exiting := false, wakeReadyMs := 0xFFFF, wakeCounting := true }) s))
    else s)

/-- AON_XTAL_LOST (R553): AON_XTAL has had no edge for 10 ms; the domain counts on the ring oscillator. -/
def execAonXtalLost (t : Nat) (s : State) : Host.Outcome State Fault Refusal :=
  let s := advance t s
  .next (if s.seq.aonUp && !s.aon.onRing then
      raise 2 12 0xC025 0 [pack8 s.pwr.sleep 0 0 0] (onAon (fun a => { a with onRing := true, ringUsed := true }) s)
    else s)

/-- AON_XTAL_RETURN (R553): the domain counts on AON_XTAL again. -/
def execAonXtalReturn (t : Nat) (s : State) : Host.Outcome State Fault Refusal :=
  .next (onAon (fun a => { a with onRing := false }) (advance t s))

/-- The check of R286 that a retained bank fails first, if any: 0 canary, 1 descriptor, 2 flagged at entry, 3 wake scrub.
Log 113 (DEDUCED, safe). -/
def bankCheck (s : State) (r : Retention) (canaries descs scrubbed : List Nat) (g : Nat) : Option Nat :=
  let bad := fun lo hi => s.fst.bad.any (fun a => decide (lo ≤ a) && decide (a < hi))
  let at_ := canaryAt g
  if canaries.contains g || bad at_ (at_ + 64)
      || crc32 (memReadList 0#8 s.fst.mem at_ 64) ≠ crc32 (canary (g / 32) (g % 32) r.count) then some 0
  else if descs.contains g then some 1
  else if r.flagged.contains g then some 2
  else if scrubbed.contains g || bad (g * 2 ^ 24) ((g + 1) * 2 ^ 24) then some 3
  else none

/-- A slice of the object table whose descriptor passes in no retained PC leaves its 64 IDs INVALID, holding no units
(R285).
Log 113 (DEDUCED, safe). -/
def loseSlice (b : Nat) (s : State) : State :=
  (List.range 64).foldl (fun s i =>
    raise 3 4 0x4021 0 [pack16_8 (64 * b + i) 0 2]
      (fstCount 3 1 (modObj (64 * b + i) (fun _ => { invalid := true }) s))) s

/-- Objects with a unit in a PC that is not retained are freed (R285 step 6). -/
def freeUnretained (s : State) : State :=
  let gone := s.fst.objs.filter (fun p => match p.2.cur with
    | some v => (List.range v.units).any (fun i =>
        (List.range 128).any (fun n => !retainedPc s n && unitTouchesPc (zoneOf s v.zone) (v.first + i) n))
    | none => false)
  let s := onFst (fun f => { f with objs := f.objs.filter (fun p => !gone.any (fun q => q.1 == p.1)) }) s
  if gone.isEmpty then s else raise 1 4 0x4012 0 [pack16 gone.length 0] s

/-- A retained bank is LOST (R286): its objects become INVALID with cause 1. -/
def loseBank (g check : Nat) (s : State) : State :=
  let hit := (s.fst.objs.filter (fun p => !p.2.invalid && match p.2.cur with
    | some v => (List.range v.units).any (fun i => unitTouches (zoneOf s v.zone) (v.first + i) (g % 32) (g / 32))
    | none => false)).map (·.1)
  let s := onFst (fun f => { f with lost := f.lost ++ [g] }) s
  raise 3 4 0x4011 0 [pack16_8 g check 0, pack16 hit.length 0] (hit.foldl (fun s n => invalidate n 1 s) s)

/-- WAKE_SCRUB_DONE (R285, R286): the checks and the wake scrub of the retained banks are complete. The operands are the
banks whose canary or descriptor fails, those in which the scrub finds a failing byte, and the time of the scrub in ms.
Log 10 (DESIGN CHOICE, safe).
Log 113 (DEDUCED, safe). -/
def execWakeScrubDone (t : Nat) (canaries descs scrubbed : List Nat) (ms : Nat) (s : State) :
    Host.Outcome State Fault Refusal :=
  let s := advance t s
  .next (match s.aon.retainStore with
    | some r =>
      if s.mode ≠ .calibrate || s.cal.scrub || !s.cal.hbm then s
      else
        let fails := (retainedBanks s).filterMap (fun g => (bankCheck s r canaries descs scrubbed g).map (fun k => (g, k)))
        let noSlice := (List.range 32).filter (fun b => (retainedPcs s).all (fun p => descs.contains (32 * p + b)))
        let s := noSlice.foldl (fun s b => loseSlice b s) s
        let s := freeUnretained s
        let s := fails.foldl (fun s x => loseBank x.1 x.2 s) s
        let s := raise 0 4 0x4010 0 [pack8_16 (retainedPcs s).length 0 fails.length, w32 ms] s
        let s := onAon (fun a => { a with retainLost := fails.length, retainChecked := true, retainStore := none }) s
        let ok := (objOf s 2047).valid.isSome && s.image.isSome
        let s := if ok then s else { onFst (fun f => { f with zones := resetZones }) s with image := none }
        calProgress (onCal (fun k => { k with scrub := true, restored := !ok }) s)
    | none => s)

/-- The lanes' configuration as the image has it. -/
def restoreLanes (old s : State) : State :=
  allLanes.foldl (fun s k =>
    let y := txLane old k
    modTx k (fun x => { x with mapVersion := y.mapVersion, classes := y.classes })
      (writeTxTag k y.tag (writeTxCfg k (regTxCfg old k).toNat (writeRxCfg k (regRxCfg old k).toNat s)))) s

/-- The Ethernet ports' configuration as the image has it. -/
def restorePorts (v : SavedState) (s : State) : State :=
  [0, 1].foldl (fun s p =>
    let y : EthPort := tget {} v.eth.ports p
    modEth p (fun x => { x with
      enable := y.enable, preempt := y.preempt, pauseRx := y.pauseRx, pauseTx := y.pauseTx, mediaPct := y.mediaPct
      dscpPtp := y.dscpPtp, dscpCtl := y.dscpCtl, maxFrame := y.maxFrame, vid := y.vid, pcpExp := y.pcpExp
      pcpMedia := y.pcpMedia, txPol := y.txPol, rxPol := y.rxPol }) s) s

/-- The media flows of the image, received ones joining afresh. -/
def restoreFlows (v : SavedState) (s : State) : State :=
  let now := s.clock.clk
  let s := onEth (fun e => { e with
    rx := tmap v.eth.rx (fun _ y =>
      if y.kind = 0 then {}
      else { kind := y.kind, legA := y.legA, legB := y.legB, format := y.format, pt := y.pt, pd := y.pd, anc := y.anc
             state := 1, a := { lastAt := now }, b := { lastAt := now }, joinAt := now, joinLeft := 2 })
    tx := tmap v.eth.tx (fun _ y => { cfg := y.next.getD y.cfg }) }) s
  s.eth.rx.foldl (fun s p => p.2.legs.foldl (fun s l => reportLeg p.1 l.1 l.2 false s) s) s

/-- The registers of the references, of the time and of the loops. -/
def restoreRefs (v : SavedState) (old s : State) : State :=
  onTim (fun m => { m with
    holdLimit := v.tim.holdLimit, xoPpb := v.tim.xoPpb, slew := v.tim.slew
    sel := { m.sel with ptpRank := v.tim.sel.ptpRank, wtr := v.tim.sel.wtr }
    ptp := { m.ptp with domain := v.tim.ptp.domain, unicast := v.tim.ptp.unicast, portA := v.tim.ptp.portA
                        portB := v.tim.ptp.portB } })
    ([0, 1, 2, 3].foldl (fun s i => configRef i (regRefCfg old i).toNat s) s)

/-- The registers of the pair, of the safety island and of the control complex, and the level. -/
def restoreControl (v : SavedState) (s : State) : State :=
  let s := onRed (fun r => { r with
    autoResync := v.red.autoResync, divergeFrames := v.red.divergeFrames, resyncDest := v.red.resyncDest
    leaseSrc := v.red.leaseSrc, termMs := v.red.termMs }) s
  let s := onSaf (fun k => { k with faultYield := v.faultYield, stallAction := v.stallAction }) s
  let s := onCtl (fun k => { k with compatEn := v.compatEn, compatBank := v.compatBank }) s
  setVsel v.level (onPwr (fun p => { p with level := v.level, target := v.level }) s)

/-- The device-local settings of the image (R551 step 5.1): lanes, Ethernet ports and flows with their group joins, references
and PTP, redundancy, safety, control, the mode wait, the lock and the level. -/
def restoreLocal (v : SavedState) (s : State) : State :=
  let old : State := { State.reset with lane := v.lane, tim := v.tim }
  let s := restoreControl v (restoreRefs v old (restoreFlows v (restorePorts v (restoreLanes old s))))
  onHost (fun h => { h with locked := v.locked }) { s with halWaitMs := v.halWaitMs }

/-- Compare units and pulse outputs of the image (R551 step 5.8, R446): targets that passed during the sleep are missed. -/
def restoreTime (v : SavedState) (s : State) : State :=
  let s := onTim (fun m => { m with
    compares := v.tim.compares
    pulses := tmap v.tim.pulses (fun _ (p : Pulse) => { p with
      active := false, due := false, slew := none
      next := if p.period = 0 then p.start else p.start + (s.clock.now - p.start + p.period - 1) / p.period * p.period }) }) s
  (v.tim.compares.filter (fun p => p.2.state == 1)).foldl (fun s p =>
    if compareDist p.2.target s.clock.now ≤ 0 then missTargets p.1 0 s else s) s

/-- The registers of the frame store, the planes and the cue processor that the image holds. -/
def restoreStore (v : SavedState) (s : State) : State :=
  let s := onFst (fun f => { f with pageIdle := v.pageIdle, srIdleUs := v.srIdleUs, periodS := v.periodS }) s
  let s := onTim (fun m => { m with planes := [] }) (onXpt (fun x => { x with
    tps := v.xpt.tps, landEvt := v.xpt.landEvt, lateMs := v.xpt.lateMs }) s)
  onCue (fun q => { q with stallTicks := v.stallTicks }) s
/-- The destinations of the image, their locks apart. -/
def restoreOpen (v : SavedState) (s : State) : State :=
  onXpt (fun x => { x with dst := tmap v.xpt.dst (fun _ d => { d with lock := 0, owner := 0 }) }) s
/-- The destinations of the image with their locks. -/
def restoreLocks (v : SavedState) (s : State) : State := onXpt (fun x => { x with dst := v.xpt.dst }) s

/-- Apply the state image (R551 step 5): in its order, with each timing plane started afresh.
Log 111 (DESIGN CHOICE, safe).
Log 115 (DEDUCED, safe). -/
def applyImage (v : SavedState) (s : State) : State :=
  let s := adoptFlow v.flow.src v.flow.dst v.flow.groups v.flow.tps (restoreStore v (restoreLocal v s))
  let s := adoptComps (tmap v.cmp.comps (fun _ c => { c with sealed_ := [] })) (restoreOpen v s)
  restoreTime v (restoreLocks v
    (adoptAudio v.aud.outs v.aud.follows v.aud.ports v.aud.streams v.aud.housePlane v.aud.zcMs s))

/-- STATE_IMAGE_RESTORE (R551 steps 5 and 6): the state image is applied and calibration can complete.
Log 111 (DESIGN CHOICE, safe).
Log 115 (DEDUCED, safe). -/
def execStateImageRestore (t : Nat) (s : State) : Host.Outcome State Fault Refusal :=
  let s := advance t s
  .next (match s.image with
    | some v =>
      if s.mode = .calibrate && s.cal.scrub && s.cal.memory && !s.cal.restored then
        calProgress (onCal (fun k => { k with restored := true }) { applyImage v s with image := none })
      else s
    | none => s)

end Sys2Proof.Machine
end

