-- ==== Sys2Proof/Machine/Recorder.lean ====
section
/-! DEFINITION. The event recorder (R506 to R513): rate limits, the two areas, and the commands that read them. -/

namespace Sys2Proof.Machine

/-- The event codes that the tables of Table 15.8 define, with their severity. -/
def eventCodes : List (Nat × Nat) :=
  [(0x0010, 1), (0x0020, 2), (0x0021, 2), (0x0022, 2), (0x0023, 2), (0x0024, 1), (0x0025, 1),
    (0x0026, 1)] ++
  [(0x1001, 2), (0x1002, 0), (0x1003, 2), (0x1004, 1), (0x1005, 2), (0x1006, 1)] ++
  [(0x2001, 0), (0x2002, 2), (0x2003, 1), (0x2004, 1), (0x2005, 1), (0x2010, 2), (0x2011, 1),
    (0x2012, 2), (0x2013, 3), (0x2020, 0), (0x2021, 2), (0x2030, 1), (0x2031, 2), (0x2040, 1), (0x2041, 1),
    (0x2042, 2)] ++
  [(0x3001, 0), (0x3002, 1), (0x3003, 2), (0x3010, 2), (0x3011, 4), (0x3020, 1), (0x3030, 2),
    (0x3040, 1)] ++
  [(0x4002, 4), (0x4003, 4), (0x4010, 0), (0x4011, 3), (0x4012, 1), (0x4013, 1), (0x4020, 2),
    (0x4021, 3), (0x4022, 4), (0x4030, 0), (0x4031, 2)] ++
  [(0x5001, 1), (0x5002, 1), (0x5010, 0), (0x5011, 2), (0x5020, 2), (0x5021, 2), (0x5022, 1),
    (0x5030, 3), (0x5031, 2), (0x5032, 2), (0x5040, 1), (0x5050, 1), (0x5051, 5), (0x5052, 4), (0x5053, 3)] ++
  [(0x6001, 1), (0x6002, 2), (0x6010, 2), (0x6011, 3), (0x6020, 1), (0x6030, 1), (0x6040, 2)] ++
  [(0x7001, 2), (0x7002, 1), (0x7003, 1), (0x7010, 2), (0x7011, 0), (0x7012, 3), (0x7013, 1),
    (0x7020, 2), (0x7021, 2), (0x7022, 1), (0x7041, 2)] ++
  [(0x8001, 1), (0x8002, 1), (0x8003, 2), (0x8010, 2), (0x8020, 1), (0x8022, 2), (0x8030, 1),
    (0x8040, 2), (0x8041, 0)] ++
  [(0x9110, 0), (0x9111, 1), (0x9112, 2), (0x9113, 2), (0x9114, 2)] ++
  [(0xA001, 2), (0xA002, 3), (0xA010, 1), (0xA011, 3), (0xA020, 1), (0xA021, 1), (0xA022, 1),
    (0xA030, 3), (0xA031, 1), (0xA040, 1)] ++
  [(0xB001, 5), (0xB002, 1), (0xB010, 5), (0xB011, 5), (0xB012, 5), (0xB013, 5), (0xB014, 5),
    (0xB020, 4), (0xB030, 3), (0xB031, 3), (0xB032, 4), (0xB033, 4), (0xB040, 2), (0xB050, 4)] ++
  [(0xC001, 0), (0xC010, 2), (0xC011, 2), (0xC012, 1), (0xC013, 3), (0xC014, 1), (0xC020, 4),
    (0xC021, 1), (0xC022, 1), (0xC023, 1), (0xC024, 2), (0xC025, 2), (0xC031, 4)]

/-- The severity of a defined code. -/
def eventSeverity (code : Nat) : Option Nat := (eventCodes.find? (fun p => p.1 == code)).map (·.2)

/-- Words of the circulating area (R508). -/
def circWords : Nat := 49152

/-- The token bucket of a code, refilled to the present instant (R511). It starts full.
Log 24 (DEDUCED, safe). -/
def refillBucket (s : State) (code : Nat) : Bucket :=
  let b := tget {} s.evt.buckets code
  { b with credit := min (b.burst * 1000000000) (b.credit + b.rate * (s.clock.clk - b.stamp)), stamp := s.clock.clk }

/-- The words of a record (Table 15.7). -/
def recordWords (e : Ev) (seq suppressed : Nat) : List Word :=
  [w32 ((4 + e.payload.length) * 0x1000000 + e.sev * 0x100000 + e.cls * 0x10000 + e.code), w32 seq]
    ++ words64 e.at_ ++ [w32 (e.path * 0x10000 + min suppressed 8191 * 8 + e.mode)] ++ e.payload

/-- The recorder word of index `i` of a record that begins at `pos`; the circulating area wraps (R508). -/
def wordAt (pos i : Nat) : Nat := if pos < 16384 then pos + i else 16384 + (pos - 16384 + i) % circWords

/-- Store one recorder word; a word of zero is not listed. -/
def putWord (r : Recorder) (i : Nat) (w : Word) : Recorder :=
  { r with words := if w = 0#32 then tdel r.words i else tset r.words i w, bad := r.bad.filter (fun x => x != i) }

/-- Store the words of a record from a position. -/
def putWords (pos : Nat) : Nat → List Word → Recorder → Recorder
  | _, [], r => r
  | i, w :: ws, r => putWords pos (i + 1) ws (putWord r (wordAt pos i) w)

/-- Drop the oldest records of the circulating area until `n` words fit (R508). -/
def makeRoom (n : Nat) : List Held → List Held
  | [] => []
  | h :: r => if (h :: r).foldl (fun a x => a + x.len) 0 + n ≤ circWords then h :: r else makeRoom n r

/-- Write an admitted record into the first area while it fits, then into the circulating area (R508, R510). -/
def placeRecord (ws : List Word) (fails : List Nat) (r : Recorder) : Recorder :=
  let n := ws.length
  let inFirst := !r.firstFull && decide (r.firstNext + n ≤ 16384)
  let pos := if inFirst then r.firstNext else r.circNext
  let held : Held := ⟨r.nextSeq, pos, n⟩
  let r1 := putWords pos 0 ws r
  let r2 := { r1 with
    nextSeq := (r.nextSeq + 1) % 0x100000000
    written := true
    bad := r1.bad ++ (fails.filter (fun i => decide (i < n))).map (wordAt pos)
    cnt := bump r1.cnt 2 }
  if inFirst then { r2 with firstNext := r.firstNext + n, first := r.first ++ [held] }
  else
    let kept := makeRoom n r.circ
    { r2 with
      firstFull := true
      circNext := wordAt pos n
      circ := kept ++ [held]
      generation := if kept.length < r.circ.length then (r.generation + 1) % 0x100000000 else r.generation }

/-- Space has returned in the pending queue: what was lost is reported (R509). -/
def reportLost (s : State) : State :=
  if s.evt.lost = 0 then s
  else
    let n := s.evt.lost
    raise 2 11 0xB040 0 [w32 n] (onEvt (fun r => { r with lost := 0 }) s)

/-- EVENT_RECORD_WRITE (R509, R511): the oldest pending happening takes a token and is written, or is suppressed.
`fails` lists the words of the record whose stored parity will fail on a read (R510). -/
def execEventRecordWrite (t : Nat) (fails : List Nat) (s : State) : Host.Outcome State Fault Refusal :=
  let s := advance t s
  .next (match s.evt.pending with
    | [] => s
    | e :: rest =>
      let b := refillBucket s e.code
      let s := onEvt (fun r => { r with pending := rest }) s
      let s :=
        if b.rate = 0 || b.credit < 1000000000 then
          onEvt (fun r => { r with
            cnt := bump r.cnt 0
            buckets := tset r.buckets e.code { b with suppressed := b.suppressed + 1 } }) s
        else
          onEvt (fun r => placeRecord (recordWords e r.nextSeq b.suppressed) fails { r with
            buckets := tset r.buckets e.code { b with credit := b.credit - 1000000000, suppressed := 0 } }) s
      reportLost s)

/-- A recorder word as a read returns it (R510). -/
def readRecorderWord (r : Recorder) (i : Nat) : Word := if r.bad.contains i then 0xFFFFFFFF#32 else tget 0#32 r.words i

/-- The words of a held record as a read returns them. -/
def heldWords (r : Recorder) (h : Held) : List Word := (List.range h.len).map (fun i => readRecorderWord r (wordAt h.pos i))

/-- How many words of a record fail their parity. -/
def heldBad (r : Recorder) (h : Held) : Nat := ((List.range h.len).filter (fun i => r.bad.contains (wordAt h.pos i))).length

/-- The records of the areas named, in sequence order (Table 15.9). -/
def areaRecords (r : Recorder) (area : Nat) : List Held :=
  if area = 0 then r.first else if area = 1 then r.circ else r.first ++ r.circ

/-- Records from the front of a list, at most `count` and at most `room` bytes. -/
def takeRecords : Nat → Nat → List Held → List Held
  | _, _, [] => []
  | 0, _, _ => []
  | count + 1, room, h :: r => if room < 4 * h.len then [] else h :: takeRecords count (room - 4 * h.len) r

/-- EVT_READ: the area, the count and the reserved byte (Table 15.10). -/
def refuseEvtRead : Refuse := fun _ c =>
  firstRefusal [needLen 8 c,
    refuseIf (decide (2 < u8 c.params 0) || u8 c.params 1 != 0 || u16 c.params 2 == 0 || decide (4096 < u16 c.params 2))
      .badParam]

/-- EVT_READ (R512, Table 15.9). Flag bit 0 says that the start is not held, though newer records are.
Log 106 (DEDUCED, safe). -/
def effEvtRead : Effect := fun s c =>
  let r := s.evt
  let start := u32 c.params 4
  let all := r.first ++ r.circ
  let sel := takeRecords (u16 c.params 2) 262144 ((areaRecords r (u8 c.params 0)).filter (fun h => decide (start ≤ h.seq)))
  let lost := r.written && decide (start ≤ evtNewest s) && !all.any (fun h => h.seq == start)
  let reply := beBytes 4 r.generation ++ beBytes 4 ((r.first.getLast?.map (·.seq)).getD 0)
    ++ beBytes 4 ((all.head?.map (·.seq)).getD 0) ++ beBytes 4 (evtNewest s)
    ++ beBytes 2 sel.length ++ beBytes 2 (bit lost)
    ++ sel.flatMap (fun h => (heldWords r h).flatMap wordBytes)
  (onEvt (fun r => { r with cnt := bumpBy r.cnt 3 (sel.foldl (fun a h => a + heldBad r h) 0) }) s, some (.ok, reply))
/-- EVT_READ (R512). -/
def execEvtRead (t : Nat) (c : HostCmd) (s : State) : Host.Outcome State Fault Refusal :=
  .next (runCommand .evtRead refuseEvtRead effEvtRead t c s)

/-- EVT_INFO takes no parameters. -/
def refuseEvtInfo : Refuse := fun _ c => needLen 0 c
/-- EVT_INFO answers the recorder's registers (Table 15.9). -/
def effEvtInfo : Effect := fun s _ =>
  (s, some (.ok, wordBytes (regEvtState s) ++ beBytes 4 s.evt.generation ++ beBytes 4 (evtNewest s)
    ++ beBytes 4 (evtOldest s) ++ (List.range 4).flatMap (fun i => wordBytes (tget 0#32 s.evt.cnt i))))
/-- EVT_INFO (R514). -/
def execEvtInfo (t : Nat) (c : HostCmd) (s : State) : Host.Outcome State Fault Refusal :=
  .next (runCommand .evtInfo refuseEvtInfo effEvtInfo t c s)

/-- EVT_RATE_SET: the ranges of R511 and a defined code (Table 15.10). -/
def refuseEvtRateSet : Refuse := fun _ c =>
  let burst := u8 c.params 2
  let rate := u16 c.params 4
  firstRefusal [needLen 8 c,
    refuseIf (u8 c.params 3 != 0 || u16 c.params 6 != 0 || burst == 0 || decide (1000 < rate)) .badParam,
    match eventSeverity (u16 c.params 0) with
    | none => some (.badParam, [])
    | some sev => refuseIf (decide (4 ≤ sev) && (decide (rate < 10) || decide (burst < 20))) .badParam]
/-- EVT_RATE_SET sets the rate and burst of a code (R511). -/
def effEvtRateSet : Effect := fun s c =>
  let code := u16 c.params 0
  let burst := u8 c.params 2
  let b := refillBucket s code
  (onEvt (fun r => { r with
    buckets := tset r.buckets code { b with rate := u16 c.params 4, burst := burst
                                            credit := min b.credit (burst * 1000000000) } }) s, some (.ok, []))
/-- EVT_RATE_SET (R511). -/
def execEvtRateSet (t : Nat) (c : HostCmd) (s : State) : Host.Outcome State Fault Refusal :=
  .next (runCommand .evtRateSet refuseEvtRateSet effEvtRateSet t c s)

end Sys2Proof.Machine
end

