-- ==== Sys2Proof/Machine/RegMap.lean ====
section
/-! DEFINITION. The register map: the registers of every chapter, where they stand and what they read as. -/

namespace Sys2Proof.Machine

/-- The registers by name. -/
inductive RegName where
  | mode | modeHalWait | hostAddr | hostCfg | hostGroupV4 | hostKeyState | hostCnt
  | laneRxCfg | laneRxStatus | laneRxPeer | laneRxCnt | laneTxCfg | laneTxTag
  | flowSrcCfg | flowSrcStatus | flowSrcSkew | flowSrcSeq | flowSrcCnt | flowDstStatus | flowDstPark | flowDstSeq |
  flowTpCfg
  | xptDstSel | xptDstOwner | xptDstLand | xptTakeCtl | xptQueueState | xptTick | xptCnt | xptTpCfg | xptTpPhase |
  xptTpCount
  | fstZoneCfg | fstZoneRows | fstZoneFree | fstZoneRun | fstSchedCfg | fstScrubCfg | fstRetainMask | fstRetainStatus
  | fstBankState | fstPcStatus | fstPcErr | fstCnt
  | cmpState | cmpLand | cmpCost | cmpCnt | cmpLayerState | cmpLayerSize | cmpLayerPos | cmpLayerAlpha | cmpProtCfg |
  cmpProtStatus | cmpProtFrame | cmpProtRectPos | cmpProtRectSize | cmpProtGolden | cmpProtSigRef | cmpProtSigOut |
  cmpProtCnt
  | audCfg | audStatus | audXp | audFollow | audPortCfg | audPortStatus | audPortPpm | audPortCnt | audStreamCfg |
  audStreamStatus | audCnt
  | ethPortCfg | ethPortStatus | ethMaxFrame | ethPortVlan | ethPortPol | ethPortCnt | ethPortCntHi | ethMode |
  ethTsOverflow | ethIp4Addr | ethIp4Net | ethIp4Gw | ethIp4Ll | ethIp6Addr | ethIp6Net | ethIp6Gw | ethRxFlowCfg |
  ethRxFlowStatus | ethRxFlowCnt | ethTxFlowCfg | ethTxFlowCnt
  | timStatus | timErr | timNowSecHi | timNowSec | timNowNs | timCfg | timPtpCfg | timPtpOffset | timPtpDelay |
  timRefCfg | timRefStatus | timRefFreq | timSelCfg | timTpAlign | timTpState | timCmpCfg | timCmpTargetHi |
  timCmpTarget | timCmpPeriodHi | timCmpPeriod | timPulseCfg | timPulseWidth | timPulsePeriodHi | timPulsePeriod |
  timPulseAlign | timCnt
  | ctlProcState | ctlBusCnt | ctlCompatCfg | cueCfg | cueStore | cueCnt | cueProg | cueProgCrc | cueInst |
  cueInstRun | cueInstSession
  | redStatus | redPeer | redPeerBuild | redLeaseGen | redLeaseLeft | redCfg | redLeaseCfg | redDivMap | redCnt
  | safStatus | safReact | safCfg | safEscCnt | evtState | evtGeneration | evtNewest | evtOldest | evtHead | evtCnt |
  evtRate | evtArea
  | pwrSeqStatus | pwrBootStatus | pwrStartTime | pwrStartCfg | pwrState | pwrWake | pwrAlarm | pwrWakeTime | compat
deriving DecidableEq, Repr

/-- A row of the register map: first address, stride and count of its instances, and the stride and count of the registers
that each instance holds. -/
structure RegRow where
  name   : RegName
  base   : Nat
  stride : Nat := 4
  count  : Nat := 1
  step   : Nat := 4
  each   : Nat := 1
deriving DecidableEq, Repr

/-- The registers of the General chapter. -/
def regsGeneral : List RegRow :=
  [ ⟨.mode, 0x00000010, 4, 1, 4, 1⟩
  , ⟨.modeHalWait, 0x00000014, 4, 1, 4, 1⟩
  , ⟨.hostAddr, 0x00000020, 4, 1, 4, 1⟩
  , ⟨.hostCfg, 0x00000024, 4, 1, 4, 1⟩
  , ⟨.hostGroupV4, 0x00000028, 4, 1, 4, 1⟩
  , ⟨.hostKeyState, 0x0000002C, 4, 1, 4, 1⟩
  , ⟨.hostCnt, 0x00000040, 4, 15, 4, 1⟩ ]

/-- The registers of the Lane chapter. -/
def regsLane : List RegRow :=
  [ ⟨.laneRxCfg, 0x01000000, 0x100, 132, 4, 1⟩
  , ⟨.laneRxStatus, 0x01000004, 0x100, 132, 4, 1⟩
  , ⟨.laneRxPeer, 0x01000008, 0x100, 132, 4, 1⟩
  , ⟨.laneRxCnt, 0x01000040, 0x100, 132, 4, 10⟩
  , ⟨.laneTxCfg, 0x01010000, 0x100, 132, 4, 1⟩
  , ⟨.laneTxTag, 0x01010004, 0x100, 132, 4, 1⟩ ]

/-- The registers of the Flow chapter. -/
def regsFlow : List RegRow :=
  [ ⟨.flowSrcCfg, 0x02000000, 0x40, 1024, 4, 1⟩
  , ⟨.flowSrcStatus, 0x02000004, 0x40, 1024, 4, 1⟩
  , ⟨.flowSrcSkew, 0x02000008, 0x40, 1024, 4, 1⟩
  , ⟨.flowSrcSeq, 0x0200000C, 0x40, 1024, 4, 1⟩
  , ⟨.flowSrcCnt, 0x02000010, 0x40, 1024, 4, 10⟩
  , ⟨.flowDstStatus, 0x02010000, 0x20, 1536, 4, 1⟩
  , ⟨.flowDstPark, 0x02010004, 0x20, 1536, 4, 1⟩
  , ⟨.flowDstSeq, 0x02010008, 0x20, 1536, 4, 1⟩
  , ⟨.flowTpCfg, 0x02030000, 4, 8, 4, 1⟩ ]

/-- The registers of the Xpt chapter. -/
def regsXpt : List RegRow :=
  [ ⟨.xptDstSel, 0x03000000, 0x10, 1536, 4, 1⟩
  , ⟨.xptDstOwner, 0x03000004, 0x10, 1536, 4, 1⟩
  , ⟨.xptDstLand, 0x03000008, 0x10, 1536, 4, 1⟩
  , ⟨.xptTakeCtl, 0x03010000, 4, 1, 4, 1⟩
  , ⟨.xptQueueState, 0x03010004, 4, 1, 4, 1⟩
  , ⟨.xptTick, 0x03010008, 4, 1, 4, 1⟩
  , ⟨.xptCnt, 0x03010040, 4, 10, 4, 1⟩
  , ⟨.xptTpCfg, 0x03020000, 0x10, 8, 4, 1⟩
  , ⟨.xptTpPhase, 0x03020004, 0x10, 8, 4, 1⟩
  , ⟨.xptTpCount, 0x03020008, 0x10, 8, 4, 1⟩ ]

/-- The registers of the Fst chapter. -/
def regsFst : List RegRow :=
  [ ⟨.fstZoneCfg, 0x04000000, 0x10, 8, 4, 1⟩
  , ⟨.fstZoneRows, 0x04000004, 0x10, 8, 4, 1⟩
  , ⟨.fstZoneFree, 0x04000008, 0x10, 8, 4, 1⟩
  , ⟨.fstZoneRun, 0x0400000C, 0x10, 8, 4, 1⟩
  , ⟨.fstSchedCfg, 0x04010000, 4, 1, 4, 1⟩
  , ⟨.fstScrubCfg, 0x04010004, 4, 1, 4, 1⟩
  , ⟨.fstRetainMask, 0x04010010, 4, 4, 4, 1⟩
  , ⟨.fstRetainStatus, 0x04010020, 4, 1, 4, 1⟩
  , ⟨.fstBankState, 0x04020000, 4, 128, 4, 1⟩
  , ⟨.fstPcStatus, 0x04030000, 0x10, 128, 4, 1⟩
  , ⟨.fstPcErr, 0x04030004, 0x10, 128, 4, 1⟩
  , ⟨.fstCnt, 0x04040000, 4, 8, 4, 1⟩ ]

/-- The registers of the Cmp chapter. -/
def regsCmp : List RegRow :=
  [ ⟨.cmpState, 0x05000000, 0x100, 64, 4, 1⟩
  , ⟨.cmpLand, 0x05000004, 0x100, 64, 4, 1⟩
  , ⟨.cmpCost, 0x05000008, 0x100, 64, 4, 1⟩
  , ⟨.cmpCnt, 0x05000040, 0x100, 64, 4, 8⟩
  , ⟨.cmpLayerState, 0x05010000, 0x10, 512, 4, 1⟩
  , ⟨.cmpLayerSize, 0x05010004, 0x10, 512, 4, 1⟩
  , ⟨.cmpLayerPos, 0x05010008, 0x10, 512, 4, 1⟩
  , ⟨.cmpLayerAlpha, 0x0501000C, 0x10, 512, 4, 1⟩
  , ⟨.cmpProtCfg, 0x05020000, 0x80, 64, 4, 1⟩
  , ⟨.cmpProtStatus, 0x05020004, 0x80, 64, 4, 1⟩
  , ⟨.cmpProtFrame, 0x05020008, 0x80, 64, 4, 1⟩
  , ⟨.cmpProtRectPos, 0x05020010, 0x80, 64, 8, 4⟩
  , ⟨.cmpProtRectSize, 0x05020014, 0x80, 64, 8, 4⟩
  , ⟨.cmpProtGolden, 0x05020030, 0x80, 64, 4, 4⟩
  , ⟨.cmpProtSigRef, 0x05020040, 0x80, 64, 4, 4⟩
  , ⟨.cmpProtSigOut, 0x05020050, 0x80, 64, 4, 4⟩
  , ⟨.cmpProtCnt, 0x05020060, 0x80, 64, 4, 4⟩ ]

/-- The registers of the Aud chapter. -/
def regsAud : List RegRow :=
  [ ⟨.audCfg, 0x06000000, 4, 1, 4, 1⟩
  , ⟨.audStatus, 0x06000004, 4, 1, 4, 1⟩
  , ⟨.audXp, 0x06010000, 4, 24608, 4, 1⟩
  , ⟨.audFollow, 0x06030000, 4, 1024, 4, 1⟩
  , ⟨.audPortCfg, 0x06040000, 0x20, 16, 4, 1⟩
  , ⟨.audPortStatus, 0x06040004, 0x20, 16, 4, 1⟩
  , ⟨.audPortPpm, 0x06040008, 0x20, 16, 4, 1⟩
  , ⟨.audPortCnt, 0x06040010, 0x20, 16, 4, 4⟩
  , ⟨.audStreamCfg, 0x06050000, 0x10, 128, 4, 1⟩
  , ⟨.audStreamStatus, 0x06050004, 0x10, 128, 4, 1⟩
  , ⟨.audCnt, 0x06060000, 4, 8, 4, 1⟩ ]

/-- The registers of the Eth chapter. -/
def regsEth : List RegRow :=
  [ ⟨.ethPortCfg, 0x07000000, 0x200, 2, 4, 1⟩
  , ⟨.ethPortStatus, 0x07000004, 0x200, 2, 4, 1⟩
  , ⟨.ethMaxFrame, 0x07000008, 0x200, 2, 4, 1⟩
  , ⟨.ethPortVlan, 0x0700000C, 0x200, 2, 4, 1⟩
  , ⟨.ethPortPol, 0x07000010, 0x200, 2, 4, 1⟩
  , ⟨.ethPortCnt, 0x07000100, 0x200, 2, 8, 24⟩
  , ⟨.ethPortCntHi, 0x07000104, 0x200, 2, 8, 24⟩
  , ⟨.ethMode, 0x07010000, 4, 1, 4, 1⟩
  , ⟨.ethTsOverflow, 0x07010010, 4, 1, 4, 1⟩
  , ⟨.ethIp4Addr, 0x07020000, 0x40, 2, 4, 1⟩
  , ⟨.ethIp4Net, 0x07020004, 0x40, 2, 4, 1⟩
  , ⟨.ethIp4Gw, 0x07020008, 0x40, 2, 4, 1⟩
  , ⟨.ethIp4Ll, 0x0702000C, 0x40, 2, 4, 1⟩
  , ⟨.ethIp6Addr, 0x07020010, 0x40, 2, 4, 4⟩
  , ⟨.ethIp6Net, 0x07020020, 0x40, 2, 4, 1⟩
  , ⟨.ethIp6Gw, 0x07020024, 0x40, 2, 4, 4⟩
  , ⟨.ethRxFlowCfg, 0x07030000, 0x40, 512, 4, 1⟩
  , ⟨.ethRxFlowStatus, 0x07030004, 0x40, 512, 4, 1⟩
  , ⟨.ethRxFlowCnt, 0x07030010, 0x40, 512, 4, 8⟩
  , ⟨.ethTxFlowCfg, 0x07040000, 0x20, 512, 4, 1⟩
  , ⟨.ethTxFlowCnt, 0x07040010, 0x20, 512, 4, 4⟩ ]

/-- The registers of the Tim chapter. -/
def regsTim : List RegRow :=
  [ ⟨.timStatus, 0x08000000, 4, 1, 4, 1⟩
  , ⟨.timErr, 0x08000004, 4, 1, 4, 1⟩
  , ⟨.timNowSecHi, 0x08000008, 4, 1, 4, 1⟩
  , ⟨.timNowSec, 0x0800000C, 4, 1, 4, 1⟩
  , ⟨.timNowNs, 0x08000010, 4, 1, 4, 1⟩
  , ⟨.timCfg, 0x08000020, 4, 1, 4, 1⟩
  , ⟨.timPtpCfg, 0x08010000, 4, 1, 4, 1⟩
  , ⟨.timPtpOffset, 0x08010004, 4, 1, 4, 1⟩
  , ⟨.timPtpDelay, 0x08010008, 4, 1, 4, 1⟩
  , ⟨.timRefCfg, 0x08020000, 0x10, 4, 4, 1⟩
  , ⟨.timRefStatus, 0x08020004, 0x10, 4, 4, 1⟩
  , ⟨.timRefFreq, 0x08020008, 0x10, 4, 4, 1⟩
  , ⟨.timSelCfg, 0x08020040, 4, 1, 4, 1⟩
  , ⟨.timTpAlign, 0x08030000, 0x10, 8, 4, 1⟩
  , ⟨.timTpState, 0x08030004, 0x10, 8, 4, 1⟩
  , ⟨.timCmpCfg, 0x08040000, 0x20, 32, 4, 1⟩
  , ⟨.timCmpTargetHi, 0x08040004, 0x20, 32, 4, 1⟩
  , ⟨.timCmpTarget, 0x08040008, 0x20, 32, 4, 1⟩
  , ⟨.timCmpPeriodHi, 0x0804000C, 0x20, 32, 4, 1⟩
  , ⟨.timCmpPeriod, 0x08040010, 0x20, 32, 4, 1⟩
  , ⟨.timPulseCfg, 0x08050000, 0x20, 8, 4, 1⟩
  , ⟨.timPulseWidth, 0x08050004, 0x20, 8, 4, 1⟩
  , ⟨.timPulsePeriodHi, 0x08050008, 0x20, 8, 4, 1⟩
  , ⟨.timPulsePeriod, 0x0805000C, 0x20, 8, 4, 1⟩
  , ⟨.timPulseAlign, 0x08050010, 0x20, 8, 4, 1⟩
  , ⟨.timCnt, 0x08060000, 4, 8, 4, 1⟩ ]

/-- The registers of the Ctl chapter. -/
def regsCtl : List RegRow :=
  [ ⟨.ctlProcState, 0x09000000, 4, 7, 4, 1⟩
  , ⟨.ctlBusCnt, 0x09010000, 4, 8, 4, 1⟩
  , ⟨.ctlCompatCfg, 0x09010100, 4, 1, 4, 1⟩
  , ⟨.cueCfg, 0x09020000, 4, 1, 4, 1⟩
  , ⟨.cueStore, 0x09020004, 4, 1, 4, 1⟩
  , ⟨.cueCnt, 0x09020040, 4, 8, 4, 1⟩
  , ⟨.cueProg, 0x09021000, 8, 256, 4, 1⟩
  , ⟨.cueProgCrc, 0x09021004, 8, 256, 4, 1⟩
  , ⟨.cueInst, 0x09022000, 0x10, 64, 4, 1⟩
  , ⟨.cueInstRun, 0x09022004, 0x10, 64, 4, 1⟩
  , ⟨.cueInstSession, 0x09022008, 0x10, 64, 4, 1⟩ ]

/-- The registers of the Red chapter. -/
def regsRed : List RegRow :=
  [ ⟨.redStatus, 0x0A000000, 4, 1, 4, 1⟩
  , ⟨.redPeer, 0x0A000004, 4, 1, 4, 1⟩
  , ⟨.redPeerBuild, 0x0A000008, 4, 1, 4, 1⟩
  , ⟨.redLeaseGen, 0x0A00000C, 4, 1, 4, 1⟩
  , ⟨.redLeaseLeft, 0x0A000010, 4, 1, 4, 1⟩
  , ⟨.redCfg, 0x0A010000, 4, 1, 4, 1⟩
  , ⟨.redLeaseCfg, 0x0A010004, 4, 1, 4, 1⟩
  , ⟨.redDivMap, 0x0A020000, 4, 34, 4, 1⟩
  , ⟨.redCnt, 0x0A030000, 4, 12, 4, 1⟩ ]

/-- The registers of the Saf chapter. -/
def regsSaf : List RegRow :=
  [ ⟨.safStatus, 0x0B000000, 4, 1, 4, 1⟩
  , ⟨.safReact, 0x0B000004, 4, 1, 4, 1⟩
  , ⟨.safCfg, 0x0B000010, 4, 1, 4, 1⟩
  , ⟨.safEscCnt, 0x0B000040, 4, 8, 4, 1⟩
  , ⟨.evtState, 0x0B100000, 4, 1, 4, 1⟩
  , ⟨.evtGeneration, 0x0B100004, 4, 1, 4, 1⟩
  , ⟨.evtNewest, 0x0B100008, 4, 1, 4, 1⟩
  , ⟨.evtOldest, 0x0B10000C, 4, 1, 4, 1⟩
  , ⟨.evtHead, 0x0B100010, 4, 1, 4, 1⟩
  , ⟨.evtCnt, 0x0B100040, 4, 4, 4, 1⟩
  , ⟨.evtRate, 0x0B120000, 4, 53248, 4, 1⟩
  , ⟨.evtArea, 0x0B200000, 4, 65536, 4, 1⟩ ]

/-- The registers of the Pwr chapter. -/
def regsPwr : List RegRow :=
  [ ⟨.pwrSeqStatus, 0x0C000100, 4, 1, 4, 1⟩
  , ⟨.pwrBootStatus, 0x0C000104, 4, 1, 4, 1⟩
  , ⟨.pwrStartTime, 0x0C000108, 4, 1, 4, 1⟩
  , ⟨.pwrStartCfg, 0x0C00010C, 4, 1, 4, 1⟩
  , ⟨.pwrState, 0x0C000200, 4, 1, 4, 1⟩
  , ⟨.pwrWake, 0x0C000204, 4, 1, 4, 1⟩
  , ⟨.pwrAlarm, 0x0C000208, 4, 1, 4, 1⟩
  , ⟨.pwrWakeTime, 0x0C00020C, 4, 1, 4, 1⟩
  , ⟨.compat, 0x0F000000, 0x100, 528, 4, 1⟩ ]

/-- The register map (R12, R13 and the register tables of every chapter). -/
def regRows : List RegRow := regsGeneral ++ regsLane ++ regsFlow ++ regsXpt ++ regsFst ++ regsCmp ++ regsAud ++ regsEth ++ regsTim ++ regsCtl ++ regsRed ++ regsSaf ++ regsPwr

/-- The instance and the register within it that an address names in a row, if it names one. -/
def RegRow.at_ (r : RegRow) (a : Nat) : Option (Nat × Nat) :=
  if a < r.base then none
  else
    let i := (a - r.base) / r.stride
    let o := (a - r.base) % r.stride
    if i < r.count && o % r.step == 0 && decide (o / r.step < r.each) then some (i, o / r.step) else none

/-- The first row of a list that holds an address, with the instance and the register within it. -/
def findReg (a : Nat) : List RegRow → Option (RegName × Nat × Nat)
  | [] => none
  | r :: rs => match r.at_ a with
    | some (i, j) => some (r.name, i, j)
    | none => findReg a rs

/-- A slot of Table 16.5 (R536). -/
def compatSlot (n : Nat) : Bool := decide (n ≤ 1) || (decide (16 ≤ n) && decide (n ≤ 527))

/-- The register that an address decodes to now: the compatibility window only while it is enabled, and EVT_RATE only for
codes that are defined (R11, R536, chapter 15). -/
def decodeReg (s : State) (a : Nat) : Option (RegName × Nat × Nat) :=
  match findReg a regRows with
  | some (.compat, i, j) => if s.ctl.compatEn && compatSlot i then some (.compat, i, j) else none
  | some (.evtRate, i, j) => if (eventSeverity i).isSome then some (.evtRate, i, j) else none
  | r => r

/-- The block whose register file holds a register: the registers of its lanes and of its cells (Table 0.6, Table 1.4).
Log 27 (DEDUCED, safe). -/
def regBlock : RegName → Nat → Option Nat
  | .laneRxCfg, k | .laneRxStatus, k | .laneRxPeer, k | .laneRxCnt, k | .laneTxCfg, k | .laneTxTag, k =>
    if k < 128 then some (k / 2) else none
  | .flowSrcCfg, n | .flowSrcStatus, n | .flowSrcSkew, n | .flowSrcSeq, n | .flowSrcCnt, n | .flowDstStatus, n
  | .flowDstPark, n | .flowDstSeq, n | .xptDstSel, n | .xptDstOwner, n | .xptDstLand, n =>
    if n < 1024 then some (n / 16) else none
  | _, _ => none

/-- What a slot of the compatibility window reads as (Table 16.5). -/
def compatValue (s : State) (n : Nat) : Word :=
  let base := 256 * s.ctl.compatBank
  if n = 0 then 0x32100810#32
  else if n = 1 then regMode s
  else if n < 272 then
    let d := base + n - 16
    fields [(0, 16, (xdst s d).selected.getD 0xFFFF), (16, 1, bit ((xdst s d).lock != 0)), (17, 1, bit ((dstOf s d).shown == 2))]
  else
    let x := srcOf s (base + n - 272)
    fields [(0, 3, x.phase), (8, 8, x.format)]

/-- The link-local address in use on a port (ETH_IP4_LL).
Log 81 (DEDUCED, safe). -/
def linkLocalInUse (s : State) (p : Nat) : Nat :=
  if (tget {} s.aon.ip p).ip4 = 0 && (probeOf s p 0).state = 1 then (probeOf s p 0).addr else 0

/-- Word `j` of a 128-bit address, most significant word first. -/
def word128 (n j : Nat) : Word := w32 (n / 2 ^ (32 * (3 - j)))

/-- An instance's counter. -/
def cntWord (m : Counters) (j : Nat) : Word := tget 0#32 m j

/-- What register `j` of instance `i` of a register reads as. The latching registers read for master `m` (R418, R452). -/
def regValue (s : State) (m : Nat) (r : RegName) (i j : Nat) : Word :=
  match r with
  | .mode => regMode s
  | .modeHalWait => regHalWait s
  | .hostAddr => regHostAddr s
  | .hostCfg => regHostCfg s
  | .hostGroupV4 => s.aon.groupV4
  | .hostKeyState => regKeyState s
  | .hostCnt => cntWord s.host.cnt i
  | .laneRxCfg => regRxCfg s i
  | .laneRxStatus => regRxStatus s i
  | .laneRxPeer => (rxLane s i).peer
  | .laneRxCnt => cntWord (rxLane s i).cnt j
  | .laneTxCfg => regTxCfg s i
  | .laneTxTag => w32 (txLane s i).tag
  | .flowSrcCfg => regSrcCfg s i
  | .flowSrcStatus => regSrcStatus s i
  | .flowSrcSkew => regSrcSkew s i
  | .flowSrcSeq => w32 (srcOf s i).lastRead
  | .flowSrcCnt => cntWord (srcOf s i).cnt j
  | .flowDstStatus => regDstStatus s i
  | .flowDstPark => w32 (dstOf s i).parkValue
  | .flowDstSeq => w32 (dstOf s i).seq
  | .flowTpCfg => regFlowTp s i
  | .xptDstSel => regDstSel s i
  | .xptDstOwner => fields [(0, 16, (xdst s i).owner)]
  | .xptDstLand => w32 (xdst s i).land
  | .xptTakeCtl => regTakeCtl s
  | .xptQueueState => regQueueState s
  | .xptTick => w32 s.xpt.tick
  | .xptCnt => cntWord s.xpt.cnt i
  | .xptTpCfg => regTpCfg s i
  | .xptTpPhase => w32 (unsignedOf 32 (tpCfg s i).phase)
  | .xptTpCount => w32 (planeOf s i).slow
  | .fstZoneCfg => regZoneCfg s i
  | .fstZoneRows => regZoneRows s i
  | .fstZoneFree => regZoneFree s i
  | .fstZoneRun => regZoneRun s i
  | .fstSchedCfg => regSchedCfg s
  | .fstScrubCfg => regScrubCfg s
  | .fstRetainMask => regRetainMask s i
  | .fstRetainStatus => regRetainStatus s
  | .fstBankState => regBankState s i
  | .fstPcStatus => regPcStatus s i
  | .fstPcErr => regPcErr s i
  | .fstCnt => cntWord s.fst.cnt i
  | .cmpState => regCmpState s i
  | .cmpLand => w32 (compOf s i).land
  | .cmpCost => regCmpCost s i
  | .cmpCnt => cntWord (compOf s i).cnt j
  | .cmpLayerState => regLayerState s (i / 8) (i % 8)
  | .cmpLayerSize => regLayerSize s (i / 8) (i % 8)
  | .cmpLayerPos => regLayerPos s (i / 8) (i % 8)
  | .cmpLayerAlpha => regLayerAlpha s (i / 8) (i % 8)
  | .cmpProtCfg => regProtCfg s i
  | .cmpProtStatus => regProtStatus s i
  | .cmpProtFrame => w32 (compOf s i).compared
  | .cmpProtRectPos => rectPos ((compOf s i).active.rects.getD j {})
  | .cmpProtRectSize => rectSize ((compOf s i).active.rects.getD j {})
  | .cmpProtGolden => ((compOf s i).active.rects.getD j {}).value
  | .cmpProtSigRef => ((compOf s i).watch.getD j {}).sigRef
  | .cmpProtSigOut => ((compOf s i).watch.getD j {}).sigOut
  | .cmpProtCnt => cntWord (compOf s i).protCnt j
  | .audCfg => regAudCfg s
  | .audStatus => regAudStatus s
  | .audXp => regAudXp s i
  | .audFollow => regAudFollow s i
  | .audPortCfg => regPortCfg s i
  | .audPortStatus => regPortStatus s i
  | .audPortPpm => regPortPpm s i
  | .audPortCnt => cntWord (portOf s i).cnt j
  | .audStreamCfg => regStreamCfg s i
  | .audStreamStatus => regStreamStatus s i
  | .audCnt => cntWord s.aud.cnt i
  | .ethPortCfg => regEthPortCfg s i
  | .ethPortStatus => regEthPortStatus s i
  | .ethMaxFrame => regEthMaxFrame s i
  | .ethPortVlan => regEthVlan s i
  | .ethPortPol => regEthPol s i
  | .ethPortCnt => (tget 0 (ethPort s i).cnt j : BitVec 64).setWidth 32
  | .ethPortCntHi => regEthHigh s i j m
  | .ethMode => regEthMode s
  | .ethTsOverflow => w32 s.eth.tsOverflow
  | .ethIp4Addr => w32 (tget {} s.aon.ip i).ip4
  | .ethIp4Net => fields [(0, 6, (tget {} s.aon.ip i).prefix4)]
  | .ethIp4Gw => w32 (tget {} s.aon.ip i).gw4
  | .ethIp4Ll => w32 (linkLocalInUse s i)
  | .ethIp6Addr => word128 (tget {} s.aon.ip i).ip6 j
  | .ethIp6Net => fields [(0, 8, (tget {} s.aon.ip i).prefix6)]
  | .ethIp6Gw => word128 (tget {} s.aon.ip i).gw6 j
  | .ethRxFlowCfg => regRxFlowCfg s i
  | .ethRxFlowStatus => regRxFlowStatus s i
  | .ethRxFlowCnt => cntWord (rxFlow s i).cnt j
  | .ethTxFlowCfg => regTxFlowCfg s i
  | .ethTxFlowCnt => cntWord (txFlow s i).cnt j
  | .timStatus => regTimStatus s
  | .timErr => w32 (Sys2Proof.Machine.timErr s)
  | .timNowSecHi => fields [(0, 16, nowSeconds s m / 0x100000000)]
  | .timNowSec => w32 (nowSeconds s m)
  | .timNowNs => w32 (s.clock.now % 1000000000)
  | .timCfg => regTimCfg s
  | .timPtpCfg => regPtpCfg s
  | .timPtpOffset => regPtpOffset s
  | .timPtpDelay => regPtpDelay s
  | .timRefCfg => regRefCfg s i
  | .timRefStatus => regRefStatus s i
  | .timRefFreq => regRefFreq s i
  | .timSelCfg => regSelCfg s
  | .timTpAlign => regTpAlign s i
  | .timTpState => regTpState s i
  | .timCmpCfg => regCmpCfg s i
  | .timCmpTargetHi => fields [(0, 8, (compareOf s i).target / 0x100000000)]
  | .timCmpTarget => w32 (compareOf s i).target
  | .timCmpPeriodHi => fields [(0, 8, (compareOf s i).period / 0x100000000)]
  | .timCmpPeriod => w32 (compareOf s i).period
  | .timPulseCfg => regPulseCfg s i
  | .timPulseWidth => w32 (pulseOf s i).width
  | .timPulsePeriodHi => fields [(0, 8, (pulseOf s i).period / 0x100000000)]
  | .timPulsePeriod => w32 (pulseOf s i).period
  | .timPulseAlign => regPulseAlign s i
  | .timCnt => cntWord s.tim.cnt i
  | .ctlProcState => regProcState s i
  | .ctlBusCnt => cntWord s.ctl.cnt i
  | .ctlCompatCfg => regCompatCfg s
  | .cueCfg => regCueCfg s
  | .cueStore => regCueStore s
  | .cueCnt => cntWord s.cue.cnt i
  | .cueProg => regCueProg s i
  | .cueProgCrc => (match tfind s.cue.progs i with | some x => x.crc | none => 0#32)
  | .cueInst => regCueInst s i
  | .cueInstRun => (match tfind s.cue.insts i with | some x => w32 x.run | none => 0#32)
  | .cueInstSession => (match tfind s.cue.insts i with | some x => fields [(0, 16, x.session)] | none => 0#32)
  | .redStatus => regRedStatus s
  | .redPeer => regRedPeer s
  | .redPeerBuild => regRedPeerBuild s
  | .redLeaseGen => regRedLeaseGen s
  | .redLeaseLeft => regRedLeaseLeft s
  | .redCfg => regRedCfg s
  | .redLeaseCfg => regRedLeaseCfg s
  | .redDivMap => regRedDivMap s i
  | .redCnt => regRedCnt s i
  | .safStatus => regSafStatus s
  | .safReact => regSafReact s
  | .safCfg => regSafCfg s
  | .safEscCnt => cntWord s.saf.escCnt i
  | .evtState => regEvtState s
  | .evtGeneration => w32 s.evt.generation
  | .evtNewest => w32 (Sys2Proof.Machine.evtNewest s)
  | .evtOldest => w32 (Sys2Proof.Machine.evtOldest s)
  | .evtHead => fields [(0, 16, Sys2Proof.Machine.evtHead s)]
  | .evtCnt => cntWord s.evt.cnt i
  | .evtRate => regEvtRate s i
  | .evtArea => readRecorderWord s.evt i
  | .pwrSeqStatus => regSeqStatus s
  | .pwrBootStatus => regBootStatus s
  | .pwrStartTime => regStartTime s
  | .pwrStartCfg => regStartCfg s
  | .pwrState => regPwrState s
  | .pwrWake => regPwrWake s
  | .pwrAlarm => regPwrAlarm s
  | .pwrWakeTime => regWakeTime s
  | .compat => compatValue s i

end Sys2Proof.Machine
end

