-- ==== Sys2Proof/Machine/Regs.lean ====
section
/-! DEFINITION. Register access: reads and writes over the bus matrix, the register commands of Table 3.7, the writes that
reach registers from inside, and the compatibility window (R8 to R13, R110, R111, R521 to R537). -/

namespace Sys2Proof.Machine

/-- What the read of a register does beside its value: the latching pairs (R418, R452) and the recorder's parity count
(R510).
Log 31 (DEDUCED, safe). -/
def readEffect (m : Nat) (r : RegName) (i j : Nat) (s : State) : State :=
  match r with
  | .ethPortCnt => (readEthLow i j m s).2
  | .timNowNs => (readNowNs m s).2
  | .evtArea => if s.evt.bad.contains i then onEvt (fun r => { r with cnt := bump r.cnt 3 }) s else s
  | _ => s

/-- A read of one register word by master `m`: the value, the status and the state after. VOID and FAIL answers are counted
(R11, R522, R525, Table 16.7).
Log 28 (DESIGN CHOICE, safe). -/
def readReg (m a : Nat) (s : State) : Word × Status × State :=
  match decodeReg s a with
  | none => (0#32, .decodeZero, busCount 0 1 s)
  | some (r, i, j) =>
    if (match regBlock r i with | some b => s.saf.restarting.contains b | none => false) then
      (Config.failedRead s.free, .busError, { busCount 1 1 s with free := s.free + 1 })
    else (regValue s m r i j, .ok, readEffect m r i j s)

/-- A write of HOST_CFG (Table 3.11): frozen by LOCK_CONFIG; a port of 0 leaves the port unchanged.
Log 26 (DEDUCED, safe). -/
def writeHostCfg (v : Nat) (s : State) : State :=
  if s.host.locked then s
  else onAon (fun a => { a with
    udpPort := if v % 0x10000 = 0 then a.udpPort else v % 0x10000, groupEn := v.testBit 16, anonEn := v.testBit 17 }) s

/-- A write of HOST_GROUP_V4 (Table 3.12): frozen by LOCK_CONFIG; only 224.0.0.0 to 239.255.255.255 is stored. -/
def writeGroupV4 (v : Nat) (s : State) : State :=
  if s.host.locked || v % 0x100000000 / 0x10000000 != 0xE then s else onAon (fun a => { a with groupV4 := w32 v }) s

/-- A write of MODE_HAL_WAIT (Table 1.11). -/
def writeHalWait (v : Nat) (s : State) : State := { s with halWaitMs := clampNat 100 60000 (bitsOf v 15 0) }

/-- A write of PWR_START_CFG (Table 2.16). -/
def writeStartCfg (v : Nat) (s : State) : State :=
  onAon (fun a => { a with laneWaitMs := clampNat 200 30000 (bitsOf v 15 0), trialS := clampNat 10 3600 (bitsOf v 27 16) }) s

/-- What a write does to a register: only fields with access RW or RWL take a value (R8, R111 rule 6). -/
def writeEffect (r : RegName) (i v : Nat) (s : State) : State :=
  match r with
  | .modeHalWait => writeHalWait v s
  | .hostCfg => writeHostCfg v s
  | .hostGroupV4 => writeGroupV4 v s
  | .pwrStartCfg => writeStartCfg v s
  | .laneRxCfg => writeRxCfg i v s
  | .laneTxCfg => writeTxCfg i v s
  | .laneTxTag => writeTxTag i v s
  | .flowSrcCfg => writeSrcCfg i v s
  | .flowTpCfg => writeFlowTp i v s
  | .xptTakeCtl => writeTakeCtl v s
  | .cueCfg => writeCueCfg v s
  | .fstSchedCfg => writeSchedCfg v s
  | .fstScrubCfg => writeScrubCfg v s
  | .cmpProtCfg => writeProtCfg i v s
  | .audCfg => writeAudCfg v s
  | .timCfg => writeTimCfg v s
  | .redCfg => writeRedCfg v s
  | .redLeaseCfg => writeRedLeaseCfg v s
  | .safCfg => writeSafCfg v s
  | .ctlCompatCfg => writeCompatCfg v s
  | _ => s

/-- A write of one register word: the status and the state after (R11, R522, R525, R537).
Log 28 (DESIGN CHOICE, safe). -/
def writeReg (a v : Nat) (s : State) : Status × State :=
  match decodeReg s a with
  | none => (.decodeZero, busCount 0 1 s)
  | some (r, i, _) =>
    if r == .compat || (match regBlock r i with | some b => s.saf.restarting.contains b | none => false) then
      (.busError, busCount 1 1 s)
    else (.ok, writeEffect r i v s)

/-- A register is safety-owned: the SAF range, and CMP_PROT_CFG (R111 rule 2, R351). -/
def safetyOwnedReg (a : Nat) : Bool :=
  (decide (0x0B000000 ≤ a) && decide (a ≤ 0x0BFFFFFF))
    || (match findReg a regRows with | some (.cmpProtCfg, _, _) => true | _ => false)

/-- The session's role may write a register (R111 rule 2). -/
def mayWriteReg (r : Role) (a : Nat) : Bool := if safetyOwnedReg a then r == .safety else r == .maintenance

/-- REG_READ: a 4-byte address that is a multiple of 4 (Table 3.8, R111 rule 1). -/
def refuseRegRead : Refuse := fun _ c => firstRefusal [needLen 4 c, refuseIf (u32 c.params 0 % 4 != 0) .badParam]
/-- REG_READ answers the value and the status of the access. -/
def effRegRead : Effect := fun s c =>
  let r := readReg 0 (u32 c.params 0) s
  (r.2.2, some (r.2.1, wordBytes r.1))
/-- REG_READ (R110, R111). -/
def execRegRead (t : Nat) (c : HostCmd) (s : State) : Host.Outcome State Fault Refusal :=
  .next (runCommand .regRead refuseRegRead effRegRead t c s)

/-- REG_WRITE: address and value; the role that the register asks for (R111 rules 1 and 2).
Log 19 (DEDUCED, safe). -/
def refuseRegWrite : Refuse := fun _ c =>
  firstRefusal [needLen 8 c, refuseIf (u32 c.params 0 % 4 != 0) .badParam,
    refuseIf (!mayWriteReg c.role (u32 c.params 0)) .roleDenied]
/-- REG_WRITE writes one word. -/
def effRegWrite : Effect := fun s c =>
  let r := writeReg (u32 c.params 0) (u32 c.params 4) s
  (r.2, some (r.1, []))
/-- REG_WRITE (R110, R111). -/
def execRegWrite (t : Nat) (c : HostCmd) (s : State) : Host.Outcome State Fault Refusal :=
  .next (runCommand .regWrite refuseRegWrite effRegWrite t c s)

/-- REG_RMW: address, mask and value. -/
def refuseRegRmw : Refuse := fun _ c =>
  firstRefusal [needLen 12 c, refuseIf (u32 c.params 0 % 4 != 0) .badParam,
    refuseIf (!mayWriteReg c.role (u32 c.params 0)) .roleDenied]
/-- What REG_RMW writes: the old value outside the mask, the new one inside (R111 rule 5). -/
def rmwValue (old mask value : Word) : Word := (old &&& ~~~ mask) ||| (value &&& mask)
/-- REG_RMW reads, writes, and answers the old value and the register read back (Table 3.7, R529, R532).
Log 29 (DEDUCED, safe).
Log 30 (DEDUCED, safe). -/
def effRegRmw : Effect := fun s c =>
  let a := u32 c.params 0
  let r := readReg 0 a s
  let w := writeReg a (rmwValue r.1 (w32 (u32 c.params 4)) (w32 (u32 c.params 8))).toNat r.2.2
  let b := readReg 0 a w.2
  (b.2.2, some (if r.2.1 = .ok then w.1 else r.2.1, wordBytes r.1 ++ wordBytes b.1))
/-- REG_RMW (R110, R111). -/
def execRegRmw (t : Nat) (c : HostCmd) (s : State) : Host.Outcome State Fault Refusal :=
  .next (runCommand .regRmw refuseRegRmw effRegRmw t c s)

/-- The addresses of a block access: in address order, or one address repeatedly (R111 rule 4). -/
def blockAddrs (c : HostCmd) : List Nat :=
  (List.range (u16 c.params 4)).map (fun k => u32 c.params 0 + (if u8 c.params 6 = 1 then 0 else 4 * k))

/-- What a block access notes of its words: the state, the words read newest first, and the first word that failed with its
status. -/
structure BlockRun where
  st    : State
  words : List Word := []
  count : Nat := 0
  fail  : Option (Nat × Status) := none

/-- The run after one more word of a given status. -/
def BlockRun.word (b : BlockRun) (w : Word) (st : Status) (s : State) : BlockRun :=
  { st := s, words := w :: b.words, count := b.count + 1
    fail := match b.fail with
      | some f => some f
      | none => if st = .ok then none else some (b.count, st) }

/-- Read the words of a block in order. -/
def readBlock (as : List Nat) (s : State) : BlockRun :=
  as.foldl (fun b a => let r := readReg 0 a b.st; b.word r.1 r.2.1 r.2.2) { st := s }

/-- Write the words of a block in order. -/
def writeBlock (ws : List (Nat × Nat)) (s : State) : BlockRun :=
  ws.foldl (fun b x => let r := writeReg x.1 x.2 b.st; b.word 0#32 r.1 r.2) { st := s }

/-- The status of a block access and the head of its reply (Table 3.8). -/
def BlockRun.head (b : BlockRun) : Status × List Byte :=
  match b.fail with
  | some (k, st) => (st, beBytes 2 k ++ beBytes 2 0)
  | none => (.ok, beBytes 2 0xFFFF ++ beBytes 2 0)

/-- The checks of the fields that the block accesses share (Table 3.8, R573, R111 rule 1). -/
def blockBad (c : HostCmd) : Bool :=
  u32 c.params 0 % 4 != 0 || u16 c.params 4 == 0 || decide (16384 < u16 c.params 4) || decide (1 < u8 c.params 6)
    || u8 c.params 7 != 0

/-- REG_READ_BLOCK. -/
def refuseRegReadBlock : Refuse := fun _ c => firstRefusal [needLen 8 c, refuseIf (blockBad c) .badParam]
/-- REG_READ_BLOCK reads every word (R111 rule 4). -/
def effRegReadBlock : Effect := fun s c =>
  let b := readBlock (blockAddrs c) s
  (b.st, some (b.head.1, b.head.2 ++ b.words.reverse.flatMap wordBytes))
/-- REG_READ_BLOCK (R110, R111). -/
def execRegReadBlock (t : Nat) (c : HostCmd) (s : State) : Host.Outcome State Fault Refusal :=
  .next (runCommand .regReadBlock refuseRegReadBlock effRegReadBlock t c s)

/-- REG_WRITE_BLOCK: the role check covers every word; on a paired device a block does not mix in-step and other words
(R111 rule 3, R457).
Log 19 (DEDUCED, safe). -/
def refuseRegWriteBlock : Refuse := fun s c =>
  firstRefusal [refuseIf (decide (c.params.length < 8)) .badLength,
    refuseIf (blockBad c) .badParam,
    needLen (8 + 4 * u16 c.params 4) c,
    refuseIf (paired s && (regSpan .regWriteBlock c).any pairAddr && !(regSpan .regWriteBlock c).all pairAddr) .badParam,
    refuseIf (!(blockAddrs c).all (mayWriteReg c.role)) .roleDenied]
/-- REG_WRITE_BLOCK writes every word (R111 rule 4). -/
def effRegWriteBlock : Effect := fun s c =>
  let ws := (List.range (u16 c.params 4)).zip (blockAddrs c)
  let b := writeBlock (ws.map (fun x => (x.2, u32 c.params (8 + 4 * x.1)))) s
  (b.st, some b.head)
/-- REG_WRITE_BLOCK (R110, R111). -/
def execRegWriteBlock (t : Nat) (c : HostCmd) (s : State) : Host.Outcome State Fault Refusal :=
  .next (runCommand .regWriteBlock refuseRegWriteBlock effRegWriteBlock t c s)

/-- REGISTER_WRITE (R8): a write reaches a register, and each field acts by its access code. -/
def execRegisterWrite (t addr value : Nat) (s : State) : Host.Outcome State Fault Refusal :=
  .next (writeReg addr value (advance t s)).2

/-- LANE_RX_ENABLE_WRITE (R145): a write of LANE_RX_CFG, as REG_WRITE and LANE_CONFIG make it. -/
def execLaneRxEnableWrite (t lane value : Nat) (s : State) : Host.Outcome State Fault Refusal :=
  if 131 < lane then .fault .noSuchObject else .next (writeRxCfg lane value (advance t s))

/-- CTLE_CODE_WRITE (R138): a write of CTLE_CODE and CTLE_AUTO of LANE_RX_CFG; its other fields keep their values.
Log 36 (DEDUCED, safe). -/
def execCtleCodeWrite (t lane code : Nat) (auto : Bool) (s : State) : Host.Outcome State Fault Refusal :=
  if 131 < lane then .fault .noSuchObject
  else
    let s := advance t s
    let w := (regRxCfg s lane).toNat
    .next (writeRxCfg lane (w - w % 128 + w % 2 + 2 * bit auto + 4 * (code % 32)) s)

/-- LANE_TX_ENABLE_WRITE (R144): a write of LANE_TX_CFG. -/
def execLaneTxEnableWrite (t lane value : Nat) (s : State) : Host.Outcome State Fault Refusal :=
  if 131 < lane then .fault .noSuchObject else .next (writeTxCfg lane value (advance t s))

/-- COMPAT_WINDOW_READ (R536, R537): a read of an address of the compatibility window by its own master. -/
def execCompatWindowRead (t addr : Nat) (s : State) : Host.Outcome State Fault Refusal :=
  let s := advance t s
  let a := 0x0F000000 + addr % 0x1000000
  let r := readReg 1 a s
  .next (emit (.busRead s.clock.clk a r.1.toNat) r.2.2)

end Sys2Proof.Machine
end

