-- ==== Sys2Proof/Machine/Follow.lean ====
section
/-! DEFINITION. The follower and the joiner of a pair: the epoch records they apply and the snapshot that a joiner loads
(R463 to R466, R469, R473, R478). -/

namespace Sys2Proof.Machine

/-- What an in-step command does: what the follower executes when a record names it (R457, R463). -/
def inStepEffect : Op → Option Effect
  | .regWrite => some effRegWrite
  | .regRmw => some effRegRmw
  | .regWriteBlock => some effRegWriteBlock
  | .flowSrcDefine => some effFlowSrcDefine
  | .flowDstDefine => some effFlowDstDefine
  | .flowDelete => some effFlowDelete
  | .flowGroupSet => some effFlowGroupSet
  | .flowParkSet => some effFlowParkSet
  | .xptTake => some effXptTake
  | .xptTakeBatch => some effXptTakeBatch
  | .xptTakeAt => some effXptTakeAt
  | .xptQueueCancel => some effXptQueueCancel
  | .xptLock => some effXptLock
  | .xptUnlock => some effXptUnlock
  | .xptTpSet => some effXptTpSet
  | .cueLoad => some effCueLoad
  | .cueRun => some effCueRun
  | .cueAbort => some effCueAbort
  | .cueUnload => some effCueUnload
  | .fstZoneSet => some effFstZoneSet
  | .fstObjWrite => some effFstObjWrite
  | .fstObjFree => some effFstObjFree
  | .fstInvalidClear => some effFstInvalidClear
  | .cmpConfig => some effCmpConfig
  | .cmpLayerSet => some effCmpLayerSet
  | .cmpCommit => some effCmpCommit
  | .cmpLutLoad => some effCmpLutLoad
  | .cmpSurfaceLoad => some effCmpSurfaceLoad
  | .cmpDisable => some effCmpDisable
  | .cmpProtWrite => some effCmpProtWrite
  | .cmpProtRectSet => some effCmpProtRectSet
  | .cmpProtGoldenSet => some effCmpProtGoldenSet
  | .audRoute => some effAudRoute
  | .audRouteBatch => some effAudRouteBatch
  | .audGain => some effAudGain
  | .audFollow => some effAudFollow
  | .audPortConfig => some effAudPortConfig
  | .audStreamConfig => some effAudStreamConfig
  | .timCompareSet => some effTimCompareSet
  | .timPulseSet => some effTimPulseSet
  | .timRealign => some effTimRealign
  | _ => none

/-- The link leaves IN_STEP because the follower cannot do what a record names (R469).
Log 91 (DEDUCED, safe). -/
def followerDiverges (cause index seq : Nat) (s : State) : State := divergeOut (pairDiverge cause index seq s)

/-- A held or forwarded command is the one of a session and sequence. -/
def HeldCmd.is (session seq : Nat) (h : HeldCmd) : Bool := h.cmd.session == session && h.cmd.seq == seq

/-- Execute a named command: the checks of Table 3.3 are skipped and its outcome is noted (R463).
Log 92 (DEDUCED, safe). -/
def runNamed (h : HeldCmd) (s : State) : State :=
  let s := onRed (fun r => { r with applying := true, noted := none }) s
  let s := match inStepEffect h.op with
    | some eff => runCommand h.op (fun _ _ => none) eff s.clock.clk { h.cmd with named := true } s
    | none => s
  onRed (fun r => { r with applying := false }) s

/-- The reply to the host of a command that it sent here: the sequencer's result once the command is executed; one that
awaits its landing is answered then (R464).
Log 92 (DEDUCED, safe). -/
def replyNamed (h : HeldCmd) (seq : Nat) (s : State) : State :=
  match s.red.noted with
  | none => s
  | some (st, ps) =>
    if h.replied then s
    else
      let res := (s.red.results.find? (fun r => r.session == h.cmd.session && r.seq == seq)).getD ⟨h.cmd.session, seq, st, ps⟩
      replyTo (opInfo h.op).code h.cmd (statusByCode res.status) res.params s

/-- COMMAND (Table 14.5 item 1): the follower executes the command from its own copy or the forwarded one, its session's
last sequence advances, and another status than the sequencer's is a divergence (R463, R469).
Log 91 (DEDUCED, safe). -/
def applyCommand (session seq status : Nat) (s : State) : State :=
  let forget := onRed (fun r => { r with
    held := r.held.filter (fun h => !h.is session seq), forwarded := r.forwarded.filter (fun h => !h.is session seq)
    results := r.results.filter (fun x => !(x.session == session && x.seq == seq)), noted := none })
  let own := s.red.held.find? (·.is session seq)
  match (match own with | some h => some h | none => s.red.forwarded.find? (·.is session seq)) with
  | none => followerDiverges 1 session seq s
  | some h =>
    let s := runNamed h (setLastSeq session (max (lastSeq s session) seq) s)
    let code := (s.red.noted.map (·.1)).getD Status.scheduled.code
    let s := if own.isSome then replyNamed h seq s else s
    let s := forget s
    if code = status then s else followerDiverges 1 session seq s

/-- The branch outcomes told for an instance's run, as words with their outcomes (R251). -/
def toldBranches (s : State) (i run : Nat) : List (Nat × Bool) :=
  (s.red.branches.filter (fun b => b.1 == i && b.2.1 == run)).map (fun b => (b.2.2.1, b.2.2.2))

/-- An instance that waits goes on, since the sequencer's has. -/
def CueInst.resumed (x : CueInst) : CueInst :=
  match x.state with
  | .waitFrames | .waitTime => { x with state := .executing, word := x.word + 1, left := 0 }
  | _ => x

/-- CUE_GROUP (Table 14.5 item 3): the group is executed with the branch outcomes that were told and placed; what does not
fit the item is a divergence (R251, R469).
Log 91 (DEDUCED, safe). -/
def applyGroup (i word run n : Nat) (loops : List Nat) (s : State) : State :=
  match tfind s.cue.insts i with
  | none => followerDiverges 5 i run s
  | some x =>
    let x := x.resumed
    let from_ := if x.state = .waitEntries then x.from_ else x.word
    if x.run ≠ run || from_ ≠ word then followerDiverges 5 i run s
    else
      let before := s.xpt.nextOrder
      let told := toldBranches s i run
      let s := onRed (fun r => { r with branches := r.branches.filter (fun b => !(b.1 == i && b.2.1 == run)) }) (setInst i x s)
      let s := match x.state, tfind s.cue.progs x.prog with
        | .waitEntries, some p => placeGroup i x (p.words.getD x.word 0) s
        | _, _ => executeGroup i (some told) s
      let fits := match tfind s.cue.insts i with
        | some y => y.state != .waitEntries && loopCodes y == loops
        | none => true
      if fits && s.xpt.nextOrder == before + n then s else followerDiverges 5 i run s

/-- CUE_START (Table 14.5 item 5): the trigger instance starts as the item names it (R245, R469). -/
def applyStart (i prog u run : Nat) (s : State) : State :=
  let s := triggerStart u s
  match tfind s.cue.insts i with
  | some x => if x.run = run && x.prog = prog then s else followerDiverges 5 i run s
  | none => followerDiverges 5 i run s

/-- REFERENCE (Table 14.5 item 7): the selection of the lease holder is applied; a named input that is not qualified here
leaves the house loop in HOLDOVER (R438). -/
def applyReference (selected : Nat) (s : State) : State :=
  if 4 < selected then houseHoldover s
  else if !isCandidate s selected then pairDiverge 4 selected 0 (houseHoldover s)
  else if s.tim.sel.selected = some selected then s
  else switchTo selected 3 s

/-- HANDOVER (Table 14.5 item 8): a claimant to whom the lease moves takes T7 at the next tick (R473). -/
def applyHandover (position moves : Nat) (s : State) : State :=
  if position = s.start.straps.pairRole && moves = 1 && s.red.grant then
    onRed (fun r => { r with granted := true, t7Due := true }) s
  else s

/-- One item of the record of tick `k` but SEALED, which waits for the end of the record (Table 14.5). -/
def applyItem (k : Nat) (it : RecItem) (s : State) : State :=
  match it with
  | .command session seq status => applyCommand session seq status s
  | .sealed_ _ _ _ => s
  | .cueGroup i word run n loops => applyGroup i word run n loops s
  | .cueBranch i word run outcome => onRed (fun r => { r with branches := r.branches ++ [(i, run, word, outcome == 1)] }) s
  | .cueStart i prog u run => applyStart i prog u run s
  | .landing plane rate count => onXpt (fun x => { x with landing := x.landing ++ [(k, plane, rate, count)] }) s
  | .reference selected _ => applyReference selected s
  | .handover position moves => applyHandover position moves s

/-- An entry that the record seals: a command's, when a SEALED item names the command; a group's, by its own time. -/
def sealedBy (items : List RecItem) (arm : Nat) (e : Entry) : Bool :=
  e.dueAt arm && (e.cue.isSome || items.any (fun it => match it with
    | .sealed_ session seq _ => e.session == session && e.seq == seq
    | _ => false))

/-- The arming instant of tick `k`: 1 ms after the tick of that number that is nearest to now (R211). -/
def armOfTick (s : State) (k : Nat) : Nat :=
  let n := s.clock.now / 500000
  let d := (n + 0x100000000 - k) % 0x100000000
  (if d < 0x80000000 then n - d else n + (0x100000000 - d)) * 500000 + 1000000

/-- A joiner's resynchronisation is in hand. -/
def joining (s : State) : Bool := s.red.link == .resyncing && (s.red.resync.map (fun x => !x.source)).getD false

/-- Apply one record: its items in order, while the link stands, then the seal of the epoch (R216, R463 to R466). -/
def applyRecord (r : EpochRecord) (s : State) : State :=
  let arm := armOfTick s r.tick
  let s := onRed (fun x => { x with
    peer := { x.peer with gen := r.gen, lease := r.lease }, applied := r.tick, cnt := bump x.cnt 1 }) s
  let s := r.items.foldl (fun s it => if inStep s || joining s then applyItem r.tick it s else s) s
  if inStep s || joining s then cueTick arm (sealEpoch r.tick arm (sealedBy r.items arm) s) else s

/-- The tick after another. -/
def tickAfter (k : Nat) : Nat := (k + 1) % 0x100000000

/-- A record comes to the follower (R465): the next one is applied and acknowledged; one already applied is acknowledged
again; after a gap the missing records are asked for. -/
def followRecord (r : EpochRecord) (s : State) : State :=
  let want := tickAfter s.red.applied
  if r.tick = want then
    let s := applyRecord r s
    if inStep s then sendAck 0 0 s else s
  else if ticksFrom want r.tick < 0x80000000 then sendAck 1 (want % 0x10000) s
  else sendAck 0 0 s

/-- Apply the buffered records of a joiner that follow each other; `fuel` bounds their number. -/
def drainBuffered : Nat → State → State
  | 0, s => s
  | fuel + 1, s =>
    match s.red.buffered.find? (fun r => r.tick == tickAfter s.red.applied) with
    | none => s
    | some r => drainBuffered fuel (applyRecord r (onRed (fun x => { x with
        buffered := x.buffered.filter (fun y => y.tick != r.tick) }) s))

/-- A joiner that has loaded its snapshot applies what it buffered; with every record up to the current tick applied it
acknowledges and enters IN_STEP, and after a gap it asks again (R478 step 5).
Log 96 (DEDUCED, safe). -/
def joinerCatchesUp (s : State) : State :=
  let s := drainBuffered 400 s
  let s := onRed (fun r => { r with buffered := r.buffered.filter (fun y => decide (ticksFrom (tickAfter r.applied) y.tick < 0x80000000)) }) s
  if !s.red.buffered.isEmpty then sendAck 1 (tickAfter s.red.applied % 0x10000) s
  else if ticksFrom s.red.applied (s.clock.now / 500000 % 0x100000000) ≤ 1 then enterInStep (sendAck 0 0 s)
  else s

/-- A record comes to a joiner: it is buffered, at most 400 of them, and applied once the snapshot is loaded (R478). -/
def joinerRecord (r : EpochRecord) (s : State) : State :=
  let s := if s.red.buffered.length < 400 && !s.red.buffered.any (fun y => y.tick == r.tick) then
      onRed (fun x => { x with buffered := x.buffered ++ [r] }) s else s
  if (s.red.resync.map (·.loaded)).getD false then joinerCatchesUp s else s

/-- HALYARD_EPOCH_RECORD (R465): an epoch record arrives; `bad` says that the message fails a check of R459.
Log 90 (DESIGN CHOICE, safe). -/
def execHalyardEpochRecord (t : Nat) (record : EpochRecord) (bad : Bool) (s : State) : Host.Outcome State Fault Refusal :=
  let s := advance t s
  .next (if !halyardRuns s then s
    else if bad then discardMsg s
    else
      let s := heardControl s
      if conductorStopped s then s
      else if follows s then followRecord record s
      else if joining s then joinerRecord record s
      else s)

/-- A version that the device holds already for an object of the snapshot: VALID, of the same kind, length and CRC-32
(R479). -/
def holdsVersion (s : State) (n : Nat) (v : Version) : Option Version :=
  match (objOf s n).valid with
  | some w => if w.kind = v.kind && w.length = v.length && w.crc = v.crc then some w else none
  | none => none

/-- The objects of the snapshot with what the device holds of them: contents that it holds move to the version's place, and
every other VALID object is FILLING (R478 step 3, R479). Object 2047 is the device's own.
Log 95 (DEDUCED, safe). -/
def loadObjects (objs : Table Obj) (s : State) : State :=
  let theirs := objs.filter (fun p => p.1 != 2047)
  let kept := theirs.filterMap (fun p => match p.2.valid with
    | some v => (holdsVersion s p.1 v).map (fun w => (p.1, v, versionBytes s w 0 w.length))
    | none => none)
  let isKept := fun (n : Nat) => kept.any (fun k => k.1 == n)
  let table := theirs.map (fun p => (p.1, { p.2 with filling := p.2.valid.isSome && !isKept p.1 }))
  let own := (tfind s.fst.objs 2047).map (fun o => (2047, o))
  let s := onFst (fun f => { f with objs := table ++ own.toList }) s
  let s := kept.foldl (fun s k => zoneWriteAt k.2.1.zone (k.2.1.first * 65536) k.2.2 s) s
  onRed (fun r => { r with
    fillLeft := (table.filter (fun p => p.2.filling)).map (·.1), fillFails := [], fillSent := 0, fillSkipped := kept.length
    fillBytes := 0 }) s

/-- A plane of the source as it stands now: its counts have gone on since its last frame start (R442, R478 step 4). -/
def Plane.since (x : Plane) (family now : Nat) : Plane :=
  match x.last with
  | some f =>
    let t := max 1 (basePeriod family)
    let k := (now - f) / t
    let h := (now - x.lastAny.getD f) * 2 / t
    { x with
      slow := (x.slow + k) % 0x100000000
      fast := if famHasFast family then (x.fast + h) % 0x100000000 else (x.slow + k) % 0x100000000
      last := some (f + k * t)
      lastAny := some (if famHasFast family then x.lastAny.getD f + h * t / 2 else f + k * t) }
  | none => x

/-- A pulse output's settings; a periodic one goes on at its next start (Table 14.1). -/
def Pulse.taken (x : Pulse) (now : Nat) : Pulse :=
  { x with
    active := false, due := false
    next := if x.period = 0 || now ≤ x.next then x.next else x.next + (now - x.next + x.period - 1) / x.period * x.period }

/-- The joiner discards its own pair state and loads the snapshot (R478 steps 3 and 4, Table 14.1).
Log 94 (DESIGN CHOICE, safe).
Log 95 (DEDUCED, safe). -/
def loadPairState (p : PairState) (s : State) : State :=
  let s := loadObjects p.objs (onFst (fun f => { f with
    zones := p.zones, pageIdle := p.pageIdle, srIdleUs := p.srIdleUs, periodS := p.periodS }) s)
  let s := onXpt (fun x => { x with
    dst := p.xdst, tps := p.tps, queue := p.queue, nextOrder := p.nextOrder, landEvt := p.landEvt, lateMs := p.lateMs
    waits := [], landing := [] }) s
  let s := onCue (fun q => { q with
    progs := p.progs, insts := p.insts, nextRun := p.nextRun, stallTicks := p.stallTicks, marks := p.marks }) s
  let s := adoptFlow p.src p.dst p.groups p.flowTps s
  let s := onXpt (fun x => { x with dst := p.xdst, queue := p.queue }) s
  let s := adoptComps p.comps s
  let s := adoptAudio p.outs p.follows p.ports p.streams p.housePlane p.zcMs s
  let s := onAud (fun a => { a with due := p.audDue }) s
  let s := onTim (fun m => { m with
    compares := p.compares
    pulses := tmap p.pulses (fun _ x => x.taken s.clock.now)
    realigns := p.realigns
    planes := tmap p.planes (fun n x => x.since (tget {} p.tps n).family s.clock.now) }) s
  match p.selected with
  | some i => applyReference i s
  | none => houseHoldover s

/-- HALYARD_RESYNC_STATE (R478): a part of the snapshot arrives; with the last one the snapshot of a tick is complete, and
the joiner loads it. A part that fails a check is asked for again.
Log 94 (DESIGN CHOICE, safe). -/
def execHalyardResyncState (t part : Nat) (snapshot : Option (Nat × Nat × PairState)) (bad : Bool) (s : State) :
    Host.Outcome State Fault Refusal :=
  let s := advance t s
  .next (if !halyardRuns s then s
    else if bad then askAgain 11 0 part (discardMsg s)
    else
      match s.red.resync, snapshot with
      | some x, some (k, n, p) =>
        if !joining s || x.loaded then s
        else
          let s := loadPairState p s
          let s := onRed (fun r => { r with
            resync := some { x with tick := k, bytes := n, loaded := true }, applied := k
            buffered := r.buffered.filter (fun y => decide (ticksFrom (tickAfter k) y.tick < 0x80000000)) }) s
          joinerCatchesUp s
      | _, _ => s)

end Sys2Proof.Machine
end

