-- ==== Sys2Proof/Machine/Dispatch.lean ====
section
/-! DEFINITION. The dispatch of a command to its meaning: one arm per row of the opcode table. -/

namespace Sys2Proof.Machine

/-- The effect of a command on everything but the queue of waiting commands. -/
def exec (i : Instr) (s : State) : Host.Outcome State Fault Refusal :=
  match i with
  | .vddAonUp t pgMode straps => Sys2Proof.Machine.execVddAonUp t pgMode straps s
  | .vddAonLost t => Sys2Proof.Machine.execVddAonLost t s
  | .pgInputAsserted t pg => Sys2Proof.Machine.execPgInputAsserted t pg s
  | .sequenceStepDelayExpired t => Sys2Proof.Machine.execSequenceStepDelayExpired t s
  | .pgTimeout t => Sys2Proof.Machine.execPgTimeout t s
  | .fixedDelayEnable t => Sys2Proof.Machine.execFixedDelayEnable t s
  | .pgInputLow t pg => Sys2Proof.Machine.execPgInputLow t pg s
  | .powerFault t pg => Sys2Proof.Machine.execPowerFault t pg s
  | .powerFaultRestart t => Sys2Proof.Machine.execPowerFaultRestart t s
  | .rstNLow t => Sys2Proof.Machine.execRstNLow t s
  | .rstNRelease t straps => Sys2Proof.Machine.execRstNRelease t straps s
  | .pairRoleTest t up down => Sys2Proof.Machine.execPairRoleTest t up down s
  | .pllLocked t romStep => Sys2Proof.Machine.execPllLocked t romStep s
  | .clkWaitRetry t => Sys2Proof.Machine.execClkWaitRetry t s
  | .imageSelection t badParity => Sys2Proof.Machine.execImageSelection t badParity s
  | .processorAlive t proc => Sys2Proof.Machine.execProcessorAlive t proc s
  | .aliveTimeout t proc => Sys2Proof.Machine.execAliveTimeout t proc s
  | .laneWaitExpired t => Sys2Proof.Machine.execLaneWaitExpired t s
  | .hbmTrainingDone t failed => Sys2Proof.Machine.execHbmTrainingDone t failed s
  | .memoryInitDone t failed => Sys2Proof.Machine.execMemoryInitDone t failed s
  | .modeHalWaitExpired t => Sys2Proof.Machine.execModeHalWaitExpired t s
  | .trialConfirmTimer t => Sys2Proof.Machine.execTrialConfirmTimer t s
  | .commandDatagram t d => Sys2Proof.Machine.execCommandDatagram t d s
  | .reassemblyTimeout t session => Sys2Proof.Machine.execReassemblyTimeout t session s
  | .identify t c => Sys2Proof.Machine.execIdentify t c s
  | .status t c => Sys2Proof.Machine.execStatus t c s
  | .modeSet t c => Sys2Proof.Machine.execModeSet t c s
  | .reset t c => Sys2Proof.Machine.execReset t c s
  | .resetDelayExpired t => Sys2Proof.Machine.execResetDelayExpired t s
  | .regRead t c => Sys2Proof.Machine.execRegRead t c s
  | .regWrite t c => Sys2Proof.Machine.execRegWrite t c s
  | .regRmw t c => Sys2Proof.Machine.execRegRmw t c s
  | .regReadBlock t c => Sys2Proof.Machine.execRegReadBlock t c s
  | .regWriteBlock t c => Sys2Proof.Machine.execRegWriteBlock t c s
  | .registerWrite t addr value => Sys2Proof.Machine.execRegisterWrite t addr value s
  | .lockConfig t c => Sys2Proof.Machine.execLockConfig t c s
  | .addrSet t c => Sys2Proof.Machine.execAddrSet t c s
  | .sessionKeyLoad t c => Sys2Proof.Machine.execSessionKeyLoad t c s
  | .sessionKeyErase t c => Sys2Proof.Machine.execSessionKeyErase t c s
  | .sessionInfo t c => Sys2Proof.Machine.execSessionInfo t c s
  | .echo t c => Sys2Proof.Machine.execEcho t c s
  | .imgInfo t c => Sys2Proof.Machine.execImgInfo t c s
  | .imgWriteBegin t c => Sys2Proof.Machine.execImgWriteBegin t c s
  | .slotEraseDone t slot => Sys2Proof.Machine.execSlotEraseDone t slot s
  | .imgWrite t c => Sys2Proof.Machine.execImgWrite t c s
  | .imageWriteTimeout t => Sys2Proof.Machine.execImageWriteTimeout t s
  | .imgWriteEnd t c => Sys2Proof.Machine.execImgWriteEnd t c s
  | .imgActivate t c => Sys2Proof.Machine.execImgActivate t c s
  | .imgTrialAbort t c => Sys2Proof.Machine.execImgTrialAbort t c s
  | .imgConfirm t c => Sys2Proof.Machine.execImgConfirm t c s
  | .laneStatus t c => Sys2Proof.Machine.execLaneStatus t c s
  | .laneConfig t c => Sys2Proof.Machine.execLaneConfig t c s
  | .lanePrbs t c => Sys2Proof.Machine.execLanePrbs t c s
  | .laneLoop t c => Sys2Proof.Machine.execLaneLoop t c s
  | .laneErrInject t c => Sys2Proof.Machine.execLaneErrInject t c s
  | .errorInjection t lane => Sys2Proof.Machine.execErrorInjection t lane s
  | .laneCounters t c => Sys2Proof.Machine.execLaneCounters t c s
  | .laneRxEnableWrite t lane value => Sys2Proof.Machine.execLaneRxEnableWrite t lane value s
  | .ctleCodeWrite t lane code auto => Sys2Proof.Machine.execCtleCodeWrite t lane code auto s
  | .laneTxEnableWrite t lane value => Sys2Proof.Machine.execLaneTxEnableWrite t lane value s
  | .laneSignalLost t lane => Sys2Proof.Machine.execLaneSignalLost t lane s
  | .laneSignalReturn t lane => Sys2Proof.Machine.execLaneSignalReturn t lane s
  | .ctleSweepDone t lane eyes => Sys2Proof.Machine.execCtleSweepDone t lane eyes s
  | .ctleTrack t lane below here above => Sys2Proof.Machine.execCtleTrack t lane below here above s
  | .laneBlockReceived t lane header bytes errs => Sys2Proof.Machine.execLaneBlockReceived t lane header bytes errs s
  | .blockLockGained t lane => Sys2Proof.Machine.execBlockLockGained t lane s
  | .blockLockLost t lane => Sys2Proof.Machine.execBlockLockLost t lane s
  | .berInterval t lane more => Sys2Proof.Machine.execBerInterval t lane more s
  | .rxFifoOverflow t lane => Sys2Proof.Machine.execRxFifoOverflow t lane s
  | .pennantReceived t lane bytes => Sys2Proof.Machine.execPennantReceived t lane bytes s
  | .pennantLockGained t lane => Sys2Proof.Machine.execPennantLockGained t lane s
  | .pennantLockLost t lane => Sys2Proof.Machine.execPennantLockLost t lane s
  | .pennantTransmit t lane => Sys2Proof.Machine.execPennantTransmit t lane s
  | .flowSrcDefine t c => Sys2Proof.Machine.execFlowSrcDefine t c s
  | .flowDstDefine t c => Sys2Proof.Machine.execFlowDstDefine t c s
  | .flowDelete t c => Sys2Proof.Machine.execFlowDelete t c s
  | .flowGroupSet t c => Sys2Proof.Machine.execFlowGroupSet t c s
  | .flowParkSet t c => Sys2Proof.Machine.execFlowParkSet t c s
  | .flowQuery t c => Sys2Proof.Machine.execFlowQuery t c s
  | .flowAdmitCheck t c => Sys2Proof.Machine.execFlowAdmitCheck t c s
  | .flowSrcCfgWrite t source value => Sys2Proof.Machine.execFlowSrcCfgWrite t source value s
  | .flowTpCfgWrite t plane value => Sys2Proof.Machine.execFlowTpCfgWrite t plane value s
  | .sourceDeleteLands t source => Sys2Proof.Machine.execSourceDeleteLands t source s
  | .destDeleteLands t dest => Sys2Proof.Machine.execDestDeleteLands t dest s
  | .sourceRedefineLands t source => Sys2Proof.Machine.execSourceRedefineLands t source s
  | .flowFrameStart t source copy seq flags format anc inferred => Sys2Proof.Machine.execFlowFrameStart t source copy seq flags format anc inferred s
  | .flowParcel t source copy first count data parity check => Sys2Proof.Machine.execFlowParcel t source copy first count data parity check s
  | .mergeWindowExpired t source seq => Sys2Proof.Machine.execMergeWindowExpired t source seq s
  | .copyLost t source copy => Sys2Proof.Machine.execCopyLost t source copy s
  | .readOutPoint t source packets => Sys2Proof.Machine.execReadOutPoint t source packets s
  | .holdFramesReached t source => Sys2Proof.Machine.execHoldFramesReached t source s
  | .switchingLine t dest => Sys2Proof.Machine.execSwitchingLine t dest s
  | .destFrameStart t dest => Sys2Proof.Machine.execDestFrameStart t dest s
  | .planeWordReceived t slot word0 word1 word2 word3 => Sys2Proof.Machine.execPlaneWordReceived t slot word0 word1 word2 word3 s
  | .xptTake t c => Sys2Proof.Machine.execXptTake t c s
  | .xptTakeBatch t c => Sys2Proof.Machine.execXptTakeBatch t c s
  | .xptTakeAt t c => Sys2Proof.Machine.execXptTakeAt t c s
  | .xptQueueCancel t c => Sys2Proof.Machine.execXptQueueCancel t c s
  | .xptLock t c => Sys2Proof.Machine.execXptLock t c s
  | .xptUnlock t c => Sys2Proof.Machine.execXptUnlock t c s
  | .xptQuery t c => Sys2Proof.Machine.execXptQuery t c s
  | .xptTpSet t c => Sys2Proof.Machine.execXptTpSet t c s
  | .xptQueueStatus t c => Sys2Proof.Machine.execXptQueueStatus t c s
  | .epochTick t => Sys2Proof.Machine.execEpochTick t s
  | .cueLoad t c => Sys2Proof.Machine.execCueLoad t c s
  | .cueRun t c => Sys2Proof.Machine.execCueRun t c s
  | .cueAbort t c => Sys2Proof.Machine.execCueAbort t c s
  | .cueStatus t c => Sys2Proof.Machine.execCueStatus t c s
  | .cueUnload t c => Sys2Proof.Machine.execCueUnload t c s
  | .cueGroupExecute t inst parity => Sys2Proof.Machine.execCueGroupExecute t inst parity s
  | .cueEntriesRetry t inst => Sys2Proof.Machine.execCueEntriesRetry t inst s
  | .cueStallExpired t inst => Sys2Proof.Machine.execCueStallExpired t inst s
  | .waitFramesResume t inst => Sys2Proof.Machine.execWaitFramesResume t inst s
  | .waitTimeResume t inst => Sys2Proof.Machine.execWaitTimeResume t inst s
  | .cueTriggerStart t unit => Sys2Proof.Machine.execCueTriggerStart t unit s
  | .cueMark t inst => Sys2Proof.Machine.execCueMark t inst s
  | .fstZoneSet t c => Sys2Proof.Machine.execFstZoneSet t c s
  | .fstObjWrite t c => Sys2Proof.Machine.execFstObjWrite t c s
  | .fstObjRead t c => Sys2Proof.Machine.execFstObjRead t c s
  | .fstObjFree t c => Sys2Proof.Machine.execFstObjFree t c s
  | .fstBankStatus t c => Sys2Proof.Machine.execFstBankStatus t c s
  | .fstInvalidClear t c => Sys2Proof.Machine.execFstInvalidClear t c s
  | .fstRetainSet t c => Sys2Proof.Machine.execFstRetainSet t c s
  | .objectLoadTimeout t object => Sys2Proof.Machine.execObjectLoadTimeout t object s
  | .objectReferencerMove t object kind index => Sys2Proof.Machine.execObjectReferencerMove t object kind index s
  | .bankReinit t bank ok => Sys2Proof.Machine.execBankReinit t bank ok s
  | .scrubRead t pc bank row col raw => Sys2Proof.Machine.execScrubRead t pc bank row col raw s
  | .confirmingRead t pc bank row col raw hard => Sys2Proof.Machine.execConfirmingRead t pc bank row col raw hard s
  | .pcReadTimeout t pc => Sys2Proof.Machine.execPcReadTimeout t pc s
  | .bankRefresh t pc bank => Sys2Proof.Machine.execBankRefresh t pc bank s
  | .stackTemperatureChange t stack celsius => Sys2Proof.Machine.execStackTemperatureChange t stack celsius s
  | .pageIdleExpired t pc bank => Sys2Proof.Machine.execPageIdleExpired t pc bank s
  | .selfRefreshEntry t pc => Sys2Proof.Machine.execSelfRefreshEntry t pc s
  | .writeDrain t pc forwarded => Sys2Proof.Machine.execWriteDrain t pc forwarded s
  | .cmpConfig t c => Sys2Proof.Machine.execCmpConfig t c s
  | .cmpLayerSet t c => Sys2Proof.Machine.execCmpLayerSet t c s
  | .cmpCommit t c => Sys2Proof.Machine.execCmpCommit t c s
  | .cmpLutLoad t c => Sys2Proof.Machine.execCmpLutLoad t c s
  | .cmpSurfaceLoad t c => Sys2Proof.Machine.execCmpSurfaceLoad t c s
  | .cmpDisable t c => Sys2Proof.Machine.execCmpDisable t c s
  | .cmpQuery t c => Sys2Proof.Machine.execCmpQuery t c s
  | .cmpConfigLands t comp => Sys2Proof.Machine.execCmpConfigLands t comp s
  | .cmpDisableLands t comp => Sys2Proof.Machine.execCmpDisableLands t comp s
  | .outputFrameStart t comp late parity probes => Sys2Proof.Machine.execOutputFrameStart t comp late parity probes s
  | .lutCopyDone t comp => Sys2Proof.Machine.execLutCopyDone t comp s
  | .cmpProtWrite t c => Sys2Proof.Machine.execCmpProtWrite t c s
  | .cmpProtRectSet t c => Sys2Proof.Machine.execCmpProtRectSet t c s
  | .cmpProtGoldenSet t c => Sys2Proof.Machine.execCmpProtGoldenSet t c s
  | .cmpProtStatus t c => Sys2Proof.Machine.execCmpProtStatus t c s
  | .cmpProtCfgWrite t comp value => Sys2Proof.Machine.execCmpProtCfgWrite t comp value s
  | .signatureReport t comp rect frame ref out clear => Sys2Proof.Machine.execSignatureReport t comp rect frame ref out clear s
  | .signatureReportMissing t comp rect frame => Sys2Proof.Machine.execSignatureReportMissing t comp rect frame s
  | .audRoute t c => Sys2Proof.Machine.execAudRoute t c s
  | .audRouteBatch t c => Sys2Proof.Machine.execAudRouteBatch t c s
  | .audGain t c => Sys2Proof.Machine.execAudGain t c s
  | .audFollow t c => Sys2Proof.Machine.execAudFollow t c s
  | .audPortConfig t c => Sys2Proof.Machine.execAudPortConfig t c s
  | .audStreamConfig t c => Sys2Proof.Machine.execAudStreamConfig t c s
  | .audQuery t c => Sys2Proof.Machine.execAudQuery t c s
  | .audioChangeLands t output => Sys2Proof.Machine.execAudioChangeLands t output s
  | .zeroCrossingTimeout t output => Sys2Proof.Machine.execZeroCrossingTimeout t output s
  | .audioParity t channel place => Sys2Proof.Machine.execAudioParity t channel place s
  | .audioPortRateWindow t port mhz => Sys2Proof.Machine.execAudioPortRateWindow t port mhz s
  | .audioPortStop t port => Sys2Proof.Machine.execAudioPortStop t port s
  | .audioPortFrame t port clocks left right fifoIn fifoOut ppm => Sys2Proof.Machine.execAudioPortFrame t port clocks left right fifoIn fifoOut ppm s
  | .audioStreamLate t stream => Sys2Proof.Machine.execAudioStreamLate t stream s
  | .ethPortConfig t c => Sys2Proof.Machine.execEthPortConfig t c s
  | .ethIpConfig t c => Sys2Proof.Machine.execEthIpConfig t c s
  | .ethCounters t c => Sys2Proof.Machine.execEthCounters t c s
  | .ethTxFlow t c => Sys2Proof.Machine.execEthTxFlow t c s
  | .ethRxFlow t c => Sys2Proof.Machine.execEthRxFlow t c s
  | .ethFlowQuery t c => Sys2Proof.Machine.execEthFlowQuery t c s
  | .ethPortCntLowRead t port index master => Sys2Proof.Machine.execEthPortCntLowRead t port index master s
  | .ethModeTakesEffect t => Sys2Proof.Machine.execEthModeTakesEffect t s
  | .pcsBlockLock t port => Sys2Proof.Machine.execPcsBlockLock t port s
  | .linkUp t port => Sys2Proof.Machine.execLinkUp t port s
  | .pcsAlignmentLost t port => Sys2Proof.Machine.execPcsAlignmentLost t port s
  | .linkFaultExpired t port remote => Sys2Proof.Machine.execLinkFaultExpired t port remote s
  | .preemptVerifyExpired t port => Sys2Proof.Machine.execPreemptVerifyExpired t port s
  | .ethFrameReceived t port f => Sys2Proof.Machine.execEthFrameReceived t port f s
  | .ringCheckSend t => Sys2Proof.Machine.execRingCheckSend t s
  | .ringCheckMissing t => Sys2Proof.Machine.execRingCheckMissing t s
  | .pauseExpired t port => Sys2Proof.Machine.execPauseExpired t port s
  | .pauseTxThreshold t port share => Sys2Proof.Machine.execPauseTxThreshold t port share s
  | .pauseRepeat t port => Sys2Proof.Machine.execPauseRepeat t port s
  | .igmpQueryReceived t port version querier group => Sys2Proof.Machine.execIgmpQueryReceived t port version querier group s
  | .igmpReportSend t flow => Sys2Proof.Machine.execIgmpReportSend t flow s
  | .addressProbe t port family addr conflict => Sys2Proof.Machine.execAddressProbe t port family addr conflict s
  | .mergeRelease t flow fails => Sys2Proof.Machine.execMergeRelease t flow fails s
  | .legLost t flow leg => Sys2Proof.Machine.execLegLost t flow leg s
  | .legRestored t flow leg => Sys2Proof.Machine.execLegRestored t flow leg s
  | .mediaPacketSend t flow leg index sched parity data => Sys2Proof.Machine.execMediaPacketSend t flow leg index sched parity data s
  | .timStatus t c => Sys2Proof.Machine.execTimStatus t c s
  | .timRefConfig t c => Sys2Proof.Machine.execTimRefConfig t c s
  | .timPtpConfig t c => Sys2Proof.Machine.execTimPtpConfig t c s
  | .timCompareSet t c => Sys2Proof.Machine.execTimCompareSet t c s
  | .timPulseSet t c => Sys2Proof.Machine.execTimPulseSet t c s
  | .timRealign t c => Sys2Proof.Machine.execTimRealign t c s
  | .timNowNsRead t master => Sys2Proof.Machine.execTimNowNsRead t master s
  | .realignLands t out n => Sys2Proof.Machine.execRealignLands t out n s
  | .announceTimeout t port => Sys2Proof.Machine.execAnnounceTimeout t port s
  | .holdoverLimit t house => Sys2Proof.Machine.execHoldoverLimit t house s
  | .refEdge t input => Sys2Proof.Machine.execRefEdge t input s
  | .refAbsent t input => Sys2Proof.Machine.execRefAbsent t input s
  | .refFrequencyWindow t input ppb => Sys2Proof.Machine.execRefFrequencyWindow t input ppb s
  | .refQualify t input => Sys2Proof.Machine.execRefQualify t input s
  | .buildOutDone t => Sys2Proof.Machine.execBuildOutDone t s
  | .houseLoopLocked t => Sys2Proof.Machine.execHouseLoopLocked t s
  | .refDisagree t a b ppbA ppbB => Sys2Proof.Machine.execRefDisagree t a b ppbA ppbB s
  | .planeFrameStart t plane slow => Sys2Proof.Machine.execPlaneFrameStart t plane slow s
  | .compareFire t unit => Sys2Proof.Machine.execCompareFire t unit s
  | .pulseEdge t output rising => Sys2Proof.Machine.execPulseEdge t output rising s
  | .aonTimeRecord t => Sys2Proof.Machine.execAonTimeRecord t s
  | .redStatus t c => Sys2Proof.Machine.execRedStatus t c s
  | .redLeaseRequest t c => Sys2Proof.Machine.execRedLeaseRequest t c s
  | .redLeaseRelease t c => Sys2Proof.Machine.execRedLeaseRelease t c s
  | .redResync t c => Sys2Proof.Machine.execRedResync t c s
  | .redHealth t c => Sys2Proof.Machine.execRedHealth t c s
  | .leaseInEdge t => Sys2Proof.Machine.execLeaseInEdge t s
  | .leaseLapse t => Sys2Proof.Machine.execLeaseLapse t s
  | .halyardHello t hello bad => Sys2Proof.Machine.execHalyardHello t hello bad s
  | .helloSend t => Sys2Proof.Machine.execHelloSend t s
  | .halyardEpochRecord t record bad => Sys2Proof.Machine.execHalyardEpochRecord t record bad s
  | .halyardEpochAck t tick status wanted bad => Sys2Proof.Machine.execHalyardEpochAck t tick status wanted bad s
  | .recordsUnacknowledged t => Sys2Proof.Machine.execRecordsUnacknowledged t s
  | .halyardCmdRelay t payload bad => Sys2Proof.Machine.execHalyardCmdRelay t payload bad s
  | .halyardCmdForward t payload bad => Sys2Proof.Machine.execHalyardCmdForward t payload bad s
  | .halyardCmdResult t session seq status params bad => Sys2Proof.Machine.execHalyardCmdResult t session seq status params bad s
  | .heldCommandTimeout t session seq => Sys2Proof.Machine.execHeldCommandTimeout t session seq s
  | .readoutDecision t plane rate => Sys2Proof.Machine.execReadoutDecision t plane rate s
  | .halyardReadout t plane rate choices bad => Sys2Proof.Machine.execHalyardReadout t plane rate choices bad s
  | .halyardSignatures t plane rate frame own peer bad => Sys2Proof.Machine.execHalyardSignatures t plane rate frame own peer bad s
  | .signatureWaitExpired t plane rate frame own => Sys2Proof.Machine.execSignatureWaitExpired t plane rate frame own s
  | .halyardProtSig t comp armed frame sigs bad => Sys2Proof.Machine.execHalyardProtSig t comp armed frame sigs bad s
  | .halyardHealth t report bad => Sys2Proof.Machine.execHalyardHealth t report bad s
  | .healthSend t => Sys2Proof.Machine.execHealthSend t s
  | .halyardLeaseClaim t gen bad => Sys2Proof.Machine.execHalyardLeaseClaim t gen bad s
  | .halyardBulkRequest t kind object offset bad => Sys2Proof.Machine.execHalyardBulkRequest t kind object offset bad s
  | .halyardResyncState t part snapshot bad => Sys2Proof.Machine.execHalyardResyncState t part snapshot bad s
  | .halyardObjectFill t object offset data bad => Sys2Proof.Machine.execHalyardObjectFill t object offset data bad s
  | .halyardLoss t => Sys2Proof.Machine.execHalyardLoss t s
  | .planePhaseDiverge t plane => Sys2Proof.Machine.execPlanePhaseDiverge t plane s
  | .resyncTimeout t => Sys2Proof.Machine.execResyncTimeout t s
  | .resyncRetry t => Sys2Proof.Machine.execResyncRetry t s
  | .settlingEnd t plane => Sys2Proof.Machine.execSettlingEnd t plane s
  | .safStatus t c => Sys2Proof.Machine.execSafStatus t c s
  | .safClear t c => Sys2Proof.Machine.execSafClear t c s
  | .safConfig t c => Sys2Proof.Machine.execSafConfig t c s
  | .evtRead t c => Sys2Proof.Machine.execEvtRead t c s
  | .evtInfo t c => Sys2Proof.Machine.execEvtInfo t c s
  | .evtRateSet t c => Sys2Proof.Machine.execEvtRateSet t c s
  | .eventRecordWrite t fails => Sys2Proof.Machine.execEventRecordWrite t fails s
  | .toggleGateRefresh t => Sys2Proof.Machine.execToggleGateRefresh t s
  | .gateExpired t => Sys2Proof.Machine.execGateExpired t s
  | .safePinReadback t phase a b => Sys2Proof.Machine.execSafePinReadback t phase a b s
  | .lockstepFail t channel => Sys2Proof.Machine.execLockstepFail t channel s
  | .safetyCoreReloadDone t flagged spurious => Sys2Proof.Machine.execSafetyCoreReloadDone t flagged spurious s
  | .comparatorSelfTest t flagged spurious => Sys2Proof.Machine.execComparatorSelfTest t flagged spurious s
  | .procStall t proc => Sys2Proof.Machine.execProcStall t proc s
  | .overTemp t sensor celsius => Sys2Proof.Machine.execOverTemp t sensor celsius s
  | .islandClockLost t island => Sys2Proof.Machine.execIslandClockLost t island s
  | .supervisorClock t khz => Sys2Proof.Machine.execSupervisorClock t khz s
  | .contextParityConfirm t level index => Sys2Proof.Machine.execContextParityConfirm t level index s
  | .contextReloadDone t cell => Sys2Proof.Machine.execContextReloadDone t cell s
  | .blockRestartDone t block => Sys2Proof.Machine.execBlockRestartDone t block s
  | .stewardReloadDone t region => Sys2Proof.Machine.execStewardReloadDone t region s
  | .privateSramParity t proc => Sys2Proof.Machine.execPrivateSramParity t proc s
  | .controlSramParity t place => Sys2Proof.Machine.execControlSramParity t place s
  | .backgroundSramCheck t proc place => Sys2Proof.Machine.execBackgroundSramCheck t proc place s
  | .busTransferResponse t port tag status badData issued => Sys2Proof.Machine.execBusTransferResponse t port tag status badData issued s
  | .targetTimeout t port tag issued => Sys2Proof.Machine.execTargetTimeout t port tag issued s
  | .masterPortReset t port left issued => Sys2Proof.Machine.execMasterPortReset t port left issued s
  | .portRetireDone t port => Sys2Proof.Machine.execPortRetireDone t port s
  | .lockedPairTimeout t waits issued => Sys2Proof.Machine.execLockedPairTimeout t waits issued s
  | .compatWindowRead t addr => Sys2Proof.Machine.execCompatWindowRead t addr s
  | .pwrStatus t c => Sys2Proof.Machine.execPwrStatus t c s
  | .pwrLevelSet t c => Sys2Proof.Machine.execPwrLevelSet t c s
  | .levelClockSwitch t => Sys2Proof.Machine.execLevelClockSwitch t s
  | .levelChangeDone t => Sys2Proof.Machine.execLevelChangeDone t s
  | .pwrSleep t c => Sys2Proof.Machine.execPwrSleep t c s
  | .stateImageWrite t flagged => Sys2Proof.Machine.execStateImageWrite t flagged s
  | .sleepCommitPoint t => Sys2Proof.Machine.execSleepCommitPoint t s
  | .sleepEnableDeassert t => Sys2Proof.Machine.execSleepEnableDeassert t s
  | .sleepAbandoned t mech => Sys2Proof.Machine.execSleepAbandoned t mech s
  | .wakeNLow t low => Sys2Proof.Machine.execWakeNLow t low s
  | .wakeAlarm t => Sys2Proof.Machine.execWakeAlarm t s
  | .wakeStart t => Sys2Proof.Machine.execWakeStart t s
  | .stateImageRestore t => Sys2Proof.Machine.execStateImageRestore t s
  | .s1Exit t => Sys2Proof.Machine.execS1Exit t s
  | .aonXtalLost t => Sys2Proof.Machine.execAonXtalLost t s
  | .imageStartNow t => Sys2Proof.Machine.execImageStartNow t s
  | .wakeScrubDone t canaries descs scrubbed ms => Sys2Proof.Machine.execWakeScrubDone t canaries descs scrubbed ms s
  | .zeroCrossing t output which => Sys2Proof.Machine.execZeroCrossing t output which s
  | .gainRampDone t output => Sys2Proof.Machine.execGainRampDone t output s
  | .converterSlip t channel => Sys2Proof.Machine.execConverterSlip t channel s
  | .realignSlewDone t out n => Sys2Proof.Machine.execRealignSlewDone t out n s
  | .refDisagreementEnd t a b => Sys2Proof.Machine.execRefDisagreementEnd t a b s
  | .ptpWtrExpired t => Sys2Proof.Machine.execPtpWtrExpired t s
  | .delayReqSend t => Sys2Proof.Machine.execDelayReqSend t s
  | .cueProcessorReloadDone t => Sys2Proof.Machine.execCueProcessorReloadDone t s
  | .islandClockRestored t island => Sys2Proof.Machine.execIslandClockRestored t island s
  | .aonXtalReturn t => Sys2Proof.Machine.execAonXtalReturn t s

end Sys2Proof.Machine
end

