-- ==== Sys2Proof/Machine/Step.lean ====
section
/-! DEFINITION. One step of the block: the command at the front of the queue, or, on an empty queue, the passing of one
clock period. -/

namespace Sys2Proof.Machine

/-- One step: the front command's effect with the queue's rest; an empty queue only lets time pass.
Log 1 (DESIGN CHOICE, safe).
Log 2 (DESIGN CHOICE, unsafe). -/
def step (s : State) : Host.Outcome State Fault Refusal :=
  match s.pending with
  | [] => .next (idle s)
  | c :: rest => exec c { s with pending := rest }

/-- The state with the command that a word spells put at the front of its queue.
Log 1 (DESIGN CHOICE, safe). -/
def State.withFetchWord (s : State) (nbits w : Nat) : State :=
  match decodeTableWord nbits w with
  | some c => { s with pending := c :: s.pending }
  | none => s

end Sys2Proof.Machine
end

