-- ==== Sys2Proof/Safety.lean ====
section
/-! DEFINITION. What counts as a sound state, and what no command may undo. -/

namespace Sys2Proof.Machine

/-- The host interpreter holds at most 256 commands in its queue (R106) and 4 reassembly contexts (R94). -/
def HostSt.fits (h : HostSt) : Bool := decide (h.queue.length ≤ 256) && decide (h.reasm.length ≤ 4)

/-- The recorder holds at most 256 records in its pending queue (R509). -/
def Recorder.fits (r : Recorder) : Bool := decide (r.pending.length ≤ 256)

/-- The two byte memories stand in their canonical form: the boot flash over erased cells, the frame store over cells that
read 0. -/
def State.memSound (s : State) : Bool := memWf 0xFF#8 s.flash.mem && memWf 0#8 s.fst.mem

/-- A sound state: its memories are canonical, and its queues hold no more than the device has room for. -/
def State.sound (s : State) : Bool := s.memSound && s.host.fits && s.evt.fits

/-- What no command undoes: the queue is not touched, time does not run backward, of the fuses only the rollback floor
changes and it only rises (R77), nothing put out is taken back, the counter of free values does not fall, and sound
memories stay sound. -/
structure Steady (s t : State) : Prop where
  pending : t.pending = s.pending
  clk     : s.clock.clk ≤ t.clock.clk
  fuses   : t.fuses = { s.fuses with floor := t.fuses.floor }
  floor   : s.fuses.floor ≤ t.fuses.floor
  out     : s.out <:+ t.out
  free    : s.free ≤ t.free
  sound   : s.sound = true → t.sound = true

/-- The parts of the state, for the statements that say what a command leaves unchanged. The queue of waiting commands is
none of them: no command touches it. -/
inductive Part where
  | clock | mode | halWaitMs | fuses | seq | aon | pins | start | cal | flash | host | evt | saf | ctl
  | pwr | xpt | cue | red | eth | tim | lane | flow | fst | cmp | aud | out | free | image
deriving DecidableEq, Repr

/-- A part is the same in two states. -/
def Part.same (p : Part) (s t : State) : Prop :=
  match p with
  | .clock => t.clock = s.clock
  | .mode => t.mode = s.mode
  | .halWaitMs => t.halWaitMs = s.halWaitMs
  | .fuses => t.fuses = s.fuses
  | .seq => t.seq = s.seq
  | .aon => t.aon = s.aon
  | .pins => t.pins = s.pins
  | .start => t.start = s.start
  | .cal => t.cal = s.cal
  | .flash => t.flash = s.flash
  | .host => t.host = s.host
  | .evt => t.evt = s.evt
  | .saf => t.saf = s.saf
  | .ctl => t.ctl = s.ctl
  | .pwr => t.pwr = s.pwr
  | .xpt => t.xpt = s.xpt
  | .cue => t.cue = s.cue
  | .red => t.red = s.red
  | .eth => t.eth = s.eth
  | .tim => t.tim = s.tim
  | .lane => t.lane = s.lane
  | .flow => t.flow = s.flow
  | .fst => t.fst = s.fst
  | .cmp => t.cmp = s.cmp
  | .aud => t.aud = s.aud
  | .out => t.out = s.out
  | .free => t.free = s.free
  | .image => t.image = s.image

/-- Every part of a first list stands in a second. -/
def Part.sub (k l : List Part) : Bool := k.all (fun p => l.contains p)

/-- A steady change that leaves every part outside a list as it was. -/
structure Moves (l : List Part) (s t : State) : Prop where
  steady : Steady s t
  frame  : ∀ p, p ∉ l → p.same s t

/-- The parts that a host command may move whatever it does: time, its reply and what a pair and the recorder note. -/
def replyParts : List Part := [.clock, .flash, .host, .evt, .red, .out]

/-- The parts of the state that a command may move; it leaves every other part as it was. -/
def instrParts (i : Instr) : List Part :=
  match i with
  | .vddAonUp _ _ _ => [.clock, .seq, .aon, .pins, .out]
  | .vddAonLost _ => replyParts ++ [.mode, .halWaitMs, .seq, .aon, .pins, .start, .cal, .saf, .ctl, .pwr, .xpt, .cue,
      .eth, .tim, .lane, .flow, .fst, .cmp, .aud, .image]
  | .pgInputAsserted _ _ => [.clock, .seq]
  | .sequenceStepDelayExpired _ => [.clock, .seq, .aon, .start, .saf, .out]
  | .pgTimeout _ => replyParts ++ [.mode, .halWaitMs, .seq, .aon, .pins, .start, .cal, .saf, .ctl, .pwr, .xpt, .cue,
      .eth, .tim, .lane, .flow, .fst, .cmp, .aud, .image]
  | .fixedDelayEnable _ => [.clock, .seq, .aon, .start, .saf, .out]
  | .pgInputLow _ _ => [.clock, .seq]
  | .powerFault _ _ => replyParts ++ [.mode, .halWaitMs, .seq, .aon, .pins, .start, .cal, .saf, .ctl, .pwr, .xpt,
      .cue, .eth, .tim, .lane, .flow, .fst, .cmp, .aud, .image]
  | .powerFaultRestart _ => [.clock, .seq, .out]
  | .rstNLow _ => replyParts ++ [.mode, .halWaitMs, .seq, .aon, .pins, .start, .cal, .saf, .ctl, .pwr, .xpt, .cue,
      .eth, .tim, .lane, .flow, .fst, .cmp, .aud, .image]
  | .rstNRelease _ _ => [.clock, .seq, .aon, .pins, .start, .saf, .out]
  | .pairRoleTest _ _ _ => [.clock, .pins]
  | .pllLocked _ _ => [.clock, .seq, .aon, .start, .tim]
  | .clkWaitRetry _ => [.clock, .seq]
  | .imageSelection _ _ => replyParts ++ [.mode, .halWaitMs, .aon, .pins, .start, .cal, .saf, .ctl, .pwr, .xpt, .cue,
      .eth, .tim, .lane, .flow, .fst, .cmp, .aud, .image]
  | .processorAlive _ _ => replyParts ++ [.mode, .fuses, .aon, .pins, .start, .cal, .saf, .pwr, .xpt, .cue, .tim,
      .lane, .flow, .cmp, .aud]
  | .aliveTimeout _ _ => replyParts ++ [.mode, .halWaitMs, .aon, .pins, .start, .cal, .saf, .ctl, .pwr, .xpt, .cue,
      .eth, .tim, .lane, .flow, .fst, .cmp, .aud, .image]
  | .laneWaitExpired _ => replyParts ++ [.mode, .aon, .pins, .start, .cal, .pwr, .xpt, .cue, .lane, .flow, .cmp, .aud]
  | .hbmTrainingDone _ _ => replyParts ++ [.mode, .aon, .pins, .start, .cal, .pwr, .xpt, .cue, .lane, .flow, .cmp,
      .aud]
  | .memoryInitDone _ _ => replyParts ++ [.mode, .aon, .pins, .start, .cal, .pwr, .xpt, .cue, .lane, .flow, .fst,
      .cmp, .aud]
  | .modeHalWaitExpired _ => replyParts ++ [.mode, .aon, .pins, .start, .pwr, .xpt, .cue, .lane, .flow, .cmp, .aud]
  | .trialConfirmTimer _ => [.clock, .fuses, .aon, .flash, .evt]
  | .commandDatagram _ _ => replyParts ++ [.aon]
  | .reassemblyTimeout _ _ => [.clock, .host]
  | .identify _ _ => replyParts
  | .status _ _ => replyParts
  | .modeSet _ _ => replyParts ++ [.mode, .aon, .pins, .start, .cal, .pwr, .xpt, .cue, .lane, .flow, .cmp, .aud]
  | .reset _ _ => replyParts
  | .resetDelayExpired _ => replyParts ++ [.mode, .halWaitMs, .aon, .pins, .start, .cal, .saf, .ctl, .pwr, .xpt, .cue,
      .eth, .tim, .lane, .flow, .fst, .cmp, .aud, .image]
  | .regRead _ _ => replyParts ++ [.ctl, .eth, .tim, .free]
  | .regWrite _ _ => replyParts ++ [.halWaitMs, .aon, .saf, .ctl, .xpt, .cue, .tim, .lane, .flow, .fst, .cmp, .aud]
  | .regRmw _ _ => replyParts ++ [.halWaitMs, .aon, .saf, .ctl, .xpt, .cue, .eth, .tim, .lane, .flow, .fst, .cmp,
      .aud, .free]
  | .regReadBlock _ _ => replyParts ++ [.ctl, .eth, .tim, .free]
  | .regWriteBlock _ _ => replyParts ++ [.halWaitMs, .aon, .saf, .ctl, .xpt, .cue, .tim, .lane, .flow, .fst, .cmp,
      .aud]
  | .registerWrite _ _ _ => [.clock, .halWaitMs, .aon, .flash, .evt, .saf, .ctl, .xpt, .cue, .red, .tim, .lane, .flow,
      .fst, .cmp, .aud]
  | .lockConfig _ _ => replyParts
  | .addrSet _ _ => replyParts ++ [.aon]
  | .sessionKeyLoad _ _ => replyParts ++ [.aon]
  | .sessionKeyErase _ _ => replyParts ++ [.aon]
  | .sessionInfo _ _ => replyParts
  | .echo _ _ => replyParts
  | .imgInfo _ _ => replyParts
  | .imgWriteBegin _ _ => replyParts ++ [.aon]
  | .slotEraseDone _ _ => [.clock, .flash]
  | .imgWrite _ _ => replyParts
  | .imageWriteTimeout _ => [.clock, .flash]
  | .imgWriteEnd _ _ => replyParts ++ [.aon]
  | .imgActivate _ _ => replyParts ++ [.aon]
  | .imgTrialAbort _ _ => replyParts ++ [.aon]
  | .imgConfirm _ _ => replyParts ++ [.fuses, .aon]
  | .laneStatus _ _ => replyParts
  | .laneConfig _ _ => replyParts ++ [.lane, .flow]
  | .lanePrbs _ _ => replyParts ++ [.lane, .flow]
  | .laneLoop _ _ => replyParts ++ [.lane, .flow]
  | .laneErrInject _ _ => replyParts ++ [.lane]
  | .errorInjection _ _ => [.clock, .flash, .evt, .lane, .out]
  | .laneCounters _ _ => replyParts
  | .laneRxEnableWrite _ _ _ => [.clock, .flash, .evt, .lane, .flow]
  | .ctleCodeWrite _ _ _ _ => [.clock, .flash, .evt, .lane, .flow]
  | .laneTxEnableWrite _ _ _ => [.clock, .lane]
  | .laneSignalLost _ _ => [.clock, .flash, .evt, .lane, .flow]
  | .laneSignalReturn _ _ => [.clock, .lane]
  | .ctleSweepDone _ _ _ => [.clock, .lane]
  | .ctleTrack _ _ _ _ _ => [.clock, .lane]
  | .laneBlockReceived _ _ _ _ _ => replyParts ++ [.mode, .aon, .pins, .start, .cal, .pwr, .xpt, .cue, .lane, .flow,
      .cmp, .aud]
  | .blockLockGained _ _ => replyParts ++ [.mode, .aon, .pins, .start, .cal, .pwr, .xpt, .cue, .lane, .flow, .cmp,
      .aud]
  | .blockLockLost _ _ => [.clock, .flash, .evt, .lane, .flow]
  | .berInterval _ _ _ => [.clock, .flash, .evt, .lane]
  | .rxFifoOverflow _ _ => [.clock, .flash, .evt, .lane, .flow]
  | .pennantReceived _ _ _ => [.clock, .flash, .evt, .lane, .flow]
  | .pennantLockGained _ _ => [.clock, .flash, .evt, .lane]
  | .pennantLockLost _ _ => [.clock, .flash, .evt, .lane, .flow]
  | .pennantTransmit _ _ => [.clock, .lane, .out]
  | .flowSrcDefine _ _ => replyParts ++ [.lane, .flow]
  | .flowDstDefine _ _ => replyParts ++ [.lane, .flow]
  | .flowDelete _ _ => replyParts ++ [.flow]
  | .flowGroupSet _ _ => replyParts ++ [.flow]
  | .flowParkSet _ _ => replyParts ++ [.flow]
  | .flowQuery _ _ => replyParts
  | .flowAdmitCheck _ _ => replyParts
  | .flowSrcCfgWrite _ _ _ => [.clock, .flow]
  | .flowTpCfgWrite _ _ _ => [.clock, .flow]
  | .sourceDeleteLands _ _ => replyParts ++ [.xpt, .flow, .cmp, .aud]
  | .destDeleteLands _ _ => replyParts ++ [.xpt, .flow, .cmp, .aud]
  | .sourceRedefineLands _ _ => replyParts ++ [.xpt, .flow, .cmp, .aud]
  | .flowFrameStart _ _ _ _ _ _ _ _ => [.clock, .flash, .evt, .flow]
  | .flowParcel _ _ _ _ _ _ _ _ => [.clock, .flash, .evt, .flow, .fst]
  | .mergeWindowExpired _ _ _ => [.clock, .flash, .evt, .flow]
  | .copyLost _ _ _ => [.clock, .flash, .evt, .flow]
  | .readOutPoint _ _ _ => replyParts ++ [.xpt, .flow, .fst, .cmp, .aud]
  | .holdFramesReached _ _ => [.clock, .flash, .evt, .flow]
  | .switchingLine _ _ => replyParts ++ [.xpt, .flow, .cmp, .aud]
  | .destFrameStart _ _ => [.clock, .flash, .evt, .eth, .flow, .fst, .aud, .out]
  | .planeWordReceived _ _ _ _ _ _ => replyParts ++ [.mode, .aon, .pins, .start, .saf, .pwr, .xpt, .cue, .lane, .flow,
      .cmp, .aud]
  | .xptTake _ _ => replyParts ++ [.xpt, .cmp]
  | .xptTakeBatch _ _ => replyParts ++ [.xpt, .cmp]
  | .xptTakeAt _ _ => replyParts ++ [.xpt, .cmp]
  | .xptQueueCancel _ _ => replyParts ++ [.xpt, .cmp, .aud]
  | .xptLock _ _ => replyParts ++ [.xpt]
  | .xptUnlock _ _ => replyParts ++ [.xpt]
  | .xptQuery _ _ => replyParts
  | .xptTpSet _ _ => replyParts ++ [.xpt, .tim]
  | .xptQueueStatus _ _ => replyParts
  | .epochTick _ => replyParts ++ [.mode, .aon, .pins, .start, .pwr, .xpt, .cue, .tim, .lane, .flow, .cmp, .aud,
      .free]
  | .cueLoad _ _ => replyParts ++ [.cue]
  | .cueRun _ _ => replyParts ++ [.cue]
  | .cueAbort _ _ => replyParts ++ [.xpt, .cue, .cmp, .aud]
  | .cueStatus _ _ => replyParts
  | .cueUnload _ _ => replyParts ++ [.cue]
  | .cueGroupExecute _ _ _ => replyParts ++ [.mode, .aon, .pins, .start, .saf, .pwr, .xpt, .cue, .lane, .flow, .cmp,
      .aud]
  | .cueEntriesRetry _ _ => [.clock, .flash, .evt, .xpt, .cue, .red, .cmp, .aud]
  | .cueStallExpired _ _ => replyParts ++ [.xpt, .cue, .cmp, .aud]
  | .waitFramesResume _ _ => [.clock, .cue]
  | .waitTimeResume _ _ => [.clock, .cue]
  | .cueTriggerStart _ _ => [.clock, .flash, .evt, .cue, .red, .tim]
  | .cueMark _ _ => [.clock, .flash, .evt, .cue]
  | .fstZoneSet _ _ => replyParts ++ [.fst]
  | .fstObjWrite _ _ => replyParts ++ [.mode, .aon, .pins, .start, .pwr, .xpt, .cue, .lane, .flow, .fst, .cmp, .aud]
  | .fstObjRead _ _ => replyParts ++ [.fst]
  | .fstObjFree _ _ => replyParts ++ [.mode, .aon, .pins, .start, .pwr, .xpt, .cue, .lane, .flow, .fst, .cmp, .aud]
  | .fstBankStatus _ _ => replyParts
  | .fstInvalidClear _ _ => replyParts ++ [.mode, .aon, .pins, .start, .pwr, .xpt, .cue, .lane, .flow, .fst, .cmp,
      .aud]
  | .fstRetainSet _ _ => replyParts ++ [.aon]
  | .objectLoadTimeout _ _ => [.clock, .fst]
  | .objectReferencerMove _ _ _ _ => [.clock, .fst]
  | .bankReinit _ _ _ => replyParts ++ [.mode, .aon, .pins, .start, .cal, .pwr, .xpt, .cue, .lane, .flow, .fst, .cmp,
      .aud]
  | .scrubRead _ _ _ _ _ _ => [.clock, .flash, .evt, .fst]
  | .confirmingRead _ _ _ _ _ _ _ => replyParts ++ [.mode, .aon, .pins, .start, .saf, .pwr, .xpt, .cue, .lane, .flow,
      .fst, .cmp, .aud]
  | .pcReadTimeout _ _ => replyParts ++ [.mode, .aon, .pins, .start, .saf, .pwr, .xpt, .cue, .lane, .flow, .fst, .cmp,
      .aud]
  | .bankRefresh _ _ _ => [.clock, .fst]
  | .stackTemperatureChange _ _ _ => [.clock, .fst]
  | .pageIdleExpired _ _ _ => [.clock, .fst]
  | .selfRefreshEntry _ _ => [.clock, .fst]
  | .writeDrain _ _ _ => [.clock, .fst]
  | .cmpConfig _ _ => replyParts ++ [.cmp]
  | .cmpLayerSet _ _ => replyParts ++ [.cmp]
  | .cmpCommit _ _ => replyParts ++ [.xpt]
  | .cmpLutLoad _ _ => replyParts ++ [.cmp]
  | .cmpSurfaceLoad _ _ => replyParts ++ [.mode, .aon, .pins, .start, .pwr, .xpt, .cue, .lane, .flow, .fst, .cmp,
      .aud]
  | .cmpDisable _ _ => replyParts ++ [.cmp]
  | .cmpQuery _ _ => replyParts
  | .cmpConfigLands _ _ => [.clock, .flash, .evt, .flow, .cmp]
  | .cmpDisableLands _ _ => replyParts ++ [.xpt, .flow, .fst, .cmp, .aud]
  | .outputFrameStart _ _ _ _ _ => replyParts ++ [.mode, .aon, .pins, .start, .saf, .pwr, .xpt, .cue, .tim, .lane,
      .flow, .fst, .cmp, .aud]
  | .lutCopyDone _ _ => replyParts ++ [.fst, .cmp]
  | .cmpProtWrite _ _ => replyParts ++ [.mode, .aon, .pins, .start, .pwr, .xpt, .cue, .lane, .flow, .fst, .cmp, .aud]
  | .cmpProtRectSet _ _ => replyParts ++ [.cmp]
  | .cmpProtGoldenSet _ _ => replyParts ++ [.cmp]
  | .cmpProtStatus _ _ => replyParts
  | .cmpProtCfgWrite _ _ _ => [.clock, .cmp]
  | .signatureReport _ _ _ _ _ _ _ => replyParts ++ [.mode, .aon, .pins, .start, .saf, .pwr, .xpt, .cue, .tim, .lane,
      .flow, .cmp, .aud]
  | .signatureReportMissing _ _ _ _ => replyParts ++ [.mode, .aon, .pins, .start, .saf, .pwr, .xpt, .cue, .tim, .lane,
      .flow, .cmp, .aud]
  | .audRoute _ _ => replyParts ++ [.xpt, .aud]
  | .audRouteBatch _ _ => replyParts ++ [.xpt, .aud]
  | .audGain _ _ => replyParts ++ [.xpt]
  | .audFollow _ _ => replyParts ++ [.aud]
  | .audPortConfig _ _ => replyParts ++ [.aud]
  | .audStreamConfig _ _ => replyParts ++ [.aud]
  | .audQuery _ _ => replyParts
  | .audioChangeLands _ _ => [.clock, .host, .xpt, .red, .aud, .out]
  | .zeroCrossingTimeout _ _ => [.clock, .aud]
  | .audioParity _ _ _ => replyParts ++ [.mode, .aon, .pins, .start, .saf, .pwr, .xpt, .cue, .lane, .flow, .cmp, .aud]
  | .audioPortRateWindow _ _ _ => [.clock, .flash, .evt, .aud]
  | .audioPortStop _ _ => [.clock, .flash, .evt, .aud]
  | .audioPortFrame _ _ _ _ _ _ _ _ => [.clock, .flash, .evt, .aud, .out]
  | .audioStreamLate _ _ => [.clock, .flash, .evt, .aud]
  | .ethPortConfig _ _ => replyParts ++ [.eth]
  | .ethIpConfig _ _ => replyParts ++ [.aon, .eth]
  | .ethCounters _ _ => replyParts
  | .ethTxFlow _ _ => replyParts ++ [.eth]
  | .ethRxFlow _ _ => replyParts ++ [.eth]
  | .ethFlowQuery _ _ => replyParts
  | .ethPortCntLowRead _ _ _ _ => [.clock, .eth]
  | .ethModeTakesEffect _ => [.clock, .aon, .flash, .evt, .red, .eth, .tim, .out]
  | .pcsBlockLock _ _ => [.clock, .flash, .evt, .eth]
  | .linkUp _ _ => [.clock, .flash, .evt, .eth, .out]
  | .pcsAlignmentLost _ _ => [.clock, .flash, .evt, .eth]
  | .linkFaultExpired _ _ _ => [.clock, .flash, .evt, .eth]
  | .preemptVerifyExpired _ _ => [.clock, .flash, .evt, .eth, .out]
  | .ethFrameReceived _ _ _ => replyParts ++ [.aon, .eth, .tim, .aud]
  | .ringCheckSend _ => [.clock, .flash, .evt, .eth, .out]
  | .ringCheckMissing _ => [.clock, .flash, .evt, .eth]
  | .pauseExpired _ _ => [.clock, .flash, .evt, .eth]
  | .pauseTxThreshold _ _ _ => [.clock, .flash, .evt, .eth, .out]
  | .pauseRepeat _ _ => [.clock, .flash, .evt, .eth, .out]
  | .igmpQueryReceived _ _ _ _ _ => [.clock, .flash, .evt, .eth, .out]
  | .igmpReportSend _ _ => [.clock, .flash, .evt, .eth, .out]
  | .addressProbe _ _ _ _ _ => [.clock, .flash, .evt, .eth, .out]
  | .mergeRelease _ _ _ => [.clock, .flash, .evt, .eth, .aud]
  | .legLost _ _ _ => [.clock, .flash, .evt, .eth]
  | .legRestored _ _ _ => [.clock, .flash, .evt, .eth]
  | .mediaPacketSend _ _ _ _ _ _ _ => [.clock, .flash, .evt, .eth, .out]
  | .timStatus _ _ => replyParts
  | .timRefConfig _ _ => replyParts ++ [.tim]
  | .timPtpConfig _ _ => replyParts ++ [.tim]
  | .timCompareSet _ _ => replyParts ++ [.tim]
  | .timPulseSet _ _ => replyParts ++ [.tim]
  | .timRealign _ _ => replyParts ++ [.xpt]
  | .timNowNsRead _ _ => [.clock, .tim]
  | .realignLands _ _ _ => replyParts ++ [.xpt, .tim]
  | .announceTimeout _ _ => [.clock, .flash, .evt, .red, .tim, .out]
  | .holdoverLimit _ _ => [.clock, .flash, .evt, .red, .tim, .out]
  | .refEdge _ _ => [.clock, .flash, .evt, .red, .tim, .out]
  | .refAbsent _ _ => [.clock, .flash, .evt, .red, .tim, .out]
  | .refFrequencyWindow _ _ _ => [.clock, .flash, .evt, .red, .tim, .out]
  | .refQualify _ _ => [.clock, .flash, .evt, .red, .tim, .out]
  | .buildOutDone _ => [.clock, .tim]
  | .houseLoopLocked _ => [.clock, .flash, .evt, .red, .tim, .out]
  | .refDisagree _ _ _ _ _ => [.clock, .flash, .evt, .red, .tim, .out]
  | .planeFrameStart _ _ _ => [.clock, .flash, .evt, .cue, .tim, .flow]
  | .compareFire _ _ => [.clock, .flash, .evt, .tim, .out]
  | .pulseEdge _ _ _ => [.clock, .cue, .tim, .out]
  | .aonTimeRecord _ => [.clock, .aon]
  | .redStatus _ _ => replyParts
  | .redLeaseRequest _ _ => replyParts ++ [.mode, .aon, .pins, .start, .pwr, .xpt, .cue, .lane, .flow, .cmp, .aud]
  | .redLeaseRelease _ _ => replyParts ++ [.mode, .aon, .pins, .start, .pwr, .xpt, .cue, .lane, .flow, .cmp, .aud]
  | .redResync _ _ => replyParts ++ [.mode, .aon, .pins, .start, .pwr, .xpt, .cue, .lane, .flow, .cmp, .aud]
  | .redHealth _ _ => replyParts
  | .leaseInEdge _ => replyParts ++ [.mode, .aon, .pins, .start, .pwr, .xpt, .cue, .lane, .flow, .cmp, .aud]
  | .leaseLapse _ => replyParts ++ [.mode, .aon, .pins, .start, .pwr, .xpt, .cue, .lane, .flow, .cmp, .aud]
  | .halyardHello _ _ _ => replyParts ++ [.mode, .aon, .pins, .start, .pwr, .xpt, .cue, .lane, .flow, .cmp, .aud]
  | .helloSend _ => [.clock, .red, .out]
  | .halyardEpochRecord _ _ _ => replyParts ++ [.mode, .halWaitMs, .aon, .pins, .start, .saf, .ctl, .pwr, .xpt, .cue,
      .eth, .tim, .lane, .flow, .fst, .cmp, .aud, .free]
  | .halyardEpochAck _ _ _ _ _ => replyParts ++ [.mode, .aon, .pins, .start, .pwr, .xpt, .cue, .lane, .flow, .cmp,
      .aud]
  | .recordsUnacknowledged _ => replyParts ++ [.mode, .aon, .pins, .start, .pwr, .xpt, .cue, .lane, .flow, .cmp, .aud]
  | .halyardCmdRelay _ _ _ => replyParts ++ [.aon]
  | .halyardCmdForward _ _ _ => [.clock, .red]
  | .halyardCmdResult _ _ _ _ _ _ => [.clock, .host, .red, .out]
  | .heldCommandTimeout _ _ _ => [.clock, .red]
  | .readoutDecision _ _ _ => [.clock, .flash, .evt, .red, .out]
  | .halyardReadout _ _ _ _ _ => [.clock, .red]
  | .halyardSignatures _ _ _ _ _ _ _ => replyParts ++ [.mode, .aon, .pins, .start, .pwr, .xpt, .cue, .lane, .flow,
      .cmp, .aud]
  | .signatureWaitExpired _ _ _ _ _ => [.clock, .red, .out]
  | .halyardProtSig _ _ _ _ _ _ => [.clock, .flash, .evt, .red, .cmp]
  | .halyardHealth _ _ _ => replyParts ++ [.mode, .aon, .pins, .start, .pwr, .xpt, .cue, .lane, .flow, .cmp, .aud]
  | .healthSend _ => [.clock, .flash, .evt, .red, .out]
  | .halyardLeaseClaim _ _ _ => [.clock, .red]
  | .halyardBulkRequest _ _ _ _ _ => [.clock, .red, .out]
  | .halyardResyncState _ _ _ _ => replyParts ++ [.mode, .halWaitMs, .aon, .pins, .start, .saf, .ctl, .pwr, .xpt,
      .cue, .eth, .tim, .lane, .flow, .fst, .cmp, .aud, .free]
  | .halyardObjectFill _ _ _ _ _ => replyParts ++ [.mode, .aon, .pins, .start, .pwr, .xpt, .cue, .lane, .flow, .fst,
      .cmp, .aud]
  | .halyardLoss _ => replyParts ++ [.mode, .aon, .pins, .start, .pwr, .xpt, .cue, .lane, .flow, .cmp, .aud]
  | .planePhaseDiverge _ _ => replyParts ++ [.mode, .aon, .pins, .start, .pwr, .xpt, .cue, .lane, .flow, .cmp, .aud]
  | .resyncTimeout _ => replyParts ++ [.mode, .aon, .pins, .start, .pwr, .xpt, .cue, .lane, .flow, .cmp, .aud]
  | .resyncRetry _ => replyParts ++ [.mode, .aon, .pins, .start, .pwr, .xpt, .cue, .lane, .flow, .cmp, .aud]
  | .settlingEnd _ _ => [.clock, .red]
  | .safStatus _ _ => replyParts
  | .safClear _ _ => replyParts ++ [.mode, .aon, .pins, .start, .cal, .saf, .pwr, .xpt, .cue, .lane, .flow, .cmp,
      .aud]
  | .safConfig _ _ => replyParts ++ [.saf]
  | .evtRead _ _ => replyParts
  | .evtInfo _ _ => replyParts
  | .evtRateSet _ _ => replyParts
  | .eventRecordWrite _ _ => [.clock, .flash, .evt]
  | .toggleGateRefresh _ => [.clock, .saf]
  | .gateExpired _ => replyParts ++ [.mode, .aon, .pins, .start, .saf, .pwr, .xpt, .cue, .tim, .lane, .flow, .cmp,
      .aud]
  | .safePinReadback _ _ _ _ => replyParts ++ [.mode, .aon, .pins, .start, .saf, .pwr, .xpt, .cue, .tim, .lane, .flow,
      .cmp, .aud]
  | .lockstepFail _ _ => replyParts ++ [.mode, .aon, .pins, .start, .saf, .pwr, .xpt, .cue, .tim, .lane, .flow, .cmp,
      .aud]
  | .safetyCoreReloadDone _ _ _ => replyParts ++ [.mode, .aon, .pins, .start, .saf, .ctl, .pwr, .xpt, .cue, .tim,
      .lane, .flow, .cmp, .aud]
  | .comparatorSelfTest _ _ _ => replyParts ++ [.mode, .aon, .pins, .start, .saf, .pwr, .xpt, .cue, .tim, .lane,
      .flow, .cmp, .aud]
  | .procStall _ _ => replyParts ++ [.mode, .halWaitMs, .aon, .pins, .start, .cal, .saf, .ctl, .pwr, .xpt, .cue, .eth,
      .tim, .lane, .flow, .fst, .cmp, .aud, .image]
  | .overTemp _ _ _ => replyParts ++ [.mode, .aon, .pins, .start, .saf, .pwr, .xpt, .cue, .lane, .flow, .cmp, .aud]
  | .islandClockLost _ _ => replyParts ++ [.mode, .aon, .pins, .start, .saf, .pwr, .xpt, .cue, .tim, .lane, .flow,
      .cmp, .aud]
  | .supervisorClock _ _ => replyParts ++ [.mode, .aon, .pins, .start, .saf, .pwr, .xpt, .cue, .tim, .lane, .flow,
      .cmp, .aud]
  | .contextParityConfirm _ _ _ => replyParts ++ [.mode, .aon, .pins, .start, .saf, .ctl, .pwr, .xpt, .cue, .lane,
      .flow, .cmp, .aud]
  | .contextReloadDone _ _ => replyParts ++ [.mode, .aon, .pins, .start, .saf, .ctl, .pwr, .xpt, .cue, .lane, .flow,
      .cmp, .aud]
  | .blockRestartDone _ _ => [.clock, .saf, .flow]
  | .stewardReloadDone _ _ => [.clock, .saf, .ctl]
  | .privateSramParity _ _ => replyParts ++ [.mode, .aon, .pins, .start, .saf, .ctl, .pwr, .xpt, .cue, .tim, .lane,
      .flow, .cmp, .aud, .free]
  | .controlSramParity _ _ => replyParts ++ [.mode, .aon, .pins, .start, .saf, .ctl, .pwr, .xpt, .cue, .lane, .flow,
      .cmp, .aud]
  | .backgroundSramCheck _ _ _ => replyParts ++ [.mode, .aon, .pins, .start, .saf, .ctl, .pwr, .xpt, .cue, .tim,
      .lane, .flow, .cmp, .aud, .free]
  | .busTransferResponse _ _ _ _ _ _ => replyParts ++ [.mode, .aon, .pins, .start, .saf, .ctl, .pwr, .xpt, .cue,
      .lane, .flow, .cmp, .aud]
  | .targetTimeout _ _ _ _ => [.clock, .ctl]
  | .masterPortReset _ _ _ _ => [.clock, .ctl]
  | .portRetireDone _ _ => [.clock, .ctl]
  | .lockedPairTimeout _ _ _ => [.clock, .ctl]
  | .compatWindowRead _ _ => [.clock, .evt, .ctl, .eth, .tim, .out, .free]
  | .pwrStatus _ _ => replyParts
  | .pwrLevelSet _ _ => replyParts ++ [.pins, .pwr]
  | .levelClockSwitch _ => [.clock, .pins, .pwr, .out]
  | .levelChangeDone _ => replyParts ++ [.pwr]
  | .pwrSleep _ _ => replyParts ++ [.mode, .aon, .pins, .start, .pwr, .xpt, .cue, .eth, .tim, .lane, .flow, .cmp,
      .aud]
  | .stateImageWrite _ _ => [.clock, .aon, .pwr, .fst, .free, .image]
  | .sleepCommitPoint _ => replyParts ++ [.mode, .halWaitMs, .aon, .pins, .start, .cal, .saf, .ctl, .pwr, .xpt, .cue,
      .eth, .tim, .lane, .flow, .fst, .cmp, .aud, .image]
  | .sleepEnableDeassert _ => [.clock, .seq, .pwr, .out]
  | .sleepAbandoned _ _ => replyParts ++ [.mode, .halWaitMs, .aon, .pins, .start, .cal, .saf, .ctl, .pwr, .xpt, .cue,
      .eth, .tim, .lane, .flow, .fst, .cmp, .aud, .image]
  | .wakeNLow _ _ => [.clock, .aon, .pins, .pwr]
  | .wakeAlarm _ => [.clock, .aon, .pwr]
  | .wakeStart _ => replyParts ++ [.mode, .halWaitMs, .seq, .aon, .pins, .start, .cal, .saf, .ctl, .pwr, .xpt, .cue,
      .eth, .tim, .lane, .flow, .fst, .cmp, .aud, .image]
  | .stateImageRestore _ => replyParts ++ [.mode, .halWaitMs, .aon, .pins, .start, .cal, .saf, .ctl, .pwr, .xpt, .cue,
      .eth, .tim, .lane, .flow, .fst, .cmp, .aud, .image]
  | .s1Exit _ => replyParts ++ [.mode, .aon, .pins, .start, .pwr, .xpt, .cue, .lane, .flow, .cmp, .aud]
  | .aonXtalLost _ => [.clock, .aon, .flash, .evt]
  | .imageStartNow _ => replyParts ++ [.mode, .halWaitMs, .aon, .pins, .start, .cal, .saf, .ctl, .pwr, .xpt, .cue,
      .eth, .tim, .lane, .flow, .fst, .cmp, .aud, .image]
  | .wakeScrubDone _ _ _ _ _ => replyParts ++ [.mode, .aon, .pins, .start, .cal, .pwr, .xpt, .cue, .lane, .flow, .fst,
      .cmp, .aud, .image]
  | .zeroCrossing _ _ _ => [.clock, .aud]
  | .gainRampDone _ _ => [.clock, .aud]
  | .converterSlip _ _ => [.clock, .aud]
  | .realignSlewDone _ _ _ => [.clock, .flash, .evt, .tim]
  | .refDisagreementEnd _ _ _ => [.clock, .flash, .evt, .red, .tim, .out]
  | .ptpWtrExpired _ => [.clock, .flash, .evt, .red, .tim, .out]
  | .delayReqSend _ => [.clock, .flash, .evt, .eth, .tim, .out]
  | .cueProcessorReloadDone _ => [.clock, .flash, .evt, .saf, .ctl, .cue]
  | .islandClockRestored _ _ => [.clock, .saf]
  | .aonXtalReturn _ => [.clock, .aon]

/-- A host command comes to its own checks: the device executes commands, and neither the role nor the mode refuses it
(steps 13 and 14 of Table 3.3). A command that the partner's record names is not judged, and is no case of this. -/
def admitted (op : Op) (t : Nat) (c : HostCmd) (s : State) : Bool :=
  hostServes (advance t s) && !c.named && (roleRefusal op c).isNone && (modeRefusal op c (dequeue op c (advance t s))).isNone

/-- The state in which a host command is judged and takes effect: its time has come, and it has left the queue. -/
def begun (op : Op) (t : Nat) (c : HostCmd) (s : State) : State := dequeue op c (advance t s)

/-- A host command passes every check of Table 3.3, its opcode's own among them. -/
def accepted (op : Op) (own : Refuse) (t : Nat) (c : HostCmd) (s : State) : Bool :=
  admitted op t c s && (own (begun op t c s) c).isNone

/-- The course of an accepted command after its effect: it is counted, answered, and named to the partner of a pair in
step. -/
def answered (op : Op) (c : HostCmd) (st : Status) (ps : List Byte) (x : State) : State :=
  pairAfter op c true st ps (finish op c st ps (if st.passed then countPassed x else x))

/-- The course of an accepted command whose reply comes later. -/
def deferred (op : Op) (c : HostCmd) (x : State) : State := pairAfter op c true .scheduled [] (countPassed x)

/-- The opcode rows: opcode, own checks, instant and packet. The three takes, which also count what a lock refuses, are
not among them. -/
def commandOf (i : Instr) : Option (Op × Refuse × Nat × HostCmd) :=
  match i with
  | .identify t c => some (.identify, refuseIdentify, t, c)
  | .status t c => some (.status, refuseStatus, t, c)
  | .modeSet t c => some (.modeSet, refuseModeSet, t, c)
  | .reset t c => some (.reset, refuseReset, t, c)
  | .regRead t c => some (.regRead, refuseRegRead, t, c)
  | .regWrite t c => some (.regWrite, refuseRegWrite, t, c)
  | .regRmw t c => some (.regRmw, refuseRegRmw, t, c)
  | .regReadBlock t c => some (.regReadBlock, refuseRegReadBlock, t, c)
  | .regWriteBlock t c => some (.regWriteBlock, refuseRegWriteBlock, t, c)
  | .lockConfig t c => some (.lockConfig, refuseLockConfig, t, c)
  | .addrSet t c => some (.addrSet, refuseAddrSet, t, c)
  | .sessionKeyLoad t c => some (.sessionKeyLoad, refuseKeyLoad, t, c)
  | .sessionKeyErase t c => some (.sessionKeyErase, refuseKeyErase, t, c)
  | .sessionInfo t c => some (.sessionInfo, refuseSessionInfo, t, c)
  | .echo t c => some (.echo, refuseEcho, t, c)
  | .imgInfo t c => some (.imgInfo, refuseImgInfo, t, c)
  | .imgWriteBegin t c => some (.imgWriteBegin, refuseImgWriteBegin, t, c)
  | .imgWrite t c => some (.imgWrite, refuseImgWrite, t, c)
  | .imgWriteEnd t c => some (.imgWriteEnd, refuseImgWriteEnd, t, c)
  | .imgActivate t c => some (.imgActivate, refuseImgActivate, t, c)
  | .imgTrialAbort t c => some (.imgTrialAbort, refuseImgTrialAbort, t, c)
  | .imgConfirm t c => some (.imgConfirm, refuseImgConfirm, t, c)
  | .laneStatus t c => some (.laneStatus, refuseLaneStatus, t, c)
  | .laneConfig t c => some (.laneConfig, refuseLaneConfig, t, c)
  | .lanePrbs t c => some (.lanePrbs, refuseLanePrbs, t, c)
  | .laneLoop t c => some (.laneLoop, refuseLaneLoop, t, c)
  | .laneErrInject t c => some (.laneErrInject, refuseLaneErrInject, t, c)
  | .laneCounters t c => some (.laneCounters, refuseLaneCounters, t, c)
  | .flowSrcDefine t c => some (.flowSrcDefine, refuseFlowSrcDefine, t, c)
  | .flowDstDefine t c => some (.flowDstDefine, refuseFlowDstDefine, t, c)
  | .flowDelete t c => some (.flowDelete, refuseFlowDelete, t, c)
  | .flowGroupSet t c => some (.flowGroupSet, refuseFlowGroupSet, t, c)
  | .flowParkSet t c => some (.flowParkSet, refuseFlowParkSet, t, c)
  | .flowQuery t c => some (.flowQuery, refuseFlowQuery, t, c)
  | .flowAdmitCheck t c => some (.flowAdmitCheck, refuseFlowAdmitCheck, t, c)
  | .xptQueueCancel t c => some (.xptQueueCancel, refuseXptQueueCancel, t, c)
  | .xptLock t c => some (.xptLock, refuseXptLock, t, c)
  | .xptUnlock t c => some (.xptUnlock, refuseXptUnlock, t, c)
  | .xptQuery t c => some (.xptQuery, refuseXptQuery, t, c)
  | .xptTpSet t c => some (.xptTpSet, refuseXptTpSet, t, c)
  | .xptQueueStatus t c => some (.xptQueueStatus, refuseXptQueueStatus, t, c)
  | .cueLoad t c => some (.cueLoad, refuseCueLoad, t, c)
  | .cueAbort t c => some (.cueAbort, refuseCueAbort, t, c)
  | .cueStatus t c => some (.cueStatus, refuseCueStatus, t, c)
  | .cueUnload t c => some (.cueUnload, refuseCueUnload, t, c)
  | .fstZoneSet t c => some (.fstZoneSet, refuseFstZoneSet, t, c)
  | .fstObjWrite t c => some (.fstObjWrite, refuseFstObjWrite, t, c)
  | .fstObjRead t c => some (.fstObjRead, refuseFstObjRead, t, c)
  | .fstObjFree t c => some (.fstObjFree, refuseFstObjFree, t, c)
  | .fstBankStatus t c => some (.fstBankStatus, refuseFstBankStatus, t, c)
  | .fstInvalidClear t c => some (.fstInvalidClear, refuseFstInvalidClear, t, c)
  | .fstRetainSet t c => some (.fstRetainSet, refuseFstRetainSet, t, c)
  | .cmpConfig t c => some (.cmpConfig, refuseCmpConfig, t, c)
  | .cmpLayerSet t c => some (.cmpLayerSet, refuseCmpLayerSet, t, c)
  | .cmpCommit t c => some (.cmpCommit, refuseCmpCommit, t, c)
  | .cmpLutLoad t c => some (.cmpLutLoad, refuseCmpLutLoad, t, c)
  | .cmpSurfaceLoad t c => some (.cmpSurfaceLoad, refuseCmpSurfaceLoad, t, c)
  | .cmpDisable t c => some (.cmpDisable, refuseCmpDisable, t, c)
  | .cmpQuery t c => some (.cmpQuery, refuseCmpQuery, t, c)
  | .cmpProtWrite t c => some (.cmpProtWrite, refuseCmpProtWrite, t, c)
  | .cmpProtRectSet t c => some (.cmpProtRectSet, refuseCmpProtRectSet, t, c)
  | .cmpProtGoldenSet t c => some (.cmpProtGoldenSet, refuseCmpProtGoldenSet, t, c)
  | .cmpProtStatus t c => some (.cmpProtStatus, refuseCmpProtStatus, t, c)
  | .audRoute t c => some (.audRoute, refuseAudRoute, t, c)
  | .audRouteBatch t c => some (.audRouteBatch, refuseAudRouteBatch, t, c)
  | .audGain t c => some (.audGain, refuseAudGain, t, c)
  | .audFollow t c => some (.audFollow, refuseAudFollow, t, c)
  | .audPortConfig t c => some (.audPortConfig, refuseAudPortConfig, t, c)
  | .audStreamConfig t c => some (.audStreamConfig, refuseAudStreamConfig, t, c)
  | .audQuery t c => some (.audQuery, refuseAudQuery, t, c)
  | .ethPortConfig t c => some (.ethPortConfig, refuseEthPortConfig, t, c)
  | .ethIpConfig t c => some (.ethIpConfig, refuseEthIpConfig, t, c)
  | .ethCounters t c => some (.ethCounters, refuseEthCounters, t, c)
  | .ethTxFlow t c => some (.ethTxFlow, refuseEthTxFlow, t, c)
  | .ethRxFlow t c => some (.ethRxFlow, refuseEthRxFlow, t, c)
  | .ethFlowQuery t c => some (.ethFlowQuery, refuseEthFlowQuery, t, c)
  | .timStatus t c => some (.timStatus, refuseTimStatus, t, c)
  | .timRefConfig t c => some (.timRefConfig, refuseTimRefConfig, t, c)
  | .timPtpConfig t c => some (.timPtpConfig, refuseTimPtpConfig, t, c)
  | .timCompareSet t c => some (.timCompareSet, refuseTimCompareSet, t, c)
  | .timPulseSet t c => some (.timPulseSet, refuseTimPulseSet, t, c)
  | .timRealign t c => some (.timRealign, refuseTimRealign, t, c)
  | .redStatus t c => some (.redStatus, refuseRedStatus, t, c)
  | .redLeaseRequest t c => some (.redLeaseRequest, refuseRedLeaseRequest, t, c)
  | .redLeaseRelease t c => some (.redLeaseRelease, refuseRedLeaseRelease, t, c)
  | .redResync t c => some (.redResync, refuseRedResync, t, c)
  | .redHealth t c => some (.redHealth, refuseRedHealth, t, c)
  | .safStatus t c => some (.safStatus, refuseSafStatus, t, c)
  | .safClear t c => some (.safClear, refuseSafClear, t, c)
  | .safConfig t c => some (.safConfig, refuseSafConfig, t, c)
  | .evtRead t c => some (.evtRead, refuseEvtRead, t, c)
  | .evtInfo t c => some (.evtInfo, refuseEvtInfo, t, c)
  | .evtRateSet t c => some (.evtRateSet, refuseEvtRateSet, t, c)
  | .pwrStatus t c => some (.pwrStatus, refusePwrStatus, t, c)
  | .pwrLevelSet t c => some (.pwrLevelSet, refusePwrLevelSet, t, c)
  | .pwrSleep t c => some (.pwrSleep, refusePwrSleep, t, c)
  | _ => none

end Sys2Proof.Machine
end

