-- ==== Sys2Proof/WellFormed.lean ====
section
/-! DEFINITION. Which commands are well formed: they name objects of the device (Table 0.6, R14), and their fields fit the
widths that the rules give them. -/

namespace Sys2Proof

/-- The fields of a command packet fit Table 3.1. -/
def HostCmd.fits (c : HostCmd) : Bool :=
  decide (c.session < 2 ^ 16) && decide (c.seq < 2 ^ 32) && decide (c.scope < 4) && decide (c.addr < 2 ^ 14)
    && decide (c.port < 2) && decide (c.srcIp < 2 ^ 128) && decide (c.srcPort < 2 ^ 16) && decide (c.dstPort < 2 ^ 16)
    && decide (c.params.length ≤ 255 * 8192)

/-- The fields of a datagram fit its headers. -/
def Datagram.fits (d : Datagram) : Bool :=
  decide (d.port < 2) && decide (d.srcIp < 2 ^ 128) && decide (d.srcPort < 2 ^ 16) && decide (d.dstPort < 2 ^ 16)
    && decide (d.dest < 3)

/-- The command names objects that the device has (Table 0.6). -/
def Instr.objectsExist (i : Instr) : Bool :=
  match i with
  | .vddAonUp _ _ _ => true
  | .vddAonLost _ => true
  | .pgInputAsserted _ pg => decide (pg ≤ 4)
  | .sequenceStepDelayExpired _ => true
  | .pgTimeout _ => true
  | .fixedDelayEnable _ => true
  | .pgInputLow _ pg => decide (pg ≤ 4)
  | .powerFault _ pg => decide (pg ≤ 4)
  | .powerFaultRestart _ => true
  | .rstNLow _ => true
  | .rstNRelease _ _ => true
  | .pairRoleTest _ _ _ => true
  | .pllLocked _ _ => true
  | .clkWaitRetry _ => true
  | .imageSelection _ _ => true
  | .processorAlive _ proc => decide (proc ≤ 6)
  | .aliveTimeout _ proc => decide (proc ≤ 6)
  | .laneWaitExpired _ => true
  | .hbmTrainingDone _ _ => true
  | .memoryInitDone _ _ => true
  | .modeHalWaitExpired _ => true
  | .trialConfirmTimer _ => true
  | .commandDatagram _ _ => true
  | .reassemblyTimeout _ _ => true
  | .identify _ _ => true
  | .status _ _ => true
  | .modeSet _ _ => true
  | .reset _ _ => true
  | .resetDelayExpired _ => true
  | .regRead _ _ => true
  | .regWrite _ _ => true
  | .regRmw _ _ => true
  | .regReadBlock _ _ => true
  | .regWriteBlock _ _ => true
  | .registerWrite _ _ _ => true
  | .lockConfig _ _ => true
  | .addrSet _ _ => true
  | .sessionKeyLoad _ _ => true
  | .sessionKeyErase _ _ => true
  | .sessionInfo _ _ => true
  | .echo _ _ => true
  | .imgInfo _ _ => true
  | .imgWriteBegin _ _ => true
  | .slotEraseDone _ slot => decide (slot ≤ 2)
  | .imgWrite _ _ => true
  | .imageWriteTimeout _ => true
  | .imgWriteEnd _ _ => true
  | .imgActivate _ _ => true
  | .imgTrialAbort _ _ => true
  | .imgConfirm _ _ => true
  | .laneStatus _ _ => true
  | .laneConfig _ _ => true
  | .lanePrbs _ _ => true
  | .laneLoop _ _ => true
  | .laneErrInject _ _ => true
  | .errorInjection _ lane => decide (lane ≤ 131)
  | .laneCounters _ _ => true
  | .laneRxEnableWrite _ lane _ => decide (lane ≤ 131)
  | .ctleCodeWrite _ lane _ _ => decide (lane ≤ 131)
  | .laneTxEnableWrite _ lane _ => decide (lane ≤ 131)
  | .laneSignalLost _ lane => decide (lane ≤ 131)
  | .laneSignalReturn _ lane => decide (lane ≤ 131)
  | .ctleSweepDone _ lane _ => decide (lane ≤ 131)
  | .ctleTrack _ lane _ _ _ => decide (lane ≤ 131)
  | .laneBlockReceived _ lane _ _ _ => decide (lane ≤ 131)
  | .blockLockGained _ lane => decide (lane ≤ 131)
  | .blockLockLost _ lane => decide (lane ≤ 131)
  | .berInterval _ lane _ => decide (lane ≤ 131)
  | .rxFifoOverflow _ lane => decide (lane ≤ 131)
  | .pennantReceived _ lane _ => decide (lane ≤ 131)
  | .pennantLockGained _ lane => decide (lane ≤ 131)
  | .pennantLockLost _ lane => decide (lane ≤ 131)
  | .pennantTransmit _ lane => decide (lane ≤ 131)
  | .flowSrcDefine _ _ => true
  | .flowDstDefine _ _ => true
  | .flowDelete _ _ => true
  | .flowGroupSet _ _ => true
  | .flowParkSet _ _ => true
  | .flowQuery _ _ => true
  | .flowAdmitCheck _ _ => true
  | .flowSrcCfgWrite _ source _ => decide (source ≤ 1023)
  | .flowTpCfgWrite _ plane _ => decide (plane ≤ 7)
  | .sourceDeleteLands _ source => decide (source ≤ 1023)
  | .destDeleteLands _ dest => decide (dest ≤ 1023)
  | .sourceRedefineLands _ source => decide (source ≤ 1023)
  | .flowFrameStart _ source copy _ _ _ _ _ => decide (source ≤ 1023) && decide (1 ≤ copy) && decide (copy ≤ 2)
  | .flowParcel _ source copy _ _ _ _ _ => decide (source ≤ 1023) && decide (1 ≤ copy) && decide (copy ≤ 2)
  | .mergeWindowExpired _ source _ => decide (source ≤ 1023)
  | .copyLost _ source copy => decide (source ≤ 1023) && decide (1 ≤ copy) && decide (copy ≤ 2)
  | .readOutPoint _ source _ => decide (source ≤ 1023)
  | .holdFramesReached _ source => decide (source ≤ 1023)
  | .switchingLine _ dest => decide (dest ≤ 1023)
  | .destFrameStart _ dest => decide (dest ≤ 1023)
  | .planeWordReceived _ slot _ _ _ _ => decide (slot ≤ 2687)
  | .xptTake _ _ => true
  | .xptTakeBatch _ _ => true
  | .xptTakeAt _ _ => true
  | .xptQueueCancel _ _ => true
  | .xptLock _ _ => true
  | .xptUnlock _ _ => true
  | .xptQuery _ _ => true
  | .xptTpSet _ _ => true
  | .xptQueueStatus _ _ => true
  | .epochTick _ => true
  | .cueLoad _ _ => true
  | .cueRun _ _ => true
  | .cueAbort _ _ => true
  | .cueStatus _ _ => true
  | .cueUnload _ _ => true
  | .cueGroupExecute _ inst _ => decide (inst ≤ 63)
  | .cueEntriesRetry _ inst => decide (inst ≤ 63)
  | .cueStallExpired _ inst => decide (inst ≤ 63)
  | .waitFramesResume _ inst => decide (inst ≤ 63)
  | .waitTimeResume _ inst => decide (inst ≤ 63)
  | .cueTriggerStart _ unit => decide (unit ≤ 31)
  | .cueMark _ inst => decide (inst ≤ 63)
  | .fstZoneSet _ _ => true
  | .fstObjWrite _ _ => true
  | .fstObjRead _ _ => true
  | .fstObjFree _ _ => true
  | .fstBankStatus _ _ => true
  | .fstInvalidClear _ _ => true
  | .fstRetainSet _ _ => true
  | .objectLoadTimeout _ object => decide (object ≤ 2047)
  | .objectReferencerMove _ object _ _ => decide (object ≤ 2047)
  | .bankReinit _ bank _ => decide (bank ≤ 4095)
  | .scrubRead _ pc bank row col _ => decide (pc ≤ 127) && decide (bank ≤ 31) && decide (row ≤ 16383) && decide (col ≤ 31)
  | .confirmingRead _ pc bank row col _ _ => decide (pc ≤ 127) && decide (bank ≤ 31) && decide (row ≤ 16383) && decide (col ≤ 31)
  | .pcReadTimeout _ pc => decide (pc ≤ 127)
  | .bankRefresh _ pc bank => decide (pc ≤ 127) && decide (bank ≤ 31)
  | .stackTemperatureChange _ stack _ => decide (stack ≤ 3)
  | .pageIdleExpired _ pc bank => decide (pc ≤ 127) && decide (bank ≤ 31)
  | .selfRefreshEntry _ pc => decide (pc ≤ 127)
  | .writeDrain _ pc _ => decide (pc ≤ 127)
  | .cmpConfig _ _ => true
  | .cmpLayerSet _ _ => true
  | .cmpCommit _ _ => true
  | .cmpLutLoad _ _ => true
  | .cmpSurfaceLoad _ _ => true
  | .cmpDisable _ _ => true
  | .cmpQuery _ _ => true
  | .cmpConfigLands _ comp => decide (comp ≤ 63)
  | .cmpDisableLands _ comp => decide (comp ≤ 63)
  | .outputFrameStart _ comp _ _ _ => decide (comp ≤ 63)
  | .lutCopyDone _ comp => decide (comp ≤ 63)
  | .cmpProtWrite _ _ => true
  | .cmpProtRectSet _ _ => true
  | .cmpProtGoldenSet _ _ => true
  | .cmpProtStatus _ _ => true
  | .cmpProtCfgWrite _ comp _ => decide (comp ≤ 63)
  | .signatureReport _ comp rect _ _ _ _ => decide (comp ≤ 63) && decide (rect ≤ 3)
  | .signatureReportMissing _ comp rect _ => decide (comp ≤ 63) && decide (rect ≤ 3)
  | .audRoute _ _ => true
  | .audRouteBatch _ _ => true
  | .audGain _ _ => true
  | .audFollow _ _ => true
  | .audPortConfig _ _ => true
  | .audStreamConfig _ _ => true
  | .audQuery _ _ => true
  | .audioChangeLands _ output => decide (output < 24608)
  | .zeroCrossingTimeout _ output => decide (output < 24608)
  | .audioParity _ channel place => decide (channel < 24608) && decide (place ≤ 1)
  | .audioPortRateWindow _ port _ => decide (port ≤ 15)
  | .audioPortStop _ port => decide (port ≤ 15)
  | .audioPortFrame _ port _ _ _ _ _ _ => decide (port ≤ 15)
  | .audioStreamLate _ stream => decide (stream ≤ 127)
  | .ethPortConfig _ _ => true
  | .ethIpConfig _ _ => true
  | .ethCounters _ _ => true
  | .ethTxFlow _ _ => true
  | .ethRxFlow _ _ => true
  | .ethFlowQuery _ _ => true
  | .ethPortCntLowRead _ port index _ => decide (port ≤ 1) && decide (index ≤ 23)
  | .ethModeTakesEffect _ => true
  | .pcsBlockLock _ port => decide (port ≤ 1)
  | .linkUp _ port => decide (port ≤ 1)
  | .pcsAlignmentLost _ port => decide (port ≤ 1)
  | .linkFaultExpired _ port _ => decide (port ≤ 1)
  | .preemptVerifyExpired _ port => decide (port ≤ 1)
  | .ethFrameReceived _ port _ => decide (port ≤ 1)
  | .ringCheckSend _ => true
  | .ringCheckMissing _ => true
  | .pauseExpired _ port => decide (port ≤ 1)
  | .pauseTxThreshold _ port _ => decide (port ≤ 1)
  | .pauseRepeat _ port => decide (port ≤ 1)
  | .igmpQueryReceived _ port _ _ _ => decide (port ≤ 1)
  | .igmpReportSend _ flow => decide (flow ≤ 511)
  | .addressProbe _ port family _ _ => decide (port ≤ 1) && decide (family ≤ 2)
  | .mergeRelease _ flow _ => decide (flow ≤ 511)
  | .legLost _ flow leg => decide (flow ≤ 511) && decide (leg ≤ 1)
  | .legRestored _ flow leg => decide (flow ≤ 511) && decide (leg ≤ 1)
  | .mediaPacketSend _ flow leg _ _ _ _ => decide (flow ≤ 511) && decide (leg ≤ 1)
  | .timStatus _ _ => true
  | .timRefConfig _ _ => true
  | .timPtpConfig _ _ => true
  | .timCompareSet _ _ => true
  | .timPulseSet _ _ => true
  | .timRealign _ _ => true
  | .timNowNsRead _ _ => true
  | .realignLands _ _ n => decide (n ≤ 7)
  | .announceTimeout _ port => decide (port ≤ 2)
  | .holdoverLimit _ _ => true
  | .refEdge _ input => decide (input ≤ 3)
  | .refAbsent _ input => decide (input ≤ 3)
  | .refFrequencyWindow _ input _ => decide (input ≤ 3)
  | .refQualify _ input => decide (input ≤ 3)
  | .buildOutDone _ => true
  | .houseLoopLocked _ => true
  | .refDisagree _ a b _ _ => decide (a ≤ 3) && decide (b ≤ 3)
  | .planeFrameStart _ plane _ => decide (plane ≤ 7)
  | .compareFire _ unit => decide (unit ≤ 31)
  | .pulseEdge _ output _ => decide (output ≤ 7)
  | .aonTimeRecord _ => true
  | .redStatus _ _ => true
  | .redLeaseRequest _ _ => true
  | .redLeaseRelease _ _ => true
  | .redResync _ _ => true
  | .redHealth _ _ => true
  | .leaseInEdge _ => true
  | .leaseLapse _ => true
  | .halyardHello _ _ _ => true
  | .helloSend _ => true
  | .halyardEpochRecord _ _ _ => true
  | .halyardEpochAck _ _ _ _ _ => true
  | .recordsUnacknowledged _ => true
  | .halyardCmdRelay _ _ _ => true
  | .halyardCmdForward _ _ _ => true
  | .halyardCmdResult _ _ _ _ _ _ => true
  | .heldCommandTimeout _ _ _ => true
  | .readoutDecision _ plane rate => decide (plane ≤ 7) && decide (rate ≤ 1)
  | .halyardReadout _ plane rate _ _ => decide (plane ≤ 7) && decide (rate ≤ 1)
  | .halyardSignatures _ plane rate _ _ _ _ => decide (plane ≤ 7) && decide (rate ≤ 1)
  | .signatureWaitExpired _ plane rate _ _ => decide (plane ≤ 7) && decide (rate ≤ 1)
  | .halyardProtSig _ comp _ _ _ _ => decide (comp ≤ 63)
  | .halyardHealth _ _ _ => true
  | .healthSend _ => true
  | .halyardLeaseClaim _ _ _ => true
  | .halyardBulkRequest _ _ _ _ _ => true
  | .halyardResyncState _ _ _ _ => true
  | .halyardObjectFill _ object _ _ _ => decide (object ≤ 2046)
  | .halyardLoss _ => true
  | .planePhaseDiverge _ plane => decide (plane ≤ 7)
  | .resyncTimeout _ => true
  | .resyncRetry _ => true
  | .settlingEnd _ plane => decide (plane ≤ 7)
  | .safStatus _ _ => true
  | .safClear _ _ => true
  | .safConfig _ _ => true
  | .evtRead _ _ => true
  | .evtInfo _ _ => true
  | .evtRateSet _ _ => true
  | .eventRecordWrite _ _ => true
  | .toggleGateRefresh _ => true
  | .gateExpired _ => true
  | .safePinReadback _ _ _ _ => true
  | .lockstepFail _ _ => true
  | .safetyCoreReloadDone _ _ _ => true
  | .comparatorSelfTest _ _ _ => true
  | .procStall _ proc => decide (proc ≤ 5)
  | .overTemp _ sensor _ => decide (sensor ≤ 4)
  | .islandClockLost _ island => decide (island ≤ 261)
  | .supervisorClock _ _ => true
  | .contextParityConfirm _ level index => decide (level ≤ 3) && decide (index ≤ [1023, 63, 3, 261].getD level 0)
  | .contextReloadDone _ cell => decide (cell ≤ 1023)
  | .blockRestartDone _ block => decide (block ≤ 63)
  | .stewardReloadDone _ region => decide (region ≤ 3)
  | .privateSramParity _ proc => decide (proc ≤ 6)
  | .controlSramParity _ _ => true
  | .backgroundSramCheck _ proc _ => decide (proc.getD 0 ≤ 6)
  | .busTransferResponse _ port _ _ _ _ => decide (port ≤ 6)
  | .targetTimeout _ port _ _ => decide (port ≤ 6)
  | .masterPortReset _ port _ _ => decide (port ≤ 6)
  | .portRetireDone _ port => decide (port ≤ 6)
  | .lockedPairTimeout _ _ _ => true
  | .compatWindowRead _ _ => true
  | .pwrStatus _ _ => true
  | .pwrLevelSet _ _ => true
  | .levelClockSwitch _ => true
  | .levelChangeDone _ => true
  | .pwrSleep _ _ => true
  | .stateImageWrite _ _ => true
  | .sleepCommitPoint _ => true
  | .sleepEnableDeassert _ => true
  | .sleepAbandoned _ _ => true
  | .wakeNLow _ _ => true
  | .wakeAlarm _ => true
  | .wakeStart _ => true
  | .stateImageRestore _ => true
  | .s1Exit _ => true
  | .aonXtalLost _ => true
  | .imageStartNow _ => true
  | .wakeScrubDone _ _ _ _ _ => true
  | .zeroCrossing _ output _ => decide (output < 24608)
  | .gainRampDone _ output => decide (output < 24608)
  | .converterSlip _ channel => decide (channel < 24608)
  | .realignSlewDone _ _ n => decide (n ≤ 7)
  | .refDisagreementEnd _ a b => decide (a ≤ 3) && decide (b ≤ 3)
  | .ptpWtrExpired _ => true
  | .delayReqSend _ => true
  | .cueProcessorReloadDone _ => true
  | .islandClockRestored _ island => decide (island ≤ 261)
  | .aonXtalReturn _ => true

/-- The operands of the command fit the widths of their fields. -/
def Instr.operandsFit (i : Instr) : Bool :=
  match i with
  | .vddAonUp _ _ _ => true
  | .vddAonLost _ => true
  | .pgInputAsserted _ _ => true
  | .sequenceStepDelayExpired _ => true
  | .pgTimeout _ => true
  | .fixedDelayEnable _ => true
  | .pgInputLow _ _ => true
  | .powerFault _ _ => true
  | .powerFaultRestart _ => true
  | .rstNLow _ => true
  | .rstNRelease _ _ => true
  | .pairRoleTest _ _ _ => true
  | .pllLocked _ _ => true
  | .clkWaitRetry _ => true
  | .imageSelection _ _ => true
  | .processorAlive _ _ => true
  | .aliveTimeout _ _ => true
  | .laneWaitExpired _ => true
  | .hbmTrainingDone _ _ => true
  | .memoryInitDone _ _ => true
  | .modeHalWaitExpired _ => true
  | .trialConfirmTimer _ => true
  | .commandDatagram _ d => d.fits
  | .reassemblyTimeout _ _ => true
  | .identify _ c => c.fits
  | .status _ c => c.fits
  | .modeSet _ c => c.fits
  | .reset _ c => c.fits
  | .resetDelayExpired _ => true
  | .regRead _ c => c.fits
  | .regWrite _ c => c.fits
  | .regRmw _ c => c.fits
  | .regReadBlock _ c => c.fits
  | .regWriteBlock _ c => c.fits
  | .registerWrite _ addr value => decide (addr < 2 ^ 32) && decide (value < 2 ^ 32)
  | .lockConfig _ c => c.fits
  | .addrSet _ c => c.fits
  | .sessionKeyLoad _ c => c.fits
  | .sessionKeyErase _ c => c.fits
  | .sessionInfo _ c => c.fits
  | .echo _ c => c.fits
  | .imgInfo _ c => c.fits
  | .imgWriteBegin _ c => c.fits
  | .slotEraseDone _ _ => true
  | .imgWrite _ c => c.fits
  | .imageWriteTimeout _ => true
  | .imgWriteEnd _ c => c.fits
  | .imgActivate _ c => c.fits
  | .imgTrialAbort _ c => c.fits
  | .imgConfirm _ c => c.fits
  | .laneStatus _ c => c.fits
  | .laneConfig _ c => c.fits
  | .lanePrbs _ c => c.fits
  | .laneLoop _ c => c.fits
  | .laneErrInject _ c => c.fits
  | .errorInjection _ _ => true
  | .laneCounters _ c => c.fits
  | .laneRxEnableWrite _ _ value => decide (value < 2 ^ 32)
  | .ctleCodeWrite _ _ code _ => decide (code < 32)
  | .laneTxEnableWrite _ _ value => decide (value < 2 ^ 32)
  | .laneSignalLost _ _ => true
  | .laneSignalReturn _ _ => true
  | .ctleSweepDone _ _ _ => true
  | .ctleTrack _ _ _ _ _ => true
  | .laneBlockReceived _ _ _ _ _ => true
  | .blockLockGained _ _ => true
  | .blockLockLost _ _ => true
  | .berInterval _ _ _ => true
  | .rxFifoOverflow _ _ => true
  | .pennantReceived _ _ _ => true
  | .pennantLockGained _ _ => true
  | .pennantLockLost _ _ => true
  | .pennantTransmit _ _ => true
  | .flowSrcDefine _ c => c.fits
  | .flowDstDefine _ c => c.fits
  | .flowDelete _ c => c.fits
  | .flowGroupSet _ c => c.fits
  | .flowParkSet _ c => c.fits
  | .flowQuery _ c => c.fits
  | .flowAdmitCheck _ c => c.fits
  | .flowSrcCfgWrite _ _ value => decide (value < 2 ^ 32)
  | .flowTpCfgWrite _ _ value => decide (value < 2 ^ 32)
  | .sourceDeleteLands _ _ => true
  | .destDeleteLands _ _ => true
  | .sourceRedefineLands _ _ => true
  | .flowFrameStart _ _ _ _ _ _ _ _ => true
  | .flowParcel _ _ _ _ _ _ _ _ => true
  | .mergeWindowExpired _ _ _ => true
  | .copyLost _ _ _ => true
  | .readOutPoint _ _ _ => true
  | .holdFramesReached _ _ => true
  | .switchingLine _ _ => true
  | .destFrameStart _ _ => true
  | .planeWordReceived _ _ _ _ _ _ => true
  | .xptTake _ c => c.fits
  | .xptTakeBatch _ c => c.fits
  | .xptTakeAt _ c => c.fits
  | .xptQueueCancel _ c => c.fits
  | .xptLock _ c => c.fits
  | .xptUnlock _ c => c.fits
  | .xptQuery _ c => c.fits
  | .xptTpSet _ c => c.fits
  | .xptQueueStatus _ c => c.fits
  | .epochTick _ => true
  | .cueLoad _ c => c.fits
  | .cueRun _ c => c.fits
  | .cueAbort _ c => c.fits
  | .cueStatus _ c => c.fits
  | .cueUnload _ c => c.fits
  | .cueGroupExecute _ _ _ => true
  | .cueEntriesRetry _ _ => true
  | .cueStallExpired _ _ => true
  | .waitFramesResume _ _ => true
  | .waitTimeResume _ _ => true
  | .cueTriggerStart _ _ => true
  | .cueMark _ _ => true
  | .fstZoneSet _ c => c.fits
  | .fstObjWrite _ c => c.fits
  | .fstObjRead _ c => c.fits
  | .fstObjFree _ c => c.fits
  | .fstBankStatus _ c => c.fits
  | .fstInvalidClear _ c => c.fits
  | .fstRetainSet _ c => c.fits
  | .objectLoadTimeout _ _ => true
  | .objectReferencerMove _ _ _ _ => true
  | .bankReinit _ _ _ => true
  | .scrubRead _ _ _ _ _ _ => true
  | .confirmingRead _ _ _ _ _ _ _ => true
  | .pcReadTimeout _ _ => true
  | .bankRefresh _ _ _ => true
  | .stackTemperatureChange _ _ _ => true
  | .pageIdleExpired _ _ _ => true
  | .selfRefreshEntry _ _ => true
  | .writeDrain _ _ _ => true
  | .cmpConfig _ c => c.fits
  | .cmpLayerSet _ c => c.fits
  | .cmpCommit _ c => c.fits
  | .cmpLutLoad _ c => c.fits
  | .cmpSurfaceLoad _ c => c.fits
  | .cmpDisable _ c => c.fits
  | .cmpQuery _ c => c.fits
  | .cmpConfigLands _ _ => true
  | .cmpDisableLands _ _ => true
  | .outputFrameStart _ _ _ _ _ => true
  | .lutCopyDone _ _ => true
  | .cmpProtWrite _ c => c.fits
  | .cmpProtRectSet _ c => c.fits
  | .cmpProtGoldenSet _ c => c.fits
  | .cmpProtStatus _ c => c.fits
  | .cmpProtCfgWrite _ _ value => decide (value < 2 ^ 32)
  | .signatureReport _ _ _ _ _ _ _ => true
  | .signatureReportMissing _ _ _ _ => true
  | .audRoute _ c => c.fits
  | .audRouteBatch _ c => c.fits
  | .audGain _ c => c.fits
  | .audFollow _ c => c.fits
  | .audPortConfig _ c => c.fits
  | .audStreamConfig _ c => c.fits
  | .audQuery _ c => c.fits
  | .audioChangeLands _ _ => true
  | .zeroCrossingTimeout _ _ => true
  | .audioParity _ _ _ => true
  | .audioPortRateWindow _ _ _ => true
  | .audioPortStop _ _ => true
  | .audioPortFrame _ _ _ _ _ _ _ _ => true
  | .audioStreamLate _ _ => true
  | .ethPortConfig _ c => c.fits
  | .ethIpConfig _ c => c.fits
  | .ethCounters _ c => c.fits
  | .ethTxFlow _ c => c.fits
  | .ethRxFlow _ c => c.fits
  | .ethFlowQuery _ c => c.fits
  | .ethPortCntLowRead _ _ _ _ => true
  | .ethModeTakesEffect _ => true
  | .pcsBlockLock _ _ => true
  | .linkUp _ _ => true
  | .pcsAlignmentLost _ _ => true
  | .linkFaultExpired _ _ _ => true
  | .preemptVerifyExpired _ _ => true
  | .ethFrameReceived _ _ _ => true
  | .ringCheckSend _ => true
  | .ringCheckMissing _ => true
  | .pauseExpired _ _ => true
  | .pauseTxThreshold _ _ _ => true
  | .pauseRepeat _ _ => true
  | .igmpQueryReceived _ _ _ _ _ => true
  | .igmpReportSend _ _ => true
  | .addressProbe _ _ _ _ _ => true
  | .mergeRelease _ _ _ => true
  | .legLost _ _ _ => true
  | .legRestored _ _ _ => true
  | .mediaPacketSend _ _ _ _ _ _ _ => true
  | .timStatus _ c => c.fits
  | .timRefConfig _ c => c.fits
  | .timPtpConfig _ c => c.fits
  | .timCompareSet _ c => c.fits
  | .timPulseSet _ c => c.fits
  | .timRealign _ c => c.fits
  | .timNowNsRead _ _ => true
  | .realignLands _ _ _ => true
  | .announceTimeout _ _ => true
  | .holdoverLimit _ _ => true
  | .refEdge _ _ => true
  | .refAbsent _ _ => true
  | .refFrequencyWindow _ _ _ => true
  | .refQualify _ _ => true
  | .buildOutDone _ => true
  | .houseLoopLocked _ => true
  | .refDisagree _ _ _ _ _ => true
  | .planeFrameStart _ _ _ => true
  | .compareFire _ _ => true
  | .pulseEdge _ _ _ => true
  | .aonTimeRecord _ => true
  | .redStatus _ c => c.fits
  | .redLeaseRequest _ c => c.fits
  | .redLeaseRelease _ c => c.fits
  | .redResync _ c => c.fits
  | .redHealth _ c => c.fits
  | .leaseInEdge _ => true
  | .leaseLapse _ => true
  | .halyardHello _ _ _ => true
  | .helloSend _ => true
  | .halyardEpochRecord _ _ _ => true
  | .halyardEpochAck _ _ _ _ _ => true
  | .recordsUnacknowledged _ => true
  | .halyardCmdRelay _ _ _ => true
  | .halyardCmdForward _ _ _ => true
  | .halyardCmdResult _ _ _ _ _ _ => true
  | .heldCommandTimeout _ _ _ => true
  | .readoutDecision _ _ _ => true
  | .halyardReadout _ _ _ _ _ => true
  | .halyardSignatures _ _ _ _ _ _ _ => true
  | .signatureWaitExpired _ _ _ _ _ => true
  | .halyardProtSig _ _ _ _ _ _ => true
  | .halyardHealth _ _ _ => true
  | .healthSend _ => true
  | .halyardLeaseClaim _ _ _ => true
  | .halyardBulkRequest _ _ _ _ _ => true
  | .halyardResyncState _ _ _ _ => true
  | .halyardObjectFill _ _ _ _ _ => true
  | .halyardLoss _ => true
  | .planePhaseDiverge _ _ => true
  | .resyncTimeout _ => true
  | .resyncRetry _ => true
  | .settlingEnd _ _ => true
  | .safStatus _ c => c.fits
  | .safClear _ c => c.fits
  | .safConfig _ c => c.fits
  | .evtRead _ c => c.fits
  | .evtInfo _ c => c.fits
  | .evtRateSet _ c => c.fits
  | .eventRecordWrite _ _ => true
  | .toggleGateRefresh _ => true
  | .gateExpired _ => true
  | .safePinReadback _ _ _ _ => true
  | .lockstepFail _ _ => true
  | .safetyCoreReloadDone _ _ _ => true
  | .comparatorSelfTest _ _ _ => true
  | .procStall _ _ => true
  | .overTemp _ _ _ => true
  | .islandClockLost _ _ => true
  | .supervisorClock _ _ => true
  | .contextParityConfirm _ _ _ => true
  | .contextReloadDone _ _ => true
  | .blockRestartDone _ _ => true
  | .stewardReloadDone _ _ => true
  | .privateSramParity _ _ => true
  | .controlSramParity _ _ => true
  | .backgroundSramCheck _ _ _ => true
  | .busTransferResponse _ _ _ _ _ _ => true
  | .targetTimeout _ _ _ _ => true
  | .masterPortReset _ _ _ _ => true
  | .portRetireDone _ _ => true
  | .lockedPairTimeout _ _ _ => true
  | .compatWindowRead _ _ => true
  | .pwrStatus _ c => c.fits
  | .pwrLevelSet _ c => c.fits
  | .levelClockSwitch _ => true
  | .levelChangeDone _ => true
  | .pwrSleep _ c => c.fits
  | .stateImageWrite _ _ => true
  | .sleepCommitPoint _ => true
  | .sleepEnableDeassert _ => true
  | .sleepAbandoned _ _ => true
  | .wakeNLow _ _ => true
  | .wakeAlarm _ => true
  | .wakeStart _ => true
  | .stateImageRestore _ => true
  | .s1Exit _ => true
  | .aonXtalLost _ => true
  | .imageStartNow _ => true
  | .wakeScrubDone _ _ _ _ _ => true
  | .zeroCrossing _ _ _ => true
  | .gainRampDone _ _ => true
  | .converterSlip _ _ => true
  | .realignSlewDone _ _ _ => true
  | .refDisagreementEnd _ _ _ => true
  | .ptpWtrExpired _ => true
  | .delayReqSend _ => true
  | .cueProcessorReloadDone _ => true
  | .islandClockRestored _ _ => true
  | .aonXtalReturn _ => true

/-- A well-formed command. -/
def Instr.wellFormed (i : Instr) : Bool := i.objectsExist && i.operandsFit

end Sys2Proof
end

