-- ==== Sys2Proof/Certificates/Slice0/Obligations.lean ====
section
/-! DEFINITION. The statements about the model, from the rules of the spec, for the provers. -/

open Sys2Proof Sys2Proof.Machine

/-- A step with `c` at the front of the queue is `exec c` on the state with the queue's rest (the model's queue: log
entry 1). -/
def Obligations.StepRunsTheFrontCommand : Prop :=
  ∀ (c : Instr) (rest : List Instr) (s : State), s.pending = c :: rest →
    step s = exec c { s with pending := rest }

/-- On an empty queue a step lets one period of the core clock pass and changes nothing else. That an idle step lasts
2 ns is the model's choice (log entry 2). -/
def Obligations.EmptyQueueOnlyLetsTimePass : Prop :=
  ∀ s : State, s.pending = [] → ∃ u, step s = .next u ∧ u.clock.clk = s.clock.clk + 2
    ∧ u.clock.now = (if s.clock.running then s.clock.now + 2 else s.clock.now)
    ∧ u.clock.running = s.clock.running ∧ ∀ p, p ≠ Part.clock → p.same s u

/-- The state before VDD_AON: BOOT, nothing enabled, no session, the default control port 41210, and empty queues and
memories. -/
def Obligations.ResetIsUnpowered : Prop :=
  State.reset.mode = .boot ∧ State.reset.seq.aonUp = false ∧ State.reset.seq.en = [false, false, false, false, false]
    ∧ State.reset.pins.ready = false ∧ State.reset.aon.udpPort = 41210 ∧ State.reset.aon.frameId = 0
    ∧ State.reset.aon.sessions = [] ∧ State.reset.host.queue = [] ∧ State.reset.evt.running = false
    ∧ State.reset.flash.mem = [] ∧ State.reset.fst.mem = [] ∧ State.reset.pending = [] ∧ State.reset.out = []

/-- The invariant of `StepKeepsSoundness` holds before VDD_AON comes up. -/
def Obligations.ResetIsSound : Prop :=
  State.reset.sound = true

/-- An invariant that every step of every command keeps: canonical memories, at most 256 queued commands (R106), 4
reassembly contexts (R94) and 256 pending records (R509). -/
def Obligations.StepKeepsSoundness : Prop :=
  ∀ s u : State, s.sound = true → step s = .next u → u.sound = true

/-- The frame of every command: what it does not name stays as it was, and what no command undoes stands. -/
def Obligations.CommandsMoveOnlyTheirParts : Prop :=
  ∀ (i : Instr) (s u : State), exec i s = .next u → Moves (instrParts i) s u

/-- No command adds to, drops from or reorders the queue of waiting commands. -/
def Obligations.StepConsumesOneCommand : Prop :=
  ∀ s u : State, step s = .next u → u.pending = s.pending.tail ∧ s.clock.clk ≤ u.clock.clk ∧ s.out <:+ u.out

/-- Every command whose objects exist (Table 0.6) completes; one that names a missing object stops, and nothing else
does. -/
def Obligations.CommandsCompleteUnlessTheObjectIsMissing : Prop :=
  ∀ (i : Instr) (s : State), (i.objectsExist = true → ∃ u, exec i s = .next u)
    ∧ (i.objectsExist = false → exec i s = .fault .noSuchObject)

/-- Fuses: the security-version floor only rises, and only where R73 says; the other fuses never change. -/
def Obligations.OnlyConfirmationAndStartRaiseTheFloor : Prop :=
  ∀ (i : Instr) (s u : State), exec i s = .next u →
    u.fuses = { s.fuses with floor := u.fuses.floor } ∧ s.fuses.floor ≤ u.fuses.floor
    ∧ ((∀ t c, i ≠ .imgConfirm t c) → (∀ t, i ≠ .trialConfirmTimer t) → (∀ t p, i ≠ .processorAlive t p) →
        u.fuses = s.fuses)

/-- What IMG_WRITE, the erase of a slot and the writes of the frame store rest on: only the addressed bytes change. -/
def Obligations.StoredBytesReadBack : Prop :=
  ∀ (d : Byte) (m : List Host.Cell) (a : Nat) (xs : List Byte), memWf d m = true →
    (∀ i x, xs[i]? = some x → memRead d (memWriteList d m a xs) (a + i) = x)
    ∧ (∀ k, (k < a ∨ a + xs.length ≤ k) → memRead d (memWriteList d m a xs) k = memRead d m k)
    ∧ (∀ lo hi k, memRead d (memClear m lo hi) k = if lo ≤ k ∧ k < hi then d else memRead d m k)

/-- Steps 13 to 16 of Table 3.3: a refused opcode has no effect. `commandOf` names the opcode rows with their own
checks. -/
def Obligations.RefusedCommandsHaveNoEffect : Prop :=
  ∀ (i : Instr) (op : Op) (own : Refuse) (t : Nat) (c : HostCmd) (s : State) (st : Status) (ps : List Byte),
    commandOf i = some (op, own, t, c) → hostServes (advance t s) = true → c.named = false →
    refusal op own (begun op t c s) c = some (st, ps) →
    ∃ u, exec i s = .next u ∧ u = refuseWith op c (st, ps) (begun op t c s) ∧ Moves replyParts s u

/-- Step 13 of Table 3.3: the roles of an opcode row, and the anonymous session of R97. -/
def Obligations.RolesOfTheOpcodes : Prop :=
  (∀ op : Op, (opInfo op).roles.contains .anonymous = (op == .identify || op == .status || op == .echo))
    ∧ ∀ (op : Op) (c : HostCmd), roleRefusal op c =
      if (opInfo op).roles.contains c.role then none else some .roleDenied

/-- The regulator sequencer (R41 to R44): the effect of each of its events, in the states where it applies. -/
def Obligations.SupplySequencingCompletes : Prop :=
  (∀ (t : Nat) (pg : Bool) (st : Straps) (s : State), s.seq.aonUp = false → s.seq.en.length = 5 →
      ∃ u, exec (.vddAonUp t pg st) s = .next u ∧ u.seq.aonUp = true ∧ u.seq.pgMode = pg ∧ u.seq.step = 1
        ∧ u.seq.phase = (if pg then .fixed else .waitPg) ∧ u.seq.en.getD 0 false = true ∧ u.pins.straps = st)
    ∧ (∀ (t pg : Nat) (s : State), pg ≤ 4 → s.seq.phase = .waitPg → s.seq.step = pg + 1 →
      ∃ u, exec (.pgInputAsserted t pg) s = .next u ∧ u.seq.phase = .waitDelay ∧ u.seq.pg = s.seq.pg.set pg true
        ∧ u.seq.en = s.seq.en ∧ u.seq.step = s.seq.step)
    ∧ (∀ (t : Nat) (s : State), s.seq.phase = .waitDelay → s.seq.step < 5 → s.seq.en.length = 5 →
      ∃ u, exec (.sequenceStepDelayExpired t) s = .next u ∧ u.seq.phase = .waitPg ∧ u.seq.step = nextStep s
        ∧ u.seq.en.getD (nextStep s - 1) false = true)
    ∧ (∀ (t : Nat) (s : State), s.seq.phase = .waitDelay → 5 ≤ s.seq.step → s.pins.rstLow = false →
      ∃ u, exec (.sequenceStepDelayExpired t) s = .next u ∧ u.seq.phase = .complete ∧ u.start.inReset = false
        ∧ u.start.t0 = some (max s.clock.clk t))
    ∧ (∀ (t : Nat) (s : State), s.seq.phase = .fixed → s.seq.step < 5 → s.seq.en.length = 5 →
      ∃ u, exec (.fixedDelayEnable t) s = .next u ∧ u.seq.phase = .fixed ∧ u.seq.step = nextStep s
        ∧ u.seq.en.getD (nextStep s - 1) false = true)
    ∧ (∀ (t pg : Nat) (s : State), pg ≤ 4 → ∃ u, exec (.pgInputLow t pg) s = .next u
        ∧ u.seq.pg = s.seq.pg.set pg false ∧ u.seq.lowSince = tset s.seq.lowSince pg (max s.clock.clk t)
        ∧ u.seq.phase = s.seq.phase)
    ∧ (∀ (t : Nat) (s : State), s.seq.phase = .waitPg → ∃ u, exec (.pgTimeout t) s = .next u ∧ u.mode = .boot
        ∧ u.seq.en = [false, false, false, false, false] ∧ u.seq.lastFault = s.seq.step
        ∧ (u.seq.phase = .faultWait ∨ u.seq.phase = .lockout) ∧ u.host.queue = [] ∧ u.fuses = s.fuses)
    ∧ (∀ (t pg a : Nat) (s : State), pg ≤ 4 → tfind s.seq.lowSince pg = some a → pgWatched s pg = true →
        a + 2000 < max s.clock.clk t → ∃ u, exec (.powerFault t pg) s = .next u ∧ u.mode = .boot
        ∧ u.seq.en = [false, false, false, false, false] ∧ u.seq.lastFault = pg + 1 ∧ u.host.queue = [])
    ∧ (∀ (t : Nat) (s : State), s.seq.phase = .faultWait → s.seq.restartAt ≤ max s.clock.clk t → s.seq.en.length = 5 →
        ∃ u, exec (.powerFaultRestart t) s = .next u ∧ u.seq.step = 1 ∧ u.seq.en.getD 0 false = true
        ∧ u.seq.phase = (if s.seq.pgMode then .fixed else .waitPg))
    ∧ (∀ (t : Nat) (s : State), ∃ u, exec (.vddAonLost t) s = .next u ∧ u.seq = {} ∧ u.aon = {} ∧ u.mode = .boot
        ∧ u.fuses = s.fuses ∧ u.flash.mem = s.flash.mem ∧ u.fst.mem = [])

/-- From RST_N to the end of the ROM test (R46 to R49, R566). -/
def Obligations.ResetPinAndClocksComplete : Prop :=
  (∀ (t : Nat) (s : State), s.seq.aonUp = true → s.seq.phase ≠ .off →
      ∃ u, exec (.rstNLow t) s = .next u ∧ u.mode = .boot ∧ u.pins.rstLow = true ∧ u.start.inReset = true
        ∧ u.host.queue = [] ∧ u.host.reasm = [] ∧ u.xpt.queue = [] ∧ u.seq = s.seq ∧ u.fuses = s.fuses
        ∧ u.flash.mem = s.flash.mem ∧ u.aon.sessions = s.aon.sessions)
    ∧ (∀ (t : Nat) (st : Straps) (s : State), s.pins.rstLow = true → s.seq.phase = .complete →
      ∃ u, exec (.rstNRelease t st) s = .next u ∧ u.pins.rstLow = false ∧ u.start.inReset = false
        ∧ u.start.t0 = some (max s.clock.clk t) ∧ u.start.straps.pos = st.pos % 64)
    ∧ (∀ (t : Nat) (st : Straps) (s : State), s.pins.rstLow = true → s.seq.phase = .lockout →
      ∃ u, exec (.rstNRelease t st) s = .next u ∧ u.pins.rstLow = false ∧ u.seq.lockout = false ∧ u.seq.step = 1
        ∧ u.seq.phase = (if s.seq.pgMode then .fixed else .waitPg))
    ∧ (∀ (t : Nat) (up down : Bool) (s : State), s.start.inReset = true →
      ∃ u, exec (.pairRoleTest t up down) s = .next u ∧ u.pins.roleTests = ((up, down) :: s.pins.roleTests).take 10)
    ∧ (∀ (t a k : Nat) (s : State), s.start.inReset = false → s.start.t0 = some a → s.start.pllLocked = false →
      ∃ u, exec (.pllLocked t k) s = .next u ∧ u.start.pllLocked = true ∧ u.clock.running = true
        ∧ u.seq.clkWait = false ∧ (k = 0 → u.start.romDone = true) ∧ (k ≠ 0 → u.aon.boot.romFail = true))
    ∧ (∀ (t a : Nat) (s : State), s.start.t0 = some a → s.start.pllLocked = false → a + 10000000 ≤ max s.clock.clk t →
      ∃ u, exec (.clkWaitRetry t) s = .next u ∧ u.seq.clkWait = true ∧ u.mode = s.mode)

/-- From the ROM's choice of image to the end of calibration (R57 to R68), and T5 (R39). -/
def Obligations.ImageStartAndCalibrationComplete : Prop :=
  (∀ (t : Nat) (bp : Bool) (s : State), s.start.romDone = true → s.start.loading = false → s.start.recovery = false →
      s.start.wake = false → s.mode = .boot → s.start.straps.bootSrc = true →
      ∃ u, exec (.imageSelection t bp) s = .next u ∧ u.start.recovery = true ∧ u.aon.boot.slot = 3 ∧ u.mode = .boot)
    ∧ (∀ (t : Nat) (s : State), s.start.romDone = true → s.start.loading = false → s.start.recovery = false →
      s.start.wake = false → s.mode = .boot → s.start.straps.bootSrc = false → (bootRec s).trial = none →
      imgReason s (bootRec s).active = none → s.aon.boot.skip.getD (bootRec s).active false = false →
      ∃ u, exec (.imageSelection t false) s = .next u ∧ u.start.loading = true ∧ u.aon.boot.slot = (bootRec s).active
        ∧ u.aon.boot.trial = false ∧ u.start.procs = [(0, 2), (6, 1)] ∧ u.mode = .boot)
    ∧ (∀ (t p : Nat) (s : State), p ≤ 6 → p ≠ 6 → s.start.loading = true → tget 0 s.start.procs p = 1 →
      (loadOrder.all (fun q => tget 0 (tset s.start.procs p 2) q = 2)) = false →
      ∃ u, exec (.processorAlive t p) s = .next u ∧ u.mode = s.mode ∧ u.start.loading = true ∧ u.saf = s.saf
        ∧ u.start = (releaseNext (onStart (fun x => { x with procs := tset x.procs p 2 }) s)).start)
    ∧ (∀ (t p : Nat) (s : State), p ≤ 6 → s.start.loading = true → tget 0 s.start.procs p = 1 →
      (loadOrder.all (fun q => tget 0 (tset s.start.procs p 2) q = 2)) = true →
      ∃ u, exec (.processorAlive t p) s = .next u ∧ u.mode = .calibrate ∧ u.start.loading = false
        ∧ u.aon.lastTrans = (if s.start.wake then 17 else 2) ∧ u.cal.startAt = max s.clock.clk t)
    ∧ (∀ (t p : Nat) (s : State), p ≤ 6 → s.start.loading = true → tget 0 s.start.procs p = 1 →
      ∃ u, exec (.aliveTimeout t p) s = .next u ∧ u.mode = .boot ∧ u.start.loading = false
        ∧ u.aon.boot.reject = 9 ∧ u.aon.boot.rejectSlot = s.aon.boot.slot
        ∧ u.aon.boot.skip = s.aon.boot.skip.set s.aon.boot.slot true ∧ u.fuses = s.fuses)
    ∧ (∀ (t : Nat) (s : State), s.mode = .calibrate → s.cal.startAt + s.aon.laneWaitMs * 1000000 ≤ max s.clock.clk t →
      s.cal.hbm = false → ∃ u, exec (.laneWaitExpired t) s = .next u ∧ u.cal = { s.cal with lanes := true }
        ∧ u.mode = .calibrate)
    ∧ (∀ (t : Nat) (s : State), s.mode = .calibrate → s.cal.hbm = false → s.cal.failed = false → s.cal.memory = false →
      ∃ u, exec (.hbmTrainingDone t none) s = .next u ∧ u.cal = { s.cal with hbm := true } ∧ u.mode = .calibrate)
    ∧ (∀ (t pc : Nat) (s : State), s.mode = .calibrate → s.cal.hbm = false → s.cal.failed = false →
      ∃ u, exec (.hbmTrainingDone t (some pc)) s = .next u ∧ u.cal.failed = true ∧ u.aon.boot.calFail = true
        ∧ u.mode = .calibrate)
    ∧ (∀ (t : Nat) (s : State), s.mode = .calibrate → s.cal.memory = false → s.cal.failed = false → s.cal.hbm = false →
      ∃ u, exec (.memoryInitDone t none) s = .next u ∧ u.cal = { s.cal with memory := true }
        ∧ u.fst.mem = s.fst.mem.filter (fun c => (tget {} s.fst.pcs (c.1 / 2^29)).retained) ∧ u.mode = .calibrate)
    ∧ (∀ (t pc a : Nat) (s : State), s.mode = .calibrate → s.cal.memory = false → s.cal.failed = false →
      ∃ u, exec (.memoryInitDone t (some (pc, a))) s = .next u ∧ u.cal.failed = true ∧ u.aon.boot.calFail = true
        ∧ u.mode = .calibrate ∧ u.fst = s.fst)
    ∧ (∀ (t a : Nat) (s : State), s.cal.doneAt = some a → s.mode = .calibrate → paired s = true → s.red.lease = false →
      inStep s = false → a + s.halWaitMs * 1000000 ≤ max s.clock.clk t →
      ∃ u, exec (.modeHalWaitExpired t) s = .next u ∧ u.mode = .isolated ∧ u.aon.prevMode = 1 ∧ u.aon.lastTrans = 5)

/-- Table 3.3 for COMMAND_DATAGRAM, and REASSEMBLY_TIMEOUT (R93, R104, R106). -/
def Obligations.DatagramsAreChecked : Prop :=
  (∀ (t : Nat) (d : Datagram) (s : State), hostReachable d (advance t s) = true → d.payload.length < 24 ∨ d.ipFragment = true →
      ∃ u, exec (.commandDatagram t d) s = .next u ∧ u.host.cnt = bump s.host.cnt 1 ∧ u.host.queue = s.host.queue
        ∧ u.out = s.out ∧ u.aon = s.aon)
    ∧ (∀ (t : Nat) (d : Datagram) (s : State), hostReachable d (advance t s) = true → 24 ≤ d.payload.length → d.ipFragment = false →
      (readHeader d.payload).magic = 0x4C58 → bitOf (readHeader d.payload).flags 0 = false →
      selects (readHeader d.payload) s = false →
      ∃ u, exec (.commandDatagram t d) s = .next u ∧ u.host.cnt = bump s.host.cnt 4 ∧ u.host.queue = s.host.queue
        ∧ u.out = s.out ∧ u.aon = s.aon ∧ u.evt = s.evt)
    ∧ (∀ (t : Nat) (d : Datagram) (s : State), hostReachable d (advance t s) = true →
      (earlyCheck d (readHeader d.payload) (advance t s)).isNone = true → authCheck d (readHeader d.payload) s = none →
      (replyPort s d.port).isSome = true → 5000000 ≤ s.host.credit →
      ∃ u, exec (.commandDatagram t d) s = .next u ∧ u.host.cnt = bump s.host.cnt 8 ∧ u.host.queue = s.host.queue
        ∧ u.aon = s.aon ∧ u.red = s.red)
    ∧ (∀ (t : Nat) (d : Datagram) (s : State) (r : Role) (k : List Byte), hostReachable d (advance t s) = true →
      (earlyCheck d (readHeader d.payload) (advance t s)).isNone = true →
      authCheck d (readHeader d.payload) s = some (r, k) → (readHeader d.payload).session ≠ 0 →
      ((readHeader d.payload).seq = 0 ∨ (readHeader d.payload).seq < lastSeq s (readHeader d.payload).session) →
      (replyPort s d.port).isSome = true →
      ∃ u, exec (.commandDatagram t d) s = .next u ∧ u.host.cnt = bump s.host.cnt 9 ∧ u.host.queue = s.host.queue
        ∧ u.aon = s.aon ∧ u.red = s.red)
    ∧ (∀ (t : Nat) (d : Datagram) (s : State) (r : Role) (k : List Byte) (op : Op), hostReachable d (advance t s) = true →
      (earlyCheck d (readHeader d.payload) (advance t s)).isNone = true →
      authCheck d (readHeader d.payload) s = some (r, k) → (readHeader d.payload).session ≠ 0 →
      lastSeq s (readHeader d.payload).session < (readHeader d.payload).seq → (readHeader d.payload).cnt = 1 →
      s.host.reasm = [] → opOfCode (readHeader d.payload).opcode = some op → paired s = false →
      roleRefusal op (headerCmd d (readHeader d.payload) r k) = none →
      modeRefusal op (headerCmd d (readHeader d.payload) r k) s = none → s.host.queue.length < 256 →
      ∃ u, exec (.commandDatagram t d) s = .next u
        ∧ u.host.queue = s.host.queue ++ [(op, headerCmd d (readHeader d.payload) r k)]
        ∧ lastSeq u (readHeader d.payload).session = (readHeader d.payload).seq ∧ u.out = s.out ∧ u.host.cnt = s.host.cnt)
    ∧ (∀ (t n : Nat) (r : Reasm) (s : State), s.host.reasm.find? (fun r => r.session == n) = some r →
      r.started + 500000000 ≤ max s.clock.clk t →
      ∃ u, exec (.reassemblyTimeout t n) s = .next u ∧ u.host.reasm = s.host.reasm.filter (fun r => r.session != n)
        ∧ u.host.cnt = bump s.host.cnt 11 ∧ u.host.queue = s.host.queue)

/-- The commands of Table 3.7 that name no register, and RESET_DELAY_EXPIRED. -/
def Obligations.GeneralCommandsTakeEffect : Prop :=
  (∀ (t : Nat) (c : HostCmd) (s : State), accepted .identify refuseIdentify t c s = true → 
      exec (.identify t c) s = .next (answered .identify c .ok (identifyReply (begun .identify t c s)) (begun .identify t c s)))
    ∧ (∀ (t : Nat) (c : HostCmd) (s : State), accepted .status refuseStatus t c s = true → 
      exec (.status t c) s = .next (answered .status c .ok (statusReply (begun .status t c s)) (begun .status t c s)))
    ∧ (∀ (t : Nat) (c : HostCmd) (s : State), accepted .echo refuseEcho t c s = true → 
      exec (.echo t c) s = .next (answered .echo c .ok (c.params) (begun .echo t c s)))
    ∧ (∀ (t : Nat) (c : HostCmd) (s : State), accepted .sessionInfo refuseSessionInfo t c s = true → 
      exec (.sessionInfo t c) s = .next (answered .sessionInfo c .ok ((List.range 16).flatMap (fun i =>
        match tfind s.aon.sessions i with
        | some x => beBytes 2 x.id ++ beBytes 1 (roleCode x.role) ++ beBytes 1 0 ++ beBytes 4 x.lastSeq
        | none => beBytes 8 0)) (begun .sessionInfo t c s)))
    ∧ (∀ (t : Nat) (c : HostCmd) (s : State), accepted .modeSet refuseModeSet t c s = true → u8 c.params 0 = 6 →
      ∃ u, exec (.modeSet t c) s = .next u ∧ u.mode = .maintenance ∧ u.aon.prevMode = s.mode.code ∧ u.aon.lastTrans = 14 ∧ u.pins.ready = false)
    ∧ (∀ (t : Nat) (c : HostCmd) (s : State), accepted .modeSet refuseModeSet t c s = true → u8 c.params 0 = 1 →
      ∃ u, exec (.modeSet t c) s = .next u ∧ (u.mode = .calibrate ∨ u.mode = .active ∨ u.mode = .standby))
    ∧ (∀ (t : Nat) (c : HostCmd) (s : State), accepted .reset refuseReset t c s = true → 
      ∃ u, exec (.reset t c) s = .next u ∧ u.host.resetAt = some (max s.clock.clk t) ∧ u.mode = s.mode)
    ∧ (∀ (t a : Nat) (s : State), s.host.resetAt = some a → a + 10000000 ≤ max s.clock.clk t →
      ∃ u, exec (.resetDelayExpired t) s = .next u ∧ u.mode = .boot ∧ u.aon.lastTrans = 1 ∧ u.host.queue = []
        ∧ u.host.resetAt = none ∧ u.fuses = s.fuses ∧ u.aon.sessions = s.aon.sessions)
    ∧ (∀ (t : Nat) (c : HostCmd) (s : State), accepted .lockConfig refuseLockConfig t c s = true → 
      ∃ u, exec (.lockConfig t c) s = .next u ∧ u.host.locked = true ∧ u.aon = s.aon ∧ (s.host.locked = true → u.evt = s.evt))
    ∧ (∀ (t : Nat) (c : HostCmd) (s : State), accepted .addrSet refuseAddrSet t c s = true → 
      ∃ u, exec (.addrSet t c) s = .next u ∧ u.aon = { s.aon with frameId := u8 c.params 8 } ∧ sysAddr u = u8 c.params 8 * 64 + s.start.straps.pos % 64)
    ∧ (∀ (t n : Nat) (r : Role) (k : List Byte) (c : HostCmd) (s : State), accepted .sessionKeyLoad refuseKeyLoad t c s = true →
      roleOfCode (u8 c.params 2) = some r → loadKey c = some k → (slotOf s (u16 c.params 0)).orElse (fun _ => freeSlot s) = some n →
      ∃ u, exec (.sessionKeyLoad t c) s = .next u
        ∧ u.aon = { s.aon with sessions := tset s.aon.sessions n ⟨u16 c.params 0, r, k, 0⟩ })
    ∧ (∀ (t : Nat) (c : HostCmd) (s : State), accepted .sessionKeyErase refuseKeyErase t c s = true → u16 c.params 0 ≠ 0 →
      ∃ u, exec (.sessionKeyErase t c) s = .next u ∧ u.aon = { s.aon with sessions := s.aon.sessions.filter (fun p => p.2.id != u16 c.params 0) })

/-- R111 and Table 3.7 for the register commands; REGISTER_WRITE and its named forms; COMPAT_WINDOW_READ. -/
def Obligations.RegisterCommandsTakeEffect : Prop :=
  (∀ (t : Nat) (c : HostCmd) (s : State), accepted .regRead refuseRegRead t c s = true → 
      exec (.regRead t c) s = .next (answered .regRead c (readReg 0 (u32 c.params 0) (begun .regRead t c s)).2.1
        (wordBytes (readReg 0 (u32 c.params 0) (begun .regRead t c s)).1)
        (readReg 0 (u32 c.params 0) (begun .regRead t c s)).2.2))
    ∧ (∀ (t : Nat) (c : HostCmd) (s : State), accepted .regWrite refuseRegWrite t c s = true → 
      exec (.regWrite t c) s = .next (answered .regWrite c
        (writeReg (u32 c.params 0) (u32 c.params 4) (begun .regWrite t c s)).1 []
        (writeReg (u32 c.params 0) (u32 c.params 4) (begun .regWrite t c s)).2))
    ∧ (∀ (t : Nat) (c : HostCmd) (s s1 s2 s3 : State) (old back : Word) (st sb : Status),
      accepted .regRmw refuseRegRmw t c s = true →
      readReg 0 (u32 c.params 0) (begun .regRmw t c s) = (old, .ok, s1) →
      writeReg (u32 c.params 0) (rmwValue old (w32 (u32 c.params 4)) (w32 (u32 c.params 8))).toNat s1 = (st, s2) →
      readReg 0 (u32 c.params 0) s2 = (back, sb, s3) →
      exec (.regRmw t c) s = .next (answered .regRmw c st (wordBytes old ++ wordBytes back) s3))
    ∧ (∀ (t : Nat) (c : HostCmd) (s : State), accepted .regReadBlock refuseRegReadBlock t c s = true →
      ∃ b, b = readBlock (blockAddrs c) (begun .regReadBlock t c s) ∧ b.count = u16 c.params 4
        ∧ exec (.regReadBlock t c) s = .next (answered .regReadBlock c b.head.1
          (b.head.2 ++ b.words.reverse.flatMap wordBytes) b.st))
    ∧ (∀ (t : Nat) (c : HostCmd) (s : State), accepted .regWriteBlock refuseRegWriteBlock t c s = true →
      ∃ b, b = writeBlock (((List.range (u16 c.params 4)).zip (blockAddrs c)).map
          (fun x => (x.2, u32 c.params (8 + 4 * x.1)))) (begun .regWriteBlock t c s) ∧ b.count = u16 c.params 4
        ∧ exec (.regWriteBlock t c) s = .next (answered .regWriteBlock c b.head.1 b.head.2 b.st))
    ∧ (∀ (t a v : Nat) (s : State), decodeReg s a = none →
      ∃ u, exec (.registerWrite t a v) s = .next u ∧ u.ctl = { s.ctl with cnt := u.ctl.cnt }
        ∧ (readReg 0 a s).1 = 0#32 ∧ (readReg 0 a s).2.1 = .decodeZero ∧ u.evt = s.evt ∧ u.host = s.host)
    ∧ (∀ (t v : Nat) (s : State), ∃ u, exec (.registerWrite t 0x00000014 v) s = .next u
        ∧ u.halWaitMs = clampNat 100 60000 (v % 65536) ∧ u.mode = s.mode ∧ u.aon = s.aon)
    ∧ (∀ (t n code : Nat) (a : Bool) (s : State), n ≤ 131 →
      ∃ w, exec (.ctleCodeWrite t n code a) s = .next (writeRxCfg n w (advance t s)) ∧ w / 4 % 32 = code % 32
        ∧ w / 2 % 2 = bit a ∧ w / 128 = (regRxCfg s n).toNat / 128 ∧ w % 2 = (regRxCfg s n).toNat % 2)
    ∧ (∀ (t a : Nat) (s : State), ∃ u, exec (.compatWindowRead t a) s = .next u
        ∧ u.out = .busRead (max s.clock.clk t) (0x0F000000 + a % 0x1000000)
          (readReg 1 (0x0F000000 + a % 0x1000000) (advance t s)).1.toNat :: s.out ∧ u.mode = s.mode)

/-- Table 2.12 and R71 to R77: the image commands and the events that follow them. -/
def Obligations.ImageCommandsTakeEffect : Prop :=
  (∀ (t : Nat) (c : HostCmd) (s : State), accepted .imgInfo refuseImgInfo t c s = true → 
      exec (.imgInfo t c) s = .next (answered .imgInfo c .ok (imgInfoSlot s 0 ++ imgInfoSlot s 1 ++ imgInfoSlot s 2 ++ (recBytes (bootRec s)).take 12
        ++ beBytes 1 s.fuses.floor) (begun .imgInfo t c s)))
    ∧ (∀ (t : Nat) (c : HostCmd) (s : State), accepted .imgWriteBegin refuseImgWriteBegin t c s = true → s.flash.write = none →
      ∃ u, exec (.imgWriteBegin t c) s = .next u ∧ u.flash.phases = s.flash.phases.set (u8 c.params 0) .erasing
        ∧ u.flash.mem = memClear s.flash.mem (slotBase (u8 c.params 0)) (slotBase (u8 c.params 0) + 0x800000)
        ∧ u.flash.write = some ⟨u8 c.params 0, c.session, u32 c.params 4, 0, max s.clock.clk t⟩
        ∧ u.aon.boot.skip = s.aon.boot.skip.set (u8 c.params 0) false)
    ∧ (∀ (t n : Nat) (s : State), n ≤ 2 → slotPhase s n = .erasing →
      ∃ u, exec (.slotEraseDone t n) s = .next u ∧ u.flash.phases = s.flash.phases.set n .writing
        ∧ u.flash.write = s.flash.write.map (fun w => { w with lastAt := max s.clock.clk t }) ∧ u.flash.mem = s.flash.mem)
    ∧ (∀ (t : Nat) (c : HostCmd) (s : State), accepted .imgWrite refuseImgWrite t c s = true → 
      ∃ u, exec (.imgWrite t c) s = .next u ∧ u.flash.mem = memWriteList 0xFF#8 s.flash.mem (slotBase (u8 c.params 0) + u32 c.params 4) (c.params.drop 8)
        ∧ u.flash.write = s.flash.write.map (fun w =>
          { w with written := w.written + (c.params.drop 8).length, lastAt := max s.clock.clk t })
        ∧ u.flash.phases = s.flash.phases ∧ u.aon = s.aon)
    ∧ (∀ (t : Nat) (w : ImageWrite) (s : State), s.flash.write = some w → slotPhase s w.slot = .writing →
      w.lastAt + 60000000000 ≤ max s.clock.clk t →
      ∃ u, exec (.imageWriteTimeout t) s = .next u ∧ u.flash.write = none ∧ u.flash.phases = s.flash.phases.set w.slot .abandoned
        ∧ u.flash.mem = s.flash.mem)
    ∧ (∀ (t : Nat) (c : HostCmd) (s : State), accepted .imgWriteEnd refuseImgWriteEnd t c s = true → imgReason s (u8 c.params 0) = none →
      ∃ u, exec (.imgWriteEnd t c) s = .next u ∧ u.flash.write = none ∧ u.flash.phases = s.flash.phases.set (u8 c.params 0) .idle ∧ u.flash.mem = s.flash.mem ∧ u.aon = s.aon)
    ∧ (∀ (t r : Nat) (c : HostCmd) (s : State), accepted .imgWriteEnd refuseImgWriteEnd t c s = true →
      imgReason s (u8 c.params 0) = some r →
      ∃ u x, exec (.imgWriteEnd t c) s = .next u ∧ u.aon.boot.reject = r ∧ u.aon.boot.rejectSlot = u8 c.params 0
        ∧ u.flash.write = none ∧ u = answered .imgWriteEnd c (if r = 7 then .rollbackRefused else .imageInvalid) [] x)
    ∧ (∀ (t : Nat) (c : HostCmd) (s : State), accepted .imgActivate refuseImgActivate t c s = true → 
      ∃ u, exec (.imgActivate t c) s = .next u ∧ u.flash.mem = (writeRec { bootRec s with trial := some (u8 c.params 0), attempts := 0 } s).flash.mem
        ∧ u.aon.boot.skip = s.aon.boot.skip.set (u8 c.params 0) false
        ∧ u.flash.startNow = (if u8 c.params 1 = 1 ∨ s.start.recovery = true then some (max s.clock.clk t) else s.flash.startNow))
    ∧ (∀ (t a : Nat) (s : State), s.flash.startNow = some a → a + 10000000 ≤ max s.clock.clk t →
      ∃ u, exec (.imageStartNow t) s = .next u ∧ u.mode = .boot ∧ u.aon.lastTrans = 1 ∧ u.flash.mem = s.flash.mem
        ∧ u.flash.startNow = none ∧ u.fuses = s.fuses)
    ∧ (∀ (t : Nat) (c : HostCmd) (s : State), accepted .imgTrialAbort refuseImgTrialAbort t c s = true → trialExists s = true →
      ∃ u, exec (.imgTrialAbort t c) s = .next u ∧ u.aon.boot.trial = false ∧ u.mode = s.mode ∧ u.flash.mem = (writeRec { bootRec s with trial := none, attempts := 0 } s).flash.mem)
    ∧ (∀ (t : Nat) (c : HostCmd) (s : State), accepted .imgConfirm refuseImgConfirm t c s = true → s.aon.boot.trial = true →
      ∃ u, exec (.imgConfirm t c) s = .next u ∧ u.aon.boot.trial = false ∧ s.fuses.floor ≤ u.fuses.floor
        ∧ u.flash.mem = (writeRec { bootRec s with active := s.aon.boot.slot, trial := none, attempts := 0 } s).flash.mem)
    ∧ (∀ (t a : Nat) (s : State), s.flash.trialSince = some a → s.aon.boot.trial = true → s.flash.trialBlocked = false →
      a + s.aon.trialS * 1000000000 ≤ max s.clock.clk t →
      ∃ u, exec (.trialConfirmTimer t) s = .next u ∧ u.aon.boot.trial = false ∧ s.fuses.floor ≤ u.fuses.floor
        ∧ u.flash.mem = (writeRec { bootRec s with active := s.aon.boot.slot, trial := none, attempts := 0 } s).flash.mem)

/-- The commands of Table 4.4 with ERROR_INJECTION, and the writes of LANE_RX_CFG and LANE_TX_CFG. -/
def Obligations.LaneCommandsTakeEffect : Prop :=
  (∀ (t : Nat) (c : HostCmd) (s : State), accepted .laneStatus refuseLaneStatus t c s = true → 
      exec (.laneStatus t c) s = .next (answered .laneStatus c .ok (wordBytes (regRxStatus (begun .laneStatus t c s) (u8 c.params 0))
        ++ wordBytes (rxLane s (u8 c.params 0)).peer ++ wordBytes (regTxCfg s (u8 c.params 0))
        ++ (((tget [] (rxLane s (u8 c.params 0)).pennants 4).take 4
          ++ List.replicate (4 - (tget [] (rxLane s (u8 c.params 0)).pennants 4).length) 0#8))
        ++ (((tget [] (rxLane s (u8 c.params 0)).pennants 5).take 5
          ++ List.replicate (5 - (tget [] (rxLane s (u8 c.params 0)).pennants 5).length) 0#8)) ++ beBytes 3 0) (begun .laneStatus t c s)))
    ∧ (∀ (t : Nat) (c : HostCmd) (s : State), accepted .laneCounters refuseLaneCounters t c s = true → 
      exec (.laneCounters t c) s = .next (answered .laneCounters c .ok ((List.range 10).flatMap (fun i => wordBytes (tget 0#32 (rxLane s (u8 c.params 0)).cnt i))) (begun .laneCounters t c s)))
    ∧ (∀ (t : Nat) (c : HostCmd) (s : State), accepted .laneConfig refuseLaneConfig t c s = true → 
      ∃ u, exec (.laneConfig t c) s = .next u ∧ ((u8 c.params 1).testBit 0 = true → (rxLane u (u8 c.params 0)).enable = (u32 c.params 4).testBit 0
          ∧ (rxLane u (u8 c.params 0)).code = bitsOf (u32 c.params 4) 6 2)
        ∧ ((u8 c.params 1).testBit 1 = true → (txLane u (u8 c.params 0)).swing = bitsOf (u32 c.params 8) 3 1)
        ∧ ((u8 c.params 1).testBit 2 = true → (txLane u (u8 c.params 0)).tag = u32 c.params 12)
        ∧ (∀ k, k ≠ u8 c.params 0 → rxLane u k = rxLane s k ∧ txLane u k = txLane s k))
    ∧ (∀ (t : Nat) (c : HostCmd) (s : State), accepted .lanePrbs refuseLanePrbs t c s = true → u8 c.params 2 ≠ 0 →
      ∃ u, exec (.lanePrbs t c) s = .next u ∧ (bitOf (u8 c.params 1) 0 = true → (rxLane u (u8 c.params 0)).checker = u8 c.params 2
          ∧ (rxLane u (u8 c.params 0)).state = .test ∧ (rxLane u (u8 c.params 0)).prbsSync = false)
        ∧ (bitOf (u8 c.params 1) 1 = true → (txLane u (u8 c.params 0)).gen = u8 c.params 2))
    ∧ (∀ (t : Nat) (c : HostCmd) (s : State), accepted .laneLoop refuseLaneLoop t c s = true → 
      ∃ u, exec (.laneLoop t c) s = .next u ∧ (u8 c.params 1 = 0 → (txLane u (u8 c.params 0)).near = false ∧ (txLane u (u8 c.params 0)).far = false)
        ∧ (u8 c.params 1 = 1 → (txLane u (u8 c.params 0)).near = true) ∧ (u8 c.params 1 = 2 → (txLane u (u8 c.params 0)).far = true))
    ∧ (∀ (t : Nat) (c : HostCmd) (s : State), accepted .laneErrInject refuseLaneErrInject t c s = true →
      ∃ u x, exec (.laneErrInject t c) s = .next u ∧ u = answered .laneErrInject c .scheduled [] x
        ∧ (txLane u (u8 c.params 0)).inject
          = some ⟨u8 c.params 1, u16 c.params 2, u16 c.params 4, max s.clock.clk t⟩ ∧ u.lane.rx = s.lane.rx)
    ∧ (∀ (t k : Nat) (j : Injection) (s : State), k ≤ 131 → (txLane s k).inject = some j → j.next ≤ max s.clock.clk t →
      ∃ u, exec (.errorInjection t k) s = .next u ∧ u.out = .injected (max s.clock.clk t) k j.target :: s.out
        ∧ (j.left ≤ 1 → (txLane u k).inject = none)
        ∧ (1 < j.left → (txLane u k).inject = some { j with left := j.left - 1, next := j.next + blocksNs j.interval })
        ∧ (j.target = 2 → (txLane u k).badCrc = true) ∧ u.lane.rx = s.lane.rx)
    ∧ (∀ (t k v : Nat) (s : State), k ≤ 131 → ∃ u, exec (.laneRxEnableWrite t k v) s = .next u
        ∧ (rxLane u k).enable = v.testBit 0 ∧ (rxLane u k).auto = v.testBit 1 ∧ (rxLane u k).code = bitsOf v 6 2
        ∧ (rxLane u k).mapCheck = v.testBit 7 ∧ (rxLane u k).expectMap = bitsOf v 31 16
        ∧ (lanesRun s = true → (rxLane s k).enable = true → v.testBit 0 = false → (rxLane u k).state = .disabled)
        ∧ (∀ j, j ≠ k → rxLane u j = rxLane s j) ∧ u.lane.tx = s.lane.tx)
    ∧ (∀ (t k v : Nat) (s : State), k ≤ 131 → ∃ u, exec (.laneTxEnableWrite t k v) s = .next u
        ∧ (txLane u k).enable = v.testBit 0 ∧ (txLane u k).swing = bitsOf v 3 1 ∧ (txLane u k).post = bitsOf v 7 4
        ∧ (txLane u k).pre = bitsOf v 10 8 ∧ (∀ j, j ≠ k → txLane u j = txLane s j) ∧ u.lane.rx = s.lane.rx)

/-- R119 to R133 and R138 for the events of a receive lane. -/
def Obligations.LaneEventsMoveTheLane : Prop :=
  (∀ (t k : Nat) (s : State), k ≤ 131 → lanesRun s = true → (rxLane s k).enable = true → (txLane s k).near = false →
      (rxLane s k).state ≠ .noSignal → (rxLane s k).state ≠ .disabled → (rxLane s k).state ≠ .test →
      ∃ u, exec (.laneSignalLost t k) s = .next u ∧ (rxLane u k).state = .noSignal ∧ (rxLane u k).lostAt = max s.clock.clk t
        ∧ hasSignal u k = false ∧ u.lane.tx = s.lane.tx)
    ∧ (∀ (t k : Nat) (s : State), k ≤ 131 → lanesRun s = true → (rxLane s k).state = .noSignal →
      ∃ u, exec (.laneSignalReturn t k) s = .next u ∧ hasSignal u k = true
        ∧ (rxLane u k).state = (if (rxLane s k).auto = true ∧ (rxLane s k).lostAt + 1000000 < max s.clock.clk t then .sweep
            else .blockHunt) ∧ (∀ j, j ≠ k → rxLane u j = rxLane s j))
    ∧ (∀ (t k : Nat) (eyes : List Nat) (s : State), k ≤ 131 → (rxLane s k).state = .sweep →
      (rxLane s k).sweepAt + 3200000 ≤ max s.clock.clk t →
      ∃ u, exec (.ctleSweepDone t k eyes) s = .next u ∧ (rxLane u k).state = .blockHunt ∧ (rxLane u k).ctleNow = bestEye eyes)
    ∧ (∀ (t k b h a : Nat) (s : State), k ≤ 131 → (rxLane s k).auto = true → (rxLane s k).state = .locked →
      (rxLane s k).ber = false →
      ∃ u, exec (.ctleTrack t k b h a) s = .next u ∧ (rxLane u k).ctleNow ≤ (rxLane s k).ctleNow + 1
        ∧ (rxLane s k).ctleNow ≤ (rxLane u k).ctleNow + 1 ∧ (rxLane u k).state = .locked)
    ∧ (∀ (t k hd e : Nat) (bs : List Byte) (s : State), k ≤ 131 → (rxLane s k).state = .blockHunt → hd ≠ 1 → hd ≠ 2 →
      ∃ u, exec (.laneBlockReceived t k hd bs e) s = .next u ∧ (rxLane u k).state = .blockHunt
        ∧ (rxLane u k).huntGood = 0 ∧ (rxLane u k).huntBit = ((rxLane s k).huntBit + 1) % 66)
    ∧ (∀ (t k hd e : Nat) (bs : List Byte) (s : State), k ≤ 131 → (rxLane s k).state = .blockHunt → (hd = 1 ∨ hd = 2) →
      63 ≤ (rxLane s k).huntGood →
      ∃ u, exec (.laneBlockReceived t k hd bs e) s = .next u ∧ (rxLane u k).state = .pennantHunt)
    ∧ (∀ (t k : Nat) (s : State), k ≤ 131 → (rxLane s k).state = .blockHunt →
      ∃ u, exec (.blockLockGained t k) s = .next u ∧ (rxLane u k).state = .pennantHunt ∧ (rxLane u k).runGood = 0)
    ∧ (∀ (t k : Nat) (s : State), k ≤ 131 → ((rxLane s k).state = .pennantHunt ∨ (rxLane s k).state = .locked) →
      (∃ u, exec (.blockLockLost t k) s = .next u ∧ (rxLane u k).state = .blockHunt
        ∧ tget 0#32 (rxLane u k).cnt 1 = tget 0#32 (rxLane s k).cnt 1 + 1#32)
      ∧ (∃ u, exec (.rxFifoOverflow t k) s = .next u ∧ (rxLane u k).state = .blockHunt
        ∧ tget 0#32 (rxLane u k).cnt 1 = tget 0#32 (rxLane s k).cnt 1 + 1#32))
    ∧ (∀ (t k m : Nat) (s : State), k ≤ 131 → ((rxLane s k).state = .pennantHunt ∨ (rxLane s k).state = .locked) →
      ∃ u, exec (.berInterval t k m) s = .next u ∧ (rxLane u k).ber = decide (16 ≤ (rxLane s k).berBad + m)
        ∧ (rxLane u k).berBad = 0 ∧ (rxLane u k).state = (rxLane s k).state)
    ∧ (∀ (t k : Nat) (s : State), k ≤ 131 → (rxLane s k).state = .pennantHunt →
      ∃ u, exec (.pennantLockGained t k) s = .next u ∧ (rxLane u k).state = .locked ∧ (rxLane u k).runBad = 0)
    ∧ (∀ (t k : Nat) (s : State), k ≤ 131 → (rxLane s k).state = .locked →
      ∃ u, exec (.pennantLockLost t k) s = .next u ∧ (rxLane u k).state = .pennantHunt
        ∧ tget 0#32 (rxLane u k).cnt 3 = tget 0#32 (rxLane s k).cnt 3 + 1#32)
    ∧ (∀ (t k : Nat) (b : List Byte) (s : State), k ≤ 131 → lanesRun s = true → (rxLane s k).state = .locked →
      (validPennant b = true → ∃ u, exec (.pennantReceived t k b) s = .next u ∧ (rxLane u k).runBad = 0
        ∧ tget [] (rxLane u k).pennants (u8 b 1 / 32) = sub b 2 5 ∧ (rxLane u k).state = .locked
        ∧ (rxLane u k).ensign = bitOf (u8 b 1) 4)
      ∧ (validPennant b = false → 3 ≤ (rxLane s k).runBad →
        ∃ u, exec (.pennantReceived t k b) s = .next u ∧ (rxLane u k).state = .pennantHunt))

/-- PENNANT_TRANSMIT: what is sent passes the check that the receiver makes (R126, R129). -/
def Obligations.PennantsSentAreValid : Prop :=
  ∀ (t k : Nat) (s : State), k ≤ 131 →
      (sendsPennants s k = true → ∃ u b, exec (.pennantTransmit t k) s = .next u
        ∧ u.out = .pennant (max s.clock.clk t) k (ensignNow (advance t s)) ((txLane s k).frame % 8) b :: s.out
        ∧ b.length = 8 ∧ validPennant b = !(txLane s k).badCrc ∧ u8 b 1 / 32 = (txLane s k).frame % 8
        ∧ (txLane u k).frame = (txLane s k).frame + 1 ∧ (txLane u k).badCrc = false ∧ u.lane.rx = s.lane.rx)
      ∧ (sendsPennants s k = false → ∃ u, exec (.pennantTransmit t k) s = .next u ∧ u.out = s.out ∧ u.lane = s.lane)

/-- The commands of Tables 5.4 and 5.5, and the writes of FLOW_SRC_CFG and FLOW_TP_CFG. -/
def Obligations.FlowCommandsTakeEffect : Prop :=
  (∀ (t : Nat) (c : HostCmd) (s : State), accepted .flowSrcDefine refuseFlowSrcDefine t c s = true → srcDefined s (u16 c.params 0) = false →
      ∃ u, exec (.flowSrcDefine t c) s = .next u ∧ (srcOf u (u16 c.params 0)).def_ = some { srcDefOf c with
          slot := ((planePosition s (u16 c.params 0) (srcDefOf c)).getD (0, 0)).1
          count := ((planePosition s (u16 c.params 0) (srcDefOf c)).getD (0, 0)).2 }
        ∧ (srcOf u (u16 c.params 0)).phase = 1 ∧ (srcOf u (u16 c.params 0)).cfg = srcCfgOf c
        ∧ (srcOf u (u16 c.params 0)).cnt = (srcOf s (u16 c.params 0)).cnt
        ∧ (∀ m, m ≠ u16 c.params 0 → srcOf u m = srcOf s m))
    ∧ (∀ (t : Nat) (c : HostCmd) (s : State), accepted .flowSrcDefine refuseFlowSrcDefine t c s = true → srcDefined s (u16 c.params 0) = true →
      ∃ u, exec (.flowSrcDefine t c) s = .next u ∧ (srcOf u (u16 c.params 0)).def_ = (srcOf s (u16 c.params 0)).def_
        ∧ (∃ d, (srcOf u (u16 c.params 0)).redef = some (d, srcCfgOf c) ∧ d.cls = u8 c.params 2 ∧ d.format = u8 c.params 3)
        ∧ (srcOf u (u16 c.params 0)).deleting = false)
    ∧ (∀ (t : Nat) (c : HostCmd) (s : State), accepted .flowDstDefine refuseFlowDstDefine t c s = true → (dstOf s (u16 c.params 0)).def_ = none →
      ∃ u, exec (.flowDstDefine t c) s = .next u ∧ (dstOf u (u16 c.params 0)).def_ = some (dstDefOf c)
        ∧ (dstOf u (u16 c.params 0)).shown = 2 ∧ (dstOf u (u16 c.params 0)).cause = 3
        ∧ (∀ m, m ≠ u16 c.params 0 → dstOf u m = dstOf s m))
    ∧ (∀ (t : Nat) (c : HostCmd) (s : State), accepted .flowDelete refuseFlowDelete t c s = true →
      ∃ u x, exec (.flowDelete t c) s = .next u ∧ u = answered .flowDelete c .scheduled [] x
        ∧ (u8 c.params 0 = 0 → (srcOf u (u16 c.params 2)).deleting = true ∧ (srcOf u (u16 c.params 2)).redef = none)
        ∧ (u8 c.params 0 ≠ 0 → (dstOf u (u16 c.params 2)).deleting = true ∧ (dstOf u (u16 c.params 2)).redef = none))
    ∧ (∀ (t : Nat) (c : HostCmd) (s : State), accepted .flowGroupSet refuseFlowGroupSet t c s = true → 
      ∃ u, exec (.flowGroupSet t c) s = .next u ∧ (groupMembers c ≠ [] → (tget ⟨[], []⟩ u.flow.groups (u8 c.params 0)).members = groupMembers c
          ∧ ∀ m ∈ groupMembers c, (srcOf u m).group = some (u8 c.params 0))
        ∧ (groupMembers c = [] → ∀ m ∈ (tget ⟨[], []⟩ s.flow.groups (u8 c.params 0)).members, (srcOf u m).group = none))
    ∧ (∀ (t : Nat) (c : HostCmd) (s : State), accepted .flowParkSet refuseFlowParkSet t c s = true → 
      ∃ u, exec (.flowParkSet t c) s = .next u ∧ (dstOf u (u16 c.params 0)).parkType = u8 c.params 2 ∧ (dstOf u (u16 c.params 0)).parkValue = u32 c.params 4
        ∧ (dstOf u (u16 c.params 0)).fallback = none ∧ (∀ m, m ≠ u16 c.params 0 → dstOf u m = dstOf s m) ∧ u.flow.src = s.flow.src)
    ∧ (∀ (t : Nat) (c : HostCmd) (s : State), accepted .flowQuery refuseFlowQuery t c s = true →
      ∃ ps, exec (.flowQuery t c) s = .next (answered .flowQuery c .ok ps (begun .flowQuery t c s))
        ∧ (u8 c.params 0 ≠ 0 → ps = wordBytes (regDstStatus s (u16 c.params 2))
          ++ beBytes 4 (dstOf s (u16 c.params 2)).parkValue ++ beBytes 4 (dstOf s (u16 c.params 2)).seq)
        ∧ (u8 c.params 0 = 0 → ps.take 16 = wordBytes (regSrcCfg s (u16 c.params 2)) ++ wordBytes (regSrcStatus s (u16 c.params 2))
          ++ wordBytes (regSrcSkew s (u16 c.params 2)) ++ beBytes 4 (srcOf s (u16 c.params 2)).lastRead))
    ∧ (∀ (t : Nat) (c : HostCmd) (s : State) (x : Totals), accepted .flowAdmitCheck refuseFlowAdmitCheck t c s = true →
      totalsOf (allSrcs s) (allDsts s) (compSlots s 64) (compLoad s 64) = x →
      exec (.flowAdmitCheck t c) s = .next (answered .flowAdmitCheck c .ok
        (beBytes 1 ((firstFailing s (u8 c.params 0) x).getD 0) ++ beBytes 1 (u8 c.params 0) ++ beBytes 2 0
          ++ beBytes 2 x.slots ++ beBytes 2 (levelSlots (u8 c.params 0)) ++ beBytes 1 x.comp ++ beBytes 1 (levelComp (u8 c.params 0))
          ++ beBytes 2 0 ++ beBytes 4 x.ring ++ beBytes 4 (ringLimit s) ++ beBytes 4 x.rate ++ beBytes 4 1050000
          ++ beBytes 2 x.rxPkt ++ beBytes 2 512 ++ beBytes 2 x.txPkt ++ beBytes 2 512) (begun .flowAdmitCheck t c s)))
    ∧ (∀ (t n v : Nat) (s : State), n ≤ 1023 → ∃ u, exec (.flowSrcCfgWrite t n v) s = .next u
        ∧ (srcOf u n).cfgNext = some ⟨clampNat 1 1000 (bitsOf v 9 0), clampNat 1 8 (bitsOf v 13 10), v.testBit 14, v.testBit 15⟩
        ∧ (srcOf u n).cfg = (srcOf s n).cfg ∧ (∀ m, m ≠ n → srcOf u m = srcOf s m))
    ∧ (∀ (t p v : Nat) (s : State), p ≤ 7 → ∃ u, exec (.flowTpCfgWrite t p v) s = .next u
        ∧ flowTp u p = (if s.host.locked = true ∨ flowOnPlane s p = true then flowTp s p
            else ⟨clampNat 2 32 (bitsOf v 5 0), clampNat 4 64 (bitsOf v 14 8)⟩) ∧ u.flow.src = s.flow.src)

/-- R162 to R189: the events of a source and its copies. -/
def Obligations.FlowEventsMoveTheFlow : Prop :=
  (∀ (t n : Nat) (s : State), n ≤ 1023 → (srcOf s n).deleting = true →
      ∃ u, exec (.sourceDeleteLands t n) s = .next u ∧ (srcOf u n).def_ = none ∧ (srcOf u n).deleting = false
        ∧ (srcOf u n).phase = 0 ∧ (srcOf u n).cfg = (srcOf s n).cfg ∧ ∀ e ∈ u.xpt.queue, e.namesSource n = false)
    ∧ (∀ (t d : Nat) (s : State), d ≤ 1023 → (dstOf s d).deleting = true →
      ∃ u, exec (.destDeleteLands t d) s = .next u ∧ (dstOf u d).def_ = none ∧ (xdst u d).selected = none
        ∧ (dstOf u d).parkType = (dstOf s d).parkType ∧ (dstOf u d).parkValue = (dstOf s d).parkValue
        ∧ ∀ e ∈ u.xpt.queue, e.namesDest d = false)
    ∧ (∀ (t n : Nat) (d old : SrcDef) (g : SrcCfg) (s : State), n ≤ 1023 → (srcOf s n).redef = some (d, g) →
      (srcOf s n).def_ = some old →
      ∃ u, exec (.sourceRedefineLands t n) s = .next u ∧ (srcOf u n).def_ = some d ∧ (srcOf u n).cfg = g
        ∧ (srcOf u n).redef = none)
    ∧ (∀ (t n c q fl fmt : Nat) (a : Option (List Byte)) (s : State), n ≤ 1023 → 1 ≤ c → c ≤ 2 → flowRuns s n c = true →
      fl.testBit 0 = false →
      ∃ u, exec (.flowFrameStart t n c q fl fmt a false) s = .next u
        ∧ ((srcOf u n).copy c).lastSeq = some (q % 0x100000000) ∧ ((srcOf u n).copy c).inFrame = some (q % 0x100000000)
        ∧ ((srcOf u n).copy c).bytes = 0 ∧ (srcOf u n).def_ = (srcOf s n).def_)
    ∧ (∀ (t n c k m q : Nat) (ds : List Byte) (p : Bool) (w : Option Word) (s : State), n ≤ 1023 → 1 ≤ c → c ≤ 2 →
      flowRuns s n c = true → ((srcOf s n).copy c).inFrame = some q →
      ∃ u, exec (.flowParcel t n c k m ds p w) s = .next u
        ∧ ((srcOf u n).copy c).bytes = ((srcOf s n).copy c).bytes + m * ds.length
        ∧ ((srcOf u n).copy c).inFrame = some q ∧ (srcOf u n).phase = (srcOf s n).phase)
    ∧ (∀ (t n q : Nat) (b : FrameBuf) (s : State), n ≤ 1023 → bufOf s n q = some b → b.closed = false → b.leadEnded = true →
      b.joined = false → b.leadAt + mergeWindow (srcOf s n) ≤ max s.clock.clk t →
      ∃ u b', exec (.mergeWindowExpired t n q) s = .next u ∧ bufOf u n q = some b' ∧ b'.closed = true
        ∧ b'.short = decide (heldCount b.parcels < parcelCount (srcOf s n).format) ∧ b'.parcels = b.parcels)
    ∧ (∀ (t n c : Nat) (s : State), n ≤ 1023 → 1 ≤ c → c ≤ 2 → srcDefined s n = true → ((srcOf s n).copyDef c).kind ≠ 0 →
      ((srcOf s n).copy c).lost = false →
      ((srcOf s n).copy c).lastAt + 2 * framePeriod (srcOf s n).format + mergeWindow (srcOf s n) ≤ max s.clock.clk t →
      ∃ u, exec (.copyLost t n c) s = .next u ∧ ((srcOf u n).copy c).lost = true ∧ ((srcOf u n).copy c).runGood = 0
        ∧ (srcOf u n).phase = (srcOf s n).phase)
    ∧ (∀ (t n : Nat) (ps : List AudPacket) (s : State), n ≤ 1023 → srcDefined s n = true → inS1 s = false → lanesRun s = true →
      (srcOf s n).deleting = false → (srcOf s n).redef = none → (srcOf s n).cfgNext = none → (srcOf s n).fmtOver = false →
      cellDown s n = false → paired s = false → (srcOf s n).group = none → (srcOf s n).phase = 3 →
      (∀ b bs, candidates (srcOf s n) = b :: bs → ∃ u, exec (.readOutPoint t n ps) s = .next u ∧ (srcOf u n).lastRead = b.seq
        ∧ (srcOf u n).everRead = true ∧ (srcOf u n).repeated = false ∧ (srcOf u n).run = 0)
      ∧ (candidates (srcOf s n) = [] → ∃ u, exec (.readOutPoint t n ps) s = .next u
        ∧ (srcOf u n).repeated = true ∧ (srcOf u n).run = (srcOf s n).run + 1 ∧ (srcOf u n).newRun = 0
        ∧ (srcOf u n).phase = (if (srcOf s n).cfg.hold ≤ (srcOf s n).run + 1 then 4 else 3)))
    ∧ (∀ (t n : Nat) (s : State), n ≤ 1023 → srcDefined s n = true → (srcOf s n).cfg.hold ≤ (srcOf s n).run →
      ((srcOf s n).phase = 1 ∨ (srcOf s n).phase = 2 ∨ (srcOf s n).phase = 3) →
      ∃ u, exec (.holdFramesReached t n) s = .next u ∧ (srcOf u n).phase = 4 ∧ (srcOf u n).run = (srcOf s n).run)

/-- The commands of Tables 6.8 and 6.9. -/
def Obligations.CrosspointCommandsTakeEffect : Prop :=
  (∀ (t : Nat) (c : HostCmd) (s : State), accepted .xptTake refuseXptTake t c s = true → 
      ∃ u, exec (.xptTake t c) s = .next u ∧ ∃ x, u.xpt.queue = s.xpt.queue ++ [x] ∧ x.action = .video (u16 c.params 0) (selOf (u16 c.params 2))
        ∧ x.session = c.session ∧ x.role = c.role ∧ x.seq = c.seq ∧ x.tag = u16 c.params 6 ∧ x.order = s.xpt.nextOrder
        ∧ x.target = none ∧ x.sealed_ = none ∧ x.wait = bitOf (u8 c.params 4) 0 ∧ u.xpt.dst = s.xpt.dst)
    ∧ (∀ (t : Nat) (c : HostCmd) (s : State), accepted .xptTakeBatch (refuseBatch 0) t c s = true → 
      ∃ u, exec (.xptTakeBatch t c) s = .next u ∧ ∃ xs, u.xpt.queue = s.xpt.queue ++ xs
        ∧ xs.map (·.action) = (takePairs c.params 8 (u16 c.params 2)).map (fun p => Action.video p.1 (selOf p.2))
        ∧ (∀ x ∈ xs, x.session = c.session ∧ x.tag = u16 c.params 4 ∧ x.sealed_ = none ∧ x.target = none)
        ∧ u.xpt.nextOrder = s.xpt.nextOrder + u16 c.params 2 ∧ u.xpt.dst = s.xpt.dst)
    ∧ (∀ (t : Nat) (c : HostCmd) (s : State), accepted .xptTakeAt (refuseBatch 12) t c s = true → 
      ∃ u, exec (.xptTakeAt t c) s = .next u ∧ ∃ xs, u.xpt.queue = s.xpt.queue ++ xs
        ∧ xs.map (·.action) = (takePairs c.params 20 (u16 c.params 14)).map (fun p => Action.video p.1 (selOf p.2))
        ∧ (∀ x ∈ xs, x.session = c.session ∧ x.tag = u16 c.params 16 ∧ x.sealed_ = none
          ∧ x.late = decide (targetOf c.params 0 < (advance t s).clock.now)
          ∧ x.target = (if targetOf c.params 0 < (advance t s).clock.now then none else some (targetOf c.params 0)))
        ∧ u.xpt.dst = s.xpt.dst)
    ∧ (∀ (t : Nat) (c : HostCmd) (s : State), accepted .xptQueueCancel refuseXptQueueCancel t c s = true → 
      ∃ u, exec (.xptQueueCancel t c) s = .next u ∧ u.xpt.queue = s.xpt.queue.filter (fun x => !(x.unsealed && cancelNames c x))
        ∧ u.xpt.dst = s.xpt.dst)
    ∧ (∀ (t : Nat) (c : HostCmd) (s : State), accepted .xptLock refuseXptLock t c s = true → 
      ∃ u, exec (.xptLock t c) s = .next u ∧ (xdst u (u16 c.params 0)).lock = u8 c.params 2 ∧ (xdst u (u16 c.params 0)).selected = (xdst s (u16 c.params 0)).selected
        ∧ ((xdst s (u16 c.params 0)).lock ≠ u8 c.params 2 → (xdst u (u16 c.params 0)).owner = c.session)
        ∧ (∀ d, d ≠ u16 c.params 0 → xdst u d = xdst s d))
    ∧ (∀ (t : Nat) (c : HostCmd) (s : State), accepted .xptUnlock refuseXptUnlock t c s = true → 
      ∃ u, exec (.xptUnlock t c) s = .next u ∧ (xdst u (u16 c.params 0)).lock = 0 ∧ (xdst u (u16 c.params 0)).selected = (xdst s (u16 c.params 0)).selected
        ∧ (∀ d, d ≠ u16 c.params 0 → xdst u d = xdst s d))
    ∧ (∀ (t : Nat) (c : HostCmd) (s : State), accepted .xptQuery refuseXptQuery t c s = true → 
      exec (.xptQuery t c) s = .next (answered .xptQuery c .ok ((List.range (u16 c.params 2)).flatMap (fun i =>
        beBytes 2 (srcField (xdst s (u16 c.params 0 + i)).selected) ++ beBytes 2 (srcField (pendingSource s (u16 c.params 0 + i)))
          ++ beBytes 1 (xdst s (u16 c.params 0 + i)).lock
          ++ beBytes 1 (if (dstOf s (u16 c.params 0 + i)).shown = 1 then 0 else if (dstOf s (u16 c.params 0 + i)).shown = 2 then 1 else 2)
          ++ beBytes 2 (xdst s (u16 c.params 0 + i)).owner)) (begun .xptQuery t c s)))
    ∧ (∀ (t : Nat) (c : HostCmd) (s : State), accepted .xptTpSet refuseXptTpSet t c s = true → 
      ∃ u, exec (.xptTpSet t c) s = .next u ∧ tpCfg u (u8 c.params 0) = ⟨u8 c.params 1, u8 c.params 2, signedOf 32 (u32 c.params 4)⟩
        ∧ (∀ p, p ≠ u8 c.params 0 → tpCfg u p = tpCfg s p))
    ∧ (∀ (t : Nat) (c : HostCmd) (s : State), accepted .xptQueueStatus refuseXptQueueStatus t c s = true → 
      exec (.xptQueueStatus t c) s = .next (answered .xptQueueStatus c .ok (beBytes 2 s.xpt.queue.length ++ beBytes 2 s.xpt.highWater ++ beBytes 4 s.xpt.tick
        ++ beBytes 2 (s.xpt.queue.filter (fun x => x.session == c.session)).length ++ beBytes 2 0) (begun .xptQueueStatus t c s)))

/-- R179, R198 to R215: the events of the crosspoint. -/
def Obligations.CrosspointEventsTakeEffect : Prop :=
  (∀ (t d : Nat) (x : Entry) (src : Option Nat) (s : State), d ≤ 1023 → (dstOf s d).def_.isSome = true → lanesRun s = true →
      (dstOf s d).deleting = false → (dstOf s d).redef = none → readyTakes (advance t s) d = [x] → x.action = .video d src →
      ∃ u, exec (.switchingLine t d) s = .next u ∧ (xdst u d).selected = src ∧ (xdst u d).land = destCount s d
        ∧ (xdst u d).lock = (xdst s d).lock ∧ (∀ y ∈ u.xpt.queue, y.order ≠ x.order)
        ∧ tget 0#32 u.xpt.cnt 1 = tget 0#32 s.xpt.cnt 1 + 1#32 ∧ (∀ m, m ≠ d → xdst u m = xdst s m))
    ∧ (∀ (t d : Nat) (s : State), d ≤ 1023 → (dstOf s d).def_.isSome = true → lanesRun s = true →
      (dstOf s d).deleting = false → (dstOf s d).redef = none → readyTakes (advance t s) d = [] →
      ∃ u, exec (.switchingLine t d) s = .next u ∧ u.xpt.dst = s.xpt.dst ∧ u.xpt.queue.length = s.xpt.queue.length
        ∧ ((dstOf u d).shown = 1 ∨ (dstOf u d).shown = 2))
    ∧ (∀ (t d : Nat) (s : State), d ≤ 1023 → (dstOf s d).def_.isSome = true → lanesRun s = true → inS1 s = false →
      s.saf.restarting.contains (d / 16) = false →
      ∃ u b, exec (.destFrameStart t d) s = .next u ∧ (dstOf u d).seq = planeCount s (destPlane s d) (destFormat s d)
        ∧ .destFrame (max s.clock.clk t) d b ∈ u.out ∧ b.length = 17 ∧ u.flow.src = s.flow.src)
    ∧ (∀ (t n w0 w1 w2 w3 : Nat) (s : State), n ≤ 2687 → planeWordBad w0 = false → planeWordBad w1 = false →
      planeWordBad w2 = false → planeWordBad w3 = false →
      exec (.planeWordReceived t n w0 w1 w2 w3) s = .next (advance t s))
    ∧ (∀ (t n w0 w1 w2 w3 : Nat) (s : State), n ≤ 2687 → lanesRun s = true → planeWordBad w0 = true → planeWordBad w1 = false →
      planeWordBad w2 = false → planeWordBad w3 = false → (tget [] s.saf.planeFails 0).length < 999 →
      ∃ u, exec (.planeWordReceived t n w0 w1 w2 w3) s = .next u
        ∧ tget 0#32 u.xpt.cnt 6 = tget 0#32 s.xpt.cnt 6 + 1#32 ∧ u.saf.chipFault = s.saf.chipFault)
    ∧ (∀ (t n w0 w1 w2 w3 : Nat) (s : State), n ≤ 2687 → lanesRun s = true → planeWordBad w0 = true → planeWordBad w1 = true →
      planeWordBad w2 = true → planeWordBad w3 = true →
      ∃ u, exec (.planeWordReceived t n w0 w1 w2 w3) s = .next u ∧ u.saf.chipFault = true)
    ∧ (∀ (t : Nat) (s : State), s.clock.running = true → s.mode ≠ .boot → s.mode ≠ .retain → s.xpt.ticked = false →
      ∃ u, exec (.epochTick t) s = .next u ∧ u.xpt.tick = (s.clock.now + (t - s.clock.clk)) / 500000 % 0x100000000
        ∧ u.xpt.ticked = true)

/-- R211 to R218: the seal of a tick leaves no due entry in the open epoch. -/
def Obligations.EpochTickSealsWhatIsDue : Prop :=
  ∀ (t : Nat) (s u : State), paired s = false → s.clock.running = true → s.mode ≠ .boot → s.mode ≠ .retain →
    s.xpt.ticked = false → exec (.epochTick t) s = .next u →
    ∀ e ∈ u.xpt.queue, e.unsealed = true →
      e.dueAt ((s.clock.now + (t - s.clock.clk)) / 500000 * 500000 + 1000000) = false

/-- The commands of Tables 7.5 and 7.6. -/
def Obligations.CueCommandsTakeEffect : Prop :=
  (∀ (t : Nat) (c : HostCmd) (s : State), accepted .cueLoad refuseCueLoad t c s = true → 
      ∃ u, exec (.cueLoad t c) s = .next u ∧ tfind u.cue.progs (u8 c.params 0)
          = some ⟨c.session, cueWords (c.params.drop 12) (u16 c.params 4), w32 (u32 c.params 8)⟩
        ∧ (∀ p, p ≠ u8 c.params 0 → tfind u.cue.progs p = tfind s.cue.progs p) ∧ u.cue.insts = s.cue.insts)
    ∧ (∀ (t : Nat) (c : HostCmd) (s : State), accepted .cueRun refuseCueRun t c s = true → 
      ∃ u, exec (.cueRun t c) s = .next u ∧ (∃ x, tfind u.cue.insts ((freeInst s).getD 0) = some x ∧ x.prog = u8 c.params 0 ∧ x.session = c.session
          ∧ x.role = c.role ∧ x.run = s.cue.nextRun ∧ x.word = 0 ∧ x.state = .executing
          ∧ x.vars = (List.range 16).map (fun k => u16 c.params (16 + 2 * k))
          ∧ x.t0 = (if u8 c.params 1 = 1 then targetOf c.params 4 else (advance t s).clock.now)
          ∧ x.timed = (if u8 c.params 1 = 1 ∧ (advance t s).clock.now ≤ targetOf c.params 4 then some (targetOf c.params 4)
              else none))
        ∧ (∀ j, j ≠ (freeInst s).getD 0 → tfind u.cue.insts j = tfind s.cue.insts j)
        ∧ u.cue.nextRun = (s.cue.nextRun + 1) % 0x100000000 ∧ u.cue.progs = s.cue.progs ∧ u.xpt = s.xpt)
    ∧ (∀ (t : Nat) (c : HostCmd) (s : State), accepted .cueAbort refuseCueAbort t c s = true → 
      ∃ u, exec (.cueAbort t c) s = .next u ∧ (∀ i ∈ abortSet s c, tfind u.cue.insts i = none)
        ∧ (∀ i, i ∉ abortSet s c → tfind u.cue.insts i = tfind s.cue.insts i)
        ∧ u.cue.progs = s.cue.progs ∧ (∀ x ∈ u.xpt.queue, x ∈ s.xpt.queue))
    ∧ (∀ (t : Nat) (c : HostCmd) (s : State), accepted .cueStatus refuseCueStatus t c s = true → 
      exec (.cueStatus t c) s = .next (answered .cueStatus c .ok ((List.range 64).flatMap (fun i => match tfind s.cue.insts i with
        | some x => beBytes 1 x.state.code ++ beBytes 1 x.prog ++ beBytes 2 x.word ++ beBytes 4 x.run ++ beBytes 2 x.session
            ++ beBytes 2 x.placed
        | none => List.replicate 12 0#8)) (begun .cueStatus t c s)))
    ∧ (∀ (t : Nat) (c : HostCmd) (s : State), accepted .cueUnload refuseCueUnload t c s = true → 
      ∃ u, exec (.cueUnload t c) s = .next u ∧ (∀ p ∈ unloadSet s c, tfind u.cue.progs p = none)
        ∧ (∀ p, p ∉ unloadSet s c → tfind u.cue.progs p = tfind s.cue.progs p) ∧ u.cue.insts = s.cue.insts)

/-- The events of chapter 7. -/
def Obligations.CueInstancesProceed : Prop :=
  (∀ (t i : Nat) (x : CueInst) (p : CueProg) (s : State), i ≤ 63 → cueActs s = true → tfind s.cue.insts i = some x →
      x.state = .executing → tfind s.cue.progs x.prog = some p → cueOp (p.words.getD x.word 0) = 0 →
      s.xpt.queue.length ≤ 4096 →
      ∃ u, exec (.cueGroupExecute t i false) s = .next u ∧ tfind u.cue.insts i = none ∧ u.xpt.queue = s.xpt.queue
        ∧ tget 0#32 u.cue.cnt 1 = tget 0#32 s.cue.cnt 1 + 1#32 ∧ (∀ j, j ≠ i → tfind u.cue.insts j = tfind s.cue.insts j))
    ∧ (∀ (t i d n : Nat) (x : CueInst) (p : CueProg) (s : State), i ≤ 63 → cueActs s = true → tfind s.cue.insts i = some x →
      x.state = .executing → x.timed = none → tfind s.cue.progs x.prog = some p → d ≤ 1023 → n ≤ 1087 →
      p.words.getD x.word 0 = BitVec.ofNat 64 (0x01 * 2 ^ 56 + d * 2 ^ 32 + n * 2 ^ 16) →
      cueOp (p.words.getD (x.word + 1) 0) = 0 → p.words ≠ [] → s.xpt.queue.length < 4096 →
      ∃ u y, exec (.cueGroupExecute t i false) s = .next u ∧ u.xpt.queue = s.xpt.queue ++ [y] ∧ y.action = .video d (some n)
        ∧ y.cue = some (i, x.run) ∧ y.session = x.session ∧ y.role = x.role ∧ y.target = none ∧ y.sealed_ = none
        ∧ tfind u.cue.insts i = none)
    ∧ (∀ (t i g : Nat) (x : CueInst) (p : CueProg) (s : State), i ≤ 63 → cueActs s = true → tfind s.cue.insts i = some x →
      x.state = .executing → x.timed = none → tfind s.cue.progs x.prog = some p →
      cueOp (p.words.getD x.word 0) = 0x11 → cueXf (p.words.getD x.word 0) = 0 → s.xpt.queue.length ≤ 4096 →
      g = x.t0 + bitsOf (p.words.getD x.word 0).toNat 47 0 * 1000 → (advance t s).clock.now + 2000000 ≤ g →
      ∃ u y, exec (.cueGroupExecute t i false) s = .next u ∧ tfind u.cue.insts i = some y ∧ y.state = .waitTime
        ∧ y.timed = some g ∧ y.resumeAt = g - 2000000 ∧ y.word = x.word ∧ u.xpt.queue = s.xpt.queue)
    ∧ (∀ (t i : Nat) (x : CueInst) (s : State), i ≤ 63 → cueActs s = true → tfind s.cue.insts i = some x →
      x.state = .executing → ∃ u, exec (.cueGroupExecute t i true) s = .next u ∧ tfind u.cue.insts i = none
        ∧ u.saf.chipFault = true)
    ∧ (∀ (t i : Nat) (x : CueInst) (p : CueProg) (s : State), i ≤ 63 → cueActs s = true → tfind s.cue.insts i = some x →
      x.state = .waitEntries → tfind s.cue.progs x.prog = some p →
      (queueFits s (groupNeeds s x) = false → ∃ u y, exec (.cueEntriesRetry t i) s = .next u
        ∧ tfind u.cue.insts i = some y ∧ y.state = .waitEntries ∧ y.group = x.group ∧ u.xpt.queue = s.xpt.queue)
      ∧ (queueFits s (groupNeeds s x) = true → ∃ u, exec (.cueEntriesRetry t i) s = .next u
        ∧ (∀ y, tfind u.cue.insts i = some y → y.state ≠ .waitEntries ∧ y.group = []
          ∧ y.placed = x.placed + 1)))
    ∧ (∀ (t i : Nat) (x : CueInst) (s : State), i ≤ 63 → tfind s.cue.insts i = some x → x.state = .waitEntries →
      s.cue.stallTicks ≤ x.ticks → ∃ u, exec (.cueStallExpired t i) s = .next u ∧ tfind u.cue.insts i = none
        ∧ tget 0#32 u.cue.cnt 3 = tget 0#32 s.cue.cnt 3 + 1#32)
    ∧ (∀ (t i : Nat) (x : CueInst) (s : State), i ≤ 63 → tfind s.cue.insts i = some x → x.state = .waitFrames → x.left = 0 →
      ∃ u, exec (.waitFramesResume t i) s = .next u
        ∧ tfind u.cue.insts i = some { x with state := .executing, word := x.word + 1 } ∧ u.xpt = s.xpt)
    ∧ (∀ (t i : Nat) (x : CueInst) (s : State), i ≤ 63 → tfind s.cue.insts i = some x → x.state = .waitTime →
      x.resumeAt ≤ (advance t s).clock.now → ∃ u, exec (.waitTimeResume t i) s = .next u
        ∧ tfind u.cue.insts i = some { x with state := .executing, word := x.word + 1 } ∧ u.xpt = s.xpt)
    ∧ (∀ (t k i : Nat) (s : State), k ≤ 31 → (compareOf s k).binds.isSome = true → (compareOf s k).started = false →
      0 < compareDist (compareOf s k).target (advance t s).clock.now →
      compareDist (compareOf s k).target (advance t s).clock.now ≤ 2000000 → cueActs s = true →
      (tfind s.cue.progs (compareOf s k).program).isSome = true →
      modeRefusal .cueRun { session := (compareOf s k).session, role := (compareOf s k).role } s = none →
      freeInst s = some i →
      ∃ u x, exec (.cueTriggerStart t k) s = .next u ∧ tfind u.cue.insts i = some x ∧ x.prog = (compareOf s k).program
        ∧ x.trigger = true ∧ x.session = (compareOf s k).session ∧ x.vars = k :: List.replicate 15 0
        ∧ x.timed = some x.t0 ∧ (compareOf u k).started = true)
    ∧ (∀ (t i : Nat) (k : CueMarkItem) (s : State), i ≤ 63 → s.evt.running = true → s.evt.pending.length < 256 →
      s.cue.marks.find? (fun k => !k.pulse && k.inst == i
        && (match k.arm with | some a => decide (a ≤ (advance t s).clock.now) | none => false)) = some k →
      ∃ u v, exec (.cueMark t i) s = .next u ∧ u.cue.marks = s.cue.marks.erase k ∧ u.evt.pending = s.evt.pending ++ [v]
        ∧ v.code = 0x9120 ∧ v.sev = k.severity ∧ v.cls = 9
        ∧ v.payload = [pack8_16 k.inst k.prog 0, pack16 k.a k.b, pack16 k.c 0])

/-- The commands of Tables 8.10 and 8.11. -/
def Obligations.StoreCommandsTakeEffect : Prop :=
  (∀ (t : Nat) (c : HostCmd) (s : State), accepted .fstZoneSet refuseFstZoneSet t c s = true → 
      ∃ u, exec (.fstZoneSet t c) s = .next u ∧ u.fst.zones = s.fst.zones.set (u8 c.params 0) (zoneAsked c) ∧ u.fst.mem = s.fst.mem
        ∧ u.fst.objs = s.fst.objs ∧ ((zoneAsked c).defined = true → zoneBroken (zoneAsked c) = false))
    ∧ (∀ (t : Nat) (c : HostCmd) (s : State), accepted .fstObjWrite refuseFstObjWrite t c s = true → 
      ∃ u, exec (.fstObjWrite t c) s = .next u ∧ (u8 c.params 2 = 1 → ∃ v, (objOf u (u16 c.params 0)).load = some (v, max s.clock.clk t)
          ∧ v.kind = u8 c.params 3 ∧ v.zone = u8 c.params 4 ∧ v.format = u16 c.params 6 ∧ v.length = u32 c.params 8
          ∧ v.crc = u32 c.params 12 ∧ v.units = unitsFor (u32 c.params 8)
          ∧ findRun (clearForCreate (u16 c.params 0) s) v.zone v.units = some v.first)
        ∧ (∀ n, n ≠ u16 c.params 0 → objOf u n = objOf s n) ∧ u.fst.zones = s.fst.zones)
    ∧ (∀ (t : Nat) (c : HostCmd) (s u : State) (v : Version) (a : Nat), accepted .fstObjWrite refuseFstObjWrite t c s = true → 
      exec (.fstObjWrite t c) s = .next u →
      (if (objWriteOf c).create then (objOf (createVersion (objWriteOf c).obj (objWriteOf c).kind (objWriteOf c).zone
          (objWriteOf c).format (objWriteOf c).length (objWriteOf c).crc 0 0 s) (objWriteOf c).obj).load.map (·.1)
        else (objOf s (objWriteOf c).obj).load.map (·.1)) = some v →
      (∀ p ∈ pieces256 (zoneOf s v.zone) (v.first * 65536 + (objWriteOf c).offset) (objWriteOf c).data.length,
        a < p.1 ∨ p.1 + p.2 ≤ a) →
      memRead 0#8 u.fst.mem a = memRead 0#8 s.fst.mem a)
    ∧ (∀ (t : Nat) (c : HostCmd) (s : State) (v : Version), accepted .fstObjRead refuseFstObjRead t c s = true → 
      (objOf s (u16 c.params 0)).cur = some v →
      ∃ x, exec (.fstObjRead t c) s = .next (answered .fstObjRead c .ok (beBytes 1 (objOf s (u16 c.params 0)).code
          ++ beBytes 1 v.kind ++ beBytes 1 v.zone ++ beBytes 1 0
          ++ beBytes 4 (match (serviceRead 4 v.zone (v.first * 65536 + u32 c.params 4) (u32 c.params 8) s).2.1 with
            | some k => u32 c.params 4 + k | none => 0xFFFFFFFF)
          ++ zoneRead s v.zone (v.first * 65536 + u32 c.params 4) (u32 c.params 8)) x)
        ∧ x.fst.mem = s.fst.mem ∧ x.fst.objs = s.fst.objs)
    ∧ (∀ (t : Nat) (c : HostCmd) (s : State), accepted .fstObjFree refuseFstObjFree t c s = true → 
      ∃ u, exec (.fstObjFree t c) s = .next u ∧ (objOf u (u16 c.params 0)).code = 0 ∧ (objOf u (u16 c.params 0)).prot = false
        ∧ (∀ n, n ≠ u16 c.params 0 → objOf u n = objOf s n) ∧ u.fst.mem = s.fst.mem)
    ∧ (∀ (t : Nat) (c : HostCmd) (s : State), accepted .fstBankStatus refuseFstBankStatus t c s = true → 
      exec (.fstBankStatus t c) s = .next (answered .fstBankStatus c .ok (beBytes 2 s.fst.lost.length ++ beBytes 2 (s.fst.objs.filter (fun p => p.2.invalid)).length
        ++ (List.range 128).flatMap (fun n => wordBytes (regBankState s n))) (begun .fstBankStatus t c s)))
    ∧ (∀ (t : Nat) (c : HostCmd) (s : State), accepted .fstInvalidClear refuseFstInvalidClear t c s = true → 
      ∃ u, exec (.fstInvalidClear t c) s = .next u ∧ (∀ n ∈ clearTargets s c, (objOf u n).invalid = false ∧ (objOf u n).cur = none ∧ (objOf u n).load = none)
        ∧ (∀ n, n ∉ clearTargets s c → objOf u n = objOf s n) ∧ u.fst.mem = s.fst.mem ∧ u.fst.lost = s.fst.lost)
    ∧ (∀ (t : Nat) (c : HostCmd) (s : State), accepted .fstRetainSet refuseFstRetainSet t c s = true → 
      ∃ u, exec (.fstRetainSet t c) s = .next u ∧ (∀ n, n ≤ 127 → tget false u.aon.retainMask n = (beNat c.params).testBit n) ∧ u.fst = s.fst)

/-- The events of chapter 8. -/
def Obligations.StoreEventsTakeEffect : Prop :=
  (∀ (t n a : Nat) (v : Version) (s : State), n ≤ 2047 → (objOf s n).load = some (v, a) → a + 60000000000 ≤ max s.clock.clk t →
      ∃ u, exec (.objectLoadTimeout t n) s = .next u ∧ (objOf u n).load = none ∧ (objOf u n).cur = (objOf s n).cur
        ∧ (∀ m, m ≠ n → objOf u m = objOf s m) ∧ u.fst.mem = s.fst.mem)
    ∧ (∀ (t n i : Nat) (s : State), n ≤ 2047 →
      (∃ u, exec (.objectReferencerMove t n 0 i) s = .next u ∧ (objOf u n).cur = (objOf s n).cur
        ∧ ∀ x ∈ (objOf u n).old, Referencer.park i ∉ x.waiting)
      ∧ (∃ u, exec (.objectReferencerMove t n 1 i) s = .next u ∧ (objOf u n).cur = (objOf s n).cur
        ∧ ∀ x ∈ (objOf u n).old, Referencer.layer (i / 8) (i % 8) ∉ x.waiting)
      ∧ (∃ u, exec (.objectReferencerMove t n 2 i) s = .next u ∧ (objOf u n).cur = (objOf s n).cur
        ∧ ∀ x ∈ (objOf u n).old, Referencer.lut i ∉ x.waiting))
    ∧ (∀ (t g : Nat) (s : State), g ≤ 4095 → g ∈ s.fst.lost → bankHeld s g = false → s.cal.failed = false →
      (∃ u, exec (.bankReinit t g true) s = .next u ∧ u.fst.lost = s.fst.lost.filter (fun x => x != g)
        ∧ (∀ a, g * 2 ^ 24 ≤ a → a < g * 2 ^ 24 + 2 ^ 24 → memRead 0#8 u.fst.mem a = 0#8)
        ∧ (∀ a, a < g * 2 ^ 24 ∨ g * 2 ^ 24 + 2 ^ 24 ≤ a → memRead 0#8 u.fst.mem a = memRead 0#8 s.fst.mem a)
        ∧ u.fst.objs = s.fst.objs)
      ∧ (∃ u, exec (.bankReinit t g false) s = .next u ∧ u.cal.failed = true ∧ u.fst = s.fst))
    ∧ (∀ (t pc b r k : Nat) (s : State), pc ≤ 127 → b ≤ 31 → r ≤ 16383 → k ≤ 31 → (tget {} s.fst.pcs pc).state ≠ 0 →
      (tget {} s.fst.pcs pc).state ≠ 3 → (Loc.mk pc b r k 0).addr / 32 + 1 < 2 ^ 31 →
      (burstFails s ⟨pc, b, r, k, 0⟩ none = [] → ∃ u, exec (.scrubRead t pc b r k none) s = .next u
        ∧ u.fst.confirm = s.fst.confirm ∧ u.fst.mem = s.fst.mem
        ∧ u.fst.progress = ((Loc.mk pc b r k 0).addr / 32 + 1) * 100 / 2 ^ 31)
      ∧ (burstFails s ⟨pc, b, r, k, 0⟩ none ≠ [] → (∀ q ∈ s.fst.confirm, q.addr ≠ (Loc.mk pc b r k 0).addr) →
        ∃ u, exec (.scrubRead t pc b r k none) s = .next u ∧ u.fst.confirm = s.fst.confirm
          ++ [⟨(Loc.mk pc b r k 0).addr, 5, burstFails s ⟨pc, b, r, k, 0⟩ none, max s.clock.clk t⟩]))
    ∧ (∀ (t : Nat) (raw : Option (List Byte × Word)) (s : State), (tget {} s.fst.pcs 127).state ≠ 0 →
      (tget {} s.fst.pcs 127).state ≠ 3 →
      ∃ u, exec (.scrubRead t 127 31 16383 31 raw) s = .next u ∧ u.fst.passes = s.fst.passes + 1 ∧ u.fst.progress = 0
        ∧ u.fst.passStored = 0 ∧ u.fst.passAt = max s.clock.clk t)
    ∧ (∀ (t pc b r k : Nat) (h : Bool) (q : Confirm) (s : State), pc ≤ 127 → b ≤ 31 → r ≤ 16383 → k ≤ 31 →
      s.fst.confirm.find? (fun x => x.addr == (Loc.mk pc b r k 0).addr) = some q → q.at_ + 1000 ≤ max s.clock.clk t →
      ((burstFails s ⟨pc, b, r, k, 0⟩ none).filter (fun n => q.fails.contains n) = [] →
        ∃ u, exec (.confirmingRead t pc b r k none h) s = .next u
          ∧ tget 0#32 u.fst.cnt 1 = tget 0#32 s.fst.cnt 1 + 1#32 ∧ u.fst.passTransient = s.fst.passTransient + 1
          ∧ u.fst.confirm = s.fst.confirm.filter (fun x => x.addr != q.addr) ∧ u.fst.objs = s.fst.objs)
      ∧ (∀ n v, (burstFails s ⟨pc, b, r, k, 0⟩ none).filter (fun n => q.fails.contains n) ≠ [] →
        placeOf s q.addr = .object n → (objOf s n).cur = some v → (objOf s n).invalid = false →
        (tget [] s.saf.pcStored pc).length < 63 →
        ∃ u, exec (.confirmingRead t pc b r k none h) s = .next u ∧ (objOf u n).invalid = true
          ∧ (tget {} u.fst.pcs pc).stored = min 0xFFFF ((tget {} s.fst.pcs pc).stored + 1)
          ∧ u.fst.passStored = s.fst.passStored + 1 ∧ u.fst.mem = s.fst.mem))
    ∧ (∀ (t pc : Nat) (s : State), pc ≤ 127 → ∃ u, exec (.pcReadTimeout t pc) s = .next u ∧ (tget {} u.fst.pcs pc).state = 4
        ∧ u.saf.chipFault = true ∧ u.fst.mem = s.fst.mem)
    ∧ (∀ (t pc b : Nat) (s : State), pc ≤ 127 → b ≤ 31 → ∃ u, exec (.bankRefresh t pc b) s = .next u
        ∧ tfind (tget {} u.fst.pcs pc).openRows b = none ∧ tfind (tget {} u.fst.pcs pc).refreshed b = some (max s.clock.clk t)
        ∧ (∀ j, j ≠ b → tfind (tget {} u.fst.pcs pc).openRows j = tfind (tget {} s.fst.pcs pc).openRows j)
        ∧ (∀ m, m ≠ pc → tget {} u.fst.pcs m = tget {} s.fst.pcs m) ∧ u.fst.mem = s.fst.mem)
    ∧ (∀ (t k : Nat) (x : Int) (s : State), k ≤ 3 → ∃ u, exec (.stackTemperatureChange t k x) s = .next u
        ∧ (∀ i, i < 32 → (85 < x → (tget {} u.fst.pcs (k * 32 + i)).hot = true)
          ∧ (x < 80 → (tget {} u.fst.pcs (k * 32 + i)).hot = false)
          ∧ (80 ≤ x → x ≤ 85 → (tget {} u.fst.pcs (k * 32 + i)).hot = (tget {} s.fst.pcs (k * 32 + i)).hot))
        ∧ u.fst.mem = s.fst.mem)
    ∧ (∀ (t pc b r a : Nat) (s : State), pc ≤ 127 → b ≤ 31 → tfind (tget {} s.fst.pcs pc).openRows b = some (r, a) →
      a * 4 + s.fst.pageIdle * 5 ≤ max s.clock.clk t * 4 →
      ∃ u, exec (.pageIdleExpired t pc b) s = .next u ∧ tfind (tget {} u.fst.pcs pc).openRows b = none
        ∧ (∀ j, j ≠ b → tfind (tget {} u.fst.pcs pc).openRows j = tfind (tget {} s.fst.pcs pc).openRows j))
    ∧ (∀ (t pc : Nat) (s : State), pc ≤ 127 → (tget {} s.fst.pcs pc).state = 1 → s.fst.srIdleUs ≠ 0 →
      (tget {} s.fst.pcs pc).lastAccess + s.fst.srIdleUs * 1000 ≤ max s.clock.clk t →
      ∃ u, exec (.selfRefreshEntry t pc) s = .next u ∧ (tget {} u.fst.pcs pc).state = 2 ∧ (tget {} u.fst.pcs pc).openRows = []
        ∧ tget 0#32 u.fst.cnt 6 = tget 0#32 s.fst.cnt 6 + 1#32 ∧ u.fst.mem = s.fst.mem)
    ∧ (∀ (t pc f : Nat) (s : State), pc ≤ 127 → ∃ u, exec (.writeDrain t pc f) s = .next u
        ∧ tget 0#32 u.fst.cnt 5 = tget 0#32 s.fst.cnt 5 + 1#32 ∧ tget 0#32 u.fst.cnt 4 = tget 0#32 s.fst.cnt 4 + w32 f
        ∧ u.fst.mem = s.fst.mem ∧ u.fst.objs = s.fst.objs)

/-- R262, R263 and Table 8.3: each address order gives every zone offset a place of its own. -/
def Obligations.ObjectBytesReadBack : Prop :=
  ∀ (k off : Nat) (data : List Byte) (s : State), k ≤ 7 → (zoneOf s k).defined = true → zoneBroken (zoneOf s k) = false →
    (zoneOf s k).order ≤ 2 → memWf 0#8 s.fst.mem = true → off + data.length ≤ (zoneOf s k).units * 65536 →
    zoneRead (zoneWriteAt k off data s) k off data.length = data
    ∧ (∀ o, o < (zoneOf s k).units * 65536 → o < off ∨ off + data.length ≤ o →
      zoneRead (zoneWriteAt k off data s) k o 1 = zoneRead s k o 1)
    ∧ (∀ o, o < (zoneOf s k).units * 65536 → (∀ j, j < k → zonesOverlap (zoneOf s j) (zoneOf s k) = false) →
      zoneAt s (locate (zoneOf s k) o).addr = some (k, o))

/-- The commands of Tables 9.11 and 9.12. -/
def Obligations.CompositorCommandsTakeEffect : Prop :=
  (∀ (t : Nat) (c : HostCmd) (s : State), accepted .cmpConfig refuseCmpConfig t c s = true → 
      ∃ u, exec (.cmpConfig t c) s = .next u ∧ (bitOf (u8 c.params 1) 0 = true →
          (compOf u (u8 c.params 0)).change = (if compOn s (u8 c.params 0) && (u8 c.params 2, u8 c.params 3)
              == ((compOf s (u8 c.params 0)).plane, (compOf s (u8 c.params 0)).format) then none
            else some ⟨u8 c.params 2, u8 c.params 3, !compOn s (u8 c.params 0), max s.clock.clk t + 1000000⟩)
          ∧ (compOf u (u8 c.params 0)).colourNext = some (u8 c.params 4))
        ∧ (bitOf (u8 c.params 1) 1 = true → (compOf u (u8 c.params 0)).shadow.bgR = u16 c.params 8
          ∧ (compOf u (u8 c.params 0)).shadow.bgG = u16 c.params 10 ∧ (compOf u (u8 c.params 0)).shadow.bgB = u16 c.params 12
          ∧ (compOf u (u8 c.params 0)).shadow.lutEnable = (u8 c.params 5 == 1))
        ∧ (compOf u (u8 c.params 0)).active = (compOf s (u8 c.params 0)).active
        ∧ (∀ k, k ≠ u8 c.params 0 → compOf u k = compOf s k))
    ∧ (∀ (t : Nat) (c : HostCmd) (s : State), accepted .cmpLayerSet refuseCmpLayerSet t c s = true → 
      ∃ u, exec (.cmpLayerSet t c) s = .next u ∧ (compOf u (u8 c.params 0)).shadow.layers
          = (compOf s (u8 c.params 0)).shadow.layers.set (u8 c.params 1) (mergeLayer (u16 c.params 2)
              ((compOf s (u8 c.params 0)).shadow.layers.getD (u8 c.params 1) {}) (layerRecord c.params 4))
        ∧ (compOf u (u8 c.params 0)).active = (compOf s (u8 c.params 0)).active
        ∧ (∀ k, k ≠ u8 c.params 0 → compOf u k = compOf s k))
    ∧ (∀ (t : Nat) (c : HostCmd) (s : State), accepted .cmpCommit refuseCmpCommit t c s = true → 
      ∃ u, exec (.cmpCommit t c) s = .next u ∧ ∃ xs, u.xpt.queue = s.xpt.queue ++ xs ∧ xs.map (·.action) = (commitComps c).map Action.commit
        ∧ (∀ x ∈ xs, x.session = c.session ∧ x.tag = u16 c.params 4 ∧ x.sealed_ = none ∧ x.target = none)
        ∧ u.cmp = s.cmp)
    ∧ (∀ (t : Nat) (c : HostCmd) (s : State), accepted .cmpLutLoad refuseCmpLutLoad t c s = true → 
      ∃ u, exec (.cmpLutLoad t c) s = .next u ∧ (∃ j, (compOf u (u8 c.params 0)).lut.jobs = (compOf s (u8 c.params 0)).lut.jobs ++ [j]
          ∧ j.obj = u16 c.params 2 ∧ j.cmd = some c)
        ∧ (compOf u (u8 c.params 0)).lut.active = (compOf s (u8 c.params 0)).lut.active
        ∧ (∀ k, k ≠ u8 c.params 0 → compOf u k = compOf s k))
    ∧ (∀ (t : Nat) (c : HostCmd) (s : State), accepted .cmpSurfaceLoad refuseCmpSurfaceLoad t c s = true → 
      ∃ u, exec (.cmpSurfaceLoad t c) s = .next u ∧ (u8 c.params 2 = 1 → ∃ v a, (objOf u (u16 c.params 0)).load = some (v, a) ∧ v.kind = 2
          ∧ v.format = u8 c.params 3 ∧ v.width = u16 c.params 4 ∧ v.height = u16 c.params 6 ∧ v.zone = u8 c.params 8
          ∧ v.length = surfaceLength (u16 c.params 4) (u16 c.params 6) (u8 c.params 3))
        ∧ (∀ n, n ≠ u16 c.params 0 → objOf u n = objOf s n) ∧ u.fst.zones = s.fst.zones)
    ∧ (∀ (t : Nat) (c : HostCmd) (s u : State) (v : Version) (w : SurfaceLoad) (a : Nat), accepted .cmpSurfaceLoad refuseCmpSurfaceLoad t c s = true → 
      exec (.cmpSurfaceLoad t c) s = .next u → w = surfaceLoadOf s c →
      (if w.create then (objOf (createVersion w.obj 2 w.zone w.format (surfaceLength w.width w.height w.format) w.crc w.width
          w.height s) w.obj).load.map (·.1) else (objOf s w.obj).load.map (·.1)) = some v →
      (w.create = true → (∀ p ∈ pieces256 (zoneOf s v.zone) (v.first * 65536) (surfaceHeader w.width w.height w.format).length,
          a < p.1 ∨ p.1 + p.2 ≤ a)
        ∧ ∀ o, zoneAt s a = some (v.zone, o) → o < v.first * 65536 ∨ v.first * 65536 + v.length ≤ o) →
      (∀ j, j < w.count → ∀ r ∈ lineRuns w.width (tileSide w.format), ∀ p ∈ pieces256 (zoneOf s v.zone)
          (v.first * 65536 + surfaceOffset w.width w.format r.1 (w.first + j)) (r.2 * pixelBytes w.format),
          a < p.1 ∨ p.1 + p.2 ≤ a) →
      memRead 0#8 u.fst.mem a = memRead 0#8 s.fst.mem a)
    ∧ (∀ (t : Nat) (c : HostCmd) (s : State), accepted .cmpDisable refuseCmpDisable t c s = true → 
      ∃ u, exec (.cmpDisable t c) s = .next u ∧ (compOf u (u8 c.params 0)).state = 3
        ∧ (compOf u (u8 c.params 0)).disableAt
          = some ((compOf s (u8 c.params 0)).disableAt.getD (max s.clock.clk t + 1000000))
        ∧ (compOf u (u8 c.params 0)).active = (compOf s (u8 c.params 0)).active
        ∧ (∀ k, k ≠ u8 c.params 0 → compOf u k = compOf s k))
    ∧ (∀ (t : Nat) (c : HostCmd) (s : State), accepted .cmpQuery refuseCmpQuery t c s = true → 
      exec (.cmpQuery t c) s = .next (answered .cmpQuery c .ok (wordBytes (regCmpState s (u8 c.params 0)) ++ wordBytes (w32 (compOf s (u8 c.params 0)).land)
        ++ wordBytes (regCmpCost s (u8 c.params 0))
        ++ beBytes 2 (if u8 c.params 1 = 0 then (compOf s (u8 c.params 0)).active else (compOf s (u8 c.params 0)).shadow).bgR
        ++ beBytes 2 (if u8 c.params 1 = 0 then (compOf s (u8 c.params 0)).active else (compOf s (u8 c.params 0)).shadow).bgG
        ++ beBytes 2 (if u8 c.params 1 = 0 then (compOf s (u8 c.params 0)).active else (compOf s (u8 c.params 0)).shadow).bgB
        ++ beBytes 2 0 ++ (List.range 8).flatMap (fun l => layerBytesOut ((if u8 c.params 1 = 0 then
            (compOf s (u8 c.params 0)).active else (compOf s (u8 c.params 0)).shadow).layers.getD l {})
          ++ beBytes 1 ((compOf s (u8 c.params 0)).conds.getD l (0, 0)).1
          ++ beBytes 1 ((compOf s (u8 c.params 0)).conds.getD l (0, 0)).2 ++ beBytes 2 0)) (begun .cmpQuery t c s)))

/-- The events of chapter 9. -/
def Obligations.CompositorEventsTakeEffect : Prop :=
  (∀ (t c : Nat) (j : LutJob) (v : Version) (s : State), c ≤ 63 → (compOf s c).lut.jobs.head? = some j → j.waiting = false →
      j.cmd.isSome = true → (objOf s j.obj).valid = some v → v.kind = 4 → s.fst.bad = [] →
      ∃ u, exec (.lutCopyDone t c) s = .next u ∧ (compOf u c).lut.shadow = some ⟨j.obj, versionBytes s v 0 v.length⟩
        ∧ (compOf u c).lut.pending = true ∧ (compOf u c).lut.active = (compOf s c).lut.active
        ∧ (compOf u c).lut.jobs = (compOf s c).lut.jobs.drop 1)
    ∧ (∀ (t c : Nat) (j : LutJob) (s : State), c ≤ 63 → (compOf s c).lut.jobs.head? = some j → j.waiting = false →
      j.cmd.isSome = true → (objOf s j.obj).valid = none →
      ∃ u, exec (.lutCopyDone t c) s = .next u ∧ (compOf u c).lut.shadow = none ∧ (compOf u c).lut.pending = false
        ∧ (compOf u c).lut.active = (compOf s c).lut.active)
    ∧ (∀ (t c : Nat) (x : CmpChange) (s : State), c ≤ 63 → lanesRun s = true → (compOf s c).change = some x →
      x.at_ ≤ max s.clock.clk t → ∃ u, exec (.cmpConfigLands t c) s = .next u ∧ (compOf u c).plane = x.plane
        ∧ (compOf u c).format = x.format ∧ (compOf u c).change = none ∧ (x.enable = true → (compOf u c).state = 1)
        ∧ (x.enable = false → (compOf u c).state = (compOf s c).state ∧ (compOf u c).active = (compOf s c).active)
        ∧ (compOf u c).shadow = (compOf s c).shadow)
    ∧ (∀ (t c a : Nat) (s : State), c ≤ 63 → lanesRun s = true → (compOf s c).state = 3 → (compOf s c).disableAt = some a →
      a ≤ max s.clock.clk t → ∃ u, exec (.cmpDisableLands t c) s = .next u ∧ (compOf u c).state = 0
        ∧ (∀ l, l < 8 → (xdst u (layerDest c l)).selected = none) ∧ (∀ y ∈ u.xpt.queue, y.ofComp c = false))
    ∧ (∀ (t c : Nat) (late : List (Nat × Nat)) (par : List (Nat × Nat × Nat)) (ps : List (Nat × Nat)) (s : State), c ≤ 63 →
      compOn s c = true → lanesRun s = true → inS1 s = false →
      ∃ u, exec (.outputFrameStart t c late par ps) s = .next u
        ∧ (compOf u c).frame = planeCount (advance t s) (compPlane s c) (compFormat s c)
        ∧ tget 0#32 (compOf u c).cnt 0 = tget 0#32 (compOf s c).cnt 0 + 1#32
        ∧ (∀ p ∈ ps, ∃ y b r, Out.composed (max s.clock.clk t) c p.1 p.2 y b r ∈ u.out))
    ∧ (∀ (t c : Nat) (x : Snapshot) (late : List (Nat × Nat)) (par : List (Nat × Nat × Nat)) (ps : List (Nat × Nat)) (s : State),
      c ≤ 63 → compOn s c = true → lanesRun s = true → inS1 s = false → (compOf s c).sealed_ = [x] →
      (∀ l, l < 8 → readyTakes (advance t s) (layerDest c l) = []) → snapEntries s c x.tick ≠ [] →
      snapReady (advance t s) c (planeCount (advance t s) (compPlane s c) (compFormat s c)) x = true →
      ∃ u, exec (.outputFrameStart t c late par ps) s = .next u ∧ (compOf u c).active = x.picture
        ∧ (compOf u c).land = planeCount (advance t s) (compPlane s c) (compFormat s c) ∧ (compOf u c).sealed_ = []
        ∧ (∀ y ∈ u.xpt.queue, y ∉ snapEntries s c x.tick))

/-- R313: mul and the blend over 16-bit components. -/
def Obligations.BlendingFollowsTheRule : Prop :=
  (∀ (d p : Rgb) (premul : Bool), d.r ≤ 65535 → d.g ≤ 65535 → d.b ≤ 65535 → p.r ≤ 65535 → p.g ≤ 65535 → p.b ≤ 65535 →
      (p.a = 65535 → blend premul 65535 d p = ⟨65535, p.r, p.g, p.b⟩)
      ∧ (p.a = 0 → blend false 65535 d p = ⟨65535, d.r, d.g, d.b⟩)
      ∧ (blend premul 65535 d p).r ≤ 65535 ∧ (blend premul 65535 d p).g ≤ 65535 ∧ (blend premul 65535 d p).b ≤ 65535)
    ∧ (∀ x y : Nat, x ≤ 65535 → y ≤ 65535 → mulWork x y * 65535 ≤ x * y + 32767 ∧ x * y ≤ mulWork x y * 65535 + 32767)

/-- The commands and events of chapter 10. -/
def Obligations.ProtectedContentTakesEffect : Prop :=
  (∀ (t : Nat) (c : HostCmd) (s : State), accepted .cmpProtWrite refuseCmpProtWrite t c s = true → 
      ∃ u, exec (.cmpProtWrite t c) s = .next u ∧ (u8 c.params 2 = 1 → ∃ v, (objOf u (u16 c.params 0)).load = some (v, max s.clock.clk t)
          ∧ (objOf u (u16 c.params 0)).prot = true ∧ v.kind = u8 c.params 3 ∧ v.zone = u8 c.params 4
          ∧ v.format = u16 c.params 6 ∧ v.length = u32 c.params 8 ∧ v.crc = u32 c.params 12)
        ∧ (∀ n, n ≠ u16 c.params 0 → objOf u n = objOf s n) ∧ u.fst.zones = s.fst.zones)
    ∧ (∀ (t : Nat) (c : HostCmd) (s u : State) (v : Version) (a : Nat), accepted .cmpProtWrite refuseCmpProtWrite t c s = true → 
      exec (.cmpProtWrite t c) s = .next u →
      (if (objWriteOf c).create then (objOf (createVersion (objWriteOf c).obj (objWriteOf c).kind (objWriteOf c).zone
          (objWriteOf c).format (objWriteOf c).length (objWriteOf c).crc 0 0 s) (objWriteOf c).obj).load.map (·.1)
        else (objOf s (objWriteOf c).obj).load.map (·.1)) = some v →
      (∀ p ∈ pieces256 (zoneOf s v.zone) (v.first * 65536 + (objWriteOf c).offset) (objWriteOf c).data.length,
        a < p.1 ∨ p.1 + p.2 ≤ a) →
      memRead 0#8 u.fst.mem a = memRead 0#8 s.fst.mem a)
    ∧ (∀ (t : Nat) (c : HostCmd) (s : State), accepted .cmpProtRectSet refuseCmpProtRectSet t c s = true → 
      ∃ u, exec (.cmpProtRectSet t c) s = .next u ∧ (compOf u (u8 c.params 0)).shadow.rects
          = (compOf s (u8 c.params 0)).shadow.rects.set (u8 c.params 1)
              ⟨u8 c.params 2 == 1, u8 c.params 3 == 1, u16 c.params 4, u16 c.params 6, u16 c.params 8, u16 c.params 10,
                ((compOf s (u8 c.params 0)).shadow.rects.getD (u8 c.params 1) {}).value⟩
        ∧ (compOf u (u8 c.params 0)).active = (compOf s (u8 c.params 0)).active
        ∧ (∀ k, k ≠ u8 c.params 0 → compOf u k = compOf s k))
    ∧ (∀ (t : Nat) (c : HostCmd) (s : State), accepted .cmpProtGoldenSet refuseCmpProtGoldenSet t c s = true → 
      ∃ u, exec (.cmpProtGoldenSet t c) s = .next u ∧ (compOf u (u8 c.params 0)).shadow.rects
          = (compOf s (u8 c.params 0)).shadow.rects.set (u8 c.params 1)
              { (compOf s (u8 c.params 0)).shadow.rects.getD (u8 c.params 1) {} with value := w32 (u32 c.params 4) }
        ∧ (compOf u (u8 c.params 0)).active = (compOf s (u8 c.params 0)).active
        ∧ (∀ k, k ≠ u8 c.params 0 → compOf u k = compOf s k))
    ∧ (∀ (t : Nat) (c : HostCmd) (s : State), accepted .cmpProtStatus refuseCmpProtStatus t c s = true → 
      exec (.cmpProtStatus t c) s = .next (answered .cmpProtStatus c .ok (wordBytes (regProtCfg s (u8 c.params 0)) ++ wordBytes (regProtStatus s (u8 c.params 0))
        ++ beBytes 4 (compOf s (u8 c.params 0)).compared
        ++ (List.range 4).flatMap (fun r =>
          wordBytes (rectPos ((if u8 c.params 1 = 0 then (compOf s (u8 c.params 0)).active.rects
            else (compOf s (u8 c.params 0)).shadow.rects).getD r {}))
          ++ wordBytes (rectSize ((if u8 c.params 1 = 0 then (compOf s (u8 c.params 0)).active.rects
            else (compOf s (u8 c.params 0)).shadow.rects).getD r {}))
          ++ wordBytes ((if u8 c.params 1 = 0 then (compOf s (u8 c.params 0)).active.rects
            else (compOf s (u8 c.params 0)).shadow.rects).getD r {}).value
          ++ wordBytes ((compOf s (u8 c.params 0)).watch.getD r {}).sigRef
          ++ wordBytes ((compOf s (u8 c.params 0)).watch.getD r {}).sigOut)
        ++ (List.range 4).flatMap (fun i => wordBytes (tget 0#32 (compOf s (u8 c.params 0)).protCnt i))) (begun .cmpProtStatus t c s)))
    ∧ (∀ (t c v : Nat) (s : State), c ≤ 63 → ∃ u, exec (.cmpProtCfgWrite t c v) s = .next u
        ∧ (compOf u c).cfg = (compOf s c).cfg
        ∧ (∃ k, (compOf u c).cfgNext = some k ∧ (1 ≤ k.confirm ∧ k.confirm ≤ 2) ∧ k.holdDest = v.testBit 2
          ∧ k.safeStill = bitsOf v 26 16)
        ∧ (∀ j, j ≠ c → compOf u j = compOf s j))
    ∧ (∀ (t c r n : Nat) (w : Word) (s : State), c ≤ 63 → r ≤ 3 → compOn s c = true → (compOf s c).armed.getD r false = true →
      s.saf.held = false → s.saf.testFailed = false → r < (compOf s c).watch.length →
      ((compOf s c).active.rects.getD r {}).golden = false →
      (∀ l, ((compOf s c).watch.getD r {}).lastFrame = some l → n % 0x100000000 = (l + 1) % 0x100000000) →
      ∃ u, exec (.signatureReport t c r n (some w) (some w) (some false)) s = .next u
        ∧ ((compOf u c).watch.getD r {}).matched = true ∧ ((compOf u c).watch.getD r {}).bad = 0
        ∧ ((compOf u c).watch.getD r {}).good = ((compOf s c).watch.getD r {}).good + 1
        ∧ (compOf u c).compared = n % 0x100000000 ∧ tget 0#32 (compOf u c).protCnt 0 = tget 0#32 (compOf s c).protCnt 0 + 1#32
        ∧ u.mode = s.mode)
    ∧ (∀ (t c r n : Nat) (a b : Word) (s : State), c ≤ 63 → r ≤ 3 → compOn s c = true → (compOf s c).armed.getD r false = true →
      s.saf.held = false → s.saf.testFailed = false → r < (compOf s c).watch.length → a ≠ b → (compOf s c).reacted = false →
      (∀ l, ((compOf s c).watch.getD r {}).lastFrame = some l → n % 0x100000000 = (l + 1) % 0x100000000) →
      confirmCount s c ≤ ((compOf s c).watch.getD r {}).bad + 1 → s.mode ≠ .boot → s.mode ≠ .retain →
      ∃ u, exec (.signatureReport t c r n (some a) (some b) (some false)) s = .next u ∧ (compOf u c).reacted = true
        ∧ (compOf u c).lastKind = 0 ∧ u.saf.pins = .high ∧ u.mode = .safe
        ∧ tget 0#32 (compOf u c).protCnt 1 = tget 0#32 (compOf s c).protCnt 1 + 1#32)
    ∧ (∀ (t c r n : Nat) (s : State), c ≤ 63 → r ≤ 3 → compOn s c = true → (compOf s c).armed.getD r false = true →
      ((compOf s c).watch.getD r {}).lastFrame ≠ some n → (compOf s c).reacted = false → s.mode ≠ .boot → s.mode ≠ .retain →
      ∃ u, exec (.signatureReportMissing t c r n) s = .next u ∧ (compOf u c).reacted = true ∧ (compOf u c).lastKind = 2
        ∧ u.saf.pins = .high ∧ u.mode = .safe)

/-- The commands of Tables 11.4 and 11.5. -/
def Obligations.AudioCommandsTakeEffect : Prop :=
  (∀ (t : Nat) (c : HostCmd) (s : State), accepted .audRoute refuseAudRoute t c s = true → 
      ∃ u, exec (.audRoute t c) s = .next u ∧ ∃ x, u.xpt.queue = s.xpt.queue ++ [x]
        ∧ x.action = .audio (u16 c.params 0) (if u16 c.params 2 = 0xFFFF then none else some (u16 c.params 2)) false
            (gainOf (u16 c.params 4)) (bitOf (u8 c.params 8) 0) (bitOf (u8 c.params 8) 1)
        ∧ x.session = c.session ∧ x.tag = u16 c.params 10 ∧ x.sealed_ = none ∧ u.aud.outs = s.aud.outs
        ∧ (u16 c.params 0 < 16384 → bitOf (u8 c.params 8) 1 = false →
          (followOf u (u16 c.params 0 / 16)).mask.testBit (u16 c.params 0 % 16) = false)
        ∧ (bitOf (u8 c.params 8) 1 = true → u.aud = s.aud))
    ∧ (∀ (t : Nat) (c : HostCmd) (s : State), accepted .audRouteBatch refuseAudRouteBatch t c s = true → 
      ∃ u, exec (.audRouteBatch t c) s = .next u ∧ ∃ xs, u.xpt.queue = s.xpt.queue ++ xs
        ∧ xs.map (·.action) = (List.range (u16 c.params 2)).map (fun i =>
          (routeEntry c.params (8 + 8 * i) (u8 c.params 0) (u16 c.params 4)).action)
        ∧ (∀ x ∈ xs, x.session = c.session ∧ x.tag = u16 c.params 4 ∧ x.sealed_ = none) ∧ u.aud.outs = s.aud.outs)
    ∧ (∀ (t : Nat) (c : HostCmd) (s : State), accepted .audGain refuseAudGain t c s = true → 
      ∃ u, exec (.audGain t c) s = .next u ∧ ∃ x, u.xpt.queue = s.xpt.queue ++ [x]
        ∧ x.action = .audio (u16 c.params 0) none true (gainOf (u16 c.params 2)) (bitOf (u8 c.params 4) 0)
            (bitOf (u8 c.params 4) 1)
        ∧ x.session = c.session ∧ x.tag = u16 c.params 6 ∧ x.sealed_ = none ∧ u.aud = s.aud)
    ∧ (∀ (t : Nat) (c : HostCmd) (s : State), accepted .audFollow refuseAudFollow t c s = true → 
      ∃ u, exec (.audFollow t c) s = .next u ∧ (followOf u (u16 c.params 0)).mask = u16 c.params 2
        ∧ (followOf u (u16 c.params 0)).embed = (u8 c.params 4 == 1)
        ∧ (followOf u (u16 c.params 0)).now = (followOf s (u16 c.params 0)).now
        ∧ (∀ d, d ≠ u16 c.params 0 → followOf u d = followOf s d) ∧ u.aud.outs = s.aud.outs)
    ∧ (∀ (t : Nat) (c : HostCmd) (s : State), accepted .audPortConfig refuseAudPortConfig t c s = true → 
      ∃ u, exec (.audPortConfig t c) s = .next u ∧ (portOf u (u8 c.params 0)).inEn = bitOf (u8 c.params 1) 0
        ∧ (portOf u (u8 c.params 0)).outEn = bitOf (u8 c.params 1) 1 ∧ (portOf u (u8 c.params 0)).format = u8 c.params 2
        ∧ (portOf u (u8 c.params 0)).clocks = u8 c.params 3 ∧ (portOf u (u8 c.params 0)).width = u8 c.params 4
        ∧ (portOf u (u8 c.params 0)).state = (if u8 c.params 1 = 0 then 0 else 1) ∧ (portOf u (u8 c.params 0)).agree = 0
        ∧ (∀ p, p ≠ u8 c.params 0 → portOf u p = portOf s p) ∧ u.aud.outs = s.aud.outs)
    ∧ (∀ (t : Nat) (c : HostCmd) (s : State), accepted .audStreamConfig refuseAudStreamConfig t c s = true → 
      ∃ u, exec (.audStreamConfig t c) s = .next u ∧ (streamOf u (u8 c.params 0)).dir = u8 c.params 1
        ∧ (streamOf u (u8 c.params 0)).channels = u8 c.params 2 ∧ (streamOf u (u8 c.params 0)).depth = u8 c.params 3
        ∧ (streamOf u (u8 c.params 0)).flow = u16 c.params 4 ∧ (streamOf u (u8 c.params 0)).ptime = u8 c.params 6
        ∧ (streamOf u (u8 c.params 0)).linkUs = u16 c.params 8
        ∧ (streamOf u (u8 c.params 0)).state = (if u8 c.params 1 = 0 then 0 else 1)
        ∧ (∀ k, k ≠ u8 c.params 0 → streamOf u k = streamOf s k) ∧ u.aud.outs = s.aud.outs)
    ∧ (∀ (t : Nat) (c : HostCmd) (s : State), accepted .audQuery refuseAudQuery t c s = true → 
      exec (.audQuery t c) s = .next (answered .audQuery c .ok ((List.range (u16 c.params 4)).flatMap (fun i => (match u8 c.params 0 with
        | 0 => [regAudXp s (u16 c.params 2 + i)]
        | 1 => [regPortCfg s (u16 c.params 2 + i), regPortStatus s (u16 c.params 2 + i), regPortPpm s (u16 c.params 2 + i)]
          ++ (List.range 4).map (fun j => tget 0#32 (portOf s (u16 c.params 2 + i)).cnt j)
        | 2 => [regStreamCfg s (u16 c.params 2 + i), regStreamStatus s (u16 c.params 2 + i)]
        | _ => [regAudFollow s (u16 c.params 2 + i)]).flatMap wordBytes)) (begun .audQuery t c s)))

/-- The events of chapter 11. -/
def Obligations.AudioEventsTakeEffect : Prop :=
  (∀ (t o o' : Nat) (e : Entry) (inp : Option Nat) (keep hard kf : Bool) (g : GainArg) (s : State), o < matrixSize →
      landList (advance t s) o = [(e.arm, e.order, .inl e)] → e.action = .audio o' inp keep g hard kf →
      ∃ u, exec (.audioChangeLands t o) s = .next u
        ∧ (outOf u o).input = (if keep = true then (outOf s o).input else inp) ∧ (outOf u o).failed = false
        ∧ (g = .mute → (outOf u o).mute = true) ∧ (∀ k, g = .set k → (outOf u o).gain = k ∧ (outOf u o).mute = false)
        ∧ (g = .keep → (outOf u o).gain = (outOf s o).gain ∧ (outOf u o).mute = (outOf s o).mute)
        ∧ (∀ j, j ≠ o → outOf u j = outOf s j) ∧ (∀ y ∈ u.xpt.queue, y.order ≠ e.order)
        ∧ tget 0#32 u.aud.cnt 0 = tget 0#32 s.aud.cnt 0 + 1#32)
    ∧ (∀ (t o : Nat) (x : FollowDue) (s : State), o < matrixSize → landList (advance t s) o = [(x.arm, x.order, .inr x)] →
      ∃ u, exec (.audioChangeLands t o) s = .next u ∧ (outOf u x.out).input = x.input
        ∧ (outOf u x.out).gain = (outOf s x.out).gain ∧ u.aud.due = s.aud.due.erase x ∧ u.xpt = s.xpt)
    ∧ (∀ (t o : Nat) (k : AudChange) (s : State), o < matrixSize → (outOf s o).change = some k → k.kind = 0 →
      sampleNow (advance t s) < k.at_ + k.window →
      (k.stage = 0 → (outOf s o).input.isSome = true → ∃ u, exec (.zeroCrossing t o 0) s = .next u
        ∧ (outOf u o).change = some { k with stage := 1 } ∧ (outOf u o).input = (outOf s o).input)
      ∧ (k.stage = 1 → ∃ u, exec (.zeroCrossing t o 1) s = .next u ∧ (outOf u o).change = none
        ∧ (outOf u o).input = (outOf s o).input))
    ∧ (∀ (t o : Nat) (k : AudChange) (s : State), o < matrixSize → (outOf s o).change = some k →
      k.at_ + k.window ≤ sampleNow (advance t s) →
      (k.kind = 0 → ∃ u, exec (.zeroCrossingTimeout t o) s = .next u ∧ (outOf u o).change = none
        ∧ tget 0#32 u.aud.cnt 1 = tget 0#32 s.aud.cnt 1 + 1#32)
      ∧ (k.kind = 1 → ∃ u, exec (.gainRampDone t o) s = .next u ∧ (outOf u o).change = none
        ∧ (outOf u o).gain = (outOf s o).gain ∧ u.aud.cnt = s.aud.cnt))
    ∧ (∀ (t n : Nat) (s : State), n < matrixSize → ∃ u, exec (.converterSlip t n) s = .next u
        ∧ tget 0#32 u.aud.cnt 7 = tget 0#32 s.aud.cnt 7 + 1#32 ∧ u.aud.outs = s.aud.outs ∧ u.aud.ins = s.aud.ins)
    ∧ (∀ (t n p : Nat) (s : State), n < matrixSize → p ≤ 1 → lanesRun s = true →
      ∃ u, exec (.audioParity t n p) s = .next u ∧ tget 0#32 u.aud.cnt 6 = tget 0#32 s.aud.cnt 6 + 1#32
        ∧ (p = 1 → (outOf u n).failed = true) ∧ (p = 0 → u.aud.outs = s.aud.outs))
    ∧ (∀ (t p hz : Nat) (s : State), p ≤ 15 → lanesRun s = true → (portOf s p).state = 1 → 7 ≤ (portOf s p).agree →
      (portOf s p).lastHz ≠ 0 → ratesAgree 100 hz (portOf s p).lastHz = true →
      ∃ u, exec (.audioPortRateWindow t p hz) s = .next u
        ∧ (rateCode hz ≠ 0 → (portOf u p).state = 2 ∧ (portOf u p).rate = rateCode hz ∧ (portOf u p).fifoIn = 32
          ∧ (portOf u p).fifoOut = 32)
        ∧ (rateCode hz = 0 → (portOf u p).state = 4) ∧ (∀ j, j ≠ p → portOf u j = portOf s j))
    ∧ (∀ (t p hz : Nat) (s : State), p ≤ 15 → lanesRun s = true → (portOf s p).state = 2 →
      ratesAgree 1000 hz (nominalRate (portOf s p).rate) = false → (∃ u, exec (.audioPortRateWindow t p hz) s = .next u
        ∧ (portOf u p).state = 1 ∧ (portOf u p).agree = 1 ∧ (portOf u p).lastHz = hz
        ∧ tget 0#32 (portOf u p).cnt 2 = tget 0#32 (portOf s p).cnt 2 + 1#32))
    ∧ (∀ (t p : Nat) (s : State), p ≤ 15 → lanesRun s = true → (portOf s p).state ≠ 0 → (portOf s p).state ≠ 3 →
      ∃ u, exec (.audioPortStop t p) s = .next u ∧ (portOf u p).state = 3
        ∧ tget 0#32 (portOf u p).cnt 1 = tget 0#32 (portOf s p).cnt 1 + 1#32 ∧ u.aud.outs = s.aud.outs)
    ∧ (∀ (t p k l r a b : Nat) (m : Int) (s : State), p ≤ 15 → lanesRun s = true → (portOf s p).state = 2 →
      (k = (if (portOf s p).clocks = 0 then 32 else 64) → (portOf s p).inEn = true → 5 ≤ a → a ≤ 59 → 5 ≤ b → b ≤ 59 →
        ∃ u, exec (.audioPortFrame t p k l r a b m) s = .next u
          ∧ (inOf u (16384 + 2 * p)).sample = portSample (portOf s p).width l
          ∧ (inOf u (16385 + 2 * p)).sample = portSample (portOf s p).width r ∧ (portOf u p).fifoIn = a
          ∧ (portOf u p).fifoOut = b ∧ (portOf u p).ppm = m ∧ (portOf u p).cnt = (portOf s p).cnt)
      ∧ (k ≠ (if (portOf s p).clocks = 0 then 32 else 64) → (portOf s p).glitches ≠ 8 →
        ∃ u, exec (.audioPortFrame t p k l r a b m) s = .next u
          ∧ tget 0#32 (portOf u p).cnt 0 = tget 0#32 (portOf s p).cnt 0 + 1#32
          ∧ (portOf u p).glitches = (portOf s p).glitches + 1 ∧ u.aud.ins = s.aud.ins ∧ (portOf u p).state = 2))
    ∧ (∀ (t k : Nat) (s : State), k ≤ 127 → (streamOf s k).dir = 1 →
      ((streamOf s k).state = 2 → (streamOf s k).lastAt + 10000000 ≤ max s.clock.clk t →
        ∃ u, exec (.audioStreamLate t k) s = .next u ∧ (streamOf u k).state = 3 ∧ u.aud.outs = s.aud.outs)
      ∧ ((streamOf s k).state = 3 → (streamOf s k).since + 10000000 ≤ max s.clock.clk t →
        max s.clock.clk t < (streamOf s k).lastAt + 10000000 →
        ∃ u, exec (.audioStreamLate t k) s = .next u ∧ (streamOf u k).state = 2 ∧ u.aud.outs = s.aud.outs))

/-- The commands of Tables 12.5 and 12.6. -/
def Obligations.EthernetCommandsTakeEffect : Prop :=
  (∀ (t : Nat) (c : HostCmd) (s : State), accepted .ethPortConfig refuseEthPortConfig t c s = true → 
      ∃ u, exec (.ethPortConfig t c) s = .next u ∧ (bitOf (u8 c.params 1) 0 = true → (ethPort u (u8 c.params 0)).enable = bitOf (u32 c.params 4) 0
          ∧ (ethPort u (u8 c.params 0)).preempt = bitOf (u32 c.params 4) 1
          ∧ (ethPort u (u8 c.params 0)).pauseRx = bitOf (u32 c.params 4) 2
          ∧ (ethPort u (u8 c.params 0)).pauseTx = bitOf (u32 c.params 4) 3
          ∧ (ethPort u (u8 c.params 0)).mediaPct = bitsOf (u32 c.params 4) 14 8
          ∧ (ethPort u (u8 c.params 0)).dscpPtp = bitsOf (u32 c.params 4) 21 16
          ∧ (bitOf (u32 c.params 4) 0 = false → (ethPort u (u8 c.params 0)).link = 0))
        ∧ (bitOf (u8 c.params 1) 1 = true → ∀ q ∈ maxFramePorts s (u8 c.params 0), (ethPort u q).maxFrame = u16 c.params 8)
        ∧ (bitOf (u8 c.params 1) 2 = true → (ethPort u (u8 c.params 0)).vid = bitsOf (u32 c.params 12) 11 0
          ∧ (ethPort u (u8 c.params 0)).pcpExp = bitsOf (u32 c.params 12) 14 12
          ∧ (ethPort u (u8 c.params 0)).pcpMedia = bitsOf (u32 c.params 12) 18 16)
        ∧ (bitOf (u8 c.params 1) 3 = true → (ethPort u (u8 c.params 0)).txPol = bitsOf (u32 c.params 16) 7 0
          ∧ (ethPort u (u8 c.params 0)).rxPol = bitsOf (u32 c.params 16) 15 8)
        ∧ u.eth.modeChange = (if bitOf (u8 c.params 1) 4 = true then
            some (bitOf (u32 c.params 20) 0, bitsOf (u32 c.params 20) 2 1, max s.clock.clk t + 10000000) else s.eth.modeChange)
        ∧ u.eth.rx = s.eth.rx ∧ u.eth.tx = s.eth.tx)
    ∧ (∀ (t : Nat) (c : HostCmd) (s : State), accepted .ethIpConfig refuseEthIpConfig t c s = true → 
      ∃ u, exec (.ethIpConfig t c) s = .next u ∧ (bitOf (u8 c.params 1) 0 = true → (tget {} u.aon.ip (u8 c.params 0)).ip4 = u32 c.params 4
          ∧ (tget {} u.aon.ip (u8 c.params 0)).prefix4 = u8 c.params 8 ∧ (tget {} u.aon.ip (u8 c.params 0)).gw4 = u32 c.params 12
          ∧ probeOf u (u8 c.params 0) 0 = {})
        ∧ (bitOf (u8 c.params 1) 1 = true → (tget {} u.aon.ip (u8 c.params 0)).ip6 = beNat (sub c.params 16 16)
          ∧ (tget {} u.aon.ip (u8 c.params 0)).prefix6 = u8 c.params 32
          ∧ (tget {} u.aon.ip (u8 c.params 0)).gw6 = beNat (sub c.params 36 16) ∧ probeOf u (u8 c.params 0) 2 = {})
        ∧ (∀ p, p ≠ u8 c.params 0 → tget {} u.aon.ip p = tget {} s.aon.ip p))
    ∧ (∀ (t : Nat) (c : HostCmd) (s : State), accepted .ethCounters refuseEthCounters t c s = true → 
      exec (.ethCounters t c) s = .next (answered .ethCounters c .ok ((List.range 24).flatMap (fun i =>
        beBytes 8 (tget (0 : BitVec 64) (ethPort s (u8 c.params 0)).cnt i).toNat)) (begun .ethCounters t c s)))
    ∧ (∀ (t : Nat) (c : HostCmd) (s : State), accepted .ethTxFlow refuseEthTxFlow t c s = true → 
      ∃ u, exec (.ethTxFlow t c) s = .next u ∧ (u8 c.params 2 = 0 → txFlow u (u16 c.params 0) = { cnt := (txFlow s (u16 c.params 0)).cnt })
        ∧ (u8 c.params 2 ≠ 0 → (txDest s (u16 c.params 0)).isSome = true →
          (txFlow u (u16 c.params 0)).next = some (txCfgOf c) ∧ (txFlow u (u16 c.params 0)).cfg = (txFlow s (u16 c.params 0)).cfg)
        ∧ (u8 c.params 2 ≠ 0 → txDest s (u16 c.params 0) = none →
          (txFlow u (u16 c.params 0)).next = none ∧ (txFlow u (u16 c.params 0)).cfg = txCfgOf c)
        ∧ (∀ f, f ≠ u16 c.params 0 → txFlow u f = txFlow s f) ∧ u.eth.rx = s.eth.rx)
    ∧ (∀ (t : Nat) (c : HostCmd) (s : State), accepted .ethRxFlow refuseEthRxFlow t c s = true → 
      ∃ u, exec (.ethRxFlow t c) s = .next u ∧ (u8 c.params 2 = 0 → rxFlow u (u16 c.params 0) = { cnt := (rxFlow s (u16 c.params 0)).cnt })
        ∧ (u8 c.params 2 ≠ 0 → (rxFlow u (u16 c.params 0)).kind = u8 c.params 2
          ∧ (rxFlow u (u16 c.params 0)).format = u8 c.params 4 ∧ (rxFlow u (u16 c.params 0)).pt = u8 c.params 5
          ∧ (rxFlow u (u16 c.params 0)).pd = u8 c.params 6
          ∧ ((rxFlow u (u16 c.params 0)).legA, (rxFlow u (u16 c.params 0)).legB) = legsOf c.params (u8 c.params 3) 12
          ∧ (rxFlow u (u16 c.params 0)).joinLeft = 2 ∧ (rxFlow u (u16 c.params 0)).cnt = (rxFlow s (u16 c.params 0)).cnt)
        ∧ (∀ f, f ≠ u16 c.params 0 → rxFlow u f = rxFlow s f) ∧ u.eth.tx = s.eth.tx)
    ∧ (∀ (t : Nat) (c : HostCmd) (s : State), accepted .ethFlowQuery refuseEthFlowQuery t c s = true → 
      exec (.ethFlowQuery t c) s = .next (answered .ethFlowQuery c .ok ((List.range (u16 c.params 4)).flatMap (fun i =>
        if u8 c.params 0 = 0 then
          wordBytes (regRxFlowCfg s (u16 c.params 2 + i)) ++ wordBytes (regRxFlowStatus s (u16 c.params 2 + i))
            ++ legBytes (rxFlow s (u16 c.params 2 + i)).legA ++ legBytes (rxFlow s (u16 c.params 2 + i)).legB
            ++ (List.range 8).flatMap (fun k => wordBytes (tget 0#32 (rxFlow s (u16 c.params 2 + i)).cnt k))
        else
          wordBytes (regTxFlowCfg s (u16 c.params 2 + i)) ++ beBytes 4 0 ++ legBytes (txFlow s (u16 c.params 2 + i)).cfg.legA
            ++ legBytes (txFlow s (u16 c.params 2 + i)).cfg.legB
            ++ (List.range 4).flatMap (fun k => wordBytes (tget 0#32 (txFlow s (u16 c.params 2 + i)).cnt k))
            ++ List.replicate 16 0#8)) (begun .ethFlowQuery t c s)))

/-- The events of the Ethernet ports. -/
def Obligations.EthernetPortEventsTakeEffect : Prop :=
  (∀ (t p i m : Nat) (s : State), p ≤ 1 → i ≤ 23 → ∃ u, exec (.ethPortCntLowRead t p i m) s = .next u
        ∧ regEthHigh u p i m = ((tget (0 : BitVec 64) (ethPort s p).cnt i) >>> 32).setWidth 32
        ∧ (ethPort u p).cnt = (ethPort s p).cnt)
    ∧ (∀ (t b d : Nat) (ch : Bool) (s : State), s.eth.modeChange = some (ch, b, d) → d ≤ max s.clock.clk t →
      ∃ u, exec (.ethModeTakesEffect t) s = .next u ∧ u.aon.ethChain = ch ∧ u.aon.ringBlock = b ∧ u.eth.modeChange = none
        ∧ u.eth.ring.isOpen = false ∧ (ch = true → (ethPort u 1).maxFrame = (ethPort s 0).maxFrame))
    ∧ (∀ (t p : Nat) (s : State), p ≤ 1 → ethRuns s p = true →
      ((ethPort s p).enable = true → (ethPort s p).link = 0 → ∃ u, exec (.pcsBlockLock t p) s = .next u ∧ (ethPort u p).link = 1)
      ∧ ((ethPort s p).link = 1 → (ethPort s p).goodSince + 10000000 ≤ max s.clock.clk t →
        ∃ u, exec (.linkUp t p) s = .next u ∧ (ethPort u p).link = 2 ∧ (ethPort u p).localFault = false
          ∧ (ethPort u p).remoteFault = false ∧ ((ethPort s p).preempt = true → (ethPort u p).preemptState = 1)))
    ∧ (∀ (t p : Nat) (s : State), p ≤ 1 → (∃ u, exec (.pcsAlignmentLost t p) s = .next u ∧ (ethPort u p).link = 0
        ∧ (∀ j, j ≠ p → ethPort u j = ethPort s j))
      ∧ ((ethPort s p).link ≠ 0 → (∃ u, exec (.linkFaultExpired t p true) s = .next u ∧ (ethPort u p).link = 0
          ∧ (ethPort u p).remoteFault = true)
        ∧ (∃ u, exec (.linkFaultExpired t p false) s = .next u ∧ (ethPort u p).link = 0 ∧ (ethPort u p).localFault = true)))
    ∧ (∀ (t p : Nat) (s : State), p ≤ 1 → (ethPort s p).preemptState = 1 → (ethPort s p).verifyAt + 10000000 ≤ max s.clock.clk t →
      ((ethPort s p).verifyTries < 3 → ∃ u, exec (.preemptVerifyExpired t p) s = .next u
        ∧ (ethPort u p).verifyTries = (ethPort s p).verifyTries + 1 ∧ (ethPort u p).preemptState = 1)
      ∧ (3 ≤ (ethPort s p).verifyTries → ∃ u, exec (.preemptVerifyExpired t p) s = .next u ∧ (ethPort u p).preemptState = 3))
    ∧ (∀ (t p : Nat) (f : EthFrame) (s : State), p ≤ 1 → ethRuns s p = true → (ethPort s p).link = 2 → f.body = .other →
      (f.len < 64 → ∃ u, exec (.ethFrameReceived t p f) s = .next u
        ∧ tget (0 : BitVec 64) (ethPort u p).cnt 3 = tget (0 : BitVec 64) (ethPort s p).cnt 3 + 1)
      ∧ (64 ≤ f.len → f.full = true → ∃ u, exec (.ethFrameReceived t p f) s = .next u
        ∧ tget (0 : BitVec 64) (ethPort u p).cnt 14 = tget (0 : BitVec 64) (ethPort s p).cnt 14 + 1)
      ∧ (64 ≤ f.len → f.full = false → f.len ≤ (ethPort s p).maxFrame → f.fcsOk = false →
        ∃ u, exec (.ethFrameReceived t p f) s = .next u
        ∧ tget (0 : BitVec 64) (ethPort u p).cnt 2 = tget (0 : BitVec 64) (ethPort s p).cnt 2 + 1 ∧ u.eth.rx = s.eth.rx))
    ∧ (∀ (t p q : Nat) (f : EthFrame) (s : State), p ≤ 1 → ethRuns s p = true → (ethPort s p).link = 2 → f.body = .pause q →
      64 ≤ f.len → f.full = false → f.len ≤ (ethPort s p).maxFrame → f.fcsOk = true → (ethPort s p).pauseRx = true → q ≠ 0 →
      ∃ u, exec (.ethFrameReceived t p f) s = .next u ∧ (ethPort u p).pausedTo = some (max s.clock.clk t + q * 128 / 100)
        ∧ tget (0 : BitVec 64) (ethPort u p).cnt 5 = tget (0 : BitVec 64) (ethPort s p).cnt 5 + 1)
    ∧ (∀ (t p : Nat) (f : EthFrame) (d : Datagram) (s : State), p ≤ 1 → ethRuns s p = true → (ethPort s p).link = 2 →
      f.body = .command d → f.tags = [] → f.dst = macOf s p → s.aon.ethChain = false → 64 ≤ f.len → f.full = false →
      f.len ≤ (ethPort s p).maxFrame → f.fcsOk = true → hostReachable { d with port := p, oversize := false } (advance t s) = true →
      ∃ x, exec (.ethFrameReceived t p f) s = .next (judgeDatagram { d with port := p, oversize := false } x)
        ∧ x.host = s.host ∧ x.aon = s.aon
        ∧ tget (0 : BitVec 64) (ethPort x p).cnt 23 = tget (0 : BitVec 64) (ethPort s p).cnt 23 + 1)
    ∧ (∀ (t : Nat) (s : State), ringState s ≠ 0 → s.eth.ring.sentAt + 1000000 ≤ max s.clock.clk t →
      ∃ u, exec (.ringCheckSend t) s = .next u ∧ u.eth.ring.seq = (s.eth.ring.seq + 1) % 0x100000000
        ∧ u.eth.ring.sentAt = max s.clock.clk t ∧ u.eth.ring.isOpen = s.eth.ring.isOpen)
    ∧ (∀ (t : Nat) (s : State), ringState s = 1 → s.eth.ring.heardAt + 3000000 ≤ max s.clock.clk t →
      ∃ u, exec (.ringCheckMissing t) s = .next u ∧ u.eth.ring.isOpen = true ∧ ringState u = 2)
    ∧ (∀ (t p a : Nat) (s : State), p ≤ 1 → (ethPort s p).pausedTo = some a → a ≤ max s.clock.clk t →
      ∃ u, exec (.pauseExpired t p) s = .next u ∧ (ethPort u p).pausedTo = none)
    ∧ (∀ (t p n : Nat) (s : State), p ≤ 1 → (ethPort s p).pauseTx = true →
      (75 < n → (ethPort s p).pausing = false → ∃ u, exec (.pauseTxThreshold t p n) s = .next u ∧ (ethPort u p).pausing = true
        ∧ (ethPort u p).pauseAt = max s.clock.clk t ∧ (ethPort u p).share = n)
      ∧ (n < 50 → (ethPort s p).pausing = true → ∃ u, exec (.pauseTxThreshold t p n) s = .next u
        ∧ (ethPort u p).pausing = false ∧ (ethPort u p).share = n))
    ∧ (∀ (t p : Nat) (s : State), p ≤ 1 → (ethPort s p).pausing = true → 75 < (ethPort s p).share →
      (ethPort s p).pauseAt + 40000 ≤ max s.clock.clk t →
      ∃ u, exec (.pauseRepeat t p) s = .next u ∧ (ethPort u p).pauseAt = max s.clock.clk t ∧ (ethPort u p).pausing = true)
    ∧ (∀ (t p q g : Nat) (s : State), p ≤ 1 → ethRuns s p = true → (ethPort s p).link = 2 →
      (∃ u, exec (.igmpQueryReceived t p 2 q g) s = .next u ∧ (ethPort u p).igmpV2 = true ∧ u.eth.rx = s.eth.rx)
      ∧ exec (.igmpQueryReceived t p 1 q g) s = .next (advance t s))
    ∧ (∀ (t f : Nat) (s : State), f ≤ 511 → (rxFlow s f).kind ≠ 0 → 2 ≤ (rxFlow s f).joinLeft →
      ∃ u, exec (.igmpReportSend t f) s = .next u ∧ (rxFlow u f).joinLeft = (rxFlow s f).joinLeft - 1
        ∧ (rxFlow u f).joinAt = max s.clock.clk t ∧ (∀ g, g ≠ f → rxFlow u g = rxFlow s g))
    ∧ (∀ (t p a : Nat) (s : State), p ≤ 1 → ethRuns s p = true → (tget {} s.aon.ip p).ip4 = a → a ≠ 0 →
      (probeOf s p 0).addr = a → (probeOf s p 0).state = 0 →
      (∃ u, exec (.addressProbe t p 0 a none) s = .next u ∧ (probeOf u p 0).sent = (probeOf s p 0).sent + 1
        ∧ (probeOf u p 0).state = (if 2 ≤ (probeOf s p 0).sent then 1 else 0))
      ∧ (∀ m, ∃ u, exec (.addressProbe t p 0 a (some m)) s = .next u ∧ (probeOf u p 0).state = 2))

/-- R402 to R413 for the events of media flows. -/
def Obligations.MediaFlowEventsTakeEffect : Prop :=
  (∀ (t f : Nat) (k : HeldPkt) (fails : List (Nat × Nat)) (s : State), f ≤ 511 → (rxFlow s f).kind = 1 → (rxFlow s f).held = [k] →
      (rxFlow s f).next = some k.n → ∃ u, exec (.mergeRelease t f fails) s = .next u ∧ (rxFlow u f).held = []
        ∧ (rxFlow u f).next = some ((k.n + 1) % 0x100000000) ∧ (rxFlow u f).lastRtp = some k.rtp
        ∧ tget 0#32 (rxFlow u f).cnt 0 = tget 0#32 (rxFlow s f).cnt 0 + 1#32
        ∧ tget 0#32 (rxFlow u f).cnt 1 = tget 0#32 (rxFlow s f).cnt 1 ∧ (∀ g, g ≠ f → rxFlow u g = rxFlow s g))
    ∧ (∀ (t f n : Nat) (k : HeldPkt) (fails : List (Nat × Nat)) (s : State), f ≤ 511 → (rxFlow s f).kind = 1 →
      (rxFlow s f).held = [k] → (rxFlow s f).next = some n → n < 0x100000000 → k.n < 0x100000000 → k.n ≠ n →
      k.at_ + (rxFlow s f).pd * 100000 ≤ max s.clock.clk t →
      ∃ u, exec (.mergeRelease t f fails) s = .next u ∧ (rxFlow u f).held = []
        ∧ (rxFlow u f).next = some ((k.n + 1) % 0x100000000)
        ∧ tget 0#32 (rxFlow u f).cnt 0 = tget 0#32 (rxFlow s f).cnt 0 + 1#32
        ∧ tget 0#32 (rxFlow u f).cnt 1 = tget 0#32 (rxFlow s f).cnt 1 + w32 (aheadOf n k.n))
    ∧ (∀ (t f l : Nat) (s : State), f ≤ 511 → l ≤ 1 → (rxFlow s f).hasLeg l = true →
      (((rxFlow s f).leg l).lost = false → ((rxFlow s f).leg l).lastAt + 10000000 ≤ max s.clock.clk t →
        ∃ u, exec (.legLost t f l) s = .next u ∧ ((rxFlow u f).leg l).lost = true
          ∧ ((∀ m ∈ (rxFlow s f).legs, m.1 ≠ l → ((rxFlow s f).leg m.1).lost = true) → (rxFlow u f).state = 3)
          ∧ (∀ g, g ≠ f → rxFlow u g = rxFlow s g))
      ∧ (((rxFlow s f).leg l).lost = true → ((rxFlow s f).leg l).goodSince + 10000000 ≤ max s.clock.clk t →
        max s.clock.clk t ≤ ((rxFlow s f).leg l).lastAt + 1000000 →
        ∃ u, exec (.legRestored t f l) s = .next u ∧ ((rxFlow u f).leg l).lost = false ∧ (rxFlow u f).state ≠ 3))
    ∧ (∀ (t f l i sched d : Nat) (data : List Byte) (s : State), f ≤ 511 → l ≤ 1 → mediaSends s = true →
      (txFlow s f).cfg.kind = 1 → (txFlow s f).cfg.legs.any (fun x => x.1 == l) = true → (ethPort s l).link = 2 →
      txDest s f = some d →
      (max s.clock.clk t ≤ sched + 500000 → (ethPort s l).pausedTo = none →
        ∃ u, exec (.mediaPacketSend t f l i sched false data) s = .next u
          ∧ .media (max s.clock.clk t) l f (videoPacket (advance t s) f d l i data).1 ∈ u.out
          ∧ tget 0#32 (txFlow u f).cnt l = tget 0#32 (txFlow s f).cnt l + 1#32)
      ∧ (∃ u, exec (.mediaPacketSend t f l i sched true data) s = .next u ∧ u.out = s.out ∧ (txFlow u f).tainted = true
          ∧ tget 0#32 (txFlow u f).cnt 2 = tget 0#32 (txFlow s f).cnt 2 + 1#32))

/-- The commands of Tables 13.6 and 13.7. -/
def Obligations.TimeCommandsTakeEffect : Prop :=
  (∀ (t : Nat) (c : HostCmd) (s : State), accepted .timStatus refuseTimStatus t c s = true → 
      exec (.timStatus t c) s = .next (answered .timStatus c .ok (beBytes 4 (regTimStatus (begun .timStatus t c s)).toNat ++ beBytes 4 (timErr (begun .timStatus t c s)) ++ timeBytes (begun .timStatus t c s).clock.now ++ beBytes 8 (grandmaster s)
        ++ beBytes 2 ((s.tim.ptp.chosen.map PtpMaster.msg).getD {} : PtpMsg).steps ++ beBytes 2 ((s.tim.ptp.chosen.map PtpMaster.msg).getD {} : PtpMsg).utcOffset
        ++ beBytes 4 (regPtpOffset (begun .timStatus t c s)).toNat ++ beBytes 4 (regPtpDelay (begun .timStatus t c s)).toNat
        ++ (List.range 4).flatMap (fun i => beBytes 4 (regRefStatus (begun .timStatus t c s) i).toNat ++ beBytes 4 (regRefFreq (begun .timStatus t c s) i).toNat)
        ++ (List.range 8).flatMap (fun p => beBytes 4 (regTpAlign (begun .timStatus t c s) p).toNat ++ beBytes 4 (regTpState (begun .timStatus t c s) p).toNat)) (begun .timStatus t c s)))
    ∧ (∀ (t : Nat) (c : HostCmd) (s : State), accepted .timRefConfig refuseTimRefConfig t c s = true → 
      ∃ u, exec (.timRefConfig t c) s = .next u ∧ (u8 c.params 0 ≠ 0xFF → (refIn u (u8 c.params 0)).kind = bitsOf (u32 c.params 4) 1 0
          ∧ (refIn u (u8 c.params 0)).edge = bitsOf (u32 c.params 4) 2 2 ∧ (refIn u (u8 c.params 0)).family = bitsOf (u32 c.params 4) 6 4
          ∧ (refIn u (u8 c.params 0)).rank = bitsOf (u32 c.params 4) 11 8 ∧ (refIn u (u8 c.params 0)).tol = bitsOf (u32 c.params 4) 21 16
          ∧ ((refIn s (u8 c.params 0)).kind ≠ bitsOf (u32 c.params 4) 1 0 →
            (refIn u (u8 c.params 0)).phase = (if bitsOf (u32 c.params 4) 1 0 = 0 then 0 else 2)))
        ∧ (u8 c.params 0 = 0xFF → u.tim.sel.ptpRank = bitsOf (u32 c.params 4) 7 4 ∧ u.tim.sel.wtr = bitsOf (u32 c.params 4) 27 16)
        ∧ u.tim.time = s.tim.time)
    ∧ (∀ (t : Nat) (c : HostCmd) (s : State), accepted .timPtpConfig refuseTimPtpConfig t c s = true → 
      ∃ u, exec (.timPtpConfig t c) s = .next u ∧ u.tim.ptp.domain = bitsOf (u32 c.params 0) 6 0 ∧ u.tim.ptp.unicast = bitOf (u32 c.params 0) 8
        ∧ u.tim.ptp.portA = bitOf (u32 c.params 0) 9 ∧ u.tim.ptp.portB = bitOf (u32 c.params 0) 10 ∧ u.tim.ptp.masters = []
        ∧ u.tim.ptp.chosen = none ∧ u.tim.ptp.offset = none ∧ u.tim.ptp.delay = 0 ∧ u.tim.time.state = .acquiring)
    ∧ (∀ (t : Nat) (c : HostCmd) (s : State), accepted .timCompareSet refuseTimCompareSet t c s = true → 
      ∃ u, exec (.timCompareSet t c) s = .next u ∧ (compareOf u (u8 c.params 0)).actions = u8 c.params 1
        ∧ (compareOf u (u8 c.params 0)).output = u8 c.params 2 ∧ (compareOf u (u8 c.params 0)).program = u8 c.params 3
        ∧ (compareOf u (u8 c.params 0)).session = c.session ∧ (compareOf u (u8 c.params 0)).role = c.role
        ∧ (compareOf u (u8 c.params 0)).period = u64 c.params 16
        ∧ (compareOf u (u8 c.params 0)).state = (if u8 c.params 1 = 0 then 0 else 1)
        ∧ (0 < compareDist (targetOf c.params 4 % 0x10000000000) (advance t s).clock.now →
          (compareOf u (u8 c.params 0)).target = targetOf c.params 4 % 0x10000000000)
        ∧ (∀ k, k ≠ u8 c.params 0 → compareOf u k = compareOf s k) ∧ u.tim.pulses = s.tim.pulses)
    ∧ (∀ (t : Nat) (c : HostCmd) (s : State), accepted .timPulseSet refuseTimPulseSet t c s = true → 
      ∃ u, exec (.timPulseSet t c) s = .next u ∧ (pulseOf u (u8 c.params 0)).mode = u8 c.params 1 ∧ (pulseOf u (u8 c.params 0)).polarity = u8 c.params 2
        ∧ (pulseOf u (u8 c.params 0)).plane = u8 c.params 3 % 8 ∧ (pulseOf u (u8 c.params 0)).fastest = bitOf (u8 c.params 3) 7
        ∧ (pulseOf u (u8 c.params 0)).width = u32 c.params 4 ∧ (pulseOf u (u8 c.params 0)).period = u64 c.params 8
        ∧ (pulseOf u (u8 c.params 0)).start = targetOf c.params 16 ∧ (pulseOf u (u8 c.params 0)).active = false
        ∧ (u64 c.params 8 ≠ 0 → (advance t s).clock.now ≤ (pulseOf u (u8 c.params 0)).next)
        ∧ (∀ k, k ≠ u8 c.params 0 → pulseOf u k = pulseOf s k) ∧ u.tim.compares = s.tim.compares)
    ∧ (∀ (t : Nat) (c : HostCmd) (s : State), accepted .timRealign refuseTimRealign t c s = true → 
      ∃ u, exec (.timRealign t c) s = .next u ∧ ∃ x, u.xpt.queue = s.xpt.queue ++ [x]
        ∧ x.action = .realign (u8 c.params 0) (u8 c.params 1) (u8 c.params 2 == 1) (u8 c.params 3)
        ∧ x.session = c.session ∧ x.sealed_ = none ∧ x.target = none ∧ u.tim = s.tim)

/-- R425 to R437 for the events of the loops and the references. -/
def Obligations.ReferencesAndLoopsFollowTheRules : Prop :=
  (∀ (t p : Nat) (s : State), p ≤ 2 → s.tim.ptp.masters.any (fun m => m.port == p) = true →
      ∃ u, exec (.announceTimeout t p) s = .next u ∧ u.tim.ptp.masters = s.tim.ptp.masters.filter (fun m => m.port != p)
        ∧ tget 0#32 u.tim.cnt 2 = tget 0#32 s.tim.cnt 2 + 1#32
        ∧ ((∀ m ∈ s.tim.ptp.masters, m.port = p) → s.tim.time.state = .locked → s.tim.time.everLocked = true →
          u.tim.time.state = .holdover ∧ u.tim.time.holdFreq = s.tim.time.freq))
    ∧ (∀ (t : Nat) (m : PtpMaster) (s : State), s.tim.ptp.chosen = some m → s.tim.ptp.queue.length < 64 →
      ∃ u, exec (.delayReqSend t) s = .next u ∧ u.tim.ptp.delaySeq = (s.tim.ptp.delaySeq + 1) % 0x10000
        ∧ u.tim.ptp.queue = s.tim.ptp.queue ++ [⟨m.port, s.tim.ptp.delaySeq, (advance t s).clock.now⟩]
        ∧ u.out = .service (max s.clock.clk t) m.port 7 [s.tim.ptp.delaySeq] (delayReq s m.port s.tim.ptp.delaySeq) :: s.out)
    ∧ (∀ (t : Nat) (s : State),
      (s.tim.time.state = .holdover → s.tim.holdLimit * 1000 < holdError s.tim.time (advance t s) →
        ∃ u, exec (.holdoverLimit t false) s = .next u ∧ u.tim.time.state = .lost)
      ∧ (s.tim.house.state = .holdover → s.tim.holdLimit * 1000 < holdError s.tim.house (advance t s) →
        ∃ u, exec (.holdoverLimit t true) s = .next u ∧ u.tim.house.state = .lost ∧ u.tim.htState = 4))
    ∧ (∀ (t i : Nat) (s : State), i ≤ 3 → (refIn s i).kind ≠ 0 → loopsRun s = true →
      ((refIn s i).phase = 1 → (refIn s i).cause = 0 → ∃ u, exec (.refEdge t i) s = .next u ∧ (refIn u i).phase = 2
        ∧ (refIn u i).lastEdge = some (max s.clock.clk t))
      ∧ ((refIn s i).phase = 3 → glitches (refIn s i) (max s.clock.clk t) = false → ∃ u, exec (.refEdge t i) s = .next u
        ∧ (refIn u i).phase = 3 ∧ (refIn u i).lastEdge = some (max s.clock.clk t) ∧ u.tim.house = s.tim.house)
      ∧ ((refIn s i).phase = 3 → glitches (refIn s i) (max s.clock.clk t) = true → ∃ u, exec (.refEdge t i) s = .next u
        ∧ (refIn u i).phase = 2 ∧ (refIn u i).cause = 1 ∧ tget 0#32 u.tim.cnt 3 = tget 0#32 s.tim.cnt 3 + 1#32))
    ∧ (∀ (t i : Nat) (s : State), i ≤ 3 → (refIn s i).kind ≠ 0 → loopsRun s = true → (refIn s i).phase = 3 →
      (refIn s i).lastEdge.getD (refIn s i).started + ((if (refIn s i).kind = 1 then basePeriod (refIn s i).family else 0) + 2000000)
        ≤ max s.clock.clk t →
      ∃ u, exec (.refAbsent t i) s = .next u ∧ (refIn u i).phase = 1 ∧ (refIn u i).cause = 0
        ∧ tget 0#32 u.tim.cnt 3 = tget 0#32 s.tim.cnt 3 + 1#32)
    ∧ (∀ (t i : Nat) (f : Int) (s : State), i ≤ 3 → (refIn s i).kind ≠ 0 → loopsRun s = true → (refIn s i).phase = 3 →
      (f.natAbs ≤ (refIn s i).tol * 1000 → ∃ u, exec (.refFrequencyWindow t i f) s = .next u ∧ (refIn u i).freq = f
        ∧ (refIn u i).phase = 3)
      ∧ ((refIn s i).tol * 1000 < f.natAbs → ∃ u, exec (.refFrequencyWindow t i f) s = .next u ∧ (refIn u i).freq = f
        ∧ (refIn u i).phase = 1 ∧ (refIn u i).cause = 2))
    ∧ (∀ (t i : Nat) (s : State), i ≤ 3 → (refIn s i).phase = 2 → (refIn s i).deferred = false →
      (refIn s i).waitUntil ≤ max s.clock.clk t →
      ∃ u, exec (.refQualify t i) s = .next u ∧ (refIn u i).phase = 3 ∧ (refIn u i).first = false)
    ∧ (∀ (t i : Nat) (s : State), s.tim.sel.selected = some i → s.tim.house.state = .acquiring →
      (s.tim.sel.stage = 1 → (i ≤ 3 → (refIn s i).kind = 1 → 4 ≤ s.tim.sel.edges) →
        s.tim.sel.stageAt + 10000000 ≤ max s.clock.clk t →
        ∃ u, exec (.buildOutDone t) s = .next u ∧ u.tim.sel.stage = 2 ∧ u.tim.sel.stageAt = max s.clock.clk t
          ∧ u.tim.house = s.tim.house)
      ∧ (s.tim.sel.stage = 2 → s.tim.sel.stageAt + 1000000000 ≤ max s.clock.clk t → isCandidate s i = true →
        bestCandidate s = some i → ∃ u, exec (.houseLoopLocked t) s = .next u ∧ u.tim.house.state = .locked
          ∧ u.tim.house.everLocked = true ∧ u.tim.sel.stage = 0 ∧ u.tim.sel.selected = some i))
    ∧ (∀ (t a b : Nat) (x y : Int) (s : State), a ≤ 3 → b ≤ 3 → a ≠ b → isCandidate s a = true → isCandidate s b = true →
      (refIn s a).rank = (refIn s b).rank → 500 < (x - y).natAbs →
      ∃ u w, exec (.refDisagree t a b x y) s = .next u ∧ (w = a ∨ w = b) ∧ (refIn u w).suspect = true
        ∧ u.tim.sel.disagree = s.tim.sel.disagree ++ [(a, b, w)])
    ∧ (∀ (t a b w : Nat) (s : State), a ≤ 3 → b ≤ 3 → s.tim.sel.disagree = [(a, b, w)] →
      ∃ u, exec (.refDisagreementEnd t a b) s = .next u ∧ u.tim.sel.disagree = [] ∧ (refIn u a).suspect = false
        ∧ (refIn u b).suspect = false)
    ∧ (∀ (t : Nat) (s : State), s.tim.sel.ptpBarred = true → s.tim.time.state = .locked →
      s.tim.time.since + s.tim.sel.wtr * 1000000000 ≤ max s.clock.clk t →
      ∃ u, exec (.ptpWtrExpired t) s = .next u ∧ u.tim.sel.ptpBarred = false ∧ u.tim.time = s.tim.time)

/-- R203, R204 and R442 to R448, R452. -/
def Obligations.PlanesUnitsAndOutputsFollowTheClock : Prop :=
  (∀ (t m : Nat) (s : State), ∃ u, exec (.timNowNsRead t m) s = .next u
        ∧ nowSeconds u m = (advance t s).clock.now / 1000000000 ∧ u.clock = (advance t s).clock)
    ∧ (∀ (t p : Nat) (s : State), p ≤ 7 → lanesRun s = true → (tpCfg s p).family ≠ 0 → (planeOf s p).stepping = false →
      ((planeOf s p).started = true → ∃ u, exec (.planeFrameStart t p true) s = .next u
        ∧ (planeOf u p).slow = ((planeOf s p).slow + 1) % 0x100000000 ∧ (planeOf u p).fast = ((planeOf s p).fast + 1) % 0x100000000
        ∧ (planeOf u p).last = some (advance t s).clock.now ∧ (∀ q, q ≠ p → planeOf u q = planeOf s q))
      ∧ ((planeOf s p).started = true → famHasFast (tpCfg s p).family = true → ∃ u, exec (.planeFrameStart t p false) s = .next u
        ∧ (planeOf u p).slow = (planeOf s p).slow ∧ (planeOf u p).fast = ((planeOf s p).fast + 1) % 0x100000000
        ∧ (planeOf u p).lastAny = some (advance t s).clock.now)
      ∧ ((planeOf s p).started = false → (planeOf s p).adopt = none → ∃ u, exec (.planeFrameStart t p true) s = .next u
        ∧ (planeOf u p).started = true ∧ (planeOf u p).slow = countAt (tpCfg s p).family (advance t s).clock.now))
    ∧ (∀ (t p : Nat) (x : Int) (r : Realign) (s : State), p ≤ 7 → planeAlign s p = some x → s.tim.realigns = [r] →
      r.wants false p ((planeOf s p).lastAny.getD 0) = true →
      ∃ u, exec (.realignLands t false p) s = .next u
        ∧ (r.slew = true → (planeOf u p).slew = some r.rate ∧ (planeOf u p).removing = x)
        ∧ (r.slew = false → (planeOf u p).stepping = true ∧ (planeOf u p).slew = none)
        ∧ (∀ q, q ≠ p → planeOf u q = planeOf s q) ∧ u.tim.pulses = s.tim.pulses)
    ∧ (∀ (t n : Nat) (r : Realign) (s : State), n ≤ 7 → pulseKnown s n = true → s.tim.realigns = [r] →
      r.wants true n (advance t s).clock.now = true →
      ∃ u, exec (.realignLands t true n) s = .next u ∧ (r.slew = true → (pulseOf u n).slew = some r.rate)
        ∧ (r.slew = false → (pulseOf u n).next = (((pulseOf s n).next : Int) - pulseAlign (pulseOf s n)).toNat)
        ∧ u.tim.planes = s.tim.planes)
    ∧ (∀ (t n k : Nat) (s : State), n ≤ 7 →
      ((planeOf s n).slew = some k → planeAlign s n = some 0 → ∃ u, exec (.realignSlewDone t false n) s = .next u
        ∧ (planeOf u n).slew = none ∧ (planeOf u n).slow = countAt (tpCfg s n).family ((planeOf s n).last.getD 0))
      ∧ ((pulseOf s n).slew = some k → pulseAlign (pulseOf s n) = 0 → ∃ u, exec (.realignSlewDone t true n) s = .next u
        ∧ (pulseOf u n).slew = none ∧ (pulseOf u n).next = (pulseOf s n).next))
    ∧ (∀ (t k : Nat) (s : State), k ≤ 31 → (compareOf s k).state = 1 →
      compareDist (compareOf s k).target (advance t s).clock.now ≤ 0 →
      ∃ u, exec (.compareFire t k) s = .next u ∧ tget 0#32 u.tim.cnt 6 = tget 0#32 s.tim.cnt 6 + 1#32
        ∧ ((compareOf s k).period = 0 → (compareOf u k).state = 2)
        ∧ ((compareOf s k).period ≠ 0 → (compareOf u k).state = 1
          ∧ (compareOf u k).target = ((compareOf s k).target + (compareOf s k).period) % 0x10000000000)
        ∧ (∀ j, j ≠ k → compareOf u j = compareOf s j))
    ∧ (∀ (t n : Nat) (s : State), n ≤ 7 → s.mode ≠ .boot → s.mode ≠ .retain →
      ((pulseOf s n).mode = 2 → (pulseOf s n).next ≤ (advance t s).clock.now → ∃ u, exec (.pulseEdge t n true) s = .next u
        ∧ (pulseOf u n).active = true ∧ (pulseOf u n).endAt = max s.clock.clk t + (pulseOf s n).width
        ∧ ((pulseOf s n).slew = none → (pulseOf u n).next = (pulseOf s n).next + (pulseOf s n).period))
      ∧ ((pulseOf s n).active = true → (pulseOf s n).endAt ≤ max s.clock.clk t → ∃ u, exec (.pulseEdge t n false) s = .next u
        ∧ (pulseOf u n).active = false ∧ u.out = .pulse (max s.clock.clk t) n ((pulseOf s n).polarity == 1) :: s.out))
    ∧ (∀ (t : Nat) (s : State), s.seq.aonUp = true → s.clock.running = true →
      ∃ u r, exec (.aonTimeRecord t) s = .next u ∧ u.aon.timeRec = some r ∧ r.now = s.clock.now + (t - s.clock.clk)
        ∧ r.timErr = timErr (advance t s) ∧ r.loop = s.tim.time.state.code ∧ r.house = s.tim.house.state.code)

/-- The commands of Tables 14.11 and 14.12. -/
def Obligations.RedundancyCommandsTakeEffect : Prop :=
  (∀ (t : Nat) (c : HostCmd) (s : State), accepted .redStatus refuseRedStatus t c s = true → 
      exec (.redStatus t c) s = .next (answered .redStatus c .ok ([regRedStatus (begun .redStatus t c s), regRedPeer s, regRedPeerBuild s, regRedLeaseGen s, regRedLeaseLeft (begun .redStatus t c s)].flatMap wordBytes
        ++ beBytes 4 (if isSequencer s then s.xpt.tick else s.red.applied) ++ beBytes 4 s.red.peerApplied
        ++ (List.range 12).flatMap (fun i => wordBytes (regRedCnt s i))) (begun .redStatus t c s)))
    ∧ (∀ (t : Nat) (c : HostCmd) (s : State), accepted .redLeaseRequest refuseRedLeaseRequest t c s = true → 
      ∃ u, exec (.redLeaseRequest t c) s = .next u ∧ u.red.renewed = max s.clock.clk t ∧ u.red.term = u16 c.params 0
        ∧ u.red.byCommand = true
        ∧ (((s.red.lease = true ∧ s.red.t6Due = false) ∨ s.red.grant = true) →
          u.red.lease = s.red.lease ∧ u.red.grant = s.red.grant ∧ u.red.gen = s.red.gen)
        ∧ (¬((s.red.lease = true ∧ s.red.t6Due = false) ∨ s.red.grant = true) → inStep s = true →
          u.red.grant = true ∧ u.red.lease = s.red.lease ∧ u.red.gen = s.red.gen)
        ∧ (¬((s.red.lease = true ∧ s.red.t6Due = false) ∨ s.red.grant = true) → inStep s = false →
          u.red.lease = true ∧ u.red.grant = false ∧ u.red.gen = (max s.red.gen s.red.peer.gen + 1) % 0x100000000))
    ∧ (∀ (t : Nat) (c : HostCmd) (s : State), accepted .redLeaseRelease refuseRedLeaseRelease t c s = true → 
      ∃ u, exec (.redLeaseRelease t c) s = .next u ∧ u.red.gen = s.red.gen
        ∧ (s.red.lease = true → s.mode = .active → inStep s = true → u.red.t6Due = true ∧ u.red.lease = true ∧ u.mode = .active)
        ∧ (¬(s.red.lease = true ∧ s.mode = .active ∧ inStep s = true) → u.red.lease = false ∧ u.red.grant = false
          ∧ ((s.red.lease = true ∨ s.red.grant = true) → u.pins.leaseOut = false))
        ∧ (s.red.lease = true → s.mode = .active → inStep s = false → u.mode = .isolated))
    ∧ (∀ (t : Nat) (c : HostCmd) (s : State), accepted .redResync refuseRedResync t c s = true → 
      ∃ u, exec (.redResync t c) s = .next u ∧ (s.red.link ≠ .resyncing → resyncMode s.mode.code = true → resyncMode s.red.peer.mode = true →
          u.red.link = .resyncing ∧ u.red.retryAt = none
          ∧ ∃ x, u.red.resync = some x ∧ x.tick = ((advance t s).clock.now / 500000 + 1) % 0x100000000
            ∧ x.started = max s.clock.clk t ∧ x.loaded = false ∧ (s.red.link = .linked → x.source = isSource s))
        ∧ (s.red.link = .resyncing → u.red.link = .resyncing ∧ u.red.resync = s.red.resync))
    ∧ (∀ (t : Nat) (c : HostCmd) (s : State), accepted .redHealth refuseRedHealth t c s = true → 
      exec (.redHealth t c) s = .next (answered .redHealth c .ok (healthReport (begun .redHealth t c s) ++ s.red.peerReport ++ beBytes 4 ((max s.clock.clk t - s.red.peerReportAt) / 1000000)) (begun .redHealth t c s)))

/-- R459 to R462 and R471 to R475, R484 for the events of the lease, the link and the health reports. -/
def Obligations.LeaseAndLinkEventsTakeEffect : Prop :=
  (∀ (t k a w i : Nat) (h : Hello) (r : EpochRecord) (p : List Byte) (s : State), halyardRuns s = true →
      exec (.halyardHello t h true) s = .next (discardMsg (advance t s))
      ∧ exec (.halyardEpochRecord t r true) s = .next (discardMsg (advance t s))
      ∧ exec (.halyardEpochAck t k a w true) s = .next (discardMsg (advance t s))
      ∧ exec (.halyardCmdRelay t p true) s = .next (discardMsg (advance t s))
      ∧ exec (.halyardCmdForward t p true) s = .next (discardMsg (advance t s))
      ∧ exec (.halyardCmdResult t i k a p true) s = .next (discardMsg (advance t s))
      ∧ exec (.halyardHealth t p true) s = .next (discardMsg (advance t s))
      ∧ exec (.halyardLeaseClaim t k true) s = .next (discardMsg (advance t s))
      ∧ exec (.halyardBulkRequest t i k a true) s = .next (discardMsg (advance t s)))
    ∧ (∀ (t : Nat) (s : State), paired s = true → s.red.leaseSrc ≠ 1 → s.mode.mayLease = true →
      (∀ a, s.red.lastEdge = some a → a + 1000000 ≤ max s.clock.clk t) →
      ∃ u, exec (.leaseInEdge t) s = .next u ∧ u.red.lastEdge = some (max s.clock.clk t)
        ∧ (((s.red.lease = true ∧ s.red.t6Due = false) ∨ s.red.grant = true) →
          u.red.renewed = max s.clock.clk t ∧ u.red.term = s.red.termMs ∧ u.red.lease = s.red.lease ∧ u.red.grant = s.red.grant)
        ∧ (∀ a, s.red.lease = false → s.red.grant = false → s.red.lastEdge = some a →
          max s.clock.clk t ≤ a + s.red.termMs * 1000000 →
          (inStep s = true → u.red.grant = true ∧ u.red.lease = false)
          ∧ (inStep s = false → u.red.lease = true ∧ u.red.gen = (max s.red.gen s.red.peer.gen + 1) % 0x100000000))
        ∧ (s.red.lease = false → s.red.grant = false →
          (∀ a, s.red.lastEdge = some a → a + s.red.termMs * 1000000 < max s.clock.clk t) →
          u.red.lease = false ∧ u.red.grant = false))
    ∧ (∀ (t : Nat) (s : State), paired s = true → (s.red.lease = true ∨ s.red.grant = true) →
      s.red.renewed + s.red.term * 1000000 ≤ max s.clock.clk t →
      ∃ u, exec (.leaseLapse t) s = .next u
        ∧ (s.red.lease = true → s.mode = .active → inStep s = true → u.red.t6Due = true ∧ u.red.lease = true ∧ u.mode = .active)
        ∧ (¬(s.red.lease = true ∧ s.mode = .active ∧ inStep s = true) →
          u.red.lease = false ∧ u.red.grant = false ∧ u.pins.leaseOut = false)
        ∧ (s.red.lease = true → s.mode = .active → inStep s = false → u.mode = .isolated))
    ∧ (∀ (t : Nat) (h : Hello) (s : State), halyardRuns s = true → helloFault s h = none →
      ∃ u, exec (.halyardHello t h false) s = .next u ∧ u.red.peer = h ∧ u.red.badCause = none
        ∧ u.host.partnerAddr = some h.addr ∧ u.red.link ≠ .down ∧ u.red.lastCtrl = max s.clock.clk t
        ∧ (h.link = 2 → s.red.retryAt = none → s.red.link = .linked → resyncMode s.mode.code = true → resyncMode h.mode = true →
          u.red.link = .resyncing))
    ∧ (∀ (t n : Nat) (h : Hello) (s : State), halyardRuns s = true → helloFault s h = some n →
      ∃ u, exec (.halyardHello t h false) s = .next u ∧ u.red.link = .down ∧ u.red.badCause = some n ∧ u.red.peer = s.red.peer)
    ∧ (∀ (t c : Nat) (bulk : List Nat) (s : State), halyardRuns s = true → usableLanes s = c :: bulk →
      (∃ u, exec (.helloSend t) s = .next u
        ∧ u.out = .halyard (max s.clock.clk t) c (tget 0 s.red.msgNo c) 1 (helloBytes (advance t s)) :: s.out)
      ∧ ∃ u, exec (.healthSend t) s = .next u ∧ u.red.health = healthNow (advance t s)
        ∧ u.red.peerReport = s.red.peerReport
        ∧ ∃ p, u.out = .halyard (max s.clock.clk t) c (tget 0 s.red.msgNo c) 10 p :: s.out)
    ∧ (∀ (t : Nat) (s : State), s.red.link ≠ .down →
      (usableLanes s = [] ∨ s.red.lastCtrl + 2000000 ≤ max s.clock.clk t) →
      ∃ u, exec (.halyardLoss t) s = .next u ∧ u.red.link = .down ∧ u.red.held = (if inStep s then [] else s.red.held)
        ∧ u.red.kept = [] ∧ u.red.items = []
        ∧ (inStep s = true → s.mode = .standby → s.red.granted = false → u.mode = .isolated ∧ u.red.grant = false))
    ∧ (∀ (t g : Nat) (s : State), halyardRuns s = true → inStep s = true →
      ∃ u, exec (.halyardLeaseClaim t g false) s = .next u ∧ u.red.claim = some g ∧ u.red.lease = s.red.lease)
    ∧ (∀ (t : Nat) (p : List Byte) (s : State), halyardRuns s = true → ∃ u, exec (.halyardHealth t p false) s = .next u
        ∧ u.red.peerReport = p.take 20 ∧ u.red.peerReportAt = max s.clock.clk t ∧ u.red.peer.health = u8 p 0 % 4
        ∧ u.red.peer.mode = u8 p 1 % 8)

/-- R463 to R466, R469, R473, R477 and R478 for the events that carry records, commands and snapshots. -/
def Obligations.RecordsAndCarriedCommandsTakeEffect : Prop :=
  (∀ (t : Nat) (r : EpochRecord) (s : State), halyardRuns s = true → follows s = true → conductorStopped s = false →
      (r.tick = tickAfter s.red.applied →
        (r.items = [] → ∃ u, exec (.halyardEpochRecord t r false) s = .next u ∧ u.red.applied = r.tick
          ∧ tget 0#32 u.red.cnt 1 = tget 0#32 s.red.cnt 1 + 1#32 ∧ u.red.peer.gen = r.gen ∧ u.red.peer.lease = r.lease
          ∧ u.red.link = .inStep)
        ∧ (∀ i k a, r.items = [.command i k a] → (s.red.held ++ s.red.forwarded).any (HeldCmd.is i k) = false →
          ∃ u, exec (.halyardEpochRecord t r false) s = .next u ∧ u.red.applied = r.tick ∧ u.red.link ≠ .inStep)
        ∧ (r.items = [.handover s.start.straps.pairRole 1] → s.red.grant = true →
          ∃ u, exec (.halyardEpochRecord t r false) s = .next u ∧ u.red.granted = true ∧ u.red.t7Due = true
            ∧ u.red.link = .inStep))
      ∧ (r.tick ≠ tickAfter s.red.applied → ticksFrom (tickAfter s.red.applied) r.tick < 0x80000000 →
        ∃ u, exec (.halyardEpochRecord t r false) s = .next u ∧ u.red.applied = s.red.applied
          ∧ ∀ c bulk, usableLanes s = c :: bulk → u.out = .halyard (max s.clock.clk t) c (tget 0 s.red.msgNo c) 3
              (beBytes 4 s.red.applied ++ beBytes 1 1 ++ beBytes 1 0 ++ beBytes 2 (tickAfter s.red.applied % 0x10000)) :: s.out))
    ∧ (∀ (t k a w : Nat) (s : State), halyardRuns s = true → writesRecords s = true →
      (a = 0 → ∃ u, exec (.halyardEpochAck t k a w false) s = .next u ∧ u.red.peerApplied = k
        ∧ (s.red.link = .resyncing → u.red.link = .inStep ∧ u.red.resyncDone = true)
        ∧ (s.red.link = .inStep → u.red.link = .inStep ∧ u.red.unacked = min s.red.unacked (ticksFrom k s.xpt.tick)))
      ∧ (a ≠ 0 → s.red.kept.any (fun r => r.tick % 0x10000 == w % 0x10000) = true →
        ∃ u, exec (.halyardEpochAck t k a w false) s = .next u ∧ u.red.link = s.red.link ∧ u.red.kept = s.red.kept)
      ∧ (a ≠ 0 → s.red.kept.any (fun r => r.tick % 0x10000 == w % 0x10000) = false → inStep s = true →
        ∃ u, exec (.halyardEpochAck t k a w false) s = .next u ∧ u.red.link = .linked))
    ∧ (∀ (t : Nat) (s : State), leads s = true → 4 ≤ s.red.unacked → ∃ u, exec (.recordsUnacknowledged t) s = .next u
        ∧ u.red.link ≠ .inStep ∧ u.red.unacked = 0 ∧ u.red.kept = [])
    ∧ (∀ (t : Nat) (p : List Byte) (s : State), halyardRuns s = true → leads s = true →
      (sessionAuth s (carriedCmd p s).session).isSome = true →
      ((carriedCmd p s).seq ≤ lastSeq s (carriedCmd p s).session →
        exec (.halyardCmdRelay t p false) s = .next (heardControl (advance t s)))
      ∧ (∀ op, lastSeq s (carriedCmd p s).session < (carriedCmd p s).seq → opOfCode (readHeader p).opcode = some op →
        roleRefusal op (carriedCmd p s) = none → modeRefusal op (carriedCmd p s) (advance t s) = none → s.host.queue.length < 256 →
        ∃ u, exec (.halyardCmdRelay t p false) s = .next u ∧ u.host.queue = s.host.queue ++ [(op, carriedCmd p s)]))
    ∧ (∀ (t : Nat) (op : Op) (p : List Byte) (s : State), halyardRuns s = true → (follows s = true ∨ s.red.link = .resyncing) →
      opOfCode (readHeader p).opcode = some op → ∃ u, exec (.halyardCmdForward t p false) s = .next u
        ∧ u.red.forwarded = s.red.forwarded ++ [{ op := op, cmd := carriedCmd p s, since := max s.clock.clk t }]
        ∧ u.host = s.host)
    ∧ (∀ (t i k a : Nat) (p : List Byte) (h : HeldCmd) (s : State), halyardRuns s = true → s.red.held = [h] →
      h.cmd.session = i → h.cmd.seq = k → ∃ u, exec (.halyardCmdResult t i k a p false) s = .next u
        ∧ ((statusByCode a).passed = true → u.red.results = s.red.results ++ [⟨i, k, a, p⟩] ∧ u.red.held = [h])
        ∧ ((statusByCode a).passed = false → u.red.held = [{ h with replied := true }]))
    ∧ (∀ (t i k : Nat) (s : State), ∃ u, exec (.heldCommandTimeout t i k) s = .next u
        ∧ u.red.held = s.red.held.filter (fun h =>
          !(h.cmd.session == i && h.cmd.seq == k && decide (h.since + 20000000 ≤ max s.clock.clk t)))
        ∧ u.out = s.out)
    ∧ (∀ (t m k n : Nat) (p : PairState) (x : Resync) (s : State), halyardRuns s = true → joining s = true →
      s.red.resync = some x → x.loaded = false → s.red.buffered = [] →
      ∃ u, exec (.halyardResyncState t m (some (k, n, p)) false) s = .next u ∧ u.red.applied = k
        ∧ u.cue.progs = p.progs ∧ u.xpt.tps = p.tps ∧ u.tim.compares = p.compares ∧ u.fst.pageIdle = p.pageIdle
        ∧ (ticksFrom k ((advance t s).clock.now / 500000 % 0x100000000) ≤ 1 → u.red.link = .inStep)
        ∧ (1 < ticksFrom k ((advance t s).clock.now / 500000 % 0x100000000) → u.red.link = .resyncing
          ∧ u.red.resync = some { x with tick := k, bytes := n, loaded := true }))
    ∧ (∀ (t : Nat) (x : Resync) (s : State), s.red.link = .resyncing → s.red.resync = some x →
      x.started + 200000000 ≤ max s.clock.clk t → ∃ u, exec (.resyncTimeout t) s = .next u ∧ u.red.link = .linked
        ∧ u.red.resync = none ∧ u.red.retryAt = some (max s.clock.clk t + 1000000000))
    ∧ (∀ (t a : Nat) (s : State), s.red.retryAt = some a → a ≤ max s.clock.clk t → halyardRuns s = true → s.red.link = .linked →
      resyncMode s.mode.code = true → resyncMode s.red.peer.mode = true →
      ∃ u, exec (.resyncRetry t) s = .next u ∧ u.red.link = .resyncing ∧ u.red.retryAt = none)

/-- R348, R467, R468, R479, R480, R482 and R483. -/
def Obligations.PairComparisonTakesEffect : Prop :=
  (∀ (t k r : Nat) (s : State), k ≤ 7 → r ≤ 1 → leads s = true → ∃ u, exec (.readoutDecision t k r) s = .next u
        ∧ (∀ n ∈ sourcesOn s k r, tfind u.red.choices n = some (readoutChoice (advance t s) n))
        ∧ (∀ n, n ∉ sourcesOn s k r → tfind u.red.choices n = tfind s.red.choices n) ∧ u.flow = s.flow)
    ∧ (∀ (t k r n q : Nat) (b : Bool) (xs : List (Nat × Nat × Bool)) (s : State), k ≤ 7 → r ≤ 1 → halyardRuns s = true →
      follows s = true → ∃ u, exec (.halyardReadout t k r (xs ++ [(n, q, b)]) false) s = .next u
        ∧ tfind u.red.choices n = some (q, b)
        ∧ (∀ m, m ≠ n → (∀ x ∈ xs, x.1 ≠ m) → tfind u.red.choices m = tfind s.red.choices m))
    ∧ (∀ (t k r f : Nat) (a b : Sig) (s : State), k ≤ 7 → r ≤ 1 → halyardRuns s = true → inStep s = true →
      tfind s.red.settling k = none → a.index = b.index → a.flags = 0 → b.flags = 0 →
      ∃ u, exec (.halyardSignatures t k r f [a] [b] false) s = .next u
        ∧ tget 0#32 u.red.cnt 6 = tget 0#32 s.red.cnt 6 + 1#32
        ∧ (a.value = b.value → tget {} u.red.runs a.index = { good := (tget {} s.red.runs a.index).good + 1 }
          ∧ (s.red.divergeFrames ≤ (tget {} s.red.runs a.index).good + 1 → u.red.diverged.contains a.index = false))
        ∧ (a.value ≠ b.value → tget {} u.red.runs a.index = { bad := (tget {} s.red.runs a.index).bad + 1 }
          ∧ tget 0#32 u.red.cnt 7 = tget 0#32 s.red.cnt 7 + 1#32
          ∧ (s.red.divergeFrames ≤ (tget {} s.red.runs a.index).bad + 1 → u.red.diverged.contains a.index = true)))
    ∧ (∀ (t k r f : Nat) (own peer : List Sig) (s : State), k ≤ 7 → r ≤ 1 → halyardRuns s = true →
      (∃ u, exec (.halyardSignatures t k r f own peer true) s = .next u ∧ u.red.runs = s.red.runs
        ∧ tget 0#32 u.red.cnt 5 = tget 0#32 s.red.cnt 5 + 1#32)
      ∧ (inStep s = true → ∃ u, exec (.signatureWaitExpired t k r f own) s = .next u
        ∧ u.red.missing = s.red.missing + own.length ∧ u.red.runs = s.red.runs ∧ u.red.diverged = s.red.diverged))
    ∧ (∀ (t c a f : Nat) (sigs : List Word) (s : State), c ≤ 63 → halyardRuns s = true →
      ∃ u, exec (.halyardProtSig t c a f sigs false) s = .next u ∧ (compOf u c).peerSig = some (f, a, sigs)
        ∧ (compOf u c).watch = (compOf s c).watch ∧ u.mode = s.mode)
    ∧ (∀ (t n o : Nat) (s : State), halyardRuns s = true →
      ((s.red.resync.map (fun x => x.source && x.loaded)).getD false = true →
        exec (.halyardBulkRequest t 11 n o false) s = .next (sendHalyard 11 (beBytes 4 o) (heardControl (advance t s))))
      ∧ (inStep s = true → exec (.halyardBulkRequest t 12 n o false) s = .next (sendObject n o (heardControl (advance t s)))))
    ∧ (∀ (t n o : Nat) (data : List Byte) (v : Version) (s : State), n ≤ 2046 → halyardRuns s = true → inStep s = true →
      (objOf s n).filling = true → (objOf s n).cur = some v → v.zone ≤ 7 → (zoneOf s v.zone).defined = true →
      zoneBroken (zoneOf s v.zone) = false → (zoneOf s v.zone).order ≤ 2 → memWf 0#8 s.fst.mem = true →
      v.first * 65536 + v.length ≤ (zoneOf s v.zone).units * 65536 →
      (o + data.length < v.length → ∃ u, exec (.halyardObjectFill t n o data false) s = .next u
        ∧ versionBytes u v o data.length = data ∧ (objOf u n).filling = true)
      ∧ (o + data.length = v.length → ∃ u, exec (.halyardObjectFill t n o data false) s = .next u
        ∧ versionBytes u v o data.length = data
        ∧ (crc32 (versionBytes u v 0 v.length) = BitVec.ofNat 32 v.crc →
          zoneBad u v.zone (v.first * 65536) v.length = [] → (objOf u n).filling = false)))
    ∧ (∀ (t k : Nat) (s : State), k ≤ 7 → follows s = true → ∃ u, exec (.planePhaseDiverge t k) s = .next u
        ∧ u.red.link ≠ .inStep)
    ∧ (∀ (t k a : Nat) (s : State), k ≤ 7 → tfind s.red.settling k = some a → a ≤ max s.clock.clk t →
      ∃ u, exec (.settlingEnd t k) s = .next u ∧ tfind u.red.settling k = none
        ∧ (∀ j, j ≠ k → tfind u.red.settling j = tfind s.red.settling j))

/-- R493 to R501 and R504, R28 and R29, Table 15.9: the commands of the safety monitor pair and what its mechanisms
do. -/
def Obligations.SafetyMonitorReactsAndClears : Prop :=
  (∀ (t : Nat) (c : HostCmd) (s : State), accepted .safStatus refuseSafStatus t c s = true → 
      exec (.safStatus t c) s = .next (answered .safStatus c .ok (wordBytes (regSafStatus s) ++ wordBytes (regSafReact s) ++ wordBytes (regSafCfg s)
        ++ (List.range 8).flatMap (fun i => wordBytes (tget 0#32 s.saf.escCnt i))
        ++ (List.range 64).flatMap (fun k => wordBytes (regProtStatus s k))) (begun .safStatus t c s)))
    ∧ (∀ (t : Nat) (c : HostCmd) (s : State), accepted .safClear refuseSafClear t c s = true → 
      ∃ u, exec (.safClear t c) s = .next u ∧ (u8 c.params 0 = 1 → u.saf.chipFault = false ∧ u.saf.yielded = false)
        ∧ (u8 c.params 0 = 0 → u.saf.chipFault = s.saf.chipFault)
        ∧ (s.mode = .safe → u.saf.react = 0 ∧ u.saf.reacted = false ∧ u.saf.pins = .toggling ∧ u.saf.gateOpen = true
          ∧ u.mode ≠ .safe)
        ∧ (s.mode ≠ .safe → u.saf.react = s.saf.react ∧ u.saf.pins = s.saf.pins ∧ u.mode = s.mode))
    ∧ (∀ (t : Nat) (c : HostCmd) (s : State), accepted .safConfig refuseSafConfig t c s = true → 
      ∃ u, exec (.safConfig t c) s = .next u ∧ u.saf.faultYield = (u32 c.params 0).testBit 0 ∧ u.saf.stallAction = (u32 c.params 0).testBit 1
        ∧ u.saf.pins = s.saf.pins ∧ u.saf.react = s.saf.react)
    ∧ (∀ (t : Nat) (s : State), coresRun s = true → ∃ u, exec (.toggleGateRefresh t) s = .next u
        ∧ u.saf.gateAt = some (max s.clock.clk t) ∧ u.saf.pins = s.saf.pins)
    ∧ (∀ (t a : Nat) (s : State), s.saf.gateAt = some a → s.saf.gateOpen = true → safetyRuns s = true →
      a + 2000000 ≤ max s.clock.clk t → s.mode ≠ .boot → s.mode ≠ .retain →
      ∃ u, exec (.gateExpired t) s = .next u ∧ u.saf.gateOpen = false ∧ u.saf.react.testBit 3 = true ∧ u.saf.pins = .high ∧ u.mode = .safe)
    ∧ (∀ (t : Nat) (p a b : Bool) (s : State), coresRun s = true → s.saf.disagree.length = 2 →
      (drivenLevel s p 0 = a → drivenLevel s p 1 = b → ∃ u, exec (.safePinReadback t p a b) s = .next u
        ∧ u.saf.disagree = [0, 0] ∧ u.saf.pins = s.saf.pins ∧ u.mode = s.mode)
      ∧ (drivenLevel s p 0 ≠ a → drivenLevel s p 1 = b → s.saf.disagree.getD 0 0 < 2 →
        ∃ u, exec (.safePinReadback t p a b) s = .next u
          ∧ u.saf.disagree = [s.saf.disagree.getD 0 0 + 1, 0] ∧ u.saf.pins = s.saf.pins ∧ u.mode = s.mode)
      ∧ ((drivenLevel s p 0 ≠ a ∧ s.saf.disagree.getD 0 0 = 2) ∨ (drivenLevel s p 1 ≠ b ∧ s.saf.disagree.getD 1 0 = 2) →
        s.mode ≠ .boot → s.mode ≠ .retain → ∃ u, exec (.safePinReadback t p a b) s = .next u ∧ u.saf.react.testBit 4 = true ∧ u.saf.pins = .high ∧ u.mode = .safe))
    ∧ (∀ (t n : Nat) (s : State), coresRun s = true → s.mode ≠ .boot → s.mode ≠ .retain →
      ∃ u, exec (.lockstepFail t n) s = .next u ∧ u.saf.held = true ∧ u.saf.lockstep = true ∧ u.saf.react.testBit 1 = true
        ∧ tget 0#32 u.saf.escCnt 6 = tget 0#32 s.saf.escCnt 6 + 1#32 ∧ u.saf.pins = .high ∧ u.mode = .safe)
    ∧ (∀ (t : Nat) (f x : Bool) (s : State), coresRun s = true →
      ((f && !x) = true → ∃ u, exec (.comparatorSelfTest t f x) s = .next u ∧ u.saf.passes = s.saf.passes + 1
        ∧ u.saf.testFailed = false ∧ u.saf.pins = s.saf.pins ∧ u.mode = s.mode)
      ∧ ((f && !x) = false → s.mode ≠ .boot → s.mode ≠ .retain → ∃ u, exec (.comparatorSelfTest t f x) s = .next u ∧ u.saf.passes = 0
        ∧ u.saf.testFailed = true ∧ u.saf.selftest = true ∧ u.saf.react.testBit 2 = true ∧ u.saf.pins = .high ∧ u.mode = .safe))
    ∧ (∀ (t : Nat) (f x : Bool) (s : State), safetyRuns s = true → s.saf.held = true →
      ((f && !x) = true → ∃ u, exec (.safetyCoreReloadDone t f x) s = .next u ∧ u.saf.held = false
        ∧ u.saf.passes = s.saf.passes + 1 ∧ tget 0 u.ctl.reloads 6 = min 255 (tget 0 s.ctl.reloads 6 + 1))
      ∧ ((f && !x) = false → s.mode ≠ .boot → s.mode ≠ .retain → ∃ u, exec (.safetyCoreReloadDone t f x) s = .next u ∧ u.saf.held = false
        ∧ u.saf.testFailed = true ∧ u.saf.pins = .high ∧ u.mode = .safe))
    ∧ (∀ (t p : Nat) (s : State), p ≤ 5 → coresRun s = true → s.saf.stalled.contains p = false →
      (s.saf.stallAction = false → ∃ u, exec (.procStall t p) s = .next u ∧ u.saf.stalled = s.saf.stalled ++ [p]
        ∧ u.saf.chipFault = true ∧ tget 0#32 u.saf.escCnt 4 = tget 0#32 s.saf.escCnt 4 + 1#32)
      ∧ (s.saf.stallAction = true → ∃ u, exec (.procStall t p) s = .next u ∧ u.mode = .boot))
    ∧ (∀ (t n d : Nat) (s : State), n ≤ 4 → coresRun s = true →
      (110 < d → s.saf.overTemp.contains n = false → ∃ u, exec (.overTemp t n d) s = .next u
        ∧ u.saf.overTemp = s.saf.overTemp ++ [n] ∧ u.saf.chipFault = true)
      ∧ (d < 105 → s.saf.overTemp.contains n = true → ∃ u, exec (.overTemp t n d) s = .next u
        ∧ u.saf.overTemp = s.saf.overTemp.filter (fun x => x != n) ∧ u.saf.chipFault = s.saf.chipFault))
    ∧ (∀ (t i : Nat) (s : State), i ≤ 261 → clockMeasured s i = true → s.saf.clocksLost.contains i = false →
      (i ≠ 258 → coresRun s = true → ∃ u, exec (.islandClockLost t i) s = .next u
        ∧ u.saf.clocksLost = s.saf.clocksLost ++ [i] ∧ u.saf.chipFault = true)
      ∧ (i = 258 → safetyRuns s = true → s.mode ≠ .boot → s.mode ≠ .retain → ∃ u, exec (.islandClockLost t i) s = .next u
        ∧ u.saf.clocksLost = s.saf.clocksLost ++ [i] ∧ u.saf.react.testBit 6 = true ∧ u.saf.pins = .high ∧ u.mode = .safe))
    ∧ (∀ (t i : Nat) (s : State), i ≤ 260 → s.saf.clocksLost.contains i = true →
      ∃ u, exec (.islandClockRestored t i) s = .next u ∧ u.saf.clocksLost = s.saf.clocksLost.filter (fun x => x != i)
        ∧ (i = 258 → u.saf.clocksOkSince = max s.clock.clk t))
    ∧ (∀ (t : Nat) (s : State), s.saf.supervisorLost = true → ∃ u, exec (.islandClockRestored t 261) s = .next u
        ∧ u.saf.supervisorLost = false ∧ u.saf.clocksOkSince = max s.clock.clk t)
    ∧ (∀ (t f : Nat) (s : State), coresRun s = true → s.saf.supervisorLost = false → f < 90000 ∨ 110000 < f → s.mode ≠ .boot → s.mode ≠ .retain →
      ∃ u, exec (.supervisorClock t f) s = .next u ∧ u.saf.supervisorLost = true ∧ u.saf.react.testBit 5 = true ∧ u.saf.pins = .high ∧ u.mode = .safe)

/-- Table 15.5 with R502 to R504, R519, R520, R534 and R535. -/
def Obligations.ParityFailuresAreContained : Prop :=
  (∀ (t i : Nat) (s : State), s.mode ≠ .boot → s.mode ≠ .retain →
      (i ≤ 1023 → s.saf.isolated.contains i = false → s.saf.reloading.contains i = false →
        s.saf.restarting.contains (i / 16) = false → ∃ u, exec (.contextParityConfirm t 0 i) s = .next u
          ∧ u.saf.reloading = s.saf.reloading ++ [i] ∧ tget 0#32 u.saf.escCnt 0 = tget 0#32 s.saf.escCnt 0 + 1#32)
      ∧ (i ≤ 63 → (within (advance t s) 1000000000 (tget [] s.saf.blockFails i)).length < 31 →
        ∃ u, exec (.contextParityConfirm t 1 i) s = .next u ∧ u.saf.restarting = s.saf.restarting
          ∧ tget [] u.saf.blockFails i = max s.clock.clk t :: within (advance t s) 1000000000 (tget [] s.saf.blockFails i))
      ∧ (i ≤ 63 → 31 ≤ (within (advance t s) 1000000000 (tget [] s.saf.blockFails i)).length →
        ∃ u, exec (.contextParityConfirm t 1 i) s = .next u ∧ u.saf.restarting.contains i = true)
      ∧ (i ≤ 3 → (within (advance t s) 1000000000 (tget [] s.saf.arbFails i)).length < 99 →
        ∃ u, exec (.contextParityConfirm t 2 i) s = .next u
          ∧ tget [] u.saf.arbFails i = max s.clock.clk t :: within (advance t s) 1000000000 (tget [] s.saf.arbFails i))
      ∧ (i ≤ 3 → 99 ≤ (within (advance t s) 1000000000 (tget [] s.saf.arbFails i)).length →
        ∃ u, exec (.contextParityConfirm t 2 i) s = .next u ∧ u.saf.stewardReload.contains i = true ∧ u.saf.chipFault = true)
      ∧ (i ≤ 261 → ∃ u, exec (.contextParityConfirm t 3 i) s = .next u ∧ u.saf.chipFault = true))
    ∧ (∀ (t n : Nat) (s : State), n ≤ 1023 → s.saf.reloading.contains n = true →
      ((within (advance t s) 600000000000 (tget [] s.saf.cellReloads n)).length < 3 →
        ∃ u, exec (.contextReloadDone t n) s = .next u ∧ u.saf.reloading = s.saf.reloading.filter (fun c => c != n)
          ∧ u.saf.isolated = s.saf.isolated)
      ∧ (3 ≤ (within (advance t s) 600000000000 (tget [] s.saf.cellReloads n)).length →
        ∃ u, exec (.contextReloadDone t n) s = .next u ∧ u.saf.reloading.contains n = false
          ∧ (u.saf.isolated.contains n || u.saf.restarting.contains (n / 16)) = true))
    ∧ (∀ (t b : Nat) (s : State), b ≤ 63 → s.saf.restarting.contains b = true →
      ∃ u, exec (.blockRestartDone t b) s = .next u ∧ u.saf.restarting = s.saf.restarting.filter (fun x => x != b)
        ∧ (∀ n, n / 16 = b → ∀ x ∈ (srcOf u n).bufs, x.read = true)
        ∧ (∀ n, n / 16 ≠ b → srcOf u n = srcOf s n))
    ∧ (∀ (t r : Nat) (s : State), r ≤ 3 → s.saf.stewardReload.contains r = true →
      ∃ u, exec (.stewardReloadDone t r) s = .next u
        ∧ u.saf.stewardReload = s.saf.stewardReload.filter (fun x => x != r)
        ∧ u.saf.stalled.contains (2 + r) = false ∧ u.ctl.halted.contains (2 + r) = false
        ∧ tget 0 u.ctl.reloads (2 + r) = min 255 (tget 0 s.ctl.reloads (2 + r) + 1))
    ∧ (∀ (t p : Nat) (s : State), p ≤ 5 → s.ctl.halted.contains p = false → tget 0 s.start.procs p = 2 →
      (∃ u, exec (.privateSramParity t p) s = .next u ∧ u.ctl.halted = s.ctl.halted ++ [p]
        ∧ (2 ≤ p → u.saf.stewardReload.contains (p - 2) = true) ∧ (p < 2 → u.saf = s.saf))
      ∧ (∃ u, exec (.backgroundSramCheck t (some p) none) s = .next u ∧ u.ctl.halted = s.ctl.halted ++ [p]))
    ∧ (∀ (t : Nat) (s : State), coresRun s = true → s.mode ≠ .boot → s.mode ≠ .retain →
      ∃ u, exec (.privateSramParity t 6) s = .next u ∧ u.saf.held = true ∧ u.saf.lockstep = true ∧ u.saf.pins = .high ∧ u.mode = .safe)
    ∧ (∀ (t k a b : Nat) (s : State), s.start.procs ≠ [] →
      (∃ u, exec (.controlSramParity t (.replyCache k)) s = .next u ∧ u.saf.chipFault = true ∧ tfind u.host.cache k = none
        ∧ tget 0#32 u.ctl.cnt 7 = tget 0#32 s.ctl.cnt 7 + 1#32)
      ∧ (∃ u, exec (.controlSramParity t (.keptRecord k)) s = .next u ∧ u.saf.chipFault = true
        ∧ ∀ r ∈ u.red.kept, r.tick ≠ k)
      ∧ (∃ u, exec (.controlSramParity t (.reassembly k)) s = .next u ∧ u.saf.chipFault = true
        ∧ ∀ r ∈ u.host.reasm, r.session ≠ k)
      ∧ (∀ op c, s.host.queue = [(op, c)] → c.session = a → c.seq = b →
        ∃ u, exec (.controlSramParity t (.queued a b)) s = .next u ∧ u.saf.chipFault = true ∧ u.host.queue = [])
      ∧ (∃ u, exec (.controlSramParity t (.contextCopy k false)) s = .next u ∧ u.saf.chipFault = true
        ∧ u.saf.isolated = s.saf.isolated)
      ∧ (∃ u, exec (.controlSramParity t .configTable) s = .next u ∧ u.saf.chipFault = true)
      ∧ (∃ u, exec (.backgroundSramCheck t none (some .configTable)) s = .next u ∧ u.saf.chipFault = true
        ∧ tget 0#32 u.ctl.cnt 7 = tget 0#32 s.ctl.cnt 7 + 1#32))
    ∧ (∀ (t : Nat) (s : State), s.ctl.halted.contains 1 = true → ∃ u, exec (.cueProcessorReloadDone t) s = .next u
        ∧ u.ctl.halted.contains 1 = false ∧ u.saf.stalled.contains 1 = false ∧ u.cue.insts = [] ∧ u.cue.progs = s.cue.progs
        ∧ tget 0 u.ctl.reloads 1 = min 255 (tget 0 s.ctl.reloads 1 + 1))

/-- R523 to R526 and R529 with the counts of Table 16.7. -/
def Obligations.BusTransfersFollowTheRules : Prop :=
  (∀ (t p tag : Nat) (x : Transfer) (s : State), p ≤ 6 → transfers s p = [] → s.ctl.portReset.contains p = false →
      x.tag ≤ 31 → x.stream ≤ 3 → 1 ≤ x.beats → x.beats ≤ 16 → ownAnswer s p x = none → tag ≠ x.tag →
      ∃ u, exec (.busTransferResponse t p tag 0 false [(p, x)]) s = .next u
        ∧ transfers u p = [{ x with since := max s.clock.clk t, answered := none }] ∧ u.ctl.cnt = s.ctl.cnt)
    ∧ (∀ (t p a : Nat) (x : Transfer) (s : State), p ≤ 6 → transfers s p = [x] → x.answered = none →
      s.ctl.portReset.contains p = false →
      (a ≤ 2 → ∃ u, exec (.busTransferResponse t p x.tag a false []) s = .next u ∧ transfers u p = []
        ∧ tget 0#32 u.ctl.cnt 0 = tget 0#32 s.ctl.cnt 0 + (if a = 1 then 1#32 else 0#32)
        ∧ tget 0#32 u.ctl.cnt 1 = tget 0#32 s.ctl.cnt 1 + (if a = 2 then 1#32 else 0#32))
      ∧ (x.write = false → ∃ u, exec (.busTransferResponse t p x.tag a true []) s = .next u ∧ transfers u p = []
        ∧ tget 0#32 u.ctl.cnt 5 = tget 0#32 s.ctl.cnt 5 + 1#32)
      ∧ (x.since + 10000 ≤ max s.clock.clk t → ∃ u, exec (.targetTimeout t p x.tag []) s = .next u ∧ transfers u p = []
        ∧ tget 0#32 u.ctl.cnt 2 = tget 0#32 s.ctl.cnt 2 + 1#32 ∧ tget 0#32 u.ctl.cnt 1 = tget 0#32 s.ctl.cnt 1 + 1#32))
    ∧ (∀ (t p a : Nat) (x y : Transfer) (s : State), p ≤ 6 → transfers s p = [x, y] → x.answered = none → y.answered = none →
      x.tag ≠ y.tag → s.ctl.portReset.contains p = false → a ≤ 2 →
      ∃ u, exec (.busTransferResponse t p y.tag a false []) s = .next u
        ∧ transfers u p = (if x.stream = y.stream then [x, { y with answered := some a }] else [x]))
    ∧ (∀ (t p n : Nat) (s : State), p ≤ 6 →
      (masterResets s p = true → s.ctl.portReset.contains p = false → ∃ u, exec (.masterPortReset t p n []) s = .next u
        ∧ u.ctl.portReset = s.ctl.portReset ++ [p] ∧ tget 0#32 u.ctl.cnt 4 = tget 0#32 s.ctl.cnt 4 + w32 n)
      ∧ (s.ctl.portReset.contains p = true → ∃ u, exec (.portRetireDone t p) s = .next u ∧ transfers u p = []
        ∧ u.ctl.portReset.contains p = false ∧ tget 0#32 u.ctl.cnt 3 = tget 0#32 s.ctl.cnt 3 + w32 (transfers s p).length
        ∧ (∀ st a, s.ctl.lockedPair = some (p, st, a) → u.ctl.lockedPair = none)))
    ∧ (∀ (t n p st a : Nat) (s : State), s.ctl.lockedPair = some (p, st, a) → a + 1000 ≤ max s.clock.clk t →
      ∃ u, exec (.lockedPairTimeout t n []) s = .next u ∧ u.ctl.lockedPair = none ∧ u.ctl.out = s.ctl.out
        ∧ tget 0#32 u.ctl.cnt 6 = tget 0#32 s.ctl.cnt 6 + w32 n)

/-- R508 to R512, Tables 15.7 and 15.9. -/
def Obligations.RecorderKeepsEvents : Prop :=
  (∀ (t : Nat) (c : HostCmd) (s : State), accepted .evtRead refuseEvtRead t c s = true → 
      ∃ sel u, exec (.evtRead t c) s = .next (answered .evtRead c .ok
        (beBytes 4 s.evt.generation ++ beBytes 4 ((s.evt.first.getLast?.map (·.seq)).getD 0)
          ++ beBytes 4 (((s.evt.first ++ s.evt.circ).head?.map (·.seq)).getD 0) ++ beBytes 4 (evtNewest s)
          ++ beBytes 2 sel.length
          ++ beBytes 2 (bit (s.evt.written && decide (u32 c.params 4 ≤ evtNewest s)
            && !(s.evt.first ++ s.evt.circ).any (fun h => h.seq == u32 c.params 4)))
          ++ sel.flatMap (fun h => (heldWords s.evt h).flatMap wordBytes)) u)
        ∧ sel <+: (areaRecords s.evt (u8 c.params 0)).filter (fun h => decide (u32 c.params 4 ≤ h.seq))
        ∧ sel.length ≤ u16 c.params 2 ∧ sel.foldl (fun a h => a + 4 * h.len) 0 ≤ 262144
        ∧ u = onEvt (fun r => { r with cnt := bumpBy r.cnt 3 (sel.foldl (fun a h => a + heldBad s.evt h) 0) })
            (begun .evtRead t c s))
    ∧ (∀ (t : Nat) (c : HostCmd) (s : State), accepted .evtInfo refuseEvtInfo t c s = true → 
      exec (.evtInfo t c) s = .next (answered .evtInfo c .ok (wordBytes (regEvtState s) ++ beBytes 4 s.evt.generation ++ beBytes 4 (evtNewest s)
        ++ beBytes 4 (evtOldest s) ++ (List.range 4).flatMap (fun i => wordBytes (tget 0#32 s.evt.cnt i))) (begun .evtInfo t c s)))
    ∧ (∀ (t : Nat) (c : HostCmd) (s : State), accepted .evtRateSet refuseEvtRateSet t c s = true → 
      ∃ u, exec (.evtRateSet t c) s = .next u ∧ (tget {} u.evt.buckets (u16 c.params 0)).rate = u16 c.params 4
        ∧ (tget {} u.evt.buckets (u16 c.params 0)).burst = u8 c.params 2
        ∧ (tget {} u.evt.buckets (u16 c.params 0)).credit ≤ u8 c.params 2 * 1000000000
        ∧ (∀ k, k ≠ u16 c.params 0 → tget {} u.evt.buckets k = tget {} s.evt.buckets k)
        ∧ u.evt.nextSeq = s.evt.nextSeq)
    ∧ (∀ (t : Nat) (x : Ev) (xs : List Ev) (fs : List Nat) (s : State), s.evt.pending = x :: xs → s.evt.lost = 0 →
      (refillBucket (advance t s) x.code).rate ≠ 0 → 1000000000 ≤ (refillBucket (advance t s) x.code).credit →
      ∃ u, exec (.eventRecordWrite t fs) s = .next u ∧ u.evt.pending = xs ∧ u.evt.nextSeq = (s.evt.nextSeq + 1) % 0x100000000
        ∧ tget 0#32 u.evt.cnt 2 = tget 0#32 s.evt.cnt 2 + 1#32
        ∧ (s.evt.firstFull = false → s.evt.firstNext + (5 + x.payload.length) ≤ 16384 →
          u.evt.first = s.evt.first ++ [⟨s.evt.nextSeq, s.evt.firstNext, 5 + x.payload.length⟩] ∧ u.evt.circ = s.evt.circ
          ∧ u.evt.firstNext = s.evt.firstNext + (5 + x.payload.length)
          ∧ (fs = [] → heldWords u.evt ⟨s.evt.nextSeq, s.evt.firstNext, 5 + x.payload.length⟩
            = recordWords x s.evt.nextSeq (refillBucket (advance t s) x.code).suppressed))
        ∧ (s.evt.firstFull = true ∨ 16384 < s.evt.firstNext + (5 + x.payload.length) →
          u.evt.first = s.evt.first ∧ u.evt.firstFull = true
          ∧ u.evt.circ.getLast? = some ⟨s.evt.nextSeq, s.evt.circNext, 5 + x.payload.length⟩))
    ∧ (∀ (t : Nat) (x : Ev) (xs : List Ev) (fs : List Nat) (s : State), s.evt.pending = x :: xs → s.evt.lost = 0 →
      (refillBucket (advance t s) x.code).rate = 0 ∨ (refillBucket (advance t s) x.code).credit < 1000000000 →
      ∃ u, exec (.eventRecordWrite t fs) s = .next u ∧ u.evt.pending = xs ∧ u.evt.nextSeq = s.evt.nextSeq
        ∧ u.evt.words = s.evt.words ∧ tget 0#32 u.evt.cnt 0 = tget 0#32 s.evt.cnt 0 + 1#32
        ∧ (tget {} u.evt.buckets x.code).suppressed = (tget {} s.evt.buckets x.code).suppressed + 1)

/-- R541 to R549, R284 and Table 17.4. -/
def Obligations.PowerCommandsAndSleepEntry : Prop :=
  (∀ (t : Nat) (c : HostCmd) (s : State), accepted .pwrStatus refusePwrStatus t c s = true → 
      exec (.pwrStatus t c) s = .next (answered .pwrStatus c .ok ([regPwrState (begun .pwrStatus t c s), regPwrWake (begun .pwrStatus t c s), regPwrAlarm (begun .pwrStatus t c s), regWakeTime (begun .pwrStatus t c s), regSeqStatus (begun .pwrStatus t c s), regBootStatus (begun .pwrStatus t c s),
        regStartTime (begun .pwrStatus t c s)].flatMap wordBytes) (begun .pwrStatus t c s)))
    ∧ (∀ (t : Nat) (c : HostCmd) (s : State), accepted .pwrLevelSet refusePwrLevelSet t c s = true → 
      ∃ u, exec (.pwrLevelSet t c) s = .next u ∧ (u8 c.params 0 = s.pwr.level → u.pwr = s.pwr ∧ u.pins.coreVsel = s.pins.coreVsel)
        ∧ (u8 c.params 0 ≠ s.pwr.level → u.pwr.changing = true ∧ u.pwr.target = u8 c.params 0 ∧ u.pwr.switched = false
          ∧ u.pwr.levelCmd = some c ∧ u.pwr.changeAt = max s.clock.clk t ∧ u.pwr.level = s.pwr.level
          ∧ u.pins.coreVsel = (if u8 c.params 0 < s.pwr.level then u8 c.params 0 else s.pins.coreVsel)))
    ∧ (∀ (t : Nat) (s : State), s.pwr.changing = true → s.pwr.switched = false →
      (s.pwr.target < s.pwr.level → s.pwr.changeAt + 2000000 ≤ max s.clock.clk t →
        ∃ u, exec (.levelClockSwitch t) s = .next u ∧ u.pwr.switched = true ∧ u.pins.coreVsel = s.pins.coreVsel)
      ∧ (s.pwr.level ≤ s.pwr.target → ∃ u, exec (.levelClockSwitch t) s = .next u ∧ u.pwr.switched = true
        ∧ u.pins.coreVsel = s.pwr.target))
    ∧ (∀ (t : Nat) (s : State), s.pwr.changing = true → s.pwr.switched = true →
      ∃ u, exec (.levelChangeDone t) s = .next u ∧ u.pwr.level = s.pwr.target ∧ u.pwr.changing = false
        ∧ u.pwr.levelCmd = none)
    ∧ (∀ (t : Nat) (c : HostCmd) (s : State), accepted .pwrSleep refusePwrSleep t c s = true → 
      ∃ u, exec (.pwrSleep t c) s = .next u ∧ (u8 c.params 0 = 0 → u.pwr.exiting = true ∧ u.pwr.wakeAt = max s.clock.clk t ∧ u.pwr.sleep = s.pwr.sleep
          ∧ u.mode = s.mode)
        ∧ (u8 c.params 0 = 1 → inS1 s = true → u.pwr = s.pwr ∧ u.mode = s.mode)
        ∧ (u8 c.params 0 = 1 → inS1 s = false → u.pwr.sleep = 1 ∧ u.pwr.entering = true ∧ u.aon.wakeSeen = 0 ∧ u.mode = s.mode)
        ∧ (2 ≤ u8 c.params 0 → u.pwr.sleep = u8 c.params 0 ∧ u.pwr.entering = true ∧ u.pwr.imageWritten = false
          ∧ u.pwr.fromMode = s.mode ∧ u.pwr.alarmArg = u32 c.params 4 ∧ u.mode = .retain ∧ u.xpt.queue = []
          ∧ u.cue.insts = []))
    ∧ (∀ (t : Nat) (fs : List Nat) (s : State), s.pwr.entering = true → s.pwr.sleep = 2 → s.mode = .retain →
      s.pwr.imageWritten = false → ∃ u, exec (.stateImageWrite t fs) s = .next u ∧ u.pwr.imageWritten = true
        ∧ u.aon.retainCount = (s.aon.retainCount + 1) % 0x10000 ∧ u.aon.retainChecked = false
        ∧ (∃ r, u.aon.retainStore = some r ∧ r.count = (s.aon.retainCount + 1) % 0x10000 ∧ r.mask = s.aon.retainMask
          ∧ r.flagged = fs.filter (fun g => retainedPc s (g / 32)))
        ∧ (∀ k f, imagePlace s s.pwr.imageUnits = some (k, f) → ∃ v, (objOf u 2047).cur = some v ∧ v.kind = 5 ∧ v.zone = k
          ∧ v.first = f ∧ v.units = s.pwr.imageUnits))
    ∧ (∀ (t : Nat) (s : State), s.pwr.entering = true → (s.pwr.sleep = 2 → s.pwr.imageWritten = true) →
      ∃ u, exec (.sleepCommitPoint t) s = .next u ∧ u.pwr.committed = true ∧ u.pwr.entering = false
        ∧ u.pwr.sleep = s.pwr.sleep ∧ u.pwr.enteredAt = max s.clock.clk t ∧ u.aon.timeRec.isSome = true
        ∧ (s.pwr.sleep = 1 → u.mode = s.mode ∧ u.xpt.queue = s.xpt.queue)
        ∧ (2 ≤ s.pwr.sleep → u.mode = .retain ∧ u.aon.alarm = s.pwr.alarmArg ∧ u.xpt.queue = [] ∧ u.flow.src = []
          ∧ u.pins.ready = false)
        ∧ (s.pwr.sleep = 2 → u.image = s.image ∧ u.fst.zones = s.fst.zones) ∧ (s.pwr.sleep = 3 → u.image = none ∧ u.fst.objs = []))
    ∧ (∀ (t : Nat) (s : State), s.pwr.committed = true → 2 ≤ s.pwr.sleep → s.pwr.enLowAt = none →
      ∃ u a, exec (.sleepEnableDeassert t) s = .next u ∧ u.pwr.enLowAt = some a ∧ max s.clock.clk t ≤ a
        ∧ u.seq.en = [false, false, false, s.pwr.sleep == 2 && s.seq.en.getD 3 false, false])
    ∧ (∀ (t m : Nat) (s : State), s.mode = .retain → s.pwr.entering = true →
      (1 ≤ m → m ≤ 7 → s.pwr.fromMode.maySleep = true → ∃ u, exec (.sleepAbandoned t (some m)) s = .next u
        ∧ u.mode = .safe ∧ u.pwr.entering = false ∧ u.pwr.sleep = 0 ∧ u.saf.pins = .high)
      ∧ (∃ u, exec (.sleepAbandoned t none) s = .next u ∧ u.mode = .boot ∧ u.aon.retainStore = none))

/-- R285, R286 and R549 to R556. -/
def Obligations.WakingTakesEffect : Prop :=
  (∀ (t : Nat) (b : Bool) (s : State), ∃ u, exec (.wakeNLow t b) s = .next u ∧ u.pins.wakeLow = b
        ∧ (b = true → s.pwr.sleep ≠ 0 → u.aon.wakeSeen.testBit 0 = true)
        ∧ (b = true → s.pwr.entering = true → s.pwr.sleep ≠ 0 → u.aon.wakeSeen.testBit 1 = true)
        ∧ (b = true → inS1 s = true → u.pwr.exiting = true) ∧ u.mode = s.mode)
    ∧ (∀ (t : Nat) (s : State), s.aon.alarm ≠ 0 → 2 ≤ s.pwr.sleep → s.pwr.committed = true →
      s.pwr.enteredAt + s.aon.alarm * (if s.aon.onRing || s.aon.ringUsed then 950000000 else 1000000000) ≤ max s.clock.clk t →
      ∃ u, exec (.wakeAlarm t) s = .next u ∧ u.aon.wakeSeen.testBit 2 = true ∧ u.mode = s.mode)
    ∧ (∀ (t a : Nat) (s : State), s.pwr.enLowAt = some a → s.seq.en.length = 5 → s.aon.wakeSeen ≠ 0 → a + 10000000 ≤ max s.clock.clk t →
      (s.pwr.sleep = 2 → ∃ u, exec (.wakeStart t) s = .next u ∧ u.mode = s.mode ∧ u.start.wake = true ∧ u.pwr.sleep = 0
        ∧ u.aon.wakeLast = 2 ∧ u.aon.wakeCause = s.aon.wakeSeen ∧ u.aon.wakeSeen = 0 ∧ u.seq.en.getD 0 false = true)
      ∧ (s.pwr.sleep = 3 → ∃ u, exec (.wakeStart t) s = .next u ∧ u.mode = .boot ∧ u.aon.lastTrans = 18
        ∧ u.aon.wakeLast = 3 ∧ u.aon.wakeCause = s.aon.wakeSeen ∧ u.pwr.sleep = 0 ∧ u.seq.en.getD 0 false = true))
    ∧ (∀ (t : Nat) (s : State), inS1 s = true → s.pwr.exiting = true → ∃ u, exec (.s1Exit t) s = .next u ∧ u.pwr.sleep = 0
        ∧ u.pwr.exiting = false ∧ u.aon.wakeLast = 1 ∧ u.aon.wakeCause = s.aon.wakeSeen ∧ u.aon.wakeSeen = 0)
    ∧ (∀ (t : Nat) (s : State), (s.seq.aonUp = true → s.aon.onRing = false → ∃ u, exec (.aonXtalLost t) s = .next u
        ∧ u.aon.onRing = true ∧ u.aon.ringUsed = true ∧ u.mode = s.mode)
      ∧ (∃ u, exec (.aonXtalReturn t) s = .next u ∧ u.aon.onRing = false ∧ u.aon.ringUsed = s.aon.ringUsed))
    ∧ (∀ (t ms : Nat) (cs ds ss : List Nat) (r : Retention) (s : State), s.aon.retainStore = some r → s.mode = .calibrate →
      s.cal.scrub = false → s.cal.hbm = true → ∃ u, exec (.wakeScrubDone t cs ds ss ms) s = .next u ∧ u.cal.scrub = true
        ∧ u.aon.retainStore = none ∧ u.aon.retainChecked = true
        ∧ u.fst.lost = s.fst.lost ++ (retainedBanks s).filter (fun g => (bankCheck s r cs ds ss g).isSome)
        ∧ u.aon.retainLost = ((retainedBanks s).filter (fun g => (bankCheck s r cs ds ss g).isSome)).length)
    ∧ (∀ (t : Nat) (v : SavedState) (s : State), s.image = some v → s.mode = .calibrate → s.cal.scrub = true →
      s.cal.memory = true → s.cal.restored = false → ∃ u, exec (.stateImageRestore t) s = .next u ∧ u.image = none
        ∧ u.cal.restored = true ∧ u.pwr.level = v.level ∧ u.pins.coreVsel = v.level ∧ u.halWaitMs = v.halWaitMs
        ∧ u.host.locked = v.locked ∧ u.saf.faultYield = v.faultYield ∧ u.saf.stallAction = v.stallAction
        ∧ u.ctl.compatEn = v.compatEn ∧ u.red.divergeFrames = v.red.divergeFrames ∧ u.red.leaseSrc = v.red.leaseSrc
        ∧ u.fst.pageIdle = v.pageIdle ∧ u.cue.stallTicks = v.stallTicks ∧ u.xpt.tps = v.xpt.tps
        ∧ (∀ c, (compOf u c).active = (tget {} v.cmp.comps c).active)
        ∧ (∀ n, (tget {} u.aud.outs n).gain = (tget {} v.aud.outs n).gain))

/-- R11. That the VOID answer is counted is Table 16.7. -/
def Obligations.UndecodedAddressesReadZero : Prop :=
  (∀ (t : Nat) (c : HostCmd) (s : State), accepted .regRead refuseRegRead t c s = true → decodeReg s (u32 c.params 0) = none →
      exec (.regRead t c) s
        = .next (answered .regRead c .decodeZero (wordBytes 0#32) (busCount 0 1 (begun .regRead t c s))))
    ∧ (∀ (t : Nat) (c : HostCmd) (s : State), accepted .regWrite refuseRegWrite t c s = true → decodeReg s (u32 c.params 0) = none →
      exec (.regWrite t c) s
        = .next (answered .regWrite c .decodeZero [] (busCount 0 1 (begun .regWrite t c s))))
    ∧ (∀ (t m a v : Nat) (s : State), decodeReg s a = none → (readReg m a s).1 = 0#32 ∧ (readReg m a s).2.1 = .decodeZero
      ∧ (writeReg a v s).1 = .decodeZero ∧ exec (.registerWrite t a v) s = .next (busCount 0 1 (advance t s)))

/-- R37: the mode history of MODE shows the state from which T12 was taken. -/
def Obligations.ReactionAbandonsAnEntryIntoRetain : Prop :=
  (∀ (m : Nat) (cs : List Nat) (s : State), s.mode = .retain → s.pwr.entering = true → s.pwr.fromMode.maySleep = true →
      (reaction m cs s).pwr.entering = false ∧ (reaction m cs s).pwr.sleep = 0 ∧ (reaction m cs s).pwr.imageWritten = false
      ∧ (reaction m cs s).mode = .safe ∧ (reaction m cs s).aon.lastTrans = 12
      ∧ (reaction m cs s).aon.prevMode = s.pwr.fromMode.code)
    ∧ (∀ (t m : Nat) (s : State), s.mode = .retain → s.pwr.entering = true → s.pwr.fromMode.maySleep = true → 1 ≤ m → m ≤ 7 →
      ∃ u, exec (.sleepAbandoned t (some m)) s = .next u ∧ u.pwr.entering = false ∧ u.pwr.sleep = 0 ∧ u.mode = .safe
        ∧ u.aon.lastTrans = 12 ∧ u.aon.prevMode = s.pwr.fromMode.code)

/-- R498: the sensor readings are the operands of OVER_TEMP, whose times have passed when it happens. -/
def Obligations.OverTemperatureEscalatesAndClears : Prop :=
  (∀ (t n d : Nat) (s : State), n ≤ 4 → coresRun s = true → 110 < d → s.saf.overTemp.contains n = false →
      s.evt.running = true → s.evt.pending.length < 256 →
      ∃ u, exec (.overTemp t n d) s = .next u ∧ u.saf.overTemp = s.saf.overTemp ++ [n] ∧ u.saf.chipFault = true
        ∧ tget 0#32 u.saf.escCnt 4 = tget 0#32 s.saf.escCnt 4 + 1#32
        ∧ ∃ x ∈ u.evt.pending, x.code = 0xB050 ∧ x.sev = 4 ∧ x.payload = [pack8_16 n 1 d])
    ∧ (∀ (t n d : Nat) (s : State), n ≤ 4 → coresRun s = true → d < 105 → s.saf.overTemp.contains n = true →
      ((∀ k ∈ s.saf.overTemp, k = n) → s.evt.running = true → s.evt.pending.length < 256 →
        ∃ u, exec (.overTemp t n d) s = .next u ∧ u.saf.overTemp = []
          ∧ ∃ x, u.evt.pending = s.evt.pending ++ [x] ∧ x.code = 0xB050 ∧ x.payload = [pack8_16 n 0 d])
      ∧ (∀ k ∈ s.saf.overTemp, k ≠ n → ∃ u, exec (.overTemp t n d) s = .next u ∧ k ∈ u.saf.overTemp
        ∧ n ∉ u.saf.overTemp ∧ u.evt = s.evt))

/-- R571, but for the places in which these checks are used. -/
def Obligations.CrcsRunWithoutReflection : Prop :=
  (∀ (bs : List Byte) (b : Byte), ~~~ crc32 (bs ++ [b]) = [7, 6, 5, 4, 3, 2, 1, 0].foldl (fun (r : BitVec 32) i =>
      (r <<< 1) ^^^ (if r.msb != b.getLsbD i then 0x04C11DB7#32 else 0#32)) (~~~ crc32 bs))
    ∧ (∀ (bs : List Byte) (b : Byte), crc8 (bs ++ [b]) = [7, 6, 5, 4, 3, 2, 1, 0].foldl (fun (r : BitVec 8) i =>
      (r <<< 1) ^^^ (if r.msb != b.getLsbD i then 0x07#8 else 0#8)) (crc8 bs))
    ∧ crc32 [] = 0#32 ∧ crc8 [] = 0#8
    ∧ crc32 [0x31#8, 0x32#8, 0x33#8, 0x34#8, 0x35#8, 0x36#8, 0x37#8, 0x38#8, 0x39#8] = 0xFC891918#32
    ∧ crc8 [0x31#8, 0x32#8, 0x33#8, 0x34#8, 0x35#8, 0x36#8, 0x37#8, 0x38#8, 0x39#8] = 0xF4#8
end

