-- ==== Sys2Proof/Laws/Memory.lean ====
section
/-! SUPPORT. The laws of the byte memory: reading back what was written, and the canonical form kept by every operation. -/

-- The package is checked as one text; elaborating these proofs in order keeps the number of threads small.
set_option Elab.async false

namespace Sys2Proof.Machine

/-- Every cell lies at or above an address. -/
def memAbove (lo : Nat) (m : List Host.Cell) : Prop := ∀ c ∈ m, lo ≤ c.1

theorem memWf_cons {d : Byte} {a : Nat} {b : Byte} {r : List Host.Cell} :
    memWf d ((a, b) :: r) = true ↔ b ≠ d ∧ memAbove (a + 1) r ∧ memWf d r = true := by
  induction r generalizing a b with
  | nil => simp [memWf, memAbove]
  | cons c r ih =>
    obtain ⟨a', b'⟩ := c
    have h := ih (a := a') (b := b')
    rw [memWf]
    constructor
    · intro hw
      simp only [Bool.and_eq_true, decide_eq_true_eq] at hw
      obtain ⟨⟨hb, hlt⟩, hr⟩ := hw
      refine ⟨hb, ?_, hr⟩
      obtain ⟨-, hab, -⟩ := h.mp hr
      intro c hc
      rcases List.mem_cons.mp hc with rfl | hc
      · exact hlt
      · have := hab c hc
        omega
    · rintro ⟨hb, hab, hr⟩
      simp only [Bool.and_eq_true, decide_eq_true_eq]
      exact ⟨⟨hb, hab (a', b') (List.mem_cons_self ..)⟩, hr⟩

/-- A filtered memory stays canonical. -/
theorem memWf_filter {d : Byte} {m : List Host.Cell} (p : Host.Cell → Bool) (h : memWf d m = true) :
    memWf d (m.filter p) = true := by
  induction m with
  | nil => rfl
  | cons c r ih =>
    obtain ⟨a, b⟩ := c
    obtain ⟨hb, hab, hr⟩ := memWf_cons.mp h
    rw [List.filter_cons]
    split
    · exact memWf_cons.mpr ⟨hb, fun c hc => hab c (List.mem_filter.mp hc).1, ih hr⟩
    · exact ih hr

/-- Two canonical memories in a row, the first wholly below the second, are one. -/
theorem memWf_append {d : Byte} {m n : List Host.Cell} (hm : memWf d m = true) (hn : memWf d n = true)
    (h : ∀ c ∈ m, ∀ e ∈ n, c.1 < e.1) : memWf d (m ++ n) = true := by
  induction m with
  | nil => exact hn
  | cons c r ih =>
    obtain ⟨a, b⟩ := c
    obtain ⟨hb, hab, hr⟩ := memWf_cons.mp hm
    rw [List.cons_append]
    refine memWf_cons.mpr ⟨hb, ?_, ih hr (fun c hc => h c (List.mem_cons_of_mem _ hc))⟩
    intro c hc
    rcases List.mem_append.mp hc with hc | hc
    · exact hab c hc
    · exact h (a, b) (List.mem_cons_self ..) c hc

theorem runCells_range {d : Byte} (a : Nat) (xs : List Byte) :
    ∀ c ∈ runCells d a xs, a ≤ c.1 ∧ c.1 < a + xs.length := by
  induction xs generalizing a with
  | nil => simp [runCells]
  | cons x xs ih =>
    intro c hc
    rw [runCells] at hc
    rw [List.length_cons]
    split at hc
    · have := ih (a + 1) c hc
      omega
    · rcases List.mem_cons.mp hc with rfl | hc
      · simp
      · have := ih (a + 1) c hc
        omega

theorem runCells_wf {d : Byte} (a : Nat) (xs : List Byte) : memWf d (runCells d a xs) = true := by
  induction xs generalizing a with
  | nil => rfl
  | cons x xs ih =>
    rw [runCells]
    split
    · exact ih (a + 1)
    · exact memWf_cons.mpr ⟨‹_›, fun c hc => (runCells_range (a + 1) xs c hc).1, ih (a + 1)⟩

/-- Writing a run of bytes keeps the canonical form. -/
theorem memWriteList_wf {d : Byte} {m : List Host.Cell} (a : Nat) (xs : List Byte) (h : memWf d m = true) :
    memWf d (memWriteList d m a xs) = true := by
  rw [memWriteList]
  refine memWf_append (memWf_append (memWf_filter _ h) (runCells_wf a xs) ?_) (memWf_filter _ h) ?_
  · intro c hc e he
    have h1 := of_decide_eq_true (List.mem_filter.mp hc).2
    have h2 := runCells_range a xs e he
    omega
  · intro c hc e he
    have h2 := of_decide_eq_true (List.mem_filter.mp he).2
    rcases List.mem_append.mp hc with hc | hc
    · have h1 := of_decide_eq_true (List.mem_filter.mp hc).2
      omega
    · have h1 := runCells_range a xs c hc
      omega

/-- Clearing a range keeps the canonical form. -/
theorem memClear_wf {d : Byte} {m : List Host.Cell} (lo hi : Nat) (h : memWf d m = true) :
    memWf d (memClear m lo hi) = true := memWf_filter _ h

/-- Writing one byte keeps the canonical form. -/
theorem memWrite_wf {d : Byte} {m : List Host.Cell} (n : Nat) (x : Byte) (h : memWf d m = true) :
    memWf d (memWrite d m n x) = true := by
  have key : ∀ (m : List Host.Cell) (lo : Nat), memWf d m = true → memAbove lo m →
      memWf d (memWrite d m n x) = true ∧ (lo ≤ n → memAbove lo (memWrite d m n x)) := by
    intro m
    induction m with
    | nil =>
      intro lo _ _
      rw [memWrite]
      split
      · exact ⟨rfl, fun _ => by simp [memAbove]⟩
      · exact ⟨memWf_cons.mpr ⟨‹_›, by simp [memAbove], rfl⟩, fun h => by simp [memAbove, h]⟩
    | cons c r ih =>
      intro lo hw hlo
      obtain ⟨a, b⟩ := c
      obtain ⟨hb, hab, hr⟩ := memWf_cons.mp hw
      have hlr : memAbove lo r := fun c hc => hlo c (List.mem_cons_of_mem _ hc)
      have ha : lo ≤ a := hlo (a, b) (List.mem_cons_self ..)
      rw [memWrite]
      split
      · split
        · exact ⟨hw, fun _ => hlo⟩
        · refine ⟨memWf_cons.mpr ⟨‹_›, ?_, hw⟩, fun hn => ?_⟩
          · intro c hc
            rcases List.mem_cons.mp hc with rfl | hc
            · show n + 1 ≤ a
              omega
            · have := hab c hc
              omega
          · intro c hc
            rcases List.mem_cons.mp hc with rfl | hc
            · exact hn
            · exact hlo c hc
      · split
        · rename_i hge heq
          subst heq
          split
          · exact ⟨hr, fun _ => hlr⟩
          · refine ⟨memWf_cons.mpr ⟨‹_›, hab, hr⟩, fun hn => ?_⟩
            intro c hc
            rcases List.mem_cons.mp hc with rfl | hc
            · exact hn
            · exact hlr c hc
        · rename_i hge hne
          have hk := ih (a + 1) hr hab
          have hk2 := ih lo hr hlr
          refine ⟨memWf_cons.mpr ⟨hb, hk.2 (by omega), hk.1⟩, fun hn => ?_⟩
          intro c hc
          rcases List.mem_cons.mp hc with rfl | hc
          · exact ha
          · exact hk2.2 hn c hc
  exact (key m 0 h (fun _ _ => Nat.zero_le _)).1

/-- An address below every listed cell reads as the default. -/
theorem memRead_above {d : Byte} {m : List Host.Cell} {lo n : Nat} (h : memAbove lo m) (hn : n < lo) :
    memRead d m n = d := by
  induction m with
  | nil => rfl
  | cons c r ih =>
    obtain ⟨a, b⟩ := c
    have ha : lo ≤ a := h (a, b) (List.mem_cons_self ..)
    rw [memRead, if_neg (by omega)]
    exact ih (fun c hc => h c (List.mem_cons_of_mem _ hc))

/-- What one write of a byte does to every read. -/
theorem memRead_memWrite {d : Byte} {m : List Host.Cell} (n k : Nat) (x : Byte) (h : memWf d m = true) :
    memRead d (memWrite d m n x) k = if k = n then x else memRead d m k := by
  induction m with
  | nil =>
    rw [memWrite]
    split
    · subst x
      simp [memRead]
    · simp only [memRead]
      by_cases hk : n = k
      · simp [hk]
      · simp [hk, Ne.symm hk]
  | cons c r ih =>
    obtain ⟨a, b⟩ := c
    obtain ⟨hb, hab, hr⟩ := memWf_cons.mp h
    rw [memWrite]
    by_cases hlt : n < a
    · rw [if_pos hlt]
      by_cases hx : x = d
      · rw [if_pos hx]
        split
        · subst k
          rw [memRead, if_neg (by omega), hx]
          exact memRead_above hab (by omega)
        · rfl
      · rw [if_neg hx, memRead]
        by_cases hk : n = k
        · simp [hk]
        · rw [if_neg hk, if_neg (Ne.symm hk)]
    · rw [if_neg hlt]
      by_cases heq : a = n
      · subst heq
        rw [if_pos rfl]
        by_cases hx : x = d
        · rw [if_pos hx]
          split
          · subst k
            rw [hx]
            exact memRead_above hab (by omega)
          · rename_i hk
            rw [memRead, if_neg (Ne.symm hk)]
        · rw [if_neg hx, memRead, memRead]
          by_cases hk : a = k
          · simp [hk]
          · rw [if_neg hk, if_neg (Ne.symm hk), if_neg hk]
      · rw [if_neg heq, memRead, memRead]
        by_cases hk : a = k
        · subst hk
          rw [if_pos rfl, if_neg heq, if_pos rfl]
        · rw [if_neg hk, if_neg hk]
          exact ih hr

end Sys2Proof.Machine
end

