-- ==== Sys2Proof/Laws/Moves.lean ====
section
/-! SUPPORT. How `Steady` and `Moves` are shown: they are preorders, an update of one part moves that part, and so do a
choice and a fold of operations that move it. -/

-- The package is checked as one text; elaborating these proofs in order keeps the number of threads small.
set_option Elab.async false

namespace Sys2Proof.Machine

theorem Steady.refl (s : State) : Steady s s :=
  ⟨rfl, Nat.le_refl _, rfl, Nat.le_refl _, List.suffix_refl _, Nat.le_refl _, id⟩

theorem Steady.trans {s t u : State} (h : Steady s t) (k : Steady t u) : Steady s u :=
  ⟨k.pending.trans h.pending, Nat.le_trans h.clk k.clk, by rw [k.fuses, h.fuses], Nat.le_trans h.floor k.floor,
    h.out.trans k.out, Nat.le_trans h.free k.free, fun x => k.sound (h.sound x)⟩

/-- The parts of soundness. -/
theorem State.sound_iff {s : State} : s.sound = true ↔
    ((memWf 0xFF#8 s.flash.mem = true ∧ memWf 0#8 s.fst.mem = true) ∧ s.host.fits = true) ∧ s.evt.fits = true := by
  simp only [State.sound, State.memSound, Bool.and_eq_true]

/-- An update whose clock does not run backward, whose memories stay sound, and whose counter does not fall. -/
theorem Steady.upd {s x : State} (h : Steady s x) (y : State) (hp : y.pending = x.pending)
    (hc : x.clock.clk ≤ y.clock.clk) (hf : y.fuses = x.fuses) (ho : y.out = x.out) (hr : x.free ≤ y.free)
    (hm : memWf 0xFF#8 x.flash.mem = true → memWf 0xFF#8 y.flash.mem = true)
    (hn : memWf 0#8 x.fst.mem = true → memWf 0#8 y.fst.mem = true)
    (hh : x.host.fits = true → y.host.fits = true) (he : x.evt.fits = true → y.evt.fits = true) : Steady s y := by
  refine h.trans ⟨hp, hc, by rw [hf], Nat.le_of_eq (by rw [hf]), ho.symm ▸ List.suffix_refl _, hr, ?_⟩
  intro hs
  obtain ⟨⟨⟨a, b⟩, c⟩, d⟩ := State.sound_iff.mp hs
  exact State.sound_iff.mpr ⟨⟨⟨hm a, hn b⟩, hh c⟩, he d⟩

theorem HostSt.fits_iff {h : HostSt} : h.fits = true ↔ h.queue.length ≤ 256 ∧ h.reasm.length ≤ 4 := by
  simp only [HostSt.fits, Bool.and_eq_true, decide_eq_true_eq]

/-- The bounds of the interpreter rest on its queue and its contexts alone. -/
theorem HostSt.fits_of {h k : HostSt} (hq : k.queue = h.queue) (hr : k.reasm = h.reasm) (hf : h.fits = true) :
    k.fits = true := by
  rw [HostSt.fits_iff] at hf ⊢
  rw [hq, hr]
  exact hf

theorem Part.same_refl (p : Part) (s : State) : p.same s s := by
  cases p <;> rfl

theorem Part.same_trans {p : Part} {s t u : State} (h : p.same s t) (k : p.same t u) : p.same s u := by
  cases p <;> exact Eq.trans k h

theorem Part.mem_of_sub {k l : List Part} {p : Part} (hp : p ∈ k) (h : Part.sub k l = true) : p ∈ l :=
  List.contains_iff_mem.mp (List.all_eq_true.mp h p hp)

theorem Part.sub_trans {j k l : List Part} (h : Part.sub j k = true) (g : Part.sub k l = true) : Part.sub j l = true :=
  List.all_eq_true.mpr (fun _ hp => List.contains_iff_mem.mpr (Part.mem_of_sub (Part.mem_of_sub hp h) g))

theorem Moves.refl (l : List Part) (s : State) : Moves l s s := ⟨.refl s, fun p _ => p.same_refl s⟩

theorem Moves.trans {l : List Part} {s t u : State} (h : Moves l s t) (k : Moves l t u) : Moves l s u :=
  ⟨h.steady.trans k.steady, fun p hp => Part.same_trans (h.frame p hp) (k.frame p hp)⟩

/-- What moves some parts moves every wider list of parts. -/
theorem Moves.mono {k l : List Part} {s t : State} (h : Moves k s t) (hl : Part.sub k l = true) : Moves l s t :=
  ⟨h.steady, fun p hp => h.frame p (fun hk => hp (Part.mem_of_sub hk hl))⟩

/-- A step after a move. -/
theorem Moves.step {k l : List Part} {z x y : State} (h : Moves l z x) (hl : Part.sub k l = true) (hs : Steady x y)
    (hf : ∀ p, p ∉ k → p.same x y) : Moves l z y := h.trans (Moves.mono ⟨hs, hf⟩ hl)

/-- What no move names is unchanged. -/
theorem Moves.same {k : List Part} {s t : State} (h : Moves k s t) (p : Part) (hp : k.contains p = false) : p.same s t :=
  h.frame p (fun hk => by rw [List.contains_iff_mem.mpr hk] at hp; cases hp)

theorem Moves.setClock {l : List Part} {z x : State} (h : Moves l z x) (v : Clock) (hc : x.clock.clk ≤ v.clk)
    (hl : Part.sub [.clock] l = true := by first | rfl | exact Part.sub_trans rfl (by assumption)) :
    Moves l z { x with clock := v } := by
  refine h.step hl ((Steady.refl x).upd _ rfl hc rfl rfl (Nat.le_refl _) id id id id) ?_
  intro p hp
  cases p <;> first | rfl | exact absurd (List.mem_singleton.mpr rfl) hp

theorem Moves.setNow {l : List Part} {z x : State} (h : Moves l z x) (n : Nat) (b : Bool)
    (hl : Part.sub [.clock] l = true := by first | rfl | exact Part.sub_trans rfl (by assumption)) :
    Moves l z { x with clock := { x.clock with now := n, running := b } } := by
  refine h.step hl ((Steady.refl x).upd _ rfl (Nat.le_refl _) rfl rfl (Nat.le_refl _) id id id id) ?_
  intro p hp
  cases p <;> first | rfl | exact absurd (List.mem_singleton.mpr rfl) hp

theorem Moves.setMode {l : List Part} {z x : State} (h : Moves l z x) (v : Mode)
    (hl : Part.sub [.mode] l = true := by first | rfl | exact Part.sub_trans rfl (by assumption)) :
    Moves l z { x with mode := v } := by
  refine h.step hl ((Steady.refl x).upd _ rfl (Nat.le_refl _) rfl rfl (Nat.le_refl _) id id id id) ?_
  intro p hp
  cases p <;> first | rfl | exact absurd (List.mem_singleton.mpr rfl) hp

theorem Moves.setHalWaitMs {l : List Part} {z x : State} (h : Moves l z x) (v : Nat)
    (hl : Part.sub [.halWaitMs] l = true := by first | rfl | exact Part.sub_trans rfl (by assumption)) :
    Moves l z { x with halWaitMs := v } := by
  refine h.step hl ((Steady.refl x).upd _ rfl (Nat.le_refl _) rfl rfl (Nat.le_refl _) id id id id) ?_
  intro p hp
  cases p <;> first | rfl | exact absurd (List.mem_singleton.mpr rfl) hp

theorem Moves.setSeq {l : List Part} {z x : State} (h : Moves l z x) (v : Seq)
    (hl : Part.sub [.seq] l = true := by first | rfl | exact Part.sub_trans rfl (by assumption)) :
    Moves l z { x with seq := v } := by
  refine h.step hl ((Steady.refl x).upd _ rfl (Nat.le_refl _) rfl rfl (Nat.le_refl _) id id id id) ?_
  intro p hp
  cases p <;> first | rfl | exact absurd (List.mem_singleton.mpr rfl) hp

theorem Moves.setAon {l : List Part} {z x : State} (h : Moves l z x) (v : Aon)
    (hl : Part.sub [.aon] l = true := by first | rfl | exact Part.sub_trans rfl (by assumption)) :
    Moves l z { x with aon := v } := by
  refine h.step hl ((Steady.refl x).upd _ rfl (Nat.le_refl _) rfl rfl (Nat.le_refl _) id id id id) ?_
  intro p hp
  cases p <;> first | rfl | exact absurd (List.mem_singleton.mpr rfl) hp

theorem Moves.setPins {l : List Part} {z x : State} (h : Moves l z x) (v : Pins)
    (hl : Part.sub [.pins] l = true := by first | rfl | exact Part.sub_trans rfl (by assumption)) :
    Moves l z { x with pins := v } := by
  refine h.step hl ((Steady.refl x).upd _ rfl (Nat.le_refl _) rfl rfl (Nat.le_refl _) id id id id) ?_
  intro p hp
  cases p <;> first | rfl | exact absurd (List.mem_singleton.mpr rfl) hp

theorem Moves.setStart {l : List Part} {z x : State} (h : Moves l z x) (v : Start)
    (hl : Part.sub [.start] l = true := by first | rfl | exact Part.sub_trans rfl (by assumption)) :
    Moves l z { x with start := v } := by
  refine h.step hl ((Steady.refl x).upd _ rfl (Nat.le_refl _) rfl rfl (Nat.le_refl _) id id id id) ?_
  intro p hp
  cases p <;> first | rfl | exact absurd (List.mem_singleton.mpr rfl) hp

theorem Moves.setCal {l : List Part} {z x : State} (h : Moves l z x) (v : Calib)
    (hl : Part.sub [.cal] l = true := by first | rfl | exact Part.sub_trans rfl (by assumption)) :
    Moves l z { x with cal := v } := by
  refine h.step hl ((Steady.refl x).upd _ rfl (Nat.le_refl _) rfl rfl (Nat.le_refl _) id id id id) ?_
  intro p hp
  cases p <;> first | rfl | exact absurd (List.mem_singleton.mpr rfl) hp

theorem Moves.setFlash {l : List Part} {z x : State} (h : Moves l z x) (v : Flash)
    (hm : memWf 0xFF#8 x.flash.mem = true → memWf 0xFF#8 v.mem = true)
    (hl : Part.sub [.flash] l = true := by first | rfl | exact Part.sub_trans rfl (by assumption)) :
    Moves l z { x with flash := v } := by
  refine h.step hl ((Steady.refl x).upd _ rfl (Nat.le_refl _) rfl rfl (Nat.le_refl _) hm id id id) ?_
  intro p hp
  cases p <;> first | rfl | exact absurd (List.mem_singleton.mpr rfl) hp

theorem Moves.setHost {l : List Part} {z x : State} (h : Moves l z x) (v : HostSt)
    (hf : x.host.fits = true → v.fits = true)
    (hl : Part.sub [.host] l = true := by first | rfl | exact Part.sub_trans rfl (by assumption)) :
    Moves l z { x with host := v } := by
  refine h.step hl ((Steady.refl x).upd _ rfl (Nat.le_refl _) rfl rfl (Nat.le_refl _) id id hf id) ?_
  intro p hp
  cases p <;> first | rfl | exact absurd (List.mem_singleton.mpr rfl) hp

theorem Moves.hostSame {l : List Part} {z x : State} (h : Moves l z x) (v : HostSt) (hq : v.queue = x.host.queue)
    (hr : v.reasm = x.host.reasm)
    (hl : Part.sub [.host] l = true := by first | rfl | exact Part.sub_trans rfl (by assumption)) :
    Moves l z { x with host := v } := h.setHost v (HostSt.fits_of hq hr) hl

theorem Moves.setEvt {l : List Part} {z x : State} (h : Moves l z x) (v : Recorder)
    (hf : x.evt.fits = true → v.fits = true)
    (hl : Part.sub [.evt] l = true := by first | rfl | exact Part.sub_trans rfl (by assumption)) :
    Moves l z { x with evt := v } := by
  refine h.step hl ((Steady.refl x).upd _ rfl (Nat.le_refl _) rfl rfl (Nat.le_refl _) id id id hf) ?_
  intro p hp
  cases p <;> first | rfl | exact absurd (List.mem_singleton.mpr rfl) hp

theorem Moves.evtSame {l : List Part} {z x : State} (h : Moves l z x) (v : Recorder) (hq : v.pending = x.evt.pending)
    (hl : Part.sub [.evt] l = true := by first | rfl | exact Part.sub_trans rfl (by assumption)) :
    Moves l z { x with evt := v } := h.setEvt v (fun hf => by simpa only [Recorder.fits, hq] using hf) hl

theorem Moves.setSaf {l : List Part} {z x : State} (h : Moves l z x) (v : Safety)
    (hl : Part.sub [.saf] l = true := by first | rfl | exact Part.sub_trans rfl (by assumption)) :
    Moves l z { x with saf := v } := by
  refine h.step hl ((Steady.refl x).upd _ rfl (Nat.le_refl _) rfl rfl (Nat.le_refl _) id id id id) ?_
  intro p hp
  cases p <;> first | rfl | exact absurd (List.mem_singleton.mpr rfl) hp

theorem Moves.setCtl {l : List Part} {z x : State} (h : Moves l z x) (v : Ctl)
    (hl : Part.sub [.ctl] l = true := by first | rfl | exact Part.sub_trans rfl (by assumption)) :
    Moves l z { x with ctl := v } := by
  refine h.step hl ((Steady.refl x).upd _ rfl (Nat.le_refl _) rfl rfl (Nat.le_refl _) id id id id) ?_
  intro p hp
  cases p <;> first | rfl | exact absurd (List.mem_singleton.mpr rfl) hp

theorem Moves.setPwr {l : List Part} {z x : State} (h : Moves l z x) (v : Pwr)
    (hl : Part.sub [.pwr] l = true := by first | rfl | exact Part.sub_trans rfl (by assumption)) :
    Moves l z { x with pwr := v } := by
  refine h.step hl ((Steady.refl x).upd _ rfl (Nat.le_refl _) rfl rfl (Nat.le_refl _) id id id id) ?_
  intro p hp
  cases p <;> first | rfl | exact absurd (List.mem_singleton.mpr rfl) hp

theorem Moves.setXpt {l : List Part} {z x : State} (h : Moves l z x) (v : Xpt)
    (hl : Part.sub [.xpt] l = true := by first | rfl | exact Part.sub_trans rfl (by assumption)) :
    Moves l z { x with xpt := v } := by
  refine h.step hl ((Steady.refl x).upd _ rfl (Nat.le_refl _) rfl rfl (Nat.le_refl _) id id id id) ?_
  intro p hp
  cases p <;> first | rfl | exact absurd (List.mem_singleton.mpr rfl) hp

theorem Moves.setCue {l : List Part} {z x : State} (h : Moves l z x) (v : Cue)
    (hl : Part.sub [.cue] l = true := by first | rfl | exact Part.sub_trans rfl (by assumption)) :
    Moves l z { x with cue := v } := by
  refine h.step hl ((Steady.refl x).upd _ rfl (Nat.le_refl _) rfl rfl (Nat.le_refl _) id id id id) ?_
  intro p hp
  cases p <;> first | rfl | exact absurd (List.mem_singleton.mpr rfl) hp

theorem Moves.setRed {l : List Part} {z x : State} (h : Moves l z x) (v : Red)
    (hl : Part.sub [.red] l = true := by first | rfl | exact Part.sub_trans rfl (by assumption)) :
    Moves l z { x with red := v } := by
  refine h.step hl ((Steady.refl x).upd _ rfl (Nat.le_refl _) rfl rfl (Nat.le_refl _) id id id id) ?_
  intro p hp
  cases p <;> first | rfl | exact absurd (List.mem_singleton.mpr rfl) hp

theorem Moves.setEth {l : List Part} {z x : State} (h : Moves l z x) (v : Eth)
    (hl : Part.sub [.eth] l = true := by first | rfl | exact Part.sub_trans rfl (by assumption)) :
    Moves l z { x with eth := v } := by
  refine h.step hl ((Steady.refl x).upd _ rfl (Nat.le_refl _) rfl rfl (Nat.le_refl _) id id id id) ?_
  intro p hp
  cases p <;> first | rfl | exact absurd (List.mem_singleton.mpr rfl) hp

theorem Moves.setTim {l : List Part} {z x : State} (h : Moves l z x) (v : Tim)
    (hl : Part.sub [.tim] l = true := by first | rfl | exact Part.sub_trans rfl (by assumption)) :
    Moves l z { x with tim := v } := by
  refine h.step hl ((Steady.refl x).upd _ rfl (Nat.le_refl _) rfl rfl (Nat.le_refl _) id id id id) ?_
  intro p hp
  cases p <;> first | rfl | exact absurd (List.mem_singleton.mpr rfl) hp

theorem Moves.setLane {l : List Part} {z x : State} (h : Moves l z x) (v : Lanes)
    (hl : Part.sub [.lane] l = true := by first | rfl | exact Part.sub_trans rfl (by assumption)) :
    Moves l z { x with lane := v } := by
  refine h.step hl ((Steady.refl x).upd _ rfl (Nat.le_refl _) rfl rfl (Nat.le_refl _) id id id id) ?_
  intro p hp
  cases p <;> first | rfl | exact absurd (List.mem_singleton.mpr rfl) hp

theorem Moves.setFlow {l : List Part} {z x : State} (h : Moves l z x) (v : Flow)
    (hl : Part.sub [.flow] l = true := by first | rfl | exact Part.sub_trans rfl (by assumption)) :
    Moves l z { x with flow := v } := by
  refine h.step hl ((Steady.refl x).upd _ rfl (Nat.le_refl _) rfl rfl (Nat.le_refl _) id id id id) ?_
  intro p hp
  cases p <;> first | rfl | exact absurd (List.mem_singleton.mpr rfl) hp

theorem Moves.setFst {l : List Part} {z x : State} (h : Moves l z x) (v : Fst)
    (hm : memWf 0#8 x.fst.mem = true → memWf 0#8 v.mem = true)
    (hl : Part.sub [.fst] l = true := by first | rfl | exact Part.sub_trans rfl (by assumption)) :
    Moves l z { x with fst := v } := by
  refine h.step hl ((Steady.refl x).upd _ rfl (Nat.le_refl _) rfl rfl (Nat.le_refl _) id hm id id) ?_
  intro p hp
  cases p <;> first | rfl | exact absurd (List.mem_singleton.mpr rfl) hp

theorem Moves.setCmp {l : List Part} {z x : State} (h : Moves l z x) (v : Cmps)
    (hl : Part.sub [.cmp] l = true := by first | rfl | exact Part.sub_trans rfl (by assumption)) :
    Moves l z { x with cmp := v } := by
  refine h.step hl ((Steady.refl x).upd _ rfl (Nat.le_refl _) rfl rfl (Nat.le_refl _) id id id id) ?_
  intro p hp
  cases p <;> first | rfl | exact absurd (List.mem_singleton.mpr rfl) hp

theorem Moves.setAud {l : List Part} {z x : State} (h : Moves l z x) (v : Aud)
    (hl : Part.sub [.aud] l = true := by first | rfl | exact Part.sub_trans rfl (by assumption)) :
    Moves l z { x with aud := v } := by
  refine h.step hl ((Steady.refl x).upd _ rfl (Nat.le_refl _) rfl rfl (Nat.le_refl _) id id id id) ?_
  intro p hp
  cases p <;> first | rfl | exact absurd (List.mem_singleton.mpr rfl) hp

theorem Moves.setFree {l : List Part} {z x : State} (h : Moves l z x) (n : Nat) (hn : x.free ≤ n)
    (hl : Part.sub [.free] l = true := by first | rfl | exact Part.sub_trans rfl (by assumption)) :
    Moves l z { x with free := n } := by
  refine h.step hl ((Steady.refl x).upd _ rfl (Nat.le_refl _) rfl rfl hn id id id id) ?_
  intro p hp
  cases p <;> first | rfl | exact absurd (List.mem_singleton.mpr rfl) hp

theorem Moves.setImage {l : List Part} {z x : State} (h : Moves l z x) (v : Option SavedState)
    (hl : Part.sub [.image] l = true := by first | rfl | exact Part.sub_trans rfl (by assumption)) :
    Moves l z { x with image := v } := by
  refine h.step hl ((Steady.refl x).upd _ rfl (Nat.le_refl _) rfl rfl (Nat.le_refl _) id id id id) ?_
  intro p hp
  cases p <;> first | rfl | exact absurd (List.mem_singleton.mpr rfl) hp

theorem Moves.onSeq {l : List Part} {z x : State} (h : Moves l z x) (f : Seq → Seq)
    (hl : Part.sub [.seq] l = true := by first | rfl | exact Part.sub_trans rfl (by assumption)) :
    Moves l z (onSeq f x) := h.setSeq _ hl

theorem Moves.onAon {l : List Part} {z x : State} (h : Moves l z x) (f : Aon → Aon)
    (hl : Part.sub [.aon] l = true := by first | rfl | exact Part.sub_trans rfl (by assumption)) :
    Moves l z (onAon f x) := h.setAon _ hl

theorem Moves.onPins {l : List Part} {z x : State} (h : Moves l z x) (f : Pins → Pins)
    (hl : Part.sub [.pins] l = true := by first | rfl | exact Part.sub_trans rfl (by assumption)) :
    Moves l z (onPins f x) := h.setPins _ hl

theorem Moves.onStart {l : List Part} {z x : State} (h : Moves l z x) (f : Start → Start)
    (hl : Part.sub [.start] l = true := by first | rfl | exact Part.sub_trans rfl (by assumption)) :
    Moves l z (onStart f x) := h.setStart _ hl

theorem Moves.onCal {l : List Part} {z x : State} (h : Moves l z x) (f : Calib → Calib)
    (hl : Part.sub [.cal] l = true := by first | rfl | exact Part.sub_trans rfl (by assumption)) :
    Moves l z (onCal f x) := h.setCal _ hl

theorem Moves.onSaf {l : List Part} {z x : State} (h : Moves l z x) (f : Safety → Safety)
    (hl : Part.sub [.saf] l = true := by first | rfl | exact Part.sub_trans rfl (by assumption)) :
    Moves l z (onSaf f x) := h.setSaf _ hl

theorem Moves.onCtl {l : List Part} {z x : State} (h : Moves l z x) (f : Ctl → Ctl)
    (hl : Part.sub [.ctl] l = true := by first | rfl | exact Part.sub_trans rfl (by assumption)) :
    Moves l z (onCtl f x) := h.setCtl _ hl

theorem Moves.onPwr {l : List Part} {z x : State} (h : Moves l z x) (f : Pwr → Pwr)
    (hl : Part.sub [.pwr] l = true := by first | rfl | exact Part.sub_trans rfl (by assumption)) :
    Moves l z (onPwr f x) := h.setPwr _ hl

theorem Moves.onXpt {l : List Part} {z x : State} (h : Moves l z x) (f : Xpt → Xpt)
    (hl : Part.sub [.xpt] l = true := by first | rfl | exact Part.sub_trans rfl (by assumption)) :
    Moves l z (onXpt f x) := h.setXpt _ hl

theorem Moves.onCue {l : List Part} {z x : State} (h : Moves l z x) (f : Cue → Cue)
    (hl : Part.sub [.cue] l = true := by first | rfl | exact Part.sub_trans rfl (by assumption)) :
    Moves l z (onCue f x) := h.setCue _ hl

theorem Moves.onRed {l : List Part} {z x : State} (h : Moves l z x) (f : Red → Red)
    (hl : Part.sub [.red] l = true := by first | rfl | exact Part.sub_trans rfl (by assumption)) :
    Moves l z (onRed f x) := h.setRed _ hl

theorem Moves.onEth {l : List Part} {z x : State} (h : Moves l z x) (f : Eth → Eth)
    (hl : Part.sub [.eth] l = true := by first | rfl | exact Part.sub_trans rfl (by assumption)) :
    Moves l z (onEth f x) := h.setEth _ hl

theorem Moves.onTim {l : List Part} {z x : State} (h : Moves l z x) (f : Tim → Tim)
    (hl : Part.sub [.tim] l = true := by first | rfl | exact Part.sub_trans rfl (by assumption)) :
    Moves l z (onTim f x) := h.setTim _ hl

theorem Moves.onLane {l : List Part} {z x : State} (h : Moves l z x) (f : Lanes → Lanes)
    (hl : Part.sub [.lane] l = true := by first | rfl | exact Part.sub_trans rfl (by assumption)) :
    Moves l z (onLane f x) := h.setLane _ hl

theorem Moves.onFlow {l : List Part} {z x : State} (h : Moves l z x) (f : Flow → Flow)
    (hl : Part.sub [.flow] l = true := by first | rfl | exact Part.sub_trans rfl (by assumption)) :
    Moves l z (onFlow f x) := h.setFlow _ hl

theorem Moves.onCmp {l : List Part} {z x : State} (h : Moves l z x) (f : Cmps → Cmps)
    (hl : Part.sub [.cmp] l = true := by first | rfl | exact Part.sub_trans rfl (by assumption)) :
    Moves l z (onCmp f x) := h.setCmp _ hl

theorem Moves.onAud {l : List Part} {z x : State} (h : Moves l z x) (f : Aud → Aud)
    (hl : Part.sub [.aud] l = true := by first | rfl | exact Part.sub_trans rfl (by assumption)) :
    Moves l z (onAud f x) := h.setAud _ hl

theorem Moves.onFst {l : List Part} {z x : State} (h : Moves l z x) (f : Fst → Fst)
    (hm : memWf 0#8 x.fst.mem = true → memWf 0#8 (f x.fst).mem = true)
    (hl : Part.sub [.fst] l = true := by first | rfl | exact Part.sub_trans rfl (by assumption)) :
    Moves l z (onFst f x) := h.setFst _ hm hl

theorem Moves.onFlash {l : List Part} {z x : State} (h : Moves l z x) (f : Flash → Flash)
    (hm : memWf 0xFF#8 x.flash.mem = true → memWf 0xFF#8 (f x.flash).mem = true)
    (hl : Part.sub [.flash] l = true := by first | rfl | exact Part.sub_trans rfl (by assumption)) :
    Moves l z (onFlash f x) := h.setFlash _ hm hl

theorem Moves.onHost {l : List Part} {z x : State} (h : Moves l z x) (f : HostSt → HostSt)
    (hf : x.host.fits = true → (f x.host).fits = true)
    (hl : Part.sub [.host] l = true := by first | rfl | exact Part.sub_trans rfl (by assumption)) :
    Moves l z (onHost f x) := h.setHost _ hf hl

theorem Moves.onEvt {l : List Part} {z x : State} (h : Moves l z x) (f : Recorder → Recorder)
    (hf : x.evt.fits = true → (f x.evt).fits = true)
    (hl : Part.sub [.evt] l = true := by first | rfl | exact Part.sub_trans rfl (by assumption)) :
    Moves l z (onEvt f x) := h.setEvt _ hf hl

/-- An update of the frame store by a function that leaves its memory. -/
theorem Moves.onFstMem {l : List Part} {z x : State} (h : Moves l z x) (f : Fst → Fst)
    (hm : ∀ k : Fst, (f k).mem = k.mem)
    (hl : Part.sub [.fst] l = true := by first | rfl | exact Part.sub_trans rfl (by assumption)) :
    Moves l z (Machine.onFst f x) := h.onFst f (fun k => by rw [hm]; exact k) hl

/-- An update of the boot flash by a function that leaves its memory. -/
theorem Moves.onFlashMem {l : List Part} {z x : State} (h : Moves l z x) (f : Flash → Flash)
    (hm : ∀ k : Flash, (f k).mem = k.mem)
    (hl : Part.sub [.flash] l = true := by first | rfl | exact Part.sub_trans rfl (by assumption)) :
    Moves l z (Machine.onFlash f x) := h.onFlash f (fun k => by rw [hm]; exact k) hl

/-- An update of the interpreter, by a function that leaves its queue and its contexts. -/
theorem Moves.onHostSame {l : List Part} {z x : State} (h : Moves l z x) (f : HostSt → HostSt)
    (hq : ∀ k : HostSt, (f k).queue = k.queue) (hr : ∀ k : HostSt, (f k).reasm = k.reasm)
    (hl : Part.sub [.host] l = true := by first | rfl | exact Part.sub_trans rfl (by assumption)) :
    Moves l z (Machine.onHost f x) := h.onHost f (HostSt.fits_of (hq _) (hr _)) hl

/-- An update of the recorder, by a function that leaves its pending queue. -/
theorem Moves.onEvtSame {l : List Part} {z x : State} (h : Moves l z x) (f : Recorder → Recorder)
    (hq : ∀ k : Recorder, (f k).pending = k.pending)
    (hl : Part.sub [.evt] l = true := by first | rfl | exact Part.sub_trans rfl (by assumption)) :
    Moves l z (Machine.onEvt f x) := h.onEvt f (fun hf => by simpa only [Recorder.fits, hq] using hf) hl

theorem Moves.ite {l : List Part} {z a b : State} {c : Prop} [Decidable c] (ha : Moves l z a) (hb : Moves l z b) :
    Moves l z (if c then a else b) := by
  split
  · exact ha
  · exact hb

theorem Moves.ite_fst {l : List Part} {α : Type} {z : State} {a b : State × α} {c : Prop} [Decidable c]
    (ha : Moves l z a.1) (hb : Moves l z b.1) : Moves l z (if c then a else b).1 := by
  split
  · exact ha
  · exact hb

theorem Moves.ite_snd {l : List Part} {α : Type} {z : State} {a b : α × State} {c : Prop} [Decidable c]
    (ha : Moves l z a.2) (hb : Moves l z b.2) : Moves l z (if c then a else b).2 := by
  split
  · exact ha
  · exact hb

theorem Moves.foldl {l : List Part} {α : Type} {z : State} {f : State → α → State}
    (hf : ∀ x a, Moves l z x → Moves l z (f x a)) (r : List α) {x : State} (h : Moves l z x) :
    Moves l z (r.foldl f x) := by
  induction r generalizing x with
  | nil => exact h
  | cons a r ih => exact ih (hf x a h)

/-- What a command does when it answers a next state. -/
def MovesOut (l : List Part) (s : State) (o : Host.Outcome State Fault Refusal) : Prop :=
  match o with
  | .next t => Moves l s t
  | .fault _ => True
  | .refused _ => True

theorem MovesOut.next {l : List Part} {s t : State} (h : Moves l s t) : MovesOut l s (.next t) := h

/-- A command that stops on a missing object, and otherwise answers a next state. -/
theorem MovesOut.fault {l : List Part} {s t : State} {c : Prop} [Decidable c] {f : Fault} (h : Moves l s t) :
    MovesOut l s (if c then .fault f else .next t) := by
  split
  · trivial
  · exact h

end Sys2Proof.Machine
end

