-- ==== Sys2Proof/Laws/MovesOps.lean ====
section
/-! SUPPORT. What each operation of `Machine/Ops.lean` moves. -/

-- The package is checked as one text; elaborating these proofs in order keeps the number of threads small.
set_option Elab.async false

namespace Sys2Proof.Machine

theorem advance_moves {pl : List Part} {z : State} (t : Nat) {s : State}
    (hz : Moves pl z s)
    (hl : Part.sub [.clock] pl = true := by first | rfl | exact Part.sub_trans rfl (by assumption)) :
    Moves pl z (advance t s) := by
  exact hz.setClock _ (Nat.le_max_left s.clock.clk t)

theorem idle_moves {pl : List Part} {z : State} {s : State}
    (hz : Moves pl z s)
    (hl : Part.sub [.clock] pl = true := by first | rfl | exact Part.sub_trans rfl (by assumption)) :
    Moves pl z (idle s) := by
  unfold idle
  try dsimp only
  repeat' first
    | with_reducible assumption | exact Part.sub_trans rfl hl | with_reducible apply advance_moves

theorem emit_moves {pl : List Part} {z : State} (o : Out) {s : State}
    (hz : Moves pl z s)
    (hl : Part.sub [.out] pl = true := by first | rfl | exact Part.sub_trans rfl (by assumption)) :
    Moves pl z (emit o s) := by
  refine hz.step hl ⟨rfl, Nat.le_refl _, rfl, Nat.le_refl _, ⟨[o], rfl⟩, Nat.le_refl _, id⟩ ?_
  intro p hp
  cases p <;> first | rfl | exact absurd (List.mem_singleton.mpr rfl) hp

theorem emitPin_moves {pl : List Part} {z : State} (name : String) (level : Nat) {s : State}
    (hz : Moves pl z s)
    (hl : Part.sub [.out] pl = true := by first | rfl | exact Part.sub_trans rfl (by assumption)) :
    Moves pl z (emitPin name level s) := by
  unfold emitPin
  try dsimp only
  repeat' first
    | with_reducible assumption | exact Part.sub_trans rfl hl | with_reducible apply emit_moves

theorem pushEvent_moves {pl : List Part} {z : State} (e : Ev) {s : State}
    (hz : Moves pl z s)
    (hl : Part.sub [.evt] pl = true := by first | rfl | exact Part.sub_trans rfl (by assumption)) :
    Moves pl z (pushEvent e s) := by
  unfold pushEvent
  split
  · split
    · rename_i hlt
      refine hz.setEvt _ (fun _ => ?_)
      simp only [Recorder.fits, List.length_append, List.length_cons, List.length_nil, decide_eq_true_eq]
      omega
    · exact hz.evtSame _ rfl
  · exact hz.evtSame _ rfl

theorem blockTrial_moves {pl : List Part} {z : State} (sev : Nat) {s : State}
    (hz : Moves pl z s)
    (hl : Part.sub [.flash] pl = true := by first | rfl | exact Part.sub_trans rfl (by assumption)) :
    Moves pl z (blockTrial sev s) := by
  unfold blockTrial
  exact .ite (hz.setFlash _ id) hz

theorem raise_moves {pl : List Part} {z : State} (sev : Nat) (cls : Nat) (code : Nat) (path : Nat) (payload : List Word) {s : State}
    (hz : Moves pl z s)
    (hl : Part.sub [.flash, .evt] pl = true := by first | rfl | exact Part.sub_trans rfl (by assumption)) :
    Moves pl z (raise sev cls code path payload s) := by
  unfold raise
  try dsimp only
  repeat' first
    | with_reducible assumption | exact Part.sub_trans rfl hl | with_reducible apply pushEvent_moves
    | with_reducible apply blockTrial_moves

theorem startRecorder_moves {pl : List Part} {z : State} {s : State}
    (hz : Moves pl z s)
    (hl : Part.sub [.evt] pl = true := by first | rfl | exact Part.sub_trans rfl (by assumption)) :
    Moves pl z (startRecorder s) := by
  exact Moves.foldl (fun _ _ h => pushEvent_moves _ h) _ (hz.evtSame _ rfl)

theorem recordItem_moves {pl : List Part} {z : State} (it : RecItem) {s : State}
    (hz : Moves pl z s)
    (hl : Part.sub [.red] pl = true := by first | rfl | exact Part.sub_trans rfl (by assumption)) :
    Moves pl z (recordItem it s) := by
  unfold recordItem
  try dsimp only
  repeat' first
    | with_reducible assumption | exact Part.sub_trans rfl hl | with_reducible apply Moves.ite
    | (with_reducible apply Moves.setRed
       first
          | with_reducible assumption | exact Part.sub_trans rfl hl | with_reducible apply Moves.ite)

theorem sendHalyard_moves {pl : List Part} {z : State} (kind : Nat) (payload : List Byte) {s : State}
    (hz : Moves pl z s)
    (hl : Part.sub [.red, .out] pl = true := by first | rfl | exact Part.sub_trans rfl (by assumption)) :
    Moves pl z (sendHalyard kind payload s) := by
  unfold sendHalyard
  try dsimp only
  repeat' first
    | with_reducible assumption | exact Part.sub_trans rfl hl | with_reducible apply emit_moves
    | with_reducible apply Moves.ite
    | (with_reducible apply Moves.setRed
       first
          | with_reducible assumption | exact Part.sub_trans rfl hl | with_reducible apply emit_moves
          | with_reducible apply Moves.ite | (split <;> dsimp only))
    | (split <;> try dsimp only)

theorem refillUntagged_moves {pl : List Part} {z : State} {s : State}
    (hz : Moves pl z s)
    (hl : Part.sub [.host] pl = true := by first | rfl | exact Part.sub_trans rfl (by assumption)) :
    Moves pl z (refillUntagged s) := by
  exact hz.hostSame _ rfl rfl

theorem sendReply_moves {pl : List Part} {z : State} (key : Option (List Byte)) (opcode : Nat) (c : HostCmd) (st : Status) (ps : List Byte) {s0 : State}
    (hz : Moves pl z s0)
    (hl : Part.sub [.host, .out] pl = true := by first | rfl | exact Part.sub_trans rfl (by assumption)) :
    Moves pl z (sendReply key opcode c st ps s0) := by
  unfold sendReply
  have h0 := refillUntagged_moves hz
  dsimp only
  split
  · exact h0.hostSame _ rfl rfl
  · refine .ite (h0.hostSame _ rfl rfl) (Moves.foldl (fun _ _ h => emit_moves _ h) _ (.ite ?_ h0))
    exact h0.hostSame _ rfl rfl

end Sys2Proof.Machine
end

