-- ==== Sys2Proof/Laws/MovesOperands.lean ====
section
/-! SUPPORT. What each operation of `Machine/Operands.lean` moves. -/

-- The package is checked as one text; elaborating these proofs in order keeps the number of threads small.
set_option Elab.async false

namespace Sys2Proof.Machine

theorem raiseRoleDenied_moves {pl : List Part} {z : State} (op : Op) (c : HostCmd) {s : State}
    (hz : Moves pl z s)
    (hl : Part.sub [.flash, .evt] pl = true := by first | rfl | exact Part.sub_trans rfl (by assumption)) :
    Moves pl z (raiseRoleDenied op c s) := by
  unfold raiseRoleDenied
  try dsimp only
  repeat' first
    | with_reducible assumption | exact Part.sub_trans rfl hl | with_reducible apply raise_moves

theorem cacheReply_moves {pl : List Part} {z : State} (c : HostCmd) (st : Status) (ps : List Byte) {s : State}
    (hz : Moves pl z s)
    (hl : Part.sub [.host] pl = true := by first | rfl | exact Part.sub_trans rfl (by assumption)) :
    Moves pl z (cacheReply c st ps s) := by
  unfold cacheReply
  split
  · exact hz
  · split
    · exact hz
    · exact .ite (hz.hostSame _ rfl rfl) hz

theorem pairAfter_moves {pl : List Part} {z : State} (op : Op) (c : HostCmd) (executed : Bool) (st : Status) (ps : List Byte) {s : State}
    (hz : Moves pl z s)
    (hl : Part.sub [.red, .out] pl = true := by first | rfl | exact Part.sub_trans rfl (by assumption)) :
    Moves pl z (pairAfter op c executed st ps s) := by
  unfold pairAfter
  try dsimp only
  repeat' first
    | with_reducible assumption | exact Part.sub_trans rfl hl | with_reducible apply recordItem_moves
    | with_reducible apply sendHalyard_moves | with_reducible apply Moves.ite
    | (with_reducible apply Moves.setRed
       first
          | with_reducible assumption | exact Part.sub_trans rfl hl | with_reducible apply recordItem_moves
          | with_reducible apply sendHalyard_moves | with_reducible apply Moves.ite)

theorem replyTo_moves {pl : List Part} {z : State} (opcode : Nat) (c : HostCmd) (st : Status) (ps : List Byte) {s : State}
    (hz : Moves pl z s)
    (hl : Part.sub [.host, .out] pl = true := by first | rfl | exact Part.sub_trans rfl (by assumption)) :
    Moves pl z (replyTo opcode c st ps s) := by
  unfold replyTo
  try dsimp only
  repeat' first
    | with_reducible assumption | exact Part.sub_trans rfl hl | with_reducible apply cacheReply_moves
    | with_reducible apply sendReply_moves | with_reducible apply Moves.ite

theorem finishCode_moves {pl : List Part} {z : State} (opcode : Nat) (c : HostCmd) (st : Status) (ps : List Byte) {s : State}
    (hz : Moves pl z s)
    (hl : Part.sub [.host, .red, .out] pl = true := by first | rfl | exact Part.sub_trans rfl (by assumption)) :
    Moves pl z (finishCode opcode c st ps s) := by
  unfold finishCode
  try dsimp only
  repeat' first
    | with_reducible assumption | exact Part.sub_trans rfl hl | with_reducible apply cacheReply_moves
    | with_reducible apply replyTo_moves | with_reducible apply Moves.ite
    | (with_reducible apply Moves.setRed
       first
          | with_reducible assumption | exact Part.sub_trans rfl hl | with_reducible apply cacheReply_moves
          | with_reducible apply replyTo_moves | with_reducible apply Moves.ite)

theorem finish_moves {pl : List Part} {z : State} (op : Op) (c : HostCmd) (st : Status) (ps : List Byte) {s : State}
    (hz : Moves pl z s)
    (hl : Part.sub [.host, .red, .out] pl = true := by first | rfl | exact Part.sub_trans rfl (by assumption)) :
    Moves pl z (finish op c st ps s) := by
  unfold finish
  try dsimp only
  repeat' first
    | with_reducible assumption | exact Part.sub_trans rfl hl | with_reducible apply finishCode_moves

theorem dequeue_moves {pl : List Part} {z : State} (op : Op) (c : HostCmd) {s : State}
    (hz : Moves pl z s)
    (hl : Part.sub [.host] pl = true := by first | rfl | exact Part.sub_trans rfl (by assumption)) :
    Moves pl z (dequeue op c s) := by
  refine hz.setHost _ (fun hf => ?_)
  rw [HostSt.fits_iff] at hf ⊢
  exact ⟨Nat.le_trans (List.length_erase_le ..) hf.1, hf.2⟩

theorem countPassed_moves {pl : List Part} {z : State} {s : State}
    (hz : Moves pl z s)
    (hl : Part.sub [.host] pl = true := by first | rfl | exact Part.sub_trans rfl (by assumption)) :
    Moves pl z (countPassed s) := by
  exact hz.hostSame _ rfl rfl

theorem refuseWith_moves {pl : List Part} {z : State} (op : Op) (c : HostCmd) (r : Status × List Byte) {s : State}
    (hz : Moves pl z s)
    (hl : Part.sub [.flash, .host, .evt, .red, .out] pl = true := by first | rfl | exact Part.sub_trans rfl (by assumption)) :
    Moves pl z (refuseWith op c r s) := by
  unfold refuseWith
  try dsimp only
  repeat' first
    | with_reducible assumption | exact Part.sub_trans rfl hl | with_reducible apply pairAfter_moves
    | with_reducible apply finish_moves | with_reducible apply raiseRoleDenied_moves
    | with_reducible apply Moves.ite

theorem acceptWith_moves {pl : List Part} {z : State} (op : Op) (c : HostCmd) (eff : Effect) {s : State}
    (he : Moves pl z (eff s c).1)
    (hl : Part.sub [.host, .red, .out] pl = true := by first | rfl | exact Part.sub_trans rfl (by assumption)) : Moves pl z (acceptWith op c eff s) := by
  unfold acceptWith
  dsimp only
  split
  · exact pairAfter_moves _ _ _ _ _ (finish_moves _ _ _ _ (.ite (countPassed_moves he) he))
  · exact pairAfter_moves _ _ _ _ _ (countPassed_moves he)

theorem runCommand_moves {pl : List Part} {z : State} (op : Op) (own : Refuse) (eff : Effect) (t : Nat) (c : HostCmd) {s : State}
    (hz : Moves pl z s) (he : ∀ x, Moves pl z x → Moves pl z (eff x c).1)
    (hl : Part.sub [.clock, .flash, .host, .evt, .red, .out] pl = true := by first | rfl | exact Part.sub_trans rfl (by assumption)) : Moves pl z (runCommand op own eff t c s) := by
  unfold runCommand
  dsimp only
  have h1 := advance_moves t hz
  have h2 := dequeue_moves op c h1
  refine .ite h1 ?_
  split
  · exact refuseWith_moves _ _ _ h2
  · exact acceptWith_moves _ _ _ (he _ h2)

end Sys2Proof.Machine
end

