-- ==== Sys2Proof/Laws/MovesQueueOps.lean ====
section
/-! SUPPORT. What each operation of `Machine/QueueOps.lean` moves. -/

-- The package is checked as one text; elaborating these proofs in order keeps the number of threads small.
set_option Elab.async false

namespace Sys2Proof.Machine

theorem entryGone_moves {pl : List Part} {z : State} (e : Entry) (res : Option (Status × Nat)) (frame : Nat) {s : State}
    (hz : Moves pl z s)
    (hl : Part.sub [.host, .xpt, .red, .out] pl = true := by first | rfl | exact Part.sub_trans rfl (by assumption)) :
    Moves pl z (entryGone e res frame s) := by
  unfold entryGone
  try dsimp only
  repeat' first
    | with_reducible assumption | exact Part.sub_trans rfl hl | with_reducible apply finish_moves
    | with_reducible apply Moves.ite
    | (with_reducible apply Moves.setXpt
       first
          | with_reducible assumption | exact Part.sub_trans rfl hl | with_reducible apply finish_moves
          | with_reducible apply Moves.ite | (split <;> dsimp only))
    | (split <;> try dsimp only)

theorem rejectCommit_moves {pl : List Part} {z : State} (c : Nat) (check : Nat) (st : Status) (session : Nat) (cause : Nat) (seq : Nat) {s : State}
    (hz : Moves pl z s)
    (hl : Part.sub [.flash, .evt, .cmp] pl = true := by first | rfl | exact Part.sub_trans rfl (by assumption)) :
    Moves pl z (rejectCommit c check st session cause seq s) := by
  unfold rejectCommit
  try dsimp only
  repeat' first
    | with_reducible assumption | exact Part.sub_trans rfl hl | with_reducible apply Moves.onCmp
    | with_reducible apply raise_moves
    | (split <;> try dsimp only)

theorem cancelAudio_moves {pl : List Part} {z : State} (out : Nat) (inp : Option Nat) (session : Nat) (cause : Nat) (seq : Nat) {s : State}
    (hz : Moves pl z s)
    (hl : Part.sub [.flash, .evt, .aud] pl = true := by first | rfl | exact Part.sub_trans rfl (by assumption)) :
    Moves pl z (cancelAudio out inp session cause seq s) := by
  unfold cancelAudio
  try dsimp only
  repeat' first
    | with_reducible assumption | exact Part.sub_trans rfl hl | with_reducible apply Moves.onAud
    | with_reducible apply raise_moves | with_reducible apply Moves.ite

theorem reportDiscard_moves {pl : List Part} {z : State} (cause : Nat) (e : Entry) {s : State}
    (hz : Moves pl z s)
    (hl : Part.sub [.flash, .evt, .xpt, .cmp, .aud] pl = true := by first | rfl | exact Part.sub_trans rfl (by assumption)) :
    Moves pl z (reportDiscard cause e s) := by
  unfold reportDiscard
  try dsimp only
  repeat' first
    | with_reducible assumption | exact Part.sub_trans rfl hl | with_reducible apply raise_moves
    | with_reducible apply cancelAudio_moves | with_reducible apply rejectCommit_moves
    | with_reducible apply Moves.ite
    | (with_reducible apply Moves.setXpt
       first
          | with_reducible assumption | exact Part.sub_trans rfl hl | with_reducible apply raise_moves
          | with_reducible apply cancelAudio_moves | with_reducible apply rejectCommit_moves
          | with_reducible apply Moves.ite | (split <;> dsimp only))
    | (split <;> try dsimp only)

theorem queueFell_moves {pl : List Part} {z : State} {s : State}
    (hz : Moves pl z s)
    (hl : Part.sub [.xpt] pl = true := by first | rfl | exact Part.sub_trans rfl (by assumption)) :
    Moves pl z (queueFell s) := by
  unfold queueFell
  try dsimp only
  repeat' first
    | with_reducible assumption | exact Part.sub_trans rfl hl | with_reducible apply Moves.ite
    | (with_reducible apply Moves.setXpt
       first
          | with_reducible assumption | exact Part.sub_trans rfl hl | with_reducible apply Moves.ite)

theorem discardEntries_moves {pl : List Part} {z : State} (p : Entry → Bool) (cause : Nat) {s : State}
    (hz : Moves pl z s)
    (hl : Part.sub [.flash, .host, .evt, .xpt, .red, .cmp, .aud, .out] pl = true := by first | rfl | exact Part.sub_trans rfl (by assumption)) :
    Moves pl z (discardEntries p cause s) := by
  unfold discardEntries
  try dsimp only
  repeat' first
    | with_reducible assumption | exact Part.sub_trans rfl hl | with_reducible apply queueFell_moves
    | with_reducible apply entryGone_moves | with_reducible apply reportDiscard_moves
    | (with_reducible apply Moves.foldl; intro _ _ _)
    | (with_reducible apply Moves.setXpt
       first
          | with_reducible assumption | exact Part.sub_trans rfl hl | with_reducible apply queueFell_moves
          | with_reducible apply entryGone_moves | with_reducible apply reportDiscard_moves
          | (with_reducible apply Moves.foldl; intro _ _ _))

theorem endInstance_moves {pl : List Part} {z : State} (i : Nat) (cause : Nat) {s : State}
    (hz : Moves pl z s)
    (hl : Part.sub [.flash, .evt, .cue] pl = true := by first | rfl | exact Part.sub_trans rfl (by assumption)) :
    Moves pl z (endInstance i cause s) := by
  unfold endInstance
  try dsimp only
  repeat' first
    | with_reducible assumption | exact Part.sub_trans rfl hl | with_reducible apply raise_moves
    | with_reducible apply Moves.ite
    | (with_reducible apply Moves.setCue
       first
          | with_reducible assumption | exact Part.sub_trans rfl hl | with_reducible apply raise_moves
          | with_reducible apply Moves.ite | (split <;> dsimp only))
    | (split <;> try dsimp only)

theorem endInstances_moves {pl : List Part} {z : State} (p : CueInst → Bool) (cause : Nat) {s : State}
    (hz : Moves pl z s)
    (hl : Part.sub [.flash, .evt, .cue] pl = true := by first | rfl | exact Part.sub_trans rfl (by assumption)) :
    Moves pl z (endInstances p cause s) := by
  unfold endInstances
  try dsimp only
  repeat' first
    | with_reducible assumption | exact Part.sub_trans rfl hl | with_reducible apply endInstance_moves
    | (with_reducible apply Moves.foldl; intro _ _ _)

theorem transitionQueues_moves {pl : List Part} {z : State} (n : Nat) {s : State}
    (hz : Moves pl z s)
    (hl : Part.sub [.flash, .host, .evt, .xpt, .cue, .red, .cmp, .aud, .out] pl = true := by first | rfl | exact Part.sub_trans rfl (by assumption)) :
    Moves pl z (transitionQueues n s) := by
  unfold transitionQueues
  split
  · exact (hz.setXpt { s.xpt with queue := [], waits := [], highSent := false }).setCue
      { s.cue with insts := [], progs := [], marks := [] }
  · exact endInstances_moves _ _ (discardEntries_moves _ _ hz)
  · exact endInstances_moves _ _ (discardEntries_moves _ _ hz)
  · exact endInstances_moves _ _ (discardEntries_moves _ _ hz)
  · exact endInstances_moves _ _ (discardEntries_moves _ _ hz)
  · exact endInstances_moves _ _ (discardEntries_moves _ _ hz)
  · exact hz

end Sys2Proof.Machine
end

