-- ==== Sys2Proof/Laws/MovesTimeOps.lean ====
section
/-! SUPPORT. What each operation of `Machine/TimeOps.lean` moves. -/

-- The package is checked as one text; elaborating these proofs in order keeps the number of threads small.
set_option Elab.async false

namespace Sys2Proof.Machine

theorem errOnState_moves {pl : List Part} {z : State} (new : LoopState) {s : State}
    (hz : Moves pl z s)
    (hl : Part.sub [.tim] pl = true := by first | rfl | exact Part.sub_trans rfl (by assumption)) :
    Moves pl z (errOnState new s) := by
  unfold errOnState
  try dsimp only
  repeat' first
    | with_reducible assumption | exact Part.sub_trans rfl hl | with_reducible apply Moves.onTim
    | with_reducible apply Moves.ite
    | (split <;> try dsimp only)

theorem driveHt_moves {pl : List Part} {z : State} (v : Nat) {s : State}
    (hz : Moves pl z s)
    (hl : Part.sub [.tim, .out] pl = true := by first | rfl | exact Part.sub_trans rfl (by assumption)) :
    Moves pl z (driveHt v s) := by
  unfold driveHt
  try dsimp only
  repeat' first
    | with_reducible assumption | exact Part.sub_trans rfl hl | with_reducible apply emitPin_moves
    | with_reducible apply Moves.onTim | with_reducible apply Moves.ite

theorem barPtp_moves {pl : List Part} {z : State} {s : State}
    (hz : Moves pl z s)
    (hl : Part.sub [.tim] pl = true := by first | rfl | exact Part.sub_trans rfl (by assumption)) :
    Moves pl z (barPtp s) := by
  unfold barPtp
  try dsimp only
  repeat' first
    | with_reducible assumption | exact Part.sub_trans rfl hl | with_reducible apply Moves.onTim

theorem setTimeState_moves {pl : List Part} {z : State} (new : LoopState) {s : State}
    (hz : Moves pl z s)
    (hl : Part.sub [.flash, .evt, .tim] pl = true := by first | rfl | exact Part.sub_trans rfl (by assumption)) :
    Moves pl z (setTimeState new s) := by
  unfold setTimeState
  try dsimp only
  repeat' first
    | with_reducible assumption | exact Part.sub_trans rfl hl | with_reducible apply errOnState_moves
    | with_reducible apply barPtp_moves | with_reducible apply Moves.onTim | with_reducible apply raise_moves
    | with_reducible apply Moves.ite

theorem startDeferred_moves {pl : List Part} {z : State} {s : State}
    (hz : Moves pl z s)
    (hl : Part.sub [.tim] pl = true := by first | rfl | exact Part.sub_trans rfl (by assumption)) :
    Moves pl z (startDeferred s) := by
  unfold startDeferred
  try dsimp only
  repeat' first
    | with_reducible assumption | exact Part.sub_trans rfl hl | with_reducible apply Moves.onTim
    | with_reducible apply Moves.ite

theorem setHouseState_moves {pl : List Part} {z : State} (new : LoopState) {s : State}
    (hz : Moves pl z s)
    (hl : Part.sub [.flash, .evt, .tim, .out] pl = true := by first | rfl | exact Part.sub_trans rfl (by assumption)) :
    Moves pl z (setHouseState new s) := by
  unfold setHouseState
  try dsimp only
  repeat' first
    | with_reducible assumption | exact Part.sub_trans rfl hl | with_reducible apply Moves.onTim
    | with_reducible apply driveHt_moves | with_reducible apply raise_moves
    | with_reducible apply startDeferred_moves | with_reducible apply Moves.ite

theorem recordReference_moves {pl : List Part} {z : State} {s : State}
    (hz : Moves pl z s)
    (hl : Part.sub [.red] pl = true := by first | rfl | exact Part.sub_trans rfl (by assumption)) :
    Moves pl z (recordReference s) := by
  unfold recordReference
  try dsimp only
  repeat' first
    | with_reducible assumption | exact Part.sub_trans rfl hl | with_reducible apply recordItem_moves

theorem switchTo_moves {pl : List Part} {z : State} (i : Nat) (cause : Nat) {s : State}
    (hz : Moves pl z s)
    (hl : Part.sub [.flash, .evt, .red, .tim, .out] pl = true := by first | rfl | exact Part.sub_trans rfl (by assumption)) :
    Moves pl z (switchTo i cause s) := by
  unfold switchTo
  try dsimp only
  repeat' first
    | with_reducible assumption | exact Part.sub_trans rfl hl | with_reducible apply raise_moves
    | with_reducible apply Moves.onTim | with_reducible apply setHouseState_moves
    | with_reducible apply recordReference_moves | with_reducible apply Moves.ite

theorem houseHoldover_moves {pl : List Part} {z : State} {s : State}
    (hz : Moves pl z s)
    (hl : Part.sub [.flash, .evt, .red, .tim, .out] pl = true := by first | rfl | exact Part.sub_trans rfl (by assumption)) :
    Moves pl z (houseHoldover s) := by
  unfold houseHoldover
  try dsimp only
  repeat' first
    | with_reducible assumption | exact Part.sub_trans rfl hl | with_reducible apply Moves.onTim
    | with_reducible apply recordReference_moves | with_reducible apply setHouseState_moves
    | with_reducible apply Moves.ite

theorem isolatedSelect_moves {pl : List Part} {z : State} {s : State}
    (hz : Moves pl z s)
    (hl : Part.sub [.flash, .evt, .red, .tim, .out] pl = true := by first | rfl | exact Part.sub_trans rfl (by assumption)) :
    Moves pl z (isolatedSelect s) := by
  unfold isolatedSelect
  try dsimp only
  repeat' first
    | with_reducible assumption | exact Part.sub_trans rfl hl | with_reducible apply houseHoldover_moves
    | with_reducible apply setHouseState_moves | with_reducible apply Moves.onTim
    | with_reducible apply Moves.ite
    | (split <;> try dsimp only)

theorem runSelector_moves {pl : List Part} {z : State} (lossCause : Nat) {s : State}
    (hz : Moves pl z s)
    (hl : Part.sub [.flash, .evt, .red, .tim, .out] pl = true := by first | rfl | exact Part.sub_trans rfl (by assumption)) :
    Moves pl z (runSelector lossCause s) := by
  unfold runSelector
  try dsimp only
  repeat' first
    | with_reducible assumption | exact Part.sub_trans rfl hl | with_reducible apply isolatedSelect_moves
    | with_reducible apply houseHoldover_moves | with_reducible apply switchTo_moves
    | with_reducible apply Moves.ite
    | (split <;> try dsimp only)

theorem recordTime_moves {pl : List Part} {z : State} {s : State}
    (hz : Moves pl z s)
    (hl : Part.sub [.aon] pl = true := by first | rfl | exact Part.sub_trans rfl (by assumption)) :
    Moves pl z (recordTime s) := by
  unfold recordTime
  try dsimp only
  repeat' first
    | with_reducible assumption | exact Part.sub_trans rfl hl
    | (with_reducible apply Moves.setAon
       first
          | with_reducible assumption | exact Part.sub_trans rfl hl)

theorem timeRestore_moves {pl : List Part} {z : State} {s : State}
    (hz : Moves pl z s)
    (hl : Part.sub [.clock, .tim] pl = true := by first | rfl | exact Part.sub_trans rfl (by assumption)) :
    Moves pl z (timeRestore s) := by
  rw [timeRestore]
  cases s.aon.timeRec with
  | none => exact hz.setNow _ _
  | some r => exact .onTim (.setNow hz _ _) _

theorem loopsStart_moves {pl : List Part} {z : State} {s : State}
    (hz : Moves pl z s)
    (hl : Part.sub [.tim, .out] pl = true := by first | rfl | exact Part.sub_trans rfl (by assumption)) :
    Moves pl z (loopsStart s) := by
  unfold loopsStart
  try dsimp only
  repeat' first
    | with_reducible assumption | exact Part.sub_trans rfl hl | with_reducible apply driveHt_moves
    | with_reducible apply Moves.onTim | with_reducible apply Moves.ite

theorem missTargets_moves {pl : List Part} {z : State} (unit : Nat) (cause : Nat) {s : State}
    (hz : Moves pl z s)
    (hl : Part.sub [.flash, .evt, .tim] pl = true := by first | rfl | exact Part.sub_trans rfl (by assumption)) :
    Moves pl z (missTargets unit cause s) := by
  unfold missTargets
  try dsimp only
  repeat' first
    | with_reducible assumption | exact Part.sub_trans rfl hl | with_reducible apply Moves.onTim
    | with_reducible apply raise_moves | with_reducible apply Moves.ite

theorem stepTime_moves {pl : List Part} {z : State} (delta : Int) {s : State}
    (hz : Moves pl z s)
    (hl : Part.sub [.clock, .flash, .evt, .tim] pl = true := by first | rfl | exact Part.sub_trans rfl (by assumption)) :
    Moves pl z (stepTime delta s) := by
  unfold stepTime
  dsimp only
  refine Moves.foldl (fun x a h => .ite (missTargets_moves _ _ h) h) _ (raise_moves _ _ _ _ _ (.onTim ?_ _))
  exact hz.setNow _ s.clock.running

end Sys2Proof.Machine
end

