-- ==== Sys2Proof/Laws/MovesZones.lean ====
section
/-! SUPPORT. What each operation of `Machine/Zones.lean` moves. -/

-- The package is checked as one text; elaborating these proofs in order keeps the number of threads small.
set_option Elab.async false

namespace Sys2Proof.Machine

theorem touchPc_moves {pl : List Part} {z : State} (a : Nat) {s : State}
    (hz : Moves pl z s)
    (hl : Part.sub [.fst] pl = true := by first | rfl | exact Part.sub_trans rfl (by assumption)) :
    Moves pl z (touchPc a s) := by
  exact hz.setFst _ id

theorem writePiece_moves {pl : List Part} {z : State} (a : Nat) (xs : List Byte) {s : State}
    (hz : Moves pl z s)
    (hl : Part.sub [.fst] pl = true := by first | rfl | exact Part.sub_trans rfl (by assumption)) :
    Moves pl z (writePiece a xs s) := by
  exact touchPc_moves _ (hz.setFst _ (memWriteList_wf a xs))

theorem zoneWriteAt_moves {pl : List Part} {z : State} (k : Nat) (off : Nat) (data : List Byte) {s : State}
    (hz : Moves pl z s)
    (hl : Part.sub [.fst] pl = true := by first | rfl | exact Part.sub_trans rfl (by assumption)) :
    Moves pl z (zoneWriteAt k off data s) := by
  unfold zoneWriteAt
  have key : ∀ (l : List (Nat × Nat)) (x : State × List Byte), Moves pl z x.1 → Moves pl z
      (l.foldl (fun (x : State × List Byte) p => (writePiece p.1 (x.2.take p.2) x.1, x.2.drop p.2)) x).1 := by
    intro l
    induction l with
    | nil => intro x hx; exact hx
    | cons p l ih => intro x hx; exact ih _ (writePiece_moves _ _ hx)
  exact key _ (s, data) hz

theorem zoneWrite_moves {pl : List Part} {z : State} (zone : Nat) (unit : Nat) (off : Nat) (data : List Byte) {s : State}
    (hz : Moves pl z s)
    (hl : Part.sub [.fst] pl = true := by first | rfl | exact Part.sub_trans rfl (by assumption)) :
    Moves pl z (zoneWrite zone unit off data s) := by
  unfold zoneWrite
  try dsimp only
  repeat' first
    | with_reducible assumption | exact Part.sub_trans rfl hl | with_reducible apply zoneWriteAt_moves

theorem fstCount_moves {pl : List Part} {z : State} (i : Nat) (n : Nat) {s : State}
    (hz : Moves pl z s)
    (hl : Part.sub [.fst] pl = true := by first | rfl | exact Part.sub_trans rfl (by assumption)) :
    Moves pl z (fstCount i n s) := by
  exact hz.setFst _ id

theorem modPc_moves {pl : List Part} {z : State} (n : Nat) (f : FstPc → FstPc) {s : State}
    (hz : Moves pl z s)
    (hl : Part.sub [.fst] pl = true := by first | rfl | exact Part.sub_trans rfl (by assumption)) :
    Moves pl z (modPc n f s) := by
  exact hz.setFst _ id

theorem raiseStoreParity_moves {pl : List Part} {z : State} (burst : Nat) (kind : Nat) (requester : Nat) (fails : Nat) {s : State}
    (hz : Moves pl z s)
    (hl : Part.sub [.flash, .evt] pl = true := by first | rfl | exact Part.sub_trans rfl (by assumption)) :
    Moves pl z (raiseStoreParity burst kind requester fails s) := by
  unfold raiseStoreParity
  try dsimp only
  repeat' first
    | with_reducible assumption | exact Part.sub_trans rfl hl | with_reducible apply raise_moves

theorem addConfirm_moves {pl : List Part} {z : State} (burst : Nat) (requester : Nat) (fails : List Nat) {s : State}
    (hz : Moves pl z s)
    (hl : Part.sub [.fst] pl = true := by first | rfl | exact Part.sub_trans rfl (by assumption)) :
    Moves pl z (addConfirm burst requester fails s) := by
  unfold addConfirm
  exact .ite hz (hz.setFst _ id)

theorem serviceFailures_moves {pl : List Part} {z : State} (requester : Nat) (as : List Nat) {s : State}
    (hz : Moves pl z s)
    (hl : Part.sub [.flash, .evt, .fst] pl = true := by first | rfl | exact Part.sub_trans rfl (by assumption)) :
    Moves pl z (serviceFailures requester as s) := by
  unfold serviceFailures
  try dsimp only
  repeat' first
    | with_reducible assumption | exact Part.sub_trans rfl hl | with_reducible apply modPc_moves
    | with_reducible apply fstCount_moves | with_reducible apply addConfirm_moves
    | with_reducible apply raiseStoreParity_moves | (with_reducible apply Moves.foldl; intro _ _ _)

theorem serviceRead_moves {pl : List Part} {z : State} (requester : Nat) (k : Nat) (off : Nat) (len : Nat) {s : State}
    (hz : Moves pl z s)
    (hl : Part.sub [.flash, .evt, .fst] pl = true := by first | rfl | exact Part.sub_trans rfl (by assumption)) :
    Moves pl z (serviceRead requester k off len s).2.2 := by
  unfold serviceRead
  try dsimp only
  repeat' first
    | with_reducible assumption | exact Part.sub_trans rfl hl | with_reducible apply serviceFailures_moves
    | (with_reducible apply Moves.foldl; intro _ _ _)
    | (split <;> try dsimp only)

end Sys2Proof.Machine
end

