-- ==== Sys2Proof/Laws/MovesObjects.lean ====
section
/-! SUPPORT. What each operation of `Machine/Objects.lean` moves. -/

-- The package is checked as one text; elaborating these proofs in order keeps the number of threads small.
set_option Elab.async false

namespace Sys2Proof.Machine

theorem modComp_moves {pl : List Part} {z : State} (c : Nat) (f : Comp → Comp) {s : State}
    (hz : Moves pl z s)
    (hl : Part.sub [.cmp] pl = true := by first | rfl | exact Part.sub_trans rfl (by assumption)) :
    Moves pl z (modComp c f s) := by
  unfold modComp
  try dsimp only
  repeat' first
    | with_reducible assumption | exact Part.sub_trans rfl hl | with_reducible apply Moves.onCmp

theorem modObj_moves {pl : List Part} {z : State} (n : Nat) (f : Obj → Obj) {s : State}
    (hz : Moves pl z s)
    (hl : Part.sub [.fst] pl = true := by first | rfl | exact Part.sub_trans rfl (by assumption)) :
    Moves pl z (modObj n f s) := by
  unfold modObj
  try dsimp only
  repeat' first
    | with_reducible assumption | exact Part.sub_trans rfl hl
    | (with_reducible refine Moves.onFstMem ?_ _ (fun _ => rfl) ?_)

theorem tidyObj_moves {pl : List Part} {z : State} (n : Nat) {s : State}
    (hz : Moves pl z s)
    (hl : Part.sub [.fst] pl = true := by first | rfl | exact Part.sub_trans rfl (by assumption)) :
    Moves pl z (tidyObj n s) := by
  unfold tidyObj
  try dsimp only
  repeat' first
    | with_reducible assumption | exact Part.sub_trans rfl hl
    | (with_reducible refine Moves.onFstMem ?_ _ (fun _ => rfl) ?_) | with_reducible apply Moves.ite

theorem retire_moves {pl : List Part} {z : State} (n : Nat) (v : Version) (forced : Bool) {s : State}
    (hz : Moves pl z s)
    (hl : Part.sub [.fst] pl = true := by first | rfl | exact Part.sub_trans rfl (by assumption)) :
    Moves pl z (retire n v forced s) := by
  unfold retire
  try dsimp only
  repeat' first
    | with_reducible assumption | exact Part.sub_trans rfl hl | with_reducible apply modObj_moves
    | with_reducible apply Moves.ite

theorem referencerMoves_moves {pl : List Part} {z : State} (n : Nat) (r : Referencer) {s : State}
    (hz : Moves pl z s)
    (hl : Part.sub [.fst] pl = true := by first | rfl | exact Part.sub_trans rfl (by assumption)) :
    Moves pl z (referencerMoves n r s) := by
  unfold referencerMoves
  try dsimp only
  repeat' first
    | with_reducible assumption | exact Part.sub_trans rfl hl | with_reducible apply tidyObj_moves
    | with_reducible apply modObj_moves | with_reducible apply Moves.ite

theorem referencersMove_moves {pl : List Part} {z : State} (p : Referencer → Bool) {s : State}
    (hz : Moves pl z s)
    (hl : Part.sub [.fst] pl = true := by first | rfl | exact Part.sub_trans rfl (by assumption)) :
    Moves pl z (referencersMove p s) := by
  unfold referencersMove
  try dsimp only
  repeat' first
    | with_reducible assumption | exact Part.sub_trans rfl hl | with_reducible apply referencerMoves_moves
    | (with_reducible apply Moves.foldl; intro _ _ _)

theorem invalidate_moves {pl : List Part} {z : State} (n : Nat) (cause : Nat) {s : State}
    (hz : Moves pl z s)
    (hl : Part.sub [.flash, .evt, .fst] pl = true := by first | rfl | exact Part.sub_trans rfl (by assumption)) :
    Moves pl z (invalidate n cause s) := by
  unfold invalidate
  try dsimp only
  repeat' first
    | with_reducible assumption | exact Part.sub_trans rfl hl | with_reducible apply raise_moves
    | with_reducible apply fstCount_moves | with_reducible apply modObj_moves | with_reducible apply Moves.ite

end Sys2Proof.Machine
end

