-- ==== Sys2Proof/Laws/MovesFlowOps.lean ====
section
/-! SUPPORT. What each operation of `Machine/FlowOps.lean` moves. -/

-- The package is checked as one text; elaborating these proofs in order keeps the number of threads small.
set_option Elab.async false

namespace Sys2Proof.Machine

theorem modSrc_moves {pl : List Part} {z : State} (n : Nat) (f : Src → Src) {s : State}
    (hz : Moves pl z s)
    (hl : Part.sub [.flow] pl = true := by first | rfl | exact Part.sub_trans rfl (by assumption)) :
    Moves pl z (modSrc n f s) := by
  unfold modSrc
  try dsimp only
  repeat' first
    | with_reducible assumption | exact Part.sub_trans rfl hl | with_reducible apply Moves.onFlow

theorem modDst_moves {pl : List Part} {z : State} (n : Nat) (f : Dst → Dst) {s : State}
    (hz : Moves pl z s)
    (hl : Part.sub [.flow] pl = true := by first | rfl | exact Part.sub_trans rfl (by assumption)) :
    Moves pl z (modDst n f s) := by
  unfold modDst
  try dsimp only
  repeat' first
    | with_reducible assumption | exact Part.sub_trans rfl hl | with_reducible apply Moves.onFlow

theorem srcCount_moves {pl : List Part} {z : State} (n : Nat) (i : Nat) (k : Nat) {s : State}
    (hz : Moves pl z s)
    (hl : Part.sub [.flow] pl = true := by first | rfl | exact Part.sub_trans rfl (by assumption)) :
    Moves pl z (srcCount n i k s) := by
  unfold srcCount
  try dsimp only
  repeat' first
    | with_reducible assumption | exact Part.sub_trans rfl hl | with_reducible apply modSrc_moves

theorem setSrcPhase_moves {pl : List Part} {z : State} (n : Nat) (p : Nat) {s : State}
    (hz : Moves pl z s)
    (hl : Part.sub [.flash, .evt, .flow] pl = true := by first | rfl | exact Part.sub_trans rfl (by assumption)) :
    Moves pl z (setSrcPhase n p s) := by
  unfold setSrcPhase
  try dsimp only
  repeat' first
    | with_reducible assumption | exact Part.sub_trans rfl hl | with_reducible apply raise_moves
    | with_reducible apply modSrc_moves | with_reducible apply Moves.ite

theorem failSource_moves {pl : List Part} {z : State} (n : Nat) (cause : Nat) {s : State}
    (hz : Moves pl z s)
    (hl : Part.sub [.flash, .evt, .flow] pl = true := by first | rfl | exact Part.sub_trans rfl (by assumption)) :
    Moves pl z (failSource n cause s) := by
  unfold failSource
  try dsimp only
  repeat' first
    | with_reducible assumption | exact Part.sub_trans rfl hl | with_reducible apply setSrcPhase_moves
    | with_reducible apply modSrc_moves | with_reducible apply raise_moves | with_reducible apply Moves.ite

theorem modBuf_moves {pl : List Part} {z : State} (n : Nat) (seq : Nat) (f : FrameBuf → FrameBuf) {s : State}
    (hz : Moves pl z s)
    (hl : Part.sub [.flow] pl = true := by first | rfl | exact Part.sub_trans rfl (by assumption)) :
    Moves pl z (modBuf n seq f s) := by
  unfold modBuf
  try dsimp only
  repeat' first
    | with_reducible assumption | exact Part.sub_trans rfl hl | with_reducible apply modSrc_moves
    | with_reducible apply Moves.ite

theorem closeFrame_moves {pl : List Part} {z : State} (n : Nat) (seq : Nat) {s : State}
    (hz : Moves pl z s)
    (hl : Part.sub [.flash, .evt, .flow] pl = true := by first | rfl | exact Part.sub_trans rfl (by assumption)) :
    Moves pl z (closeFrame n seq s) := by
  unfold closeFrame
  try dsimp only
  repeat' first
    | with_reducible assumption | exact Part.sub_trans rfl hl | with_reducible apply modBuf_moves
    | with_reducible apply raise_moves | with_reducible apply srcCount_moves | with_reducible apply Moves.ite
    | (split <;> try dsimp only)

theorem closeIfDone_moves {pl : List Part} {z : State} (n : Nat) (seq : Nat) {s : State}
    (hz : Moves pl z s)
    (hl : Part.sub [.flash, .evt, .flow] pl = true := by first | rfl | exact Part.sub_trans rfl (by assumption)) :
    Moves pl z (closeIfDone n seq s) := by
  unfold closeIfDone
  try dsimp only
  repeat' first
    | with_reducible assumption | exact Part.sub_trans rfl hl | with_reducible apply closeFrame_moves
    | with_reducible apply Moves.ite
    | (split <;> try dsimp only)

theorem copyEnds_moves {pl : List Part} {z : State} (n : Nat) (c : Nat) {s : State}
    (hz : Moves pl z s)
    (hl : Part.sub [.flash, .evt, .flow] pl = true := by first | rfl | exact Part.sub_trans rfl (by assumption)) :
    Moves pl z (copyEnds n c s) := by
  unfold copyEnds
  try dsimp only
  repeat' first
    | with_reducible assumption | exact Part.sub_trans rfl hl | with_reducible apply modBuf_moves
    | with_reducible apply closeIfDone_moves | with_reducible apply Moves.ite
    | (split <;> try dsimp only)

theorem laneStops_moves {pl : List Part} {z : State} (k : Nat) {s : State}
    (hz : Moves pl z s)
    (hl : Part.sub [.flash, .evt, .flow] pl = true := by first | rfl | exact Part.sub_trans rfl (by assumption)) :
    Moves pl z (laneStops k s) := by
  unfold laneStops
  try dsimp only
  repeat' first
    | with_reducible assumption | exact Part.sub_trans rfl hl | with_reducible apply modSrc_moves
    | with_reducible apply copyEnds_moves | with_reducible apply Moves.ite
    | (with_reducible apply Moves.foldl; intro _ _ _)

end Sys2Proof.Machine
end

