-- ==== Sys2Proof/Laws/MovesLaneOps.lean ====
section
/-! SUPPORT. What each operation of `Machine/LaneOps.lean` moves. -/

-- The package is checked as one text; elaborating these proofs in order keeps the number of threads small.
set_option Elab.async false

namespace Sys2Proof.Machine

theorem modRx_moves {pl : List Part} {z : State} (k : Nat) (f : RxLane → RxLane) {s : State}
    (hz : Moves pl z s)
    (hl : Part.sub [.lane] pl = true := by first | rfl | exact Part.sub_trans rfl (by assumption)) :
    Moves pl z (modRx k f s) := by
  unfold modRx
  try dsimp only
  repeat' first
    | with_reducible assumption | exact Part.sub_trans rfl hl | with_reducible apply Moves.onLane

theorem modTx_moves {pl : List Part} {z : State} (k : Nat) (f : TxLane → TxLane) {s : State}
    (hz : Moves pl z s)
    (hl : Part.sub [.lane] pl = true := by first | rfl | exact Part.sub_trans rfl (by assumption)) :
    Moves pl z (modTx k f s) := by
  unfold modTx
  try dsimp only
  repeat' first
    | with_reducible assumption | exact Part.sub_trans rfl hl | with_reducible apply Moves.onLane

theorem laneCount_moves {pl : List Part} {z : State} (k : Nat) (i : Nat) (n : Nat) {s : State}
    (hz : Moves pl z s)
    (hl : Part.sub [.lane] pl = true := by first | rfl | exact Part.sub_trans rfl (by assumption)) :
    Moves pl z (laneCount k i n s) := by
  unfold laneCount
  try dsimp only
  repeat' first
    | with_reducible assumption | exact Part.sub_trans rfl hl | with_reducible apply modRx_moves

theorem raiseLockLost_moves {pl : List Part} {z : State} (k : Nat) (cause : Nat) {s : State}
    (hz : Moves pl z s)
    (hl : Part.sub [.flash, .evt] pl = true := by first | rfl | exact Part.sub_trans rfl (by assumption)) :
    Moves pl z (raiseLockLost k cause s) := by
  unfold raiseLockLost
  try dsimp only
  repeat' first
    | with_reducible assumption | exact Part.sub_trans rfl hl | with_reducible apply raise_moves

theorem loseLock_moves {pl : List Part} {z : State} (k : Nat) (cause : Nat) (st : RxState) (always : Bool) {s : State}
    (hz : Moves pl z s)
    (hl : Part.sub [.flash, .evt, .lane, .flow] pl = true := by first | rfl | exact Part.sub_trans rfl (by assumption)) :
    Moves pl z (loseLock k cause st always s) := by
  unfold loseLock
  try dsimp only
  repeat' first
    | with_reducible assumption | exact Part.sub_trans rfl hl | with_reducible apply laneCount_moves
    | with_reducible apply laneStops_moves | with_reducible apply modRx_moves
    | with_reducible apply raiseLockLost_moves | with_reducible apply Moves.ite

theorem startReceive_moves {pl : List Part} {z : State} (k : Nat) {s : State}
    (hz : Moves pl z s)
    (hl : Part.sub [.lane] pl = true := by first | rfl | exact Part.sub_trans rfl (by assumption)) :
    Moves pl z (startReceive k s) := by
  unfold startReceive
  try dsimp only
  repeat' first
    | with_reducible assumption | exact Part.sub_trans rfl hl | with_reducible apply modRx_moves
    | with_reducible apply Moves.ite

theorem reseed_moves {pl : List Part} {z : State} (k : Nat) {s : State}
    (hz : Moves pl z s)
    (hl : Part.sub [.lane] pl = true := by first | rfl | exact Part.sub_trans rfl (by assumption)) :
    Moves pl z (reseed k s) := by
  unfold reseed
  try dsimp only
  repeat' first
    | with_reducible assumption | exact Part.sub_trans rfl hl | with_reducible apply modTx_moves

theorem lanesStart_moves {pl : List Part} {z : State} {s : State}
    (hz : Moves pl z s)
    (hl : Part.sub [.lane] pl = true := by first | rfl | exact Part.sub_trans rfl (by assumption)) :
    Moves pl z (lanesStart s) := by
  unfold lanesStart
  try dsimp only
  repeat' first
    | with_reducible assumption | exact Part.sub_trans rfl hl | with_reducible apply reseed_moves
    | with_reducible apply startReceive_moves | with_reducible apply Moves.ite
    | (with_reducible apply Moves.foldl; intro _ _ _)

theorem raiseTest_moves {pl : List Part} {z : State} (k : Nat) (fn : Nat) (st : Nat) {s : State}
    (hz : Moves pl z s)
    (hl : Part.sub [.flash, .evt] pl = true := by first | rfl | exact Part.sub_trans rfl (by assumption)) :
    Moves pl z (raiseTest k fn st s) := by
  unfold raiseTest
  try dsimp only
  repeat' first
    | with_reducible assumption | exact Part.sub_trans rfl hl | with_reducible apply raise_moves

theorem endRxTest_moves {pl : List Part} {z : State} (k : Nat) {s : State}
    (hz : Moves pl z s)
    (hl : Part.sub [.flash, .evt, .lane, .flow] pl = true := by first | rfl | exact Part.sub_trans rfl (by assumption)) :
    Moves pl z (endRxTest k s) := by
  unfold endRxTest
  try dsimp only
  repeat' first
    | with_reducible assumption | exact Part.sub_trans rfl hl | with_reducible apply loseLock_moves
    | with_reducible apply modRx_moves | with_reducible apply Moves.ite

theorem stopChecker_moves {pl : List Part} {z : State} (k : Nat) {s : State}
    (hz : Moves pl z s)
    (hl : Part.sub [.flash, .evt, .lane, .flow] pl = true := by first | rfl | exact Part.sub_trans rfl (by assumption)) :
    Moves pl z (stopChecker k s) := by
  unfold stopChecker
  try dsimp only
  repeat' first
    | with_reducible assumption | exact Part.sub_trans rfl hl | with_reducible apply endRxTest_moves
    | with_reducible apply raiseTest_moves | with_reducible apply modRx_moves | with_reducible apply Moves.ite

theorem stopGenerator_moves {pl : List Part} {z : State} (k : Nat) {s : State}
    (hz : Moves pl z s)
    (hl : Part.sub [.flash, .evt, .lane] pl = true := by first | rfl | exact Part.sub_trans rfl (by assumption)) :
    Moves pl z (stopGenerator k s) := by
  unfold stopGenerator
  try dsimp only
  repeat' first
    | with_reducible assumption | exact Part.sub_trans rfl hl | with_reducible apply reseed_moves
    | with_reducible apply raiseTest_moves | with_reducible apply modTx_moves | with_reducible apply Moves.ite

theorem stopLoops_moves {pl : List Part} {z : State} (k : Nat) {s : State}
    (hz : Moves pl z s)
    (hl : Part.sub [.flash, .evt, .lane, .flow] pl = true := by first | rfl | exact Part.sub_trans rfl (by assumption)) :
    Moves pl z (stopLoops k s) := by
  unfold stopLoops
  try dsimp only
  repeat' first
    | with_reducible assumption | exact Part.sub_trans rfl hl | with_reducible apply endRxTest_moves
    | with_reducible apply raiseTest_moves | with_reducible apply modTx_moves
    | with_reducible apply reseed_moves | with_reducible apply Moves.ite

theorem stopInjection_moves {pl : List Part} {z : State} (k : Nat) {s : State}
    (hz : Moves pl z s)
    (hl : Part.sub [.flash, .evt, .lane] pl = true := by first | rfl | exact Part.sub_trans rfl (by assumption)) :
    Moves pl z (stopInjection k s) := by
  unfold stopInjection
  try dsimp only
  repeat' first
    | with_reducible assumption | exact Part.sub_trans rfl hl | with_reducible apply raiseTest_moves
    | with_reducible apply modTx_moves | with_reducible apply Moves.ite

theorem stopTests_moves {pl : List Part} {z : State} {s : State}
    (hz : Moves pl z s)
    (hl : Part.sub [.flash, .evt, .lane, .flow] pl = true := by first | rfl | exact Part.sub_trans rfl (by assumption)) :
    Moves pl z (stopTests s) := by
  unfold stopTests
  try dsimp only
  repeat' first
    | with_reducible assumption | exact Part.sub_trans rfl hl | with_reducible apply stopInjection_moves
    | with_reducible apply stopLoops_moves | with_reducible apply stopGenerator_moves
    | with_reducible apply stopChecker_moves | (with_reducible apply Moves.foldl; intro _ _ _)

theorem noteEnsign_moves {pl : List Part} {z : State} {s : State}
    (hz : Moves pl z s)
    (hl : Part.sub [.lane] pl = true := by first | rfl | exact Part.sub_trans rfl (by assumption)) :
    Moves pl z (noteEnsign s) := by
  unfold noteEnsign
  try dsimp only
  repeat' first
    | with_reducible assumption | exact Part.sub_trans rfl hl | with_reducible apply Moves.onLane
    | with_reducible apply Moves.ite

end Sys2Proof.Machine
end

