-- ==== Sys2Proof/Laws/MovesModes.lean ====
section
/-! SUPPORT. What each operation of `Machine/Modes.lean` moves. -/

-- The package is checked as one text; elaborating these proofs in order keeps the number of threads small.
set_option Elab.async false

namespace Sys2Proof.Machine

theorem setReady_moves {pl : List Part} {z : State} (v : Bool) {s : State}
    (hz : Moves pl z s)
    (hl : Part.sub [.pins, .start, .pwr, .out] pl = true := by first | rfl | exact Part.sub_trans rfl (by assumption)) :
    Moves pl z (setReady v s) := by
  unfold setReady
  have h1 : Moves pl z (emitPin "READY" (bit v) { s with pins := { s.pins with ready := v } }) :=
    emitPin_moves _ _ (hz.setPins _)
  refine .ite hz (.ite h1 ?_)
  split
  · refine .ite (Moves.setPwr ?_ _) ?_
    · exact h1.setStart _
    · exact h1.setStart _
  · exact .ite (h1.setPwr _) h1

theorem raiseModeChange_moves {pl : List Part} {z : State} (n : Nat) (old : Mode) (new : Mode) (cause : Nat) {s : State}
    (hz : Moves pl z s)
    (hl : Part.sub [.evt] pl = true := by first | rfl | exact Part.sub_trans rfl (by assumption)) :
    Moves pl z (raiseModeChange n old new cause s) := by
  unfold raiseModeChange
  try dsimp only
  repeat' first
    | with_reducible assumption | exact Part.sub_trans rfl hl | with_reducible apply pushEvent_moves

theorem setMode_moves {pl : List Part} {z : State} (n : Nat) (dest : Mode) (cause : Nat) {s : State}
    (hz : Moves pl z s)
    (hl : Part.sub [.mode, .aon, .pins, .start, .flash, .evt, .pwr, .lane, .out] pl = true := by first | rfl | exact Part.sub_trans rfl (by assumption)) :
    Moves pl z (setMode n dest cause s) := by
  unfold setMode
  dsimp only
  refine noteEnsign_moves (setReady_moves _ (raiseModeChange_moves _ _ _ _ ?_))
  exact ((hz.setMode dest).setAon { s.aon with prevMode := s.mode.code, lastTrans := n }).setFlash _ id

theorem addSafeFrame_moves {pl : List Part} {z : State} (c : Nat) {s : State}
    (hz : Moves pl z s)
    (hl : Part.sub [.flash, .evt, .cmp] pl = true := by first | rfl | exact Part.sub_trans rfl (by assumption)) :
    Moves pl z (addSafeFrame c s) := by
  unfold addSafeFrame
  try dsimp only
  repeat' first
    | with_reducible assumption | exact Part.sub_trans rfl hl | with_reducible apply raise_moves
    | with_reducible apply modComp_moves | with_reducible apply Moves.ite

theorem addSafeFrames_moves {pl : List Part} {z : State} (cs : List Nat) {s : State}
    (hz : Moves pl z s)
    (hl : Part.sub [.flash, .evt, .cmp] pl = true := by first | rfl | exact Part.sub_trans rfl (by assumption)) :
    Moves pl z (addSafeFrames cs s) := by
  unfold addSafeFrames
  try dsimp only
  repeat' first
    | with_reducible assumption | exact Part.sub_trans rfl hl | with_reducible apply addSafeFrame_moves
    | (with_reducible apply Moves.foldl; intro _ _ _)

theorem raiseLease_moves {pl : List Part} {z : State} (state : Nat) {s : State}
    (hz : Moves pl z s)
    (hl : Part.sub [.flash, .evt] pl = true := by first | rfl | exact Part.sub_trans rfl (by assumption)) :
    Moves pl z (raiseLease state s) := by
  unfold raiseLease
  try dsimp only
  repeat' first
    | with_reducible assumption | exact Part.sub_trans rfl hl | with_reducible apply raise_moves

theorem dropLease_moves {pl : List Part} {z : State} (state : Nat) {s : State}
    (hz : Moves pl z s)
    (hl : Part.sub [.pins, .flash, .evt, .red, .lane, .out] pl = true := by first | rfl | exact Part.sub_trans rfl (by assumption)) :
    Moves pl z (dropLease state s) := by
  unfold dropLease
  try dsimp only
  repeat' first
    | with_reducible assumption | exact Part.sub_trans rfl hl | with_reducible apply raiseLease_moves
    | with_reducible apply noteEnsign_moves | with_reducible apply emitPin_moves
    | with_reducible apply Moves.ite
    | (with_reducible apply Moves.setRed
       first
          | with_reducible assumption | exact Part.sub_trans rfl hl | with_reducible apply raiseLease_moves
          | with_reducible apply noteEnsign_moves | with_reducible apply emitPin_moves
          | with_reducible apply Moves.ite)
    | (with_reducible apply Moves.setPins
       first
          | with_reducible assumption | exact Part.sub_trans rfl hl | with_reducible apply raiseLease_moves
          | with_reducible apply noteEnsign_moves | with_reducible apply emitPin_moves
          | with_reducible apply Moves.ite)

theorem applyTransition_moves {pl : List Part} {z : State} (n : Nat) (dest : Mode) (cause : Nat) {s : State}
    (hz : Moves pl z s)
    (hl : Part.sub [.mode, .aon, .pins, .start, .flash, .host, .evt, .pwr, .xpt, .cue, .red, .lane, .flow, .cmp, .aud, .out] pl = true := by first | rfl | exact Part.sub_trans rfl (by assumption)) :
    Moves pl z (applyTransition n dest cause s) := by
  unfold applyTransition
  try dsimp only
  repeat' first
    | with_reducible assumption | exact Part.sub_trans rfl hl | with_reducible apply transitionQueues_moves
    | with_reducible apply stopTests_moves | with_reducible apply dropLease_moves
    | with_reducible apply blockTrial_moves | with_reducible apply setMode_moves
    | with_reducible apply Moves.ite

theorem acquireLease_moves {pl : List Part} {z : State} (gen : Nat) {s : State}
    (hz : Moves pl z s)
    (hl : Part.sub [.flash, .evt, .red, .lane] pl = true := by first | rfl | exact Part.sub_trans rfl (by assumption)) :
    Moves pl z (acquireLease gen s) := by
  unfold acquireLease
  try dsimp only
  repeat' first
    | with_reducible assumption | exact Part.sub_trans rfl hl | with_reducible apply raiseLease_moves
    | with_reducible apply noteEnsign_moves
    | (with_reducible apply Moves.setRed
       first
          | with_reducible assumption | exact Part.sub_trans rfl hl | with_reducible apply raiseLease_moves
          | with_reducible apply noteEnsign_moves)

theorem refuseHeld_moves {pl : List Part} {z : State} {s : State}
    (hz : Moves pl z s)
    (hl : Part.sub [.host, .red, .out] pl = true := by first | rfl | exact Part.sub_trans rfl (by assumption)) :
    Moves pl z (refuseHeld s) := by
  unfold refuseHeld
  try dsimp only
  repeat' first
    | with_reducible assumption | exact Part.sub_trans rfl hl | with_reducible apply finish_moves
    | with_reducible apply Moves.ite | (with_reducible apply Moves.foldl; intro _ _ _)
    | (with_reducible apply Moves.setRed
       first
          | with_reducible assumption | exact Part.sub_trans rfl hl | with_reducible apply finish_moves
          | with_reducible apply Moves.ite | (with_reducible apply Moves.foldl; intro _ _ _))

theorem linkTo_moves {pl : List Part} {z : State} (new : Link) (cause : Nat) {s : State}
    (hz : Moves pl z s)
    (hl : Part.sub [.mode, .aon, .pins, .start, .flash, .host, .evt, .pwr, .xpt, .cue, .red, .lane, .flow, .cmp, .aud, .out] pl = true := by first | rfl | exact Part.sub_trans rfl (by assumption)) :
    Moves pl z (linkTo new cause s) := by
  unfold linkTo
  try dsimp only
  repeat' first
    | with_reducible assumption | exact Part.sub_trans rfl hl | with_reducible apply raise_moves
    | with_reducible apply refuseHeld_moves | with_reducible apply applyTransition_moves
    | with_reducible apply acquireLease_moves | with_reducible apply Moves.ite
    | (with_reducible apply Moves.setRed
       first
          | with_reducible assumption | exact Part.sub_trans rfl hl | with_reducible apply raise_moves
          | with_reducible apply refuseHeld_moves | with_reducible apply applyTransition_moves
          | with_reducible apply acquireLease_moves | with_reducible apply Moves.ite)

theorem transition_moves {pl : List Part} {z : State} (n : Nat) (dest : Mode) (cause : Nat) {s : State}
    (hz : Moves pl z s)
    (hl : Part.sub [.mode, .aon, .pins, .start, .flash, .host, .evt, .pwr, .xpt, .cue, .red, .lane, .flow, .cmp, .aud, .out] pl = true := by first | rfl | exact Part.sub_trans rfl (by assumption)) :
    Moves pl z (transition n dest cause s) := by
  unfold transition
  try dsimp only
  repeat' first
    | with_reducible assumption | exact Part.sub_trans rfl hl | with_reducible apply applyTransition_moves
    | with_reducible apply linkTo_moves | with_reducible apply Moves.ite

theorem endLease_moves {pl : List Part} {z : State} (state : Nat) {s : State}
    (hz : Moves pl z s)
    (hl : Part.sub [.mode, .aon, .pins, .start, .flash, .host, .evt, .pwr, .xpt, .cue, .red, .lane, .flow, .cmp, .aud, .out] pl = true := by first | rfl | exact Part.sub_trans rfl (by assumption)) :
    Moves pl z (endLease state s) := by
  unfold endLease
  try dsimp only
  repeat' first
    | with_reducible assumption | exact Part.sub_trans rfl hl | with_reducible apply dropLease_moves
    | with_reducible apply raiseLease_moves | with_reducible apply transition_moves
    | with_reducible apply Moves.ite
    | (with_reducible apply Moves.setRed
       first
          | with_reducible assumption | exact Part.sub_trans rfl hl | with_reducible apply dropLease_moves
          | with_reducible apply raiseLease_moves | with_reducible apply transition_moves
          | with_reducible apply Moves.ite)

theorem chipFault_moves {pl : List Part} {z : State} (source : Nat) {s : State}
    (hz : Moves pl z s)
    (hl : Part.sub [.mode, .aon, .pins, .start, .flash, .host, .evt, .saf, .pwr, .xpt, .cue, .red, .lane, .flow, .cmp, .aud, .out] pl = true := by first | rfl | exact Part.sub_trans rfl (by assumption)) :
    Moves pl z (chipFault source s) := by
  unfold chipFault
  try dsimp only
  repeat' first
    | with_reducible assumption | exact Part.sub_trans rfl hl | with_reducible apply raise_moves
    | with_reducible apply endLease_moves | with_reducible apply Moves.ite
    | (with_reducible apply Moves.setSaf
       first
          | with_reducible assumption | exact Part.sub_trans rfl hl | with_reducible apply raise_moves
          | with_reducible apply endLease_moves | with_reducible apply Moves.ite)

theorem setSafePins_moves {pl : List Part} {z : State} (p : PinState) {s : State}
    (hz : Moves pl z s)
    (hl : Part.sub [.saf, .out] pl = true := by first | rfl | exact Part.sub_trans rfl (by assumption)) :
    Moves pl z (setSafePins p s) := by
  unfold setSafePins
  try dsimp only
  repeat' first
    | with_reducible assumption | exact Part.sub_trans rfl hl | with_reducible apply emitPin_moves
    | with_reducible apply Moves.ite
    | (with_reducible apply Moves.setSaf
       first
          | with_reducible assumption | exact Part.sub_trans rfl hl | with_reducible apply emitPin_moves
          | with_reducible apply Moves.ite)

theorem abandonEntry_moves {pl : List Part} {z : State} {s : State}
    (hz : Moves pl z s)
    (hl : Part.sub [.mode, .flash, .evt, .pwr, .tim, .out] pl = true := by first | rfl | exact Part.sub_trans rfl (by assumption)) :
    Moves pl z (abandonEntry s) := by
  unfold abandonEntry
  dsimp only
  refine driveHt_moves _ ?_
  have h1 := raise_moves 2 12 0xC024 0 [pack8_16 s.pwr.sleep 0 0] hz
  generalize raise 2 12 0xC024 0 [pack8_16 s.pwr.sleep 0 0] s = x at h1
  exact (h1.setMode x.pwr.fromMode).setPwr { x.pwr with entering := false, sleep := 0, imageWritten := false }

theorem reaction_moves {pl : List Part} {z : State} (m : Nat) (comps : List Nat) {s : State}
    (hz : Moves pl z s)
    (hl : Part.sub [.mode, .aon, .pins, .start, .flash, .host, .evt, .saf, .pwr, .xpt, .cue, .red, .tim, .lane, .flow, .cmp, .aud, .out] pl = true := by first | rfl | exact Part.sub_trans rfl (by assumption)) :
    Moves pl z (reaction m comps s) := by
  unfold reaction
  try dsimp only
  repeat' first
    | with_reducible assumption | exact Part.sub_trans rfl hl | with_reducible apply addSafeFrames_moves
    | with_reducible apply setSafePins_moves | with_reducible apply abandonEntry_moves
    | with_reducible apply transition_moves | with_reducible apply raise_moves | with_reducible apply Moves.ite
    | (with_reducible apply Moves.setSaf
       first
          | with_reducible assumption | exact Part.sub_trans rfl hl | with_reducible apply addSafeFrames_moves
          | with_reducible apply setSafePins_moves | with_reducible apply abandonEntry_moves
          | with_reducible apply transition_moves | with_reducible apply raise_moves
          | with_reducible apply Moves.ite)

theorem modeDecision_moves {pl : List Part} {z : State} {s : State}
    (hz : Moves pl z s)
    (hl : Part.sub [.mode, .aon, .pins, .start, .flash, .host, .evt, .pwr, .xpt, .cue, .red, .lane, .flow, .cmp, .aud, .out] pl = true := by first | rfl | exact Part.sub_trans rfl (by assumption)) :
    Moves pl z (modeDecision s) := by
  unfold modeDecision
  try dsimp only
  repeat' first
    | with_reducible assumption | exact Part.sub_trans rfl hl | with_reducible apply transition_moves
    | with_reducible apply Moves.ite

theorem calProgress_moves {pl : List Part} {z : State} {s : State}
    (hz : Moves pl z s)
    (hl : Part.sub [.mode, .aon, .pins, .start, .cal, .flash, .host, .evt, .pwr, .xpt, .cue, .red, .lane, .flow, .cmp, .aud, .out] pl = true := by first | rfl | exact Part.sub_trans rfl (by assumption)) :
    Moves pl z (calProgress s) := by
  unfold calProgress
  try dsimp only
  repeat' first
    | with_reducible assumption | exact Part.sub_trans rfl hl | with_reducible apply modeDecision_moves
    | with_reducible apply Moves.ite
    | (with_reducible apply Moves.setCal
       first
          | with_reducible assumption | exact Part.sub_trans rfl hl | with_reducible apply modeDecision_moves
          | with_reducible apply Moves.ite)

theorem reenterCalibrate_moves {pl : List Part} {z : State} (n : Nat) {s : State}
    (hz : Moves pl z s)
    (hl : Part.sub [.mode, .aon, .pins, .start, .cal, .flash, .host, .evt, .pwr, .xpt, .cue, .red, .lane, .flow, .cmp, .aud, .out] pl = true := by first | rfl | exact Part.sub_trans rfl (by assumption)) :
    Moves pl z (reenterCalibrate n s) := by
  unfold reenterCalibrate
  try dsimp only
  repeat' first
    | with_reducible assumption | exact Part.sub_trans rfl hl | with_reducible apply calProgress_moves
    | with_reducible apply Moves.onCal | with_reducible apply transition_moves

theorem takeT0_moves {pl : List Part} {z : State} {s : State}
    (hz : Moves pl z s)
    (hl : Part.sub [.aon, .start, .saf] pl = true := by first | rfl | exact Part.sub_trans rfl (by assumption)) :
    Moves pl z (takeT0 s) := by
  exact ((hz.setStart { s.start with
    inReset := false, t0 := some s.clock.clk, straps := sampleStraps s, readyMs := 0xFFFF, readySeen := false }).setAon
    { s.aon with boot := { s.aon.boot with bootSrc := (sampleStraps s).bootSrc } }).setSaf { s.saf with pins := .low }

theorem resetState_moves {pl : List Part} {z : State} {s : State}
    (hz : Moves pl z s)
    (hl : Part.sub [.clock, .mode, .halWaitMs, .aon, .pins, .start, .cal, .flash, .host, .evt, .saf, .ctl, .pwr, .xpt, .cue, .red, .eth, .tim, .lane, .flow, .fst, .cmp, .aud, .image] pl = true := by first | rfl | exact Part.sub_trans rfl (by assumption)) :
    Moves pl z (resetState s) := by
  refine hz.step hl ((Steady.refl s).upd _ rfl (Nat.le_refl _) rfl rfl (Nat.le_refl _) id (fun _ => rfl) (fun _ => rfl)
    (fun _ => rfl)) ?_
  intro p hp
  cases p
  all_goals first
    | exact absurd (by decide) hp
    | rfl

theorem setVsel_moves {pl : List Part} {z : State} (v : Nat) {s : State}
    (hz : Moves pl z s)
    (hl : Part.sub [.pins, .out] pl = true := by first | rfl | exact Part.sub_trans rfl (by assumption)) :
    Moves pl z (setVsel v s) := by
  unfold setVsel
  try dsimp only
  repeat' first
    | with_reducible assumption | exact Part.sub_trans rfl hl | with_reducible apply emitPin_moves
    | with_reducible apply Moves.ite
    | (with_reducible apply Moves.setPins
       first
          | with_reducible assumption | exact Part.sub_trans rfl hl | with_reducible apply emitPin_moves
          | with_reducible apply Moves.ite)

theorem pinsDown_moves {pl : List Part} {z : State} {s : State}
    (hz : Moves pl z s)
    (hl : Part.sub [.pins, .start, .saf, .pwr, .tim, .out] pl = true := by first | rfl | exact Part.sub_trans rfl (by assumption)) :
    Moves pl z (pinsDown s) := by
  unfold pinsDown
  try dsimp only
  repeat' first
    | with_reducible assumption | exact Part.sub_trans rfl hl | with_reducible apply setSafePins_moves
    | with_reducible apply driveHt_moves | with_reducible apply setReady_moves
    | with_reducible apply emitPin_moves | with_reducible apply setVsel_moves | with_reducible apply Moves.ite
    | (with_reducible apply Moves.setPins
       first
          | with_reducible assumption | exact Part.sub_trans rfl hl | with_reducible apply setSafePins_moves
          | with_reducible apply driveHt_moves | with_reducible apply setReady_moves
          | with_reducible apply emitPin_moves | with_reducible apply setVsel_moves
          | with_reducible apply Moves.ite)

theorem takeT1_moves {pl : List Part} {z : State} (cause : Nat) {s : State}
    (hz : Moves pl z s)
    (hl : Part.sub [.clock, .mode, .halWaitMs, .aon, .pins, .start, .cal, .flash, .host, .evt, .saf, .ctl, .pwr, .xpt, .cue, .red, .eth, .tim, .lane, .flow, .fst, .cmp, .aud, .out, .image] pl = true := by first | rfl | exact Part.sub_trans rfl (by assumption)) :
    Moves pl z (takeT1 cause s) := by
  unfold takeT1
  have h1 : Moves pl z (if s.mode = .retain && s.pwr.entering then
      { s with aon := { s.aon with retainStore := none }
               evt := { s.evt with preRec := s.evt.preRec ++ [{ code := 0xC024, sev := 2, cls := 12, mode := s.mode.code
                                                                payload := [pack8_16 s.pwr.sleep 1 0] }] } }
    else s) := .ite (Moves.evtSame (hz.setAon { s.aon with retainStore := none }) _ rfl) hz
  exact raiseModeChange_moves _ _ _ _ (resetState_moves (pinsDown_moves (h1.setAon _)))

theorem takeT1Start_moves {pl : List Part} {z : State} (cause : Nat) {s : State}
    (hz : Moves pl z s)
    (hl : Part.sub [.clock, .mode, .halWaitMs, .aon, .pins, .start, .cal, .flash, .host, .evt, .saf, .ctl, .pwr, .xpt, .cue, .red, .eth, .tim, .lane, .flow, .fst, .cmp, .aud, .out, .image] pl = true := by first | rfl | exact Part.sub_trans rfl (by assumption)) :
    Moves pl z (takeT1Start cause s) := by
  unfold takeT1Start
  try dsimp only
  repeat' first
    | with_reducible assumption | exact Part.sub_trans rfl hl | with_reducible apply takeT1_moves
    | with_reducible apply takeT0_moves | with_reducible apply Moves.ite

end Sys2Proof.Machine
end

