-- ==== Sys2Proof/Laws/MovesHost.lean ====
section
/-! SUPPORT. What each operation and command of `Machine/Host.lean` moves. -/

-- The package is checked as one text; elaborating these proofs in order keeps the number of threads small.
set_option Elab.async false

namespace Sys2Proof.Machine

theorem setLastSeq_moves {pl : List Part} {z : State} (id : Nat) (seq : Nat) {s : State}
    (hz : Moves pl z s)
    (hl : Part.sub [.aon] pl = true := by first | rfl | exact Part.sub_trans rfl (by assumption)) :
    Moves pl z (setLastSeq id seq s) := by
  unfold setLastSeq
  try dsimp only
  repeat' first
    | with_reducible assumption | exact Part.sub_trans rfl hl | with_reducible apply Moves.onAon
    | with_reducible apply Moves.ite
    | (with_reducible apply Moves.setAon
       first
          | with_reducible assumption | exact Part.sub_trans rfl hl | with_reducible apply Moves.onAon
          | with_reducible apply Moves.ite)

theorem hostCount_moves {pl : List Part} {z : State} (i : Nat) {s : State}
    (hz : Moves pl z s)
    (hl : Part.sub [.host] pl = true := by first | rfl | exact Part.sub_trans rfl (by assumption)) :
    Moves pl z (hostCount i s) := by
  exact hz.hostSame _ rfl rfl

theorem raiseViolation_moves {pl : List Part} {z : State} (code : Nat) (step : Nat) (status : Nat) (d : Datagram) (h : Header) {s : State}
    (hz : Moves pl z s)
    (hl : Part.sub [.flash, .evt] pl = true := by first | rfl | exact Part.sub_trans rfl (by assumption)) :
    Moves pl z (raiseViolation code step status d h s) := by
  unfold raiseViolation
  try dsimp only
  repeat' first
    | with_reducible assumption | exact Part.sub_trans rfl hl | with_reducible apply raise_moves

theorem discardAt_moves {pl : List Part} {z : State} (step : Nat) (cntIdx : Nat) (d : Datagram) (h : Header) {s : State}
    (hz : Moves pl z s)
    (hl : Part.sub [.flash, .host, .evt] pl = true := by first | rfl | exact Part.sub_trans rfl (by assumption)) :
    Moves pl z (discardAt step cntIdx d h s) := by
  unfold discardAt
  try dsimp only
  repeat' first
    | with_reducible assumption | exact Part.sub_trans rfl hl | with_reducible apply hostCount_moves
    | with_reducible apply raiseViolation_moves | with_reducible apply Moves.ite

theorem refuseAt_moves {pl : List Part} {z : State} (step : Nat) (cntIdx : Nat) (code : Nat) (st : Status) (d : Datagram) (h : Header) {s : State}
    (hz : Moves pl z s)
    (hl : Part.sub [.flash, .host, .evt, .out] pl = true := by first | rfl | exact Part.sub_trans rfl (by assumption)) :
    Moves pl z (refuseAt step cntIdx code st d h s) := by
  unfold refuseAt
  try dsimp only
  repeat' first
    | with_reducible assumption | exact Part.sub_trans rfl hl | with_reducible apply sendReply_moves
    | with_reducible apply hostCount_moves | with_reducible apply raiseViolation_moves

theorem acceptComplete_moves {pl : List Part} {z : State} (opcode : Nat) (c : HostCmd) {s : State}
    (hz : Moves pl z s)
    (hl : Part.sub [.flash, .host, .evt, .red, .out] pl = true := by first | rfl | exact Part.sub_trans rfl (by assumption)) :
    Moves pl z (acceptComplete opcode c s) := by
  unfold acceptComplete
  split
  · exact finishCode_moves _ _ _ _ hz
  · rename_i op _
    refine .ite (sendHalyard_moves _ _ (hz.setRed _)) ?_
    split
    · exact pairAfter_moves _ _ _ _ _ (finish_moves _ _ _ _ (raiseRoleDenied_moves _ _ hz))
    · split
      · exact pairAfter_moves _ _ _ _ _ (finish_moves _ _ _ _ hz)
      · split
        · exact pairAfter_moves _ _ _ _ _ (finish_moves _ _ _ _ (hostCount_moves _ hz))
        · rename_i hlt
          refine hz.setHost _ (fun hf => ?_)
          rw [HostSt.fits_iff] at hf ⊢
          refine ⟨?_, hf.2⟩
          simp only [List.length_append, List.length_cons, List.length_nil]
          omega

theorem commandArrived_moves {pl : List Part} {z : State} (opcode : Nat) (c : HostCmd) (lastTag : List Byte) {s : State}
    (hz : Moves pl z s)
    (hl : Part.sub [.aon, .flash, .host, .evt, .red, .out] pl = true := by first | rfl | exact Part.sub_trans rfl (by assumption)) :
    Moves pl z (commandArrived opcode c lastTag s) := by
  unfold commandArrived
  try dsimp only
  repeat' first
    | with_reducible assumption | exact Part.sub_trans rfl hl | with_reducible apply setLastSeq_moves
    | with_reducible refine Moves.onHostSame ?_ _ (fun _ => rfl) (fun _ => rfl) ?_
    | with_reducible apply acceptComplete_moves | with_reducible apply Moves.ite

theorem abandonReasm_moves {pl : List Part} {z : State} (session : Nat) {s : State}
    (hz : Moves pl z s)
    (hl : Part.sub [.host] pl = true := by first | rfl | exact Part.sub_trans rfl (by assumption)) :
    Moves pl z (abandonReasm session s) := by
  unfold abandonReasm
  refine .ite (hostCount_moves _ (hz.setHost _ (fun hf => ?_))) hz
  rw [HostSt.fits_iff] at hf ⊢
  exact ⟨hf.1, Nat.le_trans (List.length_filter_le ..) hf.2⟩

theorem openReasm_moves {pl : List Part} {z : State} (h : Header) (c : HostCmd) {s : State}
    (hz : Moves pl z s)
    (hl : Part.sub [.host, .out] pl = true := by first | rfl | exact Part.sub_trans rfl (by assumption)) :
    Moves pl z (openReasm h c s) := by
  unfold openReasm
  split
  · exact sendReply_moves _ _ _ _ _ hz
  · rename_i hlt
    refine hz.setHost _ (fun hf => ?_)
    rw [HostSt.fits_iff] at hf ⊢
    refine ⟨hf.1, ?_⟩
    simp only [List.length_append, List.length_cons, List.length_nil]
    omega

theorem addFragment_moves {pl : List Part} {z : State} (h : Header) (c : HostCmd) (r : Reasm) {s : State}
    (hz : Moves pl z s)
    (hl : Part.sub [.aon, .flash, .host, .evt, .red, .out] pl = true := by first | rfl | exact Part.sub_trans rfl (by assumption)) :
    Moves pl z (addFragment h c r s) := by
  unfold addFragment
  dsimp only
  refine .ite (sendReply_moves _ _ _ _ _ (abandonReasm_moves _ hz)) (.ite (hostCount_moves _ hz) (.ite
    (sendReply_moves _ _ _ _ _ (abandonReasm_moves _ hz)) (.ite (commandArrived_moves _ _ _ ?_) ?_)))
  · refine hz.setHost _ (fun hf => ?_)
    rw [HostSt.fits_iff] at hf ⊢
    exact ⟨hf.1, Nat.le_trans (List.length_filter_le ..) hf.2⟩
  · refine hz.setHost _ (fun hf => ?_)
    rw [HostSt.fits_iff] at hf ⊢
    simpa only [List.length_map] using hf

theorem reassemble_moves {pl : List Part} {z : State} (h : Header) (c : HostCmd) {s : State}
    (hz : Moves pl z s)
    (hl : Part.sub [.aon, .flash, .host, .evt, .red, .out] pl = true := by first | rfl | exact Part.sub_trans rfl (by assumption)) :
    Moves pl z (reassemble h c s) := by
  unfold reassemble
  try dsimp only
  repeat' first
    | with_reducible assumption | exact Part.sub_trans rfl hl | with_reducible apply commandArrived_moves
    | with_reducible apply openReasm_moves | with_reducible apply abandonReasm_moves
    | with_reducible apply sendReply_moves | with_reducible apply addFragment_moves
    | with_reducible apply Moves.ite
    | (split <;> try dsimp only)

theorem finishReplay_moves {pl : List Part} {z : State} (d : Datagram) (h : Header) (c : HostCmd) {s : State} (hz : Moves pl z s)
    (hl : Part.sub [.flash, .host, .evt, .out] pl = true := by first | rfl | exact Part.sub_trans rfl (by assumption)) :
    Moves pl z (repeatOfLast.finishReplay d h c s) :=
  sendReply_moves _ _ _ _ _ (hostCount_moves _ (raiseViolation_moves _ _ _ _ _ hz))

theorem repeatOfLast_moves {pl : List Part} {z : State} (d : Datagram) (h : Header) (c : HostCmd) {s : State}
    (hz : Moves pl z s)
    (hl : Part.sub [.flash, .host, .evt, .red, .out] pl = true := by first | rfl | exact Part.sub_trans rfl (by assumption)) :
    Moves pl z (repeatOfLast d h c s) := by
  unfold repeatOfLast
  dsimp only
  split
  · exact finishReplay_moves _ _ _ hz
  · refine .ite (finishReplay_moves _ _ _ hz) (.ite (hostCount_moves _ hz) (.ite ?_ (hostCount_moves _ hz)))
    exact .ite (acceptComplete_moves _ _ (hostCount_moves _ hz))
      (.ite (sendReply_moves _ _ _ _ _ (hostCount_moves _ hz)) (hostCount_moves _ hz))

theorem sequenceCheck_moves {pl : List Part} {z : State} (d : Datagram) (h : Header) (c : HostCmd) {s : State}
    (hz : Moves pl z s)
    (hl : Part.sub [.aon, .flash, .host, .evt, .red, .out] pl = true := by first | rfl | exact Part.sub_trans rfl (by assumption)) :
    Moves pl z (sequenceCheck d h c s) := by
  unfold sequenceCheck
  try dsimp only
  repeat' first
    | with_reducible assumption | exact Part.sub_trans rfl hl | with_reducible apply reassemble_moves
    | with_reducible apply repeatOfLast_moves | with_reducible apply sendReply_moves
    | with_reducible apply hostCount_moves | with_reducible apply raiseViolation_moves
    | with_reducible apply Moves.ite

theorem judgeDatagram_moves {pl : List Part} {z : State} (d : Datagram) {s : State}
    (hz : Moves pl z s)
    (hl : Part.sub [.aon, .flash, .host, .evt, .red, .out] pl = true := by first | rfl | exact Part.sub_trans rfl (by assumption)) :
    Moves pl z (judgeDatagram d s) := by
  unfold judgeDatagram
  dsimp only
  split
  · rename_i f he
    unfold earlyCheck at he
    repeat' split at he
    all_goals first
      | (cases he; done)
      | (cases he; exact discardAt_moves _ _ _ _ hz)
      | (cases he; exact refuseAt_moves _ _ _ _ _ _ hz)
  · split
    · exact refuseAt_moves _ _ _ _ _ _ hz
    · exact sequenceCheck_moves _ _ _ hz

theorem execCommandDatagram_moves {pl : List Part} {z : State} (t : Nat) (d : Datagram) {s : State}
    (hz : Moves pl z s)
    (hl : Part.sub [.clock, .aon, .flash, .host, .evt, .red, .out] pl = true := by first | rfl | exact Part.sub_trans rfl (by assumption)) :
    MovesOut pl z (execCommandDatagram t d s) := by
  unfold execCommandDatagram
  try dsimp only
  try with_reducible refine MovesOut.next ?_
  repeat' first
    | with_reducible assumption | exact Part.sub_trans rfl hl | with_reducible apply advance_moves
    | with_reducible apply judgeDatagram_moves | with_reducible apply Moves.ite

theorem execReassemblyTimeout_moves {pl : List Part} {z : State} (t : Nat) (session : Nat) {s : State}
    (hz : Moves pl z s)
    (hl : Part.sub [.clock, .host] pl = true := by first | rfl | exact Part.sub_trans rfl (by assumption)) :
    MovesOut pl z (execReassemblyTimeout t session s) := by
  unfold execReassemblyTimeout
  try dsimp only
  try with_reducible refine MovesOut.next ?_
  repeat' first
    | with_reducible assumption | exact Part.sub_trans rfl hl | with_reducible apply advance_moves
    | with_reducible apply abandonReasm_moves | with_reducible apply Moves.ite
    | (split <;> try dsimp only)

end Sys2Proof.Machine
end

