-- ==== Sys2Proof/Laws/State.lean ====
section
/-! SUPPORT. What every update of one part leaves of the state, field by field: each true by computing, so that no proof
unfolds a record update. -/

-- The package is checked as one text; elaborating these proofs in order keeps the number of threads small.
set_option Elab.async false

namespace Sys2Proof.Machine

@[simp] theorem onClock_pending (f : Clock → Clock) (s : State) : (onClock f s).pending = s.pending := rfl
@[simp] theorem onClock_clock (f : Clock → Clock) (s : State) : (onClock f s).clock = f s.clock := rfl
@[simp] theorem onClock_mode (f : Clock → Clock) (s : State) : (onClock f s).mode = s.mode := rfl
@[simp] theorem onClock_halWaitMs (f : Clock → Clock) (s : State) : (onClock f s).halWaitMs = s.halWaitMs := rfl
@[simp] theorem onClock_fuses (f : Clock → Clock) (s : State) : (onClock f s).fuses = s.fuses := rfl
@[simp] theorem onClock_seq (f : Clock → Clock) (s : State) : (onClock f s).seq = s.seq := rfl
@[simp] theorem onClock_aon (f : Clock → Clock) (s : State) : (onClock f s).aon = s.aon := rfl
@[simp] theorem onClock_pins (f : Clock → Clock) (s : State) : (onClock f s).pins = s.pins := rfl
@[simp] theorem onClock_start (f : Clock → Clock) (s : State) : (onClock f s).start = s.start := rfl
@[simp] theorem onClock_cal (f : Clock → Clock) (s : State) : (onClock f s).cal = s.cal := rfl
@[simp] theorem onClock_flash (f : Clock → Clock) (s : State) : (onClock f s).flash = s.flash := rfl
@[simp] theorem onClock_host (f : Clock → Clock) (s : State) : (onClock f s).host = s.host := rfl
@[simp] theorem onClock_evt (f : Clock → Clock) (s : State) : (onClock f s).evt = s.evt := rfl
@[simp] theorem onClock_saf (f : Clock → Clock) (s : State) : (onClock f s).saf = s.saf := rfl
@[simp] theorem onClock_ctl (f : Clock → Clock) (s : State) : (onClock f s).ctl = s.ctl := rfl
@[simp] theorem onClock_pwr (f : Clock → Clock) (s : State) : (onClock f s).pwr = s.pwr := rfl
@[simp] theorem onClock_xpt (f : Clock → Clock) (s : State) : (onClock f s).xpt = s.xpt := rfl
@[simp] theorem onClock_cue (f : Clock → Clock) (s : State) : (onClock f s).cue = s.cue := rfl
@[simp] theorem onClock_red (f : Clock → Clock) (s : State) : (onClock f s).red = s.red := rfl
@[simp] theorem onClock_eth (f : Clock → Clock) (s : State) : (onClock f s).eth = s.eth := rfl
@[simp] theorem onClock_tim (f : Clock → Clock) (s : State) : (onClock f s).tim = s.tim := rfl
@[simp] theorem onClock_lane (f : Clock → Clock) (s : State) : (onClock f s).lane = s.lane := rfl
@[simp] theorem onClock_flow (f : Clock → Clock) (s : State) : (onClock f s).flow = s.flow := rfl
@[simp] theorem onClock_fst (f : Clock → Clock) (s : State) : (onClock f s).fst = s.fst := rfl
@[simp] theorem onClock_cmp (f : Clock → Clock) (s : State) : (onClock f s).cmp = s.cmp := rfl
@[simp] theorem onClock_aud (f : Clock → Clock) (s : State) : (onClock f s).aud = s.aud := rfl
@[simp] theorem onClock_out (f : Clock → Clock) (s : State) : (onClock f s).out = s.out := rfl
@[simp] theorem onClock_free (f : Clock → Clock) (s : State) : (onClock f s).free = s.free := rfl
@[simp] theorem onClock_image (f : Clock → Clock) (s : State) : (onClock f s).image = s.image := rfl

@[simp] theorem onFuses_pending (f : Fuses → Fuses) (s : State) : (onFuses f s).pending = s.pending := rfl
@[simp] theorem onFuses_clock (f : Fuses → Fuses) (s : State) : (onFuses f s).clock = s.clock := rfl
@[simp] theorem onFuses_mode (f : Fuses → Fuses) (s : State) : (onFuses f s).mode = s.mode := rfl
@[simp] theorem onFuses_halWaitMs (f : Fuses → Fuses) (s : State) : (onFuses f s).halWaitMs = s.halWaitMs := rfl
@[simp] theorem onFuses_fuses (f : Fuses → Fuses) (s : State) : (onFuses f s).fuses = f s.fuses := rfl
@[simp] theorem onFuses_seq (f : Fuses → Fuses) (s : State) : (onFuses f s).seq = s.seq := rfl
@[simp] theorem onFuses_aon (f : Fuses → Fuses) (s : State) : (onFuses f s).aon = s.aon := rfl
@[simp] theorem onFuses_pins (f : Fuses → Fuses) (s : State) : (onFuses f s).pins = s.pins := rfl
@[simp] theorem onFuses_start (f : Fuses → Fuses) (s : State) : (onFuses f s).start = s.start := rfl
@[simp] theorem onFuses_cal (f : Fuses → Fuses) (s : State) : (onFuses f s).cal = s.cal := rfl
@[simp] theorem onFuses_flash (f : Fuses → Fuses) (s : State) : (onFuses f s).flash = s.flash := rfl
@[simp] theorem onFuses_host (f : Fuses → Fuses) (s : State) : (onFuses f s).host = s.host := rfl
@[simp] theorem onFuses_evt (f : Fuses → Fuses) (s : State) : (onFuses f s).evt = s.evt := rfl
@[simp] theorem onFuses_saf (f : Fuses → Fuses) (s : State) : (onFuses f s).saf = s.saf := rfl
@[simp] theorem onFuses_ctl (f : Fuses → Fuses) (s : State) : (onFuses f s).ctl = s.ctl := rfl
@[simp] theorem onFuses_pwr (f : Fuses → Fuses) (s : State) : (onFuses f s).pwr = s.pwr := rfl
@[simp] theorem onFuses_xpt (f : Fuses → Fuses) (s : State) : (onFuses f s).xpt = s.xpt := rfl
@[simp] theorem onFuses_cue (f : Fuses → Fuses) (s : State) : (onFuses f s).cue = s.cue := rfl
@[simp] theorem onFuses_red (f : Fuses → Fuses) (s : State) : (onFuses f s).red = s.red := rfl
@[simp] theorem onFuses_eth (f : Fuses → Fuses) (s : State) : (onFuses f s).eth = s.eth := rfl
@[simp] theorem onFuses_tim (f : Fuses → Fuses) (s : State) : (onFuses f s).tim = s.tim := rfl
@[simp] theorem onFuses_lane (f : Fuses → Fuses) (s : State) : (onFuses f s).lane = s.lane := rfl
@[simp] theorem onFuses_flow (f : Fuses → Fuses) (s : State) : (onFuses f s).flow = s.flow := rfl
@[simp] theorem onFuses_fst (f : Fuses → Fuses) (s : State) : (onFuses f s).fst = s.fst := rfl
@[simp] theorem onFuses_cmp (f : Fuses → Fuses) (s : State) : (onFuses f s).cmp = s.cmp := rfl
@[simp] theorem onFuses_aud (f : Fuses → Fuses) (s : State) : (onFuses f s).aud = s.aud := rfl
@[simp] theorem onFuses_out (f : Fuses → Fuses) (s : State) : (onFuses f s).out = s.out := rfl
@[simp] theorem onFuses_free (f : Fuses → Fuses) (s : State) : (onFuses f s).free = s.free := rfl
@[simp] theorem onFuses_image (f : Fuses → Fuses) (s : State) : (onFuses f s).image = s.image := rfl

@[simp] theorem onSeq_pending (f : Seq → Seq) (s : State) : (onSeq f s).pending = s.pending := rfl
@[simp] theorem onSeq_clock (f : Seq → Seq) (s : State) : (onSeq f s).clock = s.clock := rfl
@[simp] theorem onSeq_mode (f : Seq → Seq) (s : State) : (onSeq f s).mode = s.mode := rfl
@[simp] theorem onSeq_halWaitMs (f : Seq → Seq) (s : State) : (onSeq f s).halWaitMs = s.halWaitMs := rfl
@[simp] theorem onSeq_fuses (f : Seq → Seq) (s : State) : (onSeq f s).fuses = s.fuses := rfl
@[simp] theorem onSeq_seq (f : Seq → Seq) (s : State) : (onSeq f s).seq = f s.seq := rfl
@[simp] theorem onSeq_aon (f : Seq → Seq) (s : State) : (onSeq f s).aon = s.aon := rfl
@[simp] theorem onSeq_pins (f : Seq → Seq) (s : State) : (onSeq f s).pins = s.pins := rfl
@[simp] theorem onSeq_start (f : Seq → Seq) (s : State) : (onSeq f s).start = s.start := rfl
@[simp] theorem onSeq_cal (f : Seq → Seq) (s : State) : (onSeq f s).cal = s.cal := rfl
@[simp] theorem onSeq_flash (f : Seq → Seq) (s : State) : (onSeq f s).flash = s.flash := rfl
@[simp] theorem onSeq_host (f : Seq → Seq) (s : State) : (onSeq f s).host = s.host := rfl
@[simp] theorem onSeq_evt (f : Seq → Seq) (s : State) : (onSeq f s).evt = s.evt := rfl
@[simp] theorem onSeq_saf (f : Seq → Seq) (s : State) : (onSeq f s).saf = s.saf := rfl
@[simp] theorem onSeq_ctl (f : Seq → Seq) (s : State) : (onSeq f s).ctl = s.ctl := rfl
@[simp] theorem onSeq_pwr (f : Seq → Seq) (s : State) : (onSeq f s).pwr = s.pwr := rfl
@[simp] theorem onSeq_xpt (f : Seq → Seq) (s : State) : (onSeq f s).xpt = s.xpt := rfl
@[simp] theorem onSeq_cue (f : Seq → Seq) (s : State) : (onSeq f s).cue = s.cue := rfl
@[simp] theorem onSeq_red (f : Seq → Seq) (s : State) : (onSeq f s).red = s.red := rfl
@[simp] theorem onSeq_eth (f : Seq → Seq) (s : State) : (onSeq f s).eth = s.eth := rfl
@[simp] theorem onSeq_tim (f : Seq → Seq) (s : State) : (onSeq f s).tim = s.tim := rfl
@[simp] theorem onSeq_lane (f : Seq → Seq) (s : State) : (onSeq f s).lane = s.lane := rfl
@[simp] theorem onSeq_flow (f : Seq → Seq) (s : State) : (onSeq f s).flow = s.flow := rfl
@[simp] theorem onSeq_fst (f : Seq → Seq) (s : State) : (onSeq f s).fst = s.fst := rfl
@[simp] theorem onSeq_cmp (f : Seq → Seq) (s : State) : (onSeq f s).cmp = s.cmp := rfl
@[simp] theorem onSeq_aud (f : Seq → Seq) (s : State) : (onSeq f s).aud = s.aud := rfl
@[simp] theorem onSeq_out (f : Seq → Seq) (s : State) : (onSeq f s).out = s.out := rfl
@[simp] theorem onSeq_free (f : Seq → Seq) (s : State) : (onSeq f s).free = s.free := rfl
@[simp] theorem onSeq_image (f : Seq → Seq) (s : State) : (onSeq f s).image = s.image := rfl

@[simp] theorem onAon_pending (f : Aon → Aon) (s : State) : (onAon f s).pending = s.pending := rfl
@[simp] theorem onAon_clock (f : Aon → Aon) (s : State) : (onAon f s).clock = s.clock := rfl
@[simp] theorem onAon_mode (f : Aon → Aon) (s : State) : (onAon f s).mode = s.mode := rfl
@[simp] theorem onAon_halWaitMs (f : Aon → Aon) (s : State) : (onAon f s).halWaitMs = s.halWaitMs := rfl
@[simp] theorem onAon_fuses (f : Aon → Aon) (s : State) : (onAon f s).fuses = s.fuses := rfl
@[simp] theorem onAon_seq (f : Aon → Aon) (s : State) : (onAon f s).seq = s.seq := rfl
@[simp] theorem onAon_aon (f : Aon → Aon) (s : State) : (onAon f s).aon = f s.aon := rfl
@[simp] theorem onAon_pins (f : Aon → Aon) (s : State) : (onAon f s).pins = s.pins := rfl
@[simp] theorem onAon_start (f : Aon → Aon) (s : State) : (onAon f s).start = s.start := rfl
@[simp] theorem onAon_cal (f : Aon → Aon) (s : State) : (onAon f s).cal = s.cal := rfl
@[simp] theorem onAon_flash (f : Aon → Aon) (s : State) : (onAon f s).flash = s.flash := rfl
@[simp] theorem onAon_host (f : Aon → Aon) (s : State) : (onAon f s).host = s.host := rfl
@[simp] theorem onAon_evt (f : Aon → Aon) (s : State) : (onAon f s).evt = s.evt := rfl
@[simp] theorem onAon_saf (f : Aon → Aon) (s : State) : (onAon f s).saf = s.saf := rfl
@[simp] theorem onAon_ctl (f : Aon → Aon) (s : State) : (onAon f s).ctl = s.ctl := rfl
@[simp] theorem onAon_pwr (f : Aon → Aon) (s : State) : (onAon f s).pwr = s.pwr := rfl
@[simp] theorem onAon_xpt (f : Aon → Aon) (s : State) : (onAon f s).xpt = s.xpt := rfl
@[simp] theorem onAon_cue (f : Aon → Aon) (s : State) : (onAon f s).cue = s.cue := rfl
@[simp] theorem onAon_red (f : Aon → Aon) (s : State) : (onAon f s).red = s.red := rfl
@[simp] theorem onAon_eth (f : Aon → Aon) (s : State) : (onAon f s).eth = s.eth := rfl
@[simp] theorem onAon_tim (f : Aon → Aon) (s : State) : (onAon f s).tim = s.tim := rfl
@[simp] theorem onAon_lane (f : Aon → Aon) (s : State) : (onAon f s).lane = s.lane := rfl
@[simp] theorem onAon_flow (f : Aon → Aon) (s : State) : (onAon f s).flow = s.flow := rfl
@[simp] theorem onAon_fst (f : Aon → Aon) (s : State) : (onAon f s).fst = s.fst := rfl
@[simp] theorem onAon_cmp (f : Aon → Aon) (s : State) : (onAon f s).cmp = s.cmp := rfl
@[simp] theorem onAon_aud (f : Aon → Aon) (s : State) : (onAon f s).aud = s.aud := rfl
@[simp] theorem onAon_out (f : Aon → Aon) (s : State) : (onAon f s).out = s.out := rfl
@[simp] theorem onAon_free (f : Aon → Aon) (s : State) : (onAon f s).free = s.free := rfl
@[simp] theorem onAon_image (f : Aon → Aon) (s : State) : (onAon f s).image = s.image := rfl

@[simp] theorem onPins_pending (f : Pins → Pins) (s : State) : (onPins f s).pending = s.pending := rfl
@[simp] theorem onPins_clock (f : Pins → Pins) (s : State) : (onPins f s).clock = s.clock := rfl
@[simp] theorem onPins_mode (f : Pins → Pins) (s : State) : (onPins f s).mode = s.mode := rfl
@[simp] theorem onPins_halWaitMs (f : Pins → Pins) (s : State) : (onPins f s).halWaitMs = s.halWaitMs := rfl
@[simp] theorem onPins_fuses (f : Pins → Pins) (s : State) : (onPins f s).fuses = s.fuses := rfl
@[simp] theorem onPins_seq (f : Pins → Pins) (s : State) : (onPins f s).seq = s.seq := rfl
@[simp] theorem onPins_aon (f : Pins → Pins) (s : State) : (onPins f s).aon = s.aon := rfl
@[simp] theorem onPins_pins (f : Pins → Pins) (s : State) : (onPins f s).pins = f s.pins := rfl
@[simp] theorem onPins_start (f : Pins → Pins) (s : State) : (onPins f s).start = s.start := rfl
@[simp] theorem onPins_cal (f : Pins → Pins) (s : State) : (onPins f s).cal = s.cal := rfl
@[simp] theorem onPins_flash (f : Pins → Pins) (s : State) : (onPins f s).flash = s.flash := rfl
@[simp] theorem onPins_host (f : Pins → Pins) (s : State) : (onPins f s).host = s.host := rfl
@[simp] theorem onPins_evt (f : Pins → Pins) (s : State) : (onPins f s).evt = s.evt := rfl
@[simp] theorem onPins_saf (f : Pins → Pins) (s : State) : (onPins f s).saf = s.saf := rfl
@[simp] theorem onPins_ctl (f : Pins → Pins) (s : State) : (onPins f s).ctl = s.ctl := rfl
@[simp] theorem onPins_pwr (f : Pins → Pins) (s : State) : (onPins f s).pwr = s.pwr := rfl
@[simp] theorem onPins_xpt (f : Pins → Pins) (s : State) : (onPins f s).xpt = s.xpt := rfl
@[simp] theorem onPins_cue (f : Pins → Pins) (s : State) : (onPins f s).cue = s.cue := rfl
@[simp] theorem onPins_red (f : Pins → Pins) (s : State) : (onPins f s).red = s.red := rfl
@[simp] theorem onPins_eth (f : Pins → Pins) (s : State) : (onPins f s).eth = s.eth := rfl
@[simp] theorem onPins_tim (f : Pins → Pins) (s : State) : (onPins f s).tim = s.tim := rfl
@[simp] theorem onPins_lane (f : Pins → Pins) (s : State) : (onPins f s).lane = s.lane := rfl
@[simp] theorem onPins_flow (f : Pins → Pins) (s : State) : (onPins f s).flow = s.flow := rfl
@[simp] theorem onPins_fst (f : Pins → Pins) (s : State) : (onPins f s).fst = s.fst := rfl
@[simp] theorem onPins_cmp (f : Pins → Pins) (s : State) : (onPins f s).cmp = s.cmp := rfl
@[simp] theorem onPins_aud (f : Pins → Pins) (s : State) : (onPins f s).aud = s.aud := rfl
@[simp] theorem onPins_out (f : Pins → Pins) (s : State) : (onPins f s).out = s.out := rfl
@[simp] theorem onPins_free (f : Pins → Pins) (s : State) : (onPins f s).free = s.free := rfl
@[simp] theorem onPins_image (f : Pins → Pins) (s : State) : (onPins f s).image = s.image := rfl

@[simp] theorem onStart_pending (f : Start → Start) (s : State) : (onStart f s).pending = s.pending := rfl
@[simp] theorem onStart_clock (f : Start → Start) (s : State) : (onStart f s).clock = s.clock := rfl
@[simp] theorem onStart_mode (f : Start → Start) (s : State) : (onStart f s).mode = s.mode := rfl
@[simp] theorem onStart_halWaitMs (f : Start → Start) (s : State) : (onStart f s).halWaitMs = s.halWaitMs := rfl
@[simp] theorem onStart_fuses (f : Start → Start) (s : State) : (onStart f s).fuses = s.fuses := rfl
@[simp] theorem onStart_seq (f : Start → Start) (s : State) : (onStart f s).seq = s.seq := rfl
@[simp] theorem onStart_aon (f : Start → Start) (s : State) : (onStart f s).aon = s.aon := rfl
@[simp] theorem onStart_pins (f : Start → Start) (s : State) : (onStart f s).pins = s.pins := rfl
@[simp] theorem onStart_start (f : Start → Start) (s : State) : (onStart f s).start = f s.start := rfl
@[simp] theorem onStart_cal (f : Start → Start) (s : State) : (onStart f s).cal = s.cal := rfl
@[simp] theorem onStart_flash (f : Start → Start) (s : State) : (onStart f s).flash = s.flash := rfl
@[simp] theorem onStart_host (f : Start → Start) (s : State) : (onStart f s).host = s.host := rfl
@[simp] theorem onStart_evt (f : Start → Start) (s : State) : (onStart f s).evt = s.evt := rfl
@[simp] theorem onStart_saf (f : Start → Start) (s : State) : (onStart f s).saf = s.saf := rfl
@[simp] theorem onStart_ctl (f : Start → Start) (s : State) : (onStart f s).ctl = s.ctl := rfl
@[simp] theorem onStart_pwr (f : Start → Start) (s : State) : (onStart f s).pwr = s.pwr := rfl
@[simp] theorem onStart_xpt (f : Start → Start) (s : State) : (onStart f s).xpt = s.xpt := rfl
@[simp] theorem onStart_cue (f : Start → Start) (s : State) : (onStart f s).cue = s.cue := rfl
@[simp] theorem onStart_red (f : Start → Start) (s : State) : (onStart f s).red = s.red := rfl
@[simp] theorem onStart_eth (f : Start → Start) (s : State) : (onStart f s).eth = s.eth := rfl
@[simp] theorem onStart_tim (f : Start → Start) (s : State) : (onStart f s).tim = s.tim := rfl
@[simp] theorem onStart_lane (f : Start → Start) (s : State) : (onStart f s).lane = s.lane := rfl
@[simp] theorem onStart_flow (f : Start → Start) (s : State) : (onStart f s).flow = s.flow := rfl
@[simp] theorem onStart_fst (f : Start → Start) (s : State) : (onStart f s).fst = s.fst := rfl
@[simp] theorem onStart_cmp (f : Start → Start) (s : State) : (onStart f s).cmp = s.cmp := rfl
@[simp] theorem onStart_aud (f : Start → Start) (s : State) : (onStart f s).aud = s.aud := rfl
@[simp] theorem onStart_out (f : Start → Start) (s : State) : (onStart f s).out = s.out := rfl
@[simp] theorem onStart_free (f : Start → Start) (s : State) : (onStart f s).free = s.free := rfl
@[simp] theorem onStart_image (f : Start → Start) (s : State) : (onStart f s).image = s.image := rfl

@[simp] theorem onCal_pending (f : Calib → Calib) (s : State) : (onCal f s).pending = s.pending := rfl
@[simp] theorem onCal_clock (f : Calib → Calib) (s : State) : (onCal f s).clock = s.clock := rfl
@[simp] theorem onCal_mode (f : Calib → Calib) (s : State) : (onCal f s).mode = s.mode := rfl
@[simp] theorem onCal_halWaitMs (f : Calib → Calib) (s : State) : (onCal f s).halWaitMs = s.halWaitMs := rfl
@[simp] theorem onCal_fuses (f : Calib → Calib) (s : State) : (onCal f s).fuses = s.fuses := rfl
@[simp] theorem onCal_seq (f : Calib → Calib) (s : State) : (onCal f s).seq = s.seq := rfl
@[simp] theorem onCal_aon (f : Calib → Calib) (s : State) : (onCal f s).aon = s.aon := rfl
@[simp] theorem onCal_pins (f : Calib → Calib) (s : State) : (onCal f s).pins = s.pins := rfl
@[simp] theorem onCal_start (f : Calib → Calib) (s : State) : (onCal f s).start = s.start := rfl
@[simp] theorem onCal_cal (f : Calib → Calib) (s : State) : (onCal f s).cal = f s.cal := rfl
@[simp] theorem onCal_flash (f : Calib → Calib) (s : State) : (onCal f s).flash = s.flash := rfl
@[simp] theorem onCal_host (f : Calib → Calib) (s : State) : (onCal f s).host = s.host := rfl
@[simp] theorem onCal_evt (f : Calib → Calib) (s : State) : (onCal f s).evt = s.evt := rfl
@[simp] theorem onCal_saf (f : Calib → Calib) (s : State) : (onCal f s).saf = s.saf := rfl
@[simp] theorem onCal_ctl (f : Calib → Calib) (s : State) : (onCal f s).ctl = s.ctl := rfl
@[simp] theorem onCal_pwr (f : Calib → Calib) (s : State) : (onCal f s).pwr = s.pwr := rfl
@[simp] theorem onCal_xpt (f : Calib → Calib) (s : State) : (onCal f s).xpt = s.xpt := rfl
@[simp] theorem onCal_cue (f : Calib → Calib) (s : State) : (onCal f s).cue = s.cue := rfl
@[simp] theorem onCal_red (f : Calib → Calib) (s : State) : (onCal f s).red = s.red := rfl
@[simp] theorem onCal_eth (f : Calib → Calib) (s : State) : (onCal f s).eth = s.eth := rfl
@[simp] theorem onCal_tim (f : Calib → Calib) (s : State) : (onCal f s).tim = s.tim := rfl
@[simp] theorem onCal_lane (f : Calib → Calib) (s : State) : (onCal f s).lane = s.lane := rfl
@[simp] theorem onCal_flow (f : Calib → Calib) (s : State) : (onCal f s).flow = s.flow := rfl
@[simp] theorem onCal_fst (f : Calib → Calib) (s : State) : (onCal f s).fst = s.fst := rfl
@[simp] theorem onCal_cmp (f : Calib → Calib) (s : State) : (onCal f s).cmp = s.cmp := rfl
@[simp] theorem onCal_aud (f : Calib → Calib) (s : State) : (onCal f s).aud = s.aud := rfl
@[simp] theorem onCal_out (f : Calib → Calib) (s : State) : (onCal f s).out = s.out := rfl
@[simp] theorem onCal_free (f : Calib → Calib) (s : State) : (onCal f s).free = s.free := rfl
@[simp] theorem onCal_image (f : Calib → Calib) (s : State) : (onCal f s).image = s.image := rfl

@[simp] theorem onFlash_pending (f : Flash → Flash) (s : State) : (onFlash f s).pending = s.pending := rfl
@[simp] theorem onFlash_clock (f : Flash → Flash) (s : State) : (onFlash f s).clock = s.clock := rfl
@[simp] theorem onFlash_mode (f : Flash → Flash) (s : State) : (onFlash f s).mode = s.mode := rfl
@[simp] theorem onFlash_halWaitMs (f : Flash → Flash) (s : State) : (onFlash f s).halWaitMs = s.halWaitMs := rfl
@[simp] theorem onFlash_fuses (f : Flash → Flash) (s : State) : (onFlash f s).fuses = s.fuses := rfl
@[simp] theorem onFlash_seq (f : Flash → Flash) (s : State) : (onFlash f s).seq = s.seq := rfl
@[simp] theorem onFlash_aon (f : Flash → Flash) (s : State) : (onFlash f s).aon = s.aon := rfl
@[simp] theorem onFlash_pins (f : Flash → Flash) (s : State) : (onFlash f s).pins = s.pins := rfl
@[simp] theorem onFlash_start (f : Flash → Flash) (s : State) : (onFlash f s).start = s.start := rfl
@[simp] theorem onFlash_cal (f : Flash → Flash) (s : State) : (onFlash f s).cal = s.cal := rfl
@[simp] theorem onFlash_flash (f : Flash → Flash) (s : State) : (onFlash f s).flash = f s.flash := rfl
@[simp] theorem onFlash_host (f : Flash → Flash) (s : State) : (onFlash f s).host = s.host := rfl
@[simp] theorem onFlash_evt (f : Flash → Flash) (s : State) : (onFlash f s).evt = s.evt := rfl
@[simp] theorem onFlash_saf (f : Flash → Flash) (s : State) : (onFlash f s).saf = s.saf := rfl
@[simp] theorem onFlash_ctl (f : Flash → Flash) (s : State) : (onFlash f s).ctl = s.ctl := rfl
@[simp] theorem onFlash_pwr (f : Flash → Flash) (s : State) : (onFlash f s).pwr = s.pwr := rfl
@[simp] theorem onFlash_xpt (f : Flash → Flash) (s : State) : (onFlash f s).xpt = s.xpt := rfl
@[simp] theorem onFlash_cue (f : Flash → Flash) (s : State) : (onFlash f s).cue = s.cue := rfl
@[simp] theorem onFlash_red (f : Flash → Flash) (s : State) : (onFlash f s).red = s.red := rfl
@[simp] theorem onFlash_eth (f : Flash → Flash) (s : State) : (onFlash f s).eth = s.eth := rfl
@[simp] theorem onFlash_tim (f : Flash → Flash) (s : State) : (onFlash f s).tim = s.tim := rfl
@[simp] theorem onFlash_lane (f : Flash → Flash) (s : State) : (onFlash f s).lane = s.lane := rfl
@[simp] theorem onFlash_flow (f : Flash → Flash) (s : State) : (onFlash f s).flow = s.flow := rfl
@[simp] theorem onFlash_fst (f : Flash → Flash) (s : State) : (onFlash f s).fst = s.fst := rfl
@[simp] theorem onFlash_cmp (f : Flash → Flash) (s : State) : (onFlash f s).cmp = s.cmp := rfl
@[simp] theorem onFlash_aud (f : Flash → Flash) (s : State) : (onFlash f s).aud = s.aud := rfl
@[simp] theorem onFlash_out (f : Flash → Flash) (s : State) : (onFlash f s).out = s.out := rfl
@[simp] theorem onFlash_free (f : Flash → Flash) (s : State) : (onFlash f s).free = s.free := rfl
@[simp] theorem onFlash_image (f : Flash → Flash) (s : State) : (onFlash f s).image = s.image := rfl

@[simp] theorem onHost_pending (f : HostSt → HostSt) (s : State) : (onHost f s).pending = s.pending := rfl
@[simp] theorem onHost_clock (f : HostSt → HostSt) (s : State) : (onHost f s).clock = s.clock := rfl
@[simp] theorem onHost_mode (f : HostSt → HostSt) (s : State) : (onHost f s).mode = s.mode := rfl
@[simp] theorem onHost_halWaitMs (f : HostSt → HostSt) (s : State) : (onHost f s).halWaitMs = s.halWaitMs := rfl
@[simp] theorem onHost_fuses (f : HostSt → HostSt) (s : State) : (onHost f s).fuses = s.fuses := rfl
@[simp] theorem onHost_seq (f : HostSt → HostSt) (s : State) : (onHost f s).seq = s.seq := rfl
@[simp] theorem onHost_aon (f : HostSt → HostSt) (s : State) : (onHost f s).aon = s.aon := rfl
@[simp] theorem onHost_pins (f : HostSt → HostSt) (s : State) : (onHost f s).pins = s.pins := rfl
@[simp] theorem onHost_start (f : HostSt → HostSt) (s : State) : (onHost f s).start = s.start := rfl
@[simp] theorem onHost_cal (f : HostSt → HostSt) (s : State) : (onHost f s).cal = s.cal := rfl
@[simp] theorem onHost_flash (f : HostSt → HostSt) (s : State) : (onHost f s).flash = s.flash := rfl
@[simp] theorem onHost_host (f : HostSt → HostSt) (s : State) : (onHost f s).host = f s.host := rfl
@[simp] theorem onHost_evt (f : HostSt → HostSt) (s : State) : (onHost f s).evt = s.evt := rfl
@[simp] theorem onHost_saf (f : HostSt → HostSt) (s : State) : (onHost f s).saf = s.saf := rfl
@[simp] theorem onHost_ctl (f : HostSt → HostSt) (s : State) : (onHost f s).ctl = s.ctl := rfl
@[simp] theorem onHost_pwr (f : HostSt → HostSt) (s : State) : (onHost f s).pwr = s.pwr := rfl
@[simp] theorem onHost_xpt (f : HostSt → HostSt) (s : State) : (onHost f s).xpt = s.xpt := rfl
@[simp] theorem onHost_cue (f : HostSt → HostSt) (s : State) : (onHost f s).cue = s.cue := rfl
@[simp] theorem onHost_red (f : HostSt → HostSt) (s : State) : (onHost f s).red = s.red := rfl
@[simp] theorem onHost_eth (f : HostSt → HostSt) (s : State) : (onHost f s).eth = s.eth := rfl
@[simp] theorem onHost_tim (f : HostSt → HostSt) (s : State) : (onHost f s).tim = s.tim := rfl
@[simp] theorem onHost_lane (f : HostSt → HostSt) (s : State) : (onHost f s).lane = s.lane := rfl
@[simp] theorem onHost_flow (f : HostSt → HostSt) (s : State) : (onHost f s).flow = s.flow := rfl
@[simp] theorem onHost_fst (f : HostSt → HostSt) (s : State) : (onHost f s).fst = s.fst := rfl
@[simp] theorem onHost_cmp (f : HostSt → HostSt) (s : State) : (onHost f s).cmp = s.cmp := rfl
@[simp] theorem onHost_aud (f : HostSt → HostSt) (s : State) : (onHost f s).aud = s.aud := rfl
@[simp] theorem onHost_out (f : HostSt → HostSt) (s : State) : (onHost f s).out = s.out := rfl
@[simp] theorem onHost_free (f : HostSt → HostSt) (s : State) : (onHost f s).free = s.free := rfl
@[simp] theorem onHost_image (f : HostSt → HostSt) (s : State) : (onHost f s).image = s.image := rfl

@[simp] theorem onEvt_pending (f : Recorder → Recorder) (s : State) : (onEvt f s).pending = s.pending := rfl
@[simp] theorem onEvt_clock (f : Recorder → Recorder) (s : State) : (onEvt f s).clock = s.clock := rfl
@[simp] theorem onEvt_mode (f : Recorder → Recorder) (s : State) : (onEvt f s).mode = s.mode := rfl
@[simp] theorem onEvt_halWaitMs (f : Recorder → Recorder) (s : State) : (onEvt f s).halWaitMs = s.halWaitMs := rfl
@[simp] theorem onEvt_fuses (f : Recorder → Recorder) (s : State) : (onEvt f s).fuses = s.fuses := rfl
@[simp] theorem onEvt_seq (f : Recorder → Recorder) (s : State) : (onEvt f s).seq = s.seq := rfl
@[simp] theorem onEvt_aon (f : Recorder → Recorder) (s : State) : (onEvt f s).aon = s.aon := rfl
@[simp] theorem onEvt_pins (f : Recorder → Recorder) (s : State) : (onEvt f s).pins = s.pins := rfl
@[simp] theorem onEvt_start (f : Recorder → Recorder) (s : State) : (onEvt f s).start = s.start := rfl
@[simp] theorem onEvt_cal (f : Recorder → Recorder) (s : State) : (onEvt f s).cal = s.cal := rfl
@[simp] theorem onEvt_flash (f : Recorder → Recorder) (s : State) : (onEvt f s).flash = s.flash := rfl
@[simp] theorem onEvt_host (f : Recorder → Recorder) (s : State) : (onEvt f s).host = s.host := rfl
@[simp] theorem onEvt_evt (f : Recorder → Recorder) (s : State) : (onEvt f s).evt = f s.evt := rfl
@[simp] theorem onEvt_saf (f : Recorder → Recorder) (s : State) : (onEvt f s).saf = s.saf := rfl
@[simp] theorem onEvt_ctl (f : Recorder → Recorder) (s : State) : (onEvt f s).ctl = s.ctl := rfl
@[simp] theorem onEvt_pwr (f : Recorder → Recorder) (s : State) : (onEvt f s).pwr = s.pwr := rfl
@[simp] theorem onEvt_xpt (f : Recorder → Recorder) (s : State) : (onEvt f s).xpt = s.xpt := rfl
@[simp] theorem onEvt_cue (f : Recorder → Recorder) (s : State) : (onEvt f s).cue = s.cue := rfl
@[simp] theorem onEvt_red (f : Recorder → Recorder) (s : State) : (onEvt f s).red = s.red := rfl
@[simp] theorem onEvt_eth (f : Recorder → Recorder) (s : State) : (onEvt f s).eth = s.eth := rfl
@[simp] theorem onEvt_tim (f : Recorder → Recorder) (s : State) : (onEvt f s).tim = s.tim := rfl
@[simp] theorem onEvt_lane (f : Recorder → Recorder) (s : State) : (onEvt f s).lane = s.lane := rfl
@[simp] theorem onEvt_flow (f : Recorder → Recorder) (s : State) : (onEvt f s).flow = s.flow := rfl
@[simp] theorem onEvt_fst (f : Recorder → Recorder) (s : State) : (onEvt f s).fst = s.fst := rfl
@[simp] theorem onEvt_cmp (f : Recorder → Recorder) (s : State) : (onEvt f s).cmp = s.cmp := rfl
@[simp] theorem onEvt_aud (f : Recorder → Recorder) (s : State) : (onEvt f s).aud = s.aud := rfl
@[simp] theorem onEvt_out (f : Recorder → Recorder) (s : State) : (onEvt f s).out = s.out := rfl
@[simp] theorem onEvt_free (f : Recorder → Recorder) (s : State) : (onEvt f s).free = s.free := rfl
@[simp] theorem onEvt_image (f : Recorder → Recorder) (s : State) : (onEvt f s).image = s.image := rfl

@[simp] theorem onSaf_pending (f : Safety → Safety) (s : State) : (onSaf f s).pending = s.pending := rfl
@[simp] theorem onSaf_clock (f : Safety → Safety) (s : State) : (onSaf f s).clock = s.clock := rfl
@[simp] theorem onSaf_mode (f : Safety → Safety) (s : State) : (onSaf f s).mode = s.mode := rfl
@[simp] theorem onSaf_halWaitMs (f : Safety → Safety) (s : State) : (onSaf f s).halWaitMs = s.halWaitMs := rfl
@[simp] theorem onSaf_fuses (f : Safety → Safety) (s : State) : (onSaf f s).fuses = s.fuses := rfl
@[simp] theorem onSaf_seq (f : Safety → Safety) (s : State) : (onSaf f s).seq = s.seq := rfl
@[simp] theorem onSaf_aon (f : Safety → Safety) (s : State) : (onSaf f s).aon = s.aon := rfl
@[simp] theorem onSaf_pins (f : Safety → Safety) (s : State) : (onSaf f s).pins = s.pins := rfl
@[simp] theorem onSaf_start (f : Safety → Safety) (s : State) : (onSaf f s).start = s.start := rfl
@[simp] theorem onSaf_cal (f : Safety → Safety) (s : State) : (onSaf f s).cal = s.cal := rfl
@[simp] theorem onSaf_flash (f : Safety → Safety) (s : State) : (onSaf f s).flash = s.flash := rfl
@[simp] theorem onSaf_host (f : Safety → Safety) (s : State) : (onSaf f s).host = s.host := rfl
@[simp] theorem onSaf_evt (f : Safety → Safety) (s : State) : (onSaf f s).evt = s.evt := rfl
@[simp] theorem onSaf_saf (f : Safety → Safety) (s : State) : (onSaf f s).saf = f s.saf := rfl
@[simp] theorem onSaf_ctl (f : Safety → Safety) (s : State) : (onSaf f s).ctl = s.ctl := rfl
@[simp] theorem onSaf_pwr (f : Safety → Safety) (s : State) : (onSaf f s).pwr = s.pwr := rfl
@[simp] theorem onSaf_xpt (f : Safety → Safety) (s : State) : (onSaf f s).xpt = s.xpt := rfl
@[simp] theorem onSaf_cue (f : Safety → Safety) (s : State) : (onSaf f s).cue = s.cue := rfl
@[simp] theorem onSaf_red (f : Safety → Safety) (s : State) : (onSaf f s).red = s.red := rfl
@[simp] theorem onSaf_eth (f : Safety → Safety) (s : State) : (onSaf f s).eth = s.eth := rfl
@[simp] theorem onSaf_tim (f : Safety → Safety) (s : State) : (onSaf f s).tim = s.tim := rfl
@[simp] theorem onSaf_lane (f : Safety → Safety) (s : State) : (onSaf f s).lane = s.lane := rfl
@[simp] theorem onSaf_flow (f : Safety → Safety) (s : State) : (onSaf f s).flow = s.flow := rfl
@[simp] theorem onSaf_fst (f : Safety → Safety) (s : State) : (onSaf f s).fst = s.fst := rfl
@[simp] theorem onSaf_cmp (f : Safety → Safety) (s : State) : (onSaf f s).cmp = s.cmp := rfl
@[simp] theorem onSaf_aud (f : Safety → Safety) (s : State) : (onSaf f s).aud = s.aud := rfl
@[simp] theorem onSaf_out (f : Safety → Safety) (s : State) : (onSaf f s).out = s.out := rfl
@[simp] theorem onSaf_free (f : Safety → Safety) (s : State) : (onSaf f s).free = s.free := rfl
@[simp] theorem onSaf_image (f : Safety → Safety) (s : State) : (onSaf f s).image = s.image := rfl

@[simp] theorem onCtl_pending (f : Ctl → Ctl) (s : State) : (onCtl f s).pending = s.pending := rfl
@[simp] theorem onCtl_clock (f : Ctl → Ctl) (s : State) : (onCtl f s).clock = s.clock := rfl
@[simp] theorem onCtl_mode (f : Ctl → Ctl) (s : State) : (onCtl f s).mode = s.mode := rfl
@[simp] theorem onCtl_halWaitMs (f : Ctl → Ctl) (s : State) : (onCtl f s).halWaitMs = s.halWaitMs := rfl
@[simp] theorem onCtl_fuses (f : Ctl → Ctl) (s : State) : (onCtl f s).fuses = s.fuses := rfl
@[simp] theorem onCtl_seq (f : Ctl → Ctl) (s : State) : (onCtl f s).seq = s.seq := rfl
@[simp] theorem onCtl_aon (f : Ctl → Ctl) (s : State) : (onCtl f s).aon = s.aon := rfl
@[simp] theorem onCtl_pins (f : Ctl → Ctl) (s : State) : (onCtl f s).pins = s.pins := rfl
@[simp] theorem onCtl_start (f : Ctl → Ctl) (s : State) : (onCtl f s).start = s.start := rfl
@[simp] theorem onCtl_cal (f : Ctl → Ctl) (s : State) : (onCtl f s).cal = s.cal := rfl
@[simp] theorem onCtl_flash (f : Ctl → Ctl) (s : State) : (onCtl f s).flash = s.flash := rfl
@[simp] theorem onCtl_host (f : Ctl → Ctl) (s : State) : (onCtl f s).host = s.host := rfl
@[simp] theorem onCtl_evt (f : Ctl → Ctl) (s : State) : (onCtl f s).evt = s.evt := rfl
@[simp] theorem onCtl_saf (f : Ctl → Ctl) (s : State) : (onCtl f s).saf = s.saf := rfl
@[simp] theorem onCtl_ctl (f : Ctl → Ctl) (s : State) : (onCtl f s).ctl = f s.ctl := rfl
@[simp] theorem onCtl_pwr (f : Ctl → Ctl) (s : State) : (onCtl f s).pwr = s.pwr := rfl
@[simp] theorem onCtl_xpt (f : Ctl → Ctl) (s : State) : (onCtl f s).xpt = s.xpt := rfl
@[simp] theorem onCtl_cue (f : Ctl → Ctl) (s : State) : (onCtl f s).cue = s.cue := rfl
@[simp] theorem onCtl_red (f : Ctl → Ctl) (s : State) : (onCtl f s).red = s.red := rfl
@[simp] theorem onCtl_eth (f : Ctl → Ctl) (s : State) : (onCtl f s).eth = s.eth := rfl
@[simp] theorem onCtl_tim (f : Ctl → Ctl) (s : State) : (onCtl f s).tim = s.tim := rfl
@[simp] theorem onCtl_lane (f : Ctl → Ctl) (s : State) : (onCtl f s).lane = s.lane := rfl
@[simp] theorem onCtl_flow (f : Ctl → Ctl) (s : State) : (onCtl f s).flow = s.flow := rfl
@[simp] theorem onCtl_fst (f : Ctl → Ctl) (s : State) : (onCtl f s).fst = s.fst := rfl
@[simp] theorem onCtl_cmp (f : Ctl → Ctl) (s : State) : (onCtl f s).cmp = s.cmp := rfl
@[simp] theorem onCtl_aud (f : Ctl → Ctl) (s : State) : (onCtl f s).aud = s.aud := rfl
@[simp] theorem onCtl_out (f : Ctl → Ctl) (s : State) : (onCtl f s).out = s.out := rfl
@[simp] theorem onCtl_free (f : Ctl → Ctl) (s : State) : (onCtl f s).free = s.free := rfl
@[simp] theorem onCtl_image (f : Ctl → Ctl) (s : State) : (onCtl f s).image = s.image := rfl

@[simp] theorem onPwr_pending (f : Pwr → Pwr) (s : State) : (onPwr f s).pending = s.pending := rfl
@[simp] theorem onPwr_clock (f : Pwr → Pwr) (s : State) : (onPwr f s).clock = s.clock := rfl
@[simp] theorem onPwr_mode (f : Pwr → Pwr) (s : State) : (onPwr f s).mode = s.mode := rfl
@[simp] theorem onPwr_halWaitMs (f : Pwr → Pwr) (s : State) : (onPwr f s).halWaitMs = s.halWaitMs := rfl
@[simp] theorem onPwr_fuses (f : Pwr → Pwr) (s : State) : (onPwr f s).fuses = s.fuses := rfl
@[simp] theorem onPwr_seq (f : Pwr → Pwr) (s : State) : (onPwr f s).seq = s.seq := rfl
@[simp] theorem onPwr_aon (f : Pwr → Pwr) (s : State) : (onPwr f s).aon = s.aon := rfl
@[simp] theorem onPwr_pins (f : Pwr → Pwr) (s : State) : (onPwr f s).pins = s.pins := rfl
@[simp] theorem onPwr_start (f : Pwr → Pwr) (s : State) : (onPwr f s).start = s.start := rfl
@[simp] theorem onPwr_cal (f : Pwr → Pwr) (s : State) : (onPwr f s).cal = s.cal := rfl
@[simp] theorem onPwr_flash (f : Pwr → Pwr) (s : State) : (onPwr f s).flash = s.flash := rfl
@[simp] theorem onPwr_host (f : Pwr → Pwr) (s : State) : (onPwr f s).host = s.host := rfl
@[simp] theorem onPwr_evt (f : Pwr → Pwr) (s : State) : (onPwr f s).evt = s.evt := rfl
@[simp] theorem onPwr_saf (f : Pwr → Pwr) (s : State) : (onPwr f s).saf = s.saf := rfl
@[simp] theorem onPwr_ctl (f : Pwr → Pwr) (s : State) : (onPwr f s).ctl = s.ctl := rfl
@[simp] theorem onPwr_pwr (f : Pwr → Pwr) (s : State) : (onPwr f s).pwr = f s.pwr := rfl
@[simp] theorem onPwr_xpt (f : Pwr → Pwr) (s : State) : (onPwr f s).xpt = s.xpt := rfl
@[simp] theorem onPwr_cue (f : Pwr → Pwr) (s : State) : (onPwr f s).cue = s.cue := rfl
@[simp] theorem onPwr_red (f : Pwr → Pwr) (s : State) : (onPwr f s).red = s.red := rfl
@[simp] theorem onPwr_eth (f : Pwr → Pwr) (s : State) : (onPwr f s).eth = s.eth := rfl
@[simp] theorem onPwr_tim (f : Pwr → Pwr) (s : State) : (onPwr f s).tim = s.tim := rfl
@[simp] theorem onPwr_lane (f : Pwr → Pwr) (s : State) : (onPwr f s).lane = s.lane := rfl
@[simp] theorem onPwr_flow (f : Pwr → Pwr) (s : State) : (onPwr f s).flow = s.flow := rfl
@[simp] theorem onPwr_fst (f : Pwr → Pwr) (s : State) : (onPwr f s).fst = s.fst := rfl
@[simp] theorem onPwr_cmp (f : Pwr → Pwr) (s : State) : (onPwr f s).cmp = s.cmp := rfl
@[simp] theorem onPwr_aud (f : Pwr → Pwr) (s : State) : (onPwr f s).aud = s.aud := rfl
@[simp] theorem onPwr_out (f : Pwr → Pwr) (s : State) : (onPwr f s).out = s.out := rfl
@[simp] theorem onPwr_free (f : Pwr → Pwr) (s : State) : (onPwr f s).free = s.free := rfl
@[simp] theorem onPwr_image (f : Pwr → Pwr) (s : State) : (onPwr f s).image = s.image := rfl

@[simp] theorem onXpt_pending (f : Xpt → Xpt) (s : State) : (onXpt f s).pending = s.pending := rfl
@[simp] theorem onXpt_clock (f : Xpt → Xpt) (s : State) : (onXpt f s).clock = s.clock := rfl
@[simp] theorem onXpt_mode (f : Xpt → Xpt) (s : State) : (onXpt f s).mode = s.mode := rfl
@[simp] theorem onXpt_halWaitMs (f : Xpt → Xpt) (s : State) : (onXpt f s).halWaitMs = s.halWaitMs := rfl
@[simp] theorem onXpt_fuses (f : Xpt → Xpt) (s : State) : (onXpt f s).fuses = s.fuses := rfl
@[simp] theorem onXpt_seq (f : Xpt → Xpt) (s : State) : (onXpt f s).seq = s.seq := rfl
@[simp] theorem onXpt_aon (f : Xpt → Xpt) (s : State) : (onXpt f s).aon = s.aon := rfl
@[simp] theorem onXpt_pins (f : Xpt → Xpt) (s : State) : (onXpt f s).pins = s.pins := rfl
@[simp] theorem onXpt_start (f : Xpt → Xpt) (s : State) : (onXpt f s).start = s.start := rfl
@[simp] theorem onXpt_cal (f : Xpt → Xpt) (s : State) : (onXpt f s).cal = s.cal := rfl
@[simp] theorem onXpt_flash (f : Xpt → Xpt) (s : State) : (onXpt f s).flash = s.flash := rfl
@[simp] theorem onXpt_host (f : Xpt → Xpt) (s : State) : (onXpt f s).host = s.host := rfl
@[simp] theorem onXpt_evt (f : Xpt → Xpt) (s : State) : (onXpt f s).evt = s.evt := rfl
@[simp] theorem onXpt_saf (f : Xpt → Xpt) (s : State) : (onXpt f s).saf = s.saf := rfl
@[simp] theorem onXpt_ctl (f : Xpt → Xpt) (s : State) : (onXpt f s).ctl = s.ctl := rfl
@[simp] theorem onXpt_pwr (f : Xpt → Xpt) (s : State) : (onXpt f s).pwr = s.pwr := rfl
@[simp] theorem onXpt_xpt (f : Xpt → Xpt) (s : State) : (onXpt f s).xpt = f s.xpt := rfl
@[simp] theorem onXpt_cue (f : Xpt → Xpt) (s : State) : (onXpt f s).cue = s.cue := rfl
@[simp] theorem onXpt_red (f : Xpt → Xpt) (s : State) : (onXpt f s).red = s.red := rfl
@[simp] theorem onXpt_eth (f : Xpt → Xpt) (s : State) : (onXpt f s).eth = s.eth := rfl
@[simp] theorem onXpt_tim (f : Xpt → Xpt) (s : State) : (onXpt f s).tim = s.tim := rfl
@[simp] theorem onXpt_lane (f : Xpt → Xpt) (s : State) : (onXpt f s).lane = s.lane := rfl
@[simp] theorem onXpt_flow (f : Xpt → Xpt) (s : State) : (onXpt f s).flow = s.flow := rfl
@[simp] theorem onXpt_fst (f : Xpt → Xpt) (s : State) : (onXpt f s).fst = s.fst := rfl
@[simp] theorem onXpt_cmp (f : Xpt → Xpt) (s : State) : (onXpt f s).cmp = s.cmp := rfl
@[simp] theorem onXpt_aud (f : Xpt → Xpt) (s : State) : (onXpt f s).aud = s.aud := rfl
@[simp] theorem onXpt_out (f : Xpt → Xpt) (s : State) : (onXpt f s).out = s.out := rfl
@[simp] theorem onXpt_free (f : Xpt → Xpt) (s : State) : (onXpt f s).free = s.free := rfl
@[simp] theorem onXpt_image (f : Xpt → Xpt) (s : State) : (onXpt f s).image = s.image := rfl

@[simp] theorem onCue_pending (f : Cue → Cue) (s : State) : (onCue f s).pending = s.pending := rfl
@[simp] theorem onCue_clock (f : Cue → Cue) (s : State) : (onCue f s).clock = s.clock := rfl
@[simp] theorem onCue_mode (f : Cue → Cue) (s : State) : (onCue f s).mode = s.mode := rfl
@[simp] theorem onCue_halWaitMs (f : Cue → Cue) (s : State) : (onCue f s).halWaitMs = s.halWaitMs := rfl
@[simp] theorem onCue_fuses (f : Cue → Cue) (s : State) : (onCue f s).fuses = s.fuses := rfl
@[simp] theorem onCue_seq (f : Cue → Cue) (s : State) : (onCue f s).seq = s.seq := rfl
@[simp] theorem onCue_aon (f : Cue → Cue) (s : State) : (onCue f s).aon = s.aon := rfl
@[simp] theorem onCue_pins (f : Cue → Cue) (s : State) : (onCue f s).pins = s.pins := rfl
@[simp] theorem onCue_start (f : Cue → Cue) (s : State) : (onCue f s).start = s.start := rfl
@[simp] theorem onCue_cal (f : Cue → Cue) (s : State) : (onCue f s).cal = s.cal := rfl
@[simp] theorem onCue_flash (f : Cue → Cue) (s : State) : (onCue f s).flash = s.flash := rfl
@[simp] theorem onCue_host (f : Cue → Cue) (s : State) : (onCue f s).host = s.host := rfl
@[simp] theorem onCue_evt (f : Cue → Cue) (s : State) : (onCue f s).evt = s.evt := rfl
@[simp] theorem onCue_saf (f : Cue → Cue) (s : State) : (onCue f s).saf = s.saf := rfl
@[simp] theorem onCue_ctl (f : Cue → Cue) (s : State) : (onCue f s).ctl = s.ctl := rfl
@[simp] theorem onCue_pwr (f : Cue → Cue) (s : State) : (onCue f s).pwr = s.pwr := rfl
@[simp] theorem onCue_xpt (f : Cue → Cue) (s : State) : (onCue f s).xpt = s.xpt := rfl
@[simp] theorem onCue_cue (f : Cue → Cue) (s : State) : (onCue f s).cue = f s.cue := rfl
@[simp] theorem onCue_red (f : Cue → Cue) (s : State) : (onCue f s).red = s.red := rfl
@[simp] theorem onCue_eth (f : Cue → Cue) (s : State) : (onCue f s).eth = s.eth := rfl
@[simp] theorem onCue_tim (f : Cue → Cue) (s : State) : (onCue f s).tim = s.tim := rfl
@[simp] theorem onCue_lane (f : Cue → Cue) (s : State) : (onCue f s).lane = s.lane := rfl
@[simp] theorem onCue_flow (f : Cue → Cue) (s : State) : (onCue f s).flow = s.flow := rfl
@[simp] theorem onCue_fst (f : Cue → Cue) (s : State) : (onCue f s).fst = s.fst := rfl
@[simp] theorem onCue_cmp (f : Cue → Cue) (s : State) : (onCue f s).cmp = s.cmp := rfl
@[simp] theorem onCue_aud (f : Cue → Cue) (s : State) : (onCue f s).aud = s.aud := rfl
@[simp] theorem onCue_out (f : Cue → Cue) (s : State) : (onCue f s).out = s.out := rfl
@[simp] theorem onCue_free (f : Cue → Cue) (s : State) : (onCue f s).free = s.free := rfl
@[simp] theorem onCue_image (f : Cue → Cue) (s : State) : (onCue f s).image = s.image := rfl

@[simp] theorem onRed_pending (f : Red → Red) (s : State) : (onRed f s).pending = s.pending := rfl
@[simp] theorem onRed_clock (f : Red → Red) (s : State) : (onRed f s).clock = s.clock := rfl
@[simp] theorem onRed_mode (f : Red → Red) (s : State) : (onRed f s).mode = s.mode := rfl
@[simp] theorem onRed_halWaitMs (f : Red → Red) (s : State) : (onRed f s).halWaitMs = s.halWaitMs := rfl
@[simp] theorem onRed_fuses (f : Red → Red) (s : State) : (onRed f s).fuses = s.fuses := rfl
@[simp] theorem onRed_seq (f : Red → Red) (s : State) : (onRed f s).seq = s.seq := rfl
@[simp] theorem onRed_aon (f : Red → Red) (s : State) : (onRed f s).aon = s.aon := rfl
@[simp] theorem onRed_pins (f : Red → Red) (s : State) : (onRed f s).pins = s.pins := rfl
@[simp] theorem onRed_start (f : Red → Red) (s : State) : (onRed f s).start = s.start := rfl
@[simp] theorem onRed_cal (f : Red → Red) (s : State) : (onRed f s).cal = s.cal := rfl
@[simp] theorem onRed_flash (f : Red → Red) (s : State) : (onRed f s).flash = s.flash := rfl
@[simp] theorem onRed_host (f : Red → Red) (s : State) : (onRed f s).host = s.host := rfl
@[simp] theorem onRed_evt (f : Red → Red) (s : State) : (onRed f s).evt = s.evt := rfl
@[simp] theorem onRed_saf (f : Red → Red) (s : State) : (onRed f s).saf = s.saf := rfl
@[simp] theorem onRed_ctl (f : Red → Red) (s : State) : (onRed f s).ctl = s.ctl := rfl
@[simp] theorem onRed_pwr (f : Red → Red) (s : State) : (onRed f s).pwr = s.pwr := rfl
@[simp] theorem onRed_xpt (f : Red → Red) (s : State) : (onRed f s).xpt = s.xpt := rfl
@[simp] theorem onRed_cue (f : Red → Red) (s : State) : (onRed f s).cue = s.cue := rfl
@[simp] theorem onRed_red (f : Red → Red) (s : State) : (onRed f s).red = f s.red := rfl
@[simp] theorem onRed_eth (f : Red → Red) (s : State) : (onRed f s).eth = s.eth := rfl
@[simp] theorem onRed_tim (f : Red → Red) (s : State) : (onRed f s).tim = s.tim := rfl
@[simp] theorem onRed_lane (f : Red → Red) (s : State) : (onRed f s).lane = s.lane := rfl
@[simp] theorem onRed_flow (f : Red → Red) (s : State) : (onRed f s).flow = s.flow := rfl
@[simp] theorem onRed_fst (f : Red → Red) (s : State) : (onRed f s).fst = s.fst := rfl
@[simp] theorem onRed_cmp (f : Red → Red) (s : State) : (onRed f s).cmp = s.cmp := rfl
@[simp] theorem onRed_aud (f : Red → Red) (s : State) : (onRed f s).aud = s.aud := rfl
@[simp] theorem onRed_out (f : Red → Red) (s : State) : (onRed f s).out = s.out := rfl
@[simp] theorem onRed_free (f : Red → Red) (s : State) : (onRed f s).free = s.free := rfl
@[simp] theorem onRed_image (f : Red → Red) (s : State) : (onRed f s).image = s.image := rfl

@[simp] theorem onEth_pending (f : Eth → Eth) (s : State) : (onEth f s).pending = s.pending := rfl
@[simp] theorem onEth_clock (f : Eth → Eth) (s : State) : (onEth f s).clock = s.clock := rfl
@[simp] theorem onEth_mode (f : Eth → Eth) (s : State) : (onEth f s).mode = s.mode := rfl
@[simp] theorem onEth_halWaitMs (f : Eth → Eth) (s : State) : (onEth f s).halWaitMs = s.halWaitMs := rfl
@[simp] theorem onEth_fuses (f : Eth → Eth) (s : State) : (onEth f s).fuses = s.fuses := rfl
@[simp] theorem onEth_seq (f : Eth → Eth) (s : State) : (onEth f s).seq = s.seq := rfl
@[simp] theorem onEth_aon (f : Eth → Eth) (s : State) : (onEth f s).aon = s.aon := rfl
@[simp] theorem onEth_pins (f : Eth → Eth) (s : State) : (onEth f s).pins = s.pins := rfl
@[simp] theorem onEth_start (f : Eth → Eth) (s : State) : (onEth f s).start = s.start := rfl
@[simp] theorem onEth_cal (f : Eth → Eth) (s : State) : (onEth f s).cal = s.cal := rfl
@[simp] theorem onEth_flash (f : Eth → Eth) (s : State) : (onEth f s).flash = s.flash := rfl
@[simp] theorem onEth_host (f : Eth → Eth) (s : State) : (onEth f s).host = s.host := rfl
@[simp] theorem onEth_evt (f : Eth → Eth) (s : State) : (onEth f s).evt = s.evt := rfl
@[simp] theorem onEth_saf (f : Eth → Eth) (s : State) : (onEth f s).saf = s.saf := rfl
@[simp] theorem onEth_ctl (f : Eth → Eth) (s : State) : (onEth f s).ctl = s.ctl := rfl
@[simp] theorem onEth_pwr (f : Eth → Eth) (s : State) : (onEth f s).pwr = s.pwr := rfl
@[simp] theorem onEth_xpt (f : Eth → Eth) (s : State) : (onEth f s).xpt = s.xpt := rfl
@[simp] theorem onEth_cue (f : Eth → Eth) (s : State) : (onEth f s).cue = s.cue := rfl
@[simp] theorem onEth_red (f : Eth → Eth) (s : State) : (onEth f s).red = s.red := rfl
@[simp] theorem onEth_eth (f : Eth → Eth) (s : State) : (onEth f s).eth = f s.eth := rfl
@[simp] theorem onEth_tim (f : Eth → Eth) (s : State) : (onEth f s).tim = s.tim := rfl
@[simp] theorem onEth_lane (f : Eth → Eth) (s : State) : (onEth f s).lane = s.lane := rfl
@[simp] theorem onEth_flow (f : Eth → Eth) (s : State) : (onEth f s).flow = s.flow := rfl
@[simp] theorem onEth_fst (f : Eth → Eth) (s : State) : (onEth f s).fst = s.fst := rfl
@[simp] theorem onEth_cmp (f : Eth → Eth) (s : State) : (onEth f s).cmp = s.cmp := rfl
@[simp] theorem onEth_aud (f : Eth → Eth) (s : State) : (onEth f s).aud = s.aud := rfl
@[simp] theorem onEth_out (f : Eth → Eth) (s : State) : (onEth f s).out = s.out := rfl
@[simp] theorem onEth_free (f : Eth → Eth) (s : State) : (onEth f s).free = s.free := rfl
@[simp] theorem onEth_image (f : Eth → Eth) (s : State) : (onEth f s).image = s.image := rfl

@[simp] theorem onTim_pending (f : Tim → Tim) (s : State) : (onTim f s).pending = s.pending := rfl
@[simp] theorem onTim_clock (f : Tim → Tim) (s : State) : (onTim f s).clock = s.clock := rfl
@[simp] theorem onTim_mode (f : Tim → Tim) (s : State) : (onTim f s).mode = s.mode := rfl
@[simp] theorem onTim_halWaitMs (f : Tim → Tim) (s : State) : (onTim f s).halWaitMs = s.halWaitMs := rfl
@[simp] theorem onTim_fuses (f : Tim → Tim) (s : State) : (onTim f s).fuses = s.fuses := rfl
@[simp] theorem onTim_seq (f : Tim → Tim) (s : State) : (onTim f s).seq = s.seq := rfl
@[simp] theorem onTim_aon (f : Tim → Tim) (s : State) : (onTim f s).aon = s.aon := rfl
@[simp] theorem onTim_pins (f : Tim → Tim) (s : State) : (onTim f s).pins = s.pins := rfl
@[simp] theorem onTim_start (f : Tim → Tim) (s : State) : (onTim f s).start = s.start := rfl
@[simp] theorem onTim_cal (f : Tim → Tim) (s : State) : (onTim f s).cal = s.cal := rfl
@[simp] theorem onTim_flash (f : Tim → Tim) (s : State) : (onTim f s).flash = s.flash := rfl
@[simp] theorem onTim_host (f : Tim → Tim) (s : State) : (onTim f s).host = s.host := rfl
@[simp] theorem onTim_evt (f : Tim → Tim) (s : State) : (onTim f s).evt = s.evt := rfl
@[simp] theorem onTim_saf (f : Tim → Tim) (s : State) : (onTim f s).saf = s.saf := rfl
@[simp] theorem onTim_ctl (f : Tim → Tim) (s : State) : (onTim f s).ctl = s.ctl := rfl
@[simp] theorem onTim_pwr (f : Tim → Tim) (s : State) : (onTim f s).pwr = s.pwr := rfl
@[simp] theorem onTim_xpt (f : Tim → Tim) (s : State) : (onTim f s).xpt = s.xpt := rfl
@[simp] theorem onTim_cue (f : Tim → Tim) (s : State) : (onTim f s).cue = s.cue := rfl
@[simp] theorem onTim_red (f : Tim → Tim) (s : State) : (onTim f s).red = s.red := rfl
@[simp] theorem onTim_eth (f : Tim → Tim) (s : State) : (onTim f s).eth = s.eth := rfl
@[simp] theorem onTim_tim (f : Tim → Tim) (s : State) : (onTim f s).tim = f s.tim := rfl
@[simp] theorem onTim_lane (f : Tim → Tim) (s : State) : (onTim f s).lane = s.lane := rfl
@[simp] theorem onTim_flow (f : Tim → Tim) (s : State) : (onTim f s).flow = s.flow := rfl
@[simp] theorem onTim_fst (f : Tim → Tim) (s : State) : (onTim f s).fst = s.fst := rfl
@[simp] theorem onTim_cmp (f : Tim → Tim) (s : State) : (onTim f s).cmp = s.cmp := rfl
@[simp] theorem onTim_aud (f : Tim → Tim) (s : State) : (onTim f s).aud = s.aud := rfl
@[simp] theorem onTim_out (f : Tim → Tim) (s : State) : (onTim f s).out = s.out := rfl
@[simp] theorem onTim_free (f : Tim → Tim) (s : State) : (onTim f s).free = s.free := rfl
@[simp] theorem onTim_image (f : Tim → Tim) (s : State) : (onTim f s).image = s.image := rfl

@[simp] theorem onLane_pending (f : Lanes → Lanes) (s : State) : (onLane f s).pending = s.pending := rfl
@[simp] theorem onLane_clock (f : Lanes → Lanes) (s : State) : (onLane f s).clock = s.clock := rfl
@[simp] theorem onLane_mode (f : Lanes → Lanes) (s : State) : (onLane f s).mode = s.mode := rfl
@[simp] theorem onLane_halWaitMs (f : Lanes → Lanes) (s : State) : (onLane f s).halWaitMs = s.halWaitMs := rfl
@[simp] theorem onLane_fuses (f : Lanes → Lanes) (s : State) : (onLane f s).fuses = s.fuses := rfl
@[simp] theorem onLane_seq (f : Lanes → Lanes) (s : State) : (onLane f s).seq = s.seq := rfl
@[simp] theorem onLane_aon (f : Lanes → Lanes) (s : State) : (onLane f s).aon = s.aon := rfl
@[simp] theorem onLane_pins (f : Lanes → Lanes) (s : State) : (onLane f s).pins = s.pins := rfl
@[simp] theorem onLane_start (f : Lanes → Lanes) (s : State) : (onLane f s).start = s.start := rfl
@[simp] theorem onLane_cal (f : Lanes → Lanes) (s : State) : (onLane f s).cal = s.cal := rfl
@[simp] theorem onLane_flash (f : Lanes → Lanes) (s : State) : (onLane f s).flash = s.flash := rfl
@[simp] theorem onLane_host (f : Lanes → Lanes) (s : State) : (onLane f s).host = s.host := rfl
@[simp] theorem onLane_evt (f : Lanes → Lanes) (s : State) : (onLane f s).evt = s.evt := rfl
@[simp] theorem onLane_saf (f : Lanes → Lanes) (s : State) : (onLane f s).saf = s.saf := rfl
@[simp] theorem onLane_ctl (f : Lanes → Lanes) (s : State) : (onLane f s).ctl = s.ctl := rfl
@[simp] theorem onLane_pwr (f : Lanes → Lanes) (s : State) : (onLane f s).pwr = s.pwr := rfl
@[simp] theorem onLane_xpt (f : Lanes → Lanes) (s : State) : (onLane f s).xpt = s.xpt := rfl
@[simp] theorem onLane_cue (f : Lanes → Lanes) (s : State) : (onLane f s).cue = s.cue := rfl
@[simp] theorem onLane_red (f : Lanes → Lanes) (s : State) : (onLane f s).red = s.red := rfl
@[simp] theorem onLane_eth (f : Lanes → Lanes) (s : State) : (onLane f s).eth = s.eth := rfl
@[simp] theorem onLane_tim (f : Lanes → Lanes) (s : State) : (onLane f s).tim = s.tim := rfl
@[simp] theorem onLane_lane (f : Lanes → Lanes) (s : State) : (onLane f s).lane = f s.lane := rfl
@[simp] theorem onLane_flow (f : Lanes → Lanes) (s : State) : (onLane f s).flow = s.flow := rfl
@[simp] theorem onLane_fst (f : Lanes → Lanes) (s : State) : (onLane f s).fst = s.fst := rfl
@[simp] theorem onLane_cmp (f : Lanes → Lanes) (s : State) : (onLane f s).cmp = s.cmp := rfl
@[simp] theorem onLane_aud (f : Lanes → Lanes) (s : State) : (onLane f s).aud = s.aud := rfl
@[simp] theorem onLane_out (f : Lanes → Lanes) (s : State) : (onLane f s).out = s.out := rfl
@[simp] theorem onLane_free (f : Lanes → Lanes) (s : State) : (onLane f s).free = s.free := rfl
@[simp] theorem onLane_image (f : Lanes → Lanes) (s : State) : (onLane f s).image = s.image := rfl

@[simp] theorem onFlow_pending (f : Flow → Flow) (s : State) : (onFlow f s).pending = s.pending := rfl
@[simp] theorem onFlow_clock (f : Flow → Flow) (s : State) : (onFlow f s).clock = s.clock := rfl
@[simp] theorem onFlow_mode (f : Flow → Flow) (s : State) : (onFlow f s).mode = s.mode := rfl
@[simp] theorem onFlow_halWaitMs (f : Flow → Flow) (s : State) : (onFlow f s).halWaitMs = s.halWaitMs := rfl
@[simp] theorem onFlow_fuses (f : Flow → Flow) (s : State) : (onFlow f s).fuses = s.fuses := rfl
@[simp] theorem onFlow_seq (f : Flow → Flow) (s : State) : (onFlow f s).seq = s.seq := rfl
@[simp] theorem onFlow_aon (f : Flow → Flow) (s : State) : (onFlow f s).aon = s.aon := rfl
@[simp] theorem onFlow_pins (f : Flow → Flow) (s : State) : (onFlow f s).pins = s.pins := rfl
@[simp] theorem onFlow_start (f : Flow → Flow) (s : State) : (onFlow f s).start = s.start := rfl
@[simp] theorem onFlow_cal (f : Flow → Flow) (s : State) : (onFlow f s).cal = s.cal := rfl
@[simp] theorem onFlow_flash (f : Flow → Flow) (s : State) : (onFlow f s).flash = s.flash := rfl
@[simp] theorem onFlow_host (f : Flow → Flow) (s : State) : (onFlow f s).host = s.host := rfl
@[simp] theorem onFlow_evt (f : Flow → Flow) (s : State) : (onFlow f s).evt = s.evt := rfl
@[simp] theorem onFlow_saf (f : Flow → Flow) (s : State) : (onFlow f s).saf = s.saf := rfl
@[simp] theorem onFlow_ctl (f : Flow → Flow) (s : State) : (onFlow f s).ctl = s.ctl := rfl
@[simp] theorem onFlow_pwr (f : Flow → Flow) (s : State) : (onFlow f s).pwr = s.pwr := rfl
@[simp] theorem onFlow_xpt (f : Flow → Flow) (s : State) : (onFlow f s).xpt = s.xpt := rfl
@[simp] theorem onFlow_cue (f : Flow → Flow) (s : State) : (onFlow f s).cue = s.cue := rfl
@[simp] theorem onFlow_red (f : Flow → Flow) (s : State) : (onFlow f s).red = s.red := rfl
@[simp] theorem onFlow_eth (f : Flow → Flow) (s : State) : (onFlow f s).eth = s.eth := rfl
@[simp] theorem onFlow_tim (f : Flow → Flow) (s : State) : (onFlow f s).tim = s.tim := rfl
@[simp] theorem onFlow_lane (f : Flow → Flow) (s : State) : (onFlow f s).lane = s.lane := rfl
@[simp] theorem onFlow_flow (f : Flow → Flow) (s : State) : (onFlow f s).flow = f s.flow := rfl
@[simp] theorem onFlow_fst (f : Flow → Flow) (s : State) : (onFlow f s).fst = s.fst := rfl
@[simp] theorem onFlow_cmp (f : Flow → Flow) (s : State) : (onFlow f s).cmp = s.cmp := rfl
@[simp] theorem onFlow_aud (f : Flow → Flow) (s : State) : (onFlow f s).aud = s.aud := rfl
@[simp] theorem onFlow_out (f : Flow → Flow) (s : State) : (onFlow f s).out = s.out := rfl
@[simp] theorem onFlow_free (f : Flow → Flow) (s : State) : (onFlow f s).free = s.free := rfl
@[simp] theorem onFlow_image (f : Flow → Flow) (s : State) : (onFlow f s).image = s.image := rfl

@[simp] theorem onFst_pending (f : Fst → Fst) (s : State) : (onFst f s).pending = s.pending := rfl
@[simp] theorem onFst_clock (f : Fst → Fst) (s : State) : (onFst f s).clock = s.clock := rfl
@[simp] theorem onFst_mode (f : Fst → Fst) (s : State) : (onFst f s).mode = s.mode := rfl
@[simp] theorem onFst_halWaitMs (f : Fst → Fst) (s : State) : (onFst f s).halWaitMs = s.halWaitMs := rfl
@[simp] theorem onFst_fuses (f : Fst → Fst) (s : State) : (onFst f s).fuses = s.fuses := rfl
@[simp] theorem onFst_seq (f : Fst → Fst) (s : State) : (onFst f s).seq = s.seq := rfl
@[simp] theorem onFst_aon (f : Fst → Fst) (s : State) : (onFst f s).aon = s.aon := rfl
@[simp] theorem onFst_pins (f : Fst → Fst) (s : State) : (onFst f s).pins = s.pins := rfl
@[simp] theorem onFst_start (f : Fst → Fst) (s : State) : (onFst f s).start = s.start := rfl
@[simp] theorem onFst_cal (f : Fst → Fst) (s : State) : (onFst f s).cal = s.cal := rfl
@[simp] theorem onFst_flash (f : Fst → Fst) (s : State) : (onFst f s).flash = s.flash := rfl
@[simp] theorem onFst_host (f : Fst → Fst) (s : State) : (onFst f s).host = s.host := rfl
@[simp] theorem onFst_evt (f : Fst → Fst) (s : State) : (onFst f s).evt = s.evt := rfl
@[simp] theorem onFst_saf (f : Fst → Fst) (s : State) : (onFst f s).saf = s.saf := rfl
@[simp] theorem onFst_ctl (f : Fst → Fst) (s : State) : (onFst f s).ctl = s.ctl := rfl
@[simp] theorem onFst_pwr (f : Fst → Fst) (s : State) : (onFst f s).pwr = s.pwr := rfl
@[simp] theorem onFst_xpt (f : Fst → Fst) (s : State) : (onFst f s).xpt = s.xpt := rfl
@[simp] theorem onFst_cue (f : Fst → Fst) (s : State) : (onFst f s).cue = s.cue := rfl
@[simp] theorem onFst_red (f : Fst → Fst) (s : State) : (onFst f s).red = s.red := rfl
@[simp] theorem onFst_eth (f : Fst → Fst) (s : State) : (onFst f s).eth = s.eth := rfl
@[simp] theorem onFst_tim (f : Fst → Fst) (s : State) : (onFst f s).tim = s.tim := rfl
@[simp] theorem onFst_lane (f : Fst → Fst) (s : State) : (onFst f s).lane = s.lane := rfl
@[simp] theorem onFst_flow (f : Fst → Fst) (s : State) : (onFst f s).flow = s.flow := rfl
@[simp] theorem onFst_fst (f : Fst → Fst) (s : State) : (onFst f s).fst = f s.fst := rfl
@[simp] theorem onFst_cmp (f : Fst → Fst) (s : State) : (onFst f s).cmp = s.cmp := rfl
@[simp] theorem onFst_aud (f : Fst → Fst) (s : State) : (onFst f s).aud = s.aud := rfl
@[simp] theorem onFst_out (f : Fst → Fst) (s : State) : (onFst f s).out = s.out := rfl
@[simp] theorem onFst_free (f : Fst → Fst) (s : State) : (onFst f s).free = s.free := rfl
@[simp] theorem onFst_image (f : Fst → Fst) (s : State) : (onFst f s).image = s.image := rfl

@[simp] theorem onCmp_pending (f : Cmps → Cmps) (s : State) : (onCmp f s).pending = s.pending := rfl
@[simp] theorem onCmp_clock (f : Cmps → Cmps) (s : State) : (onCmp f s).clock = s.clock := rfl
@[simp] theorem onCmp_mode (f : Cmps → Cmps) (s : State) : (onCmp f s).mode = s.mode := rfl
@[simp] theorem onCmp_halWaitMs (f : Cmps → Cmps) (s : State) : (onCmp f s).halWaitMs = s.halWaitMs := rfl
@[simp] theorem onCmp_fuses (f : Cmps → Cmps) (s : State) : (onCmp f s).fuses = s.fuses := rfl
@[simp] theorem onCmp_seq (f : Cmps → Cmps) (s : State) : (onCmp f s).seq = s.seq := rfl
@[simp] theorem onCmp_aon (f : Cmps → Cmps) (s : State) : (onCmp f s).aon = s.aon := rfl
@[simp] theorem onCmp_pins (f : Cmps → Cmps) (s : State) : (onCmp f s).pins = s.pins := rfl
@[simp] theorem onCmp_start (f : Cmps → Cmps) (s : State) : (onCmp f s).start = s.start := rfl
@[simp] theorem onCmp_cal (f : Cmps → Cmps) (s : State) : (onCmp f s).cal = s.cal := rfl
@[simp] theorem onCmp_flash (f : Cmps → Cmps) (s : State) : (onCmp f s).flash = s.flash := rfl
@[simp] theorem onCmp_host (f : Cmps → Cmps) (s : State) : (onCmp f s).host = s.host := rfl
@[simp] theorem onCmp_evt (f : Cmps → Cmps) (s : State) : (onCmp f s).evt = s.evt := rfl
@[simp] theorem onCmp_saf (f : Cmps → Cmps) (s : State) : (onCmp f s).saf = s.saf := rfl
@[simp] theorem onCmp_ctl (f : Cmps → Cmps) (s : State) : (onCmp f s).ctl = s.ctl := rfl
@[simp] theorem onCmp_pwr (f : Cmps → Cmps) (s : State) : (onCmp f s).pwr = s.pwr := rfl
@[simp] theorem onCmp_xpt (f : Cmps → Cmps) (s : State) : (onCmp f s).xpt = s.xpt := rfl
@[simp] theorem onCmp_cue (f : Cmps → Cmps) (s : State) : (onCmp f s).cue = s.cue := rfl
@[simp] theorem onCmp_red (f : Cmps → Cmps) (s : State) : (onCmp f s).red = s.red := rfl
@[simp] theorem onCmp_eth (f : Cmps → Cmps) (s : State) : (onCmp f s).eth = s.eth := rfl
@[simp] theorem onCmp_tim (f : Cmps → Cmps) (s : State) : (onCmp f s).tim = s.tim := rfl
@[simp] theorem onCmp_lane (f : Cmps → Cmps) (s : State) : (onCmp f s).lane = s.lane := rfl
@[simp] theorem onCmp_flow (f : Cmps → Cmps) (s : State) : (onCmp f s).flow = s.flow := rfl
@[simp] theorem onCmp_fst (f : Cmps → Cmps) (s : State) : (onCmp f s).fst = s.fst := rfl
@[simp] theorem onCmp_cmp (f : Cmps → Cmps) (s : State) : (onCmp f s).cmp = f s.cmp := rfl
@[simp] theorem onCmp_aud (f : Cmps → Cmps) (s : State) : (onCmp f s).aud = s.aud := rfl
@[simp] theorem onCmp_out (f : Cmps → Cmps) (s : State) : (onCmp f s).out = s.out := rfl
@[simp] theorem onCmp_free (f : Cmps → Cmps) (s : State) : (onCmp f s).free = s.free := rfl
@[simp] theorem onCmp_image (f : Cmps → Cmps) (s : State) : (onCmp f s).image = s.image := rfl

@[simp] theorem onAud_pending (f : Aud → Aud) (s : State) : (onAud f s).pending = s.pending := rfl
@[simp] theorem onAud_clock (f : Aud → Aud) (s : State) : (onAud f s).clock = s.clock := rfl
@[simp] theorem onAud_mode (f : Aud → Aud) (s : State) : (onAud f s).mode = s.mode := rfl
@[simp] theorem onAud_halWaitMs (f : Aud → Aud) (s : State) : (onAud f s).halWaitMs = s.halWaitMs := rfl
@[simp] theorem onAud_fuses (f : Aud → Aud) (s : State) : (onAud f s).fuses = s.fuses := rfl
@[simp] theorem onAud_seq (f : Aud → Aud) (s : State) : (onAud f s).seq = s.seq := rfl
@[simp] theorem onAud_aon (f : Aud → Aud) (s : State) : (onAud f s).aon = s.aon := rfl
@[simp] theorem onAud_pins (f : Aud → Aud) (s : State) : (onAud f s).pins = s.pins := rfl
@[simp] theorem onAud_start (f : Aud → Aud) (s : State) : (onAud f s).start = s.start := rfl
@[simp] theorem onAud_cal (f : Aud → Aud) (s : State) : (onAud f s).cal = s.cal := rfl
@[simp] theorem onAud_flash (f : Aud → Aud) (s : State) : (onAud f s).flash = s.flash := rfl
@[simp] theorem onAud_host (f : Aud → Aud) (s : State) : (onAud f s).host = s.host := rfl
@[simp] theorem onAud_evt (f : Aud → Aud) (s : State) : (onAud f s).evt = s.evt := rfl
@[simp] theorem onAud_saf (f : Aud → Aud) (s : State) : (onAud f s).saf = s.saf := rfl
@[simp] theorem onAud_ctl (f : Aud → Aud) (s : State) : (onAud f s).ctl = s.ctl := rfl
@[simp] theorem onAud_pwr (f : Aud → Aud) (s : State) : (onAud f s).pwr = s.pwr := rfl
@[simp] theorem onAud_xpt (f : Aud → Aud) (s : State) : (onAud f s).xpt = s.xpt := rfl
@[simp] theorem onAud_cue (f : Aud → Aud) (s : State) : (onAud f s).cue = s.cue := rfl
@[simp] theorem onAud_red (f : Aud → Aud) (s : State) : (onAud f s).red = s.red := rfl
@[simp] theorem onAud_eth (f : Aud → Aud) (s : State) : (onAud f s).eth = s.eth := rfl
@[simp] theorem onAud_tim (f : Aud → Aud) (s : State) : (onAud f s).tim = s.tim := rfl
@[simp] theorem onAud_lane (f : Aud → Aud) (s : State) : (onAud f s).lane = s.lane := rfl
@[simp] theorem onAud_flow (f : Aud → Aud) (s : State) : (onAud f s).flow = s.flow := rfl
@[simp] theorem onAud_fst (f : Aud → Aud) (s : State) : (onAud f s).fst = s.fst := rfl
@[simp] theorem onAud_cmp (f : Aud → Aud) (s : State) : (onAud f s).cmp = s.cmp := rfl
@[simp] theorem onAud_aud (f : Aud → Aud) (s : State) : (onAud f s).aud = f s.aud := rfl
@[simp] theorem onAud_out (f : Aud → Aud) (s : State) : (onAud f s).out = s.out := rfl
@[simp] theorem onAud_free (f : Aud → Aud) (s : State) : (onAud f s).free = s.free := rfl
@[simp] theorem onAud_image (f : Aud → Aud) (s : State) : (onAud f s).image = s.image := rfl

@[simp] theorem advance_pending (t : Nat) (s : State) : (advance t s).pending = s.pending := rfl
@[simp] theorem advance_mode (t : Nat) (s : State) : (advance t s).mode = s.mode := rfl
@[simp] theorem advance_halWaitMs (t : Nat) (s : State) : (advance t s).halWaitMs = s.halWaitMs := rfl
@[simp] theorem advance_fuses (t : Nat) (s : State) : (advance t s).fuses = s.fuses := rfl
@[simp] theorem advance_seq (t : Nat) (s : State) : (advance t s).seq = s.seq := rfl
@[simp] theorem advance_aon (t : Nat) (s : State) : (advance t s).aon = s.aon := rfl
@[simp] theorem advance_pins (t : Nat) (s : State) : (advance t s).pins = s.pins := rfl
@[simp] theorem advance_start (t : Nat) (s : State) : (advance t s).start = s.start := rfl
@[simp] theorem advance_cal (t : Nat) (s : State) : (advance t s).cal = s.cal := rfl
@[simp] theorem advance_flash (t : Nat) (s : State) : (advance t s).flash = s.flash := rfl
@[simp] theorem advance_host (t : Nat) (s : State) : (advance t s).host = s.host := rfl
@[simp] theorem advance_evt (t : Nat) (s : State) : (advance t s).evt = s.evt := rfl
@[simp] theorem advance_saf (t : Nat) (s : State) : (advance t s).saf = s.saf := rfl
@[simp] theorem advance_ctl (t : Nat) (s : State) : (advance t s).ctl = s.ctl := rfl
@[simp] theorem advance_pwr (t : Nat) (s : State) : (advance t s).pwr = s.pwr := rfl
@[simp] theorem advance_xpt (t : Nat) (s : State) : (advance t s).xpt = s.xpt := rfl
@[simp] theorem advance_cue (t : Nat) (s : State) : (advance t s).cue = s.cue := rfl
@[simp] theorem advance_red (t : Nat) (s : State) : (advance t s).red = s.red := rfl
@[simp] theorem advance_eth (t : Nat) (s : State) : (advance t s).eth = s.eth := rfl
@[simp] theorem advance_tim (t : Nat) (s : State) : (advance t s).tim = s.tim := rfl
@[simp] theorem advance_lane (t : Nat) (s : State) : (advance t s).lane = s.lane := rfl
@[simp] theorem advance_flow (t : Nat) (s : State) : (advance t s).flow = s.flow := rfl
@[simp] theorem advance_fst (t : Nat) (s : State) : (advance t s).fst = s.fst := rfl
@[simp] theorem advance_cmp (t : Nat) (s : State) : (advance t s).cmp = s.cmp := rfl
@[simp] theorem advance_aud (t : Nat) (s : State) : (advance t s).aud = s.aud := rfl
@[simp] theorem advance_out (t : Nat) (s : State) : (advance t s).out = s.out := rfl
@[simp] theorem advance_free (t : Nat) (s : State) : (advance t s).free = s.free := rfl
@[simp] theorem advance_image (t : Nat) (s : State) : (advance t s).image = s.image := rfl
@[simp] theorem advance_clk (t : Nat) (s : State) : (advance t s).clock.clk = max s.clock.clk t := rfl
@[simp] theorem advance_running (t : Nat) (s : State) : (advance t s).clock.running = s.clock.running := rfl

@[simp] theorem emit_pending (x : Out) (s : State) : (emit x s).pending = s.pending := rfl
@[simp] theorem emit_clock (x : Out) (s : State) : (emit x s).clock = s.clock := rfl
@[simp] theorem emit_mode (x : Out) (s : State) : (emit x s).mode = s.mode := rfl
@[simp] theorem emit_halWaitMs (x : Out) (s : State) : (emit x s).halWaitMs = s.halWaitMs := rfl
@[simp] theorem emit_fuses (x : Out) (s : State) : (emit x s).fuses = s.fuses := rfl
@[simp] theorem emit_seq (x : Out) (s : State) : (emit x s).seq = s.seq := rfl
@[simp] theorem emit_aon (x : Out) (s : State) : (emit x s).aon = s.aon := rfl
@[simp] theorem emit_pins (x : Out) (s : State) : (emit x s).pins = s.pins := rfl
@[simp] theorem emit_start (x : Out) (s : State) : (emit x s).start = s.start := rfl
@[simp] theorem emit_cal (x : Out) (s : State) : (emit x s).cal = s.cal := rfl
@[simp] theorem emit_flash (x : Out) (s : State) : (emit x s).flash = s.flash := rfl
@[simp] theorem emit_host (x : Out) (s : State) : (emit x s).host = s.host := rfl
@[simp] theorem emit_evt (x : Out) (s : State) : (emit x s).evt = s.evt := rfl
@[simp] theorem emit_saf (x : Out) (s : State) : (emit x s).saf = s.saf := rfl
@[simp] theorem emit_ctl (x : Out) (s : State) : (emit x s).ctl = s.ctl := rfl
@[simp] theorem emit_pwr (x : Out) (s : State) : (emit x s).pwr = s.pwr := rfl
@[simp] theorem emit_xpt (x : Out) (s : State) : (emit x s).xpt = s.xpt := rfl
@[simp] theorem emit_cue (x : Out) (s : State) : (emit x s).cue = s.cue := rfl
@[simp] theorem emit_red (x : Out) (s : State) : (emit x s).red = s.red := rfl
@[simp] theorem emit_eth (x : Out) (s : State) : (emit x s).eth = s.eth := rfl
@[simp] theorem emit_tim (x : Out) (s : State) : (emit x s).tim = s.tim := rfl
@[simp] theorem emit_lane (x : Out) (s : State) : (emit x s).lane = s.lane := rfl
@[simp] theorem emit_flow (x : Out) (s : State) : (emit x s).flow = s.flow := rfl
@[simp] theorem emit_fst (x : Out) (s : State) : (emit x s).fst = s.fst := rfl
@[simp] theorem emit_cmp (x : Out) (s : State) : (emit x s).cmp = s.cmp := rfl
@[simp] theorem emit_aud (x : Out) (s : State) : (emit x s).aud = s.aud := rfl
@[simp] theorem emit_out (x : Out) (s : State) : (emit x s).out = x :: s.out := rfl
@[simp] theorem emit_free (x : Out) (s : State) : (emit x s).free = s.free := rfl
@[simp] theorem emit_image (x : Out) (s : State) : (emit x s).image = s.image := rfl

end Sys2Proof.Machine
end

