-- ==== Sys2Proof/Laws/Fields.lean ====
section
/-! SUPPORT. The parts that the operations shared by every command leave as they were: the raising of an event, the
reply, and what a pair in step adds. -/

-- The package is checked as one text; elaborating these proofs in order keeps the number of threads small.
set_option Elab.async false

namespace Sys2Proof.Machine

theorem answered_moves {pl : List Part} {z : State} (op : Op) (c : HostCmd) (st : Status) (ps : List Byte) {x : State}
    (hz : Moves pl z x)
    (hl : Part.sub [.host, .red, .out] pl = true := by first | rfl | exact Part.sub_trans rfl (by assumption)) :
    Moves pl z (answered op c st ps x) :=
  pairAfter_moves _ _ _ _ _ (finish_moves _ _ _ _ (.ite (countPassed_moves hz) hz))

theorem deferred_moves {pl : List Part} {z : State} (op : Op) (c : HostCmd) {x : State} (hz : Moves pl z x)
    (hl : Part.sub [.host, .red, .out] pl = true := by first | rfl | exact Part.sub_trans rfl (by assumption)) :
    Moves pl z (deferred op c x) := pairAfter_moves _ _ _ _ _ (countPassed_moves hz)

theorem begun_moves {pl : List Part} {z : State} (op : Op) (t : Nat) (c : HostCmd) {s : State} (hz : Moves pl z s)
    (hl : Part.sub [.clock, .host] pl = true := by first | rfl | exact Part.sub_trans rfl (by assumption)) :
    Moves pl z (begun op t c s) := dequeue_moves _ _ (advance_moves _ hz)

theorem emitPin_own (name : String) (level : Nat) (s : State) : Moves [.out] s (emitPin name level s) := emitPin_moves _ _ (Moves.refl _ s)
@[simp] theorem emitPin_pending (name : String) (level : Nat) (s : State) : (emitPin name level s).pending = s.pending := (emitPin_own _ _ s).steady.pending
@[simp] theorem emitPin_clock (name : String) (level : Nat) (s : State) : (emitPin name level s).clock = s.clock := (emitPin_own _ _ s).same .clock rfl
@[simp] theorem emitPin_mode (name : String) (level : Nat) (s : State) : (emitPin name level s).mode = s.mode := (emitPin_own _ _ s).same .mode rfl
@[simp] theorem emitPin_halWaitMs (name : String) (level : Nat) (s : State) : (emitPin name level s).halWaitMs = s.halWaitMs := (emitPin_own _ _ s).same .halWaitMs rfl
@[simp] theorem emitPin_fuses (name : String) (level : Nat) (s : State) : (emitPin name level s).fuses = s.fuses := (emitPin_own _ _ s).same .fuses rfl
@[simp] theorem emitPin_seq (name : String) (level : Nat) (s : State) : (emitPin name level s).seq = s.seq := (emitPin_own _ _ s).same .seq rfl
@[simp] theorem emitPin_aon (name : String) (level : Nat) (s : State) : (emitPin name level s).aon = s.aon := (emitPin_own _ _ s).same .aon rfl
@[simp] theorem emitPin_pins (name : String) (level : Nat) (s : State) : (emitPin name level s).pins = s.pins := (emitPin_own _ _ s).same .pins rfl
@[simp] theorem emitPin_start (name : String) (level : Nat) (s : State) : (emitPin name level s).start = s.start := (emitPin_own _ _ s).same .start rfl
@[simp] theorem emitPin_cal (name : String) (level : Nat) (s : State) : (emitPin name level s).cal = s.cal := (emitPin_own _ _ s).same .cal rfl
@[simp] theorem emitPin_flash (name : String) (level : Nat) (s : State) : (emitPin name level s).flash = s.flash := (emitPin_own _ _ s).same .flash rfl
@[simp] theorem emitPin_host (name : String) (level : Nat) (s : State) : (emitPin name level s).host = s.host := (emitPin_own _ _ s).same .host rfl
@[simp] theorem emitPin_evt (name : String) (level : Nat) (s : State) : (emitPin name level s).evt = s.evt := (emitPin_own _ _ s).same .evt rfl
@[simp] theorem emitPin_saf (name : String) (level : Nat) (s : State) : (emitPin name level s).saf = s.saf := (emitPin_own _ _ s).same .saf rfl
@[simp] theorem emitPin_ctl (name : String) (level : Nat) (s : State) : (emitPin name level s).ctl = s.ctl := (emitPin_own _ _ s).same .ctl rfl
@[simp] theorem emitPin_pwr (name : String) (level : Nat) (s : State) : (emitPin name level s).pwr = s.pwr := (emitPin_own _ _ s).same .pwr rfl
@[simp] theorem emitPin_xpt (name : String) (level : Nat) (s : State) : (emitPin name level s).xpt = s.xpt := (emitPin_own _ _ s).same .xpt rfl
@[simp] theorem emitPin_cue (name : String) (level : Nat) (s : State) : (emitPin name level s).cue = s.cue := (emitPin_own _ _ s).same .cue rfl
@[simp] theorem emitPin_red (name : String) (level : Nat) (s : State) : (emitPin name level s).red = s.red := (emitPin_own _ _ s).same .red rfl
@[simp] theorem emitPin_eth (name : String) (level : Nat) (s : State) : (emitPin name level s).eth = s.eth := (emitPin_own _ _ s).same .eth rfl
@[simp] theorem emitPin_tim (name : String) (level : Nat) (s : State) : (emitPin name level s).tim = s.tim := (emitPin_own _ _ s).same .tim rfl
@[simp] theorem emitPin_lane (name : String) (level : Nat) (s : State) : (emitPin name level s).lane = s.lane := (emitPin_own _ _ s).same .lane rfl
@[simp] theorem emitPin_flow (name : String) (level : Nat) (s : State) : (emitPin name level s).flow = s.flow := (emitPin_own _ _ s).same .flow rfl
@[simp] theorem emitPin_fst (name : String) (level : Nat) (s : State) : (emitPin name level s).fst = s.fst := (emitPin_own _ _ s).same .fst rfl
@[simp] theorem emitPin_cmp (name : String) (level : Nat) (s : State) : (emitPin name level s).cmp = s.cmp := (emitPin_own _ _ s).same .cmp rfl
@[simp] theorem emitPin_aud (name : String) (level : Nat) (s : State) : (emitPin name level s).aud = s.aud := (emitPin_own _ _ s).same .aud rfl
@[simp] theorem emitPin_free (name : String) (level : Nat) (s : State) : (emitPin name level s).free = s.free := (emitPin_own _ _ s).same .free rfl
@[simp] theorem emitPin_image (name : String) (level : Nat) (s : State) : (emitPin name level s).image = s.image := (emitPin_own _ _ s).same .image rfl

theorem raise_own (sev cls code path : Nat) (ws : List Word) (s : State) : Moves [.flash, .evt] s (raise sev cls code path ws s) := raise_moves _ _ _ _ _ (Moves.refl _ s)
@[simp] theorem raise_pending (sev cls code path : Nat) (ws : List Word) (s : State) : (raise sev cls code path ws s).pending = s.pending := (raise_own _ _ _ _ _ s).steady.pending
@[simp] theorem raise_clock (sev cls code path : Nat) (ws : List Word) (s : State) : (raise sev cls code path ws s).clock = s.clock := (raise_own _ _ _ _ _ s).same .clock rfl
@[simp] theorem raise_mode (sev cls code path : Nat) (ws : List Word) (s : State) : (raise sev cls code path ws s).mode = s.mode := (raise_own _ _ _ _ _ s).same .mode rfl
@[simp] theorem raise_halWaitMs (sev cls code path : Nat) (ws : List Word) (s : State) : (raise sev cls code path ws s).halWaitMs = s.halWaitMs := (raise_own _ _ _ _ _ s).same .halWaitMs rfl
@[simp] theorem raise_fuses (sev cls code path : Nat) (ws : List Word) (s : State) : (raise sev cls code path ws s).fuses = s.fuses := (raise_own _ _ _ _ _ s).same .fuses rfl
@[simp] theorem raise_seq (sev cls code path : Nat) (ws : List Word) (s : State) : (raise sev cls code path ws s).seq = s.seq := (raise_own _ _ _ _ _ s).same .seq rfl
@[simp] theorem raise_aon (sev cls code path : Nat) (ws : List Word) (s : State) : (raise sev cls code path ws s).aon = s.aon := (raise_own _ _ _ _ _ s).same .aon rfl
@[simp] theorem raise_pins (sev cls code path : Nat) (ws : List Word) (s : State) : (raise sev cls code path ws s).pins = s.pins := (raise_own _ _ _ _ _ s).same .pins rfl
@[simp] theorem raise_start (sev cls code path : Nat) (ws : List Word) (s : State) : (raise sev cls code path ws s).start = s.start := (raise_own _ _ _ _ _ s).same .start rfl
@[simp] theorem raise_cal (sev cls code path : Nat) (ws : List Word) (s : State) : (raise sev cls code path ws s).cal = s.cal := (raise_own _ _ _ _ _ s).same .cal rfl
@[simp] theorem raise_host (sev cls code path : Nat) (ws : List Word) (s : State) : (raise sev cls code path ws s).host = s.host := (raise_own _ _ _ _ _ s).same .host rfl
@[simp] theorem raise_saf (sev cls code path : Nat) (ws : List Word) (s : State) : (raise sev cls code path ws s).saf = s.saf := (raise_own _ _ _ _ _ s).same .saf rfl
@[simp] theorem raise_ctl (sev cls code path : Nat) (ws : List Word) (s : State) : (raise sev cls code path ws s).ctl = s.ctl := (raise_own _ _ _ _ _ s).same .ctl rfl
@[simp] theorem raise_pwr (sev cls code path : Nat) (ws : List Word) (s : State) : (raise sev cls code path ws s).pwr = s.pwr := (raise_own _ _ _ _ _ s).same .pwr rfl
@[simp] theorem raise_xpt (sev cls code path : Nat) (ws : List Word) (s : State) : (raise sev cls code path ws s).xpt = s.xpt := (raise_own _ _ _ _ _ s).same .xpt rfl
@[simp] theorem raise_cue (sev cls code path : Nat) (ws : List Word) (s : State) : (raise sev cls code path ws s).cue = s.cue := (raise_own _ _ _ _ _ s).same .cue rfl
@[simp] theorem raise_red (sev cls code path : Nat) (ws : List Word) (s : State) : (raise sev cls code path ws s).red = s.red := (raise_own _ _ _ _ _ s).same .red rfl
@[simp] theorem raise_eth (sev cls code path : Nat) (ws : List Word) (s : State) : (raise sev cls code path ws s).eth = s.eth := (raise_own _ _ _ _ _ s).same .eth rfl
@[simp] theorem raise_tim (sev cls code path : Nat) (ws : List Word) (s : State) : (raise sev cls code path ws s).tim = s.tim := (raise_own _ _ _ _ _ s).same .tim rfl
@[simp] theorem raise_lane (sev cls code path : Nat) (ws : List Word) (s : State) : (raise sev cls code path ws s).lane = s.lane := (raise_own _ _ _ _ _ s).same .lane rfl
@[simp] theorem raise_flow (sev cls code path : Nat) (ws : List Word) (s : State) : (raise sev cls code path ws s).flow = s.flow := (raise_own _ _ _ _ _ s).same .flow rfl
@[simp] theorem raise_fst (sev cls code path : Nat) (ws : List Word) (s : State) : (raise sev cls code path ws s).fst = s.fst := (raise_own _ _ _ _ _ s).same .fst rfl
@[simp] theorem raise_cmp (sev cls code path : Nat) (ws : List Word) (s : State) : (raise sev cls code path ws s).cmp = s.cmp := (raise_own _ _ _ _ _ s).same .cmp rfl
@[simp] theorem raise_aud (sev cls code path : Nat) (ws : List Word) (s : State) : (raise sev cls code path ws s).aud = s.aud := (raise_own _ _ _ _ _ s).same .aud rfl
@[simp] theorem raise_out (sev cls code path : Nat) (ws : List Word) (s : State) : (raise sev cls code path ws s).out = s.out := (raise_own _ _ _ _ _ s).same .out rfl
@[simp] theorem raise_free (sev cls code path : Nat) (ws : List Word) (s : State) : (raise sev cls code path ws s).free = s.free := (raise_own _ _ _ _ _ s).same .free rfl
@[simp] theorem raise_image (sev cls code path : Nat) (ws : List Word) (s : State) : (raise sev cls code path ws s).image = s.image := (raise_own _ _ _ _ _ s).same .image rfl

theorem recordItem_own (it : RecItem) (s : State) : Moves [.red] s (recordItem it s) := recordItem_moves _ (Moves.refl _ s)
@[simp] theorem recordItem_pending (it : RecItem) (s : State) : (recordItem it s).pending = s.pending := (recordItem_own _ s).steady.pending
@[simp] theorem recordItem_clock (it : RecItem) (s : State) : (recordItem it s).clock = s.clock := (recordItem_own _ s).same .clock rfl
@[simp] theorem recordItem_mode (it : RecItem) (s : State) : (recordItem it s).mode = s.mode := (recordItem_own _ s).same .mode rfl
@[simp] theorem recordItem_halWaitMs (it : RecItem) (s : State) : (recordItem it s).halWaitMs = s.halWaitMs := (recordItem_own _ s).same .halWaitMs rfl
@[simp] theorem recordItem_fuses (it : RecItem) (s : State) : (recordItem it s).fuses = s.fuses := (recordItem_own _ s).same .fuses rfl
@[simp] theorem recordItem_seq (it : RecItem) (s : State) : (recordItem it s).seq = s.seq := (recordItem_own _ s).same .seq rfl
@[simp] theorem recordItem_aon (it : RecItem) (s : State) : (recordItem it s).aon = s.aon := (recordItem_own _ s).same .aon rfl
@[simp] theorem recordItem_pins (it : RecItem) (s : State) : (recordItem it s).pins = s.pins := (recordItem_own _ s).same .pins rfl
@[simp] theorem recordItem_start (it : RecItem) (s : State) : (recordItem it s).start = s.start := (recordItem_own _ s).same .start rfl
@[simp] theorem recordItem_cal (it : RecItem) (s : State) : (recordItem it s).cal = s.cal := (recordItem_own _ s).same .cal rfl
@[simp] theorem recordItem_flash (it : RecItem) (s : State) : (recordItem it s).flash = s.flash := (recordItem_own _ s).same .flash rfl
@[simp] theorem recordItem_host (it : RecItem) (s : State) : (recordItem it s).host = s.host := (recordItem_own _ s).same .host rfl
@[simp] theorem recordItem_evt (it : RecItem) (s : State) : (recordItem it s).evt = s.evt := (recordItem_own _ s).same .evt rfl
@[simp] theorem recordItem_saf (it : RecItem) (s : State) : (recordItem it s).saf = s.saf := (recordItem_own _ s).same .saf rfl
@[simp] theorem recordItem_ctl (it : RecItem) (s : State) : (recordItem it s).ctl = s.ctl := (recordItem_own _ s).same .ctl rfl
@[simp] theorem recordItem_pwr (it : RecItem) (s : State) : (recordItem it s).pwr = s.pwr := (recordItem_own _ s).same .pwr rfl
@[simp] theorem recordItem_xpt (it : RecItem) (s : State) : (recordItem it s).xpt = s.xpt := (recordItem_own _ s).same .xpt rfl
@[simp] theorem recordItem_cue (it : RecItem) (s : State) : (recordItem it s).cue = s.cue := (recordItem_own _ s).same .cue rfl
@[simp] theorem recordItem_eth (it : RecItem) (s : State) : (recordItem it s).eth = s.eth := (recordItem_own _ s).same .eth rfl
@[simp] theorem recordItem_tim (it : RecItem) (s : State) : (recordItem it s).tim = s.tim := (recordItem_own _ s).same .tim rfl
@[simp] theorem recordItem_lane (it : RecItem) (s : State) : (recordItem it s).lane = s.lane := (recordItem_own _ s).same .lane rfl
@[simp] theorem recordItem_flow (it : RecItem) (s : State) : (recordItem it s).flow = s.flow := (recordItem_own _ s).same .flow rfl
@[simp] theorem recordItem_fst (it : RecItem) (s : State) : (recordItem it s).fst = s.fst := (recordItem_own _ s).same .fst rfl
@[simp] theorem recordItem_cmp (it : RecItem) (s : State) : (recordItem it s).cmp = s.cmp := (recordItem_own _ s).same .cmp rfl
@[simp] theorem recordItem_aud (it : RecItem) (s : State) : (recordItem it s).aud = s.aud := (recordItem_own _ s).same .aud rfl
@[simp] theorem recordItem_out (it : RecItem) (s : State) : (recordItem it s).out = s.out := (recordItem_own _ s).same .out rfl
@[simp] theorem recordItem_free (it : RecItem) (s : State) : (recordItem it s).free = s.free := (recordItem_own _ s).same .free rfl
@[simp] theorem recordItem_image (it : RecItem) (s : State) : (recordItem it s).image = s.image := (recordItem_own _ s).same .image rfl

theorem sendHalyard_own (kind : Nat) (ws : List Byte) (s : State) : Moves [.red, .out] s (sendHalyard kind ws s) := sendHalyard_moves _ _ (Moves.refl _ s)
@[simp] theorem sendHalyard_pending (kind : Nat) (ws : List Byte) (s : State) : (sendHalyard kind ws s).pending = s.pending := (sendHalyard_own _ _ s).steady.pending
@[simp] theorem sendHalyard_clock (kind : Nat) (ws : List Byte) (s : State) : (sendHalyard kind ws s).clock = s.clock := (sendHalyard_own _ _ s).same .clock rfl
@[simp] theorem sendHalyard_mode (kind : Nat) (ws : List Byte) (s : State) : (sendHalyard kind ws s).mode = s.mode := (sendHalyard_own _ _ s).same .mode rfl
@[simp] theorem sendHalyard_halWaitMs (kind : Nat) (ws : List Byte) (s : State) : (sendHalyard kind ws s).halWaitMs = s.halWaitMs := (sendHalyard_own _ _ s).same .halWaitMs rfl
@[simp] theorem sendHalyard_fuses (kind : Nat) (ws : List Byte) (s : State) : (sendHalyard kind ws s).fuses = s.fuses := (sendHalyard_own _ _ s).same .fuses rfl
@[simp] theorem sendHalyard_seq (kind : Nat) (ws : List Byte) (s : State) : (sendHalyard kind ws s).seq = s.seq := (sendHalyard_own _ _ s).same .seq rfl
@[simp] theorem sendHalyard_aon (kind : Nat) (ws : List Byte) (s : State) : (sendHalyard kind ws s).aon = s.aon := (sendHalyard_own _ _ s).same .aon rfl
@[simp] theorem sendHalyard_pins (kind : Nat) (ws : List Byte) (s : State) : (sendHalyard kind ws s).pins = s.pins := (sendHalyard_own _ _ s).same .pins rfl
@[simp] theorem sendHalyard_start (kind : Nat) (ws : List Byte) (s : State) : (sendHalyard kind ws s).start = s.start := (sendHalyard_own _ _ s).same .start rfl
@[simp] theorem sendHalyard_cal (kind : Nat) (ws : List Byte) (s : State) : (sendHalyard kind ws s).cal = s.cal := (sendHalyard_own _ _ s).same .cal rfl
@[simp] theorem sendHalyard_flash (kind : Nat) (ws : List Byte) (s : State) : (sendHalyard kind ws s).flash = s.flash := (sendHalyard_own _ _ s).same .flash rfl
@[simp] theorem sendHalyard_host (kind : Nat) (ws : List Byte) (s : State) : (sendHalyard kind ws s).host = s.host := (sendHalyard_own _ _ s).same .host rfl
@[simp] theorem sendHalyard_evt (kind : Nat) (ws : List Byte) (s : State) : (sendHalyard kind ws s).evt = s.evt := (sendHalyard_own _ _ s).same .evt rfl
@[simp] theorem sendHalyard_saf (kind : Nat) (ws : List Byte) (s : State) : (sendHalyard kind ws s).saf = s.saf := (sendHalyard_own _ _ s).same .saf rfl
@[simp] theorem sendHalyard_ctl (kind : Nat) (ws : List Byte) (s : State) : (sendHalyard kind ws s).ctl = s.ctl := (sendHalyard_own _ _ s).same .ctl rfl
@[simp] theorem sendHalyard_pwr (kind : Nat) (ws : List Byte) (s : State) : (sendHalyard kind ws s).pwr = s.pwr := (sendHalyard_own _ _ s).same .pwr rfl
@[simp] theorem sendHalyard_xpt (kind : Nat) (ws : List Byte) (s : State) : (sendHalyard kind ws s).xpt = s.xpt := (sendHalyard_own _ _ s).same .xpt rfl
@[simp] theorem sendHalyard_cue (kind : Nat) (ws : List Byte) (s : State) : (sendHalyard kind ws s).cue = s.cue := (sendHalyard_own _ _ s).same .cue rfl
@[simp] theorem sendHalyard_eth (kind : Nat) (ws : List Byte) (s : State) : (sendHalyard kind ws s).eth = s.eth := (sendHalyard_own _ _ s).same .eth rfl
@[simp] theorem sendHalyard_tim (kind : Nat) (ws : List Byte) (s : State) : (sendHalyard kind ws s).tim = s.tim := (sendHalyard_own _ _ s).same .tim rfl
@[simp] theorem sendHalyard_lane (kind : Nat) (ws : List Byte) (s : State) : (sendHalyard kind ws s).lane = s.lane := (sendHalyard_own _ _ s).same .lane rfl
@[simp] theorem sendHalyard_flow (kind : Nat) (ws : List Byte) (s : State) : (sendHalyard kind ws s).flow = s.flow := (sendHalyard_own _ _ s).same .flow rfl
@[simp] theorem sendHalyard_fst (kind : Nat) (ws : List Byte) (s : State) : (sendHalyard kind ws s).fst = s.fst := (sendHalyard_own _ _ s).same .fst rfl
@[simp] theorem sendHalyard_cmp (kind : Nat) (ws : List Byte) (s : State) : (sendHalyard kind ws s).cmp = s.cmp := (sendHalyard_own _ _ s).same .cmp rfl
@[simp] theorem sendHalyard_aud (kind : Nat) (ws : List Byte) (s : State) : (sendHalyard kind ws s).aud = s.aud := (sendHalyard_own _ _ s).same .aud rfl
@[simp] theorem sendHalyard_free (kind : Nat) (ws : List Byte) (s : State) : (sendHalyard kind ws s).free = s.free := (sendHalyard_own _ _ s).same .free rfl
@[simp] theorem sendHalyard_image (kind : Nat) (ws : List Byte) (s : State) : (sendHalyard kind ws s).image = s.image := (sendHalyard_own _ _ s).same .image rfl

theorem sendReply_own (key : Option (List Byte)) (opcode : Nat) (c : HostCmd) (st : Status) (ps : List Byte) (s : State) : Moves [.host, .out] s (sendReply key opcode c st ps s) := sendReply_moves _ _ _ _ _ (Moves.refl _ s)
@[simp] theorem sendReply_pending (key : Option (List Byte)) (opcode : Nat) (c : HostCmd) (st : Status) (ps : List Byte) (s : State) : (sendReply key opcode c st ps s).pending = s.pending := (sendReply_own _ _ _ _ _ s).steady.pending
@[simp] theorem sendReply_clock (key : Option (List Byte)) (opcode : Nat) (c : HostCmd) (st : Status) (ps : List Byte) (s : State) : (sendReply key opcode c st ps s).clock = s.clock := (sendReply_own _ _ _ _ _ s).same .clock rfl
@[simp] theorem sendReply_mode (key : Option (List Byte)) (opcode : Nat) (c : HostCmd) (st : Status) (ps : List Byte) (s : State) : (sendReply key opcode c st ps s).mode = s.mode := (sendReply_own _ _ _ _ _ s).same .mode rfl
@[simp] theorem sendReply_halWaitMs (key : Option (List Byte)) (opcode : Nat) (c : HostCmd) (st : Status) (ps : List Byte) (s : State) : (sendReply key opcode c st ps s).halWaitMs = s.halWaitMs := (sendReply_own _ _ _ _ _ s).same .halWaitMs rfl
@[simp] theorem sendReply_fuses (key : Option (List Byte)) (opcode : Nat) (c : HostCmd) (st : Status) (ps : List Byte) (s : State) : (sendReply key opcode c st ps s).fuses = s.fuses := (sendReply_own _ _ _ _ _ s).same .fuses rfl
@[simp] theorem sendReply_seq (key : Option (List Byte)) (opcode : Nat) (c : HostCmd) (st : Status) (ps : List Byte) (s : State) : (sendReply key opcode c st ps s).seq = s.seq := (sendReply_own _ _ _ _ _ s).same .seq rfl
@[simp] theorem sendReply_aon (key : Option (List Byte)) (opcode : Nat) (c : HostCmd) (st : Status) (ps : List Byte) (s : State) : (sendReply key opcode c st ps s).aon = s.aon := (sendReply_own _ _ _ _ _ s).same .aon rfl
@[simp] theorem sendReply_pins (key : Option (List Byte)) (opcode : Nat) (c : HostCmd) (st : Status) (ps : List Byte) (s : State) : (sendReply key opcode c st ps s).pins = s.pins := (sendReply_own _ _ _ _ _ s).same .pins rfl
@[simp] theorem sendReply_start (key : Option (List Byte)) (opcode : Nat) (c : HostCmd) (st : Status) (ps : List Byte) (s : State) : (sendReply key opcode c st ps s).start = s.start := (sendReply_own _ _ _ _ _ s).same .start rfl
@[simp] theorem sendReply_cal (key : Option (List Byte)) (opcode : Nat) (c : HostCmd) (st : Status) (ps : List Byte) (s : State) : (sendReply key opcode c st ps s).cal = s.cal := (sendReply_own _ _ _ _ _ s).same .cal rfl
@[simp] theorem sendReply_flash (key : Option (List Byte)) (opcode : Nat) (c : HostCmd) (st : Status) (ps : List Byte) (s : State) : (sendReply key opcode c st ps s).flash = s.flash := (sendReply_own _ _ _ _ _ s).same .flash rfl
@[simp] theorem sendReply_evt (key : Option (List Byte)) (opcode : Nat) (c : HostCmd) (st : Status) (ps : List Byte) (s : State) : (sendReply key opcode c st ps s).evt = s.evt := (sendReply_own _ _ _ _ _ s).same .evt rfl
@[simp] theorem sendReply_saf (key : Option (List Byte)) (opcode : Nat) (c : HostCmd) (st : Status) (ps : List Byte) (s : State) : (sendReply key opcode c st ps s).saf = s.saf := (sendReply_own _ _ _ _ _ s).same .saf rfl
@[simp] theorem sendReply_ctl (key : Option (List Byte)) (opcode : Nat) (c : HostCmd) (st : Status) (ps : List Byte) (s : State) : (sendReply key opcode c st ps s).ctl = s.ctl := (sendReply_own _ _ _ _ _ s).same .ctl rfl
@[simp] theorem sendReply_pwr (key : Option (List Byte)) (opcode : Nat) (c : HostCmd) (st : Status) (ps : List Byte) (s : State) : (sendReply key opcode c st ps s).pwr = s.pwr := (sendReply_own _ _ _ _ _ s).same .pwr rfl
@[simp] theorem sendReply_xpt (key : Option (List Byte)) (opcode : Nat) (c : HostCmd) (st : Status) (ps : List Byte) (s : State) : (sendReply key opcode c st ps s).xpt = s.xpt := (sendReply_own _ _ _ _ _ s).same .xpt rfl
@[simp] theorem sendReply_cue (key : Option (List Byte)) (opcode : Nat) (c : HostCmd) (st : Status) (ps : List Byte) (s : State) : (sendReply key opcode c st ps s).cue = s.cue := (sendReply_own _ _ _ _ _ s).same .cue rfl
@[simp] theorem sendReply_red (key : Option (List Byte)) (opcode : Nat) (c : HostCmd) (st : Status) (ps : List Byte) (s : State) : (sendReply key opcode c st ps s).red = s.red := (sendReply_own _ _ _ _ _ s).same .red rfl
@[simp] theorem sendReply_eth (key : Option (List Byte)) (opcode : Nat) (c : HostCmd) (st : Status) (ps : List Byte) (s : State) : (sendReply key opcode c st ps s).eth = s.eth := (sendReply_own _ _ _ _ _ s).same .eth rfl
@[simp] theorem sendReply_tim (key : Option (List Byte)) (opcode : Nat) (c : HostCmd) (st : Status) (ps : List Byte) (s : State) : (sendReply key opcode c st ps s).tim = s.tim := (sendReply_own _ _ _ _ _ s).same .tim rfl
@[simp] theorem sendReply_lane (key : Option (List Byte)) (opcode : Nat) (c : HostCmd) (st : Status) (ps : List Byte) (s : State) : (sendReply key opcode c st ps s).lane = s.lane := (sendReply_own _ _ _ _ _ s).same .lane rfl
@[simp] theorem sendReply_flow (key : Option (List Byte)) (opcode : Nat) (c : HostCmd) (st : Status) (ps : List Byte) (s : State) : (sendReply key opcode c st ps s).flow = s.flow := (sendReply_own _ _ _ _ _ s).same .flow rfl
@[simp] theorem sendReply_fst (key : Option (List Byte)) (opcode : Nat) (c : HostCmd) (st : Status) (ps : List Byte) (s : State) : (sendReply key opcode c st ps s).fst = s.fst := (sendReply_own _ _ _ _ _ s).same .fst rfl
@[simp] theorem sendReply_cmp (key : Option (List Byte)) (opcode : Nat) (c : HostCmd) (st : Status) (ps : List Byte) (s : State) : (sendReply key opcode c st ps s).cmp = s.cmp := (sendReply_own _ _ _ _ _ s).same .cmp rfl
@[simp] theorem sendReply_aud (key : Option (List Byte)) (opcode : Nat) (c : HostCmd) (st : Status) (ps : List Byte) (s : State) : (sendReply key opcode c st ps s).aud = s.aud := (sendReply_own _ _ _ _ _ s).same .aud rfl
@[simp] theorem sendReply_free (key : Option (List Byte)) (opcode : Nat) (c : HostCmd) (st : Status) (ps : List Byte) (s : State) : (sendReply key opcode c st ps s).free = s.free := (sendReply_own _ _ _ _ _ s).same .free rfl
@[simp] theorem sendReply_image (key : Option (List Byte)) (opcode : Nat) (c : HostCmd) (st : Status) (ps : List Byte) (s : State) : (sendReply key opcode c st ps s).image = s.image := (sendReply_own _ _ _ _ _ s).same .image rfl

theorem hostCount_own (i : Nat) (s : State) : Moves [.host] s (hostCount i s) := hostCount_moves _ (Moves.refl _ s)
@[simp] theorem hostCount_pending (i : Nat) (s : State) : (hostCount i s).pending = s.pending := (hostCount_own _ s).steady.pending
@[simp] theorem hostCount_clock (i : Nat) (s : State) : (hostCount i s).clock = s.clock := (hostCount_own _ s).same .clock rfl
@[simp] theorem hostCount_mode (i : Nat) (s : State) : (hostCount i s).mode = s.mode := (hostCount_own _ s).same .mode rfl
@[simp] theorem hostCount_halWaitMs (i : Nat) (s : State) : (hostCount i s).halWaitMs = s.halWaitMs := (hostCount_own _ s).same .halWaitMs rfl
@[simp] theorem hostCount_fuses (i : Nat) (s : State) : (hostCount i s).fuses = s.fuses := (hostCount_own _ s).same .fuses rfl
@[simp] theorem hostCount_seq (i : Nat) (s : State) : (hostCount i s).seq = s.seq := (hostCount_own _ s).same .seq rfl
@[simp] theorem hostCount_aon (i : Nat) (s : State) : (hostCount i s).aon = s.aon := (hostCount_own _ s).same .aon rfl
@[simp] theorem hostCount_pins (i : Nat) (s : State) : (hostCount i s).pins = s.pins := (hostCount_own _ s).same .pins rfl
@[simp] theorem hostCount_start (i : Nat) (s : State) : (hostCount i s).start = s.start := (hostCount_own _ s).same .start rfl
@[simp] theorem hostCount_cal (i : Nat) (s : State) : (hostCount i s).cal = s.cal := (hostCount_own _ s).same .cal rfl
@[simp] theorem hostCount_flash (i : Nat) (s : State) : (hostCount i s).flash = s.flash := (hostCount_own _ s).same .flash rfl
@[simp] theorem hostCount_evt (i : Nat) (s : State) : (hostCount i s).evt = s.evt := (hostCount_own _ s).same .evt rfl
@[simp] theorem hostCount_saf (i : Nat) (s : State) : (hostCount i s).saf = s.saf := (hostCount_own _ s).same .saf rfl
@[simp] theorem hostCount_ctl (i : Nat) (s : State) : (hostCount i s).ctl = s.ctl := (hostCount_own _ s).same .ctl rfl
@[simp] theorem hostCount_pwr (i : Nat) (s : State) : (hostCount i s).pwr = s.pwr := (hostCount_own _ s).same .pwr rfl
@[simp] theorem hostCount_xpt (i : Nat) (s : State) : (hostCount i s).xpt = s.xpt := (hostCount_own _ s).same .xpt rfl
@[simp] theorem hostCount_cue (i : Nat) (s : State) : (hostCount i s).cue = s.cue := (hostCount_own _ s).same .cue rfl
@[simp] theorem hostCount_red (i : Nat) (s : State) : (hostCount i s).red = s.red := (hostCount_own _ s).same .red rfl
@[simp] theorem hostCount_eth (i : Nat) (s : State) : (hostCount i s).eth = s.eth := (hostCount_own _ s).same .eth rfl
@[simp] theorem hostCount_tim (i : Nat) (s : State) : (hostCount i s).tim = s.tim := (hostCount_own _ s).same .tim rfl
@[simp] theorem hostCount_lane (i : Nat) (s : State) : (hostCount i s).lane = s.lane := (hostCount_own _ s).same .lane rfl
@[simp] theorem hostCount_flow (i : Nat) (s : State) : (hostCount i s).flow = s.flow := (hostCount_own _ s).same .flow rfl
@[simp] theorem hostCount_fst (i : Nat) (s : State) : (hostCount i s).fst = s.fst := (hostCount_own _ s).same .fst rfl
@[simp] theorem hostCount_cmp (i : Nat) (s : State) : (hostCount i s).cmp = s.cmp := (hostCount_own _ s).same .cmp rfl
@[simp] theorem hostCount_aud (i : Nat) (s : State) : (hostCount i s).aud = s.aud := (hostCount_own _ s).same .aud rfl
@[simp] theorem hostCount_out (i : Nat) (s : State) : (hostCount i s).out = s.out := (hostCount_own _ s).same .out rfl
@[simp] theorem hostCount_free (i : Nat) (s : State) : (hostCount i s).free = s.free := (hostCount_own _ s).same .free rfl
@[simp] theorem hostCount_image (i : Nat) (s : State) : (hostCount i s).image = s.image := (hostCount_own _ s).same .image rfl

theorem dequeue_own (op : Op) (c : HostCmd) (s : State) : Moves [.host] s (dequeue op c s) := dequeue_moves _ _ (Moves.refl _ s)
@[simp] theorem dequeue_pending (op : Op) (c : HostCmd) (s : State) : (dequeue op c s).pending = s.pending := (dequeue_own _ _ s).steady.pending
@[simp] theorem dequeue_clock (op : Op) (c : HostCmd) (s : State) : (dequeue op c s).clock = s.clock := (dequeue_own _ _ s).same .clock rfl
@[simp] theorem dequeue_mode (op : Op) (c : HostCmd) (s : State) : (dequeue op c s).mode = s.mode := (dequeue_own _ _ s).same .mode rfl
@[simp] theorem dequeue_halWaitMs (op : Op) (c : HostCmd) (s : State) : (dequeue op c s).halWaitMs = s.halWaitMs := (dequeue_own _ _ s).same .halWaitMs rfl
@[simp] theorem dequeue_fuses (op : Op) (c : HostCmd) (s : State) : (dequeue op c s).fuses = s.fuses := (dequeue_own _ _ s).same .fuses rfl
@[simp] theorem dequeue_seq (op : Op) (c : HostCmd) (s : State) : (dequeue op c s).seq = s.seq := (dequeue_own _ _ s).same .seq rfl
@[simp] theorem dequeue_aon (op : Op) (c : HostCmd) (s : State) : (dequeue op c s).aon = s.aon := (dequeue_own _ _ s).same .aon rfl
@[simp] theorem dequeue_pins (op : Op) (c : HostCmd) (s : State) : (dequeue op c s).pins = s.pins := (dequeue_own _ _ s).same .pins rfl
@[simp] theorem dequeue_start (op : Op) (c : HostCmd) (s : State) : (dequeue op c s).start = s.start := (dequeue_own _ _ s).same .start rfl
@[simp] theorem dequeue_cal (op : Op) (c : HostCmd) (s : State) : (dequeue op c s).cal = s.cal := (dequeue_own _ _ s).same .cal rfl
@[simp] theorem dequeue_flash (op : Op) (c : HostCmd) (s : State) : (dequeue op c s).flash = s.flash := (dequeue_own _ _ s).same .flash rfl
@[simp] theorem dequeue_evt (op : Op) (c : HostCmd) (s : State) : (dequeue op c s).evt = s.evt := (dequeue_own _ _ s).same .evt rfl
@[simp] theorem dequeue_saf (op : Op) (c : HostCmd) (s : State) : (dequeue op c s).saf = s.saf := (dequeue_own _ _ s).same .saf rfl
@[simp] theorem dequeue_ctl (op : Op) (c : HostCmd) (s : State) : (dequeue op c s).ctl = s.ctl := (dequeue_own _ _ s).same .ctl rfl
@[simp] theorem dequeue_pwr (op : Op) (c : HostCmd) (s : State) : (dequeue op c s).pwr = s.pwr := (dequeue_own _ _ s).same .pwr rfl
@[simp] theorem dequeue_xpt (op : Op) (c : HostCmd) (s : State) : (dequeue op c s).xpt = s.xpt := (dequeue_own _ _ s).same .xpt rfl
@[simp] theorem dequeue_cue (op : Op) (c : HostCmd) (s : State) : (dequeue op c s).cue = s.cue := (dequeue_own _ _ s).same .cue rfl
@[simp] theorem dequeue_red (op : Op) (c : HostCmd) (s : State) : (dequeue op c s).red = s.red := (dequeue_own _ _ s).same .red rfl
@[simp] theorem dequeue_eth (op : Op) (c : HostCmd) (s : State) : (dequeue op c s).eth = s.eth := (dequeue_own _ _ s).same .eth rfl
@[simp] theorem dequeue_tim (op : Op) (c : HostCmd) (s : State) : (dequeue op c s).tim = s.tim := (dequeue_own _ _ s).same .tim rfl
@[simp] theorem dequeue_lane (op : Op) (c : HostCmd) (s : State) : (dequeue op c s).lane = s.lane := (dequeue_own _ _ s).same .lane rfl
@[simp] theorem dequeue_flow (op : Op) (c : HostCmd) (s : State) : (dequeue op c s).flow = s.flow := (dequeue_own _ _ s).same .flow rfl
@[simp] theorem dequeue_fst (op : Op) (c : HostCmd) (s : State) : (dequeue op c s).fst = s.fst := (dequeue_own _ _ s).same .fst rfl
@[simp] theorem dequeue_cmp (op : Op) (c : HostCmd) (s : State) : (dequeue op c s).cmp = s.cmp := (dequeue_own _ _ s).same .cmp rfl
@[simp] theorem dequeue_aud (op : Op) (c : HostCmd) (s : State) : (dequeue op c s).aud = s.aud := (dequeue_own _ _ s).same .aud rfl
@[simp] theorem dequeue_out (op : Op) (c : HostCmd) (s : State) : (dequeue op c s).out = s.out := (dequeue_own _ _ s).same .out rfl
@[simp] theorem dequeue_free (op : Op) (c : HostCmd) (s : State) : (dequeue op c s).free = s.free := (dequeue_own _ _ s).same .free rfl
@[simp] theorem dequeue_image (op : Op) (c : HostCmd) (s : State) : (dequeue op c s).image = s.image := (dequeue_own _ _ s).same .image rfl

theorem countPassed_own (s : State) : Moves [.host] s (countPassed s) := countPassed_moves (Moves.refl _ s)
@[simp] theorem countPassed_pending (s : State) : (countPassed s).pending = s.pending := (countPassed_own s).steady.pending
@[simp] theorem countPassed_clock (s : State) : (countPassed s).clock = s.clock := (countPassed_own s).same .clock rfl
@[simp] theorem countPassed_mode (s : State) : (countPassed s).mode = s.mode := (countPassed_own s).same .mode rfl
@[simp] theorem countPassed_halWaitMs (s : State) : (countPassed s).halWaitMs = s.halWaitMs := (countPassed_own s).same .halWaitMs rfl
@[simp] theorem countPassed_fuses (s : State) : (countPassed s).fuses = s.fuses := (countPassed_own s).same .fuses rfl
@[simp] theorem countPassed_seq (s : State) : (countPassed s).seq = s.seq := (countPassed_own s).same .seq rfl
@[simp] theorem countPassed_aon (s : State) : (countPassed s).aon = s.aon := (countPassed_own s).same .aon rfl
@[simp] theorem countPassed_pins (s : State) : (countPassed s).pins = s.pins := (countPassed_own s).same .pins rfl
@[simp] theorem countPassed_start (s : State) : (countPassed s).start = s.start := (countPassed_own s).same .start rfl
@[simp] theorem countPassed_cal (s : State) : (countPassed s).cal = s.cal := (countPassed_own s).same .cal rfl
@[simp] theorem countPassed_flash (s : State) : (countPassed s).flash = s.flash := (countPassed_own s).same .flash rfl
@[simp] theorem countPassed_evt (s : State) : (countPassed s).evt = s.evt := (countPassed_own s).same .evt rfl
@[simp] theorem countPassed_saf (s : State) : (countPassed s).saf = s.saf := (countPassed_own s).same .saf rfl
@[simp] theorem countPassed_ctl (s : State) : (countPassed s).ctl = s.ctl := (countPassed_own s).same .ctl rfl
@[simp] theorem countPassed_pwr (s : State) : (countPassed s).pwr = s.pwr := (countPassed_own s).same .pwr rfl
@[simp] theorem countPassed_xpt (s : State) : (countPassed s).xpt = s.xpt := (countPassed_own s).same .xpt rfl
@[simp] theorem countPassed_cue (s : State) : (countPassed s).cue = s.cue := (countPassed_own s).same .cue rfl
@[simp] theorem countPassed_red (s : State) : (countPassed s).red = s.red := (countPassed_own s).same .red rfl
@[simp] theorem countPassed_eth (s : State) : (countPassed s).eth = s.eth := (countPassed_own s).same .eth rfl
@[simp] theorem countPassed_tim (s : State) : (countPassed s).tim = s.tim := (countPassed_own s).same .tim rfl
@[simp] theorem countPassed_lane (s : State) : (countPassed s).lane = s.lane := (countPassed_own s).same .lane rfl
@[simp] theorem countPassed_flow (s : State) : (countPassed s).flow = s.flow := (countPassed_own s).same .flow rfl
@[simp] theorem countPassed_fst (s : State) : (countPassed s).fst = s.fst := (countPassed_own s).same .fst rfl
@[simp] theorem countPassed_cmp (s : State) : (countPassed s).cmp = s.cmp := (countPassed_own s).same .cmp rfl
@[simp] theorem countPassed_aud (s : State) : (countPassed s).aud = s.aud := (countPassed_own s).same .aud rfl
@[simp] theorem countPassed_out (s : State) : (countPassed s).out = s.out := (countPassed_own s).same .out rfl
@[simp] theorem countPassed_free (s : State) : (countPassed s).free = s.free := (countPassed_own s).same .free rfl
@[simp] theorem countPassed_image (s : State) : (countPassed s).image = s.image := (countPassed_own s).same .image rfl

theorem finish_own (op : Op) (c : HostCmd) (st : Status) (ps : List Byte) (s : State) : Moves [.host, .red, .out] s (finish op c st ps s) := finish_moves _ _ _ _ (Moves.refl _ s)
@[simp] theorem finish_pending (op : Op) (c : HostCmd) (st : Status) (ps : List Byte) (s : State) : (finish op c st ps s).pending = s.pending := (finish_own _ _ _ _ s).steady.pending
@[simp] theorem finish_clock (op : Op) (c : HostCmd) (st : Status) (ps : List Byte) (s : State) : (finish op c st ps s).clock = s.clock := (finish_own _ _ _ _ s).same .clock rfl
@[simp] theorem finish_mode (op : Op) (c : HostCmd) (st : Status) (ps : List Byte) (s : State) : (finish op c st ps s).mode = s.mode := (finish_own _ _ _ _ s).same .mode rfl
@[simp] theorem finish_halWaitMs (op : Op) (c : HostCmd) (st : Status) (ps : List Byte) (s : State) : (finish op c st ps s).halWaitMs = s.halWaitMs := (finish_own _ _ _ _ s).same .halWaitMs rfl
@[simp] theorem finish_fuses (op : Op) (c : HostCmd) (st : Status) (ps : List Byte) (s : State) : (finish op c st ps s).fuses = s.fuses := (finish_own _ _ _ _ s).same .fuses rfl
@[simp] theorem finish_seq (op : Op) (c : HostCmd) (st : Status) (ps : List Byte) (s : State) : (finish op c st ps s).seq = s.seq := (finish_own _ _ _ _ s).same .seq rfl
@[simp] theorem finish_aon (op : Op) (c : HostCmd) (st : Status) (ps : List Byte) (s : State) : (finish op c st ps s).aon = s.aon := (finish_own _ _ _ _ s).same .aon rfl
@[simp] theorem finish_pins (op : Op) (c : HostCmd) (st : Status) (ps : List Byte) (s : State) : (finish op c st ps s).pins = s.pins := (finish_own _ _ _ _ s).same .pins rfl
@[simp] theorem finish_start (op : Op) (c : HostCmd) (st : Status) (ps : List Byte) (s : State) : (finish op c st ps s).start = s.start := (finish_own _ _ _ _ s).same .start rfl
@[simp] theorem finish_cal (op : Op) (c : HostCmd) (st : Status) (ps : List Byte) (s : State) : (finish op c st ps s).cal = s.cal := (finish_own _ _ _ _ s).same .cal rfl
@[simp] theorem finish_flash (op : Op) (c : HostCmd) (st : Status) (ps : List Byte) (s : State) : (finish op c st ps s).flash = s.flash := (finish_own _ _ _ _ s).same .flash rfl
@[simp] theorem finish_evt (op : Op) (c : HostCmd) (st : Status) (ps : List Byte) (s : State) : (finish op c st ps s).evt = s.evt := (finish_own _ _ _ _ s).same .evt rfl
@[simp] theorem finish_saf (op : Op) (c : HostCmd) (st : Status) (ps : List Byte) (s : State) : (finish op c st ps s).saf = s.saf := (finish_own _ _ _ _ s).same .saf rfl
@[simp] theorem finish_ctl (op : Op) (c : HostCmd) (st : Status) (ps : List Byte) (s : State) : (finish op c st ps s).ctl = s.ctl := (finish_own _ _ _ _ s).same .ctl rfl
@[simp] theorem finish_pwr (op : Op) (c : HostCmd) (st : Status) (ps : List Byte) (s : State) : (finish op c st ps s).pwr = s.pwr := (finish_own _ _ _ _ s).same .pwr rfl
@[simp] theorem finish_xpt (op : Op) (c : HostCmd) (st : Status) (ps : List Byte) (s : State) : (finish op c st ps s).xpt = s.xpt := (finish_own _ _ _ _ s).same .xpt rfl
@[simp] theorem finish_cue (op : Op) (c : HostCmd) (st : Status) (ps : List Byte) (s : State) : (finish op c st ps s).cue = s.cue := (finish_own _ _ _ _ s).same .cue rfl
@[simp] theorem finish_eth (op : Op) (c : HostCmd) (st : Status) (ps : List Byte) (s : State) : (finish op c st ps s).eth = s.eth := (finish_own _ _ _ _ s).same .eth rfl
@[simp] theorem finish_tim (op : Op) (c : HostCmd) (st : Status) (ps : List Byte) (s : State) : (finish op c st ps s).tim = s.tim := (finish_own _ _ _ _ s).same .tim rfl
@[simp] theorem finish_lane (op : Op) (c : HostCmd) (st : Status) (ps : List Byte) (s : State) : (finish op c st ps s).lane = s.lane := (finish_own _ _ _ _ s).same .lane rfl
@[simp] theorem finish_flow (op : Op) (c : HostCmd) (st : Status) (ps : List Byte) (s : State) : (finish op c st ps s).flow = s.flow := (finish_own _ _ _ _ s).same .flow rfl
@[simp] theorem finish_fst (op : Op) (c : HostCmd) (st : Status) (ps : List Byte) (s : State) : (finish op c st ps s).fst = s.fst := (finish_own _ _ _ _ s).same .fst rfl
@[simp] theorem finish_cmp (op : Op) (c : HostCmd) (st : Status) (ps : List Byte) (s : State) : (finish op c st ps s).cmp = s.cmp := (finish_own _ _ _ _ s).same .cmp rfl
@[simp] theorem finish_aud (op : Op) (c : HostCmd) (st : Status) (ps : List Byte) (s : State) : (finish op c st ps s).aud = s.aud := (finish_own _ _ _ _ s).same .aud rfl
@[simp] theorem finish_free (op : Op) (c : HostCmd) (st : Status) (ps : List Byte) (s : State) : (finish op c st ps s).free = s.free := (finish_own _ _ _ _ s).same .free rfl
@[simp] theorem finish_image (op : Op) (c : HostCmd) (st : Status) (ps : List Byte) (s : State) : (finish op c st ps s).image = s.image := (finish_own _ _ _ _ s).same .image rfl

theorem pairAfter_own (op : Op) (c : HostCmd) (b : Bool) (st : Status) (ps : List Byte) (s : State) : Moves [.red, .out] s (pairAfter op c b st ps s) := pairAfter_moves _ _ _ _ _ (Moves.refl _ s)
@[simp] theorem pairAfter_pending (op : Op) (c : HostCmd) (b : Bool) (st : Status) (ps : List Byte) (s : State) : (pairAfter op c b st ps s).pending = s.pending := (pairAfter_own _ _ _ _ _ s).steady.pending
@[simp] theorem pairAfter_clock (op : Op) (c : HostCmd) (b : Bool) (st : Status) (ps : List Byte) (s : State) : (pairAfter op c b st ps s).clock = s.clock := (pairAfter_own _ _ _ _ _ s).same .clock rfl
@[simp] theorem pairAfter_mode (op : Op) (c : HostCmd) (b : Bool) (st : Status) (ps : List Byte) (s : State) : (pairAfter op c b st ps s).mode = s.mode := (pairAfter_own _ _ _ _ _ s).same .mode rfl
@[simp] theorem pairAfter_halWaitMs (op : Op) (c : HostCmd) (b : Bool) (st : Status) (ps : List Byte) (s : State) : (pairAfter op c b st ps s).halWaitMs = s.halWaitMs := (pairAfter_own _ _ _ _ _ s).same .halWaitMs rfl
@[simp] theorem pairAfter_fuses (op : Op) (c : HostCmd) (b : Bool) (st : Status) (ps : List Byte) (s : State) : (pairAfter op c b st ps s).fuses = s.fuses := (pairAfter_own _ _ _ _ _ s).same .fuses rfl
@[simp] theorem pairAfter_seq (op : Op) (c : HostCmd) (b : Bool) (st : Status) (ps : List Byte) (s : State) : (pairAfter op c b st ps s).seq = s.seq := (pairAfter_own _ _ _ _ _ s).same .seq rfl
@[simp] theorem pairAfter_aon (op : Op) (c : HostCmd) (b : Bool) (st : Status) (ps : List Byte) (s : State) : (pairAfter op c b st ps s).aon = s.aon := (pairAfter_own _ _ _ _ _ s).same .aon rfl
@[simp] theorem pairAfter_pins (op : Op) (c : HostCmd) (b : Bool) (st : Status) (ps : List Byte) (s : State) : (pairAfter op c b st ps s).pins = s.pins := (pairAfter_own _ _ _ _ _ s).same .pins rfl
@[simp] theorem pairAfter_start (op : Op) (c : HostCmd) (b : Bool) (st : Status) (ps : List Byte) (s : State) : (pairAfter op c b st ps s).start = s.start := (pairAfter_own _ _ _ _ _ s).same .start rfl
@[simp] theorem pairAfter_cal (op : Op) (c : HostCmd) (b : Bool) (st : Status) (ps : List Byte) (s : State) : (pairAfter op c b st ps s).cal = s.cal := (pairAfter_own _ _ _ _ _ s).same .cal rfl
@[simp] theorem pairAfter_flash (op : Op) (c : HostCmd) (b : Bool) (st : Status) (ps : List Byte) (s : State) : (pairAfter op c b st ps s).flash = s.flash := (pairAfter_own _ _ _ _ _ s).same .flash rfl
@[simp] theorem pairAfter_host (op : Op) (c : HostCmd) (b : Bool) (st : Status) (ps : List Byte) (s : State) : (pairAfter op c b st ps s).host = s.host := (pairAfter_own _ _ _ _ _ s).same .host rfl
@[simp] theorem pairAfter_evt (op : Op) (c : HostCmd) (b : Bool) (st : Status) (ps : List Byte) (s : State) : (pairAfter op c b st ps s).evt = s.evt := (pairAfter_own _ _ _ _ _ s).same .evt rfl
@[simp] theorem pairAfter_saf (op : Op) (c : HostCmd) (b : Bool) (st : Status) (ps : List Byte) (s : State) : (pairAfter op c b st ps s).saf = s.saf := (pairAfter_own _ _ _ _ _ s).same .saf rfl
@[simp] theorem pairAfter_ctl (op : Op) (c : HostCmd) (b : Bool) (st : Status) (ps : List Byte) (s : State) : (pairAfter op c b st ps s).ctl = s.ctl := (pairAfter_own _ _ _ _ _ s).same .ctl rfl
@[simp] theorem pairAfter_pwr (op : Op) (c : HostCmd) (b : Bool) (st : Status) (ps : List Byte) (s : State) : (pairAfter op c b st ps s).pwr = s.pwr := (pairAfter_own _ _ _ _ _ s).same .pwr rfl
@[simp] theorem pairAfter_xpt (op : Op) (c : HostCmd) (b : Bool) (st : Status) (ps : List Byte) (s : State) : (pairAfter op c b st ps s).xpt = s.xpt := (pairAfter_own _ _ _ _ _ s).same .xpt rfl
@[simp] theorem pairAfter_cue (op : Op) (c : HostCmd) (b : Bool) (st : Status) (ps : List Byte) (s : State) : (pairAfter op c b st ps s).cue = s.cue := (pairAfter_own _ _ _ _ _ s).same .cue rfl
@[simp] theorem pairAfter_eth (op : Op) (c : HostCmd) (b : Bool) (st : Status) (ps : List Byte) (s : State) : (pairAfter op c b st ps s).eth = s.eth := (pairAfter_own _ _ _ _ _ s).same .eth rfl
@[simp] theorem pairAfter_tim (op : Op) (c : HostCmd) (b : Bool) (st : Status) (ps : List Byte) (s : State) : (pairAfter op c b st ps s).tim = s.tim := (pairAfter_own _ _ _ _ _ s).same .tim rfl
@[simp] theorem pairAfter_lane (op : Op) (c : HostCmd) (b : Bool) (st : Status) (ps : List Byte) (s : State) : (pairAfter op c b st ps s).lane = s.lane := (pairAfter_own _ _ _ _ _ s).same .lane rfl
@[simp] theorem pairAfter_flow (op : Op) (c : HostCmd) (b : Bool) (st : Status) (ps : List Byte) (s : State) : (pairAfter op c b st ps s).flow = s.flow := (pairAfter_own _ _ _ _ _ s).same .flow rfl
@[simp] theorem pairAfter_fst (op : Op) (c : HostCmd) (b : Bool) (st : Status) (ps : List Byte) (s : State) : (pairAfter op c b st ps s).fst = s.fst := (pairAfter_own _ _ _ _ _ s).same .fst rfl
@[simp] theorem pairAfter_cmp (op : Op) (c : HostCmd) (b : Bool) (st : Status) (ps : List Byte) (s : State) : (pairAfter op c b st ps s).cmp = s.cmp := (pairAfter_own _ _ _ _ _ s).same .cmp rfl
@[simp] theorem pairAfter_aud (op : Op) (c : HostCmd) (b : Bool) (st : Status) (ps : List Byte) (s : State) : (pairAfter op c b st ps s).aud = s.aud := (pairAfter_own _ _ _ _ _ s).same .aud rfl
@[simp] theorem pairAfter_free (op : Op) (c : HostCmd) (b : Bool) (st : Status) (ps : List Byte) (s : State) : (pairAfter op c b st ps s).free = s.free := (pairAfter_own _ _ _ _ _ s).same .free rfl
@[simp] theorem pairAfter_image (op : Op) (c : HostCmd) (b : Bool) (st : Status) (ps : List Byte) (s : State) : (pairAfter op c b st ps s).image = s.image := (pairAfter_own _ _ _ _ _ s).same .image rfl

theorem answered_own (op : Op) (c : HostCmd) (st : Status) (ps : List Byte) (s : State) : Moves [.host, .red, .out] s (answered op c st ps s) := answered_moves _ _ _ _ (Moves.refl _ s)
@[simp] theorem answered_pending (op : Op) (c : HostCmd) (st : Status) (ps : List Byte) (s : State) : (answered op c st ps s).pending = s.pending := (answered_own _ _ _ _ s).steady.pending
@[simp] theorem answered_clock (op : Op) (c : HostCmd) (st : Status) (ps : List Byte) (s : State) : (answered op c st ps s).clock = s.clock := (answered_own _ _ _ _ s).same .clock rfl
@[simp] theorem answered_mode (op : Op) (c : HostCmd) (st : Status) (ps : List Byte) (s : State) : (answered op c st ps s).mode = s.mode := (answered_own _ _ _ _ s).same .mode rfl
@[simp] theorem answered_halWaitMs (op : Op) (c : HostCmd) (st : Status) (ps : List Byte) (s : State) : (answered op c st ps s).halWaitMs = s.halWaitMs := (answered_own _ _ _ _ s).same .halWaitMs rfl
@[simp] theorem answered_fuses (op : Op) (c : HostCmd) (st : Status) (ps : List Byte) (s : State) : (answered op c st ps s).fuses = s.fuses := (answered_own _ _ _ _ s).same .fuses rfl
@[simp] theorem answered_seq (op : Op) (c : HostCmd) (st : Status) (ps : List Byte) (s : State) : (answered op c st ps s).seq = s.seq := (answered_own _ _ _ _ s).same .seq rfl
@[simp] theorem answered_aon (op : Op) (c : HostCmd) (st : Status) (ps : List Byte) (s : State) : (answered op c st ps s).aon = s.aon := (answered_own _ _ _ _ s).same .aon rfl
@[simp] theorem answered_pins (op : Op) (c : HostCmd) (st : Status) (ps : List Byte) (s : State) : (answered op c st ps s).pins = s.pins := (answered_own _ _ _ _ s).same .pins rfl
@[simp] theorem answered_start (op : Op) (c : HostCmd) (st : Status) (ps : List Byte) (s : State) : (answered op c st ps s).start = s.start := (answered_own _ _ _ _ s).same .start rfl
@[simp] theorem answered_cal (op : Op) (c : HostCmd) (st : Status) (ps : List Byte) (s : State) : (answered op c st ps s).cal = s.cal := (answered_own _ _ _ _ s).same .cal rfl
@[simp] theorem answered_flash (op : Op) (c : HostCmd) (st : Status) (ps : List Byte) (s : State) : (answered op c st ps s).flash = s.flash := (answered_own _ _ _ _ s).same .flash rfl
@[simp] theorem answered_evt (op : Op) (c : HostCmd) (st : Status) (ps : List Byte) (s : State) : (answered op c st ps s).evt = s.evt := (answered_own _ _ _ _ s).same .evt rfl
@[simp] theorem answered_saf (op : Op) (c : HostCmd) (st : Status) (ps : List Byte) (s : State) : (answered op c st ps s).saf = s.saf := (answered_own _ _ _ _ s).same .saf rfl
@[simp] theorem answered_ctl (op : Op) (c : HostCmd) (st : Status) (ps : List Byte) (s : State) : (answered op c st ps s).ctl = s.ctl := (answered_own _ _ _ _ s).same .ctl rfl
@[simp] theorem answered_pwr (op : Op) (c : HostCmd) (st : Status) (ps : List Byte) (s : State) : (answered op c st ps s).pwr = s.pwr := (answered_own _ _ _ _ s).same .pwr rfl
@[simp] theorem answered_xpt (op : Op) (c : HostCmd) (st : Status) (ps : List Byte) (s : State) : (answered op c st ps s).xpt = s.xpt := (answered_own _ _ _ _ s).same .xpt rfl
@[simp] theorem answered_cue (op : Op) (c : HostCmd) (st : Status) (ps : List Byte) (s : State) : (answered op c st ps s).cue = s.cue := (answered_own _ _ _ _ s).same .cue rfl
@[simp] theorem answered_eth (op : Op) (c : HostCmd) (st : Status) (ps : List Byte) (s : State) : (answered op c st ps s).eth = s.eth := (answered_own _ _ _ _ s).same .eth rfl
@[simp] theorem answered_tim (op : Op) (c : HostCmd) (st : Status) (ps : List Byte) (s : State) : (answered op c st ps s).tim = s.tim := (answered_own _ _ _ _ s).same .tim rfl
@[simp] theorem answered_lane (op : Op) (c : HostCmd) (st : Status) (ps : List Byte) (s : State) : (answered op c st ps s).lane = s.lane := (answered_own _ _ _ _ s).same .lane rfl
@[simp] theorem answered_flow (op : Op) (c : HostCmd) (st : Status) (ps : List Byte) (s : State) : (answered op c st ps s).flow = s.flow := (answered_own _ _ _ _ s).same .flow rfl
@[simp] theorem answered_fst (op : Op) (c : HostCmd) (st : Status) (ps : List Byte) (s : State) : (answered op c st ps s).fst = s.fst := (answered_own _ _ _ _ s).same .fst rfl
@[simp] theorem answered_cmp (op : Op) (c : HostCmd) (st : Status) (ps : List Byte) (s : State) : (answered op c st ps s).cmp = s.cmp := (answered_own _ _ _ _ s).same .cmp rfl
@[simp] theorem answered_aud (op : Op) (c : HostCmd) (st : Status) (ps : List Byte) (s : State) : (answered op c st ps s).aud = s.aud := (answered_own _ _ _ _ s).same .aud rfl
@[simp] theorem answered_free (op : Op) (c : HostCmd) (st : Status) (ps : List Byte) (s : State) : (answered op c st ps s).free = s.free := (answered_own _ _ _ _ s).same .free rfl
@[simp] theorem answered_image (op : Op) (c : HostCmd) (st : Status) (ps : List Byte) (s : State) : (answered op c st ps s).image = s.image := (answered_own _ _ _ _ s).same .image rfl

theorem deferred_own (op : Op) (c : HostCmd) (s : State) : Moves [.host, .red, .out] s (deferred op c s) := deferred_moves _ _ (Moves.refl _ s)
@[simp] theorem deferred_pending (op : Op) (c : HostCmd) (s : State) : (deferred op c s).pending = s.pending := (deferred_own _ _ s).steady.pending
@[simp] theorem deferred_clock (op : Op) (c : HostCmd) (s : State) : (deferred op c s).clock = s.clock := (deferred_own _ _ s).same .clock rfl
@[simp] theorem deferred_mode (op : Op) (c : HostCmd) (s : State) : (deferred op c s).mode = s.mode := (deferred_own _ _ s).same .mode rfl
@[simp] theorem deferred_halWaitMs (op : Op) (c : HostCmd) (s : State) : (deferred op c s).halWaitMs = s.halWaitMs := (deferred_own _ _ s).same .halWaitMs rfl
@[simp] theorem deferred_fuses (op : Op) (c : HostCmd) (s : State) : (deferred op c s).fuses = s.fuses := (deferred_own _ _ s).same .fuses rfl
@[simp] theorem deferred_seq (op : Op) (c : HostCmd) (s : State) : (deferred op c s).seq = s.seq := (deferred_own _ _ s).same .seq rfl
@[simp] theorem deferred_aon (op : Op) (c : HostCmd) (s : State) : (deferred op c s).aon = s.aon := (deferred_own _ _ s).same .aon rfl
@[simp] theorem deferred_pins (op : Op) (c : HostCmd) (s : State) : (deferred op c s).pins = s.pins := (deferred_own _ _ s).same .pins rfl
@[simp] theorem deferred_start (op : Op) (c : HostCmd) (s : State) : (deferred op c s).start = s.start := (deferred_own _ _ s).same .start rfl
@[simp] theorem deferred_cal (op : Op) (c : HostCmd) (s : State) : (deferred op c s).cal = s.cal := (deferred_own _ _ s).same .cal rfl
@[simp] theorem deferred_flash (op : Op) (c : HostCmd) (s : State) : (deferred op c s).flash = s.flash := (deferred_own _ _ s).same .flash rfl
@[simp] theorem deferred_evt (op : Op) (c : HostCmd) (s : State) : (deferred op c s).evt = s.evt := (deferred_own _ _ s).same .evt rfl
@[simp] theorem deferred_saf (op : Op) (c : HostCmd) (s : State) : (deferred op c s).saf = s.saf := (deferred_own _ _ s).same .saf rfl
@[simp] theorem deferred_ctl (op : Op) (c : HostCmd) (s : State) : (deferred op c s).ctl = s.ctl := (deferred_own _ _ s).same .ctl rfl
@[simp] theorem deferred_pwr (op : Op) (c : HostCmd) (s : State) : (deferred op c s).pwr = s.pwr := (deferred_own _ _ s).same .pwr rfl
@[simp] theorem deferred_xpt (op : Op) (c : HostCmd) (s : State) : (deferred op c s).xpt = s.xpt := (deferred_own _ _ s).same .xpt rfl
@[simp] theorem deferred_cue (op : Op) (c : HostCmd) (s : State) : (deferred op c s).cue = s.cue := (deferred_own _ _ s).same .cue rfl
@[simp] theorem deferred_eth (op : Op) (c : HostCmd) (s : State) : (deferred op c s).eth = s.eth := (deferred_own _ _ s).same .eth rfl
@[simp] theorem deferred_tim (op : Op) (c : HostCmd) (s : State) : (deferred op c s).tim = s.tim := (deferred_own _ _ s).same .tim rfl
@[simp] theorem deferred_lane (op : Op) (c : HostCmd) (s : State) : (deferred op c s).lane = s.lane := (deferred_own _ _ s).same .lane rfl
@[simp] theorem deferred_flow (op : Op) (c : HostCmd) (s : State) : (deferred op c s).flow = s.flow := (deferred_own _ _ s).same .flow rfl
@[simp] theorem deferred_fst (op : Op) (c : HostCmd) (s : State) : (deferred op c s).fst = s.fst := (deferred_own _ _ s).same .fst rfl
@[simp] theorem deferred_cmp (op : Op) (c : HostCmd) (s : State) : (deferred op c s).cmp = s.cmp := (deferred_own _ _ s).same .cmp rfl
@[simp] theorem deferred_aud (op : Op) (c : HostCmd) (s : State) : (deferred op c s).aud = s.aud := (deferred_own _ _ s).same .aud rfl
@[simp] theorem deferred_free (op : Op) (c : HostCmd) (s : State) : (deferred op c s).free = s.free := (deferred_own _ _ s).same .free rfl
@[simp] theorem deferred_image (op : Op) (c : HostCmd) (s : State) : (deferred op c s).image = s.image := (deferred_own _ _ s).same .image rfl

theorem begun_own (op : Op) (t : Nat) (c : HostCmd) (s : State) : Moves [.clock, .host] s (begun op t c s) := begun_moves _ _ _ (Moves.refl _ s)
@[simp] theorem begun_pending (op : Op) (t : Nat) (c : HostCmd) (s : State) : (begun op t c s).pending = s.pending := (begun_own _ _ _ s).steady.pending
@[simp] theorem begun_mode (op : Op) (t : Nat) (c : HostCmd) (s : State) : (begun op t c s).mode = s.mode := (begun_own _ _ _ s).same .mode rfl
@[simp] theorem begun_halWaitMs (op : Op) (t : Nat) (c : HostCmd) (s : State) : (begun op t c s).halWaitMs = s.halWaitMs := (begun_own _ _ _ s).same .halWaitMs rfl
@[simp] theorem begun_fuses (op : Op) (t : Nat) (c : HostCmd) (s : State) : (begun op t c s).fuses = s.fuses := (begun_own _ _ _ s).same .fuses rfl
@[simp] theorem begun_seq (op : Op) (t : Nat) (c : HostCmd) (s : State) : (begun op t c s).seq = s.seq := (begun_own _ _ _ s).same .seq rfl
@[simp] theorem begun_aon (op : Op) (t : Nat) (c : HostCmd) (s : State) : (begun op t c s).aon = s.aon := (begun_own _ _ _ s).same .aon rfl
@[simp] theorem begun_pins (op : Op) (t : Nat) (c : HostCmd) (s : State) : (begun op t c s).pins = s.pins := (begun_own _ _ _ s).same .pins rfl
@[simp] theorem begun_start (op : Op) (t : Nat) (c : HostCmd) (s : State) : (begun op t c s).start = s.start := (begun_own _ _ _ s).same .start rfl
@[simp] theorem begun_cal (op : Op) (t : Nat) (c : HostCmd) (s : State) : (begun op t c s).cal = s.cal := (begun_own _ _ _ s).same .cal rfl
@[simp] theorem begun_flash (op : Op) (t : Nat) (c : HostCmd) (s : State) : (begun op t c s).flash = s.flash := (begun_own _ _ _ s).same .flash rfl
@[simp] theorem begun_evt (op : Op) (t : Nat) (c : HostCmd) (s : State) : (begun op t c s).evt = s.evt := (begun_own _ _ _ s).same .evt rfl
@[simp] theorem begun_saf (op : Op) (t : Nat) (c : HostCmd) (s : State) : (begun op t c s).saf = s.saf := (begun_own _ _ _ s).same .saf rfl
@[simp] theorem begun_ctl (op : Op) (t : Nat) (c : HostCmd) (s : State) : (begun op t c s).ctl = s.ctl := (begun_own _ _ _ s).same .ctl rfl
@[simp] theorem begun_pwr (op : Op) (t : Nat) (c : HostCmd) (s : State) : (begun op t c s).pwr = s.pwr := (begun_own _ _ _ s).same .pwr rfl
@[simp] theorem begun_xpt (op : Op) (t : Nat) (c : HostCmd) (s : State) : (begun op t c s).xpt = s.xpt := (begun_own _ _ _ s).same .xpt rfl
@[simp] theorem begun_cue (op : Op) (t : Nat) (c : HostCmd) (s : State) : (begun op t c s).cue = s.cue := (begun_own _ _ _ s).same .cue rfl
@[simp] theorem begun_red (op : Op) (t : Nat) (c : HostCmd) (s : State) : (begun op t c s).red = s.red := (begun_own _ _ _ s).same .red rfl
@[simp] theorem begun_eth (op : Op) (t : Nat) (c : HostCmd) (s : State) : (begun op t c s).eth = s.eth := (begun_own _ _ _ s).same .eth rfl
@[simp] theorem begun_tim (op : Op) (t : Nat) (c : HostCmd) (s : State) : (begun op t c s).tim = s.tim := (begun_own _ _ _ s).same .tim rfl
@[simp] theorem begun_lane (op : Op) (t : Nat) (c : HostCmd) (s : State) : (begun op t c s).lane = s.lane := (begun_own _ _ _ s).same .lane rfl
@[simp] theorem begun_flow (op : Op) (t : Nat) (c : HostCmd) (s : State) : (begun op t c s).flow = s.flow := (begun_own _ _ _ s).same .flow rfl
@[simp] theorem begun_fst (op : Op) (t : Nat) (c : HostCmd) (s : State) : (begun op t c s).fst = s.fst := (begun_own _ _ _ s).same .fst rfl
@[simp] theorem begun_cmp (op : Op) (t : Nat) (c : HostCmd) (s : State) : (begun op t c s).cmp = s.cmp := (begun_own _ _ _ s).same .cmp rfl
@[simp] theorem begun_aud (op : Op) (t : Nat) (c : HostCmd) (s : State) : (begun op t c s).aud = s.aud := (begun_own _ _ _ s).same .aud rfl
@[simp] theorem begun_out (op : Op) (t : Nat) (c : HostCmd) (s : State) : (begun op t c s).out = s.out := (begun_own _ _ _ s).same .out rfl
@[simp] theorem begun_free (op : Op) (t : Nat) (c : HostCmd) (s : State) : (begun op t c s).free = s.free := (begun_own _ _ _ s).same .free rfl
@[simp] theorem begun_image (op : Op) (t : Nat) (c : HostCmd) (s : State) : (begun op t c s).image = s.image := (begun_own _ _ _ s).same .image rfl

end Sys2Proof.Machine
end

