-- ==== Sys2Proof/Laws/Alike.lean ====
section
/-! SUPPORT. What the operations that every command shares leave as it was inside the parts that they touch: the flash beside
the recorder's trial note, the interpreter beside its counters and its cache, the pair beside the record in hand. -/

-- The package is checked as one text; elaborating these proofs in order keeps the number of threads small.
set_option Elab.async false

namespace Sys2Proof.Machine

@[simp] theorem begun_clk (op : Op) (t : Nat) (c : HostCmd) (s : State) :
    (begun op t c s).clock.clk = max s.clock.clk t := rfl

@[simp] theorem begun_reasm (op : Op) (t : Nat) (c : HostCmd) (s : State) :
    (begun op t c s).host = { s.host with queue := s.host.queue.erase (op, c) } := rfl

/-- Two interpreters differ in nothing but what a reply changes. -/
def HostSt.alike (a b : HostSt) : Prop :=
  a = { b with cache := a.cache, cnt := a.cnt, credit := a.credit, creditAt := a.creditAt }

/-- Two pair states differ in nothing but the record in hand and what a reply notes. -/
def Red.alike (a b : Red) : Prop :=
  a = { b with items := a.items, cnt := a.cnt, msgNo := a.msgNo, noted := a.noted }

theorem HostSt.alike_trans {a b c : HostSt} (h : a.alike b) (k : b.alike c) : a.alike c := by
  unfold HostSt.alike at h k ⊢; rw [k] at h; exact h

theorem Red.alike_trans {a b c : Red} (h : a.alike b) (k : b.alike c) : a.alike c := by
  unfold Red.alike at h k ⊢; rw [k] at h; exact h

theorem raise_flash_alike (sev cls code path : Nat) (ws : List Word) (s : State) :
    (raise sev cls code path ws s).flash =
      { s.flash with trialBlocked := (raise sev cls code path ws s).flash.trialBlocked } := by
  unfold raise pushEvent blockTrial
  repeat' split
  all_goals rfl

theorem emits_host (g : List Byte → Out) (l : List (List Byte)) (s : State) :
    (l.foldl (fun s f => emit (g f) s) s).host = s.host ∧ (l.foldl (fun s f => emit (g f) s) s).red = s.red := by
  induction l generalizing s with
  | nil => exact ⟨rfl, rfl⟩
  | cons a l ih => exact ih (emit (g a) s)

theorem sendReply_alike (key : Option (List Byte)) (n : Nat) (c : HostCmd) (st : Status) (ps : List Byte) (s : State) :
    (sendReply key n c st ps s).host.alike s.host := by
  unfold sendReply
  dsimp only
  split
  · rfl
  · split
    · rfl
    · rw [(emits_host _ _ _).1]
      split <;> rfl

theorem cacheReply_alike (c : HostCmd) (st : Status) (ps : List Byte) (s : State) :
    (cacheReply c st ps s).host.alike s.host := by
  unfold cacheReply
  repeat' split
  all_goals rfl

theorem finish_alike (op : Op) (c : HostCmd) (st : Status) (ps : List Byte) (s : State) :
    (finish op c st ps s).host.alike s.host := by
  unfold finish finishCode replyTo
  split
  · rfl
  · split
    · exact cacheReply_alike ..
    · dsimp only
      split
      · exact HostSt.alike_trans (sendReply_alike ..) (cacheReply_alike ..)
      · exact cacheReply_alike ..

theorem countPassed_alike (s : State) : (countPassed s).host.alike s.host := rfl

theorem answered_host_alike (op : Op) (c : HostCmd) (st : Status) (ps : List Byte) (s : State) :
    (answered op c st ps s).host.alike s.host := by
  unfold answered
  rw [pairAfter_host]
  split
  · exact HostSt.alike_trans (finish_alike ..) (countPassed_alike s)
  · exact finish_alike ..

theorem deferred_host_alike (op : Op) (c : HostCmd) (s : State) : (deferred op c s).host.alike s.host := by
  unfold deferred
  rw [pairAfter_host]
  exact countPassed_alike s

theorem sendHalyard_alike (k : Nat) (ws : List Byte) (s : State) : (sendHalyard k ws s).red.alike s.red := by
  unfold sendHalyard
  split <;> rfl

theorem recordItem_alike (it : RecItem) (s : State) : (recordItem it s).red.alike s.red := by
  unfold recordItem
  split <;> rfl

theorem pairAfter_alike (op : Op) (c : HostCmd) (e : Bool) (st : Status) (ps : List Byte) (s : State) :
    (pairAfter op c e st ps s).red.alike s.red := by
  have h := recordItem_alike (.command c.session c.seq st.code) s
  have k : ∀ x : State, ({ x with red := { x.red with cnt := bump x.red.cnt 4 } } : State).red.alike x.red :=
    fun _ => rfl
  unfold pairAfter
  cases e
  · dsimp only
    split
    · split
      · exact sendHalyard_alike ..
      · rfl
    · rfl
  · dsimp only
    split
    · split
      · exact Red.alike_trans (sendHalyard_alike ..) h
      · exact Red.alike_trans (sendHalyard_alike ..) (Red.alike_trans (k _) h)
    · rfl

theorem finish_red_alike (op : Op) (c : HostCmd) (st : Status) (ps : List Byte) (s : State) :
    (finish op c st ps s).red.alike s.red := by
  have h : (cacheReply c st ps s).red = s.red := by
    unfold cacheReply
    repeat' split
    all_goals rfl
  have k : ∀ (key) (x : State), (sendReply key (opInfo op).code c st ps x).red = x.red := by
    intro key x
    unfold sendReply
    dsimp only
    split
    · rfl
    · split
      · rfl
      · rw [(emits_host _ _ _).2]
        split <;> rfl
  unfold finish finishCode replyTo
  split
  · rfl
  · split
    · rw [h]; rfl
    · dsimp only
      split
      · rw [k, h]; rfl
      · rw [h]; rfl

theorem answered_red_alike (op : Op) (c : HostCmd) (st : Status) (ps : List Byte) (s : State) :
    (answered op c st ps s).red.alike s.red := by
  unfold answered
  refine Red.alike_trans (pairAfter_alike ..) (Red.alike_trans (finish_red_alike ..) ?_)
  split <;> rfl

theorem deferred_red_alike (op : Op) (c : HostCmd) (s : State) : (deferred op c s).red.alike s.red :=
  pairAfter_alike op c true .scheduled [] (countPassed s)

@[simp] theorem raise_flash_mem (sev cls code path : Nat) (ws : List Word) (s : State) :
    (raise sev cls code path ws s).flash.mem = s.flash.mem := by rw [raise_flash_alike]

@[simp] theorem raise_flash_phases (sev cls code path : Nat) (ws : List Word) (s : State) :
    (raise sev cls code path ws s).flash.phases = s.flash.phases := by rw [raise_flash_alike]

@[simp] theorem raise_flash_write (sev cls code path : Nat) (ws : List Word) (s : State) :
    (raise sev cls code path ws s).flash.write = s.flash.write := by rw [raise_flash_alike]

@[simp] theorem raise_flash_startNow (sev cls code path : Nat) (ws : List Word) (s : State) :
    (raise sev cls code path ws s).flash.startNow = s.flash.startNow := by rw [raise_flash_alike]

@[simp] theorem raise_flash_recoveryOk (sev cls code path : Nat) (ws : List Word) (s : State) :
    (raise sev cls code path ws s).flash.recoveryOk = s.flash.recoveryOk := by rw [raise_flash_alike]

@[simp] theorem raise_flash_trialSince (sev cls code path : Nat) (ws : List Word) (s : State) :
    (raise sev cls code path ws s).flash.trialSince = s.flash.trialSince := by rw [raise_flash_alike]

@[simp] theorem answered_host_locked (op : Op) (c : HostCmd) (st : Status) (ps : List Byte) (s : State) :
    (answered op c st ps s).host.locked = s.host.locked := by rw [answered_host_alike op c st ps s]

@[simp] theorem deferred_host_locked (op : Op) (c : HostCmd) (s : State) : (deferred op c s).host.locked = s.host.locked := by
  rw [deferred_host_alike op c s]

@[simp] theorem answered_host_resetAt (op : Op) (c : HostCmd) (st : Status) (ps : List Byte) (s : State) :
    (answered op c st ps s).host.resetAt = s.host.resetAt := by rw [answered_host_alike op c st ps s]

@[simp] theorem deferred_host_resetAt (op : Op) (c : HostCmd) (s : State) : (deferred op c s).host.resetAt = s.host.resetAt := by
  rw [deferred_host_alike op c s]

@[simp] theorem answered_host_resetSession (op : Op) (c : HostCmd) (st : Status) (ps : List Byte) (s : State) :
    (answered op c st ps s).host.resetSession = s.host.resetSession := by rw [answered_host_alike op c st ps s]

@[simp] theorem deferred_host_resetSession (op : Op) (c : HostCmd) (s : State) : (deferred op c s).host.resetSession = s.host.resetSession := by
  rw [deferred_host_alike op c s]

@[simp] theorem answered_host_queue (op : Op) (c : HostCmd) (st : Status) (ps : List Byte) (s : State) :
    (answered op c st ps s).host.queue = s.host.queue := by rw [answered_host_alike op c st ps s]

@[simp] theorem deferred_host_queue (op : Op) (c : HostCmd) (s : State) : (deferred op c s).host.queue = s.host.queue := by
  rw [deferred_host_alike op c s]

@[simp] theorem answered_host_reasm (op : Op) (c : HostCmd) (st : Status) (ps : List Byte) (s : State) :
    (answered op c st ps s).host.reasm = s.host.reasm := by rw [answered_host_alike op c st ps s]

@[simp] theorem deferred_host_reasm (op : Op) (c : HostCmd) (s : State) : (deferred op c s).host.reasm = s.host.reasm := by
  rw [deferred_host_alike op c s]

@[simp] theorem answered_host_partnerAddr (op : Op) (c : HostCmd) (st : Status) (ps : List Byte) (s : State) :
    (answered op c st ps s).host.partnerAddr = s.host.partnerAddr := by rw [answered_host_alike op c st ps s]

@[simp] theorem deferred_host_partnerAddr (op : Op) (c : HostCmd) (s : State) : (deferred op c s).host.partnerAddr = s.host.partnerAddr := by
  rw [deferred_host_alike op c s]

@[simp] theorem answered_red_link (op : Op) (c : HostCmd) (st : Status) (ps : List Byte) (s : State) :
    (answered op c st ps s).red.link = s.red.link := by rw [answered_red_alike op c st ps s]

@[simp] theorem deferred_red_link (op : Op) (c : HostCmd) (s : State) : (deferred op c s).red.link = s.red.link := by
  rw [deferred_red_alike op c s]

@[simp] theorem answered_red_lease (op : Op) (c : HostCmd) (st : Status) (ps : List Byte) (s : State) :
    (answered op c st ps s).red.lease = s.red.lease := by rw [answered_red_alike op c st ps s]

@[simp] theorem deferred_red_lease (op : Op) (c : HostCmd) (s : State) : (deferred op c s).red.lease = s.red.lease := by
  rw [deferred_red_alike op c s]

@[simp] theorem answered_red_grant (op : Op) (c : HostCmd) (st : Status) (ps : List Byte) (s : State) :
    (answered op c st ps s).red.grant = s.red.grant := by rw [answered_red_alike op c st ps s]

@[simp] theorem deferred_red_grant (op : Op) (c : HostCmd) (s : State) : (deferred op c s).red.grant = s.red.grant := by
  rw [deferred_red_alike op c s]

@[simp] theorem answered_red_granted (op : Op) (c : HostCmd) (st : Status) (ps : List Byte) (s : State) :
    (answered op c st ps s).red.granted = s.red.granted := by rw [answered_red_alike op c st ps s]

@[simp] theorem deferred_red_granted (op : Op) (c : HostCmd) (s : State) : (deferred op c s).red.granted = s.red.granted := by
  rw [deferred_red_alike op c s]

@[simp] theorem answered_red_leaseSrc (op : Op) (c : HostCmd) (st : Status) (ps : List Byte) (s : State) :
    (answered op c st ps s).red.leaseSrc = s.red.leaseSrc := by rw [answered_red_alike op c st ps s]

@[simp] theorem deferred_red_leaseSrc (op : Op) (c : HostCmd) (s : State) : (deferred op c s).red.leaseSrc = s.red.leaseSrc := by
  rw [deferred_red_alike op c s]

@[simp] theorem answered_red_termMs (op : Op) (c : HostCmd) (st : Status) (ps : List Byte) (s : State) :
    (answered op c st ps s).red.termMs = s.red.termMs := by rw [answered_red_alike op c st ps s]

@[simp] theorem deferred_red_termMs (op : Op) (c : HostCmd) (s : State) : (deferred op c s).red.termMs = s.red.termMs := by
  rw [deferred_red_alike op c s]

@[simp] theorem answered_red_term (op : Op) (c : HostCmd) (st : Status) (ps : List Byte) (s : State) :
    (answered op c st ps s).red.term = s.red.term := by rw [answered_red_alike op c st ps s]

@[simp] theorem deferred_red_term (op : Op) (c : HostCmd) (s : State) : (deferred op c s).red.term = s.red.term := by
  rw [deferred_red_alike op c s]

@[simp] theorem answered_red_renewed (op : Op) (c : HostCmd) (st : Status) (ps : List Byte) (s : State) :
    (answered op c st ps s).red.renewed = s.red.renewed := by rw [answered_red_alike op c st ps s]

@[simp] theorem deferred_red_renewed (op : Op) (c : HostCmd) (s : State) : (deferred op c s).red.renewed = s.red.renewed := by
  rw [deferred_red_alike op c s]

@[simp] theorem answered_red_byCommand (op : Op) (c : HostCmd) (st : Status) (ps : List Byte) (s : State) :
    (answered op c st ps s).red.byCommand = s.red.byCommand := by rw [answered_red_alike op c st ps s]

@[simp] theorem deferred_red_byCommand (op : Op) (c : HostCmd) (s : State) : (deferred op c s).red.byCommand = s.red.byCommand := by
  rw [deferred_red_alike op c s]

@[simp] theorem answered_red_gen (op : Op) (c : HostCmd) (st : Status) (ps : List Byte) (s : State) :
    (answered op c st ps s).red.gen = s.red.gen := by rw [answered_red_alike op c st ps s]

@[simp] theorem deferred_red_gen (op : Op) (c : HostCmd) (s : State) : (deferred op c s).red.gen = s.red.gen := by
  rw [deferred_red_alike op c s]

@[simp] theorem answered_red_t6Due (op : Op) (c : HostCmd) (st : Status) (ps : List Byte) (s : State) :
    (answered op c st ps s).red.t6Due = s.red.t6Due := by rw [answered_red_alike op c st ps s]

@[simp] theorem deferred_red_t6Due (op : Op) (c : HostCmd) (s : State) : (deferred op c s).red.t6Due = s.red.t6Due := by
  rw [deferred_red_alike op c s]

@[simp] theorem answered_red_t7Due (op : Op) (c : HostCmd) (st : Status) (ps : List Byte) (s : State) :
    (answered op c st ps s).red.t7Due = s.red.t7Due := by rw [answered_red_alike op c st ps s]

@[simp] theorem deferred_red_t7Due (op : Op) (c : HostCmd) (s : State) : (deferred op c s).red.t7Due = s.red.t7Due := by
  rw [deferred_red_alike op c s]

@[simp] theorem answered_red_t10Due (op : Op) (c : HostCmd) (st : Status) (ps : List Byte) (s : State) :
    (answered op c st ps s).red.t10Due = s.red.t10Due := by rw [answered_red_alike op c st ps s]

@[simp] theorem deferred_red_t10Due (op : Op) (c : HostCmd) (s : State) : (deferred op c s).red.t10Due = s.red.t10Due := by
  rw [deferred_red_alike op c s]

@[simp] theorem answered_red_t11Due (op : Op) (c : HostCmd) (st : Status) (ps : List Byte) (s : State) :
    (answered op c st ps s).red.t11Due = s.red.t11Due := by rw [answered_red_alike op c st ps s]

@[simp] theorem deferred_red_t11Due (op : Op) (c : HostCmd) (s : State) : (deferred op c s).red.t11Due = s.red.t11Due := by
  rw [deferred_red_alike op c s]

@[simp] theorem answered_red_claim (op : Op) (c : HostCmd) (st : Status) (ps : List Byte) (s : State) :
    (answered op c st ps s).red.claim = s.red.claim := by rw [answered_red_alike op c st ps s]

@[simp] theorem deferred_red_claim (op : Op) (c : HostCmd) (s : State) : (deferred op c s).red.claim = s.red.claim := by
  rw [deferred_red_alike op c s]

@[simp] theorem answered_red_peer (op : Op) (c : HostCmd) (st : Status) (ps : List Byte) (s : State) :
    (answered op c st ps s).red.peer = s.red.peer := by rw [answered_red_alike op c st ps s]

@[simp] theorem deferred_red_peer (op : Op) (c : HostCmd) (s : State) : (deferred op c s).red.peer = s.red.peer := by
  rw [deferred_red_alike op c s]

@[simp] theorem answered_red_kept (op : Op) (c : HostCmd) (st : Status) (ps : List Byte) (s : State) :
    (answered op c st ps s).red.kept = s.red.kept := by rw [answered_red_alike op c st ps s]

@[simp] theorem deferred_red_kept (op : Op) (c : HostCmd) (s : State) : (deferred op c s).red.kept = s.red.kept := by
  rw [deferred_red_alike op c s]

@[simp] theorem answered_red_applied (op : Op) (c : HostCmd) (st : Status) (ps : List Byte) (s : State) :
    (answered op c st ps s).red.applied = s.red.applied := by rw [answered_red_alike op c st ps s]

@[simp] theorem deferred_red_applied (op : Op) (c : HostCmd) (s : State) : (deferred op c s).red.applied = s.red.applied := by
  rw [deferred_red_alike op c s]

@[simp] theorem answered_red_held (op : Op) (c : HostCmd) (st : Status) (ps : List Byte) (s : State) :
    (answered op c st ps s).red.held = s.red.held := by rw [answered_red_alike op c st ps s]

@[simp] theorem deferred_red_held (op : Op) (c : HostCmd) (s : State) : (deferred op c s).red.held = s.red.held := by
  rw [deferred_red_alike op c s]

@[simp] theorem answered_red_forwarded (op : Op) (c : HostCmd) (st : Status) (ps : List Byte) (s : State) :
    (answered op c st ps s).red.forwarded = s.red.forwarded := by rw [answered_red_alike op c st ps s]

@[simp] theorem deferred_red_forwarded (op : Op) (c : HostCmd) (s : State) : (deferred op c s).red.forwarded = s.red.forwarded := by
  rw [deferred_red_alike op c s]

@[simp] theorem answered_red_resync (op : Op) (c : HostCmd) (st : Status) (ps : List Byte) (s : State) :
    (answered op c st ps s).red.resync = s.red.resync := by rw [answered_red_alike op c st ps s]

@[simp] theorem deferred_red_resync (op : Op) (c : HostCmd) (s : State) : (deferred op c s).red.resync = s.red.resync := by
  rw [deferred_red_alike op c s]

@[simp] theorem answered_red_settling (op : Op) (c : HostCmd) (st : Status) (ps : List Byte) (s : State) :
    (answered op c st ps s).red.settling = s.red.settling := by rw [answered_red_alike op c st ps s]

@[simp] theorem deferred_red_settling (op : Op) (c : HostCmd) (s : State) : (deferred op c s).red.settling = s.red.settling := by
  rw [deferred_red_alike op c s]

@[simp] theorem answered_red_diverged (op : Op) (c : HostCmd) (st : Status) (ps : List Byte) (s : State) :
    (answered op c st ps s).red.diverged = s.red.diverged := by rw [answered_red_alike op c st ps s]

@[simp] theorem deferred_red_diverged (op : Op) (c : HostCmd) (s : State) : (deferred op c s).red.diverged = s.red.diverged := by
  rw [deferred_red_alike op c s]

@[simp] theorem answered_red_health (op : Op) (c : HostCmd) (st : Status) (ps : List Byte) (s : State) :
    (answered op c st ps s).red.health = s.red.health := by rw [answered_red_alike op c st ps s]

@[simp] theorem deferred_red_health (op : Op) (c : HostCmd) (s : State) : (deferred op c s).red.health = s.red.health := by
  rw [deferred_red_alike op c s]

end Sys2Proof.Machine
end

