-- ==== Sys2Proof/Laws/MovesEscalate.lean ====
section
/-! SUPPORT. What each operation of `Machine/Escalate.lean` moves. -/

-- The package is checked as one text; elaborating these proofs in order keeps the number of threads small.
set_option Elab.async false

namespace Sys2Proof.Machine

theorem escCount_moves {pl : List Part} {z : State} (i : Nat) {s : State}
    (hz : Moves pl z s)
    (hl : Part.sub [.saf] pl = true := by first | rfl | exact Part.sub_trans rfl (by assumption)) :
    Moves pl z (escCount i s) := by
  unfold escCount
  try dsimp only
  repeat' first
    | with_reducible assumption | exact Part.sub_trans rfl hl | with_reducible apply Moves.onSaf

theorem regionFault_moves {pl : List Part} {z : State} (r : Nat) (cause : Nat) {s : State}
    (hz : Moves pl z s)
    (hl : Part.sub [.mode, .aon, .pins, .start, .flash, .host, .evt, .saf, .pwr, .xpt, .cue, .red, .lane, .flow, .cmp, .aud, .out] pl = true := by first | rfl | exact Part.sub_trans rfl (by assumption)) :
    Moves pl z (regionFault r cause s) := by
  unfold regionFault
  try dsimp only
  repeat' first
    | with_reducible assumption | exact Part.sub_trans rfl hl | with_reducible apply Moves.onSaf
    | with_reducible apply chipFault_moves | with_reducible apply raise_moves
    | with_reducible apply escCount_moves | with_reducible apply Moves.ite

theorem restartBlock_moves {pl : List Part} {z : State} (b : Nat) (cause : Nat) {s : State}
    (hz : Moves pl z s)
    (hl : Part.sub [.mode, .aon, .pins, .start, .flash, .host, .evt, .saf, .pwr, .xpt, .cue, .red, .lane, .flow, .cmp, .aud, .out] pl = true := by first | rfl | exact Part.sub_trans rfl (by assumption)) :
    Moves pl z (restartBlock b cause s) := by
  unfold restartBlock
  try dsimp only
  repeat' first
    | with_reducible assumption | exact Part.sub_trans rfl hl | with_reducible apply Moves.onSaf
    | with_reducible apply raise_moves | with_reducible apply escCount_moves
    | with_reducible apply regionFault_moves | with_reducible apply Moves.ite

theorem blockFailure_moves {pl : List Part} {z : State} (b : Nat) {s : State}
    (hz : Moves pl z s)
    (hl : Part.sub [.mode, .aon, .pins, .start, .flash, .host, .evt, .saf, .pwr, .xpt, .cue, .red, .lane, .flow, .cmp, .aud, .out] pl = true := by first | rfl | exact Part.sub_trans rfl (by assumption)) :
    Moves pl z (blockFailure b s) := by
  unfold blockFailure
  try dsimp only
  repeat' first
    | with_reducible assumption | exact Part.sub_trans rfl hl | with_reducible apply Moves.onSaf
    | with_reducible apply restartBlock_moves | with_reducible apply Moves.ite

theorem isolateCell_moves {pl : List Part} {z : State} (n : Nat) (reloads : Nat) {s : State}
    (hz : Moves pl z s)
    (hl : Part.sub [.mode, .aon, .pins, .start, .flash, .host, .evt, .saf, .pwr, .xpt, .cue, .red, .lane, .flow, .cmp, .aud, .out] pl = true := by first | rfl | exact Part.sub_trans rfl (by assumption)) :
    Moves pl z (isolateCell n reloads s) := by
  unfold isolateCell
  try dsimp only
  repeat' first
    | with_reducible assumption | exact Part.sub_trans rfl hl | with_reducible apply Moves.onSaf
    | with_reducible apply raise_moves | with_reducible apply escCount_moves
    | with_reducible apply failSource_moves | with_reducible apply restartBlock_moves
    | with_reducible apply Moves.ite

theorem cellFailure_moves {pl : List Part} {z : State} (n : Nat) {s : State}
    (hz : Moves pl z s)
    (hl : Part.sub [.saf] pl = true := by first | rfl | exact Part.sub_trans rfl (by assumption)) :
    Moves pl z (cellFailure n s) := by
  unfold cellFailure
  try dsimp only
  repeat' first
    | with_reducible assumption | exact Part.sub_trans rfl hl | with_reducible apply Moves.onSaf
    | with_reducible apply escCount_moves | with_reducible apply Moves.ite

theorem cellReloaded_moves {pl : List Part} {z : State} (n : Nat) {s : State}
    (hz : Moves pl z s)
    (hl : Part.sub [.mode, .aon, .pins, .start, .flash, .host, .evt, .saf, .pwr, .xpt, .cue, .red, .lane, .flow, .cmp, .aud, .out] pl = true := by first | rfl | exact Part.sub_trans rfl (by assumption)) :
    Moves pl z (cellReloaded n s) := by
  unfold cellReloaded
  try dsimp only
  repeat' first
    | with_reducible assumption | exact Part.sub_trans rfl hl | with_reducible apply Moves.onSaf
    | with_reducible apply isolateCell_moves | with_reducible apply Moves.ite

theorem planeFailure_moves {pl : List Part} {z : State} (r : Nat) {s : State}
    (hz : Moves pl z s)
    (hl : Part.sub [.mode, .aon, .pins, .start, .flash, .host, .evt, .saf, .pwr, .xpt, .cue, .red, .lane, .flow, .cmp, .aud, .out] pl = true := by first | rfl | exact Part.sub_trans rfl (by assumption)) :
    Moves pl z (planeFailure r s) := by
  unfold planeFailure
  try dsimp only
  repeat' first
    | with_reducible assumption | exact Part.sub_trans rfl hl | with_reducible apply Moves.onSaf
    | with_reducible apply regionFault_moves | with_reducible apply Moves.ite

theorem compFailure_moves {pl : List Part} {z : State} (r : Nat) {s : State}
    (hz : Moves pl z s)
    (hl : Part.sub [.mode, .aon, .pins, .start, .flash, .host, .evt, .saf, .pwr, .xpt, .cue, .red, .lane, .flow, .cmp, .aud, .out] pl = true := by first | rfl | exact Part.sub_trans rfl (by assumption)) :
    Moves pl z (compFailure r s) := by
  unfold compFailure
  try dsimp only
  repeat' first
    | with_reducible assumption | exact Part.sub_trans rfl hl | with_reducible apply Moves.onSaf
    | with_reducible apply regionFault_moves | with_reducible apply Moves.ite

theorem arbiterFailure_moves {pl : List Part} {z : State} (r : Nat) {s : State}
    (hz : Moves pl z s)
    (hl : Part.sub [.mode, .aon, .pins, .start, .flash, .host, .evt, .saf, .pwr, .xpt, .cue, .red, .lane, .flow, .cmp, .aud, .out] pl = true := by first | rfl | exact Part.sub_trans rfl (by assumption)) :
    Moves pl z (arbiterFailure r s) := by
  unfold arbiterFailure
  try dsimp only
  repeat' first
    | with_reducible assumption | exact Part.sub_trans rfl hl | with_reducible apply Moves.onSaf
    | with_reducible apply regionFault_moves | with_reducible apply Moves.ite

theorem audioFailure_moves {pl : List Part} {z : State} {s : State}
    (hz : Moves pl z s)
    (hl : Part.sub [.mode, .aon, .pins, .start, .flash, .host, .evt, .saf, .pwr, .xpt, .cue, .red, .lane, .flow, .cmp, .aud, .out] pl = true := by first | rfl | exact Part.sub_trans rfl (by assumption)) :
    Moves pl z (audioFailure s) := by
  unfold audioFailure
  try dsimp only
  repeat' first
    | with_reducible assumption | exact Part.sub_trans rfl hl | with_reducible apply Moves.onSaf
    | with_reducible apply chipFault_moves | with_reducible apply Moves.ite

theorem storedError_moves {pl : List Part} {z : State} (pc : Nat) {s : State}
    (hz : Moves pl z s)
    (hl : Part.sub [.mode, .aon, .pins, .start, .flash, .host, .evt, .saf, .pwr, .xpt, .cue, .red, .lane, .flow, .cmp, .aud, .out] pl = true := by first | rfl | exact Part.sub_trans rfl (by assumption)) :
    Moves pl z (storedError pc s) := by
  unfold storedError
  try dsimp only
  repeat' first
    | with_reducible assumption | exact Part.sub_trans rfl hl | with_reducible apply Moves.onSaf
    | with_reducible apply chipFault_moves | with_reducible apply Moves.ite

theorem storePcFault_moves {pl : List Part} {z : State} (pc : Nat) (cause : Nat) {s : State}
    (hz : Moves pl z s)
    (hl : Part.sub [.mode, .aon, .pins, .start, .flash, .host, .evt, .saf, .pwr, .xpt, .cue, .red, .lane, .flow, .fst, .cmp, .aud, .out] pl = true := by first | rfl | exact Part.sub_trans rfl (by assumption)) :
    Moves pl z (storePcFault pc cause s) := by
  unfold storePcFault
  try dsimp only
  repeat' first
    | with_reducible assumption | exact Part.sub_trans rfl hl | with_reducible apply raise_moves
    | with_reducible apply modPc_moves | with_reducible apply chipFault_moves
    | with_reducible apply invalidate_moves | (with_reducible apply Moves.foldl; intro _ _ _)
    | (split <;> try dsimp only)

end Sys2Proof.Machine
end

