-- ==== Sys2Proof/Laws/MovesAudOps.lean ====
section
/-! SUPPORT. What each operation of `Machine/AudOps.lean` moves. -/

-- The package is checked as one text; elaborating these proofs in order keeps the number of threads small.
set_option Elab.async false

namespace Sys2Proof.Machine

theorem modOut_moves {pl : List Part} {z : State} (n : Nat) (f : AudOut → AudOut) {s : State}
    (hz : Moves pl z s)
    (hl : Part.sub [.aud] pl = true := by first | rfl | exact Part.sub_trans rfl (by assumption)) :
    Moves pl z (modOut n f s) := by
  unfold modOut
  try dsimp only
  repeat' first
    | with_reducible assumption | exact Part.sub_trans rfl hl | with_reducible apply Moves.onAud

theorem modIn_moves {pl : List Part} {z : State} (n : Nat) (f : AudIn → AudIn) {s : State}
    (hz : Moves pl z s)
    (hl : Part.sub [.aud] pl = true := by first | rfl | exact Part.sub_trans rfl (by assumption)) :
    Moves pl z (modIn n f s) := by
  unfold modIn
  try dsimp only
  repeat' first
    | with_reducible assumption | exact Part.sub_trans rfl hl | with_reducible apply Moves.onAud

theorem audCount_moves {pl : List Part} {z : State} (i : Nat) (n : Nat) {s : State}
    (hz : Moves pl z s)
    (hl : Part.sub [.aud] pl = true := by first | rfl | exact Part.sub_trans rfl (by assumption)) :
    Moves pl z (audCount i n s) := by
  unfold audCount
  try dsimp only
  repeat' first
    | with_reducible assumption | exact Part.sub_trans rfl hl | with_reducible apply Moves.onAud

theorem startSeam_moves {pl : List Part} {z : State} (n : Nat) (len : Nat) {s : State}
    (hz : Moves pl z s)
    (hl : Part.sub [.aud] pl = true := by first | rfl | exact Part.sub_trans rfl (by assumption)) :
    Moves pl z (startSeam n len s) := by
  unfold startSeam
  try dsimp only
  repeat' first
    | with_reducible assumption | exact Part.sub_trans rfl hl | with_reducible apply modIn_moves

theorem fadeOut_moves {pl : List Part} {z : State} (n : Nat) {s : State}
    (hz : Moves pl z s)
    (hl : Part.sub [.aud] pl = true := by first | rfl | exact Part.sub_trans rfl (by assumption)) :
    Moves pl z (fadeOut n s) := by
  unfold fadeOut
  try dsimp only
  repeat' first
    | with_reducible assumption | exact Part.sub_trans rfl hl | with_reducible apply modIn_moves
    | with_reducible apply startSeam_moves | with_reducible apply Moves.ite

theorem fadeIn_moves {pl : List Part} {z : State} (n : Nat) {s : State}
    (hz : Moves pl z s)
    (hl : Part.sub [.aud] pl = true := by first | rfl | exact Part.sub_trans rfl (by assumption)) :
    Moves pl z (fadeIn n s) := by
  unfold fadeIn
  try dsimp only
  repeat' first
    | with_reducible assumption | exact Part.sub_trans rfl hl | with_reducible apply modIn_moves
    | with_reducible apply startSeam_moves | with_reducible apply Moves.ite

theorem deembedError_moves {pl : List Part} {z : State} (n : Nat) (group : Nat) (kind : Nat) {s : State}
    (hz : Moves pl z s)
    (hl : Part.sub [.flash, .evt] pl = true := by first | rfl | exact Part.sub_trans rfl (by assumption)) :
    Moves pl z (deembedError n group kind s) := by
  unfold deembedError
  try dsimp only
  repeat' first
    | with_reducible assumption | exact Part.sub_trans rfl hl | with_reducible apply raise_moves

theorem concealIn_moves {pl : List Part} {z : State} (n : Nat) {s : State}
    (hz : Moves pl z s)
    (hl : Part.sub [.aud] pl = true := by first | rfl | exact Part.sub_trans rfl (by assumption)) :
    Moves pl z (concealIn n s) := by
  unfold concealIn
  try dsimp only
  repeat' first
    | with_reducible assumption | exact Part.sub_trans rfl hl | with_reducible apply modIn_moves
    | with_reducible apply Moves.ite

theorem takeAudPacket_moves {pl : List Part} {z : State} (n : Nat) (p : AudPacket) {s : State}
    (hz : Moves pl z s)
    (hl : Part.sub [.flash, .evt, .aud] pl = true := by first | rfl | exact Part.sub_trans rfl (by assumption)) :
    Moves pl z (takeAudPacket n p s) := by
  unfold takeAudPacket
  try dsimp only
  repeat' first
    | with_reducible assumption | exact Part.sub_trans rfl hl | with_reducible apply modIn_moves
    | with_reducible apply deembedError_moves | with_reducible apply audCount_moves
    | with_reducible apply concealIn_moves | with_reducible apply Moves.ite
    | (with_reducible apply Moves.foldl; intro _ _ _)
    | (split <;> try dsimp only)

theorem readAudio_moves {pl : List Part} {z : State} (n : Nat) (before : Src) (ps : List AudPacket) {s : State}
    (hz : Moves pl z s)
    (hl : Part.sub [.flash, .evt, .aud] pl = true := by first | rfl | exact Part.sub_trans rfl (by assumption)) :
    Moves pl z (readAudio n before ps s) := by
  unfold readAudio
  try dsimp only
  repeat' first
    | with_reducible assumption | exact Part.sub_trans rfl hl | with_reducible apply takeAudPacket_moves
    | with_reducible apply fadeIn_moves | with_reducible apply fadeOut_moves
    | with_reducible apply startSeam_moves | with_reducible apply Moves.ite
    | (with_reducible apply Moves.foldl; intro _ _ _)

theorem landAudio_moves {pl : List Part} {z : State} (n : Nat) (inp : Option Nat) (keepInput : Bool) (gain : GainArg) (hard : Bool) {s : State}
    (hz : Moves pl z s)
    (hl : Part.sub [.aud] pl = true := by first | rfl | exact Part.sub_trans rfl (by assumption)) :
    Moves pl z (landAudio n inp keepInput gain hard s) := by
  unfold landAudio
  try dsimp only
  repeat' first
    | with_reducible assumption | exact Part.sub_trans rfl hl | with_reducible apply audCount_moves
    | with_reducible apply modOut_moves | with_reducible apply Moves.ite
    | (split <;> try dsimp only)

end Sys2Proof.Machine
end

