-- ==== Sys2Proof/Laws/MovesLanding.lean ====
section
/-! SUPPORT. What each operation of `Machine/Landing.lean` moves. -/

-- The package is checked as one text; elaborating these proofs in order keeps the number of threads small.
set_option Elab.async false

namespace Sys2Proof.Machine

theorem modXd_moves {pl : List Part} {z : State} (d : Nat) (f : XptDst → XptDst) {s : State}
    (hz : Moves pl z s)
    (hl : Part.sub [.xpt] pl = true := by first | rfl | exact Part.sub_trans rfl (by assumption)) :
    Moves pl z (modXd d f s) := by
  unfold modXd
  try dsimp only
  repeat' first
    | with_reducible assumption | exact Part.sub_trans rfl hl | with_reducible apply Moves.onXpt

theorem xptCount_moves {pl : List Part} {z : State} (i : Nat) {s : State}
    (hz : Moves pl z s)
    (hl : Part.sub [.xpt] pl = true := by first | rfl | exact Part.sub_trans rfl (by assumption)) :
    Moves pl z (xptCount i s) := by
  unfold xptCount
  try dsimp only
  repeat' first
    | with_reducible assumption | exact Part.sub_trans rfl hl | with_reducible apply Moves.onXpt

theorem noteFallback_moves {pl : List Part} {z : State} (d : Nat) {s : State}
    (hz : Moves pl z s)
    (hl : Part.sub [.flash, .evt, .flow] pl = true := by first | rfl | exact Part.sub_trans rfl (by assumption)) :
    Moves pl z (noteFallback d s) := by
  unfold noteFallback
  try dsimp only
  repeat' first
    | with_reducible assumption | exact Part.sub_trans rfl hl | with_reducible apply modDst_moves
    | with_reducible apply raise_moves | with_reducible apply Moves.ite
    | (split <;> try dsimp only)

theorem showDest_moves {pl : List Part} {z : State} (d : Nat) (took : Bool) {s : State}
    (hz : Moves pl z s)
    (hl : Part.sub [.flash, .evt, .flow] pl = true := by first | rfl | exact Part.sub_trans rfl (by assumption)) :
    Moves pl z (showDest d took s) := by
  unfold showDest
  try dsimp only
  repeat' first
    | with_reducible assumption | exact Part.sub_trans rfl hl | with_reducible apply modDst_moves
    | with_reducible apply raise_moves | with_reducible apply noteFallback_moves
    | with_reducible apply Moves.ite
    | (split <;> try dsimp only)

theorem parkNow_moves {pl : List Part} {z : State} (d : Nat) {s : State}
    (hz : Moves pl z s)
    (hl : Part.sub [.flow] pl = true := by first | rfl | exact Part.sub_trans rfl (by assumption)) :
    Moves pl z (parkNow d s) := by
  unfold parkNow
  try dsimp only
  repeat' first
    | with_reducible assumption | exact Part.sub_trans rfl hl | with_reducible apply modDst_moves
    | with_reducible apply Moves.ite

theorem safeAfterTake_moves {pl : List Part} {z : State} (d : Nat) {s : State}
    (hz : Moves pl z s)
    (hl : Part.sub [.cmp] pl = true := by first | rfl | exact Part.sub_trans rfl (by assumption)) :
    Moves pl z (safeAfterTake d s) := by
  unfold safeAfterTake
  try dsimp only
  repeat' first
    | with_reducible assumption | exact Part.sub_trans rfl hl | with_reducible apply Moves.onCmp
    | with_reducible apply Moves.ite

theorem safeEnds_moves {pl : List Part} {z : State} (d : Nat) {s : State}
    (hz : Moves pl z s)
    (hl : Part.sub [.cmp] pl = true := by first | rfl | exact Part.sub_trans rfl (by assumption)) :
    Moves pl z (safeEnds d s) := by
  unfold safeEnds
  try dsimp only
  repeat' first
    | with_reducible assumption | exact Part.sub_trans rfl hl | with_reducible apply Moves.onCmp
    | with_reducible apply Moves.ite

theorem freeEntry_moves {pl : List Part} {z : State} (e : Entry) {s : State}
    (hz : Moves pl z s)
    (hl : Part.sub [.xpt] pl = true := by first | rfl | exact Part.sub_trans rfl (by assumption)) :
    Moves pl z (freeEntry e s) := by
  unfold freeEntry
  try dsimp only
  repeat' first
    | with_reducible assumption | exact Part.sub_trans rfl hl | with_reducible apply queueFell_moves
    | with_reducible apply Moves.onXpt

theorem openFollows_moves {pl : List Part} {z : State} (e : Entry) (d : Nat) (src : Option Nat) {s : State}
    (hz : Moves pl z s)
    (hl : Part.sub [.aud] pl = true := by first | rfl | exact Part.sub_trans rfl (by assumption)) :
    Moves pl z (openFollows e d src s) := by
  unfold openFollows
  try dsimp only
  repeat' first
    | with_reducible assumption | exact Part.sub_trans rfl hl | with_reducible apply Moves.onAud
    | with_reducible apply Moves.ite
    | (split <;> try dsimp only)

theorem landTake_moves {pl : List Part} {z : State} (e : Entry) (d : Nat) (src : Option Nat) (n : Nat) {s : State}
    (hz : Moves pl z s)
    (hl : Part.sub [.flash, .host, .evt, .xpt, .red, .flow, .cmp, .aud, .out] pl = true := by first | rfl | exact Part.sub_trans rfl (by assumption)) :
    Moves pl z (landTake e d src n s) := by
  unfold landTake
  try dsimp only
  repeat' first
    | with_reducible assumption | exact Part.sub_trans rfl hl | with_reducible apply freeEntry_moves
    | with_reducible apply modXd_moves | with_reducible apply modDst_moves
    | with_reducible apply xptCount_moves | with_reducible apply raise_moves
    | with_reducible apply openFollows_moves | with_reducible apply safeAfterTake_moves
    | with_reducible apply entryGone_moves | with_reducible apply Moves.ite

theorem landTakes_moves {pl : List Part} {z : State} (d : Nat) (n : Nat) (es : List Entry) {s : State}
    (hz : Moves pl z s)
    (hl : Part.sub [.flash, .host, .evt, .xpt, .red, .flow, .cmp, .aud, .out] pl = true := by first | rfl | exact Part.sub_trans rfl (by assumption)) :
    Moves pl z (landTakes d n es s) := by
  unfold landTakes
  try dsimp only
  repeat' first
    | with_reducible assumption | exact Part.sub_trans rfl hl | with_reducible apply landTake_moves
    | (with_reducible apply Moves.foldl; intro _ _ _)
    | (split <;> try dsimp only)

theorem dueAudio_moves {pl : List Part} {z : State} (d : Nat) {s : State}
    (hz : Moves pl z s)
    (hl : Part.sub [.xpt] pl = true := by first | rfl | exact Part.sub_trans rfl (by assumption)) :
    Moves pl z (dueAudio d s) := by
  unfold dueAudio
  try dsimp only
  repeat' first
    | with_reducible assumption | exact Part.sub_trans rfl hl | with_reducible apply Moves.onXpt
    | with_reducible apply Moves.ite
    | (split <;> try dsimp only)

theorem landDstRedefine_moves {pl : List Part} {z : State} (d : Nat) {s : State}
    (hz : Moves pl z s)
    (hl : Part.sub [.xpt, .flow, .cmp] pl = true := by first | rfl | exact Part.sub_trans rfl (by assumption)) :
    Moves pl z (landDstRedefine d s) := by
  unfold landDstRedefine
  try dsimp only
  repeat' first
    | with_reducible assumption | exact Part.sub_trans rfl hl | with_reducible apply modDst_moves
    | with_reducible apply safeAfterTake_moves | with_reducible apply modXd_moves
    | with_reducible apply Moves.ite
    | (split <;> try dsimp only)

theorem landDstDelete_moves {pl : List Part} {z : State} (d : Nat) {s : State}
    (hz : Moves pl z s)
    (hl : Part.sub [.flash, .host, .evt, .xpt, .red, .flow, .cmp, .aud, .out] pl = true := by first | rfl | exact Part.sub_trans rfl (by assumption)) :
    Moves pl z (landDstDelete d s) := by
  unfold landDstDelete
  try dsimp only
  repeat' first
    | with_reducible assumption | exact Part.sub_trans rfl hl | with_reducible apply discardEntries_moves
    | with_reducible apply modXd_moves | with_reducible apply safeAfterTake_moves
    | with_reducible apply modDst_moves | with_reducible apply raise_moves | with_reducible apply Moves.ite

theorem switchingLine_moves {pl : List Part} {z : State} (d : Nat) {s : State}
    (hz : Moves pl z s)
    (hl : Part.sub [.flash, .host, .evt, .xpt, .red, .flow, .cmp, .aud, .out] pl = true := by first | rfl | exact Part.sub_trans rfl (by assumption)) :
    Moves pl z (switchingLine d s) := by
  unfold switchingLine
  try dsimp only
  repeat' first
    | with_reducible assumption | exact Part.sub_trans rfl hl | with_reducible apply landDstDelete_moves
    | with_reducible apply landDstRedefine_moves | with_reducible apply landTakes_moves
    | with_reducible apply showDest_moves | with_reducible apply safeEnds_moves
    | with_reducible apply dueAudio_moves | with_reducible apply Moves.ite

end Sys2Proof.Machine
end

