-- ==== Sys2Proof/Laws/MovesImage.lean ====
section
/-! SUPPORT. What each operation and command of `Machine/Image.lean` moves. -/

-- The package is checked as one text; elaborating these proofs in order keeps the number of threads small.
set_option Elab.async false

namespace Sys2Proof.Machine

theorem writeRec_moves {pl : List Part} {z : State} (r : BootRec) {s : State}
    (hz : Moves pl z s)
    (hl : Part.sub [.flash] pl = true := by first | rfl | exact Part.sub_trans rfl (by assumption)) :
    Moves pl z (writeRec r s) := by
  unfold writeRec
  exact hz.onFlash _ (fun h => memWriteList_wf _ _ (memClear_wf _ _ h))

theorem rejectImage_moves {pl : List Part} {z : State} (slot : Nat) (reason : Nat) {s : State}
    (hz : Moves pl z s)
    (hl : Part.sub [.aon, .flash, .evt] pl = true := by first | rfl | exact Part.sub_trans rfl (by assumption)) :
    Moves pl z (rejectImage slot reason s) := by
  unfold rejectImage
  try dsimp only
  repeat' first
    | with_reducible assumption | exact Part.sub_trans rfl hl | with_reducible apply raise_moves
    | with_reducible apply Moves.onAon

theorem setSkip_moves {pl : List Part} {z : State} (slot : Nat) (v : Bool) {s : State}
    (hz : Moves pl z s)
    (hl : Part.sub [.aon] pl = true := by first | rfl | exact Part.sub_trans rfl (by assumption)) :
    Moves pl z (setSkip slot v s) := by
  unfold setSkip
  try dsimp only
  repeat' first
    | with_reducible assumption | exact Part.sub_trans rfl hl | with_reducible apply Moves.onAon

theorem raiseFloor_moves {pl : List Part} {z : State} {s : State}
    (hz : Moves pl z s)
    (hl : Part.sub [.fuses, .flash, .evt] pl = true := by first | rfl | exact Part.sub_trans rfl (by assumption)) :
    Moves pl z (raiseFloor s) := by
  unfold raiseFloor
  dsimp only
  split
  · rename_i hc
    simp only [Bool.and_eq_true, decide_eq_true_eq] at hc
    have hle := Nat.le_of_lt hc.2
    refine raise_moves _ _ _ _ _ (hz.step (Part.sub_trans (j := [.fuses]) rfl hl)
      ⟨rfl, Nat.le_refl _, rfl, hle, List.suffix_refl _, Nat.le_refl _, id⟩ ?_)
    intro p hp
    cases p <;> first | rfl | exact absurd (List.mem_singleton.mpr rfl) hp
  · exact hz

theorem confirmTrial_moves {pl : List Part} {z : State} {s : State}
    (hz : Moves pl z s)
    (hl : Part.sub [.fuses, .aon, .flash, .evt] pl = true := by first | rfl | exact Part.sub_trans rfl (by assumption)) :
    Moves pl z (confirmTrial s) := by
  unfold confirmTrial
  try dsimp only
  repeat' first
    | with_reducible assumption | exact Part.sub_trans rfl hl | with_reducible apply writeRec_moves
    | with_reducible apply Moves.onAon | with_reducible apply raiseFloor_moves
    | with_reducible apply raise_moves

theorem effImgInfo_moves {pl : List Part} {z : State} {s : State} (c : HostCmd)
    (hz : Moves pl z s) :
    Moves pl z (effImgInfo s c).1 := by
  unfold effImgInfo
  try dsimp only
  repeat' first
    | with_reducible assumption | exact Part.sub_trans rfl hl

theorem effImgWriteBegin_moves {pl : List Part} {z : State} {s : State} (c : HostCmd)
    (hz : Moves pl z s)
    (hl : Part.sub [.aon, .flash] pl = true := by first | rfl | exact Part.sub_trans rfl (by assumption)) :
    Moves pl z (effImgWriteBegin s c).1 := by
  refine setSkip_moves _ _ (Moves.onFlash hz _ ?_)
  exact fun h => memClear_wf _ _ h

theorem effImgWrite_moves {pl : List Part} {z : State} {s : State} (c : HostCmd)
    (hz : Moves pl z s)
    (hl : Part.sub [.flash] pl = true := by first | rfl | exact Part.sub_trans rfl (by assumption)) :
    Moves pl z (effImgWrite s c).1 := by
  unfold effImgWrite
  dsimp only
  exact hz.onFlash _ (fun h => memWriteList_wf _ _ h)

theorem effImgWriteEnd_moves {pl : List Part} {z : State} {s : State} (c : HostCmd)
    (hz : Moves pl z s)
    (hl : Part.sub [.clock, .aon, .flash, .evt] pl = true := by first | rfl | exact Part.sub_trans rfl (by assumption)) :
    Moves pl z (effImgWriteEnd s c).1 := by
  unfold effImgWriteEnd
  try dsimp only
  repeat' first
    | with_reducible assumption | exact Part.sub_trans rfl hl
    | (with_reducible refine Moves.onFlashMem ?_ _ (fun _ => rfl) ?_) | with_reducible apply idle_moves
    | with_reducible apply rejectImage_moves | with_reducible apply Moves.ite
    | with_reducible apply Moves.ite_fst
    | (split <;> try dsimp only)

theorem effImgActivate_moves {pl : List Part} {z : State} {s : State} (c : HostCmd)
    (hz : Moves pl z s)
    (hl : Part.sub [.aon, .flash] pl = true := by first | rfl | exact Part.sub_trans rfl (by assumption)) :
    Moves pl z (effImgActivate s c).1 := by
  unfold effImgActivate
  try dsimp only
  repeat' first
    | with_reducible assumption | exact Part.sub_trans rfl hl | with_reducible apply setSkip_moves
    | with_reducible apply writeRec_moves | (with_reducible refine Moves.onFlashMem ?_ _ (fun _ => rfl) ?_)
    | with_reducible apply Moves.ite | with_reducible apply Moves.ite_fst

theorem effImgTrialAbort_moves {pl : List Part} {z : State} {s : State} (c : HostCmd)
    (hz : Moves pl z s)
    (hl : Part.sub [.aon, .flash] pl = true := by first | rfl | exact Part.sub_trans rfl (by assumption)) :
    Moves pl z (effImgTrialAbort s c).1 := by
  unfold effImgTrialAbort
  try dsimp only
  repeat' first
    | with_reducible assumption | exact Part.sub_trans rfl hl | with_reducible apply Moves.onAon
    | with_reducible apply writeRec_moves | with_reducible apply Moves.ite | with_reducible apply Moves.ite_fst

theorem effImgConfirm_moves {pl : List Part} {z : State} {s : State} (c : HostCmd)
    (hz : Moves pl z s)
    (hl : Part.sub [.fuses, .aon, .flash, .evt] pl = true := by first | rfl | exact Part.sub_trans rfl (by assumption)) :
    Moves pl z (effImgConfirm s c).1 := by
  unfold effImgConfirm
  try dsimp only
  repeat' first
    | with_reducible assumption | exact Part.sub_trans rfl hl | with_reducible apply confirmTrial_moves
    | with_reducible apply Moves.ite | with_reducible apply Moves.ite_fst

theorem execImgInfo_moves {pl : List Part} {z : State} (t : Nat) (c : HostCmd) {s : State}
    (hz : Moves pl z s)
    (hl : Part.sub [.clock, .flash, .host, .evt, .red, .out] pl = true := by first | rfl | exact Part.sub_trans rfl (by assumption)) :
    MovesOut pl z (execImgInfo t c s) := by
  exact runCommand_moves _ _ _ _ _ hz (fun _ h => effImgInfo_moves _ h)

theorem execImgWriteBegin_moves {pl : List Part} {z : State} (t : Nat) (c : HostCmd) {s : State}
    (hz : Moves pl z s)
    (hl : Part.sub [.clock, .aon, .flash, .host, .evt, .red, .out] pl = true := by first | rfl | exact Part.sub_trans rfl (by assumption)) :
    MovesOut pl z (execImgWriteBegin t c s) := by
  exact runCommand_moves _ _ _ _ _ hz (fun _ h => effImgWriteBegin_moves _ h)

theorem execSlotEraseDone_moves {pl : List Part} {z : State} (t : Nat) (slot : Nat) {s : State}
    (hz : Moves pl z s)
    (hl : Part.sub [.clock, .flash] pl = true := by first | rfl | exact Part.sub_trans rfl (by assumption)) :
    MovesOut pl z (execSlotEraseDone t slot s) := by
  unfold execSlotEraseDone
  try dsimp only
  refine MovesOut.fault ?_
  try with_reducible refine MovesOut.next ?_
  repeat' first
    | with_reducible assumption | exact Part.sub_trans rfl hl | with_reducible apply advance_moves
    | (with_reducible refine Moves.onFlashMem ?_ _ (fun _ => rfl) ?_) | with_reducible apply Moves.ite

theorem execImgWrite_moves {pl : List Part} {z : State} (t : Nat) (c : HostCmd) {s : State}
    (hz : Moves pl z s)
    (hl : Part.sub [.clock, .flash, .host, .evt, .red, .out] pl = true := by first | rfl | exact Part.sub_trans rfl (by assumption)) :
    MovesOut pl z (execImgWrite t c s) := by
  exact runCommand_moves _ _ _ _ _ hz (fun _ h => effImgWrite_moves _ h)

theorem execImageWriteTimeout_moves {pl : List Part} {z : State} (t : Nat) {s : State}
    (hz : Moves pl z s)
    (hl : Part.sub [.clock, .flash] pl = true := by first | rfl | exact Part.sub_trans rfl (by assumption)) :
    MovesOut pl z (execImageWriteTimeout t s) := by
  unfold execImageWriteTimeout
  try dsimp only
  try with_reducible refine MovesOut.next ?_
  repeat' first
    | with_reducible assumption | exact Part.sub_trans rfl hl | with_reducible apply advance_moves
    | (with_reducible refine Moves.onFlashMem ?_ _ (fun _ => rfl) ?_) | with_reducible apply Moves.ite
    | (split <;> try dsimp only)

theorem execImgWriteEnd_moves {pl : List Part} {z : State} (t : Nat) (c : HostCmd) {s : State}
    (hz : Moves pl z s)
    (hl : Part.sub [.clock, .aon, .flash, .host, .evt, .red, .out] pl = true := by first | rfl | exact Part.sub_trans rfl (by assumption)) :
    MovesOut pl z (execImgWriteEnd t c s) := by
  exact runCommand_moves _ _ _ _ _ hz (fun _ h => effImgWriteEnd_moves _ h)

theorem execImgActivate_moves {pl : List Part} {z : State} (t : Nat) (c : HostCmd) {s : State}
    (hz : Moves pl z s)
    (hl : Part.sub [.clock, .aon, .flash, .host, .evt, .red, .out] pl = true := by first | rfl | exact Part.sub_trans rfl (by assumption)) :
    MovesOut pl z (execImgActivate t c s) := by
  exact runCommand_moves _ _ _ _ _ hz (fun _ h => effImgActivate_moves _ h)

theorem execImageStartNow_moves {pl : List Part} {z : State} (t : Nat) {s : State}
    (hz : Moves pl z s)
    (hl : Part.sub [.clock, .mode, .halWaitMs, .aon, .pins, .start, .cal, .flash, .host, .evt, .saf, .ctl, .pwr, .xpt, .cue, .red, .eth, .tim, .lane, .flow, .fst, .cmp, .aud, .out, .image] pl = true := by first | rfl | exact Part.sub_trans rfl (by assumption)) :
    MovesOut pl z (execImageStartNow t s) := by
  unfold execImageStartNow
  try dsimp only
  try with_reducible refine MovesOut.next ?_
  repeat' first
    | with_reducible assumption | exact Part.sub_trans rfl hl | with_reducible apply advance_moves
    | with_reducible apply takeT1Start_moves | with_reducible apply Moves.ite
    | (split <;> try dsimp only)

theorem execImgTrialAbort_moves {pl : List Part} {z : State} (t : Nat) (c : HostCmd) {s : State}
    (hz : Moves pl z s)
    (hl : Part.sub [.clock, .aon, .flash, .host, .evt, .red, .out] pl = true := by first | rfl | exact Part.sub_trans rfl (by assumption)) :
    MovesOut pl z (execImgTrialAbort t c s) := by
  exact runCommand_moves _ _ _ _ _ hz (fun _ h => effImgTrialAbort_moves _ h)

theorem execImgConfirm_moves {pl : List Part} {z : State} (t : Nat) (c : HostCmd) {s : State}
    (hz : Moves pl z s)
    (hl : Part.sub [.clock, .fuses, .aon, .flash, .host, .evt, .red, .out] pl = true := by first | rfl | exact Part.sub_trans rfl (by assumption)) :
    MovesOut pl z (execImgConfirm t c s) := by
  exact runCommand_moves _ _ _ _ _ hz (fun _ h => effImgConfirm_moves _ h)

theorem execTrialConfirmTimer_moves {pl : List Part} {z : State} (t : Nat) {s : State}
    (hz : Moves pl z s)
    (hl : Part.sub [.clock, .fuses, .aon, .flash, .evt] pl = true := by first | rfl | exact Part.sub_trans rfl (by assumption)) :
    MovesOut pl z (execTrialConfirmTimer t s) := by
  unfold execTrialConfirmTimer
  try dsimp only
  try with_reducible refine MovesOut.next ?_
  repeat' first
    | with_reducible assumption | exact Part.sub_trans rfl hl | with_reducible apply advance_moves
    | with_reducible apply confirmTrial_moves | with_reducible apply Moves.ite
    | (split <;> try dsimp only)

end Sys2Proof.Machine
end

