-- ==== Sys2Proof/Laws/MovesStart.lean ====
section
/-! SUPPORT. What each operation and command of `Machine/Start.lean` moves. -/

-- The package is checked as one text; elaborating these proofs in order keeps the number of threads small.
set_option Elab.async false

namespace Sys2Proof.Machine

theorem setEnable_moves {pl : List Part} {z : State} (i : Nat) (v : Bool) {s : State}
    (hz : Moves pl z s)
    (hl : Part.sub [.seq, .out] pl = true := by first | rfl | exact Part.sub_trans rfl (by assumption)) :
    Moves pl z (setEnable i v s) := by
  unfold setEnable
  try dsimp only
  repeat' first
    | with_reducible assumption | exact Part.sub_trans rfl hl | with_reducible apply emitPin_moves
    | with_reducible apply Moves.onSeq | with_reducible apply Moves.ite

theorem startSequence_moves {pl : List Part} {z : State} {s : State}
    (hz : Moves pl z s)
    (hl : Part.sub [.seq, .out] pl = true := by first | rfl | exact Part.sub_trans rfl (by assumption)) :
    Moves pl z (startSequence s) := by
  unfold startSequence
  try dsimp only
  repeat' first
    | with_reducible assumption | exact Part.sub_trans rfl hl | with_reducible apply setEnable_moves
    | with_reducible apply Moves.onSeq | with_reducible apply Moves.ite

theorem sequenceComplete_moves {pl : List Part} {z : State} {s : State}
    (hz : Moves pl z s)
    (hl : Part.sub [.seq, .aon, .start, .saf] pl = true := by first | rfl | exact Part.sub_trans rfl (by assumption)) :
    Moves pl z (sequenceComplete s) := by
  unfold sequenceComplete
  try dsimp only
  repeat' first
    | with_reducible assumption | exact Part.sub_trans rfl hl | with_reducible apply Moves.onSeq
    | with_reducible apply takeT0_moves | with_reducible apply Moves.ite

theorem aonLost_moves {pl : List Part} {z : State} {s : State}
    (hz : Moves pl z s)
    (hl : Part.sub [.clock, .mode, .halWaitMs, .seq, .aon, .pins, .start, .cal, .flash, .host, .evt, .saf, .ctl, .pwr, .xpt, .cue, .red, .eth, .tim, .lane, .flow, .fst, .cmp, .aud, .image] pl = true := by first | rfl | exact Part.sub_trans rfl (by assumption)) :
    Moves pl z (aonLost s) := by
  refine hz.step hl ((Steady.refl s).upd _ rfl (Nat.le_refl _) rfl rfl (Nat.le_refl _) id (fun _ => rfl) (fun _ => rfl)
    (fun _ => rfl)) ?_
  intro p hp
  cases p
  all_goals first
    | exact absurd (by decide) hp
    | rfl

theorem dropEnables_moves {pl : List Part} {z : State} (keepHbm : Bool) {s : State}
    (hz : Moves pl z s)
    (hl : Part.sub [.seq, .out] pl = true := by first | rfl | exact Part.sub_trans rfl (by assumption)) :
    Moves pl z (dropEnables keepHbm s) := by
  unfold dropEnables
  try dsimp only
  repeat' first
    | with_reducible assumption | exact Part.sub_trans rfl hl | with_reducible apply emit_moves
    | with_reducible apply Moves.onSeq | (with_reducible apply Moves.foldl; intro _ _ _)

theorem powerFault_moves {pl : List Part} {z : State} (step : Nat) {s : State}
    (hz : Moves pl z s)
    (hl : Part.sub [.clock, .mode, .halWaitMs, .seq, .aon, .pins, .start, .cal, .flash, .host, .evt, .saf, .ctl, .pwr, .xpt, .cue, .red, .eth, .tim, .lane, .flow, .fst, .cmp, .aud, .out, .image] pl = true := by first | rfl | exact Part.sub_trans rfl (by assumption)) :
    Moves pl z (powerFault step s) := by
  unfold powerFault
  try dsimp only
  repeat' first
    | with_reducible assumption | exact Part.sub_trans rfl hl | with_reducible apply Moves.onSeq
    | with_reducible apply dropEnables_moves | with_reducible apply takeT1_moves
    | with_reducible apply raise_moves | with_reducible apply Moves.ite

theorem releaseNext_moves {pl : List Part} {z : State} {s : State}
    (hz : Moves pl z s)
    (hl : Part.sub [.start] pl = true := by first | rfl | exact Part.sub_trans rfl (by assumption)) :
    Moves pl z (releaseNext s) := by
  unfold releaseNext
  try dsimp only
  repeat' first
    | with_reducible assumption | exact Part.sub_trans rfl hl | with_reducible apply Moves.onStart
    | (split <;> try dsimp only)

theorem rejectBooted_moves {pl : List Part} {z : State} {s : State}
    (hz : Moves pl z s)
    (hl : Part.sub [.clock, .mode, .halWaitMs, .aon, .pins, .start, .cal, .flash, .host, .evt, .saf, .ctl, .pwr, .xpt, .cue, .red, .eth, .tim, .lane, .flow, .fst, .cmp, .aud, .out, .image] pl = true := by first | rfl | exact Part.sub_trans rfl (by assumption)) :
    Moves pl z (rejectBooted s) := by
  unfold rejectBooted
  try dsimp only
  repeat' first
    | with_reducible assumption | exact Part.sub_trans rfl hl | with_reducible apply takeT1Start_moves
    | with_reducible apply setSkip_moves | with_reducible apply rejectImage_moves

theorem bootSlot_moves {pl : List Part} {z : State} (slot : Nat) (trial : Bool) (badParity : Bool) {s : State}
    (hz : Moves pl z s)
    (hl : Part.sub [.clock, .mode, .halWaitMs, .aon, .pins, .start, .cal, .flash, .host, .evt, .saf, .ctl, .pwr, .xpt, .cue, .red, .eth, .tim, .lane, .flow, .fst, .cmp, .aud, .out, .image] pl = true := by first | rfl | exact Part.sub_trans rfl (by assumption)) :
    Moves pl z (bootSlot slot trial badParity s) := by
  unfold bootSlot
  try dsimp only
  repeat' first
    | with_reducible assumption | exact Part.sub_trans rfl hl | with_reducible apply Moves.onAon
    | with_reducible apply raise_moves | with_reducible apply Moves.onStart
    | with_reducible apply rejectBooted_moves | with_reducible apply releaseNext_moves
    | with_reducible apply Moves.ite

theorem enterRecovery_moves {pl : List Part} {z : State} {s : State}
    (hz : Moves pl z s)
    (hl : Part.sub [.aon, .start] pl = true := by first | rfl | exact Part.sub_trans rfl (by assumption)) :
    Moves pl z (enterRecovery s) := by
  unfold enterRecovery
  try dsimp only
  repeat' first
    | with_reducible assumption | exact Part.sub_trans rfl hl | with_reducible apply Moves.onAon
    | with_reducible apply Moves.onStart

theorem tryImage_moves {pl : List Part} {z : State} (slot : Nat) {s : State}
    (hz : Moves pl z s)
    (hl : Part.sub [.aon, .flash, .evt] pl = true := by first | rfl | exact Part.sub_trans rfl (by assumption)) :
    Moves pl z (tryImage slot s).1 := by
  unfold tryImage
  try dsimp only
  repeat' first
    | with_reducible assumption | exact Part.sub_trans rfl hl | with_reducible apply rejectImage_moves
    | (split <;> try dsimp only)

theorem searchSlots_moves {pl : List Part} {z : State} (badParity : Bool) (l : List Nat) {s : State} (hz : Moves pl z s)
    (hl : Part.sub [.clock, .mode, .halWaitMs, .aon, .pins, .start, .cal, .flash, .host, .evt, .saf, .ctl, .pwr, .xpt, .cue, .red, .eth, .tim, .lane, .flow, .fst, .cmp, .aud, .out, .image] pl = true := by first | rfl | exact Part.sub_trans rfl (by assumption)) :
    Moves pl z (searchSlots badParity l s) := by
  induction l generalizing s with
  | nil => exact enterRecovery_moves hz
  | cons a l ih => exact .ite (bootSlot_moves _ _ _ (tryImage_moves _ hz)) (ih (tryImage_moves _ hz))

theorem closeTrial_moves {pl : List Part} {z : State} {s : State}
    (hz : Moves pl z s)
    (hl : Part.sub [.flash, .evt] pl = true := by first | rfl | exact Part.sub_trans rfl (by assumption)) :
    Moves pl z (closeTrial s) := by
  unfold closeTrial
  try dsimp only
  repeat' first
    | with_reducible assumption | exact Part.sub_trans rfl hl | with_reducible apply raise_moves
    | with_reducible apply writeRec_moves | with_reducible apply Moves.ite
    | (split <;> try dsimp only)

theorem selectImage_moves {pl : List Part} {z : State} (badParity : Bool) {s : State}
    (hz : Moves pl z s)
    (hl : Part.sub [.clock, .mode, .halWaitMs, .aon, .pins, .start, .cal, .flash, .host, .evt, .saf, .ctl, .pwr, .xpt, .cue, .red, .eth, .tim, .lane, .flow, .fst, .cmp, .aud, .out, .image] pl = true := by first | rfl | exact Part.sub_trans rfl (by assumption)) :
    Moves pl z (selectImage badParity s) := by
  unfold selectImage
  try dsimp only
  repeat' first
    | with_reducible assumption | exact Part.sub_trans rfl hl | with_reducible apply writeRec_moves
    | with_reducible apply tryImage_moves | with_reducible apply bootSlot_moves
    | with_reducible apply closeTrial_moves | with_reducible apply searchSlots_moves
    | with_reducible apply Moves.ite
    | (split <;> try dsimp only)

theorem takeT2_moves {pl : List Part} {z : State} {s : State}
    (hz : Moves pl z s)
    (hl : Part.sub [.mode, .aon, .pins, .start, .cal, .flash, .host, .evt, .pwr, .xpt, .cue, .red, .tim, .lane, .flow, .cmp, .aud, .out] pl = true := by first | rfl | exact Part.sub_trans rfl (by assumption)) :
    Moves pl z (takeT2 s) := by
  unfold takeT2
  try dsimp only
  repeat' first
    | with_reducible assumption | exact Part.sub_trans rfl hl | with_reducible apply startRecorder_moves
    | with_reducible apply Moves.onStart | with_reducible apply Moves.onCal
    | with_reducible apply lanesStart_moves | with_reducible apply loopsStart_moves
    | with_reducible apply transition_moves | with_reducible apply raise_moves

theorem takeT17_moves {pl : List Part} {z : State} {s : State}
    (hz : Moves pl z s)
    (hl : Part.sub [.mode, .aon, .pins, .start, .cal, .flash, .host, .evt, .pwr, .xpt, .cue, .red, .tim, .lane, .flow, .cmp, .aud, .out] pl = true := by first | rfl | exact Part.sub_trans rfl (by assumption)) :
    Moves pl z (takeT17 s) := by
  unfold takeT17
  try dsimp only
  repeat' first
    | with_reducible assumption | exact Part.sub_trans rfl hl | with_reducible apply startRecorder_moves
    | with_reducible apply Moves.onStart | with_reducible apply Moves.onCal
    | with_reducible apply lanesStart_moves | with_reducible apply loopsStart_moves
    | with_reducible apply transition_moves

theorem calFail_moves {pl : List Part} {z : State} (code : Nat) (payload : List Word) {s : State}
    (hz : Moves pl z s)
    (hl : Part.sub [.aon, .cal, .flash, .evt] pl = true := by first | rfl | exact Part.sub_trans rfl (by assumption)) :
    Moves pl z (calFail code payload s) := by
  unfold calFail
  try dsimp only
  repeat' first
    | with_reducible assumption | exact Part.sub_trans rfl hl | with_reducible apply Moves.onCal
    | with_reducible apply Moves.onAon | with_reducible apply raise_moves

theorem execVddAonUp_moves {pl : List Part} {z : State} (t : Nat) (pgMode : Bool) (straps : Straps) {s : State}
    (hz : Moves pl z s)
    (hl : Part.sub [.clock, .seq, .aon, .pins, .out] pl = true := by first | rfl | exact Part.sub_trans rfl (by assumption)) :
    MovesOut pl z (execVddAonUp t pgMode straps s) := by
  unfold execVddAonUp
  try dsimp only
  try with_reducible refine MovesOut.next ?_
  repeat' first
    | with_reducible assumption | exact Part.sub_trans rfl hl | with_reducible apply advance_moves
    | with_reducible apply startSequence_moves | with_reducible apply Moves.onAon
    | with_reducible apply Moves.onPins | with_reducible apply Moves.onSeq | with_reducible apply Moves.ite

theorem execVddAonLost_moves {pl : List Part} {z : State} (t : Nat) {s : State}
    (hz : Moves pl z s)
    (hl : Part.sub [.clock, .mode, .halWaitMs, .seq, .aon, .pins, .start, .cal, .flash, .host, .evt, .saf, .ctl, .pwr, .xpt, .cue, .red, .eth, .tim, .lane, .flow, .fst, .cmp, .aud, .out, .image] pl = true := by first | rfl | exact Part.sub_trans rfl (by assumption)) :
    MovesOut pl z (execVddAonLost t s) := by
  unfold execVddAonLost
  try dsimp only
  try with_reducible refine MovesOut.next ?_
  repeat' first
    | with_reducible assumption | exact Part.sub_trans rfl hl | with_reducible apply aonLost_moves
    | with_reducible apply pinsDown_moves | with_reducible apply advance_moves

theorem execPgInputAsserted_moves {pl : List Part} {z : State} (t : Nat) (pg : Nat) {s : State}
    (hz : Moves pl z s)
    (hl : Part.sub [.clock, .seq] pl = true := by first | rfl | exact Part.sub_trans rfl (by assumption)) :
    MovesOut pl z (execPgInputAsserted t pg s) := by
  unfold execPgInputAsserted
  try dsimp only
  refine MovesOut.fault ?_
  try with_reducible refine MovesOut.next ?_
  repeat' first
    | with_reducible assumption | exact Part.sub_trans rfl hl | with_reducible apply Moves.onSeq
    | with_reducible apply advance_moves | with_reducible apply Moves.ite

theorem execSequenceStepDelayExpired_moves {pl : List Part} {z : State} (t : Nat) {s : State}
    (hz : Moves pl z s)
    (hl : Part.sub [.clock, .seq, .aon, .start, .saf, .out] pl = true := by first | rfl | exact Part.sub_trans rfl (by assumption)) :
    MovesOut pl z (execSequenceStepDelayExpired t s) := by
  unfold execSequenceStepDelayExpired
  try dsimp only
  try with_reducible refine MovesOut.next ?_
  repeat' first
    | with_reducible assumption | exact Part.sub_trans rfl hl | with_reducible apply advance_moves
    | with_reducible apply sequenceComplete_moves | with_reducible apply setEnable_moves
    | with_reducible apply Moves.onSeq | with_reducible apply Moves.ite

theorem execFixedDelayEnable_moves {pl : List Part} {z : State} (t : Nat) {s : State}
    (hz : Moves pl z s)
    (hl : Part.sub [.clock, .seq, .aon, .start, .saf, .out] pl = true := by first | rfl | exact Part.sub_trans rfl (by assumption)) :
    MovesOut pl z (execFixedDelayEnable t s) := by
  unfold execFixedDelayEnable
  try dsimp only
  try with_reducible refine MovesOut.next ?_
  repeat' first
    | with_reducible assumption | exact Part.sub_trans rfl hl | with_reducible apply advance_moves
    | with_reducible apply sequenceComplete_moves | with_reducible apply setEnable_moves
    | with_reducible apply Moves.onSeq | with_reducible apply Moves.ite

theorem execPgTimeout_moves {pl : List Part} {z : State} (t : Nat) {s : State}
    (hz : Moves pl z s)
    (hl : Part.sub [.clock, .mode, .halWaitMs, .seq, .aon, .pins, .start, .cal, .flash, .host, .evt, .saf, .ctl, .pwr, .xpt, .cue, .red, .eth, .tim, .lane, .flow, .fst, .cmp, .aud, .out, .image] pl = true := by first | rfl | exact Part.sub_trans rfl (by assumption)) :
    MovesOut pl z (execPgTimeout t s) := by
  unfold execPgTimeout
  try dsimp only
  try with_reducible refine MovesOut.next ?_
  repeat' first
    | with_reducible assumption | exact Part.sub_trans rfl hl | with_reducible apply advance_moves
    | with_reducible apply powerFault_moves | with_reducible apply Moves.ite

theorem execPgInputLow_moves {pl : List Part} {z : State} (t : Nat) (pg : Nat) {s : State}
    (hz : Moves pl z s)
    (hl : Part.sub [.clock, .seq] pl = true := by first | rfl | exact Part.sub_trans rfl (by assumption)) :
    MovesOut pl z (execPgInputLow t pg s) := by
  unfold execPgInputLow
  try dsimp only
  refine MovesOut.fault ?_
  try with_reducible refine MovesOut.next ?_
  repeat' first
    | with_reducible assumption | exact Part.sub_trans rfl hl | with_reducible apply advance_moves
    | with_reducible apply Moves.onSeq | with_reducible apply Moves.ite

theorem execPowerFault_moves {pl : List Part} {z : State} (t : Nat) (pg : Nat) {s : State}
    (hz : Moves pl z s)
    (hl : Part.sub [.clock, .mode, .halWaitMs, .seq, .aon, .pins, .start, .cal, .flash, .host, .evt, .saf, .ctl, .pwr, .xpt, .cue, .red, .eth, .tim, .lane, .flow, .fst, .cmp, .aud, .out, .image] pl = true := by first | rfl | exact Part.sub_trans rfl (by assumption)) :
    MovesOut pl z (execPowerFault t pg s) := by
  unfold execPowerFault
  try dsimp only
  refine MovesOut.fault ?_
  try with_reducible refine MovesOut.next ?_
  repeat' first
    | with_reducible assumption | exact Part.sub_trans rfl hl | with_reducible apply advance_moves
    | with_reducible apply powerFault_moves | with_reducible apply Moves.ite
    | (split <;> try dsimp only)

theorem execPowerFaultRestart_moves {pl : List Part} {z : State} (t : Nat) {s : State}
    (hz : Moves pl z s)
    (hl : Part.sub [.clock, .seq, .out] pl = true := by first | rfl | exact Part.sub_trans rfl (by assumption)) :
    MovesOut pl z (execPowerFaultRestart t s) := by
  exact .ite (startSequence_moves (advance_moves t hz)) (advance_moves t hz)

theorem execRstNLow_moves {pl : List Part} {z : State} (t : Nat) {s : State}
    (hz : Moves pl z s)
    (hl : Part.sub [.clock, .mode, .halWaitMs, .seq, .aon, .pins, .start, .cal, .flash, .host, .evt, .saf, .ctl, .pwr, .xpt, .cue, .red, .eth, .tim, .lane, .flow, .fst, .cmp, .aud, .out, .image] pl = true := by first | rfl | exact Part.sub_trans rfl (by assumption)) :
    MovesOut pl z (execRstNLow t s) := by
  unfold execRstNLow
  try dsimp only
  try with_reducible refine MovesOut.next ?_
  repeat' first
    | with_reducible assumption | exact Part.sub_trans rfl hl | with_reducible apply advance_moves
    | with_reducible apply takeT1_moves | with_reducible apply Moves.onPins
    | with_reducible apply startSequence_moves | with_reducible apply Moves.ite

theorem execRstNRelease_moves {pl : List Part} {z : State} (t : Nat) (straps : Straps) {s : State}
    (hz : Moves pl z s)
    (hl : Part.sub [.clock, .seq, .aon, .pins, .start, .saf, .out] pl = true := by first | rfl | exact Part.sub_trans rfl (by assumption)) :
    MovesOut pl z (execRstNRelease t straps s) := by
  unfold execRstNRelease
  try dsimp only
  try with_reducible refine MovesOut.next ?_
  repeat' first
    | with_reducible assumption | exact Part.sub_trans rfl hl | with_reducible apply advance_moves
    | with_reducible apply Moves.onPins | with_reducible apply startSequence_moves
    | with_reducible apply Moves.onSeq | with_reducible apply takeT0_moves | with_reducible apply Moves.ite

theorem execPairRoleTest_moves {pl : List Part} {z : State} (t : Nat) (up : Bool) (down : Bool) {s : State}
    (hz : Moves pl z s)
    (hl : Part.sub [.clock, .pins] pl = true := by first | rfl | exact Part.sub_trans rfl (by assumption)) :
    MovesOut pl z (execPairRoleTest t up down s) := by
  unfold execPairRoleTest
  try dsimp only
  try with_reducible refine MovesOut.next ?_
  repeat' first
    | with_reducible assumption | exact Part.sub_trans rfl hl | with_reducible apply advance_moves
    | with_reducible apply Moves.onPins | with_reducible apply Moves.ite

theorem execPllLocked_moves {pl : List Part} {z : State} (t : Nat) (romStep : Nat) {s : State}
    (hz : Moves pl z s)
    (hl : Part.sub [.clock, .seq, .aon, .start, .tim] pl = true := by first | rfl | exact Part.sub_trans rfl (by assumption)) :
    MovesOut pl z (execPllLocked t romStep s) := by
  unfold execPllLocked
  try dsimp only
  try with_reducible refine MovesOut.next ?_
  repeat' first
    | with_reducible assumption | exact Part.sub_trans rfl hl | with_reducible apply advance_moves
    | with_reducible apply Moves.onSeq | with_reducible apply Moves.onStart
    | with_reducible apply timeRestore_moves | with_reducible apply Moves.onAon
    | with_reducible apply Moves.ite

theorem execClkWaitRetry_moves {pl : List Part} {z : State} (t : Nat) {s : State}
    (hz : Moves pl z s)
    (hl : Part.sub [.clock, .seq] pl = true := by first | rfl | exact Part.sub_trans rfl (by assumption)) :
    MovesOut pl z (execClkWaitRetry t s) := by
  unfold execClkWaitRetry
  try dsimp only
  try with_reducible refine MovesOut.next ?_
  repeat' first
    | with_reducible assumption | exact Part.sub_trans rfl hl | with_reducible apply advance_moves
    | with_reducible apply Moves.onSeq | with_reducible apply Moves.ite
    | (split <;> try dsimp only)

theorem execImageSelection_moves {pl : List Part} {z : State} (t : Nat) (badParity : Bool) {s : State}
    (hz : Moves pl z s)
    (hl : Part.sub [.clock, .mode, .halWaitMs, .aon, .pins, .start, .cal, .flash, .host, .evt, .saf, .ctl, .pwr, .xpt, .cue, .red, .eth, .tim, .lane, .flow, .fst, .cmp, .aud, .out, .image] pl = true := by first | rfl | exact Part.sub_trans rfl (by assumption)) :
    MovesOut pl z (execImageSelection t badParity s) := by
  unfold execImageSelection
  try dsimp only
  try with_reducible refine MovesOut.next ?_
  repeat' first
    | with_reducible assumption | exact Part.sub_trans rfl hl | with_reducible apply advance_moves
    | with_reducible apply tryImage_moves | with_reducible apply bootSlot_moves
    | with_reducible apply takeT1Start_moves | with_reducible apply enterRecovery_moves
    | with_reducible apply selectImage_moves | with_reducible apply Moves.ite

theorem execProcessorAlive_moves {pl : List Part} {z : State} (t : Nat) (proc : Nat) {s : State}
    (hz : Moves pl z s)
    (hl : Part.sub [.clock, .mode, .fuses, .aon, .pins, .start, .cal, .flash, .host, .evt, .saf, .pwr, .xpt, .cue, .red, .tim, .lane, .flow, .cmp, .aud, .out] pl = true := by first | rfl | exact Part.sub_trans rfl (by assumption)) :
    MovesOut pl z (execProcessorAlive t proc s) := by
  unfold execProcessorAlive
  try dsimp only
  refine MovesOut.fault ?_
  try with_reducible refine MovesOut.next ?_
  repeat' first
    | with_reducible assumption | exact Part.sub_trans rfl hl | with_reducible apply advance_moves
    | with_reducible apply Moves.onStart | with_reducible apply setSafePins_moves
    | with_reducible apply Moves.onSaf | with_reducible apply takeT17_moves | with_reducible apply takeT2_moves
    | with_reducible apply raiseFloor_moves | with_reducible apply releaseNext_moves
    | with_reducible apply Moves.ite

theorem execAliveTimeout_moves {pl : List Part} {z : State} (t : Nat) (proc : Nat) {s : State}
    (hz : Moves pl z s)
    (hl : Part.sub [.clock, .mode, .halWaitMs, .aon, .pins, .start, .cal, .flash, .host, .evt, .saf, .ctl, .pwr, .xpt, .cue, .red, .eth, .tim, .lane, .flow, .fst, .cmp, .aud, .out, .image] pl = true := by first | rfl | exact Part.sub_trans rfl (by assumption)) :
    MovesOut pl z (execAliveTimeout t proc s) := by
  unfold execAliveTimeout
  try dsimp only
  refine MovesOut.fault ?_
  try with_reducible refine MovesOut.next ?_
  repeat' first
    | with_reducible assumption | exact Part.sub_trans rfl hl | with_reducible apply advance_moves
    | with_reducible apply rejectBooted_moves | with_reducible apply Moves.ite

theorem execLaneWaitExpired_moves {pl : List Part} {z : State} (t : Nat) {s : State}
    (hz : Moves pl z s)
    (hl : Part.sub [.clock, .mode, .aon, .pins, .start, .cal, .flash, .host, .evt, .pwr, .xpt, .cue, .red, .lane, .flow, .cmp, .aud, .out] pl = true := by first | rfl | exact Part.sub_trans rfl (by assumption)) :
    MovesOut pl z (execLaneWaitExpired t s) := by
  unfold execLaneWaitExpired
  try dsimp only
  try with_reducible refine MovesOut.next ?_
  repeat' first
    | with_reducible assumption | exact Part.sub_trans rfl hl | with_reducible apply advance_moves
    | with_reducible apply calProgress_moves | with_reducible apply Moves.onCal
    | with_reducible apply Moves.ite

theorem execHbmTrainingDone_moves {pl : List Part} {z : State} (t : Nat) (failed : Option Nat) {s : State}
    (hz : Moves pl z s)
    (hl : Part.sub [.clock, .mode, .aon, .pins, .start, .cal, .flash, .host, .evt, .pwr, .xpt, .cue, .red, .lane, .flow, .cmp, .aud, .out] pl = true := by first | rfl | exact Part.sub_trans rfl (by assumption)) :
    MovesOut pl z (execHbmTrainingDone t failed s) := by
  unfold execHbmTrainingDone
  try dsimp only
  try with_reducible refine MovesOut.next ?_
  repeat' first
    | with_reducible assumption | exact Part.sub_trans rfl hl | with_reducible apply advance_moves
    | with_reducible apply calProgress_moves | with_reducible apply Moves.onCal
    | with_reducible apply calFail_moves | with_reducible apply Moves.ite
    | (split <;> try dsimp only)

theorem execModeHalWaitExpired_moves {pl : List Part} {z : State} (t : Nat) {s : State}
    (hz : Moves pl z s)
    (hl : Part.sub [.clock, .mode, .aon, .pins, .start, .flash, .host, .evt, .pwr, .xpt, .cue, .red, .lane, .flow, .cmp, .aud, .out] pl = true := by first | rfl | exact Part.sub_trans rfl (by assumption)) :
    MovesOut pl z (execModeHalWaitExpired t s) := by
  unfold execModeHalWaitExpired
  try dsimp only
  try with_reducible refine MovesOut.next ?_
  repeat' first
    | with_reducible assumption | exact Part.sub_trans rfl hl | with_reducible apply advance_moves
    | with_reducible apply transition_moves | with_reducible apply Moves.ite
    | (split <;> try dsimp only)

end Sys2Proof.Machine
end

