-- ==== Sys2Proof/Laws/MovesStore.lean ====
section
/-! SUPPORT. What each operation and command of `Machine/Store.lean` moves. -/

-- The package is checked as one text; elaborating these proofs in order keeps the number of threads small.
set_option Elab.async false

namespace Sys2Proof.Machine

theorem effFstZoneSet_moves {pl : List Part} {z : State} {s : State} (c : HostCmd)
    (hz : Moves pl z s)
    (hl : Part.sub [.fst] pl = true := by first | rfl | exact Part.sub_trans rfl (by assumption)) :
    Moves pl z (effFstZoneSet s c).1 := by
  unfold effFstZoneSet
  try dsimp only
  repeat' first
    | with_reducible assumption | exact Part.sub_trans rfl hl
    | (with_reducible refine Moves.onFstMem ?_ _ (fun _ => rfl) ?_)

theorem clearForCreate_moves {pl : List Part} {z : State} (n : Nat) {s : State}
    (hz : Moves pl z s)
    (hl : Part.sub [.fst] pl = true := by first | rfl | exact Part.sub_trans rfl (by assumption)) :
    Moves pl z (clearForCreate n s) := by
  unfold clearForCreate
  try dsimp only
  repeat' first
    | with_reducible assumption | exact Part.sub_trans rfl hl | with_reducible apply modObj_moves
    | with_reducible apply Moves.ite

theorem createVersion_moves {pl : List Part} {z : State} (n : Nat) (kind : Nat) (zone : Nat) (format : Nat) (length : Nat) (crc : Nat) (width : Nat) (height : Nat) {s : State}
    (hz : Moves pl z s)
    (hl : Part.sub [.mode, .aon, .pins, .start, .flash, .host, .evt, .pwr, .xpt, .cue, .red, .lane, .flow, .fst, .cmp, .aud, .out] pl = true := by first | rfl | exact Part.sub_trans rfl (by assumption)) :
    Moves pl z (createVersion n kind zone format length crc width height s) := by
  unfold createVersion
  try dsimp only
  repeat' first
    | with_reducible assumption | exact Part.sub_trans rfl hl | with_reducible apply clearForCreate_moves
    | with_reducible apply modObj_moves | with_reducible apply modeDecision_moves
    | with_reducible apply Moves.ite

theorem writeLoading_moves {pl : List Part} {z : State} (n : Nat) (off : Nat) (data : List Byte) {s : State}
    (hz : Moves pl z s)
    (hl : Part.sub [.fst] pl = true := by first | rfl | exact Part.sub_trans rfl (by assumption)) :
    Moves pl z (writeLoading n off data s) := by
  unfold writeLoading
  try dsimp only
  repeat' first
    | with_reducible assumption | exact Part.sub_trans rfl hl | with_reducible apply zoneWriteAt_moves
    | with_reducible apply modObj_moves
    | (split <;> try dsimp only)

theorem loadValid_moves {pl : List Part} {z : State} (n : Nat) (v : Version) {s : State}
    (hz : Moves pl z s)
    (hl : Part.sub [.mode, .aon, .pins, .start, .flash, .host, .evt, .pwr, .xpt, .cue, .red, .lane, .flow, .fst, .cmp, .aud, .out] pl = true := by first | rfl | exact Part.sub_trans rfl (by assumption)) :
    Moves pl z (loadValid n v s) := by
  unfold loadValid
  try dsimp only
  repeat' first
    | with_reducible assumption | exact Part.sub_trans rfl hl | with_reducible apply retire_moves
    | with_reducible apply modObj_moves | with_reducible apply modComp_moves
    | with_reducible apply modeDecision_moves | with_reducible apply Moves.ite
    | (with_reducible apply Moves.foldl; intro _ _ _)
    | (split <;> try dsimp only)

theorem loadFails_moves {pl : List Part} {z : State} (n : Nat) {s : State}
    (hz : Moves pl z s)
    (hl : Part.sub [.fst] pl = true := by first | rfl | exact Part.sub_trans rfl (by assumption)) :
    Moves pl z (loadFails n s) := by
  unfold loadFails
  try dsimp only
  repeat' first
    | with_reducible assumption | exact Part.sub_trans rfl hl | with_reducible apply tidyObj_moves
    | with_reducible apply modObj_moves

theorem endLoading_moves {pl : List Part} {z : State} (n : Nat) (data : List Byte) (mapOf : State → Version → List Bool) (gate : State → Version → Bool) {s : State}
    (hz : Moves pl z s)
    (hl : Part.sub [.mode, .aon, .pins, .start, .flash, .host, .evt, .pwr, .xpt, .cue, .red, .lane, .flow, .fst, .cmp, .aud, .out] pl = true := by first | rfl | exact Part.sub_trans rfl (by assumption)) :
    Moves pl z (endLoading n data mapOf gate s).1 := by
  unfold endLoading
  try dsimp only
  repeat' first
    | with_reducible assumption | exact Part.sub_trans rfl hl | with_reducible apply loadFails_moves
    | with_reducible apply loadValid_moves | with_reducible apply Moves.ite
    | with_reducible apply Moves.ite_fst
    | (split <;> try dsimp only)

theorem objWriteEffect_moves {pl : List Part} {z : State} (w : ObjWrite) (prot : Bool) (mapOf : State → Version → List Bool) {s : State}
    (hz : Moves pl z s)
    (hl : Part.sub [.mode, .aon, .pins, .start, .flash, .host, .evt, .pwr, .xpt, .cue, .red, .lane, .flow, .fst, .cmp, .aud, .out] pl = true := by first | rfl | exact Part.sub_trans rfl (by assumption)) :
    Moves pl z (objWriteEffect w prot mapOf s).1 := by
  unfold objWriteEffect
  try dsimp only
  repeat' first
    | with_reducible assumption | exact Part.sub_trans rfl hl | with_reducible apply createVersion_moves
    | with_reducible apply modObj_moves | with_reducible apply writeLoading_moves
    | with_reducible apply endLoading_moves | with_reducible apply Moves.ite
    | with_reducible apply Moves.ite_fst

theorem effFstObjWrite_moves {pl : List Part} {z : State} {s : State} (c : HostCmd)
    (hz : Moves pl z s)
    (hl : Part.sub [.mode, .aon, .pins, .start, .flash, .host, .evt, .pwr, .xpt, .cue, .red, .lane, .flow, .fst, .cmp, .aud, .out] pl = true := by first | rfl | exact Part.sub_trans rfl (by assumption)) :
    Moves pl z (effFstObjWrite s c).1 := by
  unfold effFstObjWrite
  try dsimp only
  repeat' first
    | with_reducible assumption | exact Part.sub_trans rfl hl | with_reducible apply objWriteEffect_moves

theorem effFstObjRead_moves {pl : List Part} {z : State} {s : State} (c : HostCmd)
    (hz : Moves pl z s)
    (hl : Part.sub [.flash, .evt, .fst] pl = true := by first | rfl | exact Part.sub_trans rfl (by assumption)) :
    Moves pl z (effFstObjRead s c).1 := by
  unfold effFstObjRead
  try dsimp only
  repeat' first
    | with_reducible assumption | exact Part.sub_trans rfl hl | with_reducible apply serviceRead_moves
    | (split <;> try dsimp only)

theorem freeObject_moves {pl : List Part} {z : State} (n : Nat) {s : State}
    (hz : Moves pl z s)
    (hl : Part.sub [.mode, .aon, .pins, .start, .flash, .host, .evt, .pwr, .xpt, .cue, .red, .lane, .flow, .fst, .cmp, .aud, .out] pl = true := by first | rfl | exact Part.sub_trans rfl (by assumption)) :
    Moves pl z (freeObject n s) := by
  unfold freeObject
  try dsimp only
  repeat' first
    | with_reducible assumption | exact Part.sub_trans rfl hl | with_reducible apply retire_moves
    | with_reducible apply raise_moves | with_reducible apply fstCount_moves
    | with_reducible apply tidyObj_moves | with_reducible apply modObj_moves
    | with_reducible apply modeDecision_moves | with_reducible apply Moves.ite
    | (split <;> try dsimp only)

theorem effFstObjFree_moves {pl : List Part} {z : State} {s : State} (c : HostCmd)
    (hz : Moves pl z s)
    (hl : Part.sub [.mode, .aon, .pins, .start, .flash, .host, .evt, .pwr, .xpt, .cue, .red, .lane, .flow, .fst, .cmp, .aud, .out] pl = true := by first | rfl | exact Part.sub_trans rfl (by assumption)) :
    Moves pl z (effFstObjFree s c).1 := by
  unfold effFstObjFree
  try dsimp only
  repeat' first
    | with_reducible assumption | exact Part.sub_trans rfl hl | with_reducible apply freeObject_moves

theorem effFstBankStatus_moves {pl : List Part} {z : State} {s : State} (c : HostCmd)
    (hz : Moves pl z s) :
    Moves pl z (effFstBankStatus s c).1 := by
  unfold effFstBankStatus
  try dsimp only
  repeat' first
    | with_reducible assumption | exact Part.sub_trans rfl hl

theorem effFstInvalidClear_moves {pl : List Part} {z : State} {s : State} (c : HostCmd)
    (hz : Moves pl z s)
    (hl : Part.sub [.mode, .aon, .pins, .start, .flash, .host, .evt, .pwr, .xpt, .cue, .red, .lane, .flow, .fst, .cmp, .aud, .out] pl = true := by first | rfl | exact Part.sub_trans rfl (by assumption)) :
    Moves pl z (effFstInvalidClear s c).1 := by
  unfold effFstInvalidClear
  try dsimp only
  repeat' first
    | with_reducible assumption | exact Part.sub_trans rfl hl | with_reducible apply tidyObj_moves
    | with_reducible apply modObj_moves | with_reducible apply modeDecision_moves
    | (with_reducible apply Moves.foldl; intro _ _ _)

theorem effFstRetainSet_moves {pl : List Part} {z : State} {s : State} (c : HostCmd)
    (hz : Moves pl z s)
    (hl : Part.sub [.aon] pl = true := by first | rfl | exact Part.sub_trans rfl (by assumption)) :
    Moves pl z (effFstRetainSet s c).1 := by
  unfold effFstRetainSet
  try dsimp only
  repeat' first
    | with_reducible assumption | exact Part.sub_trans rfl hl | with_reducible apply Moves.onAon

theorem scrubPassEnd_moves {pl : List Part} {z : State} {s : State}
    (hz : Moves pl z s)
    (hl : Part.sub [.flash, .evt, .fst] pl = true := by first | rfl | exact Part.sub_trans rfl (by assumption)) :
    Moves pl z (scrubPassEnd s) := by
  unfold scrubPassEnd
  dsimp only
  with_reducible refine Moves.onFstMem (Moves.ite (raise_moves _ _ _ _ _ ?_) ?_) _ ?_
  · with_reducible exact raise_moves _ _ _ _ _ (fstCount_moves _ _ hz)
  · with_reducible exact raise_moves _ _ _ _ _ (fstCount_moves _ _ hz)
  · exact fun _ => rfl

theorem storedBurst_moves {pl : List Part} {z : State} (q : Confirm) (fails : List Nat) (hard : Bool) {s : State}
    (hz : Moves pl z s)
    (hl : Part.sub [.mode, .aon, .pins, .start, .flash, .host, .evt, .saf, .pwr, .xpt, .cue, .red, .lane, .flow, .fst, .cmp, .aud, .out] pl = true := by first | rfl | exact Part.sub_trans rfl (by assumption)) :
    Moves pl z (storedBurst q fails hard s) := by
  unfold storedBurst
  try dsimp only
  repeat' first
    | with_reducible assumption | exact Part.sub_trans rfl hl | with_reducible apply modPc_moves
    | (with_reducible refine Moves.onFstMem ?_ _ (fun _ => rfl) ?_) | with_reducible apply storedError_moves
    | with_reducible apply raiseStoreParity_moves | with_reducible apply invalidate_moves
    | with_reducible apply writePiece_moves | with_reducible apply chipFault_moves
    | with_reducible apply fstCount_moves | with_reducible apply Moves.ite
    | (split <;> try dsimp only)

theorem writeSchedCfg_moves {pl : List Part} {z : State} (v : Nat) {s : State}
    (hz : Moves pl z s)
    (hl : Part.sub [.fst] pl = true := by first | rfl | exact Part.sub_trans rfl (by assumption)) :
    Moves pl z (writeSchedCfg v s) := by
  unfold writeSchedCfg
  try dsimp only
  repeat' first
    | with_reducible assumption | exact Part.sub_trans rfl hl
    | (with_reducible refine Moves.onFstMem ?_ _ (fun _ => rfl) ?_)

theorem writeScrubCfg_moves {pl : List Part} {z : State} (v : Nat) {s : State}
    (hz : Moves pl z s)
    (hl : Part.sub [.fst] pl = true := by first | rfl | exact Part.sub_trans rfl (by assumption)) :
    Moves pl z (writeScrubCfg v s) := by
  unfold writeScrubCfg
  try dsimp only
  repeat' first
    | with_reducible assumption | exact Part.sub_trans rfl hl
    | (with_reducible refine Moves.onFstMem ?_ _ (fun _ => rfl) ?_)

theorem execFstZoneSet_moves {pl : List Part} {z : State} (t : Nat) (c : HostCmd) {s : State}
    (hz : Moves pl z s)
    (hl : Part.sub [.clock, .flash, .host, .evt, .red, .fst, .out] pl = true := by first | rfl | exact Part.sub_trans rfl (by assumption)) :
    MovesOut pl z (execFstZoneSet t c s) := by
  exact runCommand_moves _ _ _ _ _ hz (fun _ h => effFstZoneSet_moves _ h)

theorem execFstObjWrite_moves {pl : List Part} {z : State} (t : Nat) (c : HostCmd) {s : State}
    (hz : Moves pl z s)
    (hl : Part.sub [.clock, .mode, .aon, .pins, .start, .flash, .host, .evt, .pwr, .xpt, .cue, .red, .lane, .flow, .fst, .cmp, .aud, .out] pl = true := by first | rfl | exact Part.sub_trans rfl (by assumption)) :
    MovesOut pl z (execFstObjWrite t c s) := by
  exact runCommand_moves _ _ _ _ _ hz (fun _ h => effFstObjWrite_moves _ h)

theorem execFstObjRead_moves {pl : List Part} {z : State} (t : Nat) (c : HostCmd) {s : State}
    (hz : Moves pl z s)
    (hl : Part.sub [.clock, .flash, .host, .evt, .red, .fst, .out] pl = true := by first | rfl | exact Part.sub_trans rfl (by assumption)) :
    MovesOut pl z (execFstObjRead t c s) := by
  exact runCommand_moves _ _ _ _ _ hz (fun _ h => effFstObjRead_moves _ h)

theorem execFstObjFree_moves {pl : List Part} {z : State} (t : Nat) (c : HostCmd) {s : State}
    (hz : Moves pl z s)
    (hl : Part.sub [.clock, .mode, .aon, .pins, .start, .flash, .host, .evt, .pwr, .xpt, .cue, .red, .lane, .flow, .fst, .cmp, .aud, .out] pl = true := by first | rfl | exact Part.sub_trans rfl (by assumption)) :
    MovesOut pl z (execFstObjFree t c s) := by
  exact runCommand_moves _ _ _ _ _ hz (fun _ h => effFstObjFree_moves _ h)

theorem execFstBankStatus_moves {pl : List Part} {z : State} (t : Nat) (c : HostCmd) {s : State}
    (hz : Moves pl z s)
    (hl : Part.sub [.clock, .flash, .host, .evt, .red, .out] pl = true := by first | rfl | exact Part.sub_trans rfl (by assumption)) :
    MovesOut pl z (execFstBankStatus t c s) := by
  exact runCommand_moves _ _ _ _ _ hz (fun _ h => effFstBankStatus_moves _ h)

theorem execFstInvalidClear_moves {pl : List Part} {z : State} (t : Nat) (c : HostCmd) {s : State}
    (hz : Moves pl z s)
    (hl : Part.sub [.clock, .mode, .aon, .pins, .start, .flash, .host, .evt, .pwr, .xpt, .cue, .red, .lane, .flow, .fst, .cmp, .aud, .out] pl = true := by first | rfl | exact Part.sub_trans rfl (by assumption)) :
    MovesOut pl z (execFstInvalidClear t c s) := by
  exact runCommand_moves _ _ _ _ _ hz (fun _ h => effFstInvalidClear_moves _ h)

theorem execFstRetainSet_moves {pl : List Part} {z : State} (t : Nat) (c : HostCmd) {s : State}
    (hz : Moves pl z s)
    (hl : Part.sub [.clock, .aon, .flash, .host, .evt, .red, .out] pl = true := by first | rfl | exact Part.sub_trans rfl (by assumption)) :
    MovesOut pl z (execFstRetainSet t c s) := by
  exact runCommand_moves _ _ _ _ _ hz (fun _ h => effFstRetainSet_moves _ h)

theorem execObjectLoadTimeout_moves {pl : List Part} {z : State} (t : Nat) (n : Nat) {s : State}
    (hz : Moves pl z s)
    (hl : Part.sub [.clock, .fst] pl = true := by first | rfl | exact Part.sub_trans rfl (by assumption)) :
    MovesOut pl z (execObjectLoadTimeout t n s) := by
  unfold execObjectLoadTimeout
  try dsimp only
  refine MovesOut.fault ?_
  try with_reducible refine MovesOut.next ?_
  repeat' first
    | with_reducible assumption | exact Part.sub_trans rfl hl | with_reducible apply advance_moves
    | with_reducible apply loadFails_moves | with_reducible apply Moves.ite
    | (split <;> try dsimp only)

theorem execObjectReferencerMove_moves {pl : List Part} {z : State} (t : Nat) (obj : Nat) (kind : Nat) (index : Nat) {s : State}
    (hz : Moves pl z s)
    (hl : Part.sub [.clock, .fst] pl = true := by first | rfl | exact Part.sub_trans rfl (by assumption)) :
    MovesOut pl z (execObjectReferencerMove t obj kind index s) := by
  unfold execObjectReferencerMove
  try dsimp only
  refine MovesOut.fault ?_
  try with_reducible refine MovesOut.next ?_
  repeat' first
    | with_reducible assumption | exact Part.sub_trans rfl hl | with_reducible apply advance_moves
    | with_reducible apply referencerMoves_moves | with_reducible apply Moves.ite

theorem execBankReinit_moves {pl : List Part} {z : State} (t : Nat) (g : Nat) (ok : Bool) {s : State}
    (hz : Moves pl z s)
    (hl : Part.sub [.clock, .mode, .aon, .pins, .start, .cal, .flash, .host, .evt, .pwr, .xpt, .cue, .red, .lane, .flow, .fst, .cmp, .aud, .out] pl = true := by first | rfl | exact Part.sub_trans rfl (by assumption)) :
    MovesOut pl z (execBankReinit t g ok s) := by
  unfold execBankReinit
  refine MovesOut.fault (.ite (advance_moves t hz) (.ite ?_ (calFail_moves _ _ (advance_moves t hz))))
  refine modeDecision_moves (raise_moves _ _ _ _ _ ?_)
  exact (advance_moves t hz).onFst _ (fun h => memClear_wf _ _ h)

theorem execScrubRead_moves {pl : List Part} {z : State} (t : Nat) (pc : Nat) (bank : Nat) (row : Nat) (col : Nat) (raw : Option (List Byte × Word)) {s : State}
    (hz : Moves pl z s)
    (hl : Part.sub [.clock, .flash, .evt, .fst] pl = true := by first | rfl | exact Part.sub_trans rfl (by assumption)) :
    MovesOut pl z (execScrubRead t pc bank row col raw s) := by
  unfold execScrubRead
  try dsimp only
  refine MovesOut.fault ?_
  try with_reducible refine MovesOut.next ?_
  repeat' first
    | with_reducible assumption | exact Part.sub_trans rfl hl | with_reducible apply advance_moves
    | with_reducible apply touchPc_moves | with_reducible apply addConfirm_moves
    | (with_reducible refine Moves.onFstMem ?_ _ (fun _ => rfl) ?_) | with_reducible apply scrubPassEnd_moves
    | with_reducible apply Moves.ite

theorem execConfirmingRead_moves {pl : List Part} {z : State} (t : Nat) (pc : Nat) (bank : Nat) (row : Nat) (col : Nat) (raw : Option (List Byte × Word)) (hard : Bool) {s : State}
    (hz : Moves pl z s)
    (hl : Part.sub [.clock, .mode, .aon, .pins, .start, .flash, .host, .evt, .saf, .pwr, .xpt, .cue, .red, .lane, .flow, .fst, .cmp, .aud, .out] pl = true := by first | rfl | exact Part.sub_trans rfl (by assumption)) :
    MovesOut pl z (execConfirmingRead t pc bank row col raw hard s) := by
  unfold execConfirmingRead
  try dsimp only
  refine MovesOut.fault ?_
  try with_reducible refine MovesOut.next ?_
  repeat' first
    | with_reducible assumption | exact Part.sub_trans rfl hl | with_reducible apply advance_moves
    | (with_reducible refine Moves.onFstMem ?_ _ (fun _ => rfl) ?_) | with_reducible apply touchPc_moves
    | with_reducible apply fstCount_moves | with_reducible apply storedBurst_moves
    | with_reducible apply storePcFault_moves | with_reducible apply Moves.ite
    | (split <;> try dsimp only)

theorem execPcReadTimeout_moves {pl : List Part} {z : State} (t : Nat) (pc : Nat) {s : State}
    (hz : Moves pl z s)
    (hl : Part.sub [.clock, .mode, .aon, .pins, .start, .flash, .host, .evt, .saf, .pwr, .xpt, .cue, .red, .lane, .flow, .fst, .cmp, .aud, .out] pl = true := by first | rfl | exact Part.sub_trans rfl (by assumption)) :
    MovesOut pl z (execPcReadTimeout t pc s) := by
  unfold execPcReadTimeout
  try dsimp only
  refine MovesOut.fault ?_
  try with_reducible refine MovesOut.next ?_
  repeat' first
    | with_reducible assumption | exact Part.sub_trans rfl hl | with_reducible apply storePcFault_moves
    | with_reducible apply advance_moves | with_reducible apply Moves.ite

theorem execBankRefresh_moves {pl : List Part} {z : State} (t : Nat) (pc : Nat) (bank : Nat) {s : State}
    (hz : Moves pl z s)
    (hl : Part.sub [.clock, .fst] pl = true := by first | rfl | exact Part.sub_trans rfl (by assumption)) :
    MovesOut pl z (execBankRefresh t pc bank s) := by
  unfold execBankRefresh
  try dsimp only
  refine MovesOut.fault ?_
  try with_reducible refine MovesOut.next ?_
  repeat' first
    | with_reducible assumption | exact Part.sub_trans rfl hl | with_reducible apply advance_moves
    | with_reducible apply modPc_moves | with_reducible apply Moves.ite

theorem execStackTemperatureChange_moves {pl : List Part} {z : State} (t : Nat) (stack : Nat) (celsius : Int) {s : State}
    (hz : Moves pl z s)
    (hl : Part.sub [.clock, .fst] pl = true := by first | rfl | exact Part.sub_trans rfl (by assumption)) :
    MovesOut pl z (execStackTemperatureChange t stack celsius s) := by
  unfold execStackTemperatureChange
  try dsimp only
  refine MovesOut.fault ?_
  try with_reducible refine MovesOut.next ?_
  repeat' first
    | with_reducible assumption | exact Part.sub_trans rfl hl | with_reducible apply advance_moves
    | with_reducible apply modPc_moves | with_reducible apply Moves.ite
    | (with_reducible apply Moves.foldl; intro _ _ _)

theorem execPageIdleExpired_moves {pl : List Part} {z : State} (t : Nat) (pc : Nat) (bank : Nat) {s : State}
    (hz : Moves pl z s)
    (hl : Part.sub [.clock, .fst] pl = true := by first | rfl | exact Part.sub_trans rfl (by assumption)) :
    MovesOut pl z (execPageIdleExpired t pc bank s) := by
  unfold execPageIdleExpired
  try dsimp only
  refine MovesOut.fault ?_
  try with_reducible refine MovesOut.next ?_
  repeat' first
    | with_reducible assumption | exact Part.sub_trans rfl hl | with_reducible apply advance_moves
    | with_reducible apply modPc_moves | with_reducible apply Moves.ite
    | (split <;> try dsimp only)

theorem execSelfRefreshEntry_moves {pl : List Part} {z : State} (t : Nat) (pc : Nat) {s : State}
    (hz : Moves pl z s)
    (hl : Part.sub [.clock, .fst] pl = true := by first | rfl | exact Part.sub_trans rfl (by assumption)) :
    MovesOut pl z (execSelfRefreshEntry t pc s) := by
  unfold execSelfRefreshEntry
  try dsimp only
  refine MovesOut.fault ?_
  try with_reducible refine MovesOut.next ?_
  repeat' first
    | with_reducible assumption | exact Part.sub_trans rfl hl | with_reducible apply advance_moves
    | with_reducible apply fstCount_moves | with_reducible apply modPc_moves | with_reducible apply Moves.ite

theorem execWriteDrain_moves {pl : List Part} {z : State} (t : Nat) (pc : Nat) (forwarded : Nat) {s : State}
    (hz : Moves pl z s)
    (hl : Part.sub [.clock, .fst] pl = true := by first | rfl | exact Part.sub_trans rfl (by assumption)) :
    MovesOut pl z (execWriteDrain t pc forwarded s) := by
  unfold execWriteDrain
  try dsimp only
  refine MovesOut.fault ?_
  try with_reducible refine MovesOut.next ?_
  repeat' first
    | with_reducible assumption | exact Part.sub_trans rfl hl | with_reducible apply advance_moves
    | with_reducible apply fstCount_moves | with_reducible apply modPc_moves | with_reducible apply Moves.ite

theorem execMemoryInitDone_moves {pl : List Part} {z : State} (t : Nat) (failed : Option (Nat × Nat)) {s : State}
    (hz : Moves pl z s)
    (hl : Part.sub [.clock, .mode, .aon, .pins, .start, .cal, .flash, .host, .evt, .pwr, .xpt, .cue, .red, .lane, .flow, .fst, .cmp, .aud, .out] pl = true := by first | rfl | exact Part.sub_trans rfl (by assumption)) :
    MovesOut pl z (execMemoryInitDone t failed s) := by
  unfold execMemoryInitDone
  refine MovesOut.next (.ite (advance_moves t hz) ?_)
  split
  · exact calFail_moves _ _ (advance_moves t hz)
  · refine calProgress_moves (.onCal ?_ _)
    exact (advance_moves t hz).onFst _ (fun h => memWf_filter _ h)

end Sys2Proof.Machine
end

