-- ==== Sys2Proof/Laws/MovesLane.lean ====
section
/-! SUPPORT. What each operation and command of `Machine/Lane.lean` moves. -/

-- The package is checked as one text; elaborating these proofs in order keeps the number of threads small.
set_option Elab.async false

namespace Sys2Proof.Machine

theorem raiseMismatch_moves {pl : List Part} {z : State} (k : Nat) (state : Nat) (received : Nat) {s : State}
    (hz : Moves pl z s)
    (hl : Part.sub [.flash, .evt, .lane] pl = true := by first | rfl | exact Part.sub_trans rfl (by assumption)) :
    Moves pl z (raiseMismatch k state received s) := by
  unfold raiseMismatch
  try dsimp only
  repeat' first
    | with_reducible assumption | exact Part.sub_trans rfl hl | with_reducible apply raise_moves
    | with_reducible apply expectMap_moves

theorem clearMismatch_moves {pl : List Part} {z : State} (k : Nat) {s : State}
    (hz : Moves pl z s)
    (hl : Part.sub [.flash, .evt, .lane] pl = true := by first | rfl | exact Part.sub_trans rfl (by assumption)) :
    Moves pl z (clearMismatch k s) := by
  unfold clearMismatch
  try dsimp only
  repeat' first
    | with_reducible assumption | exact Part.sub_trans rfl hl | with_reducible apply raiseMismatch_moves
    | with_reducible apply modRx_moves | with_reducible apply Moves.ite

theorem writeRxCfg_moves {pl : List Part} {z : State} (k : Nat) (v : Nat) {s : State}
    (hz : Moves pl z s)
    (hl : Part.sub [.flash, .evt, .lane, .flow] pl = true := by first | rfl | exact Part.sub_trans rfl (by assumption)) :
    Moves pl z (writeRxCfg k v s) := by
  unfold writeRxCfg
  try dsimp only
  repeat' first
    | with_reducible assumption | exact Part.sub_trans rfl hl | with_reducible apply modRx_moves
    | with_reducible apply expectMap_moves | with_reducible apply clearMismatch_moves
    | with_reducible apply loseLock_moves | with_reducible apply startReceive_moves
    | with_reducible apply Moves.ite

theorem writeTxCfg_moves {pl : List Part} {z : State} (k : Nat) (v : Nat) {s : State}
    (hz : Moves pl z s)
    (hl : Part.sub [.lane] pl = true := by first | rfl | exact Part.sub_trans rfl (by assumption)) :
    Moves pl z (writeTxCfg k v s) := by
  unfold writeTxCfg
  try dsimp only
  repeat' first
    | with_reducible assumption | exact Part.sub_trans rfl hl | with_reducible apply modTx_moves
    | with_reducible apply reseed_moves | with_reducible apply Moves.ite

theorem writeTxTag_moves {pl : List Part} {z : State} (k : Nat) (v : Nat) {s : State}
    (hz : Moves pl z s)
    (hl : Part.sub [.lane] pl = true := by first | rfl | exact Part.sub_trans rfl (by assumption)) :
    Moves pl z (writeTxTag k v s) := by
  unfold writeTxTag
  try dsimp only
  repeat' first
    | with_reducible assumption | exact Part.sub_trans rfl hl | with_reducible apply modTx_moves

theorem effLaneStatus_moves {pl : List Part} {z : State} {s : State} (c : HostCmd)
    (hz : Moves pl z s) :
    Moves pl z (effLaneStatus s c).1 := by
  unfold effLaneStatus
  try dsimp only
  repeat' first
    | with_reducible assumption | exact Part.sub_trans rfl hl

theorem effLaneConfig_moves {pl : List Part} {z : State} {s : State} (c : HostCmd)
    (hz : Moves pl z s)
    (hl : Part.sub [.flash, .evt, .lane, .flow] pl = true := by first | rfl | exact Part.sub_trans rfl (by assumption)) :
    Moves pl z (effLaneConfig s c).1 := by
  unfold effLaneConfig
  try dsimp only
  repeat' first
    | with_reducible assumption | exact Part.sub_trans rfl hl | with_reducible apply writeRxCfg_moves
    | with_reducible apply writeTxCfg_moves | with_reducible apply writeTxTag_moves
    | with_reducible apply Moves.ite | with_reducible apply Moves.ite_fst

theorem startChecker_moves {pl : List Part} {z : State} (k : Nat) (pattern : Nat) {s : State}
    (hz : Moves pl z s)
    (hl : Part.sub [.flash, .evt, .lane, .flow] pl = true := by first | rfl | exact Part.sub_trans rfl (by assumption)) :
    Moves pl z (startChecker k pattern s) := by
  unfold startChecker
  try dsimp only
  repeat' first
    | with_reducible assumption | exact Part.sub_trans rfl hl | with_reducible apply loseLock_moves
    | with_reducible apply raiseTest_moves | with_reducible apply modRx_moves

theorem effLanePrbs_moves {pl : List Part} {z : State} {s : State} (c : HostCmd)
    (hz : Moves pl z s)
    (hl : Part.sub [.flash, .evt, .lane, .flow] pl = true := by first | rfl | exact Part.sub_trans rfl (by assumption)) :
    Moves pl z (effLanePrbs s c).1 := by
  unfold effLanePrbs
  try dsimp only
  repeat' first
    | with_reducible assumption | exact Part.sub_trans rfl hl | with_reducible apply stopChecker_moves
    | with_reducible apply startChecker_moves | with_reducible apply stopGenerator_moves
    | with_reducible apply raiseTest_moves | with_reducible apply modTx_moves | with_reducible apply Moves.ite
    | with_reducible apply Moves.ite_fst

theorem effLaneLoop_moves {pl : List Part} {z : State} {s : State} (c : HostCmd)
    (hz : Moves pl z s)
    (hl : Part.sub [.flash, .evt, .lane, .flow] pl = true := by first | rfl | exact Part.sub_trans rfl (by assumption)) :
    Moves pl z (effLaneLoop s c).1 := by
  unfold effLaneLoop
  try dsimp only
  repeat' first
    | with_reducible assumption | exact Part.sub_trans rfl hl | with_reducible apply stopLoops_moves
    | with_reducible apply raiseTest_moves | with_reducible apply modTx_moves
    | with_reducible apply loseLock_moves | with_reducible apply Moves.ite | with_reducible apply Moves.ite_fst

theorem effLaneErrInject_moves {pl : List Part} {z : State} {s : State} (c : HostCmd)
    (hz : Moves pl z s)
    (hl : Part.sub [.flash, .evt, .lane] pl = true := by first | rfl | exact Part.sub_trans rfl (by assumption)) :
    Moves pl z (effLaneErrInject s c).1 := by
  unfold effLaneErrInject
  try dsimp only
  repeat' first
    | with_reducible assumption | exact Part.sub_trans rfl hl | with_reducible apply raiseTest_moves
    | with_reducible apply modTx_moves

theorem effLaneCounters_moves {pl : List Part} {z : State} {s : State} (c : HostCmd)
    (hz : Moves pl z s) :
    Moves pl z (effLaneCounters s c).1 := by
  unfold effLaneCounters
  try dsimp only
  repeat' first
    | with_reducible assumption | exact Part.sub_trans rfl hl

theorem gainBlockLock_moves {pl : List Part} {z : State} (k : Nat) {s : State}
    (hz : Moves pl z s)
    (hl : Part.sub [.mode, .aon, .pins, .start, .cal, .flash, .host, .evt, .pwr, .xpt, .cue, .red, .lane, .flow, .cmp, .aud, .out] pl = true := by first | rfl | exact Part.sub_trans rfl (by assumption)) :
    Moves pl z (gainBlockLock k s) := by
  unfold gainBlockLock
  try dsimp only
  repeat' first
    | with_reducible assumption | exact Part.sub_trans rfl hl | with_reducible apply modRx_moves
    | with_reducible apply calProgress_moves | with_reducible apply Moves.onCal
    | with_reducible apply Moves.ite

theorem gainPennantLock_moves {pl : List Part} {z : State} (k : Nat) {s : State}
    (hz : Moves pl z s)
    (hl : Part.sub [.flash, .evt, .lane] pl = true := by first | rfl | exact Part.sub_trans rfl (by assumption)) :
    Moves pl z (gainPennantLock k s) := by
  unfold gainPennantLock
  try dsimp only
  repeat' first
    | with_reducible assumption | exact Part.sub_trans rfl hl | with_reducible apply raise_moves
    | with_reducible apply modRx_moves

theorem losePennantLock_moves {pl : List Part} {z : State} (k : Nat) {s : State}
    (hz : Moves pl z s)
    (hl : Part.sub [.flash, .evt, .lane, .flow] pl = true := by first | rfl | exact Part.sub_trans rfl (by assumption)) :
    Moves pl z (losePennantLock k s) := by
  unfold losePennantLock
  try dsimp only
  repeat' first
    | with_reducible assumption | exact Part.sub_trans rfl hl | with_reducible apply raiseLockLost_moves
    | with_reducible apply laneCount_moves | with_reducible apply laneStops_moves
    | with_reducible apply modRx_moves

theorem takeIdent_moves {pl : List Part} {z : State} (k : Nat) (content : List Byte) {s : State}
    (hz : Moves pl z s)
    (hl : Part.sub [.flash, .evt, .lane] pl = true := by first | rfl | exact Part.sub_trans rfl (by assumption)) :
    Moves pl z (takeIdent k content s) := by
  unfold takeIdent
  try dsimp only
  repeat' first
    | with_reducible assumption | exact Part.sub_trans rfl hl | with_reducible apply modRx_moves
    | with_reducible apply raise_moves | with_reducible apply Moves.ite

theorem takeMap_moves {pl : List Part} {z : State} (k : Nat) (content : List Byte) {s : State}
    (hz : Moves pl z s)
    (hl : Part.sub [.flash, .evt, .lane, .flow] pl = true := by first | rfl | exact Part.sub_trans rfl (by assumption)) :
    Moves pl z (takeMap k content s) := by
  unfold takeMap
  try dsimp only
  repeat' first
    | with_reducible assumption | exact Part.sub_trans rfl hl | with_reducible apply modRx_moves
    | with_reducible apply raiseMismatch_moves | with_reducible apply laneCount_moves
    | with_reducible apply laneStops_moves | with_reducible apply Moves.ite

theorem applyPennant_moves {pl : List Part} {z : State} (k : Nat) (b : List Byte) {s : State}
    (hz : Moves pl z s)
    (hl : Part.sub [.flash, .evt, .lane, .flow] pl = true := by first | rfl | exact Part.sub_trans rfl (by assumption)) :
    Moves pl z (applyPennant k b s) := by
  unfold applyPennant
  try dsimp only
  repeat' first
    | with_reducible assumption | exact Part.sub_trans rfl hl | with_reducible apply modRx_moves
    | with_reducible apply takeIdent_moves | with_reducible apply takeMap_moves
    | with_reducible apply laneCount_moves
    | (split <;> try dsimp only)

theorem takePennant_moves {pl : List Part} {z : State} (k : Nat) (b : List Byte) {s : State}
    (hz : Moves pl z s)
    (hl : Part.sub [.flash, .evt, .lane, .flow] pl = true := by first | rfl | exact Part.sub_trans rfl (by assumption)) :
    Moves pl z (takePennant k b s) := by
  unfold takePennant
  try dsimp only
  repeat' first
    | with_reducible assumption | exact Part.sub_trans rfl hl | with_reducible apply applyPennant_moves
    | with_reducible apply modRx_moves | with_reducible apply laneCount_moves
    | with_reducible apply losePennantLock_moves | with_reducible apply gainPennantLock_moves
    | with_reducible apply Moves.ite

theorem dataPosition_moves {pl : List Part} {z : State} (k : Nat) (header : Nat) (b : List Byte) {s : State}
    (hz : Moves pl z s)
    (hl : Part.sub [.lane] pl = true := by first | rfl | exact Part.sub_trans rfl (by assumption)) :
    Moves pl z (dataPosition k header b s) := by
  unfold dataPosition
  try dsimp only
  repeat' first
    | with_reducible assumption | exact Part.sub_trans rfl hl | with_reducible apply laneCount_moves
    | with_reducible apply Moves.ite

theorem placeBlock_moves {pl : List Part} {z : State} (k : Nat) (header : Nat) (b : List Byte) {s : State}
    (hz : Moves pl z s)
    (hl : Part.sub [.flash, .evt, .lane, .flow] pl = true := by first | rfl | exact Part.sub_trans rfl (by assumption)) :
    Moves pl z (placeBlock k header b s) := by
  unfold placeBlock
  try dsimp only
  repeat' first
    | with_reducible assumption | exact Part.sub_trans rfl hl | with_reducible apply modRx_moves
    | with_reducible apply takePennant_moves | with_reducible apply dataPosition_moves
    | with_reducible apply Moves.ite

theorem checkPrbs_moves {pl : List Part} {z : State} (k : Nat) (errs : Nat) {s : State}
    (hz : Moves pl z s)
    (hl : Part.sub [.lane] pl = true := by first | rfl | exact Part.sub_trans rfl (by assumption)) :
    Moves pl z (checkPrbs k errs s) := by
  unfold checkPrbs
  try dsimp only
  repeat' first
    | with_reducible assumption | exact Part.sub_trans rfl hl | with_reducible apply modRx_moves
    | with_reducible apply laneCount_moves | with_reducible apply Moves.ite

theorem huntBlock_moves {pl : List Part} {z : State} (k : Nat) (valid : Bool) {s : State}
    (hz : Moves pl z s)
    (hl : Part.sub [.mode, .aon, .pins, .start, .cal, .flash, .host, .evt, .pwr, .xpt, .cue, .red, .lane, .flow, .cmp, .aud, .out] pl = true := by first | rfl | exact Part.sub_trans rfl (by assumption)) :
    Moves pl z (huntBlock k valid s) := by
  unfold huntBlock
  try dsimp only
  repeat' first
    | with_reducible assumption | exact Part.sub_trans rfl hl | with_reducible apply modRx_moves
    | with_reducible apply gainBlockLock_moves | with_reducible apply Moves.ite

theorem loseBlockLock_moves {pl : List Part} {z : State} (k : Nat) (cause : Nat) {s : State}
    (hz : Moves pl z s)
    (hl : Part.sub [.flash, .evt, .lane, .flow] pl = true := by first | rfl | exact Part.sub_trans rfl (by assumption)) :
    Moves pl z (loseBlockLock k cause s) := by
  unfold loseBlockLock
  try dsimp only
  repeat' first
    | with_reducible assumption | exact Part.sub_trans rfl hl | with_reducible apply loseLock_moves

theorem lockedBlock_moves {pl : List Part} {z : State} (k : Nat) (header : Nat) (b : List Byte) (valid : Bool) {s : State}
    (hz : Moves pl z s)
    (hl : Part.sub [.flash, .evt, .lane, .flow] pl = true := by first | rfl | exact Part.sub_trans rfl (by assumption)) :
    Moves pl z (lockedBlock k header b valid s) := by
  unfold lockedBlock
  try dsimp only
  repeat' first
    | with_reducible assumption | exact Part.sub_trans rfl hl | with_reducible apply laneCount_moves
    | with_reducible apply modRx_moves | with_reducible apply loseBlockLock_moves
    | with_reducible apply placeBlock_moves | with_reducible apply Moves.ite

theorem raiseBer_moves {pl : List Part} {z : State} (k : Nat) (state : Nat) {s : State}
    (hz : Moves pl z s)
    (hl : Part.sub [.flash, .evt] pl = true := by first | rfl | exact Part.sub_trans rfl (by assumption)) :
    Moves pl z (raiseBer k state s) := by
  unfold raiseBer
  try dsimp only
  repeat' first
    | with_reducible assumption | exact Part.sub_trans rfl hl | with_reducible apply raise_moves

theorem execLaneStatus_moves {pl : List Part} {z : State} (t : Nat) (c : HostCmd) {s : State}
    (hz : Moves pl z s)
    (hl : Part.sub [.clock, .flash, .host, .evt, .red, .out] pl = true := by first | rfl | exact Part.sub_trans rfl (by assumption)) :
    MovesOut pl z (execLaneStatus t c s) := by
  exact runCommand_moves _ _ _ _ _ hz (fun _ h => effLaneStatus_moves _ h)

theorem execLaneConfig_moves {pl : List Part} {z : State} (t : Nat) (c : HostCmd) {s : State}
    (hz : Moves pl z s)
    (hl : Part.sub [.clock, .flash, .host, .evt, .red, .lane, .flow, .out] pl = true := by first | rfl | exact Part.sub_trans rfl (by assumption)) :
    MovesOut pl z (execLaneConfig t c s) := by
  exact runCommand_moves _ _ _ _ _ hz (fun _ h => effLaneConfig_moves _ h)

theorem execLanePrbs_moves {pl : List Part} {z : State} (t : Nat) (c : HostCmd) {s : State}
    (hz : Moves pl z s)
    (hl : Part.sub [.clock, .flash, .host, .evt, .red, .lane, .flow, .out] pl = true := by first | rfl | exact Part.sub_trans rfl (by assumption)) :
    MovesOut pl z (execLanePrbs t c s) := by
  exact runCommand_moves _ _ _ _ _ hz (fun _ h => effLanePrbs_moves _ h)

theorem execLaneLoop_moves {pl : List Part} {z : State} (t : Nat) (c : HostCmd) {s : State}
    (hz : Moves pl z s)
    (hl : Part.sub [.clock, .flash, .host, .evt, .red, .lane, .flow, .out] pl = true := by first | rfl | exact Part.sub_trans rfl (by assumption)) :
    MovesOut pl z (execLaneLoop t c s) := by
  exact runCommand_moves _ _ _ _ _ hz (fun _ h => effLaneLoop_moves _ h)

theorem execLaneErrInject_moves {pl : List Part} {z : State} (t : Nat) (c : HostCmd) {s : State}
    (hz : Moves pl z s)
    (hl : Part.sub [.clock, .flash, .host, .evt, .red, .lane, .out] pl = true := by first | rfl | exact Part.sub_trans rfl (by assumption)) :
    MovesOut pl z (execLaneErrInject t c s) := by
  exact runCommand_moves _ _ _ _ _ hz (fun _ h => effLaneErrInject_moves _ h)

theorem execErrorInjection_moves {pl : List Part} {z : State} (t : Nat) (k : Nat) {s : State}
    (hz : Moves pl z s)
    (hl : Part.sub [.clock, .flash, .evt, .lane, .out] pl = true := by first | rfl | exact Part.sub_trans rfl (by assumption)) :
    MovesOut pl z (execErrorInjection t k s) := by
  unfold execErrorInjection
  try dsimp only
  refine MovesOut.fault ?_
  try with_reducible refine MovesOut.next ?_
  repeat' first
    | with_reducible assumption | exact Part.sub_trans rfl hl | with_reducible apply advance_moves
    | with_reducible apply emit_moves | with_reducible apply modTx_moves | with_reducible apply raiseTest_moves
    | with_reducible apply Moves.ite
    | (split <;> try dsimp only)

theorem execLaneCounters_moves {pl : List Part} {z : State} (t : Nat) (c : HostCmd) {s : State}
    (hz : Moves pl z s)
    (hl : Part.sub [.clock, .flash, .host, .evt, .red, .out] pl = true := by first | rfl | exact Part.sub_trans rfl (by assumption)) :
    MovesOut pl z (execLaneCounters t c s) := by
  exact runCommand_moves _ _ _ _ _ hz (fun _ h => effLaneCounters_moves _ h)

theorem execLaneSignalLost_moves {pl : List Part} {z : State} (t : Nat) (k : Nat) {s : State}
    (hz : Moves pl z s)
    (hl : Part.sub [.clock, .flash, .evt, .lane, .flow] pl = true := by first | rfl | exact Part.sub_trans rfl (by assumption)) :
    MovesOut pl z (execLaneSignalLost t k s) := by
  unfold execLaneSignalLost
  try dsimp only
  refine MovesOut.fault ?_
  try with_reducible refine MovesOut.next ?_
  repeat' first
    | with_reducible assumption | exact Part.sub_trans rfl hl | with_reducible apply advance_moves
    | with_reducible apply Moves.onLane | with_reducible apply modRx_moves
    | with_reducible apply laneCount_moves | with_reducible apply loseLock_moves
    | with_reducible apply Moves.ite

theorem execLaneSignalReturn_moves {pl : List Part} {z : State} (t : Nat) (k : Nat) {s : State}
    (hz : Moves pl z s)
    (hl : Part.sub [.clock, .lane] pl = true := by first | rfl | exact Part.sub_trans rfl (by assumption)) :
    MovesOut pl z (execLaneSignalReturn t k s) := by
  unfold execLaneSignalReturn
  try dsimp only
  refine MovesOut.fault ?_
  try with_reducible refine MovesOut.next ?_
  repeat' first
    | with_reducible assumption | exact Part.sub_trans rfl hl | with_reducible apply advance_moves
    | with_reducible apply Moves.onLane | with_reducible apply modRx_moves | with_reducible apply Moves.ite

theorem execCtleSweepDone_moves {pl : List Part} {z : State} (t : Nat) (k : Nat) (eyes : List Nat) {s : State}
    (hz : Moves pl z s)
    (hl : Part.sub [.clock, .lane] pl = true := by first | rfl | exact Part.sub_trans rfl (by assumption)) :
    MovesOut pl z (execCtleSweepDone t k eyes s) := by
  unfold execCtleSweepDone
  try dsimp only
  refine MovesOut.fault ?_
  try with_reducible refine MovesOut.next ?_
  repeat' first
    | with_reducible assumption | exact Part.sub_trans rfl hl | with_reducible apply advance_moves
    | with_reducible apply modRx_moves | with_reducible apply Moves.ite

theorem execCtleTrack_moves {pl : List Part} {z : State} (t : Nat) (k : Nat) (below : Nat) (here : Nat) (above : Nat) {s : State}
    (hz : Moves pl z s)
    (hl : Part.sub [.clock, .lane] pl = true := by first | rfl | exact Part.sub_trans rfl (by assumption)) :
    MovesOut pl z (execCtleTrack t k below here above s) := by
  unfold execCtleTrack
  try dsimp only
  refine MovesOut.fault ?_
  try with_reducible refine MovesOut.next ?_
  repeat' first
    | with_reducible assumption | exact Part.sub_trans rfl hl | with_reducible apply advance_moves
    | with_reducible apply modRx_moves | with_reducible apply Moves.ite

theorem execPennantReceived_moves {pl : List Part} {z : State} (t : Nat) (k : Nat) (bytes : List Byte) {s : State}
    (hz : Moves pl z s)
    (hl : Part.sub [.clock, .flash, .evt, .lane, .flow] pl = true := by first | rfl | exact Part.sub_trans rfl (by assumption)) :
    MovesOut pl z (execPennantReceived t k bytes s) := by
  unfold execPennantReceived
  try dsimp only
  refine MovesOut.fault ?_
  try with_reducible refine MovesOut.next ?_
  repeat' first
    | with_reducible assumption | exact Part.sub_trans rfl hl | with_reducible apply advance_moves
    | with_reducible apply takePennant_moves | with_reducible apply Moves.ite

theorem execLaneBlockReceived_moves {pl : List Part} {z : State} (t : Nat) (k : Nat) (header : Nat) (bytes : List Byte) (errs : Nat) {s : State}
    (hz : Moves pl z s)
    (hl : Part.sub [.clock, .mode, .aon, .pins, .start, .cal, .flash, .host, .evt, .pwr, .xpt, .cue, .red, .lane, .flow, .cmp, .aud, .out] pl = true := by first | rfl | exact Part.sub_trans rfl (by assumption)) :
    MovesOut pl z (execLaneBlockReceived t k header bytes errs s) := by
  unfold execLaneBlockReceived
  try dsimp only
  refine MovesOut.fault ?_
  try with_reducible refine MovesOut.next ?_
  repeat' first
    | with_reducible assumption | exact Part.sub_trans rfl hl | with_reducible apply advance_moves
    | with_reducible apply checkPrbs_moves | with_reducible apply huntBlock_moves
    | with_reducible apply lockedBlock_moves | with_reducible apply Moves.ite
    | (split <;> try dsimp only)

theorem execBlockLockGained_moves {pl : List Part} {z : State} (t : Nat) (k : Nat) {s : State}
    (hz : Moves pl z s)
    (hl : Part.sub [.clock, .mode, .aon, .pins, .start, .cal, .flash, .host, .evt, .pwr, .xpt, .cue, .red, .lane, .flow, .cmp, .aud, .out] pl = true := by first | rfl | exact Part.sub_trans rfl (by assumption)) :
    MovesOut pl z (execBlockLockGained t k s) := by
  unfold execBlockLockGained
  try dsimp only
  refine MovesOut.fault ?_
  try with_reducible refine MovesOut.next ?_
  repeat' first
    | with_reducible assumption | exact Part.sub_trans rfl hl | with_reducible apply advance_moves
    | with_reducible apply gainBlockLock_moves | with_reducible apply Moves.ite

theorem execBlockLockLost_moves {pl : List Part} {z : State} (t : Nat) (k : Nat) {s : State}
    (hz : Moves pl z s)
    (hl : Part.sub [.clock, .flash, .evt, .lane, .flow] pl = true := by first | rfl | exact Part.sub_trans rfl (by assumption)) :
    MovesOut pl z (execBlockLockLost t k s) := by
  unfold execBlockLockLost
  try dsimp only
  refine MovesOut.fault ?_
  try with_reducible refine MovesOut.next ?_
  repeat' first
    | with_reducible assumption | exact Part.sub_trans rfl hl | with_reducible apply advance_moves
    | with_reducible apply loseBlockLock_moves | with_reducible apply Moves.ite

theorem execBerInterval_moves {pl : List Part} {z : State} (t : Nat) (k : Nat) (more : Nat) {s : State}
    (hz : Moves pl z s)
    (hl : Part.sub [.clock, .flash, .evt, .lane] pl = true := by first | rfl | exact Part.sub_trans rfl (by assumption)) :
    MovesOut pl z (execBerInterval t k more s) := by
  unfold execBerInterval
  try dsimp only
  refine MovesOut.fault ?_
  try with_reducible refine MovesOut.next ?_
  repeat' first
    | with_reducible assumption | exact Part.sub_trans rfl hl | with_reducible apply advance_moves
    | with_reducible apply laneCount_moves | with_reducible apply modRx_moves
    | with_reducible apply raiseBer_moves | with_reducible apply Moves.ite

theorem execRxFifoOverflow_moves {pl : List Part} {z : State} (t : Nat) (k : Nat) {s : State}
    (hz : Moves pl z s)
    (hl : Part.sub [.clock, .flash, .evt, .lane, .flow] pl = true := by first | rfl | exact Part.sub_trans rfl (by assumption)) :
    MovesOut pl z (execRxFifoOverflow t k s) := by
  unfold execRxFifoOverflow
  try dsimp only
  refine MovesOut.fault ?_
  try with_reducible refine MovesOut.next ?_
  repeat' first
    | with_reducible assumption | exact Part.sub_trans rfl hl | with_reducible apply advance_moves
    | with_reducible apply loseBlockLock_moves | with_reducible apply Moves.ite

theorem execPennantLockGained_moves {pl : List Part} {z : State} (t : Nat) (k : Nat) {s : State}
    (hz : Moves pl z s)
    (hl : Part.sub [.clock, .flash, .evt, .lane] pl = true := by first | rfl | exact Part.sub_trans rfl (by assumption)) :
    MovesOut pl z (execPennantLockGained t k s) := by
  unfold execPennantLockGained
  try dsimp only
  refine MovesOut.fault ?_
  try with_reducible refine MovesOut.next ?_
  repeat' first
    | with_reducible assumption | exact Part.sub_trans rfl hl | with_reducible apply advance_moves
    | with_reducible apply gainPennantLock_moves | with_reducible apply Moves.ite

theorem execPennantLockLost_moves {pl : List Part} {z : State} (t : Nat) (k : Nat) {s : State}
    (hz : Moves pl z s)
    (hl : Part.sub [.clock, .flash, .evt, .lane, .flow] pl = true := by first | rfl | exact Part.sub_trans rfl (by assumption)) :
    MovesOut pl z (execPennantLockLost t k s) := by
  unfold execPennantLockLost
  try dsimp only
  refine MovesOut.fault ?_
  try with_reducible refine MovesOut.next ?_
  repeat' first
    | with_reducible assumption | exact Part.sub_trans rfl hl | with_reducible apply advance_moves
    | with_reducible apply losePennantLock_moves | with_reducible apply Moves.ite

theorem execPennantTransmit_moves {pl : List Part} {z : State} (t : Nat) (k : Nat) {s : State}
    (hz : Moves pl z s)
    (hl : Part.sub [.clock, .lane, .out] pl = true := by first | rfl | exact Part.sub_trans rfl (by assumption)) :
    MovesOut pl z (execPennantTransmit t k s) := by
  unfold execPennantTransmit
  try dsimp only
  refine MovesOut.fault ?_
  try with_reducible refine MovesOut.next ?_
  repeat' first
    | with_reducible assumption | exact Part.sub_trans rfl hl | with_reducible apply advance_moves
    | with_reducible apply modTx_moves | with_reducible apply emit_moves | with_reducible apply Moves.ite

end Sys2Proof.Machine
end

