-- ==== Sys2Proof/Laws/MovesFlowRead.lean ====
section
/-! SUPPORT. What each operation and command of `Machine/FlowRead.lean` moves. -/

-- The package is checked as one text; elaborating these proofs in order keeps the number of threads small.
set_option Elab.async false

namespace Sys2Proof.Machine

theorem raiseSrc_moves {pl : List Part} {z : State} (sev : Nat) (code : Nat) (n : Nat) (payload : List Word) {s : State}
    (hz : Moves pl z s)
    (hl : Part.sub [.flash, .evt] pl = true := by first | rfl | exact Part.sub_trans rfl (by assumption)) :
    Moves pl z (raiseSrc sev code n payload s) := by
  unfold raiseSrc
  try dsimp only
  repeat' first
    | with_reducible assumption | exact Part.sub_trans rfl hl | with_reducible apply raise_moves

theorem judgeSize_moves {pl : List Part} {z : State} (n : Nat) (c : Nat) {s : State}
    (hz : Moves pl z s)
    (hl : Part.sub [.flash, .evt, .flow] pl = true := by first | rfl | exact Part.sub_trans rfl (by assumption)) :
    Moves pl z (judgeSize n c s) := by
  unfold judgeSize
  try dsimp only
  repeat' first
    | with_reducible assumption | exact Part.sub_trans rfl hl | with_reducible apply modBuf_moves
    | with_reducible apply raiseSrc_moves | with_reducible apply srcCount_moves
    | with_reducible apply Moves.ite
    | (split <;> try dsimp only)

theorem copyTook_moves {pl : List Part} {z : State} (n : Nat) (c : Nat) {s : State}
    (hz : Moves pl z s)
    (hl : Part.sub [.flash, .evt, .flow] pl = true := by first | rfl | exact Part.sub_trans rfl (by assumption)) :
    Moves pl z (copyTook n c s) := by
  unfold copyTook
  try dsimp only
  repeat' first
    | with_reducible assumption | exact Part.sub_trans rfl hl | with_reducible apply modSrc_moves
    | with_reducible apply raiseSrc_moves | with_reducible apply Moves.ite

theorem copyLate_moves {pl : List Part} {z : State} (n : Nat) (c : Nat) {s : State}
    (hz : Moves pl z s)
    (hl : Part.sub [.flow] pl = true := by first | rfl | exact Part.sub_trans rfl (by assumption)) :
    Moves pl z (copyLate n c s) := by
  unfold copyLate
  try dsimp only
  repeat' first
    | with_reducible assumption | exact Part.sub_trans rfl hl | with_reducible apply srcCount_moves
    | with_reducible apply modSrc_moves

theorem takePhase_moves {pl : List Part} {z : State} (n : Nat) {s : State}
    (hz : Moves pl z s)
    (hl : Part.sub [.flash, .evt, .flow] pl = true := by first | rfl | exact Part.sub_trans rfl (by assumption)) :
    Moves pl z (takePhase n s) := by
  unfold takePhase
  try dsimp only
  repeat' first
    | with_reducible assumption | exact Part.sub_trans rfl hl | with_reducible apply modSrc_moves
    | with_reducible apply setSrcPhase_moves | with_reducible apply Moves.ite

theorem assignBuffer_moves {pl : List Part} {z : State} (n : Nat) (b : FrameBuf) {s : State}
    (hz : Moves pl z s)
    (hl : Part.sub [.flow] pl = true := by first | rfl | exact Part.sub_trans rfl (by assumption)) :
    Moves pl z (assignBuffer n b s) := by
  unfold assignBuffer
  try dsimp only
  repeat' first
    | with_reducible assumption | exact Part.sub_trans rfl hl | with_reducible apply modSrc_moves
    | with_reducible apply srcCount_moves | with_reducible apply Moves.ite
    | (split <;> try dsimp only)

theorem adopt_moves {pl : List Part} {z : State} (n : Nat) (code : Nat) {s : State}
    (hz : Moves pl z s)
    (hl : Part.sub [.flash, .evt, .flow] pl = true := by first | rfl | exact Part.sub_trans rfl (by assumption)) :
    Moves pl z (adopt n code s).1 := by
  unfold adopt
  try dsimp only
  repeat' first
    | with_reducible assumption | exact Part.sub_trans rfl hl | with_reducible apply modSrc_moves
    | with_reducible apply raiseSrc_moves | with_reducible apply failSource_moves
    | with_reducible apply setSrcPhase_moves | with_reducible apply Moves.ite
    | with_reducible apply Moves.ite_fst

theorem groupArrival_moves {pl : List Part} {z : State} (n : Nat) (seq : Nat) {s : State}
    (hz : Moves pl z s)
    (hl : Part.sub [.flash, .evt, .flow] pl = true := by first | rfl | exact Part.sub_trans rfl (by assumption)) :
    Moves pl z (groupArrival n seq s) := by
  unfold groupArrival
  try dsimp only
  repeat' first
    | with_reducible assumption | exact Part.sub_trans rfl hl | with_reducible apply Moves.onFlow
    | with_reducible apply raise_moves | with_reducible apply Moves.ite
    | (with_reducible apply Moves.foldl; intro _ _ _)
    | (split <;> try dsimp only)

theorem leadFrame_moves {pl : List Part} {z : State} (n : Nat) (c : Nat) (seq : Nat) (code : Nat) (marked : Bool) {s : State}
    (hz : Moves pl z s)
    (hl : Part.sub [.flash, .evt, .flow] pl = true := by first | rfl | exact Part.sub_trans rfl (by assumption)) :
    Moves pl z (leadFrame n c seq code marked s) := by
  unfold leadFrame
  try dsimp only
  repeat' first
    | with_reducible assumption | exact Part.sub_trans rfl hl | with_reducible apply copyTook_moves
    | with_reducible apply modSrc_moves | with_reducible apply adopt_moves
    | with_reducible apply takePhase_moves | with_reducible apply assignBuffer_moves
    | with_reducible apply groupArrival_moves | with_reducible apply Moves.ite

theorem joinFrame_moves {pl : List Part} {z : State} (n : Nat) (c : Nat) (seq : Nat) (b : FrameBuf) {s : State}
    (hz : Moves pl z s)
    (hl : Part.sub [.flash, .evt, .flow] pl = true := by first | rfl | exact Part.sub_trans rfl (by assumption)) :
    Moves pl z (joinFrame n c seq b s) := by
  unfold joinFrame
  try dsimp only
  repeat' first
    | with_reducible assumption | exact Part.sub_trans rfl hl | with_reducible apply modSrc_moves
    | with_reducible apply copyTook_moves | with_reducible apply modBuf_moves | with_reducible apply Moves.ite

theorem beginFrame_moves {pl : List Part} {z : State} (n : Nat) (c : Nat) (seq : Nat) (code : Nat) (marked : Bool) {s : State}
    (hz : Moves pl z s)
    (hl : Part.sub [.flash, .evt, .flow] pl = true := by first | rfl | exact Part.sub_trans rfl (by assumption)) :
    Moves pl z (beginFrame n c seq code marked s) := by
  unfold beginFrame
  try dsimp only
  repeat' first
    | with_reducible assumption | exact Part.sub_trans rfl hl | with_reducible apply copyEnds_moves
    | with_reducible apply judgeSize_moves | with_reducible apply raiseSrc_moves
    | with_reducible apply srcCount_moves | with_reducible apply modSrc_moves
    | with_reducible apply joinFrame_moves | with_reducible apply copyLate_moves
    | with_reducible apply leadFrame_moves | with_reducible apply Moves.ite
    | (split <;> try dsimp only)

theorem writeParcels_moves {pl : List Part} {z : State} (n : Nat) (slot : Nat) (data : List Byte) (runs : List (Nat × Nat)) {s : State}
    (hz : Moves pl z s)
    (hl : Part.sub [.fst] pl = true := by first | rfl | exact Part.sub_trans rfl (by assumption)) :
    Moves pl z (writeParcels n slot data runs s) := by
  unfold writeParcels
  try dsimp only
  repeat' first
    | with_reducible assumption | exact Part.sub_trans rfl hl | with_reducible apply zoneWrite_moves
    | (with_reducible apply Moves.foldl; intro _ _ _)

theorem lateInPassThrough_moves {pl : List Part} {z : State} (n : Nat) (b : FrameBuf) (first : Nat) {s : State}
    (hz : Moves pl z s)
    (hl : Part.sub [.flow] pl = true := by first | rfl | exact Part.sub_trans rfl (by assumption)) :
    Moves pl z (lateInPassThrough n b first s) := by
  unfold lateInPassThrough
  try dsimp only
  repeat' first
    | with_reducible assumption | exact Part.sub_trans rfl hl | with_reducible apply srcCount_moves
    | with_reducible apply modSrc_moves | with_reducible apply Moves.ite
    | (split <;> try dsimp only)

theorem takeParcels_moves {pl : List Part} {z : State} (n : Nat) (c : Nat) (seq : Nat) (first : Nat) (count : Nat) (data : List Byte) (clean : Bool) {s : State}
    (hz : Moves pl z s)
    (hl : Part.sub [.flash, .evt, .flow, .fst] pl = true := by first | rfl | exact Part.sub_trans rfl (by assumption)) :
    Moves pl z (takeParcels n c seq first count data clean s) := by
  unfold takeParcels
  try dsimp only
  repeat' first
    | with_reducible assumption | exact Part.sub_trans rfl hl | with_reducible apply lateInPassThrough_moves
    | with_reducible apply modBuf_moves | with_reducible apply writeParcels_moves
    | with_reducible apply srcCount_moves | with_reducible apply raiseSrc_moves
    | with_reducible apply closeIfDone_moves | with_reducible apply Moves.ite
    | (with_reducible apply Moves.foldl; intro _ _ _)
    | (split <;> try dsimp only)

theorem readRepeat_moves {pl : List Part} {z : State} (n : Nat) {s : State}
    (hz : Moves pl z s)
    (hl : Part.sub [.flash, .evt, .flow] pl = true := by first | rfl | exact Part.sub_trans rfl (by assumption)) :
    Moves pl z (readRepeat n s) := by
  unfold readRepeat
  try dsimp only
  repeat' first
    | with_reducible assumption | exact Part.sub_trans rfl hl | with_reducible apply srcCount_moves
    | with_reducible apply modSrc_moves | with_reducible apply setSrcPhase_moves
    | with_reducible apply failSource_moves | with_reducible apply Moves.ite

theorem afterNewFrame_moves {pl : List Part} {z : State} (n : Nat) {s : State}
    (hz : Moves pl z s)
    (hl : Part.sub [.flash, .evt, .flow] pl = true := by first | rfl | exact Part.sub_trans rfl (by assumption)) :
    Moves pl z (afterNewFrame n s) := by
  unfold afterNewFrame
  try dsimp only
  repeat' first
    | with_reducible assumption | exact Part.sub_trans rfl hl | with_reducible apply setSrcPhase_moves
    | with_reducible apply raiseSrc_moves | with_reducible apply modSrc_moves | with_reducible apply Moves.ite

theorem readFrame_moves {pl : List Part} {z : State} (n : Nat) (seq : Nat) {s : State}
    (hz : Moves pl z s)
    (hl : Part.sub [.flash, .evt, .flow] pl = true := by first | rfl | exact Part.sub_trans rfl (by assumption)) :
    Moves pl z (readFrame n seq s) := by
  unfold readFrame
  try dsimp only
  repeat' first
    | with_reducible assumption | exact Part.sub_trans rfl hl | with_reducible apply srcCount_moves
    | with_reducible apply modSrc_moves | with_reducible apply afterNewFrame_moves
    | with_reducible apply Moves.ite

theorem readThrough_moves {pl : List Part} {z : State} (n : Nat) {s : State}
    (hz : Moves pl z s)
    (hl : Part.sub [.flash, .evt, .flow] pl = true := by first | rfl | exact Part.sub_trans rfl (by assumption)) :
    Moves pl z (readThrough n s) := by
  unfold readThrough
  try dsimp only
  repeat' first
    | with_reducible assumption | exact Part.sub_trans rfl hl | with_reducible apply setSrcPhase_moves
    | with_reducible apply modSrc_moves | with_reducible apply Moves.ite

theorem missChoice_moves {pl : List Part} {z : State} (n : Nat) {s : State}
    (hz : Moves pl z s)
    (hl : Part.sub [.flash, .evt, .red, .flow] pl = true := by first | rfl | exact Part.sub_trans rfl (by assumption)) :
    Moves pl z (missChoice n s) := by
  unfold missChoice
  try dsimp only
  repeat' first
    | with_reducible assumption | exact Part.sub_trans rfl hl | with_reducible apply Moves.onRed
    | with_reducible apply raise_moves | with_reducible apply readRepeat_moves | with_reducible apply Moves.ite

theorem readChosen_moves {pl : List Part} {z : State} (n : Nat) (seq : Nat) (through : Bool) {s : State}
    (hz : Moves pl z s)
    (hl : Part.sub [.flash, .evt, .red, .flow] pl = true := by first | rfl | exact Part.sub_trans rfl (by assumption)) :
    Moves pl z (readChosen n seq through s) := by
  unfold readChosen
  try dsimp only
  repeat' first
    | with_reducible assumption | exact Part.sub_trans rfl hl | with_reducible apply Moves.onRed
    | with_reducible apply readRepeat_moves | with_reducible apply missChoice_moves
    | with_reducible apply readFrame_moves | with_reducible apply modBuf_moves | with_reducible apply Moves.ite
    | (split <;> try dsimp only)

theorem readOwn_moves {pl : List Part} {z : State} (n : Nat) {s : State}
    (hz : Moves pl z s)
    (hl : Part.sub [.flash, .evt, .flow] pl = true := by first | rfl | exact Part.sub_trans rfl (by assumption)) :
    Moves pl z (readOwn n s) := by
  unfold readOwn
  try dsimp only
  repeat' first
    | with_reducible assumption | exact Part.sub_trans rfl hl | with_reducible apply readThrough_moves
    | with_reducible apply readRepeat_moves | with_reducible apply readFrame_moves
    | with_reducible apply modBuf_moves | with_reducible apply Moves.ite
    | (split <;> try dsimp only)

theorem readGroup_moves {pl : List Part} {z : State} (g : Nat) {s : State}
    (hz : Moves pl z s)
    (hl : Part.sub [.flash, .evt, .flow] pl = true := by first | rfl | exact Part.sub_trans rfl (by assumption)) :
    Moves pl z (readGroup g s) := by
  unfold readGroup
  try dsimp only
  repeat' first
    | with_reducible assumption | exact Part.sub_trans rfl hl | with_reducible apply readOwn_moves
    | with_reducible apply readRepeat_moves | with_reducible apply raise_moves
    | with_reducible apply readFrame_moves | with_reducible apply Moves.ite
    | (with_reducible apply Moves.foldl; intro _ _ _)
    | (split <;> try dsimp only)

theorem applyCfg_moves {pl : List Part} {z : State} (n : Nat) {s : State}
    (hz : Moves pl z s)
    (hl : Part.sub [.flash, .evt, .flow] pl = true := by first | rfl | exact Part.sub_trans rfl (by assumption)) :
    Moves pl z (applyCfg n s) := by
  unfold applyCfg
  try dsimp only
  repeat' first
    | with_reducible assumption | exact Part.sub_trans rfl hl | with_reducible apply modSrc_moves
    | with_reducible apply setSrcPhase_moves | with_reducible apply Moves.ite
    | (split <;> try dsimp only)

theorem takeChoice_moves {pl : List Part} {z : State} (n : Nat) {s : State}
    (hz : Moves pl z s)
    (hl : Part.sub [.red] pl = true := by first | rfl | exact Part.sub_trans rfl (by assumption)) :
    Moves pl z (takeChoice n s) := by
  unfold takeChoice
  try dsimp only
  repeat' first
    | with_reducible assumption | exact Part.sub_trans rfl hl | with_reducible apply Moves.onRed

theorem readSource_moves {pl : List Part} {z : State} (n : Nat) {s : State}
    (hz : Moves pl z s)
    (hl : Part.sub [.flash, .evt, .red, .flow] pl = true := by first | rfl | exact Part.sub_trans rfl (by assumption)) :
    Moves pl z (readSource n s) := by
  unfold readSource
  try dsimp only
  repeat' first
    | with_reducible assumption | exact Part.sub_trans rfl hl | with_reducible apply readRepeat_moves
    | with_reducible apply readChosen_moves | with_reducible apply takeChoice_moves
    | with_reducible apply missChoice_moves | with_reducible apply readGroup_moves
    | with_reducible apply readOwn_moves | with_reducible apply Moves.ite
    | (split <;> try dsimp only)

theorem execFlowFrameStart_moves {pl : List Part} {z : State} (t : Nat) (n : Nat) (c : Nat) (seq : Nat) (flags : Nat) (format : Nat) (anc : Option (List Byte)) (inferred : Bool) {s : State}
    (hz : Moves pl z s)
    (hl : Part.sub [.clock, .flash, .evt, .flow] pl = true := by first | rfl | exact Part.sub_trans rfl (by assumption)) :
    MovesOut pl z (execFlowFrameStart t n c seq flags format anc inferred s) := by
  unfold execFlowFrameStart
  try dsimp only
  refine MovesOut.fault ?_
  try with_reducible refine MovesOut.next ?_
  repeat' first
    | with_reducible assumption | exact Part.sub_trans rfl hl | with_reducible apply advance_moves
    | with_reducible apply beginFrame_moves | with_reducible apply modSrc_moves
    | with_reducible apply Moves.ite
    | (split <;> try dsimp only)

theorem execFlowParcel_moves {pl : List Part} {z : State} (t : Nat) (n : Nat) (c : Nat) (first : Nat) (count : Nat) (data : List Byte) (parity : Bool) (check : Option Word) {s : State}
    (hz : Moves pl z s)
    (hl : Part.sub [.clock, .flash, .evt, .flow, .fst] pl = true := by first | rfl | exact Part.sub_trans rfl (by assumption)) :
    MovesOut pl z (execFlowParcel t n c first count data parity check s) := by
  unfold execFlowParcel
  try dsimp only
  refine MovesOut.fault ?_
  try with_reducible refine MovesOut.next ?_
  repeat' first
    | with_reducible assumption | exact Part.sub_trans rfl hl | with_reducible apply advance_moves
    | with_reducible apply modSrc_moves | with_reducible apply takeParcels_moves
    | with_reducible apply Moves.ite
    | (split <;> try dsimp only)

theorem execMergeWindowExpired_moves {pl : List Part} {z : State} (t : Nat) (n : Nat) (seq : Nat) {s : State}
    (hz : Moves pl z s)
    (hl : Part.sub [.clock, .flash, .evt, .flow] pl = true := by first | rfl | exact Part.sub_trans rfl (by assumption)) :
    MovesOut pl z (execMergeWindowExpired t n seq s) := by
  unfold execMergeWindowExpired
  try dsimp only
  refine MovesOut.fault ?_
  try with_reducible refine MovesOut.next ?_
  repeat' first
    | with_reducible assumption | exact Part.sub_trans rfl hl | with_reducible apply advance_moves
    | with_reducible apply closeIfDone_moves | with_reducible apply Moves.ite
    | (split <;> try dsimp only)

theorem execCopyLost_moves {pl : List Part} {z : State} (t : Nat) (n : Nat) (c : Nat) {s : State}
    (hz : Moves pl z s)
    (hl : Part.sub [.clock, .flash, .evt, .flow] pl = true := by first | rfl | exact Part.sub_trans rfl (by assumption)) :
    MovesOut pl z (execCopyLost t n c s) := by
  unfold execCopyLost
  try dsimp only
  refine MovesOut.fault ?_
  try with_reducible refine MovesOut.next ?_
  repeat' first
    | with_reducible assumption | exact Part.sub_trans rfl hl | with_reducible apply advance_moves
    | with_reducible apply raiseSrc_moves | with_reducible apply modSrc_moves | with_reducible apply Moves.ite

end Sys2Proof.Machine
end

