-- ==== Sys2Proof/Laws/MovesFlowDef.lean ====
section
/-! SUPPORT. What each operation and command of `Machine/FlowDef.lean` moves. -/

-- The package is checked as one text; elaborating these proofs in order keeps the number of threads small.
set_option Elab.async false

namespace Sys2Proof.Machine

theorem writeSrcCfg_moves {pl : List Part} {z : State} (n : Nat) (v : Nat) {s : State}
    (hz : Moves pl z s)
    (hl : Part.sub [.flow] pl = true := by first | rfl | exact Part.sub_trans rfl (by assumption)) :
    Moves pl z (writeSrcCfg n v s) := by
  unfold writeSrcCfg
  try dsimp only
  repeat' first
    | with_reducible assumption | exact Part.sub_trans rfl hl | with_reducible apply modSrc_moves

theorem writeFlowTp_moves {pl : List Part} {z : State} (p : Nat) (v : Nat) {s : State}
    (hz : Moves pl z s)
    (hl : Part.sub [.flow] pl = true := by first | rfl | exact Part.sub_trans rfl (by assumption)) :
    Moves pl z (writeFlowTp p v s) := by
  unfold writeFlowTp
  try dsimp only
  repeat' first
    | with_reducible assumption | exact Part.sub_trans rfl hl | with_reducible apply Moves.onFlow
    | with_reducible apply Moves.ite

theorem installSource_moves {pl : List Part} {z : State} (n : Nat) (d : SrcDef) (g : SrcCfg) {s : State}
    (hz : Moves pl z s)
    (hl : Part.sub [.flash, .evt, .flow] pl = true := by first | rfl | exact Part.sub_trans rfl (by assumption)) :
    Moves pl z (installSource n d g s) := by
  unfold installSource
  try dsimp only
  repeat' first
    | with_reducible assumption | exact Part.sub_trans rfl hl | with_reducible apply setSrcPhase_moves
    | with_reducible apply modSrc_moves

theorem expectMap_moves {pl : List Part} {z : State} (d : SrcDef) (v : Nat) {s : State}
    (hz : Moves pl z s)
    (hl : Part.sub [.lane] pl = true := by first | rfl | exact Part.sub_trans rfl (by assumption)) :
    Moves pl z (expectMap d v s) := by
  unfold expectMap
  try dsimp only
  repeat' first
    | with_reducible assumption | exact Part.sub_trans rfl hl | with_reducible apply modRx_moves
    | with_reducible apply Moves.ite | (with_reducible apply Moves.foldl; intro _ _ _)

theorem effFlowSrcDefine_moves {pl : List Part} {z : State} {s : State} (c : HostCmd)
    (hz : Moves pl z s)
    (hl : Part.sub [.flash, .evt, .lane, .flow] pl = true := by first | rfl | exact Part.sub_trans rfl (by assumption)) :
    Moves pl z (effFlowSrcDefine s c).1 := by
  unfold effFlowSrcDefine
  try dsimp only
  repeat' first
    | with_reducible assumption | exact Part.sub_trans rfl hl | with_reducible apply expectMap_moves
    | with_reducible apply modSrc_moves | with_reducible apply installSource_moves
    | with_reducible apply Moves.ite | with_reducible apply Moves.ite_fst

theorem newMap_moves {pl : List Part} {z : State} (k : Nat) {s : State}
    (hz : Moves pl z s)
    (hl : Part.sub [.lane] pl = true := by first | rfl | exact Part.sub_trans rfl (by assumption)) :
    Moves pl z (newMap k s) := by
  unfold newMap
  try dsimp only
  repeat' first
    | with_reducible assumption | exact Part.sub_trans rfl hl | with_reducible apply modTx_moves

theorem effFlowDstDefine_moves {pl : List Part} {z : State} {s : State} (c : HostCmd)
    (hz : Moves pl z s)
    (hl : Part.sub [.lane, .flow] pl = true := by first | rfl | exact Part.sub_trans rfl (by assumption)) :
    Moves pl z (effFlowDstDefine s c).1 := by
  unfold effFlowDstDefine
  try dsimp only
  repeat' first
    | with_reducible assumption | exact Part.sub_trans rfl hl | with_reducible apply modDst_moves
    | with_reducible apply newMap_moves | with_reducible apply Moves.ite | with_reducible apply Moves.ite_fst
    | (with_reducible apply Moves.foldl; intro _ _ _)
    | (split <;> try dsimp only)

theorem effFlowDelete_moves {pl : List Part} {z : State} {s : State} (c : HostCmd)
    (hz : Moves pl z s)
    (hl : Part.sub [.flow] pl = true := by first | rfl | exact Part.sub_trans rfl (by assumption)) :
    Moves pl z (effFlowDelete s c).1 := by
  unfold effFlowDelete
  try dsimp only
  repeat' first
    | with_reducible assumption | exact Part.sub_trans rfl hl | with_reducible apply modSrc_moves
    | with_reducible apply modDst_moves | with_reducible apply Moves.ite | with_reducible apply Moves.ite_fst

theorem leaveGroup_moves {pl : List Part} {z : State} (n : Nat) {s : State}
    (hz : Moves pl z s)
    (hl : Part.sub [.flash, .evt, .flow] pl = true := by first | rfl | exact Part.sub_trans rfl (by assumption)) :
    Moves pl z (leaveGroup n s) := by
  unfold leaveGroup
  try dsimp only
  repeat' first
    | with_reducible assumption | exact Part.sub_trans rfl hl | with_reducible apply modSrc_moves
    | with_reducible apply raise_moves | with_reducible apply Moves.onFlow | with_reducible apply Moves.ite
    | (with_reducible apply Moves.foldl; intro _ _ _)
    | (split <;> try dsimp only)

theorem dropSource_moves {pl : List Part} {z : State} (n : Nat) {s : State}
    (hz : Moves pl z s)
    (hl : Part.sub [.flash, .host, .evt, .xpt, .red, .flow, .cmp, .aud, .out] pl = true := by first | rfl | exact Part.sub_trans rfl (by assumption)) :
    Moves pl z (dropSource n s) := by
  unfold dropSource
  try dsimp only
  repeat' first
    | with_reducible assumption | exact Part.sub_trans rfl hl | with_reducible apply leaveGroup_moves
    | with_reducible apply discardEntries_moves | with_reducible apply modSrc_moves
    | with_reducible apply modDst_moves | (with_reducible apply Moves.foldl; intro _ _ _)

theorem landSrcDelete_moves {pl : List Part} {z : State} (n : Nat) {s : State}
    (hz : Moves pl z s)
    (hl : Part.sub [.flash, .host, .evt, .xpt, .red, .flow, .cmp, .aud, .out] pl = true := by first | rfl | exact Part.sub_trans rfl (by assumption)) :
    Moves pl z (landSrcDelete n s) := by
  unfold landSrcDelete
  try dsimp only
  repeat' first
    | with_reducible assumption | exact Part.sub_trans rfl hl | with_reducible apply raise_moves
    | with_reducible apply dropSource_moves | with_reducible apply Moves.ite

theorem landSrcRedefine_moves {pl : List Part} {z : State} (n : Nat) {s : State}
    (hz : Moves pl z s)
    (hl : Part.sub [.flash, .host, .evt, .xpt, .red, .flow, .cmp, .aud, .out] pl = true := by first | rfl | exact Part.sub_trans rfl (by assumption)) :
    Moves pl z (landSrcRedefine n s) := by
  unfold landSrcRedefine
  try dsimp only
  repeat' first
    | with_reducible assumption | exact Part.sub_trans rfl hl | with_reducible apply modSrc_moves
    | with_reducible apply setSrcPhase_moves | with_reducible apply installSource_moves
    | with_reducible apply dropSource_moves | with_reducible apply Moves.ite
    | (split <;> try dsimp only)

theorem ringFailures_moves {pl : List Part} {z : State} (n : Nat) {s : State}
    (hz : Moves pl z s)
    (hl : Part.sub [.flash, .evt, .fst] pl = true := by first | rfl | exact Part.sub_trans rfl (by assumption)) :
    Moves pl z (ringFailures n s) := by
  unfold ringFailures
  try dsimp only
  repeat' first
    | with_reducible assumption | exact Part.sub_trans rfl hl | with_reducible apply serviceFailures_moves
    | with_reducible apply Moves.ite
    | (split <;> try dsimp only)

theorem effFlowGroupSet_moves {pl : List Part} {z : State} {s : State} (c : HostCmd)
    (hz : Moves pl z s)
    (hl : Part.sub [.flash, .evt, .flow] pl = true := by first | rfl | exact Part.sub_trans rfl (by assumption)) :
    Moves pl z (effFlowGroupSet s c).1 := by
  unfold effFlowGroupSet
  try dsimp only
  repeat' first
    | with_reducible assumption | exact Part.sub_trans rfl hl | with_reducible apply modSrc_moves
    | with_reducible apply Moves.onFlow | with_reducible apply raise_moves | with_reducible apply Moves.ite
    | with_reducible apply Moves.ite_fst | (with_reducible apply Moves.foldl; intro _ _ _)

theorem effFlowParkSet_moves {pl : List Part} {z : State} {s : State} (c : HostCmd)
    (hz : Moves pl z s)
    (hl : Part.sub [.flow] pl = true := by first | rfl | exact Part.sub_trans rfl (by assumption)) :
    Moves pl z (effFlowParkSet s c).1 := by
  unfold effFlowParkSet
  try dsimp only
  repeat' first
    | with_reducible assumption | exact Part.sub_trans rfl hl | with_reducible apply modDst_moves

theorem effFlowQuery_moves {pl : List Part} {z : State} {s : State} (c : HostCmd)
    (hz : Moves pl z s) :
    Moves pl z (effFlowQuery s c).1 := by
  unfold effFlowQuery
  try dsimp only
  repeat' first
    | with_reducible assumption | exact Part.sub_trans rfl hl | with_reducible apply Moves.ite
    | with_reducible apply Moves.ite_fst

theorem effFlowAdmitCheck_moves {pl : List Part} {z : State} {s : State} (c : HostCmd)
    (hz : Moves pl z s) :
    Moves pl z (effFlowAdmitCheck s c).1 := by
  unfold effFlowAdmitCheck
  try dsimp only
  repeat' first
    | with_reducible assumption | exact Part.sub_trans rfl hl

theorem execFlowSrcDefine_moves {pl : List Part} {z : State} (t : Nat) (c : HostCmd) {s : State}
    (hz : Moves pl z s)
    (hl : Part.sub [.clock, .flash, .host, .evt, .red, .lane, .flow, .out] pl = true := by first | rfl | exact Part.sub_trans rfl (by assumption)) :
    MovesOut pl z (execFlowSrcDefine t c s) := by
  exact runCommand_moves _ _ _ _ _ hz (fun _ h => effFlowSrcDefine_moves _ h)

theorem execFlowDstDefine_moves {pl : List Part} {z : State} (t : Nat) (c : HostCmd) {s : State}
    (hz : Moves pl z s)
    (hl : Part.sub [.clock, .flash, .host, .evt, .red, .lane, .flow, .out] pl = true := by first | rfl | exact Part.sub_trans rfl (by assumption)) :
    MovesOut pl z (execFlowDstDefine t c s) := by
  exact runCommand_moves _ _ _ _ _ hz (fun _ h => effFlowDstDefine_moves _ h)

theorem execFlowDelete_moves {pl : List Part} {z : State} (t : Nat) (c : HostCmd) {s : State}
    (hz : Moves pl z s)
    (hl : Part.sub [.clock, .flash, .host, .evt, .red, .flow, .out] pl = true := by first | rfl | exact Part.sub_trans rfl (by assumption)) :
    MovesOut pl z (execFlowDelete t c s) := by
  exact runCommand_moves _ _ _ _ _ hz (fun _ h => effFlowDelete_moves _ h)

theorem execSourceDeleteLands_moves {pl : List Part} {z : State} (t : Nat) (n : Nat) {s : State}
    (hz : Moves pl z s)
    (hl : Part.sub [.clock, .flash, .host, .evt, .xpt, .red, .flow, .cmp, .aud, .out] pl = true := by first | rfl | exact Part.sub_trans rfl (by assumption)) :
    MovesOut pl z (execSourceDeleteLands t n s) := by
  unfold execSourceDeleteLands
  try dsimp only
  refine MovesOut.fault ?_
  try with_reducible refine MovesOut.next ?_
  repeat' first
    | with_reducible assumption | exact Part.sub_trans rfl hl | with_reducible apply landSrcDelete_moves
    | with_reducible apply advance_moves | with_reducible apply Moves.ite

theorem execSourceRedefineLands_moves {pl : List Part} {z : State} (t : Nat) (n : Nat) {s : State}
    (hz : Moves pl z s)
    (hl : Part.sub [.clock, .flash, .host, .evt, .xpt, .red, .flow, .cmp, .aud, .out] pl = true := by first | rfl | exact Part.sub_trans rfl (by assumption)) :
    MovesOut pl z (execSourceRedefineLands t n s) := by
  unfold execSourceRedefineLands
  try dsimp only
  refine MovesOut.fault ?_
  try with_reducible refine MovesOut.next ?_
  repeat' first
    | with_reducible assumption | exact Part.sub_trans rfl hl | with_reducible apply landSrcRedefine_moves
    | with_reducible apply advance_moves | with_reducible apply Moves.ite

theorem execReadOutPoint_moves {pl : List Part} {z : State} (t : Nat) (n : Nat) (packets : List AudPacket) {s : State}
    (hz : Moves pl z s)
    (hl : Part.sub [.clock, .flash, .host, .evt, .xpt, .red, .flow, .fst, .cmp, .aud, .out] pl = true := by first | rfl | exact Part.sub_trans rfl (by assumption)) :
    MovesOut pl z (execReadOutPoint t n packets s) := by
  unfold execReadOutPoint
  try dsimp only
  refine MovesOut.fault ?_
  try with_reducible refine MovesOut.next ?_
  repeat' first
    | with_reducible assumption | exact Part.sub_trans rfl hl | with_reducible apply advance_moves
    | with_reducible apply landSrcDelete_moves | with_reducible apply applyCfg_moves
    | with_reducible apply landSrcRedefine_moves | with_reducible apply ringFailures_moves
    | with_reducible apply readAudio_moves | with_reducible apply readSource_moves
    | with_reducible apply Moves.ite

theorem execHoldFramesReached_moves {pl : List Part} {z : State} (t : Nat) (n : Nat) {s : State}
    (hz : Moves pl z s)
    (hl : Part.sub [.clock, .flash, .evt, .flow] pl = true := by first | rfl | exact Part.sub_trans rfl (by assumption)) :
    MovesOut pl z (execHoldFramesReached t n s) := by
  unfold execHoldFramesReached
  try dsimp only
  refine MovesOut.fault ?_
  try with_reducible refine MovesOut.next ?_
  repeat' first
    | with_reducible assumption | exact Part.sub_trans rfl hl | with_reducible apply advance_moves
    | with_reducible apply failSource_moves | with_reducible apply Moves.ite

theorem execFlowSrcCfgWrite_moves {pl : List Part} {z : State} (t : Nat) (n : Nat) (v : Nat) {s : State}
    (hz : Moves pl z s)
    (hl : Part.sub [.clock, .flow] pl = true := by first | rfl | exact Part.sub_trans rfl (by assumption)) :
    MovesOut pl z (execFlowSrcCfgWrite t n v s) := by
  unfold execFlowSrcCfgWrite
  try dsimp only
  refine MovesOut.fault ?_
  try with_reducible refine MovesOut.next ?_
  repeat' first
    | with_reducible assumption | exact Part.sub_trans rfl hl | with_reducible apply writeSrcCfg_moves
    | with_reducible apply advance_moves | with_reducible apply Moves.ite

theorem execFlowTpCfgWrite_moves {pl : List Part} {z : State} (t : Nat) (p : Nat) (v : Nat) {s : State}
    (hz : Moves pl z s)
    (hl : Part.sub [.clock, .flow] pl = true := by first | rfl | exact Part.sub_trans rfl (by assumption)) :
    MovesOut pl z (execFlowTpCfgWrite t p v s) := by
  unfold execFlowTpCfgWrite
  try dsimp only
  refine MovesOut.fault ?_
  try with_reducible refine MovesOut.next ?_
  repeat' first
    | with_reducible assumption | exact Part.sub_trans rfl hl | with_reducible apply writeFlowTp_moves
    | with_reducible apply advance_moves | with_reducible apply Moves.ite

theorem execFlowGroupSet_moves {pl : List Part} {z : State} (t : Nat) (c : HostCmd) {s : State}
    (hz : Moves pl z s)
    (hl : Part.sub [.clock, .flash, .host, .evt, .red, .flow, .out] pl = true := by first | rfl | exact Part.sub_trans rfl (by assumption)) :
    MovesOut pl z (execFlowGroupSet t c s) := by
  exact runCommand_moves _ _ _ _ _ hz (fun _ h => effFlowGroupSet_moves _ h)

theorem execFlowParkSet_moves {pl : List Part} {z : State} (t : Nat) (c : HostCmd) {s : State}
    (hz : Moves pl z s)
    (hl : Part.sub [.clock, .flash, .host, .evt, .red, .flow, .out] pl = true := by first | rfl | exact Part.sub_trans rfl (by assumption)) :
    MovesOut pl z (execFlowParkSet t c s) := by
  exact runCommand_moves _ _ _ _ _ hz (fun _ h => effFlowParkSet_moves _ h)

theorem execFlowQuery_moves {pl : List Part} {z : State} (t : Nat) (c : HostCmd) {s : State}
    (hz : Moves pl z s)
    (hl : Part.sub [.clock, .flash, .host, .evt, .red, .out] pl = true := by first | rfl | exact Part.sub_trans rfl (by assumption)) :
    MovesOut pl z (execFlowQuery t c s) := by
  exact runCommand_moves _ _ _ _ _ hz (fun _ h => effFlowQuery_moves _ h)

theorem execFlowAdmitCheck_moves {pl : List Part} {z : State} (t : Nat) (c : HostCmd) {s : State}
    (hz : Moves pl z s)
    (hl : Part.sub [.clock, .flash, .host, .evt, .red, .out] pl = true := by first | rfl | exact Part.sub_trans rfl (by assumption)) :
    MovesOut pl z (execFlowAdmitCheck t c s) := by
  exact runCommand_moves _ _ _ _ _ hz (fun _ h => effFlowAdmitCheck_moves _ h)

end Sys2Proof.Machine
end

