-- ==== Sys2Proof/Laws/MovesSeal.lean ====
section
/-! SUPPORT. What each operation of `Machine/Seal.lean` moves. -/

-- The package is checked as one text; elaborating these proofs in order keeps the number of threads small.
set_option Elab.async false

namespace Sys2Proof.Machine

theorem makeLate_moves {pl : List Part} {z : State} (lateUs : Nat) (e : Entry) {s : State}
    (hz : Moves pl z s)
    (hl : Part.sub [.flash, .evt, .xpt] pl = true := by first | rfl | exact Part.sub_trans rfl (by assumption)) :
    Moves pl z (makeLate lateUs e s) := by
  unfold makeLate
  try dsimp only
  repeat' first
    | with_reducible assumption | exact Part.sub_trans rfl hl | with_reducible apply raise_moves
    | with_reducible apply xptCount_moves
    | (split <;> try dsimp only)

theorem placeEntries_moves {pl : List Part} {z : State} (es : List Entry) {s : State}
    (hz : Moves pl z s)
    (hl : Part.sub [.flash, .evt, .xpt] pl = true := by first | rfl | exact Part.sub_trans rfl (by assumption)) :
    Moves pl z (placeEntries es s) := by
  unfold placeEntries
  try dsimp only
  repeat' first
    | with_reducible assumption | exact Part.sub_trans rfl hl | with_reducible apply Moves.onXpt
    | with_reducible apply xptCount_moves | with_reducible apply makeLate_moves
    | with_reducible apply raise_moves | with_reducible apply Moves.ite
    | (with_reducible apply Moves.foldl; intro _ _ _)
    | (split <;> try dsimp only)

theorem placeCommand_moves {pl : List Part} {z : State} (op : Op) (c : HostCmd) (wait : Bool) (es : List Entry) {s : State}
    (hz : Moves pl z s)
    (hl : Part.sub [.flash, .evt, .xpt] pl = true := by first | rfl | exact Part.sub_trans rfl (by assumption)) :
    Moves pl z (placeCommand op c wait es s) := by
  unfold placeCommand
  try dsimp only
  repeat' first
    | with_reducible assumption | exact Part.sub_trans rfl hl | with_reducible apply Moves.onXpt
    | with_reducible apply placeEntries_moves | with_reducible apply Moves.ite

theorem discardOne_moves {pl : List Part} {z : State} (e : Entry) (cause : Nat) {s : State}
    (hz : Moves pl z s)
    (hl : Part.sub [.flash, .host, .evt, .xpt, .red, .cmp, .aud, .out] pl = true := by first | rfl | exact Part.sub_trans rfl (by assumption)) :
    Moves pl z (discardOne e cause s) := by
  unfold discardOne
  try dsimp only
  repeat' first
    | with_reducible assumption | exact Part.sub_trans rfl hl | with_reducible apply discardEntries_moves

theorem sealVideo_moves {pl : List Part} {z : State} (batch : List Entry) {s : State}
    (hz : Moves pl z s)
    (hl : Part.sub [.flash, .host, .evt, .xpt, .red, .cmp, .aud, .out] pl = true := by first | rfl | exact Part.sub_trans rfl (by assumption)) :
    Moves pl z (sealVideo batch s) := by
  unfold sealVideo
  dsimp only
  refine Moves.foldl (fun x a h => .ite h (discardOne_moves _ _ h)) _ ?_
  have key : ∀ (l : List Entry) (f : List Entry × State → Entry → List Entry × State) (x : List Entry × State),
      (∀ x e, Moves pl z x.2 → Moves pl z (f x e).2) → Moves pl z x.2 → Moves pl z (l.foldl f x).2 := by
    intro l f
    induction l with
    | nil => intro x _ hx; exact hx
    | cons e l ih => intro x hf hx; exact ih _ hf (hf _ _ hx)
  refine key _ _ _ ?_ hz
  intro x e hx
  split
  · split
    · exact discardOne_moves _ _ hx
    · exact hx
  · exact hx

theorem reportFollows_moves {pl : List Part} {z : State} (e : Entry) (d : Nat) (src : Option Nat) (mask : Nat) (kept : Nat) {s : State}
    (hz : Moves pl z s)
    (hl : Part.sub [.flash, .evt, .aud] pl = true := by first | rfl | exact Part.sub_trans rfl (by assumption)) :
    Moves pl z (reportFollows e d src mask kept s) := by
  unfold reportFollows
  try dsimp only
  repeat' first
    | with_reducible assumption | exact Part.sub_trans rfl hl | with_reducible apply cancelAudio_moves
    | with_reducible apply Moves.ite | (with_reducible apply Moves.foldl; intro _ _ _)
    | (split <;> try dsimp only)

theorem sealAudio_moves {pl : List Part} {z : State} (batch : List Entry) {s : State}
    (hz : Moves pl z s)
    (hl : Part.sub [.flash, .host, .evt, .xpt, .red, .cmp, .aud, .out] pl = true := by first | rfl | exact Part.sub_trans rfl (by assumption)) :
    Moves pl z (sealAudio batch s) := by
  unfold sealAudio
  try dsimp only
  repeat' first
    | with_reducible assumption | exact Part.sub_trans rfl hl | with_reducible apply discardOne_moves
    | with_reducible apply Moves.ite | (with_reducible apply Moves.foldl; intro _ _ _)
    | (split <;> try dsimp only)

theorem sealCommit_moves {pl : List Part} {z : State} (k : Nat) (arm : Nat) (batch : List Entry) (c : Nat) {s : State}
    (hz : Moves pl z s)
    (hl : Part.sub [.flash, .host, .evt, .xpt, .red, .cmp, .aud, .out] pl = true := by first | rfl | exact Part.sub_trans rfl (by assumption)) :
    Moves pl z (sealCommit k arm batch c s) := by
  unfold sealCommit
  try dsimp only
  repeat' first
    | with_reducible assumption | exact Part.sub_trans rfl hl | with_reducible apply discardOne_moves
    | with_reducible apply entryGone_moves | with_reducible apply rejectCommit_moves
    | with_reducible apply freeEntry_moves | with_reducible apply modComp_moves
    | (with_reducible apply Moves.foldl; intro _ _ _)
    | (split <;> try dsimp only)

theorem sealCommits_moves {pl : List Part} {z : State} (k : Nat) (arm : Nat) (batch : List Entry) {s : State}
    (hz : Moves pl z s)
    (hl : Part.sub [.flash, .host, .evt, .xpt, .red, .cmp, .aud, .out] pl = true := by first | rfl | exact Part.sub_trans rfl (by assumption)) :
    Moves pl z (sealCommits k arm batch s) := by
  unfold sealCommits
  try dsimp only
  repeat' first
    | with_reducible assumption | exact Part.sub_trans rfl hl | with_reducible apply sealCommit_moves
    | (with_reducible apply Moves.foldl; intro _ _ _)
    | (split <;> try dsimp only)

theorem sealRealigns_moves {pl : List Part} {z : State} (arm : Nat) (batch : List Entry) {s : State}
    (hz : Moves pl z s)
    (hl : Part.sub [.tim] pl = true := by first | rfl | exact Part.sub_trans rfl (by assumption)) :
    Moves pl z (sealRealigns arm batch s) := by
  unfold sealRealigns
  try dsimp only
  repeat' first
    | with_reducible assumption | exact Part.sub_trans rfl hl | with_reducible apply Moves.onTim
    | (with_reducible apply Moves.foldl; intro _ _ _)
    | (split <;> try dsimp only)

theorem markSealed_moves {pl : List Part} {z : State} (k : Nat) (arm : Nat) (batch : List Entry) {s : State}
    (hz : Moves pl z s)
    (hl : Part.sub [.flash, .evt, .xpt, .aud] pl = true := by first | rfl | exact Part.sub_trans rfl (by assumption)) :
    Moves pl z (markSealed k arm batch s) := by
  unfold markSealed
  try dsimp only
  repeat' first
    | with_reducible assumption | exact Part.sub_trans rfl hl | with_reducible apply reportFollows_moves
    | with_reducible apply Moves.onXpt | with_reducible apply Moves.ite
    | (with_reducible apply Moves.foldl; intro _ _ _)
    | (split <;> try dsimp only)

theorem lateAtSeal_moves {pl : List Part} {z : State} (arm : Nat) (batch : List Entry) {s : State}
    (hz : Moves pl z s)
    (hl : Part.sub [.flash, .evt, .xpt] pl = true := by first | rfl | exact Part.sub_trans rfl (by assumption)) :
    Moves pl z (lateAtSeal arm batch s) := by
  unfold lateAtSeal
  try dsimp only
  repeat' first
    | with_reducible assumption | exact Part.sub_trans rfl hl | with_reducible apply Moves.onXpt
    | with_reducible apply makeLate_moves | with_reducible apply Moves.ite
    | (with_reducible apply Moves.foldl; intro _ _ _)
    | (split <;> try dsimp only)

theorem sealEpoch_moves {pl : List Part} {z : State} (k : Nat) (arm : Nat) (sel : Entry → Bool) {s : State}
    (hz : Moves pl z s)
    (hl : Part.sub [.flash, .host, .evt, .xpt, .red, .tim, .cmp, .aud, .out] pl = true := by first | rfl | exact Part.sub_trans rfl (by assumption)) :
    Moves pl z (sealEpoch k arm sel s) := by
  unfold sealEpoch
  try dsimp only
  repeat' first
    | with_reducible assumption | exact Part.sub_trans rfl hl | with_reducible apply lateAtSeal_moves
    | with_reducible apply sealVideo_moves | with_reducible apply sealAudio_moves
    | with_reducible apply sealCommits_moves | with_reducible apply markSealed_moves
    | with_reducible apply sealRealigns_moves
    | (split <;> try dsimp only)

end Sys2Proof.Machine
end

