-- ==== Sys2Proof/Laws/MovesXpt.lean ====
section
/-! SUPPORT. What each operation and command of `Machine/Xpt.lean` moves. -/

-- The package is checked as one text; elaborating these proofs in order keeps the number of threads small.
set_option Elab.async false

namespace Sys2Proof.Machine

theorem effXptTake_moves {pl : List Part} {z : State} {s : State} (c : HostCmd)
    (hz : Moves pl z s)
    (hl : Part.sub [.flash, .evt, .xpt] pl = true := by first | rfl | exact Part.sub_trans rfl (by assumption)) :
    Moves pl z (effXptTake s c).1 := by
  unfold effXptTake
  try dsimp only
  repeat' first
    | with_reducible assumption | exact Part.sub_trans rfl hl | with_reducible apply placeCommand_moves
    | with_reducible apply Moves.ite | with_reducible apply Moves.ite_fst

theorem effXptTakeBatch_moves {pl : List Part} {z : State} {s : State} (c : HostCmd)
    (hz : Moves pl z s)
    (hl : Part.sub [.flash, .evt, .xpt] pl = true := by first | rfl | exact Part.sub_trans rfl (by assumption)) :
    Moves pl z (effXptTakeBatch s c).1 := by
  unfold effXptTakeBatch
  try dsimp only
  repeat' first
    | with_reducible assumption | exact Part.sub_trans rfl hl | with_reducible apply placeCommand_moves
    | with_reducible apply Moves.ite | with_reducible apply Moves.ite_fst

theorem effXptTakeAt_moves {pl : List Part} {z : State} {s : State} (c : HostCmd)
    (hz : Moves pl z s)
    (hl : Part.sub [.flash, .evt, .xpt] pl = true := by first | rfl | exact Part.sub_trans rfl (by assumption)) :
    Moves pl z (effXptTakeAt s c).1 := by
  unfold effXptTakeAt
  try dsimp only
  repeat' first
    | with_reducible assumption | exact Part.sub_trans rfl hl | with_reducible apply placeCommand_moves
    | with_reducible apply Moves.ite | with_reducible apply Moves.ite_fst

theorem countLocked_moves {pl : List Part} {z : State} (op : Op) (c : HostCmd) {s : State}
    (hz : Moves pl z s)
    (hl : Part.sub [.xpt, .cmp] pl = true := by first | rfl | exact Part.sub_trans rfl (by assumption)) :
    Moves pl z (countLocked op c s) := by
  unfold countLocked
  try dsimp only
  repeat' first
    | with_reducible assumption | exact Part.sub_trans rfl hl | with_reducible apply xptCount_moves
    | with_reducible apply modComp_moves | with_reducible apply Moves.ite
    | (with_reducible apply Moves.foldl; intro _ _ _)
    | (split <;> try dsimp only)

theorem runTake_moves {pl : List Part} {z : State} (op : Op) (own : Refuse) (eff : Effect) (t : Nat) (c : HostCmd) {s : State}
    (hz : Moves pl z s) (he : ∀ x, Moves pl z x → Moves pl z (eff x c).1)
    (hl : Part.sub [.clock, .flash, .host, .evt, .xpt, .red, .cmp, .out] pl = true := by first | rfl | exact Part.sub_trans rfl (by assumption)) : Moves pl z (runTake op own eff t c s) := by
  unfold runTake
  dsimp only
  have h1 := advance_moves t hz
  have h2 := dequeue_moves op c h1
  refine .ite h1 ?_
  split
  · exact refuseWith_moves _ _ _ (.ite (countLocked_moves _ _ h2) h2)
  · exact acceptWith_moves _ _ _ (he _ h2)

theorem effXptQueueCancel_moves {pl : List Part} {z : State} {s : State} (c : HostCmd)
    (hz : Moves pl z s)
    (hl : Part.sub [.flash, .host, .evt, .xpt, .red, .cmp, .aud, .out] pl = true := by first | rfl | exact Part.sub_trans rfl (by assumption)) :
    Moves pl z (effXptQueueCancel s c).1 := by
  unfold effXptQueueCancel
  try dsimp only
  repeat' first
    | with_reducible assumption | exact Part.sub_trans rfl hl | with_reducible apply discardEntries_moves

theorem raiseLock_moves {pl : List Part} {z : State} (d : Nat) (state : Nat) (forced : Nat) (owner : Nat) (actor : Nat) {s : State}
    (hz : Moves pl z s)
    (hl : Part.sub [.flash, .evt] pl = true := by first | rfl | exact Part.sub_trans rfl (by assumption)) :
    Moves pl z (raiseLock d state forced owner actor s) := by
  unfold raiseLock
  try dsimp only
  repeat' first
    | with_reducible assumption | exact Part.sub_trans rfl hl | with_reducible apply raise_moves

theorem effXptLock_moves {pl : List Part} {z : State} {s : State} (c : HostCmd)
    (hz : Moves pl z s)
    (hl : Part.sub [.flash, .evt, .xpt] pl = true := by first | rfl | exact Part.sub_trans rfl (by assumption)) :
    Moves pl z (effXptLock s c).1 := by
  unfold effXptLock
  try dsimp only
  repeat' first
    | with_reducible assumption | exact Part.sub_trans rfl hl | with_reducible apply raiseLock_moves
    | with_reducible apply modXd_moves | with_reducible apply Moves.ite | with_reducible apply Moves.ite_fst

theorem effXptUnlock_moves {pl : List Part} {z : State} {s : State} (c : HostCmd)
    (hz : Moves pl z s)
    (hl : Part.sub [.flash, .evt, .xpt] pl = true := by first | rfl | exact Part.sub_trans rfl (by assumption)) :
    Moves pl z (effXptUnlock s c).1 := by
  unfold effXptUnlock
  try dsimp only
  repeat' first
    | with_reducible assumption | exact Part.sub_trans rfl hl | with_reducible apply raiseLock_moves
    | with_reducible apply modXd_moves | with_reducible apply Moves.ite | with_reducible apply Moves.ite_fst

theorem effXptQuery_moves {pl : List Part} {z : State} {s : State} (c : HostCmd)
    (hz : Moves pl z s) :
    Moves pl z (effXptQuery s c).1 := by
  unfold effXptQuery
  try dsimp only
  repeat' first
    | with_reducible assumption | exact Part.sub_trans rfl hl | with_reducible apply Moves.ite
    | with_reducible apply Moves.ite_fst

theorem audClock_moves {pl : List Part} {z : State} (before : State) {s : State}
    (hz : Moves pl z s)
    (hl : Part.sub [.flash, .evt] pl = true := by first | rfl | exact Part.sub_trans rfl (by assumption)) :
    Moves pl z (audClock before s) := by
  unfold audClock
  try dsimp only
  repeat' first
    | with_reducible assumption | exact Part.sub_trans rfl hl | with_reducible apply raise_moves
    | with_reducible apply Moves.ite

theorem effXptTpSet_moves {pl : List Part} {z : State} {s : State} (c : HostCmd)
    (hz : Moves pl z s)
    (hl : Part.sub [.flash, .evt, .xpt, .tim] pl = true := by first | rfl | exact Part.sub_trans rfl (by assumption)) :
    Moves pl z (effXptTpSet s c).1 := by
  unfold effXptTpSet
  try dsimp only
  repeat' first
    | with_reducible assumption | exact Part.sub_trans rfl hl | with_reducible apply Moves.onXpt
    | with_reducible apply Moves.onTim | with_reducible apply raise_moves | with_reducible apply audClock_moves
    | with_reducible apply Moves.ite | with_reducible apply Moves.ite_fst

theorem effXptQueueStatus_moves {pl : List Part} {z : State} {s : State} (c : HostCmd)
    (hz : Moves pl z s) :
    Moves pl z (effXptQueueStatus s c).1 := by
  unfold effXptQueueStatus
  try dsimp only
  repeat' first
    | with_reducible assumption | exact Part.sub_trans rfl hl

theorem destFrameStart_moves {pl : List Part} {z : State} (d : Nat) {s : State}
    (hz : Moves pl z s)
    (hl : Part.sub [.flash, .evt, .eth, .flow, .fst, .aud, .out] pl = true := by first | rfl | exact Part.sub_trans rfl (by assumption)) :
    Moves pl z (destFrameStart d s) := by
  unfold destFrameStart
  try dsimp only
  repeat' first
    | with_reducible assumption | exact Part.sub_trans rfl hl | with_reducible apply referencersMove_moves
    | with_reducible apply Moves.onAud | with_reducible apply Moves.onFlow | with_reducible apply Moves.onEth
    | with_reducible apply emit_moves | with_reducible apply modDst_moves
    | with_reducible apply serviceFailures_moves | with_reducible apply Moves.ite
    | (with_reducible apply Moves.foldl; intro _ _ _)
    | (split <;> try dsimp only)

theorem markReaders_moves {pl : List Part} {z : State} (r : Nat) (slot : Nat) {s : State}
    (hz : Moves pl z s)
    (hl : Part.sub [.flow] pl = true := by first | rfl | exact Part.sub_trans rfl (by assumption)) :
    Moves pl z (markReaders r slot s) := by
  unfold markReaders
  try dsimp only
  repeat' first
    | with_reducible assumption | exact Part.sub_trans rfl hl | with_reducible apply modDst_moves
    | (with_reducible apply Moves.foldl; intro _ _ _)

theorem writeTakeCtl_moves {pl : List Part} {z : State} (v : Nat) {s : State}
    (hz : Moves pl z s)
    (hl : Part.sub [.xpt] pl = true := by first | rfl | exact Part.sub_trans rfl (by assumption)) :
    Moves pl z (writeTakeCtl v s) := by
  unfold writeTakeCtl
  try dsimp only
  repeat' first
    | with_reducible assumption | exact Part.sub_trans rfl hl | with_reducible apply Moves.onXpt

theorem execXptTake_moves {pl : List Part} {z : State} (t : Nat) (c : HostCmd) {s : State}
    (hz : Moves pl z s)
    (hl : Part.sub [.clock, .flash, .host, .evt, .xpt, .red, .cmp, .out] pl = true := by first | rfl | exact Part.sub_trans rfl (by assumption)) :
    MovesOut pl z (execXptTake t c s) := by
  exact runTake_moves _ _ _ _ _ hz (fun _ h => effXptTake_moves _ h)

theorem execXptTakeBatch_moves {pl : List Part} {z : State} (t : Nat) (c : HostCmd) {s : State}
    (hz : Moves pl z s)
    (hl : Part.sub [.clock, .flash, .host, .evt, .xpt, .red, .cmp, .out] pl = true := by first | rfl | exact Part.sub_trans rfl (by assumption)) :
    MovesOut pl z (execXptTakeBatch t c s) := by
  exact runTake_moves _ _ _ _ _ hz (fun _ h => effXptTakeBatch_moves _ h)

theorem execXptTakeAt_moves {pl : List Part} {z : State} (t : Nat) (c : HostCmd) {s : State}
    (hz : Moves pl z s)
    (hl : Part.sub [.clock, .flash, .host, .evt, .xpt, .red, .cmp, .out] pl = true := by first | rfl | exact Part.sub_trans rfl (by assumption)) :
    MovesOut pl z (execXptTakeAt t c s) := by
  exact runTake_moves _ _ _ _ _ hz (fun _ h => effXptTakeAt_moves _ h)

theorem execXptQueueCancel_moves {pl : List Part} {z : State} (t : Nat) (c : HostCmd) {s : State}
    (hz : Moves pl z s)
    (hl : Part.sub [.clock, .flash, .host, .evt, .xpt, .red, .cmp, .aud, .out] pl = true := by first | rfl | exact Part.sub_trans rfl (by assumption)) :
    MovesOut pl z (execXptQueueCancel t c s) := by
  exact runCommand_moves _ _ _ _ _ hz (fun _ h => effXptQueueCancel_moves _ h)

theorem execXptLock_moves {pl : List Part} {z : State} (t : Nat) (c : HostCmd) {s : State}
    (hz : Moves pl z s)
    (hl : Part.sub [.clock, .flash, .host, .evt, .xpt, .red, .out] pl = true := by first | rfl | exact Part.sub_trans rfl (by assumption)) :
    MovesOut pl z (execXptLock t c s) := by
  exact runCommand_moves _ _ _ _ _ hz (fun _ h => effXptLock_moves _ h)

theorem execXptUnlock_moves {pl : List Part} {z : State} (t : Nat) (c : HostCmd) {s : State}
    (hz : Moves pl z s)
    (hl : Part.sub [.clock, .flash, .host, .evt, .xpt, .red, .out] pl = true := by first | rfl | exact Part.sub_trans rfl (by assumption)) :
    MovesOut pl z (execXptUnlock t c s) := by
  exact runCommand_moves _ _ _ _ _ hz (fun _ h => effXptUnlock_moves _ h)

theorem execXptQuery_moves {pl : List Part} {z : State} (t : Nat) (c : HostCmd) {s : State}
    (hz : Moves pl z s)
    (hl : Part.sub [.clock, .flash, .host, .evt, .red, .out] pl = true := by first | rfl | exact Part.sub_trans rfl (by assumption)) :
    MovesOut pl z (execXptQuery t c s) := by
  exact runCommand_moves _ _ _ _ _ hz (fun _ h => effXptQuery_moves _ h)

theorem execXptTpSet_moves {pl : List Part} {z : State} (t : Nat) (c : HostCmd) {s : State}
    (hz : Moves pl z s)
    (hl : Part.sub [.clock, .flash, .host, .evt, .xpt, .red, .tim, .out] pl = true := by first | rfl | exact Part.sub_trans rfl (by assumption)) :
    MovesOut pl z (execXptTpSet t c s) := by
  exact runCommand_moves _ _ _ _ _ hz (fun _ h => effXptTpSet_moves _ h)

theorem execXptQueueStatus_moves {pl : List Part} {z : State} (t : Nat) (c : HostCmd) {s : State}
    (hz : Moves pl z s)
    (hl : Part.sub [.clock, .flash, .host, .evt, .red, .out] pl = true := by first | rfl | exact Part.sub_trans rfl (by assumption)) :
    MovesOut pl z (execXptQueueStatus t c s) := by
  exact runCommand_moves _ _ _ _ _ hz (fun _ h => effXptQueueStatus_moves _ h)

theorem execSwitchingLine_moves {pl : List Part} {z : State} (t : Nat) (d : Nat) {s : State}
    (hz : Moves pl z s)
    (hl : Part.sub [.clock, .flash, .host, .evt, .xpt, .red, .flow, .cmp, .aud, .out] pl = true := by first | rfl | exact Part.sub_trans rfl (by assumption)) :
    MovesOut pl z (execSwitchingLine t d s) := by
  unfold execSwitchingLine
  try dsimp only
  refine MovesOut.fault ?_
  try with_reducible refine MovesOut.next ?_
  repeat' first
    | with_reducible assumption | exact Part.sub_trans rfl hl | with_reducible apply advance_moves
    | with_reducible apply switchingLine_moves | with_reducible apply Moves.ite

theorem execDestDeleteLands_moves {pl : List Part} {z : State} (t : Nat) (d : Nat) {s : State}
    (hz : Moves pl z s)
    (hl : Part.sub [.clock, .flash, .host, .evt, .xpt, .red, .flow, .cmp, .aud, .out] pl = true := by first | rfl | exact Part.sub_trans rfl (by assumption)) :
    MovesOut pl z (execDestDeleteLands t d s) := by
  unfold execDestDeleteLands
  try dsimp only
  refine MovesOut.fault ?_
  try with_reducible refine MovesOut.next ?_
  repeat' first
    | with_reducible assumption | exact Part.sub_trans rfl hl | with_reducible apply landDstDelete_moves
    | with_reducible apply advance_moves | with_reducible apply Moves.ite

theorem execDestFrameStart_moves {pl : List Part} {z : State} (t : Nat) (d : Nat) {s : State}
    (hz : Moves pl z s)
    (hl : Part.sub [.clock, .flash, .evt, .eth, .flow, .fst, .aud, .out] pl = true := by first | rfl | exact Part.sub_trans rfl (by assumption)) :
    MovesOut pl z (execDestFrameStart t d s) := by
  unfold execDestFrameStart
  try dsimp only
  refine MovesOut.fault ?_
  try with_reducible refine MovesOut.next ?_
  repeat' first
    | with_reducible assumption | exact Part.sub_trans rfl hl | with_reducible apply advance_moves
    | with_reducible apply destFrameStart_moves | with_reducible apply Moves.ite

theorem execPlaneWordReceived_moves {pl : List Part} {z : State} (t : Nat) (slot : Nat) (w0 : Nat) (w1 : Nat) (w2 : Nat) (w3 : Nat) {s : State}
    (hz : Moves pl z s)
    (hl : Part.sub [.clock, .mode, .aon, .pins, .start, .flash, .host, .evt, .saf, .pwr, .xpt, .cue, .red, .lane, .flow, .cmp, .aud, .out] pl = true := by first | rfl | exact Part.sub_trans rfl (by assumption)) :
    MovesOut pl z (execPlaneWordReceived t slot w0 w1 w2 w3 s) := by
  unfold execPlaneWordReceived
  try dsimp only
  refine MovesOut.fault ?_
  try with_reducible refine MovesOut.next ?_
  repeat' first
    | with_reducible assumption | exact Part.sub_trans rfl hl | with_reducible apply advance_moves
    | with_reducible apply markReaders_moves | with_reducible apply chipFault_moves
    | with_reducible apply raise_moves | with_reducible apply xptCount_moves
    | with_reducible apply planeFailure_moves | with_reducible apply Moves.ite
    | (with_reducible apply Moves.foldl; intro _ _ _)

end Sys2Proof.Machine
end

