-- ==== Sys2Proof/Laws/MovesComp.lean ====
section
/-! SUPPORT. What each operation and command of `Machine/Comp.lean` moves. -/

-- The package is checked as one text; elaborating these proofs in order keeps the number of threads small.
set_option Elab.async false

namespace Sys2Proof.Machine

theorem cmpCount_moves {pl : List Part} {z : State} (c : Nat) (i : Nat) (k : Nat) {s : State}
    (hz : Moves pl z s)
    (hl : Part.sub [.cmp] pl = true := by first | rfl | exact Part.sub_trans rfl (by assumption)) :
    Moves pl z (cmpCount c i k s) := by
  unfold cmpCount
  try dsimp only
  repeat' first
    | with_reducible assumption | exact Part.sub_trans rfl hl | with_reducible apply modComp_moves

theorem raiseCmp_moves {pl : List Part} {z : State} (sev : Nat) (code : Nat) (c : Nat) (payload : List Word) {s : State}
    (hz : Moves pl z s)
    (hl : Part.sub [.flash, .evt] pl = true := by first | rfl | exact Part.sub_trans rfl (by assumption)) :
    Moves pl z (raiseCmp sev code c payload s) := by
  unfold raiseCmp
  try dsimp only
  repeat' first
    | with_reducible assumption | exact Part.sub_trans rfl hl | with_reducible apply raise_moves

theorem lutState_moves {pl : List Part} {z : State} (c : Nat) (happening : Nat) (obj : Nat) {s : State}
    (hz : Moves pl z s)
    (hl : Part.sub [.flash, .evt] pl = true := by first | rfl | exact Part.sub_trans rfl (by assumption)) :
    Moves pl z (lutState c happening obj s) := by
  unfold lutState
  try dsimp only
  repeat' first
    | with_reducible assumption | exact Part.sub_trans rfl hl | with_reducible apply raiseCmp_moves

theorem effCmpConfig_moves {pl : List Part} {z : State} {s : State} (c : HostCmd)
    (hz : Moves pl z s)
    (hl : Part.sub [.cmp] pl = true := by first | rfl | exact Part.sub_trans rfl (by assumption)) :
    Moves pl z (effCmpConfig s c).1 := by
  unfold effCmpConfig
  try dsimp only
  repeat' first
    | with_reducible assumption | exact Part.sub_trans rfl hl | with_reducible apply modComp_moves
    | with_reducible apply Moves.ite | with_reducible apply Moves.ite_fst

theorem setShadow_moves {pl : List Part} {z : State} (c : Nat) (l : Nat) (f : Layer → Layer) {s : State}
    (hz : Moves pl z s)
    (hl : Part.sub [.cmp] pl = true := by first | rfl | exact Part.sub_trans rfl (by assumption)) :
    Moves pl z (setShadow c l f s) := by
  unfold setShadow
  try dsimp only
  repeat' first
    | with_reducible assumption | exact Part.sub_trans rfl hl | with_reducible apply modComp_moves

theorem effCmpLayerSet_moves {pl : List Part} {z : State} {s : State} (c : HostCmd)
    (hz : Moves pl z s)
    (hl : Part.sub [.cmp] pl = true := by first | rfl | exact Part.sub_trans rfl (by assumption)) :
    Moves pl z (effCmpLayerSet s c).1 := by
  unfold effCmpLayerSet
  try dsimp only
  repeat' first
    | with_reducible assumption | exact Part.sub_trans rfl hl | with_reducible apply setShadow_moves

theorem effCmpCommit_moves {pl : List Part} {z : State} {s : State} (c : HostCmd)
    (hz : Moves pl z s)
    (hl : Part.sub [.flash, .evt, .xpt] pl = true := by first | rfl | exact Part.sub_trans rfl (by assumption)) :
    Moves pl z (effCmpCommit s c).1 := by
  unfold effCmpCommit
  try dsimp only
  repeat' first
    | with_reducible assumption | exact Part.sub_trans rfl hl | with_reducible apply placeCommand_moves
    | with_reducible apply Moves.ite | with_reducible apply Moves.ite_fst

theorem effCmpLutLoad_moves {pl : List Part} {z : State} {s : State} (c : HostCmd)
    (hz : Moves pl z s)
    (hl : Part.sub [.cmp] pl = true := by first | rfl | exact Part.sub_trans rfl (by assumption)) :
    Moves pl z (effCmpLutLoad s c).1 := by
  unfold effCmpLutLoad
  try dsimp only
  repeat' first
    | with_reducible assumption | exact Part.sub_trans rfl hl | with_reducible apply modComp_moves

theorem lutReply_moves {pl : List Part} {z : State} (j : LutJob) (st : Status) {s : State}
    (hz : Moves pl z s)
    (hl : Part.sub [.host, .red, .out] pl = true := by first | rfl | exact Part.sub_trans rfl (by assumption)) :
    Moves pl z (lutReply j st s) := by
  unfold lutReply
  try dsimp only
  repeat' first
    | with_reducible assumption | exact Part.sub_trans rfl hl | with_reducible apply finish_moves
    | (split <;> try dsimp only)

theorem lutCopied_moves {pl : List Part} {z : State} (c : Nat) (j : LutJob) {s : State}
    (hz : Moves pl z s)
    (hl : Part.sub [.flash, .host, .evt, .red, .fst, .cmp, .out] pl = true := by first | rfl | exact Part.sub_trans rfl (by assumption)) :
    Moves pl z (lutCopied c j s) := by
  unfold lutCopied
  try dsimp only
  repeat' first
    | with_reducible assumption | exact Part.sub_trans rfl hl | with_reducible apply modComp_moves
    | with_reducible apply lutReply_moves | with_reducible apply lutState_moves
    | with_reducible apply serviceFailures_moves | with_reducible apply cmpCount_moves
    | with_reducible apply Moves.ite
    | (split <;> try dsimp only)

theorem zeroLoading_moves {pl : List Part} {z : State} (n : Nat) {s : State}
    (hz : Moves pl z s)
    (hl : Part.sub [.fst] pl = true := by first | rfl | exact Part.sub_trans rfl (by assumption)) :
    Moves pl z (zeroLoading n s) := by
  unfold zeroLoading
  split
  · exact hz
  · exact hz.onFst _ (fun h => memWf_filter _ h)

theorem writeLine_moves {pl : List Part} {z : State} (w : SurfaceLoad) (y : Nat) (line : List Byte) {s : State}
    (hz : Moves pl z s)
    (hl : Part.sub [.fst] pl = true := by first | rfl | exact Part.sub_trans rfl (by assumption)) :
    Moves pl z (writeLine w y line s) := by
  unfold writeLine
  try dsimp only
  repeat' first
    | with_reducible assumption | exact Part.sub_trans rfl hl | with_reducible apply writeLoading_moves
    | (with_reducible apply Moves.foldl; intro _ _ _)

theorem effCmpSurfaceLoad_moves {pl : List Part} {z : State} {s : State} (c : HostCmd)
    (hz : Moves pl z s)
    (hl : Part.sub [.mode, .aon, .pins, .start, .flash, .host, .evt, .pwr, .xpt, .cue, .red, .lane, .flow, .fst, .cmp, .aud, .out] pl = true := by first | rfl | exact Part.sub_trans rfl (by assumption)) :
    Moves pl z (effCmpSurfaceLoad s c).1 := by
  unfold effCmpSurfaceLoad
  try dsimp only
  repeat' first
    | with_reducible assumption | exact Part.sub_trans rfl hl | with_reducible apply writeLoading_moves
    | with_reducible apply zeroLoading_moves | with_reducible apply createVersion_moves
    | with_reducible apply writeLine_moves | with_reducible apply endLoading_moves
    | with_reducible apply Moves.ite | with_reducible apply Moves.ite_fst
    | (with_reducible apply Moves.foldl; intro _ _ _)

theorem effCmpDisable_moves {pl : List Part} {z : State} {s : State} (c : HostCmd)
    (hz : Moves pl z s)
    (hl : Part.sub [.cmp] pl = true := by first | rfl | exact Part.sub_trans rfl (by assumption)) :
    Moves pl z (effCmpDisable s c).1 := by
  unfold effCmpDisable
  try dsimp only
  repeat' first
    | with_reducible assumption | exact Part.sub_trans rfl hl | with_reducible apply modComp_moves

theorem effCmpQuery_moves {pl : List Part} {z : State} {s : State} (c : HostCmd)
    (hz : Moves pl z s) :
    Moves pl z (effCmpQuery s c).1 := by
  unfold effCmpQuery
  try dsimp only
  repeat' first
    | with_reducible assumption | exact Part.sub_trans rfl hl | with_reducible apply Moves.ite
    | with_reducible apply Moves.ite_fst

theorem setMembers_moves {pl : List Part} {z : State} (c : Nat) (on : Bool) {s : State}
    (hz : Moves pl z s)
    (hl : Part.sub [.cmp] pl = true := by first | rfl | exact Part.sub_trans rfl (by assumption)) :
    Moves pl z (setMembers c on s) := by
  unfold setMembers
  try dsimp only
  repeat' first
    | with_reducible assumption | exact Part.sub_trans rfl hl | with_reducible apply modComp_moves
    | with_reducible apply Moves.ite | (with_reducible apply Moves.foldl; intro _ _ _)

theorem landConfig_moves {pl : List Part} {z : State} (c : Nat) (x : CmpChange) {s : State}
    (hz : Moves pl z s)
    (hl : Part.sub [.flash, .evt, .flow, .cmp] pl = true := by first | rfl | exact Part.sub_trans rfl (by assumption)) :
    Moves pl z (landConfig c x s) := by
  unfold landConfig
  try dsimp only
  repeat' first
    | with_reducible assumption | exact Part.sub_trans rfl hl | with_reducible apply modComp_moves
    | with_reducible apply setMembers_moves | with_reducible apply raiseCmp_moves
    | with_reducible apply showDest_moves | with_reducible apply Moves.ite
    | (with_reducible apply Moves.foldl; intro _ _ _)

theorem landDisable_moves {pl : List Part} {z : State} (c : Nat) {s : State}
    (hz : Moves pl z s)
    (hl : Part.sub [.flash, .host, .evt, .xpt, .red, .flow, .fst, .cmp, .aud, .out] pl = true := by first | rfl | exact Part.sub_trans rfl (by assumption)) :
    Moves pl z (landDisable c s) := by
  unfold landDisable
  try dsimp only
  repeat' first
    | with_reducible assumption | exact Part.sub_trans rfl hl | with_reducible apply discardEntries_moves
    | with_reducible apply lutReply_moves | with_reducible apply modDst_moves
    | with_reducible apply Moves.onXpt | with_reducible apply referencersMove_moves
    | with_reducible apply setMembers_moves | with_reducible apply modComp_moves
    | with_reducible apply raiseCmp_moves | (with_reducible apply Moves.foldl; intro _ _ _)
    | (split <;> try dsimp only)

theorem swapLut_moves {pl : List Part} {z : State} (c : Nat) (happening : Nat) {s : State}
    (hz : Moves pl z s)
    (hl : Part.sub [.flash, .evt, .cmp] pl = true := by first | rfl | exact Part.sub_trans rfl (by assumption)) :
    Moves pl z (swapLut c happening s) := by
  unfold swapLut
  try dsimp only
  repeat' first
    | with_reducible assumption | exact Part.sub_trans rfl hl | with_reducible apply modComp_moves
    | with_reducible apply lutState_moves | with_reducible apply Moves.ite

theorem lutFrame_moves {pl : List Part} {z : State} (c : Nat) {s : State}
    (hz : Moves pl z s)
    (hl : Part.sub [.flash, .evt, .cmp] pl = true := by first | rfl | exact Part.sub_trans rfl (by assumption)) :
    Moves pl z (lutFrame c s) := by
  unfold lutFrame
  try dsimp only
  repeat' first
    | with_reducible assumption | exact Part.sub_trans rfl hl | with_reducible apply swapLut_moves
    | with_reducible apply lutState_moves | with_reducible apply modComp_moves | with_reducible apply Moves.ite
    | (split <;> try dsimp only)

theorem landCommit_moves {pl : List Part} {z : State} (c : Nat) (n : Nat) (x : Snapshot) {s : State}
    (hz : Moves pl z s)
    (hl : Part.sub [.flash, .host, .evt, .xpt, .red, .cmp, .out] pl = true := by first | rfl | exact Part.sub_trans rfl (by assumption)) :
    Moves pl z (landCommit c n x s) := by
  unfold landCommit
  try dsimp only
  repeat' first
    | with_reducible assumption | exact Part.sub_trans rfl hl | with_reducible apply modComp_moves
    | with_reducible apply swapLut_moves | with_reducible apply cmpCount_moves
    | with_reducible apply raiseCmp_moves | with_reducible apply entryGone_moves
    | with_reducible apply freeEntry_moves | with_reducible apply Moves.ite
    | (with_reducible apply Moves.foldl; intro _ _ _)

theorem landCommits_moves {pl : List Part} {z : State} (c : Nat) (n : Nat) {s : State}
    (hz : Moves pl z s)
    (hl : Part.sub [.flash, .host, .evt, .xpt, .red, .cmp, .out] pl = true := by first | rfl | exact Part.sub_trans rfl (by assumption)) :
    Moves pl z (landCommits c n s) := by
  unfold landCommits
  have key : ∀ (l : List Snapshot) (r : Bool × State), Moves pl z r.2 → Moves pl z (l.foldl (fun (r : Bool × State) x =>
      if r.1 && snapReady r.2 c n x then (true, landCommit c n x r.2) else (false, r.2)) r).2 := by
    intro l
    induction l with
    | nil => intro r hr; exact hr
    | cons x l ih => intro r hr; exact ih _ (.ite_snd (landCommit_moves _ _ _ hr) hr)
  exact key _ (true, s) hz

theorem landInputs_moves {pl : List Part} {z : State} (c : Nat) (n : Nat) {s : State}
    (hz : Moves pl z s)
    (hl : Part.sub [.flash, .host, .evt, .xpt, .red, .flow, .cmp, .aud, .out] pl = true := by first | rfl | exact Part.sub_trans rfl (by assumption)) :
    Moves pl z (landInputs c n s) := by
  unfold landInputs
  try dsimp only
  repeat' first
    | with_reducible assumption | exact Part.sub_trans rfl hl | with_reducible apply landTakes_moves
    | with_reducible apply showDest_moves | (with_reducible apply Moves.foldl; intro _ _ _)

theorem layerEvent_moves {pl : List Part} {z : State} (c : Nat) (l : Nat) (old : Nat) (x : LayerEval) {s : State}
    (hz : Moves pl z s)
    (hl : Part.sub [.flash, .evt] pl = true := by first | rfl | exact Part.sub_trans rfl (by assumption)) :
    Moves pl z (layerEvent c l old x s) := by
  unfold layerEvent
  try dsimp only
  repeat' first
    | with_reducible assumption | exact Part.sub_trans rfl hl | with_reducible apply raiseCmp_moves
    | with_reducible apply Moves.ite

theorem judgeLayers_moves {pl : List Part} {z : State} (c : Nat) {s : State}
    (hz : Moves pl z s)
    (hl : Part.sub [.flash, .evt, .cmp] pl = true := by first | rfl | exact Part.sub_trans rfl (by assumption)) :
    Moves pl z (judgeLayers c s) := by
  unfold judgeLayers
  try dsimp only
  repeat' first
    | with_reducible assumption | exact Part.sub_trans rfl hl | with_reducible apply modComp_moves
    | with_reducible apply layerEvent_moves | with_reducible apply Moves.ite
    | (with_reducible apply Moves.foldl; intro _ _ _)
    | (split <;> try dsimp only)

theorem protFail_moves {pl : List Part} {z : State} (c : Nat) (r : Nat) (kind : Nat) (n : Nat) (ref : Word) (out : Word) {s : State}
    (hz : Moves pl z s)
    (hl : Part.sub [.mode, .aon, .pins, .start, .flash, .host, .evt, .saf, .pwr, .xpt, .cue, .red, .tim, .lane, .flow, .cmp, .aud, .out] pl = true := by first | rfl | exact Part.sub_trans rfl (by assumption)) :
    Moves pl z (protFail c r kind n ref out s) := by
  unfold protFail
  try dsimp only
  repeat' first
    | with_reducible assumption | exact Part.sub_trans rfl hl | with_reducible apply modComp_moves
    | with_reducible apply reaction_moves | with_reducible apply raise_moves | with_reducible apply Moves.ite

theorem armRects_moves {pl : List Part} {z : State} (c : Nat) (n : Nat) {s : State}
    (hz : Moves pl z s)
    (hl : Part.sub [.mode, .aon, .pins, .start, .flash, .host, .evt, .saf, .pwr, .xpt, .cue, .red, .tim, .lane, .flow, .cmp, .aud, .out] pl = true := by first | rfl | exact Part.sub_trans rfl (by assumption)) :
    Moves pl z (armRects c n s) := by
  unfold armRects
  try dsimp only
  repeat' first
    | with_reducible assumption | exact Part.sub_trans rfl hl | with_reducible apply modComp_moves
    | with_reducible apply raiseCmp_moves | with_reducible apply protFail_moves
    | with_reducible apply Moves.ite | (with_reducible apply Moves.foldl; intro _ _ _)

theorem kiteFaults_moves {pl : List Part} {z : State} (c : Nat) {s : State}
    (hz : Moves pl z s)
    (hl : Part.sub [.flash, .evt, .cmp] pl = true := by first | rfl | exact Part.sub_trans rfl (by assumption)) :
    Moves pl z (kiteFaults c s) := by
  unfold kiteFaults
  try dsimp only
  repeat' first
    | with_reducible assumption | exact Part.sub_trans rfl hl | with_reducible apply raiseCmp_moves
    | with_reducible apply cmpCount_moves | with_reducible apply Moves.ite
    | (with_reducible apply Moves.foldl; intro _ _ _)

theorem fetchFaults_moves {pl : List Part} {z : State} (c : Nat) {s : State}
    (hz : Moves pl z s)
    (hl : Part.sub [.flash, .evt, .fst] pl = true := by first | rfl | exact Part.sub_trans rfl (by assumption)) :
    Moves pl z (fetchFaults c s) := by
  unfold fetchFaults
  try dsimp only
  repeat' first
    | with_reducible assumption | exact Part.sub_trans rfl hl | with_reducible apply serviceFailures_moves
    | with_reducible apply Moves.ite | (with_reducible apply Moves.foldl; intro _ _ _)
    | (split <;> try dsimp only)

theorem frameFaults_moves {pl : List Part} {z : State} (c : Nat) (late : List (Nat × Nat)) (parity : List (Nat × Nat × Nat)) {s : State}
    (hz : Moves pl z s)
    (hl : Part.sub [.mode, .aon, .pins, .start, .flash, .host, .evt, .saf, .pwr, .xpt, .cue, .red, .lane, .flow, .cmp, .aud, .out] pl = true := by first | rfl | exact Part.sub_trans rfl (by assumption)) :
    Moves pl z (frameFaults c late parity s) := by
  unfold frameFaults
  try dsimp only
  repeat' first
    | with_reducible assumption | exact Part.sub_trans rfl hl | with_reducible apply compFailure_moves
    | with_reducible apply raiseCmp_moves | with_reducible apply cmpCount_moves
    | with_reducible apply modDst_moves | with_reducible apply Moves.ite
    | (with_reducible apply Moves.foldl; intro _ _ _)

theorem outputFrame_moves {pl : List Part} {z : State} (c : Nat) (late : List (Nat × Nat)) (parity : List (Nat × Nat × Nat)) (probes : List (Nat × Nat)) {s : State}
    (hz : Moves pl z s)
    (hl : Part.sub [.mode, .aon, .pins, .start, .flash, .host, .evt, .saf, .pwr, .xpt, .cue, .red, .tim, .lane, .flow, .fst, .cmp, .aud, .out] pl = true := by first | rfl | exact Part.sub_trans rfl (by assumption)) :
    Moves pl z (outputFrame c late parity probes s) := by
  unfold outputFrame
  try dsimp only
  repeat' first
    | with_reducible assumption | exact Part.sub_trans rfl hl | with_reducible apply referencersMove_moves
    | with_reducible apply modComp_moves | with_reducible apply landCommits_moves
    | with_reducible apply landInputs_moves | with_reducible apply lutFrame_moves
    | with_reducible apply armRects_moves | with_reducible apply judgeLayers_moves
    | with_reducible apply frameFaults_moves | with_reducible apply fetchFaults_moves
    | with_reducible apply kiteFaults_moves | with_reducible apply cmpCount_moves
    | with_reducible apply emit_moves | with_reducible apply Moves.ite
    | (with_reducible apply Moves.foldl; intro _ _ _)
    | (split <;> try dsimp only)

theorem execCmpConfig_moves {pl : List Part} {z : State} (t : Nat) (c : HostCmd) {s : State}
    (hz : Moves pl z s)
    (hl : Part.sub [.clock, .flash, .host, .evt, .red, .cmp, .out] pl = true := by first | rfl | exact Part.sub_trans rfl (by assumption)) :
    MovesOut pl z (execCmpConfig t c s) := by
  exact runCommand_moves _ _ _ _ _ hz (fun _ h => effCmpConfig_moves _ h)

theorem execCmpLayerSet_moves {pl : List Part} {z : State} (t : Nat) (c : HostCmd) {s : State}
    (hz : Moves pl z s)
    (hl : Part.sub [.clock, .flash, .host, .evt, .red, .cmp, .out] pl = true := by first | rfl | exact Part.sub_trans rfl (by assumption)) :
    MovesOut pl z (execCmpLayerSet t c s) := by
  exact runCommand_moves _ _ _ _ _ hz (fun _ h => effCmpLayerSet_moves _ h)

theorem execCmpCommit_moves {pl : List Part} {z : State} (t : Nat) (c : HostCmd) {s : State}
    (hz : Moves pl z s)
    (hl : Part.sub [.clock, .flash, .host, .evt, .xpt, .red, .out] pl = true := by first | rfl | exact Part.sub_trans rfl (by assumption)) :
    MovesOut pl z (execCmpCommit t c s) := by
  exact runCommand_moves _ _ _ _ _ hz (fun _ h => effCmpCommit_moves _ h)

theorem execCmpLutLoad_moves {pl : List Part} {z : State} (t : Nat) (c : HostCmd) {s : State}
    (hz : Moves pl z s)
    (hl : Part.sub [.clock, .flash, .host, .evt, .red, .cmp, .out] pl = true := by first | rfl | exact Part.sub_trans rfl (by assumption)) :
    MovesOut pl z (execCmpLutLoad t c s) := by
  exact runCommand_moves _ _ _ _ _ hz (fun _ h => effCmpLutLoad_moves _ h)

theorem execLutCopyDone_moves {pl : List Part} {z : State} (t : Nat) (c : Nat) {s : State}
    (hz : Moves pl z s)
    (hl : Part.sub [.clock, .flash, .host, .evt, .red, .fst, .cmp, .out] pl = true := by first | rfl | exact Part.sub_trans rfl (by assumption)) :
    MovesOut pl z (execLutCopyDone t c s) := by
  unfold execLutCopyDone
  try dsimp only
  refine MovesOut.fault ?_
  try with_reducible refine MovesOut.next ?_
  repeat' first
    | with_reducible assumption | exact Part.sub_trans rfl hl | with_reducible apply advance_moves
    | with_reducible apply lutCopied_moves | with_reducible apply Moves.ite
    | (split <;> try dsimp only)

theorem execCmpSurfaceLoad_moves {pl : List Part} {z : State} (t : Nat) (c : HostCmd) {s : State}
    (hz : Moves pl z s)
    (hl : Part.sub [.clock, .mode, .aon, .pins, .start, .flash, .host, .evt, .pwr, .xpt, .cue, .red, .lane, .flow, .fst, .cmp, .aud, .out] pl = true := by first | rfl | exact Part.sub_trans rfl (by assumption)) :
    MovesOut pl z (execCmpSurfaceLoad t c s) := by
  exact runCommand_moves _ _ _ _ _ hz (fun _ h => effCmpSurfaceLoad_moves _ h)

theorem execCmpDisable_moves {pl : List Part} {z : State} (t : Nat) (c : HostCmd) {s : State}
    (hz : Moves pl z s)
    (hl : Part.sub [.clock, .flash, .host, .evt, .red, .cmp, .out] pl = true := by first | rfl | exact Part.sub_trans rfl (by assumption)) :
    MovesOut pl z (execCmpDisable t c s) := by
  exact runCommand_moves _ _ _ _ _ hz (fun _ h => effCmpDisable_moves _ h)

theorem execCmpQuery_moves {pl : List Part} {z : State} (t : Nat) (c : HostCmd) {s : State}
    (hz : Moves pl z s)
    (hl : Part.sub [.clock, .flash, .host, .evt, .red, .out] pl = true := by first | rfl | exact Part.sub_trans rfl (by assumption)) :
    MovesOut pl z (execCmpQuery t c s) := by
  exact runCommand_moves _ _ _ _ _ hz (fun _ h => effCmpQuery_moves _ h)

theorem execCmpConfigLands_moves {pl : List Part} {z : State} (t : Nat) (c : Nat) {s : State}
    (hz : Moves pl z s)
    (hl : Part.sub [.clock, .flash, .evt, .flow, .cmp] pl = true := by first | rfl | exact Part.sub_trans rfl (by assumption)) :
    MovesOut pl z (execCmpConfigLands t c s) := by
  unfold execCmpConfigLands
  try dsimp only
  refine MovesOut.fault ?_
  try with_reducible refine MovesOut.next ?_
  repeat' first
    | with_reducible assumption | exact Part.sub_trans rfl hl | with_reducible apply advance_moves
    | with_reducible apply landConfig_moves | with_reducible apply Moves.ite
    | (split <;> try dsimp only)

theorem execCmpDisableLands_moves {pl : List Part} {z : State} (t : Nat) (c : Nat) {s : State}
    (hz : Moves pl z s)
    (hl : Part.sub [.clock, .flash, .host, .evt, .xpt, .red, .flow, .fst, .cmp, .aud, .out] pl = true := by first | rfl | exact Part.sub_trans rfl (by assumption)) :
    MovesOut pl z (execCmpDisableLands t c s) := by
  unfold execCmpDisableLands
  try dsimp only
  refine MovesOut.fault ?_
  try with_reducible refine MovesOut.next ?_
  repeat' first
    | with_reducible assumption | exact Part.sub_trans rfl hl | with_reducible apply advance_moves
    | with_reducible apply landDisable_moves | with_reducible apply Moves.ite
    | (split <;> try dsimp only)

theorem execOutputFrameStart_moves {pl : List Part} {z : State} (t : Nat) (c : Nat) (late : List (Nat × Nat)) (parity : List (Nat × Nat × Nat)) (probes : List (Nat × Nat)) {s : State}
    (hz : Moves pl z s)
    (hl : Part.sub [.clock, .mode, .aon, .pins, .start, .flash, .host, .evt, .saf, .pwr, .xpt, .cue, .red, .tim, .lane, .flow, .fst, .cmp, .aud, .out] pl = true := by first | rfl | exact Part.sub_trans rfl (by assumption)) :
    MovesOut pl z (execOutputFrameStart t c late parity probes s) := by
  unfold execOutputFrameStart
  try dsimp only
  refine MovesOut.fault ?_
  try with_reducible refine MovesOut.next ?_
  repeat' first
    | with_reducible assumption | exact Part.sub_trans rfl hl | with_reducible apply advance_moves
    | with_reducible apply outputFrame_moves | with_reducible apply Moves.ite

end Sys2Proof.Machine
end

