-- ==== Sys2Proof/Laws/MovesProt.lean ====
section
/-! SUPPORT. What each operation and command of `Machine/Prot.lean` moves. -/

-- The package is checked as one text; elaborating these proofs in order keeps the number of threads small.
set_option Elab.async false

namespace Sys2Proof.Machine

theorem effCmpProtWrite_moves {pl : List Part} {z : State} {s : State} (c : HostCmd)
    (hz : Moves pl z s)
    (hl : Part.sub [.mode, .aon, .pins, .start, .flash, .host, .evt, .pwr, .xpt, .cue, .red, .lane, .flow, .fst, .cmp, .aud, .out] pl = true := by first | rfl | exact Part.sub_trans rfl (by assumption)) :
    Moves pl z (effCmpProtWrite s c).1 := by
  unfold effCmpProtWrite
  try dsimp only
  repeat' first
    | with_reducible assumption | exact Part.sub_trans rfl hl | with_reducible apply objWriteEffect_moves

theorem setShadowRect_moves {pl : List Part} {z : State} (c : Nat) (r : Nat) (f : Rect → Rect) {s : State}
    (hz : Moves pl z s)
    (hl : Part.sub [.cmp] pl = true := by first | rfl | exact Part.sub_trans rfl (by assumption)) :
    Moves pl z (setShadowRect c r f s) := by
  unfold setShadowRect
  try dsimp only
  repeat' first
    | with_reducible assumption | exact Part.sub_trans rfl hl | with_reducible apply modComp_moves

theorem effCmpProtRectSet_moves {pl : List Part} {z : State} {s : State} (c : HostCmd)
    (hz : Moves pl z s)
    (hl : Part.sub [.cmp] pl = true := by first | rfl | exact Part.sub_trans rfl (by assumption)) :
    Moves pl z (effCmpProtRectSet s c).1 := by
  unfold effCmpProtRectSet
  try dsimp only
  repeat' first
    | with_reducible assumption | exact Part.sub_trans rfl hl | with_reducible apply setShadowRect_moves

theorem effCmpProtGoldenSet_moves {pl : List Part} {z : State} {s : State} (c : HostCmd)
    (hz : Moves pl z s)
    (hl : Part.sub [.cmp] pl = true := by first | rfl | exact Part.sub_trans rfl (by assumption)) :
    Moves pl z (effCmpProtGoldenSet s c).1 := by
  unfold effCmpProtGoldenSet
  try dsimp only
  repeat' first
    | with_reducible assumption | exact Part.sub_trans rfl hl | with_reducible apply setShadowRect_moves

theorem effCmpProtStatus_moves {pl : List Part} {z : State} {s : State} (c : HostCmd)
    (hz : Moves pl z s) :
    Moves pl z (effCmpProtStatus s c).1 := by
  unfold effCmpProtStatus
  try dsimp only
  repeat' first
    | with_reducible assumption | exact Part.sub_trans rfl hl | with_reducible apply Moves.ite
    | with_reducible apply Moves.ite_fst

theorem writeProtCfg_moves {pl : List Part} {z : State} (c : Nat) (v : Nat) {s : State}
    (hz : Moves pl z s)
    (hl : Part.sub [.cmp] pl = true := by first | rfl | exact Part.sub_trans rfl (by assumption)) :
    Moves pl z (writeProtCfg c v s) := by
  unfold writeProtCfg
  try dsimp only
  repeat' first
    | with_reducible assumption | exact Part.sub_trans rfl hl | with_reducible apply modComp_moves
    | with_reducible apply Moves.ite

theorem comparePair_moves {pl : List Part} {z : State} (c : Nat) (r : Nat) {s : State}
    (hz : Moves pl z s)
    (hl : Part.sub [.flash, .evt] pl = true := by first | rfl | exact Part.sub_trans rfl (by assumption)) :
    Moves pl z (comparePair c r s) := by
  unfold comparePair
  try dsimp only
  repeat' first
    | with_reducible assumption | exact Part.sub_trans rfl hl | with_reducible apply raiseCmp_moves
    | with_reducible apply Moves.ite
    | (split <;> try dsimp only)

theorem sendProtSig_moves {pl : List Part} {z : State} (c : Nat) (n : Nat) {s : State}
    (hz : Moves pl z s)
    (hl : Part.sub [.red, .out] pl = true := by first | rfl | exact Part.sub_trans rfl (by assumption)) :
    Moves pl z (sendProtSig c n s) := by
  unfold sendProtSig
  try dsimp only
  repeat' first
    | with_reducible assumption | exact Part.sub_trans rfl hl | with_reducible apply sendHalyard_moves
    | with_reducible apply Moves.ite

theorem compareReport_moves {pl : List Part} {z : State} (c : Nat) (r : Nat) (n : Nat) (ref : Word) (out : Word) {s : State}
    (hz : Moves pl z s)
    (hl : Part.sub [.mode, .aon, .pins, .start, .flash, .host, .evt, .saf, .pwr, .xpt, .cue, .red, .tim, .lane, .flow, .cmp, .aud, .out] pl = true := by first | rfl | exact Part.sub_trans rfl (by assumption)) :
    Moves pl z (compareReport c r n ref out s) := by
  unfold compareReport
  try dsimp only
  repeat' first
    | with_reducible assumption | exact Part.sub_trans rfl hl | with_reducible apply modComp_moves
    | with_reducible apply protFail_moves | with_reducible apply Moves.ite
    | (split <;> try dsimp only)

theorem takeReport_moves {pl : List Part} {z : State} (c : Nat) (r : Nat) (n : Nat) (ref : Word) (out : Word) (clear : Bool) {s : State}
    (hz : Moves pl z s)
    (hl : Part.sub [.mode, .aon, .pins, .start, .flash, .host, .evt, .saf, .pwr, .xpt, .cue, .red, .tim, .lane, .flow, .cmp, .aud, .out] pl = true := by first | rfl | exact Part.sub_trans rfl (by assumption)) :
    Moves pl z (takeReport c r n ref out clear s) := by
  unfold takeReport
  try dsimp only
  repeat' first
    | with_reducible assumption | exact Part.sub_trans rfl hl | with_reducible apply modComp_moves
    | with_reducible apply protFail_moves | with_reducible apply sendProtSig_moves
    | with_reducible apply comparePair_moves | with_reducible apply compareReport_moves
    | with_reducible apply Moves.ite
    | (split <;> try dsimp only)

theorem protCleared_moves {pl : List Part} {z : State} {s : State}
    (hz : Moves pl z s)
    (hl : Part.sub [.cmp] pl = true := by first | rfl | exact Part.sub_trans rfl (by assumption)) :
    Moves pl z (protCleared s) := by
  unfold protCleared
  try dsimp only
  repeat' first
    | with_reducible assumption | exact Part.sub_trans rfl hl | with_reducible apply Moves.onCmp

theorem execCmpProtWrite_moves {pl : List Part} {z : State} (t : Nat) (c : HostCmd) {s : State}
    (hz : Moves pl z s)
    (hl : Part.sub [.clock, .mode, .aon, .pins, .start, .flash, .host, .evt, .pwr, .xpt, .cue, .red, .lane, .flow, .fst, .cmp, .aud, .out] pl = true := by first | rfl | exact Part.sub_trans rfl (by assumption)) :
    MovesOut pl z (execCmpProtWrite t c s) := by
  exact runCommand_moves _ _ _ _ _ hz (fun _ h => effCmpProtWrite_moves _ h)

theorem execCmpProtRectSet_moves {pl : List Part} {z : State} (t : Nat) (c : HostCmd) {s : State}
    (hz : Moves pl z s)
    (hl : Part.sub [.clock, .flash, .host, .evt, .red, .cmp, .out] pl = true := by first | rfl | exact Part.sub_trans rfl (by assumption)) :
    MovesOut pl z (execCmpProtRectSet t c s) := by
  exact runCommand_moves _ _ _ _ _ hz (fun _ h => effCmpProtRectSet_moves _ h)

theorem execCmpProtGoldenSet_moves {pl : List Part} {z : State} (t : Nat) (c : HostCmd) {s : State}
    (hz : Moves pl z s)
    (hl : Part.sub [.clock, .flash, .host, .evt, .red, .cmp, .out] pl = true := by first | rfl | exact Part.sub_trans rfl (by assumption)) :
    MovesOut pl z (execCmpProtGoldenSet t c s) := by
  exact runCommand_moves _ _ _ _ _ hz (fun _ h => effCmpProtGoldenSet_moves _ h)

theorem execCmpProtStatus_moves {pl : List Part} {z : State} (t : Nat) (c : HostCmd) {s : State}
    (hz : Moves pl z s)
    (hl : Part.sub [.clock, .flash, .host, .evt, .red, .out] pl = true := by first | rfl | exact Part.sub_trans rfl (by assumption)) :
    MovesOut pl z (execCmpProtStatus t c s) := by
  exact runCommand_moves _ _ _ _ _ hz (fun _ h => effCmpProtStatus_moves _ h)

theorem execCmpProtCfgWrite_moves {pl : List Part} {z : State} (t : Nat) (c : Nat) (value : Nat) {s : State}
    (hz : Moves pl z s)
    (hl : Part.sub [.clock, .cmp] pl = true := by first | rfl | exact Part.sub_trans rfl (by assumption)) :
    MovesOut pl z (execCmpProtCfgWrite t c value s) := by
  unfold execCmpProtCfgWrite
  try dsimp only
  refine MovesOut.fault ?_
  try with_reducible refine MovesOut.next ?_
  repeat' first
    | with_reducible assumption | exact Part.sub_trans rfl hl | with_reducible apply writeProtCfg_moves
    | with_reducible apply advance_moves | with_reducible apply Moves.ite

theorem execSignatureReport_moves {pl : List Part} {z : State} (t : Nat) (c : Nat) (r : Nat) (frame : Nat) (ref : Option Word) (out : Option Word) (clear : Option Bool) {s : State}
    (hz : Moves pl z s)
    (hl : Part.sub [.clock, .mode, .aon, .pins, .start, .flash, .host, .evt, .saf, .pwr, .xpt, .cue, .red, .tim, .lane, .flow, .cmp, .aud, .out] pl = true := by first | rfl | exact Part.sub_trans rfl (by assumption)) :
    MovesOut pl z (execSignatureReport t c r frame ref out clear s) := by
  unfold execSignatureReport
  try dsimp only
  refine MovesOut.fault ?_
  try with_reducible refine MovesOut.next ?_
  repeat' first
    | with_reducible assumption | exact Part.sub_trans rfl hl | with_reducible apply advance_moves
    | with_reducible apply takeReport_moves | with_reducible apply Moves.ite

theorem execSignatureReportMissing_moves {pl : List Part} {z : State} (t : Nat) (c : Nat) (r : Nat) (frame : Nat) {s : State}
    (hz : Moves pl z s)
    (hl : Part.sub [.clock, .mode, .aon, .pins, .start, .flash, .host, .evt, .saf, .pwr, .xpt, .cue, .red, .tim, .lane, .flow, .cmp, .aud, .out] pl = true := by first | rfl | exact Part.sub_trans rfl (by assumption)) :
    MovesOut pl z (execSignatureReportMissing t c r frame s) := by
  unfold execSignatureReportMissing
  try dsimp only
  refine MovesOut.fault ?_
  try with_reducible refine MovesOut.next ?_
  repeat' first
    | with_reducible assumption | exact Part.sub_trans rfl hl | with_reducible apply advance_moves
    | with_reducible apply protFail_moves | with_reducible apply Moves.ite

end Sys2Proof.Machine
end

