-- ==== Sys2Proof/Laws/MovesSafetyMon.lean ====
section
/-! SUPPORT. What each operation and command of `Machine/SafetyMon.lean` moves. -/

-- The package is checked as one text; elaborating these proofs in order keeps the number of threads small.
set_option Elab.async false

namespace Sys2Proof.Machine

theorem danger_moves {pl : List Part} {z : State} (m : Nat) (code : Nat) (cls : Nat) (payload : List Word) {s : State}
    (hz : Moves pl z s)
    (hl : Part.sub [.mode, .aon, .pins, .start, .flash, .host, .evt, .saf, .pwr, .xpt, .cue, .red, .tim, .lane, .flow, .cmp, .aud, .out] pl = true := by first | rfl | exact Part.sub_trans rfl (by assumption)) :
    Moves pl z (danger m code cls payload s) := by
  unfold danger
  try dsimp only
  repeat' first
    | with_reducible assumption | exact Part.sub_trans rfl hl | with_reducible apply reaction_moves
    | with_reducible apply raise_moves

theorem effSafStatus_moves {pl : List Part} {z : State} {s : State} (c : HostCmd)
    (hz : Moves pl z s) :
    Moves pl z (effSafStatus s c).1 := by
  unfold effSafStatus
  try dsimp only
  repeat' first
    | with_reducible assumption | exact Part.sub_trans rfl hl

theorem endReaction_moves {pl : List Part} {z : State} {s : State}
    (hz : Moves pl z s)
    (hl : Part.sub [.mode, .aon, .pins, .start, .cal, .flash, .host, .evt, .saf, .pwr, .xpt, .cue, .red, .lane, .flow, .cmp, .aud, .out] pl = true := by first | rfl | exact Part.sub_trans rfl (by assumption)) :
    Moves pl z (endReaction s) := by
  unfold endReaction
  try dsimp only
  repeat' first
    | with_reducible assumption | exact Part.sub_trans rfl hl | with_reducible apply raise_moves
    | with_reducible apply Moves.onSaf | with_reducible apply reenterCalibrate_moves
    | with_reducible apply setSafePins_moves | with_reducible apply protCleared_moves

theorem effSafClear_moves {pl : List Part} {z : State} {s : State} (c : HostCmd)
    (hz : Moves pl z s)
    (hl : Part.sub [.mode, .aon, .pins, .start, .cal, .flash, .host, .evt, .saf, .pwr, .xpt, .cue, .red, .lane, .flow, .cmp, .aud, .out] pl = true := by first | rfl | exact Part.sub_trans rfl (by assumption)) :
    Moves pl z (effSafClear s c).1 := by
  unfold effSafClear
  try dsimp only
  repeat' first
    | with_reducible assumption | exact Part.sub_trans rfl hl | with_reducible apply Moves.onSaf
    | with_reducible apply chipFault_moves | with_reducible apply endReaction_moves
    | with_reducible apply Moves.ite | with_reducible apply Moves.ite_fst

theorem writeSafCfg_moves {pl : List Part} {z : State} (v : Nat) {s : State}
    (hz : Moves pl z s)
    (hl : Part.sub [.saf] pl = true := by first | rfl | exact Part.sub_trans rfl (by assumption)) :
    Moves pl z (writeSafCfg v s) := by
  unfold writeSafCfg
  try dsimp only
  repeat' first
    | with_reducible assumption | exact Part.sub_trans rfl hl | with_reducible apply Moves.onSaf

theorem effSafConfig_moves {pl : List Part} {z : State} {s : State} (c : HostCmd)
    (hz : Moves pl z s)
    (hl : Part.sub [.saf] pl = true := by first | rfl | exact Part.sub_trans rfl (by assumption)) :
    Moves pl z (effSafConfig s c).1 := by
  unfold effSafConfig
  try dsimp only
  repeat' first
    | with_reducible assumption | exact Part.sub_trans rfl hl | with_reducible apply writeSafCfg_moves

theorem readPin_moves {pl : List Part} {z : State} (pin : Nat) (driven : Bool) (sensed : Bool) {s : State}
    (hz : Moves pl z s)
    (hl : Part.sub [.mode, .aon, .pins, .start, .flash, .host, .evt, .saf, .pwr, .xpt, .cue, .red, .tim, .lane, .flow, .cmp, .aud, .out] pl = true := by first | rfl | exact Part.sub_trans rfl (by assumption)) :
    Moves pl z (readPin pin driven sensed s) := by
  unfold readPin
  try dsimp only
  repeat' first
    | with_reducible assumption | exact Part.sub_trans rfl hl | with_reducible apply Moves.onSaf
    | with_reducible apply danger_moves | with_reducible apply Moves.ite

theorem lockstepFail_moves {pl : List Part} {z : State} (channel : Nat) {s : State}
    (hz : Moves pl z s)
    (hl : Part.sub [.mode, .aon, .pins, .start, .flash, .host, .evt, .saf, .pwr, .xpt, .cue, .red, .tim, .lane, .flow, .cmp, .aud, .out] pl = true := by first | rfl | exact Part.sub_trans rfl (by assumption)) :
    Moves pl z (lockstepFail channel s) := by
  unfold lockstepFail
  try dsimp only
  repeat' first
    | with_reducible assumption | exact Part.sub_trans rfl hl | with_reducible apply danger_moves
    | with_reducible apply escCount_moves | with_reducible apply Moves.onSaf | with_reducible apply Moves.ite

theorem selfTest_moves {pl : List Part} {z : State} (flagged : Bool) (spurious : Bool) {s : State}
    (hz : Moves pl z s)
    (hl : Part.sub [.mode, .aon, .pins, .start, .flash, .host, .evt, .saf, .pwr, .xpt, .cue, .red, .tim, .lane, .flow, .cmp, .aud, .out] pl = true := by first | rfl | exact Part.sub_trans rfl (by assumption)) :
    Moves pl z (selfTest flagged spurious s) := by
  unfold selfTest
  try dsimp only
  repeat' first
    | with_reducible assumption | exact Part.sub_trans rfl hl | with_reducible apply escCount_moves
    | with_reducible apply Moves.onSaf | with_reducible apply danger_moves | with_reducible apply Moves.ite

theorem countReload_moves {pl : List Part} {z : State} (p : Nat) {s : State}
    (hz : Moves pl z s)
    (hl : Part.sub [.ctl] pl = true := by first | rfl | exact Part.sub_trans rfl (by assumption)) :
    Moves pl z (countReload p s) := by
  unfold countReload
  try dsimp only
  repeat' first
    | with_reducible assumption | exact Part.sub_trans rfl hl | with_reducible apply Moves.onCtl

theorem parkBlock_moves {pl : List Part} {z : State} (b : Nat) {s : State}
    (hz : Moves pl z s)
    (hl : Part.sub [.flow] pl = true := by first | rfl | exact Part.sub_trans rfl (by assumption)) :
    Moves pl z (parkBlock b s) := by
  unfold parkBlock
  try dsimp only
  repeat' first
    | with_reducible assumption | exact Part.sub_trans rfl hl | with_reducible apply parkNow_moves
    | with_reducible apply Moves.ite | (with_reducible apply Moves.foldl; intro _ _ _)

theorem failTransfers_moves {pl : List Part} {z : State} (b : Nat) {s : State}
    (hz : Moves pl z s)
    (hl : Part.sub [.ctl] pl = true := by first | rfl | exact Part.sub_trans rfl (by assumption)) :
    Moves pl z (failTransfers b s) := by
  unfold failTransfers
  try dsimp only
  repeat' first
    | with_reducible assumption | exact Part.sub_trans rfl hl | with_reducible apply Moves.onCtl
    | with_reducible apply Moves.ite

theorem containBlock_moves {pl : List Part} {z : State} (b : Nat) (s0 : State) {s : State}
    (hz : Moves pl z s)
    (hl : Part.sub [.ctl, .flow] pl = true := by first | rfl | exact Part.sub_trans rfl (by assumption)) :
    Moves pl z (containBlock b s0 s) := by
  unfold containBlock
  try dsimp only
  repeat' first
    | with_reducible assumption | exact Part.sub_trans rfl hl | with_reducible apply parkBlock_moves
    | with_reducible apply failTransfers_moves | with_reducible apply Moves.ite

theorem clearBlock_moves {pl : List Part} {z : State} (b : Nat) {s : State}
    (hz : Moves pl z s)
    (hl : Part.sub [.flow] pl = true := by first | rfl | exact Part.sub_trans rfl (by assumption)) :
    Moves pl z (clearBlock b s) := by
  unfold clearBlock
  try dsimp only
  repeat' first
    | with_reducible assumption | exact Part.sub_trans rfl hl | with_reducible apply Moves.onFlow
    | with_reducible apply Moves.ite

theorem runsAgain_moves {pl : List Part} {z : State} (p : Nat) {s : State}
    (hz : Moves pl z s)
    (hl : Part.sub [.saf, .ctl] pl = true := by first | rfl | exact Part.sub_trans rfl (by assumption)) :
    Moves pl z (runsAgain p s) := by
  unfold runsAgain
  try dsimp only
  repeat' first
    | with_reducible assumption | exact Part.sub_trans rfl hl | with_reducible apply countReload_moves
    | with_reducible apply Moves.onCtl | with_reducible apply Moves.onSaf

theorem execSafStatus_moves {pl : List Part} {z : State} (t : Nat) (c : HostCmd) {s : State}
    (hz : Moves pl z s)
    (hl : Part.sub [.clock, .flash, .host, .evt, .red, .out] pl = true := by first | rfl | exact Part.sub_trans rfl (by assumption)) :
    MovesOut pl z (execSafStatus t c s) := by
  exact runCommand_moves _ _ _ _ _ hz (fun _ h => effSafStatus_moves _ h)

theorem execSafClear_moves {pl : List Part} {z : State} (t : Nat) (c : HostCmd) {s : State}
    (hz : Moves pl z s)
    (hl : Part.sub [.clock, .mode, .aon, .pins, .start, .cal, .flash, .host, .evt, .saf, .pwr, .xpt, .cue, .red, .lane, .flow, .cmp, .aud, .out] pl = true := by first | rfl | exact Part.sub_trans rfl (by assumption)) :
    MovesOut pl z (execSafClear t c s) := by
  exact runCommand_moves _ _ _ _ _ hz (fun _ h => effSafClear_moves _ h)

theorem execSafConfig_moves {pl : List Part} {z : State} (t : Nat) (c : HostCmd) {s : State}
    (hz : Moves pl z s)
    (hl : Part.sub [.clock, .flash, .host, .evt, .saf, .red, .out] pl = true := by first | rfl | exact Part.sub_trans rfl (by assumption)) :
    MovesOut pl z (execSafConfig t c s) := by
  exact runCommand_moves _ _ _ _ _ hz (fun _ h => effSafConfig_moves _ h)

theorem execToggleGateRefresh_moves {pl : List Part} {z : State} (t : Nat) {s : State}
    (hz : Moves pl z s)
    (hl : Part.sub [.clock, .saf] pl = true := by first | rfl | exact Part.sub_trans rfl (by assumption)) :
    MovesOut pl z (execToggleGateRefresh t s) := by
  unfold execToggleGateRefresh
  try dsimp only
  try with_reducible refine MovesOut.next ?_
  repeat' first
    | with_reducible assumption | exact Part.sub_trans rfl hl | with_reducible apply advance_moves
    | with_reducible apply Moves.onSaf | with_reducible apply Moves.ite

theorem execGateExpired_moves {pl : List Part} {z : State} (t : Nat) {s : State}
    (hz : Moves pl z s)
    (hl : Part.sub [.clock, .mode, .aon, .pins, .start, .flash, .host, .evt, .saf, .pwr, .xpt, .cue, .red, .tim, .lane, .flow, .cmp, .aud, .out] pl = true := by first | rfl | exact Part.sub_trans rfl (by assumption)) :
    MovesOut pl z (execGateExpired t s) := by
  unfold execGateExpired
  try dsimp only
  try with_reducible refine MovesOut.next ?_
  repeat' first
    | with_reducible assumption | exact Part.sub_trans rfl hl | with_reducible apply advance_moves
    | with_reducible apply danger_moves | with_reducible apply setSafePins_moves
    | with_reducible apply Moves.onSaf | with_reducible apply Moves.ite
    | (split <;> try dsimp only)

theorem execSafePinReadback_moves {pl : List Part} {z : State} (t : Nat) (phase : Bool) (a : Bool) (b : Bool) {s : State}
    (hz : Moves pl z s)
    (hl : Part.sub [.clock, .mode, .aon, .pins, .start, .flash, .host, .evt, .saf, .pwr, .xpt, .cue, .red, .tim, .lane, .flow, .cmp, .aud, .out] pl = true := by first | rfl | exact Part.sub_trans rfl (by assumption)) :
    MovesOut pl z (execSafePinReadback t phase a b s) := by
  unfold execSafePinReadback
  try dsimp only
  try with_reducible refine MovesOut.next ?_
  repeat' first
    | with_reducible assumption | exact Part.sub_trans rfl hl | with_reducible apply advance_moves
    | with_reducible apply readPin_moves | with_reducible apply Moves.ite

theorem execLockstepFail_moves {pl : List Part} {z : State} (t : Nat) (channel : Nat) {s : State}
    (hz : Moves pl z s)
    (hl : Part.sub [.clock, .mode, .aon, .pins, .start, .flash, .host, .evt, .saf, .pwr, .xpt, .cue, .red, .tim, .lane, .flow, .cmp, .aud, .out] pl = true := by first | rfl | exact Part.sub_trans rfl (by assumption)) :
    MovesOut pl z (execLockstepFail t channel s) := by
  unfold execLockstepFail
  try dsimp only
  try with_reducible refine MovesOut.next ?_
  repeat' first
    | with_reducible assumption | exact Part.sub_trans rfl hl | with_reducible apply lockstepFail_moves
    | with_reducible apply advance_moves

theorem execComparatorSelfTest_moves {pl : List Part} {z : State} (t : Nat) (flagged : Bool) (spurious : Bool) {s : State}
    (hz : Moves pl z s)
    (hl : Part.sub [.clock, .mode, .aon, .pins, .start, .flash, .host, .evt, .saf, .pwr, .xpt, .cue, .red, .tim, .lane, .flow, .cmp, .aud, .out] pl = true := by first | rfl | exact Part.sub_trans rfl (by assumption)) :
    MovesOut pl z (execComparatorSelfTest t flagged spurious s) := by
  unfold execComparatorSelfTest
  try dsimp only
  try with_reducible refine MovesOut.next ?_
  repeat' first
    | with_reducible assumption | exact Part.sub_trans rfl hl | with_reducible apply advance_moves
    | with_reducible apply selfTest_moves | with_reducible apply Moves.ite

theorem execSafetyCoreReloadDone_moves {pl : List Part} {z : State} (t : Nat) (flagged : Bool) (spurious : Bool) {s : State}
    (hz : Moves pl z s)
    (hl : Part.sub [.clock, .mode, .aon, .pins, .start, .flash, .host, .evt, .saf, .ctl, .pwr, .xpt, .cue, .red, .tim, .lane, .flow, .cmp, .aud, .out] pl = true := by first | rfl | exact Part.sub_trans rfl (by assumption)) :
    MovesOut pl z (execSafetyCoreReloadDone t flagged spurious s) := by
  unfold execSafetyCoreReloadDone
  try dsimp only
  try with_reducible refine MovesOut.next ?_
  repeat' first
    | with_reducible assumption | exact Part.sub_trans rfl hl | with_reducible apply advance_moves
    | with_reducible apply selfTest_moves | with_reducible apply countReload_moves
    | with_reducible apply Moves.onSaf | with_reducible apply Moves.ite

theorem execProcStall_moves {pl : List Part} {z : State} (t : Nat) (proc : Nat) {s : State}
    (hz : Moves pl z s)
    (hl : Part.sub [.clock, .mode, .halWaitMs, .aon, .pins, .start, .cal, .flash, .host, .evt, .saf, .ctl, .pwr, .xpt, .cue, .red, .eth, .tim, .lane, .flow, .fst, .cmp, .aud, .out, .image] pl = true := by first | rfl | exact Part.sub_trans rfl (by assumption)) :
    MovesOut pl z (execProcStall t proc s) := by
  unfold execProcStall
  try dsimp only
  refine MovesOut.fault ?_
  try with_reducible refine MovesOut.next ?_
  repeat' first
    | with_reducible assumption | exact Part.sub_trans rfl hl | with_reducible apply advance_moves
    | with_reducible apply Moves.onSaf | with_reducible apply chipFault_moves
    | with_reducible apply raise_moves | with_reducible apply takeT1Start_moves
    | with_reducible apply Moves.ite

theorem execOverTemp_moves {pl : List Part} {z : State} (t : Nat) (sensor : Nat) (celsius : Nat) {s : State}
    (hz : Moves pl z s)
    (hl : Part.sub [.clock, .mode, .aon, .pins, .start, .flash, .host, .evt, .saf, .pwr, .xpt, .cue, .red, .lane, .flow, .cmp, .aud, .out] pl = true := by first | rfl | exact Part.sub_trans rfl (by assumption)) :
    MovesOut pl z (execOverTemp t sensor celsius s) := by
  unfold execOverTemp
  try dsimp only
  refine MovesOut.fault ?_
  try with_reducible refine MovesOut.next ?_
  repeat' first
    | with_reducible assumption | exact Part.sub_trans rfl hl | with_reducible apply advance_moves
    | with_reducible apply chipFault_moves | with_reducible apply raise_moves
    | with_reducible apply Moves.onSaf | with_reducible apply Moves.ite

theorem execIslandClockLost_moves {pl : List Part} {z : State} (t : Nat) (island : Nat) {s : State}
    (hz : Moves pl z s)
    (hl : Part.sub [.clock, .mode, .aon, .pins, .start, .flash, .host, .evt, .saf, .pwr, .xpt, .cue, .red, .tim, .lane, .flow, .cmp, .aud, .out] pl = true := by first | rfl | exact Part.sub_trans rfl (by assumption)) :
    MovesOut pl z (execIslandClockLost t island s) := by
  unfold execIslandClockLost
  try dsimp only
  refine MovesOut.fault ?_
  try with_reducible refine MovesOut.next ?_
  repeat' first
    | with_reducible assumption | exact Part.sub_trans rfl hl | with_reducible apply advance_moves
    | with_reducible apply Moves.onSaf | with_reducible apply danger_moves | with_reducible apply raise_moves
    | with_reducible apply chipFault_moves | with_reducible apply Moves.ite

theorem execIslandClockRestored_moves {pl : List Part} {z : State} (t : Nat) (island : Nat) {s : State}
    (hz : Moves pl z s)
    (hl : Part.sub [.clock, .saf] pl = true := by first | rfl | exact Part.sub_trans rfl (by assumption)) :
    MovesOut pl z (execIslandClockRestored t island s) := by
  unfold execIslandClockRestored
  try dsimp only
  refine MovesOut.fault ?_
  try with_reducible refine MovesOut.next ?_
  repeat' first
    | with_reducible assumption | exact Part.sub_trans rfl hl | with_reducible apply advance_moves
    | with_reducible apply Moves.onSaf | with_reducible apply Moves.ite

theorem execSupervisorClock_moves {pl : List Part} {z : State} (t : Nat) (khz : Nat) {s : State}
    (hz : Moves pl z s)
    (hl : Part.sub [.clock, .mode, .aon, .pins, .start, .flash, .host, .evt, .saf, .pwr, .xpt, .cue, .red, .tim, .lane, .flow, .cmp, .aud, .out] pl = true := by first | rfl | exact Part.sub_trans rfl (by assumption)) :
    MovesOut pl z (execSupervisorClock t khz s) := by
  unfold execSupervisorClock
  try dsimp only
  try with_reducible refine MovesOut.next ?_
  repeat' first
    | with_reducible assumption | exact Part.sub_trans rfl hl | with_reducible apply advance_moves
    | with_reducible apply danger_moves | with_reducible apply Moves.onSaf | with_reducible apply Moves.ite

theorem execContextParityConfirm_moves {pl : List Part} {z : State} (t : Nat) (level : Nat) (index : Nat) {s : State}
    (hz : Moves pl z s)
    (hl : Part.sub [.clock, .mode, .aon, .pins, .start, .flash, .host, .evt, .saf, .ctl, .pwr, .xpt, .cue, .red, .lane, .flow, .cmp, .aud, .out] pl = true := by first | rfl | exact Part.sub_trans rfl (by assumption)) :
    MovesOut pl z (execContextParityConfirm t level index s) := by
  unfold execContextParityConfirm
  try dsimp only
  refine MovesOut.fault ?_
  try with_reducible refine MovesOut.next ?_
  repeat' first
    | with_reducible assumption | exact Part.sub_trans rfl hl | with_reducible apply advance_moves
    | with_reducible apply containBlock_moves | with_reducible apply cellFailure_moves
    | with_reducible apply blockFailure_moves | with_reducible apply arbiterFailure_moves
    | with_reducible apply chipFault_moves | with_reducible apply Moves.ite

theorem execContextReloadDone_moves {pl : List Part} {z : State} (t : Nat) (cell : Nat) {s : State}
    (hz : Moves pl z s)
    (hl : Part.sub [.clock, .mode, .aon, .pins, .start, .flash, .host, .evt, .saf, .ctl, .pwr, .xpt, .cue, .red, .lane, .flow, .cmp, .aud, .out] pl = true := by first | rfl | exact Part.sub_trans rfl (by assumption)) :
    MovesOut pl z (execContextReloadDone t cell s) := by
  unfold execContextReloadDone
  try dsimp only
  refine MovesOut.fault ?_
  try with_reducible refine MovesOut.next ?_
  repeat' first
    | with_reducible assumption | exact Part.sub_trans rfl hl | with_reducible apply advance_moves
    | with_reducible apply containBlock_moves | with_reducible apply cellReloaded_moves
    | with_reducible apply Moves.ite

theorem execBlockRestartDone_moves {pl : List Part} {z : State} (t : Nat) (b : Nat) {s : State}
    (hz : Moves pl z s)
    (hl : Part.sub [.clock, .saf, .flow] pl = true := by first | rfl | exact Part.sub_trans rfl (by assumption)) :
    MovesOut pl z (execBlockRestartDone t b s) := by
  unfold execBlockRestartDone
  try dsimp only
  refine MovesOut.fault ?_
  try with_reducible refine MovesOut.next ?_
  repeat' first
    | with_reducible assumption | exact Part.sub_trans rfl hl | with_reducible apply advance_moves
    | with_reducible apply clearBlock_moves | with_reducible apply Moves.onSaf | with_reducible apply Moves.ite

theorem execStewardReloadDone_moves {pl : List Part} {z : State} (t : Nat) (r : Nat) {s : State}
    (hz : Moves pl z s)
    (hl : Part.sub [.clock, .saf, .ctl] pl = true := by first | rfl | exact Part.sub_trans rfl (by assumption)) :
    MovesOut pl z (execStewardReloadDone t r s) := by
  unfold execStewardReloadDone
  try dsimp only
  refine MovesOut.fault ?_
  try with_reducible refine MovesOut.next ?_
  repeat' first
    | with_reducible assumption | exact Part.sub_trans rfl hl | with_reducible apply advance_moves
    | with_reducible apply runsAgain_moves | with_reducible apply Moves.onSaf | with_reducible apply Moves.ite

end Sys2Proof.Machine
end

