-- ==== Sys2Proof/Laws/MovesCtl.lean ====
section
/-! SUPPORT. What each operation and command of `Machine/Ctl.lean` moves. -/

-- The package is checked as one text; elaborating these proofs in order keeps the number of threads small.
set_option Elab.async false

namespace Sys2Proof.Machine

theorem haltProcessor_moves {pl : List Part} {z : State} (p : Nat) {s : State}
    (hz : Moves pl z s)
    (hl : Part.sub [.mode, .aon, .pins, .start, .flash, .host, .evt, .saf, .ctl, .pwr, .xpt, .cue, .red, .tim, .lane, .flow, .cmp, .aud, .out, .free] pl = true := by first | rfl | exact Part.sub_trans rfl (by assumption)) :
    Moves pl z (haltProcessor p s) := by
  unfold haltProcessor
  dsimp only
  refine .ite (lockstepFail_moves _ ?_) (.ite hz (.ite (.onSaf (.onCtl hz _) _) (.onCtl hz _)))
  exact hz.setFree _ (Nat.le_succ _)

theorem sramEffect_moves {pl : List Part} {z : State} (u : SramUse) {s : State}
    (hz : Moves pl z s)
    (hl : Part.sub [.mode, .aon, .pins, .start, .flash, .host, .evt, .saf, .ctl, .pwr, .xpt, .cue, .red, .lane, .flow, .cmp, .aud, .out] pl = true := by first | rfl | exact Part.sub_trans rfl (by assumption)) :
    Moves pl z (sramEffect u s) := by
  cases u with
  | replyCache x => exact Moves.onHostSame hz (fun h => { h with cache := tdel h.cache x }) (fun _ => rfl) (fun _ => rfl)
  | reassembly x =>
    unfold sramEffect
    dsimp only
    split
    · refine sendReply_moves _ _ _ _ _ (hz.onHost _ (fun hf => ?_))
      rw [HostSt.fits_iff] at hf ⊢
      exact ⟨hf.1, Nat.le_trans (List.length_filter_le ..) hf.2⟩
    · exact hz
  | queued x seq =>
    unfold sramEffect
    dsimp only
    split
    · exact refuseWith_moves _ _ _ (dequeue_moves _ _ hz)
    · exact hz
  | contextCopy cell liveBad => exact .ite (containBlock_moves _ _ (isolateCell_moves _ _ hz)) hz
  | keptRecord k => exact hz.onRed (fun r => { r with kept := r.kept.filter (fun e => e.tick != k) })
  | configTable => exact hz

theorem controlParity_moves {pl : List Part} {z : State} (u : SramUse) {s : State}
    (hz : Moves pl z s)
    (hl : Part.sub [.mode, .aon, .pins, .start, .flash, .host, .evt, .saf, .ctl, .pwr, .xpt, .cue, .red, .lane, .flow, .cmp, .aud, .out] pl = true := by first | rfl | exact Part.sub_trans rfl (by assumption)) :
    Moves pl z (controlParity u s) := by
  unfold controlParity
  try dsimp only
  repeat' first
    | with_reducible assumption | exact Part.sub_trans rfl hl | with_reducible apply sramEffect_moves
    | with_reducible apply chipFault_moves | with_reducible apply Moves.onCtl | with_reducible apply Moves.ite

theorem busCount_moves {pl : List Part} {z : State} (i : Nat) (n : Nat) {s : State}
    (hz : Moves pl z s)
    (hl : Part.sub [.ctl] pl = true := by first | rfl | exact Part.sub_trans rfl (by assumption)) :
    Moves pl z (busCount i n s) := by
  unfold busCount
  try dsimp only
  repeat' first
    | with_reducible assumption | exact Part.sub_trans rfl hl | with_reducible apply Moves.onCtl

theorem completePort_moves {pl : List Part} {z : State} (p : Nat) {s : State}
    (hz : Moves pl z s)
    (hl : Part.sub [.ctl] pl = true := by first | rfl | exact Part.sub_trans rfl (by assumption)) :
    Moves pl z (completePort p s) := by
  unfold completePort
  try dsimp only
  repeat' first
    | with_reducible assumption | exact Part.sub_trans rfl hl | with_reducible apply Moves.onCtl
    | with_reducible apply Moves.ite
    | (split <;> try dsimp only)

theorem issueOne_moves {pl : List Part} {z : State} (p : Nat) (x : Transfer) {s : State}
    (hz : Moves pl z s)
    (hl : Part.sub [.ctl] pl = true := by first | rfl | exact Part.sub_trans rfl (by assumption)) :
    Moves pl z (issueOne p x s) := by
  unfold issueOne
  try dsimp only
  repeat' first
    | with_reducible assumption | exact Part.sub_trans rfl hl | with_reducible apply busCount_moves
    | with_reducible apply completePort_moves | with_reducible apply Moves.onCtl
    | with_reducible apply Moves.ite
    | (split <;> try dsimp only)

theorem issueAll_moves {pl : List Part} {z : State} (issued : List (Nat × Transfer)) {s : State}
    (hz : Moves pl z s)
    (hl : Part.sub [.ctl] pl = true := by first | rfl | exact Part.sub_trans rfl (by assumption)) :
    Moves pl z (issueAll issued s) := by
  unfold issueAll
  try dsimp only
  repeat' first
    | with_reducible assumption | exact Part.sub_trans rfl hl | with_reducible apply issueOne_moves
    | (with_reducible apply Moves.foldl; intro _ _ _)

theorem targetFailure_moves {pl : List Part} {z : State} (g : BusTarget) {s : State}
    (hz : Moves pl z s)
    (hl : Part.sub [.mode, .aon, .pins, .start, .flash, .host, .evt, .saf, .ctl, .pwr, .xpt, .cue, .red, .lane, .flow, .cmp, .aud, .out] pl = true := by first | rfl | exact Part.sub_trans rfl (by assumption)) :
    Moves pl z (targetFailure g s) := by
  unfold targetFailure
  try dsimp only
  repeat' first
    | with_reducible assumption | exact Part.sub_trans rfl hl | with_reducible apply chipFault_moves
    | with_reducible apply compFailure_moves | with_reducible apply containBlock_moves
    | with_reducible apply blockFailure_moves
    | (split <;> try dsimp only)

theorem answer_moves {pl : List Part} {z : State} (p : Nat) (tag : Nat) (status : Nat) {s : State}
    (hz : Moves pl z s)
    (hl : Part.sub [.ctl] pl = true := by first | rfl | exact Part.sub_trans rfl (by assumption)) :
    Moves pl z (answer p tag status s) := by
  unfold answer
  try dsimp only
  repeat' first
    | with_reducible assumption | exact Part.sub_trans rfl hl | with_reducible apply busCount_moves
    | with_reducible apply Moves.onCtl | with_reducible apply completePort_moves
    | with_reducible apply Moves.ite

theorem writeCompatCfg_moves {pl : List Part} {z : State} (v : Nat) {s : State}
    (hz : Moves pl z s)
    (hl : Part.sub [.ctl] pl = true := by first | rfl | exact Part.sub_trans rfl (by assumption)) :
    Moves pl z (writeCompatCfg v s) := by
  unfold writeCompatCfg
  try dsimp only
  repeat' first
    | with_reducible assumption | exact Part.sub_trans rfl hl | with_reducible apply Moves.onCtl

theorem execPrivateSramParity_moves {pl : List Part} {z : State} (t : Nat) (proc : Nat) {s : State}
    (hz : Moves pl z s)
    (hl : Part.sub [.clock, .mode, .aon, .pins, .start, .flash, .host, .evt, .saf, .ctl, .pwr, .xpt, .cue, .red, .tim, .lane, .flow, .cmp, .aud, .out, .free] pl = true := by first | rfl | exact Part.sub_trans rfl (by assumption)) :
    MovesOut pl z (execPrivateSramParity t proc s) := by
  unfold execPrivateSramParity
  try dsimp only
  refine MovesOut.fault ?_
  try with_reducible refine MovesOut.next ?_
  repeat' first
    | with_reducible assumption | exact Part.sub_trans rfl hl | with_reducible apply haltProcessor_moves
    | with_reducible apply advance_moves | with_reducible apply Moves.ite

theorem execControlSramParity_moves {pl : List Part} {z : State} (t : Nat) (u : SramUse) {s : State}
    (hz : Moves pl z s)
    (hl : Part.sub [.clock, .mode, .aon, .pins, .start, .flash, .host, .evt, .saf, .ctl, .pwr, .xpt, .cue, .red, .lane, .flow, .cmp, .aud, .out] pl = true := by first | rfl | exact Part.sub_trans rfl (by assumption)) :
    MovesOut pl z (execControlSramParity t u s) := by
  unfold execControlSramParity
  try dsimp only
  try with_reducible refine MovesOut.next ?_
  repeat' first
    | with_reducible assumption | exact Part.sub_trans rfl hl | with_reducible apply controlParity_moves
    | with_reducible apply advance_moves

theorem execBackgroundSramCheck_moves {pl : List Part} {z : State} (t : Nat) (proc : Option Nat) (u : Option SramUse) {s : State}
    (hz : Moves pl z s)
    (hl : Part.sub [.clock, .mode, .aon, .pins, .start, .flash, .host, .evt, .saf, .ctl, .pwr, .xpt, .cue, .red, .tim, .lane, .flow, .cmp, .aud, .out, .free] pl = true := by first | rfl | exact Part.sub_trans rfl (by assumption)) :
    MovesOut pl z (execBackgroundSramCheck t proc u s) := by
  unfold execBackgroundSramCheck
  try dsimp only
  refine MovesOut.fault ?_
  try with_reducible refine MovesOut.next ?_
  repeat' first
    | with_reducible assumption | exact Part.sub_trans rfl hl | with_reducible apply advance_moves
    | with_reducible apply haltProcessor_moves | with_reducible apply controlParity_moves
    | with_reducible apply Moves.ite
    | (split <;> try dsimp only)

theorem execCueProcessorReloadDone_moves {pl : List Part} {z : State} (t : Nat) {s : State}
    (hz : Moves pl z s)
    (hl : Part.sub [.clock, .flash, .evt, .saf, .ctl, .cue] pl = true := by first | rfl | exact Part.sub_trans rfl (by assumption)) :
    MovesOut pl z (execCueProcessorReloadDone t s) := by
  unfold execCueProcessorReloadDone
  try dsimp only
  try with_reducible refine MovesOut.next ?_
  repeat' first
    | with_reducible assumption | exact Part.sub_trans rfl hl | with_reducible apply advance_moves
    | with_reducible apply runsAgain_moves | with_reducible apply endInstances_moves
    | with_reducible apply Moves.ite

theorem execBusTransferResponse_moves {pl : List Part} {z : State} (t : Nat) (port : Nat) (tag : Nat) (status : Nat) (badData : Bool) (issued : List (Nat × Transfer)) {s : State}
    (hz : Moves pl z s)
    (hl : Part.sub [.clock, .mode, .aon, .pins, .start, .flash, .host, .evt, .saf, .ctl, .pwr, .xpt, .cue, .red, .lane, .flow, .cmp, .aud, .out] pl = true := by first | rfl | exact Part.sub_trans rfl (by assumption)) :
    MovesOut pl z (execBusTransferResponse t port tag status badData issued s) := by
  unfold execBusTransferResponse
  try dsimp only
  refine MovesOut.fault ?_
  try with_reducible refine MovesOut.next ?_
  repeat' first
    | with_reducible assumption | exact Part.sub_trans rfl hl | with_reducible apply issueAll_moves
    | with_reducible apply advance_moves | with_reducible apply targetFailure_moves
    | with_reducible apply answer_moves | with_reducible apply busCount_moves | with_reducible apply Moves.ite
    | (split <;> try dsimp only)

theorem execTargetTimeout_moves {pl : List Part} {z : State} (t : Nat) (port : Nat) (tag : Nat) (issued : List (Nat × Transfer)) {s : State}
    (hz : Moves pl z s)
    (hl : Part.sub [.clock, .ctl] pl = true := by first | rfl | exact Part.sub_trans rfl (by assumption)) :
    MovesOut pl z (execTargetTimeout t port tag issued s) := by
  unfold execTargetTimeout
  try dsimp only
  refine MovesOut.fault ?_
  try with_reducible refine MovesOut.next ?_
  repeat' first
    | with_reducible assumption | exact Part.sub_trans rfl hl | with_reducible apply issueAll_moves
    | with_reducible apply advance_moves | with_reducible apply answer_moves
    | with_reducible apply busCount_moves | with_reducible apply Moves.ite
    | (split <;> try dsimp only)

theorem execMasterPortReset_moves {pl : List Part} {z : State} (t : Nat) (port : Nat) (left : Nat) (issued : List (Nat × Transfer)) {s : State}
    (hz : Moves pl z s)
    (hl : Part.sub [.clock, .ctl] pl = true := by first | rfl | exact Part.sub_trans rfl (by assumption)) :
    MovesOut pl z (execMasterPortReset t port left issued s) := by
  unfold execMasterPortReset
  try dsimp only
  refine MovesOut.fault ?_
  try with_reducible refine MovesOut.next ?_
  repeat' first
    | with_reducible assumption | exact Part.sub_trans rfl hl | with_reducible apply issueAll_moves
    | with_reducible apply advance_moves | with_reducible apply busCount_moves
    | with_reducible apply Moves.onCtl | with_reducible apply Moves.ite

theorem execPortRetireDone_moves {pl : List Part} {z : State} (t : Nat) (port : Nat) {s : State}
    (hz : Moves pl z s)
    (hl : Part.sub [.clock, .ctl] pl = true := by first | rfl | exact Part.sub_trans rfl (by assumption)) :
    MovesOut pl z (execPortRetireDone t port s) := by
  unfold execPortRetireDone
  try dsimp only
  refine MovesOut.fault ?_
  try with_reducible refine MovesOut.next ?_
  repeat' first
    | with_reducible assumption | exact Part.sub_trans rfl hl | with_reducible apply advance_moves
    | with_reducible apply busCount_moves | with_reducible apply Moves.onCtl | with_reducible apply Moves.ite
    | (split <;> try dsimp only)

theorem execLockedPairTimeout_moves {pl : List Part} {z : State} (t : Nat) (waits : Nat) (issued : List (Nat × Transfer)) {s : State}
    (hz : Moves pl z s)
    (hl : Part.sub [.clock, .ctl] pl = true := by first | rfl | exact Part.sub_trans rfl (by assumption)) :
    MovesOut pl z (execLockedPairTimeout t waits issued s) := by
  unfold execLockedPairTimeout
  try dsimp only
  try with_reducible refine MovesOut.next ?_
  repeat' first
    | with_reducible assumption | exact Part.sub_trans rfl hl | with_reducible apply issueAll_moves
    | with_reducible apply advance_moves | with_reducible apply busCount_moves
    | with_reducible apply Moves.onCtl | with_reducible apply Moves.ite
    | (split <;> try dsimp only)

end Sys2Proof.Machine
end

