-- ==== Sys2Proof/Laws/MovesAudio.lean ====
section
/-! SUPPORT. What each operation and command of `Machine/Audio.lean` moves. -/

-- The package is checked as one text; elaborating these proofs in order keeps the number of threads small.
set_option Elab.async false

namespace Sys2Proof.Machine

theorem breakAway_moves {pl : List Part} {z : State} (e : Entry) {s : State}
    (hz : Moves pl z s)
    (hl : Part.sub [.aud] pl = true := by first | rfl | exact Part.sub_trans rfl (by assumption)) :
    Moves pl z (breakAway e s) := by
  unfold breakAway
  try dsimp only
  repeat' first
    | with_reducible assumption | exact Part.sub_trans rfl hl | with_reducible apply Moves.onAud
    | with_reducible apply Moves.ite
    | (split <;> try dsimp only)

theorem effAudRoute_moves {pl : List Part} {z : State} {s : State} (c : HostCmd)
    (hz : Moves pl z s)
    (hl : Part.sub [.flash, .evt, .xpt, .aud] pl = true := by first | rfl | exact Part.sub_trans rfl (by assumption)) :
    Moves pl z (effAudRoute s c).1 := by
  unfold effAudRoute
  try dsimp only
  repeat' first
    | with_reducible assumption | exact Part.sub_trans rfl hl | with_reducible apply placeCommand_moves
    | with_reducible apply breakAway_moves | with_reducible apply Moves.ite
    | with_reducible apply Moves.ite_fst

theorem effAudRouteBatch_moves {pl : List Part} {z : State} {s : State} (c : HostCmd)
    (hz : Moves pl z s)
    (hl : Part.sub [.flash, .evt, .xpt, .aud] pl = true := by first | rfl | exact Part.sub_trans rfl (by assumption)) :
    Moves pl z (effAudRouteBatch s c).1 := by
  unfold effAudRouteBatch
  try dsimp only
  repeat' first
    | with_reducible assumption | exact Part.sub_trans rfl hl | with_reducible apply placeCommand_moves
    | with_reducible apply breakAway_moves | with_reducible apply Moves.ite
    | with_reducible apply Moves.ite_fst | (with_reducible apply Moves.foldl; intro _ _ _)

theorem effAudGain_moves {pl : List Part} {z : State} {s : State} (c : HostCmd)
    (hz : Moves pl z s)
    (hl : Part.sub [.flash, .evt, .xpt] pl = true := by first | rfl | exact Part.sub_trans rfl (by assumption)) :
    Moves pl z (effAudGain s c).1 := by
  unfold effAudGain
  try dsimp only
  repeat' first
    | with_reducible assumption | exact Part.sub_trans rfl hl | with_reducible apply placeCommand_moves
    | with_reducible apply Moves.ite | with_reducible apply Moves.ite_fst

theorem effAudFollow_moves {pl : List Part} {z : State} {s : State} (c : HostCmd)
    (hz : Moves pl z s)
    (hl : Part.sub [.aud] pl = true := by first | rfl | exact Part.sub_trans rfl (by assumption)) :
    Moves pl z (effAudFollow s c).1 := by
  unfold effAudFollow
  try dsimp only
  repeat' first
    | with_reducible assumption | exact Part.sub_trans rfl hl | with_reducible apply Moves.onAud

theorem modPort_moves {pl : List Part} {z : State} (p : Nat) (f : AudPort → AudPort) {s : State}
    (hz : Moves pl z s)
    (hl : Part.sub [.aud] pl = true := by first | rfl | exact Part.sub_trans rfl (by assumption)) :
    Moves pl z (modPort p f s) := by
  unfold modPort
  try dsimp only
  repeat' first
    | with_reducible assumption | exact Part.sub_trans rfl hl | with_reducible apply Moves.onAud

theorem portCount_moves {pl : List Part} {z : State} (p : Nat) (i : Nat) {s : State}
    (hz : Moves pl z s)
    (hl : Part.sub [.aud] pl = true := by first | rfl | exact Part.sub_trans rfl (by assumption)) :
    Moves pl z (portCount p i s) := by
  unfold portCount
  try dsimp only
  repeat' first
    | with_reducible assumption | exact Part.sub_trans rfl hl | with_reducible apply modPort_moves

theorem setPortState_moves {pl : List Part} {z : State} (p : Nat) (new : Nat) (rate : Nat) {s : State}
    (hz : Moves pl z s)
    (hl : Part.sub [.flash, .evt, .aud] pl = true := by first | rfl | exact Part.sub_trans rfl (by assumption)) :
    Moves pl z (setPortState p new rate s) := by
  unfold setPortState
  try dsimp only
  repeat' first
    | with_reducible assumption | exact Part.sub_trans rfl hl | with_reducible apply modPort_moves
    | with_reducible apply fadeIn_moves | with_reducible apply fadeOut_moves | with_reducible apply raise_moves
    | with_reducible apply Moves.ite | (with_reducible apply Moves.foldl; intro _ _ _)

theorem effAudPortConfig_moves {pl : List Part} {z : State} {s : State} (c : HostCmd)
    (hz : Moves pl z s)
    (hl : Part.sub [.flash, .evt, .aud] pl = true := by first | rfl | exact Part.sub_trans rfl (by assumption)) :
    Moves pl z (effAudPortConfig s c).1 := by
  unfold effAudPortConfig
  try dsimp only
  repeat' first
    | with_reducible assumption | exact Part.sub_trans rfl hl | with_reducible apply modPort_moves
    | with_reducible apply setPortState_moves | with_reducible apply Moves.ite
    | with_reducible apply Moves.ite_fst

theorem modStream_moves {pl : List Part} {z : State} (k : Nat) (f : AudStream → AudStream) {s : State}
    (hz : Moves pl z s)
    (hl : Part.sub [.aud] pl = true := by first | rfl | exact Part.sub_trans rfl (by assumption)) :
    Moves pl z (modStream k f s) := by
  unfold modStream
  try dsimp only
  repeat' first
    | with_reducible assumption | exact Part.sub_trans rfl hl | with_reducible apply Moves.onAud

theorem setStreamState_moves {pl : List Part} {z : State} (k : Nat) (new : Nat) {s : State}
    (hz : Moves pl z s)
    (hl : Part.sub [.flash, .evt, .aud] pl = true := by first | rfl | exact Part.sub_trans rfl (by assumption)) :
    Moves pl z (setStreamState k new s) := by
  unfold setStreamState
  try dsimp only
  repeat' first
    | with_reducible assumption | exact Part.sub_trans rfl hl | with_reducible apply raise_moves
    | with_reducible apply modStream_moves | with_reducible apply Moves.ite

theorem effAudStreamConfig_moves {pl : List Part} {z : State} {s : State} (c : HostCmd)
    (hz : Moves pl z s)
    (hl : Part.sub [.flash, .evt, .aud] pl = true := by first | rfl | exact Part.sub_trans rfl (by assumption)) :
    Moves pl z (effAudStreamConfig s c).1 := by
  unfold effAudStreamConfig
  try dsimp only
  repeat' first
    | with_reducible assumption | exact Part.sub_trans rfl hl | with_reducible apply modStream_moves
    | with_reducible apply fadeOut_moves | with_reducible apply setStreamState_moves
    | with_reducible apply Moves.ite | with_reducible apply Moves.ite_fst
    | (with_reducible apply Moves.foldl; intro _ _ _)

theorem writeAudCfg_moves {pl : List Part} {z : State} (v : Nat) {s : State}
    (hz : Moves pl z s)
    (hl : Part.sub [.flash, .evt, .aud] pl = true := by first | rfl | exact Part.sub_trans rfl (by assumption)) :
    Moves pl z (writeAudCfg v s) := by
  unfold writeAudCfg
  try dsimp only
  repeat' first
    | with_reducible assumption | exact Part.sub_trans rfl hl | with_reducible apply audClock_moves
    | with_reducible apply Moves.onAud | with_reducible apply Moves.ite

theorem effAudQuery_moves {pl : List Part} {z : State} {s : State} (c : HostCmd)
    (hz : Moves pl z s) :
    Moves pl z (effAudQuery s c).1 := by
  unfold effAudQuery
  try dsimp only
  repeat' first
    | with_reducible assumption | exact Part.sub_trans rfl hl
    | (split <;> try dsimp only)

theorem landAudioEntry_moves {pl : List Part} {z : State} (o : Nat) (e : Entry) {s : State}
    (hz : Moves pl z s)
    (hl : Part.sub [.host, .xpt, .red, .aud, .out] pl = true := by first | rfl | exact Part.sub_trans rfl (by assumption)) :
    Moves pl z (landAudioEntry o e s) := by
  unfold landAudioEntry
  try dsimp only
  repeat' first
    | with_reducible assumption | exact Part.sub_trans rfl hl | with_reducible apply entryGone_moves
    | with_reducible apply landAudio_moves | with_reducible apply freeEntry_moves
    | with_reducible apply Moves.ite
    | (split <;> try dsimp only)

theorem landFollow_moves {pl : List Part} {z : State} (x : FollowDue) {s : State}
    (hz : Moves pl z s)
    (hl : Part.sub [.aud] pl = true := by first | rfl | exact Part.sub_trans rfl (by assumption)) :
    Moves pl z (landFollow x s) := by
  unfold landFollow
  try dsimp only
  repeat' first
    | with_reducible assumption | exact Part.sub_trans rfl hl | with_reducible apply landAudio_moves
    | with_reducible apply Moves.onAud

theorem portRateChange_moves {pl : List Part} {z : State} (p : Nat) {s : State}
    (hz : Moves pl z s)
    (hl : Part.sub [.flash, .evt, .aud] pl = true := by first | rfl | exact Part.sub_trans rfl (by assumption)) :
    Moves pl z (portRateChange p s) := by
  unfold portRateChange
  try dsimp only
  repeat' first
    | with_reducible assumption | exact Part.sub_trans rfl hl | with_reducible apply setPortState_moves
    | with_reducible apply portCount_moves | with_reducible apply modPort_moves

theorem portWindow_moves {pl : List Part} {z : State} (p : Nat) (mhz : Nat) {s : State}
    (hz : Moves pl z s)
    (hl : Part.sub [.flash, .evt, .aud] pl = true := by first | rfl | exact Part.sub_trans rfl (by assumption)) :
    Moves pl z (portWindow p mhz s) := by
  unfold portWindow
  try dsimp only
  repeat' first
    | with_reducible assumption | exact Part.sub_trans rfl hl | with_reducible apply modPort_moves
    | with_reducible apply portRateChange_moves | with_reducible apply setPortState_moves
    | with_reducible apply Moves.ite

theorem portOut_moves {pl : List Part} {z : State} (p : Nat) {s : State}
    (hz : Moves pl z s)
    (hl : Part.sub [.out] pl = true := by first | rfl | exact Part.sub_trans rfl (by assumption)) :
    Moves pl z (portOut p s) := by
  unfold portOut
  try dsimp only
  repeat' first
    | with_reducible assumption | exact Part.sub_trans rfl hl | with_reducible apply emit_moves
    | with_reducible apply Moves.ite | (with_reducible apply Moves.foldl; intro _ _ _)

theorem portLevels_moves {pl : List Part} {z : State} (p : Nat) (fifoIn : Nat) (fifoOut : Nat) (ppm : Int) {s : State}
    (hz : Moves pl z s)
    (hl : Part.sub [.aud] pl = true := by first | rfl | exact Part.sub_trans rfl (by assumption)) :
    Moves pl z (portLevels p fifoIn fifoOut ppm s) := by
  unfold portLevels
  try dsimp only
  repeat' first
    | with_reducible assumption | exact Part.sub_trans rfl hl | with_reducible apply modPort_moves
    | with_reducible apply startSeam_moves | with_reducible apply portCount_moves
    | with_reducible apply Moves.ite | (with_reducible apply Moves.foldl; intro _ _ _)
    | (split <;> try dsimp only)

theorem portFrame_moves {pl : List Part} {z : State} (p : Nat) (clocks : Nat) (left : Nat) (right : Nat) (fifoIn : Nat) (fifoOut : Nat) (ppm : Int) {s : State}
    (hz : Moves pl z s)
    (hl : Part.sub [.flash, .evt, .aud, .out] pl = true := by first | rfl | exact Part.sub_trans rfl (by assumption)) :
    Moves pl z (portFrame p clocks left right fifoIn fifoOut ppm s) := by
  unfold portFrame
  try dsimp only
  repeat' first
    | with_reducible assumption | exact Part.sub_trans rfl hl | with_reducible apply raise_moves
    | with_reducible apply portCount_moves | with_reducible apply modPort_moves
    | with_reducible apply portRateChange_moves | with_reducible apply portOut_moves
    | with_reducible apply portLevels_moves | with_reducible apply modIn_moves | with_reducible apply Moves.ite

theorem streamMissing_moves {pl : List Part} {z : State} (k : Nat) (n : Nat) {s : State}
    (hz : Moves pl z s)
    (hl : Part.sub [.aud] pl = true := by first | rfl | exact Part.sub_trans rfl (by assumption)) :
    Moves pl z (streamMissing k n s) := by
  unfold streamMissing
  try dsimp only
  repeat' first
    | with_reducible assumption | exact Part.sub_trans rfl hl | with_reducible apply audCount_moves
    | with_reducible apply fadeOut_moves | with_reducible apply Moves.ite
    | (with_reducible apply Moves.foldl; intro _ _ _)

theorem streamPacket_moves {pl : List Part} {z : State} (k : Nat) (rtp : Nat) (data : List Byte) {s : State}
    (hz : Moves pl z s)
    (hl : Part.sub [.flash, .evt, .aud] pl = true := by first | rfl | exact Part.sub_trans rfl (by assumption)) :
    Moves pl z (streamPacket k rtp data s) := by
  unfold streamPacket
  try dsimp only
  repeat' first
    | with_reducible assumption | exact Part.sub_trans rfl hl | with_reducible apply streamMissing_moves
    | with_reducible apply modStream_moves | with_reducible apply fadeIn_moves
    | with_reducible apply modIn_moves | with_reducible apply setStreamState_moves
    | with_reducible apply Moves.ite | (with_reducible apply Moves.foldl; intro _ _ _)
    | (split <;> try dsimp only)

theorem execAudRoute_moves {pl : List Part} {z : State} (t : Nat) (c : HostCmd) {s : State}
    (hz : Moves pl z s)
    (hl : Part.sub [.clock, .flash, .host, .evt, .xpt, .red, .aud, .out] pl = true := by first | rfl | exact Part.sub_trans rfl (by assumption)) :
    MovesOut pl z (execAudRoute t c s) := by
  exact runCommand_moves _ _ _ _ _ hz (fun _ h => effAudRoute_moves _ h)

theorem execAudRouteBatch_moves {pl : List Part} {z : State} (t : Nat) (c : HostCmd) {s : State}
    (hz : Moves pl z s)
    (hl : Part.sub [.clock, .flash, .host, .evt, .xpt, .red, .aud, .out] pl = true := by first | rfl | exact Part.sub_trans rfl (by assumption)) :
    MovesOut pl z (execAudRouteBatch t c s) := by
  exact runCommand_moves _ _ _ _ _ hz (fun _ h => effAudRouteBatch_moves _ h)

theorem execAudGain_moves {pl : List Part} {z : State} (t : Nat) (c : HostCmd) {s : State}
    (hz : Moves pl z s)
    (hl : Part.sub [.clock, .flash, .host, .evt, .xpt, .red, .out] pl = true := by first | rfl | exact Part.sub_trans rfl (by assumption)) :
    MovesOut pl z (execAudGain t c s) := by
  exact runCommand_moves _ _ _ _ _ hz (fun _ h => effAudGain_moves _ h)

theorem execAudFollow_moves {pl : List Part} {z : State} (t : Nat) (c : HostCmd) {s : State}
    (hz : Moves pl z s)
    (hl : Part.sub [.clock, .flash, .host, .evt, .red, .aud, .out] pl = true := by first | rfl | exact Part.sub_trans rfl (by assumption)) :
    MovesOut pl z (execAudFollow t c s) := by
  exact runCommand_moves _ _ _ _ _ hz (fun _ h => effAudFollow_moves _ h)

theorem execAudPortConfig_moves {pl : List Part} {z : State} (t : Nat) (c : HostCmd) {s : State}
    (hz : Moves pl z s)
    (hl : Part.sub [.clock, .flash, .host, .evt, .red, .aud, .out] pl = true := by first | rfl | exact Part.sub_trans rfl (by assumption)) :
    MovesOut pl z (execAudPortConfig t c s) := by
  exact runCommand_moves _ _ _ _ _ hz (fun _ h => effAudPortConfig_moves _ h)

theorem execAudStreamConfig_moves {pl : List Part} {z : State} (t : Nat) (c : HostCmd) {s : State}
    (hz : Moves pl z s)
    (hl : Part.sub [.clock, .flash, .host, .evt, .red, .aud, .out] pl = true := by first | rfl | exact Part.sub_trans rfl (by assumption)) :
    MovesOut pl z (execAudStreamConfig t c s) := by
  exact runCommand_moves _ _ _ _ _ hz (fun _ h => effAudStreamConfig_moves _ h)

theorem execAudQuery_moves {pl : List Part} {z : State} (t : Nat) (c : HostCmd) {s : State}
    (hz : Moves pl z s)
    (hl : Part.sub [.clock, .flash, .host, .evt, .red, .out] pl = true := by first | rfl | exact Part.sub_trans rfl (by assumption)) :
    MovesOut pl z (execAudQuery t c s) := by
  exact runCommand_moves _ _ _ _ _ hz (fun _ h => effAudQuery_moves _ h)

theorem execAudioChangeLands_moves {pl : List Part} {z : State} (t : Nat) (o : Nat) {s : State}
    (hz : Moves pl z s)
    (hl : Part.sub [.clock, .host, .xpt, .red, .aud, .out] pl = true := by first | rfl | exact Part.sub_trans rfl (by assumption)) :
    MovesOut pl z (execAudioChangeLands t o s) := by
  unfold execAudioChangeLands
  try dsimp only
  refine MovesOut.fault ?_
  try with_reducible refine MovesOut.next ?_
  repeat' first
    | with_reducible assumption | exact Part.sub_trans rfl hl | with_reducible apply advance_moves
    | with_reducible apply landAudioEntry_moves | with_reducible apply landFollow_moves
    | with_reducible apply Moves.ite | (with_reducible apply Moves.foldl; intro _ _ _)
    | (split <;> try dsimp only)

theorem execZeroCrossing_moves {pl : List Part} {z : State} (t : Nat) (o : Nat) (which : Nat) {s : State}
    (hz : Moves pl z s)
    (hl : Part.sub [.clock, .aud] pl = true := by first | rfl | exact Part.sub_trans rfl (by assumption)) :
    MovesOut pl z (execZeroCrossing t o which s) := by
  unfold execZeroCrossing
  try dsimp only
  refine MovesOut.fault ?_
  try with_reducible refine MovesOut.next ?_
  repeat' first
    | with_reducible assumption | exact Part.sub_trans rfl hl | with_reducible apply advance_moves
    | with_reducible apply modOut_moves | with_reducible apply audCount_moves | with_reducible apply Moves.ite
    | (split <;> try dsimp only)

theorem execZeroCrossingTimeout_moves {pl : List Part} {z : State} (t : Nat) (o : Nat) {s : State}
    (hz : Moves pl z s)
    (hl : Part.sub [.clock, .aud] pl = true := by first | rfl | exact Part.sub_trans rfl (by assumption)) :
    MovesOut pl z (execZeroCrossingTimeout t o s) := by
  unfold execZeroCrossingTimeout
  try dsimp only
  refine MovesOut.fault ?_
  try with_reducible refine MovesOut.next ?_
  repeat' first
    | with_reducible assumption | exact Part.sub_trans rfl hl | with_reducible apply advance_moves
    | with_reducible apply audCount_moves | with_reducible apply modOut_moves | with_reducible apply Moves.ite
    | (split <;> try dsimp only)

theorem execGainRampDone_moves {pl : List Part} {z : State} (t : Nat) (o : Nat) {s : State}
    (hz : Moves pl z s)
    (hl : Part.sub [.clock, .aud] pl = true := by first | rfl | exact Part.sub_trans rfl (by assumption)) :
    MovesOut pl z (execGainRampDone t o s) := by
  unfold execGainRampDone
  try dsimp only
  refine MovesOut.fault ?_
  try with_reducible refine MovesOut.next ?_
  repeat' first
    | with_reducible assumption | exact Part.sub_trans rfl hl | with_reducible apply advance_moves
    | with_reducible apply modOut_moves | with_reducible apply Moves.ite
    | (split <;> try dsimp only)

theorem execConverterSlip_moves {pl : List Part} {z : State} (t : Nat) (channel : Nat) {s : State}
    (hz : Moves pl z s)
    (hl : Part.sub [.clock, .aud] pl = true := by first | rfl | exact Part.sub_trans rfl (by assumption)) :
    MovesOut pl z (execConverterSlip t channel s) := by
  unfold execConverterSlip
  try dsimp only
  refine MovesOut.fault ?_
  try with_reducible refine MovesOut.next ?_
  repeat' first
    | with_reducible assumption | exact Part.sub_trans rfl hl | with_reducible apply audCount_moves
    | with_reducible apply advance_moves | with_reducible apply Moves.ite

theorem execAudioParity_moves {pl : List Part} {z : State} (t : Nat) (channel : Nat) (place : Nat) {s : State}
    (hz : Moves pl z s)
    (hl : Part.sub [.clock, .mode, .aon, .pins, .start, .flash, .host, .evt, .saf, .pwr, .xpt, .cue, .red, .lane, .flow, .cmp, .aud, .out] pl = true := by first | rfl | exact Part.sub_trans rfl (by assumption)) :
    MovesOut pl z (execAudioParity t channel place s) := by
  unfold execAudioParity
  try dsimp only
  refine MovesOut.fault ?_
  try with_reducible refine MovesOut.next ?_
  repeat' first
    | with_reducible assumption | exact Part.sub_trans rfl hl | with_reducible apply advance_moves
    | with_reducible apply modOut_moves | with_reducible apply audioFailure_moves
    | with_reducible apply raise_moves | with_reducible apply audCount_moves | with_reducible apply Moves.ite

theorem execAudioPortRateWindow_moves {pl : List Part} {z : State} (t : Nat) (p : Nat) (mhz : Nat) {s : State}
    (hz : Moves pl z s)
    (hl : Part.sub [.clock, .flash, .evt, .aud] pl = true := by first | rfl | exact Part.sub_trans rfl (by assumption)) :
    MovesOut pl z (execAudioPortRateWindow t p mhz s) := by
  unfold execAudioPortRateWindow
  try dsimp only
  refine MovesOut.fault ?_
  try with_reducible refine MovesOut.next ?_
  repeat' first
    | with_reducible assumption | exact Part.sub_trans rfl hl | with_reducible apply advance_moves
    | with_reducible apply portWindow_moves | with_reducible apply Moves.ite

theorem execAudioPortStop_moves {pl : List Part} {z : State} (t : Nat) (p : Nat) {s : State}
    (hz : Moves pl z s)
    (hl : Part.sub [.clock, .flash, .evt, .aud] pl = true := by first | rfl | exact Part.sub_trans rfl (by assumption)) :
    MovesOut pl z (execAudioPortStop t p s) := by
  unfold execAudioPortStop
  try dsimp only
  refine MovesOut.fault ?_
  try with_reducible refine MovesOut.next ?_
  repeat' first
    | with_reducible assumption | exact Part.sub_trans rfl hl | with_reducible apply advance_moves
    | with_reducible apply setPortState_moves | with_reducible apply portCount_moves
    | with_reducible apply modPort_moves | with_reducible apply Moves.ite

theorem execAudioPortFrame_moves {pl : List Part} {z : State} (t : Nat) (p : Nat) (clocks : Nat) (left : Nat) (right : Nat) (fifoIn : Nat) (fifoOut : Nat) (ppm : Int) {s : State}
    (hz : Moves pl z s)
    (hl : Part.sub [.clock, .flash, .evt, .aud, .out] pl = true := by first | rfl | exact Part.sub_trans rfl (by assumption)) :
    MovesOut pl z (execAudioPortFrame t p clocks left right fifoIn fifoOut ppm s) := by
  unfold execAudioPortFrame
  try dsimp only
  refine MovesOut.fault ?_
  try with_reducible refine MovesOut.next ?_
  repeat' first
    | with_reducible assumption | exact Part.sub_trans rfl hl | with_reducible apply advance_moves
    | with_reducible apply portFrame_moves | with_reducible apply Moves.ite

theorem execAudioStreamLate_moves {pl : List Part} {z : State} (t : Nat) (k : Nat) {s : State}
    (hz : Moves pl z s)
    (hl : Part.sub [.clock, .flash, .evt, .aud] pl = true := by first | rfl | exact Part.sub_trans rfl (by assumption)) :
    MovesOut pl z (execAudioStreamLate t k s) := by
  unfold execAudioStreamLate
  try dsimp only
  refine MovesOut.fault ?_
  try with_reducible refine MovesOut.next ?_
  repeat' first
    | with_reducible assumption | exact Part.sub_trans rfl hl | with_reducible apply advance_moves
    | with_reducible apply setStreamState_moves | with_reducible apply fadeOut_moves
    | with_reducible apply Moves.ite | (with_reducible apply Moves.foldl; intro _ _ _)

end Sys2Proof.Machine
end

