-- ==== Sys2Proof/Laws/MovesTime.lean ====
section
/-! SUPPORT. What each operation and command of `Machine/Time.lean` moves. -/

-- The package is checked as one text; elaborating these proofs in order keeps the number of threads small.
set_option Elab.async false

namespace Sys2Proof.Machine

theorem modPulse_moves {pl : List Part} {z : State} (n : Nat) (f : Pulse → Pulse) {s : State}
    (hz : Moves pl z s)
    (hl : Part.sub [.tim] pl = true := by first | rfl | exact Part.sub_trans rfl (by assumption)) :
    Moves pl z (modPulse n f s) := by
  unfold modPulse
  try dsimp only
  repeat' first
    | with_reducible assumption | exact Part.sub_trans rfl hl | with_reducible apply Moves.onTim

theorem modPlane_moves {pl : List Part} {z : State} (p : Nat) (f : Plane → Plane) {s : State}
    (hz : Moves pl z s)
    (hl : Part.sub [.tim] pl = true := by first | rfl | exact Part.sub_trans rfl (by assumption)) :
    Moves pl z (modPlane p f s) := by
  unfold modPlane
  try dsimp only
  repeat' first
    | with_reducible assumption | exact Part.sub_trans rfl hl | with_reducible apply Moves.onTim

theorem modRef_moves {pl : List Part} {z : State} (i : Nat) (f : RefIn → RefIn) {s : State}
    (hz : Moves pl z s)
    (hl : Part.sub [.tim] pl = true := by first | rfl | exact Part.sub_trans rfl (by assumption)) :
    Moves pl z (modRef i f s) := by
  unfold modRef
  try dsimp only
  repeat' first
    | with_reducible assumption | exact Part.sub_trans rfl hl | with_reducible apply Moves.onTim

theorem onPtp_moves {pl : List Part} {z : State} (f : Ptp → Ptp) {s : State}
    (hz : Moves pl z s)
    (hl : Part.sub [.tim] pl = true := by first | rfl | exact Part.sub_trans rfl (by assumption)) :
    Moves pl z (onPtp f s) := by
  unfold onPtp
  try dsimp only
  repeat' first
    | with_reducible assumption | exact Part.sub_trans rfl hl | with_reducible apply Moves.onTim

theorem timCount_moves {pl : List Part} {z : State} (i : Nat) {s : State}
    (hz : Moves pl z s)
    (hl : Part.sub [.tim] pl = true := by first | rfl | exact Part.sub_trans rfl (by assumption)) :
    Moves pl z (timCount i s) := by
  unfold timCount
  try dsimp only
  repeat' first
    | with_reducible assumption | exact Part.sub_trans rfl hl | with_reducible apply Moves.onTim

theorem writeTimCfg_moves {pl : List Part} {z : State} (v : Nat) {s : State}
    (hz : Moves pl z s)
    (hl : Part.sub [.tim] pl = true := by first | rfl | exact Part.sub_trans rfl (by assumption)) :
    Moves pl z (writeTimCfg v s) := by
  unfold writeTimCfg
  try dsimp only
  repeat' first
    | with_reducible assumption | exact Part.sub_trans rfl hl | with_reducible apply Moves.onTim

theorem readNowNs_moves {pl : List Part} {z : State} (master : Nat) {s : State}
    (hz : Moves pl z s)
    (hl : Part.sub [.tim] pl = true := by first | rfl | exact Part.sub_trans rfl (by assumption)) :
    Moves pl z (readNowNs master s).2 := by
  unfold readNowNs
  try dsimp only
  repeat' first
    | with_reducible assumption | exact Part.sub_trans rfl hl | with_reducible apply Moves.onTim

theorem effTimStatus_moves {pl : List Part} {z : State} {s : State} (c : HostCmd)
    (hz : Moves pl z s) :
    Moves pl z (effTimStatus s c).1 := by
  unfold effTimStatus
  try dsimp only
  repeat' first
    | with_reducible assumption | exact Part.sub_trans rfl hl
    | (split <;> try dsimp only)

theorem moveTime_moves {pl : List Part} {z : State} (new : LoopState) {s : State}
    (hz : Moves pl z s)
    (hl : Part.sub [.flash, .evt, .red, .tim, .out] pl = true := by first | rfl | exact Part.sub_trans rfl (by assumption)) :
    Moves pl z (moveTime new s) := by
  unfold moveTime
  try dsimp only
  repeat' first
    | with_reducible assumption | exact Part.sub_trans rfl hl | with_reducible apply setTimeState_moves
    | with_reducible apply runSelector_moves | with_reducible apply Moves.ite

theorem configRef_moves {pl : List Part} {z : State} (i : Nat) (v : Nat) {s : State}
    (hz : Moves pl z s)
    (hl : Part.sub [.flash, .evt, .red, .tim, .out] pl = true := by first | rfl | exact Part.sub_trans rfl (by assumption)) :
    Moves pl z (configRef i v s) := by
  unfold configRef
  try dsimp only
  repeat' first
    | with_reducible assumption | exact Part.sub_trans rfl hl | with_reducible apply runSelector_moves
    | with_reducible apply Moves.onTim | with_reducible apply Moves.ite

theorem effTimRefConfig_moves {pl : List Part} {z : State} {s : State} (c : HostCmd)
    (hz : Moves pl z s)
    (hl : Part.sub [.flash, .evt, .red, .tim, .out] pl = true := by first | rfl | exact Part.sub_trans rfl (by assumption)) :
    Moves pl z (effTimRefConfig s c).1 := by
  unfold effTimRefConfig
  try dsimp only
  repeat' first
    | with_reducible assumption | exact Part.sub_trans rfl hl | with_reducible apply runSelector_moves
    | with_reducible apply Moves.onTim | with_reducible apply configRef_moves | with_reducible apply Moves.ite
    | with_reducible apply Moves.ite_fst

theorem acquire_moves {pl : List Part} {z : State} {s : State}
    (hz : Moves pl z s)
    (hl : Part.sub [.flash, .evt, .red, .tim, .out] pl = true := by first | rfl | exact Part.sub_trans rfl (by assumption)) :
    Moves pl z (acquire s) := by
  unfold acquire
  try dsimp only
  repeat' first
    | with_reducible assumption | exact Part.sub_trans rfl hl | with_reducible apply Moves.onTim
    | with_reducible apply onPtp_moves | with_reducible apply moveTime_moves

theorem effTimPtpConfig_moves {pl : List Part} {z : State} {s : State} (c : HostCmd)
    (hz : Moves pl z s)
    (hl : Part.sub [.flash, .evt, .red, .tim, .out] pl = true := by first | rfl | exact Part.sub_trans rfl (by assumption)) :
    Moves pl z (effTimPtpConfig s c).1 := by
  unfold effTimPtpConfig
  try dsimp only
  repeat' first
    | with_reducible assumption | exact Part.sub_trans rfl hl | with_reducible apply acquire_moves
    | with_reducible apply onPtp_moves

theorem effTimCompareSet_moves {pl : List Part} {z : State} {s : State} (c : HostCmd)
    (hz : Moves pl z s)
    (hl : Part.sub [.flash, .evt, .tim] pl = true := by first | rfl | exact Part.sub_trans rfl (by assumption)) :
    Moves pl z (effTimCompareSet s c).1 := by
  unfold effTimCompareSet
  try dsimp only
  repeat' first
    | with_reducible assumption | exact Part.sub_trans rfl hl | with_reducible apply Moves.onTim
    | with_reducible apply missTargets_moves | with_reducible apply Moves.ite
    | with_reducible apply Moves.ite_fst

theorem startPulse_moves {pl : List Part} {z : State} (n : Nat) (width : Nat) {s : State}
    (hz : Moves pl z s)
    (hl : Part.sub [.tim, .out] pl = true := by first | rfl | exact Part.sub_trans rfl (by assumption)) :
    Moves pl z (startPulse n width s) := by
  unfold startPulse
  try dsimp only
  repeat' first
    | with_reducible assumption | exact Part.sub_trans rfl hl | with_reducible apply modPulse_moves
    | with_reducible apply emit_moves | with_reducible apply Moves.ite

theorem endPulse_moves {pl : List Part} {z : State} (n : Nat) {s : State}
    (hz : Moves pl z s)
    (hl : Part.sub [.tim, .out] pl = true := by first | rfl | exact Part.sub_trans rfl (by assumption)) :
    Moves pl z (endPulse n s) := by
  unfold endPulse
  try dsimp only
  repeat' first
    | with_reducible assumption | exact Part.sub_trans rfl hl | with_reducible apply emit_moves
    | with_reducible apply modPulse_moves | with_reducible apply Moves.ite

theorem effTimPulseSet_moves {pl : List Part} {z : State} {s : State} (c : HostCmd)
    (hz : Moves pl z s)
    (hl : Part.sub [.tim, .out] pl = true := by first | rfl | exact Part.sub_trans rfl (by assumption)) :
    Moves pl z (effTimPulseSet s c).1 := by
  unfold effTimPulseSet
  try dsimp only
  repeat' first
    | with_reducible assumption | exact Part.sub_trans rfl hl | with_reducible apply endPulse_moves
    | with_reducible apply modPulse_moves | with_reducible apply emit_moves | with_reducible apply Moves.ite
    | with_reducible apply Moves.ite_fst

theorem effTimRealign_moves {pl : List Part} {z : State} {s : State} (c : HostCmd)
    (hz : Moves pl z s)
    (hl : Part.sub [.flash, .evt, .xpt] pl = true := by first | rfl | exact Part.sub_trans rfl (by assumption)) :
    Moves pl z (effTimRealign s c).1 := by
  unfold effTimRealign
  try dsimp only
  repeat' first
    | with_reducible assumption | exact Part.sub_trans rfl hl | with_reducible apply placeCommand_moves
    | with_reducible apply Moves.ite | with_reducible apply Moves.ite_fst

theorem finishRealigns_moves {pl : List Part} {z : State} {s : State}
    (hz : Moves pl z s)
    (hl : Part.sub [.host, .xpt, .red, .tim, .out] pl = true := by first | rfl | exact Part.sub_trans rfl (by assumption)) :
    Moves pl z (finishRealigns s) := by
  unfold finishRealigns
  try dsimp only
  repeat' first
    | with_reducible assumption | exact Part.sub_trans rfl hl | with_reducible apply Moves.onTim
    | with_reducible apply entryGone_moves | with_reducible apply freeEntry_moves
    | (with_reducible apply Moves.foldl; intro _ _ _)
    | (split <;> try dsimp only)

theorem realignPlane_moves {pl : List Part} {z : State} (p : Nat) (r : Realign) {s : State}
    (hz : Moves pl z s)
    (hl : Part.sub [.flash, .evt, .tim] pl = true := by first | rfl | exact Part.sub_trans rfl (by assumption)) :
    Moves pl z (realignPlane p r s) := by
  unfold realignPlane
  try dsimp only
  repeat' first
    | with_reducible assumption | exact Part.sub_trans rfl hl | with_reducible apply modPlane_moves
    | with_reducible apply raise_moves | with_reducible apply Moves.ite
    | (split <;> try dsimp only)

theorem realignPulse_moves {pl : List Part} {z : State} (n : Nat) (r : Realign) {s : State}
    (hz : Moves pl z s)
    (hl : Part.sub [.tim] pl = true := by first | rfl | exact Part.sub_trans rfl (by assumption)) :
    Moves pl z (realignPulse n r s) := by
  unfold realignPulse
  try dsimp only
  repeat' first
    | with_reducible assumption | exact Part.sub_trans rfl hl | with_reducible apply modPulse_moves
    | with_reducible apply Moves.ite

theorem chooseMaster_moves {pl : List Part} {z : State} {s : State}
    (hz : Moves pl z s)
    (hl : Part.sub [.flash, .evt, .red, .tim, .out] pl = true := by first | rfl | exact Part.sub_trans rfl (by assumption)) :
    Moves pl z (chooseMaster s) := by
  unfold chooseMaster
  try dsimp only
  repeat' first
    | with_reducible assumption | exact Part.sub_trans rfl hl | with_reducible apply onPtp_moves
    | with_reducible apply acquire_moves | with_reducible apply moveTime_moves | with_reducible apply Moves.ite
    | (split <;> try dsimp only)

theorem syncExchange_moves {pl : List Part} {z : State} (o : Int) {s : State}
    (hz : Moves pl z s)
    (hl : Part.sub [.clock, .flash, .evt, .red, .tim, .out] pl = true := by first | rfl | exact Part.sub_trans rfl (by assumption)) :
    Moves pl z (syncExchange o s) := by
  unfold syncExchange
  try dsimp only
  repeat' first
    | with_reducible assumption | exact Part.sub_trans rfl hl | with_reducible apply onPtp_moves
    | with_reducible apply Moves.onTim | with_reducible apply stepTime_moves
    | with_reducible apply moveTime_moves | with_reducible apply acquire_moves | with_reducible apply Moves.ite
    | (split <;> try dsimp only)

theorem syncDone_moves {pl : List Part} {z : State} (origin : Int) (rx : Nat) {s : State}
    (hz : Moves pl z s)
    (hl : Part.sub [.clock, .flash, .evt, .red, .tim, .out] pl = true := by first | rfl | exact Part.sub_trans rfl (by assumption)) :
    Moves pl z (syncDone origin rx s) := by
  unfold syncDone
  try dsimp only
  repeat' first
    | with_reducible assumption | exact Part.sub_trans rfl hl | with_reducible apply onPtp_moves
    | with_reducible apply syncExchange_moves

theorem setStamps_moves {pl : List Part} {z : State} (q : List Stamp) {s : State}
    (hz : Moves pl z s)
    (hl : Part.sub [.tim] pl = true := by first | rfl | exact Part.sub_trans rfl (by assumption)) :
    Moves pl z (setStamps q s) := by
  unfold setStamps
  try dsimp only
  repeat' first
    | with_reducible assumption | exact Part.sub_trans rfl hl | with_reducible apply onPtp_moves

theorem delayResponse_moves {pl : List Part} {z : State} (port : Nat) (m : PtpMsg) {s : State}
    (hz : Moves pl z s)
    (hl : Part.sub [.tim] pl = true := by first | rfl | exact Part.sub_trans rfl (by assumption)) :
    Moves pl z (delayResponse port m s) := by
  unfold delayResponse
  try dsimp only
  repeat' first
    | with_reducible assumption | exact Part.sub_trans rfl hl | with_reducible apply setStamps_moves
    | with_reducible apply onPtp_moves
    | (split <;> try dsimp only)

theorem ptpReceive_moves {pl : List Part} {z : State} (port : Nat) (rx : Nat) (m : PtpMsg) {s : State}
    (hz : Moves pl z s)
    (hl : Part.sub [.clock, .flash, .evt, .red, .tim, .out] pl = true := by first | rfl | exact Part.sub_trans rfl (by assumption)) :
    Moves pl z (ptpReceive port rx m s) := by
  unfold ptpReceive
  try dsimp only
  repeat' first
    | with_reducible assumption | exact Part.sub_trans rfl hl | with_reducible apply timCount_moves
    | with_reducible apply chooseMaster_moves | with_reducible apply onPtp_moves
    | with_reducible apply syncDone_moves | with_reducible apply delayResponse_moves
    | with_reducible apply Moves.ite
    | (split <;> try dsimp only)

theorem queueStamp_moves {pl : List Part} {z : State} (port : Nat) (seq : Nat) {s : State}
    (hz : Moves pl z s)
    (hl : Part.sub [.flash, .evt, .eth, .tim] pl = true := by first | rfl | exact Part.sub_trans rfl (by assumption)) :
    Moves pl z (queueStamp port seq s) := by
  unfold queueStamp
  try dsimp only
  repeat' first
    | with_reducible assumption | exact Part.sub_trans rfl hl | with_reducible apply timCount_moves
    | with_reducible apply setStamps_moves | with_reducible apply Moves.onEth
    | with_reducible apply raise_moves | with_reducible apply onPtp_moves | with_reducible apply Moves.ite

theorem startWait_moves {pl : List Part} {z : State} (i : Nat) {s : State}
    (hz : Moves pl z s)
    (hl : Part.sub [.tim] pl = true := by first | rfl | exact Part.sub_trans rfl (by assumption)) :
    Moves pl z (startWait i s) := by
  unfold startWait
  try dsimp only
  repeat' first
    | with_reducible assumption | exact Part.sub_trans rfl hl | with_reducible apply modRef_moves
    | with_reducible apply Moves.ite

theorem disqualify_moves {pl : List Part} {z : State} (i : Nat) (cause : Nat) {s : State}
    (hz : Moves pl z s)
    (hl : Part.sub [.flash, .evt, .red, .tim, .out] pl = true := by first | rfl | exact Part.sub_trans rfl (by assumption)) :
    Moves pl z (disqualify i cause s) := by
  unfold disqualify
  try dsimp only
  repeat' first
    | with_reducible assumption | exact Part.sub_trans rfl hl | with_reducible apply timCount_moves
    | with_reducible apply modRef_moves | with_reducible apply raise_moves
    | with_reducible apply runSelector_moves

theorem countStart_moves {pl : List Part} {z : State} (p : Nat) (slow : Bool) {s : State}
    (hz : Moves pl z s)
    (hl : Part.sub [.flash, .evt, .tim, .flow] pl = true := by first | rfl | exact Part.sub_trans rfl (by assumption)) :
    Moves pl z (countStart p slow s) := by
  unfold countStart
  try dsimp only
  repeat' first
    | with_reducible assumption | exact Part.sub_trans rfl hl | with_reducible apply modPlane_moves
    | with_reducible apply adopt_moves | with_reducible apply Moves.ite
    | (split <;> try dsimp only)

theorem pulsesAtStart_moves {pl : List Part} {z : State} (p : Nat) (slow : Bool) {s : State}
    (hz : Moves pl z s)
    (hl : Part.sub [.cue, .tim] pl = true := by first | rfl | exact Part.sub_trans rfl (by assumption)) :
    Moves pl z (pulsesAtStart p slow s) := by
  unfold pulsesAtStart
  try dsimp only
  repeat' first
    | with_reducible assumption | exact Part.sub_trans rfl hl | with_reducible apply Moves.onTim
    | with_reducible apply Moves.onCue | with_reducible apply Moves.ite
    | (split <;> try dsimp only)

theorem waitsAtStart_moves {pl : List Part} {z : State} (p : Nat) (slow : Bool) {s : State}
    (hz : Moves pl z s)
    (hl : Part.sub [.cue] pl = true := by first | rfl | exact Part.sub_trans rfl (by assumption)) :
    Moves pl z (waitsAtStart p slow s) := by
  unfold waitsAtStart
  try dsimp only
  repeat' first
    | with_reducible assumption | exact Part.sub_trans rfl hl | with_reducible apply Moves.onCue
    | with_reducible apply Moves.ite

theorem risePulse_moves {pl : List Part} {z : State} (n : Nat) {s : State}
    (hz : Moves pl z s)
    (hl : Part.sub [.cue, .tim, .out] pl = true := by first | rfl | exact Part.sub_trans rfl (by assumption)) :
    Moves pl z (risePulse n s) := by
  unfold risePulse
  try dsimp only
  repeat' first
    | with_reducible assumption | exact Part.sub_trans rfl hl | with_reducible apply modPulse_moves
    | with_reducible apply startPulse_moves | with_reducible apply Moves.onCue | with_reducible apply Moves.ite
    | (split <;> try dsimp only)

theorem execTimNowNsRead_moves {pl : List Part} {z : State} (t : Nat) (master : Nat) {s : State}
    (hz : Moves pl z s)
    (hl : Part.sub [.clock, .tim] pl = true := by first | rfl | exact Part.sub_trans rfl (by assumption)) :
    MovesOut pl z (execTimNowNsRead t master s) := by
  unfold execTimNowNsRead
  try dsimp only
  try with_reducible refine MovesOut.next ?_
  repeat' first
    | with_reducible assumption | exact Part.sub_trans rfl hl | with_reducible apply readNowNs_moves
    | with_reducible apply advance_moves

theorem execTimStatus_moves {pl : List Part} {z : State} (t : Nat) (c : HostCmd) {s : State}
    (hz : Moves pl z s)
    (hl : Part.sub [.clock, .flash, .host, .evt, .red, .out] pl = true := by first | rfl | exact Part.sub_trans rfl (by assumption)) :
    MovesOut pl z (execTimStatus t c s) := by
  exact runCommand_moves _ _ _ _ _ hz (fun _ h => effTimStatus_moves _ h)

theorem execTimRefConfig_moves {pl : List Part} {z : State} (t : Nat) (c : HostCmd) {s : State}
    (hz : Moves pl z s)
    (hl : Part.sub [.clock, .flash, .host, .evt, .red, .tim, .out] pl = true := by first | rfl | exact Part.sub_trans rfl (by assumption)) :
    MovesOut pl z (execTimRefConfig t c s) := by
  exact runCommand_moves _ _ _ _ _ hz (fun _ h => effTimRefConfig_moves _ h)

theorem execTimPtpConfig_moves {pl : List Part} {z : State} (t : Nat) (c : HostCmd) {s : State}
    (hz : Moves pl z s)
    (hl : Part.sub [.clock, .flash, .host, .evt, .red, .tim, .out] pl = true := by first | rfl | exact Part.sub_trans rfl (by assumption)) :
    MovesOut pl z (execTimPtpConfig t c s) := by
  exact runCommand_moves _ _ _ _ _ hz (fun _ h => effTimPtpConfig_moves _ h)

theorem execTimCompareSet_moves {pl : List Part} {z : State} (t : Nat) (c : HostCmd) {s : State}
    (hz : Moves pl z s)
    (hl : Part.sub [.clock, .flash, .host, .evt, .red, .tim, .out] pl = true := by first | rfl | exact Part.sub_trans rfl (by assumption)) :
    MovesOut pl z (execTimCompareSet t c s) := by
  exact runCommand_moves _ _ _ _ _ hz (fun _ h => effTimCompareSet_moves _ h)

theorem execTimPulseSet_moves {pl : List Part} {z : State} (t : Nat) (c : HostCmd) {s : State}
    (hz : Moves pl z s)
    (hl : Part.sub [.clock, .flash, .host, .evt, .red, .tim, .out] pl = true := by first | rfl | exact Part.sub_trans rfl (by assumption)) :
    MovesOut pl z (execTimPulseSet t c s) := by
  exact runCommand_moves _ _ _ _ _ hz (fun _ h => effTimPulseSet_moves _ h)

theorem execTimRealign_moves {pl : List Part} {z : State} (t : Nat) (c : HostCmd) {s : State}
    (hz : Moves pl z s)
    (hl : Part.sub [.clock, .flash, .host, .evt, .xpt, .red, .out] pl = true := by first | rfl | exact Part.sub_trans rfl (by assumption)) :
    MovesOut pl z (execTimRealign t c s) := by
  exact runCommand_moves _ _ _ _ _ hz (fun _ h => effTimRealign_moves _ h)

theorem execRealignLands_moves {pl : List Part} {z : State} (t : Nat) (out : Bool) (n : Nat) {s : State}
    (hz : Moves pl z s)
    (hl : Part.sub [.clock, .flash, .host, .evt, .xpt, .red, .tim, .out] pl = true := by first | rfl | exact Part.sub_trans rfl (by assumption)) :
    MovesOut pl z (execRealignLands t out n s) := by
  unfold execRealignLands
  try dsimp only
  refine MovesOut.fault ?_
  try with_reducible refine MovesOut.next ?_
  repeat' first
    | with_reducible assumption | exact Part.sub_trans rfl hl | with_reducible apply advance_moves
    | with_reducible apply realignPulse_moves | with_reducible apply realignPlane_moves
    | with_reducible apply Moves.onTim | with_reducible apply finishRealigns_moves
    | with_reducible apply Moves.ite | (with_reducible apply Moves.foldl; intro _ _ _)

theorem execRealignSlewDone_moves {pl : List Part} {z : State} (t : Nat) (out : Bool) (n : Nat) {s : State}
    (hz : Moves pl z s)
    (hl : Part.sub [.clock, .flash, .evt, .tim] pl = true := by first | rfl | exact Part.sub_trans rfl (by assumption)) :
    MovesOut pl z (execRealignSlewDone t out n s) := by
  unfold execRealignSlewDone
  try dsimp only
  refine MovesOut.fault ?_
  try with_reducible refine MovesOut.next ?_
  repeat' first
    | with_reducible assumption | exact Part.sub_trans rfl hl | with_reducible apply advance_moves
    | with_reducible apply modPulse_moves | with_reducible apply raise_moves
    | with_reducible apply modPlane_moves | with_reducible apply Moves.ite
    | (split <;> try dsimp only)

theorem execAnnounceTimeout_moves {pl : List Part} {z : State} (t : Nat) (port : Nat) {s : State}
    (hz : Moves pl z s)
    (hl : Part.sub [.clock, .flash, .evt, .red, .tim, .out] pl = true := by first | rfl | exact Part.sub_trans rfl (by assumption)) :
    MovesOut pl z (execAnnounceTimeout t port s) := by
  unfold execAnnounceTimeout
  try dsimp only
  refine MovesOut.fault ?_
  try with_reducible refine MovesOut.next ?_
  repeat' first
    | with_reducible assumption | exact Part.sub_trans rfl hl | with_reducible apply advance_moves
    | with_reducible apply chooseMaster_moves | with_reducible apply onPtp_moves
    | with_reducible apply timCount_moves | with_reducible apply Moves.ite

theorem execDelayReqSend_moves {pl : List Part} {z : State} (t : Nat) {s : State}
    (hz : Moves pl z s)
    (hl : Part.sub [.clock, .flash, .evt, .eth, .tim, .out] pl = true := by first | rfl | exact Part.sub_trans rfl (by assumption)) :
    MovesOut pl z (execDelayReqSend t s) := by
  unfold execDelayReqSend
  try dsimp only
  try with_reducible refine MovesOut.next ?_
  repeat' first
    | with_reducible assumption | exact Part.sub_trans rfl hl | with_reducible apply advance_moves
    | with_reducible apply emit_moves | with_reducible apply queueStamp_moves
    | with_reducible apply onPtp_moves
    | (split <;> try dsimp only)

theorem execHoldoverLimit_moves {pl : List Part} {z : State} (t : Nat) (house : Bool) {s : State}
    (hz : Moves pl z s)
    (hl : Part.sub [.clock, .flash, .evt, .red, .tim, .out] pl = true := by first | rfl | exact Part.sub_trans rfl (by assumption)) :
    MovesOut pl z (execHoldoverLimit t house s) := by
  unfold execHoldoverLimit
  try dsimp only
  try with_reducible refine MovesOut.next ?_
  repeat' first
    | with_reducible assumption | exact Part.sub_trans rfl hl | with_reducible apply advance_moves
    | with_reducible apply setHouseState_moves | with_reducible apply moveTime_moves
    | with_reducible apply Moves.ite

theorem execRefEdge_moves {pl : List Part} {z : State} (t : Nat) (i : Nat) {s : State}
    (hz : Moves pl z s)
    (hl : Part.sub [.clock, .flash, .evt, .red, .tim, .out] pl = true := by first | rfl | exact Part.sub_trans rfl (by assumption)) :
    MovesOut pl z (execRefEdge t i s) := by
  unfold execRefEdge
  try dsimp only
  refine MovesOut.fault ?_
  try with_reducible refine MovesOut.next ?_
  repeat' first
    | with_reducible assumption | exact Part.sub_trans rfl hl | with_reducible apply advance_moves
    | with_reducible apply modRef_moves | with_reducible apply Moves.onTim
    | with_reducible apply startWait_moves | with_reducible apply disqualify_moves
    | with_reducible apply Moves.ite

theorem execRefAbsent_moves {pl : List Part} {z : State} (t : Nat) (i : Nat) {s : State}
    (hz : Moves pl z s)
    (hl : Part.sub [.clock, .flash, .evt, .red, .tim, .out] pl = true := by first | rfl | exact Part.sub_trans rfl (by assumption)) :
    MovesOut pl z (execRefAbsent t i s) := by
  unfold execRefAbsent
  try dsimp only
  refine MovesOut.fault ?_
  try with_reducible refine MovesOut.next ?_
  repeat' first
    | with_reducible assumption | exact Part.sub_trans rfl hl | with_reducible apply advance_moves
    | with_reducible apply disqualify_moves | with_reducible apply Moves.ite

theorem execRefFrequencyWindow_moves {pl : List Part} {z : State} (t : Nat) (i : Nat) (ppb : Int) {s : State}
    (hz : Moves pl z s)
    (hl : Part.sub [.clock, .flash, .evt, .red, .tim, .out] pl = true := by first | rfl | exact Part.sub_trans rfl (by assumption)) :
    MovesOut pl z (execRefFrequencyWindow t i ppb s) := by
  unfold execRefFrequencyWindow
  try dsimp only
  refine MovesOut.fault ?_
  try with_reducible refine MovesOut.next ?_
  repeat' first
    | with_reducible assumption | exact Part.sub_trans rfl hl | with_reducible apply advance_moves
    | with_reducible apply modRef_moves | with_reducible apply disqualify_moves
    | with_reducible apply startWait_moves | with_reducible apply Moves.ite

theorem execRefQualify_moves {pl : List Part} {z : State} (t : Nat) (i : Nat) {s : State}
    (hz : Moves pl z s)
    (hl : Part.sub [.clock, .flash, .evt, .red, .tim, .out] pl = true := by first | rfl | exact Part.sub_trans rfl (by assumption)) :
    MovesOut pl z (execRefQualify t i s) := by
  unfold execRefQualify
  try dsimp only
  refine MovesOut.fault ?_
  try with_reducible refine MovesOut.next ?_
  repeat' first
    | with_reducible assumption | exact Part.sub_trans rfl hl | with_reducible apply advance_moves
    | with_reducible apply runSelector_moves | with_reducible apply modRef_moves
    | with_reducible apply Moves.ite

theorem execBuildOutDone_moves {pl : List Part} {z : State} (t : Nat) {s : State}
    (hz : Moves pl z s)
    (hl : Part.sub [.clock, .tim] pl = true := by first | rfl | exact Part.sub_trans rfl (by assumption)) :
    MovesOut pl z (execBuildOutDone t s) := by
  unfold execBuildOutDone
  try dsimp only
  try with_reducible refine MovesOut.next ?_
  repeat' first
    | with_reducible assumption | exact Part.sub_trans rfl hl | with_reducible apply advance_moves
    | with_reducible apply Moves.onTim | with_reducible apply Moves.ite
    | (split <;> try dsimp only)

theorem execHouseLoopLocked_moves {pl : List Part} {z : State} (t : Nat) {s : State}
    (hz : Moves pl z s)
    (hl : Part.sub [.clock, .flash, .evt, .red, .tim, .out] pl = true := by first | rfl | exact Part.sub_trans rfl (by assumption)) :
    MovesOut pl z (execHouseLoopLocked t s) := by
  unfold execHouseLoopLocked
  try dsimp only
  try with_reducible refine MovesOut.next ?_
  repeat' first
    | with_reducible assumption | exact Part.sub_trans rfl hl | with_reducible apply advance_moves
    | with_reducible apply runSelector_moves | with_reducible apply setHouseState_moves
    | with_reducible apply Moves.onTim | with_reducible apply Moves.ite

theorem execRefDisagree_moves {pl : List Part} {z : State} (t : Nat) (a : Nat) (b : Nat) (ppbA : Int) (ppbB : Int) {s : State}
    (hz : Moves pl z s)
    (hl : Part.sub [.clock, .flash, .evt, .red, .tim, .out] pl = true := by first | rfl | exact Part.sub_trans rfl (by assumption)) :
    MovesOut pl z (execRefDisagree t a b ppbA ppbB s) := by
  unfold execRefDisagree
  try dsimp only
  refine MovesOut.fault ?_
  try with_reducible refine MovesOut.next ?_
  repeat' first
    | with_reducible assumption | exact Part.sub_trans rfl hl | with_reducible apply advance_moves
    | with_reducible apply raise_moves | with_reducible apply Moves.onTim | with_reducible apply modRef_moves
    | with_reducible apply switchTo_moves | with_reducible apply houseHoldover_moves
    | with_reducible apply runSelector_moves | with_reducible apply Moves.ite
    | (split <;> try dsimp only)

theorem execRefDisagreementEnd_moves {pl : List Part} {z : State} (t : Nat) (a : Nat) (b : Nat) {s : State}
    (hz : Moves pl z s)
    (hl : Part.sub [.clock, .flash, .evt, .red, .tim, .out] pl = true := by first | rfl | exact Part.sub_trans rfl (by assumption)) :
    MovesOut pl z (execRefDisagreementEnd t a b s) := by
  unfold execRefDisagreementEnd
  try dsimp only
  refine MovesOut.fault ?_
  try with_reducible refine MovesOut.next ?_
  repeat' first
    | with_reducible assumption | exact Part.sub_trans rfl hl | with_reducible apply advance_moves
    | with_reducible apply Moves.onTim | with_reducible apply runSelector_moves
    | with_reducible apply Moves.ite
    | (split <;> try dsimp only)

theorem execPtpWtrExpired_moves {pl : List Part} {z : State} (t : Nat) {s : State}
    (hz : Moves pl z s)
    (hl : Part.sub [.clock, .flash, .evt, .red, .tim, .out] pl = true := by first | rfl | exact Part.sub_trans rfl (by assumption)) :
    MovesOut pl z (execPtpWtrExpired t s) := by
  unfold execPtpWtrExpired
  try dsimp only
  try with_reducible refine MovesOut.next ?_
  repeat' first
    | with_reducible assumption | exact Part.sub_trans rfl hl | with_reducible apply advance_moves
    | with_reducible apply runSelector_moves | with_reducible apply Moves.onTim
    | with_reducible apply Moves.ite

theorem execPlaneFrameStart_moves {pl : List Part} {z : State} (t : Nat) (p : Nat) (slow : Bool) {s : State}
    (hz : Moves pl z s)
    (hl : Part.sub [.clock, .flash, .evt, .cue, .tim, .flow] pl = true := by first | rfl | exact Part.sub_trans rfl (by assumption)) :
    MovesOut pl z (execPlaneFrameStart t p slow s) := by
  unfold execPlaneFrameStart
  try dsimp only
  refine MovesOut.fault ?_
  try with_reducible refine MovesOut.next ?_
  repeat' first
    | with_reducible assumption | exact Part.sub_trans rfl hl | with_reducible apply advance_moves
    | with_reducible apply waitsAtStart_moves | with_reducible apply pulsesAtStart_moves
    | with_reducible apply countStart_moves | with_reducible apply Moves.ite

theorem execCompareFire_moves {pl : List Part} {z : State} (t : Nat) (u : Nat) {s : State}
    (hz : Moves pl z s)
    (hl : Part.sub [.clock, .flash, .evt, .tim, .out] pl = true := by first | rfl | exact Part.sub_trans rfl (by assumption)) :
    MovesOut pl z (execCompareFire t u s) := by
  unfold execCompareFire
  try dsimp only
  refine MovesOut.fault ?_
  try with_reducible refine MovesOut.next ?_
  repeat' first
    | with_reducible assumption | exact Part.sub_trans rfl hl | with_reducible apply advance_moves
    | with_reducible apply startPulse_moves | with_reducible apply raise_moves
    | with_reducible apply Moves.onTim | with_reducible apply Moves.ite

theorem execPulseEdge_moves {pl : List Part} {z : State} (t : Nat) (n : Nat) (rising : Bool) {s : State}
    (hz : Moves pl z s)
    (hl : Part.sub [.clock, .cue, .tim, .out] pl = true := by first | rfl | exact Part.sub_trans rfl (by assumption)) :
    MovesOut pl z (execPulseEdge t n rising s) := by
  unfold execPulseEdge
  try dsimp only
  refine MovesOut.fault ?_
  try with_reducible refine MovesOut.next ?_
  repeat' first
    | with_reducible assumption | exact Part.sub_trans rfl hl | with_reducible apply advance_moves
    | with_reducible apply risePulse_moves | with_reducible apply endPulse_moves
    | with_reducible apply Moves.ite

theorem execAonTimeRecord_moves {pl : List Part} {z : State} (t : Nat) {s : State}
    (hz : Moves pl z s)
    (hl : Part.sub [.clock, .aon] pl = true := by first | rfl | exact Part.sub_trans rfl (by assumption)) :
    MovesOut pl z (execAonTimeRecord t s) := by
  unfold execAonTimeRecord
  try dsimp only
  try with_reducible refine MovesOut.next ?_
  repeat' first
    | with_reducible assumption | exact Part.sub_trans rfl hl | with_reducible apply advance_moves
    | with_reducible apply recordTime_moves | with_reducible apply Moves.ite

end Sys2Proof.Machine
end

