-- ==== Sys2Proof/Laws/MovesEthOps.lean ====
section
/-! SUPPORT. What each operation of `Machine/EthOps.lean` moves. -/

-- The package is checked as one text; elaborating these proofs in order keeps the number of threads small.
set_option Elab.async false

namespace Sys2Proof.Machine

theorem modEth_moves {pl : List Part} {z : State} (p : Nat) (f : EthPort → EthPort) {s : State}
    (hz : Moves pl z s)
    (hl : Part.sub [.eth] pl = true := by first | rfl | exact Part.sub_trans rfl (by assumption)) :
    Moves pl z (modEth p f s) := by
  unfold modEth
  try dsimp only
  repeat' first
    | with_reducible assumption | exact Part.sub_trans rfl hl | with_reducible apply Moves.onEth

theorem modRxFlow_moves {pl : List Part} {z : State} (n : Nat) (f : RxFlow → RxFlow) {s : State}
    (hz : Moves pl z s)
    (hl : Part.sub [.eth] pl = true := by first | rfl | exact Part.sub_trans rfl (by assumption)) :
    Moves pl z (modRxFlow n f s) := by
  unfold modRxFlow
  try dsimp only
  repeat' first
    | with_reducible assumption | exact Part.sub_trans rfl hl | with_reducible apply Moves.onEth

theorem modTxFlow_moves {pl : List Part} {z : State} (n : Nat) (f : TxFlow → TxFlow) {s : State}
    (hz : Moves pl z s)
    (hl : Part.sub [.eth] pl = true := by first | rfl | exact Part.sub_trans rfl (by assumption)) :
    Moves pl z (modTxFlow n f s) := by
  unfold modTxFlow
  try dsimp only
  repeat' first
    | with_reducible assumption | exact Part.sub_trans rfl hl | with_reducible apply Moves.onEth

theorem cntRange_moves {pl : List Part} {z : State} (scope : Nat) (index : Nat) (flow : Nat) (old : Bool) (new : Bool) {s : State}
    (hz : Moves pl z s)
    (hl : Part.sub [.flash, .evt] pl = true := by first | rfl | exact Part.sub_trans rfl (by assumption)) :
    Moves pl z (cntRange scope index flow old new s) := by
  unfold cntRange
  try dsimp only
  repeat' first
    | with_reducible assumption | exact Part.sub_trans rfl hl | with_reducible apply raise_moves
    | with_reducible apply Moves.ite

theorem ethAdd_moves {pl : List Part} {z : State} (p : Nat) (i : Nat) (n : Nat) {s : State}
    (hz : Moves pl z s)
    (hl : Part.sub [.flash, .evt, .eth] pl = true := by first | rfl | exact Part.sub_trans rfl (by assumption)) :
    Moves pl z (ethAdd p i n s) := by
  unfold ethAdd
  try dsimp only
  repeat' first
    | with_reducible assumption | exact Part.sub_trans rfl hl | with_reducible apply cntRange_moves
    | with_reducible apply modEth_moves

theorem ethCount_moves {pl : List Part} {z : State} (p : Nat) (i : Nat) {s : State}
    (hz : Moves pl z s)
    (hl : Part.sub [.flash, .evt, .eth] pl = true := by first | rfl | exact Part.sub_trans rfl (by assumption)) :
    Moves pl z (ethCount p i s) := by
  unfold ethCount
  try dsimp only
  repeat' first
    | with_reducible assumption | exact Part.sub_trans rfl hl | with_reducible apply ethAdd_moves

theorem rxAdd_moves {pl : List Part} {z : State} (f : Nat) (i : Nat) (n : Nat) {s : State}
    (hz : Moves pl z s)
    (hl : Part.sub [.flash, .evt, .eth] pl = true := by first | rfl | exact Part.sub_trans rfl (by assumption)) :
    Moves pl z (rxAdd f i n s) := by
  unfold rxAdd
  try dsimp only
  repeat' first
    | with_reducible assumption | exact Part.sub_trans rfl hl | with_reducible apply cntRange_moves
    | with_reducible apply modRxFlow_moves

theorem txCount_moves {pl : List Part} {z : State} (f : Nat) (i : Nat) {s : State}
    (hz : Moves pl z s)
    (hl : Part.sub [.flash, .evt, .eth] pl = true := by first | rfl | exact Part.sub_trans rfl (by assumption)) :
    Moves pl z (txCount f i s) := by
  unfold txCount
  try dsimp only
  repeat' first
    | with_reducible assumption | exact Part.sub_trans rfl hl | with_reducible apply cntRange_moves
    | with_reducible apply modTxFlow_moves

theorem sendFrame_moves {pl : List Part} {z : State} (p : Nat) (f : List Byte) {s : State}
    (hz : Moves pl z s)
    (hl : Part.sub [.flash, .evt, .eth, .out] pl = true := by first | rfl | exact Part.sub_trans rfl (by assumption)) :
    Moves pl z (sendFrame p f s) := by
  unfold sendFrame
  try dsimp only
  repeat' first
    | with_reducible assumption | exact Part.sub_trans rfl hl | with_reducible apply emit_moves
    | with_reducible apply ethAdd_moves | with_reducible apply ethCount_moves | with_reducible apply Moves.ite

theorem sendService_moves {pl : List Part} {z : State} (p : Nat) (kind : Nat) (args : List Nat) (data : List Byte) {s : State}
    (hz : Moves pl z s)
    (hl : Part.sub [.flash, .evt, .eth, .out] pl = true := by first | rfl | exact Part.sub_trans rfl (by assumption)) :
    Moves pl z (sendService p kind args data s) := by
  unfold sendService
  try dsimp only
  repeat' first
    | with_reducible assumption | exact Part.sub_trans rfl hl | with_reducible apply emit_moves
    | with_reducible apply ethCount_moves | with_reducible apply Moves.ite

theorem raisePause_moves {pl : List Part} {z : State} (p : Nat) (dir : Nat) (st : Nat) {s : State}
    (hz : Moves pl z s)
    (hl : Part.sub [.flash, .evt] pl = true := by first | rfl | exact Part.sub_trans rfl (by assumption)) :
    Moves pl z (raisePause p dir st s) := by
  unfold raisePause
  try dsimp only
  repeat' first
    | with_reducible assumption | exact Part.sub_trans rfl hl | with_reducible apply raise_moves

theorem sendPause_moves {pl : List Part} {z : State} (p : Nat) (quanta : Nat) {s : State}
    (hz : Moves pl z s)
    (hl : Part.sub [.flash, .evt, .eth, .out] pl = true := by first | rfl | exact Part.sub_trans rfl (by assumption)) :
    Moves pl z (sendPause p quanta s) := by
  unfold sendPause
  try dsimp only
  repeat' first
    | with_reducible assumption | exact Part.sub_trans rfl hl | with_reducible apply ethCount_moves
    | with_reducible apply sendFrame_moves

theorem stopPausing_moves {pl : List Part} {z : State} (p : Nat) {s : State}
    (hz : Moves pl z s)
    (hl : Part.sub [.flash, .evt, .eth] pl = true := by first | rfl | exact Part.sub_trans rfl (by assumption)) :
    Moves pl z (stopPausing p s) := by
  unfold stopPausing
  try dsimp only
  repeat' first
    | with_reducible assumption | exact Part.sub_trans rfl hl | with_reducible apply raisePause_moves
    | with_reducible apply modEth_moves | with_reducible apply Moves.ite

theorem endPause_moves {pl : List Part} {z : State} (p : Nat) {s : State}
    (hz : Moves pl z s)
    (hl : Part.sub [.flash, .evt, .eth] pl = true := by first | rfl | exact Part.sub_trans rfl (by assumption)) :
    Moves pl z (endPause p s) := by
  unfold endPause
  try dsimp only
  repeat' first
    | with_reducible assumption | exact Part.sub_trans rfl hl | with_reducible apply raisePause_moves
    | with_reducible apply modEth_moves | with_reducible apply Moves.ite

theorem setLink_moves {pl : List Part} {z : State} (p : Nat) (new : Nat) (cause : Nat) {s : State}
    (hz : Moves pl z s)
    (hl : Part.sub [.flash, .evt, .eth] pl = true := by first | rfl | exact Part.sub_trans rfl (by assumption)) :
    Moves pl z (setLink p new cause s) := by
  unfold setLink
  try dsimp only
  repeat' first
    | with_reducible assumption | exact Part.sub_trans rfl hl | with_reducible apply endPause_moves
    | with_reducible apply stopPausing_moves | with_reducible apply raise_moves
    | with_reducible apply modEth_moves | with_reducible apply Moves.ite

theorem reportLeg_moves {pl : List Part} {z : State} (f : Nat) (p : Nat) (l : Leg) (leave : Bool) {s : State}
    (hz : Moves pl z s)
    (hl : Part.sub [.flash, .evt, .eth, .out] pl = true := by first | rfl | exact Part.sub_trans rfl (by assumption)) :
    Moves pl z (reportLeg f p l leave s) := by
  unfold reportLeg
  try dsimp only
  repeat' first
    | with_reducible assumption | exact Part.sub_trans rfl hl | with_reducible apply sendService_moves
    | with_reducible apply Moves.ite

theorem setRing_moves {pl : List Part} {z : State} (isOpen : Bool) {s : State}
    (hz : Moves pl z s)
    (hl : Part.sub [.flash, .evt, .eth] pl = true := by first | rfl | exact Part.sub_trans rfl (by assumption)) :
    Moves pl z (setRing isOpen s) := by
  unfold setRing
  try dsimp only
  repeat' first
    | with_reducible assumption | exact Part.sub_trans rfl hl | with_reducible apply raise_moves
    | with_reducible apply Moves.onEth | with_reducible apply Moves.ite

theorem setFlowState_moves {pl : List Part} {z : State} (f : Nat) (new : Nat) {s : State}
    (hz : Moves pl z s)
    (hl : Part.sub [.flash, .evt, .eth] pl = true := by first | rfl | exact Part.sub_trans rfl (by assumption)) :
    Moves pl z (setFlowState f new s) := by
  unfold setFlowState
  try dsimp only
  repeat' first
    | with_reducible assumption | exact Part.sub_trans rfl hl | with_reducible apply modRxFlow_moves
    | with_reducible apply raise_moves | with_reducible apply Moves.ite

theorem rxFrameStarts_moves {pl : List Part} {z : State} (f : Nat) (k : HeldPkt) {s : State}
    (hz : Moves pl z s)
    (hl : Part.sub [.flash, .evt, .eth] pl = true := by first | rfl | exact Part.sub_trans rfl (by assumption)) :
    Moves pl z (rxFrameStarts f k s) := by
  unfold rxFrameStarts
  try dsimp only
  repeat' first
    | with_reducible assumption | exact Part.sub_trans rfl hl | with_reducible apply modRxFlow_moves
    | with_reducible apply rxAdd_moves | with_reducible apply raise_moves | with_reducible apply Moves.ite
    | (split <;> try dsimp only)

theorem deliverPacket_moves {pl : List Part} {z : State} (f : Nat) (k : HeldPkt) (fails : List (Nat × Nat)) {s : State}
    (hz : Moves pl z s)
    (hl : Part.sub [.flash, .evt, .eth, .aud] pl = true := by first | rfl | exact Part.sub_trans rfl (by assumption)) :
    Moves pl z (deliverPacket f k fails s) := by
  unfold deliverPacket
  try dsimp only
  repeat' first
    | with_reducible assumption | exact Part.sub_trans rfl hl | with_reducible apply rxAdd_moves
    | with_reducible apply rxFrameStarts_moves | with_reducible apply streamPacket_moves
    | with_reducible apply Moves.ite
    | (split <;> try dsimp only)

theorem releaseLoop_moves {pl : List Part} {z : State} (f : Nat) (fails : List (Nat × Nat)) (n : Nat) {s : State} (hz : Moves pl z s)
    (hl : Part.sub [.flash, .evt, .eth, .aud] pl = true := by first | rfl | exact Part.sub_trans rfl (by assumption)) :
    Moves pl z (releaseLoop f fails n s) := by
  induction n generalizing s with
  | zero => exact hz
  | succ n ih =>
    unfold releaseLoop
    dsimp only
    split
    · split
      · exact ih (deliverPacket_moves _ _ _ (modRxFlow_moves _ _ hz))
      · exact .ite (ih (rxAdd_moves _ _ _ (modRxFlow_moves _ _ hz))) hz
    · exact hz

theorem mergeRelease_moves {pl : List Part} {z : State} (f : Nat) (fails : List (Nat × Nat)) {s : State}
    (hz : Moves pl z s)
    (hl : Part.sub [.flash, .evt, .eth, .aud] pl = true := by first | rfl | exact Part.sub_trans rfl (by assumption)) :
    Moves pl z (mergeRelease f fails s) := by
  unfold mergeRelease
  try dsimp only
  repeat' first
    | with_reducible assumption | exact Part.sub_trans rfl hl | with_reducible apply releaseLoop_moves

theorem mergePacket_moves {pl : List Part} {z : State} (f : Nat) (leg : Nat) (n : Nat) (m : MediaPkt) {s : State}
    (hz : Moves pl z s)
    (hl : Part.sub [.flash, .evt, .eth] pl = true := by first | rfl | exact Part.sub_trans rfl (by assumption)) :
    Moves pl z (mergePacket f leg n m s) := by
  unfold mergePacket
  try dsimp only
  repeat' first
    | with_reducible assumption | exact Part.sub_trans rfl hl | with_reducible apply rxAdd_moves
    | with_reducible apply modRxFlow_moves | with_reducible apply Moves.ite

theorem flowPacket_moves {pl : List Part} {z : State} (f : Nat) (leg : Nat) (tooLong : Bool) (m : MediaPkt) {s : State}
    (hz : Moves pl z s)
    (hl : Part.sub [.flash, .evt, .eth, .aud] pl = true := by first | rfl | exact Part.sub_trans rfl (by assumption)) :
    Moves pl z (flowPacket f leg tooLong m s) := by
  unfold flowPacket
  try dsimp only
  repeat' first
    | with_reducible assumption | exact Part.sub_trans rfl hl | with_reducible apply rxAdd_moves
    | with_reducible apply modRxFlow_moves | with_reducible apply setFlowState_moves
    | with_reducible apply mergeRelease_moves | with_reducible apply mergePacket_moves
    | with_reducible apply Moves.ite

theorem mediaReceived_moves {pl : List Part} {z : State} (p : Nat) (tooLong : Bool) (m : MediaPkt) {s : State}
    (hz : Moves pl z s)
    (hl : Part.sub [.flash, .evt, .eth, .aud] pl = true := by first | rfl | exact Part.sub_trans rfl (by assumption)) :
    Moves pl z (mediaReceived p tooLong m s) := by
  unfold mediaReceived
  try dsimp only
  repeat' first
    | with_reducible assumption | exact Part.sub_trans rfl hl | with_reducible apply ethCount_moves
    | with_reducible apply flowPacket_moves | with_reducible apply Moves.ite
    | (with_reducible apply Moves.foldl; intro _ _ _)

theorem addressConflict_moves {pl : List Part} {z : State} (p : Nat) (family : Nat) (mac : Nat) (a : Nat) {s : State}
    (hz : Moves pl z s)
    (hl : Part.sub [.flash, .evt, .eth, .out] pl = true := by first | rfl | exact Part.sub_trans rfl (by assumption)) :
    Moves pl z (addressConflict p family mac a s) := by
  unfold addressConflict
  try dsimp only
  repeat' first
    | with_reducible assumption | exact Part.sub_trans rfl hl | with_reducible apply sendService_moves
    | with_reducible apply raise_moves

theorem answerEcho_moves {pl : List Part} {z : State} (p : Nat) (v6 : Bool) (sender : Nat) (data : List Byte) {s : State}
    (hz : Moves pl z s)
    (hl : Part.sub [.flash, .evt, .eth, .out] pl = true := by first | rfl | exact Part.sub_trans rfl (by assumption)) :
    Moves pl z (answerEcho p v6 sender data s) := by
  unfold answerEcho
  try dsimp only
  repeat' first
    | with_reducible assumption | exact Part.sub_trans rfl hl | with_reducible apply sendService_moves
    | with_reducible apply modEth_moves | with_reducible apply Moves.ite

theorem deliver_moves {pl : List Part} {z : State} (p : Nat) (tooLong : Bool) (f : EthFrame) {s : State}
    (hz : Moves pl z s)
    (hl : Part.sub [.clock, .aon, .flash, .host, .evt, .red, .eth, .tim, .aud, .out] pl = true := by first | rfl | exact Part.sub_trans rfl (by assumption)) :
    Moves pl z (deliver p tooLong f s) := by
  unfold deliver
  try dsimp only
  repeat' first
    | with_reducible assumption | exact Part.sub_trans rfl hl | with_reducible apply ethCount_moves
    | with_reducible apply judgeDatagram_moves | with_reducible apply mediaReceived_moves
    | with_reducible apply ptpReceive_moves | with_reducible apply addressConflict_moves
    | with_reducible apply sendService_moves | with_reducible apply answerEcho_moves
    | with_reducible apply Moves.ite
    | (split <;> try dsimp only)

theorem bridgeForward_moves {pl : List Part} {z : State} (p : Nat) (tooLong : Bool) (f : EthFrame) {s : State}
    (hz : Moves pl z s)
    (hl : Part.sub [.flash, .evt, .eth, .out] pl = true := by first | rfl | exact Part.sub_trans rfl (by assumption)) :
    Moves pl z (bridgeForward p tooLong f s) := by
  unfold bridgeForward
  try dsimp only
  repeat' first
    | with_reducible assumption | exact Part.sub_trans rfl hl | with_reducible apply ethCount_moves
    | with_reducible apply sendFrame_moves | with_reducible apply Moves.ite
    | (split <;> try dsimp only)

theorem ringHeard_moves {pl : List Part} {z : State} (q : Nat) {s : State}
    (hz : Moves pl z s)
    (hl : Part.sub [.flash, .evt, .eth] pl = true := by first | rfl | exact Part.sub_trans rfl (by assumption)) :
    Moves pl z (ringHeard q s) := by
  unfold ringHeard
  try dsimp only
  repeat' first
    | with_reducible assumption | exact Part.sub_trans rfl hl | with_reducible apply Moves.onEth
    | with_reducible apply setRing_moves | with_reducible apply Moves.ite

theorem bridge_moves {pl : List Part} {z : State} (p : Nat) (tooLong : Bool) (f : EthFrame) {s : State}
    (hz : Moves pl z s)
    (hl : Part.sub [.clock, .aon, .flash, .host, .evt, .red, .eth, .tim, .aud, .out] pl = true := by first | rfl | exact Part.sub_trans rfl (by assumption)) :
    Moves pl z (bridge p tooLong f s) := by
  unfold bridge
  try dsimp only
  repeat' first
    | with_reducible assumption | exact Part.sub_trans rfl hl | with_reducible apply ringHeard_moves
    | with_reducible apply ethCount_moves | with_reducible apply deliver_moves
    | with_reducible apply bridgeForward_moves | with_reducible apply Moves.ite
    | (split <;> try dsimp only)

theorem pauseReceived_moves {pl : List Part} {z : State} (p : Nat) (quanta : Nat) {s : State}
    (hz : Moves pl z s)
    (hl : Part.sub [.flash, .evt, .eth] pl = true := by first | rfl | exact Part.sub_trans rfl (by assumption)) :
    Moves pl z (pauseReceived p quanta s) := by
  unfold pauseReceived
  try dsimp only
  repeat' first
    | with_reducible assumption | exact Part.sub_trans rfl hl | with_reducible apply ethCount_moves
    | with_reducible apply endPause_moves | with_reducible apply modEth_moves
    | with_reducible apply raisePause_moves | with_reducible apply Moves.ite

theorem consumeFrame_moves {pl : List Part} {z : State} (p : Nat) (tooLong : Bool) (f : EthFrame) {s : State}
    (hz : Moves pl z s)
    (hl : Part.sub [.clock, .aon, .flash, .host, .evt, .red, .eth, .tim, .aud, .out] pl = true := by first | rfl | exact Part.sub_trans rfl (by assumption)) :
    Moves pl z (consumeFrame p tooLong f s) := by
  unfold consumeFrame
  try dsimp only
  repeat' first
    | with_reducible assumption | exact Part.sub_trans rfl hl | with_reducible apply pauseReceived_moves
    | with_reducible apply ethCount_moves | with_reducible apply bridge_moves
    | with_reducible apply deliver_moves | with_reducible apply Moves.ite
    | (split <;> try dsimp only)

theorem frameReceived_moves {pl : List Part} {z : State} (p : Nat) (f : EthFrame) {s : State}
    (hz : Moves pl z s)
    (hl : Part.sub [.clock, .aon, .flash, .host, .evt, .red, .eth, .tim, .aud, .out] pl = true := by first | rfl | exact Part.sub_trans rfl (by assumption)) :
    Moves pl z (frameReceived p f s) := by
  unfold frameReceived
  try dsimp only
  repeat' first
    | with_reducible assumption | exact Part.sub_trans rfl hl | with_reducible apply ethCount_moves
    | with_reducible apply sendService_moves | with_reducible apply modEth_moves
    | with_reducible apply consumeFrame_moves | with_reducible apply ethAdd_moves
    | with_reducible apply Moves.ite
    | (split <;> try dsimp only)

end Sys2Proof.Machine
end

