-- ==== Sys2Proof/Laws/MovesEth.lean ====
section
/-! SUPPORT. What each operation and command of `Machine/Eth.lean` moves. -/

-- The package is checked as one text; elaborating these proofs in order keeps the number of threads small.
set_option Elab.async false

namespace Sys2Proof.Machine

theorem readEthLow_moves {pl : List Part} {z : State} (p : Nat) (index : Nat) (master : Nat) {s : State}
    (hz : Moves pl z s)
    (hl : Part.sub [.eth] pl = true := by first | rfl | exact Part.sub_trans rfl (by assumption)) :
    Moves pl z (readEthLow p index master s).2 := by
  unfold readEthLow
  try dsimp only
  repeat' first
    | with_reducible assumption | exact Part.sub_trans rfl hl | with_reducible apply modEth_moves

theorem setPreempt_moves {pl : List Part} {z : State} (p : Nat) (on : Bool) {s : State}
    (hz : Moves pl z s)
    (hl : Part.sub [.eth] pl = true := by first | rfl | exact Part.sub_trans rfl (by assumption)) :
    Moves pl z (setPreempt p on s) := by
  unfold setPreempt
  try dsimp only
  repeat' first
    | with_reducible assumption | exact Part.sub_trans rfl hl | with_reducible apply modEth_moves
    | with_reducible apply Moves.ite

theorem applyPortCfg_moves {pl : List Part} {z : State} (p : Nat) (v : Nat) {s : State}
    (hz : Moves pl z s)
    (hl : Part.sub [.flash, .evt, .eth] pl = true := by first | rfl | exact Part.sub_trans rfl (by assumption)) :
    Moves pl z (applyPortCfg p v s) := by
  unfold applyPortCfg
  try dsimp only
  repeat' first
    | with_reducible assumption | exact Part.sub_trans rfl hl | with_reducible apply setPreempt_moves
    | with_reducible apply modEth_moves | with_reducible apply endPause_moves
    | with_reducible apply stopPausing_moves | with_reducible apply setLink_moves
    | with_reducible apply Moves.ite

theorem effEthPortConfig_moves {pl : List Part} {z : State} {s : State} (c : HostCmd)
    (hz : Moves pl z s)
    (hl : Part.sub [.flash, .evt, .eth] pl = true := by first | rfl | exact Part.sub_trans rfl (by assumption)) :
    Moves pl z (effEthPortConfig s c).1 := by
  unfold effEthPortConfig
  try dsimp only
  repeat' first
    | with_reducible assumption | exact Part.sub_trans rfl hl | with_reducible apply applyPortCfg_moves
    | with_reducible apply modEth_moves | with_reducible apply Moves.onEth | with_reducible apply Moves.ite
    | with_reducible apply Moves.ite_fst | (with_reducible apply Moves.foldl; intro _ _ _)

theorem applyEthMode_moves {pl : List Part} {z : State} (chain : Bool) (block : Nat) {s : State}
    (hz : Moves pl z s)
    (hl : Part.sub [.aon, .flash, .evt, .red, .eth, .tim, .out] pl = true := by first | rfl | exact Part.sub_trans rfl (by assumption)) :
    Moves pl z (applyEthMode chain block s) := by
  unfold applyEthMode
  try dsimp only
  repeat' first
    | with_reducible assumption | exact Part.sub_trans rfl hl | with_reducible apply Moves.onEth
    | with_reducible apply Moves.onAon | with_reducible apply modEth_moves | with_reducible apply raise_moves
    | with_reducible apply chooseMaster_moves | with_reducible apply onPtp_moves
    | with_reducible apply Moves.ite

theorem effEthIpConfig_moves {pl : List Part} {z : State} {s : State} (c : HostCmd)
    (hz : Moves pl z s)
    (hl : Part.sub [.aon, .eth] pl = true := by first | rfl | exact Part.sub_trans rfl (by assumption)) :
    Moves pl z (effEthIpConfig s c).1 := by
  unfold effEthIpConfig
  try dsimp only
  repeat' first
    | with_reducible assumption | exact Part.sub_trans rfl hl | with_reducible apply Moves.onEth
    | with_reducible apply Moves.onAon | with_reducible apply Moves.ite | with_reducible apply Moves.ite_fst
    | (split <;> try dsimp only)

theorem effEthCounters_moves {pl : List Part} {z : State} {s : State} (c : HostCmd)
    (hz : Moves pl z s) :
    Moves pl z (effEthCounters s c).1 := by
  unfold effEthCounters
  try dsimp only
  repeat' first
    | with_reducible assumption | exact Part.sub_trans rfl hl

theorem effEthTxFlow_moves {pl : List Part} {z : State} {s : State} (c : HostCmd)
    (hz : Moves pl z s)
    (hl : Part.sub [.eth] pl = true := by first | rfl | exact Part.sub_trans rfl (by assumption)) :
    Moves pl z (effEthTxFlow s c).1 := by
  unfold effEthTxFlow
  try dsimp only
  repeat' first
    | with_reducible assumption | exact Part.sub_trans rfl hl | with_reducible apply modTxFlow_moves
    | with_reducible apply Moves.ite | with_reducible apply Moves.ite_fst

theorem effEthRxFlow_moves {pl : List Part} {z : State} {s : State} (c : HostCmd)
    (hz : Moves pl z s)
    (hl : Part.sub [.flash, .evt, .eth, .out] pl = true := by first | rfl | exact Part.sub_trans rfl (by assumption)) :
    Moves pl z (effEthRxFlow s c).1 := by
  unfold effEthRxFlow
  try dsimp only
  repeat' first
    | with_reducible assumption | exact Part.sub_trans rfl hl | with_reducible apply reportLeg_moves
    | with_reducible apply modRxFlow_moves | with_reducible apply Moves.ite
    | with_reducible apply Moves.ite_fst | (with_reducible apply Moves.foldl; intro _ _ _)

theorem effEthFlowQuery_moves {pl : List Part} {z : State} {s : State} (c : HostCmd)
    (hz : Moves pl z s) :
    Moves pl z (effEthFlowQuery s c).1 := by
  unfold effEthFlowQuery
  try dsimp only
  repeat' first
    | with_reducible assumption | exact Part.sub_trans rfl hl | with_reducible apply Moves.ite
    | with_reducible apply Moves.ite_fst

theorem linkUp_moves {pl : List Part} {z : State} (p : Nat) {s : State}
    (hz : Moves pl z s)
    (hl : Part.sub [.flash, .evt, .eth, .out] pl = true := by first | rfl | exact Part.sub_trans rfl (by assumption)) :
    Moves pl z (linkUp p s) := by
  unfold linkUp
  try dsimp only
  repeat' first
    | with_reducible assumption | exact Part.sub_trans rfl hl | with_reducible apply modEth_moves
    | with_reducible apply setLink_moves | with_reducible apply sendService_moves
    | with_reducible apply Moves.onEth | with_reducible apply Moves.ite

theorem setLegLost_moves {pl : List Part} {z : State} (f : Nat) (leg : Nat) (lost : Bool) {s : State}
    (hz : Moves pl z s)
    (hl : Part.sub [.flash, .evt, .eth] pl = true := by first | rfl | exact Part.sub_trans rfl (by assumption)) :
    Moves pl z (setLegLost f leg lost s) := by
  unfold setLegLost
  try dsimp only
  repeat' first
    | with_reducible assumption | exact Part.sub_trans rfl hl | with_reducible apply raise_moves
    | with_reducible apply modRxFlow_moves | with_reducible apply Moves.ite

theorem dropPacket_moves {pl : List Part} {z : State} (f : Nat) (p : Nat) (parity : Bool) {s : State}
    (hz : Moves pl z s)
    (hl : Part.sub [.flash, .evt, .eth] pl = true := by first | rfl | exact Part.sub_trans rfl (by assumption)) :
    Moves pl z (dropPacket f p parity s) := by
  unfold dropPacket
  try dsimp only
  repeat' first
    | with_reducible assumption | exact Part.sub_trans rfl hl | with_reducible apply txCount_moves
    | with_reducible apply ethCount_moves | with_reducible apply modTxFlow_moves
    | with_reducible apply Moves.ite

theorem sendMedia_moves {pl : List Part} {z : State} (f : Nat) (p : Nat) (rtp : List Byte) {s : State}
    (hz : Moves pl z s)
    (hl : Part.sub [.flash, .evt, .eth, .out] pl = true := by first | rfl | exact Part.sub_trans rfl (by assumption)) :
    Moves pl z (sendMedia f p rtp s) := by
  unfold sendMedia
  try dsimp only
  repeat' first
    | with_reducible assumption | exact Part.sub_trans rfl hl | with_reducible apply txCount_moves
    | with_reducible apply emit_moves | with_reducible apply ethAdd_moves | with_reducible apply ethCount_moves
    | with_reducible apply Moves.ite

theorem execEthPortCntLowRead_moves {pl : List Part} {z : State} (t : Nat) (port : Nat) (index : Nat) (master : Nat) {s : State}
    (hz : Moves pl z s)
    (hl : Part.sub [.clock, .eth] pl = true := by first | rfl | exact Part.sub_trans rfl (by assumption)) :
    MovesOut pl z (execEthPortCntLowRead t port index master s) := by
  unfold execEthPortCntLowRead
  try dsimp only
  refine MovesOut.fault ?_
  try with_reducible refine MovesOut.next ?_
  repeat' first
    | with_reducible assumption | exact Part.sub_trans rfl hl | with_reducible apply readEthLow_moves
    | with_reducible apply advance_moves | with_reducible apply Moves.ite

theorem execEthPortConfig_moves {pl : List Part} {z : State} (t : Nat) (c : HostCmd) {s : State}
    (hz : Moves pl z s)
    (hl : Part.sub [.clock, .flash, .host, .evt, .red, .eth, .out] pl = true := by first | rfl | exact Part.sub_trans rfl (by assumption)) :
    MovesOut pl z (execEthPortConfig t c s) := by
  exact runCommand_moves _ _ _ _ _ hz (fun _ h => effEthPortConfig_moves _ h)

theorem execEthModeTakesEffect_moves {pl : List Part} {z : State} (t : Nat) {s : State}
    (hz : Moves pl z s)
    (hl : Part.sub [.clock, .aon, .flash, .evt, .red, .eth, .tim, .out] pl = true := by first | rfl | exact Part.sub_trans rfl (by assumption)) :
    MovesOut pl z (execEthModeTakesEffect t s) := by
  unfold execEthModeTakesEffect
  try dsimp only
  try with_reducible refine MovesOut.next ?_
  repeat' first
    | with_reducible assumption | exact Part.sub_trans rfl hl | with_reducible apply advance_moves
    | with_reducible apply applyEthMode_moves | with_reducible apply Moves.ite
    | (split <;> try dsimp only)

theorem execEthIpConfig_moves {pl : List Part} {z : State} (t : Nat) (c : HostCmd) {s : State}
    (hz : Moves pl z s)
    (hl : Part.sub [.clock, .aon, .flash, .host, .evt, .red, .eth, .out] pl = true := by first | rfl | exact Part.sub_trans rfl (by assumption)) :
    MovesOut pl z (execEthIpConfig t c s) := by
  exact runCommand_moves _ _ _ _ _ hz (fun _ h => effEthIpConfig_moves _ h)

theorem execEthCounters_moves {pl : List Part} {z : State} (t : Nat) (c : HostCmd) {s : State}
    (hz : Moves pl z s)
    (hl : Part.sub [.clock, .flash, .host, .evt, .red, .out] pl = true := by first | rfl | exact Part.sub_trans rfl (by assumption)) :
    MovesOut pl z (execEthCounters t c s) := by
  exact runCommand_moves _ _ _ _ _ hz (fun _ h => effEthCounters_moves _ h)

theorem execEthTxFlow_moves {pl : List Part} {z : State} (t : Nat) (c : HostCmd) {s : State}
    (hz : Moves pl z s)
    (hl : Part.sub [.clock, .flash, .host, .evt, .red, .eth, .out] pl = true := by first | rfl | exact Part.sub_trans rfl (by assumption)) :
    MovesOut pl z (execEthTxFlow t c s) := by
  exact runCommand_moves _ _ _ _ _ hz (fun _ h => effEthTxFlow_moves _ h)

theorem execEthRxFlow_moves {pl : List Part} {z : State} (t : Nat) (c : HostCmd) {s : State}
    (hz : Moves pl z s)
    (hl : Part.sub [.clock, .flash, .host, .evt, .red, .eth, .out] pl = true := by first | rfl | exact Part.sub_trans rfl (by assumption)) :
    MovesOut pl z (execEthRxFlow t c s) := by
  exact runCommand_moves _ _ _ _ _ hz (fun _ h => effEthRxFlow_moves _ h)

theorem execEthFlowQuery_moves {pl : List Part} {z : State} (t : Nat) (c : HostCmd) {s : State}
    (hz : Moves pl z s)
    (hl : Part.sub [.clock, .flash, .host, .evt, .red, .out] pl = true := by first | rfl | exact Part.sub_trans rfl (by assumption)) :
    MovesOut pl z (execEthFlowQuery t c s) := by
  exact runCommand_moves _ _ _ _ _ hz (fun _ h => effEthFlowQuery_moves _ h)

theorem execPcsBlockLock_moves {pl : List Part} {z : State} (t : Nat) (p : Nat) {s : State}
    (hz : Moves pl z s)
    (hl : Part.sub [.clock, .flash, .evt, .eth] pl = true := by first | rfl | exact Part.sub_trans rfl (by assumption)) :
    MovesOut pl z (execPcsBlockLock t p s) := by
  unfold execPcsBlockLock
  try dsimp only
  refine MovesOut.fault ?_
  try with_reducible refine MovesOut.next ?_
  repeat' first
    | with_reducible assumption | exact Part.sub_trans rfl hl | with_reducible apply advance_moves
    | with_reducible apply setLink_moves | with_reducible apply Moves.ite

theorem execLinkUp_moves {pl : List Part} {z : State} (t : Nat) (p : Nat) {s : State}
    (hz : Moves pl z s)
    (hl : Part.sub [.clock, .flash, .evt, .eth, .out] pl = true := by first | rfl | exact Part.sub_trans rfl (by assumption)) :
    MovesOut pl z (execLinkUp t p s) := by
  unfold execLinkUp
  try dsimp only
  refine MovesOut.fault ?_
  try with_reducible refine MovesOut.next ?_
  repeat' first
    | with_reducible assumption | exact Part.sub_trans rfl hl | with_reducible apply advance_moves
    | with_reducible apply linkUp_moves | with_reducible apply Moves.ite

theorem execPcsAlignmentLost_moves {pl : List Part} {z : State} (t : Nat) (p : Nat) {s : State}
    (hz : Moves pl z s)
    (hl : Part.sub [.clock, .flash, .evt, .eth] pl = true := by first | rfl | exact Part.sub_trans rfl (by assumption)) :
    MovesOut pl z (execPcsAlignmentLost t p s) := by
  unfold execPcsAlignmentLost
  try dsimp only
  refine MovesOut.fault ?_
  try with_reducible refine MovesOut.next ?_
  repeat' first
    | with_reducible assumption | exact Part.sub_trans rfl hl | with_reducible apply setLink_moves
    | with_reducible apply advance_moves | with_reducible apply Moves.ite

theorem execLinkFaultExpired_moves {pl : List Part} {z : State} (t : Nat) (p : Nat) (remote : Bool) {s : State}
    (hz : Moves pl z s)
    (hl : Part.sub [.clock, .flash, .evt, .eth] pl = true := by first | rfl | exact Part.sub_trans rfl (by assumption)) :
    MovesOut pl z (execLinkFaultExpired t p remote s) := by
  unfold execLinkFaultExpired
  try dsimp only
  refine MovesOut.fault ?_
  try with_reducible refine MovesOut.next ?_
  repeat' first
    | with_reducible assumption | exact Part.sub_trans rfl hl | with_reducible apply advance_moves
    | with_reducible apply setLink_moves | with_reducible apply modEth_moves | with_reducible apply Moves.ite

theorem execPreemptVerifyExpired_moves {pl : List Part} {z : State} (t : Nat) (p : Nat) {s : State}
    (hz : Moves pl z s)
    (hl : Part.sub [.clock, .flash, .evt, .eth, .out] pl = true := by first | rfl | exact Part.sub_trans rfl (by assumption)) :
    MovesOut pl z (execPreemptVerifyExpired t p s) := by
  unfold execPreemptVerifyExpired
  try dsimp only
  refine MovesOut.fault ?_
  try with_reducible refine MovesOut.next ?_
  repeat' first
    | with_reducible assumption | exact Part.sub_trans rfl hl | with_reducible apply advance_moves
    | with_reducible apply sendService_moves | with_reducible apply modEth_moves
    | with_reducible apply raise_moves | with_reducible apply Moves.ite

theorem execEthFrameReceived_moves {pl : List Part} {z : State} (t : Nat) (p : Nat) (f : EthFrame) {s : State}
    (hz : Moves pl z s)
    (hl : Part.sub [.clock, .aon, .flash, .host, .evt, .red, .eth, .tim, .aud, .out] pl = true := by first | rfl | exact Part.sub_trans rfl (by assumption)) :
    MovesOut pl z (execEthFrameReceived t p f s) := by
  unfold execEthFrameReceived
  try dsimp only
  refine MovesOut.fault ?_
  try with_reducible refine MovesOut.next ?_
  repeat' first
    | with_reducible assumption | exact Part.sub_trans rfl hl | with_reducible apply advance_moves
    | with_reducible apply frameReceived_moves | with_reducible apply Moves.ite

theorem execRingCheckSend_moves {pl : List Part} {z : State} (t : Nat) {s : State}
    (hz : Moves pl z s)
    (hl : Part.sub [.clock, .flash, .evt, .eth, .out] pl = true := by first | rfl | exact Part.sub_trans rfl (by assumption)) :
    MovesOut pl z (execRingCheckSend t s) := by
  unfold execRingCheckSend
  try dsimp only
  try with_reducible refine MovesOut.next ?_
  repeat' first
    | with_reducible assumption | exact Part.sub_trans rfl hl | with_reducible apply advance_moves
    | with_reducible apply sendFrame_moves | with_reducible apply Moves.onEth | with_reducible apply Moves.ite

theorem execRingCheckMissing_moves {pl : List Part} {z : State} (t : Nat) {s : State}
    (hz : Moves pl z s)
    (hl : Part.sub [.clock, .flash, .evt, .eth] pl = true := by first | rfl | exact Part.sub_trans rfl (by assumption)) :
    MovesOut pl z (execRingCheckMissing t s) := by
  unfold execRingCheckMissing
  try dsimp only
  try with_reducible refine MovesOut.next ?_
  repeat' first
    | with_reducible assumption | exact Part.sub_trans rfl hl | with_reducible apply advance_moves
    | with_reducible apply setRing_moves | with_reducible apply Moves.ite

theorem execPauseExpired_moves {pl : List Part} {z : State} (t : Nat) (p : Nat) {s : State}
    (hz : Moves pl z s)
    (hl : Part.sub [.clock, .flash, .evt, .eth] pl = true := by first | rfl | exact Part.sub_trans rfl (by assumption)) :
    MovesOut pl z (execPauseExpired t p s) := by
  unfold execPauseExpired
  try dsimp only
  refine MovesOut.fault ?_
  try with_reducible refine MovesOut.next ?_
  repeat' first
    | with_reducible assumption | exact Part.sub_trans rfl hl | with_reducible apply advance_moves
    | with_reducible apply endPause_moves | with_reducible apply Moves.ite
    | (split <;> try dsimp only)

theorem execPauseTxThreshold_moves {pl : List Part} {z : State} (t : Nat) (p : Nat) (share : Nat) {s : State}
    (hz : Moves pl z s)
    (hl : Part.sub [.clock, .flash, .evt, .eth, .out] pl = true := by first | rfl | exact Part.sub_trans rfl (by assumption)) :
    MovesOut pl z (execPauseTxThreshold t p share s) := by
  unfold execPauseTxThreshold
  try dsimp only
  refine MovesOut.fault ?_
  try with_reducible refine MovesOut.next ?_
  repeat' first
    | with_reducible assumption | exact Part.sub_trans rfl hl | with_reducible apply modEth_moves
    | with_reducible apply advance_moves | with_reducible apply raisePause_moves
    | with_reducible apply sendPause_moves | with_reducible apply stopPausing_moves
    | with_reducible apply Moves.ite

theorem execPauseRepeat_moves {pl : List Part} {z : State} (t : Nat) (p : Nat) {s : State}
    (hz : Moves pl z s)
    (hl : Part.sub [.clock, .flash, .evt, .eth, .out] pl = true := by first | rfl | exact Part.sub_trans rfl (by assumption)) :
    MovesOut pl z (execPauseRepeat t p s) := by
  unfold execPauseRepeat
  try dsimp only
  refine MovesOut.fault ?_
  try with_reducible refine MovesOut.next ?_
  repeat' first
    | with_reducible assumption | exact Part.sub_trans rfl hl | with_reducible apply advance_moves
    | with_reducible apply sendPause_moves | with_reducible apply modEth_moves | with_reducible apply Moves.ite

theorem execIgmpQueryReceived_moves {pl : List Part} {z : State} (t : Nat) (p : Nat) (version : Nat) (querier : Nat) (group : Nat) {s : State}
    (hz : Moves pl z s)
    (hl : Part.sub [.clock, .flash, .evt, .eth, .out] pl = true := by first | rfl | exact Part.sub_trans rfl (by assumption)) :
    MovesOut pl z (execIgmpQueryReceived t p version querier group s) := by
  unfold execIgmpQueryReceived
  try dsimp only
  refine MovesOut.fault ?_
  try with_reducible refine MovesOut.next ?_
  repeat' first
    | with_reducible assumption | exact Part.sub_trans rfl hl | with_reducible apply advance_moves
    | with_reducible apply raise_moves | with_reducible apply modEth_moves
    | with_reducible apply reportLeg_moves | with_reducible apply Moves.ite
    | (with_reducible apply Moves.foldl; intro _ _ _)

theorem execIgmpReportSend_moves {pl : List Part} {z : State} (t : Nat) (f : Nat) {s : State}
    (hz : Moves pl z s)
    (hl : Part.sub [.clock, .flash, .evt, .eth, .out] pl = true := by first | rfl | exact Part.sub_trans rfl (by assumption)) :
    MovesOut pl z (execIgmpReportSend t f s) := by
  unfold execIgmpReportSend
  try dsimp only
  refine MovesOut.fault ?_
  try with_reducible refine MovesOut.next ?_
  repeat' first
    | with_reducible assumption | exact Part.sub_trans rfl hl | with_reducible apply advance_moves
    | with_reducible apply reportLeg_moves | with_reducible apply modRxFlow_moves
    | with_reducible apply Moves.ite | (with_reducible apply Moves.foldl; intro _ _ _)

theorem execAddressProbe_moves {pl : List Part} {z : State} (t : Nat) (p : Nat) (family : Nat) (a : Nat) (conflict : Option Nat) {s : State}
    (hz : Moves pl z s)
    (hl : Part.sub [.clock, .flash, .evt, .eth, .out] pl = true := by first | rfl | exact Part.sub_trans rfl (by assumption)) :
    MovesOut pl z (execAddressProbe t p family a conflict s) := by
  unfold execAddressProbe
  try dsimp only
  refine MovesOut.fault ?_
  try with_reducible refine MovesOut.next ?_
  repeat' first
    | with_reducible assumption | exact Part.sub_trans rfl hl | with_reducible apply advance_moves
    | with_reducible apply Moves.onEth | with_reducible apply addressConflict_moves
    | with_reducible apply sendService_moves | with_reducible apply Moves.ite
    | (split <;> try dsimp only)

theorem execMergeRelease_moves {pl : List Part} {z : State} (t : Nat) (f : Nat) (fails : List (Nat × Nat)) {s : State}
    (hz : Moves pl z s)
    (hl : Part.sub [.clock, .flash, .evt, .eth, .aud] pl = true := by first | rfl | exact Part.sub_trans rfl (by assumption)) :
    MovesOut pl z (execMergeRelease t f fails s) := by
  unfold execMergeRelease
  try dsimp only
  refine MovesOut.fault ?_
  try with_reducible refine MovesOut.next ?_
  repeat' first
    | with_reducible assumption | exact Part.sub_trans rfl hl | with_reducible apply mergeRelease_moves
    | with_reducible apply advance_moves | with_reducible apply Moves.ite

theorem execLegLost_moves {pl : List Part} {z : State} (t : Nat) (f : Nat) (leg : Nat) {s : State}
    (hz : Moves pl z s)
    (hl : Part.sub [.clock, .flash, .evt, .eth] pl = true := by first | rfl | exact Part.sub_trans rfl (by assumption)) :
    MovesOut pl z (execLegLost t f leg s) := by
  unfold execLegLost
  try dsimp only
  refine MovesOut.fault ?_
  try with_reducible refine MovesOut.next ?_
  repeat' first
    | with_reducible assumption | exact Part.sub_trans rfl hl | with_reducible apply advance_moves
    | with_reducible apply setLegLost_moves | with_reducible apply setFlowState_moves
    | with_reducible apply Moves.ite

theorem execLegRestored_moves {pl : List Part} {z : State} (t : Nat) (f : Nat) (leg : Nat) {s : State}
    (hz : Moves pl z s)
    (hl : Part.sub [.clock, .flash, .evt, .eth] pl = true := by first | rfl | exact Part.sub_trans rfl (by assumption)) :
    MovesOut pl z (execLegRestored t f leg s) := by
  unfold execLegRestored
  try dsimp only
  refine MovesOut.fault ?_
  try with_reducible refine MovesOut.next ?_
  repeat' first
    | with_reducible assumption | exact Part.sub_trans rfl hl | with_reducible apply advance_moves
    | with_reducible apply setLegLost_moves | with_reducible apply setFlowState_moves
    | with_reducible apply Moves.ite

theorem execMediaPacketSend_moves {pl : List Part} {z : State} (t : Nat) (f : Nat) (leg : Nat) (i : Nat) (sched : Nat) (parity : Bool) (data : List Byte) {s : State}
    (hz : Moves pl z s)
    (hl : Part.sub [.clock, .flash, .evt, .eth, .out] pl = true := by first | rfl | exact Part.sub_trans rfl (by assumption)) :
    MovesOut pl z (execMediaPacketSend t f leg i sched parity data s) := by
  unfold execMediaPacketSend
  try dsimp only
  refine MovesOut.fault ?_
  try with_reducible refine MovesOut.next ?_
  repeat' first
    | with_reducible assumption | exact Part.sub_trans rfl hl | with_reducible apply advance_moves
    | with_reducible apply dropPacket_moves | with_reducible apply sendMedia_moves
    | with_reducible apply modTxFlow_moves | with_reducible apply txCount_moves
    | with_reducible apply Moves.ite

end Sys2Proof.Machine
end

