-- ==== Sys2Proof/Laws/MovesCue.lean ====
section
/-! SUPPORT. What each operation and command of `Machine/Cue.lean` moves. -/

-- The package is checked as one text; elaborating these proofs in order keeps the number of threads small.
set_option Elab.async false

namespace Sys2Proof.Machine

theorem effCueLoad_moves {pl : List Part} {z : State} {s : State} (c : HostCmd)
    (hz : Moves pl z s)
    (hl : Part.sub [.cue] pl = true := by first | rfl | exact Part.sub_trans rfl (by assumption)) :
    Moves pl z (effCueLoad s c).1 := by
  unfold effCueLoad
  try dsimp only
  repeat' first
    | with_reducible assumption | exact Part.sub_trans rfl hl | with_reducible apply Moves.onCue

theorem startRefused_moves {pl : List Part} {z : State} (prog : Nat) (unit : Nat) (cause : Nat) {s : State}
    (hz : Moves pl z s)
    (hl : Part.sub [.flash, .evt, .cue] pl = true := by first | rfl | exact Part.sub_trans rfl (by assumption)) :
    Moves pl z (startRefused prog unit cause s) := by
  unfold startRefused
  try dsimp only
  repeat' first
    | with_reducible assumption | exact Part.sub_trans rfl hl | with_reducible apply raise_moves
    | with_reducible apply Moves.onCue

theorem raiseLate_moves {pl : List Part} {z : State} (i : Nat) (prog : Nat) (word : Nat) (us : Nat) {s : State}
    (hz : Moves pl z s)
    (hl : Part.sub [.flash, .evt, .cue] pl = true := by first | rfl | exact Part.sub_trans rfl (by assumption)) :
    Moves pl z (raiseLate i prog word us s) := by
  unfold raiseLate
  try dsimp only
  repeat' first
    | with_reducible assumption | exact Part.sub_trans rfl hl | with_reducible apply raise_moves
    | with_reducible apply Moves.onCue

theorem startInst_moves {pl : List Part} {z : State} (i : Nat) (x : CueInst) {s : State}
    (hz : Moves pl z s)
    (hl : Part.sub [.flash, .evt, .cue] pl = true := by first | rfl | exact Part.sub_trans rfl (by assumption)) :
    Moves pl z (startInst i x s) := by
  unfold startInst
  try dsimp only
  repeat' first
    | with_reducible assumption | exact Part.sub_trans rfl hl | with_reducible apply Moves.onCue
    | with_reducible apply raise_moves | with_reducible apply raiseLate_moves | with_reducible apply Moves.ite
    | (split <;> try dsimp only)

theorem effCueRun_moves {pl : List Part} {z : State} {s : State} (c : HostCmd)
    (hz : Moves pl z s)
    (hl : Part.sub [.flash, .evt, .cue] pl = true := by first | rfl | exact Part.sub_trans rfl (by assumption)) :
    Moves pl z (effCueRun s c).1 := by
  unfold effCueRun
  try dsimp only
  repeat' first
    | with_reducible assumption | exact Part.sub_trans rfl hl | with_reducible apply startInst_moves
    | with_reducible apply Moves.ite | with_reducible apply Moves.ite_fst

theorem abortInst_moves {pl : List Part} {z : State} (i : Nat) (cause : Nat) {s : State}
    (hz : Moves pl z s)
    (hl : Part.sub [.flash, .host, .evt, .xpt, .cue, .red, .cmp, .aud, .out] pl = true := by first | rfl | exact Part.sub_trans rfl (by assumption)) :
    Moves pl z (abortInst i cause s) := by
  unfold abortInst
  try dsimp only
  repeat' first
    | with_reducible assumption | exact Part.sub_trans rfl hl | with_reducible apply endInstance_moves
    | with_reducible apply discardEntries_moves
    | (split <;> try dsimp only)

theorem effCueAbort_moves {pl : List Part} {z : State} {s : State} (c : HostCmd)
    (hz : Moves pl z s)
    (hl : Part.sub [.flash, .host, .evt, .xpt, .cue, .red, .cmp, .aud, .out] pl = true := by first | rfl | exact Part.sub_trans rfl (by assumption)) :
    Moves pl z (effCueAbort s c).1 := by
  unfold effCueAbort
  try dsimp only
  repeat' first
    | with_reducible assumption | exact Part.sub_trans rfl hl | with_reducible apply abortInst_moves
    | (with_reducible apply Moves.foldl; intro _ _ _)
    | (split <;> try dsimp only)

theorem effCueStatus_moves {pl : List Part} {z : State} {s : State} (c : HostCmd)
    (hz : Moves pl z s) :
    Moves pl z (effCueStatus s c).1 := by
  unfold effCueStatus
  try dsimp only
  repeat' first
    | with_reducible assumption | exact Part.sub_trans rfl hl
    | (split <;> try dsimp only)

theorem effCueUnload_moves {pl : List Part} {z : State} {s : State} (c : HostCmd)
    (hz : Moves pl z s)
    (hl : Part.sub [.cue] pl = true := by first | rfl | exact Part.sub_trans rfl (by assumption)) :
    Moves pl z (effCueUnload s c).1 := by
  unfold effCueUnload
  try dsimp only
  repeat' first
    | with_reducible assumption | exact Part.sub_trans rfl hl | with_reducible apply Moves.onCue
    | (with_reducible apply Moves.foldl; intro _ _ _)

theorem writeCueCfg_moves {pl : List Part} {z : State} (v : Nat) {s : State}
    (hz : Moves pl z s)
    (hl : Part.sub [.cue] pl = true := by first | rfl | exact Part.sub_trans rfl (by assumption)) :
    Moves pl z (writeCueCfg v s) := by
  unfold writeCueCfg
  try dsimp only
  repeat' first
    | with_reducible assumption | exact Part.sub_trans rfl hl | with_reducible apply Moves.onCue

theorem opDiscarded_moves {pl : List Part} {z : State} (i : Nat) (prog : Nat) (word : Nat) (reason : Nat) (value : Nat) {s : State}
    (hz : Moves pl z s)
    (hl : Part.sub [.flash, .evt, .cue] pl = true := by first | rfl | exact Part.sub_trans rfl (by assumption)) :
    Moves pl z (opDiscarded i prog word reason value s) := by
  unfold opDiscarded
  try dsimp only
  repeat' first
    | with_reducible assumption | exact Part.sub_trans rfl hl | with_reducible apply raise_moves
    | with_reducible apply Moves.onCue

theorem placeOp_moves {pl : List Part} {z : State} (i : Nat) (x : CueInst) (wo : Nat × CueOp) {s : State}
    (hz : Moves pl z s)
    (hl : Part.sub [.flash, .evt, .xpt, .cue, .cmp, .aud] pl = true := by first | rfl | exact Part.sub_trans rfl (by assumption)) :
    Moves pl z (placeOp i x wo s) := by
  unfold placeOp
  try dsimp only
  repeat' first
    | with_reducible assumption | exact Part.sub_trans rfl hl | with_reducible apply opDiscarded_moves
    | with_reducible apply Moves.onCue | with_reducible apply setShadow_moves
    | with_reducible apply placeEntries_moves | with_reducible apply breakAway_moves
    | (split <;> try dsimp only)

theorem setInst_moves {pl : List Part} {z : State} (i : Nat) (x : CueInst) {s : State}
    (hz : Moves pl z s)
    (hl : Part.sub [.cue] pl = true := by first | rfl | exact Part.sub_trans rfl (by assumption)) :
    Moves pl z (setInst i x s) := by
  unfold setInst
  try dsimp only
  repeat' first
    | with_reducible assumption | exact Part.sub_trans rfl hl | with_reducible apply Moves.onCue

theorem closeGroup_moves {pl : List Part} {z : State} (i : Nat) (w : CueWord) (ref : Nat) (x : CueInst) {s : State}
    (hz : Moves pl z s)
    (hl : Part.sub [.flash, .evt, .cue] pl = true := by first | rfl | exact Part.sub_trans rfl (by assumption)) :
    Moves pl z (closeGroup i w ref x s) := by
  unfold closeGroup
  try dsimp only
  repeat' first
    | with_reducible assumption | exact Part.sub_trans rfl hl | with_reducible apply setInst_moves
    | with_reducible apply endInstance_moves | with_reducible apply Moves.ite

theorem placeGroup_moves {pl : List Part} {z : State} (i : Nat) (x : CueInst) (w : CueWord) {s : State}
    (hz : Moves pl z s)
    (hl : Part.sub [.flash, .evt, .xpt, .cue, .red, .cmp, .aud] pl = true := by first | rfl | exact Part.sub_trans rfl (by assumption)) :
    Moves pl z (placeGroup i x w s) := by
  unfold placeGroup
  try dsimp only
  repeat' first
    | with_reducible assumption | exact Part.sub_trans rfl hl | with_reducible apply setInst_moves
    | with_reducible apply raiseLate_moves | with_reducible apply recordItem_moves
    | with_reducible apply placeOp_moves | with_reducible apply closeGroup_moves
    | with_reducible apply Moves.ite | (with_reducible apply Moves.foldl; intro _ _ _)
    | (split <;> try dsimp only)

theorem collect_moves {pl : List Part} {z : State} (i : Nat) (ws : List CueWord) (told : Option (List (Nat × Bool))) (n : Nat)
    (x : CueInst) {s : State} (hz : Moves pl z s)
    (hl : Part.sub [.flash, .evt, .cue, .red] pl = true := by first | rfl | exact Part.sub_trans rfl (by assumption)) : Moves pl z (collect i ws told n x s).2 := by
  induction n generalizing told x s with
  | zero => exact hz
  | succ n ih =>
    unfold collect
    dsimp only
    refine .ite_snd hz (.ite_snd (ih _ _ (recordItem_moves _ (.ite (opDiscarded_moves _ _ _ _ _ hz) hz))) ?_)
    exact .ite_snd (ih _ _ hz) (ih _ _ hz)

theorem executeGroup_moves {pl : List Part} {z : State} (i : Nat) (told : Option (List (Nat × Bool))) {s : State} (hz : Moves pl z s)
    (hl : Part.sub [.flash, .host, .evt, .xpt, .cue, .red, .cmp, .aud, .out] pl = true := by first | rfl | exact Part.sub_trans rfl (by assumption)) :
    Moves pl z (executeGroup i told s) := by
  unfold executeGroup
  dsimp only
  split
  · exact hz
  · split
    · exact abortInst_moves _ _ hz
    · have hc := fun t n x => collect_moves i t told n x hz
      exact .ite hz (.ite (abortInst_moves _ _ (setInst_moves _ _ (hc _ _ _))) (placeGroup_moves _ _ _ (hc _ _ _)))

theorem triggerStart_moves {pl : List Part} {z : State} (u : Nat) {s : State}
    (hz : Moves pl z s)
    (hl : Part.sub [.flash, .evt, .cue, .red, .tim] pl = true := by first | rfl | exact Part.sub_trans rfl (by assumption)) :
    Moves pl z (triggerStart u s) := by
  unfold triggerStart
  try dsimp only
  repeat' first
    | with_reducible assumption | exact Part.sub_trans rfl hl | with_reducible apply Moves.onTim
    | with_reducible apply startRefused_moves | with_reducible apply recordItem_moves
    | with_reducible apply startInst_moves | with_reducible apply Moves.ite
    | (split <;> try dsimp only)

theorem execCueLoad_moves {pl : List Part} {z : State} (t : Nat) (c : HostCmd) {s : State}
    (hz : Moves pl z s)
    (hl : Part.sub [.clock, .flash, .host, .evt, .cue, .red, .out] pl = true := by first | rfl | exact Part.sub_trans rfl (by assumption)) :
    MovesOut pl z (execCueLoad t c s) := by
  exact runCommand_moves _ _ _ _ _ hz (fun _ h => effCueLoad_moves _ h)

theorem execCueRun_moves {pl : List Part} {z : State} (t : Nat) (c : HostCmd) {s : State}
    (hz : Moves pl z s)
    (hl : Part.sub [.clock, .flash, .host, .evt, .cue, .red, .out] pl = true := by first | rfl | exact Part.sub_trans rfl (by assumption)) :
    MovesOut pl z (execCueRun t c s) := by
  unfold execCueRun
  try dsimp only
  try with_reducible refine MovesOut.next ?_
  repeat' first
    | with_reducible assumption | exact Part.sub_trans rfl hl | with_reducible apply advance_moves
    | with_reducible apply dequeue_moves | with_reducible apply refuseWith_moves
    | with_reducible apply startRefused_moves | with_reducible apply acceptWith_moves
    | with_reducible apply effCueRun_moves | with_reducible apply Moves.ite
    | (split <;> try dsimp only)

theorem execCueAbort_moves {pl : List Part} {z : State} (t : Nat) (c : HostCmd) {s : State}
    (hz : Moves pl z s)
    (hl : Part.sub [.clock, .flash, .host, .evt, .xpt, .cue, .red, .cmp, .aud, .out] pl = true := by first | rfl | exact Part.sub_trans rfl (by assumption)) :
    MovesOut pl z (execCueAbort t c s) := by
  exact runCommand_moves _ _ _ _ _ hz (fun _ h => effCueAbort_moves _ h)

theorem execCueStatus_moves {pl : List Part} {z : State} (t : Nat) (c : HostCmd) {s : State}
    (hz : Moves pl z s)
    (hl : Part.sub [.clock, .flash, .host, .evt, .red, .out] pl = true := by first | rfl | exact Part.sub_trans rfl (by assumption)) :
    MovesOut pl z (execCueStatus t c s) := by
  exact runCommand_moves _ _ _ _ _ hz (fun _ h => effCueStatus_moves _ h)

theorem execCueUnload_moves {pl : List Part} {z : State} (t : Nat) (c : HostCmd) {s : State}
    (hz : Moves pl z s)
    (hl : Part.sub [.clock, .flash, .host, .evt, .cue, .red, .out] pl = true := by first | rfl | exact Part.sub_trans rfl (by assumption)) :
    MovesOut pl z (execCueUnload t c s) := by
  exact runCommand_moves _ _ _ _ _ hz (fun _ h => effCueUnload_moves _ h)

theorem execCueGroupExecute_moves {pl : List Part} {z : State} (t : Nat) (i : Nat) (parity : Bool) {s : State}
    (hz : Moves pl z s)
    (hl : Part.sub [.clock, .mode, .aon, .pins, .start, .flash, .host, .evt, .saf, .pwr, .xpt, .cue, .red, .lane, .flow, .cmp, .aud, .out] pl = true := by first | rfl | exact Part.sub_trans rfl (by assumption)) :
    MovesOut pl z (execCueGroupExecute t i parity s) := by
  unfold execCueGroupExecute
  try dsimp only
  refine MovesOut.fault ?_
  try with_reducible refine MovesOut.next ?_
  repeat' first
    | with_reducible assumption | exact Part.sub_trans rfl hl | with_reducible apply advance_moves
    | with_reducible apply chipFault_moves | with_reducible apply abortInst_moves
    | with_reducible apply executeGroup_moves | with_reducible apply Moves.ite
    | (split <;> try dsimp only)

theorem execCueEntriesRetry_moves {pl : List Part} {z : State} (t : Nat) (i : Nat) {s : State}
    (hz : Moves pl z s)
    (hl : Part.sub [.clock, .flash, .evt, .xpt, .cue, .red, .cmp, .aud] pl = true := by first | rfl | exact Part.sub_trans rfl (by assumption)) :
    MovesOut pl z (execCueEntriesRetry t i s) := by
  unfold execCueEntriesRetry
  try dsimp only
  refine MovesOut.fault ?_
  try with_reducible refine MovesOut.next ?_
  repeat' first
    | with_reducible assumption | exact Part.sub_trans rfl hl | with_reducible apply advance_moves
    | with_reducible apply placeGroup_moves | with_reducible apply Moves.ite
    | (split <;> try dsimp only)

theorem execCueStallExpired_moves {pl : List Part} {z : State} (t : Nat) (i : Nat) {s : State}
    (hz : Moves pl z s)
    (hl : Part.sub [.clock, .flash, .host, .evt, .xpt, .cue, .red, .cmp, .aud, .out] pl = true := by first | rfl | exact Part.sub_trans rfl (by assumption)) :
    MovesOut pl z (execCueStallExpired t i s) := by
  unfold execCueStallExpired
  try dsimp only
  refine MovesOut.fault ?_
  try with_reducible refine MovesOut.next ?_
  repeat' first
    | with_reducible assumption | exact Part.sub_trans rfl hl | with_reducible apply advance_moves
    | with_reducible apply abortInst_moves | with_reducible apply Moves.ite
    | (split <;> try dsimp only)

theorem execWaitFramesResume_moves {pl : List Part} {z : State} (t : Nat) (i : Nat) {s : State}
    (hz : Moves pl z s)
    (hl : Part.sub [.clock, .cue] pl = true := by first | rfl | exact Part.sub_trans rfl (by assumption)) :
    MovesOut pl z (execWaitFramesResume t i s) := by
  unfold execWaitFramesResume
  try dsimp only
  refine MovesOut.fault ?_
  try with_reducible refine MovesOut.next ?_
  repeat' first
    | with_reducible assumption | exact Part.sub_trans rfl hl | with_reducible apply advance_moves
    | with_reducible apply setInst_moves | with_reducible apply Moves.ite
    | (split <;> try dsimp only)

theorem execWaitTimeResume_moves {pl : List Part} {z : State} (t : Nat) (i : Nat) {s : State}
    (hz : Moves pl z s)
    (hl : Part.sub [.clock, .cue] pl = true := by first | rfl | exact Part.sub_trans rfl (by assumption)) :
    MovesOut pl z (execWaitTimeResume t i s) := by
  unfold execWaitTimeResume
  try dsimp only
  refine MovesOut.fault ?_
  try with_reducible refine MovesOut.next ?_
  repeat' first
    | with_reducible assumption | exact Part.sub_trans rfl hl | with_reducible apply advance_moves
    | with_reducible apply setInst_moves | with_reducible apply Moves.ite
    | (split <;> try dsimp only)

theorem execCueTriggerStart_moves {pl : List Part} {z : State} (t : Nat) (u : Nat) {s : State}
    (hz : Moves pl z s)
    (hl : Part.sub [.clock, .flash, .evt, .cue, .red, .tim] pl = true := by first | rfl | exact Part.sub_trans rfl (by assumption)) :
    MovesOut pl z (execCueTriggerStart t u s) := by
  unfold execCueTriggerStart
  try dsimp only
  refine MovesOut.fault ?_
  try with_reducible refine MovesOut.next ?_
  repeat' first
    | with_reducible assumption | exact Part.sub_trans rfl hl | with_reducible apply advance_moves
    | with_reducible apply triggerStart_moves | with_reducible apply Moves.ite

theorem execCueMark_moves {pl : List Part} {z : State} (t : Nat) (i : Nat) {s : State}
    (hz : Moves pl z s)
    (hl : Part.sub [.clock, .flash, .evt, .cue] pl = true := by first | rfl | exact Part.sub_trans rfl (by assumption)) :
    MovesOut pl z (execCueMark t i s) := by
  unfold execCueMark
  try dsimp only
  refine MovesOut.fault ?_
  try with_reducible refine MovesOut.next ?_
  repeat' first
    | with_reducible assumption | exact Part.sub_trans rfl hl | with_reducible apply advance_moves
    | with_reducible apply raise_moves | with_reducible apply Moves.onCue | with_reducible apply Moves.ite
    | (split <;> try dsimp only)

end Sys2Proof.Machine
end

