-- ==== Sys2Proof/Laws/MovesRedOps.lean ====
section
/-! SUPPORT. What each operation of `Machine/RedOps.lean` moves. -/

-- The package is checked as one text; elaborating these proofs in order keeps the number of threads small.
set_option Elab.async false

namespace Sys2Proof.Machine

theorem writeRedCfg_moves {pl : List Part} {z : State} (v : Nat) {s : State}
    (hz : Moves pl z s)
    (hl : Part.sub [.red] pl = true := by first | rfl | exact Part.sub_trans rfl (by assumption)) :
    Moves pl z (writeRedCfg v s) := by
  unfold writeRedCfg
  try dsimp only
  repeat' first
    | with_reducible assumption | exact Part.sub_trans rfl hl | with_reducible apply Moves.onRed

theorem writeRedLeaseCfg_moves {pl : List Part} {z : State} (v : Nat) {s : State}
    (hz : Moves pl z s)
    (hl : Part.sub [.red] pl = true := by first | rfl | exact Part.sub_trans rfl (by assumption)) :
    Moves pl z (writeRedLeaseCfg v s) := by
  unfold writeRedLeaseCfg
  try dsimp only
  repeat' first
    | with_reducible assumption | exact Part.sub_trans rfl hl | with_reducible apply Moves.onRed

theorem redCount_moves {pl : List Part} {z : State} (i : Nat) {s : State}
    (hz : Moves pl z s)
    (hl : Part.sub [.red] pl = true := by first | rfl | exact Part.sub_trans rfl (by assumption)) :
    Moves pl z (redCount i s) := by
  unfold redCount
  try dsimp only
  repeat' first
    | with_reducible assumption | exact Part.sub_trans rfl hl | with_reducible apply Moves.onRed

theorem pairDiverge_moves {pl : List Part} {z : State} (cause : Nat) (index : Nat) (seq : Nat) {s : State}
    (hz : Moves pl z s)
    (hl : Part.sub [.flash, .evt] pl = true := by first | rfl | exact Part.sub_trans rfl (by assumption)) :
    Moves pl z (pairDiverge cause index seq s) := by
  unfold pairDiverge
  try dsimp only
  repeat' first
    | with_reducible assumption | exact Part.sub_trans rfl hl | with_reducible apply raise_moves

theorem discardMsg_moves {pl : List Part} {z : State} {s : State}
    (hz : Moves pl z s)
    (hl : Part.sub [.red] pl = true := by first | rfl | exact Part.sub_trans rfl (by assumption)) :
    Moves pl z (discardMsg s) := by
  unfold discardMsg
  try dsimp only
  repeat' first
    | with_reducible assumption | exact Part.sub_trans rfl hl | with_reducible apply redCount_moves

theorem heardControl_moves {pl : List Part} {z : State} {s : State}
    (hz : Moves pl z s)
    (hl : Part.sub [.red] pl = true := by first | rfl | exact Part.sub_trans rfl (by assumption)) :
    Moves pl z (heardControl s) := by
  unfold heardControl
  try dsimp only
  repeat' first
    | with_reducible assumption | exact Part.sub_trans rfl hl | with_reducible apply Moves.onRed

theorem startResync_moves {pl : List Part} {z : State} {s : State}
    (hz : Moves pl z s)
    (hl : Part.sub [.mode, .aon, .pins, .start, .flash, .host, .evt, .pwr, .xpt, .cue, .red, .lane, .flow, .cmp, .aud, .out] pl = true := by first | rfl | exact Part.sub_trans rfl (by assumption)) :
    Moves pl z (startResync s) := by
  unfold startResync
  try dsimp only
  repeat' first
    | with_reducible assumption | exact Part.sub_trans rfl hl | with_reducible apply linkTo_moves
    | with_reducible apply Moves.onRed | with_reducible apply raise_moves | with_reducible apply Moves.ite

theorem tryResync_moves {pl : List Part} {z : State} {s : State}
    (hz : Moves pl z s)
    (hl : Part.sub [.mode, .aon, .pins, .start, .flash, .host, .evt, .pwr, .xpt, .cue, .red, .lane, .flow, .cmp, .aud, .out] pl = true := by first | rfl | exact Part.sub_trans rfl (by assumption)) :
    Moves pl z (tryResync s) := by
  unfold tryResync
  try dsimp only
  repeat' first
    | with_reducible assumption | exact Part.sub_trans rfl hl | with_reducible apply startResync_moves
    | with_reducible apply Moves.ite

theorem divergeOut_moves {pl : List Part} {z : State} {s : State}
    (hz : Moves pl z s)
    (hl : Part.sub [.mode, .aon, .pins, .start, .flash, .host, .evt, .pwr, .xpt, .cue, .red, .lane, .flow, .cmp, .aud, .out] pl = true := by first | rfl | exact Part.sub_trans rfl (by assumption)) :
    Moves pl z (divergeOut s) := by
  unfold divergeOut
  try dsimp only
  repeat' first
    | with_reducible assumption | exact Part.sub_trans rfl hl | with_reducible apply tryResync_moves
    | with_reducible apply linkTo_moves | with_reducible apply Moves.ite

theorem sendClaim_moves {pl : List Part} {z : State} {s : State}
    (hz : Moves pl z s)
    (hl : Part.sub [.red, .out] pl = true := by first | rfl | exact Part.sub_trans rfl (by assumption)) :
    Moves pl z (sendClaim s) := by
  unfold sendClaim
  try dsimp only
  repeat' first
    | with_reducible assumption | exact Part.sub_trans rfl hl | with_reducible apply sendHalyard_moves
    | with_reducible apply Moves.ite

theorem grantLease_moves {pl : List Part} {z : State} (term : Nat) (byCommand : Bool) {s : State}
    (hz : Moves pl z s)
    (hl : Part.sub [.mode, .aon, .pins, .start, .flash, .host, .evt, .pwr, .xpt, .cue, .red, .lane, .flow, .cmp, .aud, .out] pl = true := by first | rfl | exact Part.sub_trans rfl (by assumption)) :
    Moves pl z (grantLease term byCommand s) := by
  unfold grantLease
  try dsimp only
  repeat' first
    | with_reducible assumption | exact Part.sub_trans rfl hl | with_reducible apply Moves.onRed
    | with_reducible apply raiseLease_moves | with_reducible apply sendClaim_moves
    | with_reducible apply acquireLease_moves | with_reducible apply modeDecision_moves
    | with_reducible apply Moves.ite

theorem sendFill_moves {pl : List Part} {z : State} (n : Nat) (v : Version) (fuel off : Nat) {s : State} (hz : Moves pl z s)
    (hl : Part.sub [.red, .out] pl = true := by first | rfl | exact Part.sub_trans rfl (by assumption)) :
    Moves pl z (sendFill n v fuel off s) := by
  induction fuel generalizing off s with
  | zero => exact hz
  | succ k ih => exact .ite (sendHalyard_moves _ _ hz) (ih _ (sendHalyard_moves _ _ hz))

theorem sendObject_moves {pl : List Part} {z : State} (n : Nat) (off : Nat) {s : State}
    (hz : Moves pl z s)
    (hl : Part.sub [.red, .out] pl = true := by first | rfl | exact Part.sub_trans rfl (by assumption)) :
    Moves pl z (sendObject n off s) := by
  unfold sendObject
  try dsimp only
  repeat' first
    | with_reducible assumption | exact Part.sub_trans rfl hl | with_reducible apply sendFill_moves
    | (split <;> try dsimp only)

theorem raiseFillDone_moves {pl : List Part} {z : State} {s : State}
    (hz : Moves pl z s)
    (hl : Part.sub [.flash, .evt] pl = true := by first | rfl | exact Part.sub_trans rfl (by assumption)) :
    Moves pl z (raiseFillDone s) := by
  unfold raiseFillDone
  try dsimp only
  repeat' first
    | with_reducible assumption | exact Part.sub_trans rfl hl | with_reducible apply raise_moves

theorem fillPartner_moves {pl : List Part} {z : State} {s : State}
    (hz : Moves pl z s)
    (hl : Part.sub [.flash, .evt, .red, .out] pl = true := by first | rfl | exact Part.sub_trans rfl (by assumption)) :
    Moves pl z (fillPartner s) := by
  unfold fillPartner
  try dsimp only
  repeat' first
    | with_reducible assumption | exact Part.sub_trans rfl hl | with_reducible apply sendObject_moves
    | with_reducible apply raiseFillDone_moves | with_reducible apply Moves.onRed
    | (with_reducible apply Moves.foldl; intro _ _ _)

theorem fillCheck_moves {pl : List Part} {z : State} {s : State}
    (hz : Moves pl z s)
    (hl : Part.sub [.flash, .evt, .red, .out] pl = true := by first | rfl | exact Part.sub_trans rfl (by assumption)) :
    Moves pl z (fillCheck s) := by
  unfold fillCheck
  try dsimp only
  repeat' first
    | with_reducible assumption | exact Part.sub_trans rfl hl | with_reducible apply raiseFillDone_moves
    | with_reducible apply Moves.onRed | with_reducible apply sendClaim_moves | with_reducible apply Moves.ite

theorem enterInStep_moves {pl : List Part} {z : State} {s : State}
    (hz : Moves pl z s)
    (hl : Part.sub [.mode, .aon, .pins, .start, .flash, .host, .evt, .pwr, .xpt, .cue, .red, .lane, .flow, .cmp, .aud, .out] pl = true := by first | rfl | exact Part.sub_trans rfl (by assumption)) :
    Moves pl z (enterInStep s) := by
  unfold enterInStep
  try dsimp only
  repeat' first
    | with_reducible assumption | exact Part.sub_trans rfl hl | with_reducible apply linkTo_moves
    | with_reducible apply Moves.onRed | with_reducible apply raise_moves
    | with_reducible apply fillPartner_moves | with_reducible apply fillCheck_moves
    | with_reducible apply modeDecision_moves | with_reducible apply Moves.ite
    | (split <;> try dsimp only)

theorem notePeerMode_moves {pl : List Part} {z : State} (m : Nat) {s : State}
    (hz : Moves pl z s)
    (hl : Part.sub [.mode, .aon, .pins, .start, .flash, .host, .evt, .pwr, .xpt, .cue, .red, .lane, .flow, .cmp, .aud, .out] pl = true := by first | rfl | exact Part.sub_trans rfl (by assumption)) :
    Moves pl z (notePeerMode m s) := by
  unfold notePeerMode
  try dsimp only
  repeat' first
    | with_reducible assumption | exact Part.sub_trans rfl hl | with_reducible apply Moves.onRed
    | with_reducible apply linkTo_moves | with_reducible apply Moves.ite

theorem sendAck_moves {pl : List Part} {z : State} (status : Nat) (wanted : Nat) {s : State}
    (hz : Moves pl z s)
    (hl : Part.sub [.red, .out] pl = true := by first | rfl | exact Part.sub_trans rfl (by assumption)) :
    Moves pl z (sendAck status wanted s) := by
  unfold sendAck
  try dsimp only
  repeat' first
    | with_reducible assumption | exact Part.sub_trans rfl hl | with_reducible apply sendHalyard_moves

end Sys2Proof.Machine
end

