-- ==== Sys2Proof/Laws/MovesRed.lean ====
section
/-! SUPPORT. What each operation and command of `Machine/Red.lean` moves. -/

-- The package is checked as one text; elaborating these proofs in order keeps the number of threads small.
set_option Elab.async false

namespace Sys2Proof.Machine

theorem effRedStatus_moves {pl : List Part} {z : State} {s : State} (c : HostCmd)
    (hz : Moves pl z s) :
    Moves pl z (effRedStatus s c).1 := by
  unfold effRedStatus
  try dsimp only
  repeat' first
    | with_reducible assumption | exact Part.sub_trans rfl hl | with_reducible apply Moves.ite
    | with_reducible apply Moves.ite_fst

theorem effRedLeaseRequest_moves {pl : List Part} {z : State} {s : State} (c : HostCmd)
    (hz : Moves pl z s)
    (hl : Part.sub [.mode, .aon, .pins, .start, .flash, .host, .evt, .pwr, .xpt, .cue, .red, .lane, .flow, .cmp, .aud, .out] pl = true := by first | rfl | exact Part.sub_trans rfl (by assumption)) :
    Moves pl z (effRedLeaseRequest s c).1 := by
  unfold effRedLeaseRequest
  try dsimp only
  repeat' first
    | with_reducible assumption | exact Part.sub_trans rfl hl | with_reducible apply grantLease_moves

theorem effRedLeaseRelease_moves {pl : List Part} {z : State} {s : State} (c : HostCmd)
    (hz : Moves pl z s)
    (hl : Part.sub [.mode, .aon, .pins, .start, .flash, .host, .evt, .pwr, .xpt, .cue, .red, .lane, .flow, .cmp, .aud, .out] pl = true := by first | rfl | exact Part.sub_trans rfl (by assumption)) :
    Moves pl z (effRedLeaseRelease s c).1 := by
  unfold effRedLeaseRelease
  try dsimp only
  repeat' first
    | with_reducible assumption | exact Part.sub_trans rfl hl | with_reducible apply Moves.onRed
    | with_reducible apply endLease_moves

theorem effRedResync_moves {pl : List Part} {z : State} {s : State} (c : HostCmd)
    (hz : Moves pl z s)
    (hl : Part.sub [.mode, .aon, .pins, .start, .flash, .host, .evt, .pwr, .xpt, .cue, .red, .lane, .flow, .cmp, .aud, .out] pl = true := by first | rfl | exact Part.sub_trans rfl (by assumption)) :
    Moves pl z (effRedResync s c).1 := by
  unfold effRedResync
  try dsimp only
  repeat' first
    | with_reducible assumption | exact Part.sub_trans rfl hl | with_reducible apply linkTo_moves
    | with_reducible apply startResync_moves | with_reducible apply Moves.ite
    | with_reducible apply Moves.ite_fst

theorem effRedHealth_moves {pl : List Part} {z : State} {s : State} (c : HostCmd)
    (hz : Moves pl z s) :
    Moves pl z (effRedHealth s c).1 := by
  unfold effRedHealth
  try dsimp only
  repeat' first
    | with_reducible assumption | exact Part.sub_trans rfl hl

theorem dueTransitions_moves {pl : List Part} {z : State} {s : State}
    (hz : Moves pl z s)
    (hl : Part.sub [.mode, .aon, .pins, .start, .flash, .host, .evt, .pwr, .xpt, .cue, .red, .lane, .flow, .cmp, .aud, .out] pl = true := by first | rfl | exact Part.sub_trans rfl (by assumption)) :
    Moves pl z (dueTransitions s) := by
  unfold dueTransitions
  try dsimp only
  repeat' first
    | with_reducible assumption | exact Part.sub_trans rfl hl | with_reducible apply Moves.onRed
    | with_reducible apply acquireLease_moves | with_reducible apply transition_moves
    | with_reducible apply modeDecision_moves | with_reducible apply Moves.ite

theorem sealTick_moves {pl : List Part} {z : State} (k : Nat) (arm : Nat) {s : State}
    (hz : Moves pl z s)
    (hl : Part.sub [.flash, .host, .evt, .xpt, .red, .tim, .cmp, .aud, .out] pl = true := by first | rfl | exact Part.sub_trans rfl (by assumption)) :
    Moves pl z (sealTick k arm s) := by
  unfold sealTick
  try dsimp only
  repeat' first
    | with_reducible assumption | exact Part.sub_trans rfl hl | with_reducible apply recordItem_moves
    | with_reducible apply sealEpoch_moves | (with_reducible apply Moves.foldl; intro _ _ _)

theorem clearLease_moves {pl : List Part} {z : State} {s : State}
    (hz : Moves pl z s)
    (hl : Part.sub [.pins, .red, .lane, .out] pl = true := by first | rfl | exact Part.sub_trans rfl (by assumption)) :
    Moves pl z (clearLease s) := by
  unfold clearLease
  try dsimp only
  repeat' first
    | with_reducible assumption | exact Part.sub_trans rfl hl | with_reducible apply noteEnsign_moves
    | with_reducible apply Moves.onRed | with_reducible apply emitPin_moves | with_reducible apply Moves.onPins
    | with_reducible apply Moves.ite

theorem handover_moves {pl : List Part} {z : State} {s : State}
    (hz : Moves pl z s)
    (hl : Part.sub [.mode, .aon, .pins, .start, .flash, .host, .evt, .pwr, .xpt, .cue, .red, .lane, .flow, .cmp, .aud, .out] pl = true := by first | rfl | exact Part.sub_trans rfl (by assumption)) :
    Moves pl z (handover s) := by
  unfold handover
  try dsimp only
  repeat' first
    | with_reducible assumption | exact Part.sub_trans rfl hl | with_reducible apply recordItem_moves
    | with_reducible apply Moves.onRed | with_reducible apply raiseLease_moves
    | with_reducible apply clearLease_moves | with_reducible apply applyTransition_moves
    | with_reducible apply Moves.ite

theorem lapsedAlone_moves {pl : List Part} {z : State} {s : State}
    (hz : Moves pl z s)
    (hl : Part.sub [.mode, .aon, .pins, .start, .flash, .host, .evt, .pwr, .xpt, .cue, .red, .lane, .flow, .cmp, .aud, .out] pl = true := by first | rfl | exact Part.sub_trans rfl (by assumption)) :
    Moves pl z (lapsedAlone s) := by
  unfold lapsedAlone
  try dsimp only
  repeat' first
    | with_reducible assumption | exact Part.sub_trans rfl hl | with_reducible apply clearLease_moves
    | with_reducible apply transition_moves | with_reducible apply Moves.ite

theorem toggleLeaseOut_moves {pl : List Part} {z : State} {s : State}
    (hz : Moves pl z s)
    (hl : Part.sub [.pins, .out] pl = true := by first | rfl | exact Part.sub_trans rfl (by assumption)) :
    Moves pl z (toggleLeaseOut s) := by
  unfold toggleLeaseOut
  try dsimp only
  repeat' first
    | with_reducible assumption | exact Part.sub_trans rfl hl | with_reducible apply emitPin_moves
    | with_reducible apply Moves.onPins | with_reducible apply Moves.ite

theorem cueTick_moves {pl : List Part} {z : State} (arm : Nat) {s : State}
    (hz : Moves pl z s)
    (hl : Part.sub [.cue] pl = true := by first | rfl | exact Part.sub_trans rfl (by assumption)) :
    Moves pl z (cueTick arm s) := by
  unfold cueTick
  try dsimp only
  repeat' first
    | with_reducible assumption | exact Part.sub_trans rfl hl | with_reducible apply Moves.onCue
    | with_reducible apply Moves.ite
    | (split <;> try dsimp only)

theorem sendRecord_moves {pl : List Part} {z : State} (k : Nat) {s : State} (hz : Moves pl z s)
    (hl : Part.sub [.red, .out] pl = true := by first | rfl | exact Part.sub_trans rfl (by assumption)) : Moves pl z (recordTick.sendRecord k s) :=
  redCount_moves _ (sendHalyard_moves _ _ (hz.onRed _))

theorem recordTick_moves {pl : List Part} {z : State} (k : Nat) {s : State}
    (hz : Moves pl z s)
    (hl : Part.sub [.red, .out, .free] pl = true := by first | rfl | exact Part.sub_trans rfl (by assumption)) :
    Moves pl z (recordTick k s) := by
  unfold recordTick
  dsimp only
  split
  · refine .ite (sendHalyard_moves _ _ (.onRed ?_ _)) (.ite (sendRecord_moves _ hz) hz)
    exact hz.setFree _ (Nat.le_succ _)
  · exact .ite (sendRecord_moves _ hz) hz

theorem tidyLandings_moves {pl : List Part} {z : State} {s : State}
    (hz : Moves pl z s)
    (hl : Part.sub [.xpt] pl = true := by first | rfl | exact Part.sub_trans rfl (by assumption)) :
    Moves pl z (tidyLandings s) := by
  unfold tidyLandings
  try dsimp only
  repeat' first
    | with_reducible assumption | exact Part.sub_trans rfl hl | with_reducible apply Moves.onXpt

theorem epochTick_moves {pl : List Part} {z : State} {s : State}
    (hz : Moves pl z s)
    (hl : Part.sub [.mode, .aon, .pins, .start, .flash, .host, .evt, .pwr, .xpt, .cue, .red, .tim, .lane, .flow, .cmp, .aud, .out, .free] pl = true := by first | rfl | exact Part.sub_trans rfl (by assumption)) :
    Moves pl z (epochTick s) := by
  unfold epochTick
  try dsimp only
  repeat' first
    | with_reducible assumption | exact Part.sub_trans rfl hl | with_reducible apply Moves.onXpt
    | with_reducible apply lapsedAlone_moves | with_reducible apply dueTransitions_moves
    | with_reducible apply cueTick_moves | with_reducible apply sealTick_moves
    | with_reducible apply recordTick_moves | with_reducible apply handover_moves
    | with_reducible apply tidyLandings_moves | with_reducible apply fillCheck_moves
    | with_reducible apply finishRealigns_moves | with_reducible apply toggleLeaseOut_moves
    | with_reducible apply Moves.ite

theorem leaseConflict_moves {pl : List Part} {z : State} {s : State}
    (hz : Moves pl z s)
    (hl : Part.sub [.mode, .aon, .pins, .start, .flash, .host, .evt, .pwr, .xpt, .cue, .red, .lane, .flow, .cmp, .aud, .out] pl = true := by first | rfl | exact Part.sub_trans rfl (by assumption)) :
    Moves pl z (leaseConflict s) := by
  unfold leaseConflict
  try dsimp only
  repeat' first
    | with_reducible assumption | exact Part.sub_trans rfl hl | with_reducible apply endLease_moves
    | with_reducible apply raise_moves | with_reducible apply Moves.ite

theorem takeHello_moves {pl : List Part} {z : State} (h : Hello) {s : State}
    (hz : Moves pl z s)
    (hl : Part.sub [.mode, .aon, .pins, .start, .flash, .host, .evt, .pwr, .xpt, .cue, .red, .lane, .flow, .cmp, .aud, .out] pl = true := by first | rfl | exact Part.sub_trans rfl (by assumption)) :
    Moves pl z (takeHello h s) := by
  unfold takeHello
  have h1 := (notePeerMode_moves h.mode hz).onRed (fun r => { r with
    peer := h, badCause := none, handed := r.handed && !h.lease && h.grant })
  have h2 := h1.hostSame { (onRed (fun r => { r with
    peer := h, badCause := none, handed := r.handed && !h.lease && h.grant }) (notePeerMode h.mode s)).host with
    partnerAddr := some h.addr } rfl rfl
  exact tryResync_moves (.ite (leaseConflict_moves (linkTo_moves _ _ h2)) h2)

theorem resend_moves {pl : List Part} {z : State} (wanted : Nat) {s : State}
    (hz : Moves pl z s)
    (hl : Part.sub [.mode, .aon, .pins, .start, .flash, .host, .evt, .pwr, .xpt, .cue, .red, .lane, .flow, .cmp, .aud, .out] pl = true := by first | rfl | exact Part.sub_trans rfl (by assumption)) :
    Moves pl z (resend wanted s) := by
  unfold resend
  try dsimp only
  repeat' first
    | with_reducible assumption | exact Part.sub_trans rfl hl | with_reducible apply redCount_moves
    | with_reducible apply sendHalyard_moves | with_reducible apply linkTo_moves
    | with_reducible apply Moves.ite | (with_reducible apply Moves.foldl; intro _ _ _)

theorem takeRelay_moves {pl : List Part} {z : State} (p : List Byte) {s : State}
    (hz : Moves pl z s)
    (hl : Part.sub [.aon, .flash, .host, .evt, .red, .out] pl = true := by first | rfl | exact Part.sub_trans rfl (by assumption)) :
    Moves pl z (takeRelay p s) := by
  unfold takeRelay
  try dsimp only
  repeat' first
    | with_reducible assumption | exact Part.sub_trans rfl hl | with_reducible apply sendHalyard_moves
    | with_reducible apply commandArrived_moves | with_reducible apply Moves.ite

theorem groupMisses_moves {pl : List Part} {z : State} (ns : List Nat) {s : State}
    (hz : Moves pl z s)
    (hl : Part.sub [.flash, .evt] pl = true := by first | rfl | exact Part.sub_trans rfl (by assumption)) :
    Moves pl z (groupMisses ns s) := by
  unfold groupMisses
  try dsimp only
  repeat' first
    | with_reducible assumption | exact Part.sub_trans rfl hl | with_reducible apply raise_moves
    | with_reducible apply Moves.ite | (with_reducible apply Moves.foldl; intro _ _ _)

theorem compareSig_moves {pl : List Part} {z : State} (index : Nat) (frame : Nat) (same : Bool) {s : State}
    (hz : Moves pl z s)
    (hl : Part.sub [.mode, .aon, .pins, .start, .flash, .host, .evt, .pwr, .xpt, .cue, .red, .lane, .flow, .cmp, .aud, .out] pl = true := by first | rfl | exact Part.sub_trans rfl (by assumption)) :
    Moves pl z (compareSig index frame same s) := by
  unfold compareSig
  try dsimp only
  repeat' first
    | with_reducible assumption | exact Part.sub_trans rfl hl | with_reducible apply redCount_moves
    | with_reducible apply Moves.onRed | with_reducible apply pairDiverge_moves
    | with_reducible apply divergeOut_moves | with_reducible apply raise_moves | with_reducible apply Moves.ite

theorem sendSigs_moves {pl : List Part} {z : State} (plane : Nat) (rate : Nat) (frame : Nat) (sigs : List Sig) {s : State}
    (hz : Moves pl z s)
    (hl : Part.sub [.red, .out] pl = true := by first | rfl | exact Part.sub_trans rfl (by assumption)) :
    Moves pl z (sendSigs plane rate frame sigs s) := by
  unfold sendSigs
  try dsimp only
  repeat' first
    | with_reducible assumption | exact Part.sub_trans rfl hl | with_reducible apply sendHalyard_moves

theorem askAgain_moves {pl : List Part} {z : State} (kind : Nat) (object : Nat) (offset : Nat) {s : State}
    (hz : Moves pl z s)
    (hl : Part.sub [.red, .out] pl = true := by first | rfl | exact Part.sub_trans rfl (by assumption)) :
    Moves pl z (askAgain kind object offset s) := by
  unfold askAgain
  try dsimp only
  repeat' first
    | with_reducible assumption | exact Part.sub_trans rfl hl | with_reducible apply sendHalyard_moves

theorem endFill_moves {pl : List Part} {z : State} (n : Nat) (v : Version) {s : State}
    (hz : Moves pl z s)
    (hl : Part.sub [.mode, .aon, .pins, .start, .flash, .host, .evt, .pwr, .xpt, .cue, .red, .lane, .flow, .fst, .cmp, .aud, .out] pl = true := by first | rfl | exact Part.sub_trans rfl (by assumption)) :
    Moves pl z (endFill n v s) := by
  unfold endFill
  try dsimp only
  repeat' first
    | with_reducible assumption | exact Part.sub_trans rfl hl | with_reducible apply fillCheck_moves
    | with_reducible apply Moves.onRed | with_reducible apply modObj_moves
    | with_reducible apply divergeOut_moves | with_reducible apply askAgain_moves
    | with_reducible apply Moves.ite

theorem execRedStatus_moves {pl : List Part} {z : State} (t : Nat) (c : HostCmd) {s : State}
    (hz : Moves pl z s)
    (hl : Part.sub [.clock, .flash, .host, .evt, .red, .out] pl = true := by first | rfl | exact Part.sub_trans rfl (by assumption)) :
    MovesOut pl z (execRedStatus t c s) := by
  exact runCommand_moves _ _ _ _ _ hz (fun _ h => effRedStatus_moves _ h)

theorem execRedLeaseRequest_moves {pl : List Part} {z : State} (t : Nat) (c : HostCmd) {s : State}
    (hz : Moves pl z s)
    (hl : Part.sub [.clock, .mode, .aon, .pins, .start, .flash, .host, .evt, .pwr, .xpt, .cue, .red, .lane, .flow, .cmp, .aud, .out] pl = true := by first | rfl | exact Part.sub_trans rfl (by assumption)) :
    MovesOut pl z (execRedLeaseRequest t c s) := by
  exact runCommand_moves _ _ _ _ _ hz (fun _ h => effRedLeaseRequest_moves _ h)

theorem execRedLeaseRelease_moves {pl : List Part} {z : State} (t : Nat) (c : HostCmd) {s : State}
    (hz : Moves pl z s)
    (hl : Part.sub [.clock, .mode, .aon, .pins, .start, .flash, .host, .evt, .pwr, .xpt, .cue, .red, .lane, .flow, .cmp, .aud, .out] pl = true := by first | rfl | exact Part.sub_trans rfl (by assumption)) :
    MovesOut pl z (execRedLeaseRelease t c s) := by
  exact runCommand_moves _ _ _ _ _ hz (fun _ h => effRedLeaseRelease_moves _ h)

theorem execRedResync_moves {pl : List Part} {z : State} (t : Nat) (c : HostCmd) {s : State}
    (hz : Moves pl z s)
    (hl : Part.sub [.clock, .mode, .aon, .pins, .start, .flash, .host, .evt, .pwr, .xpt, .cue, .red, .lane, .flow, .cmp, .aud, .out] pl = true := by first | rfl | exact Part.sub_trans rfl (by assumption)) :
    MovesOut pl z (execRedResync t c s) := by
  exact runCommand_moves _ _ _ _ _ hz (fun _ h => effRedResync_moves _ h)

theorem execRedHealth_moves {pl : List Part} {z : State} (t : Nat) (c : HostCmd) {s : State}
    (hz : Moves pl z s)
    (hl : Part.sub [.clock, .flash, .host, .evt, .red, .out] pl = true := by first | rfl | exact Part.sub_trans rfl (by assumption)) :
    MovesOut pl z (execRedHealth t c s) := by
  exact runCommand_moves _ _ _ _ _ hz (fun _ h => effRedHealth_moves _ h)

theorem execLeaseInEdge_moves {pl : List Part} {z : State} (t : Nat) {s : State}
    (hz : Moves pl z s)
    (hl : Part.sub [.clock, .mode, .aon, .pins, .start, .flash, .host, .evt, .pwr, .xpt, .cue, .red, .lane, .flow, .cmp, .aud, .out] pl = true := by first | rfl | exact Part.sub_trans rfl (by assumption)) :
    MovesOut pl z (execLeaseInEdge t s) := by
  unfold execLeaseInEdge
  try dsimp only
  try with_reducible refine MovesOut.next ?_
  repeat' first
    | with_reducible assumption | exact Part.sub_trans rfl hl | with_reducible apply advance_moves
    | with_reducible apply Moves.onRed | with_reducible apply grantLease_moves | with_reducible apply Moves.ite
    | (split <;> try dsimp only)

theorem execLeaseLapse_moves {pl : List Part} {z : State} (t : Nat) {s : State}
    (hz : Moves pl z s)
    (hl : Part.sub [.clock, .mode, .aon, .pins, .start, .flash, .host, .evt, .pwr, .xpt, .cue, .red, .lane, .flow, .cmp, .aud, .out] pl = true := by first | rfl | exact Part.sub_trans rfl (by assumption)) :
    MovesOut pl z (execLeaseLapse t s) := by
  unfold execLeaseLapse
  try dsimp only
  try with_reducible refine MovesOut.next ?_
  repeat' first
    | with_reducible assumption | exact Part.sub_trans rfl hl | with_reducible apply advance_moves
    | with_reducible apply endLease_moves | with_reducible apply Moves.ite

theorem execEpochTick_moves {pl : List Part} {z : State} (t : Nat) {s : State}
    (hz : Moves pl z s)
    (hl : Part.sub [.clock, .mode, .aon, .pins, .start, .flash, .host, .evt, .pwr, .xpt, .cue, .red, .tim, .lane, .flow, .cmp, .aud, .out, .free] pl = true := by first | rfl | exact Part.sub_trans rfl (by assumption)) :
    MovesOut pl z (execEpochTick t s) := by
  unfold execEpochTick
  try dsimp only
  try with_reducible refine MovesOut.next ?_
  repeat' first
    | with_reducible assumption | exact Part.sub_trans rfl hl | with_reducible apply advance_moves
    | with_reducible apply epochTick_moves | with_reducible apply Moves.ite

theorem execHalyardHello_moves {pl : List Part} {z : State} (t : Nat) (h : Hello) (bad : Bool) {s : State}
    (hz : Moves pl z s)
    (hl : Part.sub [.clock, .mode, .aon, .pins, .start, .flash, .host, .evt, .pwr, .xpt, .cue, .red, .lane, .flow, .cmp, .aud, .out] pl = true := by first | rfl | exact Part.sub_trans rfl (by assumption)) :
    MovesOut pl z (execHalyardHello t h bad s) := by
  unfold execHalyardHello
  try dsimp only
  try with_reducible refine MovesOut.next ?_
  repeat' first
    | with_reducible assumption | exact Part.sub_trans rfl hl | with_reducible apply advance_moves
    | with_reducible apply discardMsg_moves | with_reducible apply heardControl_moves
    | with_reducible apply raise_moves | with_reducible apply Moves.onRed | with_reducible apply linkTo_moves
    | with_reducible apply takeHello_moves | with_reducible apply Moves.ite
    | (split <;> try dsimp only)

theorem execHelloSend_moves {pl : List Part} {z : State} (t : Nat) {s : State}
    (hz : Moves pl z s)
    (hl : Part.sub [.clock, .red, .out] pl = true := by first | rfl | exact Part.sub_trans rfl (by assumption)) :
    MovesOut pl z (execHelloSend t s) := by
  unfold execHelloSend
  try dsimp only
  try with_reducible refine MovesOut.next ?_
  repeat' first
    | with_reducible assumption | exact Part.sub_trans rfl hl | with_reducible apply advance_moves
    | with_reducible apply sendHalyard_moves | with_reducible apply Moves.ite

theorem execHalyardLoss_moves {pl : List Part} {z : State} (t : Nat) {s : State}
    (hz : Moves pl z s)
    (hl : Part.sub [.clock, .mode, .aon, .pins, .start, .flash, .host, .evt, .pwr, .xpt, .cue, .red, .lane, .flow, .cmp, .aud, .out] pl = true := by first | rfl | exact Part.sub_trans rfl (by assumption)) :
    MovesOut pl z (execHalyardLoss t s) := by
  unfold execHalyardLoss
  try dsimp only
  try with_reducible refine MovesOut.next ?_
  repeat' first
    | with_reducible assumption | exact Part.sub_trans rfl hl | with_reducible apply advance_moves
    | with_reducible apply linkTo_moves | with_reducible apply Moves.ite

theorem execHalyardEpochAck_moves {pl : List Part} {z : State} (t : Nat) (tick : Nat) (status : Nat) (wanted : Nat) (bad : Bool) {s : State}
    (hz : Moves pl z s)
    (hl : Part.sub [.clock, .mode, .aon, .pins, .start, .flash, .host, .evt, .pwr, .xpt, .cue, .red, .lane, .flow, .cmp, .aud, .out] pl = true := by first | rfl | exact Part.sub_trans rfl (by assumption)) :
    MovesOut pl z (execHalyardEpochAck t tick status wanted bad s) := by
  unfold execHalyardEpochAck
  try dsimp only
  try with_reducible refine MovesOut.next ?_
  repeat' first
    | with_reducible assumption | exact Part.sub_trans rfl hl | with_reducible apply advance_moves
    | with_reducible apply discardMsg_moves | with_reducible apply heardControl_moves
    | with_reducible apply Moves.onRed | with_reducible apply enterInStep_moves
    | with_reducible apply resend_moves | with_reducible apply Moves.ite

theorem execRecordsUnacknowledged_moves {pl : List Part} {z : State} (t : Nat) {s : State}
    (hz : Moves pl z s)
    (hl : Part.sub [.clock, .mode, .aon, .pins, .start, .flash, .host, .evt, .pwr, .xpt, .cue, .red, .lane, .flow, .cmp, .aud, .out] pl = true := by first | rfl | exact Part.sub_trans rfl (by assumption)) :
    MovesOut pl z (execRecordsUnacknowledged t s) := by
  unfold execRecordsUnacknowledged
  try dsimp only
  try with_reducible refine MovesOut.next ?_
  repeat' first
    | with_reducible assumption | exact Part.sub_trans rfl hl | with_reducible apply advance_moves
    | with_reducible apply tryResync_moves | with_reducible apply linkTo_moves | with_reducible apply Moves.ite

theorem execHalyardCmdRelay_moves {pl : List Part} {z : State} (t : Nat) (payload : List Byte) (bad : Bool) {s : State}
    (hz : Moves pl z s)
    (hl : Part.sub [.clock, .aon, .flash, .host, .evt, .red, .out] pl = true := by first | rfl | exact Part.sub_trans rfl (by assumption)) :
    MovesOut pl z (execHalyardCmdRelay t payload bad s) := by
  unfold execHalyardCmdRelay
  try dsimp only
  try with_reducible refine MovesOut.next ?_
  repeat' first
    | with_reducible assumption | exact Part.sub_trans rfl hl | with_reducible apply advance_moves
    | with_reducible apply discardMsg_moves | with_reducible apply heardControl_moves
    | with_reducible apply takeRelay_moves | with_reducible apply Moves.ite

theorem execHalyardCmdForward_moves {pl : List Part} {z : State} (t : Nat) (payload : List Byte) (bad : Bool) {s : State}
    (hz : Moves pl z s)
    (hl : Part.sub [.clock, .red] pl = true := by first | rfl | exact Part.sub_trans rfl (by assumption)) :
    MovesOut pl z (execHalyardCmdForward t payload bad s) := by
  unfold execHalyardCmdForward
  try dsimp only
  try with_reducible refine MovesOut.next ?_
  repeat' first
    | with_reducible assumption | exact Part.sub_trans rfl hl | with_reducible apply advance_moves
    | with_reducible apply discardMsg_moves | with_reducible apply heardControl_moves
    | with_reducible apply Moves.onRed | with_reducible apply Moves.ite
    | (split <;> try dsimp only)

theorem execHalyardCmdResult_moves {pl : List Part} {z : State} (t : Nat) (session : Nat) (seq : Nat) (status : Nat) (params : List Byte) (bad : Bool) {s : State}
    (hz : Moves pl z s)
    (hl : Part.sub [.clock, .host, .red, .out] pl = true := by first | rfl | exact Part.sub_trans rfl (by assumption)) :
    MovesOut pl z (execHalyardCmdResult t session seq status params bad s) := by
  unfold execHalyardCmdResult
  try dsimp only
  try with_reducible refine MovesOut.next ?_
  repeat' first
    | with_reducible assumption | exact Part.sub_trans rfl hl | with_reducible apply advance_moves
    | with_reducible apply discardMsg_moves | with_reducible apply heardControl_moves
    | with_reducible apply Moves.onRed | with_reducible apply finish_moves | with_reducible apply Moves.ite
    | (split <;> try dsimp only)

theorem execHeldCommandTimeout_moves {pl : List Part} {z : State} (t : Nat) (session : Nat) (seq : Nat) {s : State}
    (hz : Moves pl z s)
    (hl : Part.sub [.clock, .red] pl = true := by first | rfl | exact Part.sub_trans rfl (by assumption)) :
    MovesOut pl z (execHeldCommandTimeout t session seq s) := by
  unfold execHeldCommandTimeout
  try dsimp only
  try with_reducible refine MovesOut.next ?_
  repeat' first
    | with_reducible assumption | exact Part.sub_trans rfl hl | with_reducible apply advance_moves
    | with_reducible apply Moves.onRed

theorem execReadoutDecision_moves {pl : List Part} {z : State} (t : Nat) (plane : Nat) (rate : Nat) {s : State}
    (hz : Moves pl z s)
    (hl : Part.sub [.clock, .flash, .evt, .red, .out] pl = true := by first | rfl | exact Part.sub_trans rfl (by assumption)) :
    MovesOut pl z (execReadoutDecision t plane rate s) := by
  unfold execReadoutDecision
  try dsimp only
  refine MovesOut.fault ?_
  try with_reducible refine MovesOut.next ?_
  repeat' first
    | with_reducible assumption | exact Part.sub_trans rfl hl | with_reducible apply advance_moves
    | with_reducible apply groupMisses_moves | with_reducible apply Moves.onRed
    | with_reducible apply sendHalyard_moves | with_reducible apply Moves.ite
    | (with_reducible apply Moves.foldl; intro _ _ _)

theorem execHalyardReadout_moves {pl : List Part} {z : State} (t : Nat) (plane : Nat) (rate : Nat) (choices : List (Nat × Nat × Bool)) (bad : Bool) {s : State}
    (hz : Moves pl z s)
    (hl : Part.sub [.clock, .red] pl = true := by first | rfl | exact Part.sub_trans rfl (by assumption)) :
    MovesOut pl z (execHalyardReadout t plane rate choices bad s) := by
  unfold execHalyardReadout
  try dsimp only
  refine MovesOut.fault ?_
  try with_reducible refine MovesOut.next ?_
  repeat' first
    | with_reducible assumption | exact Part.sub_trans rfl hl | with_reducible apply advance_moves
    | with_reducible apply discardMsg_moves | with_reducible apply heardControl_moves
    | with_reducible apply Moves.onRed | with_reducible apply Moves.ite
    | (with_reducible apply Moves.foldl; intro _ _ _)

theorem execHalyardSignatures_moves {pl : List Part} {z : State} (t : Nat) (plane : Nat) (rate : Nat) (frame : Nat) (own : List Sig) (peer : List Sig) (bad : Bool) {s : State}
    (hz : Moves pl z s)
    (hl : Part.sub [.clock, .mode, .aon, .pins, .start, .flash, .host, .evt, .pwr, .xpt, .cue, .red, .lane, .flow, .cmp, .aud, .out] pl = true := by first | rfl | exact Part.sub_trans rfl (by assumption)) :
    MovesOut pl z (execHalyardSignatures t plane rate frame own peer bad s) := by
  unfold execHalyardSignatures
  try dsimp only
  refine MovesOut.fault ?_
  try with_reducible refine MovesOut.next ?_
  repeat' first
    | with_reducible assumption | exact Part.sub_trans rfl hl | with_reducible apply advance_moves
    | with_reducible apply sendSigs_moves | with_reducible apply discardMsg_moves
    | with_reducible apply heardControl_moves | with_reducible apply compareSig_moves
    | with_reducible apply Moves.ite | (with_reducible apply Moves.foldl; intro _ _ _)
    | (split <;> try dsimp only)

theorem execSignatureWaitExpired_moves {pl : List Part} {z : State} (t : Nat) (plane : Nat) (rate : Nat) (frame : Nat) (own : List Sig) {s : State}
    (hz : Moves pl z s)
    (hl : Part.sub [.clock, .red, .out] pl = true := by first | rfl | exact Part.sub_trans rfl (by assumption)) :
    MovesOut pl z (execSignatureWaitExpired t plane rate frame own s) := by
  unfold execSignatureWaitExpired
  try dsimp only
  refine MovesOut.fault ?_
  try with_reducible refine MovesOut.next ?_
  repeat' first
    | with_reducible assumption | exact Part.sub_trans rfl hl | with_reducible apply advance_moves
    | with_reducible apply Moves.onRed | with_reducible apply sendSigs_moves | with_reducible apply Moves.ite

theorem execHalyardProtSig_moves {pl : List Part} {z : State} (t : Nat) (comp : Nat) (armed : Nat) (frame : Nat) (sigs : List Word) (bad : Bool) {s : State}
    (hz : Moves pl z s)
    (hl : Part.sub [.clock, .flash, .evt, .red, .cmp] pl = true := by first | rfl | exact Part.sub_trans rfl (by assumption)) :
    MovesOut pl z (execHalyardProtSig t comp armed frame sigs bad s) := by
  unfold execHalyardProtSig
  try dsimp only
  refine MovesOut.fault ?_
  try with_reducible refine MovesOut.next ?_
  repeat' first
    | with_reducible assumption | exact Part.sub_trans rfl hl | with_reducible apply advance_moves
    | with_reducible apply discardMsg_moves | with_reducible apply modComp_moves
    | with_reducible apply heardControl_moves | with_reducible apply comparePair_moves
    | with_reducible apply Moves.ite | (with_reducible apply Moves.foldl; intro _ _ _)

theorem execHalyardHealth_moves {pl : List Part} {z : State} (t : Nat) (report : List Byte) (bad : Bool) {s : State}
    (hz : Moves pl z s)
    (hl : Part.sub [.clock, .mode, .aon, .pins, .start, .flash, .host, .evt, .pwr, .xpt, .cue, .red, .lane, .flow, .cmp, .aud, .out] pl = true := by first | rfl | exact Part.sub_trans rfl (by assumption)) :
    MovesOut pl z (execHalyardHealth t report bad s) := by
  unfold execHalyardHealth
  try dsimp only
  try with_reducible refine MovesOut.next ?_
  repeat' first
    | with_reducible assumption | exact Part.sub_trans rfl hl | with_reducible apply advance_moves
    | with_reducible apply discardMsg_moves | with_reducible apply Moves.onRed
    | with_reducible apply heardControl_moves | with_reducible apply notePeerMode_moves
    | with_reducible apply Moves.ite

theorem execHealthSend_moves {pl : List Part} {z : State} (t : Nat) {s : State}
    (hz : Moves pl z s)
    (hl : Part.sub [.clock, .flash, .evt, .red, .out] pl = true := by first | rfl | exact Part.sub_trans rfl (by assumption)) :
    MovesOut pl z (execHealthSend t s) := by
  unfold execHealthSend
  try dsimp only
  try with_reducible refine MovesOut.next ?_
  repeat' first
    | with_reducible assumption | exact Part.sub_trans rfl hl | with_reducible apply advance_moves
    | with_reducible apply raise_moves | with_reducible apply Moves.onRed
    | with_reducible apply sendHalyard_moves | with_reducible apply Moves.ite

theorem execHalyardLeaseClaim_moves {pl : List Part} {z : State} (t : Nat) (gen : Nat) (bad : Bool) {s : State}
    (hz : Moves pl z s)
    (hl : Part.sub [.clock, .red] pl = true := by first | rfl | exact Part.sub_trans rfl (by assumption)) :
    MovesOut pl z (execHalyardLeaseClaim t gen bad s) := by
  unfold execHalyardLeaseClaim
  try dsimp only
  try with_reducible refine MovesOut.next ?_
  repeat' first
    | with_reducible assumption | exact Part.sub_trans rfl hl | with_reducible apply advance_moves
    | with_reducible apply discardMsg_moves | with_reducible apply heardControl_moves
    | with_reducible apply Moves.onRed | with_reducible apply Moves.ite

theorem execHalyardBulkRequest_moves {pl : List Part} {z : State} (t : Nat) (kind : Nat) (object : Nat) (offset : Nat) (bad : Bool) {s : State}
    (hz : Moves pl z s)
    (hl : Part.sub [.clock, .red, .out] pl = true := by first | rfl | exact Part.sub_trans rfl (by assumption)) :
    MovesOut pl z (execHalyardBulkRequest t kind object offset bad s) := by
  unfold execHalyardBulkRequest
  try dsimp only
  try with_reducible refine MovesOut.next ?_
  repeat' first
    | with_reducible assumption | exact Part.sub_trans rfl hl | with_reducible apply advance_moves
    | with_reducible apply discardMsg_moves | with_reducible apply heardControl_moves
    | with_reducible apply sendHalyard_moves | with_reducible apply sendObject_moves
    | with_reducible apply Moves.ite

theorem execHalyardObjectFill_moves {pl : List Part} {z : State} (t : Nat) (object : Nat) (offset : Nat) (data : List Byte) (bad : Bool) {s : State}
    (hz : Moves pl z s)
    (hl : Part.sub [.clock, .mode, .aon, .pins, .start, .flash, .host, .evt, .pwr, .xpt, .cue, .red, .lane, .flow, .fst, .cmp, .aud, .out] pl = true := by first | rfl | exact Part.sub_trans rfl (by assumption)) :
    MovesOut pl z (execHalyardObjectFill t object offset data bad s) := by
  unfold execHalyardObjectFill
  try dsimp only
  refine MovesOut.fault ?_
  try with_reducible refine MovesOut.next ?_
  repeat' first
    | with_reducible assumption | exact Part.sub_trans rfl hl | with_reducible apply advance_moves
    | with_reducible apply askAgain_moves | with_reducible apply discardMsg_moves
    | with_reducible apply zoneWriteAt_moves | with_reducible apply endFill_moves
    | with_reducible apply Moves.ite
    | (split <;> try dsimp only)

theorem execPlanePhaseDiverge_moves {pl : List Part} {z : State} (t : Nat) (plane : Nat) {s : State}
    (hz : Moves pl z s)
    (hl : Part.sub [.clock, .mode, .aon, .pins, .start, .flash, .host, .evt, .pwr, .xpt, .cue, .red, .lane, .flow, .cmp, .aud, .out] pl = true := by first | rfl | exact Part.sub_trans rfl (by assumption)) :
    MovesOut pl z (execPlanePhaseDiverge t plane s) := by
  unfold execPlanePhaseDiverge
  try dsimp only
  refine MovesOut.fault ?_
  try with_reducible refine MovesOut.next ?_
  repeat' first
    | with_reducible assumption | exact Part.sub_trans rfl hl | with_reducible apply advance_moves
    | with_reducible apply divergeOut_moves | with_reducible apply pairDiverge_moves
    | with_reducible apply Moves.ite

theorem execResyncTimeout_moves {pl : List Part} {z : State} (t : Nat) {s : State}
    (hz : Moves pl z s)
    (hl : Part.sub [.clock, .mode, .aon, .pins, .start, .flash, .host, .evt, .pwr, .xpt, .cue, .red, .lane, .flow, .cmp, .aud, .out] pl = true := by first | rfl | exact Part.sub_trans rfl (by assumption)) :
    MovesOut pl z (execResyncTimeout t s) := by
  unfold execResyncTimeout
  try dsimp only
  try with_reducible refine MovesOut.next ?_
  repeat' first
    | with_reducible assumption | exact Part.sub_trans rfl hl | with_reducible apply advance_moves
    | with_reducible apply raise_moves | with_reducible apply Moves.onRed | with_reducible apply linkTo_moves
    | with_reducible apply Moves.ite
    | (split <;> try dsimp only)

theorem execResyncRetry_moves {pl : List Part} {z : State} (t : Nat) {s : State}
    (hz : Moves pl z s)
    (hl : Part.sub [.clock, .mode, .aon, .pins, .start, .flash, .host, .evt, .pwr, .xpt, .cue, .red, .lane, .flow, .cmp, .aud, .out] pl = true := by first | rfl | exact Part.sub_trans rfl (by assumption)) :
    MovesOut pl z (execResyncRetry t s) := by
  unfold execResyncRetry
  try dsimp only
  try with_reducible refine MovesOut.next ?_
  repeat' first
    | with_reducible assumption | exact Part.sub_trans rfl hl | with_reducible apply advance_moves
    | with_reducible apply startResync_moves | with_reducible apply Moves.ite
    | (split <;> try dsimp only)

theorem execSettlingEnd_moves {pl : List Part} {z : State} (t : Nat) (plane : Nat) {s : State}
    (hz : Moves pl z s)
    (hl : Part.sub [.clock, .red] pl = true := by first | rfl | exact Part.sub_trans rfl (by assumption)) :
    MovesOut pl z (execSettlingEnd t plane s) := by
  unfold execSettlingEnd
  try dsimp only
  refine MovesOut.fault ?_
  try with_reducible refine MovesOut.next ?_
  repeat' first
    | with_reducible assumption | exact Part.sub_trans rfl hl | with_reducible apply advance_moves
    | with_reducible apply Moves.onRed | with_reducible apply Moves.ite
    | (split <;> try dsimp only)

end Sys2Proof.Machine
end

