-- ==== Sys2Proof/Laws/MovesAdopt.lean ====
section
/-! SUPPORT. What each operation of `Machine/Adopt.lean` moves. -/

-- The package is checked as one text; elaborating these proofs in order keeps the number of threads small.
set_option Elab.async false

namespace Sys2Proof.Machine

theorem restartSource_moves {pl : List Part} {z : State} (n : Nat) {s : State}
    (hz : Moves pl z s)
    (hl : Part.sub [.flash, .evt, .flow] pl = true := by first | rfl | exact Part.sub_trans rfl (by assumption)) :
    Moves pl z (restartSource n s) := by
  unfold restartSource
  try dsimp only
  repeat' first
    | with_reducible assumption | exact Part.sub_trans rfl hl | with_reducible apply modSrc_moves
    | with_reducible apply installSource_moves
    | (split <;> try dsimp only)

theorem restartSources_moves {pl : List Part} {z : State} {s : State}
    (hz : Moves pl z s)
    (hl : Part.sub [.flash, .evt, .flow] pl = true := by first | rfl | exact Part.sub_trans rfl (by assumption)) :
    Moves pl z (restartSources s) := by
  unfold restartSources
  try dsimp only
  repeat' first
    | with_reducible assumption | exact Part.sub_trans rfl hl | with_reducible apply Moves.onFlow
    | with_reducible apply restartSource_moves | (with_reducible apply Moves.foldl; intro _ _ _)

theorem adoptSources_moves {pl : List Part} {z : State} (srcs : Table Src) {s : State}
    (hz : Moves pl z s)
    (hl : Part.sub [.flash, .evt, .flow] pl = true := by first | rfl | exact Part.sub_trans rfl (by assumption)) :
    Moves pl z (adoptSources srcs s) := by
  unfold adoptSources
  try dsimp only
  repeat' first
    | with_reducible assumption | exact Part.sub_trans rfl hl | with_reducible apply Moves.onFlow
    | with_reducible apply installSource_moves | with_reducible apply modSrc_moves
    | (with_reducible apply Moves.foldl; intro _ _ _)
    | (split <;> try dsimp only)

theorem adoptDests_moves {pl : List Part} {z : State} (dsts : Table Dst) {s : State}
    (hz : Moves pl z s)
    (hl : Part.sub [.flow] pl = true := by first | rfl | exact Part.sub_trans rfl (by assumption)) :
    Moves pl z (adoptDests dsts s) := by
  unfold adoptDests
  try dsimp only
  repeat' first
    | with_reducible assumption | exact Part.sub_trans rfl hl | with_reducible apply Moves.onFlow
    | with_reducible apply Moves.ite

theorem adoptFlow_moves {pl : List Part} {z : State} (src : Table Src) (dst : Table Dst) (groups : Table Group) (tps : Table FlowTp) {s : State}
    (hz : Moves pl z s)
    (hl : Part.sub [.flash, .evt, .flow] pl = true := by first | rfl | exact Part.sub_trans rfl (by assumption)) :
    Moves pl z (adoptFlow src dst groups tps s) := by
  unfold adoptFlow
  try dsimp only
  repeat' first
    | with_reducible assumption | exact Part.sub_trans rfl hl | with_reducible apply adoptDests_moves
    | with_reducible apply adoptSources_moves | with_reducible apply Moves.onFlow

theorem adoptComps_moves {pl : List Part} {z : State} (comps : Table Comp) {s : State}
    (hz : Moves pl z s)
    (hl : Part.sub [.cmp] pl = true := by first | rfl | exact Part.sub_trans rfl (by assumption)) :
    Moves pl z (adoptComps comps s) := by
  unfold adoptComps
  try dsimp only
  repeat' first
    | with_reducible assumption | exact Part.sub_trans rfl hl | with_reducible apply Moves.onCmp

theorem adoptAudio_moves {pl : List Part} {z : State} (outs : Table AudOut) (follows : Table AudFollow) (ports : Table AudPort) (streams : Table AudStream) (house : Nat) (zc : Nat) {s : State}
    (hz : Moves pl z s)
    (hl : Part.sub [.aud] pl = true := by first | rfl | exact Part.sub_trans rfl (by assumption)) :
    Moves pl z (adoptAudio outs follows ports streams house zc s) := by
  unfold adoptAudio
  try dsimp only
  repeat' first
    | with_reducible assumption | exact Part.sub_trans rfl hl | with_reducible apply Moves.onAud
    | with_reducible apply Moves.ite

end Sys2Proof.Machine
end

