-- ==== Sys2Proof/Laws/MovesGeneral.lean ====
section
/-! SUPPORT. What each operation and command of `Machine/General.lean` moves. -/

-- The package is checked as one text; elaborating these proofs in order keeps the number of threads small.
set_option Elab.async false

namespace Sys2Proof.Machine

theorem effIdentify_moves {pl : List Part} {z : State} {s : State} (c : HostCmd)
    (hz : Moves pl z s) :
    Moves pl z (effIdentify s c).1 := by
  unfold effIdentify
  try dsimp only
  repeat' first
    | with_reducible assumption | exact Part.sub_trans rfl hl

theorem effStatus_moves {pl : List Part} {z : State} {s : State} (c : HostCmd)
    (hz : Moves pl z s) :
    Moves pl z (effStatus s c).1 := by
  unfold effStatus
  try dsimp only
  repeat' first
    | with_reducible assumption | exact Part.sub_trans rfl hl

theorem effModeSet_moves {pl : List Part} {z : State} {s : State} (c : HostCmd)
    (hz : Moves pl z s)
    (hl : Part.sub [.mode, .aon, .pins, .start, .cal, .flash, .host, .evt, .pwr, .xpt, .cue, .red, .lane, .flow, .cmp, .aud, .out] pl = true := by first | rfl | exact Part.sub_trans rfl (by assumption)) :
    Moves pl z (effModeSet s c).1 := by
  unfold effModeSet
  try dsimp only
  repeat' first
    | with_reducible assumption | exact Part.sub_trans rfl hl | with_reducible apply transition_moves
    | with_reducible apply reenterCalibrate_moves | with_reducible apply Moves.ite
    | with_reducible apply Moves.ite_fst

theorem effReset_moves {pl : List Part} {z : State} {s : State} (c : HostCmd)
    (hz : Moves pl z s)
    (hl : Part.sub [.host] pl = true := by first | rfl | exact Part.sub_trans rfl (by assumption)) :
    Moves pl z (effReset s c).1 := by
  unfold effReset
  try dsimp only
  repeat' first
    | with_reducible assumption | exact Part.sub_trans rfl hl
    | with_reducible refine Moves.onHostSame ?_ _ (fun _ => rfl) (fun _ => rfl) ?_

theorem effLockConfig_moves {pl : List Part} {z : State} {s : State} (c : HostCmd)
    (hz : Moves pl z s)
    (hl : Part.sub [.flash, .host, .evt] pl = true := by first | rfl | exact Part.sub_trans rfl (by assumption)) :
    Moves pl z (effLockConfig s c).1 := by
  unfold effLockConfig
  try dsimp only
  repeat' first
    | with_reducible assumption | exact Part.sub_trans rfl hl | with_reducible apply raise_moves
    | with_reducible refine Moves.onHostSame ?_ _ (fun _ => rfl) (fun _ => rfl) ?_
    | with_reducible apply Moves.ite | with_reducible apply Moves.ite_fst

theorem effAddrSet_moves {pl : List Part} {z : State} {s : State} (c : HostCmd)
    (hz : Moves pl z s)
    (hl : Part.sub [.aon, .flash, .host, .evt, .red, .out] pl = true := by first | rfl | exact Part.sub_trans rfl (by assumption)) :
    Moves pl z (effAddrSet s c).1 := by
  unfold effAddrSet
  try dsimp only
  repeat' first
    | with_reducible assumption | exact Part.sub_trans rfl hl | with_reducible apply finish_moves
    | with_reducible apply raise_moves | with_reducible apply Moves.onAon

theorem forgetSession_moves {pl : List Part} {z : State} (id : Nat) {s : State}
    (hz : Moves pl z s)
    (hl : Part.sub [.host] pl = true := by first | rfl | exact Part.sub_trans rfl (by assumption)) :
    Moves pl z (forgetSession id s) := by
  unfold forgetSession
  try dsimp only
  repeat' first
    | with_reducible assumption | exact Part.sub_trans rfl hl | with_reducible apply abandonReasm_moves
    | with_reducible refine Moves.onHostSame ?_ _ (fun _ => rfl) (fun _ => rfl) ?_

theorem effKeyLoad_moves {pl : List Part} {z : State} {s : State} (c : HostCmd)
    (hz : Moves pl z s)
    (hl : Part.sub [.aon, .flash, .host, .evt] pl = true := by first | rfl | exact Part.sub_trans rfl (by assumption)) :
    Moves pl z (effKeyLoad s c).1 := by
  rw [effKeyLoad]
  cases roleOfCode (u8 c.params 2) with
  | none => exact hz
  | some a => cases loadKey c with
    | none => exact hz
    | some b => cases (slotOf s (u16 c.params 0)).orElse (fun _ => freeSlot s) with
      | none => exact hz
      | some d => exact raise_moves _ _ _ _ _ (.onAon (forgetSession_moves _ hz) _)

theorem eraseSession_moves {pl : List Part} {z : State} (sender : Nat) (x : Session) {s : State}
    (hz : Moves pl z s)
    (hl : Part.sub [.aon, .flash, .host, .evt] pl = true := by first | rfl | exact Part.sub_trans rfl (by assumption)) :
    Moves pl z (eraseSession sender x s) := by
  unfold eraseSession
  try dsimp only
  repeat' first
    | with_reducible assumption | exact Part.sub_trans rfl hl | with_reducible apply forgetSession_moves
    | with_reducible apply Moves.onAon | with_reducible apply raise_moves

theorem effKeyErase_moves {pl : List Part} {z : State} {s : State} (c : HostCmd)
    (hz : Moves pl z s)
    (hl : Part.sub [.aon, .flash, .host, .evt] pl = true := by first | rfl | exact Part.sub_trans rfl (by assumption)) :
    Moves pl z (effKeyErase s c).1 := by
  unfold effKeyErase
  try dsimp only
  repeat' first
    | with_reducible assumption | exact Part.sub_trans rfl hl | with_reducible apply eraseSession_moves
    | with_reducible apply Moves.ite | with_reducible apply Moves.ite_fst
    | (with_reducible apply Moves.foldl; intro _ _ _)

theorem effSessionInfo_moves {pl : List Part} {z : State} {s : State} (c : HostCmd)
    (hz : Moves pl z s) :
    Moves pl z (effSessionInfo s c).1 := by
  unfold effSessionInfo
  try dsimp only
  repeat' first
    | with_reducible assumption | exact Part.sub_trans rfl hl
    | (split <;> try dsimp only)

theorem effEcho_moves {pl : List Part} {z : State} {s : State} (c : HostCmd)
    (hz : Moves pl z s) :
    Moves pl z (effEcho s c).1 := by
  unfold effEcho
  try dsimp only
  repeat' first
    | with_reducible assumption | exact Part.sub_trans rfl hl

theorem execIdentify_moves {pl : List Part} {z : State} (t : Nat) (c : HostCmd) {s : State}
    (hz : Moves pl z s)
    (hl : Part.sub [.clock, .flash, .host, .evt, .red, .out] pl = true := by first | rfl | exact Part.sub_trans rfl (by assumption)) :
    MovesOut pl z (execIdentify t c s) := by
  exact runCommand_moves _ _ _ _ _ hz (fun _ h => effIdentify_moves _ h)

theorem execStatus_moves {pl : List Part} {z : State} (t : Nat) (c : HostCmd) {s : State}
    (hz : Moves pl z s)
    (hl : Part.sub [.clock, .flash, .host, .evt, .red, .out] pl = true := by first | rfl | exact Part.sub_trans rfl (by assumption)) :
    MovesOut pl z (execStatus t c s) := by
  exact runCommand_moves _ _ _ _ _ hz (fun _ h => effStatus_moves _ h)

theorem execModeSet_moves {pl : List Part} {z : State} (t : Nat) (c : HostCmd) {s : State}
    (hz : Moves pl z s)
    (hl : Part.sub [.clock, .mode, .aon, .pins, .start, .cal, .flash, .host, .evt, .pwr, .xpt, .cue, .red, .lane, .flow, .cmp, .aud, .out] pl = true := by first | rfl | exact Part.sub_trans rfl (by assumption)) :
    MovesOut pl z (execModeSet t c s) := by
  exact runCommand_moves _ _ _ _ _ hz (fun _ h => effModeSet_moves _ h)

theorem execReset_moves {pl : List Part} {z : State} (t : Nat) (c : HostCmd) {s : State}
    (hz : Moves pl z s)
    (hl : Part.sub [.clock, .flash, .host, .evt, .red, .out] pl = true := by first | rfl | exact Part.sub_trans rfl (by assumption)) :
    MovesOut pl z (execReset t c s) := by
  exact runCommand_moves _ _ _ _ _ hz (fun _ h => effReset_moves _ h)

theorem execResetDelayExpired_moves {pl : List Part} {z : State} (t : Nat) {s : State}
    (hz : Moves pl z s)
    (hl : Part.sub [.clock, .mode, .halWaitMs, .aon, .pins, .start, .cal, .flash, .host, .evt, .saf, .ctl, .pwr, .xpt, .cue, .red, .eth, .tim, .lane, .flow, .fst, .cmp, .aud, .out, .image] pl = true := by first | rfl | exact Part.sub_trans rfl (by assumption)) :
    MovesOut pl z (execResetDelayExpired t s) := by
  unfold execResetDelayExpired
  try dsimp only
  try with_reducible refine MovesOut.next ?_
  repeat' first
    | with_reducible assumption | exact Part.sub_trans rfl hl | with_reducible apply advance_moves
    | with_reducible apply takeT1Start_moves | with_reducible apply Moves.ite
    | (split <;> try dsimp only)

theorem execLockConfig_moves {pl : List Part} {z : State} (t : Nat) (c : HostCmd) {s : State}
    (hz : Moves pl z s)
    (hl : Part.sub [.clock, .flash, .host, .evt, .red, .out] pl = true := by first | rfl | exact Part.sub_trans rfl (by assumption)) :
    MovesOut pl z (execLockConfig t c s) := by
  exact runCommand_moves _ _ _ _ _ hz (fun _ h => effLockConfig_moves _ h)

theorem execAddrSet_moves {pl : List Part} {z : State} (t : Nat) (c : HostCmd) {s : State}
    (hz : Moves pl z s)
    (hl : Part.sub [.clock, .aon, .flash, .host, .evt, .red, .out] pl = true := by first | rfl | exact Part.sub_trans rfl (by assumption)) :
    MovesOut pl z (execAddrSet t c s) := by
  exact runCommand_moves _ _ _ _ _ hz (fun _ h => effAddrSet_moves _ h)

theorem execSessionKeyLoad_moves {pl : List Part} {z : State} (t : Nat) (c : HostCmd) {s : State}
    (hz : Moves pl z s)
    (hl : Part.sub [.clock, .aon, .flash, .host, .evt, .red, .out] pl = true := by first | rfl | exact Part.sub_trans rfl (by assumption)) :
    MovesOut pl z (execSessionKeyLoad t c s) := by
  exact runCommand_moves _ _ _ _ _ hz (fun _ h => effKeyLoad_moves _ h)

theorem execSessionKeyErase_moves {pl : List Part} {z : State} (t : Nat) (c : HostCmd) {s : State}
    (hz : Moves pl z s)
    (hl : Part.sub [.clock, .aon, .flash, .host, .evt, .red, .out] pl = true := by first | rfl | exact Part.sub_trans rfl (by assumption)) :
    MovesOut pl z (execSessionKeyErase t c s) := by
  exact runCommand_moves _ _ _ _ _ hz (fun _ h => effKeyErase_moves _ h)

theorem execSessionInfo_moves {pl : List Part} {z : State} (t : Nat) (c : HostCmd) {s : State}
    (hz : Moves pl z s)
    (hl : Part.sub [.clock, .flash, .host, .evt, .red, .out] pl = true := by first | rfl | exact Part.sub_trans rfl (by assumption)) :
    MovesOut pl z (execSessionInfo t c s) := by
  exact runCommand_moves _ _ _ _ _ hz (fun _ h => effSessionInfo_moves _ h)

theorem execEcho_moves {pl : List Part} {z : State} (t : Nat) (c : HostCmd) {s : State}
    (hz : Moves pl z s)
    (hl : Part.sub [.clock, .flash, .host, .evt, .red, .out] pl = true := by first | rfl | exact Part.sub_trans rfl (by assumption)) :
    MovesOut pl z (execEcho t c s) := by
  exact runCommand_moves _ _ _ _ _ hz (fun _ h => effEcho_moves _ h)

end Sys2Proof.Machine
end

