-- ==== Sys2Proof/Laws/MovesPower.lean ====
section
/-! SUPPORT. What each operation and command of `Machine/Power.lean` moves. -/

-- The package is checked as one text; elaborating these proofs in order keeps the number of threads small.
set_option Elab.async false

namespace Sys2Proof.Machine

theorem effPwrStatus_moves {pl : List Part} {z : State} {s : State} (c : HostCmd)
    (hz : Moves pl z s) :
    Moves pl z (effPwrStatus s c).1 := by
  unfold effPwrStatus
  try dsimp only
  repeat' first
    | with_reducible assumption | exact Part.sub_trans rfl hl

theorem effPwrLevelSet_moves {pl : List Part} {z : State} {s : State} (c : HostCmd)
    (hz : Moves pl z s)
    (hl : Part.sub [.pins, .pwr, .out] pl = true := by first | rfl | exact Part.sub_trans rfl (by assumption)) :
    Moves pl z (effPwrLevelSet s c).1 := by
  unfold effPwrLevelSet
  try dsimp only
  repeat' first
    | with_reducible assumption | exact Part.sub_trans rfl hl | with_reducible apply Moves.onPwr
    | with_reducible apply setVsel_moves | with_reducible apply Moves.ite | with_reducible apply Moves.ite_fst

theorem withoutImage_moves {pl : List Part} {z : State} {s : State}
    (hz : Moves pl z s)
    (hl : Part.sub [.fst] pl = true := by first | rfl | exact Part.sub_trans rfl (by assumption)) :
    Moves pl z (withoutImage s) := by
  unfold withoutImage
  try dsimp only
  repeat' first
    | with_reducible assumption | exact Part.sub_trans rfl hl
    | (with_reducible refine Moves.onFstMem ?_ _ (fun _ => rfl) ?_)

theorem portsIdle_moves {pl : List Part} {z : State} {s : State}
    (hz : Moves pl z s)
    (hl : Part.sub [.flash, .evt, .eth] pl = true := by first | rfl | exact Part.sub_trans rfl (by assumption)) :
    Moves pl z (portsIdle s) := by
  unfold portsIdle
  try dsimp only
  repeat' first
    | with_reducible assumption | exact Part.sub_trans rfl hl | with_reducible apply setLink_moves

theorem effPwrSleep_moves {pl : List Part} {z : State} {s : State} (c : HostCmd)
    (hz : Moves pl z s)
    (hl : Part.sub [.mode, .aon, .pins, .start, .flash, .host, .evt, .pwr, .xpt, .cue, .red, .eth, .tim, .lane, .flow, .cmp, .aud, .out] pl = true := by first | rfl | exact Part.sub_trans rfl (by assumption)) :
    Moves pl z (effPwrSleep s c).1 := by
  unfold effPwrSleep
  try dsimp only
  repeat' first
    | with_reducible assumption | exact Part.sub_trans rfl hl | with_reducible apply Moves.onPwr
    | with_reducible apply Moves.onAon | with_reducible apply portsIdle_moves
    | with_reducible apply driveHt_moves | with_reducible apply transition_moves
    | with_reducible apply Moves.ite | with_reducible apply Moves.ite_fst

theorem keepImage_moves {pl : List Part} {z : State} (img : SavedState) {s : State}
    (hz : Moves pl z s)
    (hl : Part.sub [.free, .image] pl = true := by first | rfl | exact Part.sub_trans rfl (by assumption)) :
    Moves pl z (keepImage img s) := by
  exact (hz.setImage (some img)).setFree _ (Nat.le_succ _)

theorem writeImage_moves {pl : List Part} {z : State} {s : State}
    (hz : Moves pl z s)
    (hl : Part.sub [.fst, .free, .image] pl = true := by first | rfl | exact Part.sub_trans rfl (by assumption)) :
    Moves pl z (writeImage s) := by
  unfold writeImage
  try dsimp only
  repeat' first
    | with_reducible assumption | exact Part.sub_trans rfl hl | with_reducible apply withoutImage_moves
    | with_reducible apply keepImage_moves | with_reducible apply modObj_moves
    | with_reducible apply zoneWriteAt_moves
    | (split <;> try dsimp only)

theorem asleep_moves {pl : List Part} {z : State} (keep : Bool) {s : State}
    (hz : Moves pl z s)
    (hl : Part.sub [.clock, .mode, .halWaitMs, .aon, .pins, .start, .cal, .flash, .host, .evt, .saf, .ctl, .pwr, .xpt, .cue, .red, .eth, .tim, .lane, .flow, .fst, .cmp, .aud, .out, .image] pl = true := by first | rfl | exact Part.sub_trans rfl (by assumption)) :
    Moves pl z (asleep keep s) := by
  unfold asleep
  dsimp only
  have h1 := resetState_moves (pl := pl) (pinsDown_moves (pl := pl) hz)
  refine ⟨⟨h1.steady.pending, h1.steady.clk, h1.steady.fuses, h1.steady.floor, h1.steady.out, h1.steady.free,
    fun hs => ?_⟩, ?_⟩
  · have h2 := State.sound_iff.mp (h1.steady.sound hs)
    have h3 := State.sound_iff.mp (hz.steady.sound hs)
    refine State.sound_iff.mpr ⟨⟨⟨h2.1.1.1, ?_⟩, h2.1.2⟩, h3.2⟩
    split
    · exact memWf_filter _ h3.1.1.2
    · rfl
  · intro p hp
    have h4 := h1.frame p hp
    cases p
    all_goals first
      | exact absurd (Part.mem_of_sub (by decide) hl) hp
      | exact h4

theorem wakeSource_moves {pl : List Part} {z : State} (cause : Nat) {s : State}
    (hz : Moves pl z s)
    (hl : Part.sub [.aon, .pwr] pl = true := by first | rfl | exact Part.sub_trans rfl (by assumption)) :
    Moves pl z (wakeSource cause s) := by
  unfold wakeSource
  try dsimp only
  repeat' first
    | with_reducible assumption | exact Part.sub_trans rfl hl | with_reducible apply Moves.onAon
    | with_reducible apply Moves.onPwr | with_reducible apply Moves.ite

theorem noteWake_moves {pl : List Part} {z : State} {s : State}
    (hz : Moves pl z s)
    (hl : Part.sub [.aon, .flash, .evt] pl = true := by first | rfl | exact Part.sub_trans rfl (by assumption)) :
    Moves pl z (noteWake s) := by
  unfold noteWake
  try dsimp only
  repeat' first
    | with_reducible assumption | exact Part.sub_trans rfl hl | with_reducible apply Moves.onAon
    | with_reducible apply raise_moves

theorem takeT18_moves {pl : List Part} {z : State} {s : State}
    (hz : Moves pl z s)
    (hl : Part.sub [.clock, .mode, .halWaitMs, .aon, .pins, .start, .cal, .flash, .host, .evt, .saf, .ctl, .pwr, .xpt, .cue, .red, .eth, .tim, .lane, .flow, .fst, .cmp, .aud, .image] pl = true := by first | rfl | exact Part.sub_trans rfl (by assumption)) :
    Moves pl z (takeT18 s) := by
  unfold takeT18
  try dsimp only
  repeat' first
    | with_reducible assumption | exact Part.sub_trans rfl hl | with_reducible apply raiseModeChange_moves
    | with_reducible apply resetState_moves
    | (with_reducible apply Moves.setAon
       first
          | with_reducible assumption | exact Part.sub_trans rfl hl
          | with_reducible apply raiseModeChange_moves | with_reducible apply resetState_moves)

theorem loseSlice_moves {pl : List Part} {z : State} (b : Nat) {s : State}
    (hz : Moves pl z s)
    (hl : Part.sub [.flash, .evt, .fst] pl = true := by first | rfl | exact Part.sub_trans rfl (by assumption)) :
    Moves pl z (loseSlice b s) := by
  unfold loseSlice
  try dsimp only
  repeat' first
    | with_reducible assumption | exact Part.sub_trans rfl hl | with_reducible apply raise_moves
    | with_reducible apply fstCount_moves | with_reducible apply modObj_moves
    | (with_reducible apply Moves.foldl; intro _ _ _)

theorem freeUnretained_moves {pl : List Part} {z : State} {s : State}
    (hz : Moves pl z s)
    (hl : Part.sub [.flash, .evt, .fst] pl = true := by first | rfl | exact Part.sub_trans rfl (by assumption)) :
    Moves pl z (freeUnretained s) := by
  unfold freeUnretained
  try dsimp only
  repeat' first
    | with_reducible assumption | exact Part.sub_trans rfl hl
    | (with_reducible refine Moves.onFstMem ?_ _ (fun _ => rfl) ?_) | with_reducible apply raise_moves
    | with_reducible apply Moves.ite
    | (split <;> try dsimp only)

theorem loseBank_moves {pl : List Part} {z : State} (g : Nat) (check : Nat) {s : State}
    (hz : Moves pl z s)
    (hl : Part.sub [.flash, .evt, .fst] pl = true := by first | rfl | exact Part.sub_trans rfl (by assumption)) :
    Moves pl z (loseBank g check s) := by
  unfold loseBank
  try dsimp only
  repeat' first
    | with_reducible assumption | exact Part.sub_trans rfl hl
    | (with_reducible refine Moves.onFstMem ?_ _ (fun _ => rfl) ?_) | with_reducible apply raise_moves
    | with_reducible apply invalidate_moves | (with_reducible apply Moves.foldl; intro _ _ _)
    | (split <;> try dsimp only)

theorem restoreLanes_moves {pl : List Part} {z : State} (old : State) {s : State}
    (hz : Moves pl z s)
    (hl : Part.sub [.flash, .evt, .lane, .flow] pl = true := by first | rfl | exact Part.sub_trans rfl (by assumption)) :
    Moves pl z (restoreLanes old s) := by
  unfold restoreLanes
  try dsimp only
  repeat' first
    | with_reducible assumption | exact Part.sub_trans rfl hl | with_reducible apply modTx_moves
    | with_reducible apply writeTxTag_moves | with_reducible apply writeTxCfg_moves
    | with_reducible apply writeRxCfg_moves | (with_reducible apply Moves.foldl; intro _ _ _)

theorem restorePorts_moves {pl : List Part} {z : State} (v : SavedState) {s : State}
    (hz : Moves pl z s)
    (hl : Part.sub [.eth] pl = true := by first | rfl | exact Part.sub_trans rfl (by assumption)) :
    Moves pl z (restorePorts v s) := by
  unfold restorePorts
  try dsimp only
  repeat' first
    | with_reducible assumption | exact Part.sub_trans rfl hl | with_reducible apply modEth_moves
    | (with_reducible apply Moves.foldl; intro _ _ _)

theorem restoreFlows_moves {pl : List Part} {z : State} (v : SavedState) {s : State}
    (hz : Moves pl z s)
    (hl : Part.sub [.flash, .evt, .eth, .out] pl = true := by first | rfl | exact Part.sub_trans rfl (by assumption)) :
    Moves pl z (restoreFlows v s) := by
  unfold restoreFlows
  try dsimp only
  repeat' first
    | with_reducible assumption | exact Part.sub_trans rfl hl | with_reducible apply Moves.onEth
    | with_reducible apply reportLeg_moves | with_reducible apply Moves.ite
    | (with_reducible apply Moves.foldl; intro _ _ _)

theorem restoreRefs_moves {pl : List Part} {z : State} (v : SavedState) (old : State) {s : State}
    (hz : Moves pl z s)
    (hl : Part.sub [.flash, .evt, .red, .tim, .out] pl = true := by first | rfl | exact Part.sub_trans rfl (by assumption)) :
    Moves pl z (restoreRefs v old s) := by
  unfold restoreRefs
  try dsimp only
  repeat' first
    | with_reducible assumption | exact Part.sub_trans rfl hl | with_reducible apply Moves.onTim
    | with_reducible apply configRef_moves | (with_reducible apply Moves.foldl; intro _ _ _)

theorem restoreControl_moves {pl : List Part} {z : State} (v : SavedState) {s : State}
    (hz : Moves pl z s)
    (hl : Part.sub [.pins, .saf, .ctl, .pwr, .red, .out] pl = true := by first | rfl | exact Part.sub_trans rfl (by assumption)) :
    Moves pl z (restoreControl v s) := by
  unfold restoreControl
  try dsimp only
  repeat' first
    | with_reducible assumption | exact Part.sub_trans rfl hl | with_reducible apply Moves.onRed
    | with_reducible apply Moves.onSaf | with_reducible apply Moves.onCtl | with_reducible apply setVsel_moves
    | with_reducible apply Moves.onPwr

theorem restoreLocal_moves {pl : List Part} {z : State} (v : SavedState) {s : State}
    (hz : Moves pl z s)
    (hl : Part.sub [.halWaitMs, .pins, .flash, .host, .evt, .saf, .ctl, .pwr, .red, .eth, .tim, .lane, .flow, .out] pl = true := by first | rfl | exact Part.sub_trans rfl (by assumption)) :
    Moves pl z (restoreLocal v s) := by
  unfold restoreLocal
  dsimp only
  refine Moves.onHostSame ?_ _ (fun _ => rfl) (fun _ => rfl)
  with_reducible refine Moves.setHalWaitMs (restoreControl_moves _ (restoreRefs_moves _ _ (restoreFlows_moves _
    (restorePorts_moves _ (restoreLanes_moves _ hz))))) _

theorem restoreTime_moves {pl : List Part} {z : State} (v : SavedState) {s : State}
    (hz : Moves pl z s)
    (hl : Part.sub [.flash, .evt, .tim] pl = true := by first | rfl | exact Part.sub_trans rfl (by assumption)) :
    Moves pl z (restoreTime v s) := by
  unfold restoreTime
  try dsimp only
  repeat' first
    | with_reducible assumption | exact Part.sub_trans rfl hl | with_reducible apply Moves.onTim
    | with_reducible apply missTargets_moves | with_reducible apply Moves.ite
    | (with_reducible apply Moves.foldl; intro _ _ _)

theorem restoreStore_moves {pl : List Part} {z : State} (v : SavedState) {s : State}
    (hz : Moves pl z s)
    (hl : Part.sub [.xpt, .cue, .tim, .fst] pl = true := by first | rfl | exact Part.sub_trans rfl (by assumption)) :
    Moves pl z (restoreStore v s) := by
  unfold restoreStore
  dsimp only
  refine .onCue (.onTim (.onXpt ?_ _) _) _
  exact Moves.onFstMem hz _ (fun _ => rfl)

theorem restoreOpen_moves {pl : List Part} {z : State} (v : SavedState) {s : State}
    (hz : Moves pl z s)
    (hl : Part.sub [.xpt] pl = true := by first | rfl | exact Part.sub_trans rfl (by assumption)) :
    Moves pl z (restoreOpen v s) := by
  unfold restoreOpen
  try dsimp only
  repeat' first
    | with_reducible assumption | exact Part.sub_trans rfl hl | with_reducible apply Moves.onXpt

theorem restoreLocks_moves {pl : List Part} {z : State} (v : SavedState) {s : State}
    (hz : Moves pl z s)
    (hl : Part.sub [.xpt] pl = true := by first | rfl | exact Part.sub_trans rfl (by assumption)) :
    Moves pl z (restoreLocks v s) := by
  unfold restoreLocks
  try dsimp only
  repeat' first
    | with_reducible assumption | exact Part.sub_trans rfl hl | with_reducible apply Moves.onXpt

theorem applyImage_moves {pl : List Part} {z : State} (v : SavedState) {s : State}
    (hz : Moves pl z s)
    (hl : Part.sub [.halWaitMs, .pins, .flash, .host, .evt, .saf, .ctl, .pwr, .xpt, .cue, .red, .eth, .tim, .lane, .flow, .fst, .cmp, .aud, .out] pl = true := by first | rfl | exact Part.sub_trans rfl (by assumption)) :
    Moves pl z (applyImage v s) := by
  unfold applyImage
  try dsimp only
  repeat' first
    | with_reducible assumption | exact Part.sub_trans rfl hl | with_reducible apply adoptFlow_moves
    | with_reducible apply restoreStore_moves | with_reducible apply restoreLocal_moves
    | with_reducible apply adoptComps_moves | with_reducible apply restoreOpen_moves
    | with_reducible apply restoreTime_moves | with_reducible apply restoreLocks_moves
    | with_reducible apply adoptAudio_moves

theorem execPwrStatus_moves {pl : List Part} {z : State} (t : Nat) (c : HostCmd) {s : State}
    (hz : Moves pl z s)
    (hl : Part.sub [.clock, .flash, .host, .evt, .red, .out] pl = true := by first | rfl | exact Part.sub_trans rfl (by assumption)) :
    MovesOut pl z (execPwrStatus t c s) := by
  exact runCommand_moves _ _ _ _ _ hz (fun _ h => effPwrStatus_moves _ h)

theorem execPwrLevelSet_moves {pl : List Part} {z : State} (t : Nat) (c : HostCmd) {s : State}
    (hz : Moves pl z s)
    (hl : Part.sub [.clock, .pins, .flash, .host, .evt, .pwr, .red, .out] pl = true := by first | rfl | exact Part.sub_trans rfl (by assumption)) :
    MovesOut pl z (execPwrLevelSet t c s) := by
  exact runCommand_moves _ _ _ _ _ hz (fun _ h => effPwrLevelSet_moves _ h)

theorem execLevelClockSwitch_moves {pl : List Part} {z : State} (t : Nat) {s : State}
    (hz : Moves pl z s)
    (hl : Part.sub [.clock, .pins, .pwr, .out] pl = true := by first | rfl | exact Part.sub_trans rfl (by assumption)) :
    MovesOut pl z (execLevelClockSwitch t s) := by
  unfold execLevelClockSwitch
  try dsimp only
  try with_reducible refine MovesOut.next ?_
  repeat' first
    | with_reducible assumption | exact Part.sub_trans rfl hl | with_reducible apply advance_moves
    | with_reducible apply Moves.onPwr | with_reducible apply setVsel_moves | with_reducible apply Moves.ite

theorem execLevelChangeDone_moves {pl : List Part} {z : State} (t : Nat) {s : State}
    (hz : Moves pl z s)
    (hl : Part.sub [.clock, .flash, .host, .evt, .pwr, .red, .out] pl = true := by first | rfl | exact Part.sub_trans rfl (by assumption)) :
    MovesOut pl z (execLevelChangeDone t s) := by
  unfold execLevelChangeDone
  try dsimp only
  try with_reducible refine MovesOut.next ?_
  repeat' first
    | with_reducible assumption | exact Part.sub_trans rfl hl | with_reducible apply advance_moves
    | with_reducible apply Moves.onPwr | with_reducible apply raise_moves | with_reducible apply finish_moves
    | with_reducible apply Moves.ite
    | (split <;> try dsimp only)

theorem execPwrSleep_moves {pl : List Part} {z : State} (t : Nat) (c : HostCmd) {s : State}
    (hz : Moves pl z s)
    (hl : Part.sub [.clock, .mode, .aon, .pins, .start, .flash, .host, .evt, .pwr, .xpt, .cue, .red, .eth, .tim, .lane, .flow, .cmp, .aud, .out] pl = true := by first | rfl | exact Part.sub_trans rfl (by assumption)) :
    MovesOut pl z (execPwrSleep t c s) := by
  exact runCommand_moves _ _ _ _ _ hz (fun _ h => effPwrSleep_moves _ h)

theorem execStateImageWrite_moves {pl : List Part} {z : State} (t : Nat) (flagged : List Nat) {s : State}
    (hz : Moves pl z s)
    (hl : Part.sub [.clock, .aon, .pwr, .fst, .free, .image] pl = true := by first | rfl | exact Part.sub_trans rfl (by assumption)) :
    MovesOut pl z (execStateImageWrite t flagged s) := by
  unfold execStateImageWrite
  try dsimp only
  try with_reducible refine MovesOut.next ?_
  repeat' first
    | with_reducible assumption | exact Part.sub_trans rfl hl | with_reducible apply advance_moves
    | with_reducible apply writeImage_moves | with_reducible apply Moves.onAon
    | with_reducible apply writePiece_moves | with_reducible apply Moves.onPwr | with_reducible apply Moves.ite
    | (with_reducible apply Moves.foldl; intro _ _ _)

theorem execSleepCommitPoint_moves {pl : List Part} {z : State} (t : Nat) {s : State}
    (hz : Moves pl z s)
    (hl : Part.sub [.clock, .mode, .halWaitMs, .aon, .pins, .start, .cal, .flash, .host, .evt, .saf, .ctl, .pwr, .xpt, .cue, .red, .eth, .tim, .lane, .flow, .fst, .cmp, .aud, .out, .image] pl = true := by first | rfl | exact Part.sub_trans rfl (by assumption)) :
    MovesOut pl z (execSleepCommitPoint t s) := by
  unfold execSleepCommitPoint
  try dsimp only
  try with_reducible refine MovesOut.next ?_
  repeat' first
    | with_reducible assumption | exact Part.sub_trans rfl hl | with_reducible apply advance_moves
    | with_reducible apply recordTime_moves | with_reducible apply Moves.onAon
    | with_reducible apply raise_moves | with_reducible apply Moves.onPwr
    | with_reducible apply stopTests_moves | with_reducible apply asleep_moves | with_reducible apply Moves.ite

theorem execSleepEnableDeassert_moves {pl : List Part} {z : State} (t : Nat) {s : State}
    (hz : Moves pl z s)
    (hl : Part.sub [.clock, .seq, .pwr, .out] pl = true := by first | rfl | exact Part.sub_trans rfl (by assumption)) :
    MovesOut pl z (execSleepEnableDeassert t s) := by
  unfold execSleepEnableDeassert
  try dsimp only
  try with_reducible refine MovesOut.next ?_
  repeat' first
    | with_reducible assumption | exact Part.sub_trans rfl hl | with_reducible apply advance_moves
    | with_reducible apply Moves.onSeq | with_reducible apply dropEnables_moves
    | with_reducible apply Moves.onPwr | with_reducible apply Moves.ite

theorem execSleepAbandoned_moves {pl : List Part} {z : State} (t : Nat) (mech : Option Nat) {s : State}
    (hz : Moves pl z s)
    (hl : Part.sub [.clock, .mode, .halWaitMs, .aon, .pins, .start, .cal, .flash, .host, .evt, .saf, .ctl, .pwr, .xpt, .cue, .red, .eth, .tim, .lane, .flow, .fst, .cmp, .aud, .out, .image] pl = true := by first | rfl | exact Part.sub_trans rfl (by assumption)) :
    MovesOut pl z (execSleepAbandoned t mech s) := by
  unfold execSleepAbandoned
  try dsimp only
  try with_reducible refine MovesOut.next ?_
  repeat' first
    | with_reducible assumption | exact Part.sub_trans rfl hl | with_reducible apply advance_moves
    | with_reducible apply reaction_moves | with_reducible apply takeT1Start_moves
    | with_reducible apply Moves.ite
    | (split <;> try dsimp only)

theorem execWakeNLow_moves {pl : List Part} {z : State} (t : Nat) (low : Bool) {s : State}
    (hz : Moves pl z s)
    (hl : Part.sub [.clock, .aon, .pins, .pwr] pl = true := by first | rfl | exact Part.sub_trans rfl (by assumption)) :
    MovesOut pl z (execWakeNLow t low s) := by
  unfold execWakeNLow
  try dsimp only
  try with_reducible refine MovesOut.next ?_
  repeat' first
    | with_reducible assumption | exact Part.sub_trans rfl hl | with_reducible apply Moves.onPins
    | with_reducible apply advance_moves | with_reducible apply wakeSource_moves
    | with_reducible apply Moves.ite

theorem execWakeAlarm_moves {pl : List Part} {z : State} (t : Nat) {s : State}
    (hz : Moves pl z s)
    (hl : Part.sub [.clock, .aon, .pwr] pl = true := by first | rfl | exact Part.sub_trans rfl (by assumption)) :
    MovesOut pl z (execWakeAlarm t s) := by
  unfold execWakeAlarm
  try dsimp only
  try with_reducible refine MovesOut.next ?_
  repeat' first
    | with_reducible assumption | exact Part.sub_trans rfl hl | with_reducible apply advance_moves
    | with_reducible apply wakeSource_moves | with_reducible apply Moves.ite

theorem execWakeStart_moves {pl : List Part} {z : State} (t : Nat) {s : State}
    (hz : Moves pl z s)
    (hl : Part.sub [.clock, .mode, .halWaitMs, .seq, .aon, .pins, .start, .cal, .flash, .host, .evt, .saf, .ctl, .pwr, .xpt, .cue, .red, .eth, .tim, .lane, .flow, .fst, .cmp, .aud, .out, .image] pl = true := by first | rfl | exact Part.sub_trans rfl (by assumption)) :
    MovesOut pl z (execWakeStart t s) := by
  unfold execWakeStart
  try dsimp only
  try with_reducible refine MovesOut.next ?_
  repeat' first
    | with_reducible assumption | exact Part.sub_trans rfl hl | with_reducible apply advance_moves
    | with_reducible apply noteWake_moves | with_reducible apply Moves.onPwr
    | with_reducible apply startSequence_moves | with_reducible apply takeT18_moves
    | with_reducible apply Moves.onStart | with_reducible apply Moves.ite
    | (split <;> try dsimp only)

theorem execS1Exit_moves {pl : List Part} {z : State} (t : Nat) {s : State}
    (hz : Moves pl z s)
    (hl : Part.sub [.clock, .mode, .aon, .pins, .start, .flash, .host, .evt, .pwr, .xpt, .cue, .red, .lane, .flow, .cmp, .aud, .out] pl = true := by first | rfl | exact Part.sub_trans rfl (by assumption)) :
    MovesOut pl z (execS1Exit t s) := by
  unfold execS1Exit
  try dsimp only
  try with_reducible refine MovesOut.next ?_
  repeat' first
    | with_reducible assumption | exact Part.sub_trans rfl hl | with_reducible apply advance_moves
    | with_reducible apply noteWake_moves | with_reducible apply modeDecision_moves
    | with_reducible apply restartSources_moves | with_reducible apply Moves.onPwr
    | with_reducible apply Moves.ite

theorem execAonXtalLost_moves {pl : List Part} {z : State} (t : Nat) {s : State}
    (hz : Moves pl z s)
    (hl : Part.sub [.clock, .aon, .flash, .evt] pl = true := by first | rfl | exact Part.sub_trans rfl (by assumption)) :
    MovesOut pl z (execAonXtalLost t s) := by
  unfold execAonXtalLost
  try dsimp only
  try with_reducible refine MovesOut.next ?_
  repeat' first
    | with_reducible assumption | exact Part.sub_trans rfl hl | with_reducible apply advance_moves
    | with_reducible apply raise_moves | with_reducible apply Moves.onAon | with_reducible apply Moves.ite

theorem execAonXtalReturn_moves {pl : List Part} {z : State} (t : Nat) {s : State}
    (hz : Moves pl z s)
    (hl : Part.sub [.clock, .aon] pl = true := by first | rfl | exact Part.sub_trans rfl (by assumption)) :
    MovesOut pl z (execAonXtalReturn t s) := by
  unfold execAonXtalReturn
  try dsimp only
  try with_reducible refine MovesOut.next ?_
  repeat' first
    | with_reducible assumption | exact Part.sub_trans rfl hl | with_reducible apply Moves.onAon
    | with_reducible apply advance_moves

theorem execWakeScrubDone_moves {pl : List Part} {z : State} (t : Nat) (canaries : List Nat) (descs : List Nat) (scrubbed : List Nat) (ms : Nat) {s : State}
    (hz : Moves pl z s)
    (hl : Part.sub [.clock, .mode, .aon, .pins, .start, .cal, .flash, .host, .evt, .pwr, .xpt, .cue, .red, .lane, .flow, .fst, .cmp, .aud, .out, .image] pl = true := by first | rfl | exact Part.sub_trans rfl (by assumption)) :
    MovesOut pl z (execWakeScrubDone t canaries descs scrubbed ms s) := by
  unfold execWakeScrubDone
  try dsimp only
  try with_reducible refine MovesOut.next ?_
  repeat' first
    | with_reducible assumption | exact Part.sub_trans rfl hl | with_reducible apply advance_moves
    | with_reducible apply loseSlice_moves | with_reducible apply freeUnretained_moves
    | with_reducible apply loseBank_moves | with_reducible apply raise_moves | with_reducible apply Moves.onAon
    | (with_reducible refine Moves.onFstMem ?_ _ (fun _ => rfl) ?_) | with_reducible apply calProgress_moves
    | with_reducible apply Moves.onCal | with_reducible apply Moves.ite
    | (with_reducible apply Moves.foldl; intro _ _ _)
    | (with_reducible apply Moves.setImage
       first
          | with_reducible assumption | exact Part.sub_trans rfl hl | with_reducible apply advance_moves
          | with_reducible apply loseSlice_moves | with_reducible apply freeUnretained_moves
          | with_reducible apply loseBank_moves | with_reducible apply raise_moves
          | with_reducible apply Moves.onAon | (with_reducible refine Moves.onFstMem ?_ _ (fun _ => rfl) ?_)
          | with_reducible apply calProgress_moves | with_reducible apply Moves.onCal
          | with_reducible apply Moves.ite | (with_reducible apply Moves.foldl; intro _ _ _)
          | (split <;> dsimp only))
    | (split <;> try dsimp only)

theorem execStateImageRestore_moves {pl : List Part} {z : State} (t : Nat) {s : State}
    (hz : Moves pl z s)
    (hl : Part.sub [.clock, .mode, .halWaitMs, .aon, .pins, .start, .cal, .flash, .host, .evt, .saf, .ctl, .pwr, .xpt, .cue, .red, .eth, .tim, .lane, .flow, .fst, .cmp, .aud, .out, .image] pl = true := by first | rfl | exact Part.sub_trans rfl (by assumption)) :
    MovesOut pl z (execStateImageRestore t s) := by
  unfold execStateImageRestore
  try dsimp only
  try with_reducible refine MovesOut.next ?_
  repeat' first
    | with_reducible assumption | exact Part.sub_trans rfl hl | with_reducible apply advance_moves
    | with_reducible apply calProgress_moves | with_reducible apply Moves.onCal
    | with_reducible apply applyImage_moves | with_reducible apply Moves.ite
    | (with_reducible apply Moves.setImage
       first
          | with_reducible assumption | exact Part.sub_trans rfl hl | with_reducible apply advance_moves
          | with_reducible apply calProgress_moves | with_reducible apply Moves.onCal
          | with_reducible apply applyImage_moves | with_reducible apply Moves.ite | (split <;> dsimp only))
    | (split <;> try dsimp only)

end Sys2Proof.Machine
end

