-- ==== Sys2Proof/Laws/MovesRecorder.lean ====
section
/-! SUPPORT. What each operation and command of `Machine/Recorder.lean` moves. -/

-- The package is checked as one text; elaborating these proofs in order keeps the number of threads small.
set_option Elab.async false

namespace Sys2Proof.Machine

theorem reportLost_moves {pl : List Part} {z : State} {s : State}
    (hz : Moves pl z s)
    (hl : Part.sub [.flash, .evt] pl = true := by first | rfl | exact Part.sub_trans rfl (by assumption)) :
    Moves pl z (reportLost s) := by
  unfold reportLost
  exact .ite hz (raise_moves _ _ _ _ _ (hz.onEvtSame _ (fun _ => rfl)))

theorem effEvtRead_moves {pl : List Part} {z : State} {s : State} (c : HostCmd)
    (hz : Moves pl z s)
    (hl : Part.sub [.evt] pl = true := by first | rfl | exact Part.sub_trans rfl (by assumption)) :
    Moves pl z (effEvtRead s c).1 := by
  unfold effEvtRead
  try dsimp only
  repeat' first
    | with_reducible assumption | exact Part.sub_trans rfl hl
    | with_reducible refine Moves.onEvtSame ?_ _ (fun _ => rfl) ?_
    | (with_reducible apply Moves.foldl; intro _ _ _)

theorem effEvtInfo_moves {pl : List Part} {z : State} {s : State} (c : HostCmd)
    (hz : Moves pl z s) :
    Moves pl z (effEvtInfo s c).1 := by
  unfold effEvtInfo
  try dsimp only
  repeat' first
    | with_reducible assumption | exact Part.sub_trans rfl hl

theorem effEvtRateSet_moves {pl : List Part} {z : State} {s : State} (c : HostCmd)
    (hz : Moves pl z s)
    (hl : Part.sub [.evt] pl = true := by first | rfl | exact Part.sub_trans rfl (by assumption)) :
    Moves pl z (effEvtRateSet s c).1 := by
  unfold effEvtRateSet
  try dsimp only
  repeat' first
    | with_reducible assumption | exact Part.sub_trans rfl hl
    | with_reducible refine Moves.onEvtSame ?_ _ (fun _ => rfl) ?_

theorem putWords_pending (pos k : Nat) (ws : List Word) (r : Recorder) : (putWords pos k ws r).pending = r.pending := by
  induction ws generalizing k r with
  | nil => rfl
  | cons w ws ih => exact (ih _ _).trans rfl

theorem placeRecord_pending (ws : List Word) (fails : List Nat) (r : Recorder) :
    (placeRecord ws fails r).pending = r.pending := by
  unfold placeRecord
  dsimp only
  split
  · exact putWords_pending _ _ _ _
  · exact putWords_pending _ _ _ _

theorem execEventRecordWrite_moves {pl : List Part} {z : State} (t : Nat) (fails : List Nat) {s : State}
    (hz : Moves pl z s)
    (hl : Part.sub [.clock, .flash, .evt] pl = true := by first | rfl | exact Part.sub_trans rfl (by assumption)) : MovesOut pl z (execEventRecordWrite t fails s) := by
  unfold execEventRecordWrite
  refine MovesOut.next ?_
  have h0 := advance_moves t hz
  generalize advance t s = x at h0
  dsimp only
  split
  · exact h0
  · rename_i e rest hp
    refine reportLost_moves ?_
    have h1 : Moves pl z (onEvt (fun r => { r with pending := rest }) x) := h0.onEvt _ (fun hf => by
      simp only [Recorder.fits, hp, List.length_cons, decide_eq_true_eq] at hf ⊢
      omega)
    refine .ite (h1.onEvtSame _ (fun _ => rfl)) (h1.onEvt _ (fun hf => ?_))
    rw [Recorder.fits, placeRecord_pending]
    exact hf

theorem execEvtRead_moves {pl : List Part} {z : State} (t : Nat) (c : HostCmd) {s : State}
    (hz : Moves pl z s)
    (hl : Part.sub [.clock, .flash, .host, .evt, .red, .out] pl = true := by first | rfl | exact Part.sub_trans rfl (by assumption)) :
    MovesOut pl z (execEvtRead t c s) := by
  exact runCommand_moves _ _ _ _ _ hz (fun _ h => effEvtRead_moves _ h)

theorem execEvtInfo_moves {pl : List Part} {z : State} (t : Nat) (c : HostCmd) {s : State}
    (hz : Moves pl z s)
    (hl : Part.sub [.clock, .flash, .host, .evt, .red, .out] pl = true := by first | rfl | exact Part.sub_trans rfl (by assumption)) :
    MovesOut pl z (execEvtInfo t c s) := by
  exact runCommand_moves _ _ _ _ _ hz (fun _ h => effEvtInfo_moves _ h)

theorem execEvtRateSet_moves {pl : List Part} {z : State} (t : Nat) (c : HostCmd) {s : State}
    (hz : Moves pl z s)
    (hl : Part.sub [.clock, .flash, .host, .evt, .red, .out] pl = true := by first | rfl | exact Part.sub_trans rfl (by assumption)) :
    MovesOut pl z (execEvtRateSet t c s) := by
  exact runCommand_moves _ _ _ _ _ hz (fun _ h => effEvtRateSet_moves _ h)

end Sys2Proof.Machine
end

