-- ==== Sys2Proof/Laws/MovesRegs.lean ====
section
/-! SUPPORT. What each operation and command of `Machine/Regs.lean` moves. -/

-- The package is checked as one text; elaborating these proofs in order keeps the number of threads small.
set_option Elab.async false

namespace Sys2Proof.Machine

theorem readEffect_moves {pl : List Part} {z : State} (m : Nat) (r : RegName) (i : Nat) (j : Nat) {s : State}
    (hz : Moves pl z s)
    (hl : Part.sub [.evt, .eth, .tim] pl = true := by first | rfl | exact Part.sub_trans rfl (by assumption)) :
    Moves pl z (readEffect m r i j s) := by
  unfold readEffect
  try dsimp only
  repeat' first
    | with_reducible assumption | exact Part.sub_trans rfl hl | with_reducible apply readEthLow_moves
    | with_reducible apply readNowNs_moves | with_reducible refine Moves.onEvtSame ?_ _ (fun _ => rfl) ?_
    | with_reducible apply Moves.ite
    | (split <;> try dsimp only)

theorem readReg_moves {pl : List Part} {z : State} (m : Nat) (a : Nat) {s : State}
    (hz : Moves pl z s)
    (hl : Part.sub [.evt, .ctl, .eth, .tim, .free] pl = true := by first | rfl | exact Part.sub_trans rfl (by assumption)) :
    Moves pl z (readReg m a s).2.2 := by
  rw [readReg]
  cases decodeReg s a with
  | none => exact busCount_moves _ _ hz
  | some x =>
    obtain ⟨r, i, j⟩ := x
    dsimp only
    generalize regBlock r i = o
    cases o with
    | none => exact readEffect_moves _ _ _ _ hz
    | some b =>
      dsimp only
      split
      · exact (busCount_moves 1 1 hz).setFree _ (Nat.le_succ _)
      · exact readEffect_moves _ _ _ _ hz

theorem writeHostCfg_moves {pl : List Part} {z : State} (v : Nat) {s : State}
    (hz : Moves pl z s)
    (hl : Part.sub [.aon] pl = true := by first | rfl | exact Part.sub_trans rfl (by assumption)) :
    Moves pl z (writeHostCfg v s) := by
  unfold writeHostCfg
  try dsimp only
  repeat' first
    | with_reducible assumption | exact Part.sub_trans rfl hl | with_reducible apply Moves.onAon
    | with_reducible apply Moves.ite

theorem writeGroupV4_moves {pl : List Part} {z : State} (v : Nat) {s : State}
    (hz : Moves pl z s)
    (hl : Part.sub [.aon] pl = true := by first | rfl | exact Part.sub_trans rfl (by assumption)) :
    Moves pl z (writeGroupV4 v s) := by
  unfold writeGroupV4
  try dsimp only
  repeat' first
    | with_reducible assumption | exact Part.sub_trans rfl hl | with_reducible apply Moves.onAon
    | with_reducible apply Moves.ite

theorem writeHalWait_moves {pl : List Part} {z : State} (v : Nat) {s : State}
    (hz : Moves pl z s)
    (hl : Part.sub [.halWaitMs] pl = true := by first | rfl | exact Part.sub_trans rfl (by assumption)) :
    Moves pl z (writeHalWait v s) := by
  unfold writeHalWait
  try dsimp only
  repeat' first
    | with_reducible assumption | exact Part.sub_trans rfl hl
    | (with_reducible apply Moves.setHalWaitMs
       first
          | with_reducible assumption | exact Part.sub_trans rfl hl)

theorem writeStartCfg_moves {pl : List Part} {z : State} (v : Nat) {s : State}
    (hz : Moves pl z s)
    (hl : Part.sub [.aon] pl = true := by first | rfl | exact Part.sub_trans rfl (by assumption)) :
    Moves pl z (writeStartCfg v s) := by
  unfold writeStartCfg
  try dsimp only
  repeat' first
    | with_reducible assumption | exact Part.sub_trans rfl hl | with_reducible apply Moves.onAon

theorem writeEffect_moves {pl : List Part} {z : State} (r : RegName) (i : Nat) (v : Nat) {s : State}
    (hz : Moves pl z s)
    (hl : Part.sub [.halWaitMs, .aon, .flash, .evt, .saf, .ctl, .xpt, .cue, .red, .tim, .lane, .flow, .fst, .cmp, .aud] pl = true := by first | rfl | exact Part.sub_trans rfl (by assumption)) :
    Moves pl z (writeEffect r i v s) := by
  unfold writeEffect
  try dsimp only
  repeat' first
    | with_reducible assumption | exact Part.sub_trans rfl hl | with_reducible apply writeHalWait_moves
    | with_reducible apply writeHostCfg_moves | with_reducible apply writeGroupV4_moves
    | with_reducible apply writeStartCfg_moves | with_reducible apply writeRxCfg_moves
    | with_reducible apply writeTxCfg_moves | with_reducible apply writeTxTag_moves
    | with_reducible apply writeSrcCfg_moves | with_reducible apply writeFlowTp_moves
    | with_reducible apply writeTakeCtl_moves | with_reducible apply writeCueCfg_moves
    | with_reducible apply writeSchedCfg_moves | with_reducible apply writeScrubCfg_moves
    | with_reducible apply writeProtCfg_moves | with_reducible apply writeAudCfg_moves
    | with_reducible apply writeTimCfg_moves | with_reducible apply writeRedCfg_moves
    | with_reducible apply writeRedLeaseCfg_moves | with_reducible apply writeSafCfg_moves
    | with_reducible apply writeCompatCfg_moves
    | (split <;> try dsimp only)

theorem writeReg_moves {pl : List Part} {z : State} (a : Nat) (v : Nat) {s : State}
    (hz : Moves pl z s)
    (hl : Part.sub [.halWaitMs, .aon, .flash, .evt, .saf, .ctl, .xpt, .cue, .red, .tim, .lane, .flow, .fst, .cmp, .aud] pl = true := by first | rfl | exact Part.sub_trans rfl (by assumption)) :
    Moves pl z (writeReg a v s).2 := by
  unfold writeReg
  try dsimp only
  repeat' first
    | with_reducible assumption | exact Part.sub_trans rfl hl | with_reducible apply busCount_moves
    | with_reducible apply writeEffect_moves | with_reducible apply Moves.ite
    | with_reducible apply Moves.ite_snd
    | (split <;> try dsimp only)

theorem effRegRead_moves {pl : List Part} {z : State} {s : State} (c : HostCmd)
    (hz : Moves pl z s)
    (hl : Part.sub [.evt, .ctl, .eth, .tim, .free] pl = true := by first | rfl | exact Part.sub_trans rfl (by assumption)) :
    Moves pl z (effRegRead s c).1 := by
  unfold effRegRead
  try dsimp only
  repeat' first
    | with_reducible assumption | exact Part.sub_trans rfl hl | with_reducible apply readReg_moves

theorem effRegWrite_moves {pl : List Part} {z : State} {s : State} (c : HostCmd)
    (hz : Moves pl z s)
    (hl : Part.sub [.halWaitMs, .aon, .flash, .evt, .saf, .ctl, .xpt, .cue, .red, .tim, .lane, .flow, .fst, .cmp, .aud] pl = true := by first | rfl | exact Part.sub_trans rfl (by assumption)) :
    Moves pl z (effRegWrite s c).1 := by
  unfold effRegWrite
  try dsimp only
  repeat' first
    | with_reducible assumption | exact Part.sub_trans rfl hl | with_reducible apply writeReg_moves

theorem effRegRmw_moves {pl : List Part} {z : State} {s : State} (c : HostCmd)
    (hz : Moves pl z s)
    (hl : Part.sub [.halWaitMs, .aon, .flash, .evt, .saf, .ctl, .xpt, .cue, .red, .eth, .tim, .lane, .flow, .fst, .cmp, .aud, .free] pl = true := by first | rfl | exact Part.sub_trans rfl (by assumption)) :
    Moves pl z (effRegRmw s c).1 := by
  unfold effRegRmw
  try dsimp only
  repeat' first
    | with_reducible assumption | exact Part.sub_trans rfl hl | with_reducible apply readReg_moves
    | with_reducible apply writeReg_moves | with_reducible apply Moves.ite | with_reducible apply Moves.ite_fst

theorem readBlock_moves {pl : List Part} {z : State} (as : List Nat) {s : State} (hz : Moves pl z s)
    (hl : Part.sub [.evt, .ctl, .eth, .tim, .free] pl = true := by first | rfl | exact Part.sub_trans rfl (by assumption)) : Moves pl z (readBlock as s).st := by
  have key : ∀ (l : List Nat) (b : BlockRun), Moves pl z b.st → Moves pl z
      (l.foldl (fun b a => let r := readReg 0 a b.st; b.word r.1 r.2.1 r.2.2) b).st := by
    intro l
    induction l with
    | nil => intro b hb; exact hb
    | cons a l ih => intro b hb; exact ih _ (readReg_moves 0 a hb)
  exact key as _ hz

theorem effRegReadBlock_moves {pl : List Part} {z : State} {s : State} (c : HostCmd) (hz : Moves pl z s)
    (hl : Part.sub [.evt, .ctl, .eth, .tim, .free] pl = true := by first | rfl | exact Part.sub_trans rfl (by assumption)) :
    Moves pl z (effRegReadBlock s c).1 := readBlock_moves _ hz

theorem writeBlock_moves {pl : List Part} {z : State} (ws : List (Nat × Nat)) {s : State} (hz : Moves pl z s)
    (hl : Part.sub [.halWaitMs, .aon, .flash, .evt, .saf, .ctl, .xpt, .cue, .red, .tim, .lane, .flow, .fst, .cmp, .aud] pl = true := by first | rfl | exact Part.sub_trans rfl (by assumption)) :
    Moves pl z (writeBlock ws s).st := by
  have key : ∀ (l : List (Nat × Nat)) (b : BlockRun), Moves pl z b.st → Moves pl z
      (l.foldl (fun b x => let r := writeReg x.1 x.2 b.st; b.word 0#32 r.1 r.2) b).st := by
    intro l
    induction l with
    | nil => intro b hb; exact hb
    | cons a l ih => intro b hb; exact ih _ (writeReg_moves _ _ hb)
  exact key ws _ hz

theorem effRegWriteBlock_moves {pl : List Part} {z : State} {s : State} (c : HostCmd) (hz : Moves pl z s)
    (hl : Part.sub [.halWaitMs, .aon, .flash, .evt, .saf, .ctl, .xpt, .cue, .red, .tim, .lane, .flow, .fst, .cmp, .aud] pl = true := by first | rfl | exact Part.sub_trans rfl (by assumption)) :
    Moves pl z (effRegWriteBlock s c).1 := writeBlock_moves _ hz

theorem execRegRead_moves {pl : List Part} {z : State} (t : Nat) (c : HostCmd) {s : State}
    (hz : Moves pl z s)
    (hl : Part.sub [.clock, .flash, .host, .evt, .ctl, .red, .eth, .tim, .out, .free] pl = true := by first | rfl | exact Part.sub_trans rfl (by assumption)) :
    MovesOut pl z (execRegRead t c s) := by
  exact runCommand_moves _ _ _ _ _ hz (fun _ h => effRegRead_moves _ h)

theorem execRegWrite_moves {pl : List Part} {z : State} (t : Nat) (c : HostCmd) {s : State}
    (hz : Moves pl z s)
    (hl : Part.sub [.clock, .halWaitMs, .aon, .flash, .host, .evt, .saf, .ctl, .xpt, .cue, .red, .tim, .lane, .flow, .fst, .cmp, .aud, .out] pl = true := by first | rfl | exact Part.sub_trans rfl (by assumption)) :
    MovesOut pl z (execRegWrite t c s) := by
  exact runCommand_moves _ _ _ _ _ hz (fun _ h => effRegWrite_moves _ h)

theorem execRegRmw_moves {pl : List Part} {z : State} (t : Nat) (c : HostCmd) {s : State}
    (hz : Moves pl z s)
    (hl : Part.sub [.clock, .halWaitMs, .aon, .flash, .host, .evt, .saf, .ctl, .xpt, .cue, .red, .eth, .tim, .lane, .flow, .fst, .cmp, .aud, .out, .free] pl = true := by first | rfl | exact Part.sub_trans rfl (by assumption)) :
    MovesOut pl z (execRegRmw t c s) := by
  exact runCommand_moves _ _ _ _ _ hz (fun _ h => effRegRmw_moves _ h)

theorem execRegReadBlock_moves {pl : List Part} {z : State} (t : Nat) (c : HostCmd) {s : State}
    (hz : Moves pl z s)
    (hl : Part.sub [.clock, .flash, .host, .evt, .ctl, .red, .eth, .tim, .out, .free] pl = true := by first | rfl | exact Part.sub_trans rfl (by assumption)) :
    MovesOut pl z (execRegReadBlock t c s) := by
  exact runCommand_moves _ _ _ _ _ hz (fun _ h => effRegReadBlock_moves _ h)

theorem execRegWriteBlock_moves {pl : List Part} {z : State} (t : Nat) (c : HostCmd) {s : State}
    (hz : Moves pl z s)
    (hl : Part.sub [.clock, .halWaitMs, .aon, .flash, .host, .evt, .saf, .ctl, .xpt, .cue, .red, .tim, .lane, .flow, .fst, .cmp, .aud, .out] pl = true := by first | rfl | exact Part.sub_trans rfl (by assumption)) :
    MovesOut pl z (execRegWriteBlock t c s) := by
  exact runCommand_moves _ _ _ _ _ hz (fun _ h => effRegWriteBlock_moves _ h)

theorem execRegisterWrite_moves {pl : List Part} {z : State} (t : Nat) (addr : Nat) (value : Nat) {s : State}
    (hz : Moves pl z s)
    (hl : Part.sub [.clock, .halWaitMs, .aon, .flash, .evt, .saf, .ctl, .xpt, .cue, .red, .tim, .lane, .flow, .fst, .cmp, .aud] pl = true := by first | rfl | exact Part.sub_trans rfl (by assumption)) :
    MovesOut pl z (execRegisterWrite t addr value s) := by
  unfold execRegisterWrite
  try dsimp only
  try with_reducible refine MovesOut.next ?_
  repeat' first
    | with_reducible assumption | exact Part.sub_trans rfl hl | with_reducible apply writeReg_moves
    | with_reducible apply advance_moves

theorem execLaneRxEnableWrite_moves {pl : List Part} {z : State} (t : Nat) (lane : Nat) (value : Nat) {s : State}
    (hz : Moves pl z s)
    (hl : Part.sub [.clock, .flash, .evt, .lane, .flow] pl = true := by first | rfl | exact Part.sub_trans rfl (by assumption)) :
    MovesOut pl z (execLaneRxEnableWrite t lane value s) := by
  unfold execLaneRxEnableWrite
  try dsimp only
  refine MovesOut.fault ?_
  try with_reducible refine MovesOut.next ?_
  repeat' first
    | with_reducible assumption | exact Part.sub_trans rfl hl | with_reducible apply writeRxCfg_moves
    | with_reducible apply advance_moves | with_reducible apply Moves.ite

theorem execCtleCodeWrite_moves {pl : List Part} {z : State} (t : Nat) (lane : Nat) (code : Nat) (auto : Bool) {s : State}
    (hz : Moves pl z s)
    (hl : Part.sub [.clock, .flash, .evt, .lane, .flow] pl = true := by first | rfl | exact Part.sub_trans rfl (by assumption)) :
    MovesOut pl z (execCtleCodeWrite t lane code auto s) := by
  unfold execCtleCodeWrite
  try dsimp only
  refine MovesOut.fault ?_
  try with_reducible refine MovesOut.next ?_
  repeat' first
    | with_reducible assumption | exact Part.sub_trans rfl hl | with_reducible apply advance_moves
    | with_reducible apply writeRxCfg_moves | with_reducible apply Moves.ite

theorem execLaneTxEnableWrite_moves {pl : List Part} {z : State} (t : Nat) (lane : Nat) (value : Nat) {s : State}
    (hz : Moves pl z s)
    (hl : Part.sub [.clock, .lane] pl = true := by first | rfl | exact Part.sub_trans rfl (by assumption)) :
    MovesOut pl z (execLaneTxEnableWrite t lane value s) := by
  unfold execLaneTxEnableWrite
  try dsimp only
  refine MovesOut.fault ?_
  try with_reducible refine MovesOut.next ?_
  repeat' first
    | with_reducible assumption | exact Part.sub_trans rfl hl | with_reducible apply writeTxCfg_moves
    | with_reducible apply advance_moves | with_reducible apply Moves.ite

theorem execCompatWindowRead_moves {pl : List Part} {z : State} (t : Nat) (addr : Nat) {s : State}
    (hz : Moves pl z s)
    (hl : Part.sub [.clock, .evt, .ctl, .eth, .tim, .out, .free] pl = true := by first | rfl | exact Part.sub_trans rfl (by assumption)) :
    MovesOut pl z (execCompatWindowRead t addr s) := by
  unfold execCompatWindowRead
  try dsimp only
  try with_reducible refine MovesOut.next ?_
  repeat' first
    | with_reducible assumption | exact Part.sub_trans rfl hl | with_reducible apply advance_moves
    | with_reducible apply readReg_moves | with_reducible apply emit_moves

end Sys2Proof.Machine
end

