-- ==== Sys2Proof/Laws/MovesFollow.lean ====
section
/-! SUPPORT. What each operation and command of `Machine/Follow.lean` moves. -/

-- The package is checked as one text; elaborating these proofs in order keeps the number of threads small.
set_option Elab.async false

namespace Sys2Proof.Machine

theorem followerDiverges_moves {pl : List Part} {z : State} (cause : Nat) (index : Nat) (seq : Nat) {s : State}
    (hz : Moves pl z s)
    (hl : Part.sub [.mode, .aon, .pins, .start, .flash, .host, .evt, .pwr, .xpt, .cue, .red, .lane, .flow, .cmp, .aud, .out] pl = true := by first | rfl | exact Part.sub_trans rfl (by assumption)) :
    Moves pl z (followerDiverges cause index seq s) := by
  unfold followerDiverges
  try dsimp only
  repeat' first
    | with_reducible assumption | exact Part.sub_trans rfl hl | with_reducible apply divergeOut_moves
    | with_reducible apply pairDiverge_moves

theorem inStepEffect_moves {pl : List Part} {z : State} {op : Op} {eff : Effect} (he : inStepEffect op = some eff) (c : HostCmd)
    (x : State) (hx : Moves pl z x)
    (hl : Part.sub [.clock, .mode, .halWaitMs, .aon, .pins, .start, .flash, .host, .evt, .saf, .ctl, .pwr, .xpt, .cue, .red, .eth, .tim, .lane, .flow, .fst, .cmp, .aud, .out, .free] pl = true := by first | rfl | exact Part.sub_trans rfl (by assumption)) : Moves pl z (eff x c).1 := by
  have key : inStepEffect op = none ∨ (Moves pl z (((inStepEffect op).getD eff) x c).1) := by
    cases op
    case regWrite => exact .inr (effRegWrite_moves c hx)
    case regRmw => exact .inr (effRegRmw_moves c hx)
    case regWriteBlock => exact .inr (effRegWriteBlock_moves c hx)
    case flowSrcDefine => exact .inr (effFlowSrcDefine_moves c hx)
    case flowDstDefine => exact .inr (effFlowDstDefine_moves c hx)
    case flowDelete => exact .inr (effFlowDelete_moves c hx)
    case flowGroupSet => exact .inr (effFlowGroupSet_moves c hx)
    case flowParkSet => exact .inr (effFlowParkSet_moves c hx)
    case xptTake => exact .inr (effXptTake_moves c hx)
    case xptTakeBatch => exact .inr (effXptTakeBatch_moves c hx)
    case xptTakeAt => exact .inr (effXptTakeAt_moves c hx)
    case xptQueueCancel => exact .inr (effXptQueueCancel_moves c hx)
    case xptLock => exact .inr (effXptLock_moves c hx)
    case xptUnlock => exact .inr (effXptUnlock_moves c hx)
    case xptTpSet => exact .inr (effXptTpSet_moves c hx)
    case cueLoad => exact .inr (effCueLoad_moves c hx)
    case cueRun => exact .inr (effCueRun_moves c hx)
    case cueAbort => exact .inr (effCueAbort_moves c hx)
    case cueUnload => exact .inr (effCueUnload_moves c hx)
    case fstZoneSet => exact .inr (effFstZoneSet_moves c hx)
    case fstObjWrite => exact .inr (effFstObjWrite_moves c hx)
    case fstObjFree => exact .inr (effFstObjFree_moves c hx)
    case fstInvalidClear => exact .inr (effFstInvalidClear_moves c hx)
    case cmpConfig => exact .inr (effCmpConfig_moves c hx)
    case cmpLayerSet => exact .inr (effCmpLayerSet_moves c hx)
    case cmpCommit => exact .inr (effCmpCommit_moves c hx)
    case cmpLutLoad => exact .inr (effCmpLutLoad_moves c hx)
    case cmpSurfaceLoad => exact .inr (effCmpSurfaceLoad_moves c hx)
    case cmpDisable => exact .inr (effCmpDisable_moves c hx)
    case cmpProtWrite => exact .inr (effCmpProtWrite_moves c hx)
    case cmpProtRectSet => exact .inr (effCmpProtRectSet_moves c hx)
    case cmpProtGoldenSet => exact .inr (effCmpProtGoldenSet_moves c hx)
    case audRoute => exact .inr (effAudRoute_moves c hx)
    case audRouteBatch => exact .inr (effAudRouteBatch_moves c hx)
    case audGain => exact .inr (effAudGain_moves c hx)
    case audFollow => exact .inr (effAudFollow_moves c hx)
    case audPortConfig => exact .inr (effAudPortConfig_moves c hx)
    case audStreamConfig => exact .inr (effAudStreamConfig_moves c hx)
    case timCompareSet => exact .inr (effTimCompareSet_moves c hx)
    case timPulseSet => exact .inr (effTimPulseSet_moves c hx)
    case timRealign => exact .inr (effTimRealign_moves c hx)
    all_goals exact .inl rfl
  rw [he] at key
  exact key.resolve_left (by simp)

theorem runNamed_moves {pl : List Part} {z : State} (h : HeldCmd) {s : State} (hz : Moves pl z s)
    (hl : Part.sub [.clock, .mode, .halWaitMs, .aon, .pins, .start, .flash, .host, .evt, .saf, .ctl, .pwr, .xpt, .cue, .red, .eth, .tim, .lane, .flow, .fst, .cmp, .aud, .out, .free] pl = true := by first | rfl | exact Part.sub_trans rfl (by assumption)) : Moves pl z (runNamed h s) := by
  unfold runNamed
  dsimp only
  refine .onRed ?_ _
  split
  · exact runCommand_moves _ _ _ _ _ (hz.onRed _) (inStepEffect_moves ‹_› _)
  · exact hz.onRed _

theorem replyNamed_moves {pl : List Part} {z : State} (h : HeldCmd) (seq : Nat) {s : State}
    (hz : Moves pl z s)
    (hl : Part.sub [.host, .out] pl = true := by first | rfl | exact Part.sub_trans rfl (by assumption)) :
    Moves pl z (replyNamed h seq s) := by
  unfold replyNamed
  try dsimp only
  repeat' first
    | with_reducible assumption | exact Part.sub_trans rfl hl | with_reducible apply replyTo_moves
    | with_reducible apply Moves.ite
    | (split <;> try dsimp only)

theorem applyCommand_moves {pl : List Part} {z : State} (session : Nat) (seq : Nat) (status : Nat) {s : State}
    (hz : Moves pl z s)
    (hl : Part.sub [.clock, .mode, .halWaitMs, .aon, .pins, .start, .flash, .host, .evt, .saf, .ctl, .pwr, .xpt, .cue, .red, .eth, .tim, .lane, .flow, .fst, .cmp, .aud, .out, .free] pl = true := by first | rfl | exact Part.sub_trans rfl (by assumption)) :
    Moves pl z (applyCommand session seq status s) := by
  unfold applyCommand
  try dsimp only
  repeat' first
    | with_reducible assumption | exact Part.sub_trans rfl hl | with_reducible apply Moves.onRed
    | with_reducible apply followerDiverges_moves | with_reducible apply runNamed_moves
    | with_reducible apply setLastSeq_moves | with_reducible apply replyNamed_moves
    | with_reducible apply Moves.ite
    | (split <;> try dsimp only)

theorem applyGroup_moves {pl : List Part} {z : State} (i : Nat) (word : Nat) (run : Nat) (n : Nat) (loops : List Nat) {s : State}
    (hz : Moves pl z s)
    (hl : Part.sub [.mode, .aon, .pins, .start, .flash, .host, .evt, .pwr, .xpt, .cue, .red, .lane, .flow, .cmp, .aud, .out] pl = true := by first | rfl | exact Part.sub_trans rfl (by assumption)) :
    Moves pl z (applyGroup i word run n loops s) := by
  unfold applyGroup
  try dsimp only
  repeat' first
    | with_reducible assumption | exact Part.sub_trans rfl hl | with_reducible apply followerDiverges_moves
    | with_reducible apply Moves.onRed | with_reducible apply setInst_moves
    | with_reducible apply placeGroup_moves | with_reducible apply executeGroup_moves
    | with_reducible apply Moves.ite
    | (split <;> try dsimp only)

theorem applyStart_moves {pl : List Part} {z : State} (i : Nat) (prog : Nat) (u : Nat) (run : Nat) {s : State}
    (hz : Moves pl z s)
    (hl : Part.sub [.mode, .aon, .pins, .start, .flash, .host, .evt, .pwr, .xpt, .cue, .red, .tim, .lane, .flow, .cmp, .aud, .out] pl = true := by first | rfl | exact Part.sub_trans rfl (by assumption)) :
    Moves pl z (applyStart i prog u run s) := by
  unfold applyStart
  try dsimp only
  repeat' first
    | with_reducible assumption | exact Part.sub_trans rfl hl | with_reducible apply triggerStart_moves
    | with_reducible apply followerDiverges_moves | with_reducible apply Moves.ite
    | (split <;> try dsimp only)

theorem applyReference_moves {pl : List Part} {z : State} (selected : Nat) {s : State}
    (hz : Moves pl z s)
    (hl : Part.sub [.flash, .evt, .red, .tim, .out] pl = true := by first | rfl | exact Part.sub_trans rfl (by assumption)) :
    Moves pl z (applyReference selected s) := by
  unfold applyReference
  try dsimp only
  repeat' first
    | with_reducible assumption | exact Part.sub_trans rfl hl | with_reducible apply houseHoldover_moves
    | with_reducible apply pairDiverge_moves | with_reducible apply switchTo_moves
    | with_reducible apply Moves.ite

theorem applyHandover_moves {pl : List Part} {z : State} (position : Nat) (moves : Nat) {s : State}
    (hz : Moves pl z s)
    (hl : Part.sub [.red] pl = true := by first | rfl | exact Part.sub_trans rfl (by assumption)) :
    Moves pl z (applyHandover position moves s) := by
  unfold applyHandover
  try dsimp only
  repeat' first
    | with_reducible assumption | exact Part.sub_trans rfl hl | with_reducible apply Moves.onRed
    | with_reducible apply Moves.ite

theorem applyItem_moves {pl : List Part} {z : State} (k : Nat) (it : RecItem) {s : State}
    (hz : Moves pl z s)
    (hl : Part.sub [.clock, .mode, .halWaitMs, .aon, .pins, .start, .flash, .host, .evt, .saf, .ctl, .pwr, .xpt, .cue, .red, .eth, .tim, .lane, .flow, .fst, .cmp, .aud, .out, .free] pl = true := by first | rfl | exact Part.sub_trans rfl (by assumption)) :
    Moves pl z (applyItem k it s) := by
  unfold applyItem
  try dsimp only
  repeat' first
    | with_reducible assumption | exact Part.sub_trans rfl hl | with_reducible apply applyCommand_moves
    | with_reducible apply applyGroup_moves | with_reducible apply Moves.onRed
    | with_reducible apply applyStart_moves | with_reducible apply Moves.onXpt
    | with_reducible apply applyReference_moves | with_reducible apply handover_moves
    | with_reducible apply applyHandover_moves
    | (split <;> try dsimp only)

theorem applyRecord_moves {pl : List Part} {z : State} (r : EpochRecord) {s : State}
    (hz : Moves pl z s)
    (hl : Part.sub [.clock, .mode, .halWaitMs, .aon, .pins, .start, .flash, .host, .evt, .saf, .ctl, .pwr, .xpt, .cue, .red, .eth, .tim, .lane, .flow, .fst, .cmp, .aud, .out, .free] pl = true := by first | rfl | exact Part.sub_trans rfl (by assumption)) :
    Moves pl z (applyRecord r s) := by
  unfold applyRecord
  try dsimp only
  repeat' first
    | with_reducible assumption | exact Part.sub_trans rfl hl | with_reducible apply Moves.onRed
    | with_reducible apply applyItem_moves | with_reducible apply cueTick_moves
    | with_reducible apply sealEpoch_moves | with_reducible apply Moves.ite
    | (with_reducible apply Moves.foldl; intro _ _ _)

theorem followRecord_moves {pl : List Part} {z : State} (r : EpochRecord) {s : State}
    (hz : Moves pl z s)
    (hl : Part.sub [.clock, .mode, .halWaitMs, .aon, .pins, .start, .flash, .host, .evt, .saf, .ctl, .pwr, .xpt, .cue, .red, .eth, .tim, .lane, .flow, .fst, .cmp, .aud, .out, .free] pl = true := by first | rfl | exact Part.sub_trans rfl (by assumption)) :
    Moves pl z (followRecord r s) := by
  unfold followRecord
  try dsimp only
  repeat' first
    | with_reducible assumption | exact Part.sub_trans rfl hl | with_reducible apply applyRecord_moves
    | with_reducible apply sendAck_moves | with_reducible apply Moves.ite

theorem drainBuffered_moves {pl : List Part} {z : State} (n : Nat) {s : State} (hz : Moves pl z s)
    (hl : Part.sub [.clock, .mode, .halWaitMs, .aon, .pins, .start, .flash, .host, .evt, .saf, .ctl, .pwr, .xpt, .cue, .red, .eth, .tim, .lane, .flow, .fst, .cmp, .aud, .out, .free] pl = true := by first | rfl | exact Part.sub_trans rfl (by assumption)) : Moves pl z (drainBuffered n s) := by
  induction n generalizing s with
  | zero => exact hz
  | succ n ih =>
    unfold drainBuffered
    split
    · exact hz
    · exact ih (applyRecord_moves _ (hz.onRed _))

theorem joinerCatchesUp_moves {pl : List Part} {z : State} {s : State}
    (hz : Moves pl z s)
    (hl : Part.sub [.clock, .mode, .halWaitMs, .aon, .pins, .start, .flash, .host, .evt, .saf, .ctl, .pwr, .xpt, .cue, .red, .eth, .tim, .lane, .flow, .fst, .cmp, .aud, .out, .free] pl = true := by first | rfl | exact Part.sub_trans rfl (by assumption)) :
    Moves pl z (joinerCatchesUp s) := by
  unfold joinerCatchesUp
  try dsimp only
  repeat' first
    | with_reducible assumption | exact Part.sub_trans rfl hl | with_reducible apply drainBuffered_moves
    | with_reducible apply Moves.onRed | with_reducible apply sendAck_moves
    | with_reducible apply enterInStep_moves | with_reducible apply Moves.ite

theorem joinerRecord_moves {pl : List Part} {z : State} (r : EpochRecord) {s : State}
    (hz : Moves pl z s)
    (hl : Part.sub [.clock, .mode, .halWaitMs, .aon, .pins, .start, .flash, .host, .evt, .saf, .ctl, .pwr, .xpt, .cue, .red, .eth, .tim, .lane, .flow, .fst, .cmp, .aud, .out, .free] pl = true := by first | rfl | exact Part.sub_trans rfl (by assumption)) :
    Moves pl z (joinerRecord r s) := by
  unfold joinerRecord
  try dsimp only
  repeat' first
    | with_reducible assumption | exact Part.sub_trans rfl hl | with_reducible apply Moves.onRed
    | with_reducible apply joinerCatchesUp_moves | with_reducible apply Moves.ite

theorem loadObjects_moves {pl : List Part} {z : State} (objs : Table Obj) {s : State}
    (hz : Moves pl z s)
    (hl : Part.sub [.red, .fst] pl = true := by first | rfl | exact Part.sub_trans rfl (by assumption)) :
    Moves pl z (loadObjects objs s) := by
  unfold loadObjects
  try dsimp only
  repeat' first
    | with_reducible assumption | exact Part.sub_trans rfl hl
    | (with_reducible refine Moves.onFstMem ?_ _ (fun _ => rfl) ?_) | with_reducible apply zoneWriteAt_moves
    | with_reducible apply Moves.onRed | (with_reducible apply Moves.foldl; intro _ _ _)
    | (split <;> try dsimp only)

theorem loadPairState_moves {pl : List Part} {z : State} (p : PairState) {s : State}
    (hz : Moves pl z s)
    (hl : Part.sub [.flash, .evt, .xpt, .cue, .red, .tim, .flow, .fst, .cmp, .aud, .out] pl = true := by first | rfl | exact Part.sub_trans rfl (by assumption)) :
    Moves pl z (loadPairState p s) := by
  unfold loadPairState
  try dsimp only
  repeat' first
    | with_reducible assumption | exact Part.sub_trans rfl hl | with_reducible apply loadObjects_moves
    | (with_reducible refine Moves.onFstMem ?_ _ (fun _ => rfl) ?_) | with_reducible apply Moves.onXpt
    | with_reducible apply Moves.onCue | with_reducible apply adoptFlow_moves
    | with_reducible apply adoptComps_moves | with_reducible apply adoptAudio_moves
    | with_reducible apply Moves.onAud | with_reducible apply Moves.onTim
    | with_reducible apply applyReference_moves | with_reducible apply houseHoldover_moves
    | (split <;> try dsimp only)

theorem execHalyardEpochRecord_moves {pl : List Part} {z : State} (t : Nat) (record : EpochRecord) (bad : Bool) {s : State}
    (hz : Moves pl z s)
    (hl : Part.sub [.clock, .mode, .halWaitMs, .aon, .pins, .start, .flash, .host, .evt, .saf, .ctl, .pwr, .xpt, .cue, .red, .eth, .tim, .lane, .flow, .fst, .cmp, .aud, .out, .free] pl = true := by first | rfl | exact Part.sub_trans rfl (by assumption)) :
    MovesOut pl z (execHalyardEpochRecord t record bad s) := by
  unfold execHalyardEpochRecord
  try dsimp only
  try with_reducible refine MovesOut.next ?_
  repeat' first
    | with_reducible assumption | exact Part.sub_trans rfl hl | with_reducible apply advance_moves
    | with_reducible apply discardMsg_moves | with_reducible apply heardControl_moves
    | with_reducible apply followRecord_moves | with_reducible apply joinerRecord_moves
    | with_reducible apply Moves.ite

theorem execHalyardResyncState_moves {pl : List Part} {z : State} (t : Nat) (part : Nat) (snapshot : Option (Nat × Nat × PairState)) (bad : Bool) {s : State}
    (hz : Moves pl z s)
    (hl : Part.sub [.clock, .mode, .halWaitMs, .aon, .pins, .start, .flash, .host, .evt, .saf, .ctl, .pwr, .xpt, .cue, .red, .eth, .tim, .lane, .flow, .fst, .cmp, .aud, .out, .free] pl = true := by first | rfl | exact Part.sub_trans rfl (by assumption)) :
    MovesOut pl z (execHalyardResyncState t part snapshot bad s) := by
  unfold execHalyardResyncState
  try dsimp only
  try with_reducible refine MovesOut.next ?_
  repeat' first
    | with_reducible assumption | exact Part.sub_trans rfl hl | with_reducible apply advance_moves
    | with_reducible apply askAgain_moves | with_reducible apply discardMsg_moves
    | with_reducible apply loadPairState_moves | with_reducible apply Moves.onRed
    | with_reducible apply joinerCatchesUp_moves | with_reducible apply Moves.ite
    | (split <;> try dsimp only)

end Sys2Proof.Machine
end

