-- ==== Sys2Proof/Laws/Table.lean ====
section
/-! SUPPORT. Sparse tables: what a read gives after a store, and the records that the model keeps in tables. -/

-- The package is checked as one text; elaborating these proofs in order keeps the number of threads small.
set_option Elab.async false

namespace Sys2Proof.Machine

theorem tfind_tset {α : Type} (m : Table α) (n k : Nat) (x : α) :
    tfind (tset m n x) k = if n = k then some x else tfind m k := by
  induction m with
  | nil => simp [tset, tfind]
  | cons p r ih =>
    obtain ⟨a, v⟩ := p
    unfold tset
    split
    · simp [tfind]
    · split
      · rename_i h; subst h; simp only [tfind]; split <;> rfl
      · simp only [tfind, ih]
        split
        · rename_i h; subst h; split
          · rename_i h; exact absurd h.symm (by assumption)
          · rfl
        · rfl

theorem tget_tset {α : Type} (d : α) (m : Table α) (n k : Nat) (x : α) :
    tget d (tset m n x) k = if n = k then x else tget d m k := by
  unfold tget
  rw [tfind_tset]
  split <;> rfl

@[simp] theorem tget_tset_same {α : Type} (d : α) (m : Table α) (n : Nat) (x : α) : tget d (tset m n x) n = x := by
  rw [tget_tset, if_pos rfl]

theorem tget_tset_other {α : Type} (d : α) (m : Table α) {n k : Nat} (x : α) (h : n ≠ k) :
    tget d (tset m n x) k = tget d m k := by rw [tget_tset, if_neg h]

@[simp] theorem tget_tmod_same {α : Type} (d : α) (m : Table α) (n : Nat) (f : α → α) :
    tget d (tmod d m n f) n = f (tget d m n) := tget_tset_same ..

theorem tget_tmod_other {α : Type} (d : α) (m : Table α) {n k : Nat} (f : α → α) (h : n ≠ k) :
    tget d (tmod d m n f) k = tget d m k := tget_tset_other _ _ _ h

@[simp] theorem bump_same (m : Counters) (i : Nat) : tget 0#32 (bump m i) i = tget 0#32 m i + 1#32 := by
  unfold bump bumpBy
  rw [tget_tset_same]
  rfl

theorem bump_other (m : Counters) {i j : Nat} (h : i ≠ j) : tget 0#32 (bump m i) j = tget 0#32 m j :=
  tget_tset_other _ _ _ h

theorem tfind_tdel {α : Type} (m : Table α) (n k : Nat) :
    tfind (tdel m n) k = if n = k then none else tfind m k := by
  induction m with
  | nil => simp [tdel, tfind]
  | cons p r ih =>
    obtain ⟨a, v⟩ := p
    unfold tdel
    split
    · rename_i h; subst h
      rw [ih]
      split
      · rfl
      · rename_i h'; simp [tfind, h']
    · rename_i h
      simp only [tfind, ih]
      split
      · rename_i h'; subst h'; simp [show ¬ n = a from fun e => h e.symm]
      · rfl

end Sys2Proof.Machine
end

