-- ==== Sys2Proof/Tests/Slice0.lean ====
section
/-! SUPPORT. The author's own tests: ill-formed commands are refused, the spec's worked examples, and for every statement of
the obligations a state and operands that meet the premises of each of its clauses. -/

set_option Elab.async false

namespace Sys2Proof.Tests

open Sys2Proof.Machine

/-- Each check of `Instr.objectsExist` and `Instr.operandsFit` refuses a term one past its bound. -/
theorem test_ill_formed_refused_1 :
    ([
      .pgInputAsserted 0 5, .pgInputLow 0 5, .powerFault 0 5, .processorAlive 0 7, .aliveTimeout 0 7,
      .slotEraseDone 0 3, .errorInjection 0 132, .laneRxEnableWrite 0 132 0, .ctleCodeWrite 0 132 0 false,
      .laneTxEnableWrite 0 132 0, .laneSignalLost 0 132, .laneSignalReturn 0 132, .ctleSweepDone 0 132 [],
      .ctleTrack 0 132 0 0 0, .laneBlockReceived 0 132 0 [] 0, .blockLockGained 0 132, .blockLockLost 0 132,
      .berInterval 0 132 0, .rxFifoOverflow 0 132, .pennantReceived 0 132 [], .pennantLockGained 0 132,
      .pennantLockLost 0 132, .pennantTransmit 0 132, .flowSrcCfgWrite 0 1024 0, .flowTpCfgWrite 0 8 0,
      .sourceDeleteLands 0 1024, .destDeleteLands 0 1024, .sourceRedefineLands 0 1024,
      .flowFrameStart 0 1024 1 0 0 0 none false, .flowFrameStart 0 0 0 0 0 0 none false,
      .flowFrameStart 0 0 3 0 0 0 none false, .flowParcel 0 1024 1 0 0 [] false none,
      .flowParcel 0 0 0 0 0 [] false none, .flowParcel 0 0 3 0 0 [] false none, .mergeWindowExpired 0 1024 0,
      .copyLost 0 1024 1, .copyLost 0 0 0, .copyLost 0 0 3, .readOutPoint 0 1024 [], .holdFramesReached 0 1024] : List Instr).all (fun i => !i.wellFormed) = true := by
  decide +kernel

/-- Each check of `Instr.objectsExist` and `Instr.operandsFit` refuses a term one past its bound. -/
theorem test_ill_formed_refused_2 :
    ([
      .switchingLine 0 1024, .destFrameStart 0 1024, .planeWordReceived 0 2688 0 0 0 0,
      .cueGroupExecute 0 64 false, .cueEntriesRetry 0 64, .cueStallExpired 0 64, .waitFramesResume 0 64,
      .waitTimeResume 0 64, .cueTriggerStart 0 32, .cueMark 0 64, .objectLoadTimeout 0 2048,
      .objectReferencerMove 0 2048 0 0, .bankReinit 0 4096 false, .scrubRead 0 128 0 0 0 none,
      .scrubRead 0 0 32 0 0 none, .scrubRead 0 0 0 16384 0 none, .scrubRead 0 0 0 0 32 none,
      .confirmingRead 0 128 0 0 0 none false, .confirmingRead 0 0 32 0 0 none false,
      .confirmingRead 0 0 0 16384 0 none false, .confirmingRead 0 0 0 0 32 none false, .pcReadTimeout 0 128,
      .bankRefresh 0 128 0, .bankRefresh 0 0 32, .stackTemperatureChange 0 4 0, .pageIdleExpired 0 128 0,
      .pageIdleExpired 0 0 32, .selfRefreshEntry 0 128, .writeDrain 0 128 0, .cmpConfigLands 0 64,
      .cmpDisableLands 0 64, .outputFrameStart 0 64 [] [] [], .lutCopyDone 0 64, .cmpProtCfgWrite 0 64 0,
      .signatureReport 0 64 0 0 none none none, .signatureReport 0 0 4 0 none none none,
      .signatureReportMissing 0 64 0 0, .signatureReportMissing 0 0 4 0, .audioChangeLands 0 24608,
      .zeroCrossingTimeout 0 24608] : List Instr).all (fun i => !i.wellFormed) = true := by
  decide +kernel

/-- Each check of `Instr.objectsExist` and `Instr.operandsFit` refuses a term one past its bound. -/
theorem test_ill_formed_refused_3 :
    ([
      .audioParity 0 24608 0, .audioParity 0 0 2, .audioPortRateWindow 0 16 0, .audioPortStop 0 16,
      .audioPortFrame 0 16 0 0 0 0 0 0, .audioStreamLate 0 128, .ethPortCntLowRead 0 2 0 0,
      .ethPortCntLowRead 0 0 24 0, .pcsBlockLock 0 2, .linkUp 0 2, .pcsAlignmentLost 0 2,
      .linkFaultExpired 0 2 false, .preemptVerifyExpired 0 2, .ethFrameReceived 0 2 {}, .pauseExpired 0 2,
      .pauseTxThreshold 0 2 0, .pauseRepeat 0 2, .igmpQueryReceived 0 2 0 0 0, .igmpReportSend 0 512,
      .addressProbe 0 2 0 0 none, .addressProbe 0 0 3 0 none, .mergeRelease 0 512 [], .legLost 0 512 0,
      .legLost 0 0 2, .legRestored 0 512 0, .legRestored 0 0 2, .mediaPacketSend 0 512 0 0 0 false [],
      .mediaPacketSend 0 0 2 0 0 false [], .realignLands 0 false 8, .announceTimeout 0 3, .refEdge 0 4,
      .refAbsent 0 4, .refFrequencyWindow 0 4 0, .refQualify 0 4, .refDisagree 0 4 0 0 0, .refDisagree 0 0 4 0 0,
      .planeFrameStart 0 8 false, .compareFire 0 32, .pulseEdge 0 8 false, .readoutDecision 0 8 0] : List Instr).all (fun i => !i.wellFormed) = true := by
  decide +kernel

/-- Each check of `Instr.objectsExist` and `Instr.operandsFit` refuses a term one past its bound. -/
theorem test_ill_formed_refused_4 :
    ([
      .readoutDecision 0 0 2, .halyardReadout 0 8 0 [] false, .halyardReadout 0 0 2 [] false,
      .halyardSignatures 0 8 0 0 [] [] false, .halyardSignatures 0 0 2 0 [] [] false,
      .signatureWaitExpired 0 8 0 0 [], .signatureWaitExpired 0 0 2 0 [], .halyardProtSig 0 64 0 0 [] false,
      .halyardObjectFill 0 2047 0 [] false, .planePhaseDiverge 0 8, .settlingEnd 0 8, .procStall 0 6,
      .overTemp 0 5 0, .islandClockLost 0 262, .contextParityConfirm 0 4 0, .contextReloadDone 0 1024,
      .blockRestartDone 0 64, .stewardReloadDone 0 4, .privateSramParity 0 7,
      .busTransferResponse 0 7 0 0 false [], .targetTimeout 0 7 0 [], .masterPortReset 0 7 0 [],
      .portRetireDone 0 7, .zeroCrossing 0 24608 0, .gainRampDone 0 24608, .converterSlip 0 24608,
      .realignSlewDone 0 false 8, .refDisagreementEnd 0 4 0, .refDisagreementEnd 0 0 4, .islandClockRestored 0 262,
      .registerWrite 0 4294967296 0, .registerWrite 0 0 4294967296, .laneRxEnableWrite 0 0 4294967296,
      .ctleCodeWrite 0 0 32 false, .laneTxEnableWrite 0 0 4294967296, .flowSrcCfgWrite 0 0 4294967296,
      .flowTpCfgWrite 0 0 4294967296, .cmpProtCfgWrite 0 0 4294967296, .contextParityConfirm 0 0 1024,
      .contextParityConfirm 0 1 64] : List Instr).all (fun i => !i.wellFormed) = true := by
  decide +kernel

/-- Each check of `Instr.objectsExist` and `Instr.operandsFit` refuses a term one past its bound. -/
theorem test_ill_formed_refused_5 :
    ([
      .contextParityConfirm 0 2 4, .contextParityConfirm 0 3 262, .backgroundSramCheck 0 (some 7) none] : List Instr).all (fun i => !i.wellFormed) = true := by
  decide +kernel

/-- Each check of `HostCmd.fits` refuses. -/
theorem test_ill_formed_command_refused :
    ([
      { session := 65536 }, { seq := 4294967296 }, { scope := 4 }, { addr := 16384 }, { port := 2 },
      { srcIp := 2 ^ 128 }, { srcPort := 65536 }, { dstPort := 65536 }] : List HostCmd).all (fun i => !i.fits) = true := by
  decide +kernel

/-- A command with one byte too many for 255 fragments of 8,192 bytes is refused. -/
theorem test_long_command_refused :
    (HostCmd.fits { params := List.replicate (255 * 8192 + 1) 0#8 }) = false := by
  simp only [HostCmd.fits, List.length_replicate]; decide

/-- Each check of `Datagram.fits` refuses. -/
theorem test_ill_formed_datagram_refused :
    ([
      { port := 2 }, { srcIp := 2 ^ 128 }, { srcPort := 65536 }, { dstPort := 65536 }, { dest := 3 }] : List Datagram).all (fun i => !i.fits) = true := by
  decide +kernel

/-- The rows that carry a command packet check its fields. -/
theorem test_command_rows_check_fields_1 :
    ([
      .identify 0 { scope := 4 }, .status 0 { scope := 4 }, .modeSet 0 { scope := 4 }, .reset 0 { scope := 4 },
      .regRead 0 { scope := 4 }, .regWrite 0 { scope := 4 }, .regRmw 0 { scope := 4 },
      .regReadBlock 0 { scope := 4 }, .regWriteBlock 0 { scope := 4 }, .lockConfig 0 { scope := 4 },
      .addrSet 0 { scope := 4 }, .sessionKeyLoad 0 { scope := 4 }, .sessionKeyErase 0 { scope := 4 },
      .sessionInfo 0 { scope := 4 }, .echo 0 { scope := 4 }, .imgInfo 0 { scope := 4 },
      .imgWriteBegin 0 { scope := 4 }, .imgWrite 0 { scope := 4 }, .imgWriteEnd 0 { scope := 4 },
      .imgActivate 0 { scope := 4 }, .imgTrialAbort 0 { scope := 4 }, .imgConfirm 0 { scope := 4 },
      .laneStatus 0 { scope := 4 }, .laneConfig 0 { scope := 4 }, .lanePrbs 0 { scope := 4 },
      .laneLoop 0 { scope := 4 }, .laneErrInject 0 { scope := 4 }, .laneCounters 0 { scope := 4 },
      .flowSrcDefine 0 { scope := 4 }, .flowDstDefine 0 { scope := 4 }, .flowDelete 0 { scope := 4 },
      .flowGroupSet 0 { scope := 4 }, .flowParkSet 0 { scope := 4 }, .flowQuery 0 { scope := 4 },
      .flowAdmitCheck 0 { scope := 4 }, .xptTake 0 { scope := 4 }, .xptTakeBatch 0 { scope := 4 },
      .xptTakeAt 0 { scope := 4 }, .xptQueueCancel 0 { scope := 4 }, .xptLock 0 { scope := 4 }] : List Instr).all (fun i => !i.wellFormed) = true := by
  decide +kernel

/-- The rows that carry a command packet check its fields. -/
theorem test_command_rows_check_fields_2 :
    ([
      .xptUnlock 0 { scope := 4 }, .xptQuery 0 { scope := 4 }, .xptTpSet 0 { scope := 4 },
      .xptQueueStatus 0 { scope := 4 }, .cueLoad 0 { scope := 4 }, .cueRun 0 { scope := 4 },
      .cueAbort 0 { scope := 4 }, .cueStatus 0 { scope := 4 }, .cueUnload 0 { scope := 4 },
      .fstZoneSet 0 { scope := 4 }, .fstObjWrite 0 { scope := 4 }, .fstObjRead 0 { scope := 4 },
      .fstObjFree 0 { scope := 4 }, .fstBankStatus 0 { scope := 4 }, .fstInvalidClear 0 { scope := 4 },
      .fstRetainSet 0 { scope := 4 }, .cmpConfig 0 { scope := 4 }, .cmpLayerSet 0 { scope := 4 },
      .cmpCommit 0 { scope := 4 }, .cmpLutLoad 0 { scope := 4 }, .cmpSurfaceLoad 0 { scope := 4 },
      .cmpDisable 0 { scope := 4 }, .cmpQuery 0 { scope := 4 }, .cmpProtWrite 0 { scope := 4 },
      .cmpProtRectSet 0 { scope := 4 }, .cmpProtGoldenSet 0 { scope := 4 }, .cmpProtStatus 0 { scope := 4 },
      .audRoute 0 { scope := 4 }, .audRouteBatch 0 { scope := 4 }, .audGain 0 { scope := 4 },
      .audFollow 0 { scope := 4 }, .audPortConfig 0 { scope := 4 }, .audStreamConfig 0 { scope := 4 },
      .audQuery 0 { scope := 4 }, .ethPortConfig 0 { scope := 4 }, .ethIpConfig 0 { scope := 4 },
      .ethCounters 0 { scope := 4 }, .ethTxFlow 0 { scope := 4 }, .ethRxFlow 0 { scope := 4 },
      .ethFlowQuery 0 { scope := 4 }] : List Instr).all (fun i => !i.wellFormed) = true := by
  decide +kernel

/-- The rows that carry a command packet check its fields. -/
theorem test_command_rows_check_fields_3 :
    ([
      .timStatus 0 { scope := 4 }, .timRefConfig 0 { scope := 4 }, .timPtpConfig 0 { scope := 4 },
      .timCompareSet 0 { scope := 4 }, .timPulseSet 0 { scope := 4 }, .timRealign 0 { scope := 4 },
      .redStatus 0 { scope := 4 }, .redLeaseRequest 0 { scope := 4 }, .redLeaseRelease 0 { scope := 4 },
      .redResync 0 { scope := 4 }, .redHealth 0 { scope := 4 }, .safStatus 0 { scope := 4 },
      .safClear 0 { scope := 4 }, .safConfig 0 { scope := 4 }, .evtRead 0 { scope := 4 },
      .evtInfo 0 { scope := 4 }, .evtRateSet 0 { scope := 4 }, .pwrStatus 0 { scope := 4 },
      .pwrLevelSet 0 { scope := 4 }, .pwrSleep 0 { scope := 4 }] : List Instr).all (fun i => !i.wellFormed) = true := by
  decide +kernel

/-- A row of each family, within its bounds, is well formed. -/
theorem test_well_formed_accepted :
    ([
      .vddAonUp 0 false {}, .pgInputLow 0 4, .commandDatagram 0 {}, .identify 0 {}, .laneSignalLost 0 131,
      .flowParcel 0 1023 2 0 1 [] false none, .switchingLine 0 1023, .epochTick 0, .cueMark 0 63,
      .scrubRead 0 127 31 16383 31 none, .cmpConfigLands 0 63, .signatureReport 0 63 3 0 none none none,
      .audioChangeLands 0 24607, .linkUp 0 1, .refEdge 0 3, .pulseEdge 0 7 true, .halyardReadout 0 7 1 [] false,
      .overTemp 0 4 0, .contextParityConfirm 0 3 261, .busTransferResponse 0 6 0 0 false [], .wakeNLow 0 true] : List Instr).all (fun i => i.wellFormed) = true := by
  decide +kernel

/-- The table gives no row any bits: no word spells a command, and placing one changes nothing. -/
theorem test_no_command_words :
    decodeTableWord 32 0 = none ∧ State.reset.withFetchWord 32 0 = State.reset := by decide

/-- On an empty queue a step passes 2 ns; a waiting command is taken from the front. -/
theorem test_step_order :
    step State.reset = .next (idle State.reset)
    ∧ step { State.reset with pending := [.rstNLow 5, .rstNLow 9] } = exec (.rstNLow 5) { State.reset with pending := [.rstNLow 9] } := by
  exact ⟨rfl, rfl⟩

/-- A command of session 1 with its role, and its parameters as numbers. -/
def cmdOf (r : Role) (ps : List Nat) : HostCmd :=
  { session := 1, role := r, seq := 5, srcIp := 0x0A000001, srcPort := 5000, params := ps.map b8
    key := List.replicate 32 0x11#8, tag := List.replicate 16 0x22#8 }

/-- A configuration command, and one of the maintenance and safety roles. -/
def oc (ps : List Nat) : HostCmd := cmdOf .operator ps
/-- A command of the MAINTENANCE role. -/
def mc (ps : List Nat) : HostCmd := cmdOf .maintenance ps
/-- A command of the SAFETY role. -/
def sc (ps : List Nat) : HostCmd := cmdOf .safety ps

/-- A device that has started and stands in a mode, unpaired, 20 s after power came. -/
def up (m : Mode) : State :=
  { State.reset with
    clock := { clk := 20000000000, now := 20000000000, running := true }
    mode := m
    seq := { aonUp := true, pgMode := true, phase := .complete, step := 5
             en := [true, true, true, true, true], pg := [true, true, true, true, true] }
    aon := { sessions := [(0, { id := 1, role := .operator, key := List.replicate 32 0x11#8 })] }
    start := { inReset := false, t0 := some 0, pllLocked := true, romDone := true
               procs := [(0, 2), (1, 2), (2, 2), (3, 2), (4, 2), (5, 2), (6, 2)] }
    cal := { lanes := true, hbm := true, memory := true, doneAt := some 1000000000 }
    evt := { running := true } }

/-- A device of a pair, position 0, whose halyard link stands at `l`; both halyard lanes are usable. -/
def pairUp (m : Mode) (l : Link) (lease : Bool) : State :=
  let s := up m
  { s with
    start := { s.start with straps := { s.start.straps with pairRole := 1 } }
    lane := { s.lane with rx := [(128, { state := .locked, peer := 0x01808000#32 }), (129, { state := .locked, peer := 0x01818000#32 }),
      (130, { state := .locked, peer := 0x01828000#32 }), (131, { state := .locked, peer := 0x01838000#32 })] }
    red := { s.red with link := l, lease := lease, peer := { addr := 0x0001, position := 2, mode := 2, lease := !lease }
                        lastCtrl := 20000000000 } }

/-- A source 0 or 1 of class 1 and format 0x10 on plane 0, on global slot `k` of lane 0, showing video. -/
def source (k : Nat) : Src :=
  { def_ := some { cls := 1, format := 0x10, plane := 0, copy1 := { kind := 1, index := k }, slot := k, count := 1 }
    phase := 3, format := 0x10, readFormat := 0x10, units := 114, ring := [(342 * k, 342)], everRead := true }

/-- A destination 0 or 1 of class 1 and format 0x10 on plane 0, on global slot `k` of lane 0. -/
def dest (k : Nat) : Dst :=
  { def_ := some { cls := 1, format := 0x10, plane := 0, lane := { kind := 1, index := k } } }

/-- An active device with two sources and two destinations on plane 0, whose family is 1; lane 0 is locked. -/
def video : State :=
  { up .active with
    lane := { rx := [(0, { state := .locked })], tx := [(0, { mapVersion := 1, classes := 1 :: 1 :: List.replicate 14 0 })], signals := [0] }
    xpt := { tps := [(0, { family := 1 })] }
    tim := { planes := [(0, { started := true, slow := 1000, fast := 2000, last := some 19999000000, lastAny := some 19999000000 })] }
    flow := { src := [(0, source 0), (1, source 1)], dst := [(0, dest 0), (1, dest 1)] } }

/-- An active device whose compositor `c` composes a picture of format 0x10 on plane 0. -/
def composing (c : Nat) (k : Comp) : State :=
  { video with cmp := { comps := [(c, { k with state := 1, plane := 0, format := 0x10 })] } }

/-- A signed image of 4096 bytes (Tables 2.6 and 2.7): header, key and seven sections, then erased bytes up to the signature,
which was computed outside Lean from a private key of the author's. -/
def imageHead : List Byte := beBytes 268
  0x534b52440001008000001000000700000000000000000005000000a1000032100000000000000000000000000000000000000000000000000000000000000000471c3e758c4904285bba7e53118ed0f524adeb0757d25bd2f8e7b0d76dfa714cdd520f7aca8a8b917acc37f51de8f0c9bbe3ad858382e702dc25a12d09f7a85800000000000000f0000000040000000001000000000000f4000000040000100002000000000000f8000000040000200003000000000000fc000000040000300004000000000001000000000400004000050000000000010400000004000050000600000000000108000000040000600000000000000000000000000000000000000000000000000000000000
/-- The signature of the image: r, then s. -/
def imageSig : List Byte := beBytes 64
  0x4a5530b043726fbeebd13c58ebc50dcc944fd60e07b714aac9b57eddc6037a8899cc2d18a815315481b5dc2a13f24a46d40faa4036116d818071d68b8ac1fa0f

/-- A device whose slot holds the signed image, with the digest of its key in the fuses. -/
def withImage (slot : Nat) (s : State) : State :=
  let m := memWriteList 0xFF#8 s.flash.mem (slotBase slot) imageHead
  { s with
    fuses := { s.fuses with keyDigest := beBytes 32 0xb3d283416a8e6401d39a988f2e469a12968dc63c4387a3f2c67338ad14a1e6d0 }
    flash := { s.flash with mem := memWriteList 0xFF#8 m (slotBase slot + 4032) imageSig } }

/-- The state that an outcome leads to. -/
def nx : Host.Outcome State Fault Refusal → State
  | .next s => s
  | _ => State.reset

/-- The outcome is a next state. -/
def isNext : Host.Outcome State Fault Refusal → Bool
  | .next _ => true
  | _ => false

theorem next_nx {o : Host.Outcome State Fault Refusal} (h : isNext o = true) : o = .next (nx o) := by
  cases o <;> simp_all [isNext, nx]


theorem no_zone_at_top : zoneAt video 16776192 = none := by decide +kernel

/-- The check values that the spec gives for CRC-32 and CRC-8 over "123456789" (R571). -/
theorem test_crc_check_values :
    crc32 [0x31#8, 0x32#8, 0x33#8, 0x34#8, 0x35#8, 0x36#8, 0x37#8, 0x38#8, 0x39#8] = 0xFC891918#32
    ∧ crc8 [0x31#8, 0x32#8, 0x33#8, 0x34#8, 0x35#8, 0x36#8, 0x37#8, 0x38#8, 0x39#8] = 0xF4#8 := by decide +kernel

/-- The example after Table 8.3: where zone offset 0x3_0C4A_5B40 of the reset Z0 lies, and its unit (R263). -/
theorem test_zone_offset_example :
    locate (zoneOf State.reset 0) 0x30C4A5B40 = ⟨91, 20, 3121, 2, 0⟩ ∧ 0x30C4A5B40 / 65536 = 199754 := by decide +kernel

/-- The example of R11: offset 0x0300_0FFC reads as zero with DECODE_ZERO and without other effect. -/
theorem test_decode_zero_example :
    readReg 0 0x03000FFC (up .active) = (0#32, .decodeZero, busCount 0 1 (up .active)) := by decide +kernel

/-- The example of R537: slot 64 of the compatibility window with BANK at 2. -/
theorem test_compat_window_example :
    (readReg 0 0x0F004000 { up .active with
        ctl := { (up .active).ctl with compatBank := 2 }
        xpt := { (up .active).xpt with dst := [(560, { selected := some 300, lock := 2 })] } }).1 = 0x0001012C#32
    ∧ (readReg 0 0x0F004004 (up .active)).2.1 = .decodeZero := by decide +kernel

/-- The example of chapter 3: MODE of an unpaired ACTIVE device that T3 brought from CALIBRATE. -/
theorem test_mode_register_example :
    (readReg 0 0x10 { up .active with aon := { (up .active).aon with prevMode := 1, lastTrans := 3 } }).1 = 0x00000312#32 := by decide +kernel

/-- The example of chapter 3: the fields of the request's header. -/
theorem test_header_example :
    readHeader (beBytes 24 0x4C580104094C010200000457000800000004000100000000)
      = { magic := 0x4C58, version := 1, flags := 4, address := 2380, session := 0x0102, seq := 0x457, opcode := 8
          status := 0, plen := 4, idx := 0, cnt := 1, resv := 0 } := by decide +kernel

/-- The example of chapter 3: the reply's header differs from the request's in byte 3 only. -/
theorem test_reply_header_example :
    cmdHeader 5 2380 0x0102 0x457 8 0 4 0 1 = beBytes 24 0x4C580105094C010200000457000800000004000100000000 := by
  decide +kernel

/-- The example of R16: frame 37 and POS 12 make system address 2,380. -/
theorem test_system_address_example :
    sysAddr { up .active with
      aon := { (up .active).aon with frameId := 37 }
      start := { (up .active).start with straps := { pos := 12 } } } = 0x094C := by decide +kernel

/-- The example of R133: bytes 2 to 6 of an IDENT pennant of the first half of a pair on LTX37. -/
theorem test_ident_pennant_example :
    pennantContent { up .active with
      aon := { (up .active).aon with frameId := 37 }
      start := { (up .active).start with straps := { pairRole := 1, pos := 12 } } } 37 0
      = [0x49#8, 0x4C#8, 0x25#8, 0x01#8, 0x00#8] := by decide +kernel

/-- The example of R507: the words of a PROT_MISMATCH record. -/
theorem test_event_record_example :
    (recordWords { code := 0x5051, sev := 5, cls := 11, path := 0x4000, mode := 2, at_ := 0
                   payload := [0x05000000#32, 0x000160BD#32, 1#32, 2#32] } 7 0)
      = [0x085B5051#32, 7#32, 0#32, 0#32, 0x40000002#32, 0x05000000#32, 0x000160BD#32, 1#32, 2#32] := by decide +kernel

/-- The example of R321: the bytes a second of a live layer at LIVE_CAP 2 and 4, and the tiles of the surface. -/
theorem test_fetch_cost_example :
    liveBytes 1 2 * 50 = 371250000 ∧ liveBytes 1 4 * 50 = 1485000000
    ∧ 1024 * (tilesAlong 0 1920 16 * tilesAlong 0 200 16) * 50 = 79872000 := by decide +kernel

/-- RFC 3394, section 4.6: 256 bits of key data unwrapped with a 256-bit key-encryption key (R98). -/
theorem test_key_unwrap :
    keyUnwrap (beBytes 32 0x000102030405060708090A0B0C0D0E0F101112131415161718191A1B1C1D1E1F)
      (beBytes 40 0x28C9F404C4B810F4CBCCB35CFB87F8263F5786E2D80ED326CBC7F0E71A99F43BFB988B9B7A02DD21)
      = some (beBytes 32 0x00112233445566778899AABBCCDDEEFF000102030405060708090A0B0C0D0E0F) := by decide +kernel

/-- FIPS 180: SHA-256 of "abc". -/
theorem test_sha256 :
    sha256 [0x61#8, 0x62#8, 0x63#8]
      = beBytes 32 0xba7816bf8f01cfea414140de5dae2223b00361a396177a9cb410ff61f20015ad := by decide +kernel

/-- Reset: MODE_HAL_WAIT, and the pending queue (Table 1.11). -/
theorem test_reset_values : State.reset.halWaitMs = 1000 ∧ State.reset.pending = [] := by decide +kernel

/-- The premises of `StepRunsTheFrontCommand`, clause by clause, at boundary values. -/
theorem test_step_runs_the_front_command_premises :
    ∃ (c : Instr) (rest : List Instr) (s : State), s.pending = c :: rest :=
  ⟨.vddAonUp 0 true {}, [], { State.reset with pending := [.vddAonUp 0 true {}] }, by decide +kernel⟩

/-- The premises of `EmptyQueueOnlyLetsTimePass`, clause by clause, at boundary values. -/
theorem test_empty_queue_only_lets_time_pass_premises :
    (∃ (s : State), s.pending = []) ∧
    (∃ (s : State), s.pending = []) :=
  ⟨⟨State.reset, by decide +kernel⟩,
   ⟨up .active, by decide +kernel⟩⟩

/-- The premises of `StepKeepsSoundness`, clause by clause, at boundary values. -/
theorem test_step_keeps_soundness_premises :
    ∃ (s : State) (u : State), s.sound = true ∧ step s = .next u :=
  ⟨{ up .active with pending := [.rstNLow 0] }, nx (step { up .active with pending := [.rstNLow 0] }),
    by decide +kernel, next_nx (by decide +kernel)⟩

/-- The premises of `CommandsMoveOnlyTheirParts`, clause by clause, at boundary values. -/
theorem test_commands_move_only_their_parts_premises :
    ∃ (i : Instr) (s : State) (u : State), exec i s = .next u :=
  ⟨.rstNLow 0, up .active, nx (exec (.rstNLow 0) (up .active)), next_nx (by decide +kernel)⟩

/-- The premises of `StepConsumesOneCommand`, clause by clause, at boundary values. -/
theorem test_step_consumes_one_command_premises :
    ∃ (s : State) (u : State), step s = .next u :=
  ⟨{ up .active with pending := [.rstNLow 0] }, nx (step { up .active with pending := [.rstNLow 0] }), next_nx
    (by decide +kernel)⟩

/-- The premises of `CommandsCompleteUnlessTheObjectIsMissing`, clause by clause, at boundary values. -/
theorem test_commands_complete_unless_the_object_is_missing_premises :
    (∃ (i : Instr), i.objectsExist = true) ∧
    (∃ (i : Instr), i.objectsExist = false) :=
  ⟨⟨.blockLockGained 0 131, by decide +kernel⟩,
   ⟨.blockLockGained 0 132, by decide +kernel⟩⟩

/-- The premises of `OnlyConfirmationAndStartRaiseTheFloor`, clause by clause, at boundary values. -/
theorem test_only_confirmation_and_start_raise_the_floor_premises :
    (∃ (i : Instr) (s : State) (u : State), exec i s = .next u) ∧
    (∃ (i : Instr) (s : State) (u : State), exec i s = .next u) ∧
    (∃ (i : Instr) (s : State) (u : State), exec i s = .next u ∧ (∀ t c, i ≠ .imgConfirm t c) ∧ (∀ t, i ≠
      .trialConfirmTimer t) ∧ (∀ t p, i ≠ .processorAlive t p)) :=
  ⟨⟨.rstNLow 0, up .active, nx (exec (.rstNLow 0) (up .active)), next_nx (by decide +kernel)⟩,
   ⟨.rstNLow 0, up .active, nx (exec (.rstNLow 0) (up .active)), next_nx (by decide +kernel)⟩,
   ⟨.rstNLow 0, up .active, nx (exec (.rstNLow 0) (up .active)), next_nx (by decide +kernel),
     (by intro _ _ h; cases h), (by intro _ h; cases h), (by intro _ _ h; cases h)⟩⟩

/-- The premises of `StoredBytesReadBack`, clause by clause, at boundary values. -/
theorem test_stored_bytes_read_back_premises :
    (∃ (d : Byte) (m : List Host.Cell) (xs : List Byte) (i : Nat) (x : Byte), memWf d m = true ∧ xs[i]? = some x) ∧
    (∃ (d : Byte) (m : List Host.Cell) (a : Nat) (xs : List Byte) (k : _), memWf d m = true ∧ (k < a ∨ a + xs.length
      ≤ k)) ∧
    (∃ (d : Byte) (m : List Host.Cell) (a : Nat) (xs : List Byte) (k : _), memWf d m = true ∧ (k < a ∨ a + xs.length
      ≤ k)) ∧
    (∃ (d : Byte) (m : List Host.Cell), memWf d m = true) :=
  ⟨⟨0#8, [(3, 7#8)], [1#8, 0#8], 1, 0#8, by decide +kernel⟩,
   ⟨0#8, [(3, 7#8)], 4, [1#8, 0#8], 3, by decide +kernel⟩,
   ⟨0#8, [(3, 7#8)], 4, [1#8, 0#8], 6, by decide +kernel⟩,
   ⟨0#8, [(3, 7#8), (4, 8#8)], by decide +kernel⟩⟩

/-- The premises of `RefusedCommandsHaveNoEffect`, clause by clause, at boundary values. -/
theorem test_refused_commands_have_no_effect_premises :
    ∃ (i : Instr) (op : Op) (own : Refuse) (t : Nat) (c : HostCmd) (s : State) (st : Status) (ps : List Byte),
      commandOf i = some (op, own, t, c) ∧ hostServes (advance t s) = true ∧ c.named = false ∧ refusal op own (begun
      op t c s) c = some (st, ps) :=
  ⟨.reset 0 (oc [82, 83, 84, 33]), .reset, refuseReset, 0, oc [82, 83, 84, 33], up .active, .roleDenied, [], rfl,
    by decide +kernel, by decide +kernel, by decide +kernel⟩

/-- The premises of `SupplySequencingCompletes`, clause by clause, at boundary values. -/
theorem test_supply_sequencing_completes_premises :
    (∃ (s : State), s.seq.aonUp = false ∧ s.seq.en.length = 5) ∧
    (∃ (pg : Nat) (s : State), pg ≤ 4 ∧ s.seq.phase = .waitPg ∧ s.seq.step = pg + 1) ∧
    (∃ (pg : Nat) (s : State), pg ≤ 4 ∧ s.seq.phase = .waitPg ∧ s.seq.step = pg + 1) ∧
    (∃ (s : State), s.seq.phase = .waitDelay ∧ s.seq.step < 5 ∧ s.seq.en.length = 5) ∧
    (∃ (s : State), s.seq.phase = .waitDelay ∧ 5 ≤ s.seq.step ∧ s.pins.rstLow = false) ∧
    (∃ (s : State), s.seq.phase = .fixed ∧ s.seq.step < 5 ∧ s.seq.en.length = 5) ∧
    (∃ (pg : Nat), pg ≤ 4) ∧
    (∃ (s : State), s.seq.phase = .waitPg) ∧
    (∃ (t : Nat) (pg : Nat) (a : Nat) (s : State), pg ≤ 4 ∧ tfind s.seq.lowSince pg = some a ∧ pgWatched s pg = true
      ∧ a + 2000 < max s.clock.clk t) ∧
    (∃ (t : Nat) (s : State), s.seq.phase = .faultWait ∧ s.seq.restartAt ≤ max s.clock.clk t ∧ s.seq.en.length = 5) :=
  ⟨⟨State.reset, by decide +kernel⟩,
   ⟨0, { State.reset with seq := { aonUp := true, phase := .waitPg, step := 1 } }, by decide +kernel⟩,
   ⟨4, { State.reset with seq := { aonUp := true, phase := .waitPg, step := 5 } }, by decide +kernel⟩,
   ⟨{ State.reset with seq := { aonUp := true, phase := .waitDelay, step := 4 } }, by decide +kernel⟩,
   ⟨{ State.reset with seq := { aonUp := true, phase := .waitDelay, step := 5 } }, by decide +kernel⟩,
   ⟨{ State.reset with seq := { aonUp := true, phase := .fixed, step := 4 } }, by decide +kernel⟩,
   ⟨4, by decide +kernel⟩,
   ⟨{ State.reset with seq := { aonUp := true, phase := .waitPg, step := 1 } }, by decide +kernel⟩,
   ⟨2001, 4, 0, { State.reset with seq := { aonUp := true, phase := .complete, step := 5, en := [true, true, true, true, true], lowSince := [(4, 0)] } },
     by decide +kernel⟩,
   ⟨100000000, { State.reset with seq := { aonUp := true, phase := .faultWait, restartAt := 100000000 } },
     by decide +kernel⟩⟩

/-- The premises of `ResetPinAndClocksComplete`, clause by clause, at boundary values. -/
theorem test_reset_pin_and_clocks_complete_premises :
    (∃ (s : State), s.seq.aonUp = true ∧ s.seq.phase ≠ .off) ∧
    (∃ (s : State), s.pins.rstLow = true ∧ s.seq.phase = .complete) ∧
    (∃ (s : State), s.pins.rstLow = true ∧ s.seq.phase = .lockout) ∧
    (∃ (s : State), s.start.inReset = true) ∧
    (∃ (a : Nat) (s : State), s.start.inReset = false ∧ s.start.t0 = some a ∧ s.start.pllLocked = false) ∧
    (∃ (t : Nat) (a : Nat) (s : State), s.start.t0 = some a ∧ s.start.pllLocked = false ∧ a + 10000000 ≤ max
      s.clock.clk t) :=
  ⟨⟨up .active, by decide +kernel⟩,
   ⟨{ up .boot with pins := { (up .boot).pins with rstLow := true }, seq := { (up .boot).seq with phase := .complete } },
     by decide +kernel⟩,
   ⟨{ up .boot with pins := { (up .boot).pins with rstLow := true }, seq := { (up .boot).seq with phase := .lockout } },
     by decide +kernel⟩,
   ⟨State.reset, by decide +kernel⟩,
   ⟨0, { up .boot with start := { (up .boot).start with pllLocked := false } }, by decide +kernel⟩,
   ⟨0, 19990000000, { up .boot with start := { (up .boot).start with pllLocked := false, t0 := some 19990000000 } },
     by decide +kernel⟩⟩

/-- The premises of `ImageStartAndCalibrationComplete`, clause by clause, at boundary values. -/
theorem test_image_start_and_calibration_complete_premises :
    (∃ (s : State), s.start.romDone = true ∧ s.start.loading = false ∧ s.start.recovery = false ∧ s.start.wake =
      false ∧ s.mode = .boot ∧ s.start.straps.bootSrc = true) ∧
    (∃ (s : State), s.start.romDone = true ∧ s.start.loading = false ∧ s.start.recovery = false ∧ s.start.wake =
      false ∧ s.mode = .boot ∧ s.start.straps.bootSrc = false ∧ (bootRec s).trial = none ∧ imgReason s (bootRec
      s).active = none ∧ s.aon.boot.skip.getD (bootRec s).active false = false) ∧
    (∃ (p : Nat) (s : State), p ≤ 6 ∧ p ≠ 6 ∧ s.start.loading = true ∧ tget 0 s.start.procs p = 1 ∧ (loadOrder.all
      (fun q => tget 0 (tset s.start.procs p 2) q = 2)) = false) ∧
    (∃ (p : Nat) (s : State), p ≤ 6 ∧ s.start.loading = true ∧ tget 0 s.start.procs p = 1 ∧ (loadOrder.all (fun q =>
      tget 0 (tset s.start.procs p 2) q = 2)) = true) ∧
    (∃ (p : Nat) (s : State), p ≤ 6 ∧ s.start.loading = true ∧ tget 0 s.start.procs p = 1) ∧
    (∃ (t : Nat) (s : State), s.mode = .calibrate ∧ s.cal.startAt + s.aon.laneWaitMs * 1000000 ≤ max s.clock.clk t ∧
      s.cal.hbm = false) ∧
    (∃ (s : State), s.mode = .calibrate ∧ s.cal.hbm = false ∧ s.cal.failed = false ∧ s.cal.memory = false) ∧
    (∃ (s : State), s.mode = .calibrate ∧ s.cal.hbm = false ∧ s.cal.failed = false) ∧
    (∃ (s : State), s.mode = .calibrate ∧ s.cal.memory = false ∧ s.cal.failed = false ∧ s.cal.hbm = false) ∧
    (∃ (s : State), s.mode = .calibrate ∧ s.cal.memory = false ∧ s.cal.failed = false) ∧
    (∃ (t : Nat) (a : Nat) (s : State), s.cal.doneAt = some a ∧ s.mode = .calibrate ∧ paired s = true ∧ s.red.lease =
      false ∧ inStep s = false ∧ a + s.halWaitMs * 1000000 ≤ max s.clock.clk t) :=
  ⟨⟨{ up .boot with start := { (up .boot).start with straps := { bootSrc := true } } }, by decide +kernel⟩,
   ⟨withImage 0 (up .boot), by decide +kernel⟩,
   ⟨0, { up .boot with start := { (up .boot).start with loading := true, procs := [(0, 1)] } }, by decide +kernel⟩,
   ⟨6, { up .boot with start := { (up .boot).start with loading := true, procs := [(0, 2), (1, 2), (2, 2), (3, 2), (4, 2), (5, 2), (6, 1)] } },
     by decide +kernel⟩,
   ⟨0, { up .boot with start := { (up .boot).start with loading := true, procs := [(0, 1)] } }, by decide +kernel⟩,
   ⟨0, { up .calibrate with cal := { startAt := 18000000000 } }, by decide +kernel⟩,
   ⟨{ up .calibrate with cal := {} }, by decide +kernel⟩,
   ⟨{ up .calibrate with cal := {} }, by decide +kernel⟩,
   ⟨{ up .calibrate with cal := {} }, by decide +kernel⟩,
   ⟨{ up .calibrate with cal := {} }, by decide +kernel⟩,
   ⟨0, 19000000000, { pairUp .calibrate .linked false with cal := { doneAt := some 19000000000 } },
     by decide +kernel⟩⟩

/-- The premises of `DatagramsAreChecked`, clause by clause, at boundary values. -/
theorem test_datagrams_are_checked_premises :
    (∃ (t : Nat) (d : Datagram) (s : State), hostReachable d (advance t s) = true ∧ (d.payload.length < 24 ∨
      d.ipFragment = true)) ∧
    (∃ (t : Nat) (d : Datagram) (s : State), hostReachable d (advance t s) = true ∧ 24 ≤ d.payload.length ∧
      d.ipFragment = false ∧ (readHeader d.payload).magic = 0x4C58 ∧ bitOf (readHeader d.payload).flags 0 = false ∧
      selects (readHeader d.payload) s = false) ∧
    (∃ (t : Nat) (d : Datagram) (s : State), hostReachable d (advance t s) = true ∧ (earlyCheck d (readHeader
      d.payload) (advance t s)).isNone = true ∧ authCheck d (readHeader d.payload) s = none ∧ (replyPort s
      d.port).isSome = true ∧ 5000000 ≤ s.host.credit) ∧
    (∃ (t : Nat) (d : Datagram) (s : State) (r : Role) (k : List Byte), hostReachable d (advance t s) = true ∧
      (earlyCheck d (readHeader d.payload) (advance t s)).isNone = true ∧ authCheck d (readHeader d.payload) s = some
      (r, k) ∧ (readHeader d.payload).session ≠ 0 ∧ ((readHeader d.payload).seq = 0 ∨ (readHeader d.payload).seq <
      lastSeq s (readHeader d.payload).session) ∧ (replyPort s d.port).isSome = true) ∧
    (∃ (t : Nat) (d : Datagram) (s : State) (r : Role) (k : List Byte) (op : Op), hostReachable d (advance t s) =
      true ∧ (earlyCheck d (readHeader d.payload) (advance t s)).isNone = true ∧ authCheck d (readHeader d.payload) s
      = some (r, k) ∧ (readHeader d.payload).session ≠ 0 ∧ lastSeq s (readHeader d.payload).session < (readHeader
      d.payload).seq ∧ (readHeader d.payload).cnt = 1 ∧ s.host.reasm = [] ∧ opOfCode (readHeader d.payload).opcode =
      some op ∧ paired s = false ∧ roleRefusal op (headerCmd d (readHeader d.payload) r k) = none ∧ modeRefusal op
      (headerCmd d (readHeader d.payload) r k) s = none ∧ s.host.queue.length < 256) ∧
    (∃ (t : Nat) (n : Nat) (r : Reasm) (s : State), s.host.reasm.find? (fun r => r.session == n) = some r ∧ r.started
      + 500000000 ≤ max s.clock.clk t) :=
  ⟨⟨0, { payload := List.replicate 23 0#8 }, up .active, by decide +kernel⟩,
   ⟨0, { payload := beBytes 40 0x4c580104000100010000000700020000000000010000000023e826eeba095b697eedb28fdb2c27b2, srcIp := 0x0A000001, srcPort := 5000 },
     up .active, by decide +kernel⟩,
   ⟨0, { payload := beBytes 40 0x4c580104000000010000000700020000000000010000000000000000000000000000000000000000, srcIp := 0x0A000001, srcPort := 5000 },
     { up .active with eth := { (up .active).eth with ports := [(0, { link := 2 })] } }, by decide +kernel⟩,
   ⟨0, { payload := beBytes 40 0x4c5801040000000100000000000200000000000100000000fc956f6ec1fc8b0971056d7bcd05c942, srcIp := 0x0A000001, srcPort := 5000 },
     { up .active with eth := { (up .active).eth with ports := [(0, { link := 2 })] } }, .operator, List.replicate 32
     0x11#8, by decide +kernel⟩,
   ⟨0, { payload := beBytes 40 0x4c5801040000000100000001000100000000000100000000aeecd878b084ad73d6edab3e51584f64, srcIp := 0x0A000001, srcPort := 5000 },
     { up .active with eth := { (up .active).eth with ports := [(0, { link := 2 })] } }, .operator, List.replicate 32
     0x11#8, .identify, by decide +kernel⟩,
   ⟨0, 1, { session := 1, seq := 5, opcode := 8, address := 0, flags := 4, count := 2, started := 19500000000 }, { up .active with host := { reasm := [{ session := 1, seq := 5, opcode := 8, address := 0, flags := 4, count := 2, started := 19500000000 }] } },
     by decide +kernel⟩⟩

set_option maxRecDepth 100000 in
/-- The premises of `GeneralCommandsTakeEffect`, clause by clause, at boundary values. -/
theorem test_general_commands_take_effect_premises :
    (∃ (t : Nat) (c : HostCmd) (s : State), accepted .identify refuseIdentify t c s = true) ∧
    (∃ (t : Nat) (c : HostCmd) (s : State), accepted .status refuseStatus t c s = true) ∧
    (∃ (t : Nat) (c : HostCmd) (s : State), accepted .echo refuseEcho t c s = true) ∧
    (∃ (t : Nat) (c : HostCmd) (s : State), accepted .sessionInfo refuseSessionInfo t c s = true) ∧
    (∃ (t : Nat) (c : HostCmd) (s : State), accepted .modeSet refuseModeSet t c s = true ∧ u8 c.params 0 = 6) ∧
    (∃ (t : Nat) (c : HostCmd) (s : State), accepted .modeSet refuseModeSet t c s = true ∧ u8 c.params 0 = 1) ∧
    (∃ (t : Nat) (c : HostCmd) (s : State), accepted .reset refuseReset t c s = true) ∧
    (∃ (t : Nat) (a : Nat) (s : State), s.host.resetAt = some a ∧ a + 10000000 ≤ max s.clock.clk t) ∧
    (∃ (t : Nat) (c : HostCmd) (s : State), accepted .lockConfig refuseLockConfig t c s = true) ∧
    (∃ (t : Nat) (c : HostCmd) (s : State), accepted .addrSet refuseAddrSet t c s = true) ∧
    (∃ (t : Nat) (n : Nat) (r : Role) (k : List Byte) (c : HostCmd) (s : State), accepted .sessionKeyLoad
      refuseKeyLoad t c s = true ∧ roleOfCode (u8 c.params 2) = some r ∧ loadKey c = some k ∧ (slotOf s (u16 c.params
      0)).orElse (fun _ => freeSlot s) = some n) ∧
    (∃ (t : Nat) (n : Nat) (r : Role) (k : List Byte) (c : HostCmd) (s : State), accepted .sessionKeyLoad
      refuseKeyLoad t c s = true ∧ roleOfCode (u8 c.params 2) = some r ∧ loadKey c = some k ∧ (slotOf s (u16 c.params
      0)).orElse (fun _ => freeSlot s) = some n) ∧
    (∃ (t : Nat) (c : HostCmd) (s : State), accepted .sessionKeyErase refuseKeyErase t c s = true ∧ u16 c.params 0 ≠
      0) :=
  ⟨⟨0, { cmdOf .anonymous [] with session := 0 }, up .active, by decide +kernel⟩,
   ⟨0, oc [], up .active, by decide +kernel⟩,
   ⟨0, oc [1, 2, 3], up .active, by decide +kernel⟩,
   ⟨0, mc [], up .active, by decide +kernel⟩,
   ⟨0, mc [6, 0, 0, 0], up .active, by decide +kernel⟩,
   ⟨0, mc [1, 0, 0, 0], up .maintenance, by decide +kernel⟩,
   ⟨0, mc [82, 83, 84, 33], up .active, by decide +kernel⟩,
   ⟨0, 19990000000, { up .active with host := { resetAt := some 19990000000 } }, by decide +kernel⟩,
   ⟨0, mc [76, 79, 67, 75], up .active, by decide +kernel⟩,
   ⟨0, mc [0, 0, 0, 0, 0, 0, 0, 0, 255, 0, 0, 0], up .active, by decide +kernel⟩,
   ⟨0, 1, .maintenance, List.replicate 32 0x33#8, mc [0, 2, 3, 0, 58, 103, 98, 82, 152, 108, 207, 48, 249, 45, 139,
     189, 153, 70, 160, 100, 70, 118, 170, 160, 17, 120, 137, 229, 199, 100, 146, 140, 126, 101, 89, 79, 69, 238,
     218, 0, 23, 50, 228, 46], up .active, by decide +kernel⟩,
   ⟨0, 0, .operator, List.replicate 32 0x33#8, mc [0, 1, 1, 0, 135, 116, 58, 36, 35, 151, 199, 52, 23, 58, 204, 7,
     232, 138, 191, 252, 115, 97, 134, 165, 191, 225, 224, 111, 186, 52, 5, 95, 142, 222, 152, 236, 205, 251, 203,
     53, 121, 94, 241, 183], up .active, by decide +kernel⟩,
   ⟨0, mc [0, 1, 0, 0], up .active, by decide +kernel⟩⟩

/-- The premises of `RegisterCommandsTakeEffect`, clause by clause, at boundary values. -/
theorem test_register_commands_take_effect_premises :
    (∃ (t : Nat) (c : HostCmd) (s : State), accepted .regRead refuseRegRead t c s = true) ∧
    (∃ (t : Nat) (c : HostCmd) (s : State), accepted .regRead refuseRegRead t c s = true) ∧
    (∃ (t : Nat) (c : HostCmd) (s : State), accepted .regWrite refuseRegWrite t c s = true) ∧
    (∃ (t : Nat) (c : HostCmd) (s : State) (s1 : State) (s2 : State) (s3 : State) (old : Word) (back : Word) (st :
      Status) (sb : Status), accepted .regRmw refuseRegRmw t c s = true ∧ readReg 0 (u32 c.params 0) (begun .regRmw t
      c s) = (old, .ok, s1) ∧ writeReg (u32 c.params 0) (rmwValue old (w32 (u32 c.params 4)) (w32 (u32 c.params
      8))).toNat s1 = (st, s2) ∧ readReg 0 (u32 c.params 0) s2 = (back, sb, s3)) ∧
    (∃ (t : Nat) (c : HostCmd) (s : State), accepted .regReadBlock refuseRegReadBlock t c s = true) ∧
    (∃ (t : Nat) (c : HostCmd) (s : State), accepted .regWriteBlock refuseRegWriteBlock t c s = true) ∧
    (∃ (a : Nat) (s : State), decodeReg s a = none) ∧
    (∃ (n : Nat), n ≤ 131) :=
  ⟨⟨0, oc [0, 0, 0, 16], up .active, by decide +kernel⟩,
   ⟨0, oc [3, 0, 15, 252], up .active, by decide +kernel⟩,
   ⟨0, mc [0, 0, 0, 20, 0, 0, 7, 208], up .active, by decide +kernel⟩,
   ⟨0, mc [0, 0, 0, 20, 0, 0, 255, 255, 0, 0, 7, 208], up .active, (readReg 0 0x14 (begun .regRmw 0 (mc [0, 0, 0, 20,
     0, 0, 255, 255, 0, 0, 7, 208]) (up .active))).2.2, (writeReg 0x14 (rmwValue (readReg 0 0x14 (begun .regRmw 0 (mc
     [0, 0, 0, 20, 0, 0, 255, 255, 0, 0, 7, 208]) (up .active))).1 (w32 0xFFFF) (w32 2000)).toNat (readReg 0 0x14
     (begun .regRmw 0 (mc [0, 0, 0, 20, 0, 0, 255, 255, 0, 0, 7, 208]) (up .active))).2.2).2, (readReg 0 0x14
     (writeReg 0x14 (rmwValue (readReg 0 0x14 (begun .regRmw 0 (mc [0, 0, 0, 20, 0, 0, 255, 255, 0, 0, 7, 208]) (up
     .active))).1 (w32 0xFFFF) (w32 2000)).toNat (readReg 0 0x14 (begun .regRmw 0 (mc [0, 0, 0, 20, 0, 0, 255, 255,
     0, 0, 7, 208]) (up .active))).2.2).2).2.2, (readReg 0 0x14 (begun .regRmw 0 (mc [0, 0, 0, 20, 0, 0, 255, 255, 0,
     0, 7, 208]) (up .active))).1, (readReg 0 0x14 (writeReg 0x14 (rmwValue (readReg 0 0x14 (begun .regRmw 0 (mc [0,
     0, 0, 20, 0, 0, 255, 255, 0, 0, 7, 208]) (up .active))).1 (w32 0xFFFF) (w32 2000)).toNat (readReg 0 0x14 (begun
     .regRmw 0 (mc [0, 0, 0, 20, 0, 0, 255, 255, 0, 0, 7, 208]) (up .active))).2.2).2).1, (writeReg 0x14 (rmwValue
     (readReg 0 0x14 (begun .regRmw 0 (mc [0, 0, 0, 20, 0, 0, 255, 255, 0, 0, 7, 208]) (up .active))).1 (w32 0xFFFF)
     (w32 2000)).toNat (readReg 0 0x14 (begun .regRmw 0 (mc [0, 0, 0, 20, 0, 0, 255, 255, 0, 0, 7, 208]) (up
     .active))).2.2).1, (readReg 0 0x14 (writeReg 0x14 (rmwValue (readReg 0 0x14 (begun .regRmw 0 (mc [0, 0, 0, 20,
     0, 0, 255, 255, 0, 0, 7, 208]) (up .active))).1 (w32 0xFFFF) (w32 2000)).toNat (readReg 0 0x14 (begun .regRmw 0
     (mc [0, 0, 0, 20, 0, 0, 255, 255, 0, 0, 7, 208]) (up .active))).2.2).2).2.1, by decide +kernel⟩,
   ⟨0, oc [0, 0, 0, 16, 0, 2, 0, 0], up .active, by decide +kernel⟩,
   ⟨0, mc [0, 0, 0, 16, 0, 2, 0, 0, 0, 0, 0, 0, 0, 0, 11, 184], up .active, by decide +kernel⟩,
   ⟨0x03000FFC, up .active, by decide +kernel⟩,
   ⟨131, by decide +kernel⟩⟩

/-- The premises of `ImageCommandsTakeEffect`, clause by clause, at boundary values. -/
theorem test_image_commands_take_effect_premises :
    (∃ (t : Nat) (c : HostCmd) (s : State), accepted .imgInfo refuseImgInfo t c s = true) ∧
    (∃ (t : Nat) (c : HostCmd) (s : State), accepted .imgWriteBegin refuseImgWriteBegin t c s = true ∧ s.flash.write
      = none) ∧
    (∃ (n : Nat) (s : State), n ≤ 2 ∧ slotPhase s n = .erasing) ∧
    (∃ (t : Nat) (c : HostCmd) (s : State), accepted .imgWrite refuseImgWrite t c s = true) ∧
    (∃ (t : Nat) (w : ImageWrite) (s : State), s.flash.write = some w ∧ slotPhase s w.slot = .writing ∧ w.lastAt +
      60000000000 ≤ max s.clock.clk t) ∧
    (∃ (t : Nat) (c : HostCmd) (s : State), accepted .imgWriteEnd refuseImgWriteEnd t c s = true ∧ imgReason s (u8
      c.params 0) = none) ∧
    (∃ (t : Nat) (r : Nat) (c : HostCmd) (s : State), accepted .imgWriteEnd refuseImgWriteEnd t c s = true ∧
      imgReason s (u8 c.params 0) = some r) ∧
    (∃ (t : Nat) (c : HostCmd) (s : State), accepted .imgActivate refuseImgActivate t c s = true) ∧
    (∃ (t : Nat) (a : Nat) (s : State), s.flash.startNow = some a ∧ a + 10000000 ≤ max s.clock.clk t) ∧
    (∃ (t : Nat) (c : HostCmd) (s : State), accepted .imgTrialAbort refuseImgTrialAbort t c s = true ∧ trialExists s
      = true) ∧
    (∃ (t : Nat) (c : HostCmd) (s : State), accepted .imgConfirm refuseImgConfirm t c s = true ∧ s.aon.boot.trial =
      true) ∧
    (∃ (t : Nat) (a : Nat) (s : State), s.flash.trialSince = some a ∧ s.aon.boot.trial = true ∧ s.flash.trialBlocked
      = false ∧ a + s.aon.trialS * 1000000000 ≤ max s.clock.clk t) :=
  ⟨⟨0, oc [], up .active, by decide +kernel⟩,
   ⟨0, mc [1, 0, 0, 0, 0, 128, 0, 0], up .active, by decide +kernel⟩,
   ⟨2, { up .active with flash := { phases := [.idle, .idle, .erasing] } }, by decide +kernel⟩,
   ⟨0, mc [1, 0, 0, 0, 0, 0, 0, 0, 171], { up .active with flash := { write := some { slot := 1, session := 1, length := 4096, written := 0, lastAt := 0 }, phases := [.idle, .writing, .idle] }, aon := { (up .active).aon with boot := { slot := 0 } } },
     by decide +kernel⟩,
   ⟨60000000000, { slot := 1, session := 1, length := 4096, written := 0, lastAt := 0 }, { up .active with flash := { write := some { slot := 1, session := 1, length := 4096, written := 0, lastAt := 0 }, phases := [.idle, .writing, .idle] }, aon := { (up .active).aon with boot := { slot := 0 } } },
     by decide +kernel⟩,
   ⟨0, mc [1, 0, 0, 0], withImage 1 ({ up .active with flash := { write := some { slot := 1, session := 1, length := 4096, written := 4096, lastAt := 0 }, phases := [.idle, .writing, .idle] }, aon := { (up .active).aon with boot := { slot := 0 } } }),
     by decide +kernel⟩,
   ⟨0, 1, mc [1, 0, 0, 0], { up .active with flash := { write := some { slot := 1, session := 1, length := 4096, written := 4096, lastAt := 0 }, phases := [.idle, .writing, .idle] }, aon := { (up .active).aon with boot := { slot := 0 } } },
     by decide +kernel⟩,
   ⟨0, mc [1, 0, 0, 0], withImage 1 (up .active), by decide +kernel⟩,
   ⟨0, 19990000000, { up .active with flash := { startNow := some 19990000000 } }, by decide +kernel⟩,
   ⟨0, mc [], { up .active with aon := { (up .active).aon with boot := { trial := true } } }, by decide +kernel⟩,
   ⟨0, mc [], { up .active with aon := { (up .active).aon with boot := { trial := true } } }, by decide +kernel⟩,
   ⟨300000000000, 0, { up .active with flash := { trialSince := some 0 }, aon := { (up .active).aon with boot := { trial := true } } },
     by decide +kernel⟩⟩

/-- The premises of `LaneCommandsTakeEffect`, clause by clause, at boundary values. -/
theorem test_lane_commands_take_effect_premises :
    (∃ (t : Nat) (c : HostCmd) (s : State), accepted .laneStatus refuseLaneStatus t c s = true) ∧
    (∃ (t : Nat) (c : HostCmd) (s : State), accepted .laneCounters refuseLaneCounters t c s = true) ∧
    (∃ (t : Nat) (c : HostCmd) (s : State), accepted .laneConfig refuseLaneConfig t c s = true) ∧
    (∃ (t : Nat) (c : HostCmd) (s : State), accepted .lanePrbs refuseLanePrbs t c s = true ∧ u8 c.params 2 ≠ 0) ∧
    (∃ (t : Nat) (c : HostCmd) (s : State), accepted .laneLoop refuseLaneLoop t c s = true) ∧
    (∃ (t : Nat) (c : HostCmd) (s : State), accepted .laneLoop refuseLaneLoop t c s = true) ∧
    (∃ (t : Nat) (c : HostCmd) (s : State), accepted .laneLoop refuseLaneLoop t c s = true) ∧
    (∃ (t : Nat) (c : HostCmd) (s : State), accepted .laneErrInject refuseLaneErrInject t c s = true) ∧
    (∃ (t : Nat) (k : Nat) (j : Injection) (s : State), k ≤ 131 ∧ (txLane s k).inject = some j ∧ j.next ≤ max
      s.clock.clk t) ∧
    (∃ (k : Nat), k ≤ 131) ∧
    (∃ (k : Nat), k ≤ 131) ∧
    (∃ (k : Nat), k ≤ 131) ∧
    (∃ (k : Nat), k ≤ 131) :=
  ⟨⟨0, oc [131, 0, 0, 0], up .active, by decide +kernel⟩,
   ⟨0, oc [0, 0, 0, 0], up .active, by decide +kernel⟩,
   ⟨0, mc [131, 7, 0, 0, 255, 255, 255, 255, 0, 0, 1, 85, 0, 0, 255, 255], up .active, by decide +kernel⟩,
   ⟨0, mc [131, 3, 4, 0], up .maintenance, by decide +kernel⟩,
   ⟨0, mc [131, 2, 0, 0], up .maintenance, by decide +kernel⟩,
   ⟨0, mc [0, 1, 0, 0], up .maintenance, by decide +kernel⟩,
   ⟨0, mc [0, 0, 0, 0], up .maintenance, by decide +kernel⟩,
   ⟨0, mc [0, 3, 255, 255, 0, 1, 0, 0], up .maintenance, by decide +kernel⟩,
   ⟨0, 131, { target := 0, left := 1, interval := 1, next := 20000000000 }, { up .maintenance with lane := { tx := [(131, { inject := some { target := 0, left := 1, interval := 1, next := 20000000000 } })] } },
     by decide +kernel⟩,
   ⟨131, by decide +kernel⟩,
   ⟨0, by decide +kernel⟩,
   ⟨131, by decide +kernel⟩,
   ⟨0, by decide +kernel⟩⟩

/-- The premises of `LaneEventsMoveTheLane`, clause by clause, at boundary values. -/
theorem test_lane_events_move_the_lane_premises :
    (∃ (k : Nat) (s : State), k ≤ 131 ∧ lanesRun s = true ∧ (rxLane s k).enable = true ∧ (txLane s k).near = false ∧
      (rxLane s k).state ≠ .noSignal ∧ (rxLane s k).state ≠ .disabled ∧ (rxLane s k).state ≠ .test) ∧
    (∃ (k : Nat) (s : State), k ≤ 131 ∧ lanesRun s = true ∧ (rxLane s k).state = .noSignal) ∧
    (∃ (t : Nat) (k : Nat) (s : State), k ≤ 131 ∧ (rxLane s k).state = .sweep ∧ (rxLane s k).sweepAt + 3200000 ≤ max
      s.clock.clk t) ∧
    (∃ (k : Nat) (s : State), k ≤ 131 ∧ (rxLane s k).auto = true ∧ (rxLane s k).state = .locked ∧ (rxLane s k).ber =
      false) ∧
    (∃ (k : Nat) (hd : Nat) (s : State), k ≤ 131 ∧ (rxLane s k).state = .blockHunt ∧ hd ≠ 1 ∧ hd ≠ 2) ∧
    (∃ (k : Nat) (hd : Nat) (s : State), k ≤ 131 ∧ (rxLane s k).state = .blockHunt ∧ hd ≠ 1 ∧ hd ≠ 2) ∧
    (∃ (k : Nat) (hd : Nat) (s : State), k ≤ 131 ∧ (rxLane s k).state = .blockHunt ∧ (hd = 1 ∨ hd = 2) ∧ 63 ≤ (rxLane
      s k).huntGood) ∧
    (∃ (k : Nat) (hd : Nat) (s : State), k ≤ 131 ∧ (rxLane s k).state = .blockHunt ∧ (hd = 1 ∨ hd = 2) ∧ 63 ≤ (rxLane
      s k).huntGood) ∧
    (∃ (k : Nat) (s : State), k ≤ 131 ∧ (rxLane s k).state = .blockHunt) ∧
    (∃ (k : Nat) (s : State), k ≤ 131 ∧ ((rxLane s k).state = .pennantHunt ∨ (rxLane s k).state = .locked)) ∧
    (∃ (k : Nat) (s : State), k ≤ 131 ∧ ((rxLane s k).state = .pennantHunt ∨ (rxLane s k).state = .locked)) ∧
    (∃ (k : Nat) (s : State), k ≤ 131 ∧ ((rxLane s k).state = .pennantHunt ∨ (rxLane s k).state = .locked)) ∧
    (∃ (k : Nat) (s : State), k ≤ 131 ∧ ((rxLane s k).state = .pennantHunt ∨ (rxLane s k).state = .locked)) ∧
    (∃ (k : Nat) (s : State), k ≤ 131 ∧ ((rxLane s k).state = .pennantHunt ∨ (rxLane s k).state = .locked)) ∧
    (∃ (k : Nat) (s : State), k ≤ 131 ∧ ((rxLane s k).state = .pennantHunt ∨ (rxLane s k).state = .locked)) ∧
    (∃ (k : Nat) (s : State), k ≤ 131 ∧ ((rxLane s k).state = .pennantHunt ∨ (rxLane s k).state = .locked)) ∧
    (∃ (k : Nat) (s : State), k ≤ 131 ∧ (rxLane s k).state = .pennantHunt) ∧
    (∃ (k : Nat) (s : State), k ≤ 131 ∧ (rxLane s k).state = .locked) ∧
    (∃ (k : Nat) (b : List Byte) (s : State), k ≤ 131 ∧ lanesRun s = true ∧ (rxLane s k).state = .locked ∧
      validPennant b = true) ∧
    (∃ (k : Nat) (b : List Byte) (s : State), k ≤ 131 ∧ lanesRun s = true ∧ (rxLane s k).state = .locked ∧
      validPennant b = false ∧ 3 ≤ (rxLane s k).runBad) :=
  ⟨⟨131, { up .active with lane := { rx := [(131, { state := .locked })], signals := [131] } }, by decide +kernel⟩,
   ⟨131, { up .active with lane := { rx := [(131, { state := .noSignal })], signals := [131] } }, by decide +kernel⟩,
   ⟨0, 131, { up .active with lane := { rx := [(131, { state := .sweep, sweepAt := 19996800000 })], signals := [131] } },
     by decide +kernel⟩,
   ⟨131, { up .active with lane := { rx := [(131, { state := .locked })], signals := [131] } }, by decide +kernel⟩,
   ⟨131, 0, { up .active with lane := { rx := [(131, { state := .blockHunt })], signals := [131] } },
     by decide +kernel⟩,
   ⟨131, 3, { up .active with lane := { rx := [(131, { state := .blockHunt })], signals := [131] } },
     by decide +kernel⟩,
   ⟨131, 1, { up .active with lane := { rx := [(131, { state := .blockHunt, huntGood := 63 })], signals := [131] } },
     by decide +kernel⟩,
   ⟨131, 2, { up .active with lane := { rx := [(131, { state := .blockHunt, huntGood := 63 })], signals := [131] } },
     by decide +kernel⟩,
   ⟨131, { up .active with lane := { rx := [(131, { state := .blockHunt })], signals := [131] } }, by decide +kernel⟩,
   ⟨131, { up .active with lane := { rx := [(131, { state := .pennantHunt })], signals := [131] } },
     by decide +kernel⟩,
   ⟨131, { up .active with lane := { rx := [(131, { state := .locked })], signals := [131] } }, by decide +kernel⟩,
   ⟨131, { up .active with lane := { rx := [(131, { state := .pennantHunt })], signals := [131] } },
     by decide +kernel⟩,
   ⟨131, { up .active with lane := { rx := [(131, { state := .locked })], signals := [131] } }, by decide +kernel⟩,
   ⟨131, { up .active with lane := { rx := [(131, { state := .locked })], signals := [131] } }, by decide +kernel⟩,
   ⟨131, { up .active with lane := { rx := [(131, { state := .locked })], signals := [131] } }, by decide +kernel⟩,
   ⟨131, { up .active with lane := { rx := [(131, { state := .pennantHunt, ber := true })], signals := [131] } },
     by decide +kernel⟩,
   ⟨131, { up .active with lane := { rx := [(131, { state := .pennantHunt })], signals := [131] } },
     by decide +kernel⟩,
   ⟨131, { up .active with lane := { rx := [(131, { state := .locked })], signals := [131] } }, by decide +kernel⟩,
   ⟨131, beBytes 7 0xD2000000000000 ++ [crc8 (beBytes 6 0)], { up .active with lane := { rx := [(131, { state := .locked })], signals := [131] } },
     by decide +kernel⟩,
   ⟨131, [], { up .active with lane := { rx := [(131, { state := .locked, runBad := 3 })], signals := [131] } },
     by decide +kernel⟩⟩

/-- The premises of `PennantsSentAreValid`, clause by clause, at boundary values. -/
theorem test_pennants_sent_are_valid_premises :
    (∃ (k : Nat) (s : State), k ≤ 131 ∧ sendsPennants s k = true) ∧
    (∃ (k : Nat) (s : State), k ≤ 131 ∧ sendsPennants s k = false) :=
  ⟨⟨131, up .active, by decide +kernel⟩,
   ⟨131, up .boot, by decide +kernel⟩⟩

/-- The premises of `FlowCommandsTakeEffect`, clause by clause, at boundary values. -/
theorem test_flow_commands_take_effect_premises :
    (∃ (t : Nat) (c : HostCmd) (s : State), accepted .flowSrcDefine refuseFlowSrcDefine t c s = true ∧ srcDefined s
      (u16 c.params 0) = false) ∧
    (∃ (t : Nat) (c : HostCmd) (s : State), accepted .flowSrcDefine refuseFlowSrcDefine t c s = true ∧ srcDefined s
      (u16 c.params 0) = false) ∧
    (∃ (t : Nat) (c : HostCmd) (s : State), accepted .flowSrcDefine refuseFlowSrcDefine t c s = true ∧ srcDefined s
      (u16 c.params 0) = true) ∧
    (∃ (t : Nat) (c : HostCmd) (s : State), accepted .flowDstDefine refuseFlowDstDefine t c s = true ∧ (dstOf s (u16
      c.params 0)).def_ = none) ∧
    (∃ (t : Nat) (c : HostCmd) (s : State), accepted .flowDelete refuseFlowDelete t c s = true) ∧
    (∃ (t : Nat) (c : HostCmd) (s : State), accepted .flowDelete refuseFlowDelete t c s = true) ∧
    (∃ (t : Nat) (c : HostCmd) (s : State), accepted .flowGroupSet refuseFlowGroupSet t c s = true) ∧
    (∃ (t : Nat) (c : HostCmd) (s : State), accepted .flowGroupSet refuseFlowGroupSet t c s = true) ∧
    (∃ (t : Nat) (c : HostCmd) (s : State), accepted .flowParkSet refuseFlowParkSet t c s = true) ∧
    (∃ (t : Nat) (c : HostCmd) (s : State), accepted .flowParkSet refuseFlowParkSet t c s = true) ∧
    (∃ (t : Nat) (c : HostCmd) (s : State), accepted .flowQuery refuseFlowQuery t c s = true) ∧
    (∃ (t : Nat) (c : HostCmd) (s : State), accepted .flowQuery refuseFlowQuery t c s = true) ∧
    (∃ (t : Nat) (c : HostCmd) (s : State) (x : Totals), accepted .flowAdmitCheck refuseFlowAdmitCheck t c s = true ∧
      totalsOf (allSrcs s) (allDsts s) (compSlots s 64) (compLoad s 64) = x) ∧
    (∃ (n : Nat), n ≤ 1023) ∧
    (∃ (n : Nat), n ≤ 1023) ∧
    (∃ (p : Nat), p ≤ 7) ∧
    (∃ (p : Nat), p ≤ 7) :=
  ⟨⟨0, oc [0, 2, 1, 16, 0, 3, 1, 0, 0, 1, 0, 0, 64, 0, 0, 2, 0, 0, 0, 0], video, by decide +kernel⟩,
   ⟨0, oc [3, 255, 1, 16, 0, 3, 8, 0, 3, 232, 0, 0, 64, 0, 7, 255, 0, 0, 0, 0], video, by decide +kernel⟩,
   ⟨0, oc [0, 0, 1, 16, 0, 3, 8, 0, 0, 50, 0, 0, 64, 0, 0, 0, 0, 0, 0, 0], video, by decide +kernel⟩,
   ⟨0, oc [0, 2, 1, 16, 0, 0, 0, 0, 64, 0, 0, 2, 0, 0, 0, 0], video, by decide +kernel⟩,
   ⟨0, oc [0, 0, 0, 1], video, by decide +kernel⟩,
   ⟨0, oc [1, 0, 0, 1], video, by decide +kernel⟩,
   ⟨0, oc [127, 2, 0, 0, 0, 0, 0, 1], video, by decide +kernel⟩,
   ⟨0, oc [127, 0, 0, 0], { video with flow := { video.flow with groups := [(127, { members := [0, 1], bases := [none, none] })] } },
     by decide +kernel⟩,
   ⟨0, oc [0, 0, 2, 0, 0, 0, 0, 1], video, by decide +kernel⟩,
   ⟨0, oc [5, 255, 0, 0, 0, 0, 0, 0], video, by decide +kernel⟩,
   ⟨0, oc [0, 0, 3, 255], video, by decide +kernel⟩,
   ⟨0, oc [1, 0, 5, 255], video, by decide +kernel⟩,
   ⟨0, oc [3, 0, 0, 0], video, totalsOf (allSrcs video) (allDsts video) (compSlots video 64) (compLoad video 64),
     by decide +kernel⟩,
   ⟨1023, by decide +kernel⟩,
   ⟨0, by decide +kernel⟩,
   ⟨7, by decide +kernel⟩,
   ⟨0, by decide +kernel⟩⟩

/-- The premises of `FlowEventsMoveTheFlow`, clause by clause, at boundary values. -/
theorem test_flow_events_move_the_flow_premises :
    (∃ (n : Nat) (s : State), n ≤ 1023 ∧ (srcOf s n).deleting = true) ∧
    (∃ (d : Nat) (s : State), d ≤ 1023 ∧ (dstOf s d).deleting = true) ∧
    (∃ (n : Nat) (d : SrcDef) (old : SrcDef) (g : SrcCfg) (s : State), n ≤ 1023 ∧ (srcOf s n).redef = some (d, g) ∧
      (srcOf s n).def_ = some old) ∧
    (∃ (n : Nat) (c : Nat) (fl : Nat) (s : State), n ≤ 1023 ∧ 1 ≤ c ∧ c ≤ 2 ∧ flowRuns s n c = true ∧ fl.testBit 0 =
      false) ∧
    (∃ (n : Nat) (c : Nat) (fl : Nat) (s : State), n ≤ 1023 ∧ 1 ≤ c ∧ c ≤ 2 ∧ flowRuns s n c = true ∧ fl.testBit 0 =
      false) ∧
    (∃ (n : Nat) (c : Nat) (q : Nat) (s : State), n ≤ 1023 ∧ 1 ≤ c ∧ c ≤ 2 ∧ flowRuns s n c = true ∧ ((srcOf s
      n).copy c).inFrame = some q) ∧
    (∃ (t : Nat) (n : Nat) (q : Nat) (b : FrameBuf) (s : State), n ≤ 1023 ∧ bufOf s n q = some b ∧ b.closed = false ∧
      b.leadEnded = true ∧ b.joined = false ∧ b.leadAt + mergeWindow (srcOf s n) ≤ max s.clock.clk t) ∧
    (∃ (t : Nat) (n : Nat) (c : Nat) (s : State), n ≤ 1023 ∧ 1 ≤ c ∧ c ≤ 2 ∧ srcDefined s n = true ∧ ((srcOf s
      n).copyDef c).kind ≠ 0 ∧ ((srcOf s n).copy c).lost = false ∧ ((srcOf s n).copy c).lastAt + 2 * framePeriod
      (srcOf s n).format + mergeWindow (srcOf s n) ≤ max s.clock.clk t) ∧
    (∃ (n : Nat) (s : State) (b : _) (bs : _), n ≤ 1023 ∧ srcDefined s n = true ∧ inS1 s = false ∧ lanesRun s = true
      ∧ (srcOf s n).deleting = false ∧ (srcOf s n).redef = none ∧ (srcOf s n).cfgNext = none ∧ (srcOf s n).fmtOver =
      false ∧ cellDown s n = false ∧ paired s = false ∧ (srcOf s n).group = none ∧ (srcOf s n).phase = 3 ∧ candidates
      (srcOf s n) = b :: bs) ∧
    (∃ (n : Nat) (s : State), n ≤ 1023 ∧ srcDefined s n = true ∧ inS1 s = false ∧ lanesRun s = true ∧ (srcOf s
      n).deleting = false ∧ (srcOf s n).redef = none ∧ (srcOf s n).cfgNext = none ∧ (srcOf s n).fmtOver = false ∧
      cellDown s n = false ∧ paired s = false ∧ (srcOf s n).group = none ∧ (srcOf s n).phase = 3 ∧ candidates (srcOf
      s n) = []) ∧
    (∃ (n : Nat) (s : State), n ≤ 1023 ∧ srcDefined s n = true ∧ (srcOf s n).cfg.hold ≤ (srcOf s n).run ∧ ((srcOf s
      n).phase = 1 ∨ (srcOf s n).phase = 2 ∨ (srcOf s n).phase = 3)) ∧
    (∃ (n : Nat) (s : State), n ≤ 1023 ∧ srcDefined s n = true ∧ (srcOf s n).cfg.hold ≤ (srcOf s n).run ∧ ((srcOf s
      n).phase = 1 ∨ (srcOf s n).phase = 2 ∨ (srcOf s n).phase = 3)) ∧
    (∃ (n : Nat) (s : State), n ≤ 1023 ∧ srcDefined s n = true ∧ (srcOf s n).cfg.hold ≤ (srcOf s n).run ∧ ((srcOf s
      n).phase = 1 ∨ (srcOf s n).phase = 2 ∨ (srcOf s n).phase = 3)) :=
  ⟨⟨0, { video with flow := { video.flow with src := [(0, { source 0 with deleting := true })] } },
     by decide +kernel⟩,
   ⟨0, { video with flow := { video.flow with dst := [(0, { dest 0 with deleting := true })] } }, by decide +kernel⟩,
   ⟨0, { cls := 1, format := 0x11, plane := 0, copy1 := { kind := 1, index := 0 }, slot := 0, count := 1 }, { cls := 1, format := 0x10, plane := 0, copy1 := { kind := 1, index := 0 }, slot := 0, count := 1 },
     {}, { video with flow := { video.flow with src := [(0, { source 0 with redef := some ({ cls := 1, format := 0x11, plane := 0, copy1 := { kind := 1, index := 0 }, slot := 0, count := 1 }, {}) })] } },
     by decide +kernel⟩,
   ⟨0, 1, 0, video, by decide +kernel⟩,
   ⟨0, 1, 0xFE, video, by decide +kernel⟩,
   ⟨0, 1, 9, { video with flow := { video.flow with src := [(0, { source 0 with c1 := { inFrame := some 9, taking := true }, bufs := [{ seq := 9, slot := 0, lead := 1, leadAt := 0 }] })] } },
     by decide +kernel⟩,
   ⟨0, 0, 9, ({ seq := 9, slot := 0, lead := 1, leadAt := 19900000000, leadEnded := true } : FrameBuf), { video with flow := { video.flow with src := [(0, { source 0 with bufs := [{ seq := 9, slot := 0, lead := 1, leadAt := 19900000000, leadEnded := true }] })] } },
     by decide +kernel⟩,
   ⟨0, 0, 1, { video with flow := { video.flow with src := [(0, { source 0 with c1 := { lastAt := 0 } })] } },
     by decide +kernel⟩,
   ⟨0, { video with flow := { video.flow with src := [(0, { source 0 with bufs := [{ seq := 9, slot := 0, lead := 1, leadAt := 19900000000, leadEnded := true, closed := true }] })] } },
     ({ seq := 9, slot := 0, lead := 1, leadAt := 19900000000, leadEnded := true, closed := true } : FrameBuf), ([] :
     List FrameBuf), by decide +kernel⟩,
   ⟨0, video, by decide +kernel⟩,
   ⟨0, { video with flow := { video.flow with src := [(0, { source 0 with run := 50, phase := 1 })] } },
     by decide +kernel⟩,
   ⟨0, { video with flow := { video.flow with src := [(0, { source 0 with run := 50, phase := 2 })] } },
     by decide +kernel⟩,
   ⟨0, { video with flow := { video.flow with src := [(0, { source 0 with run := 50, phase := 3 })] } },
     by decide +kernel⟩⟩

/-- The premises of `CrosspointCommandsTakeEffect`, clause by clause, at boundary values. -/
theorem test_crosspoint_commands_take_effect_premises :
    (∃ (t : Nat) (c : HostCmd) (s : State), accepted .xptTake refuseXptTake t c s = true) ∧
    (∃ (t : Nat) (c : HostCmd) (s : State), accepted .xptTake refuseXptTake t c s = true) ∧
    (∃ (t : Nat) (c : HostCmd) (s : State), accepted .xptTakeBatch (refuseBatch 0) t c s = true) ∧
    (∃ (t : Nat) (c : HostCmd) (s : State), accepted .xptTakeAt (refuseBatch 12) t c s = true) ∧
    (∃ (t : Nat) (c : HostCmd) (s : State), accepted .xptQueueCancel refuseXptQueueCancel t c s = true) ∧
    (∃ (t : Nat) (c : HostCmd) (s : State), accepted .xptLock refuseXptLock t c s = true) ∧
    (∃ (t : Nat) (c : HostCmd) (s : State), accepted .xptUnlock refuseXptUnlock t c s = true) ∧
    (∃ (t : Nat) (c : HostCmd) (s : State), accepted .xptQuery refuseXptQuery t c s = true) ∧
    (∃ (t : Nat) (c : HostCmd) (s : State), accepted .xptTpSet refuseXptTpSet t c s = true) ∧
    (∃ (t : Nat) (c : HostCmd) (s : State), accepted .xptTpSet refuseXptTpSet t c s = true) ∧
    (∃ (t : Nat) (c : HostCmd) (s : State), accepted .xptQueueStatus refuseXptQueueStatus t c s = true) :=
  ⟨⟨0, oc [0, 0, 0, 1, 0, 0, 0, 7], video, by decide +kernel⟩,
   ⟨0, oc [0, 1, 255, 255, 1, 0, 0, 7], video, by decide +kernel⟩,
   ⟨0, oc [0, 0, 0, 2, 0, 9, 0, 0, 0, 0, 0, 1, 0, 1, 0, 0], video, by decide +kernel⟩,
   ⟨0, oc [0, 0, 0, 0, 0, 20, 0, 0, 0, 0, 0, 0, 0, 0, 0, 1, 0, 9, 0, 0, 0, 0, 0, 1], video, by decide +kernel⟩,
   ⟨0, sc [3, 0, 0, 0], { video with xpt := { video.xpt with queue := [{ order := 0, action := .video 0 (some 1), session := 1 }] } },
     by decide +kernel⟩,
   ⟨0, oc [0, 0, 2, 0], video, by decide +kernel⟩,
   ⟨0, sc [0, 0, 1, 0], { video with xpt := { video.xpt with dst := [(0, { lock := 2, owner := 9 })] } },
     by decide +kernel⟩,
   ⟨0, oc [5, 255, 0, 1], video, by decide +kernel⟩,
   ⟨0, mc [7, 5, 2, 0, 0, 0, 0, 0], video, by decide +kernel⟩,
   ⟨0, mc [0, 1, 0, 0, 0, 0, 0, 16], video, by decide +kernel⟩,
   ⟨0, oc [], video, by decide +kernel⟩⟩

/-- The premises of `CrosspointEventsTakeEffect`, clause by clause, at boundary values. -/
theorem test_crosspoint_events_take_effect_premises :
    (∃ (t : Nat) (d : Nat) (x : Entry) (src : Option Nat) (s : State), d ≤ 1023 ∧ (dstOf s d).def_.isSome = true ∧
      lanesRun s = true ∧ (dstOf s d).deleting = false ∧ (dstOf s d).redef = none ∧ readyTakes (advance t s) d = [x]
      ∧ x.action = .video d src) ∧
    (∃ (t : Nat) (d : Nat) (s : State), d ≤ 1023 ∧ (dstOf s d).def_.isSome = true ∧ lanesRun s = true ∧ (dstOf s
      d).deleting = false ∧ (dstOf s d).redef = none ∧ readyTakes (advance t s) d = []) ∧
    (∃ (d : Nat) (s : State), d ≤ 1023 ∧ (dstOf s d).def_.isSome = true ∧ lanesRun s = true ∧ inS1 s = false ∧
      s.saf.restarting.contains (d / 16) = false) ∧
    (∃ (n : Nat) (w0 : Nat) (w1 : Nat) (w2 : Nat) (w3 : Nat), n ≤ 2687 ∧ planeWordBad w0 = false ∧ planeWordBad w1 =
      false ∧ planeWordBad w2 = false ∧ planeWordBad w3 = false) ∧
    (∃ (n : Nat) (w0 : Nat) (w1 : Nat) (w2 : Nat) (w3 : Nat) (s : State), n ≤ 2687 ∧ lanesRun s = true ∧ planeWordBad
      w0 = true ∧ planeWordBad w1 = false ∧ planeWordBad w2 = false ∧ planeWordBad w3 = false ∧ (tget []
      s.saf.planeFails 0).length < 999) ∧
    (∃ (n : Nat) (w0 : Nat) (w1 : Nat) (w2 : Nat) (w3 : Nat) (s : State), n ≤ 2687 ∧ lanesRun s = true ∧ planeWordBad
      w0 = true ∧ planeWordBad w1 = true ∧ planeWordBad w2 = true ∧ planeWordBad w3 = true) ∧
    (∃ (s : State), s.clock.running = true ∧ s.mode ≠ .boot ∧ s.mode ≠ .retain ∧ s.xpt.ticked = false) :=
  ⟨⟨0, 0, ({ order := 0, action := .video 0 (some 1), session := 1, sealed_ := some 39000, arm := 19500000000 } :
     Entry), some 1, { video with xpt := { video.xpt with queue := [{ order := 0, action := .video 0 (some 1), session := 1, sealed_ := some 39000, arm := 19500000000 }] } },
     by decide +kernel⟩,
   ⟨0, 0, video, by decide +kernel⟩,
   ⟨0, video, by decide +kernel⟩,
   ⟨2687, 306935374642453229338624, 306935374642453229338624, 306935374642453229338624, 306935374642453229338624,
     by decide +kernel⟩,
   ⟨0, 0, 306935374642453229338624, 306935374642453229338624, 306935374642453229338624, video, by decide +kernel⟩,
   ⟨2687, 0, 0, 0, 0, video, by decide +kernel⟩,
   ⟨video, by decide +kernel⟩⟩

/-- The premises of `EpochTickSealsWhatIsDue`, clause by clause, at boundary values. -/
theorem test_epoch_tick_seals_what_is_due_premises :
    ∃ (t : Nat) (s : State) (u : State) (e : Entry), paired s = false ∧ s.clock.running = true ∧ s.mode ≠ .boot ∧
      s.mode ≠ .retain ∧ s.xpt.ticked = false ∧ exec (.epochTick t) s = .next u ∧ e ∈ u.xpt.queue ∧ e.unsealed = true :=
  ⟨0, { video with xpt := { video.xpt with queue := [{ order := 0, action := .video 0 (some 1), target := some 99999000000 }] } },
    nx (exec (.epochTick 0) ({ video with xpt := { video.xpt with queue := [{ order := 0, action := .video 0 (some 1), target := some 99999000000 }] } })),
    { order := 0, action := .video 0 (some 1), target := some 99999000000 }, by decide +kernel, by decide +kernel,
    by decide +kernel, by decide +kernel, by decide +kernel, next_nx (by decide +kernel), by decide +kernel,
    by decide +kernel⟩

/-- The premises of `CueCommandsTakeEffect`, clause by clause, at boundary values. -/
theorem test_cue_commands_take_effect_premises :
    (∃ (t : Nat) (c : HostCmd) (s : State), accepted .cueLoad refuseCueLoad t c s = true) ∧
    (∃ (t : Nat) (c : HostCmd) (s : State), accepted .cueRun refuseCueRun t c s = true) ∧
    (∃ (t : Nat) (c : HostCmd) (s : State), accepted .cueAbort refuseCueAbort t c s = true) ∧
    (∃ (t : Nat) (c : HostCmd) (s : State), accepted .cueStatus refuseCueStatus t c s = true) ∧
    (∃ (t : Nat) (c : HostCmd) (s : State), accepted .cueUnload refuseCueUnload t c s = true) :=
  ⟨⟨0, oc [255, 0, 0, 0, 0, 3, 0, 0, 157, 95, 123, 199, 1, 0, 0, 0, 0, 1, 0, 0, 16, 0, 0, 0, 0, 0, 0, 5, 0, 0, 0, 0,
     0, 0, 0, 0], video, by decide +kernel⟩,
   ⟨0, oc [0, 0, 0, 0, 0, 0, 0, 0, 0, 0, 0, 0, 0, 0, 0, 0, 0, 0, 0, 0, 0, 0, 0, 0, 0, 0, 0, 0, 0, 0, 0, 0, 0, 0, 0,
     0, 0, 0, 0, 0, 0, 0, 0, 0, 0, 0, 0, 0], { video with cue := { progs := [(0, { session := 1, words := [0], crc := 0#32 })] } },
     by decide +kernel⟩,
   ⟨0, oc [63, 0, 0, 0], { video with cue := { progs := [(0, { session := 1, words := [0], crc := 0#32 })], insts := [(63, { prog := 0, session := 1, role := .operator, run := 0 })] } },
     by decide +kernel⟩,
   ⟨0, oc [], video, by decide +kernel⟩,
   ⟨0, oc [0, 0, 0, 0], { video with cue := { progs := [(0, { session := 1, words := [0], crc := 0#32 })] } },
     by decide +kernel⟩⟩

/-- The premises of `CueInstancesProceed`, clause by clause, at boundary values. -/
theorem test_cue_instances_proceed_premises :
    (∃ (i : Nat) (x : CueInst) (p : CueProg) (s : State), i ≤ 63 ∧ cueActs s = true ∧ tfind s.cue.insts i = some x ∧
      x.state = .executing ∧ tfind s.cue.progs x.prog = some p ∧ cueOp (p.words.getD x.word 0) = 0 ∧
      s.xpt.queue.length ≤ 4096) ∧
    (∃ (i : Nat) (d : Nat) (n : Nat) (x : CueInst) (p : CueProg) (s : State), i ≤ 63 ∧ cueActs s = true ∧ tfind
      s.cue.insts i = some x ∧ x.state = .executing ∧ x.timed = none ∧ tfind s.cue.progs x.prog = some p ∧ d ≤ 1023 ∧
      n ≤ 1087 ∧ p.words.getD x.word 0 = BitVec.ofNat 64 (0x01 * 2 ^ 56 + d * 2 ^ 32 + n * 2 ^ 16) ∧ cueOp
      (p.words.getD (x.word + 1) 0) = 0 ∧ p.words ≠ [] ∧ s.xpt.queue.length < 4096) ∧
    (∃ (i : Nat) (d : Nat) (n : Nat) (x : CueInst) (p : CueProg) (s : State), i ≤ 63 ∧ cueActs s = true ∧ tfind
      s.cue.insts i = some x ∧ x.state = .executing ∧ x.timed = none ∧ tfind s.cue.progs x.prog = some p ∧ d ≤ 1023 ∧
      n ≤ 1087 ∧ p.words.getD x.word 0 = BitVec.ofNat 64 (0x01 * 2 ^ 56 + d * 2 ^ 32 + n * 2 ^ 16) ∧ cueOp
      (p.words.getD (x.word + 1) 0) = 0 ∧ p.words ≠ [] ∧ s.xpt.queue.length < 4096) ∧
    (∃ (t : Nat) (i : Nat) (g : Nat) (x : CueInst) (p : CueProg) (s : State), i ≤ 63 ∧ cueActs s = true ∧ tfind
      s.cue.insts i = some x ∧ x.state = .executing ∧ x.timed = none ∧ tfind s.cue.progs x.prog = some p ∧ cueOp
      (p.words.getD x.word 0) = 0x11 ∧ cueXf (p.words.getD x.word 0) = 0 ∧ s.xpt.queue.length ≤ 4096 ∧ g = x.t0 +
      bitsOf (p.words.getD x.word 0).toNat 47 0 * 1000 ∧ (advance t s).clock.now + 2000000 ≤ g) ∧
    (∃ (i : Nat) (x : CueInst) (s : State), i ≤ 63 ∧ cueActs s = true ∧ tfind s.cue.insts i = some x ∧ x.state =
      .executing) ∧
    (∃ (i : Nat) (x : CueInst) (p : CueProg) (s : State), i ≤ 63 ∧ cueActs s = true ∧ tfind s.cue.insts i = some x ∧
      x.state = .waitEntries ∧ tfind s.cue.progs x.prog = some p ∧ queueFits s (groupNeeds s x) = false) ∧
    (∃ (i : Nat) (x : CueInst) (p : CueProg) (s : State), i ≤ 63 ∧ cueActs s = true ∧ tfind s.cue.insts i = some x ∧
      x.state = .waitEntries ∧ tfind s.cue.progs x.prog = some p ∧ queueFits s (groupNeeds s x) = true) ∧
    (∃ (i : Nat) (x : CueInst) (s : State), i ≤ 63 ∧ tfind s.cue.insts i = some x ∧ x.state = .waitEntries ∧
      s.cue.stallTicks ≤ x.ticks) ∧
    (∃ (i : Nat) (x : CueInst) (s : State), i ≤ 63 ∧ tfind s.cue.insts i = some x ∧ x.state = .waitFrames ∧ x.left =
      0) ∧
    (∃ (t : Nat) (i : Nat) (x : CueInst) (s : State), i ≤ 63 ∧ tfind s.cue.insts i = some x ∧ x.state = .waitTime ∧
      x.resumeAt ≤ (advance t s).clock.now) ∧
    (∃ (t : Nat) (k : Nat) (i : Nat) (s : State), k ≤ 31 ∧ (compareOf s k).binds.isSome = true ∧ (compareOf s
      k).started = false ∧ 0 < compareDist (compareOf s k).target (advance t s).clock.now ∧ compareDist (compareOf s
      k).target (advance t s).clock.now ≤ 2000000 ∧ cueActs s = true ∧ (tfind s.cue.progs (compareOf s
      k).program).isSome = true ∧ modeRefusal .cueRun { session := (compareOf s k).session, role := (compareOf s k).role }
      s = none ∧ freeInst s = some i) ∧
    (∃ (t : Nat) (i : Nat) (k : CueMarkItem) (s : State), i ≤ 63 ∧ s.evt.running = true ∧ s.evt.pending.length < 256
      ∧ s.cue.marks.find? (fun k => !k.pulse && k.inst == i &&
      (match k.arm with | some a => decide (a ≤ (advance t s).clock.now) | none => false)) = some k) :=
  ⟨⟨63, ({ prog := 0, session := 1, role := .operator, run := 0 } : CueInst), ({ session := 1, words := [0], crc := 0#32 }
     : CueProg), { video with cue := { progs := [(0, { session := 1, words := [0], crc := 0#32 })], insts := [(63, { prog := 0, session := 1, role := .operator, run := 0 })] } },
     by decide +kernel⟩,
   ⟨63, 0, 1, ({ prog := 0, session := 1, role := .operator, run := 0 } : CueInst), ({ session := 1, words := [BitVec.ofNat 64 (0x01 * 2 ^ 56 + 0 * 2 ^ 32 + 1 * 2 ^ 16), 0], crc := 0#32 }
     : CueProg), { video with cue := { progs := [(0, { session := 1, words := [BitVec.ofNat 64 (0x01 * 2 ^ 56 + 0 * 2 ^ 32 + 1 * 2 ^ 16), 0], crc := 0#32 })], insts := [(63, { prog := 0, session := 1, role := .operator, run := 0 })] } },
     by decide +kernel⟩,
   ⟨63, 1023, 1087, ({ prog := 0, session := 1, role := .operator, run := 0 } : CueInst), ({ session := 1, words := [BitVec.ofNat 64 (0x01 * 2 ^ 56 + 1023 * 2 ^ 32 + 1087 * 2 ^ 16), 0], crc := 0#32 }
     : CueProg), { video with cue := { progs := [(0, { session := 1, words := [BitVec.ofNat 64 (0x01 * 2 ^ 56 + 1023 * 2 ^ 32 + 1087 * 2 ^ 16), 0], crc := 0#32 })], insts := [(63, { prog := 0, session := 1, role := .operator, run := 0 })] } },
     by decide +kernel⟩,
   ⟨0, 63, 20002000000, ({ prog := 0, session := 1, role := .operator, run := 0, t0 := 20000000000 } : CueInst), ({ session := 1, words := [BitVec.ofNat 64 (0x11 * 2 ^ 56 + 2000), 0], crc := 0#32 }
     : CueProg), { video with cue := { progs := [(0, { session := 1, words := [BitVec.ofNat 64 (0x11 * 2 ^ 56 + 2000), 0], crc := 0#32 })], insts := [(63, { prog := 0, session := 1, role := .operator, run := 0, t0 := 20000000000 })] } },
     by decide +kernel⟩,
   ⟨63, ({ prog := 0, session := 1, role := .operator, run := 0 } : CueInst), { video with cue := { progs := [(0, { session := 1, words := [0], crc := 0#32 })], insts := [(63, { prog := 0, session := 1, role := .operator, run := 0 })] } },
     by decide +kernel⟩,
   ⟨63, ({ prog := 0, session := 1, role := .operator, run := 0, state := .waitEntries, group := [(0, .take 0 1)] } :
     CueInst), ({ session := 1, words := [BitVec.ofNat 64 (0x01 * 2 ^ 56 + 0 * 2 ^ 32 + 1 * 2 ^ 16), 0], crc := 0#32 }
     : CueProg), { ({ video with xpt := { video.xpt with queue := List.replicate 4096 { order := 0, action := .video 0 none } } } : State) with cue := { progs := [(0, { session := 1, words := [BitVec.ofNat 64 (0x01 * 2 ^ 56 + 0 * 2 ^ 32 + 1 * 2 ^ 16), 0], crc := 0#32 })], insts := [(63, { prog := 0, session := 1, role := .operator, run := 0, state := .waitEntries, group := [(0, .take 0 1)] })] } },
     by decide +kernel⟩,
   ⟨63, ({ prog := 0, session := 1, role := .operator, run := 0, state := .waitEntries, group := [(0, .take 0 1)] } :
     CueInst), ({ session := 1, words := [BitVec.ofNat 64 (0x01 * 2 ^ 56 + 0 * 2 ^ 32 + 1 * 2 ^ 16), 0], crc := 0#32 }
     : CueProg), { video with cue := { progs := [(0, { session := 1, words := [BitVec.ofNat 64 (0x01 * 2 ^ 56 + 0 * 2 ^ 32 + 1 * 2 ^ 16), 0], crc := 0#32 })], insts := [(63, { prog := 0, session := 1, role := .operator, run := 0, state := .waitEntries, group := [(0, .take 0 1)] })] } },
     by decide +kernel⟩,
   ⟨63, ({ prog := 0, session := 1, role := .operator, run := 0, state := .waitEntries, ticks := 20 } : CueInst), { video with cue := { progs := [(0, { session := 1, words := [0], crc := 0#32 })], insts := [(63, { prog := 0, session := 1, role := .operator, run := 0, state := .waitEntries, ticks := 20 })] } },
     by decide +kernel⟩,
   ⟨63, ({ prog := 0, session := 1, role := .operator, run := 0, state := .waitFrames } : CueInst), { video with cue := { progs := [(0, { session := 1, words := [0], crc := 0#32 })], insts := [(63, { prog := 0, session := 1, role := .operator, run := 0, state := .waitFrames })] } },
     by decide +kernel⟩,
   ⟨0, 63, ({ prog := 0, session := 1, role := .operator, run := 0, state := .waitTime, resumeAt := 20000000000 } :
     CueInst), { video with cue := { progs := [(0, { session := 1, words := [0], crc := 0#32 })], insts := [(63, { prog := 0, session := 1, role := .operator, run := 0, state := .waitTime, resumeAt := 20000000000 })] } },
     by decide +kernel⟩,
   ⟨0, 31, 0, { video with cue := { progs := [(0, { session := 1, words := [0], crc := 0#32 })] }, tim := { video.tim with compares := [(31, { actions := 4, state := 1, session := 1, target := 20002000000 % 0x10000000000 })] } },
     by decide +kernel⟩,
   ⟨0, 63, ({ inst := 63, run := 0, prog := 0, order := 0, arm := some 20000000000 } : CueMarkItem), { video with cue := { marks := [({ inst := 63, run := 0, prog := 0, order := 0, arm := some 20000000000 } : CueMarkItem)] } },
     by decide +kernel⟩⟩

/-- The premises of `StoreCommandsTakeEffect`, clause by clause, at boundary values. -/
theorem test_store_commands_take_effect_premises :
    (∃ (t : Nat) (c : HostCmd) (s : State), accepted .fstZoneSet refuseFstZoneSet t c s = true) ∧
    (∃ (t : Nat) (c : HostCmd) (s : State), accepted .fstZoneSet refuseFstZoneSet t c s = true) ∧
    (∃ (t : Nat) (c : HostCmd) (s : State), accepted .fstObjWrite refuseFstObjWrite t c s = true) ∧
    (∃ (t : Nat) (c : HostCmd) (s : State), accepted .fstObjWrite refuseFstObjWrite t c s = true) ∧
    (∃ (t : Nat) (c : HostCmd) (s : State) (u : State) (v : Version) (a : Nat), accepted .fstObjWrite
      refuseFstObjWrite t c s = true ∧ exec (.fstObjWrite t c) s = .next u ∧ (if (objWriteOf c).create then (objOf
      (createVersion (objWriteOf c).obj (objWriteOf c).kind (objWriteOf c).zone (objWriteOf c).format (objWriteOf
      c).length (objWriteOf c).crc 0 0 s) (objWriteOf c).obj).load.map (·.1) else (objOf s (objWriteOf
      c).obj).load.map (·.1)) = some v ∧ (∀ p ∈ pieces256 (zoneOf s v.zone) (v.first * 65536 + (objWriteOf c).offset)
      (objWriteOf c).data.length, a < p.1 ∨ p.1 + p.2 ≤ a)) ∧
    (∃ (t : Nat) (c : HostCmd) (s : State) (v : Version), accepted .fstObjRead refuseFstObjRead t c s = true ∧ (objOf
      s (u16 c.params 0)).cur = some v) ∧
    (∃ (t : Nat) (c : HostCmd) (s : State), accepted .fstObjFree refuseFstObjFree t c s = true) ∧
    (∃ (t : Nat) (c : HostCmd) (s : State), accepted .fstObjFree refuseFstObjFree t c s = true) ∧
    (∃ (t : Nat) (c : HostCmd) (s : State), accepted .fstBankStatus refuseFstBankStatus t c s = true) ∧
    (∃ (t : Nat) (c : HostCmd) (s : State), accepted .fstInvalidClear refuseFstInvalidClear t c s = true) ∧
    (∃ (t : Nat) (c : HostCmd) (s : State), accepted .fstInvalidClear refuseFstInvalidClear t c s = true) ∧
    (∃ (t : Nat) (c : HostCmd) (s : State), accepted .fstRetainSet refuseFstRetainSet t c s = true) :=
  ⟨⟨0, mc [7, 2, 124, 2, 63, 252, 0, 2], up .maintenance, by decide +kernel⟩,
   ⟨0, mc [7, 255, 0, 0, 0, 0, 0, 0], up .maintenance, by decide +kernel⟩,
   ⟨0, oc [7, 254, 3, 3, 2, 0, 0, 0, 0, 0, 0, 4, 134, 200, 200, 50, 0, 0, 0, 0, 0, 0, 0, 0, 1, 2, 3, 4], up .active,
     by decide +kernel⟩,
   ⟨0, oc [0, 0, 2, 3, 2, 0, 0, 0, 0, 0, 0, 4, 134, 200, 200, 50, 0, 0, 0, 0, 0, 0, 0, 0, 1, 2, 3, 4], { up .active with fst := { objs := [(0, { load := some ({ kind := 3, zone := 2, format := 0, length := 4, crc := 2261305394, first := 0, units := 1 }, 0) })] } },
     by decide +kernel⟩,
   ⟨0, oc [7, 254, 1, 3, 2, 0, 0, 0, 0, 0, 0, 4, 134, 200, 200, 50, 0, 0, 0, 0, 0, 0, 0, 0, 1, 2, 3, 4], up .active,
     nx (exec (.fstObjWrite 0 (oc [7, 254, 1, 3, 2, 0, 0, 0, 0, 0, 0, 4, 134, 200, 200, 50, 0, 0, 0, 0, 0, 0, 0, 0,
     1, 2, 3, 4])) (up .active)), { kind := 3, zone := 2, format := 0, length := 4, crc := 2261305394, first := 0, units := 1 },
     0, by decide +kernel, next_nx (by decide +kernel), by decide +kernel, by decide +kernel⟩,
   ⟨0, oc [0, 7, 0, 0, 0, 0, 0, 0, 0, 0, 0, 4], { up .active with fst := { objs := [(7, { cur := some { kind := 3, zone := 2, format := 0, length := 4, crc := 2261305394, first := 0, units := 1 } })] } },
     { kind := 3, zone := 2, format := 0, length := 4, crc := 2261305394, first := 0, units := 1 },
     by decide +kernel⟩,
   ⟨0, oc [0, 7, 0, 0], { up .active with fst := { objs := [(7, { cur := some { kind := 3, zone := 2, format := 0, length := 4, crc := 2261305394, first := 0, units := 1 } })] } },
     by decide +kernel⟩,
   ⟨0, oc [7, 254, 1, 0], { up .active with fst := { objs := [(2046, { invalid := true })] } }, by decide +kernel⟩,
   ⟨0, oc [], up .active, by decide +kernel⟩,
   ⟨0, oc [255, 255, 0, 0], { up .active with fst := { objs := [(7, { invalid := true })] } }, by decide +kernel⟩,
   ⟨0, oc [7, 255, 0, 0], up .active, by decide +kernel⟩,
   ⟨0, mc [0, 0, 0, 0, 0, 0, 0, 0, 0, 0, 0, 0, 0, 0, 0, 5], up .active, by decide +kernel⟩⟩

/-- The premises of `StoreEventsTakeEffect`, clause by clause, at boundary values. -/
theorem test_store_events_take_effect_premises :
    (∃ (t : Nat) (n : Nat) (a : Nat) (v : Version) (s : State), n ≤ 2047 ∧ (objOf s n).load = some (v, a) ∧ a +
      60000000000 ≤ max s.clock.clk t) ∧
    (∃ (n : Nat), n ≤ 2047) ∧
    (∃ (n : Nat), n ≤ 2047) ∧
    (∃ (n : Nat), n ≤ 2047) ∧
    (∃ (g : Nat) (s : State), g ≤ 4095 ∧ g ∈ s.fst.lost ∧ bankHeld s g = false ∧ s.cal.failed = false) ∧
    (∃ (g : Nat) (s : State), g ≤ 4095 ∧ g ∈ s.fst.lost ∧ bankHeld s g = false ∧ s.cal.failed = false) ∧
    (∃ (pc : Nat) (b : Nat) (r : Nat) (k : Nat) (s : State), pc ≤ 127 ∧ b ≤ 31 ∧ r ≤ 16383 ∧ k ≤ 31 ∧ (tget {}
      s.fst.pcs pc).state ≠ 0 ∧ (tget {} s.fst.pcs pc).state ≠ 3 ∧ (Loc.mk pc b r k 0).addr / 32 + 1 < 2 ^ 31 ∧
      burstFails s ⟨pc, b, r, k, 0⟩ none = []) ∧
    (∃ (pc : Nat) (b : Nat) (r : Nat) (k : Nat) (s : State), pc ≤ 127 ∧ b ≤ 31 ∧ r ≤ 16383 ∧ k ≤ 31 ∧ (tget {}
      s.fst.pcs pc).state ≠ 0 ∧ (tget {} s.fst.pcs pc).state ≠ 3 ∧ (Loc.mk pc b r k 0).addr / 32 + 1 < 2 ^ 31 ∧
      burstFails s ⟨pc, b, r, k, 0⟩ none ≠ [] ∧ (∀ q ∈ s.fst.confirm, q.addr ≠ (Loc.mk pc b r k 0).addr)) ∧
    (∃ (s : State), (tget {} s.fst.pcs 127).state ≠ 0 ∧ (tget {} s.fst.pcs 127).state ≠ 3) ∧
    (∃ (t : Nat) (pc : Nat) (b : Nat) (r : Nat) (k : Nat) (q : Confirm) (s : State), pc ≤ 127 ∧ b ≤ 31 ∧ r ≤ 16383 ∧
      k ≤ 31 ∧ s.fst.confirm.find? (fun x => x.addr == (Loc.mk pc b r k 0).addr) = some q ∧ q.at_ + 1000 ≤ max
      s.clock.clk t ∧ (burstFails s ⟨pc, b, r, k, 0⟩ none).filter (fun n => q.fails.contains n) = []) ∧
    (∃ (t : Nat) (pc : Nat) (b : Nat) (r : Nat) (k : Nat) (q : Confirm) (s : State) (n : _) (v : _), pc ≤ 127 ∧ b ≤
      31 ∧ r ≤ 16383 ∧ k ≤ 31 ∧ s.fst.confirm.find? (fun x => x.addr == (Loc.mk pc b r k 0).addr) = some q ∧ q.at_ +
      1000 ≤ max s.clock.clk t ∧ (burstFails s ⟨pc, b, r, k, 0⟩ none).filter (fun n => q.fails.contains n) ≠ [] ∧
      placeOf s q.addr = .object n ∧ (objOf s n).cur = some v ∧ (objOf s n).invalid = false ∧ (tget [] s.saf.pcStored
      pc).length < 63) ∧
    (∃ (pc : Nat), pc ≤ 127) ∧
    (∃ (pc : Nat) (b : Nat), pc ≤ 127 ∧ b ≤ 31) ∧
    (∃ (k : Nat), k ≤ 3) ∧
    (∃ (k : Nat), k ≤ 3) ∧
    (∃ (t : Nat) (pc : Nat) (b : Nat) (r : Nat) (a : Nat) (s : State), pc ≤ 127 ∧ b ≤ 31 ∧ tfind (tget {} s.fst.pcs
      pc).openRows b = some (r, a) ∧ a * 4 + s.fst.pageIdle * 5 ≤ max s.clock.clk t * 4) ∧
    (∃ (t : Nat) (pc : Nat) (s : State), pc ≤ 127 ∧ (tget {} s.fst.pcs pc).state = 1 ∧ s.fst.srIdleUs ≠ 0 ∧ (tget {}
      s.fst.pcs pc).lastAccess + s.fst.srIdleUs * 1000 ≤ max s.clock.clk t) ∧
    (∃ (pc : Nat), pc ≤ 127) :=
  ⟨⟨60000000000, 2047, 0, ({ kind := 3, zone := 2, format := 0, length := 4, crc := 2261305394, first := 0, units := 1 }
     : Version), { up .active with fst := { objs := [(2047, { load := some ({ kind := 3, zone := 2, format := 0, length := 4, crc := 2261305394, first := 0, units := 1 }, 0) })] } },
     by decide +kernel⟩,
   ⟨2047, by decide +kernel⟩,
   ⟨2047, by decide +kernel⟩,
   ⟨2047, by decide +kernel⟩,
   ⟨4095, { up .active with fst := { lost := [4095] } }, by decide +kernel⟩,
   ⟨4095, { up .active with fst := { lost := [4095] } }, by decide +kernel⟩,
   ⟨127, 31, 16383, 30, { up .active with fst := { pcs := [(127, { state := 1 })] } }, by decide +kernel⟩,
   ⟨0, 0, 10752, 0, { up .active with fst := { pcs := [(0, { state := 1 })], bad := [10752 * 1024 + 3] } },
     by decide +kernel⟩,
   ⟨{ up .active with fst := { pcs := [(127, { state := 1 })] } }, by decide +kernel⟩,
   ⟨0, 0, 0, 10752, 0, ({ addr := (Loc.mk 0 0 10752 0 0).addr, requester := 0, fails := [3], at_ := 19999999000 } :
     Confirm), { up .active with fst := { confirm := [({ addr := (Loc.mk 0 0 10752 0 0).addr, requester := 0, fails := [3], at_ := 19999999000 } : Confirm)] } },
     by decide +kernel⟩,
   ⟨0, 0, 0, 10752, 0, ({ addr := (Loc.mk 0 0 10752 0 0).addr, requester := 0, fails := [3], at_ := 19999999000 } :
     Confirm), { up .active with fst := { bad := [10752 * 1024 + 3], confirm := [({ addr := (Loc.mk 0 0 10752 0 0).addr, requester := 0, fails := [3], at_ := 19999999000 } : Confirm)], objs := [(7, { cur := some { kind := 3, zone := 2, format := 0, length := 4, crc := 2261305394, first := 0, units := 1 } })] } },
     7, ({ kind := 3, zone := 2, format := 0, length := 4, crc := 2261305394, first := 0, units := 1 } : Version),
     by decide +kernel⟩,
   ⟨127, by decide +kernel⟩,
   ⟨127, 31, by decide +kernel⟩,
   ⟨3, by decide +kernel⟩,
   ⟨3, by decide +kernel⟩,
   ⟨0, 127, 31, 7, 19999999920, { up .active with fst := { pcs := [(127, { openRows := [(31, (7, 19999999920))] })] } },
     by decide +kernel⟩,
   ⟨0, 127, { up .active with fst := { pcs := [(127, { state := 1, lastAccess := 19999990000 })] } },
     by decide +kernel⟩,
   ⟨127, by decide +kernel⟩⟩

/-- The premises of `ObjectBytesReadBack`, clause by clause, at boundary values. -/
theorem test_object_bytes_read_back_premises :
    (∃ (k : Nat) (off : Nat) (data : List Byte) (s : State), k ≤ 7 ∧ (zoneOf s k).defined = true ∧ zoneBroken (zoneOf
      s k) = false ∧ (zoneOf s k).order ≤ 2 ∧ memWf 0#8 s.fst.mem = true ∧ off + data.length ≤ (zoneOf s k).units *
      65536) ∧
    (∃ (k : Nat) (off : Nat) (data : List Byte) (s : State), k ≤ 7 ∧ (zoneOf s k).defined = true ∧ zoneBroken (zoneOf
      s k) = false ∧ (zoneOf s k).order ≤ 2 ∧ memWf 0#8 s.fst.mem = true ∧ off + data.length ≤ (zoneOf s k).units *
      65536) ∧
    (∃ (k : Nat) (off : Nat) (data : List Byte) (s : State) (o : _), k ≤ 7 ∧ (zoneOf s k).defined = true ∧ zoneBroken
      (zoneOf s k) = false ∧ (zoneOf s k).order ≤ 2 ∧ memWf 0#8 s.fst.mem = true ∧ off + data.length ≤ (zoneOf s
      k).units * 65536 ∧ o < (zoneOf s k).units * 65536 ∧ (o < off ∨ off + data.length ≤ o)) ∧
    (∃ (k : Nat) (off : Nat) (data : List Byte) (s : State) (o : _), k ≤ 7 ∧ (zoneOf s k).defined = true ∧ zoneBroken
      (zoneOf s k) = false ∧ (zoneOf s k).order ≤ 2 ∧ memWf 0#8 s.fst.mem = true ∧ off + data.length ≤ (zoneOf s
      k).units * 65536 ∧ o < (zoneOf s k).units * 65536 ∧ (o < off ∨ off + data.length ≤ o)) ∧
    (∃ (k : Nat) (off : Nat) (data : List Byte) (s : State) (o : _), k ≤ 7 ∧ (zoneOf s k).defined = true ∧ zoneBroken
      (zoneOf s k) = false ∧ (zoneOf s k).order ≤ 2 ∧ memWf 0#8 s.fst.mem = true ∧ off + data.length ≤ (zoneOf s
      k).units * 65536 ∧ o < (zoneOf s k).units * 65536 ∧ (∀ j, j < k → zonesOverlap (zoneOf s j) (zoneOf s k) =
      false)) :=
  ⟨⟨4, 65530, [1#8, 2#8], up .active, by decide +kernel⟩,
   ⟨2, 0, [1#8, 0#8], up .active, by decide +kernel⟩,
   ⟨2, 8, [1#8], up .active, 7, by decide +kernel⟩,
   ⟨2, 8, [1#8], up .active, 9, by decide +kernel⟩,
   ⟨4, 0, [], up .active, 4194303, by decide +kernel⟩⟩

/-- The premises of `CompositorCommandsTakeEffect`, clause by clause, at boundary values. -/
theorem test_compositor_commands_take_effect_premises :
    (∃ (t : Nat) (c : HostCmd) (s : State), accepted .cmpConfig refuseCmpConfig t c s = true) ∧
    (∃ (t : Nat) (c : HostCmd) (s : State), accepted .cmpConfig refuseCmpConfig t c s = true) ∧
    (∃ (t : Nat) (c : HostCmd) (s : State), accepted .cmpLayerSet refuseCmpLayerSet t c s = true) ∧
    (∃ (t : Nat) (c : HostCmd) (s : State), accepted .cmpLayerSet refuseCmpLayerSet t c s = true) ∧
    (∃ (t : Nat) (c : HostCmd) (s : State), accepted .cmpCommit refuseCmpCommit t c s = true) ∧
    (∃ (t : Nat) (c : HostCmd) (s : State), accepted .cmpCommit refuseCmpCommit t c s = true) ∧
    (∃ (t : Nat) (c : HostCmd) (s : State), accepted .cmpLutLoad refuseCmpLutLoad t c s = true) ∧
    (∃ (t : Nat) (c : HostCmd) (s : State), accepted .cmpSurfaceLoad refuseCmpSurfaceLoad t c s = true) ∧
    (∃ (t : Nat) (c : HostCmd) (s : State) (u : State) (v : Version) (w : SurfaceLoad) (a : Nat), accepted
      .cmpSurfaceLoad refuseCmpSurfaceLoad t c s = true ∧ exec (.cmpSurfaceLoad t c) s = .next u ∧ w = surfaceLoadOf
      s c ∧ (if w.create then (objOf (createVersion w.obj 2 w.zone w.format (surfaceLength w.width w.height w.format)
      w.crc w.width w.height s) w.obj).load.map (·.1) else (objOf s w.obj).load.map (·.1)) = some v ∧ (w.create =
      true → (∀ p ∈ pieces256 (zoneOf s v.zone) (v.first * 65536) (surfaceHeader w.width w.height w.format).length, a
      < p.1 ∨ p.1 + p.2 ≤ a) ∧ ∀ o, zoneAt s a = some (v.zone, o) → o < v.first * 65536 ∨ v.first * 65536 + v.length
      ≤ o) ∧ (∀ j, j < w.count → ∀ r ∈ lineRuns w.width (tileSide w.format), ∀ p ∈ pieces256 (zoneOf s v.zone)
      (v.first * 65536 + surfaceOffset w.width w.format r.1 (w.first + j)) (r.2 * pixelBytes w.format), a < p.1 ∨ p.1
      + p.2 ≤ a)) ∧
    (∃ (t : Nat) (c : HostCmd) (s : State), accepted .cmpDisable refuseCmpDisable t c s = true) ∧
    (∃ (t : Nat) (c : HostCmd) (s : State), accepted .cmpQuery refuseCmpQuery t c s = true) ∧
    (∃ (t : Nat) (c : HostCmd) (s : State), accepted .cmpQuery refuseCmpQuery t c s = true) :=
  ⟨⟨0, oc [63, 3, 0, 16, 1, 1, 0, 0, 0, 1, 0, 2, 0, 3, 0, 0], video, by decide +kernel⟩,
   ⟨0, oc [63, 2, 0, 0, 0, 0, 0, 0, 0, 0, 0, 0, 0, 0, 0, 0], composing 63 {}, by decide +kernel⟩,
   ⟨0, oc [63, 6, 63, 254, 3, 2, 0, 7, 0, 0, 0, 0, 1, 4, 255, 255, 224, 0, 31, 255, 64, 0, 64, 0, 63, 255, 63, 255,
     64, 0, 64, 0], composing 63 {}, by decide +kernel⟩,
   ⟨0, sc [63, 7, 63, 254, 3, 2, 0, 7, 0, 0, 0, 0, 1, 4, 255, 255, 224, 0, 31, 255, 64, 0, 64, 0, 63, 255, 63, 255,
     64, 0, 64, 0], composing 63 {}, by decide +kernel⟩,
   ⟨0, oc [0, 0, 1, 0, 0, 5, 0, 0, 63, 0, 0, 0], composing 63 {}, by decide +kernel⟩,
   ⟨0, oc [1, 0, 1, 0, 0, 5, 0, 0, 63, 0, 0, 0], composing 63 {}, by decide +kernel⟩,
   ⟨0, oc [63, 0, 0, 9], { composing 63 {} with fst := { objs := [(9, { cur := some { kind := 4, zone := 3, format := 1, length := 215622, crc := 0, first := 0, units := 4 } })] } },
     by decide +kernel⟩,
   ⟨0, oc [7, 254, 1, 1, 0, 1, 0, 1, 2, 0, 0, 0, 0, 0, 0, 0, 0, 0, 0, 0], video, by decide +kernel⟩,
   ⟨0, oc [7, 254, 1, 1, 0, 1, 0, 1, 2, 0, 0, 0, 0, 0, 0, 0, 0, 0, 0, 0], video, nx (exec (.cmpSurfaceLoad 0 (oc [7,
     254, 1, 1, 0, 1, 0, 1, 2, 0, 0, 0, 0, 0, 0, 0, 0, 0, 0, 0])) video), { kind := 2, zone := 2, format := 1, length := 2048, crc := 0, first := 0, units := 1, width := 1, height := 1 },
     surfaceLoadOf video (oc [7, 254, 1, 1, 0, 1, 0, 1, 2, 0, 0, 0, 0, 0, 0, 0, 0, 0, 0, 0]), 16776192,
     by decide +kernel, next_nx (by decide +kernel), by decide +kernel, by decide +kernel,
     (by intro _; refine ⟨by decide +kernel, ?_⟩; intro o h; rw [no_zone_at_top] at h; cases h), by decide +kernel⟩,
   ⟨0, oc [63, 0, 0, 0], composing 63 {}, by decide +kernel⟩,
   ⟨0, oc [63, 1, 0, 0], composing 63 {}, by decide +kernel⟩,
   ⟨0, oc [0, 0, 0, 0], video, by decide +kernel⟩⟩

/-- The premises of `CompositorEventsTakeEffect`, clause by clause, at boundary values. -/
theorem test_compositor_events_take_effect_premises :
    (∃ (c : Nat) (j : LutJob) (v : Version) (s : State), c ≤ 63 ∧ (compOf s c).lut.jobs.head? = some j ∧ j.waiting =
      false ∧ j.cmd.isSome = true ∧ (objOf s j.obj).valid = some v ∧ v.kind = 4 ∧ s.fst.bad = []) ∧
    (∃ (c : Nat) (j : LutJob) (s : State), c ≤ 63 ∧ (compOf s c).lut.jobs.head? = some j ∧ j.waiting = false ∧
      j.cmd.isSome = true ∧ (objOf s j.obj).valid = none) ∧
    (∃ (t : Nat) (c : Nat) (x : CmpChange) (s : State), c ≤ 63 ∧ lanesRun s = true ∧ (compOf s c).change = some x ∧
      x.at_ ≤ max s.clock.clk t) ∧
    (∃ (t : Nat) (c : Nat) (a : Nat) (s : State), c ≤ 63 ∧ lanesRun s = true ∧ (compOf s c).state = 3 ∧ (compOf s
      c).disableAt = some a ∧ a ≤ max s.clock.clk t) ∧
    (∃ (c : Nat) (s : State), c ≤ 63 ∧ compOn s c = true ∧ lanesRun s = true ∧ inS1 s = false) ∧
    (∃ (t : Nat) (c : Nat) (x : Snapshot) (s : State), c ≤ 63 ∧ compOn s c = true ∧ lanesRun s = true ∧ inS1 s =
      false ∧ (compOf s c).sealed_ = [x] ∧ (∀ l, l < 8 → readyTakes (advance t s) (layerDest c l) = []) ∧ snapEntries
      s c x.tick ≠ [] ∧ snapReady (advance t s) c (planeCount (advance t s) (compPlane s c) (compFormat s c)) x =
      true) :=
  ⟨⟨63, ({ obj := 9, cmd := some (oc [63, 0, 0, 9]) } : LutJob), ({ kind := 4, zone := 3, format := 1, length := 215622, crc := 0, first := 0, units := 4 }
     : Version), { (composing 63 { lut := { jobs := [({ obj := 9, cmd := some (oc [63, 0, 0, 9]) } : LutJob)] } } : State) with fst := { objs := [(9, { cur := some { kind := 4, zone := 3, format := 1, length := 215622, crc := 0, first := 0, units := 4 } })] } },
     by decide +kernel⟩,
   ⟨63, ({ obj := 9, cmd := some (oc [63, 0, 0, 9]) } : LutJob), composing 63 { lut := { jobs := [({ obj := 9, cmd := some (oc [63, 0, 0, 9]) } : LutJob)] } },
     by decide +kernel⟩,
   ⟨0, 63, ({ plane := 0, format := 0x10, enable := true, at_ := 20000000000 } : CmpChange), { video with cmp := { comps := [(63, { change := some ({ plane := 0, format := 0x10, enable := true, at_ := 20000000000 } : CmpChange) })] } },
     by decide +kernel⟩,
   ⟨0, 63, 20000000000, { video with cmp := { comps := [(63, { state := 3, format := 0x10, disableAt := some 20000000000 })] } },
     by decide +kernel⟩,
   ⟨63, composing 63 {}, by decide +kernel⟩,
   ⟨0, 0, ({ tick := 39000, arm := 19500000000, picture := { bgR := 7 }, session := 1, swap := false } : Snapshot), { composing 0 { sealed_ := [({ tick := 39000, arm := 19500000000, picture := { bgR := 7 }, session := 1, swap := false } : Snapshot)] } with xpt := { video.xpt with queue := [{ order := 0, action := .commit 0, session := 1, sealed_ := some 39000, arm := 19500000000 }] } },
     by decide +kernel⟩⟩

/-- The premises of `BlendingFollowsTheRule`, clause by clause, at boundary values. -/
theorem test_blending_follows_the_rule_premises :
    (∃ (d : Rgb) (p : Rgb), d.r ≤ 65535 ∧ d.g ≤ 65535 ∧ d.b ≤ 65535 ∧ p.r ≤ 65535 ∧ p.g ≤ 65535 ∧ p.b ≤ 65535 ∧ p.a =
      65535) ∧
    (∃ (d : Rgb) (p : Rgb), d.r ≤ 65535 ∧ d.g ≤ 65535 ∧ d.b ≤ 65535 ∧ p.r ≤ 65535 ∧ p.g ≤ 65535 ∧ p.b ≤ 65535 ∧ p.a =
      0) ∧
    (∃ (d : Rgb) (p : Rgb), d.r ≤ 65535 ∧ d.g ≤ 65535 ∧ d.b ≤ 65535 ∧ p.r ≤ 65535 ∧ p.g ≤ 65535 ∧ p.b ≤ 65535) ∧
    (∃ (d : Rgb) (p : Rgb), d.r ≤ 65535 ∧ d.g ≤ 65535 ∧ d.b ≤ 65535 ∧ p.r ≤ 65535 ∧ p.g ≤ 65535 ∧ p.b ≤ 65535) ∧
    (∃ (d : Rgb) (p : Rgb), d.r ≤ 65535 ∧ d.g ≤ 65535 ∧ d.b ≤ 65535 ∧ p.r ≤ 65535 ∧ p.g ≤ 65535 ∧ p.b ≤ 65535) ∧
    (∃ (x : Nat) (y : Nat), x ≤ 65535 ∧ y ≤ 65535) ∧
    (∃ (x : Nat) (y : Nat), x ≤ 65535 ∧ y ≤ 65535) :=
  ⟨⟨{ r := 65535, g := 0, b := 1, a := 0 }, { r := 65535, g := 0, b := 1, a := 65535 }, by decide +kernel⟩,
   ⟨{ r := 65535, g := 0, b := 1, a := 0 }, { r := 65535, g := 0, b := 1, a := 0 }, by decide +kernel⟩,
   ⟨{ r := 65535, g := 0, b := 1, a := 0 }, { r := 65535, g := 0, b := 1, a := 65535 }, by decide +kernel⟩,
   ⟨{ r := 65535, g := 0, b := 1, a := 0 }, { r := 65535, g := 0, b := 1, a := 65535 }, by decide +kernel⟩,
   ⟨{ r := 65535, g := 0, b := 1, a := 0 }, { r := 65535, g := 0, b := 1, a := 65535 }, by decide +kernel⟩,
   ⟨65535, 65535, by decide +kernel⟩,
   ⟨0, 65535, by decide +kernel⟩⟩

/-- The premises of `ProtectedContentTakesEffect`, clause by clause, at boundary values. -/
theorem test_protected_content_takes_effect_premises :
    (∃ (t : Nat) (c : HostCmd) (s : State), accepted .cmpProtWrite refuseCmpProtWrite t c s = true) ∧
    (∃ (t : Nat) (c : HostCmd) (s : State) (u : State) (v : Version) (a : Nat), accepted .cmpProtWrite
      refuseCmpProtWrite t c s = true ∧ exec (.cmpProtWrite t c) s = .next u ∧ (if (objWriteOf c).create then (objOf
      (createVersion (objWriteOf c).obj (objWriteOf c).kind (objWriteOf c).zone (objWriteOf c).format (objWriteOf
      c).length (objWriteOf c).crc 0 0 s) (objWriteOf c).obj).load.map (·.1) else (objOf s (objWriteOf
      c).obj).load.map (·.1)) = some v ∧ (∀ p ∈ pieces256 (zoneOf s v.zone) (v.first * 65536 + (objWriteOf c).offset)
      (objWriteOf c).data.length, a < p.1 ∨ p.1 + p.2 ≤ a)) ∧
    (∃ (t : Nat) (c : HostCmd) (s : State), accepted .cmpProtRectSet refuseCmpProtRectSet t c s = true) ∧
    (∃ (t : Nat) (c : HostCmd) (s : State), accepted .cmpProtGoldenSet refuseCmpProtGoldenSet t c s = true) ∧
    (∃ (t : Nat) (c : HostCmd) (s : State), accepted .cmpProtStatus refuseCmpProtStatus t c s = true) ∧
    (∃ (t : Nat) (c : HostCmd) (s : State), accepted .cmpProtStatus refuseCmpProtStatus t c s = true) ∧
    (∃ (c : Nat), c ≤ 63) ∧
    (∃ (c : Nat), c ≤ 63) ∧
    (∃ (c : Nat) (r : Nat) (n : Nat) (s : State), c ≤ 63 ∧ r ≤ 3 ∧ compOn s c = true ∧ (compOf s c).armed.getD r
      false = true ∧ s.saf.held = false ∧ s.saf.testFailed = false ∧ r < (compOf s c).watch.length ∧ ((compOf s
      c).active.rects.getD r {}).golden = false ∧ (∀ l, ((compOf s c).watch.getD r {}).lastFrame = some l → n %
      0x100000000 = (l + 1) % 0x100000000)) ∧
    (∃ (c : Nat) (r : Nat) (n : Nat) (s : State), c ≤ 63 ∧ r ≤ 3 ∧ compOn s c = true ∧ (compOf s c).armed.getD r
      false = true ∧ s.saf.held = false ∧ s.saf.testFailed = false ∧ r < (compOf s c).watch.length ∧ ((compOf s
      c).active.rects.getD r {}).golden = false ∧ (∀ l, ((compOf s c).watch.getD r {}).lastFrame = some l → n %
      0x100000000 = (l + 1) % 0x100000000)) ∧
    (∃ (c : Nat) (r : Nat) (n : Nat) (a : Word) (b : Word) (s : State), c ≤ 63 ∧ r ≤ 3 ∧ compOn s c = true ∧ (compOf
      s c).armed.getD r false = true ∧ s.saf.held = false ∧ s.saf.testFailed = false ∧ r < (compOf s c).watch.length
      ∧ a ≠ b ∧ (compOf s c).reacted = false ∧ (∀ l, ((compOf s c).watch.getD r {}).lastFrame = some l → n %
      0x100000000 = (l + 1) % 0x100000000) ∧ confirmCount s c ≤ ((compOf s c).watch.getD r {}).bad + 1 ∧ s.mode ≠
      .boot ∧ s.mode ≠ .retain) ∧
    (∃ (c : Nat) (r : Nat) (n : Nat) (s : State), c ≤ 63 ∧ r ≤ 3 ∧ compOn s c = true ∧ (compOf s c).armed.getD r
      false = true ∧ ((compOf s c).watch.getD r {}).lastFrame ≠ some n ∧ (compOf s c).reacted = false ∧ s.mode ≠
      .boot ∧ s.mode ≠ .retain) :=
  ⟨⟨0, sc [7, 254, 3, 3, 2, 0, 0, 0, 0, 0, 0, 4, 134, 200, 200, 50, 0, 0, 0, 0, 0, 0, 0, 0, 1, 2, 3, 4], video,
     by decide +kernel⟩,
   ⟨0, sc [7, 254, 1, 3, 2, 0, 0, 0, 0, 0, 0, 4, 134, 200, 200, 50, 0, 0, 0, 0, 0, 0, 0, 0, 1, 2, 3, 4], video, nx
     (exec (.cmpProtWrite 0 (sc [7, 254, 1, 3, 2, 0, 0, 0, 0, 0, 0, 4, 134, 200, 200, 50, 0, 0, 0, 0, 0, 0, 0, 0, 1,
     2, 3, 4])) video), { kind := 3, zone := 2, format := 0, length := 4, crc := 2261305394, first := 0, units := 1 },
     0, by decide +kernel, next_nx (by decide +kernel), by decide +kernel, by decide +kernel⟩,
   ⟨0, sc [63, 3, 1, 1, 63, 255, 63, 255, 64, 0, 64, 0], composing 63 {}, by decide +kernel⟩,
   ⟨0, sc [63, 3, 0, 0, 222, 173, 190, 239], composing 63 {}, by decide +kernel⟩,
   ⟨0, sc [63, 1, 0, 0], composing 63 {}, by decide +kernel⟩,
   ⟨0, sc [0, 0, 0, 0], video, by decide +kernel⟩,
   ⟨63, by decide +kernel⟩,
   ⟨0, by decide +kernel⟩,
   ⟨63, 3, 9, composing 63 { armed := [true, true, true, true] }, by decide +kernel, by decide +kernel,
     by decide +kernel, by decide +kernel, by decide +kernel, by decide +kernel, by decide +kernel,
     by decide +kernel, (by intro a h; cases h <;> decide +kernel)⟩,
   ⟨63, 3, 0, composing 63 { armed := [true, true, true, true], watch := List.replicate 4 { lastFrame := some 0xFFFFFFFF } },
     by decide +kernel, by decide +kernel, by decide +kernel, by decide +kernel, by decide +kernel,
     by decide +kernel, by decide +kernel, by decide +kernel, (by intro a h; cases h <;> decide +kernel)⟩,
   ⟨63, 3, 9, 5#32, 6#32, composing 63 { armed := [true, true, true, true], watch := List.replicate 4 { bad := 1, lastFrame := some 8 } },
     by decide +kernel, by decide +kernel, by decide +kernel, by decide +kernel, by decide +kernel,
     by decide +kernel, by decide +kernel, by decide +kernel, by decide +kernel,
     (by intro a h; cases h <;> decide +kernel), by decide +kernel, by decide +kernel, by decide +kernel⟩,
   ⟨63, 3, 9, composing 63 { armed := [true, true, true, true] }, by decide +kernel⟩⟩

/-- The premises of `AudioCommandsTakeEffect`, clause by clause, at boundary values. -/
theorem test_audio_commands_take_effect_premises :
    (∃ (t : Nat) (c : HostCmd) (s : State), accepted .audRoute refuseAudRoute t c s = true) ∧
    (∃ (t : Nat) (c : HostCmd) (s : State), accepted .audRoute refuseAudRoute t c s = true) ∧
    (∃ (t : Nat) (c : HostCmd) (s : State), accepted .audRouteBatch refuseAudRouteBatch t c s = true) ∧
    (∃ (t : Nat) (c : HostCmd) (s : State), accepted .audGain refuseAudGain t c s = true) ∧
    (∃ (t : Nat) (c : HostCmd) (s : State), accepted .audFollow refuseAudFollow t c s = true) ∧
    (∃ (t : Nat) (c : HostCmd) (s : State), accepted .audPortConfig refuseAudPortConfig t c s = true) ∧
    (∃ (t : Nat) (c : HostCmd) (s : State), accepted .audPortConfig refuseAudPortConfig t c s = true) ∧
    (∃ (t : Nat) (c : HostCmd) (s : State), accepted .audStreamConfig refuseAudStreamConfig t c s = true) ∧
    (∃ (t : Nat) (c : HostCmd) (s : State), accepted .audStreamConfig refuseAudStreamConfig t c s = true) ∧
    (∃ (t : Nat) (c : HostCmd) (s : State), accepted .audQuery refuseAudQuery t c s = true) ∧
    (∃ (t : Nat) (c : HostCmd) (s : State), accepted .audQuery refuseAudQuery t c s = true) :=
  ⟨⟨0, oc [96, 31, 255, 255, 252, 224, 0, 0, 7, 0, 0, 5], video, by decide +kernel⟩,
   ⟨0, oc [0, 0, 96, 31, 128, 0, 0, 0, 0, 0, 0, 5], video, by decide +kernel⟩,
   ⟨0, oc [0, 0, 0, 2, 0, 5, 0, 0, 0, 0, 0, 1, 128, 1, 0, 0, 96, 31, 255, 255, 0, 120, 0, 0], video,
     by decide +kernel⟩,
   ⟨0, oc [96, 31, 0, 120, 7, 0, 0, 5], video, by decide +kernel⟩,
   ⟨0, oc [3, 255, 255, 254, 0, 0, 0, 0], video, by decide +kernel⟩,
   ⟨0, mc [15, 3, 1, 1, 1, 0, 0, 0], video, by decide +kernel⟩,
   ⟨0, mc [0, 0, 0, 0, 0, 0, 0, 0], { video with aud := { ports := [(0, { inEn := true, state := 2 })] } },
     by decide +kernel⟩,
   ⟨0, oc [127, 0, 64, 1, 1, 255, 1, 0, 62, 128, 0, 0], video, by decide +kernel⟩,
   ⟨0, oc [0, 1, 8, 0, 1, 255, 0, 0, 0, 250, 0, 0], { video with eth := { rx := [(511, { kind := 2 })] } },
     by decide +kernel⟩,
   ⟨0, oc [0, 0, 96, 31, 0, 1, 0, 0], video, by decide +kernel⟩,
   ⟨0, oc [1, 0, 0, 0, 0, 16, 0, 0], video, by decide +kernel⟩⟩

/-- The premises of `AudioEventsTakeEffect`, clause by clause, at boundary values. -/
theorem test_audio_events_take_effect_premises :
    (∃ (t : Nat) (o : Nat) (o' : Nat) (e : Entry) (inp : Option Nat) (keep : Bool) (hard : Bool) (kf : Bool) (g :
      GainArg) (s : State), o < matrixSize ∧ landList (advance t s) o = [(e.arm, e.order, .inl e)] ∧ e.action =
      .audio o' inp keep g hard kf) ∧
    (∃ (t : Nat) (o : Nat) (x : FollowDue) (s : State), o < matrixSize ∧ landList (advance t s) o = [(x.arm, x.order,
      .inr x)]) ∧
    (∃ (t : Nat) (o : Nat) (k : AudChange) (s : State), o < matrixSize ∧ (outOf s o).change = some k ∧ k.kind = 0 ∧
      sampleNow (advance t s) < k.at_ + k.window ∧ k.stage = 0 ∧ (outOf s o).input.isSome = true) ∧
    (∃ (t : Nat) (o : Nat) (k : AudChange) (s : State), o < matrixSize ∧ (outOf s o).change = some k ∧ k.kind = 0 ∧
      sampleNow (advance t s) < k.at_ + k.window ∧ k.stage = 1) ∧
    (∃ (t : Nat) (o : Nat) (k : AudChange) (s : State), o < matrixSize ∧ (outOf s o).change = some k ∧ k.at_ +
      k.window ≤ sampleNow (advance t s) ∧ k.kind = 0) ∧
    (∃ (t : Nat) (o : Nat) (k : AudChange) (s : State), o < matrixSize ∧ (outOf s o).change = some k ∧ k.at_ +
      k.window ≤ sampleNow (advance t s) ∧ k.kind = 1) ∧
    (∃ (n : Nat), n < matrixSize) ∧
    (∃ (n : Nat) (p : Nat) (s : State), n < matrixSize ∧ p ≤ 1 ∧ lanesRun s = true) ∧
    (∃ (n : Nat) (p : Nat) (s : State), n < matrixSize ∧ p ≤ 1 ∧ lanesRun s = true) ∧
    (∃ (p : Nat) (hz : Nat) (s : State), p ≤ 15 ∧ lanesRun s = true ∧ (portOf s p).state = 1 ∧ 7 ≤ (portOf s p).agree
      ∧ (portOf s p).lastHz ≠ 0 ∧ ratesAgree 100 hz (portOf s p).lastHz = true) ∧
    (∃ (p : Nat) (hz : Nat) (s : State), p ≤ 15 ∧ lanesRun s = true ∧ (portOf s p).state = 1 ∧ 7 ≤ (portOf s p).agree
      ∧ (portOf s p).lastHz ≠ 0 ∧ ratesAgree 100 hz (portOf s p).lastHz = true) ∧
    (∃ (p : Nat) (hz : Nat) (s : State), p ≤ 15 ∧ lanesRun s = true ∧ (portOf s p).state = 2 ∧ ratesAgree 1000 hz
      (nominalRate (portOf s p).rate) = false) ∧
    (∃ (p : Nat) (s : State), p ≤ 15 ∧ lanesRun s = true ∧ (portOf s p).state ≠ 0 ∧ (portOf s p).state ≠ 3) ∧
    (∃ (p : Nat) (s : State), p ≤ 15 ∧ lanesRun s = true ∧ (portOf s p).state ≠ 0 ∧ (portOf s p).state ≠ 3) ∧
    (∃ (p : Nat) (k : Nat) (a : Nat) (b : Nat) (s : State), p ≤ 15 ∧ lanesRun s = true ∧ (portOf s p).state = 2 ∧ k =
      (if (portOf s p).clocks = 0 then 32 else 64) ∧ (portOf s p).inEn = true ∧ 5 ≤ a ∧ a ≤ 59 ∧ 5 ≤ b ∧ b ≤ 59) ∧
    (∃ (p : Nat) (k : Nat) (a : Nat) (b : Nat) (s : State), p ≤ 15 ∧ lanesRun s = true ∧ (portOf s p).state = 2 ∧ k =
      (if (portOf s p).clocks = 0 then 32 else 64) ∧ (portOf s p).inEn = true ∧ 5 ≤ a ∧ a ≤ 59 ∧ 5 ≤ b ∧ b ≤ 59) ∧
    (∃ (p : Nat) (k : Nat) (s : State), p ≤ 15 ∧ lanesRun s = true ∧ (portOf s p).state = 2 ∧ k ≠ (if (portOf s
      p).clocks = 0 then 32 else 64) ∧ (portOf s p).glitches ≠ 8) ∧
    (∃ (t : Nat) (k : Nat) (s : State), k ≤ 127 ∧ (streamOf s k).dir = 1 ∧ (streamOf s k).state = 2 ∧ (streamOf s
      k).lastAt + 10000000 ≤ max s.clock.clk t) ∧
    (∃ (t : Nat) (k : Nat) (s : State), k ≤ 127 ∧ (streamOf s k).dir = 1 ∧ (streamOf s k).state = 3 ∧ (streamOf s
      k).since + 10000000 ≤ max s.clock.clk t ∧ max s.clock.clk t < (streamOf s k).lastAt + 10000000) :=
  ⟨⟨0, 24607, 24607, ({ order := 3, action := .audio 24607 (some 5) false (.set 120) true false, session := 1, sealed_ := some 39000, arm := 19500000000 }
     : Entry), some 5, false, true, false, .set 120, { video with xpt := { video.xpt with queue := [({ order := 3, action := .audio 24607 (some 5) false (.set 120) true false, session := 1, sealed_ := some 39000, arm := 19500000000 } : Entry)] } },
     by decide +kernel⟩,
   ⟨0, 15, ({ out := 15, input := some 9, arm := 7, order := 3 } : FollowDue), { video with aud := { due := [({ out := 15, input := some 9, arm := 7, order := 3 } : FollowDue)] } },
     by decide +kernel⟩,
   ⟨0, 24607, ({ kind := 0, stage := 0, at_ := 959760, window := 241, old := .silence } : AudChange), { video with aud := { outs := [(24607, { input := some 5, change := some ({ kind := 0, stage := 0, at_ := 959760, window := 241, old := .silence } : AudChange) })] } },
     by decide +kernel⟩,
   ⟨0, 24607, ({ kind := 0, stage := 1, at_ := 959760, window := 241, old := .silence } : AudChange), { video with aud := { outs := [(24607, { input := some 5, change := some ({ kind := 0, stage := 1, at_ := 959760, window := 241, old := .silence } : AudChange) })] } },
     by decide +kernel⟩,
   ⟨0, 24607, ({ kind := 0, stage := 0, at_ := 959760, window := 240, old := .silence } : AudChange), { video with aud := { outs := [(24607, { input := some 5, change := some ({ kind := 0, stage := 0, at_ := 959760, window := 240, old := .silence } : AudChange) })] } },
     by decide +kernel⟩,
   ⟨0, 24607, ({ kind := 1, stage := 0, at_ := 959760, window := 240, old := .silence } : AudChange), { video with aud := { outs := [(24607, { input := some 5, change := some ({ kind := 1, stage := 0, at_ := 959760, window := 240, old := .silence } : AudChange) })] } },
     by decide +kernel⟩,
   ⟨24607, by decide +kernel⟩,
   ⟨24607, 0, video, by decide +kernel⟩,
   ⟨24607, 1, video, by decide +kernel⟩,
   ⟨15, 48000000, { video with aud := { ports := [(15, { inEn := true, state := 1, agree := 7, lastHz := 48004800 })] } },
     by decide +kernel⟩,
   ⟨15, 50000000, { video with aud := { ports := [(15, { inEn := true, state := 1, agree := 7, lastHz := 50000000 })] } },
     by decide +kernel⟩,
   ⟨15, 48048048, { video with aud := { ports := [(15, { state := 2, rate := 1 })] } }, by decide +kernel⟩,
   ⟨15, { video with aud := { ports := [(15, { state := 1 })] } }, by decide +kernel⟩,
   ⟨15, { video with aud := { ports := [(15, { state := 2 })] } }, by decide +kernel⟩,
   ⟨15, 64, 5, 59, { video with aud := { ports := [(15, { state := 2, rate := 1, inEn := true })] } },
     by decide +kernel⟩,
   ⟨15, 32, 59, 5, { video with aud := { ports := [(15, { state := 2, rate := 1, inEn := true, clocks := 0 })] } },
     by decide +kernel⟩,
   ⟨15, 63, { video with aud := { ports := [(15, { state := 2, inEn := true })] } }, by decide +kernel⟩,
   ⟨0, 127, { video with aud := { streams := [(127, { dir := 1, state := 2, lastAt := 19990000000 })] } },
     by decide +kernel⟩,
   ⟨0, 127, { video with aud := { streams := [(127, { dir := 1, state := 3, lastAt := 19990000001, since := 19990000000 })] } },
     by decide +kernel⟩⟩

/-- The premises of `EthernetCommandsTakeEffect`, clause by clause, at boundary values. -/
theorem test_ethernet_commands_take_effect_premises :
    (∃ (t : Nat) (c : HostCmd) (s : State), accepted .ethPortConfig refuseEthPortConfig t c s = true) ∧
    (∃ (t : Nat) (c : HostCmd) (s : State), accepted .ethPortConfig refuseEthPortConfig t c s = true) ∧
    (∃ (t : Nat) (c : HostCmd) (s : State), accepted .ethIpConfig refuseEthIpConfig t c s = true) ∧
    (∃ (t : Nat) (c : HostCmd) (s : State), accepted .ethCounters refuseEthCounters t c s = true) ∧
    (∃ (t : Nat) (c : HostCmd) (s : State), accepted .ethTxFlow refuseEthTxFlow t c s = true) ∧
    (∃ (t : Nat) (c : HostCmd) (s : State), accepted .ethTxFlow refuseEthTxFlow t c s = true) ∧
    (∃ (t : Nat) (c : HostCmd) (s : State), accepted .ethTxFlow refuseEthTxFlow t c s = true) ∧
    (∃ (t : Nat) (c : HostCmd) (s : State), accepted .ethRxFlow refuseEthRxFlow t c s = true) ∧
    (∃ (t : Nat) (c : HostCmd) (s : State), accepted .ethRxFlow refuseEthRxFlow t c s = true) ∧
    (∃ (t : Nat) (c : HostCmd) (s : State), accepted .ethRxFlow refuseEthRxFlow t c s = true) ∧
    (∃ (t : Nat) (c : HostCmd) (s : State), accepted .ethFlowQuery refuseEthFlowQuery t c s = true) ∧
    (∃ (t : Nat) (c : HostCmd) (s : State), accepted .ethFlowQuery refuseEthFlowQuery t c s = true) :=
  ⟨⟨0, mc [1, 31, 0, 0, 0, 0, 95, 15, 36, 0, 0, 0, 0, 0, 225, 35, 0, 0, 0, 7, 0, 0, 0, 4], up .maintenance,
     by decide +kernel⟩,
   ⟨0, mc [0, 0, 0, 0, 0, 0, 0, 0, 0, 0, 0, 0, 0, 0, 0, 0, 0, 0, 0, 0, 0, 0, 0, 0], up .active, by decide +kernel⟩,
   ⟨0, mc [1, 3, 0, 0, 10, 0, 0, 1, 24, 0, 0, 0, 10, 0, 0, 254, 0, 0, 0, 0, 0, 0, 0, 0, 0, 0, 0, 0, 0, 0, 0, 1, 128,
     0, 0, 0, 0, 0, 0, 0, 0, 0, 0, 0, 0, 0, 0, 0, 0, 0, 0, 2], up .active, by decide +kernel⟩,
   ⟨0, oc [1, 0, 0, 0], up .active, by decide +kernel⟩,
   ⟨0, oc [1, 255, 1, 3, 16, 96, 46, 5, 0, 0, 0, 7, 3, 0, 255, 255, 239, 0, 0, 1, 19, 140, 19, 141, 0, 0, 0, 0, 0, 0,
     0, 0, 239, 0, 0, 2, 19, 140, 19, 141, 0, 0, 0, 0, 0, 0, 0, 0], up .active, by decide +kernel⟩,
   ⟨0, oc [0, 0, 0, 0, 0, 0, 46, 5, 0, 0, 0, 7, 0, 0, 255, 255, 239, 0, 0, 1, 19, 140, 19, 141, 0, 0, 0, 0, 0, 0, 0,
     0, 239, 0, 0, 2, 19, 140, 19, 141, 0, 0, 0, 0, 0, 0, 0, 0], up .active, by decide +kernel⟩,
   ⟨0, oc [0, 0, 2, 1, 0, 127, 46, 5, 0, 0, 0, 7, 0, 0, 255, 255, 239, 0, 0, 1, 19, 140, 19, 141, 0, 0, 0, 0, 0, 0,
     0, 0, 239, 0, 0, 2, 19, 140, 19, 141, 0, 0, 0, 0, 0, 0, 0, 0], { up .active with eth := { tx := [(0, { cfg := { kind := 2 } })] } },
     by decide +kernel⟩,
   ⟨0, oc [1, 255, 1, 3, 16, 127, 100, 0, 255, 255, 0, 0, 239, 0, 0, 1, 19, 140, 0, 0, 0, 0, 0, 0, 0, 0, 0, 0, 239,
     0, 0, 2, 19, 140, 0, 0, 0, 0, 0, 0, 0, 0, 0, 0], up .active, by decide +kernel⟩,
   ⟨0, oc [0, 0, 0, 0, 0, 0, 0, 0, 255, 255, 0, 0, 239, 0, 0, 1, 19, 140, 0, 0, 0, 0, 0, 0, 0, 0, 0, 0, 239, 0, 0, 2,
     19, 140, 0, 0, 0, 0, 0, 0, 0, 0, 0, 0], up .active, by decide +kernel⟩,
   ⟨0, oc [0, 0, 3, 2, 0, 255, 1, 0, 255, 255, 0, 0, 239, 0, 0, 1, 19, 140, 0, 0, 0, 0, 0, 0, 0, 0, 0, 0, 239, 0, 0,
     2, 19, 140, 0, 0, 0, 0, 0, 0, 0, 0, 0, 0], up .active, by decide +kernel⟩,
   ⟨0, oc [1, 0, 1, 255, 0, 1, 0, 0], up .active, by decide +kernel⟩,
   ⟨0, oc [0, 0, 0, 0, 0, 2, 0, 0], up .active, by decide +kernel⟩⟩

/-- The premises of `EthernetPortEventsTakeEffect`, clause by clause, at boundary values. -/
theorem test_ethernet_port_events_take_effect_premises :
    (∃ (p : Nat) (i : Nat), p ≤ 1 ∧ i ≤ 23) ∧
    (∃ (p : Nat) (i : Nat), p ≤ 1 ∧ i ≤ 23) ∧
    (∃ (t : Nat) (b : Nat) (d : Nat) (ch : Bool) (s : State), s.eth.modeChange = some (ch, b, d) ∧ d ≤ max
      s.clock.clk t) ∧
    (∃ (p : Nat) (s : State), p ≤ 1 ∧ ethRuns s p = true ∧ (ethPort s p).enable = true ∧ (ethPort s p).link = 0) ∧
    (∃ (t : Nat) (p : Nat) (s : State), p ≤ 1 ∧ ethRuns s p = true ∧ (ethPort s p).link = 1 ∧ (ethPort s p).goodSince
      + 10000000 ≤ max s.clock.clk t) ∧
    (∃ (p : Nat), p ≤ 1) ∧
    (∃ (p : Nat) (s : State), p ≤ 1 ∧ (ethPort s p).link ≠ 0) ∧
    (∃ (p : Nat) (s : State), p ≤ 1 ∧ (ethPort s p).link ≠ 0) ∧
    (∃ (t : Nat) (p : Nat) (s : State), p ≤ 1 ∧ (ethPort s p).preemptState = 1 ∧ (ethPort s p).verifyAt + 10000000 ≤
      max s.clock.clk t ∧ (ethPort s p).verifyTries < 3) ∧
    (∃ (t : Nat) (p : Nat) (s : State), p ≤ 1 ∧ (ethPort s p).preemptState = 1 ∧ (ethPort s p).verifyAt + 10000000 ≤
      max s.clock.clk t ∧ 3 ≤ (ethPort s p).verifyTries) ∧
    (∃ (p : Nat) (f : EthFrame) (s : State), p ≤ 1 ∧ ethRuns s p = true ∧ (ethPort s p).link = 2 ∧ f.body = .other ∧
      f.len < 64) ∧
    (∃ (p : Nat) (f : EthFrame) (s : State), p ≤ 1 ∧ ethRuns s p = true ∧ (ethPort s p).link = 2 ∧ f.body = .other ∧
      64 ≤ f.len ∧ f.full = true) ∧
    (∃ (p : Nat) (f : EthFrame) (s : State), p ≤ 1 ∧ ethRuns s p = true ∧ (ethPort s p).link = 2 ∧ f.body = .other ∧
      64 ≤ f.len ∧ f.full = false ∧ f.len ≤ (ethPort s p).maxFrame ∧ f.fcsOk = false) ∧
    (∃ (p : Nat) (q : Nat) (f : EthFrame) (s : State), p ≤ 1 ∧ ethRuns s p = true ∧ (ethPort s p).link = 2 ∧ f.body =
      .pause q ∧ 64 ≤ f.len ∧ f.full = false ∧ f.len ≤ (ethPort s p).maxFrame ∧ f.fcsOk = true ∧ (ethPort s
      p).pauseRx = true ∧ q ≠ 0) ∧
    (∃ (t : Nat) (p : Nat) (f : EthFrame) (d : Datagram) (s : State), p ≤ 1 ∧ ethRuns s p = true ∧ (ethPort s p).link
      = 2 ∧ f.body = .command d ∧ f.tags = [] ∧ f.dst = macOf s p ∧ s.aon.ethChain = false ∧ 64 ≤ f.len ∧ f.full =
      false ∧ f.len ≤ (ethPort s p).maxFrame ∧ f.fcsOk = true ∧ hostReachable { d with port := p, oversize := false }
      (advance t s) = true) ∧
    (∃ (t : Nat) (s : State), ringState s ≠ 0 ∧ s.eth.ring.sentAt + 1000000 ≤ max s.clock.clk t) ∧
    (∃ (t : Nat) (s : State), ringState s = 1 ∧ s.eth.ring.heardAt + 3000000 ≤ max s.clock.clk t) ∧
    (∃ (t : Nat) (p : Nat) (a : Nat) (s : State), p ≤ 1 ∧ (ethPort s p).pausedTo = some a ∧ a ≤ max s.clock.clk t) ∧
    (∃ (p : Nat) (n : Nat) (s : State), p ≤ 1 ∧ (ethPort s p).pauseTx = true ∧ 75 < n ∧ (ethPort s p).pausing =
      false) ∧
    (∃ (p : Nat) (n : Nat) (s : State), p ≤ 1 ∧ (ethPort s p).pauseTx = true ∧ n < 50 ∧ (ethPort s p).pausing = true) ∧
    (∃ (t : Nat) (p : Nat) (s : State), p ≤ 1 ∧ (ethPort s p).pausing = true ∧ 75 < (ethPort s p).share ∧ (ethPort s
      p).pauseAt + 40000 ≤ max s.clock.clk t) ∧
    (∃ (p : Nat) (s : State), p ≤ 1 ∧ ethRuns s p = true ∧ (ethPort s p).link = 2) ∧
    (∃ (p : Nat) (s : State), p ≤ 1 ∧ ethRuns s p = true ∧ (ethPort s p).link = 2) ∧
    (∃ (f : Nat) (s : State), f ≤ 511 ∧ (rxFlow s f).kind ≠ 0 ∧ 2 ≤ (rxFlow s f).joinLeft) ∧
    (∃ (p : Nat) (a : Nat) (s : State), p ≤ 1 ∧ ethRuns s p = true ∧ (tget {} s.aon.ip p).ip4 = a ∧ a ≠ 0 ∧ (probeOf
      s p 0).addr = a ∧ (probeOf s p 0).state = 0) ∧
    (∃ (p : Nat) (a : Nat) (s : State), p ≤ 1 ∧ ethRuns s p = true ∧ (tget {} s.aon.ip p).ip4 = a ∧ a ≠ 0 ∧ (probeOf
      s p 0).addr = a ∧ (probeOf s p 0).state = 0) :=
  ⟨⟨1, 23, by decide +kernel⟩,
   ⟨1, 0, by decide +kernel⟩,
   ⟨0, 1, 20000000000, true, { up .active with eth := { modeChange := some (true, 1, 20000000000) } },
     by decide +kernel⟩,
   ⟨1, up .active, by decide +kernel⟩,
   ⟨0, 1, { up .active with eth := { ports := [(1, { link := 1, goodSince := 19990000000 })] } }, by decide +kernel⟩,
   ⟨1, by decide +kernel⟩,
   ⟨1, { up .active with eth := { ports := [(1, { link := 2 })] } }, by decide +kernel⟩,
   ⟨1, { up .active with eth := { ports := [(1, { link := 2 })] } }, by decide +kernel⟩,
   ⟨0, 1, { up .active with eth := { ports := [(1, { link := 2, preemptState := 1, verifyAt := 19990000000, verifyTries := 2 })] } },
     by decide +kernel⟩,
   ⟨0, 1, { up .active with eth := { ports := [(1, { link := 2, preemptState := 1, verifyAt := 19990000000, verifyTries := 3 })] } },
     by decide +kernel⟩,
   ⟨1, { len := 63 }, { up .active with eth := { ports := [(1, { link := 2 })] } }, by decide +kernel⟩,
   ⟨1, { len := 64, full := true }, { up .active with eth := { ports := [(1, { link := 2 })] } }, by decide +kernel⟩,
   ⟨1, { len := 1522, fcsOk := false }, { up .active with eth := { ports := [(1, { link := 2 })] } },
     by decide +kernel⟩,
   ⟨1, 65535, { len := 64, body := .pause 65535 }, { up .active with eth := { ports := [(1, { link := 2, pauseRx := true })] } },
     by decide +kernel⟩,
   ⟨0, 1, { len := 64, body := .command ({ payload := beBytes 40 0x4c5801040000000100000001000100000000000100000000aeecd878b084ad73d6edab3e51584f64, srcIp := 0x0A000001, srcPort := 5000 } : Datagram) },
     ({ payload := beBytes 40 0x4c5801040000000100000001000100000000000100000000aeecd878b084ad73d6edab3e51584f64, srcIp := 0x0A000001, srcPort := 5000 }
     : Datagram), { up .active with eth := { ports := [(1, { link := 2 })] } }, by decide +kernel⟩,
   ⟨0, { up .active with eth := { ring := { sentAt := 19999000000 } }, aon := { ethChain := true, ringBlock := 1 } },
     by decide +kernel⟩,
   ⟨0, { up .active with eth := { ring := { heardAt := 19997000000 } }, aon := { ethChain := true, ringBlock := 1 } },
     by decide +kernel⟩,
   ⟨0, 1, 20000000000, { up .active with eth := { ports := [(1, { pausedTo := some 20000000000 })] } },
     by decide +kernel⟩,
   ⟨1, 76, { up .active with eth := { ports := [(1, { link := 2, pauseTx := true })] } }, by decide +kernel⟩,
   ⟨1, 49, { up .active with eth := { ports := [(1, { link := 2, pauseTx := true, pausing := true, share := 80 })] } },
     by decide +kernel⟩,
   ⟨0, 1, { up .active with eth := { ports := [(1, { link := 2, pauseTx := true, pausing := true, share := 76, pauseAt := 19999960000 })] } },
     by decide +kernel⟩,
   ⟨1, { up .active with eth := { ports := [(1, { link := 2 })] } }, by decide +kernel⟩,
   ⟨1, { up .active with eth := { ports := [(1, { link := 2 })] } }, by decide +kernel⟩,
   ⟨511, { up .active with eth := { rx := [(511, { kind := 1, joinLeft := 2, joinAt := 20000000000, legA := some { group := 0xEF000001 } })] } },
     by decide +kernel⟩,
   ⟨1, 0x0A000005, { up .active with eth := { probes := [(3, { addr := 0x0A000005 })] }, aon := { ip := [(1, { ip4 := 0x0A000005 })] } },
     by decide +kernel⟩,
   ⟨1, 0x0A000005, { up .active with eth := { probes := [(3, { addr := 0x0A000005 })] }, aon := { ip := [(1, { ip4 := 0x0A000005 })] } },
     by decide +kernel⟩⟩

/-- The premises of `MediaFlowEventsTakeEffect`, clause by clause, at boundary values. -/
theorem test_media_flow_events_take_effect_premises :
    (∃ (f : Nat) (k : HeldPkt) (s : State), f ≤ 511 ∧ (rxFlow s f).kind = 1 ∧ (rxFlow s f).held = [k] ∧ (rxFlow s
      f).next = some k.n) ∧
    (∃ (t : Nat) (f : Nat) (n : Nat) (k : HeldPkt) (s : State), f ≤ 511 ∧ (rxFlow s f).kind = 1 ∧ (rxFlow s f).held =
      [k] ∧ (rxFlow s f).next = some n ∧ n < 0x100000000 ∧ k.n < 0x100000000 ∧ k.n ≠ n ∧ k.at_ + (rxFlow s f).pd *
      100000 ≤ max s.clock.clk t) ∧
    (∃ (t : Nat) (f : Nat) (l : Nat) (s : State), f ≤ 511 ∧ l ≤ 1 ∧ (rxFlow s f).hasLeg l = true ∧ ((rxFlow s f).leg
      l).lost = false ∧ ((rxFlow s f).leg l).lastAt + 10000000 ≤ max s.clock.clk t) ∧
    (∃ (t : Nat) (f : Nat) (l : Nat) (s : State), f ≤ 511 ∧ l ≤ 1 ∧ (rxFlow s f).hasLeg l = true ∧ ((rxFlow s f).leg
      l).lost = true ∧ ((rxFlow s f).leg l).goodSince + 10000000 ≤ max s.clock.clk t ∧ max s.clock.clk t ≤ ((rxFlow s
      f).leg l).lastAt + 1000000) ∧
    (∃ (t : Nat) (f : Nat) (l : Nat) (sched : Nat) (d : Nat) (s : State), f ≤ 511 ∧ l ≤ 1 ∧ mediaSends s = true ∧
      (txFlow s f).cfg.kind = 1 ∧ (txFlow s f).cfg.legs.any (fun x => x.1 == l) = true ∧ (ethPort s l).link = 2 ∧
      txDest s f = some d ∧ max s.clock.clk t ≤ sched + 500000 ∧ (ethPort s l).pausedTo = none) ∧
    (∃ (f : Nat) (l : Nat) (d : Nat) (s : State), f ≤ 511 ∧ l ≤ 1 ∧ mediaSends s = true ∧ (txFlow s f).cfg.kind = 1 ∧
      (txFlow s f).cfg.legs.any (fun x => x.1 == l) = true ∧ (ethPort s l).link = 2 ∧ txDest s f = some d) :=
  ⟨⟨511, ({ n := 0xFFFFFFFF, legs := 1, at_ := 19999000000, payload := [] } : HeldPkt), { up .active with eth := { rx := [(511, { kind := 1, format := 0x10, next := some 0xFFFFFFFF, held := [({ n := 0xFFFFFFFF, legs := 1, at_ := 19999000000, payload := [] } : HeldPkt)] })] } },
     by decide +kernel⟩,
   ⟨0, 511, 5, ({ n := 7, legs := 1, at_ := 19999000000, payload := [] } : HeldPkt), { up .active with eth := { rx := [(511, { kind := 1, format := 0x10, next := some 5, held := [({ n := 7, legs := 1, at_ := 19999000000, payload := [] } : HeldPkt)] })] } },
     by decide +kernel⟩,
   ⟨0, 511, 0, { up .active with eth := { rx := [(511, { kind := 1, a := { lastAt := 19990000000 }, legA := some { group := 0xEF000001, udpPort := 5004 } })] } },
     by decide +kernel⟩,
   ⟨0, 511, 0, { up .active with eth := { rx := [(511, { kind := 1, a := { lost := true, goodSince := 19990000000, lastAt := 19999000000 }, legA := some { group := 0xEF000001, udpPort := 5004 } })] } },
     by decide +kernel⟩,
   ⟨0, 511, 0, 19999500000, 0, { video with flow := { dst := [(0, { dest 0 with def_ := some { cls := 1, format := 0x10, plane := 0, packet := { kind := 2, index := 511 } } })] }, eth := { ports := [(0, { link := 2 })], tx := [(511, { cfg := { kind := 1, format := 0x10, legA := some { group := 0xEF000001, udpPort := 5004 } } })] } },
     by decide +kernel⟩,
   ⟨511, 0, 0, { video with flow := { dst := [(0, { dest 0 with def_ := some { cls := 1, format := 0x10, plane := 0, packet := { kind := 2, index := 511 } } })] }, eth := { ports := [(0, { link := 2 })], tx := [(511, { cfg := { kind := 1, format := 0x10, legA := some { group := 0xEF000001, udpPort := 5004 } } })] } },
     by decide +kernel⟩⟩

/-- The premises of `TimeCommandsTakeEffect`, clause by clause, at boundary values. -/
theorem test_time_commands_take_effect_premises :
    (∃ (t : Nat) (c : HostCmd) (s : State), accepted .timStatus refuseTimStatus t c s = true) ∧
    (∃ (t : Nat) (c : HostCmd) (s : State), accepted .timRefConfig refuseTimRefConfig t c s = true) ∧
    (∃ (t : Nat) (c : HostCmd) (s : State), accepted .timRefConfig refuseTimRefConfig t c s = true) ∧
    (∃ (t : Nat) (c : HostCmd) (s : State), accepted .timRefConfig refuseTimRefConfig t c s = true) ∧
    (∃ (t : Nat) (c : HostCmd) (s : State), accepted .timPtpConfig refuseTimPtpConfig t c s = true) ∧
    (∃ (t : Nat) (c : HostCmd) (s : State), accepted .timCompareSet refuseTimCompareSet t c s = true) ∧
    (∃ (t : Nat) (c : HostCmd) (s : State), accepted .timCompareSet refuseTimCompareSet t c s = true) ∧
    (∃ (t : Nat) (c : HostCmd) (s : State), accepted .timPulseSet refuseTimPulseSet t c s = true) ∧
    (∃ (t : Nat) (c : HostCmd) (s : State), accepted .timPulseSet refuseTimPulseSet t c s = true) ∧
    (∃ (t : Nat) (c : HostCmd) (s : State), accepted .timRealign refuseTimRealign t c s = true) ∧
    (∃ (t : Nat) (c : HostCmd) (s : State), accepted .timRealign refuseTimRealign t c s = true) :=
  ⟨⟨0, oc [], up .active, by decide +kernel⟩,
   ⟨0, mc [3, 0, 0, 0, 0, 50, 8, 86], up .active, by decide +kernel⟩,
   ⟨0, mc [0, 0, 0, 0, 0, 1, 1, 16], up .active, by decide +kernel⟩,
   ⟨0, mc [255, 0, 0, 0, 14, 16, 0, 128], up .active, by decide +kernel⟩,
   ⟨0, mc [0, 0, 5, 127], up .active, by decide +kernel⟩,
   ⟨0, oc [31, 7, 7, 255, 0, 0, 0, 0, 0, 20, 0, 0, 0, 30, 132, 129, 0, 0, 0, 0, 0, 0, 3, 232], { up .active with cue := { progs := [(255, { session := 1, words := [0], crc := 0#32 })] } },
     by decide +kernel⟩,
   ⟨0, oc [0, 0, 0, 0, 0, 0, 0, 0, 0, 0, 0, 0, 0, 0, 0, 0, 0, 0, 0, 0, 0, 0, 0, 0], up .active, by decide +kernel⟩,
   ⟨0, oc [7, 2, 1, 135, 0, 0, 255, 255, 0, 0, 0, 255, 255, 255, 255, 255, 0, 0, 0, 0, 0, 30, 0, 0, 59, 154, 201,
     255], up .active, by decide +kernel⟩,
   ⟨0, oc [0, 0, 0, 0, 0, 0, 0, 0, 0, 0, 0, 0, 0, 0, 0, 0, 0, 0, 0, 0, 0, 0, 0, 0, 0, 0, 0, 0], up .active,
     by decide +kernel⟩,
   ⟨0, mc [255, 255, 1, 100, 1, 0, 0, 0], video, by decide +kernel⟩,
   ⟨0, mc [0, 0, 0, 1, 0, 0, 0, 0], video, by decide +kernel⟩⟩

/-- The premises of `ReferencesAndLoopsFollowTheRules`, clause by clause, at boundary values. -/
theorem test_references_and_loops_follow_the_rules_premises :
    (∃ (p : Nat) (s : State), p ≤ 2 ∧ s.tim.ptp.masters.any (fun m => m.port == p) = true) ∧
    (∃ (m : PtpMaster) (s : State), s.tim.ptp.chosen = some m ∧ s.tim.ptp.queue.length < 64) ∧
    (∃ (t : Nat) (s : State), s.tim.time.state = .holdover ∧ s.tim.holdLimit * 1000 < holdError s.tim.time (advance t
      s)) ∧
    (∃ (t : Nat) (s : State), s.tim.house.state = .holdover ∧ s.tim.holdLimit * 1000 < holdError s.tim.house (advance
      t s)) ∧
    (∃ (i : Nat) (s : State), i ≤ 3 ∧ (refIn s i).kind ≠ 0 ∧ loopsRun s = true ∧ (refIn s i).phase = 1 ∧ (refIn s
      i).cause = 0) ∧
    (∃ (t : Nat) (i : Nat) (s : State), i ≤ 3 ∧ (refIn s i).kind ≠ 0 ∧ loopsRun s = true ∧ (refIn s i).phase = 3 ∧
      glitches (refIn s i) (max s.clock.clk t) = false) ∧
    (∃ (t : Nat) (i : Nat) (s : State), i ≤ 3 ∧ (refIn s i).kind ≠ 0 ∧ loopsRun s = true ∧ (refIn s i).phase = 3 ∧
      glitches (refIn s i) (max s.clock.clk t) = true) ∧
    (∃ (t : Nat) (i : Nat) (s : State), i ≤ 3 ∧ (refIn s i).kind ≠ 0 ∧ loopsRun s = true ∧ (refIn s i).phase = 3 ∧
      glitches (refIn s i) (max s.clock.clk t) = true) ∧
    (∃ (t : Nat) (i : Nat) (s : State), i ≤ 3 ∧ (refIn s i).kind ≠ 0 ∧ loopsRun s = true ∧ (refIn s i).phase = 3 ∧
      (refIn s i).lastEdge.getD (refIn s i).started + ((if (refIn s i).kind = 1 then basePeriod (refIn s i).family
      else 0) + 2000000) ≤ max s.clock.clk t) ∧
    (∃ (i : Nat) (f : Int) (s : State), i ≤ 3 ∧ (refIn s i).kind ≠ 0 ∧ loopsRun s = true ∧ (refIn s i).phase = 3 ∧
      f.natAbs ≤ (refIn s i).tol * 1000) ∧
    (∃ (i : Nat) (f : Int) (s : State), i ≤ 3 ∧ (refIn s i).kind ≠ 0 ∧ loopsRun s = true ∧ (refIn s i).phase = 3 ∧
      f.natAbs ≤ (refIn s i).tol * 1000) ∧
    (∃ (i : Nat) (f : Int) (s : State), i ≤ 3 ∧ (refIn s i).kind ≠ 0 ∧ loopsRun s = true ∧ (refIn s i).phase = 3 ∧
      (refIn s i).tol * 1000 < f.natAbs) ∧
    (∃ (i : Nat) (f : Int) (s : State), i ≤ 3 ∧ (refIn s i).kind ≠ 0 ∧ loopsRun s = true ∧ (refIn s i).phase = 3 ∧
      (refIn s i).tol * 1000 < f.natAbs) ∧
    (∃ (t : Nat) (i : Nat) (s : State), i ≤ 3 ∧ (refIn s i).phase = 2 ∧ (refIn s i).deferred = false ∧ (refIn s
      i).waitUntil ≤ max s.clock.clk t) ∧
    (∃ (t : Nat) (i : Nat) (s : State), s.tim.sel.selected = some i ∧ s.tim.house.state = .acquiring ∧
      s.tim.sel.stage = 1 ∧ (i ≤ 3 → (refIn s i).kind = 1 → 4 ≤ s.tim.sel.edges) ∧ s.tim.sel.stageAt + 10000000 ≤ max
      s.clock.clk t) ∧
    (∃ (t : Nat) (i : Nat) (s : State), s.tim.sel.selected = some i ∧ s.tim.house.state = .acquiring ∧
      s.tim.sel.stage = 2 ∧ s.tim.sel.stageAt + 1000000000 ≤ max s.clock.clk t ∧ isCandidate s i = true ∧
      bestCandidate s = some i) ∧
    (∃ (a : Nat) (b : Nat) (x : Int) (y : Int) (s : State), a ≤ 3 ∧ b ≤ 3 ∧ a ≠ b ∧ isCandidate s a = true ∧
      isCandidate s b = true ∧ (refIn s a).rank = (refIn s b).rank ∧ 500 < (x - y).natAbs) ∧
    (∃ (a : Nat) (b : Nat) (x : Int) (y : Int) (s : State), a ≤ 3 ∧ b ≤ 3 ∧ a ≠ b ∧ isCandidate s a = true ∧
      isCandidate s b = true ∧ (refIn s a).rank = (refIn s b).rank ∧ 500 < (x - y).natAbs) ∧
    (∃ (a : Nat) (b : Nat) (w : Nat) (s : State), a ≤ 3 ∧ b ≤ 3 ∧ s.tim.sel.disagree = [(a, b, w)]) ∧
    (∃ (t : Nat) (s : State), s.tim.sel.ptpBarred = true ∧ s.tim.time.state = .locked ∧ s.tim.time.since +
      s.tim.sel.wtr * 1000000000 ≤ max s.clock.clk t) :=
  ⟨⟨2, { up .active with tim := { ptp := { masters := [({ port := 2, msg := { kind := 3, grandmaster := 5 } } : PtpMaster)], chosen := some ({ port := 2, msg := { kind := 3, grandmaster := 5 } } : PtpMaster) } } },
     by decide +kernel⟩,
   ⟨({ port := 2, msg := { kind := 3, grandmaster := 5 } } : PtpMaster), { up .active with tim := { ptp := { chosen := some ({ port := 2, msg := { kind := 3, grandmaster := 5 } } : PtpMaster) } } },
     by decide +kernel⟩,
   ⟨0, { up .active with tim := { time := { state := .holdover, since := 0 }, holdLimit := 2 } }, by decide +kernel⟩,
   ⟨0, { up .active with tim := { house := { state := .holdover, since := 0 }, holdLimit := 2 } }, by decide +kernel⟩,
   ⟨3, { up .active with tim := { htState := 1, refs := [(3, { kind := 2, phase := 1, cause := 0 })] } },
     by decide +kernel⟩,
   ⟨0, 3, { up .active with tim := { htState := 1, refs := [(3, { kind := 2, phase := 3, lastEdge := some 19999999920 })] } },
     by decide +kernel⟩,
   ⟨0, 3, { up .active with tim := { htState := 1, refs := [(3, { kind := 2, phase := 3, lastEdge := some 19999999921 })] } },
     by decide +kernel⟩,
   ⟨0, 3, { up .active with tim := { htState := 1, refs := [(3, { kind := 2, phase := 3, lastEdge := some 19999999879 })] } },
     by decide +kernel⟩,
   ⟨0, 3, { up .active with tim := { htState := 1, refs := [(3, { kind := 2, phase := 3, lastEdge := some 19998000000 })] } },
     by decide +kernel⟩,
   ⟨3, 10000, { up .active with tim := { htState := 1, refs := [(3, { kind := 2, phase := 3 })] } },
     by decide +kernel⟩,
   ⟨3, -10000, { up .active with tim := { htState := 1, refs := [(3, { kind := 2, phase := 3 })] } },
     by decide +kernel⟩,
   ⟨3, 10001, { up .active with tim := { htState := 1, refs := [(3, { kind := 2, phase := 3 })] } },
     by decide +kernel⟩,
   ⟨3, -10001, { up .active with tim := { htState := 1, refs := [(3, { kind := 2, phase := 3 })] } },
     by decide +kernel⟩,
   ⟨0, 3, { up .active with tim := { htState := 1, refs := [(3, { kind := 2, phase := 2, waitUntil := 20000000000 })] } },
     by decide +kernel⟩,
   ⟨0, 0, { up .active with tim := { htState := 1, house := { state := .acquiring }, sel := { selected := some 0, stage := 1, stageAt := 19990000000, edges := 4 }, refs := [(0, { kind := 1, phase := 3 })] } },
     by decide +kernel⟩,
   ⟨0, 3, { up .active with tim := { htState := 1, house := { state := .acquiring }, sel := { selected := some 3, stage := 2, stageAt := 19000000000 }, refs := [(0, { kind := 2, phase := 3 }), (3, { kind := 2, phase := 3 })] } },
     by decide +kernel⟩,
   ⟨0, 3, 501, 0, { up .active with tim := { htState := 1, refs := [(0, { kind := 2, phase := 3 }), (3, { kind := 2, phase := 3 })] } },
     by decide +kernel⟩,
   ⟨3, 0, -501, 0, { up .active with tim := { htState := 1, refs := [(0, { kind := 2, phase := 3 }), (3, { kind := 2, phase := 3 })] } },
     by decide +kernel⟩,
   ⟨0, 3, 3, { up .active with tim := { htState := 1, sel := { disagree := [(0, 3, 3)] }, refs := [(0, { kind := 2, phase := 3 }), (3, { kind := 2, phase := 3 })] } },
     by decide +kernel⟩,
   ⟨0, { up .active with tim := { htState := 2, time := { state := .locked, since := 10000000000 }, sel := { ptpRank := 1, ptpBarred := true, wtr := 10 } } },
     by decide +kernel⟩⟩

/-- The premises of `PlanesUnitsAndOutputsFollowTheClock`, clause by clause, at boundary values. -/
theorem test_planes_units_and_outputs_follow_the_clock_premises :
    (∃ (p : Nat) (s : State), p ≤ 7 ∧ lanesRun s = true ∧ (tpCfg s p).family ≠ 0 ∧ (planeOf s p).stepping = false ∧
      (planeOf s p).started = true) ∧
    (∃ (p : Nat) (s : State), p ≤ 7 ∧ lanesRun s = true ∧ (tpCfg s p).family ≠ 0 ∧ (planeOf s p).stepping = false ∧
      (planeOf s p).started = true ∧ famHasFast (tpCfg s p).family = true) ∧
    (∃ (p : Nat) (s : State), p ≤ 7 ∧ lanesRun s = true ∧ (tpCfg s p).family ≠ 0 ∧ (planeOf s p).stepping = false ∧
      (planeOf s p).started = false ∧ (planeOf s p).adopt = none) ∧
    (∃ (p : Nat) (s : State), p ≤ 7 ∧ lanesRun s = true ∧ (tpCfg s p).family ≠ 0 ∧ (planeOf s p).stepping = false ∧
      (planeOf s p).started = false ∧ (planeOf s p).adopt = none) ∧
    (∃ (p : Nat) (x : Int) (r : Realign) (s : State), p ≤ 7 ∧ planeAlign s p = some x ∧ s.tim.realigns = [r] ∧
      r.wants false p ((planeOf s p).lastAny.getD 0) = true) ∧
    (∃ (p : Nat) (x : Int) (r : Realign) (s : State), p ≤ 7 ∧ planeAlign s p = some x ∧ s.tim.realigns = [r] ∧
      r.wants false p ((planeOf s p).lastAny.getD 0) = true) ∧
    (∃ (t : Nat) (n : Nat) (r : Realign) (s : State), n ≤ 7 ∧ pulseKnown s n = true ∧ s.tim.realigns = [r] ∧ r.wants
      true n (advance t s).clock.now = true) ∧
    (∃ (t : Nat) (n : Nat) (r : Realign) (s : State), n ≤ 7 ∧ pulseKnown s n = true ∧ s.tim.realigns = [r] ∧ r.wants
      true n (advance t s).clock.now = true) ∧
    (∃ (n : Nat) (k : Nat) (s : State), n ≤ 7 ∧ (planeOf s n).slew = some k ∧ planeAlign s n = some 0) ∧
    (∃ (n : Nat) (k : Nat) (s : State), n ≤ 7 ∧ (pulseOf s n).slew = some k ∧ pulseAlign (pulseOf s n) = 0) ∧
    (∃ (t : Nat) (k : Nat) (s : State), k ≤ 31 ∧ (compareOf s k).state = 1 ∧ compareDist (compareOf s k).target
      (advance t s).clock.now ≤ 0) ∧
    (∃ (t : Nat) (k : Nat) (s : State), k ≤ 31 ∧ (compareOf s k).state = 1 ∧ compareDist (compareOf s k).target
      (advance t s).clock.now ≤ 0) ∧
    (∃ (t : Nat) (n : Nat) (s : State), n ≤ 7 ∧ s.mode ≠ .boot ∧ s.mode ≠ .retain ∧ (pulseOf s n).mode = 2 ∧ (pulseOf
      s n).next ≤ (advance t s).clock.now) ∧
    (∃ (t : Nat) (n : Nat) (s : State), n ≤ 7 ∧ s.mode ≠ .boot ∧ s.mode ≠ .retain ∧ (pulseOf s n).active = true ∧
      (pulseOf s n).endAt ≤ max s.clock.clk t) ∧
    (∃ (s : State), s.seq.aonUp = true ∧ s.clock.running = true) :=
  ⟨⟨7, { up .active with xpt := { tps := [(7, { family := 1 })] }, tim := { planes := [(7, { started := true, last := some 19950000000, lastAny := some 19950000000 })] } },
     by decide +kernel⟩,
   ⟨7, { up .active with xpt := { tps := [(7, { family := 1 })] }, tim := { planes := [(7, { started := true, last := some 19950000000, lastAny := some 19950000000 })] } },
     by decide +kernel⟩,
   ⟨7, { up .active with xpt := { tps := [(7, { family := 1 })] }, tim := { planes := [(7, {  })] } },
     by decide +kernel⟩,
   ⟨7, { up .active with xpt := { tps := [(7, { family := 5 })] }, tim := { planes := [(7, {  })] } },
     by decide +kernel⟩,
   ⟨7, (planeAlign ({ up .active with xpt := { tps := [(7, { family := 1 })] }, tim := { planes := [(7, { started := true, last := some 19950000000, lastAny := some 19950000000 })], realigns := [({ order := 0, planes := 128, pulses := 128, slew := true, rate := 1, arm := 0 } : Realign)] } })
     7).getD 0, ({ order := 0, planes := 128, pulses := 128, slew := true, rate := 1, arm := 0 } : Realign), { up .active with xpt := { tps := [(7, { family := 1 })] }, tim := { planes := [(7, { started := true, last := some 19950000000, lastAny := some 19950000000 })], realigns := [({ order := 0, planes := 128, pulses := 128, slew := true, rate := 1, arm := 0 } : Realign)] } },
     by decide +kernel⟩,
   ⟨7, (planeAlign ({ up .active with xpt := { tps := [(7, { family := 1 })] }, tim := { planes := [(7, { started := true, last := some 19950000000, lastAny := some 19950000000 })], realigns := [({ order := 0, planes := 128, pulses := 128, slew := false, rate := 1, arm := 0 } : Realign)] } })
     7).getD 0, ({ order := 0, planes := 128, pulses := 128, slew := false, rate := 1, arm := 0 } : Realign), { up .active with xpt := { tps := [(7, { family := 1 })] }, tim := { planes := [(7, { started := true, last := some 19950000000, lastAny := some 19950000000 })], realigns := [({ order := 0, planes := 128, pulses := 128, slew := false, rate := 1, arm := 0 } : Realign)] } },
     by decide +kernel⟩,
   ⟨0, 7, ({ order := 0, planes := 128, pulses := 128, slew := true, rate := 1, arm := 0 } : Realign), { up .active with tim := { pulses := [(7, { mode := 2, period := 1000000, width := 5, next := 20001000000 })], realigns := [({ order := 0, planes := 128, pulses := 128, slew := true, rate := 1, arm := 0 } : Realign)] } },
     by decide +kernel⟩,
   ⟨0, 7, ({ order := 0, planes := 128, pulses := 128, slew := false, rate := 1, arm := 0 } : Realign), { up .active with tim := { pulses := [(7, { mode := 2, period := 1000000, width := 5, next := 20001000000 })], realigns := [({ order := 0, planes := 128, pulses := 128, slew := false, rate := 1, arm := 0 } : Realign)] } },
     by decide +kernel⟩,
   ⟨7, 3, { up .active with xpt := { tps := [(7, { family := 1 })] }, tim := { planes := [(7, { started := true, last := some 20000000000, slew := some 3 })] } },
     by decide +kernel⟩,
   ⟨7, 3, { up .active with tim := { pulses := [(7, { mode := 2, period := 1000000, next := 20001000000, slew := some 3 })] } },
     by decide +kernel⟩,
   ⟨0, 31, { up .active with tim := { compares := [(31, { actions := 1, state := 1, target := 20000000000, period := 0 })] } },
     by decide +kernel⟩,
   ⟨0, 31, { up .active with tim := { compares := [(31, { actions := 1, state := 1, target := 20000000000, period := 1000 })] } },
     by decide +kernel⟩,
   ⟨0, 7, { up .active with tim := { pulses := [(7, { mode := 2, period := 1000000, width := 5, next := 20000000000 })] } },
     by decide +kernel⟩,
   ⟨0, 7, { up .active with tim := { pulses := [(7, { mode := 2, period := 1000000, width := 5, active := true, endAt := 20000000000 })] } },
     by decide +kernel⟩,
   ⟨up .active, by decide +kernel⟩⟩

/-- The premises of `RedundancyCommandsTakeEffect`, clause by clause, at boundary values. -/
theorem test_redundancy_commands_take_effect_premises :
    (∃ (t : Nat) (c : HostCmd) (s : State), accepted .redStatus refuseRedStatus t c s = true) ∧
    (∃ (t : Nat) (c : HostCmd) (s : State), accepted .redLeaseRequest refuseRedLeaseRequest t c s = true) ∧
    (∃ (t : Nat) (c : HostCmd) (s : State), accepted .redLeaseRequest refuseRedLeaseRequest t c s = true) ∧
    (∃ (t : Nat) (c : HostCmd) (s : State), accepted .redLeaseRelease refuseRedLeaseRelease t c s = true) ∧
    (∃ (t : Nat) (c : HostCmd) (s : State), accepted .redResync refuseRedResync t c s = true) ∧
    (∃ (t : Nat) (c : HostCmd) (s : State), accepted .redResync refuseRedResync t c s = true) ∧
    (∃ (t : Nat) (c : HostCmd) (s : State), accepted .redHealth refuseRedHealth t c s = true) :=
  ⟨⟨0, oc [], pairUp .active .inStep true, by decide +kernel⟩,
   ⟨0, sc [0, 10, 0, 0], { pairUp .standby .inStep false with red := { (pairUp .standby .inStep false).red with leaseSrc := 1 } },
     by decide +kernel⟩,
   ⟨0, sc [3, 232, 0, 0], { pairUp .active .inStep true with red := { (pairUp .active .inStep true).red with leaseSrc := 1 } },
     by decide +kernel⟩,
   ⟨0, sc [], pairUp .active .inStep true, by decide +kernel⟩,
   ⟨0, mc [], pairUp .standby .inStep false, by decide +kernel⟩,
   ⟨0, mc [], pairUp .isolated .linked false, by decide +kernel⟩,
   ⟨0, oc [], pairUp .active .inStep true, by decide +kernel⟩⟩

/-- The premises of `LeaseAndLinkEventsTakeEffect`, clause by clause, at boundary values. -/
theorem test_lease_and_link_events_take_effect_premises :
    (∃ (s : State), halyardRuns s = true) ∧
    (∃ (t : Nat) (s : State), paired s = true ∧ s.red.leaseSrc ≠ 1 ∧ s.mode.mayLease = true ∧ (∀ a, s.red.lastEdge =
      some a → a + 1000000 ≤ max s.clock.clk t)) ∧
    (∃ (t : Nat) (s : State), paired s = true ∧ s.red.leaseSrc ≠ 1 ∧ s.mode.mayLease = true ∧ (∀ a, s.red.lastEdge =
      some a → a + 1000000 ≤ max s.clock.clk t)) ∧
    (∃ (t : Nat) (s : State), paired s = true ∧ (s.red.lease = true ∨ s.red.grant = true) ∧ s.red.renewed +
      s.red.term * 1000000 ≤ max s.clock.clk t) ∧
    (∃ (t : Nat) (s : State), paired s = true ∧ (s.red.lease = true ∨ s.red.grant = true) ∧ s.red.renewed +
      s.red.term * 1000000 ≤ max s.clock.clk t) ∧
    (∃ (h : Hello) (s : State), halyardRuns s = true ∧ helloFault s h = none) ∧
    (∃ (h : Hello) (s : State), halyardRuns s = true ∧ helloFault s h = none) ∧
    (∃ (n : Nat) (h : Hello) (s : State), halyardRuns s = true ∧ helloFault s h = some n) ∧
    (∃ (n : Nat) (h : Hello) (s : State), halyardRuns s = true ∧ helloFault s h = some n) ∧
    (∃ (c : Nat) (bulk : List Nat) (s : State), halyardRuns s = true ∧ usableLanes s = c :: bulk) ∧
    (∃ (c : Nat) (bulk : List Nat) (s : State), halyardRuns s = true ∧ usableLanes s = c :: bulk) ∧
    (∃ (t : Nat) (s : State), s.red.link ≠ .down ∧ (usableLanes s = [] ∨ s.red.lastCtrl + 2000000 ≤ max s.clock.clk
      t)) ∧
    (∃ (t : Nat) (s : State), s.red.link ≠ .down ∧ (usableLanes s = [] ∨ s.red.lastCtrl + 2000000 ≤ max s.clock.clk
      t)) ∧
    (∃ (s : State), halyardRuns s = true ∧ inStep s = true) ∧
    (∃ (s : State), halyardRuns s = true) :=
  ⟨⟨pairUp .active .inStep true, by decide +kernel⟩,
   ⟨0, { pairUp .isolated .linked false with red := { (pairUp .isolated .linked false).red with lastEdge := some 19999000000 } },
     by decide +kernel, by decide +kernel, by decide +kernel, (by intro a h; cases h <;> decide +kernel)⟩,
   ⟨0, pairUp .isolated .linked false, by decide +kernel, by decide +kernel, by decide +kernel,
     (by intro a h; cases h <;> decide +kernel)⟩,
   ⟨0, { pairUp .active .inStep true with red := { (pairUp .active .inStep true).red with renewed := 19980000000 } },
     by decide +kernel⟩,
   ⟨0, { pairUp .standby .inStep false with red := { (pairUp .standby .inStep false).red with grant := true, renewed := 19980000000 } },
     by decide +kernel⟩,
   ⟨({ addr := 9, position := 2, mode := 3 } : Hello), pairUp .isolated .linked false, by decide +kernel⟩,
   ⟨({ addr := 9, position := 2, mode := 3 } : Hello), pairUp .isolated .down false, by decide +kernel⟩,
   ⟨1, ({ addr := 9, position := 2, version := 2 } : Hello), pairUp .isolated .linked false, by decide +kernel⟩,
   ⟨0, ({ addr := 9, position := 1 } : Hello), pairUp .active .inStep true, by decide +kernel⟩,
   ⟨0, [1, 2, 3], pairUp .active .inStep true, by decide +kernel⟩,
   ⟨0, [1, 2, 3], pairUp .active .inStep true, by decide +kernel⟩,
   ⟨0, { pairUp .active .inStep true with red := { (pairUp .active .inStep true).red with lastCtrl := 19998000000 } },
     by decide +kernel⟩,
   ⟨0, { pairUp .standby .inStep false with lane := {} }, by decide +kernel⟩,
   ⟨pairUp .active .inStep true, by decide +kernel⟩,
   ⟨pairUp .standby .inStep false, by decide +kernel⟩⟩

/-- The premises of `RecordsAndCarriedCommandsTakeEffect`, clause by clause, at boundary values. -/
theorem test_records_and_carried_commands_take_effect_premises :
    (∃ (r : EpochRecord) (s : State), halyardRuns s = true ∧ follows s = true ∧ conductorStopped s = false ∧ r.tick =
      tickAfter s.red.applied ∧ r.items = []) ∧
    (∃ (r : EpochRecord) (s : State) (i : _) (k : _) (a : _), halyardRuns s = true ∧ follows s = true ∧
      conductorStopped s = false ∧ r.tick = tickAfter s.red.applied ∧ r.items = [.command i k a] ∧ (s.red.held ++
      s.red.forwarded).any (HeldCmd.is i k) = false) ∧
    (∃ (r : EpochRecord) (s : State), halyardRuns s = true ∧ follows s = true ∧ conductorStopped s = false ∧ r.tick =
      tickAfter s.red.applied ∧ r.items = [.handover s.start.straps.pairRole 1] ∧ s.red.grant = true) ∧
    (∃ (r : EpochRecord) (s : State), halyardRuns s = true ∧ follows s = true ∧ conductorStopped s = false ∧ r.tick ≠
      tickAfter s.red.applied ∧ ticksFrom (tickAfter s.red.applied) r.tick < 0x80000000) ∧
    (∃ (a : Nat) (s : State), halyardRuns s = true ∧ writesRecords s = true ∧ a = 0) ∧
    (∃ (a : Nat) (w : Nat) (s : State), halyardRuns s = true ∧ writesRecords s = true ∧ a ≠ 0 ∧ s.red.kept.any (fun r
      => r.tick % 0x10000 == w % 0x10000) = true) ∧
    (∃ (a : Nat) (w : Nat) (s : State), halyardRuns s = true ∧ writesRecords s = true ∧ a ≠ 0 ∧ s.red.kept.any (fun r
      => r.tick % 0x10000 == w % 0x10000) = false ∧ inStep s = true) ∧
    (∃ (s : State), leads s = true ∧ 4 ≤ s.red.unacked) ∧
    (∃ (p : List Byte) (s : State), halyardRuns s = true ∧ leads s = true ∧ (sessionAuth s (carriedCmd p
      s).session).isSome = true ∧ (carriedCmd p s).seq ≤ lastSeq s (carriedCmd p s).session) ∧
    (∃ (t : Nat) (p : List Byte) (s : State) (op : _), halyardRuns s = true ∧ leads s = true ∧ (sessionAuth s
      (carriedCmd p s).session).isSome = true ∧ lastSeq s (carriedCmd p s).session < (carriedCmd p s).seq ∧ opOfCode
      (readHeader p).opcode = some op ∧ roleRefusal op (carriedCmd p s) = none ∧ modeRefusal op (carriedCmd p s)
      (advance t s) = none ∧ s.host.queue.length < 256) ∧
    (∃ (op : Op) (p : List Byte) (s : State), halyardRuns s = true ∧ (follows s = true ∨ s.red.link = .resyncing) ∧
      opOfCode (readHeader p).opcode = some op) ∧
    (∃ (op : Op) (p : List Byte) (s : State), halyardRuns s = true ∧ (follows s = true ∨ s.red.link = .resyncing) ∧
      opOfCode (readHeader p).opcode = some op) ∧
    (∃ (i : Nat) (k : Nat) (h : HeldCmd) (s : State), halyardRuns s = true ∧ s.red.held = [h] ∧ h.cmd.session = i ∧
      h.cmd.seq = k) ∧
    (∃ (x : Resync) (s : State), halyardRuns s = true ∧ joining s = true ∧ s.red.resync = some x ∧ x.loaded = false ∧
      s.red.buffered = []) ∧
    (∃ (t : Nat) (x : Resync) (s : State), s.red.link = .resyncing ∧ s.red.resync = some x ∧ x.started + 200000000 ≤
      max s.clock.clk t) ∧
    (∃ (t : Nat) (a : Nat) (s : State), s.red.retryAt = some a ∧ a ≤ max s.clock.clk t ∧ halyardRuns s = true ∧
      s.red.link = .linked ∧ resyncMode s.mode.code = true ∧ resyncMode s.red.peer.mode = true) :=
  ⟨⟨({ tick := 1 } : EpochRecord), pairUp .standby .inStep false, by decide +kernel⟩,
   ⟨({ tick := 1, items := [.command 1 5 0] } : EpochRecord), pairUp .standby .inStep false, 1, 5, 0,
     by decide +kernel⟩,
   ⟨({ tick := 1, items := [.handover 1 1] } : EpochRecord), { pairUp .standby .inStep false with red := { (pairUp .standby .inStep false).red with grant := true } },
     by decide +kernel⟩,
   ⟨({ tick := 2 } : EpochRecord), pairUp .standby .inStep false, by decide +kernel⟩,
   ⟨0, pairUp .active .inStep true, by decide +kernel⟩,
   ⟨1, 5, { pairUp .active .inStep true with red := { (pairUp .active .inStep true).red with kept := [{ tick := 0x10005 }] } },
     by decide +kernel⟩,
   ⟨1, 6, { pairUp .active .inStep true with red := { (pairUp .active .inStep true).red with kept := [{ tick := 0x10005 }] } },
     by decide +kernel⟩,
   ⟨{ pairUp .active .inStep true with red := { (pairUp .active .inStep true).red with unacked := 4 } },
     by decide +kernel⟩,
   ⟨beBytes 48 0x4c580104000000010000000003000000000800010000000000000001000000006cf728de8eac7188add72340b018b309,
     pairUp .active .inStep true, by decide +kernel⟩,
   ⟨0, beBytes 48 0x4c580104000000010000000703000000000800010000000000000001000000000da177fd0223325b530233924872b3c0,
     pairUp .active .inStep true, Op.xptTake, by decide +kernel⟩,
   ⟨.xptTake, beBytes 48
     0x4c580104000000010000000703000000000800010000000000000001000000000da177fd0223325b530233924872b3c0, pairUp
     .standby .inStep false, by decide +kernel⟩,
   ⟨.xptTake, beBytes 48
     0x4c580104000000010000000703000000000800010000000000000001000000000da177fd0223325b530233924872b3c0, { pairUp .calibrate .resyncing false with red := { (pairUp .calibrate .resyncing false).red with resync := some { source := false, tick := 7, started := 19800000000 } } },
     by decide +kernel⟩,
   ⟨1, 5, ({ op := .xptLock, cmd := { oc [0, 0, 1, 0] with relayed := false }, since := 0 } : HeldCmd), { pairUp .standby .inStep false with red := { (pairUp .standby .inStep false).red with held := [({ op := .xptLock, cmd := { oc [0, 0, 1, 0] with relayed := false }, since := 0 } : HeldCmd)] } },
     by decide +kernel⟩,
   ⟨({ source := false, tick := 7, started := 19800000000 } : Resync), { pairUp .calibrate .resyncing false with red := { (pairUp .calibrate .resyncing false).red with resync := some { source := false, tick := 7, started := 19800000000 } } },
     by decide +kernel⟩,
   ⟨0, ({ source := false, tick := 7, started := 19800000000 } : Resync), { pairUp .calibrate .resyncing false with red := { (pairUp .calibrate .resyncing false).red with resync := some { source := false, tick := 7, started := 19800000000 } } },
     by decide +kernel⟩,
   ⟨0, 20000000000, { pairUp .isolated .linked false with red := { (pairUp .isolated .linked false).red with retryAt := some 20000000000 } },
     by decide +kernel⟩⟩

/-- The premises of `PairComparisonTakesEffect`, clause by clause, at boundary values. -/
theorem test_pair_comparison_takes_effect_premises :
    (∃ (k : Nat) (r : Nat) (s : State), k ≤ 7 ∧ r ≤ 1 ∧ leads s = true) ∧
    (∃ (k : Nat) (r : Nat) (s : State), k ≤ 7 ∧ r ≤ 1 ∧ halyardRuns s = true ∧ follows s = true) ∧
    (∃ (k : Nat) (r : Nat) (a : Sig) (b : Sig) (s : State), k ≤ 7 ∧ r ≤ 1 ∧ halyardRuns s = true ∧ inStep s = true ∧
      tfind s.red.settling k = none ∧ a.index = b.index ∧ a.flags = 0 ∧ b.flags = 0) ∧
    (∃ (k : Nat) (r : Nat) (a : Sig) (b : Sig) (s : State), k ≤ 7 ∧ r ≤ 1 ∧ halyardRuns s = true ∧ inStep s = true ∧
      tfind s.red.settling k = none ∧ a.index = b.index ∧ a.flags = 0 ∧ b.flags = 0) ∧
    (∃ (k : Nat) (r : Nat) (s : State), k ≤ 7 ∧ r ≤ 1 ∧ halyardRuns s = true) ∧
    (∃ (k : Nat) (r : Nat) (s : State), k ≤ 7 ∧ r ≤ 1 ∧ halyardRuns s = true ∧ inStep s = true) ∧
    (∃ (c : Nat) (s : State), c ≤ 63 ∧ halyardRuns s = true) ∧
    (∃ (s : State), halyardRuns s = true ∧ (s.red.resync.map (fun x => x.source && x.loaded)).getD false = true) ∧
    (∃ (s : State), halyardRuns s = true ∧ inStep s = true) ∧
    (∃ (n : Nat) (o : Nat) (data : List Byte) (v : Version) (s : State), n ≤ 2046 ∧ halyardRuns s = true ∧ inStep s =
      true ∧ (objOf s n).filling = true ∧ (objOf s n).cur = some v ∧ v.zone ≤ 7 ∧ (zoneOf s v.zone).defined = true ∧
      zoneBroken (zoneOf s v.zone) = false ∧ (zoneOf s v.zone).order ≤ 2 ∧ memWf 0#8 s.fst.mem = true ∧ v.first *
      65536 + v.length ≤ (zoneOf s v.zone).units * 65536 ∧ o + data.length < v.length) ∧
    (∃ (n : Nat) (o : Nat) (data : List Byte) (v : Version) (s : State), n ≤ 2046 ∧ halyardRuns s = true ∧ inStep s =
      true ∧ (objOf s n).filling = true ∧ (objOf s n).cur = some v ∧ v.zone ≤ 7 ∧ (zoneOf s v.zone).defined = true ∧
      zoneBroken (zoneOf s v.zone) = false ∧ (zoneOf s v.zone).order ≤ 2 ∧ memWf 0#8 s.fst.mem = true ∧ v.first *
      65536 + v.length ≤ (zoneOf s v.zone).units * 65536 ∧ o + data.length = v.length) ∧
    (∃ (k : Nat) (s : State), k ≤ 7 ∧ follows s = true) ∧
    (∃ (t : Nat) (k : Nat) (a : Nat) (s : State), k ≤ 7 ∧ tfind s.red.settling k = some a ∧ a ≤ max s.clock.clk t) :=
  ⟨⟨7, 1, pairUp .active .inStep true, by decide +kernel⟩,
   ⟨7, 1, pairUp .standby .inStep false, by decide +kernel⟩,
   ⟨7, 1, ({ index := 3, value := 5#32 } : Sig), ({ index := 3, value := 5#32 } : Sig), pairUp .standby .inStep
     false, by decide +kernel⟩,
   ⟨7, 1, ({ index := 3, value := 5#32 } : Sig), ({ index := 3, value := 6#32 } : Sig), pairUp .standby .inStep
     false, by decide +kernel⟩,
   ⟨7, 1, pairUp .active .inStep true, by decide +kernel⟩,
   ⟨7, 1, pairUp .active .inStep true, by decide +kernel⟩,
   ⟨63, pairUp .active .inStep true, by decide +kernel⟩,
   ⟨{ pairUp .calibrate .resyncing false with red := { (pairUp .calibrate .resyncing false).red with resync := some { source := true, tick := 7, started := 0, loaded := true } } },
     by decide +kernel⟩,
   ⟨pairUp .active .inStep true, by decide +kernel⟩,
   ⟨2046, 0, [1#8, 2#8, 3#8], ({ kind := 3, zone := 2, format := 0, length := 4, crc := 0, first := 0, units := 1 } :
     Version), { pairUp .standby .inStep false with fst := { objs := [(2046, { cur := some ({ kind := 3, zone := 2, format := 0, length := 4, crc := 0, first := 0, units := 1 } : Version), filling := true })] } },
     by decide +kernel⟩,
   ⟨2046, 2, [1#8, 2#8], ({ kind := 3, zone := 2, format := 0, length := 4, crc := 0, first := 0, units := 1 } :
     Version), { pairUp .standby .inStep false with fst := { objs := [(2046, { cur := some ({ kind := 3, zone := 2, format := 0, length := 4, crc := 0, first := 0, units := 1 } : Version), filling := true })] } },
     by decide +kernel⟩,
   ⟨7, pairUp .standby .inStep false, by decide +kernel⟩,
   ⟨0, 7, 20000000000, { pairUp .standby .inStep false with red := { (pairUp .standby .inStep false).red with settling := [(7, 20000000000)] } },
     by decide +kernel⟩⟩

/-- The premises of `SafetyMonitorReactsAndClears`, clause by clause, at boundary values. -/
theorem test_safety_monitor_reacts_and_clears_premises :
    (∃ (t : Nat) (c : HostCmd) (s : State), accepted .safStatus refuseSafStatus t c s = true) ∧
    (∃ (t : Nat) (c : HostCmd) (s : State), accepted .safClear refuseSafClear t c s = true) ∧
    (∃ (t : Nat) (c : HostCmd) (s : State), accepted .safClear refuseSafClear t c s = true) ∧
    (∃ (t : Nat) (c : HostCmd) (s : State), accepted .safConfig refuseSafConfig t c s = true) ∧
    (∃ (s : State), coresRun s = true) ∧
    (∃ (t : Nat) (a : Nat) (s : State), s.saf.gateAt = some a ∧ s.saf.gateOpen = true ∧ safetyRuns s = true ∧ a +
      2000000 ≤ max s.clock.clk t ∧ s.mode ≠ .boot ∧ s.mode ≠ .retain) ∧
    (∃ (p : Bool) (a : Bool) (b : Bool) (s : State), coresRun s = true ∧ s.saf.disagree.length = 2 ∧ drivenLevel s p
      0 = a ∧ drivenLevel s p 1 = b) ∧
    (∃ (p : Bool) (a : Bool) (b : Bool) (s : State), coresRun s = true ∧ s.saf.disagree.length = 2 ∧ drivenLevel s p
      0 ≠ a ∧ drivenLevel s p 1 = b ∧ s.saf.disagree.getD 0 0 < 2) ∧
    (∃ (p : Bool) (a : Bool) (b : Bool) (s : State), coresRun s = true ∧ s.saf.disagree.length = 2 ∧ (drivenLevel s p
      0 ≠ a ∧ s.saf.disagree.getD 0 0 = 2) ∨ (drivenLevel s p 1 ≠ b ∧ s.saf.disagree.getD 1 0 = 2) ∧ s.mode ≠ .boot ∧
      s.mode ≠ .retain) ∧
    (∃ (p : Bool) (a : Bool) (b : Bool) (s : State), coresRun s = true ∧ s.saf.disagree.length = 2 ∧ (drivenLevel s p
      0 ≠ a ∧ s.saf.disagree.getD 0 0 = 2) ∨ (drivenLevel s p 1 ≠ b ∧ s.saf.disagree.getD 1 0 = 2) ∧ s.mode ≠ .boot ∧
      s.mode ≠ .retain) ∧
    (∃ (s : State), coresRun s = true ∧ s.mode ≠ .boot ∧ s.mode ≠ .retain) ∧
    (∃ (f : Bool) (x : Bool) (s : State), coresRun s = true ∧ (f && !x) = true) ∧
    (∃ (f : Bool) (x : Bool) (s : State), coresRun s = true ∧ (f && !x) = false ∧ s.mode ≠ .boot ∧ s.mode ≠ .retain) ∧
    (∃ (f : Bool) (x : Bool) (s : State), safetyRuns s = true ∧ s.saf.held = true ∧ (f && !x) = true) ∧
    (∃ (f : Bool) (x : Bool) (s : State), safetyRuns s = true ∧ s.saf.held = true ∧ (f && !x) = false ∧ s.mode ≠
      .boot ∧ s.mode ≠ .retain) ∧
    (∃ (p : Nat) (s : State), p ≤ 5 ∧ coresRun s = true ∧ s.saf.stalled.contains p = false ∧ s.saf.stallAction =
      false) ∧
    (∃ (p : Nat) (s : State), p ≤ 5 ∧ coresRun s = true ∧ s.saf.stalled.contains p = false ∧ s.saf.stallAction =
      true) ∧
    (∃ (n : Nat) (d : Nat) (s : State), n ≤ 4 ∧ coresRun s = true ∧ 110 < d ∧ s.saf.overTemp.contains n = false) ∧
    (∃ (n : Nat) (d : Nat) (s : State), n ≤ 4 ∧ coresRun s = true ∧ d < 105 ∧ s.saf.overTemp.contains n = true) ∧
    (∃ (i : Nat) (s : State), i ≤ 261 ∧ clockMeasured s i = true ∧ s.saf.clocksLost.contains i = false ∧ i ≠ 258 ∧
      coresRun s = true) ∧
    (∃ (i : Nat) (s : State), i ≤ 261 ∧ clockMeasured s i = true ∧ s.saf.clocksLost.contains i = false ∧ i ≠ 258 ∧
      coresRun s = true) ∧
    (∃ (i : Nat) (s : State), i ≤ 261 ∧ clockMeasured s i = true ∧ s.saf.clocksLost.contains i = false ∧ i = 258 ∧
      safetyRuns s = true ∧ s.mode ≠ .boot ∧ s.mode ≠ .retain) ∧
    (∃ (i : Nat) (s : State), i ≤ 260 ∧ s.saf.clocksLost.contains i = true) ∧
    (∃ (s : State), s.saf.supervisorLost = true) ∧
    (∃ (f : Nat) (s : State), coresRun s = true ∧ s.saf.supervisorLost = false ∧ (f < 90000 ∨ 110000 < f) ∧ s.mode ≠
      .boot ∧ s.mode ≠ .retain) ∧
    (∃ (f : Nat) (s : State), coresRun s = true ∧ s.saf.supervisorLost = false ∧ (f < 90000 ∨ 110000 < f) ∧ s.mode ≠
      .boot ∧ s.mode ≠ .retain) :=
  ⟨⟨0, oc [], up .active, by decide +kernel⟩,
   ⟨0, sc [1, 0, 0, 0], up .standby, by decide +kernel⟩,
   ⟨0, sc [0, 0, 0, 0], { up .safe with saf := { reacted := true, react := 2, passes := 3 } }, by decide +kernel⟩,
   ⟨0, sc [0, 0, 0, 3], up .standby, by decide +kernel⟩,
   ⟨up .active, by decide +kernel⟩,
   ⟨0, 19998000000, { up .active with saf := { gateAt := some 19998000000, gateOpen := true } }, by decide +kernel⟩,
   ⟨true, (drivenLevel (up .active) true 0), (drivenLevel (up .active) true 1), up .active, by decide +kernel⟩,
   ⟨true, !(drivenLevel (up .active) true 0), (drivenLevel (up .active) true 1), { up .active with saf := { disagree := [1, 0] } },
     by decide +kernel⟩,
   ⟨true, !(drivenLevel (up .active) true 0), (drivenLevel (up .active) true 1), { up .active with saf := { disagree := [2, 0] } },
     by decide +kernel⟩,
   ⟨true, (drivenLevel (up .active) true 0), !(drivenLevel (up .active) true 1), { up .active with saf := { disagree := [0, 2] } },
     by decide +kernel⟩,
   ⟨up .active, by decide +kernel⟩,
   ⟨true, false, up .active, by decide +kernel⟩,
   ⟨true, true, up .active, by decide +kernel⟩,
   ⟨true, false, { up .active with saf := { held := true } }, by decide +kernel⟩,
   ⟨false, true, { up .active with saf := { held := true } }, by decide +kernel⟩,
   ⟨5, up .active, by decide +kernel⟩,
   ⟨5, { up .active with saf := { stallAction := true } }, by decide +kernel⟩,
   ⟨4, 111, up .active, by decide +kernel⟩,
   ⟨4, 104, { up .active with saf := { overTemp := [4] } }, by decide +kernel⟩,
   ⟨0, up .active, by decide +kernel⟩,
   ⟨260, up .active, by decide +kernel⟩,
   ⟨258, up .active, by decide +kernel⟩,
   ⟨260, { up .active with saf := { clocksLost := [260] } }, by decide +kernel⟩,
   ⟨{ up .active with saf := { supervisorLost := true } }, by decide +kernel⟩,
   ⟨89999, up .active, by decide +kernel⟩,
   ⟨110001, up .active, by decide +kernel⟩⟩

/-- The premises of `ParityFailuresAreContained`, clause by clause, at boundary values. -/
theorem test_parity_failures_are_contained_premises :
    (∃ (i : Nat) (s : State), s.mode ≠ .boot ∧ s.mode ≠ .retain ∧ i ≤ 1023 ∧ s.saf.isolated.contains i = false ∧
      s.saf.reloading.contains i = false ∧ s.saf.restarting.contains (i / 16) = false) ∧
    (∃ (t : Nat) (i : Nat) (s : State), s.mode ≠ .boot ∧ s.mode ≠ .retain ∧ i ≤ 63 ∧ (within (advance t s) 1000000000
      (tget [] s.saf.blockFails i)).length < 31) ∧
    (∃ (t : Nat) (i : Nat) (s : State), s.mode ≠ .boot ∧ s.mode ≠ .retain ∧ i ≤ 63 ∧ 31 ≤ (within (advance t s)
      1000000000 (tget [] s.saf.blockFails i)).length) ∧
    (∃ (t : Nat) (i : Nat) (s : State), s.mode ≠ .boot ∧ s.mode ≠ .retain ∧ i ≤ 3 ∧ (within (advance t s) 1000000000
      (tget [] s.saf.arbFails i)).length < 99) ∧
    (∃ (t : Nat) (i : Nat) (s : State), s.mode ≠ .boot ∧ s.mode ≠ .retain ∧ i ≤ 3 ∧ 99 ≤ (within (advance t s)
      1000000000 (tget [] s.saf.arbFails i)).length) ∧
    (∃ (i : Nat) (s : State), s.mode ≠ .boot ∧ s.mode ≠ .retain ∧ i ≤ 261) ∧
    (∃ (t : Nat) (n : Nat) (s : State), n ≤ 1023 ∧ s.saf.reloading.contains n = true ∧ (within (advance t s)
      600000000000 (tget [] s.saf.cellReloads n)).length < 3) ∧
    (∃ (t : Nat) (n : Nat) (s : State), n ≤ 1023 ∧ s.saf.reloading.contains n = true ∧ 3 ≤ (within (advance t s)
      600000000000 (tget [] s.saf.cellReloads n)).length) ∧
    (∃ (b : Nat) (s : State), b ≤ 63 ∧ s.saf.restarting.contains b = true) ∧
    (∃ (r : Nat) (s : State), r ≤ 3 ∧ s.saf.stewardReload.contains r = true) ∧
    (∃ (p : Nat) (s : State), p ≤ 5 ∧ s.ctl.halted.contains p = false ∧ tget 0 s.start.procs p = 2) ∧
    (∃ (p : Nat) (s : State), p ≤ 5 ∧ s.ctl.halted.contains p = false ∧ tget 0 s.start.procs p = 2) ∧
    (∃ (p : Nat) (s : State), p ≤ 5 ∧ s.ctl.halted.contains p = false ∧ tget 0 s.start.procs p = 2) ∧
    (∃ (s : State), coresRun s = true ∧ s.mode ≠ .boot ∧ s.mode ≠ .retain) ∧
    (∃ (s : State), s.start.procs ≠ []) ∧
    (∃ (s : State), s.start.procs ≠ []) ∧
    (∃ (s : State), s.start.procs ≠ []) ∧
    (∃ (a : Nat) (b : Nat) (s : State) (op : _) (c : _), s.start.procs ≠ [] ∧ s.host.queue = [(op, c)] ∧ c.session =
      a ∧ c.seq = b) ∧
    (∃ (s : State), s.start.procs ≠ []) ∧
    (∃ (s : State), s.start.procs ≠ []) ∧
    (∃ (s : State), s.start.procs ≠ []) ∧
    (∃ (s : State), s.ctl.halted.contains 1 = true) :=
  ⟨⟨1023, up .active, by decide +kernel⟩,
   ⟨0, 63, { up .active with saf := { blockFails := [(63, List.replicate 30 19999999999)] } }, by decide +kernel⟩,
   ⟨0, 63, { up .active with saf := { blockFails := [(63, List.replicate 31 19999999999)] } }, by decide +kernel⟩,
   ⟨0, 3, { up .active with saf := { arbFails := [(3, List.replicate 98 19999999999)] } }, by decide +kernel⟩,
   ⟨0, 3, { up .active with saf := { arbFails := [(3, List.replicate 99 19999999999)] } }, by decide +kernel⟩,
   ⟨261, up .active, by decide +kernel⟩,
   ⟨0, 1023, { up .active with saf := { reloading := [1023], cellReloads := [(1023, List.replicate 2 19999999999)] } },
     by decide +kernel⟩,
   ⟨0, 1023, { up .active with saf := { reloading := [1023], cellReloads := [(1023, List.replicate 3 19999999999)] } },
     by decide +kernel⟩,
   ⟨63, { up .active with saf := { restarting := [63] } }, by decide +kernel⟩,
   ⟨3, { up .active with saf := { stewardReload := [3] } }, by decide +kernel⟩,
   ⟨5, up .active, by decide +kernel⟩,
   ⟨1, up .active, by decide +kernel⟩,
   ⟨0, up .active, by decide +kernel⟩,
   ⟨up .active, by decide +kernel⟩,
   ⟨up .active, by decide +kernel⟩,
   ⟨up .active, by decide +kernel⟩,
   ⟨up .active, by decide +kernel⟩,
   ⟨1, 5, { up .active with host := { queue := [(.status, oc [])] } }, Op.status, oc [], by decide +kernel⟩,
   ⟨up .active, by decide +kernel⟩,
   ⟨up .active, by decide +kernel⟩,
   ⟨up .active, by decide +kernel⟩,
   ⟨{ up .active with ctl := { halted := [1] } }, by decide +kernel⟩⟩

/-- The premises of `BusTransfersFollowTheRules`, clause by clause, at boundary values. -/
theorem test_bus_transfers_follow_the_rules_premises :
    (∃ (p : Nat) (tag : Nat) (x : Transfer) (s : State), p ≤ 6 ∧ transfers s p = [] ∧ s.ctl.portReset.contains p =
      false ∧ x.tag ≤ 31 ∧ x.stream ≤ 3 ∧ 1 ≤ x.beats ∧ x.beats ≤ 16 ∧ ownAnswer s p x = none ∧ tag ≠ x.tag) ∧
    (∃ (p : Nat) (a : Nat) (x : Transfer) (s : State), p ≤ 6 ∧ transfers s p = [x] ∧ x.answered = none ∧
      s.ctl.portReset.contains p = false ∧ a ≤ 2) ∧
    (∃ (p : Nat) (a : Nat) (x : Transfer) (s : State), p ≤ 6 ∧ transfers s p = [x] ∧ x.answered = none ∧
      s.ctl.portReset.contains p = false ∧ a ≤ 2) ∧
    (∃ (p : Nat) (a : Nat) (x : Transfer) (s : State), p ≤ 6 ∧ transfers s p = [x] ∧ x.answered = none ∧
      s.ctl.portReset.contains p = false ∧ a ≤ 2) ∧
    (∃ (p : Nat) (x : Transfer) (s : State), p ≤ 6 ∧ transfers s p = [x] ∧ x.answered = none ∧
      s.ctl.portReset.contains p = false ∧ x.write = false) ∧
    (∃ (t : Nat) (p : Nat) (x : Transfer) (s : State), p ≤ 6 ∧ transfers s p = [x] ∧ x.answered = none ∧
      s.ctl.portReset.contains p = false ∧ x.since + 10000 ≤ max s.clock.clk t) ∧
    (∃ (p : Nat) (a : Nat) (x : Transfer) (y : Transfer) (s : State), p ≤ 6 ∧ transfers s p = [x, y] ∧ x.answered =
      none ∧ y.answered = none ∧ x.tag ≠ y.tag ∧ s.ctl.portReset.contains p = false ∧ a ≤ 2) ∧
    (∃ (p : Nat) (a : Nat) (x : Transfer) (y : Transfer) (s : State), p ≤ 6 ∧ transfers s p = [x, y] ∧ x.answered =
      none ∧ y.answered = none ∧ x.tag ≠ y.tag ∧ s.ctl.portReset.contains p = false ∧ a ≤ 2) ∧
    (∃ (p : Nat) (s : State), p ≤ 6 ∧ masterResets s p = true ∧ s.ctl.portReset.contains p = false) ∧
    (∃ (p : Nat) (s : State), p ≤ 6 ∧ s.ctl.portReset.contains p = true) ∧
    (∃ (t : Nat) (p : Nat) (st : Nat) (a : Nat) (s : State), s.ctl.lockedPair = some (p, st, a) ∧ a + 1000 ≤ max
      s.clock.clk t) :=
  ⟨⟨6, 30, ({ tag := 31, stream := 3, beats := 16 } : Transfer), up .active, by decide +kernel⟩,
   ⟨6, 0, ({ tag := 31, stream := 3, beats := 16 } : Transfer), { up .active with ctl := { out := [(6, [({ tag := 31, stream := 3, beats := 16 } : Transfer)])] } },
     by decide +kernel⟩,
   ⟨6, 1, ({ tag := 31, stream := 3, beats := 16 } : Transfer), { up .active with ctl := { out := [(6, [({ tag := 31, stream := 3, beats := 16 } : Transfer)])] } },
     by decide +kernel⟩,
   ⟨6, 2, ({ tag := 31, stream := 3, beats := 16 } : Transfer), { up .active with ctl := { out := [(6, [({ tag := 31, stream := 3, beats := 16 } : Transfer)])] } },
     by decide +kernel⟩,
   ⟨6, ({ tag := 31, stream := 3, beats := 16 } : Transfer), { up .active with ctl := { out := [(6, [({ tag := 31, stream := 3, beats := 16 } : Transfer)])] } },
     by decide +kernel⟩,
   ⟨0, 6, ({ tag := 31, stream := 3, beats := 16, since := 19999990000 } : Transfer), { up .active with ctl := { out := [(6, [({ tag := 31, stream := 3, beats := 16, since := 19999990000 } : Transfer)])] } },
     by decide +kernel⟩,
   ⟨6, 0, ({ tag := 31, stream := 3, beats := 16 } : Transfer), ({ tag := 30, stream := 3 } : Transfer), { up .active with ctl := { out := [(6, [({ tag := 31, stream := 3, beats := 16 } : Transfer), ({ tag := 30, stream := 3 } : Transfer)])] } },
     by decide +kernel⟩,
   ⟨6, 0, ({ tag := 31, stream := 3, beats := 16 } : Transfer), ({ tag := 30, stream := 2 } : Transfer), { up .active with ctl := { out := [(6, [({ tag := 31, stream := 3, beats := 16 } : Transfer), ({ tag := 30, stream := 2 } : Transfer)])] } },
     by decide +kernel⟩,
   ⟨6, { up .active with saf := { held := true } }, by decide +kernel⟩,
   ⟨6, { up .active with ctl := { portReset := [6], out := [(6, [({ tag := 31, stream := 3, beats := 16 } : Transfer)])] } },
     by decide +kernel⟩,
   ⟨0, 0, 1, 19999999000, { up .active with ctl := { lockedPair := some (0, 1, 19999999000) } }, by decide +kernel⟩⟩

/-- The premises of `RecorderKeepsEvents`, clause by clause, at boundary values. -/
theorem test_recorder_keeps_events_premises :
    (∃ (t : Nat) (c : HostCmd) (s : State), accepted .evtRead refuseEvtRead t c s = true) ∧
    (∃ (t : Nat) (c : HostCmd) (s : State), accepted .evtRead refuseEvtRead t c s = true) ∧
    (∃ (t : Nat) (c : HostCmd) (s : State), accepted .evtInfo refuseEvtInfo t c s = true) ∧
    (∃ (t : Nat) (c : HostCmd) (s : State), accepted .evtRateSet refuseEvtRateSet t c s = true) ∧
    (∃ (t : Nat) (c : HostCmd) (s : State), accepted .evtRateSet refuseEvtRateSet t c s = true) ∧
    (∃ (t : Nat) (x : Ev) (xs : List Ev) (s : State), s.evt.pending = x :: xs ∧ s.evt.lost = 0 ∧ (refillBucket
      (advance t s) x.code).rate ≠ 0 ∧ 1000000000 ≤ (refillBucket (advance t s) x.code).credit) ∧
    (∃ (t : Nat) (x : Ev) (xs : List Ev) (s : State), s.evt.pending = x :: xs ∧ s.evt.lost = 0 ∧ (refillBucket
      (advance t s) x.code).rate = 0 ∨ (refillBucket (advance t s) x.code).credit < 1000000000) ∧
    (∃ (t : Nat) (x : Ev) (xs : List Ev) (s : State), s.evt.pending = x :: xs ∧ s.evt.lost = 0 ∧ (refillBucket
      (advance t s) x.code).rate = 0 ∨ (refillBucket (advance t s) x.code).credit < 1000000000) :=
  ⟨⟨0, oc [2, 0, 16, 0, 0, 0, 0, 0], { up .active with evt := { running := true, pending := [] } },
     by decide +kernel⟩,
   ⟨0, oc [0, 0, 0, 1, 255, 255, 255, 255], { up .active with evt := { running := true, pending := [] } },
     by decide +kernel⟩,
   ⟨0, oc [], up .active, by decide +kernel⟩,
   ⟨0, mc [16, 1, 1, 0, 0, 0, 0, 0], up .active, by decide +kernel⟩,
   ⟨0, mc [16, 1, 255, 0, 3, 232, 0, 0], up .active, by decide +kernel⟩,
   ⟨0, ({ code := 0x1001, sev := 2, cls := 1 } : Ev), [], { up .active with evt := { running := true, pending := [({ code := 0x1001, sev := 2, cls := 1 } : Ev)], buckets := [(0x1001, { rate := 1, burst := 1, credit := 999999999, stamp := 19999999999 })] } },
     by decide +kernel⟩,
   ⟨0, ({ code := 0x1001, sev := 2, cls := 1 } : Ev), [], { up .active with evt := { running := true, pending := [({ code := 0x1001, sev := 2, cls := 1 } : Ev)], buckets := [(0x1001, { rate := 1, burst := 1, credit := 999999998, stamp := 19999999999 })] } },
     by decide +kernel⟩,
   ⟨0, ({ code := 0x1001, sev := 2, cls := 1 } : Ev), [], { up .active with evt := { running := true, pending := [({ code := 0x1001, sev := 2, cls := 1 } : Ev)], buckets := [(0x1001, { rate := 0 })] } },
     by decide +kernel⟩⟩

/-- The premises of `PowerCommandsAndSleepEntry`, clause by clause, at boundary values. -/
theorem test_power_commands_and_sleep_entry_premises :
    (∃ (t : Nat) (c : HostCmd) (s : State), accepted .pwrStatus refusePwrStatus t c s = true) ∧
    (∃ (t : Nat) (c : HostCmd) (s : State), accepted .pwrLevelSet refusePwrLevelSet t c s = true) ∧
    (∃ (t : Nat) (c : HostCmd) (s : State), accepted .pwrLevelSet refusePwrLevelSet t c s = true) ∧
    (∃ (t : Nat) (s : State), s.pwr.changing = true ∧ s.pwr.switched = false ∧ s.pwr.target < s.pwr.level ∧
      s.pwr.changeAt + 2000000 ≤ max s.clock.clk t) ∧
    (∃ (s : State), s.pwr.changing = true ∧ s.pwr.switched = false ∧ s.pwr.level ≤ s.pwr.target) ∧
    (∃ (s : State), s.pwr.changing = true ∧ s.pwr.switched = true) ∧
    (∃ (t : Nat) (c : HostCmd) (s : State), accepted .pwrSleep refusePwrSleep t c s = true) ∧
    (∃ (t : Nat) (c : HostCmd) (s : State), accepted .pwrSleep refusePwrSleep t c s = true) ∧
    (∃ (t : Nat) (c : HostCmd) (s : State), accepted .pwrSleep refusePwrSleep t c s = true) ∧
    (∃ (s : State), s.pwr.entering = true ∧ s.pwr.sleep = 2 ∧ s.mode = .retain ∧ s.pwr.imageWritten = false) ∧
    (∃ (s : State), s.pwr.entering = true ∧ (s.pwr.sleep = 2 → s.pwr.imageWritten = true)) ∧
    (∃ (s : State), s.pwr.entering = true ∧ (s.pwr.sleep = 2 → s.pwr.imageWritten = true)) ∧
    (∃ (s : State), s.pwr.entering = true ∧ (s.pwr.sleep = 2 → s.pwr.imageWritten = true)) ∧
    (∃ (s : State), s.pwr.committed = true ∧ 2 ≤ s.pwr.sleep ∧ s.pwr.enLowAt = none) ∧
    (∃ (s : State), s.pwr.committed = true ∧ 2 ≤ s.pwr.sleep ∧ s.pwr.enLowAt = none) ∧
    (∃ (m : Nat) (s : State), s.mode = .retain ∧ s.pwr.entering = true ∧ 1 ≤ m ∧ m ≤ 7 ∧ s.pwr.fromMode.maySleep =
      true) ∧
    (∃ (m : Nat) (s : State), s.mode = .retain ∧ s.pwr.entering = true ∧ 1 ≤ m ∧ m ≤ 7 ∧ s.pwr.fromMode.maySleep =
      true) ∧
    (∃ (s : State), s.mode = .retain ∧ s.pwr.entering = true) :=
  ⟨⟨0, oc [], up .active, by decide +kernel⟩,
   ⟨0, mc [3, 0, 0, 0], up .active, by decide +kernel⟩,
   ⟨0, mc [0, 0, 0, 0], up .active, by decide +kernel⟩,
   ⟨0, { up .active with pwr := { level := 1, target := 0, changing := true, changeAt := 19998000000 } },
     by decide +kernel⟩,
   ⟨{ up .active with pwr := { level := 0, target := 3, changing := true } }, by decide +kernel⟩,
   ⟨{ up .active with pwr := { level := 0, target := 3, changing := true, switched := true } }, by decide +kernel⟩,
   ⟨0, mc [3, 0, 0, 0, 0, 0, 0, 0], up .active, by decide +kernel⟩,
   ⟨0, mc [1, 0, 0, 0, 0, 0, 0, 0], up .maintenance, by decide +kernel⟩,
   ⟨0, mc [0, 0, 0, 0, 0, 0, 0, 0], { up .calibrate with pwr := { sleep := 1 } }, by decide +kernel⟩,
   ⟨{ up .retain with pwr := { sleep := 2, entering := true } }, by decide +kernel⟩,
   ⟨{ up .retain with pwr := { sleep := 2, entering := true, imageWritten := true } }, by decide +kernel⟩,
   ⟨{ up .retain with pwr := { sleep := 3, entering := true } }, by decide +kernel⟩,
   ⟨{ up .maintenance with pwr := { sleep := 1, entering := true } }, by decide +kernel⟩,
   ⟨{ up .retain with pwr := { sleep := 2, committed := true } }, by decide +kernel⟩,
   ⟨{ up .retain with pwr := { sleep := 3, committed := true } }, by decide +kernel⟩,
   ⟨1, { up .retain with pwr := { sleep := 2, entering := true, fromMode := .active } }, by decide +kernel⟩,
   ⟨7, { up .retain with pwr := { sleep := 2, entering := true, fromMode := .active } }, by decide +kernel⟩,
   ⟨{ up .retain with pwr := { sleep := 2, entering := true, fromMode := .active } }, by decide +kernel⟩⟩

/-- The premises of `WakingTakesEffect`, clause by clause, at boundary values. -/
theorem test_waking_takes_effect_premises :
    (∃ (t : Nat) (s : State), s.aon.alarm ≠ 0 ∧ 2 ≤ s.pwr.sleep ∧ s.pwr.committed = true ∧ s.pwr.enteredAt +
      s.aon.alarm * (if s.aon.onRing || s.aon.ringUsed then 950000000 else 1000000000) ≤ max s.clock.clk t) ∧
    (∃ (t : Nat) (s : State), s.aon.alarm ≠ 0 ∧ 2 ≤ s.pwr.sleep ∧ s.pwr.committed = true ∧ s.pwr.enteredAt +
      s.aon.alarm * (if s.aon.onRing || s.aon.ringUsed then 950000000 else 1000000000) ≤ max s.clock.clk t) ∧
    (∃ (t : Nat) (a : Nat) (s : State), s.pwr.enLowAt = some a ∧ s.seq.en.length = 5 ∧ s.aon.wakeSeen ≠ 0 ∧ a +
      10000000 ≤ max s.clock.clk t ∧ s.pwr.sleep = 2) ∧
    (∃ (t : Nat) (a : Nat) (s : State), s.pwr.enLowAt = some a ∧ s.seq.en.length = 5 ∧ s.aon.wakeSeen ≠ 0 ∧ a +
      10000000 ≤ max s.clock.clk t ∧ s.pwr.sleep = 3) ∧
    (∃ (s : State), inS1 s = true ∧ s.pwr.exiting = true) ∧
    (∃ (s : State), s.seq.aonUp = true ∧ s.aon.onRing = false) ∧
    (∃ (r : Retention) (s : State), s.aon.retainStore = some r ∧ s.mode = .calibrate ∧ s.cal.scrub = false ∧
      s.cal.hbm = true) ∧
    (∃ (v : SavedState) (s : State), s.image = some v ∧ s.mode = .calibrate ∧ s.cal.scrub = true ∧ s.cal.memory =
      true ∧ s.cal.restored = false) :=
  ⟨⟨0, { up .retain with aon := { alarm := 2 }, pwr := { sleep := 2, committed := true, enteredAt := 18000000000 } },
     by decide +kernel⟩,
   ⟨0, { up .retain with aon := { alarm := 2, onRing := true }, pwr := { sleep := 3, committed := true, enteredAt := 18100000000 } },
     by decide +kernel⟩,
   ⟨0, 19990000000, { up .retain with aon := { wakeSeen := 2 }, pwr := { sleep := 2, committed := true, enLowAt := some 19990000000 } },
     by decide +kernel⟩,
   ⟨0, 19990000000, { up .retain with aon := { wakeSeen := 4 }, pwr := { sleep := 3, committed := true, enLowAt := some 19990000000 } },
     by decide +kernel⟩,
   ⟨{ up .calibrate with pwr := { sleep := 1, exiting := true } }, by decide +kernel⟩,
   ⟨up .active, by decide +kernel⟩,
   ⟨({ count := 1, mask := [] } : Retention), { up .calibrate with aon := { retainStore := some ({ count := 1, mask := [] } : Retention) }, cal := { hbm := true, scrub := false } },
     by decide +kernel⟩,
   ⟨({} : SavedState), { up .calibrate with image := some ({} : SavedState), cal := { hbm := true, memory := true, restored := false } },
     by decide +kernel⟩⟩

/-- The premises of `UndecodedAddressesReadZero`, clause by clause, at boundary values. -/
theorem test_undecoded_addresses_read_zero_premises :
    (∃ (t : Nat) (c : HostCmd) (s : State), accepted .regRead refuseRegRead t c s = true ∧ decodeReg s (u32 c.params
      0) = none) ∧
    (∃ (t : Nat) (c : HostCmd) (s : State), accepted .regWrite refuseRegWrite t c s = true ∧ decodeReg s (u32
      c.params 0) = none) ∧
    (∃ (a : Nat) (s : State), decodeReg s a = none) :=
  ⟨⟨0, oc [3, 0, 15, 252], up .active, by decide +kernel⟩,
   ⟨0, mc [3, 0, 15, 252, 0, 0, 0, 5], up .active, by decide +kernel⟩,
   ⟨0x03000FFC, up .active, by decide +kernel⟩⟩

/-- The premises of `ReactionAbandonsAnEntryIntoRetain`, clause by clause, at boundary values. -/
theorem test_reaction_abandons_an_entry_into_retain_premises :
    (∃ (s : State), s.mode = .retain ∧ s.pwr.entering = true ∧ s.pwr.fromMode.maySleep = true) ∧
    (∃ (m : Nat) (s : State), s.mode = .retain ∧ s.pwr.entering = true ∧ s.pwr.fromMode.maySleep = true ∧ 1 ≤ m ∧ m ≤
      7) ∧
    (∃ (m : Nat) (s : State), s.mode = .retain ∧ s.pwr.entering = true ∧ s.pwr.fromMode.maySleep = true ∧ 1 ≤ m ∧ m ≤
      7) :=
  ⟨⟨{ up .retain with pwr := { sleep := 2, entering := true, fromMode := .active } }, by decide +kernel⟩,
   ⟨1, { up .retain with pwr := { sleep := 2, entering := true, fromMode := .active } }, by decide +kernel⟩,
   ⟨7, { up .retain with pwr := { sleep := 2, entering := true, fromMode := .active } }, by decide +kernel⟩⟩

/-- The premises of `OverTemperatureEscalatesAndClears`, clause by clause, at boundary values. -/
theorem test_over_temperature_escalates_and_clears_premises :
    (∃ (n : Nat) (d : Nat) (s : State), n ≤ 4 ∧ coresRun s = true ∧ 110 < d ∧ s.saf.overTemp.contains n = false ∧
      s.evt.running = true ∧ s.evt.pending.length < 256) ∧
    (∃ (n : Nat) (d : Nat) (s : State), n ≤ 4 ∧ coresRun s = true ∧ d < 105 ∧ s.saf.overTemp.contains n = true ∧ (∀ k
      ∈ s.saf.overTemp, k = n) ∧ s.evt.running = true ∧ s.evt.pending.length < 256) ∧
    (∃ (n : Nat) (d : Nat) (s : State) (k : Nat), n ≤ 4 ∧ coresRun s = true ∧ d < 105 ∧ s.saf.overTemp.contains n =
      true ∧ k ∈ s.saf.overTemp ∧ k ≠ n) :=
  ⟨⟨4, 111, up .active, by decide +kernel⟩,
   ⟨4, 104, { up .active with saf := { overTemp := [4] } }, by decide +kernel⟩,
   ⟨4, 104, { up .active with saf := { overTemp := [0, 4] } }, 0, by decide +kernel⟩⟩

end Sys2Proof.Tests
end

section
/-! PROOFS. The course of an accepted host command, and register access over the bus (O18, O55). -/

namespace Sys2Proof.Machine

theorem runCommand_of_accepted {op : Op} {own : Refuse} {t : Nat} {c : HostCmd} {s : State} (eff : Effect)
    (h : accepted op own t c s = true) : runCommand op own eff t c s = acceptWith op c eff (begun op t c s) := by
  simp only [accepted, admitted, Bool.and_eq_true, Bool.not_eq_true', Option.isNone_iff_eq_none] at h
  obtain ⟨⟨⟨⟨hserves, hnamed⟩, hrole⟩, hmode⟩, hown⟩ := h
  rw [begun] at hown
  simp [runCommand, refusal, begun, hserves, hnamed, hrole, hmode, hown]

/-- The course of an accepted command that is answered at once. -/
theorem runCommand_answered {op : Op} {own : Refuse} {eff : Effect} {t : Nat} {c : HostCmd} {s x : State} {st : Status}
    {ps : List Byte} (h : accepted op own t c s = true) (he : eff (begun op t c s) c = (x, some (st, ps))) :
    runCommand op own eff t c s = answered op c st ps x := by
  rw [runCommand_of_accepted eff h, acceptWith, he, answered]

theorem decodeReg_congr {s x : State} (h : x.ctl = s.ctl) (a : Nat) : decodeReg x a = decodeReg s a := by
  simp only [decodeReg, h]

theorem readReg_of_undecoded {a : Nat} {s : State} (m : Nat) (h : decodeReg s a = none) :
    readReg m a s = (0#32, .decodeZero, busCount 0 1 s) := by
  simp only [readReg, h]

theorem writeReg_of_undecoded {a : Nat} {s : State} (v : Nat) (h : decodeReg s a = none) :
    writeReg a v s = (.decodeZero, busCount 0 1 s) := by
  simp only [writeReg, h]

theorem execRegRead_answered {t : Nat} {c : HostCmd} {s x : State} {w : Word} {st : Status}
    (h : accepted .regRead refuseRegRead t c s = true)
    (hr : readReg 0 (u32 c.params 0) (begun .regRead t c s) = (w, st, x)) :
    exec (.regRead t c) s = .next (answered .regRead c st (wordBytes w) x) :=
  congrArg _ (runCommand_answered h (by rw [effRegRead, hr]))

theorem execRegWrite_answered {t : Nat} {c : HostCmd} {s x : State} {st : Status}
    (h : accepted .regWrite refuseRegWrite t c s = true)
    (hw : writeReg (u32 c.params 0) (u32 c.params 4) (begun .regWrite t c s) = (st, x)) :
    exec (.regWrite t c) s = .next (answered .regWrite c st [] x) :=
  congrArg _ (runCommand_answered h (by rw [effRegWrite, hw]))

theorem execRegisterWrite_of_undecoded (t v : Nat) {a : Nat} {s : State} (h : decodeReg s a = none) :
    exec (.registerWrite t a v) s = .next (busCount 0 1 (advance t s)) := by
  have hd : decodeReg (advance t s) a = none := (decodeReg_congr rfl a).trans h
  exact congrArg (fun r => Host.Outcome.next r.2) (writeReg_of_undecoded v hd)

theorem execRegRmw_answered {t : Nat} {c : HostCmd} {s s1 s2 s3 : State} {old back : Word} {st sb : Status}
    (h : accepted .regRmw refuseRegRmw t c s = true)
    (hr : readReg 0 (u32 c.params 0) (begun .regRmw t c s) = (old, .ok, s1))
    (hw : writeReg (u32 c.params 0) (rmwValue old (w32 (u32 c.params 4)) (w32 (u32 c.params 8))).toNat s1 = (st, s2))
    (hb : readReg 0 (u32 c.params 0) s2 = (back, sb, s3)) :
    exec (.regRmw t c) s = .next (answered .regRmw c st (wordBytes old ++ wordBytes back) s3) :=
  congrArg _ (runCommand_answered h (by simp [effRegRmw, hr, hw, hb]))

theorem foldl_word_count {α : Type} (f : BlockRun → α → Word × Status × State) (l : List α) (b : BlockRun) :
    (l.foldl (fun b x => b.word (f b x).1 (f b x).2.1 (f b x).2.2) b).count = b.count + l.length := by
  induction l generalizing b with
  | nil => rfl
  | cons x l ih => rw [List.foldl_cons, ih, List.length_cons, Nat.add_comm l.length, ← Nat.add_assoc]; rfl

@[simp] theorem readBlock_count (as : List Nat) (s : State) : (readBlock as s).count = as.length :=
  (foldl_word_count (fun b a => readReg 0 a b.st) as { st := s }).trans (Nat.zero_add _)

@[simp] theorem writeBlock_count (ws : List (Nat × Nat)) (s : State) : (writeBlock ws s).count = ws.length :=
  (foldl_word_count (fun b (x : Nat × Nat) => (0#32, writeReg x.1 x.2 b.st)) ws { st := s }).trans (Nat.zero_add _)

@[simp] theorem blockAddrs_length (c : HostCmd) : (blockAddrs c).length = u16 c.params 4 := by simp [blockAddrs]

theorem decodeReg_modeHalWait (s : State) : decodeReg s 0x00000014 = some (.modeHalWait, 0, 0) := rfl

theorem writeReg_modeHalWait (v : Nat) (s : State) : writeReg 0x00000014 v s = (.ok, writeHalWait v s) := by
  rw [writeReg, decodeReg_modeHalWait]
  rfl

theorem execRegisterWrite_modeHalWait (t v : Nat) (s : State) :
    exec (.registerWrite t 0x00000014 v) s = .next (writeHalWait v (advance t s)) :=
  congrArg (fun r : Status × State => Host.Outcome.next r.2) (writeReg_modeHalWait v (advance t s))

theorem bit_lt (b : Bool) : bit b < 2 := by cases b <;> decide

theorem regRxCfg_advance (t n : Nat) (s : State) : regRxCfg (advance t s) n = regRxCfg s n := rfl

/-- CTLE_CODE_WRITE writes back LANE_RX_CFG with the two fields of bits [6:1] replaced (log 36). -/
theorem execCtleCodeWrite_fields {n : Nat} (t code : Nat) (a : Bool) (s : State) (hn : n ≤ 131) :
    ∃ w, exec (.ctleCodeWrite t n code a) s = .next (writeRxCfg n w (advance t s)) ∧ w / 4 % 32 = code % 32
      ∧ w / 2 % 2 = bit a ∧ w / 128 = (regRxCfg s n).toNat / 128 ∧ w % 2 = (regRxCfg s n).toNat % 2 := by
  have ha := bit_lt a
  refine ⟨_, if_neg (Nat.not_lt.mpr hn), ?_⟩
  rw [← regRxCfg_advance t n s]
  generalize (regRxCfg (advance t s) n).toNat = old
  omega

theorem readReg_frame (m a : Nat) (s : State) : (readReg m a s).2.2.mode = s.mode ∧ (readReg m a s).2.2.out = s.out :=
  have h : Moves [.evt, .ctl, .eth, .tim, .free] s (readReg m a s).2.2 := readReg_moves m a (Moves.refl _ s)
  ⟨h.same .mode rfl, h.same .out rfl⟩

end Sys2Proof.Machine

section
open Sys2Proof Sys2Proof.Machine

/-- Settles O55: host commands, reads by any master and REGISTER_WRITE all meet the undecoded case of one access. -/
theorem undecodedAddressesReadZero : Obligations.UndecodedAddressesReadZero := by
  refine ⟨fun t c s h hd => ?_, fun t c s h hd => ?_, fun t m a v s hd => ?_⟩
  · exact execRegRead_answered h (readReg_of_undecoded 0 ((decodeReg_congr rfl _).trans hd))
  · exact execRegWrite_answered h (writeReg_of_undecoded _ ((decodeReg_congr rfl _).trans hd))
  · rw [readReg_of_undecoded m hd, writeReg_of_undecoded v hd]
    exact ⟨rfl, rfl, rfl, execRegisterWrite_of_undecoded t v hd⟩

/-- Settles O18, one clause per register command. -/
theorem registerCommandsTakeEffect : Obligations.RegisterCommandsTakeEffect := by
  refine ⟨fun t c s h => ?read, fun t c s h => ?write, fun t c s s1 s2 s3 old back st sb h hr hw hb => ?rmw,
    fun t c s h => ?readBlock, fun t c s h => ?writeBlock, fun t a v s hd => ?undecoded, fun t v s => ?halWait,
    fun t n code a s hn => ?ctle, fun t a s => ?compat⟩
  case read => exact execRegRead_answered h rfl
  case write => exact execRegWrite_answered h rfl
  case rmw => exact execRegRmw_answered h hr hw hb
  case readBlock => exact ⟨_, rfl, by simp, congrArg _ (runCommand_answered h rfl)⟩
  case writeBlock => exact ⟨_, rfl, by simp, congrArg _ (runCommand_answered h rfl)⟩
  case undecoded =>
    rw [readReg_of_undecoded 0 hd]
    exact ⟨_, execRegisterWrite_of_undecoded t v hd, rfl, rfl, rfl, rfl, rfl⟩
  case halWait =>
    exact ⟨_, execRegisterWrite_modeHalWait t v s, by simp [writeHalWait, bitsOf], rfl, rfl⟩
  case ctle => exact execCtleCodeWrite_fields t code a s hn
  case compat =>
    obtain ⟨hmode, hout⟩ := readReg_frame 1 (0x0F000000 + a % 0x1000000) (advance t s)
    exact ⟨_, rfl, congrArg (_ :: ·) hout, hmode⟩

end

end

section
/-! PROOFS. Every row of the opcode table completes unless it names a missing object (O8). -/

namespace Sys2Proof.Machine

/-- An answer that is a next state when `b` holds, and the fault `noSuchObject` when it does not. -/
def CompletesIff (b : Bool) (o : Host.Outcome State Fault Refusal) : Prop :=
  (b = true → ∃ u, o = .next u) ∧ (b = false → o = .fault .noSuchObject)

theorem CompletesIff.next (u : State) : CompletesIff true (.next u) := ⟨fun _ => ⟨u, rfl⟩, nofun⟩

theorem CompletesIff.fault {b : Bool} {c : Prop} [Decidable c] {u : State} (h : c ↔ b = false) :
    CompletesIff b (if c then .fault .noSuchObject else .next u) := by
  cases b with
  | true => exact ⟨fun _ => ⟨u, if_neg (by simp [h])⟩, nofun⟩
  | false => exact ⟨nofun, fun _ => if_pos (h.mpr rfl)⟩

theorem beyond_iff {k n : Nat} : k < n ↔ decide (n ≤ k) = false := by simp

theorem decide_beyond_iff {k n : Nat} : decide (k < n) = true ↔ decide (n ≤ k) = false :=
  decide_eq_true_iff.trans beyond_iff

theorem beyondMatrix_iff {n : Nat} : matrixSize ≤ n ↔ decide (n < 24608) = false := by simp [matrixSize]

theorem beyond_or_iff {x b d : Bool} {p : Prop} [Decidable p] (hx : x = true ↔ b = false) (hp : p ↔ d = false) :
    (x || decide p) = true ↔ (b && d) = false := by
  rw [Bool.or_eq_true, decide_eq_true_iff, Bool.and_eq_false_iff, hx, hp]

/-- Every row of the table either answers a next state or first compares its operands with Table 0.6. -/
theorem exec_completesIff (i : Instr) (s : State) : CompletesIff i.objectsExist (exec i s) := by
  cases i with
  | pgInputAsserted | pgInputLow | powerFault | processorAlive | aliveTimeout | slotEraseDone | errorInjection |
    laneRxEnableWrite | ctleCodeWrite | laneTxEnableWrite | laneSignalLost | laneSignalReturn | ctleSweepDone |
    ctleTrack | laneBlockReceived | blockLockGained | blockLockLost | berInterval | rxFifoOverflow | pennantReceived |
    pennantLockGained | pennantLockLost | pennantTransmit | flowSrcCfgWrite | flowTpCfgWrite | sourceDeleteLands |
    destDeleteLands | sourceRedefineLands | mergeWindowExpired | readOutPoint | holdFramesReached | switchingLine |
    destFrameStart | planeWordReceived | cueGroupExecute | cueEntriesRetry | cueStallExpired | waitFramesResume |
    waitTimeResume | cueTriggerStart | cueMark | objectLoadTimeout | objectReferencerMove | bankReinit | pcReadTimeout
    | stackTemperatureChange | selfRefreshEntry | writeDrain | cmpConfigLands | cmpDisableLands | outputFrameStart |
    lutCopyDone | cmpProtCfgWrite | audioPortRateWindow | audioPortStop | audioPortFrame | audioStreamLate |
    pcsBlockLock | linkUp | pcsAlignmentLost | linkFaultExpired | preemptVerifyExpired | ethFrameReceived |
    pauseExpired | pauseTxThreshold | pauseRepeat | igmpQueryReceived | igmpReportSend | mergeRelease | realignLands |
    announceTimeout | refEdge | refAbsent | refFrequencyWindow | refQualify | planeFrameStart | compareFire |
    pulseEdge | halyardProtSig | halyardObjectFill | planePhaseDiverge | settlingEnd | procStall | overTemp |
    islandClockLost | contextReloadDone | blockRestartDone | stewardReloadDone | privateSramParity |
    backgroundSramCheck | busTransferResponse | targetTimeout | masterPortReset | portRetireDone | realignSlewDone |
    islandClockRestored =>
    exact .fault beyond_iff
  | flowFrameStart | flowParcel | copyLost =>
    exact .fault (beyond_or_iff (beyond_or_iff decide_beyond_iff beyond_iff) beyond_iff)
  | scrubRead | confirmingRead =>
    exact .fault (beyond_or_iff (beyond_or_iff (beyond_or_iff decide_beyond_iff beyond_iff) beyond_iff) beyond_iff)
  | bankRefresh | pageIdleExpired | signatureReport | signatureReportMissing | ethPortCntLowRead | addressProbe |
    legLost | legRestored | mediaPacketSend | refDisagree | readoutDecision | halyardReadout | halyardSignatures |
    signatureWaitExpired | contextParityConfirm | refDisagreementEnd =>
    exact .fault (beyond_or_iff decide_beyond_iff beyond_iff)
  | audioChangeLands | zeroCrossingTimeout | zeroCrossing | gainRampDone | converterSlip =>
    exact .fault beyondMatrix_iff
  | audioParity =>
    exact .fault (beyond_or_iff (decide_eq_true_iff.trans beyondMatrix_iff) beyond_iff)
  | _ => exact .next _

end Sys2Proof.Machine

section
open Sys2Proof Sys2Proof.Machine

/-- Settles O8: the fault of log 8 is the answer exactly where an operand lies beyond Table 0.6. -/
theorem commandsCompleteUnlessTheObjectIsMissing : Obligations.CommandsCompleteUnlessTheObjectIsMissing :=
  exec_completesIff

end

end

section
/-! PROOFS. The CRCs as bit-serial registers (O58). -/

namespace Sys2Proof.Machine

/-- A CRC register that takes in one bit of the message: the bit stands against the register's most significant one. -/
def crcFeed {w : Nat} (p r : BitVec w) (x : Bool) : BitVec w := (r <<< 1) ^^^ (if r.msb != x then p else 0#w)

/-- A CRC register that shifts once, with the message already added to its top. -/
def crcShift {w : Nat} (p c : BitVec w) : BitVec w := if c.msb then (c <<< 1) ^^^ p else c <<< 1

theorem crcShift_xor {w : Nat} (p r y : BitVec w) : crcShift p (r ^^^ y) = crcFeed p r y.msb ^^^ (y <<< 1) := by
  have hbit : (r.msb != y.msb) = (r.msb ^^ y.msb) := rfl
  rw [crcShift, crcFeed, hbit, BitVec.msb_xor, BitVec.shiftLeft_xor_distrib]
  cases r.msb ^^ y.msb with
  | true => rw [if_pos rfl, if_pos rfl]; ac_rfl
  | false => simp

/-- Shifting a register to which a message was added feeds the message's top bits, one by one; what is left of the
message is still added on top. -/
theorem foldl_crcShift_xor {w n : Nat} (p r : BitVec w) {y : BitVec w} {x : Nat → Bool}
    (hx : ∀ k < n, (y <<< k).msb = x k) :
    (List.range n).foldl (fun c _ => crcShift p c) (r ^^^ y) =
      (List.range n).foldl (fun r k => crcFeed p r (x k)) r ^^^ (y <<< n) := by
  induction n with
  | zero => rw [BitVec.shiftLeft_zero]; rfl
  | succ n ih =>
    rw [List.range_succ, List.foldl_append, List.foldl_append, ih (fun k hk => hx k (Nat.lt_succ_of_lt hk)),
      List.foldl_cons, List.foldl_nil, crcShift_xor, hx n (Nat.lt_succ_self n), ← BitVec.shiftLeft_add]
    rfl

/-- A byte at the top of a register, its least significant bit at place `n`. -/
def byteAtTop (n : Nat) (b : Byte) : BitVec (n + 8) := b.setWidth (n + 8) <<< n

theorem byteAtTop_zero (b : Byte) : byteAtTop 0 b = b := by
  rw [byteAtTop, BitVec.shiftLeft_zero, BitVec.setWidth_eq]

theorem msb_byteAtTop_shiftLeft {n k : Nat} (b : Byte) (hk : k < 8) :
    (byteAtTop n b <<< k).msb = b.getLsbD (7 - k) := by
  have hat : n + 7 - k - n = 7 - k := by omega
  have hnot : ¬ n + 7 < k := by omega
  have hlow : ¬ n + 7 - k < n := by omega
  simp [byteAtTop, BitVec.msb_eq_getLsbD_last, hat, hnot, hlow]

theorem byteAtTop_shiftLeft_eight (n : Nat) (b : Byte) : byteAtTop n b <<< 8 = 0#(n + 8) := by
  rw [byteAtTop, ← BitVec.shiftLeft_add, BitVec.shiftLeft_eq_zero (Nat.le_refl _)]

/-- A byte added to the top of a register is fed most significant bit first. -/
theorem foldl_crcShift_byte {n : Nat} (p r : BitVec (n + 8)) (b : Byte) :
    (List.range 8).foldl (fun c _ => crcShift p c) (r ^^^ byteAtTop n b) =
      [7, 6, 5, 4, 3, 2, 1, 0].foldl (fun r i => crcFeed p r (b.getLsbD i)) r := by
  have hbits : [7, 6, 5, 4, 3, 2, 1, 0] = (List.range 8).map (7 - ·) := by decide
  rw [foldl_crcShift_xor p r (fun _ hk => msb_byteAtTop_shiftLeft b hk), byteAtTop_shiftLeft_eight, BitVec.xor_zero,
    hbits, List.foldl_map]

theorem crc32Step_eq_crcShift : crc32Step = crcShift 0x04C11DB7#32 := rfl

theorem crc32_append_byte (bs : List Byte) (b : Byte) : ~~~ crc32 (bs ++ [b]) =
    [7, 6, 5, 4, 3, 2, 1, 0].foldl (fun r i => crcFeed 0x04C11DB7#32 r (b.getLsbD i)) (~~~ crc32 bs) := by
  have htop : BitVec.ofNat 32 (b.toNat * 16777216) = byteAtTop 24 b := by
    apply BitVec.eq_of_toNat_eq
    simp [byteAtTop, Nat.shiftLeft_eq]
  rw [crc32, crc32, List.foldl_append, List.foldl_cons, List.foldl_nil, BitVec.not_not, BitVec.not_not,
    crc32Step_eq_crcShift, htop]
  exact foldl_crcShift_byte _ _ b

theorem crc8_append_byte (bs : List Byte) (b : Byte) : crc8 (bs ++ [b]) =
    [7, 6, 5, 4, 3, 2, 1, 0].foldl (fun r i => crcFeed 0x07#8 r (b.getLsbD i)) (crc8 bs) := by
  have hbyte := foldl_crcShift_byte 0x07#8 (crc8 bs) b
  rw [byteAtTop_zero] at hbyte
  rw [crc8, List.foldl_append, List.foldl_cons, List.foldl_nil, ← crc8]
  exact hbyte

end Sys2Proof.Machine

section
open Sys2Proof Sys2Proof.Machine

/-- Settles O58: the model adds a byte to the register's top and shifts 8 times, which is the feeding of its bits. -/
theorem crcsRunWithoutReflection : Obligations.CrcsRunWithoutReflection := by
  refine ⟨crc32_append_byte, crc8_append_byte, ?_, ?_, ?_, ?_⟩
  · decide
  · decide
  · decide +kernel
  · decide +kernel

end

end

section
/-! PROOFS. What a mode transition leaves: the mode and its history, READY, the power state and the safety monitor
(R31, R38). -/

-- The package is checked as one text; elaborating these proofs in order keeps the number of threads small.
set_option Elab.async false

namespace Sys2Proof.Machine

@[simp] theorem setReady_pins_ready (v : Bool) (s : State) : (setReady v s).pins.ready = v := by
  unfold setReady
  dsimp only
  split
  · assumption
  · repeat' split
    all_goals rfl

/-- READY falls without a note of the start or the wake: only its rise is timed (Table 2.15, Table 17.8). -/
theorem setReady_false_moves (s : State) : Moves [.pins, .out] s (setReady false s) := by
  unfold setReady
  exact .ite (.refl _ s) (emitPin_moves _ _ ((Moves.refl _ s).setPins _))

/-- The mode and its history are written at once; the trial's service time, MODE_CHANGE, READY and the ensign follow. -/
theorem setMode_moves_entered (n : Nat) (dest : Mode) (cause : Nat) (s : State) :
    ∃ f, Moves [.pins, .start, .evt, .pwr, .lane, .out]
      { s with mode := dest, aon := { s.aon with prevMode := s.mode.code, lastTrans := n }, flash := f }
      (setMode n dest cause s) :=
  ⟨_, noteEnsign_moves (setReady_moves _ (raiseModeChange_moves _ _ _ _ (.refl _ _)))⟩

theorem setMode_ready (n : Nat) (dest : Mode) (cause : Nat) (s : State) :
    (setMode n dest cause s).pins.ready = dest.ready := by
  have h (x : State) : Moves [.lane] x (noteEnsign x) := noteEnsign_moves (.refl _ x)
  exact (congrArg Pins.ready ((h _).same .pins rfl)).trans (setReady_pins_ready ..)

theorem setMode_pwr_of_not_ready (n : Nat) {dest : Mode} (cause : Nat) (s : State) (hd : dest.ready = false) :
    (setMode n dest cause s).pwr = s.pwr := by
  have hready (x : State) : Moves [.pins, .out] x (setReady dest.ready x) := hd ▸ setReady_false_moves x
  have h (x : State) : Moves [.pins, .evt, .lane, .out] x
      (noteEnsign (setReady dest.ready (raiseModeChange n s.mode dest cause x))) :=
    noteEnsign_moves (Moves.trans (raiseModeChange_moves _ _ _ _ (.refl _ x)) ((hready _).mono rfl))
  exact (h _).same .pwr rfl

/-- What a transition does before the mode changes: the queues, the test functions, the lease and the trial. -/
theorem applyTransition_eq_setMode (n : Nat) (dest : Mode) (cause : Nat) (s : State) :
    ∃ x, Moves [.pins, .flash, .host, .evt, .xpt, .cue, .red, .lane, .flow, .cmp, .aud, .out] s x ∧
      applyTransition n dest cause s = setMode n dest cause x := by
  have hq := transitionQueues_moves n (.refl
    [.pins, .flash, .host, .evt, .xpt, .cue, .red, .lane, .flow, .cmp, .aud, .out] s)
  have ht := Moves.ite (c := (transitionQueues n s).mode = .maintenance) (stopTests_moves hq) hq
  have hl := Moves.ite (c := dest.mayLease) ht (dropLease_moves 0 ht)
  exact ⟨_, Moves.ite (c := n = 12) (blockTrial_moves 4 hl) hl, rfl⟩

/-- A step that a mode calls for is not taken in another mode. -/
theorem Moves.ite_of_mode_ne {l : List Part} {z a x : State} {m : Mode} (h : Moves l z x) (hz : z.mode ≠ m)
    (hl : l.contains .mode = false) : Moves l z (if x.mode = m then a else x) := by
  have hx : x.mode = z.mode := h.same .mode hl
  rw [if_neg (hx ▸ hz)]
  exact h

/-- The link's fall changes the mode in STANDBY alone (T9, T10). -/
theorem linkTo_moves_of_ne_standby (new : Link) (cause : Nat) {s : State} (hs : s.mode ≠ .standby) :
    Moves [.flash, .host, .evt, .red, .out] s (linkTo new cause s) := by
  unfold linkTo
  have hfall (r : Red) (ws : List Word) :
      Moves [.flash, .host, .evt, .red, .out] s (raise 2 10 0xA001 0 ws { s with red := r }) :=
    raise_moves _ _ _ _ _ (Moves.setRed (.refl _ s) r)
  refine .ite (.refl _ s) (.ite (Moves.ite_of_mode_ne (.setRed (.ite ?_ (.setRed ?_ _)) _) hs rfl) (hfall _ _))
  · exact refuseHeld_moves (hfall _ _)
  · exact refuseHeld_moves (hfall _ _)

theorem setMode_mode (n : Nat) (dest : Mode) (cause : Nat) (s : State) : (setMode n dest cause s).mode = dest :=
  let ⟨_, h⟩ := setMode_moves_entered n dest cause s
  h.same .mode rfl

theorem setMode_aon (n : Nat) (dest : Mode) (cause : Nat) (s : State) :
    (setMode n dest cause s).aon = { s.aon with prevMode := s.mode.code, lastTrans := n } :=
  let ⟨_, h⟩ := setMode_moves_entered n dest cause s
  h.same .aon rfl

theorem applyTransition_mode (n : Nat) (dest : Mode) (cause : Nat) (s : State) :
    (applyTransition n dest cause s).mode = dest := by
  obtain ⟨x, -, h⟩ := applyTransition_eq_setMode n dest cause s
  rw [h, setMode_mode]

/-- A transition ends as `applyTransition` does, but for a link that falls (Table 14.4). -/
theorem transition_moves_applied (n : Nat) (dest : Mode) (cause : Nat) (s : State) :
    Moves [.flash, .host, .evt, .red, .out] (applyTransition n dest cause s) (transition n dest cause s) := by
  unfold transition
  dsimp only
  split
  · exact .refl _ _
  · rename_i hd
    refine .ite (linkTo_moves_of_ne_standby _ _ ?_) (.refl _ _)
    rw [applyTransition_mode]
    rintro rfl
    exact hd rfl

/-- A transition ends as `setMode` does, but for what it does to the queues, the lease, the link and the outputs. -/
theorem transition_from_setMode (n : Nat) (dest : Mode) (cause : Nat) (s : State) :
    ∃ x, Moves [.pins, .flash, .host, .evt, .xpt, .cue, .red, .lane, .flow, .cmp, .aud, .out] s x ∧
      Moves [.flash, .host, .evt, .red, .out] (setMode n dest cause x) (transition n dest cause s) := by
  obtain ⟨x, hx, h⟩ := applyTransition_eq_setMode n dest cause s
  exact ⟨x, hx, h ▸ transition_moves_applied n dest cause s⟩

@[simp] theorem transition_mode (n : Nat) (dest : Mode) (cause : Nat) (s : State) :
    (transition n dest cause s).mode = dest := by
  obtain ⟨x, -, h⟩ := transition_from_setMode n dest cause s
  exact (h.same .mode rfl).trans (setMode_mode ..)

@[simp] theorem transition_aon (n : Nat) (dest : Mode) (cause : Nat) (s : State) :
    (transition n dest cause s).aon = { s.aon with prevMode := s.mode.code, lastTrans := n } := by
  obtain ⟨x, hx, h⟩ := transition_from_setMode n dest cause s
  have hmode : x.mode = s.mode := hx.same .mode rfl
  have haon : x.aon = s.aon := hx.same .aon rfl
  rw [← hmode, ← haon]
  exact (h.same .aon rfl).trans (setMode_aon ..)

@[simp] theorem transition_pins_ready (n : Nat) (dest : Mode) (cause : Nat) (s : State) :
    (transition n dest cause s).pins.ready = dest.ready := by
  obtain ⟨x, -, h⟩ := transition_from_setMode n dest cause s
  exact (congrArg Pins.ready (h.same .pins rfl)).trans (setMode_ready ..)

theorem transition_pwr_of_not_ready (n : Nat) {dest : Mode} (cause : Nat) (s : State) (hd : dest.ready = false) :
    (transition n dest cause s).pwr = s.pwr := by
  obtain ⟨x, hx, h⟩ := transition_from_setMode n dest cause s
  exact ((h.same .pwr rfl).trans (setMode_pwr_of_not_ready n cause x hd)).trans (hx.same .pwr rfl)

theorem transition_own (n : Nat) (dest : Mode) (cause : Nat) (s : State) :
    Moves [.mode, .aon, .pins, .start, .flash, .host, .evt, .pwr, .xpt, .cue, .red, .lane, .flow, .cmp, .aud, .out] s
      (transition n dest cause s) := transition_moves n dest cause (.refl _ s)

@[simp] theorem transition_saf (n : Nat) (dest : Mode) (cause : Nat) (s : State) :
    (transition n dest cause s).saf = s.saf := (transition_own n dest cause s).same .saf rfl

/-! T1. -/

theorem raiseModeChange_own (n : Nat) (old new : Mode) (cause : Nat) (s : State) :
    Moves [.evt] s (raiseModeChange n old new cause s) := raiseModeChange_moves n old new cause (.refl _ s)

@[simp] theorem takeT1_mode (cause : Nat) (s : State) : (takeT1 cause s).mode = .boot :=
  (raiseModeChange_own 1 s.mode .boot cause _).same .mode rfl

@[simp] theorem takeT1_host (cause : Nat) (s : State) : (takeT1 cause s).host = {} :=
  (raiseModeChange_own 1 s.mode .boot cause _).same .host rfl

theorem pinsDown_own (s : State) : Moves [.pins, .start, .saf, .pwr, .tim, .out] s (pinsDown s) :=
  pinsDown_moves (.refl _ s)

/-- Of the always-on domain T1 changes the mode's history and the retention store of a sleep in hand. -/
theorem takeT1_aon (cause : Nat) (s : State) :
    (takeT1 cause s).aon = { s.aon with prevMode := s.mode.code, lastTrans := 1, retainStore := none } := by
  have hreset (x : State) : (raiseModeChange 1 s.mode .boot cause (resetState (pinsDown x))).aon
      = { x.aon with retainStore := none } :=
    ((raiseModeChange_own 1 s.mode .boot cause _).same .aon rfl).trans
      (congrArg (fun a : Aon => { a with retainStore := none }) ((pinsDown_own x).same .aon rfl))
  refine (hreset _).trans ?_
  split <;> rfl

theorem takeT1Start_cases (cause : Nat) (s : State) :
    takeT1Start cause s = takeT1 cause s ∨ takeT1Start cause s = takeT0 (takeT1 cause s) := by
  unfold takeT1Start
  dsimp only
  split
  · exact .inl rfl
  · exact .inr rfl

@[simp] theorem takeT1Start_mode (cause : Nat) (s : State) : (takeT1Start cause s).mode = .boot := by
  obtain h | h := takeT1Start_cases cause s
  · rw [h, takeT1_mode]
  · exact h ▸ takeT1_mode cause s

@[simp] theorem takeT1Start_host (cause : Nat) (s : State) : (takeT1Start cause s).host = {} := by
  obtain h | h := takeT1Start_cases cause s
  · rw [h, takeT1_host]
  · exact h ▸ takeT1_host cause s

/-- The instant t0 that may follow T1 at once notes in the always-on domain from where to boot. -/
theorem takeT1Start_aon (cause : Nat) (s : State) : ∃ b, (takeT1Start cause s).aon =
    { s.aon with boot := b, prevMode := s.mode.code, lastTrans := 1, retainStore := none } := by
  obtain h | h := takeT1Start_cases cause s
  · exact ⟨s.aon.boot, by rw [h, takeT1_aon]⟩
  · exact ⟨_, by rw [h, takeT0, takeT1_aon]⟩

theorem takeT1Start_own (cause : Nat) (s : State) :
    Moves [.clock, .mode, .halWaitMs, .aon, .pins, .start, .cal, .flash, .host, .evt, .saf, .ctl, .pwr, .xpt, .cue, .red,
      .eth, .tim, .lane, .flow, .fst, .cmp, .aud, .out, .image] s (takeT1Start cause s) := takeT1Start_moves cause (.refl _ s)

@[simp] theorem takeT1Start_fuses (cause : Nat) (s : State) : (takeT1Start cause s).fuses = s.fuses :=
  (takeT1Start_own cause s).same .fuses rfl

/-! T13 and T15. -/

theorem modeDecision_mode {s : State} (h : s.mode = .calibrate) :
    (modeDecision s).mode = .calibrate ∨ (modeDecision s).mode = .active ∨ (modeDecision s).mode = .standby := by
  unfold modeDecision
  repeat' split
  all_goals simp [h]

theorem calProgress_mode {s : State} (h : s.mode = .calibrate) :
    (calProgress s).mode = .calibrate ∨ (calProgress s).mode = .active ∨ (calProgress s).mode = .standby := by
  unfold calProgress
  split
  · refine modeDecision_mode ?_
    split <;> exact h
  · exact .inl h

/-- T13 and T15 lead into CALIBRATE, and the mode decision may go on from there (R34). -/
theorem reenterCalibrate_mode (n : Nat) (s : State) :
    (reenterCalibrate n s).mode = .calibrate ∨ (reenterCalibrate n s).mode = .active
      ∨ (reenterCalibrate n s).mode = .standby := calProgress_mode (transition_mode ..)

theorem reenterCalibrate_own (n : Nat) (s : State) :
    Moves [.mode, .aon, .pins, .start, .cal, .flash, .host, .evt, .pwr, .xpt, .cue, .red, .lane, .flow, .cmp, .aud, .out] s
      (reenterCalibrate n s) := reenterCalibrate_moves n (.refl _ s)

@[simp] theorem reenterCalibrate_saf (n : Nat) (s : State) : (reenterCalibrate n s).saf = s.saf :=
  (reenterCalibrate_own n s).same .saf rfl

end Sys2Proof.Machine
end

section
/-! PROOFS. A safety reaction: what it writes in the safety monitor, T12, and the abandoned entry into RETAIN (O56). -/

-- The package is checked as one text; elaborating these proofs in order keeps the number of threads small.
set_option Elab.async false

namespace Sys2Proof.Machine

@[simp] theorem setSafePins_saf (p : PinState) (s : State) : (setSafePins p s).saf = { s.saf with pins := p } := by
  unfold setSafePins
  split
  · rename_i h; rw [← h]
  · rfl

@[simp] theorem setSafePins_mode (p : PinState) (s : State) : (setSafePins p s).mode = s.mode :=
  Moves.same (k := [.saf, .out]) (setSafePins_moves p (.refl _ s)) .mode rfl

/-- What a dangerous failure of mechanism SM`m` writes in the safety monitor (R499 to R501). -/
def Safety.afterReaction (m : Nat) (k : Safety) : Safety :=
  { k with
    pins := .high
    react := if k.react.testBit (m - 1) then k.react else k.react + mechBit m
    passes := if 2 ≤ m && m ≤ 5 then 0 else k.passes
    reacted := true
    escCnt := if k.reacted then k.escCnt else bump k.escCnt 5 }

theorem Safety.afterReaction_react (m : Nat) (k : Safety) : (k.afterReaction m).react.testBit (m - 1) = true := by
  simp only [afterReaction]
  split
  · assumption
  · rename_i h
    rw [mechBit, Nat.add_comm, Nat.testBit_two_pow_add_eq, Bool.eq_false_iff.mpr h, Bool.not_false]

/-- Every index of SAF_ESC_CNT but 5, which counts the reactions, stands still. -/
theorem Safety.afterReaction_escCnt (m : Nat) (k : Safety) {i : Nat} (h : 5 ≠ i) :
    tget 0#32 (k.afterReaction m).escCnt i = tget 0#32 k.escCnt i := by
  simp only [afterReaction]
  split
  · rfl
  · exact bump_other _ h

/-- A reaction outside SAFE, BOOT and RETAIN takes T12, with SAFE_ENTERED (R499). -/
def enterSafe (m : Nat) (s : State) : State :=
  if s.mode = .safe || s.mode = .boot || s.mode = .retain then s
  else transition 12 .safe 3 (raise 5 11 0xB001 0 [pack8 m 0 0 0] s)

/-- A reaction is noted in the safety monitor, an entry into RETAIN is abandoned, and T12 follows. -/
theorem reaction_eq_enterSafe (m : Nat) (cs : List Nat) (s : State) :
    ∃ x, Moves [.flash, .evt, .saf, .cmp, .out] s x ∧ x.saf = s.saf.afterReaction m ∧
      reaction m cs s = enterSafe m (if x.mode = .retain && x.pwr.entering then abandonEntry x else x) := by
  have hframes : Moves [.flash, .evt, .cmp] s (addSafeFrames cs s) := addSafeFrames_moves cs (.refl _ s)
  have hsaf : (addSafeFrames cs s).saf = s.saf := hframes.same .saf rfl
  refine ⟨_, ?_, ?_, rfl⟩
  · have hnoted (k : Safety) :
        Moves [.flash, .evt, .saf, .cmp, .out] s { setSafePins .high (addSafeFrames cs s) with saf := k } :=
      .setSaf (setSafePins_moves _ (hframes.mono rfl)) k
    exact .ite (hnoted _) (.setSaf (hnoted _) _)
  · rw [apply_ite State.saf]
    cases h : s.saf.reacted <;> simp [h, hsaf, Safety.afterReaction]

theorem driveHt_own (v : Nat) (s : State) : Moves [.tim, .out] s (driveHt v s) := driveHt_moves v (.refl _ s)

@[simp] theorem abandonEntry_mode (s : State) : (abandonEntry s).mode = s.pwr.fromMode :=
  ((driveHt_own _ _).same .mode rfl).trans (congrArg Pwr.fromMode (raise_pwr ..))

@[simp] theorem abandonEntry_pwr (s : State) :
    (abandonEntry s).pwr = { s.pwr with entering := false, sleep := 0, imageWritten := false } := by
  rw [← raise_pwr 2 12 0xC024 0 [pack8_16 s.pwr.sleep 0 0] s]
  exact (driveHt_own _ _).same .pwr rfl

theorem abandonEntry_own (s : State) : Moves [.mode, .flash, .evt, .pwr, .tim, .out] s (abandonEntry s) :=
  abandonEntry_moves (.refl _ s)

@[simp] theorem abandonEntry_aon (s : State) : (abandonEntry s).aon = s.aon := (abandonEntry_own s).same .aon rfl
@[simp] theorem abandonEntry_saf (s : State) : (abandonEntry s).saf = s.saf := (abandonEntry_own s).same .saf rfl

@[simp] theorem enterSafe_saf (m : Nat) (s : State) : (enterSafe m s).saf = s.saf := by
  unfold enterSafe
  split
  · rfl
  · simp

theorem enterSafe_mode (m : Nat) {s : State} (hb : s.mode ≠ .boot) (hr : s.mode ≠ .retain) :
    (enterSafe m s).mode = .safe := by
  unfold enterSafe
  split
  · simp_all
  · simp

/-- T12 from a mode that may sleep: its history names that mode, and the power state stands. -/
theorem enterSafe_of_maySleep (m : Nat) {s : State} (h : s.mode.maySleep = true) :
    (enterSafe m s).mode = .safe ∧ (enterSafe m s).aon.lastTrans = 12 ∧ (enterSafe m s).aon.prevMode = s.mode.code
      ∧ (enterSafe m s).pwr = s.pwr := by
  have hm : ¬ (s.mode = .safe || s.mode = .boot || s.mode = .retain) := by
    cases hs : s.mode <;> simp_all [Mode.maySleep]
  rw [enterSafe, if_neg hm, transition_pwr_of_not_ready 12 (dest := .safe) _ _ rfl]
  simp

theorem reaction_saf (m : Nat) (cs : List Nat) (s : State) : (reaction m cs s).saf = s.saf.afterReaction m := by
  obtain ⟨x, -, hsaf, h⟩ := reaction_eq_enterSafe m cs s
  rw [h, enterSafe_saf, ← hsaf]
  split
  · simp
  · rfl

theorem reaction_mode (m : Nat) (cs : List Nat) {s : State} (hb : s.mode ≠ .boot) (hr : s.mode ≠ .retain) :
    (reaction m cs s).mode = .safe := by
  obtain ⟨x, hx, -, h⟩ := reaction_eq_enterSafe m cs s
  have hmode : x.mode = s.mode := hx.same .mode rfl
  rw [h, if_neg (by simp [hmode, hr])]
  exact enterSafe_mode m (hmode ▸ hb) (hmode ▸ hr)

/-- A reaction during the entry into RETAIN: the entry has ended, and T12 was taken from the mode that was left (R37). -/
theorem reaction_of_entering (m : Nat) (cs : List Nat) {s : State} (hm : s.mode = .retain) (he : s.pwr.entering = true)
    (hf : s.pwr.fromMode.maySleep = true) :
    (reaction m cs s).mode = .safe ∧ (reaction m cs s).aon.lastTrans = 12
      ∧ (reaction m cs s).aon.prevMode = s.pwr.fromMode.code
      ∧ (reaction m cs s).pwr = { s.pwr with entering := false, sleep := 0, imageWritten := false } := by
  obtain ⟨x, hx, -, h⟩ := reaction_eq_enterSafe m cs s
  have hmode : x.mode = s.mode := hx.same .mode rfl
  have hpwr : x.pwr = s.pwr := hx.same .pwr rfl
  rw [h, if_pos (by simp [hmode, hpwr, hm, he]), ← hpwr, ← abandonEntry_mode, ← abandonEntry_pwr]
  exact enterSafe_of_maySleep m (by simpa [hpwr] using hf)

/-- SLEEP_ABANDONED by SM1 to SM7 during the entry is the reaction of that mechanism (R548). -/
theorem execSleepAbandoned_reaction (t : Nat) {m : Nat} {s : State} (hm : s.mode = .retain) (he : s.pwr.entering = true)
    (h1 : 1 ≤ m) (h7 : m ≤ 7) :
    exec (.sleepAbandoned t (some m)) s = .next (reaction m (armedComps (advance t s)) (advance t s)) := by
  have hentry : (advance t s).mode = .retain && (advance t s).pwr.entering := by simp [hm, he]
  have hmech : 1 ≤ m && m ≤ 7 := by simp [h1, h7]
  exact congrArg Host.Outcome.next ((if_pos hentry).trans (if_pos hmech))

end Sys2Proof.Machine

section
open Sys2Proof Sys2Proof.Machine

/-- Settles O56: the reaction abandons the entry before it looks at the mode, so T12 is taken from the mode that had
been left. -/
theorem reactionAbandonsAnEntryIntoRetain : Obligations.ReactionAbandonsAnEntryIntoRetain := by
  refine ⟨fun m cs s hm he hf => ?_, fun t m s hm he hf h1 h7 => ?_⟩
  · obtain ⟨hmode, htrans, hprev, hpwr⟩ := reaction_of_entering m cs hm he hf
    exact ⟨by rw [hpwr], by rw [hpwr], by rw [hpwr], hmode, htrans, hprev⟩
  · obtain ⟨hmode, htrans, hprev, hpwr⟩ :=
      reaction_of_entering m (armedComps (advance t s)) (s := advance t s) hm he hf
    exact ⟨_, execSleepAbandoned_reaction t hm he h1 h7, by rw [hpwr], by rw [hpwr], hmode, htrans, hprev⟩

end

end

section
/-! PROOFS. The safety monitor pair: what each of its commands and of the mechanisms SM2 to SM11 writes (O49). -/

-- The package is checked as one text; elaborating these proofs in order keeps the number of threads small.
set_option Elab.async false

namespace Sys2Proof.Machine

@[simp] theorem escCount_saf (i : Nat) (s : State) :
    (escCount i s).saf = { s.saf with escCnt := bump s.saf.escCnt i } := rfl

@[simp] theorem escCount_mode (i : Nat) (s : State) : (escCount i s).mode = s.mode := rfl

/-! A dangerous failure by one of SM2 to SM7. -/

@[simp] theorem danger_saf (m code cls : Nat) (ws : List Word) (s : State) :
    (danger m code cls ws s).saf = s.saf.afterReaction m := by
  rw [danger, reaction_saf, raise_saf]

theorem danger_mode (m code cls : Nat) (ws : List Word) {s : State} (hb : s.mode ≠ .boot) (hr : s.mode ≠ .retain) :
    (danger m code cls ws s).mode = .safe :=
  reaction_mode m _ (by rwa [raise_mode]) (by rwa [raise_mode])

/-- A reaction of mechanism SM`m` has led into SAFE: its bit of SAF_REACT is set, and the SAFE pins are high (R499). -/
structure Reacted (m : Nat) (s : State) : Prop where
  react : s.saf.react.testBit (m - 1) = true
  pins : s.saf.pins = .high
  mode : s.mode = .safe

theorem reacted_of_danger (m code cls : Nat) (ws : List Word) {s : State} (hb : s.mode ≠ .boot)
    (hr : s.mode ≠ .retain) : Reacted m (danger m code cls ws s) :=
  ⟨by rw [danger_saf]; exact Safety.afterReaction_react m _, by rw [danger_saf]; rfl, danger_mode m code cls ws hb hr⟩

/-- A command that answers with a dangerous failure has led into SAFE, and its own notes stand. -/
theorem reacted_of_eq_danger {o : Host.Outcome State Fault Refusal} {m code cls : Nat} {ws : List Word} {x : State}
    (ho : o = .next (danger m code cls ws x)) (hb : x.mode ≠ .boot) (hr : x.mode ≠ .retain) :
    ∃ u, o = .next u ∧ Reacted m u ∧ u.saf = x.saf.afterReaction m :=
  ⟨_, ho, reacted_of_danger m code cls ws hb hr, danger_saf ..⟩

/-! The end of a reaction. -/

theorem reenterCalibrate_mode_ne_safe (n : Nat) (s : State) : (reenterCalibrate n s).mode ≠ .safe := by
  obtain h | h | h := reenterCalibrate_mode n s
  all_goals rw [h]; nofun

theorem endReaction_mode (s : State) : (endReaction s).mode ≠ .safe := reenterCalibrate_mode_ne_safe 13 _

theorem endReaction_saf (s : State) : (endReaction s).saf =
    { s.saf with pins := .toggling, reacted := false, react := 0, lockstep := false, selftest := false, disagree := [0, 0]
                 gateOpen := true, gateAt := some s.clock.clk } := by
  simp [endReaction, protCleared]

theorem execSafStatus_answered {t : Nat} {c : HostCmd} {s : State}
    (h : accepted .safStatus refuseSafStatus t c s = true) :
    exec (.safStatus t c) s = .next (answered .safStatus c .ok (safStatusReply s) (begun .safStatus t c s)) :=
  congrArg _ (runCommand_answered h rfl)

theorem execSafClear_answered {t : Nat} {c : HostCmd} {s : State}
    (h : accepted .safClear refuseSafClear t c s = true) :
    exec (.safClear t c) s = .next (answered .safClear c .ok [] (effSafClear (begun .safClear t c s) c).1) :=
  congrArg _ (runCommand_answered h rfl)

theorem execSafConfig_answered {t : Nat} {c : HostCmd} {s : State}
    (h : accepted .safConfig refuseSafConfig t c s = true) :
    exec (.safConfig t c) s
      = .next (answered .safConfig c .ok [] (writeSafCfg (u32 c.params 0) (begun .safConfig t c s))) :=
  congrArg _ (runCommand_answered h rfl)

/-- The chip fault and its yield after SAF_CLEAR with a parameter byte (R504, log 102). -/
def Safety.faultCleared (b : Nat) (k : Safety) : Safety :=
  if b = 1 then { k with chipFault := false, yielded := false } else k

@[simp] theorem Safety.faultCleared_react (b : Nat) (k : Safety) : (k.faultCleared b).react = k.react := by
  unfold faultCleared
  split <;> rfl

@[simp] theorem Safety.faultCleared_pins (b : Nat) (k : Safety) : (k.faultCleared b).pins = k.pins := by
  unfold faultCleared
  split <;> rfl

theorem effSafClear_of_safe {s : State} (c : HostCmd) (h : s.mode = .safe) :
    ((effSafClear s c).1.saf = { s.saf.faultCleared (u8 c.params 0) with
      pins := .toggling, reacted := false, react := 0, lockstep := false, selftest := false, disagree := [0, 0]
      gateOpen := true, gateAt := some s.clock.clk }) ∧ (effSafClear s c).1.mode ≠ .safe := by
  unfold effSafClear Safety.faultCleared
  split <;> simp [h, endReaction_saf, endReaction_mode]

theorem effSafClear_of_not_safe {s : State} (c : HostCmd) (h : s.mode ≠ .safe) :
    (effSafClear s c).1.saf = s.saf.faultCleared (u8 c.params 0) ∧ (effSafClear s c).1.mode = s.mode := by
  unfold effSafClear Safety.faultCleared
  split <;> simp [h]

theorem effSafClear_fault (s : State) (c : HostCmd) :
    (effSafClear s c).1.saf.chipFault = (s.saf.faultCleared (u8 c.params 0)).chipFault
      ∧ (effSafClear s c).1.saf.yielded = (s.saf.faultCleared (u8 c.params 0)).yielded := by
  by_cases hs : s.mode = .safe
  · rw [(effSafClear_of_safe c hs).1]
    exact ⟨rfl, rfl⟩
  · rw [(effSafClear_of_not_safe c hs).1]
    exact ⟨rfl, rfl⟩

/-! SM4: the toggle gate. -/

theorem execToggleGateRefresh_refreshed (t : Nat) {s : State} (h : coresRun s = true) :
    exec (.toggleGateRefresh t) s
      = .next (onSaf (fun k => { k with gateAt := some (max s.clock.clk t) }) (advance t s)) :=
  congrArg _ (if_pos h)

theorem execGateExpired_danger {t a : Nat} {s : State} (hat : s.saf.gateAt = some a) (hopen : s.saf.gateOpen = true)
    (hruns : safetyRuns s = true) (hdue : a + 2000000 ≤ max s.clock.clk t) :
    exec (.gateExpired t) s = .next (danger 4 0xB014 11 [w32 ((max s.clock.clk t - a) / 1000)]
      (setSafePins .high (onSaf (fun k => { k with gateOpen := false }) (advance t s)))) := by
  have hruns' : safetyRuns (advance t s) = true := hruns
  refine congrArg Host.Outcome.next ?_
  simp [hat, hopen, hruns', hdue]

/-! SM5: the read-back of the SAFE pins. -/

/-- The disagreements in a row after a read-back sample of a pin (R494). -/
def disagreements (pin : Nat) (driven sensed : Bool) (s : State) : Nat :=
  if driven = sensed then 0 else s.saf.disagree.getD pin 0 + 1

theorem readPin_of_ne_three {pin : Nat} {driven sensed : Bool} {s : State} (h : disagreements pin driven sensed s ≠ 3) :
    readPin pin driven sensed s
      = onSaf (fun k => { k with disagree := k.disagree.set pin (disagreements pin driven sensed s % 3) }) s :=
  if_neg h

theorem readPin_of_three {pin : Nat} {driven sensed : Bool} {s : State} (h : disagreements pin driven sensed s = 3) :
    readPin pin driven sensed s = danger 5 0xB012 11 [pack8 pin (bit driven) (bit sensed) 0]
      (onSaf (fun k => { k with disagree := k.disagree.set pin 0 }) s) := by
  have hread : readPin pin driven sensed s = danger 5 0xB012 11 [pack8 pin (bit driven) (bit sensed) 0]
      (onSaf (fun k => { k with disagree := k.disagree.set pin (disagreements pin driven sensed s % 3) }) s) := if_pos h
  rw [hread, h]

@[simp] theorem disagreements_self (pin : Nat) (l : Bool) (s : State) : disagreements pin l l s = 0 := if_pos rfl

theorem disagreements_of_ne {driven sensed : Bool} (pin : Nat) (s : State) (h : driven ≠ sensed) :
    disagreements pin driven sensed s = s.saf.disagree.getD pin 0 + 1 := if_neg h

theorem readPin_reacted {pin : Nat} {driven sensed : Bool} {s : State} (h : disagreements pin driven sensed s = 3)
    (hb : s.mode ≠ .boot) (hr : s.mode ≠ .retain) : Reacted 5 (readPin pin driven sensed s) := by
  rw [readPin_of_three h]
  exact reacted_of_danger 5 _ _ _ hb hr

theorem Reacted.readPin {s : State} (h : Reacted 5 s) (pin : Nat) (driven sensed : Bool) :
    Reacted 5 (readPin pin driven sensed s) := by
  by_cases h3 : disagreements pin driven sensed s = 3
  · exact readPin_reacted h3 (by simp [h.mode]) (by simp [h.mode])
  · rw [readPin_of_ne_three h3]
    exact ⟨h.react, h.pins, h.mode⟩

theorem readPin_mode {s : State} (pin : Nat) (driven sensed : Bool) (hb : s.mode ≠ .boot) (hr : s.mode ≠ .retain) :
    (readPin pin driven sensed s).mode ≠ .boot ∧ (readPin pin driven sensed s).mode ≠ .retain := by
  by_cases h3 : disagreements pin driven sensed s = 3
  · simp [(readPin_reacted h3 hb hr).mode]
  · rw [readPin_of_ne_three h3]
    exact ⟨hb, hr⟩

theorem readPin_disagreements_other {pin j : Nat} (hj : pin ≠ j) (driven sensed d x : Bool) (s : State) :
    disagreements j d x (readPin pin driven sensed s) = disagreements j d x s := by
  have hset (n : Nat) : (s.saf.disagree.set pin n).getD j 0 = s.saf.disagree.getD j 0 := by
    simp [List.getD_eq_getElem?_getD, List.getElem?_set_ne hj]
  by_cases h3 : disagreements pin driven sensed s = 3
  · simp only [readPin_of_three h3, disagreements, danger_saf, Safety.afterReaction, onSaf_saf, hset]
  · simp only [readPin_of_ne_three h3, disagreements, onSaf_saf, hset]

theorem execSafePinReadback_read (t : Nat) (phase a b : Bool) {s : State} (h : coresRun s = true) :
    exec (.safePinReadback t phase a b) s
      = .next (readPin 1 (drivenLevel s phase 1) b (readPin 0 (drivenLevel s phase 0) a (advance t s))) :=
  congrArg _ (if_pos h)

/-- The third disagreement in a row of either pin is a dangerous failure (R494). -/
theorem execSafePinReadback_reacted (t : Nat) (phase a b : Bool) {s : State} (hruns : coresRun s = true)
    (hthird : (drivenLevel s phase 0 ≠ a ∧ s.saf.disagree.getD 0 0 = 2) ∨
      (drivenLevel s phase 1 ≠ b ∧ s.saf.disagree.getD 1 0 = 2)) (hb : s.mode ≠ .boot) (hr : s.mode ≠ .retain) :
    ∃ u, exec (.safePinReadback t phase a b) s = .next u ∧ Reacted 5 u := by
  refine ⟨_, execSafePinReadback_read t phase a b hruns, ?_⟩
  obtain ⟨hne, htwo⟩ | ⟨hne, htwo⟩ := hthird
  · have h3 : disagreements 0 (drivenLevel s phase 0) a (advance t s) = 3 := by
      rw [disagreements_of_ne 0 _ hne, advance_saf, htwo]
    exact (readPin_reacted h3 hb hr).readPin _ _ _
  · have h3 : disagreements 1 (drivenLevel s phase 1) b (readPin 0 (drivenLevel s phase 0) a (advance t s)) = 3 := by
      rw [readPin_disagreements_other (by decide), disagreements_of_ne 1 _ hne, advance_saf, htwo]
    obtain ⟨hb', hr'⟩ := readPin_mode 0 (drivenLevel s phase 0) a (s := advance t s) hb hr
    exact readPin_reacted h3 hb' hr'

/-- A read-back in which pin 0 is short of its third disagreement and pin 1 agrees only counts (R494). -/
theorem execSafePinReadback_counted (t : Nat) (phase a b : Bool) {s : State} (hruns : coresRun s = true)
    (hlen : s.saf.disagree.length = 2) (h0 : disagreements 0 (drivenLevel s phase 0) a s < 3)
    (h1 : drivenLevel s phase 1 = b) :
    ∃ u, exec (.safePinReadback t phase a b) s = .next u
      ∧ u.saf.disagree = [disagreements 0 (drivenLevel s phase 0) a s, 0] ∧ u.saf.pins = s.saf.pins ∧ u.mode = s.mode := by
  refine ⟨_, execSafePinReadback_read t phase a b hruns, ?_⟩
  have hfirst : disagreements 0 (drivenLevel s phase 0) a (advance t s)
      = disagreements 0 (drivenLevel s phase 0) a s := rfl
  rw [h1, readPin_of_ne_three (pin := 1) (by simp), readPin_of_ne_three (by omega), hfirst, Nat.mod_eq_of_lt h0]
  match hxy : s.saf.disagree, hlen with
  | [_, _], _ => simp [hxy]

/-! SM2 and SM3: the lockstep pair and its self-test. -/

theorem execLockstepFail_danger (t n : Nat) {s : State} (h : coresRun s = true) :
    exec (.lockstepFail t n) s = .next (danger 2 0xB010 11 [pack16 n 0]
      (escCount 6 (onSaf (fun k => { k with lockstep := true, held := true }) (advance t s)))) :=
  congrArg _ (if_pos h)

theorem selfTest_of_passed {f x : Bool} (s : State) (h : (f && !x) = true) :
    selfTest f x s = onSaf (fun k => { k with passes := k.passes + 1, testFailed := false }) (escCount 7 s) :=
  if_pos h

theorem selfTest_of_failed {f x : Bool} (s : State) (h : (f && !x) = false) :
    selfTest f x s = danger 3 0xB011 11 [pack8 (bit f) 0 0 0]
      (onSaf (fun k => { k with selftest := true, testFailed := true }) (escCount 7 s)) :=
  if_neg (by simp [h])

theorem execComparatorSelfTest_tested (t : Nat) (f x : Bool) {s : State} (h : coresRun s = true) :
    exec (.comparatorSelfTest t f x) s = .next (selfTest f x (advance t s)) :=
  congrArg _ (if_pos h)

theorem execComparatorSelfTest_danger (t : Nat) {f x : Bool} {s : State} (hruns : coresRun s = true)
    (h : (f && !x) = false) : exec (.comparatorSelfTest t f x) s = .next (danger 3 0xB011 11 [pack8 (bit f) 0 0 0]
      (onSaf (fun k => { k with selftest := true, testFailed := true }) (escCount 7 (advance t s)))) := by
  rw [execComparatorSelfTest_tested t f x hruns, selfTest_of_failed _ h]

theorem execSafetyCoreReloadDone_tested (t : Nat) (f x : Bool) {s : State} (hruns : safetyRuns s = true)
    (hheld : s.saf.held = true) : exec (.safetyCoreReloadDone t f x) s
      = .next (selfTest f x (countReload 6 (onSaf (fun k => { k with held := false }) (advance t s)))) :=
  have h : safetyRuns s && s.saf.held := by simp [hruns, hheld]
  congrArg _ (if_pos h)

theorem execSafetyCoreReloadDone_danger (t : Nat) {f x : Bool} {s : State} (hruns : safetyRuns s = true)
    (hheld : s.saf.held = true) (h : (f && !x) = false) :
    exec (.safetyCoreReloadDone t f x) s = .next (danger 3 0xB011 11 [pack8 (bit f) 0 0 0]
      (onSaf (fun k => { k with selftest := true, testFailed := true })
        (escCount 7 (countReload 6 (onSaf (fun k => { k with held := false }) (advance t s)))))) := by
  rw [execSafetyCoreReloadDone_tested t f x hruns hheld, selfTest_of_failed _ h]

/-! SM8 and SM11: what becomes a chip fault. -/

theorem endLease_own (state : Nat) (s : State) :
    Moves [.mode, .aon, .pins, .start, .flash, .host, .evt, .pwr, .xpt, .cue, .red, .lane, .flow, .cmp, .aud, .out] s
      (endLease state s) := endLease_moves state (.refl _ s)

@[simp] theorem endLease_saf (state : Nat) (s : State) : (endLease state s).saf = s.saf :=
  (endLease_own state s).same .saf rfl

@[simp] theorem chipFault_saf (source : Nat) (s : State) : (chipFault source s).saf =
    { s.saf with chipFault := true, escCnt := bump s.saf.escCnt 4
                 yielded := s.saf.yielded || (s.saf.faultYield && s.red.lease) } := by
  unfold chipFault
  dsimp only
  split
  · rw [endLease_saf, raise_saf]
  · rw [raise_saf]

theorem execProcStall_fault (t : Nat) {p : Nat} {s : State} (hp : p ≤ 5) (hruns : coresRun s = true)
    (hnew : s.saf.stalled.contains p = false) :
    ∃ x, x.saf = { s.saf with
        stalled := s.saf.stalled ++ [p], chipFault := true, escCnt := bump s.saf.escCnt 4
        yielded := s.saf.yielded || (s.saf.faultYield && s.red.lease) } ∧
      exec (.procStall t p) s = .next (if s.saf.stallAction then takeT1Start 6 x else x) := by
  have hgo : ¬ (!coresRun s || s.saf.stalled.contains p) = true := by rw [hruns, hnew]; decide
  refine ⟨chipFault 0xB020 (raise 4 11 0xB020 0 [pack8 p 0 0 0]
    (onSaf (fun k => { k with stalled := k.stalled ++ [p] }) (advance t s))), by simp, ?_⟩
  exact (if_neg (Nat.not_lt.mpr hp)).trans (congrArg Host.Outcome.next ((if_neg hgo).trans (by simp)))

theorem execOverTemp_hot (t : Nat) {n d : Nat} {s : State} (hn : n ≤ 4) (hruns : coresRun s = true) (hd : 110 < d)
    (hnew : s.saf.overTemp.contains n = false) :
    exec (.overTemp t n d) s = .next (chipFault 0xB050 (raise 4 11 0xB050 0 [pack8_16 n 1 d]
      (onSaf (fun k => { k with overTemp := k.overTemp ++ [n] }) (advance t s)))) := by
  have hgo : ¬ (!coresRun s) = true := by rw [hruns]; decide
  have hhot : (decide (110 < d) && !s.saf.overTemp.contains n) = true := by rw [hnew, decide_eq_true hd]; rfl
  exact (if_neg (Nat.not_lt.mpr hn)).trans (congrArg Host.Outcome.next ((if_neg hgo).trans (if_pos hhot)))

/-- A sensor that has cooled is taken off; the record follows with the last one (R498). -/
theorem execOverTemp_cool (t : Nat) {n d : Nat} {s : State} (hn : n ≤ 4) (hruns : coresRun s = true) (hd : d < 105)
    (hold : s.saf.overTemp.contains n = true) :
    ∃ u, exec (.overTemp t n d) s = .next u
      ∧ u.saf = { s.saf with overTemp := s.saf.overTemp.filter (fun x => x != n) } := by
  have hgo : ¬ (!coresRun s) = true := by rw [hruns]; decide
  have hhot : ¬ (decide (110 < d) && !s.saf.overTemp.contains n) = true := by rw [hold]; simp
  have hcool : (decide (d < 105) && s.saf.overTemp.contains n) = true := by rw [hold, decide_eq_true hd]; rfl
  refine ⟨_, (if_neg (Nat.not_lt.mpr hn)).trans (congrArg Host.Outcome.next
    ((if_neg hgo).trans ((if_neg hhot).trans (if_pos hcool)))), ?_⟩
  dsimp only
  split
  · rw [raise_saf]; rfl
  · rfl

/-! SM6 and SM7: the clocks. -/

theorem execIslandClockLost_danger (t : Nat) {s : State} (hm : clockMeasured s 258 = true)
    (hnew : s.saf.clocksLost.contains 258 = false) (hruns : safetyRuns s = true) :
    exec (.islandClockLost t 258) s = .next (danger 7 0xC031 12 [pack16 258 0]
      (onSaf (fun k => { k with clocksLost := k.clocksLost ++ [258] }) (advance t s))) := by
  have hgo : ¬ (!clockMeasured s 258 || s.saf.clocksLost.contains 258) = true := by rw [hm, hnew]; decide
  exact congrArg Host.Outcome.next ((if_neg hgo).trans (if_pos hruns))

theorem execIslandClockLost_fault (t : Nat) {i : Nat} {s : State} (hi : i ≤ 261) (hm : clockMeasured s i = true)
    (hnew : s.saf.clocksLost.contains i = false) (hne : i ≠ 258) (hruns : coresRun s = true) :
    exec (.islandClockLost t i) s = .next (chipFault 0xC031 (raise 4 12 0xC031 0 [pack16 i 0]
      (onSaf (fun k => { k with clocksLost := k.clocksLost ++ [i] }) (advance t s)))) := by
  have hgo : ¬ (!clockMeasured s i || s.saf.clocksLost.contains i) = true := by rw [hm, hnew]; decide
  have hruns' (ws : List Word) : coresRun (raise 4 12 0xC031 0 ws
      (onSaf (fun k => { k with clocksLost := k.clocksLost ++ [i] }) (advance t s))) = true := by
    simpa [coresRun, safetyRuns] using hruns
  exact (if_neg (Nat.not_lt.mpr hi)).trans (congrArg Host.Outcome.next
    ((if_neg hgo).trans ((if_neg hne).trans (if_pos (hruns' _)))))

theorem execIslandClockRestored_island (t : Nat) {i : Nat} {s : State} (hi : i ≤ 260)
    (hlost : s.saf.clocksLost.contains i = true) :
    exec (.islandClockRestored t i) s = .next (onSaf (fun k => { k with
      clocksLost := k.clocksLost.filter (fun x => x != i)
      clocksOkSince := if i = 258 then max s.clock.clk t else k.clocksOkSince }) (advance t s)) := by
  have hne : i ≠ 261 := by omega
  exact (if_neg (by omega : ¬ 261 < i)).trans (congrArg Host.Outcome.next ((if_neg hne).trans (if_pos hlost)))

theorem execIslandClockRestored_supervisor (t : Nat) {s : State} (hlost : s.saf.supervisorLost = true) :
    exec (.islandClockRestored t 261) s = .next (onSaf (fun k => { k with
      supervisorLost := false, clocksOkSince := max s.clock.clk t }) (advance t s)) :=
  congrArg Host.Outcome.next (if_pos hlost)

theorem execSupervisorClock_danger (t : Nat) {f : Nat} {s : State} (hruns : coresRun s = true)
    (hnew : s.saf.supervisorLost = false) (hf : f < 90000 ∨ 110000 < f) :
    exec (.supervisorClock t f) s = .next (danger 6 0xB013 11 [w32 f]
      (onSaf (fun k => { k with supervisorLost := true }) (advance t s))) := by
  have hgo : (coresRun s && !s.saf.supervisorLost && (decide (f < 90000) || decide (110000 < f))) = true := by
    simp [hruns, hnew, hf]
  exact congrArg Host.Outcome.next (if_pos hgo)

end Sys2Proof.Machine

section
open Sys2Proof Sys2Proof.Machine

/-- Settles O49, one case per row: what a mechanism notes stands through its reaction (`reacted_of_eq_danger`) or its chip
fault (`chipFault_saf`), because no transition writes in the safety monitor. Logs 101 to 103 stand behind the read-back,
the sensors and SAF_CLEAR. -/
theorem safetyMonitorReactsAndClears : Obligations.SafetyMonitorReactsAndClears := by
  refine ⟨fun t c s h => ?status, fun t c s h => ?clear, fun t c s h => ?config, fun t s h => ?refresh,
    fun t a s hat hopen hruns hdue hb hr => ?gate,
    fun t p a b s hruns hlen => ⟨fun ha hb => ?agree, fun ha hb hd => ?count, fun h hb hr => ?third⟩,
    fun t n s hruns hb hr => ?lockstep,
    fun t f x s hruns => ⟨fun h => ?pass, fun h hb hr => ?fail⟩,
    fun t f x s hruns hheld => ⟨fun h => ?reloadPass, fun h hb hr => ?reloadFail⟩,
    fun t p s hp hruns hnew => ⟨fun h => ?stall, fun h => ?restart⟩,
    fun t n d s hn hruns => ⟨fun hd hnew => ?hot, fun hd hold => ?cool⟩,
    fun t i s hi hm hnew => ⟨fun hne hruns => ?clockFault, fun h258 hruns hb hr => ?clockDanger⟩,
    fun t i s hi hlost => ?restored, fun t s hlost => ?supervisorBack,
    fun t f s hruns hnew hf hb hr => ?supervisorLost⟩
  case status => exact execSafStatus_answered h
  case clear =>
    obtain ⟨hfault, hyielded⟩ := effSafClear_fault (begun .safClear t c s) c
    refine ⟨_, execSafClear_answered h, fun h1 => ?_, fun h0 => ?_, fun hs => ?_, fun hs => ?_⟩
    all_goals rw [answered_saf]
    · rw [hfault, hyielded, h1]
      exact ⟨rfl, rfl⟩
    · rw [hfault, h0]
      rfl
    · obtain ⟨hsaf, hmode⟩ := effSafClear_of_safe (s := begun .safClear t c s) c hs
      rw [hsaf, answered_mode]
      exact ⟨rfl, rfl, rfl, rfl, hmode⟩
    · obtain ⟨hsaf, hmode⟩ := effSafClear_of_not_safe (s := begun .safClear t c s) c hs
      rw [hsaf, answered_mode, hmode, Safety.faultCleared_react, Safety.faultCleared_pins]
      exact ⟨rfl, rfl, rfl⟩
  case config =>
    refine ⟨_, execSafConfig_answered h, ?_⟩
    simp [writeSafCfg]
  case refresh => exact ⟨_, execToggleGateRefresh_refreshed t h, rfl, rfl⟩
  case gate =>
    obtain ⟨u, hu, ⟨hreact, hpins, hmode⟩, hsaf⟩ :=
      reacted_of_eq_danger (execGateExpired_danger hat hopen hruns hdue) (by simpa) (by simpa)
    exact ⟨u, hu, by rw [hsaf, setSafePins_saf]; rfl, hreact, hpins, hmode⟩
  case agree =>
    obtain ⟨u, hu, hcount, hpins, hmode⟩ := execSafePinReadback_counted t p a b hruns hlen (by simp [ha]) hb
    exact ⟨u, hu, by simpa [ha] using hcount, hpins, hmode⟩
  case count =>
    rw [← disagreements_of_ne 0 s ha]
    refine execSafePinReadback_counted t p a b hruns hlen ?_ hb
    rw [disagreements_of_ne 0 s ha]
    omega
  case third =>
    obtain ⟨u, hu, hreacted⟩ := execSafePinReadback_reacted t p a b hruns h hb hr
    exact ⟨u, hu, hreacted.react, hreacted.pins, hreacted.mode⟩
  case lockstep =>
    obtain ⟨u, hu, ⟨hreact, hpins, hmode⟩, hsaf⟩ :=
      reacted_of_eq_danger (execLockstepFail_danger t n hruns) hb hr
    have hcount : tget 0#32 u.saf.escCnt 6 = tget 0#32 s.saf.escCnt 6 + 1#32 := by
      rw [hsaf, Safety.afterReaction_escCnt 2 _ (by decide)]
      exact bump_same ..
    exact ⟨u, hu, by rw [hsaf]; rfl, by rw [hsaf]; rfl, hreact, hcount, hpins, hmode⟩
  case pass =>
    refine ⟨_, execComparatorSelfTest_tested t f x hruns, ?_⟩
    rw [selfTest_of_passed _ h]
    exact ⟨rfl, rfl, rfl, rfl⟩
  case fail =>
    obtain ⟨u, hu, ⟨hreact, hpins, hmode⟩, hsaf⟩ :=
      reacted_of_eq_danger (execComparatorSelfTest_danger t hruns h) hb hr
    exact ⟨u, hu, by rw [hsaf]; rfl, by rw [hsaf]; rfl, by rw [hsaf]; rfl, hreact, hpins, hmode⟩
  case reloadPass =>
    refine ⟨_, execSafetyCoreReloadDone_tested t f x hruns hheld, ?_⟩
    rw [selfTest_of_passed _ h]
    exact ⟨rfl, rfl, tget_tset_same ..⟩
  case reloadFail =>
    obtain ⟨u, hu, ⟨-, hpins, hmode⟩, hsaf⟩ :=
      reacted_of_eq_danger (execSafetyCoreReloadDone_danger t hruns hheld h) hb hr
    exact ⟨u, hu, by rw [hsaf]; rfl, by rw [hsaf]; rfl, hpins, hmode⟩
  case stall =>
    obtain ⟨x, hsaf, hx⟩ := execProcStall_fault t hp hruns hnew
    rw [h] at hx
    exact ⟨x, hx, by rw [hsaf], by rw [hsaf], by rw [hsaf]; exact bump_same ..⟩
  case restart =>
    obtain ⟨x, -, hx⟩ := execProcStall_fault t hp hruns hnew
    rw [h] at hx
    exact ⟨_, hx, takeT1Start_mode 6 x⟩
  case hot => exact ⟨_, execOverTemp_hot t hn hruns hd hnew, by simp, by simp⟩
  case cool =>
    obtain ⟨u, hu, hsaf⟩ := execOverTemp_cool t hn hruns hd hold
    exact ⟨u, hu, by rw [hsaf], by rw [hsaf]⟩
  case clockFault => exact ⟨_, execIslandClockLost_fault t hi hm hnew hne hruns, by simp, by simp⟩
  case clockDanger =>
    subst h258
    obtain ⟨u, hu, ⟨hreact, hpins, hmode⟩, hsaf⟩ :=
      reacted_of_eq_danger (execIslandClockLost_danger t hm hnew hruns) hb hr
    exact ⟨u, hu, by rw [hsaf]; rfl, hreact, hpins, hmode⟩
  case restored => exact ⟨_, execIslandClockRestored_island t hi hlost, rfl, fun h => if_pos h⟩
  case supervisorBack => exact ⟨_, execIslandClockRestored_supervisor t hlost, rfl, rfl⟩
  case supervisorLost =>
    obtain ⟨u, hu, ⟨hreact, hpins, hmode⟩, hsaf⟩ :=
      reacted_of_eq_danger (execSupervisorClock_danger t hruns hnew hf) hb hr
    exact ⟨u, hu, by rw [hsaf]; rfl, hreact, hpins, hmode⟩

end

end

section
/-! PROOFS. The general commands of Table 3.7 that name no register (O17). -/

-- The package is checked as one text; elaborating these proofs in order keeps the number of threads small.
set_option Elab.async false

namespace Sys2Proof.Machine

/-! MODE_SET and RESET. -/

theorem execModeSet_maintenance {t : Nat} {c : HostCmd} {s : State} (h : accepted .modeSet refuseModeSet t c s = true)
    (h6 : u8 c.params 0 = 6) : exec (.modeSet t c) s
      = .next (answered .modeSet c .ok [] (transition 14 .maintenance 0 (begun .modeSet t c s))) :=
  congrArg _ (runCommand_answered h (if_pos h6))

theorem execModeSet_calibrate {t : Nat} {c : HostCmd} {s : State} (h : accepted .modeSet refuseModeSet t c s = true)
    (h1 : u8 c.params 0 = 1) : exec (.modeSet t c) s
      = .next (answered .modeSet c .ok [] (reenterCalibrate 15 (begun .modeSet t c s))) :=
  have h6 : u8 c.params 0 ≠ 6 := by omega
  congrArg _ (runCommand_answered h (if_neg h6))

theorem execReset_answered {t : Nat} {c : HostCmd} {s : State} (h : accepted .reset refuseReset t c s = true) :
    exec (.reset t c) s = .next (answered .reset c .ok []
      (onHost (fun k => { k with resetAt := some (max s.clock.clk t) }) (begun .reset t c s))) :=
  congrArg _ (runCommand_answered h rfl)

theorem execResetDelayExpired_due {t a : Nat} {s : State} (hat : s.host.resetAt = some a)
    (hdue : a + 10000000 ≤ max s.clock.clk t) :
    exec (.resetDelayExpired t) s = .next (takeT1Start 0 (advance t s)) := by
  refine congrArg Host.Outcome.next ?_
  simp [hat, hdue]

/-! LOCK_CONFIG and ADDR_SET. -/

/-- LOCK_CONFIG locks; only the first one is recorded (Table 3.7, R8). -/
theorem effLockConfig_locks (c : HostCmd) (s : State) :
    (effLockConfig s c).1.host.locked = true ∧ (effLockConfig s c).1.aon = s.aon
      ∧ (s.host.locked = true → (effLockConfig s c).1.evt = s.evt) := by
  unfold effLockConfig
  split
  · rename_i h
    exact ⟨h, rfl, fun _ => rfl⟩
  · rename_i h
    exact ⟨by simp, by simp, fun hl => absurd hl h⟩

theorem execLockConfig_answered {t : Nat} {c : HostCmd} {s : State}
    (h : accepted .lockConfig refuseLockConfig t c s = true) :
    exec (.lockConfig t c) s = .next (answered .lockConfig c .ok [] (effLockConfig (begun .lockConfig t c s) c).1) :=
  congrArg _ (runCommand_answered h (by unfold effLockConfig; split <;> rfl))

theorem runCommand_deferred {op : Op} {own : Refuse} {eff : Effect} {t : Nat} {c : HostCmd} {s x : State}
    (h : accepted op own t c s = true) (he : eff (begun op t c s) c = (x, none)) :
    runCommand op own eff t c s = deferred op c x := by
  rw [runCommand_of_accepted eff h, acceptWith, he, deferred]

/-- The address is set after the reply has left (R90). -/
theorem execAddrSet_set {t : Nat} {c : HostCmd} {s : State} (h : accepted .addrSet refuseAddrSet t c s = true) :
    ∃ u, exec (.addrSet t c) s = .next u ∧ u.aon = { s.aon with frameId := u8 c.params 8 } ∧ u.start = s.start :=
  ⟨_, congrArg Host.Outcome.next (runCommand_deferred (eff := effAddrSet) h rfl), by simp, by simp⟩

theorem u8_lt (ps : List Byte) (o : Nat) : u8 ps o < 256 := (ps.getD o 0#8).isLt

/-! The session keys. -/

theorem forgetSession_own (id : Nat) (s : State) : Moves [.host] s (forgetSession id s) :=
  forgetSession_moves id (.refl _ s)

@[simp] theorem forgetSession_aon (id : Nat) (s : State) : (forgetSession id s).aon = s.aon :=
  (forgetSession_own id s).same .aon rfl

theorem eraseSession_aon (sender : Nat) (x : Session) (s : State) : (eraseSession sender x s).aon =
    { s.aon with sessions := s.aon.sessions.filter (fun p => p.2.id != x.id) } := by
  simp [eraseSession]

theorem foldl_eraseSession_aon (sender : Nat) (l : List Session) (s : State) :
    (l.foldl (fun s x => eraseSession sender x s) s).aon =
      { s.aon with sessions := s.aon.sessions.filter (fun p => l.all (fun x => p.2.id != x.id)) } := by
  induction l generalizing s with
  | nil =>
    have hkept : s.aon.sessions.filter (fun _ => true) = s.aon.sessions := List.filter_eq_self.mpr fun _ _ => rfl
    simp only [List.foldl_nil, List.all_nil, hkept]
  | cons x l ih =>
    simp only [List.foldl_cons, List.all_cons, ih, eraseSession_aon, List.filter_filter, Bool.and_comm]

/-- A held session survives the erasure of the sessions of an ID where its own ID is another. -/
theorem all_ne_eq_of_held {m : Table Session} {p : Nat × Session} (hp : p ∈ m) (id : Nat) :
    ((m.map (·.2)).filter (fun x => x.id == id)).all (fun x => p.2.id != x.id) = (p.2.id != id) := by
  rw [Bool.eq_iff_iff, List.all_eq_true, bne_iff_ne]
  constructor
  · intro hall hid
    have hmem : p.2 ∈ (m.map (·.2)).filter (fun x => x.id == id) :=
      List.mem_filter.mpr ⟨List.mem_map_of_mem hp, beq_iff_eq.mpr hid⟩
    exact bne_iff_ne.mp (hall p.2 hmem) rfl
  · intro hid x hx
    have hx' : x.id = id := beq_iff_eq.mp (List.mem_filter.mp hx).2
    rw [hx', bne_iff_ne]
    exact hid

/-- SESSION_KEY_ERASE of one ID takes its session out of the table, and nothing else of the always-on domain changes. -/
theorem effKeyErase_aon {s : State} {c : HostCmd} (h : u16 c.params 0 ≠ 0) : (effKeyErase s c).1.aon =
    { s.aon with sessions := s.aon.sessions.filter (fun p => p.2.id != u16 c.params 0) } := by
  have hgone : (fun x : Session => if u16 c.params 0 = 0 then mayErase c.role x.role else x.id == u16 c.params 0)
      = fun x => x.id == u16 c.params 0 := funext fun _ => if_neg h
  rw [effKeyErase, hgone, foldl_eraseSession_aon, List.filter_congr fun p hp => all_ne_eq_of_held hp _]

theorem execSessionKeyErase_answered {t : Nat} {c : HostCmd} {s : State}
    (h : accepted .sessionKeyErase refuseKeyErase t c s = true) : exec (.sessionKeyErase t c) s
      = .next (answered .sessionKeyErase c .ok [] (effKeyErase (begun .sessionKeyErase t c s) c).1) :=
  congrArg _ (runCommand_answered h rfl)

/-- SESSION_KEY_LOAD puts the session into the slot of its ID, or else into the lowest free one (log 22). -/
theorem execSessionKeyLoad_stored {t n : Nat} {r : Role} {k : List Byte} {c : HostCmd} {s : State}
    (h : accepted .sessionKeyLoad refuseKeyLoad t c s = true) (hr : roleOfCode (u8 c.params 2) = some r)
    (hk : loadKey c = some k) (hn : (slotOf s (u16 c.params 0)).orElse (fun _ => freeSlot s) = some n) :
    ∃ u, exec (.sessionKeyLoad t c) s = .next u
      ∧ u.aon = { s.aon with sessions := tset s.aon.sessions n ⟨u16 c.params 0, r, k, 0⟩ } := by
  have hn' : (slotOf (begun .sessionKeyLoad t c s) (u16 c.params 0)).orElse
      (fun _ => freeSlot (begun .sessionKeyLoad t c s)) = some n := hn
  refine ⟨_, congrArg Host.Outcome.next (runCommand_answered h (by simp only [effKeyLoad, hr, hk, hn']; rfl)), ?_⟩
  simp

end Sys2Proof.Machine

section
open Sys2Proof Sys2Proof.Machine

/-- Settles O17, one case per row; T1 follows the reply to RESET in a row of its own (log 11). Which slot a session takes,
and that SESSION_INFO lists slot by slot, is log 22; that ADDR_SET replies before it sets the address is log 26. -/
theorem generalCommandsTakeEffect : Obligations.GeneralCommandsTakeEffect := by
  refine ⟨fun t c s h => ?identify, fun t c s h => ?status, fun t c s h => ?echo, fun t c s h => ?sessionInfo,
    fun t c s h h6 => ?maintenance, fun t c s h h1 => ?calibrate, fun t c s h => ?reset, fun t a s hat hdue => ?t1,
    fun t c s h => ?lock, fun t c s h => ?addr, fun t n r k c s h hr hk hn => ?load, fun t c s h hid => ?erase⟩
  case identify => exact congrArg _ (runCommand_answered h rfl)
  case status => exact congrArg _ (runCommand_answered h rfl)
  case echo => exact congrArg _ (runCommand_answered h rfl)
  case sessionInfo => exact congrArg _ (runCommand_answered h rfl)
  case maintenance => exact ⟨_, execModeSet_maintenance h h6, by simp, by simp, by simp, by simp [Mode.ready]⟩
  case calibrate =>
    refine ⟨_, execModeSet_calibrate h h1, ?_⟩
    rw [answered_mode]
    exact reenterCalibrate_mode ..
  case reset => exact ⟨_, execReset_answered h, by simp, by simp⟩
  case t1 =>
    obtain ⟨b, haon⟩ := takeT1Start_aon 0 (advance t s)
    exact ⟨_, execResetDelayExpired_due hat hdue, by simp, by rw [haon], by simp, by simp, by simp, by rw [haon]; rfl⟩
  case lock =>
    obtain ⟨hlocked, haon, hevt⟩ := effLockConfig_locks c (begun .lockConfig t c s)
    exact ⟨_, execLockConfig_answered h, by simpa using hlocked, by simpa using haon, by simpa using hevt⟩
  case addr =>
    obtain ⟨u, hu, haon, hstart⟩ := execAddrSet_set h
    exact ⟨u, hu, haon, by rw [sysAddr, haon, hstart, Nat.mod_eq_of_lt (u8_lt ..)]⟩
  case load => exact execSessionKeyLoad_stored h hr hk hn
  case erase =>
    refine ⟨_, execSessionKeyErase_answered h, ?_⟩
    rw [answered_aon, effKeyErase_aon hid]
    rfl

end

end

section
/-! PROOFS. What every command leaves as it was, and the rollback floor (O6, O9). -/

-- The package is checked as one text; elaborating these proofs in order keeps the number of threads small.
set_option Elab.async false

namespace Sys2Proof.Machine

/-- Every row of the table moves only its parts: each meaning has a law of its own under Laws/. -/
theorem exec_movesOut (i : Instr) (s : State) : MovesOut (instrParts i) s (exec i s) := by
  have hs {l : List Part} : Moves l s s := .refl l s
  cases i with
  | vddAonUp => exact execVddAonUp_moves _ _ _ hs
  | vddAonLost => exact execVddAonLost_moves _ hs
  | pgInputAsserted => exact execPgInputAsserted_moves _ _ hs
  | sequenceStepDelayExpired => exact execSequenceStepDelayExpired_moves _ hs
  | pgTimeout => exact execPgTimeout_moves _ hs
  | fixedDelayEnable => exact execFixedDelayEnable_moves _ hs
  | pgInputLow => exact execPgInputLow_moves _ _ hs
  | powerFault => exact execPowerFault_moves _ _ hs
  | powerFaultRestart => exact execPowerFaultRestart_moves _ hs
  | rstNLow => exact execRstNLow_moves _ hs
  | rstNRelease => exact execRstNRelease_moves _ _ hs
  | pairRoleTest => exact execPairRoleTest_moves _ _ _ hs
  | pllLocked => exact execPllLocked_moves _ _ hs
  | clkWaitRetry => exact execClkWaitRetry_moves _ hs
  | imageSelection => exact execImageSelection_moves _ _ hs
  | processorAlive => exact execProcessorAlive_moves _ _ hs
  | aliveTimeout => exact execAliveTimeout_moves _ _ hs
  | laneWaitExpired => exact execLaneWaitExpired_moves _ hs
  | hbmTrainingDone => exact execHbmTrainingDone_moves _ _ hs
  | memoryInitDone => exact execMemoryInitDone_moves _ _ hs
  | modeHalWaitExpired => exact execModeHalWaitExpired_moves _ hs
  | trialConfirmTimer => exact execTrialConfirmTimer_moves _ hs
  | commandDatagram => exact execCommandDatagram_moves _ _ hs
  | reassemblyTimeout => exact execReassemblyTimeout_moves _ _ hs
  | identify => exact execIdentify_moves _ _ hs
  | status => exact execStatus_moves _ _ hs
  | modeSet => exact execModeSet_moves _ _ hs
  | reset => exact execReset_moves _ _ hs
  | resetDelayExpired => exact execResetDelayExpired_moves _ hs
  | regRead => exact execRegRead_moves _ _ hs
  | regWrite => exact execRegWrite_moves _ _ hs
  | regRmw => exact execRegRmw_moves _ _ hs
  | regReadBlock => exact execRegReadBlock_moves _ _ hs
  | regWriteBlock => exact execRegWriteBlock_moves _ _ hs
  | registerWrite => exact execRegisterWrite_moves _ _ _ hs
  | lockConfig => exact execLockConfig_moves _ _ hs
  | addrSet => exact execAddrSet_moves _ _ hs
  | sessionKeyLoad => exact execSessionKeyLoad_moves _ _ hs
  | sessionKeyErase => exact execSessionKeyErase_moves _ _ hs
  | sessionInfo => exact execSessionInfo_moves _ _ hs
  | echo => exact execEcho_moves _ _ hs
  | imgInfo => exact execImgInfo_moves _ _ hs
  | imgWriteBegin => exact execImgWriteBegin_moves _ _ hs
  | slotEraseDone => exact execSlotEraseDone_moves _ _ hs
  | imgWrite => exact execImgWrite_moves _ _ hs
  | imageWriteTimeout => exact execImageWriteTimeout_moves _ hs
  | imgWriteEnd => exact execImgWriteEnd_moves _ _ hs
  | imgActivate => exact execImgActivate_moves _ _ hs
  | imgTrialAbort => exact execImgTrialAbort_moves _ _ hs
  | imgConfirm => exact execImgConfirm_moves _ _ hs
  | laneStatus => exact execLaneStatus_moves _ _ hs
  | laneConfig => exact execLaneConfig_moves _ _ hs
  | lanePrbs => exact execLanePrbs_moves _ _ hs
  | laneLoop => exact execLaneLoop_moves _ _ hs
  | laneErrInject => exact execLaneErrInject_moves _ _ hs
  | errorInjection => exact execErrorInjection_moves _ _ hs
  | laneCounters => exact execLaneCounters_moves _ _ hs
  | laneRxEnableWrite => exact execLaneRxEnableWrite_moves _ _ _ hs
  | ctleCodeWrite => exact execCtleCodeWrite_moves _ _ _ _ hs
  | laneTxEnableWrite => exact execLaneTxEnableWrite_moves _ _ _ hs
  | laneSignalLost => exact execLaneSignalLost_moves _ _ hs
  | laneSignalReturn => exact execLaneSignalReturn_moves _ _ hs
  | ctleSweepDone => exact execCtleSweepDone_moves _ _ _ hs
  | ctleTrack => exact execCtleTrack_moves _ _ _ _ _ hs
  | laneBlockReceived => exact execLaneBlockReceived_moves _ _ _ _ _ hs
  | blockLockGained => exact execBlockLockGained_moves _ _ hs
  | blockLockLost => exact execBlockLockLost_moves _ _ hs
  | berInterval => exact execBerInterval_moves _ _ _ hs
  | rxFifoOverflow => exact execRxFifoOverflow_moves _ _ hs
  | pennantReceived => exact execPennantReceived_moves _ _ _ hs
  | pennantLockGained => exact execPennantLockGained_moves _ _ hs
  | pennantLockLost => exact execPennantLockLost_moves _ _ hs
  | pennantTransmit => exact execPennantTransmit_moves _ _ hs
  | flowSrcDefine => exact execFlowSrcDefine_moves _ _ hs
  | flowDstDefine => exact execFlowDstDefine_moves _ _ hs
  | flowDelete => exact execFlowDelete_moves _ _ hs
  | flowGroupSet => exact execFlowGroupSet_moves _ _ hs
  | flowParkSet => exact execFlowParkSet_moves _ _ hs
  | flowQuery => exact execFlowQuery_moves _ _ hs
  | flowAdmitCheck => exact execFlowAdmitCheck_moves _ _ hs
  | flowSrcCfgWrite => exact execFlowSrcCfgWrite_moves _ _ _ hs
  | flowTpCfgWrite => exact execFlowTpCfgWrite_moves _ _ _ hs
  | sourceDeleteLands => exact execSourceDeleteLands_moves _ _ hs
  | destDeleteLands => exact execDestDeleteLands_moves _ _ hs
  | sourceRedefineLands => exact execSourceRedefineLands_moves _ _ hs
  | flowFrameStart => exact execFlowFrameStart_moves _ _ _ _ _ _ _ _ hs
  | flowParcel => exact execFlowParcel_moves _ _ _ _ _ _ _ _ hs
  | mergeWindowExpired => exact execMergeWindowExpired_moves _ _ _ hs
  | copyLost => exact execCopyLost_moves _ _ _ hs
  | readOutPoint => exact execReadOutPoint_moves _ _ _ hs
  | holdFramesReached => exact execHoldFramesReached_moves _ _ hs
  | switchingLine => exact execSwitchingLine_moves _ _ hs
  | destFrameStart => exact execDestFrameStart_moves _ _ hs
  | planeWordReceived => exact execPlaneWordReceived_moves _ _ _ _ _ _ hs
  | xptTake => exact execXptTake_moves _ _ hs
  | xptTakeBatch => exact execXptTakeBatch_moves _ _ hs
  | xptTakeAt => exact execXptTakeAt_moves _ _ hs
  | xptQueueCancel => exact execXptQueueCancel_moves _ _ hs
  | xptLock => exact execXptLock_moves _ _ hs
  | xptUnlock => exact execXptUnlock_moves _ _ hs
  | xptQuery => exact execXptQuery_moves _ _ hs
  | xptTpSet => exact execXptTpSet_moves _ _ hs
  | xptQueueStatus => exact execXptQueueStatus_moves _ _ hs
  | epochTick => exact execEpochTick_moves _ hs
  | cueLoad => exact execCueLoad_moves _ _ hs
  | cueRun => exact execCueRun_moves _ _ hs
  | cueAbort => exact execCueAbort_moves _ _ hs
  | cueStatus => exact execCueStatus_moves _ _ hs
  | cueUnload => exact execCueUnload_moves _ _ hs
  | cueGroupExecute => exact execCueGroupExecute_moves _ _ _ hs
  | cueEntriesRetry => exact execCueEntriesRetry_moves _ _ hs
  | cueStallExpired => exact execCueStallExpired_moves _ _ hs
  | waitFramesResume => exact execWaitFramesResume_moves _ _ hs
  | waitTimeResume => exact execWaitTimeResume_moves _ _ hs
  | cueTriggerStart => exact execCueTriggerStart_moves _ _ hs
  | cueMark => exact execCueMark_moves _ _ hs
  | fstZoneSet => exact execFstZoneSet_moves _ _ hs
  | fstObjWrite => exact execFstObjWrite_moves _ _ hs
  | fstObjRead => exact execFstObjRead_moves _ _ hs
  | fstObjFree => exact execFstObjFree_moves _ _ hs
  | fstBankStatus => exact execFstBankStatus_moves _ _ hs
  | fstInvalidClear => exact execFstInvalidClear_moves _ _ hs
  | fstRetainSet => exact execFstRetainSet_moves _ _ hs
  | objectLoadTimeout => exact execObjectLoadTimeout_moves _ _ hs
  | objectReferencerMove => exact execObjectReferencerMove_moves _ _ _ _ hs
  | bankReinit => exact execBankReinit_moves _ _ _ hs
  | scrubRead => exact execScrubRead_moves _ _ _ _ _ _ hs
  | confirmingRead => exact execConfirmingRead_moves _ _ _ _ _ _ _ hs
  | pcReadTimeout => exact execPcReadTimeout_moves _ _ hs
  | bankRefresh => exact execBankRefresh_moves _ _ _ hs
  | stackTemperatureChange => exact execStackTemperatureChange_moves _ _ _ hs
  | pageIdleExpired => exact execPageIdleExpired_moves _ _ _ hs
  | selfRefreshEntry => exact execSelfRefreshEntry_moves _ _ hs
  | writeDrain => exact execWriteDrain_moves _ _ _ hs
  | cmpConfig => exact execCmpConfig_moves _ _ hs
  | cmpLayerSet => exact execCmpLayerSet_moves _ _ hs
  | cmpCommit => exact execCmpCommit_moves _ _ hs
  | cmpLutLoad => exact execCmpLutLoad_moves _ _ hs
  | cmpSurfaceLoad => exact execCmpSurfaceLoad_moves _ _ hs
  | cmpDisable => exact execCmpDisable_moves _ _ hs
  | cmpQuery => exact execCmpQuery_moves _ _ hs
  | cmpConfigLands => exact execCmpConfigLands_moves _ _ hs
  | cmpDisableLands => exact execCmpDisableLands_moves _ _ hs
  | outputFrameStart => exact execOutputFrameStart_moves _ _ _ _ _ hs
  | lutCopyDone => exact execLutCopyDone_moves _ _ hs
  | cmpProtWrite => exact execCmpProtWrite_moves _ _ hs
  | cmpProtRectSet => exact execCmpProtRectSet_moves _ _ hs
  | cmpProtGoldenSet => exact execCmpProtGoldenSet_moves _ _ hs
  | cmpProtStatus => exact execCmpProtStatus_moves _ _ hs
  | cmpProtCfgWrite => exact execCmpProtCfgWrite_moves _ _ _ hs
  | signatureReport => exact execSignatureReport_moves _ _ _ _ _ _ _ hs
  | signatureReportMissing => exact execSignatureReportMissing_moves _ _ _ _ hs
  | audRoute => exact execAudRoute_moves _ _ hs
  | audRouteBatch => exact execAudRouteBatch_moves _ _ hs
  | audGain => exact execAudGain_moves _ _ hs
  | audFollow => exact execAudFollow_moves _ _ hs
  | audPortConfig => exact execAudPortConfig_moves _ _ hs
  | audStreamConfig => exact execAudStreamConfig_moves _ _ hs
  | audQuery => exact execAudQuery_moves _ _ hs
  | audioChangeLands => exact execAudioChangeLands_moves _ _ hs
  | zeroCrossingTimeout => exact execZeroCrossingTimeout_moves _ _ hs
  | audioParity => exact execAudioParity_moves _ _ _ hs
  | audioPortRateWindow => exact execAudioPortRateWindow_moves _ _ _ hs
  | audioPortStop => exact execAudioPortStop_moves _ _ hs
  | audioPortFrame => exact execAudioPortFrame_moves _ _ _ _ _ _ _ _ hs
  | audioStreamLate => exact execAudioStreamLate_moves _ _ hs
  | ethPortConfig => exact execEthPortConfig_moves _ _ hs
  | ethIpConfig => exact execEthIpConfig_moves _ _ hs
  | ethCounters => exact execEthCounters_moves _ _ hs
  | ethTxFlow => exact execEthTxFlow_moves _ _ hs
  | ethRxFlow => exact execEthRxFlow_moves _ _ hs
  | ethFlowQuery => exact execEthFlowQuery_moves _ _ hs
  | ethPortCntLowRead => exact execEthPortCntLowRead_moves _ _ _ _ hs
  | ethModeTakesEffect => exact execEthModeTakesEffect_moves _ hs
  | pcsBlockLock => exact execPcsBlockLock_moves _ _ hs
  | linkUp => exact execLinkUp_moves _ _ hs
  | pcsAlignmentLost => exact execPcsAlignmentLost_moves _ _ hs
  | linkFaultExpired => exact execLinkFaultExpired_moves _ _ _ hs
  | preemptVerifyExpired => exact execPreemptVerifyExpired_moves _ _ hs
  | ethFrameReceived => exact execEthFrameReceived_moves _ _ _ hs
  | ringCheckSend => exact execRingCheckSend_moves _ hs
  | ringCheckMissing => exact execRingCheckMissing_moves _ hs
  | pauseExpired => exact execPauseExpired_moves _ _ hs
  | pauseTxThreshold => exact execPauseTxThreshold_moves _ _ _ hs
  | pauseRepeat => exact execPauseRepeat_moves _ _ hs
  | igmpQueryReceived => exact execIgmpQueryReceived_moves _ _ _ _ _ hs
  | igmpReportSend => exact execIgmpReportSend_moves _ _ hs
  | addressProbe => exact execAddressProbe_moves _ _ _ _ _ hs
  | mergeRelease => exact execMergeRelease_moves _ _ _ hs
  | legLost => exact execLegLost_moves _ _ _ hs
  | legRestored => exact execLegRestored_moves _ _ _ hs
  | mediaPacketSend => exact execMediaPacketSend_moves _ _ _ _ _ _ _ hs
  | timStatus => exact execTimStatus_moves _ _ hs
  | timRefConfig => exact execTimRefConfig_moves _ _ hs
  | timPtpConfig => exact execTimPtpConfig_moves _ _ hs
  | timCompareSet => exact execTimCompareSet_moves _ _ hs
  | timPulseSet => exact execTimPulseSet_moves _ _ hs
  | timRealign => exact execTimRealign_moves _ _ hs
  | timNowNsRead => exact execTimNowNsRead_moves _ _ hs
  | realignLands => exact execRealignLands_moves _ _ _ hs
  | announceTimeout => exact execAnnounceTimeout_moves _ _ hs
  | holdoverLimit => exact execHoldoverLimit_moves _ _ hs
  | refEdge => exact execRefEdge_moves _ _ hs
  | refAbsent => exact execRefAbsent_moves _ _ hs
  | refFrequencyWindow => exact execRefFrequencyWindow_moves _ _ _ hs
  | refQualify => exact execRefQualify_moves _ _ hs
  | buildOutDone => exact execBuildOutDone_moves _ hs
  | houseLoopLocked => exact execHouseLoopLocked_moves _ hs
  | refDisagree => exact execRefDisagree_moves _ _ _ _ _ hs
  | planeFrameStart => exact execPlaneFrameStart_moves _ _ _ hs
  | compareFire => exact execCompareFire_moves _ _ hs
  | pulseEdge => exact execPulseEdge_moves _ _ _ hs
  | aonTimeRecord => exact execAonTimeRecord_moves _ hs
  | redStatus => exact execRedStatus_moves _ _ hs
  | redLeaseRequest => exact execRedLeaseRequest_moves _ _ hs
  | redLeaseRelease => exact execRedLeaseRelease_moves _ _ hs
  | redResync => exact execRedResync_moves _ _ hs
  | redHealth => exact execRedHealth_moves _ _ hs
  | leaseInEdge => exact execLeaseInEdge_moves _ hs
  | leaseLapse => exact execLeaseLapse_moves _ hs
  | halyardHello => exact execHalyardHello_moves _ _ _ hs
  | helloSend => exact execHelloSend_moves _ hs
  | halyardEpochRecord => exact execHalyardEpochRecord_moves _ _ _ hs
  | halyardEpochAck => exact execHalyardEpochAck_moves _ _ _ _ _ hs
  | recordsUnacknowledged => exact execRecordsUnacknowledged_moves _ hs
  | halyardCmdRelay => exact execHalyardCmdRelay_moves _ _ _ hs
  | halyardCmdForward => exact execHalyardCmdForward_moves _ _ _ hs
  | halyardCmdResult => exact execHalyardCmdResult_moves _ _ _ _ _ _ hs
  | heldCommandTimeout => exact execHeldCommandTimeout_moves _ _ _ hs
  | readoutDecision => exact execReadoutDecision_moves _ _ _ hs
  | halyardReadout => exact execHalyardReadout_moves _ _ _ _ _ hs
  | halyardSignatures => exact execHalyardSignatures_moves _ _ _ _ _ _ _ hs
  | signatureWaitExpired => exact execSignatureWaitExpired_moves _ _ _ _ _ hs
  | halyardProtSig => exact execHalyardProtSig_moves _ _ _ _ _ _ hs
  | halyardHealth => exact execHalyardHealth_moves _ _ _ hs
  | healthSend => exact execHealthSend_moves _ hs
  | halyardLeaseClaim => exact execHalyardLeaseClaim_moves _ _ _ hs
  | halyardBulkRequest => exact execHalyardBulkRequest_moves _ _ _ _ _ hs
  | halyardResyncState => exact execHalyardResyncState_moves _ _ _ _ hs
  | halyardObjectFill => exact execHalyardObjectFill_moves _ _ _ _ _ hs
  | halyardLoss => exact execHalyardLoss_moves _ hs
  | planePhaseDiverge => exact execPlanePhaseDiverge_moves _ _ hs
  | resyncTimeout => exact execResyncTimeout_moves _ hs
  | resyncRetry => exact execResyncRetry_moves _ hs
  | settlingEnd => exact execSettlingEnd_moves _ _ hs
  | safStatus => exact execSafStatus_moves _ _ hs
  | safClear => exact execSafClear_moves _ _ hs
  | safConfig => exact execSafConfig_moves _ _ hs
  | evtRead => exact execEvtRead_moves _ _ hs
  | evtInfo => exact execEvtInfo_moves _ _ hs
  | evtRateSet => exact execEvtRateSet_moves _ _ hs
  | eventRecordWrite => exact execEventRecordWrite_moves _ _ hs
  | toggleGateRefresh => exact execToggleGateRefresh_moves _ hs
  | gateExpired => exact execGateExpired_moves _ hs
  | safePinReadback => exact execSafePinReadback_moves _ _ _ _ hs
  | lockstepFail => exact execLockstepFail_moves _ _ hs
  | safetyCoreReloadDone => exact execSafetyCoreReloadDone_moves _ _ _ hs
  | comparatorSelfTest => exact execComparatorSelfTest_moves _ _ _ hs
  | procStall => exact execProcStall_moves _ _ hs
  | overTemp => exact execOverTemp_moves _ _ _ hs
  | islandClockLost => exact execIslandClockLost_moves _ _ hs
  | supervisorClock => exact execSupervisorClock_moves _ _ hs
  | contextParityConfirm => exact execContextParityConfirm_moves _ _ _ hs
  | contextReloadDone => exact execContextReloadDone_moves _ _ hs
  | blockRestartDone => exact execBlockRestartDone_moves _ _ hs
  | stewardReloadDone => exact execStewardReloadDone_moves _ _ hs
  | privateSramParity => exact execPrivateSramParity_moves _ _ hs
  | controlSramParity => exact execControlSramParity_moves _ _ hs
  | backgroundSramCheck => exact execBackgroundSramCheck_moves _ _ _ hs
  | busTransferResponse => exact execBusTransferResponse_moves _ _ _ _ _ _ hs
  | targetTimeout => exact execTargetTimeout_moves _ _ _ _ hs
  | masterPortReset => exact execMasterPortReset_moves _ _ _ _ hs
  | portRetireDone => exact execPortRetireDone_moves _ _ hs
  | lockedPairTimeout => exact execLockedPairTimeout_moves _ _ _ hs
  | compatWindowRead => exact execCompatWindowRead_moves _ _ hs
  | pwrStatus => exact execPwrStatus_moves _ _ hs
  | pwrLevelSet => exact execPwrLevelSet_moves _ _ hs
  | levelClockSwitch => exact execLevelClockSwitch_moves _ hs
  | levelChangeDone => exact execLevelChangeDone_moves _ hs
  | pwrSleep => exact execPwrSleep_moves _ _ hs
  | stateImageWrite => exact execStateImageWrite_moves _ _ hs
  | sleepCommitPoint => exact execSleepCommitPoint_moves _ hs
  | sleepEnableDeassert => exact execSleepEnableDeassert_moves _ hs
  | sleepAbandoned => exact execSleepAbandoned_moves _ _ hs
  | wakeNLow => exact execWakeNLow_moves _ _ hs
  | wakeAlarm => exact execWakeAlarm_moves _ hs
  | wakeStart => exact execWakeStart_moves _ hs
  | stateImageRestore => exact execStateImageRestore_moves _ hs
  | s1Exit => exact execS1Exit_moves _ hs
  | aonXtalLost => exact execAonXtalLost_moves _ hs
  | imageStartNow => exact execImageStartNow_moves _ hs
  | wakeScrubDone => exact execWakeScrubDone_moves _ _ _ _ _ hs
  | zeroCrossing => exact execZeroCrossing_moves _ _ _ hs
  | gainRampDone => exact execGainRampDone_moves _ _ hs
  | converterSlip => exact execConverterSlip_moves _ _ hs
  | realignSlewDone => exact execRealignSlewDone_moves _ _ _ hs
  | refDisagreementEnd => exact execRefDisagreementEnd_moves _ _ _ hs
  | ptpWtrExpired => exact execPtpWtrExpired_moves _ hs
  | delayReqSend => exact execDelayReqSend_moves _ hs
  | cueProcessorReloadDone => exact execCueProcessorReloadDone_moves _ hs
  | islandClockRestored => exact execIslandClockRestored_moves _ _ hs
  | aonXtalReturn => exact execAonXtalReturn_moves _ hs

theorem exec_moves {i : Instr} {s u : State} (h : exec i s = .next u) : Moves (instrParts i) s u := by
  have hout := exec_movesOut i s
  rwa [h] at hout

/-- The rows of R73 are the only ones that may move the fuses. -/
theorem fuses_notMem_instrParts {i : Instr} (hconfirm : ∀ t c, i ≠ .imgConfirm t c)
    (htimer : ∀ t, i ≠ .trialConfirmTimer t) (halive : ∀ t p, i ≠ .processorAlive t p) :
    (instrParts i).contains .fuses = false := by
  cases i with
  | imgConfirm t c => exact absurd rfl (hconfirm t c)
  | trialConfirmTimer t => exact absurd rfl (htimer t)
  | processorAlive t p => exact absurd rfl (halive t p)
  | _ => rfl

end Sys2Proof.Machine

section
open Sys2Proof Sys2Proof.Machine

/-- Settles O6 by the law of each command. -/
theorem commandsMoveOnlyTheirParts : Obligations.CommandsMoveOnlyTheirParts := fun _ _ _ h => exec_moves h

/-- Settles O9: the bounds hold of every command (O6), and only the rows of R73 have the fuses among their parts. -/
theorem onlyConfirmationAndStartRaiseTheFloor : Obligations.OnlyConfirmationAndStartRaiseTheFloor := by
  intro i s u h
  have hm := exec_moves h
  exact ⟨hm.steady.fuses, hm.steady.floor, fun hconfirm htimer halive =>
    hm.same .fuses (fuses_notMem_instrParts hconfirm htimer halive)⟩

end

end

section
/-! PROOFS. What a read of the byte memory gives after a run of bytes is written, and after a range is cleared (O10). -/

-- The package is checked as one text; elaborating these proofs in order keeps the number of threads small.
set_option Elab.async false

namespace Sys2Proof.Machine

theorem memRead_append_right {d : Byte} {m n : List Host.Cell} {k : Nat} (h : ∀ c ∈ m, c.1 ≠ k) :
    memRead d (m ++ n) k = memRead d n k := by
  induction m with
  | nil => rfl
  | cons c m ih =>
    obtain ⟨hc, hm⟩ := List.forall_mem_cons.mp h
    exact (if_neg hc).trans (ih hm)

theorem memRead_append_left {d : Byte} {m n : List Host.Cell} {k : Nat} (h : ∀ c ∈ n, c.1 ≠ k) :
    memRead d (m ++ n) k = memRead d m k := by
  induction m with
  | nil => rw [List.nil_append, ← List.append_nil n, memRead_append_right h]
  | cons c m ih => rw [List.cons_append, memRead, memRead, ih]

/-- A memory of which only some addresses are kept reads as before at those, and as erased at the others. -/
theorem memRead_filter (d : Byte) (p : Nat → Bool) (m : List Host.Cell) (k : Nat) :
    memRead d (m.filter fun c => p c.1) k = if p k then memRead d m k else d := by
  induction m with
  | nil => simp [memRead]
  | cons c m ih =>
    rw [List.filter_cons]
    by_cases hc : c.1 = k
    · subst hc
      by_cases hp : p c.1
      · simp [hp, memRead]
      · simp [hp, ih]
    · split <;> simp [memRead, hc, ih]

theorem memRead_runCells {d x : Byte} {xs : List Byte} {a i : Nat} (h : xs[i]? = some x) :
    memRead d (runCells d a xs) (a + i) = x := by
  induction xs generalizing a i with
  | nil => simp at h
  | cons y ys ih =>
    rw [runCells]
    cases i with
    | zero =>
      obtain rfl : y = x := by simpa using h
      split
      · rename_i hy
        rw [hy]
        exact memRead_above (fun c hc => (runCells_range (a + 1) ys c hc).1) (Nat.lt_succ_self a)
      · simp [memRead]
    | succ j =>
      have hys : memRead d (runCells d (a + 1) ys) (a + (j + 1)) = x := by
        rw [← ih (a := a + 1) (i := j) (by simpa using h)]
        congr 1
        omega
      split
      · exact hys
      · rwa [memRead, if_neg (by omega)]

theorem memRead_memWriteList_inside {d x : Byte} (m : List Host.Cell) (a : Nat) {xs : List Byte} {i : Nat}
    (h : xs[i]? = some x) : memRead d (memWriteList d m a xs) (a + i) = x := by
  have hi : i < xs.length := (List.getElem?_eq_some_iff.mp h).1
  have habove : ∀ c ∈ m.filter (fun c => decide (a + xs.length ≤ c.1)), c.1 ≠ a + i := by
    intro c hc
    have := of_decide_eq_true (List.mem_filter.mp hc).2
    omega
  have hbelow : ∀ c ∈ m.filter (fun c => decide (c.1 < a)), c.1 ≠ a + i := by
    intro c hc
    have := of_decide_eq_true (List.mem_filter.mp hc).2
    omega
  rw [memWriteList, memRead_append_left habove, memRead_append_right hbelow, memRead_runCells h]

theorem memRead_memWriteList_outside (d : Byte) (m : List Host.Cell) {a k : Nat} {xs : List Byte}
    (h : k < a ∨ a + xs.length ≤ k) : memRead d (memWriteList d m a xs) k = memRead d m k := by
  have hrun : ∀ c ∈ runCells d a xs, c.1 ≠ k := by
    intro c hc
    have := runCells_range a xs c hc
    omega
  rw [memWriteList]
  rcases h with hk | hk
  · have habove : ∀ c ∈ m.filter (fun c => decide (a + xs.length ≤ c.1)), c.1 ≠ k := by
      intro c hc
      have := of_decide_eq_true (List.mem_filter.mp hc).2
      omega
    rw [memRead_append_left habove, memRead_append_left hrun, memRead_filter d (fun n => decide (n < a)),
      if_pos (decide_eq_true hk)]
  · have hbelow : ∀ c ∈ m.filter (fun c => decide (c.1 < a)) ++ runCells d a xs, c.1 ≠ k := by
      intro c hc
      rcases List.mem_append.mp hc with hc | hc
      · have := of_decide_eq_true (List.mem_filter.mp hc).2
        omega
      · exact hrun c hc
    rw [memRead_append_right hbelow, memRead_filter d (fun n => decide (a + xs.length ≤ n)),
      if_pos (decide_eq_true hk)]

theorem memRead_memClear (d : Byte) (m : List Host.Cell) (lo hi k : Nat) :
    memRead d (memClear m lo hi) k = if lo ≤ k ∧ k < hi then d else memRead d m k := by
  rw [memClear, memRead_filter d (fun n => decide (n < lo) || decide (hi ≤ n))]
  by_cases hk : lo ≤ k ∧ k < hi
  · rw [if_pos hk, if_neg (by simpa using hk)]
  · rw [if_neg hk, if_pos (by simp; omega)]

end Sys2Proof.Machine

section
open Sys2Proof Sys2Proof.Machine

/-- Settles O10. A run is written as the cells below it, its own cells and those above it, and a read finds its cell in
one of the three. -/
theorem storedBytesReadBack : Obligations.StoredBytesReadBack := fun d m a _ _ =>
  ⟨fun _ _ h => memRead_memWriteList_inside m a h, fun _ h => memRead_memWriteList_outside d m h,
    memRead_memClear d m⟩

end

end

section
/-! PROOFS. The regulator sequencer: what it asserts, and what a power fault leaves (O13). -/

-- The package is checked as one text; elaborating these proofs in order keeps the number of threads small.
set_option Elab.async false

namespace Sys2Proof.Machine

/-! The enables and the steps of Table 2.1. -/

theorem set_eq_self_of_getD {l : List Bool} {i : Nat} {v : Bool} (h : l.getD i false = v) : l.set i v = l := by
  by_cases hi : i < l.length
  · subst h
    simp [hi]
  · exact List.set_eq_of_length_le (Nat.le_of_not_lt hi)

theorem getD_set_self {l : List Bool} {i : Nat} (v : Bool) (h : i < l.length) : (l.set i v).getD i false = v := by
  simp [h]

@[simp] theorem setEnable_seq (i : Nat) (v : Bool) (s : State) :
    (setEnable i v s).seq = { s.seq with en := s.seq.en.set i v } := by
  unfold setEnable
  split
  · rename_i h
    rw [set_eq_self_of_getD h]
  · simp

@[simp] theorem startSequence_seq (s : State) : (startSequence s).seq =
    { s.seq with phase := if s.seq.pgMode then .fixed else .waitPg, step := 1, en := s.seq.en.set 0 true } :=
  setEnable_seq ..

@[simp] theorem startSequence_pins (s : State) : (startSequence s).pins = s.pins :=
  (startSequence_moves (.refl [.seq, .out] s)).same .pins rfl

/-- The step that follows one of Table 2.1 before its last asserts one of the five enables. -/
theorem nextStep_le {s : State} (h : s.seq.step < 5) : nextStep s - 1 < 5 := by
  unfold nextStep
  split <;> omega

theorem execSequenceStepDelayExpired_waitDelay {t : Nat} {s : State} (hphase : s.seq.phase = .waitDelay) :
    exec (.sequenceStepDelayExpired t) s = .next (if 5 ≤ s.seq.step then sequenceComplete (advance t s) else
      setEnable (nextStep s - 1) true
        (onSeq (fun q => { q with phase := .waitPg, step := nextStep s }) (advance t s))) :=
  congrArg Host.Outcome.next (if_neg fun h => h hphase)

theorem execFixedDelayEnable_fixed {t : Nat} {s : State} (hphase : s.seq.phase = .fixed) :
    exec (.fixedDelayEnable t) s = .next (if 5 ≤ s.seq.step then sequenceComplete (advance t s) else
      setEnable (nextStep s - 1) true (onSeq (fun q => { q with step := nextStep s }) (advance t s))) :=
  congrArg Host.Outcome.next (if_neg fun h => h hphase)

theorem sequenceComplete_of_rst_high {s : State} (h : s.pins.rstLow = false) :
    sequenceComplete s = takeT0 (onSeq (fun q => { q with phase := .complete }) s) :=
  if_neg (by simp [h])

/-! T1, part by part. -/

@[simp] theorem setReady_rstLow (v : Bool) (s : State) : (setReady v s).pins.rstLow = s.pins.rstLow := by
  unfold setReady
  dsimp only
  repeat' split
  all_goals rfl

@[simp] theorem pinsDown_rstLow (s : State) : (pinsDown s).pins.rstLow = s.pins.rstLow := by
  have hvsel (x : State) : (setVsel 0 x).pins.rstLow = x.pins.rstLow := by
    unfold setVsel
    split <;> rfl
  have hlease (x : State) : (if x.pins.leaseOut then emitPin "LEASE_OUT" 0 { x with pins := { x.pins with
      leaseOut := false } } else x).pins.rstLow = x.pins.rstLow := by
    split <;> rfl
  have hdriven (x : State) : Moves [.tim, .saf, .out] x (setSafePins .low (driveHt 7 x)) :=
    setSafePins_moves _ (driveHt_moves _ (.refl _ x))
  exact (hvsel _).trans ((hlease _).trans ((congrArg Pins.rstLow ((hdriven _).same .pins rfl)).trans
    (setReady_rstLow false s)))

/-- T1 resets a state that kept the sequencer, the flash and the clock, and records MODE_CHANGE. -/
theorem takeT1_from_reset (cause : Nat) (s : State) :
    ∃ x, Moves [.aon, .evt, .pins, .start, .saf, .pwr, .tim, .out] s x ∧ x.pins.rstLow = s.pins.rstLow
      ∧ Moves [.evt] (resetState x) (takeT1 cause s) := by
  refine ⟨_, ?moves, ?rst, raiseModeChange_own ..⟩
  case moves =>
    have hs : Moves [.aon, .evt, .pins, .start, .saf, .pwr, .tim, .out] s s := .refl _ s
    refine pinsDown_moves (Moves.setAon (.ite ?_ hs) _)
    exact Moves.evtSame (hs.setAon { s.aon with retainStore := none }) _ rfl
  case rst =>
    refine (pinsDown_rstLow _).trans ?_
    split <;> rfl

@[simp] theorem takeT1_seq (cause : Nat) (s : State) : (takeT1 cause s).seq = s.seq := by
  obtain ⟨x, hx, -, h⟩ := takeT1_from_reset cause s
  exact (h.same .seq rfl).trans (hx.same .seq rfl)

@[simp] theorem takeT1_start (cause : Nat) (s : State) : (takeT1 cause s).start = {} := by
  obtain ⟨x, -, -, h⟩ := takeT1_from_reset cause s
  exact h.same .start rfl

@[simp] theorem takeT1_xpt (cause : Nat) (s : State) : (takeT1 cause s).xpt = {} := by
  obtain ⟨x, -, -, h⟩ := takeT1_from_reset cause s
  exact h.same .xpt rfl

@[simp] theorem takeT1_fuses (cause : Nat) (s : State) : (takeT1 cause s).fuses = s.fuses := by
  obtain ⟨x, hx, -, h⟩ := takeT1_from_reset cause s
  exact (h.same .fuses rfl).trans (hx.same .fuses rfl)

@[simp] theorem takeT1_rstLow (cause : Nat) (s : State) : (takeT1 cause s).pins.rstLow = s.pins.rstLow := by
  obtain ⟨x, -, hrst, h⟩ := takeT1_from_reset cause s
  exact (congrArg Pins.rstLow (h.same .pins rfl)).trans hrst

@[simp] theorem takeT1_flash_mem (cause : Nat) (s : State) : (takeT1 cause s).flash.mem = s.flash.mem := by
  obtain ⟨x, hx, -, h⟩ := takeT1_from_reset cause s
  have hreset : (takeT1 cause s).flash = (resetState x).flash := h.same .flash rfl
  have hkept : x.flash = s.flash := hx.same .flash rfl
  rw [hreset, ← hkept]
  rfl

/-! A power fault. -/

theorem dropEnables_own (keepHbm : Bool) (s : State) : Moves [.seq, .out] s (dropEnables keepHbm s) :=
  dropEnables_moves keepHbm (.refl _ s)

@[simp] theorem dropEnables_mode (keepHbm : Bool) (s : State) : (dropEnables keepHbm s).mode = s.mode :=
  (dropEnables_own keepHbm s).same .mode rfl

@[simp] theorem dropEnables_host (keepHbm : Bool) (s : State) : (dropEnables keepHbm s).host = s.host :=
  (dropEnables_own keepHbm s).same .host rfl

@[simp] theorem dropEnables_fuses (keepHbm : Bool) (s : State) : (dropEnables keepHbm s).fuses = s.fuses :=
  (dropEnables_own keepHbm s).same .fuses rfl

/-- The falling enables are logged one by one and noted at once. -/
@[simp] theorem dropEnables_seq (keepHbm : Bool) (s : State) : (dropEnables keepHbm s).seq =
    { s.seq with en := [false, false, false, keepHbm && s.seq.en.getD 3 false, false] } := by
  have hlog (l : List Nat) (f : State → Nat → Out) : (l.foldl (fun x k => emit (f x k) x) s).seq = s.seq :=
    (Moves.foldl (l := [.out]) (fun _ _ h => emit_moves _ h) l (.refl _ s)).same .seq rfl
  rw [dropEnables, onSeq_seq, hlog]

theorem powerFault_seq (step : Nat) (s : State) :
    (powerFault step s).seq.en = [false, false, false, false, false] ∧ (powerFault step s).seq.lastFault = step
      ∧ ((powerFault step s).seq.phase = .faultWait ∨ (powerFault step s).seq.phase = .lockout) := by
  refine ⟨by simp [powerFault], by simp [powerFault], ?_⟩
  simp only [powerFault, raise_seq, dropEnables_seq, takeT1_seq, onSeq_seq]
  split
  · exact .inr rfl
  · exact .inl rfl

@[simp] theorem powerFault_mode (step : Nat) (s : State) : (powerFault step s).mode = .boot := by simp [powerFault]

@[simp] theorem powerFault_host (step : Nat) (s : State) : (powerFault step s).host = {} := by simp [powerFault]

@[simp] theorem powerFault_fuses (step : Nat) (s : State) : (powerFault step s).fuses = s.fuses := by simp [powerFault]

end Sys2Proof.Machine

section
open Sys2Proof Sys2Proof.Machine

/-- Settles O13, one case per event of the sequencer. -/
theorem supplySequencingCompletes : Obligations.SupplySequencingCompletes := by
  refine ⟨fun t pg st s hup hen => ?up, fun t pg s hpg hphase hstep => ?asserted, fun t s hphase hstep hen => ?next,
    fun t s hphase hstep hrst => ?complete, fun t s hphase hstep hen => ?fixed, fun t pg s hpg => ?low,
    fun t s hphase => ?timeout, fun t pg a s hpg hlow hwatched hdue => ?fault, fun t s hphase hdue hen => ?restart,
    fun t s => ?lost⟩
  case up =>
    refine ⟨_, congrArg Host.Outcome.next (if_neg (by simp [hup])), ?_⟩
    rw [startSequence_seq, startSequence_pins]
    exact ⟨rfl, rfl, rfl, rfl, getD_set_self true (by simp [hen]), rfl⟩
  case asserted =>
    refine ⟨_, (if_neg (by omega)).trans (congrArg Host.Outcome.next (if_pos (by simp [hphase, hstep]))), ?_⟩
    simp
  case next =>
    refine ⟨_, (execSequenceStepDelayExpired_waitDelay hphase).trans (congrArg _ (if_neg (by omega))), ?_⟩
    simp only [setEnable_seq, onSeq_seq, true_and]
    exact getD_set_self true (hen.symm ▸ nextStep_le hstep)
  case complete =>
    refine ⟨_, (execSequenceStepDelayExpired_waitDelay hphase).trans (congrArg _ (if_pos hstep)), ?_⟩
    rw [sequenceComplete_of_rst_high (s := advance t s) hrst]
    exact ⟨rfl, rfl, rfl⟩
  case fixed =>
    refine ⟨_, (execFixedDelayEnable_fixed hphase).trans (congrArg _ (if_neg (by omega))), ?_⟩
    simp only [setEnable_seq, onSeq_seq, true_and]
    exact ⟨hphase, getD_set_self true (hen.symm ▸ nextStep_le hstep)⟩
  case low => exact ⟨_, if_neg (by omega), rfl, rfl, rfl⟩
  case timeout =>
    obtain ⟨hen, hlast, hwaits⟩ := powerFault_seq s.seq.step (advance t s)
    exact ⟨powerFault s.seq.step (advance t s), congrArg Host.Outcome.next (if_pos hphase), powerFault_mode .., hen,
      hlast, hwaits, congrArg HostSt.queue (powerFault_host ..), powerFault_fuses ..⟩
  case fault =>
    obtain ⟨hen, hlast, -⟩ := powerFault_seq (pg + 1) (advance t s)
    refine ⟨powerFault (pg + 1) (advance t s), (if_neg (by omega)).trans (congrArg Host.Outcome.next ?_),
      powerFault_mode .., hen, hlast, congrArg HostSt.queue (powerFault_host ..)⟩
    have hwatched' : pgWatched (advance t s) pg = true := hwatched
    simp [hlow, hwatched', hdue]
  case restart =>
    refine ⟨_, congrArg Host.Outcome.next (if_pos (by simp [hphase, hdue])), ?_⟩
    rw [startSequence_seq]
    exact ⟨rfl, getD_set_self true (by simp [hen]), rfl⟩
  case lost =>
    have hdown := pinsDown_own (advance t s)
    have hflash : (pinsDown (advance t s)).flash = s.flash := hdown.same .flash rfl
    exact ⟨_, rfl, rfl, rfl, rfl, hdown.same .fuses rfl, hflash ▸ rfl, rfl⟩

end

end

section
/-! PROOFS. RST_N, the role pin, the PLLs and the ROM test (O14). -/

-- The package is checked as one text; elaborating these proofs in order keeps the number of threads small.
set_option Elab.async false

namespace Sys2Proof.Machine

/-- A long low of RST_N takes T1; the sequencer runs on where it has started (R46). -/
theorem execRstNLow_held {t : Nat} {s : State} (hup : s.seq.aonUp = true) (hphase : s.seq.phase ≠ .off) :
    exec (.rstNLow t) s =
      .next (takeT1 1 (onPins (fun p => { p with rstLow := true, roleTests := [] }) (advance t s))) := by
  refine congrArg Host.Outcome.next ((if_neg ?_).trans (if_neg ?_))
  · simp [hup]
  · simpa using hphase

/-- RST_N rises with the levels that the board then drives (R46). -/
def released (t : Nat) (st : Straps) (s : State) : State :=
  onPins (fun p => { p with rstLow := false, straps := st }) (advance t s)

theorem execRstNRelease_low {t : Nat} {st : Straps} {s : State} (hrst : s.pins.rstLow = true) :
    exec (.rstNRelease t st) s = .next (if s.seq.phase = .lockout then
        startSequence (onSeq (fun q => { q with lockout := false, faultTimes := [] }) (released t st s))
      else if s.seq.phase = .complete then takeT0 (released t st s) else released t st s) :=
  congrArg Host.Outcome.next (if_neg (by simp [hrst]))

@[simp] theorem timeRestore_seq (s : State) : (timeRestore s).seq = s.seq :=
  (timeRestore_moves (.refl [.clock, .tim] s)).same .seq rfl

@[simp] theorem timeRestore_start (s : State) : (timeRestore s).start = s.start :=
  (timeRestore_moves (.refl [.clock, .tim] s)).same .start rfl

@[simp] theorem timeRestore_running (s : State) : (timeRestore s).clock.running = true := by
  unfold timeRestore
  split <;> rfl

/-- The first lock after t0 ends CLK_WAIT and restores the time; the ROM passes at step 0 and fails at any other. -/
theorem execPllLocked_first {t a : Nat} (k : Nat) {s : State} (hreset : s.start.inReset = false)
    (ht0 : s.start.t0 = some a) (hlock : s.start.pllLocked = false) :
    ∃ x, x.start = { s.start with pllLocked := true } ∧ x.clock.running = true ∧ x.seq.clkWait = false
      ∧ exec (.pllLocked t k) s = .next (if k = 0 then onStart (fun y => { y with romDone := true }) x
        else onAon (fun b => { b with boot := { b.boot with romFail := true } }) x) :=
  ⟨_, timeRestore_start _, timeRestore_running _, congrArg Seq.clkWait (timeRestore_seq _),
    congrArg Host.Outcome.next (if_neg (by simp [hreset, ht0, hlock]))⟩

end Sys2Proof.Machine

section
open Sys2Proof Sys2Proof.Machine

/-- Settles O14, one case per event. -/
theorem resetPinAndClocksComplete : Obligations.ResetPinAndClocksComplete := by
  refine ⟨fun t s hup hphase => ?low, fun t st s hrst hphase => ?release, fun t st s hrst hphase => ?lockout,
    fun t up down s hreset => ?role, fun t a k s hreset ht0 hlock => ?lock, fun t a s ht0 hlock hdue => ?wait⟩
  case low =>
    refine ⟨_, execRstNLow_held hup hphase, ?_⟩
    simp [takeT1_aon]
  case release =>
    have hne : s.seq.phase ≠ .lockout := by simp [hphase]
    exact ⟨_, (execRstNRelease_low hrst).trans (congrArg _ ((if_neg hne).trans (if_pos hphase))), rfl, rfl, rfl, rfl⟩
  case lockout =>
    refine ⟨_, (execRstNRelease_low hrst).trans (congrArg _ (if_pos hphase)), ?_⟩
    rw [startSequence_seq, startSequence_pins]
    exact ⟨rfl, rfl, rfl, rfl⟩
  case role => exact ⟨_, congrArg Host.Outcome.next (if_pos hreset), rfl⟩
  case lock =>
    obtain ⟨x, hstart, hrun, hwait, hexec⟩ := execPllLocked_first (t := t) k hreset ht0 hlock
    refine ⟨_, hexec, ?_⟩
    by_cases hk : k = 0 <;> simp [hk, hstart, hrun, hwait]
  case wait =>
    refine ⟨onSeq (fun q => { q with clkWait := true }) (advance t s), congrArg Host.Outcome.next ?_, rfl, rfl⟩
    simp [ht0, hlock, hdue]

end

end

section
/-! PROOFS. From the choice of the image to the end of calibration (O15). -/

-- The package is checked as one text; elaborating these proofs in order keeps the number of threads small.
set_option Elab.async false

namespace Sys2Proof.Machine

/-! The choice of the image. -/

theorem execImageSelection_cold {t : Nat} (bp : Bool) {s : State} (hrom : s.start.romDone = true)
    (hload : s.start.loading = false) (hrec : s.start.recovery = false) (hwake : s.start.wake = false)
    (hmode : s.mode = .boot) : exec (.imageSelection t bp) s =
      .next (if s.start.straps.bootSrc then enterRecovery (advance t s) else selectImage bp (advance t s)) := by
  refine congrArg Host.Outcome.next ((if_neg ?_).trans ((if_neg ?_).trans (if_neg ?_)))
  · simp [hrom, hload, hrec]
  · simp [hwake]
  · simp [hmode]

/-- Without a trial the active slot is booted when its image passes and is not skipped (R57). -/
theorem selectImage_active (bp : Bool) {s : State} (htrial : (bootRec s).trial = none)
    (himg : imgReason s (bootRec s).active = none) (hskip : s.aon.boot.skip.getD (bootRec s).active false = false) :
    selectImage bp s = bootSlot (bootRec s).active false bp s := by
  simp only [selectImage, htrial, searchSlots, tryImage, himg, hskip, Bool.not_false, Bool.and_self, if_true]

/-! The processors. -/

theorem releaseNext_own (s : State) : Moves [.start] s (releaseNext s) := releaseNext_moves (.refl _ s)

/-- Which processor is released next rests on the start's own state. -/
theorem releaseNext_start_congr {s x : State} (h : x.start = s.start) :
    (releaseNext x).start = (releaseNext s).start := by
  unfold releaseNext
  rw [h]
  split <;> simp [h]

theorem releaseNext_loading (s : State) : (releaseNext s).start.loading = s.start.loading := by
  unfold releaseNext
  split <;> rfl

/-- The Conductor of the active slot's image runs, and it releases the safety pair first (R61). -/
theorem bootSlot_active (s : State) :
    (bootSlot (bootRec s).active false false s).start.loading = true
      ∧ (bootSlot (bootRec s).active false false s).aon.boot.slot = (bootRec s).active
      ∧ (bootSlot (bootRec s).active false false s).aon.boot.trial = false
      ∧ (bootSlot (bootRec s).active false false s).start.procs = [(0, 2), (6, 1)]
      ∧ (bootSlot (bootRec s).active false false s).mode = s.mode := by
  have hboot : bootSlot (bootRec s).active false false s =
      releaseNext (onStart (fun x => { x with loading := true, recovery := false, procs := [(0, 2)] })
        (onAon (fun a => { a with boot := { a.boot with slot := (bootRec s).active, trial := false } }) s)) := by
    simp [bootSlot]
  rw [hboot, releaseNext_loading, (releaseNext_own _).same .aon rfl, (releaseNext_own _).same .mode rfl]
  exact ⟨rfl, rfl, rfl, rfl, rfl⟩

/-- A released processor has reported alive. -/
def reported (t p : Nat) (s : State) : State :=
  onStart (fun x => { x with procs := tset x.procs p 2 }) (advance t s)

/-- The safety pair, once it is alive, starts the SAFE pins (R50). -/
def pinsStarted (p : Nat) (s : State) : State :=
  if p = 6 then setSafePins .toggling (onSaf (fun x => { x with gateAt := some s.clock.clk, gateOpen := true }) s)
  else s

theorem pinsStarted_own (p : Nat) (s : State) : Moves [.saf, .out] s (pinsStarted p s) :=
  .ite (setSafePins_moves _ (.onSaf (.refl _ s) _)) (.refl _ s)

theorem pinsStarted_of_ne {p : Nat} (hp : p ≠ 6) (s : State) : pinsStarted p s = s := if_neg hp

/-- The report of a released processor releases the next one, and the last report ends the loading (R65, R68). -/
theorem execProcessorAlive_released {t p : Nat} {s : State} (hp : p ≤ 6) (hload : s.start.loading = true)
    (hproc : tget 0 s.start.procs p = 1) :
    ∃ x, x.mode = s.mode ∧ x.clock.clk = max s.clock.clk t
      ∧ x.start = { s.start with procs := tset s.start.procs p 2 } ∧ (p ≠ 6 → x.saf = s.saf)
      ∧ exec (.processorAlive t p) s = .next (if loadOrder.all (fun q => tget 0 x.start.procs q = 2) then
          if x.start.wake then takeT17 x else takeT2 (raiseFloor x) else releaseNext x) := by
  have hpins := pinsStarted_own p (reported t p s)
  exact ⟨pinsStarted p (reported t p s), hpins.same .mode rfl, congrArg Clock.clk (hpins.same .clock rfl),
    hpins.same .start rfl, fun h6 => by rw [pinsStarted_of_ne h6]; rfl,
    (if_neg (by omega)).trans (congrArg Host.Outcome.next (if_neg (by simp [hload, hproc])))⟩

/-! T2 and T17. -/

theorem setMode_start_of_not_ready (n : Nat) {dest : Mode} (cause : Nat) (s : State) (hd : dest.ready = false) :
    (setMode n dest cause s).start = s.start := by
  have hready (x : State) : Moves [.pins, .out] x (setReady dest.ready x) := hd ▸ setReady_false_moves x
  have h (x : State) : Moves [.pins, .evt, .lane, .out] x
      (noteEnsign (setReady dest.ready (raiseModeChange n s.mode dest cause x))) :=
    noteEnsign_moves (Moves.trans (raiseModeChange_moves _ _ _ _ (.refl _ x)) ((hready _).mono rfl))
  exact (h _).same .start rfl

theorem transition_start_of_not_ready (n : Nat) {dest : Mode} (cause : Nat) (s : State) (hd : dest.ready = false) :
    (transition n dest cause s).start = s.start := by
  obtain ⟨x, hx, h⟩ := transition_from_setMode n dest cause s
  exact ((h.same .start rfl).trans (setMode_start_of_not_ready n cause x hd)).trans (hx.same .start rfl)

/-- The loops and the lanes start with CALIBRATE, and leave the mode, its history, the start and calibration. -/
theorem started_own (s : State) : Moves [.tim, .lane, .out] s (lanesStart (loopsStart s)) :=
  lanesStart_moves (loopsStart_moves (.refl _ s))

/-- What a device enters CALIBRATE with: the transition, and calibration that starts now. -/
structure CalibrationStarted (n : Nat) (s u : State) : Prop where
  mode : u.mode = .calibrate
  loaded : u.start.loading = false
  transition : u.aon.lastTrans = n
  since : u.cal.startAt = s.clock.clk

/-- CALIBRATE is entered from a state that has noted the end of the loading and the start of calibration. -/
theorem calibrationStarted_of_transition (n cause : Nat) {s x u : State}
    (hu : Moves [.flash, .evt] (lanesStart (loopsStart (transition n .calibrate cause x))) u)
    (hload : x.start.loading = false) (hcal : x.cal.startAt = s.clock.clk) : CalibrationStarted n s u := by
  have h := Moves.trans ((started_own (transition n .calibrate cause x)).mono
    (l := [.tim, .lane, .out, .flash, .evt]) rfl) (hu.mono rfl)
  refine ⟨(h.same .mode rfl).trans (transition_mode ..), ?_, ?_, ?_⟩
  · rw [h.same .start rfl, transition_start_of_not_ready n cause x rfl, hload]
  · rw [h.same .aon rfl, transition_aon]
  · rw [h.same .cal rfl, (transition_own n .calibrate cause x).same .cal rfl, hcal]

theorem startRecorder_clock (s : State) : (startRecorder s).clock = s.clock :=
  (startRecorder_moves (.refl [.evt] s)).same .clock rfl

theorem takeT2_starts (s : State) : CalibrationStarted 2 s (takeT2 s) :=
  calibrationStarted_of_transition 2 4 (raise_own ..) rfl (congrArg Clock.clk (startRecorder_clock s))

theorem takeT17_starts (s : State) : CalibrationStarted 17 s (takeT17 s) := by
  unfold takeT17
  exact calibrationStarted_of_transition 17 5 (.refl _ _) rfl (congrArg Clock.clk (startRecorder_clock s))

/-! A processor that does not report. -/

/-- Where t0 follows T1 at once, the boot status notes from where to boot. -/
theorem takeT1Start_boot (cause : Nat) (s : State) :
    ∃ b, (takeT1Start cause s).aon.boot = { s.aon.boot with bootSrc := b } := by
  obtain h | h := takeT1Start_cases cause s
  · exact ⟨s.aon.boot.bootSrc, by rw [h, takeT1_aon]⟩
  · exact ⟨_, by rw [h, takeT0, takeT1_aon]⟩

theorem takeT1Start_loading (cause : Nat) (s : State) : (takeT1Start cause s).start.loading = false := by
  obtain h | h := takeT1Start_cases cause s
  · rw [h, takeT1_start]
  · rw [h, takeT0, takeT1_start]

theorem rejectBooted_boot (s : State) : ∃ b, (rejectBooted s).aon.boot = { s.aon.boot with
    reject := 9, rejectSlot := s.aon.boot.slot, skip := s.aon.boot.skip.set s.aon.boot.slot true, bootSrc := b } := by
  obtain ⟨b, h⟩ := takeT1Start_boot 6 (setSkip s.aon.boot.slot true (rejectImage s.aon.boot.slot 9 s))
  exact ⟨b, h.trans (by simp [setSkip, rejectImage])⟩

/-! Calibration. -/

theorem calProgress_of_not_done {s : State} (h : calDone s = false) : calProgress s = s := if_neg (by simp [h])

theorem calFail_failed (code : Nat) (ws : List Word) (s : State) :
    (calFail code ws s).cal.failed = true ∧ (calFail code ws s).aon.boot.calFail = true
      ∧ Moves [.aon, .cal, .flash, .evt] s (calFail code ws s) :=
  ⟨by simp [calFail], by simp [calFail], calFail_moves code ws (.refl _ s)⟩

end Sys2Proof.Machine

section
open Sys2Proof Sys2Proof.Machine

/-- Settles O15, one case per event. -/
theorem imageStartAndCalibrationComplete : Obligations.ImageStartAndCalibrationComplete := by
  refine ⟨fun t bp s hrom hload hrec hwake hmode hsrc => ?listener,
    fun t s hrom hload hrec hwake hmode hsrc htrial himg hskip => ?select,
    fun t p s hp h6 hload hproc hall => ?alive, fun t p s hp hload hproc hall => ?last,
    fun t p s hp hload hproc => ?timeout, fun t s hmode hdue hhbm => ?lanes,
    fun t s hmode hhbm hfailed hmem => ?trained, fun t pc s hmode hhbm hfailed => ?untrained,
    fun t s hmode hmem hfailed hhbm => ?memory, fun t pc a s hmode hmem hfailed => ?memoryFails,
    fun t a s hdone hmode hpair hlease hstep hdue => ?isolated⟩
  case listener =>
    have hexec := execImageSelection_cold (t := t) bp hrom hload hrec hwake hmode
    exact ⟨_, hexec.trans (congrArg _ (if_pos hsrc)), rfl, rfl, hmode⟩
  case select =>
    have hexec := execImageSelection_cold (t := t) false hrom hload hrec hwake hmode
    have hboot := selectImage_active (s := advance t s) false htrial himg hskip
    obtain ⟨hloading, hslot, hnoTrial, hprocs, hstays⟩ := bootSlot_active (advance t s)
    exact ⟨_, hexec.trans (congrArg _ ((if_neg (by simp [hsrc])).trans hboot)), hloading, hslot, hnoTrial, hprocs,
      hstays.trans hmode⟩
  case alive =>
    obtain ⟨x, hxmode, -, hstart, hsaf, hexec⟩ := execProcessorAlive_released (t := t) hp hload hproc
    have hown := releaseNext_own x
    rw [hstart, if_neg (ne_true_of_eq_false hall)] at hexec
    exact ⟨_, hexec, (hown.same .mode rfl).trans hxmode,
      (releaseNext_loading x).trans (hstart ▸ hload), (hown.same .saf rfl).trans (hsaf h6),
      releaseNext_start_congr hstart⟩
  case last =>
    obtain ⟨x, -, hclk, hstart, -, hexec⟩ := execProcessorAlive_released (t := t) hp hload hproc
    rw [hstart, if_pos hall] at hexec
    by_cases hwake : s.start.wake = true
    · have h := takeT17_starts x
      exact ⟨takeT17 x, hexec.trans (congrArg _ (if_pos hwake)), h.mode, h.loaded,
        h.transition.trans (if_pos hwake).symm, h.since.trans hclk⟩
    · have h := takeT2_starts (raiseFloor x)
      have hfloor := (raiseFloor_moves (.refl [.fuses, .flash, .evt] x)).same .clock rfl
      exact ⟨takeT2 (raiseFloor x), hexec.trans (congrArg _ (if_neg hwake)), h.mode, h.loaded,
        h.transition.trans (if_neg hwake).symm, h.since.trans ((congrArg Clock.clk hfloor).trans hclk)⟩
  case timeout =>
    obtain ⟨b, hboot⟩ := rejectBooted_boot (advance t s)
    refine ⟨rejectBooted (advance t s), (if_neg (by omega)).trans (congrArg _ (if_pos (by simp [hload, hproc]))),
      takeT1Start_mode .., takeT1Start_loading .., ?_⟩
    rw [hboot]
    exact ⟨rfl, rfl, rfl, (rejectBooted_moves (.refl (instrParts (.aliveTimeout t p)) (advance t s))).same .fuses rfl⟩
  case lanes =>
    refine ⟨_, congrArg Host.Outcome.next ((if_pos (by simp [hmode, hdue])).trans
      (calProgress_of_not_done ?_)), rfl, hmode⟩
    simp [calDone, hhbm]
  case trained =>
    refine ⟨_, congrArg Host.Outcome.next ((if_neg (by simp [hmode, hhbm, hfailed])).trans
      (calProgress_of_not_done ?_)), rfl, hmode⟩
    simp [calDone, hmem]
  case untrained =>
    obtain ⟨hcal, haon, hown⟩ := calFail_failed 0x4002 [pack8_16 pc 3 0] (advance t s)
    exact ⟨_, congrArg Host.Outcome.next (if_neg (by simp [hmode, hhbm, hfailed])), hcal, haon,
      (hown.same .mode rfl).trans hmode⟩
  case memory =>
    refine ⟨_, congrArg Host.Outcome.next ((if_neg (by simp [hmode, hmem, hfailed])).trans
      (calProgress_of_not_done ?_)), rfl, rfl, hmode⟩
    simp [calDone, hhbm]
  case memoryFails =>
    obtain ⟨hcal, haon, hown⟩ := calFail_failed 0x4003 [pack8 pc 0 0 0, w32 a] (advance t s)
    exact ⟨_, congrArg Host.Outcome.next (if_neg (by simp [hmode, hmem, hfailed])), hcal, haon,
      (hown.same .mode rfl).trans hmode, hown.same .fst rfl⟩
  case isolated =>
    have hpair' : paired (advance t s) = true := hpair
    have hstep' : inStep (advance t s) = false := hstep
    refine ⟨transition 5 .isolated 4 (advance t s), congrArg Host.Outcome.next ?_, transition_mode .., ?_, ?_⟩
    · simp [hdone, hmode, hpair', hlease, hstep', hdue]
    · rw [transition_aon, advance_mode, hmode]
      rfl
    · rw [transition_aon]

end

end

section
/-! PROOFS. One step of the block: the command it takes, and the soundness it keeps (O1, O4, O5, O7). -/

-- The package is checked as one text; elaborating these proofs in order keeps the number of threads small.
set_option Elab.async false

namespace Sys2Proof.Machine

theorem step_of_pending_nil {s : State} (h : s.pending = []) : step s = .next (idle s) := by rw [step, h]

theorem step_of_pending_cons {c : Instr} {rest : List Instr} {s : State} (h : s.pending = c :: rest) :
    step s = exec c { s with pending := rest } := by rw [step, h]

theorem idle_steady (s : State) : Steady s (idle s) := (idle_moves (.refl [.clock] s)).steady

/-- A step takes the front of the queue of waiting commands, and is otherwise steady. -/
theorem step_steady {s u : State} (h : step s = .next u) : Steady { s with pending := s.pending.tail } u := by
  cases hp : s.pending with
  | nil =>
    obtain rfl : idle s = u := by simpa [step_of_pending_nil hp] using h
    have hs : { s with pending := [] } = s := by rw [← hp]
    rw [List.tail_nil, hs]
    exact idle_steady s
  | cons c rest =>
    rw [step_of_pending_cons hp] at h
    exact (exec_moves h).steady

end Sys2Proof.Machine

section
open Sys2Proof Sys2Proof.Machine

/-- Settles O1. -/
theorem stepRunsTheFrontCommand : Obligations.StepRunsTheFrontCommand := fun _ _ _ h => step_of_pending_cons h

/-- Settles O4: nothing is stored, queued or recorded before VDD_AON. -/
theorem resetIsSound : Obligations.ResetIsSound := State.sound_iff.mpr ⟨⟨⟨rfl, rfl⟩, rfl⟩, rfl⟩

/-- Settles O5: taking the front command leaves memories and bounded queues alone, and every step is steady. -/
theorem stepKeepsSoundness : Obligations.StepKeepsSoundness := fun _ _ hs h => (step_steady h).sound hs

/-- Settles O7. -/
theorem stepConsumesOneCommand : Obligations.StepConsumesOneCommand := fun _ _ h =>
  have hsteady := step_steady h
  ⟨hsteady.pending, hsteady.clk, hsteady.out⟩

end

end

section
/-! PROOFS. The roles of the opcodes, and what a refused host command leaves (O11, O12). -/

-- The package is checked as one text; elaborating these proofs in order keeps the number of threads small.
set_option Elab.async false

namespace Sys2Proof.Machine

/-- Every opcode row that `commandOf` names takes the course of Table 3.3, with its own checks and its own effect. -/
theorem exec_of_commandOf {i : Instr} {op : Op} {own : Refuse} {t : Nat} {c : HostCmd}
    (h : commandOf i = some (op, own, t, c)) (s : State) :
    ∃ eff : Effect, exec i s = .next (runCommand op own eff t c s) := by
  cases i <;> cases h <;> exact ⟨_, rfl⟩

theorem runCommand_of_refusal {op : Op} {own : Refuse} {t : Nat} {c : HostCmd} {s : State} {r : Status × List Byte}
    (eff : Effect) (hserves : hostServes (advance t s) = true) (hnamed : c.named = false)
    (hr : refusal op own (begun op t c s) c = some r) :
    runCommand op own eff t c s = refuseWith op c r (begun op t c s) := by
  rw [begun] at hr
  simp [runCommand, begun, hserves, hnamed, hr]

theorem roles_anonymous (op : Op) :
    (opInfo op).roles.contains .anonymous = (op == .identify || op == .status || op == .echo) := by
  cases op <;> rfl

end Sys2Proof.Machine

section
open Sys2Proof Sys2Proof.Machine

/-- Settles O11: a refusal ends the common course of the opcode rows before their effect. -/
theorem refusedCommandsHaveNoEffect : Obligations.RefusedCommandsHaveNoEffect := by
  intro i op own t c s st ps hi hserves hnamed hr
  obtain ⟨eff, hexec⟩ := exec_of_commandOf hi s
  rw [runCommand_of_refusal eff hserves hnamed hr] at hexec
  exact ⟨_, hexec, rfl, refuseWith_moves op c (st, ps) (begun_moves op t c (.refl replyParts s))⟩

/-- Settles O12: the first part opcode by opcode, the second by the definition of step 13. -/
theorem rolesOfTheOpcodes : Obligations.RolesOfTheOpcodes := ⟨roles_anonymous, fun _ _ => rfl⟩

end

end

section
/-! PROOFS. The checks of Table 3.3 on a datagram, and the timeout of a reassembly (O16). -/

-- The package is checked as one text; elaborating these proofs in order keeps the number of threads small.
set_option Elab.async false

namespace Sys2Proof.Machine

/-! What the discards and refusals of Table 3.3 count. -/

@[simp] theorem hostCount_host (i : Nat) (s : State) :
    (hostCount i s).host = { s.host with cnt := bump s.host.cnt i } := rfl

theorem discardAt_host (step i : Nat) (d : Datagram) (h : Header) (s : State) :
    (discardAt step i d h s).host = { s.host with cnt := bump s.host.cnt i } := by
  unfold discardAt
  split <;> simp [raiseViolation]

theorem discardAt_own (step i : Nat) (d : Datagram) (h : Header) (s : State) :
    Moves [.flash, .host, .evt] s (discardAt step i d h s) := discardAt_moves _ _ _ _ (.refl _ s)

theorem replyPort_congr {s x : State} (h : x.eth = s.eth) (p : Nat) : replyPort x p = replyPort s p := by
  unfold replyPort pReply ethPort
  rw [h]

theorem refillUntagged_credit {n : Nat} {s : State} (hn : n ≤ 320000000) (h : n ≤ s.host.credit) :
    n ≤ (refillUntagged s).host.credit := Nat.le_min.mpr ⟨hn, Nat.le_add_right_of_le h⟩

/-- For any credit `n`: the kernel would compute with the large literals of the credit that a reply costs. -/
theorem setCredit_cnt (n : Nat) (s : State) :
    ({ s with host := { s.host with credit := n } } : State).host.cnt = s.host.cnt := rfl

/-- A reply that a port carries and that the untagged limit lets pass counts nothing. -/
theorem sendReply_cnt {key : Option (List Byte)} {c : HostCmd} {s : State} (n : Nat) (st : Status) (ps : List Byte)
    (hport : (replyPort s c.port).isSome = true) (hpaid : key.isSome = true ∨ 5000000 ≤ s.host.credit) :
    (sendReply key n c st ps s).host.cnt = s.host.cnt := by
  obtain ⟨p, hp⟩ := Option.isSome_iff_exists.mp hport
  have hrefilled : replyPort (refillUntagged s) c.port = some p := hp
  have hcarried : ¬(key.isNone && decide ((refillUntagged s).host.credit < 5000000)) = true := by
    rcases hpaid with h | h
    · simp [Option.isNone_eq_false_iff.mpr h]
    · simp [Nat.not_lt.mpr (refillUntagged_credit (by omega) h)]
  simp only [sendReply, hrefilled, if_neg hcarried, (emits_host _ _ _).1]
  split
  · exact setCredit_cnt ..
  · rfl

/-- A datagram refused with a reply that leaves is recorded and counted once; nothing else comes of it. -/
theorem violationReply_counts {key : Option (List Byte)} {c : HostCmd} {s : State} (n : Nat) (st : Status)
    (code step status i : Nat) (d : Datagram) (h : Header) (hport : (replyPort s c.port).isSome = true)
    (hpaid : key.isSome = true ∨ 5000000 ≤ s.host.credit) :
    let u := sendReply key n c st [] (hostCount i (raiseViolation code step status d h s))
    Moves [.flash, .host, .evt, .out] s u ∧ u.host.cnt = bump s.host.cnt i ∧ u.host.queue = s.host.queue := by
  have hown : Moves [.flash, .host, .evt, .out] s (hostCount i (raiseViolation code step status d h s)) :=
    hostCount_moves _ (raiseViolation_moves _ _ _ _ _ (.refl _ s))
  have hhost : (hostCount i (raiseViolation code step status d h s)).host =
      { s.host with cnt := bump s.host.cnt i } := by simp [raiseViolation]
  refine ⟨sendReply_moves _ _ _ _ _ hown, ?_, ?_⟩
  · rw [sendReply_cnt n st [] (by rwa [replyPort_congr (hown.same .eth rfl)]) (by rwa [hhost]), hhost]
  · rw [sendReply_alike, hhost]

/-! The order of the checks. -/

theorem execCommandDatagram_reached {t : Nat} {d : Datagram} {s : State}
    (h : hostReachable d (advance t s) = true) :
    exec (.commandDatagram t d) s = .next (judgeDatagram d (advance t s)) := congrArg Host.Outcome.next (if_pos h)

theorem judgeDatagram_of_early {d : Datagram} {s : State} {f : State → State}
    (h : earlyCheck d (readHeader d.payload) s = some f) : judgeDatagram d s = f s := by
  simp only [judgeDatagram, h]

theorem judgeDatagram_of_unauthentic {d : Datagram} {s : State}
    (hearly : (earlyCheck d (readHeader d.payload) s).isNone = true)
    (hauth : authCheck d (readHeader d.payload) s = none) :
    judgeDatagram d s = refuseAt 9 8 0x0021 .badAuth d (readHeader d.payload) s := by
  simp only [judgeDatagram, Option.isNone_iff_eq_none.mp hearly, hauth]

theorem judgeDatagram_of_authentic {d : Datagram} {s : State} {r : Role} {k : List Byte}
    (hearly : (earlyCheck d (readHeader d.payload) s).isNone = true)
    (hauth : authCheck d (readHeader d.payload) s = some (r, k)) :
    judgeDatagram d s =
      sequenceCheck d (readHeader d.payload) (headerCmd d (readHeader d.payload) r k) s := by
  simp only [judgeDatagram, Option.isNone_iff_eq_none.mp hearly, hauth]

theorem earlyCheck_of_short {d : Datagram} (h : Header) (s : State)
    (hd : d.payload.length < 24 ∨ d.ipFragment = true) : earlyCheck d h s = some (discardAt 1 1 d h) :=
  if_pos (by simpa using hd)

theorem earlyCheck_of_unselected {d : Datagram} {h : Header} {s : State} (hlen : 24 ≤ d.payload.length)
    (hfrag : d.ipFragment = false) (hmagic : h.magic = 0x4C58) (hreply : bitOf h.flags 0 = false)
    (hsel : selects h s = false) : earlyCheck d h s = some (discardAt 4 4 d h) := by
  simp [earlyCheck, Nat.not_lt.mpr hlen, hfrag, hmagic, hreply, hsel]

theorem sequenceCheck_of_replayed {d : Datagram} {h : Header} {s : State} (c : HostCmd) (hid : h.session ≠ 0)
    (hold : h.seq = 0 ∨ h.seq < lastSeq s h.session) :
    sequenceCheck d h c s = sendReply (replyKey c) h.opcode c .seqReplay []
      (hostCount 9 (raiseViolation 0x0022 10 Status.seqReplay.code d h s)) := by
  have hnew : ¬(h.seq ≠ 0 ∧ lastSeq s h.session < h.seq) := by omega
  have hlast : ¬(h.seq ≠ 0 ∧ h.seq = lastSeq s h.session) := by omega
  simp [sequenceCheck, hid, hnew, hlast]

theorem sequenceCheck_of_new {d : Datagram} {h : Header} {s : State} (c : HostCmd) (hid : h.session ≠ 0)
    (hnew : lastSeq s h.session < h.seq) : sequenceCheck d h c s = reassemble h c s := by
  have hseq : h.seq ≠ 0 := by omega
  simp [sequenceCheck, hid, hnew, hseq]

theorem reassemble_undivided {h : Header} {s : State} (c : HostCmd) (hreasm : s.host.reasm = []) (hcnt : h.cnt = 1) :
    reassemble h c s = commandArrived h.opcode c c.tag s := by
  simp [reassemble, hreasm, hcnt]

/-! Sessions and their sequences. -/

theorem sessionAuth_of_authCheck {d : Datagram} {h : Header} {s : State} {a : Role × List Byte}
    (hauth : authCheck d h s = some a) : (sessionAuth s h.session).isSome = true := by
  unfold authCheck at hauth
  split at hauth
  · cases hauth
  · rename_i hs
    rw [hs]
    rfl

theorem setLastSeq_own (id seq : Nat) (s : State) : Moves [.aon] s (setLastSeq id seq s) :=
  setLastSeq_moves id seq (.refl _ s)

theorem findSession_setLastSeq {id : Nat} (seq : Nat) (s : State) (h0 : id ≠ 0) (hF : id ≠ 0xFFFF) :
    findSession (setLastSeq id seq s) id = (findSession s id).map fun x => { x with lastSeq := seq } := by
  have hkeep (p : Nat × Session) : ((if p.2.id = id then { p.2 with lastSeq := seq } else p.2).id == id)
      = (p.2.id == id) := by
    split <;> rfl
  simp only [findSession, setLastSeq, if_neg h0, if_neg hF, onAon_aon, tmap, List.find?_map, Function.comp_def, hkeep]
  cases hx : s.aon.sessions.find? fun p => p.2.id == id with
  | none => rfl
  | some p =>
    have hid : p.2.id = id := by simpa using List.find?_some hx
    simp [hid]

theorem lastSeq_congr {s x : State} (h : x.aon = s.aon) (id : Nat) : lastSeq x id = lastSeq s id := by
  simp only [lastSeq, findSession, h]

/-- The last accepted sequence of a session that exists is what was stored. -/
theorem lastSeq_setLastSeq {id : Nat} (seq : Nat) {s : State} (h0 : id ≠ 0) (h : (sessionAuth s id).isSome = true) :
    lastSeq (setLastSeq id seq s) id = seq := by
  by_cases hF : id = 0xFFFF
  · simp [lastSeq, setLastSeq, hF]
  · obtain ⟨x, hx⟩ : ∃ x, findSession s id = some x := by
      simpa [sessionAuth, h0, hF, Option.isSome_iff_exists] using h
    simp [lastSeq, hF, findSession_setLastSeq seq s h0 hF, hx]

/-! A command whose fragments have all arrived. -/

theorem modeRefusal_congr {s x : State} (hmode : x.mode = s.mode) (hstart : x.start = s.start) (hpwr : x.pwr = s.pwr)
    (op : Op) (c : HostCmd) : modeRefusal op c x = modeRefusal op c s := by
  unfold modeRefusal inS1
  rw [hmode, hstart, hpwr]

theorem acceptComplete_of_passed {opcode : Nat} {op : Op} {c : HostCmd} {s : State} (hop : opOfCode opcode = some op)
    (hpair : paired s = false) (hrole : roleRefusal op c = none) (hmode : modeRefusal op c s = none)
    (hroom : s.host.queue.length < 256) :
    acceptComplete opcode c s = onHost (fun h => { h with queue := h.queue ++ [(op, c)] }) s := by
  have hfollows : follows s = false := by simp [follows, hpair]
  simp [acceptComplete, hop, hfollows, hrole, hmode, Nat.not_le.mpr hroom, onHost]

/-- A complete command that passes every check raises the last sequence and joins the end of the queue. -/
theorem commandArrived_queued {opcode : Nat} {op : Op} {c : HostCmd} {s : State} (tag : List Byte)
    (hid : c.session ≠ 0) (hop : opOfCode opcode = some op) (hpair : paired s = false)
    (hrole : roleRefusal op c = none) (hmode : modeRefusal op c s = none) (hroom : s.host.queue.length < 256) :
    let u := commandArrived opcode c tag s
    u.host.queue = s.host.queue ++ [(op, c)] ∧ u.aon = (setLastSeq c.session c.seq s).aon ∧ u.out = s.out
      ∧ u.host.cnt = s.host.cnt := by
  have hown := setLastSeq_own c.session c.seq s
  have hhost : (setLastSeq c.session c.seq s).host = s.host := hown.same .host rfl
  have hstart : (setLastSeq c.session c.seq s).start = s.start := hown.same .start rfl
  have hout : (setLastSeq c.session c.seq s).out = s.out := hown.same .out rfl
  dsimp only
  rw [commandArrived, if_neg hid, acceptComplete_of_passed hop]
  case hpair => simpa [paired, hstart] using hpair
  case hrole => exact hrole
  case hmode =>
    exact (modeRefusal_congr (s := s) (hown.same .mode rfl) hstart (hown.same .pwr rfl) op c).trans hmode
  case hroom => simpa [hhost] using hroom
  simp [hhost, hout]

/-! The timeout of a reassembly. -/

theorem execReassemblyTimeout_due {t n : Nat} {r : Reasm} {s : State}
    (hr : s.host.reasm.find? (fun r => r.session == n) = some r) (hdue : r.started + 500000000 ≤ max s.clock.clk t) :
    exec (.reassemblyTimeout t n) s = .next (hostCount 11 (onHost (fun h =>
      { h with reasm := h.reasm.filter (fun r => r.session != n) }) (advance t s))) := by
  have hfound : (advance t s).host.reasm.find? (fun r => r.session == n) = some r := hr
  have hany : (advance t s).host.reasm.any (fun r => r.session == n) = true :=
    List.any_eq_true.mpr ⟨r, List.mem_of_find?_eq_some hr, by simpa using List.find?_some hr⟩
  have hdue' : r.started + 500000000 ≤ (advance t s).clock.clk := hdue
  show execReassemblyTimeout t n s = _
  simp only [execReassemblyTimeout, hfound, if_pos hdue', abandonReasm, if_pos hany, onHost]

end Sys2Proof.Machine

section
open Sys2Proof Sys2Proof.Machine

/-- Settles O16, one case per outcome of the checks. -/
theorem datagramsAreChecked : Obligations.DatagramsAreChecked := by
  refine ⟨fun t d s hreach hshort => ?short, fun t d s hreach hlen hfrag hmagic hreply hsel => ?unselected,
    fun t d s hreach hearly hauth hport hcredit => ?unauthentic,
    fun t d s r k hreach hearly hauth hid hold hport => ?replayed,
    fun t d s r k op hreach hearly hauth hid hnew hcnt hreasm hop hpair hrole hmode hroom => ?queued,
    fun t n r s hr hdue => ?timeout⟩
  case short =>
    have hown := discardAt_own 1 1 d (readHeader d.payload) (advance t s)
    have hhost := discardAt_host 1 1 d (readHeader d.payload) (advance t s)
    rw [execCommandDatagram_reached hreach, judgeDatagram_of_early (earlyCheck_of_short _ _ hshort)]
    exact ⟨_, rfl, by rw [hhost]; rfl, by rw [hhost]; rfl, hown.same .out rfl, hown.same .aon rfl⟩
  case unselected =>
    have hown : Moves [.host] (advance t s) (discardAt 4 4 d (readHeader d.payload) (advance t s)) :=
      hostCount_moves 4 (.refl _ _)
    rw [execCommandDatagram_reached hreach,
      judgeDatagram_of_early (earlyCheck_of_unselected (s := advance t s) hlen hfrag hmagic hreply hsel)]
    exact ⟨_, rfl, rfl, rfl, hown.same .out rfl, hown.same .aon rfl, hown.same .evt rfl⟩
  case unauthentic =>
    obtain ⟨hown, hcnt, hqueue⟩ := violationReply_counts (s := advance t s)
      (c := headerCmd d (readHeader d.payload) .anonymous []) (readHeader d.payload).opcode .badAuth 0x0021 9
      Status.badAuth.code 8 d (readHeader d.payload) hport (.inr hcredit)
    rw [execCommandDatagram_reached hreach, judgeDatagram_of_unauthentic hearly hauth]
    exact ⟨_, rfl, hcnt, hqueue, hown.same .aon rfl, hown.same .red rfl⟩
  case replayed =>
    have hkey : (replyKey (headerCmd d (readHeader d.payload) r k)).isSome = true := by
      simp [replyKey, headerCmd, hid]
    rw [execCommandDatagram_reached hreach, judgeDatagram_of_authentic hearly hauth,
      sequenceCheck_of_replayed (s := advance t s) _ hid hold]
    obtain ⟨hown, hcnt, hqueue⟩ := violationReply_counts (s := advance t s)
      (c := headerCmd d (readHeader d.payload) r k) (readHeader d.payload).opcode .seqReplay 0x0022 10
      Status.seqReplay.code 9 d (readHeader d.payload) hport (.inl hkey)
    exact ⟨_, rfl, hcnt, hqueue, hown.same .aon rfl, hown.same .red rfl⟩
  case queued =>
    obtain ⟨hqueue, haon, hout, hcounts⟩ := commandArrived_queued (s := advance t s)
      (headerCmd d (readHeader d.payload) r k).tag hid hop hpair hrole hmode hroom
    rw [execCommandDatagram_reached hreach, judgeDatagram_of_authentic hearly hauth,
      sequenceCheck_of_new (s := advance t s) _ hid hnew, reassemble_undivided (s := advance t s) _ hreasm hcnt]
    have hseq := lastSeq_setLastSeq (s := advance t s) (readHeader d.payload).seq hid (sessionAuth_of_authCheck hauth)
    exact ⟨_, rfl, hqueue, (lastSeq_congr haon _).trans hseq, hout, hcounts⟩
  case timeout => exact ⟨_, execReassemblyTimeout_due hr hdue, rfl, rfl, rfl⟩

end

end

section
/-! PROOFS. The tables of lanes: what a read of a lane gives after a change, and what a lane's operations leave. -/

-- The package is checked as one text; elaborating these proofs in order keeps the number of threads small.
set_option Elab.async false

namespace Sys2Proof.Machine

/-! Reading a lane. -/

@[simp] theorem laneCount_clock (k i n : Nat) (s : State) : (laneCount k i n s).clock = s.clock := rfl

@[simp] theorem rxLane_modRx (k : Nat) (f : RxLane → RxLane) (s : State) :
    rxLane (modRx k f s) k = f (rxLane s k) := tget_tmod_same ..

@[simp] theorem txLane_modTx (k : Nat) (f : TxLane → TxLane) (s : State) :
    txLane (modTx k f s) k = f (txLane s k) := tget_tmod_same ..

theorem rxLane_modRx_other {j k : Nat} (h : j ≠ k) (f : RxLane → RxLane) (s : State) :
    rxLane (modRx k f s) j = rxLane s j := tget_tmod_other _ _ _ h.symm

theorem txLane_modTx_other {j k : Nat} (h : j ≠ k) (f : TxLane → TxLane) (s : State) :
    txLane (modTx k f s) j = txLane s j := tget_tmod_other _ _ _ h.symm

theorem rxLane_congr {s x : State} (h : x.lane.rx = s.lane.rx) (k : Nat) : rxLane x k = rxLane s k := by
  simp only [rxLane, h]

theorem txLane_congr {s x : State} (h : x.lane.tx = s.lane.tx) (k : Nat) : txLane x k = txLane s k := by
  simp only [txLane, h]

theorem lanesRun_congr {s x : State} (h : x.mode = s.mode) : lanesRun x = lanesRun s := by simp only [lanesRun, h]

/-! What a move leaves of the lanes. -/

/-- Of the lanes nothing but receive lane `k` changes, and what `p` reads of it stays. -/
structure RxMoves {α : Type} (p : RxLane → α) (k : Nat) (s u : State) : Prop where
  others : ∀ j, j ≠ k → rxLane u j = rxLane s j
  tx : u.lane.tx = s.lane.tx
  signals : u.lane.signals = s.lane.signals
  kept : p (rxLane u k) = p (rxLane s k)

/-- Of the lanes nothing but transmit lane `k` changes, and what `p` reads of it stays. -/
structure TxMoves {α : Type} (p : TxLane → α) (k : Nat) (s u : State) : Prop where
  others : ∀ j, j ≠ k → txLane u j = txLane s j
  rx : u.lane.rx = s.lane.rx
  signals : u.lane.signals = s.lane.signals
  kept : p (txLane u k) = p (txLane s k)

section
variable {α : Type} {p : RxLane → α} {q : TxLane → α} {k : Nat} {s x u : State}

theorem RxMoves.refl (p : RxLane → α) (k : Nat) (s : State) : RxMoves p k s s := ⟨fun _ _ => rfl, rfl, rfl, rfl⟩

theorem RxMoves.trans (h : RxMoves p k s x) (g : RxMoves p k x u) : RxMoves p k s u :=
  ⟨fun j hj => (g.others j hj).trans (h.others j hj), g.tx.trans h.tx, g.signals.trans h.signals,
    g.kept.trans h.kept⟩

theorem RxMoves.sameLanes (h : RxMoves p k s x) (hu : u.lane = x.lane) : RxMoves p k s u :=
  h.trans ⟨fun j _ => by rw [rxLane, hu, ← rxLane], by rw [hu], by rw [hu], by rw [rxLane, hu, ← rxLane]⟩

theorem RxMoves.modRx {f : RxLane → RxLane} (h : RxMoves p k s x)
    (hf : ∀ r, p (f r) = p r := by exact fun _ => rfl) :
    RxMoves p k s (modRx k f x) :=
  h.trans ⟨fun _ hj => rxLane_modRx_other hj f x, rfl, rfl, by rw [rxLane_modRx, hf]⟩

theorem RxMoves.ite {c : Prop} [Decidable c] {a b : State} (ha : RxMoves p k s a) (hb : RxMoves p k s b) :
    RxMoves p k s (if c then a else b) := by
  split
  · exact ha
  · exact hb

theorem TxMoves.refl (q : TxLane → α) (k : Nat) (s : State) : TxMoves q k s s := ⟨fun _ _ => rfl, rfl, rfl, rfl⟩

theorem TxMoves.trans (h : TxMoves q k s x) (g : TxMoves q k x u) : TxMoves q k s u :=
  ⟨fun j hj => (g.others j hj).trans (h.others j hj), g.rx.trans h.rx, g.signals.trans h.signals,
    g.kept.trans h.kept⟩

theorem TxMoves.modTx {f : TxLane → TxLane} (h : TxMoves q k s x)
    (hf : ∀ r, q (f r) = q r := by exact fun _ => rfl) :
    TxMoves q k s (modTx k f x) :=
  h.trans ⟨fun _ hj => txLane_modTx_other hj f x, rfl, rfl, by rw [txLane_modTx, hf]⟩

theorem TxMoves.ite {c : Prop} [Decidable c] {a b : State} (ha : TxMoves q k s a) (hb : TxMoves q k s b) :
    TxMoves q k s (if c then a else b) := by
  split
  · exact ha
  · exact hb

end

/-- The fields of LANE_RX_CFG (Table 4.5). -/
def RxLane.config (r : RxLane) : Bool × Bool × Nat × Bool × Nat :=
  (r.enable, r.auto, r.code, r.mapCheck, r.expectMap)

/-- The fields of LANE_TX_CFG that a write sets (Table 4.8). -/
def TxLane.config (x : TxLane) : Bool × Nat × Nat × Nat := (x.enable, x.swing, x.post, x.pre)

/-! Lock and its loss. -/

theorem laneStops_own (k : Nat) (s : State) : Moves [.flash, .evt, .flow] s (laneStops k s) :=
  laneStops_moves k (.refl _ s)

@[simp] theorem laneStops_lane (k : Nat) (s : State) : (laneStops k s).lane = s.lane :=
  (laneStops_own k s).same .lane rfl

@[simp] theorem laneStops_clock (k : Nat) (s : State) : (laneStops k s).clock = s.clock :=
  (laneStops_own k s).same .clock rfl

@[simp] theorem rxLane_laneStops (j k : Nat) (s : State) : rxLane (laneStops k s) j = rxLane s j :=
  rxLane_congr (congrArg Lanes.rx (laneStops_lane k s)) j

@[simp] theorem raiseLockLost_lane (k cause : Nat) (s : State) : (raiseLockLost k cause s).lane = s.lane :=
  raise_lane ..

@[simp] theorem rxLane_raiseLockLost (j k cause : Nat) (s : State) : rxLane (raiseLockLost k cause s) j = rxLane s j :=
  rxLane_congr (congrArg Lanes.rx (raiseLockLost_lane k cause s)) j

@[simp] theorem rxLane_laneCount (k i n : Nat) (s : State) :
    rxLane (laneCount k i n s) k = { rxLane s k with cnt := bumpBy (rxLane s k).cnt i n } := rxLane_modRx ..

/-- The counters of a lane after the loss of the locks that it holds (R127, R128). -/
def RxLane.lossCounts (r : RxLane) : Counters :=
  if r.state = .locked then bump (bump r.cnt 1) 3 else if r.state = .pennantHunt then bump r.cnt 1 else r.cnt

theorem RxLane.lossCounts_block {r : RxLane} (h : r.state = .pennantHunt ∨ r.state = .locked) :
    tget 0#32 r.lossCounts 1 = tget 0#32 r.cnt 1 + 1#32 := by
  obtain h | h := h
  · simp [lossCounts, h]
  · simp [lossCounts, h, bump_other]

/-- A lane that loses its lock starts its alignment again, and the locks that it held are counted (R119, R128). -/
@[simp] theorem rxLane_loseLock (k cause : Nat) (st : RxState) (always : Bool) (s : State) :
    rxLane (loseLock k cause st always s) k =
      { (rxLane s k).unlock st s.clock.clk with cnt := (rxLane s k).lossCounts } := by
  unfold loseLock RxLane.lossCounts
  by_cases hl : (rxLane s k).state = .locked
  · simp [hl, bump, RxLane.unlock]
  · by_cases hp : (rxLane s k).state = .pennantHunt
    · simp [hp, bump, RxLane.unlock]
    · cases always <;> simp [hl, hp, RxLane.unlock]

theorem RxMoves.loseLock {k : Nat} {s x : State} (h : RxMoves RxLane.config k s x) (cause : Nat) (st : RxState)
    (always : Bool) : RxMoves RxLane.config k s (loseLock k cause st always x) := by
  unfold Machine.loseLock
  dsimp only
  have hcount {y : State} (i n : Nat) (hy : RxMoves RxLane.config k s y) :
      RxMoves RxLane.config k s (laneCount k i n y) :=
    hy.modRx
  have hblock := RxMoves.ite (c := ((rxLane x k).state == .pennantHunt || (rxLane x k).state == .locked) = true)
    (hcount 1 1 h) h
  have hpennant := RxMoves.ite (c := (rxLane x k).state = .locked) (hcount 3 1 hblock) hblock
  have hstops := RxMoves.ite (c := (rxLane x k).state = .locked) (hpennant.sameLanes (laneStops_lane k _)) hpennant
  have hunlock (now : Nat) := hstops.modRx (f := (·.unlock st now))
  exact .ite ((hunlock _).sameLanes (raiseLockLost_lane ..)) (hunlock _)

theorem RxMoves.startReceive {k : Nat} {s x : State} (h : RxMoves RxLane.config k s x) :
    RxMoves RxLane.config k s (startReceive k x) :=
  .ite h.modRx (h.modRx fun r => by dsimp only; split <;> rfl)

/-! A write of LANE_RX_CFG or of LANE_TX_CFG. -/

@[simp] theorem raiseMismatch_lane (k state received : Nat) (s : State) :
    (raiseMismatch k state received s).lane = s.lane := raise_lane ..

theorem RxMoves.clearMismatch {k : Nat} {s x : State} (h : RxMoves RxLane.config k s x) :
    RxMoves RxLane.config k s (clearMismatch k x) :=
  .ite (h.modRx.sameLanes (raiseMismatch_lane ..)) h

/-- A receive lane with the fields of a written LANE_RX_CFG (Table 4.5). -/
def RxLane.configured (v : Nat) (r : RxLane) : RxLane :=
  { r with enable := v.testBit 0, auto := v.testBit 1, code := bitsOf v 6 2, mapCheck := v.testBit 7
           expectMap := bitsOf v 31 16 }

/-- A write of LANE_RX_CFG sets its fields; what the lane then does leaves them. -/
theorem writeRxCfg_moves_configured (k v : Nat) (s : State) :
    RxMoves RxLane.config k (modRx k (·.configured v) s) (writeRxCfg k v s) := by
  unfold writeRxCfg
  dsimp only
  have hset := RxMoves.refl RxLane.config k (modRx k (·.configured v) s)
  have hcode {x : State} (h : RxMoves RxLane.config k (modRx k (·.configured v) s) x) :
      RxMoves RxLane.config k (modRx k (·.configured v) s) (modRx k (fun r => { r with ctleNow := r.code }) x) :=
    h.modRx
  have hclear := RxMoves.ite (c := (v.testBit 7 && bitsOf v 31 16 != 0) = true) hset hset.clearMismatch
  refine .ite hclear (.ite (.ite (hclear.loseLock ..) hclear) (.ite (.ite hclear (hcode hclear)) (.ite
    hclear.startReceive (.ite (.ite (hclear.loseLock ..).startReceive hclear) ?_))))
  exact .ite (hcode hclear).startReceive (hcode hclear)

theorem writeRxCfg_others (k v : Nat) (s : State) {j : Nat} (hj : j ≠ k) :
    rxLane (writeRxCfg k v s) j = rxLane s j :=
  ((writeRxCfg_moves_configured k v s).others j hj).trans (rxLane_modRx_other hj _ s)

@[simp] theorem writeRxCfg_tx (k v : Nat) (s : State) : (writeRxCfg k v s).lane.tx = s.lane.tx :=
  (writeRxCfg_moves_configured k v s).tx

theorem writeRxCfg_config (k v : Nat) (s : State) :
    (rxLane (writeRxCfg k v s) k).config = ((rxLane s k).configured v).config :=
  (writeRxCfg_moves_configured k v s).kept.trans (congrArg RxLane.config (rxLane_modRx ..))

theorem RxLane.config_eq_configured {r x : RxLane} {v : Nat} (h : r.config = (x.configured v).config) :
    r.enable = v.testBit 0 ∧ r.auto = v.testBit 1 ∧ r.code = bitsOf v 6 2 ∧ r.mapCheck = v.testBit 7
      ∧ r.expectMap = bitsOf v 31 16 := by
  simpa [config, configured] using h

/-- A running lane that a write disables is DISABLED (R145). -/
theorem writeRxCfg_disables {k v : Nat} {s : State} (hrun : lanesRun s = true) (hon : (rxLane s k).enable = true)
    (hoff : v.testBit 0 = false) : (rxLane (writeRxCfg k v s) k).state = .disabled := by
  have hrun' (x : State) (hx : Moves [.flash, .evt, .lane] s x) : lanesRun x = true :=
    (lanesRun_congr (hx.same .mode rfl)).trans hrun
  unfold writeRxCfg
  dsimp only
  rw [hrun' _ ?_]
  · simp [hoff, hon, RxLane.unlock]
  · have hset : Moves [.flash, .evt, .lane] s (modRx k (·.configured v) s) := modRx_moves _ _ (.refl _ s)
    exact .ite hset (clearMismatch_moves _ hset)

/-- A transmit lane with the fields of a written LANE_TX_CFG (Table 4.8). -/
def TxLane.configured (v : Nat) (x : TxLane) : TxLane :=
  { x with enable := v.testBit 0, swing := bitsOf v 3 1, post := bitsOf v 7 4, pre := bitsOf v 10 8 }

theorem TxMoves.reseed {α : Type} {q : TxLane → α} {k : Nat} {s x : State} (h : TxMoves q k s x)
    (hq : ∀ r n, q { r with seed := n } = q r) : TxMoves q k s (reseed k x) := h.modTx fun _ => hq ..

/-- A write of LANE_TX_CFG sets its fields; a scrambler that is loaded anew leaves them. -/
theorem writeTxCfg_moves_configured (k v : Nat) (s : State) :
    TxMoves TxLane.config k (modTx k (·.configured v) s) (writeTxCfg k v s) :=
  have hset := TxMoves.refl TxLane.config k (modTx k (·.configured v) s)
  .ite (hset.reseed fun _ _ => rfl) hset

theorem writeTxCfg_others (k v : Nat) (s : State) {j : Nat} (hj : j ≠ k) :
    txLane (writeTxCfg k v s) j = txLane s j :=
  ((writeTxCfg_moves_configured k v s).others j hj).trans (txLane_modTx_other hj _ s)

@[simp] theorem writeTxCfg_rx (k v : Nat) (s : State) : (writeTxCfg k v s).lane.rx = s.lane.rx :=
  (writeTxCfg_moves_configured k v s).rx

theorem writeTxCfg_config (k v : Nat) (s : State) :
    (txLane (writeTxCfg k v s) k).config = ((txLane s k).configured v).config :=
  (writeTxCfg_moves_configured k v s).kept.trans (congrArg TxLane.config (txLane_modTx ..))

theorem TxLane.config_eq_configured {r x : TxLane} {v : Nat} (h : r.config = (x.configured v).config) :
    r.enable = v.testBit 0 ∧ r.swing = bitsOf v 3 1 ∧ r.post = bitsOf v 7 4 ∧ r.pre = bitsOf v 10 8 := by
  simpa [config, configured] using h

@[simp] theorem rxLane_writeTxCfg (j k v : Nat) (s : State) : rxLane (writeTxCfg k v s) j = rxLane s j :=
  rxLane_congr (writeTxCfg_rx k v s) j

@[simp] theorem txLane_writeRxCfg (j k v : Nat) (s : State) : txLane (writeRxCfg k v s) j = txLane s j :=
  txLane_congr (writeRxCfg_tx k v s) j

@[simp] theorem rxLane_writeTxTag (j k v : Nat) (s : State) : rxLane (writeTxTag k v s) j = rxLane s j := rfl

@[simp] theorem txLane_writeTxTag (k v : Nat) (s : State) :
    txLane (writeTxTag k v s) k = { txLane s k with tag := v } := txLane_modTx ..

theorem txLane_writeTxTag_other {j k : Nat} (h : j ≠ k) (v : Nat) (s : State) :
    txLane (writeTxTag k v s) j = txLane s j := txLane_modTx_other h ..

end Sys2Proof.Machine
end

section
/-! PROOFS. The commands of Table 4.4, ERROR_INJECTION, and the writes of the lane configuration (O20). -/

-- The package is checked as one text; elaborating these proofs in order keeps the number of threads small.
set_option Elab.async false

namespace Sys2Proof.Machine

@[simp] theorem rxLane_answered (op : Op) (c : HostCmd) (st : Status) (ps : List Byte) (s : State) (k : Nat) :
    rxLane (answered op c st ps s) k = rxLane s k := rxLane_congr (congrArg Lanes.rx (answered_lane ..)) k

@[simp] theorem txLane_answered (op : Op) (c : HostCmd) (st : Status) (ps : List Byte) (s : State) (k : Nat) :
    txLane (answered op c st ps s) k = txLane s k := txLane_congr (congrArg Lanes.tx (answered_lane ..)) k

@[simp] theorem raiseTest_lane (k fn st : Nat) (s : State) : (raiseTest k fn st s).lane = s.lane := raise_lane ..

@[simp] theorem rxLane_raiseTest (j k fn st : Nat) (s : State) : rxLane (raiseTest k fn st s) j = rxLane s j :=
  rxLane_congr (congrArg Lanes.rx (raiseTest_lane k fn st s)) j

@[simp] theorem txLane_raiseTest (j k fn st : Nat) (s : State) : txLane (raiseTest k fn st s) j = txLane s j :=
  txLane_congr (congrArg Lanes.tx (raiseTest_lane k fn st s)) j

@[simp] theorem raiseTest_out (k fn st : Nat) (s : State) : (raiseTest k fn st s).out = s.out := raise_out ..

@[simp] theorem modTx_out (k : Nat) (f : TxLane → TxLane) (s : State) : (modTx k f s).out = s.out := rfl

@[simp] theorem txLane_emit (o : Out) (s : State) (k : Nat) : txLane (emit o s) k = txLane s k := rfl

@[simp] theorem rxLane_advance (t : Nat) (s : State) (k : Nat) : rxLane (advance t s) k = rxLane s k := rfl

@[simp] theorem txLane_advance (t : Nat) (s : State) (k : Nat) : txLane (advance t s) k = txLane s k := rfl

@[simp] theorem modRx_tx (k : Nat) (f : RxLane → RxLane) (s : State) : (modRx k f s).lane.tx = s.lane.tx := rfl

@[simp] theorem modTx_rx (k : Nat) (f : TxLane → TxLane) (s : State) : (modTx k f s).lane.rx = s.lane.rx := rfl

@[simp] theorem rxLane_modTx (j k : Nat) (f : TxLane → TxLane) (s : State) : rxLane (modTx k f s) j = rxLane s j :=
  rfl

@[simp] theorem loseLock_tx (k cause : Nat) (st : RxState) (always : Bool) (s : State) :
    (loseLock k cause st always s).lane.tx = s.lane.tx := ((RxMoves.refl RxLane.config k s).loseLock cause st always).tx

@[simp] theorem endRxTest_tx (k : Nat) (s : State) : (endRxTest k s).lane.tx = s.lane.tx := by
  unfold endRxTest
  dsimp only
  repeat' split
  all_goals simp

@[simp] theorem txLane_endRxTest (j k : Nat) (s : State) : txLane (endRxTest k s) j = txLane s j :=
  txLane_congr (endRxTest_tx k s) j

@[simp] theorem txLane_reseed (k : Nat) (s : State) :
    txLane (reseed k s) k = { txLane s k with seed := scramblerSeed s k } := txLane_modTx ..

theorem execLaneConfig_answered {t : Nat} {c : HostCmd} {s : State}
    (h : accepted .laneConfig refuseLaneConfig t c s = true) :
    exec (.laneConfig t c) s = .next (answered .laneConfig c .ok [] (effLaneConfig (begun .laneConfig t c s) c).1) :=
  congrArg _ (runCommand_answered h rfl)

theorem execLanePrbs_answered {t : Nat} {c : HostCmd} {s : State} (h : accepted .lanePrbs refuseLanePrbs t c s = true) :
    exec (.lanePrbs t c) s = .next (answered .lanePrbs c .ok [] (effLanePrbs (begun .lanePrbs t c s) c).1) :=
  congrArg _ (runCommand_answered h rfl)

theorem execLaneLoop_answered {t : Nat} {c : HostCmd} {s : State} (h : accepted .laneLoop refuseLaneLoop t c s = true) :
    exec (.laneLoop t c) s = .next (answered .laneLoop c .ok [] (effLaneLoop (begun .laneLoop t c s) c).1) :=
  congrArg _ (runCommand_answered h rfl)

theorem execLaneErrInject_answered {t : Nat} {c : HostCmd} {s : State}
    (h : accepted .laneErrInject refuseLaneErrInject t c s = true) :
    exec (.laneErrInject t c) s = .next
      (answered .laneErrInject c .scheduled [] (effLaneErrInject (begun .laneErrInject t c s) c).1) :=
  congrArg _ (runCommand_answered h rfl)

/-- LANE_CONFIG writes LANE_RX_CFG, LANE_TX_CFG and LANE_TX_TAG in turn, each where it is selected (R148). -/
theorem effLaneConfig_selected (c : HostCmd) (s : State) :
    let k := u8 c.params 0
    let u := (effLaneConfig s c).1
    ((u8 c.params 1).testBit 0 = true → (rxLane u k).config = ((rxLane s k).configured (u32 c.params 4)).config)
      ∧ ((u8 c.params 1).testBit 1 = true →
        (txLane u k).config = ((txLane s k).configured (u32 c.params 8)).config)
      ∧ ((u8 c.params 1).testBit 2 = true → (txLane u k).tag = u32 c.params 12)
      ∧ (∀ j, j ≠ k → rxLane u j = rxLane s j ∧ txLane u j = txLane s j) := by
  simp only [effLaneConfig]
  refine ⟨fun h0 => ?rx, fun h1 => ?tx, fun h2 => ?tag, fun j hj => ⟨?otherRx, ?otherTx⟩⟩
  case rx =>
    rw [if_pos h0, ← writeRxCfg_config]
    split <;> split <;> simp
  case tx =>
    simp only [if_pos h1]
    split
    · rw [txLane_writeTxTag]
      exact writeTxCfg_config _ _ _
    · exact writeTxCfg_config _ _ _
  case tag => simp [h2]
  case otherRx => simp [apply_ite (rxLane · j), writeRxCfg_others _ _ _ hj]
  case otherTx => simp [apply_ite (txLane · j), writeTxCfg_others _ _ _ hj, txLane_writeTxTag_other hj]

/-- LANE_PRBS with a pattern starts the checker and the generator that it names (R140). -/
theorem effLanePrbs_starts {c : HostCmd} (s : State) (hp : u8 c.params 2 ≠ 0) :
    let k := u8 c.params 0
    let u := (effLanePrbs s c).1
    (bitOf (u8 c.params 1) 0 = true → (rxLane u k).checker = u8 c.params 2 ∧ (rxLane u k).state = .test
        ∧ (rxLane u k).prbsSync = false)
      ∧ (bitOf (u8 c.params 1) 1 = true → (txLane u k).gen = u8 c.params 2) := by
  simp only [effLanePrbs, if_neg hp, startChecker]
  constructor
  · intro h
    simp only [if_pos h]
    split <;> simp [RxLane.unlock]
  · intro h
    simp [h]

/-- Stopping the loops of a lane clears both (R143). -/
theorem stopLoops_clears (k : Nat) (s : State) :
    (txLane (stopLoops k s) k).near = false ∧ (txLane (stopLoops k s) k).far = false := by
  by_cases hnear : (txLane s k).near = true <;> by_cases hfar : (txLane s k).far = true <;>
    simp [stopLoops, hnear, hfar]

/-- LANE_LOOP leaves the loop that it names set, and both clear when it names none (R141). -/
theorem effLaneLoop_sets (c : HostCmd) (s : State) :
    let x := txLane (effLaneLoop s c).1 (u8 c.params 0)
    (u8 c.params 1 = 0 → x.near = false ∧ x.far = false) ∧ (u8 c.params 1 = 1 → x.near = true)
      ∧ (u8 c.params 1 = 2 → x.far = true) := by
  refine ⟨fun h => ?_, fun h => ?_, fun h => ?_⟩
  · simpa [effLaneLoop, h] using stopLoops_clears ..
  · by_cases hn : (txLane s (u8 c.params 0)).near = true <;> simp [effLaneLoop, h, hn]
  · by_cases hf : (txLane s (u8 c.params 0)).far = true <;> simp [effLaneLoop, h, hf]

/-- The injection in hand after one of its errors: the function ends with the last one (R142). -/
def Injection.next? (j : Injection) : Option Injection :=
  if j.left ≤ 1 then none else some { j with left := j.left - 1, next := j.next + blocksNs j.interval }

/-- A due injection is put out and counts down (R142). -/
theorem execErrorInjection_due {t k : Nat} {j : Injection} {s : State} (hk : k ≤ 131)
    (hj : (txLane s k).inject = some j) (hdue : j.next ≤ max s.clock.clk t) :
    ∃ u, exec (.errorInjection t k) s = .next u ∧ u.out = .injected (max s.clock.clk t) k j.target :: s.out
      ∧ (txLane u k).inject = j.next? ∧ (txLane u k).badCrc = ((txLane s k).badCrc || j.target == 2)
      ∧ u.lane.rx = s.lane.rx := by
  have hput : exec (.errorInjection t k) s = .next
      (let x := modTx k (fun x => { x with badCrc := x.badCrc || j.target == 2, inject := j.next? })
        (emit (.injected (max s.clock.clk t) k j.target) (advance t s))
      if j.left ≤ 1 then raiseTest k 3 0 x else x) := by
    show execErrorInjection t k s = _
    have hj' : (txLane (advance t s) k).inject = some j := hj
    simp only [execErrorInjection, hj', advance_clk, Nat.not_lt.mpr hk, Nat.not_lt.mpr hdue, if_false]
    rfl
  refine ⟨_, hput, ?_⟩
  dsimp only
  split <;> simp

end Sys2Proof.Machine

section
open Sys2Proof Sys2Proof.Machine

/-- Settles O20, one case per command and write. -/
theorem laneCommandsTakeEffect : Obligations.LaneCommandsTakeEffect := by
  refine ⟨fun t c s h => ?status, fun t c s h => ?counters, fun t c s h => ?config, fun t c s h hp => ?prbs,
    fun t c s h => ?loop, fun t c s h => ?inject, fun t k j s hk hj hdue => ?injection, fun t k v s hk => ?rxCfg,
    fun t k v s hk => ?txCfg⟩
  case status => exact congrArg _ (runCommand_answered h rfl)
  case counters => exact congrArg _ (runCommand_answered h rfl)
  case config =>
    obtain ⟨hrx, htx, htag, hothers⟩ := effLaneConfig_selected c (begun .laneConfig t c s)
    refine ⟨_, execLaneConfig_answered h, ?_⟩
    simp only [rxLane_answered, txLane_answered]
    refine ⟨fun h0 => ?_, fun h1 => ?_, htag, hothers⟩
    · obtain ⟨henable, -, hcode, -, -⟩ := RxLane.config_eq_configured (hrx h0)
      exact ⟨henable, hcode⟩
    · exact (TxLane.config_eq_configured (htx h1)).2.1
  case prbs =>
    refine ⟨_, execLanePrbs_answered h, ?_⟩
    simpa using effLanePrbs_starts (begun .lanePrbs t c s) hp
  case loop =>
    refine ⟨_, execLaneLoop_answered h, ?_⟩
    simpa using effLaneLoop_sets c (begun .laneLoop t c s)
  case inject =>
    exact ⟨_, _, execLaneErrInject_answered h, rfl, by simp [effLaneErrInject], by simp [effLaneErrInject]⟩
  case injection =>
    obtain ⟨u, hu, hout, hinject, hcrc, hrx⟩ := execErrorInjection_due hk hj hdue
    refine ⟨u, hu, hout, fun hlast => ?_, fun hmore => ?_, fun hcorrupt => ?_, hrx⟩
    · rw [hinject, Injection.next?, if_pos hlast]
    · rw [hinject, Injection.next?, if_neg (Nat.not_le.mpr hmore)]
    · simp [hcrc, hcorrupt]
  case rxCfg =>
    have hconfig := RxLane.config_eq_configured (writeRxCfg_config k v (advance t s))
    obtain ⟨henable, hauto, hcode, hcheck, hexpect⟩ := hconfig
    exact ⟨_, if_neg (Nat.not_lt.mpr hk), henable, hauto, hcode, hcheck, hexpect,
      writeRxCfg_disables (s := advance t s),
      fun j hj => writeRxCfg_others k v _ hj, writeRxCfg_tx ..⟩
  case txCfg =>
    obtain ⟨henable, hswing, hpost, hpre⟩ := TxLane.config_eq_configured (writeTxCfg_config k v (advance t s))
    exact ⟨_, if_neg (Nat.not_lt.mpr hk), henable, hswing, hpost, hpre, fun j hj => writeTxCfg_others k v _ hj,
      writeTxCfg_rx ..⟩

end

end

section
/-! PROOFS. The events of a receive lane: signal, adaptation, block lock and pennant lock (O21). -/

-- The package is checked as one text; elaborating these proofs in order keeps the number of threads small.
set_option Elab.async false

namespace Sys2Proof.Machine

/-! The signal and the adaptation. -/

/-- The pins of a receive lane have lost their signal. -/
def signalGone (k : Nat) (s : State) : State :=
  onLane (fun l => { l with signals := l.signals.filter (fun x => x != k) }) s

/-- The pins of a receive lane carry a signal again. -/
def signalBack (k : Nat) (s : State) : State :=
  onLane (fun l => { l with signals := k :: l.signals.filter (fun x => x != k) }) s

theorem hasSignal_congr {s x : State} (h : x.lane.signals = s.lane.signals) (k : Nat) :
    hasSignal x k = hasSignal s k := by
  simp only [hasSignal, h]

@[simp] theorem hasSignal_signalGone (k : Nat) (s : State) : hasSignal (signalGone k s) k = false := by
  simp [hasSignal, signalGone]

@[simp] theorem hasSignal_signalBack (k : Nat) (s : State) : hasSignal (signalBack k s) k = true := by
  simp [hasSignal, signalBack]

@[simp] theorem signalGone_clock (k : Nat) (s : State) : (signalGone k s).clock = s.clock := rfl

/-- A lane without a signal waits for one, and notes since when (R122). -/
def waitSignal (k : Nat) (s : State) : State :=
  modRx k (fun r => { r with lostAt := s.clock.clk }) (loseLock k 0 .noSignal false (laneCount k 6 1 s))

theorem waitSignal_moves (k : Nat) (s : State) : RxMoves RxLane.config k s (waitSignal k s) :=
  ((RxMoves.refl RxLane.config k s).modRx.loseLock ..).modRx

theorem execLaneSignalLost_running {t k : Nat} {s : State} (hk : k ≤ 131) (hrun : lanesRun s = true)
    (hon : (rxLane s k).enable = true) (hnear : (txLane s k).near = false) (hsignal : (rxLane s k).state ≠ .noSignal)
    (henabled : (rxLane s k).state ≠ .disabled) (htest : (rxLane s k).state ≠ .test) :
    exec (.laneSignalLost t k) s = .next (waitSignal k (signalGone k (advance t s))) := by
  have hrun' : lanesRun (signalGone k (advance t s)) = true := hrun
  have hnear' : (txLane (signalGone k (advance t s)) k).near = false := hnear
  refine (if_neg (Nat.not_lt.mpr hk)).trans (congrArg _ ((if_neg ?_).trans (if_neg htest)))
  change ¬(!lanesRun (signalGone k (advance t s)) || !(rxLane s k).enable || (rxLane s k).state = .noSignal
    || (rxLane s k).state = .disabled || (txLane (signalGone k (advance t s)) k).near) = true
  simp [hrun', hon, hsignal, henabled, hnear']

/-- After a loss of more than 1 ms a lane with CTLE_AUTO sweeps, any other hunts (R122). -/
def resumeReceive (k : Nat) (s : State) : State :=
  if (rxLane s k).auto && decide ((rxLane s k).lostAt + 1000000 < s.clock.clk) then
    modRx k (fun r => { r.unlock .sweep s.clock.clk with sweepAt := s.clock.clk }) s
  else modRx k (fun r => { r.unlock .blockHunt s.clock.clk with ctleNow := if r.auto then r.ctleNow else r.code }) s

theorem resumeReceive_moves (k : Nat) (s : State) : RxMoves RxLane.config k s (resumeReceive k s) :=
  .ite (RxMoves.refl _ k s).modRx (RxMoves.refl _ k s).modRx

theorem resumeReceive_state (k : Nat) (s : State) : (rxLane (resumeReceive k s) k).state =
    if (rxLane s k).auto = true ∧ (rxLane s k).lostAt + 1000000 < s.clock.clk then .sweep else .blockHunt := by
  unfold resumeReceive
  split <;> simp_all [RxLane.unlock]

theorem execLaneSignalReturn_waiting {t k : Nat} {s : State} (hk : k ≤ 131) (hrun : lanesRun s = true)
    (hwaits : (rxLane s k).state = .noSignal) :
    exec (.laneSignalReturn t k) s = .next (resumeReceive k (signalBack k (advance t s))) := by
  have hrun' : lanesRun (signalBack k (advance t s)) = true := hrun
  refine (if_neg (Nat.not_lt.mpr hk)).trans (congrArg _ (if_neg ?_))
  change ¬(!lanesRun (signalBack k (advance t s)) || decide ((rxLane s k).state ≠ .noSignal)) = true
  simp [hrun', hwaits]

theorem execCtleSweepDone_due {t k : Nat} (eyes : List Nat) {s : State} (hk : k ≤ 131)
    (hsweep : (rxLane s k).state = .sweep) (hdue : (rxLane s k).sweepAt + 3200000 ≤ max s.clock.clk t) :
    exec (.ctleSweepDone t k eyes) s = .next
      (modRx k (fun r => { r.unlock .blockHunt (max s.clock.clk t) with ctleNow := bestEye eyes }) (advance t s)) := by
  refine (if_neg (Nat.not_lt.mpr hk)).trans (congrArg _ (if_pos ?_))
  simp [hsweep, hdue]

theorem trackedCode_le (now below here above : Nat) :
    trackedCode now below here above ≤ now + 1 ∧ now ≤ trackedCode now below here above + 1 := by
  unfold trackedCode
  dsimp only
  repeat' split
  all_goals omega

theorem execCtleTrack_tracking {t k : Nat} (b h a : Nat) {s : State} (hk : k ≤ 131)
    (hauto : (rxLane s k).auto = true) (hlocked : (rxLane s k).state = .locked) (hber : (rxLane s k).ber = false) :
    exec (.ctleTrack t k b h a) s = .next
      (modRx k (fun r => { r with ctleNow := trackedCode r.ctleNow b h a }) (advance t s)) := by
  refine (if_neg (Nat.not_lt.mpr hk)).trans (congrArg _ (if_pos ?_))
  simp [hauto, hlocked, hber]

/-! Block lock. -/

theorem noteEnsign_rx (s : State) : (noteEnsign s).lane.rx = s.lane.rx := by
  unfold noteEnsign
  dsimp only
  split <;> rfl

theorem setMode_rx (n : Nat) (dest : Mode) (cause : Nat) (s : State) :
    (setMode n dest cause s).lane.rx = s.lane.rx := by
  have h (x : State) : Moves [.pins, .start, .evt, .pwr, .out] x
      (setReady dest.ready (raiseModeChange n s.mode dest cause x)) :=
    setReady_moves _ (raiseModeChange_moves _ _ _ _ (.refl _ x))
  exact (noteEnsign_rx _).trans (congrArg Lanes.rx ((h _).same .lane rfl))

/-- Out of another mode than MAINTENANCE no test function ends, and the receive lanes stay as they are. -/
theorem transition_rx (n : Nat) {dest : Mode} (cause : Nat) {s : State} (hs : s.mode ≠ .maintenance)
    (hd : dest.mayLease = true) : (transition n dest cause s).lane.rx = s.lane.rx := by
  have hq : Moves [.flash, .host, .evt, .xpt, .cue, .red, .cmp, .aud, .out] s (transitionQueues n s) :=
    transitionQueues_moves n (.refl _ s)
  have ht := Moves.ite_of_mode_ne (a := stopTests (transitionQueues n s)) hq hs rfl
  have hb := Moves.ite (c := n = 12) (blockTrial_moves 4 ht) ht
  have happly : (applyTransition n dest cause s).lane.rx = s.lane.rx := by
    unfold applyTransition
    simp only [if_pos hd]
    exact (setMode_rx ..).trans (congrArg Lanes.rx (hb.same .lane rfl))
  exact (congrArg Lanes.rx ((transition_moves_applied n dest cause s).same .lane rfl)).trans happly

theorem modeDecision_rx (s : State) : (modeDecision s).lane.rx = s.lane.rx := by
  unfold modeDecision
  split
  · rename_i h
    have hs : s.mode ≠ .maintenance := by
      intro hm
      simp [hm] at h
    repeat' split
    · exact transition_rx _ _ hs rfl
    · exact transition_rx _ _ hs rfl
    · rfl
  · rfl

theorem calProgress_rx (s : State) : (calProgress s).lane.rx = s.lane.rx := by
  unfold calProgress
  split
  · refine (modeDecision_rx _).trans ?_
    split <;> rfl
  · rfl

/-- Block lock begins the pennant hunt; calibration, which it may complete, leaves the receive lanes (R119, R127). -/
@[simp] theorem rxLane_gainBlockLock (k : Nat) (s : State) : rxLane (gainBlockLock k s) k =
    { rxLane s k with
      state := .pennantHunt, winBlocks := 0, winBad := 0, berBad := 0, position := 0, runGood := 0, runBad := 0 } := by
  unfold gainBlockLock
  dsimp only
  split
  · rw [rxLane_congr (calProgress_rx _)]
    exact rxLane_modRx ..
  · exact rxLane_modRx ..

theorem execLaneBlockReceived_hunting {t k : Nat} (hd e : Nat) (bs : List Byte) {s : State} (hk : k ≤ 131)
    (hhunt : (rxLane s k).state = .blockHunt) :
    exec (.laneBlockReceived t k hd bs e) s = .next (huntBlock k (hd = 1 || hd = 2) (advance t s)) := by
  show execLaneBlockReceived t k hd bs e s = _
  simp only [execLaneBlockReceived, Nat.not_lt.mpr hk, if_false, rxLane_advance, hhunt]

theorem execBlockLockGained_hunting {t k : Nat} {s : State} (hk : k ≤ 131) (hhunt : (rxLane s k).state = .blockHunt) :
    exec (.blockLockGained t k) s = .next (gainBlockLock k (advance t s)) :=
  (if_neg (Nat.not_lt.mpr hk)).trans (congrArg _ (if_pos hhunt))

theorem blockLock_test {st : RxState} (h : st = .pennantHunt ∨ st = .locked) :
    (decide (st = .pennantHunt) || decide (st = .locked)) = true := by simpa using h

theorem execBlockLockLost_locked {t k : Nat} {s : State} (hk : k ≤ 131)
    (hlock : (rxLane s k).state = .pennantHunt ∨ (rxLane s k).state = .locked) :
    exec (.blockLockLost t k) s = .next (loseBlockLock k 1 (advance t s)) :=
  (if_neg (Nat.not_lt.mpr hk)).trans (congrArg _ (if_pos (blockLock_test hlock)))

theorem execRxFifoOverflow_locked {t k : Nat} {s : State} (hk : k ≤ 131)
    (hlock : (rxLane s k).state = .pennantHunt ∨ (rxLane s k).state = .locked) :
    exec (.rxFifoOverflow t k) s = .next (loseBlockLock k 3 (advance t s)) :=
  (if_neg (Nat.not_lt.mpr hk)).trans (congrArg _ (if_pos (blockLock_test hlock)))

/-- A lane that loses block lock hunts again, and the loss is counted in index 1 (R119). -/
theorem loseBlockLock_hunts {k : Nat} (cause : Nat) {s : State}
    (hlock : (rxLane s k).state = .pennantHunt ∨ (rxLane s k).state = .locked) :
    (rxLane (loseBlockLock k cause s) k).state = .blockHunt
      ∧ tget 0#32 (rxLane (loseBlockLock k cause s) k).cnt 1 = tget 0#32 (rxLane s k).cnt 1 + 1#32 := by
  rw [loseBlockLock, rxLane_loseLock]
  exact ⟨rfl, RxLane.lossCounts_block hlock⟩

@[simp] theorem rxLane_raiseBer (j k state : Nat) (s : State) : rxLane (raiseBer k state s) j = rxLane s j :=
  rxLane_congr (congrArg Lanes.rx (raise_lane ..)) j

/-- A lane whose interval ends with `n` invalid headers (R121). -/
def RxLane.intervalEnd (n : Nat) (r : RxLane) : RxLane :=
  { r with berBad := 0, recent := (n :: r.recent).take 8, ber := decide (16 ≤ n) }

/-- The invalid headers that no block itemised are counted, and the interval ends (R121). -/
def endInterval (k m n : Nat) (s : State) : State := modRx k (·.intervalEnd n) (laneCount k 0 m s)

@[simp] theorem rxLane_endInterval (k m n : Nat) (s : State) : rxLane (endInterval k m n s) k =
    { rxLane s k with cnt := bumpBy (rxLane s k).cnt 0 m }.intervalEnd n := by
  simp [endInterval]

/-- The interval's count sets or clears the BER alarm, and the next interval begins (R121). -/
theorem execBerInterval_judges {t k m : Nat} {s : State} (hk : k ≤ 131)
    (hlock : (rxLane s k).state = .pennantHunt ∨ (rxLane s k).state = .locked) :
    ∃ u, exec (.berInterval t k m) s = .next u ∧ (rxLane u k).ber = decide (16 ≤ (rxLane s k).berBad + m)
      ∧ (rxLane u k).berBad = 0 ∧ (rxLane u k).state = (rxLane s k).state := by
  generalize hn : (rxLane s k).berBad + m = n
  refine ⟨if 16 ≤ n && !(rxLane s k).ber then raiseBer k 1 (laneCount k 5 1 (endInterval k m n (advance t s)))
      else if n < 16 && (rxLane s k).ber then raiseBer k 0 (endInterval k m n (advance t s))
      else endInterval k m n (advance t s), ?_, ?_⟩
  · rw [← hn]
    exact (if_neg (Nat.not_lt.mpr hk)).trans (congrArg _ (if_pos (blockLock_test hlock)))
  · repeat' split
    all_goals simp [RxLane.intervalEnd]

/-! Pennant lock. -/

@[simp] theorem rxLane_gainPennantLock (k : Nat) (s : State) : rxLane (gainPennantLock k s) k =
    { rxLane s k with state := .locked, position := 0, runBad := 0 } :=
  (rxLane_congr (congrArg Lanes.rx (raise_lane ..)) k).trans (rxLane_modRx ..)

@[simp] theorem rxLane_losePennantLock (k : Nat) (s : State) : rxLane (losePennantLock k s) k =
    { rxLane s k with state := .pennantHunt, runGood := 0, runBad := 0, position := 0, huntAt := s.clock.clk
                      cnt := bump (rxLane s k).cnt 3 } := by
  simp [losePennantLock, bump]

theorem execPennantLockGained_hunting {t k : Nat} {s : State} (hk : k ≤ 131)
    (hhunt : (rxLane s k).state = .pennantHunt) :
    exec (.pennantLockGained t k) s = .next (gainPennantLock k (advance t s)) :=
  (if_neg (Nat.not_lt.mpr hk)).trans (congrArg _ (if_pos hhunt))

theorem execPennantLockLost_locked {t k : Nat} {s : State} (hk : k ≤ 131) (hlocked : (rxLane s k).state = .locked) :
    exec (.pennantLockLost t k) s = .next (losePennantLock k (advance t s)) :=
  (if_neg (Nat.not_lt.mpr hk)).trans (congrArg _ (if_pos hlocked))

theorem execPennantReceived_running {t k : Nat} (b : List Byte) {s : State} (hk : k ≤ 131)
    (hrun : lanesRun s = true) : exec (.pennantReceived t k b) s = .next (takePennant k b (advance t s)) :=
  (if_neg (Nat.not_lt.mpr hk)).trans (congrArg _ (if_pos hrun))

/-- What a lane keeps of a pennant: its lock and the failures in a row, the ensign, and the contents by type (R133). -/
def RxLane.heard (r : RxLane) : RxState × Nat × Bool × Table (List Byte) := (r.state, r.runBad, r.ensign, r.pennants)

/-- For any word `w`: the kernel would compute with the fields of a peer word. -/
theorem RxLane.heard_peer (r : RxLane) (w : Word) : RxLane.heard { r with peer := w } = r.heard := rfl

theorem takeIdent_moves_heard (k : Nat) (content : List Byte) (s : State) :
    RxMoves RxLane.heard k s (takeIdent k content s) :=
  have hident := (RxMoves.refl RxLane.heard k s).modRx (f := fun r => { r with ident := some content })
  .ite ((hident.modRx (fun r => r.heard_peer _)).sameLanes (raise_lane ..)) hident

theorem takeMap_moves_heard (k : Nat) (content : List Byte) (s : State) :
    RxMoves RxLane.heard k s (takeMap k content s) := by
  have hs := RxMoves.refl RxLane.heard k s
  unfold takeMap
  dsimp only
  repeat' split
  · exact hs.modRx
  · exact hs.modRx.sameLanes (raiseMismatch_lane ..)
  · exact hs.modRx
  · exact (((hs.modRx.sameLanes (laneStops_lane ..)).modRx).modRx).sameLanes (raiseMismatch_lane ..)
  · exact hs.modRx

/-- A lane that has heard a pennant keeps its ensign, and its content under its type (R133). -/
def RxLane.hears (b : List Byte) (r : RxLane) : RxLane :=
  { r with ensign := bitOf (u8 b 1) 4, pennants := tset r.pennants (u8 b 1 / 32) (sub b 2 5) }

/-- What the content of a pennant brings about leaves the pennant as it was kept (R133). -/
theorem applyPennant_moves_hears (k : Nat) (b : List Byte) (s : State) :
    RxMoves RxLane.heard k (modRx k (·.hears b) s) (applyPennant k b s) := by
  have hs := RxMoves.refl RxLane.heard k (modRx k (·.hears b) s)
  unfold applyPennant
  dsimp only
  split
  · exact takeIdent_moves_heard ..
  · exact takeMap_moves_heard ..
  · exact hs.modRx
  · exact hs.modRx
  · exact hs.modRx
  · exact hs

/-- In lock a valid pennant ends the run of failures and is kept by its type (R127, R133). -/
theorem takePennant_valid {k : Nat} {b : List Byte} {s : State} (hlocked : (rxLane s k).state = .locked)
    (hvalid : validPennant b = true) : (rxLane (takePennant k b s) k).heard =
      (.locked, 0, bitOf (u8 b 1) 4, tset (rxLane s k).pennants (u8 b 1 / 32) (sub b 2 5)) := by
  simp only [takePennant, if_pos hlocked, if_pos hvalid]
  rw [(applyPennant_moves_hears ..).kept, rxLane_modRx, rxLane_modRx, RxLane.heard, RxLane.hears, hlocked]

/-- In lock the fourth failure in a row loses pennant lock (R127). -/
theorem takePennant_fourth_failure {k : Nat} {b : List Byte} {s : State} (hlocked : (rxLane s k).state = .locked)
    (hinvalid : validPennant b = false) (hrow : 3 ≤ (rxLane s k).runBad) :
    (rxLane (takePennant k b s) k).state = .pennantHunt := by
  have hfourth : 4 ≤ (rxLane s k).runBad + 1 := by omega
  simp [takePennant, hlocked, hinvalid, hfourth]

end Sys2Proof.Machine

section
open Sys2Proof Sys2Proof.Machine

/-- Settles O21, one case per event. -/
theorem laneEventsMoveTheLane : Obligations.LaneEventsMoveTheLane := by
  refine ⟨fun t k s hk hrun hon hnear hsignal henabled htest => ?lost, fun t k s hk hrun hwaits => ?back,
    fun t k eyes s hk hsweep hdue => ?swept, fun t k b h a s hk hauto hlocked hber => ?tracked,
    fun t k hd e bs s hk hhunt h1 h2 => ?slipped, fun t k hd e bs s hk hhunt hvalid hgood => ?found,
    fun t k s hk hhunt => ?blockGained, fun t k s hk hlock => ⟨?blockLost, ?overflow⟩,
    fun t k m s hk hlock => ?interval, fun t k s hk hhunt => ?pennantGained, fun t k s hk hlocked => ?pennantLost,
    fun t k b s hk hrun hlocked => ⟨fun hvalid => ?valid, fun hinvalid hrow => ?invalid⟩⟩
  case lost =>
    have hmoves := waitSignal_moves k (signalGone k (advance t s))
    refine ⟨_, execLaneSignalLost_running hk hrun hon hnear hsignal henabled htest, ?_, ?_, ?_, hmoves.tx⟩
    · simp [waitSignal, RxLane.unlock]
    · simp [waitSignal]
    · rw [hasSignal_congr hmoves.signals, hasSignal_signalGone]
  case back =>
    have hmoves := resumeReceive_moves k (signalBack k (advance t s))
    refine ⟨_, execLaneSignalReturn_waiting hk hrun hwaits, ?_, resumeReceive_state .., hmoves.others⟩
    rw [hasSignal_congr hmoves.signals, hasSignal_signalBack]
  case swept =>
    refine ⟨_, execCtleSweepDone_due eyes hk hsweep hdue, ?_⟩
    simp [RxLane.unlock]
  case tracked =>
    refine ⟨_, execCtleTrack_tracking b h a hk hauto hlocked hber, ?_⟩
    simpa [hlocked] using trackedCode_le (rxLane s k).ctleNow b h a
  case slipped =>
    refine ⟨_, execLaneBlockReceived_hunting hd e bs hk hhunt, ?_⟩
    simp [huntBlock, h1, h2, hhunt]
  case found =>
    refine ⟨_, execLaneBlockReceived_hunting hd e bs hk hhunt, ?_⟩
    have hlock : 64 ≤ (rxLane s k).huntGood + 1 := by omega
    simp [huntBlock, hvalid, hlock]
  case blockGained => exact ⟨_, execBlockLockGained_hunting hk hhunt, by simp⟩
  case blockLost => exact ⟨_, execBlockLockLost_locked hk hlock, loseBlockLock_hunts (s := advance t s) 1 hlock⟩
  case overflow => exact ⟨_, execRxFifoOverflow_locked hk hlock, loseBlockLock_hunts (s := advance t s) 3 hlock⟩
  case interval => exact execBerInterval_judges hk hlock
  case pennantGained => exact ⟨_, execPennantLockGained_hunting hk hhunt, by simp⟩
  case pennantLost => exact ⟨_, execPennantLockLost_locked hk hlocked, by simp⟩
  case valid =>
    have hheard := takePennant_valid (s := advance t s) hlocked hvalid
    simp only [RxLane.heard, Prod.mk.injEq] at hheard
    obtain ⟨hstate, hrunBad, hensign, hpennants⟩ := hheard
    refine ⟨_, execPennantReceived_running b hk hrun, hrunBad, ?_, hstate, hensign⟩
    rw [hpennants, tget_tset_same]
  case invalid =>
    exact ⟨_, execPennantReceived_running b hk hrun,
      takePennant_fourth_failure (s := advance t s) hlocked hinvalid hrow⟩

end

end

section
/-! PROOFS. The pennants that a transmit lane sends (O22). -/

-- The package is checked as one text; elaborating these proofs in order keeps the number of threads small.
set_option Elab.async false

namespace Sys2Proof.Machine

@[simp] theorem beBytes_length (n x : Nat) : (beBytes n x).length = n := by
  induction n with
  | zero => rfl
  | succ n ih => rw [beBytes, List.length_cons, ih]

@[simp] theorem classBytes_length (cs : List Nat) : (classBytes cs).length = 4 := by simp [classBytes]

@[simp] theorem healthContent_length (s : State) (k : Nat) : (healthContent s k).length = 5 := by simp [healthContent]

@[simp] theorem pennantContent_length (s : State) (k ty : Nat) : (pennantContent s k ty).length = 5 := by
  unfold pennantContent
  dsimp only
  split <;> simp

/-- A pennant on the wire: its type byte, the six bytes that the CRC covers, and the CRC (R126). -/
def pennantBytes (body : List Byte) (crc : Byte) : List Byte := [0xD2#8] ++ body ++ [crc]

/-- Eight bytes that begin with the pennant's type byte are valid when the last is the CRC of those between (R126). -/
theorem validPennant_pennantBytes {body : List Byte} (crc : Byte) (h : body.length = 6) :
    validPennant (pennantBytes body crc) = (crc8 body == crc) := by
  have hbody : sub (pennantBytes body crc) 1 6 = body := by simp [sub, pennantBytes, h]
  have hcrc : (pennantBytes body crc).getD 7 0#8 = crc := by simp [pennantBytes, h]
  have hlen : (pennantBytes body crc).length = 8 := by simp [pennantBytes, h]
  have htype : u8 (pennantBytes body crc) 0 = 0xD2 := rfl
  rw [validPennant, hbody, hcrc, hlen, htype]
  rfl

/-- A corrupted CRC is wrong. -/
theorem crc_ne_corrupted (c : Byte) : (c == c ^^^ 0xFF#8) = false := by
  refine beq_eq_false_iff_ne.mpr fun h => ?_
  have hzero : c ^^^ c = c ^^^ (c ^^^ 0xFF#8) := congrArg (c ^^^ ·) h
  rw [BitVec.xor_self, ← BitVec.xor_assoc, BitVec.xor_self, BitVec.zero_xor] at hzero
  exact absurd hzero (by decide)

/-- What a transmit lane holds as it builds a pennant of type `ty`: the slot map that a MAP shows, and the bunting of a
new cycle (R129, R137). -/
def TxLane.pennantDue (ty : Nat) (x : TxLane) : TxLane :=
  { x with bunting := if ty = 0 && x.frame ≠ 0 then (x.bunting + 1) % 16 else x.bunting
           sentVersion := if ty = 1 then x.mapVersion else x.sentVersion
           sentClasses := if ty = 1 then x.classes else x.sentClasses }

/-- The six bytes of a pennant that its CRC covers: type, ensign and bunting, and the content (Table 4.2). -/
def pennantBody (s : State) (k ty : Nat) : List Byte :=
  beBytes 1 (ty * 32 + bit (ensignNow s) * 16 + (txLane s k).bunting % 16) ++ pennantContent s k ty

theorem pennantBody_length (s : State) (k ty : Nat) : (pennantBody s k ty).length = 6 := by simp [pennantBody]

theorem pennantBody_type (s : State) (k : Nat) (crc : Byte) {ty : Nat} (h : ty < 8) :
    u8 (pennantBytes (pennantBody s k ty) crc) 1 / 32 = ty := by
  have hbit := bit_lt (ensignNow s)
  have hbyte : u8 (pennantBytes (pennantBody s k ty) crc) 1
      = (ty * 32 + bit (ensignNow s) * 16 + (txLane s k).bunting % 16) % 256 := by
    simp [u8, pennantBytes, pennantBody, beBytes, b8]
  omega

/-- The CRC that a lane puts on a pennant: wrong where an injection asks for that (R142). -/
def pennantCrc (bad : Bool) (body : List Byte) : Byte := if bad then crc8 body ^^^ 0xFF#8 else crc8 body

theorem validPennant_pennantCrc {body : List Byte} (bad : Bool) (h : body.length = 6) :
    validPennant (pennantBytes body (pennantCrc bad body)) = !bad := by
  rw [validPennant_pennantBytes _ h]
  cases bad
  · simp [pennantCrc]
  · exact crc_ne_corrupted _

/-- A lane that sends pennants puts out the next one, and moves on by one frame (R129). -/
theorem execPennantTransmit_sends {t k : Nat} {s : State} (hk : k ≤ 131) (h : sendsPennants s k = true) :
    let ty := (txLane s k).frame % 8
    let x := modTx k (TxLane.pennantDue ty) (advance t s)
    exec (.pennantTransmit t k) s = .next
      (emit (.pennant (max s.clock.clk t) k (ensignNow (advance t s)) ty
          (pennantBytes (pennantBody x k ty) (pennantCrc (txLane x k).badCrc (pennantBody x k ty))))
        (modTx k (fun x => { x with frame := x.frame + 1, badCrc := false }) x)) := by
  have h' : sendsPennants (advance t s) k = true := h
  exact (if_neg (Nat.not_lt.mpr hk)).trans (congrArg _ (if_neg (by simp [h'])))

theorem execPennantTransmit_silent {t k : Nat} {s : State} (hk : k ≤ 131) (h : sendsPennants s k = false) :
    exec (.pennantTransmit t k) s = .next (advance t s) := by
  have h' : sendsPennants (advance t s) k = false := h
  exact (if_neg (Nat.not_lt.mpr hk)).trans (congrArg _ (if_pos (by simp [h'])))

end Sys2Proof.Machine

section
open Sys2Proof Sys2Proof.Machine

/-- Settles O22: whatever the content, the frame around it is the one that R126 checks. -/
theorem pennantsSentAreValid : Obligations.PennantsSentAreValid := by
  refine fun t k s hk => ⟨fun h => ?sends, fun h => ?silent⟩
  case sends =>
    refine ⟨_, _, execPennantTransmit_sends hk h, rfl, ?_, ?_, ?_, ?_, ?_, rfl⟩
    · simp [pennantBytes, pennantBody_length]
    · rw [validPennant_pennantCrc _ (pennantBody_length ..), txLane_modTx]
      rfl
    · exact pennantBody_type _ _ _ (Nat.mod_lt _ (by decide))
    · simp [TxLane.pennantDue]
    · simp
  case silent => exact ⟨_, execPennantTransmit_silent hk h, rfl, rfl⟩

end

end

section
/-! PROOFS. The tables of sources and destinations: what a read gives after a change, and how the shared operations of
chapter 5 change a source. -/

-- The package is checked as one text; elaborating these proofs in order keeps the number of threads small.
set_option Elab.async false

namespace Sys2Proof.Machine

/-! A reading of the state that every branch and every step of a fold keeps. -/

theorem foldl_keeps {α β : Type} (p : State → α) {f : State → β → State} (l : List β) (s : State)
    (hf : ∀ s b, p (f s b) = p s := by exact fun _ _ => rfl) : p (l.foldl f s) = p s := by
  induction l generalizing s with
  | nil => rfl
  | cons b l ih => rw [List.foldl_cons, ih, hf]

theorem ite_keeps {α : Type} (p : State → α) {v : α} {c : Prop} [Decidable c] {a b : State} (ha : p a = v)
    (hb : p b = v) : p (if c then a else b) = v := by
  split
  · exact ha
  · exact hb

/-! Reading a source or a destination. -/

theorem srcOf_congr {s x : State} (h : x.flow.src = s.flow.src) (n : Nat) : srcOf x n = srcOf s n := by
  simp only [srcOf, h]

theorem dstOf_congr {s x : State} (h : x.flow.dst = s.flow.dst) (d : Nat) : dstOf x d = dstOf s d := by
  simp only [dstOf, h]

theorem srcOf_sameFlow {s x : State} (h : x.flow = s.flow) (n : Nat) : srcOf x n = srcOf s n :=
  srcOf_congr (congrArg Flow.src h) n

theorem dstOf_sameFlow {s x : State} (h : x.flow = s.flow) (d : Nat) : dstOf x d = dstOf s d :=
  dstOf_congr (congrArg Flow.dst h) d

@[simp] theorem srcOf_modSrc (n : Nat) (f : Src → Src) (s : State) : srcOf (modSrc n f s) n = f (srcOf s n) :=
  tget_tmod_same ..

theorem srcOf_modSrc_other {m n : Nat} (h : m ≠ n) (f : Src → Src) (s : State) :
    srcOf (modSrc n f s) m = srcOf s m := tget_tmod_other _ _ _ h.symm

@[simp] theorem dstOf_modDst (d : Nat) (f : Dst → Dst) (s : State) : dstOf (modDst d f s) d = f (dstOf s d) :=
  tget_tmod_same ..

theorem dstOf_modDst_other {m d : Nat} (h : m ≠ d) (f : Dst → Dst) (s : State) :
    dstOf (modDst d f s) m = dstOf s m := tget_tmod_other _ _ _ h.symm

@[simp] theorem srcOf_setGroupTable (n : Nat) (f : Flow → Table Group) (s : State) :
    srcOf (onFlow (fun w => { w with groups := f w }) s) n = srcOf s n := rfl

@[simp] theorem srcOf_advance (t n : Nat) (s : State) : srcOf (advance t s) n = srcOf s n := rfl

@[simp] theorem srcOf_begun (op : Op) (t n : Nat) (c : HostCmd) (s : State) :
    srcOf (begun op t c s) n = srcOf s n := rfl

@[simp] theorem srcOf_raise (n sev cls code path : Nat) (ws : List Word) (s : State) :
    srcOf (raise sev cls code path ws s) n = srcOf s n := srcOf_sameFlow (raise_flow ..) n

@[simp] theorem dstOf_raise (d sev cls code path : Nat) (ws : List Word) (s : State) :
    dstOf (raise sev cls code path ws s) d = dstOf s d := dstOf_sameFlow (raise_flow ..) d

@[simp] theorem srcOf_raiseSrc (n sev code m : Nat) (ws : List Word) (s : State) :
    srcOf (raiseSrc sev code m ws s) n = srcOf s n := srcOf_raise ..

@[simp] theorem srcOf_answered (n : Nat) (op : Op) (c : HostCmd) (st : Status) (ps : List Byte) (s : State) :
    srcOf (answered op c st ps s) n = srcOf s n := srcOf_sameFlow (answered_flow ..) n

@[simp] theorem dstOf_answered (d : Nat) (op : Op) (c : HostCmd) (st : Status) (ps : List Byte) (s : State) :
    dstOf (answered op c st ps s) d = dstOf s d := dstOf_sameFlow (answered_flow ..) d

theorem xdst_congr {s x : State} (h : x.xpt = s.xpt) (d : Nat) : xdst x d = xdst s d := by simp only [xdst, h]

@[simp] theorem dstOf_modXd (d e : Nat) (f : XptDst → XptDst) (s : State) : dstOf (modXd e f s) d = dstOf s d := rfl

@[simp] theorem dstOf_safeAfterTake (d e : Nat) (s : State) : dstOf (safeAfterTake e s) d = dstOf s d := rfl

@[simp] theorem safeAfterTake_xpt (d : Nat) (s : State) : (safeAfterTake d s).xpt = s.xpt := rfl

@[simp] theorem modDst_xpt (d : Nat) (f : Dst → Dst) (s : State) : (modDst d f s).xpt = s.xpt := rfl

@[simp] theorem modXd_queue (d : Nat) (f : XptDst → XptDst) (s : State) : (modXd d f s).xpt.queue = s.xpt.queue := rfl

@[simp] theorem xdst_raise (d sev cls code path : Nat) (ws : List Word) (s : State) :
    xdst (raise sev cls code path ws s) d = xdst s d := xdst_congr (raise_xpt ..) d

@[simp] theorem xdst_safeAfterTake (d e : Nat) (s : State) : xdst (safeAfterTake e s) d = xdst s d := rfl

@[simp] theorem xdst_modDst (d e : Nat) (f : Dst → Dst) (s : State) : xdst (modDst e f s) d = xdst s d := rfl

@[simp] theorem xdst_modXd (d : Nat) (f : XptDst → XptDst) (s : State) : xdst (modXd d f s) d = f (xdst s d) :=
  tget_tmod_same ..

/-! The copies of a source. -/

@[simp] theorem Src.copy_setCopy (x : Src) (c : Nat) (f : CopySt → CopySt) : (x.setCopy c f).copy c = f (x.copy c) := by
  unfold copy setCopy
  split <;> rfl

@[simp] theorem Src.setCopy_def (x : Src) (c : Nat) (f : CopySt → CopySt) : (x.setCopy c f).def_ = x.def_ := by
  unfold setCopy
  split <;> rfl

@[simp] theorem Src.setCopy_phase (x : Src) (c : Nat) (f : CopySt → CopySt) : (x.setCopy c f).phase = x.phase := by
  unfold setCopy
  split <;> rfl

/-! The state of a source. -/

@[simp] theorem srcOf_srcCount (n i k : Nat) (s : State) :
    srcOf (srcCount n i k s) n = { srcOf s n with cnt := bumpBy (srcOf s n).cnt i k } := srcOf_modSrc ..

@[simp] theorem srcOf_setSrcPhase (n p : Nat) (s : State) :
    srcOf (setSrcPhase n p s) n = { srcOf s n with phase := p } := by
  unfold setSrcPhase
  dsimp only
  split
  next h => rw [← h]
  next => simp

theorem srcOf_setSrcPhase_other {m n : Nat} (h : m ≠ n) (p : Nat) (s : State) :
    srcOf (setSrcPhase n p s) m = srcOf s m := by
  unfold setSrcPhase
  dsimp only
  split
  · rfl
  · simp [srcOf_modSrc_other h]

/-- A source that fails ends its run of new frames (R183); for cause 1 it is over its format (R165). -/
@[simp] theorem srcOf_failSource (n cause : Nat) (s : State) : srcOf (failSource n cause s) n =
    { srcOf s n with
      phase := if cause = 1 then 5 else 4, newRun := 0
      failedFor := if (srcOf s n).phase = 4 || (srcOf s n).phase = 5 then (srcOf s n).failedFor else 0 } := by
  unfold failSource
  dsimp only
  split <;> simp

/-- A defined source waits for its first frame, and its counters keep counting (R157, R183). -/
theorem srcOf_installSource (n : Nat) (d : SrcDef) (g : SrcCfg) (s : State) :
    srcOf (installSource n d g s) n = {
      cfg := g, def_ := some d, format := d.format, readFormat := d.format
      units := ((formatOf d.format).map (·.units)).getD 0, ring := allocRing s d.format
      c1 := { lastAt := s.clock.clk }, c2 := { lastAt := s.clock.clk }, cnt := (srcOf s n).cnt, phase := 1 } := by
  simp [installSource]

theorem srcOf_installSource_other {m n : Nat} (h : m ≠ n) (d : SrcDef) (g : SrcCfg) (s : State) :
    srcOf (installSource n d g s) m = srcOf s m := by
  simp only [installSource]
  rw [srcOf_setSrcPhase_other h, srcOf_modSrc_other h]

/-! What an operation leaves of a source. -/

/-- What `p` reads of source `n` is the same in two states. -/
def SrcKeeps {α : Type} (p : Src → α) (n : Nat) (s u : State) : Prop := p (srcOf u n) = p (srcOf s n)

section
variable {α : Type} {p : Src → α} {n : Nat} {s x u : State}

theorem SrcKeeps.refl (p : Src → α) (n : Nat) (s : State) : SrcKeeps p n s s := rfl

theorem SrcKeeps.trans (h : SrcKeeps p n s x) (g : SrcKeeps p n x u) : SrcKeeps p n s u := Eq.trans g h

theorem SrcKeeps.sameFlow (h : SrcKeeps p n s x) (hu : u.flow = x.flow) : SrcKeeps p n s u :=
  (congrArg p (srcOf_sameFlow hu n)).trans h

theorem SrcKeeps.modSrc {f : Src → Src} (h : SrcKeeps p n s x)
    (hf : ∀ y, p (f y) = p y := by exact fun _ => rfl) : SrcKeeps p n s (modSrc n f x) :=
  ((congrArg p (srcOf_modSrc n f x)).trans (hf _)).trans h

theorem SrcKeeps.ite {c : Prop} [Decidable c] {a b : State} (ha : SrcKeeps p n s a) (hb : SrcKeeps p n s b) :
    SrcKeeps p n s (if c then a else b) := ite_keeps (fun u => p (srcOf u n)) ha hb

theorem SrcKeeps.ite_fst {β : Type} {c : Prop} [Decidable c] {a b : State × β} (ha : SrcKeeps p n s a.1)
    (hb : SrcKeeps p n s b.1) : SrcKeeps p n s (if c then a else b).1 := by
  split
  · exact ha
  · exact hb

theorem SrcKeeps.setGroupTable (h : SrcKeeps p n s x) (f : Flow → Table Group) :
    SrcKeeps p n s (onFlow (fun w => { w with groups := f w }) x) := h

theorem SrcKeeps.foldl {β : Type} {f : State → β → State} (l : List β) (h : SrcKeeps p n s x)
    (hf : ∀ y b, SrcKeeps p n y (f y b)) : SrcKeeps p n s (l.foldl f x) :=
  h.trans (foldl_keeps (fun u => p (srcOf u n)) l x hf)

theorem SrcKeeps.raise (h : SrcKeeps p n s x) (sev cls code path : Nat) (ws : List Word) :
    SrcKeeps p n s (raise sev cls code path ws x) := h.sameFlow (raise_flow ..)

theorem SrcKeeps.srcCount (h : SrcKeeps p n s x) (i k : Nat)
    (hf : ∀ (y : Src) m, p { y with cnt := m } = p y := by exact fun _ _ => rfl) :
    SrcKeeps p n s (srcCount n i k x) := h.modSrc (fun _ => hf ..)

theorem SrcKeeps.modBuf {f : FrameBuf → FrameBuf} (h : SrcKeeps p n s x) (q : Nat)
    (hf : ∀ (y : Src) bs, p { y with bufs := bs } = p y := by exact fun _ _ => rfl) :
    SrcKeeps p n s (modBuf n q f x) := h.modSrc (fun _ => hf ..)

theorem SrcKeeps.setSrcPhase (h : SrcKeeps p n s x) (k : Nat)
    (hf : ∀ (y : Src) m, p { y with phase := m } = p y := by exact fun _ _ => rfl) :
    SrcKeeps p n s (setSrcPhase n k x) :=
  ((congrArg p (srcOf_setSrcPhase n k x)).trans (hf ..)).trans h

end

/-! Groups. -/

/-- Every source of a list enters a group, or leaves its group. -/
def setGroups (g : Option Nat) (ms : List Nat) (s : State) : State :=
  ms.foldl (fun s m => modSrc m (fun x => { x with group := g }) s) s

theorem srcOf_setGroups (g : Option Nat) (ms : List Nat) (s : State) (n : Nat) :
    srcOf (setGroups g ms s) n = if n ∈ ms then { srcOf s n with group := g } else srcOf s n := by
  induction ms generalizing s with
  | nil => rfl
  | cons m ms ih =>
    rw [setGroups, List.foldl_cons, ← setGroups, ih]
    by_cases hm : n = m
    · subst hm
      simp
    · simp [hm, srcOf_modSrc_other hm]

end Sys2Proof.Machine
end

section
/-! PROOFS. The commands of Tables 5.4 and 5.5, and the writes of FLOW_SRC_CFG and FLOW_TP_CFG (O23). -/

-- The package is checked as one text; elaborating these proofs in order keeps the number of threads small.
set_option Elab.async false

namespace Sys2Proof.Machine

/-! FLOW_SRC_DEFINE. -/

theorem expectMap_flow (d : SrcDef) (v : Nat) (s : State) : (expectMap d v s).flow = s.flow :=
  (expectMap_moves d v (.refl [.lane] s)).same .flow rfl

@[simp] theorem srcOf_expectMap (d : SrcDef) (v n : Nat) (s : State) : srcOf (expectMap d v s) n = srcOf s n :=
  srcOf_sameFlow (expectMap_flow d v s) n

/-- The definition that a FLOW_SRC_DEFINE carries, at its plane position (R158). -/
def placedSrcDef (s : State) (c : HostCmd) : SrcDef :=
  { srcDefOf c with
    slot := ((planePosition s (u16 c.params 0) (srcDefOf c)).getD (0, 0)).1
    count := ((planePosition s (u16 c.params 0) (srcDefOf c)).getD (0, 0)).2 }

theorem effFlowSrcDefine_of_undefined {c : HostCmd} {s : State} (h : srcDefined s (u16 c.params 0) = false) :
    (effFlowSrcDefine s c).1 = installSource (u16 c.params 0) (placedSrcDef s c) (srcCfgOf c)
      (expectMap (placedSrcDef s c) (u16 c.params 10) s) := by
  have h' : ∀ d v, srcDefined (expectMap d v s) (u16 c.params 0) = false := fun d v => by
    rw [srcDefined, srcOf_expectMap, ← srcDefined, h]
  simp [effFlowSrcDefine, h', placedSrcDef]

theorem effFlowSrcDefine_of_defined {c : HostCmd} {s : State} (h : srcDefined s (u16 c.params 0) = true) :
    (effFlowSrcDefine s c).1 = modSrc (u16 c.params 0)
      (fun x => { x with redef := some (placedSrcDef s c, srcCfgOf c), deleting := false })
      (expectMap (placedSrcDef s c) (u16 c.params 10) s) := by
  have h' : ∀ d v, srcDefined (expectMap d v s) (u16 c.params 0) = true := fun d v => by
    rw [srcDefined, srcOf_expectMap, ← srcDefined, h]
  simp [effFlowSrcDefine, h', placedSrcDef]

theorem execFlowSrcDefine_answered {t : Nat} {c : HostCmd} {s : State}
    (h : accepted .flowSrcDefine refuseFlowSrcDefine t c s = true) :
    ∃ ps, exec (.flowSrcDefine t c) s =
      .next (answered .flowSrcDefine c .ok ps (effFlowSrcDefine (begun .flowSrcDefine t c s) c).1) :=
  ⟨_, congrArg _ (runCommand_answered h rfl)⟩

/-! FLOW_DST_DEFINE. -/

theorem effFlowDstDefine_flow_of_undefined {c : HostCmd} {s : State} (h : (dstOf s (u16 c.params 0)).def_ = none) :
    (effFlowDstDefine s c).1.flow = (modDst (u16 c.params 0) (fun x => { x with
      def_ := some (dstDefOf c), shown := 2, cause := 3, parkSaid := false, srcGone := false }) s).flow := by
  have hmaps {p : Prop} [Decidable p] (ks : List Nat) (x : State) :
      (if p then x else ks.foldl (fun s k => newMap k s) x).flow = x.flow :=
    ite_keeps State.flow rfl (foldl_keeps State.flow ks x)
  simp only [effFlowDstDefine, h, Option.isSome_none, Bool.false_eq_true, if_false]
  exact hmaps ..

theorem execFlowDstDefine_answered {t : Nat} {c : HostCmd} {s : State}
    (h : accepted .flowDstDefine refuseFlowDstDefine t c s = true) :
    ∃ ps, exec (.flowDstDefine t c) s =
      .next (answered .flowDstDefine c .ok ps (effFlowDstDefine (begun .flowDstDefine t c s) c).1) :=
  ⟨_, congrArg _ (runCommand_answered h rfl)⟩

/-! FLOW_DELETE, FLOW_GROUP_SET and FLOW_PARK_SET. -/

theorem execFlowDelete_scheduled {t : Nat} {c : HostCmd} {s : State}
    (h : accepted .flowDelete refuseFlowDelete t c s = true) :
    exec (.flowDelete t c) s =
      .next (answered .flowDelete c .scheduled [] (effFlowDelete (begun .flowDelete t c s) c).1) :=
  congrArg _ (runCommand_answered h rfl)

theorem effFlowGroupSet_of_empty {c : HostCmd} (s : State) (h : groupMembers c = []) :
    effFlowGroupSet s c = (onFlow (fun w => { w with groups := tdel w.groups (u8 c.params 0) })
      (setGroups none (tget ⟨[], []⟩ s.flow.groups (u8 c.params 0)).members s), some (.ok, [])) := by
  simp [effFlowGroupSet, h, setGroups]

/-- The state after a group was formed: its members have left their old group and entered the new one (R180). -/
def groupFormed (g : Nat) (ms : List Nat) (s : State) : State :=
  let x := setGroups (some g) ms (setGroups none (tget ⟨[], []⟩ s.flow.groups g).members s)
  onFlow (fun w => { w with groups := tset w.groups g ⟨ms, formBases x ms⟩ }) x

theorem effFlowGroupSet_of_members {c : HostCmd} (s : State) (h : groupMembers c ≠ []) :
    effFlowGroupSet s c = (raise 1 2 0x2030 (pathCell ((groupMembers c).foldl min 1023)) [pack8 (u8 c.params 0) 0 0 0]
      (groupFormed (u8 c.params 0) (groupMembers c) s), some (.ok, [])) := by
  simp [effFlowGroupSet, h, groupFormed, setGroups]

theorem srcOf_groupFormed {g n : Nat} {ms : List Nat} (s : State) (h : n ∈ ms) :
    (srcOf (groupFormed g ms s) n).group = some g := by
  simp [groupFormed, srcOf_setGroups, h]

theorem execFlowGroupSet_answered {t : Nat} {c : HostCmd} {s x : State}
    (h : accepted .flowGroupSet refuseFlowGroupSet t c s = true)
    (he : effFlowGroupSet (begun .flowGroupSet t c s) c = (x, some (.ok, []))) :
    exec (.flowGroupSet t c) s = .next (answered .flowGroupSet c .ok [] x) :=
  congrArg _ (runCommand_answered h he)

theorem execFlowParkSet_answered {t : Nat} {c : HostCmd} {s : State}
    (h : accepted .flowParkSet refuseFlowParkSet t c s = true) :
    exec (.flowParkSet t c) s = .next (answered .flowParkSet c .ok []
      (modDst (u16 c.params 0)
        (fun x => { x with parkType := u8 c.params 2, parkValue := u32 c.params 4, fallback := none })
        (begun .flowParkSet t c s))) :=
  congrArg _ (runCommand_answered h rfl)

/-! FLOW_QUERY. -/

/-- What FLOW_QUERY answers about a source (Table 5.4). -/
def srcReport (s : State) (n : Nat) : List Byte :=
  wordBytes (regSrcCfg s n) ++ wordBytes (regSrcStatus s n) ++ wordBytes (regSrcSkew s n)
    ++ beBytes 4 (srcOf s n).lastRead ++ beBytes 4 (pathDifference s n) ++ (srcOf s n).anc.take 5 ++ beBytes 3 0
    ++ (List.range 10).flatMap (fun i => wordBytes (tget 0#32 (srcOf s n).cnt i))

/-- What FLOW_QUERY answers about a destination (Table 5.4). -/
def dstReport (s : State) (d : Nat) : List Byte :=
  wordBytes (regDstStatus s d) ++ beBytes 4 (dstOf s d).parkValue ++ beBytes 4 (dstOf s d).seq

theorem execFlowQuery_answered {t : Nat} {c : HostCmd} {s : State}
    (h : accepted .flowQuery refuseFlowQuery t c s = true) :
    exec (.flowQuery t c) s = .next (answered .flowQuery c .ok
      (if u8 c.params 0 = 0 then srcReport s (u16 c.params 2) else dstReport s (u16 c.params 2))
      (begun .flowQuery t c s)) :=
  congrArg _ (runCommand_answered h rfl)

@[simp] theorem wordBytes_length (w : Word) : (wordBytes w).length = 4 := beBytes_length 4 _

theorem srcReport_take (s : State) (n : Nat) : (srcReport s n).take 16 =
    wordBytes (regSrcCfg s n) ++ wordBytes (regSrcStatus s n) ++ wordBytes (regSrcSkew s n)
      ++ beBytes 4 (srcOf s n).lastRead := by
  rw [srcReport, List.append_assoc, List.append_assoc, List.append_assoc]
  exact List.take_left' (by simp)

/-! FLOW_TP_CFG. -/

theorem flowTp_writeFlowTp (p v : Nat) (s : State) : flowTp (writeFlowTp p v s) p =
    if s.host.locked = true ∨ flowOnPlane s p = true then flowTp s p
    else ⟨clampNat 2 32 (bitsOf v 5 0), clampNat 4 64 (bitsOf v 14 8)⟩ := by
  simp only [writeFlowTp, Bool.or_eq_true]
  split
  · rfl
  · exact tget_tset_same ..

theorem writeFlowTp_src (p v : Nat) (s : State) : (writeFlowTp p v s).flow.src = s.flow.src := by
  unfold writeFlowTp
  split <;> rfl

end Sys2Proof.Machine

section
open Sys2Proof Sys2Proof.Machine

/-- Settles O23, one case per command and write. The write for an undefined source, the new destination that reads
parked, and the definition that takes the place of a deletion are the model's choices (logs 33, 41 and 42). -/
theorem flowCommandsTakeEffect : Obligations.FlowCommandsTakeEffect := by
  refine ⟨fun t c s h hfree => ?define, fun t c s h hdef => ?redefine, fun t c s h hfree => ?defineDst,
    fun t c s h => ?delete, fun t c s h => ?group, fun t c s h => ?park, fun t c s h => ?query,
    fun t c s x h hx => ?admission, fun t n v s hn => ?srcCfg, fun t p v s hp => ?tpCfg⟩
  case define =>
    obtain ⟨ps, hexec⟩ := execFlowSrcDefine_answered h
    rw [effFlowSrcDefine_of_undefined (s := begun .flowSrcDefine t c s) hfree] at hexec
    refine ⟨_, hexec, ?_⟩
    simp only [srcOf_answered, srcOf_installSource, srcOf_expectMap, srcOf_begun]
    exact ⟨rfl, trivial, trivial, trivial, fun m hm => by simp [srcOf_installSource_other hm]⟩
  case redefine =>
    obtain ⟨ps, hexec⟩ := execFlowSrcDefine_answered h
    rw [effFlowSrcDefine_of_defined (s := begun .flowSrcDefine t c s) hdef] at hexec
    refine ⟨_, hexec, ?_⟩
    simp only [srcOf_answered, srcOf_modSrc, srcOf_expectMap, srcOf_begun]
    exact ⟨trivial, ⟨_, rfl, rfl, rfl⟩, trivial⟩
  case defineDst =>
    obtain ⟨ps, hexec⟩ := execFlowDstDefine_answered h
    refine ⟨_, hexec, ?_⟩
    have hflow := effFlowDstDefine_flow_of_undefined (s := begun .flowDstDefine t c s) hfree
    simp only [dstOf_answered, dstOf_sameFlow hflow, dstOf_modDst, true_and]
    exact fun m hm => dstOf_modDst_other hm ..
  case delete =>
    exact ⟨_, _, execFlowDelete_scheduled h, rfl, fun h0 => by simp [effFlowDelete, h0],
      fun h1 => by simp [effFlowDelete, h1]⟩
  case group =>
    by_cases hm : groupMembers c = []
    · refine ⟨_, execFlowGroupSet_answered h (effFlowGroupSet_of_empty _ hm), fun hne => absurd hm hne,
        fun _ m hmem => ?_⟩
      simp [srcOf_setGroups, hmem]
    · refine ⟨_, execFlowGroupSet_answered h (effFlowGroupSet_of_members _ hm), fun _ => ⟨?_, fun m hmem => ?_⟩,
        fun he => absurd he hm⟩
      · simp [groupFormed]
      · simp [srcOf_groupFormed _ hmem]
  case park =>
    refine ⟨_, execFlowParkSet_answered h, ?_⟩
    simp only [dstOf_answered, dstOf_modDst, true_and]
    exact ⟨fun m hm => dstOf_modDst_other hm .., by rw [answered_flow]; rfl⟩
  case query =>
    refine ⟨_, execFlowQuery_answered h, fun h1 => if_neg h1, fun h0 => ?_⟩
    rw [if_pos h0, srcReport_take]
  case admission =>
    subst hx
    exact congrArg _ (runCommand_answered h rfl)
  case srcCfg =>
    refine ⟨_, if_neg (Nat.not_lt.mpr hn), ?_⟩
    simp only [writeSrcCfg, srcOf_modSrc, true_and]
    exact ⟨rfl, fun m hm => srcOf_modSrc_other hm ..⟩
  case tpCfg =>
    exact ⟨_, if_neg (Nat.not_lt.mpr hp), flowTp_writeFlowTp p v (advance t s), writeFlowTp_src p v _⟩

end

end

section
/-! PROOFS. The landing of deletions and redefinitions (O24). -/

-- The package is checked as one text; elaborating these proofs in order keeps the number of threads small.
set_option Elab.async false

namespace Sys2Proof.Machine

/-! The discarding of entries leaves the rest of the take queue. -/

@[simp] theorem reportDiscard_queue (cause : Nat) (e : Entry) (s : State) :
    (reportDiscard cause e s).xpt.queue = s.xpt.queue := by
  unfold reportDiscard
  split
  · simp
  · simp only [cancelAudio]
    split <;> simp
  · simp [rejectCommit]
  · rfl

@[simp] theorem entryGone_queue (e : Entry) (res : Option (Status × Nat)) (frame : Nat) (s : State) :
    (entryGone e res frame s).xpt.queue = s.xpt.queue := by
  unfold entryGone
  dsimp only
  repeat' split
  all_goals simp

@[simp] theorem queueFell_queue (s : State) : (queueFell s).xpt.queue = s.xpt.queue := by
  unfold queueFell
  split <;> rfl

theorem discardEntries_queue (p : Entry → Bool) (cause : Nat) (s : State) :
    (discardEntries p cause s).xpt.queue = s.xpt.queue.filter (fun e => !p e) := by
  simp only [discardEntries, queueFell_queue]
  exact foldl_keeps (fun s => s.xpt.queue) _ _ (by simp)

theorem not_of_mem_discardEntries {p : Entry → Bool} {cause : Nat} {s : State} {e : Entry}
    (h : e ∈ (discardEntries p cause s).xpt.queue) : p e = false := by
  rw [discardEntries_queue] at h
  simpa using (List.mem_filter.mp h).2

theorem discardEntries_flow (p : Entry → Bool) (cause : Nat) (s : State) : (discardEntries p cause s).flow = s.flow :=
  (discardEntries_moves p cause (.refl [.flash, .host, .evt, .xpt, .red, .cmp, .aud, .out] s)).same .flow rfl

/-! The deletion and the redefinition of a source. -/

@[simp] theorem srcOf_leaveGroup (n : Nat) (s : State) :
    srcOf (leaveGroup n s) n = { srcOf s n with group := none } := by
  unfold leaveGroup
  split
  next h => rw [← h]
  next g h =>
    have hfold (l : List (Nat × Option Nat)) (x : State) :
        l.foldl (fun s p => modSrc p.1 (fun x => { x with group := none }) s) x = setGroups none (l.map (·.1)) x := by
      rw [setGroups, List.foldl_map]
    simp only [hfold]
    split
    · rw [srcOf_setGroups]
      split <;> simp
    · simp

theorem srcOf_dropSource (n : Nat) (s : State) :
    srcOf (dropSource n s) n = { cfg := (srcOf s n).cfg, cnt := (srcOf s n).cnt } := by
  have hgone (ds : List Nat) (x : State) :
      srcOf (ds.foldl (fun s d => modDst d (fun x => { x with srcGone := true }) s) x) n = srcOf x n :=
    foldl_keeps (srcOf · n) ds x
  simp [dropSource, hgone, srcOf_sameFlow (discardEntries_flow ..)]

theorem dropSource_queue (n : Nat) (s : State) :
    (dropSource n s).xpt.queue = (discardEntries (·.namesSource n) 2 (leaveGroup n s)).xpt.queue :=
  foldl_keeps (fun s => s.xpt.queue) _ _

theorem landSrcDelete_of_deleting {n : Nat} {s : State} (h : (srcOf s n).deleting = true) :
    landSrcDelete n s = raise 1 2 0x2005 (pathCell n) [pack8_16 0 0 n] (dropSource n s) := if_pos h

theorem landSrcRedefine_of_none {n : Nat} {s : State} (h : (srcOf s n).redef = none) : landSrcRedefine n s = s := by
  simp [landSrcRedefine, h]

/-- What a definition sets of a source: the definition itself, its options, and that none waits. -/
def Src.settings (x : Src) : Option SrcDef × SrcCfg × Option (SrcDef × SrcCfg) := (x.def_, x.cfg, x.redef)

/-- A redefinition that lands leaves the new definition and options, whether the source goes on or begins anew
(R189). -/
theorem landSrcRedefine_settings {n : Nat} {d old : SrcDef} {g : SrcCfg} {s : State}
    (hredef : (srcOf s n).redef = some (d, g)) (hdef : (srcOf s n).def_ = some old) :
    (srcOf (landSrcRedefine n s) n).settings = (some d, g, none) := by
  simp only [landSrcRedefine, hredef, hdef]
  refine ite_keeps (fun u => (srcOf u n).settings) ?goesOn ?beginsAnew
  case goesOn =>
    exact Eq.trans (SrcKeeps.ite (.setSrcPhase (.refl Src.settings n _) 3) (.refl ..))
      (congrArg Src.settings (srcOf_modSrc ..))
  case beginsAnew => exact congrArg Src.settings (srcOf_installSource ..)

/-! The deletion of a destination. -/

theorem landDstDelete_of_deleting {d : Nat} {s : State} (h : (dstOf s d).deleting = true) :
    landDstDelete d s = raise 1 2 0x2005 (pathCell d) [pack8_16 1 0 d] (safeAfterTake d
      (modDst d (fun x => { parkType := x.parkType, parkValue := x.parkValue, seq := x.seq })
        (modXd d (fun x => { x with selected := none }) (discardEntries (·.namesDest d) 2 s)))) :=
  if_neg (by simp [h])

theorem landDstDelete_removes {d : Nat} {s : State} (h : (dstOf s d).deleting = true) :
    dstOf (landDstDelete d s) d =
        { parkType := (dstOf s d).parkType, parkValue := (dstOf s d).parkValue, seq := (dstOf s d).seq }
      ∧ (xdst (landDstDelete d s) d).selected = none ∧ ∀ e ∈ (landDstDelete d s).xpt.queue, e.namesDest d = false := by
  rw [landDstDelete_of_deleting h]
  refine ⟨?dst, by simp, fun e he => ?queue⟩
  case dst => simp [dstOf_sameFlow (discardEntries_flow ..)]
  case queue =>
    rw [raise_xpt, safeAfterTake_xpt, modDst_xpt, modXd_queue] at he
    exact not_of_mem_discardEntries he

end Sys2Proof.Machine
end

section
/-! PROOFS. Frames and parcels as copies deliver them, and the merge of two copies (O24). -/

-- The package is checked as one text; elaborating these proofs in order keeps the number of threads small.
set_option Elab.async false

namespace Sys2Proof.Machine

/-! What the frames in a ring leave of their source. -/

/-- A source beside the frames in its ring, its counters, and what a late parcel in pass-through leaves (R175). -/
def Src.beside (x : Src) : Src := { x with bufs := [], cnt := [], ptBroken := false, outTainted := false }

section
variable {n : Nat} {s x : State}

theorem SrcKeeps.of_beside {α : Type} {p : Src → α} (h : SrcKeeps Src.beside n s x)
    (hp : ∀ y : Src, p y.beside = p y := by exact fun _ => rfl) : SrcKeeps p n s x :=
  (hp _).symm.trans ((congrArg p h).trans (hp _))

theorem closeFrame_keeps (q : Nat) (h : SrcKeeps Src.beside n s x) : SrcKeeps Src.beside n s (closeFrame n q x) := by
  unfold closeFrame
  split
  · exact h
  · exact .ite h (.ite (((h.modBuf q).srcCount 4 1).raise ..) (h.modBuf q))

theorem closeIfDone_keeps (q : Nat) (h : SrcKeeps Src.beside n s x) : SrcKeeps Src.beside n s (closeIfDone n q x) := by
  unfold closeIfDone
  split
  · exact h
  · exact .ite (closeFrame_keeps q h) h

theorem copyEnds_keeps (c : Nat) (h : SrcKeeps Src.beside n s x) : SrcKeeps Src.beside n s (copyEnds n c x) := by
  unfold copyEnds
  dsimp only
  split
  · exact h
  · exact .ite h (closeIfDone_keeps _ (h.modBuf _))

theorem judgeSize_keeps (c : Nat) (h : SrcKeeps Src.beside n s x) : SrcKeeps Src.beside n s (judgeSize n c x) := by
  unfold judgeSize
  dsimp only
  split
  · exact h
  · exact .ite h ((SrcKeeps.srcCount (.ite (h.modBuf _) h) ..).raise ..)

theorem lateInPassThrough_keeps (b : FrameBuf) (first : Nat) (h : SrcKeeps Src.beside n s x) :
    SrcKeeps Src.beside n s (lateInPassThrough n b first x) := by
  unfold lateInPassThrough
  dsimp only
  split
  · exact .ite (h.modSrc.srcCount 4 1) h
  · exact h

theorem writeParcels_flow (slot : Nat) (data : List Byte) (runs : List (Nat × Nat)) :
    (writeParcels n slot data runs s).flow = s.flow :=
  (writeParcels_moves n slot data runs (.refl [.fst] s)).same .flow rfl

theorem takeParcels_keeps (c q first count : Nat) (data : List Byte) (clean : Bool) (h : SrcKeeps Src.beside n s x) :
    SrcKeeps Src.beside n s (takeParcels n c q first count data clean x) := by
  unfold takeParcels
  split
  · exact h
  next b _ =>
    have hwrote {f : FrameBuf → FrameBuf} {slot : Nat} {rs : List (Nat × Nat)} : SrcKeeps Src.beside n s
        (writeParcels n slot data rs (modBuf n q f (lateInPassThrough n b first x))) :=
      ((lateInPassThrough_keeps b first h).modBuf q).sameFlow (writeParcels_flow ..)
    refine .ite h (closeIfDone_keeps q (.foldl _ (.ite hwrote (hwrote.srcCount ..)) fun y d => ?_))
    exact .foldl _ (.refl ..) fun z i => ((SrcKeeps.refl ..).srcCount 9 1).raise ..

end

/-! The start of a frame. -/

/-- What the start of a frame says of its copy, beside the definition of the source: the sequence number, the frame in
hand, and its bytes (R162). -/
def Src.intake (c : Nat) (x : Src) : Option SrcDef × Option Nat × Option Nat × Nat :=
  (x.def_, (x.copy c).lastSeq, (x.copy c).inFrame, (x.copy c).bytes)

theorem Src.intake_setCopy {f : CopySt → CopySt} (x : Src) (c : Nat)
    (hf : ∀ y, (f y).lastSeq = y.lastSeq ∧ (f y).inFrame = y.inFrame ∧ (f y).bytes = y.bytes := by
      exact fun _ => ⟨rfl, rfl, rfl⟩) : (x.setCopy c f).intake c = x.intake c := by
  obtain ⟨hseq, hframe, hbytes⟩ := hf (x.copy c)
  simp only [intake, setCopy_def, copy_setCopy, hseq, hframe, hbytes]

section
variable {n c : Nat} {s x : State}

theorem SrcKeeps.setCopy {f : CopySt → CopySt} (h : SrcKeeps (Src.intake c) n s x)
    (hf : ∀ y, (f y).lastSeq = y.lastSeq ∧ (f y).inFrame = y.inFrame ∧ (f y).bytes = y.bytes := by
      exact fun _ => ⟨rfl, rfl, rfl⟩) : SrcKeeps (Src.intake c) n s (Machine.modSrc n (fun y => y.setCopy c f) x) :=
  h.modSrc fun y => y.intake_setCopy c hf

theorem copyTook_keeps (h : SrcKeeps (Src.intake c) n s x) : SrcKeeps (Src.intake c) n s (copyTook n c x) :=
  .ite (h.setCopy.raise ..) h.setCopy

theorem copyLate_keeps (h : SrcKeeps (Src.intake c) n s x) : SrcKeeps (Src.intake c) n s (copyLate n c x) :=
  h.setCopy.srcCount 8 1

/-- A source whose copy `c` leads frame `q` from `now` on (R167). -/
def Src.led (c q now : Nat) (x : Src) : Src :=
  { (x.setCopy c (fun y => { y with taking := true })) with
    lead := c - 1, recent := ((q, c, now) :: x.recent).take 8 }

theorem Src.intake_led (c q now : Nat) (x : Src) : (x.led c q now).intake c = x.intake c :=
  x.intake_setCopy c (f := fun y => { y with taking := true })

/-- A source whose copy `c` joins a frame, with its arrival skew (R171). -/
def Src.joined (c : Nat) (skew : Int) (x : Src) : Src :=
  { (x.setCopy c (fun y => { y with taking := true })) with skew := some skew }

theorem Src.intake_joined (c : Nat) (skew : Int) (x : Src) : (x.joined c skew).intake c = x.intake c :=
  x.intake_setCopy c (f := fun y => { y with taking := true })

theorem joinFrame_keeps (q : Nat) (b : FrameBuf) (h : SrcKeeps (Src.intake c) n s x) :
    SrcKeeps (Src.intake c) n s (joinFrame n c q b x) :=
  copyTook_keeps ((h.modSrc (f := Src.joined c _) fun y => y.intake_joined c _).modBuf q)

theorem failSource_keeps (cause : Nat) (h : SrcKeeps (Src.intake c) n s x) :
    SrcKeeps (Src.intake c) n s (failSource n cause x) := (congrArg (Src.intake c) (srcOf_failSource ..)).trans h

theorem adopt_keeps (code : Nat) (h : SrcKeeps (Src.intake c) n s x) :
    SrcKeeps (Src.intake c) n s (adopt n code x).1 :=
  .ite_fst h.modSrc (.ite_fst h.modSrc (.ite_fst (failSource_keeps 1 (h.modSrc.modSrc.raise ..).modSrc)
    (.ite_fst ((h.modSrc.modSrc.raise ..).modSrc.setSrcPhase 4) (h.modSrc.modSrc.raise ..))))

theorem takePhase_keeps (h : SrcKeeps (Src.intake c) n s x) : SrcKeeps (Src.intake c) n s (takePhase n x) :=
  .ite (h.modSrc.setSrcPhase 2) (.ite (h.modSrc.setSrcPhase 3) h.modSrc)

theorem assignBuffer_keeps (b : FrameBuf) (h : SrcKeeps (Src.intake c) n s x) :
    SrcKeeps (Src.intake c) n s (assignBuffer n b x) := by
  refine .ite h.modSrc ?_
  split
  · exact h
  · exact SrcKeeps.modSrc (.ite (h.srcCount 1 1) h)

theorem groupArrival_keeps (q : Nat) (h : SrcKeeps (Src.intake c) n s x) :
    SrcKeeps (Src.intake c) n s (groupArrival n q x) := by
  unfold groupArrival
  split
  · exact h
  · dsimp only
    split
    · exact h
    · exact .ite ((h.setGroupTable _).raise ..) h

theorem leadFrame_keeps (q code : Nat) (marked : Bool) (h : SrcKeeps (Src.intake c) n s x) :
    SrcKeeps (Src.intake c) n s (leadFrame n c q code marked x) := by
  have hadopt := adopt_keeps code (copyTook_keeps (h.modSrc fun y => y.intake_led c q x.clock.clk))
  exact .ite hadopt.setCopy (.ite hadopt.setCopy (groupArrival_keeps q (assignBuffer_keeps _ (takePhase_keeps hadopt))))

end

/-- What becomes of a frame that a copy has begun: it joins the frame that the other copy leads, is late for it, or
leads (R167). -/
def arriveFrame (n c seq code : Nat) (marked : Bool) (s : State) : State :=
  match (srcOf s n).recent.find? (fun r => r.1 == seq && r.2.1 != c) with
  | some r =>
    match bufOf s n seq with
    | some b =>
      if !b.closed && decide (s.clock.clk ≤ r.2.2 + mergeWindow (srcOf s n)) then joinFrame n c seq b s
      else copyLate n c s
    | none => copyLate n c s
  | none => leadFrame n c seq code marked s

theorem arriveFrame_keeps (n c q code : Nat) (marked : Bool) (s : State) :
    SrcKeeps (Src.intake c) n s (arriveFrame n c q code marked s) := by
  have hs := SrcKeeps.refl (Src.intake c) n s
  unfold arriveFrame
  split
  · split
    · exact .ite (joinFrame_keeps q _ hs) (copyLate_keeps hs)
    · exact copyLate_keeps hs
  · exact leadFrame_keeps q code marked hs

/-- A FRAME_START ends the frame in hand, begins its own on the copy, and lets it arrive (R162, R167, R169). -/
theorem beginFrame_arrives (n c q code : Nat) (marked : Bool) (s : State) : ∃ x, SrcKeeps Src.beside n s x
    ∧ beginFrame n c q code marked s = arriveFrame n c q code marked (modSrc n (fun x => x.setCopy c (fun y => { y with
      lastSeq := some q, inFrame := some q, bytes := 0, taking := false })) x) := by
  refine ⟨_, ?_, rfl⟩
  have hended := copyEnds_keeps c (judgeSize_keeps c (.refl Src.beside n s))
  split
  · exact .ite hended ((hended.srcCount 7 1).raise ..)
  · exact hended

theorem beginFrame_intake (n c q code : Nat) (marked : Bool) (s : State) :
    (srcOf (beginFrame n c q code marked s) n).intake c = ((srcOf s n).def_, some q, some q, 0) := by
  obtain ⟨x, hx, harrives⟩ := beginFrame_arrives n c q code marked s
  have hdef : (srcOf x n).def_ = (srcOf s n).def_ := hx.of_beside
  rw [harrives, arriveFrame_keeps]
  simp [Src.intake, hdef]

/-! The events of a frame. -/

theorem not_beyondCopies {n c : Nat} (hn : n ≤ 1023) (h1 : 1 ≤ c) (h2 : c ≤ 2) :
    ¬ (decide (1023 < n) || decide (c < 1) || decide (2 < c)) = true := by
  rw [decide_eq_false (Nat.not_lt.mpr hn), decide_eq_false (Nat.not_lt.mpr h1), decide_eq_false (Nat.not_lt.mpr h2)]
  exact Bool.false_ne_true

theorem execFlowFrameStart_begins {t n c q fl fmt : Nat} (a : Option (List Byte)) {s : State} (hn : n ≤ 1023)
    (h1 : 1 ≤ c) (h2 : c ≤ 2) (hrun : flowRuns s n c = true) (hfl : fl.testBit 0 = false) :
    ∃ u, exec (.flowFrameStart t n c q fl fmt a false) s = .next u
      ∧ (srcOf u n).intake c = (srcOf (beginFrame n c (q % 0x100000000) fmt false (advance t s)) n).intake c := by
  have hrun' : flowRuns (advance t s) n c = true := hrun
  refine ⟨_, if_neg (not_beyondCopies hn h1 h2), ?_⟩
  simp only [hrun', hfl, Bool.not_true, Bool.false_eq_true, if_false]
  split
  · exact SrcKeeps.modSrc (.refl ..)
  · rfl

/-- The parcels of a copy that has a frame in hand add to its bytes, whatever the merge makes of them (R162, R168). -/
theorem execFlowParcel_adds {t n c k m q : Nat} (ds : List Byte) (p : Bool) (w : Option Word) {s : State}
    (hn : n ≤ 1023) (h1 : 1 ≤ c) (h2 : c ≤ 2) (hrun : flowRuns s n c = true)
    (hq : ((srcOf s n).copy c).inFrame = some q) : ∃ u, exec (.flowParcel t n c k m ds p w) s = .next u ∧ SrcKeeps Src.beside n
      (modSrc n (fun x => x.setCopy c (fun y => { y with bytes := y.bytes + m * ds.length })) s) u := by
  have hrun' : flowRuns (advance t s) n c = true := hrun
  have hq' : ((srcOf (advance t s) n).copy c).inFrame = some q := hq
  refine ⟨_, if_neg (not_beyondCopies hn h1 h2), ?_⟩
  simp only [hq', hrun', Bool.not_true, Bool.false_eq_true, if_false]
  exact .ite (takeParcels_keeps _ _ _ _ _ _ rfl) rfl

theorem execMergeWindowExpired_due {t n q : Nat} {b : FrameBuf} {s : State} (hn : n ≤ 1023) (hb : bufOf s n q = some b)
    (hdue : b.leadAt + mergeWindow (srcOf s n) ≤ max s.clock.clk t) :
    exec (.mergeWindowExpired t n q) s = .next (closeIfDone n q (advance t s)) := by
  have hb' : bufOf (advance t s) n q = some b := hb
  show execMergeWindowExpired t n q s = _
  simp [execMergeWindowExpired, Nat.not_lt.mpr hn, hb', hdue]

/-- Once its leading copy has ended, a frame that no copy joined closes with the merge window (R169). -/
theorem closeIfDone_of_windowOver {n q : Nat} {b : FrameBuf} {s : State} (hb : bufOf s n q = some b)
    (hended : b.leadEnded = true) (halone : b.joined = false)
    (hdue : b.leadAt + mergeWindow (srcOf s n) ≤ s.clock.clk) : closeIfDone n q s = closeFrame n q s := by
  simp [closeIfDone, hb, hended, halone, hdue]

theorem bufOf_congr {s x : State} {n : Nat} (h : (srcOf x n).bufs = (srcOf s n).bufs) (q : Nat) :
    bufOf x n q = bufOf s n q := by rw [bufOf, h, bufOf]

theorem bufOf_modBuf {n q : Nat} {f : FrameBuf → FrameBuf} {b : FrameBuf} {s : State} (hf : ∀ b, (f b).seq = b.seq)
    (hb : bufOf s n q = some b) : bufOf (modBuf n q f s) n q = some (f b) := by
  have hseq : b.seq = q := by simpa using List.find?_some hb
  have hsame : (fun b : FrameBuf => b.seq == q) ∘ (fun b => if b.seq = q then f b else b) = (fun b => b.seq == q) := by
    funext x
    simp only [Function.comp]
    split <;> simp [hf]
  rw [bufOf] at hb ⊢
  rw [modBuf, srcOf_modSrc, List.find?_map, hsame, hb, Option.map_some, if_pos hseq]

/-- A frame that closes (R169). -/
def FrameBuf.close (short tainted : Bool) (b : FrameBuf) : FrameBuf :=
  { b with closed := true, short := short, tainted := b.tainted || tainted }

/-- A frame closes short exactly when some parcel is held by no copy (R169). -/
theorem bufOf_closeFrame {n q : Nat} {b : FrameBuf} {s : State} (hb : bufOf s n q = some b) (hopen : b.closed = false) :
    ∃ tainted, bufOf (closeFrame n q s) n q =
      some (b.close (decide (heldCount b.parcels < parcelCount (srcOf s n).format)) tainted) := by
  have hclosed (short tainted : Bool) :
      bufOf (modBuf n q (·.close short tainted) s) n q = some (b.close short tainted) :=
    bufOf_modBuf (fun _ => rfl) hb
  unfold closeFrame
  simp only [hb, hopen, Bool.false_eq_true, if_false]
  refine ⟨_, ite_keeps (bufOf · n q) ((bufOf_congr ?_ q).trans (hclosed _ _)) (hclosed _ _)⟩
  rw [srcOf_raise, srcOf_srcCount]
  rfl

theorem execCopyLost_due {t n c : Nat} {s : State} (hn : n ≤ 1023) (h1 : 1 ≤ c) (h2 : c ≤ 2)
    (hdef : srcDefined s n = true) (hkind : ((srcOf s n).copyDef c).kind ≠ 0)
    (hlost : ((srcOf s n).copy c).lost = false)
    (hdue : ((srcOf s n).copy c).lastAt + 2 * framePeriod (srcOf s n).format + mergeWindow (srcOf s n)
      ≤ max s.clock.clk t) :
    exec (.copyLost t n c) s = .next (raiseSrc 2 0x2010 n [pack16_8 n c (bit ((srcOf s n).copy c).late)]
      (modSrc n (fun x => x.setCopy c (fun y => { y with lost := true, runGood := 0 })) (advance t s))) := by
  have hdef' : (srcOf s n).def_.isNone = false := by rw [Option.isNone_eq_false_iff]; exact hdef
  have hgo : ¬ ((srcOf s n).def_.isNone || decide (((srcOf s n).copyDef c).kind = 0) || ((srcOf s n).copy c).lost
      || decide (max s.clock.clk t < ((srcOf s n).copy c).lastAt + 2 * framePeriod (srcOf s n).format
        + mergeWindow (srcOf s n))) = true := by
    rw [hdef', hlost, decide_eq_false hkind, decide_eq_false (Nat.not_lt.mpr hdue)]
    exact Bool.false_ne_true
  exact (if_neg (not_beyondCopies hn h1 h2)).trans (congrArg _ (if_neg hgo))

end Sys2Proof.Machine
end

section
/-! PROOFS. The read-out of a source (O24). -/

-- The package is checked as one text; elaborating these proofs in order keeps the number of threads small.
set_option Elab.async false

namespace Sys2Proof.Machine

/-- What a read-out leaves of a new frame: its number, and that it is read and no repeat (R176). -/
def Src.reading (x : Src) : Nat × Bool × Bool × Nat := (x.lastRead, x.everRead, x.repeated, x.run)

theorem reading_afterNewFrame (n : Nat) (s : State) : (srcOf (afterNewFrame n s) n).reading = (srcOf s n).reading := by
  unfold afterNewFrame
  dsimp only
  split
  · simp [Src.reading]
  · split
    · simp [Src.reading]
    · rfl

theorem reading_readFrame (n q : Nat) (s : State) : (srcOf (readFrame n q s) n).reading = (q, true, false, 0) := by
  unfold readFrame
  dsimp only
  rw [reading_afterNewFrame, srcOf_modSrc]
  rfl

/-- A synchronised source that reads no new frame counts a repeat, and fails at the hold limit (R183). -/
theorem readRepeat_of_synchronised {n : Nat} {s : State} (h : (srcOf s n).phase = 3) :
    (srcOf (readRepeat n s) n).repeated = true ∧ (srcOf (readRepeat n s) n).run = (srcOf s n).run + 1
      ∧ (srcOf (readRepeat n s) n).newRun = 0
      ∧ (srcOf (readRepeat n s) n).phase = if (srcOf s n).cfg.hold ≤ (srcOf s n).run + 1 then 4 else 3 := by
  -- The repeat counts once a frame has been read (`he`), and it fails the source at the hold limit (`hk`).
  by_cases he : (srcOf s n).everRead = true <;> by_cases hk : (srcOf s n).cfg.hold ≤ (srcOf s n).run + 1 <;>
    simp [readRepeat, h, he, hk]

theorem execHoldFramesReached_due {t n : Nat} {s : State} (hn : n ≤ 1023) (hdef : srcDefined s n = true)
    (hhold : (srcOf s n).cfg.hold ≤ (srcOf s n).run)
    (hphase : (srcOf s n).phase = 1 ∨ (srcOf s n).phase = 2 ∨ (srcOf s n).phase = 3) :
    exec (.holdFramesReached t n) s = .next (failSource n 0 (advance t s)) := by
  have hgo : (srcDefined s n && decide ((srcOf s n).cfg.hold ≤ (srcOf s n).run)
      && (decide ((srcOf s n).phase = 1) || decide ((srcOf s n).phase = 2) || decide ((srcOf s n).phase = 3)))
      = true := by
    simpa [hdef, hhold, or_assoc] using hphase
  exact (if_neg (Nat.not_lt.mpr hn)).trans (congrArg _ (if_pos hgo))

theorem readSource_own {n : Nat} {s : State} (hfmt : (srcOf s n).fmtOver = false) (hcell : cellDown s n = false)
    (hpair : paired s = false) (hgroup : (srcOf s n).group = none) : readSource n s = readOwn n s := by
  simp [readSource, follows, leads, hfmt, hcell, hpair, hgroup]

theorem readOwn_reads {n : Nat} {b : FrameBuf} {bs : List FrameBuf} {s : State} (h : (srcOf s n).phase = 3)
    (hnew : candidates (srcOf s n) = b :: bs) : readOwn n s = readFrame n b.seq s := by
  simp [readOwn, h, hnew]

theorem readOwn_repeats {n : Nat} {s : State} (h : (srcOf s n).phase = 3) (hnew : candidates (srcOf s n) = []) :
    readOwn n s = readRepeat n s := by
  simp [readOwn, h, hnew]

theorem applyCfg_of_none {n : Nat} {s : State} (h : (srcOf s n).cfgNext = none) : applyCfg n s = s := by
  simp [applyCfg, h]

/-- The audio of a read-out and the failures that it finds in the ring leave the flow engines. -/
theorem srcOf_readOutDone (n m : Nat) (x : Src) (ps : List AudPacket) (s : State) :
    srcOf (ringFailures n (readAudio n x ps s)) m = srcOf s m :=
  have haud : Moves [.flash, .evt, .fst, .aud] s (ringFailures n (readAudio n x ps s)) :=
    ringFailures_moves n (readAudio_moves n x ps (.refl _ s))
  srcOf_sameFlow (haud.same .flow rfl) m

theorem execReadOutPoint_own {t n : Nat} (ps : List AudPacket) {s : State} (hn : n ≤ 1023)
    (hdef : srcDefined s n = true) (hs1 : inS1 s = false) (hrun : lanesRun s = true)
    (hdel : (srcOf s n).deleting = false) (hredef : (srcOf s n).redef = none) (hcfg : (srcOf s n).cfgNext = none)
    (hfmt : (srcOf s n).fmtOver = false) (hcell : cellDown s n = false) (hpair : paired s = false)
    (hgroup : (srcOf s n).group = none) :
    ∃ u, exec (.readOutPoint t n ps) s = .next u ∧ srcOf u n = srcOf (readOwn n (advance t s)) n := by
  have hgo : ¬ (!srcDefined (advance t s) n || inS1 (advance t s) || !lanesRun (advance t s)) = true := by
    have hs1' : inS1 (advance t s) = false := hs1
    have hrun' : lanesRun (advance t s) = true := hrun
    have hdef' : srcDefined (advance t s) n = true := hdef
    simp [hs1', hrun', hdef']
  have hstay : ¬ (srcOf (advance t s) n).deleting = true := by simp [hdel]
  refine ⟨_, (if_neg (Nat.not_lt.mpr hn)).trans (congrArg _ ((if_neg hgo).trans (if_neg hstay))), ?_⟩
  rw [srcOf_readOutDone, landSrcRedefine_of_none (s := advance t s) hredef, applyCfg_of_none (s := advance t s) hcfg,
    readSource_own (s := advance t s) hfmt hcell hpair hgroup]

end Sys2Proof.Machine

section
open Sys2Proof Sys2Proof.Machine

/-- Settles O24, one case per event. That the newest frame is the last to have arrived is the model's choice (log
39). -/
theorem flowEventsMoveTheFlow : Obligations.FlowEventsMoveTheFlow := by
  refine ⟨fun t n s hn h => ?srcDelete, fun t d s hd h => ?dstDelete, fun t n d old g s hn hredef hdef => ?redefine,
    fun t n c q fl fmt a s hn h1 h2 hrun hfl => ?frameStart, fun t n c k m q ds p w s hn h1 h2 hrun hq => ?parcel,
    fun t n q b s hn hb hopen hended halone hdue => ?window,
    fun t n c s hn h1 h2 hdef hkind hlost hdue => ?lost,
    fun t n ps s hn hdef hs1 hrun hdel hredef hcfg hfmt hcell hpair hgroup hphase => ?readOut,
    fun t n s hn hdef hhold hphase => ?hold⟩
  case srcDelete =>
    refine ⟨_, if_neg (Nat.not_lt.mpr hn), ?_⟩
    rw [landSrcDelete_of_deleting (s := advance t s) h, srcOf_raise, srcOf_dropSource, raise_xpt, dropSource_queue]
    exact ⟨rfl, rfl, rfl, rfl, fun e he => not_of_mem_discardEntries he⟩
  case dstDelete =>
    obtain ⟨hdst, hsel, hqueue⟩ := landDstDelete_removes (s := advance t s) h
    refine ⟨_, if_neg (Nat.not_lt.mpr hd), ?_⟩
    rw [hdst]
    exact ⟨rfl, hsel, rfl, rfl, hqueue⟩
  case redefine =>
    have hset := landSrcRedefine_settings (s := advance t s) hredef hdef
    exact ⟨_, if_neg (Nat.not_lt.mpr hn), by simpa [Src.settings] using hset⟩
  case frameStart =>
    obtain ⟨u, hu, hbegun⟩ := execFlowFrameStart_begins (t := t) (q := q) (fmt := fmt) a hn h1 h2 hrun hfl
    rw [beginFrame_intake] at hbegun
    simp only [Src.intake, Prod.mk.injEq] at hbegun
    obtain ⟨hdef, hseq, hframe, hbytes⟩ := hbegun
    exact ⟨u, hu, hseq, hframe, hbytes, hdef⟩
  case parcel =>
    obtain ⟨u, hu, hrest⟩ := execFlowParcel_adds (t := t) (k := k) (m := m) ds p w hn h1 h2 hrun hq
    have hcopy : (srcOf u n).copy c = _ := hrest.of_beside (p := (·.copy c))
    have hphase : (srcOf u n).phase = _ := hrest.of_beside (p := (·.phase))
    refine ⟨u, hu, ?_⟩
    rw [hcopy, hphase]
    simp [hq]
  case window =>
    obtain ⟨tainted, hclosed⟩ := bufOf_closeFrame (s := advance t s) hb hopen
    refine ⟨_, b.close _ tainted, execMergeWindowExpired_due hn hb hdue, ?_, rfl, rfl, rfl⟩
    rw [closeIfDone_of_windowOver (s := advance t s) hb hended halone hdue, hclosed]
    rfl
  case lost =>
    exact ⟨_, execCopyLost_due hn h1 h2 hdef hkind hlost hdue, by simp⟩
  case readOut =>
    obtain ⟨u, hu, hread⟩ := execReadOutPoint_own (t := t) ps hn hdef hs1 hrun hdel hredef hcfg hfmt hcell hpair hgroup
    refine ⟨fun b bs hnew => ⟨u, hu, ?_⟩, fun hnone => ⟨u, hu, ?_⟩⟩
    · rw [hread, readOwn_reads (s := advance t s) hphase hnew]
      have hreading := reading_readFrame n b.seq (advance t s)
      simpa [Src.reading] using hreading
    · rw [hread, readOwn_repeats (s := advance t s) hphase hnone]
      exact readRepeat_of_synchronised (s := advance t s) hphase
  case hold =>
    exact ⟨_, execHoldFramesReached_due hn hdef hhold hphase, by simp⟩

end

end

section
/-! PROOFS. The commands of the crosspoint: what they put into the take queue and take out of it, and the locks and planes
that they set (O25). -/

-- The package is checked as one text; elaborating these proofs in order keeps the number of threads small.
set_option Elab.async false

namespace Sys2Proof.Machine

/-! An accepted command leaves the crosspoint as its effect left it. -/

theorem acceptWith_xpt (op : Op) (c : HostCmd) (eff : Effect) (s : State) :
    (acceptWith op c eff s).xpt = (eff s c).1.xpt := by
  unfold acceptWith
  dsimp only
  split
  · rw [pairAfter_xpt, finish_xpt]
    exact ite_keeps State.xpt (countPassed_xpt _) rfl
  · rw [pairAfter_xpt, countPassed_xpt]

theorem runCommand_xpt {op : Op} {own : Refuse} {t : Nat} {c : HostCmd} {s : State} (eff : Effect)
    (h : accepted op own t c s = true) : (runCommand op own eff t c s).xpt = (eff (begun op t c s) c).1.xpt := by
  rw [runCommand_of_accepted eff h, acceptWith_xpt]

/-- A take that is not refused runs as every other command: no lock or hold counts it. -/
theorem runTake_of_accepted {op : Op} {own : Refuse} {t : Nat} {c : HostCmd} {s : State} (eff : Effect)
    (h : accepted op own t c s = true) : runTake op own eff t c s = runCommand op own eff t c s := by
  rw [runCommand_of_accepted eff h]
  simp only [accepted, admitted, Bool.and_eq_true, Bool.not_eq_true', Option.isNone_iff_eq_none] at h
  obtain ⟨⟨⟨⟨hserves, hnamed⟩, hrole⟩, hmode⟩, hown⟩ := h
  rw [begun] at hown
  simp [runTake, refusal, begun, hserves, hnamed, hrole, hmode, hown]

/-! The placing of entries in the take queue (R210, R211, R218). -/

/-- The target of an entry lies before an instant. -/
def Entry.lateBy (now : Nat) (e : Entry) : Bool := e.target.any (fun g => decide (g < now))

/-- An entry as it stands in the queue: with its place in the order of execution, and late and immediate when its target
has passed (R211, R218). -/
def Entry.queuedAt (now order : Nat) (e : Entry) : Entry :=
  { e with order := order, late := e.lateBy now, target := if e.lateBy now then none else e.target }

/-- Entries as they stand in the queue, the first with a given order. -/
def queuedFrom (now order : Nat) (es : List Entry) : List Entry :=
  (es.zipIdx order).map (fun p => p.1.queuedAt now p.2)

theorem queuedFrom_action (now order : Nat) (es : List Entry) :
    (queuedFrom now order es).map (·.action) = es.map (·.action) := by
  calc (queuedFrom now order es).map (·.action)
    _ = ((es.zipIdx order).map Prod.fst).map (·.action) := by
      simp only [queuedFrom, List.map_map]
      rfl
    _ = es.map (·.action) := by rw [List.zipIdx_map_fst]

theorem mem_queuedFrom {now order : Nat} {es : List Entry} {x : Entry} (h : x ∈ queuedFrom now order es) :
    ∃ e ∈ es, ∃ k, x = e.queuedAt now k := by
  obtain ⟨p, hp, rfl⟩ := List.mem_map.mp h
  exact ⟨p.1, List.fst_mem_of_mem_zipIdx hp, p.2, rfl⟩

/-- What the placing of entries reads and changes. -/
def State.placing (s : State) : List Entry × Nat × Table XptDst × Clock :=
  (s.xpt.queue, s.xpt.nextOrder, s.xpt.dst, s.clock)

@[simp] theorem raise_placing (sev cls code path : Nat) (ws : List Word) (s : State) :
    (raise sev cls code path ws s).placing = s.placing := by simp [State.placing]

/-- The entries of a list stand in order at the end of the queue, and selections, locks and clock are as they were. -/
def Placed (es : List Entry) (s u : State) : Prop :=
  u.placing = (s.xpt.queue ++ queuedFrom s.clock.now s.xpt.nextOrder es, s.xpt.nextOrder + es.length, s.xpt.dst, s.clock)

theorem placed_iff {es : List Entry} {s u : State} : Placed es s u ↔
    u.xpt.queue = s.xpt.queue ++ queuedFrom s.clock.now s.xpt.nextOrder es
      ∧ u.xpt.nextOrder = s.xpt.nextOrder + es.length ∧ u.xpt.dst = s.xpt.dst ∧ u.clock = s.clock := by
  simp only [Placed, State.placing, Prod.mk.injEq]

theorem Placed.cons {e : Entry} {es : List Entry} {s x u : State} (h : Placed [e] s x) (g : Placed es x u) :
    Placed (e :: es) s u := by
  rw [placed_iff] at h g ⊢
  obtain ⟨hqueue, horder, hdst, hclock⟩ := h
  obtain ⟨gqueue, gorder, gdst, gclock⟩ := g
  refine ⟨?queue, ?order, gdst.trans hdst, gclock.trans hclock⟩
  case queue => simp [gqueue, hqueue, horder, hclock, queuedFrom]
  case order => simp only [gorder, horder, List.length_cons, List.length_nil]; omega

theorem Placed.foldl {f : State → Entry → State} (hf : ∀ s e, Placed [e] s (f s e)) (es : List Entry) (s : State) :
    Placed es s (es.foldl f s) := by
  induction es generalizing s with
  | nil => exact placed_iff.mpr ⟨(List.append_nil _).symm, rfl, rfl, rfl⟩
  | cons e es ih => exact (hf s e).cons (ih _)

theorem Placed.before {es : List Entry} {s x u : State} (h : Placed es x u) (hx : x.placing = s.placing) :
    Placed es s u := by
  simp only [State.placing, Prod.mk.injEq] at hx
  obtain ⟨hqueue, horder, hdst, hclock⟩ := hx
  rw [placed_iff] at h ⊢
  rwa [hqueue, horder, hdst, hclock] at h

@[simp] theorem makeLate_placing (us : Nat) (e : Entry) (s : State) : (makeLate us e s).placing = s.placing := by
  unfold makeLate
  split
  · exact raise_placing ..
  · rfl

/-- One entry enters the queue. -/
def enqueue (e : Entry) (s : State) : State :=
  onXpt (fun x => { x with
    queue := x.queue ++ [e.queuedAt s.clock.now s.xpt.nextOrder], nextOrder := x.nextOrder + 1 }) s

theorem enqueue_placed (e : Entry) (s : State) : Placed [e] s (enqueue e s) := rfl

/-- The use of the queue is noted, and reported when it grows high (Table 6.18). -/
def noteUse (s : State) : State :=
  let used := s.xpt.queue.length
  let s := onXpt (fun x => { x with highWater := max x.highWater used }) s
  if 3584 < used && !s.xpt.highSent then
    raise 2 3 0x3030 0 [pack16 used 0] (onXpt (fun x => { x with highSent := true }) s)
  else s

theorem noteUse_placing (s : State) : (noteUse s).placing = s.placing :=
  ite_keeps State.placing (raise_placing ..) rfl

/-- Beside entering the queue, an entry is only counted when it is a take, and reported when it is late. -/
theorem placeEntries_foldl (es : List Entry) (s : State) :
    ∃ f, (∀ s e, Placed [e] s (f s e)) ∧ placeEntries es s = noteUse (es.foldl f s) := by
  refine ⟨_, fun s e => Eq.trans ?entered (enqueue_placed e s), rfl⟩
  case entered =>
    dsimp only
    unfold enqueue Entry.queuedAt Entry.lateBy
    cases e.target with
    | none => cases e.action <;> rfl
    | some g =>
      refine ite_keeps State.placing ((makeLate_placing ..).trans ?late) ?inTime
      case late => cases e.action <;> rfl
      case inTime => cases e.action <;> rfl

theorem placeEntries_placed (es : List Entry) (s : State) : Placed es s (placeEntries es s) := by
  obtain ⟨f, hf, h⟩ := placeEntries_foldl es s
  rw [h]
  exact (noteUse_placing _).trans (Placed.foldl hf es s)

/-- The entry of a command, at an index of the command (R229). -/
def Entry.ofCommand (c : HostCmd) (wait : Bool) (i : Nat) (e : Entry) : Entry :=
  { e with session := c.session, role := c.role, seq := c.seq, wait := wait, index := i }

/-- The entries of a command. -/
def commandEntries (c : HostCmd) (wait : Bool) (es : List Entry) : List Entry :=
  ((List.range es.length).zip es).map (fun p => p.2.ofCommand c wait p.1)

@[simp] theorem commandEntries_length (c : HostCmd) (wait : Bool) (es : List Entry) :
    (commandEntries c wait es).length = es.length := by simp [commandEntries]

theorem commandEntries_action (c : HostCmd) (wait : Bool) (es : List Entry) :
    (commandEntries c wait es).map (·.action) = es.map (·.action) := by
  calc (commandEntries c wait es).map (·.action)
    _ = (((List.range es.length).zip es).map Prod.snd).map (·.action) := by
      simp only [commandEntries, List.map_map]
      rfl
    _ = es.map (·.action) := by rw [List.map_snd_zip (by simp)]

theorem mem_commandEntries {c : HostCmd} {wait : Bool} {es : List Entry} {x : Entry} (h : x ∈ commandEntries c wait es) :
    ∃ e ∈ es, ∃ i, x = e.ofCommand c wait i := by
  obtain ⟨p, hp, rfl⟩ := List.mem_map.mp h
  exact ⟨p.2, (List.of_mem_zip hp).2, p.1, rfl⟩

theorem placeCommand_placed (op : Op) (c : HostCmd) (wait : Bool) (es : List Entry) (s : State) :
    Placed (commandEntries c wait es) s (placeCommand op c wait es s) :=
  (placeEntries_placed (commandEntries c wait es) _).before (ite_keeps State.placing rfl rfl)

/-- What an accepted take command leaves of queue, order, selections and locks, when its effect places entries. -/
theorem runTake_places {op : Op} {own : Refuse} {eff : Effect} {t : Nat} {c : HostCmd} {s : State} {wait : Bool}
    {es : List Entry} (h : accepted op own t c s = true)
    (he : (eff (begun op t c s) c).1 = placeCommand op c wait es (begun op t c s)) :
    (runTake op own eff t c s).xpt.queue
        = s.xpt.queue ++ queuedFrom (advance t s).clock.now s.xpt.nextOrder (commandEntries c wait es)
      ∧ (runTake op own eff t c s).xpt.nextOrder = s.xpt.nextOrder + es.length
      ∧ (runTake op own eff t c s).xpt.dst = s.xpt.dst := by
  obtain ⟨hqueue, horder, hdst, -⟩ := placed_iff.mp (placeCommand_placed op c wait es (begun op t c s))
  rw [runTake_of_accepted eff h, runCommand_xpt eff h, he]
  exact ⟨hqueue, by simpa using horder, hdst⟩

theorem effXptTakeBatch_places (c : HostCmd) (s : State) : (effXptTakeBatch s c).1 =
    placeCommand .xptTakeBatch c (bitOf (u8 c.params 0) 0) (batchEntries 0 c none) s := by
  rw [effXptTakeBatch]

theorem effXptTakeAt_places (c : HostCmd) (s : State) : (effXptTakeAt s c).1 =
    placeCommand .xptTakeAt c (bitOf (u8 c.params 12) 0) (batchEntries 12 c (some (targetOf c.params 0))) s := by
  rw [effXptTakeAt]

theorem batchEntries_action (o : Nat) (c : HostCmd) (g : Option Nat) : (batchEntries o c g).map (·.action)
    = (takePairs c.params (o + 8) (u16 c.params (o + 2))).map (fun p => Action.video p.1 (selOf p.2)) := by
  simp [batchEntries]

@[simp] theorem batchEntries_length (o : Nat) (c : HostCmd) (g : Option Nat) :
    (batchEntries o c g).length = u16 c.params (o + 2) := by simp [batchEntries, takePairs]

/-- The entries of a batch as they stand in the queue (R218, R229). -/
theorem mem_queued_batch {now order o : Nat} {c : HostCmd} {wait : Bool} {g : Option Nat} {x : Entry}
    (h : x ∈ queuedFrom now order (commandEntries c wait (batchEntries o c g))) :
    x.session = c.session ∧ x.tag = u16 c.params (o + 4) ∧ x.sealed_ = none
      ∧ (g = none → x.target = none)
      ∧ ∀ a, g = some a → x.late = decide (a < now) ∧ x.target = if a < now then none else some a := by
  obtain ⟨_, hcommand, k, rfl⟩ := mem_queuedFrom h
  obtain ⟨_, hbatch, i, rfl⟩ := mem_commandEntries hcommand
  obtain ⟨p, -, rfl⟩ := List.mem_map.mp hbatch
  refine ⟨rfl, rfl, rfl, ?immediate, ?timed⟩
  case immediate => rintro rfl; rfl
  case timed => rintro a rfl; simp [Entry.queuedAt, Entry.lateBy, Entry.ofCommand]

/-! XPT_QUEUE_CANCEL. -/

/-- The crosspoint beside its queue, its counters and the replies that wait: what a discard leaves as it was. -/
def Xpt.beside (x : Xpt) : Xpt := { x with queue := [], highSent := false, cnt := [], waits := [] }

theorem reportDiscard_beside (cause : Nat) (e : Entry) (s : State) :
    (reportDiscard cause e s).xpt.beside = s.xpt.beside := by
  unfold reportDiscard
  split
  next => rw [raise_xpt]; rfl
  next => rw [cancelAudio, raise_xpt]; exact ite_keeps (·.xpt.beside) rfl rfl
  next => rw [rejectCommit, raise_xpt]; rfl
  next => rfl

theorem entryGone_beside (e : Entry) (res : Option (Status × Nat)) (frame : Nat) (s : State) :
    (entryGone e res frame s).xpt.beside = s.xpt.beside := by
  unfold entryGone
  dsimp only
  repeat' split
  all_goals simp [Xpt.beside]

theorem queueFell_beside (s : State) : (queueFell s).xpt.beside = s.xpt.beside :=
  ite_keeps (·.xpt.beside) rfl rfl

theorem discardEntries_beside (p : Entry → Bool) (cause : Nat) (s : State) :
    (discardEntries p cause s).xpt.beside = s.xpt.beside := by
  rw [discardEntries, queueFell_beside]
  exact foldl_keeps (·.xpt.beside) _ _ (fun s e => (entryGone_beside ..).trans (reportDiscard_beside ..))

theorem discardEntries_dst (p : Entry → Bool) (cause : Nat) (s : State) :
    (discardEntries p cause s).xpt.dst = s.xpt.dst := by
  simpa only [Xpt.beside] using congrArg Xpt.dst (discardEntries_beside p cause s)

/-! XPT_LOCK and XPT_UNLOCK. -/

theorem xdst_modXd_other {m d : Nat} (h : m ≠ d) (f : XptDst → XptDst) (s : State) :
    xdst (modXd d f s) m = xdst s m := tget_tmod_other _ _ _ h.symm

@[simp] theorem xdst_raiseLock (d state forced owner actor m : Nat) (s : State) :
    xdst (raiseLock d state forced owner actor s) m = xdst s m := xdst_raise ..

theorem effXptLock_sets (c : HostCmd) (s : State) :
    (xdst (effXptLock s c).1 (u16 c.params 0)).lock = u8 c.params 2
      ∧ (xdst (effXptLock s c).1 (u16 c.params 0)).selected = (xdst s (u16 c.params 0)).selected
      ∧ ((xdst s (u16 c.params 0)).lock ≠ u8 c.params 2 →
        (xdst (effXptLock s c).1 (u16 c.params 0)).owner = c.session)
      ∧ ∀ d, d ≠ u16 c.params 0 → xdst (effXptLock s c).1 d = xdst s d := by
  unfold effXptLock
  dsimp only
  split
  next hset => exact ⟨hset, rfl, fun hne => absurd hset hne, fun _ _ => rfl⟩
  next =>
    simp only [xdst_raiseLock, xdst_modXd, ne_eq, implies_true, true_and]
    exact fun d hd => xdst_modXd_other hd ..

theorem effXptUnlock_frees (c : HostCmd) (s : State) :
    (xdst (effXptUnlock s c).1 (u16 c.params 0)).lock = 0
      ∧ (xdst (effXptUnlock s c).1 (u16 c.params 0)).selected = (xdst s (u16 c.params 0)).selected
      ∧ ∀ d, d ≠ u16 c.params 0 → xdst (effXptUnlock s c).1 d = xdst s d := by
  unfold effXptUnlock
  dsimp only
  split
  next hfree => exact ⟨hfree, rfl, fun _ _ => rfl⟩
  next =>
    simp only [xdst_raiseLock, xdst_modXd, true_and]
    exact fun d hd => xdst_modXd_other hd ..

/-! XPT_TP_SET. -/

theorem tpCfg_congr {s x : State} (h : x.xpt = s.xpt) (p : Nat) : tpCfg x p = tpCfg s p := by simp only [tpCfg, h]

theorem audClock_xpt (before s : State) : (audClock before s).xpt = s.xpt :=
  (audClock_moves before (.refl [.flash, .evt] s)).same .xpt rfl

/-- The plane that an XPT_TP_SET carries (Table 6.8). -/
def tpCfgOf (c : HostCmd) : TpCfg := ⟨u8 c.params 1, u8 c.params 2, signedOf 32 (u32 c.params 4)⟩

theorem tpCfg_effXptTpSet (c : HostCmd) (s : State) (p : Nat) :
    tpCfg (effXptTpSet s c).1 p = if u8 c.params 0 = p then tpCfgOf c else tpCfg s p := by
  unfold effXptTpSet
  dsimp only
  split
  case isTrue hsame =>
    split
    case isTrue hp => rw [← hp]; exact hsame.symm
    case isFalse => rfl
  case isFalse =>
    refine (tpCfg_congr (s := onXpt (fun x => { x with tps := tset x.tps (u8 c.params 0) (tpCfgOf c) }) s) ?_ p).trans
      (tget_tset ..)
    rw [audClock_xpt, raise_xpt]
    exact ite_keeps State.xpt rfl rfl

end Sys2Proof.Machine

section
open Sys2Proof Sys2Proof.Machine

/-- Settles O25, one case per command. -/
theorem crosspointCommandsTakeEffect : Obligations.CrosspointCommandsTakeEffect := by
  refine ⟨fun t c s h => ?take, fun t c s h => ?batch, fun t c s h => ?takeAt, fun t c s h => ?cancel,
    fun t c s h => ?lock, fun t c s h => ?unlock, fun t c s h => ?query, fun t c s h => ?tpSet, fun t c s h => ?status⟩
  case take =>
    obtain ⟨hqueue, -, hdst⟩ := runTake_places (eff := effXptTake) h rfl
    exact ⟨_, rfl, _, hqueue, rfl, rfl, rfl, rfl, rfl, rfl, rfl, rfl, rfl, hdst⟩
  case batch =>
    obtain ⟨hqueue, horder, hdst⟩ := runTake_places h (effXptTakeBatch_places ..)
    refine ⟨_, rfl, _, hqueue, ?_, fun x hx => ?_, by rwa [batchEntries_length] at horder, hdst⟩
    · rw [queuedFrom_action, commandEntries_action, batchEntries_action]
    · obtain ⟨hsession, htag, hsealed, himmediate, -⟩ := mem_queued_batch hx
      exact ⟨hsession, htag, hsealed, himmediate rfl⟩
  case takeAt =>
    obtain ⟨hqueue, -, hdst⟩ := runTake_places h (effXptTakeAt_places ..)
    refine ⟨_, rfl, _, hqueue, ?_, fun x hx => ?_, hdst⟩
    · rw [queuedFrom_action, commandEntries_action, batchEntries_action]
    · obtain ⟨hsession, htag, hsealed, -, htimed⟩ := mem_queued_batch hx
      exact ⟨hsession, htag, hsealed, htimed _ rfl⟩
  case cancel =>
    refine ⟨_, rfl, ?_⟩
    rw [runCommand_xpt effXptQueueCancel h]
    exact ⟨discardEntries_queue .., discardEntries_dst ..⟩
  case lock =>
    refine ⟨_, rfl, ?_⟩
    simp only [xdst_congr (runCommand_xpt effXptLock h)]
    exact effXptLock_sets c (begun .xptLock t c s)
  case unlock =>
    refine ⟨_, rfl, ?_⟩
    simp only [xdst_congr (runCommand_xpt effXptUnlock h)]
    exact effXptUnlock_frees c (begun .xptUnlock t c s)
  case query => exact congrArg _ (runCommand_answered h rfl)
  case tpSet =>
    refine ⟨_, rfl, ?_⟩
    simp only [tpCfg_congr (runCommand_xpt effXptTpSet h)]
    exact ⟨(tpCfg_effXptTpSet ..).trans (if_pos rfl), fun p hp => (tpCfg_effXptTpSet ..).trans (if_neg hp.symm)⟩
  case status => exact congrArg _ (runCommand_answered h rfl)

end

end

section
/-! PROOFS. Planes, realignments, compare units, pulse outputs and the time record (O44). -/

-- The package is checked as one text; elaborating these proofs in order keeps the number of threads small.
set_option Elab.async false

namespace Sys2Proof.Machine

/-! Reading a plane, a compare unit or a pulse output. -/

theorem planeOf_congr {s x : State} (h : x.tim.planes = s.tim.planes) (p : Nat) : planeOf x p = planeOf s p := by
  simp only [planeOf, h]

theorem pulseOf_congr {s x : State} (h : x.tim.pulses = s.tim.pulses) (n : Nat) : pulseOf x n = pulseOf s n := by
  simp only [pulseOf, h]

@[simp] theorem planeOf_modPlane (p : Nat) (f : Plane → Plane) (s : State) :
    planeOf (modPlane p f s) p = f (planeOf s p) := tget_tmod_same ..

theorem planeOf_modPlane_other {q p : Nat} (h : q ≠ p) (f : Plane → Plane) (s : State) :
    planeOf (modPlane p f s) q = planeOf s q := tget_tmod_other _ _ _ h.symm

@[simp] theorem pulseOf_modPulse (n : Nat) (f : Pulse → Pulse) (s : State) :
    pulseOf (modPulse n f s) n = f (pulseOf s n) := tget_tmod_same ..

@[simp] theorem planeOf_raise (p sev cls code path : Nat) (ws : List Word) (s : State) :
    planeOf (raise sev cls code path ws s) p = planeOf s p :=
  planeOf_congr (congrArg Tim.planes (raise_tim ..)) p

@[simp] theorem modPlane_pulses (p : Nat) (f : Plane → Plane) (s : State) :
    (modPlane p f s).tim.pulses = s.tim.pulses := rfl

@[simp] theorem modPulse_planes (n : Nat) (f : Pulse → Pulse) (s : State) :
    (modPulse n f s).tim.planes = s.tim.planes := rfl

/-! The passing of time alone changes none of them. -/

@[simp] theorem planeOf_advance (t p : Nat) (s : State) : planeOf (advance t s) p = planeOf s p := rfl

@[simp] theorem pulseOf_advance (t n : Nat) (s : State) : pulseOf (advance t s) n = pulseOf s n := rfl

@[simp] theorem compareOf_advance (t k : Nat) (s : State) : compareOf (advance t s) k = compareOf s k := rfl

@[simp] theorem tpCfg_advance (t p : Nat) (s : State) : tpCfg (advance t s) p = tpCfg s p := rfl

@[simp] theorem planeAlign_advance (t p : Nat) (s : State) : planeAlign (advance t s) p = planeAlign s p := rfl

@[simp] theorem planeKnown_advance (t p : Nat) (s : State) : planeKnown (advance t s) p = planeKnown s p := rfl

@[simp] theorem pulseKnown_advance (t n : Nat) (s : State) : pulseKnown (advance t s) n = pulseKnown s n := rfl

@[simp] theorem lanesRun_advance (t : Nat) (s : State) : lanesRun (advance t s) = lanesRun s := rfl

/-! The time as a master reads it (R452). -/

theorem nowSeconds_readNowNs (m : Nat) (s : State) : nowSeconds (readNowNs m s).2 m = s.clock.now / 1000000000 := by
  have hlatch : tfind (readNowNs m s).2.tim.latch m = some (s.clock.now / 1000000000) :=
    (tfind_tset ..).trans (if_pos rfl)
  rw [nowSeconds, hlatch]
  rfl

/-! The frame starts of a plane (R203, R204, R442). -/

theorem countStart_slow {p : Nat} {s : State} (h : (planeOf s p).started = true) (hstep : (planeOf s p).stepping = false) :
    planeOf (countStart p true s) p = { planeOf s p with
      slow := ((planeOf s p).slow + 1) % 0x100000000, fast := ((planeOf s p).fast + 1) % 0x100000000
      last := some s.clock.now, lastAny := some s.clock.now } :=
  (planeOf_modPlane ..).trans (by simp [h, hstep])

theorem countStart_fast {p : Nat} {s : State} (h : (planeOf s p).started = true) (hstep : (planeOf s p).stepping = false) :
    planeOf (countStart p false s) p = { planeOf s p with
      fast := ((planeOf s p).fast + 1) % 0x100000000, lastAny := some s.clock.now } :=
  (planeOf_modPlane ..).trans (by simp [h, hstep])

theorem countStart_first {p : Nat} {s : State} (h : (planeOf s p).started = false) (hadopt : (planeOf s p).adopt = none) :
    (planeOf (countStart p true s) p).started = true
      ∧ (planeOf (countStart p true s) p).slow = countAt (tpCfg s p).family s.clock.now := by
  rw [countStart, planeOf_modPlane]
  simp [h, hadopt]

theorem countStart_other {q p : Nat} (h : q ≠ p) (slow : Bool) (s : State) :
    planeOf (countStart p slow s) q = planeOf s q := planeOf_modPlane_other h ..

/-- What follows the count of a frame start, at pulse outputs and cue programs, leaves the planes. -/
theorem execPlaneFrameStart_counts {t p : Nat} {slow : Bool} {s : State} (hp : p ≤ 7) (hrun : lanesRun s = true)
    (hf : (tpCfg s p).family ≠ 0) (hslow : (slow || famHasFast (tpCfg s p).family) = true) :
    ∃ u, exec (.planeFrameStart t p slow) s = .next u
      ∧ u.tim.planes = (countStart p slow (advance t s)).tim.planes :=
  ⟨_, (if_neg (Nat.not_lt.mpr hp)).trans (congrArg _ (if_pos (by simp [hrun, hf, hslow]))), rfl⟩

/-! Realignments (R443). -/

/-- A realignment that is finished leaves the queue, and leaves planes and pulse outputs. -/
theorem finishRealigns_keeps (s : State) :
    (finishRealigns s).tim.planes = s.tim.planes ∧ (finishRealigns s).tim.pulses = s.tim.pulses := by
  have hgone (e : Entry) (k : Nat) (x : State) : (entryGone e none k (freeEntry e x)).tim = x.tim :=
    (entryGone_moves e none k (freeEntry_moves e (.refl [.host, .xpt, .red, .out] x))).same .tim rfl
  refine Prod.mk.inj (foldl_keeps (fun s => (s.tim.planes, s.tim.pulses)) _ s fun s r => ?_)
  dsimp only
  split
  · rw [hgone]; rfl
  · rfl

theorem execRealignLands_plane {t p : Nat} {r : Realign} {s : State} (hp : p ≤ 7) (hknown : planeKnown s p = true)
    (hr : s.tim.realigns = [r]) (hwants : r.wants false p ((planeOf s p).lastAny.getD 0) = true) :
    ∃ u, exec (.realignLands t false p) s = .next u
      ∧ u.tim.planes = (realignPlane p r (advance t s)).tim.planes
      ∧ u.tim.pulses = (realignPlane p r (advance t s)).tim.pulses := by
  refine ⟨_, if_neg (Nat.not_lt.mpr hp), ?_⟩
  simp [finishRealigns_keeps, hr, hwants, hknown]

theorem execRealignLands_pulse {t n : Nat} {r : Realign} {s : State} (hn : n ≤ 7) (hknown : pulseKnown s n = true)
    (hr : s.tim.realigns = [r]) (hwants : r.wants true n (advance t s).clock.now = true) :
    ∃ u, exec (.realignLands t true n) s = .next u
      ∧ u.tim.planes = (realignPulse n r (advance t s)).tim.planes
      ∧ u.tim.pulses = (realignPulse n r (advance t s)).tim.pulses := by
  refine ⟨_, if_neg (Nat.not_lt.mpr hn), ?_⟩
  simp [finishRealigns_keeps, hr, hwants, hknown]

theorem realignPlane_of_known {n : Nat} {x : Int} {r : Realign} {s : State} (h : planeAlign s n = some x) :
    (r.slew = true → (planeOf (realignPlane n r s) n).slew = some r.rate ∧ (planeOf (realignPlane n r s) n).removing = x)
      ∧ (r.slew = false → (planeOf (realignPlane n r s) n).stepping = true ∧ (planeOf (realignPlane n r s) n).slew = none)
      ∧ (∀ q, q ≠ n → planeOf (realignPlane n r s) q = planeOf s q)
      ∧ (realignPlane n r s).tim.pulses = s.tim.pulses := by
  unfold realignPlane
  rw [h]
  cases r.slew <;> simp +contextual [planeOf_modPlane_other]

theorem realignPulse_lands (n : Nat) (r : Realign) (s : State) :
    (r.slew = true → (pulseOf (realignPulse n r s) n).slew = some r.rate)
      ∧ (r.slew = false → (pulseOf (realignPulse n r s) n).next
          = (((pulseOf s n).next : Int) - pulseAlign (pulseOf s n)).toNat)
      ∧ (realignPulse n r s).tim.planes = s.tim.planes := by
  unfold realignPulse
  cases r.slew <;> simp

theorem execRealignSlewDone_plane {t n k : Nat} {s : State} (hn : n ≤ 7) (hslew : (planeOf s n).slew = some k)
    (halign : planeAlign s n = some 0) :
    ∃ u, exec (.realignSlewDone t false n) s = .next u ∧ (planeOf u n).slew = none
      ∧ (planeOf u n).slow = countAt (tpCfg s n).family ((planeOf s n).last.getD 0) := by
  refine ⟨_, if_neg (Nat.not_lt.mpr hn), ?_⟩
  simp [hslew, halign]

theorem execRealignSlewDone_pulse {t n k : Nat} {s : State} (hn : n ≤ 7) (hslew : (pulseOf s n).slew = some k)
    (halign : pulseAlign (pulseOf s n) = 0) :
    ∃ u, exec (.realignSlewDone t true n) s = .next u ∧ (pulseOf u n).slew = none
      ∧ (pulseOf u n).next = (pulseOf s n).next := by
  refine ⟨_, if_neg (Nat.not_lt.mpr hn), ?_⟩
  simp [hslew, halign]

/-! Pulse outputs (R447). -/

theorem pulseOf_startPulse (n width : Nat) (s : State) : pulseOf (startPulse n width s) n =
    { pulseOf s n with active := true, endAt := s.clock.clk + width } :=
  ite_keeps (pulseOf · n) (pulseOf_modPulse ..) (pulseOf_modPulse ..)

theorem risePulse_periodic {n : Nat} {s : State} (hmode : (pulseOf s n).mode = 2)
    (hdue : (pulseOf s n).next ≤ s.clock.now) : pulseOf (risePulse n s) n =
      { pulseOf s n with
        active := true, endAt := s.clock.clk + (pulseOf s n).width, next := (pulseOf s n).after } := by
  simp [risePulse, hmode, hdue, pulseOf_startPulse]

theorem Pulse.after_of_steady {x : Pulse} (h : x.slew = none) : x.after = x.next + x.period := by
  simp [Pulse.after, h]

theorem endPulse_of_active {n : Nat} {s : State} (h : (pulseOf s n).active = true) : endPulse n s =
    emit (.pulse s.clock.clk n ((pulseOf s n).level false)) (modPulse n (fun y => { y with active := false }) s) :=
  if_pos h

theorem Pulse.level_outside (x : Pulse) : x.level false = (x.polarity == 1) := by simp [Pulse.level]

theorem execPulseEdge_rise {t n : Nat} {s : State} (hn : n ≤ 7) (hb : s.mode ≠ .boot) (hr : s.mode ≠ .retain) :
    exec (.pulseEdge t n true) s = .next (risePulse n (advance t s)) :=
  (if_neg (Nat.not_lt.mpr hn)).trans (congrArg _ (if_neg (by simp [hb, hr])))

theorem execPulseEdge_end {t n : Nat} {s : State} (hn : n ≤ 7) (hb : s.mode ≠ .boot) (hr : s.mode ≠ .retain)
    (hactive : (pulseOf s n).active = true) (hend : (pulseOf s n).endAt ≤ max s.clock.clk t) :
    exec (.pulseEdge t n false) s = .next (endPulse n (advance t s)) :=
  (if_neg (Nat.not_lt.mpr hn)).trans (congrArg _ ((if_neg (by simp [hb, hr])).trans
    ((if_neg Bool.false_ne_true).trans (if_pos (by simp [hactive, hend])))))

/-! Compare units (R444, R445). -/

/-- A unit whose target is reached: FIRED, or at its next target. -/
def Compare.fired (x : Compare) : Compare :=
  if x.period = 0 then { x with state := 2 }
  else { x with target := (x.target + x.period) % 0x10000000000, started := false }

/-- What a firing unit changes of the time subsystem beside its pulse. -/
def Tim.units (m : Tim) : Table Compare × Counters := (m.compares, m.cnt)

theorem startPulse_units (n width : Nat) (s : State) : (startPulse n width s).tim.units = s.tim.units :=
  ite_keeps (·.tim.units) rfl rfl

theorem execCompareFire_reached {t k : Nat} {s : State} (hk : k ≤ 31) (harmed : (compareOf s k).state = 1)
    (hdue : compareDist (compareOf s k).target (advance t s).clock.now ≤ 0) :
    ∃ u, exec (.compareFire t k) s = .next u ∧ u.tim.compares = tset s.tim.compares k (compareOf s k).fired
      ∧ u.tim.cnt = bump s.tim.cnt 6 := by
  refine ⟨_, (if_neg (Nat.not_lt.mpr hk)).trans (congrArg _ (if_pos (by simp [harmed, hdue]))), ?_⟩
  refine And.imp (congrArg (tset · k _)) (congrArg (bump · 6)) (Prod.mk.inj ?units)
  refine ite_keeps (·.tim.units) ((congrArg Tim.units (raise_tim ..)).trans ?_) ?_
  all_goals exact ite_keeps (·.tim.units) (startPulse_units ..) rfl

/-! The time record (R448). -/

theorem execAonTimeRecord_records {t : Nat} {s : State} (hup : s.seq.aonUp = true) (hrun : s.clock.running = true) :
    exec (.aonTimeRecord t) s = .next (recordTime (advance t s)) :=
  congrArg Host.Outcome.next (if_pos (by simp [hup, hrun]))

end Sys2Proof.Machine

section
open Sys2Proof Sys2Proof.Machine

/-- Settles O44, one case per event. -/
theorem planesUnitsAndOutputsFollowTheClock : Obligations.PlanesUnitsAndOutputsFollowTheClock := by
  refine ⟨fun t m s => ?nowNs, fun t p s hp hrun hf hstep => ?frameStart, fun t p x r s hp halign hr hwants => ?plane,
    fun t n r s hn hknown hr hwants => ?pulse, fun t n k s hn => ?slewDone, fun t k s hk harmed hdue => ?compare,
    fun t n s hn hb hret => ?edge, fun t s hup hrun => ?record⟩
  case nowNs => exact ⟨_, rfl, nowSeconds_readNowNs m (advance t s), rfl⟩
  case frameStart =>
    refine ⟨fun hstarted => ?slow, fun hstarted hfast => ?fast, fun hnew hadopt => ?first⟩
    case slow =>
      obtain ⟨u, hu, hplanes⟩ := execPlaneFrameStart_counts (t := t) (slow := true) hp hrun hf rfl
      refine ⟨u, hu, ?_⟩
      simp only [planeOf_congr hplanes, countStart_slow (s := advance t s) hstarted hstep]
      exact ⟨rfl, rfl, trivial, fun q hq => countStart_other hq ..⟩
    case fast =>
      obtain ⟨u, hu, hplanes⟩ := execPlaneFrameStart_counts (t := t) (slow := false) hp hrun hf hfast
      refine ⟨u, hu, ?_⟩
      simp only [planeOf_congr hplanes, countStart_fast (s := advance t s) hstarted hstep]
      exact ⟨rfl, rfl, trivial⟩
    case first =>
      obtain ⟨u, hu, hplanes⟩ := execPlaneFrameStart_counts (t := t) (slow := true) hp hrun hf rfl
      refine ⟨u, hu, ?_⟩
      rw [planeOf_congr hplanes]
      exact countStart_first (s := advance t s) hnew hadopt
  case plane =>
    have hknown : planeKnown s p = true := by rw [planeKnown, halign]; rfl
    obtain ⟨u, hu, hplanes, hpulses⟩ := execRealignLands_plane (t := t) hp hknown hr hwants
    refine ⟨u, hu, ?_⟩
    simp only [planeOf_congr hplanes, hpulses]
    exact realignPlane_of_known (s := advance t s) halign
  case pulse =>
    obtain ⟨u, hu, hplanes, hpulses⟩ := execRealignLands_pulse (t := t) hn hknown hr hwants
    refine ⟨u, hu, ?_⟩
    simp only [pulseOf_congr hpulses, hplanes]
    exact realignPulse_lands n r (advance t s)
  case slewDone => exact ⟨execRealignSlewDone_plane hn, execRealignSlewDone_pulse hn⟩
  case compare =>
    obtain ⟨u, hu, hunits, hcnt⟩ := execCompareFire_reached (t := t) hk harmed hdue
    have hunit : compareOf u k = (compareOf s k).fired := by rw [compareOf, hunits, tget_tset_same]
    have hother (j : Nat) (hj : j ≠ k) : compareOf u j = compareOf s j := by
      rw [compareOf, hunits, tget_tset_other _ _ _ hj.symm, compareOf]
    refine ⟨u, hu, by rw [hcnt, bump_same], fun hsingle => ?_, fun hperiodic => ?_, hother⟩
    · rw [hunit, Compare.fired, if_pos hsingle]
    · rw [hunit, Compare.fired, if_neg hperiodic]
      exact ⟨harmed, rfl⟩
  case edge =>
    refine ⟨fun hmode hdue => ?rise, fun hactive hend => ?fall⟩
    case rise =>
      refine ⟨_, execPulseEdge_rise hn hb hret, ?_⟩
      rw [risePulse_periodic (s := advance t s) hmode hdue]
      exact ⟨rfl, rfl, Pulse.after_of_steady⟩
    case fall =>
      refine ⟨_, execPulseEdge_end hn hb hret hactive hend, ?_⟩
      rw [endPulse_of_active (s := advance t s) hactive, ← Pulse.level_outside]
      exact ⟨congrArg Pulse.active (pulseOf_modPulse ..), rfl⟩
  case record =>
    exact ⟨_, _, execAonTimeRecord_records hup hrun, rfl, if_pos hrun, rfl, rfl, rfl⟩

end

end

section
/-! PROOFS. The commands of chapter 7: what they leave of the program store, of the instances and of the take queue
(O28). -/

-- The package is checked as one text; elaborating these proofs in order keeps the number of threads small.
set_option Elab.async false

namespace Sys2Proof.Machine

/-! The course of an accepted command, before and after its effect. -/

theorem judged_of_accepted {op : Op} {own : Refuse} {t : Nat} {c : HostCmd} {s : State}
    (h : accepted op own t c s = true) : hostServes (advance t s) = true
      ∧ (if c.named then none else refusal op own (begun op t c s) c) = none := by
  simp only [accepted, admitted, Bool.and_eq_true, Bool.not_eq_true', Option.isNone_iff_eq_none] at h
  obtain ⟨⟨⟨⟨hserves, hnamed⟩, hrole⟩, hmode⟩, hown⟩ := h
  rw [begun] at hown ⊢
  exact ⟨hserves, by simp [refusal, hnamed, hrole, hmode, hown]⟩

/-- An accepted command only counts, replies and names itself to the partner after its effect. -/
theorem runCommand_after_effect {op : Op} {own : Refuse} {t : Nat} {c : HostCmd} {s : State} (eff : Effect)
    (h : accepted op own t c s = true) :
    Moves [.host, .red, .out] (eff (begun op t c s) c).1 (runCommand op own eff t c s) := by
  rw [runCommand_of_accepted eff h]
  exact acceptWith_moves op c eff (.refl _ _)

theorem runCommand_cue {op : Op} {own : Refuse} {t : Nat} {c : HostCmd} {s : State} (eff : Effect)
    (h : accepted op own t c s = true) : (runCommand op own eff t c s).cue = (eff (begun op t c s) c).1.cue :=
  (runCommand_after_effect eff h).same .cue rfl

/-- A CUE_RUN that is not refused runs as every other command: no CUE_START_REFUSED comes of it. -/
theorem execCueRun_of_accepted {t : Nat} {c : HostCmd} {s : State} (h : accepted .cueRun refuseCueRun t c s = true) :
    exec (.cueRun t c) s = .next (runCommand .cueRun refuseCueRun effCueRun t c s) := by
  obtain ⟨hserves, hjudged⟩ := judged_of_accepted h
  rw [runCommand_of_accepted effCueRun h]
  show execCueRun t c s = _
  rw [begun] at hjudged ⊢
  simp [execCueRun, hserves, hjudged]

/-! Removing keys one after the other. -/

theorem tfind_foldl_of_removes {α : Type} (p : State → Table α) {f : State → Nat → State}
    (hf : ∀ s i j, tfind (p (f s i)) j = if i = j then none else tfind (p s) j) (l : List Nat) (s : State) (j : Nat) :
    tfind (p (l.foldl f s)) j = if j ∈ l then none else tfind (p s) j := by
  induction l generalizing s with
  | nil => simp
  | cons i l ih =>
    rw [List.foldl_cons, ih, hf]
    by_cases hi : i = j
    · simp [hi]
    · simp [hi, Ne.symm hi]

/-! CUE_RUN (R245, R246). -/

/-- The programs, the instances and the next run number: what starting an instance changes beside its counters. -/
def Cue.running (q : Cue) : Table CueProg × Table CueInst × Nat := (q.progs, q.insts, q.nextRun)

theorem raiseLate_running (i prog word us : Nat) (s : State) :
    (raiseLate i prog word us s).cue.running = s.cue.running := by
  rw [raiseLate, raise_cue]
  rfl

/-- An instance as it starts at an instant: with its run number, and untimed when its target has passed (R245). -/
def CueInst.startedAt (now run : Nat) (x : CueInst) : CueInst :=
  { x with run := run, timed := x.timed.filter (fun g => decide (now ≤ g)) }

theorem startInst_running (i : Nat) (x : CueInst) (s : State) : (startInst i x s).cue.running =
    (s.cue.progs, tset s.cue.insts i (x.startedAt s.clock.now s.cue.nextRun), (s.cue.nextRun + 1) % 0x100000000) := by
  have htimed : (if (match x.timed with | some g => decide (g < s.clock.now) | none => false) = true then none
      else x.timed) = x.timed.filter (fun g => decide (s.clock.now ≤ g)) := by
    cases x.timed with
    | none => rfl
    | some g => by_cases hg : g < s.clock.now <;> simp [Option.filter, ← Nat.not_lt, hg]
  rw [CueInst.startedAt, ← htimed]
  unfold startInst
  refine ite_keeps (·.cue.running) ((raiseLate_running ..).trans ?_) ?_
  all_goals exact congrArg Cue.running (raise_cue ..)

/-- The target that a CUE_RUN names, if it names one. -/
def runTarget (c : HostCmd) : Option Nat := if u8 c.params 1 = 1 then some (targetOf c.params 4) else none

/-- The instance that a CUE_RUN at an instant asks for. -/
def instAsked (now : Nat) (c : HostCmd) : CueInst :=
  { prog := u8 c.params 0, session := c.session, role := c.role, run := 0, t0 := (runTarget c).getD now
    vars := (List.range 16).map (fun k => u16 c.params (16 + 2 * k)), timed := runTarget c }

theorem effCueRun_starts (c : HostCmd) (s : State) :
    (effCueRun s c).1 = startInst ((freeInst s).getD 0) (instAsked s.clock.now c) s := by
  by_cases h : u8 c.params 1 = 1 <;> simp [effCueRun, instAsked, runTarget, h]

theorem instAsked_t0 (now : Nat) (c : HostCmd) :
    (instAsked now c).t0 = if u8 c.params 1 = 1 then targetOf c.params 4 else now := by
  rw [instAsked, runTarget]
  split <;> rfl

/-- The first group is timed when the CUE_RUN names a target that has not passed. -/
theorem instAsked_startedAt_timed (now run : Nat) (c : HostCmd) : ((instAsked now c).startedAt now run).timed =
    if u8 c.params 1 = 1 ∧ now ≤ targetOf c.params 4 then some (targetOf c.params 4) else none := by
  rw [CueInst.startedAt, instAsked, runTarget]
  split
  next hat => simp [hat, Option.filter]
  next hat => simp [hat]

theorem effCueRun_running (c : HostCmd) (s : State) : (effCueRun s c).1.cue.running = (s.cue.progs,
    tset s.cue.insts ((freeInst s).getD 0) ((instAsked s.clock.now c).startedAt s.clock.now s.cue.nextRun),
    (s.cue.nextRun + 1) % 0x100000000) := by
  rw [effCueRun_starts, startInst_running]

theorem effCueRun_xpt (c : HostCmd) (s : State) : (effCueRun s c).1.xpt = s.xpt :=
  (effCueRun_moves c (.refl [.flash, .evt, .cue] s)).same .xpt rfl

/-! CUE_ABORT (R247). -/

theorem endInstance_progs (i cause : Nat) (s : State) : (endInstance i cause s).cue.progs = s.cue.progs := by
  unfold endInstance
  split
  · rfl
  · rw [raise_cue]

theorem endInstance_xpt (i cause : Nat) (s : State) : (endInstance i cause s).xpt = s.xpt :=
  (endInstance_moves i cause (.refl [.flash, .evt, .cue] s)).same .xpt rfl

theorem tfind_endInstance (i cause : Nat) (s : State) (j : Nat) :
    tfind (endInstance i cause s).cue.insts j = if i = j then none else tfind s.cue.insts j := by
  unfold endInstance
  split
  next hfree =>
    split
    next hij => rw [← hij, hfree]
    next => rfl
  next =>
    rw [raise_cue]
    exact tfind_tdel ..

theorem discardEntries_cue (p : Entry → Bool) (cause : Nat) (s : State) : (discardEntries p cause s).cue = s.cue :=
  (discardEntries_moves p cause (.refl [.flash, .host, .evt, .xpt, .red, .cmp, .aud, .out] s)).same .cue rfl

theorem abortInst_progs (i cause : Nat) (s : State) : (abortInst i cause s).cue.progs = s.cue.progs := by
  unfold abortInst
  split
  · rfl
  · rw [endInstance_progs, discardEntries_cue]

theorem tfind_abortInst (i cause : Nat) (s : State) (j : Nat) :
    tfind (abortInst i cause s).cue.insts j = if i = j then none else tfind s.cue.insts j := by
  unfold abortInst
  split
  next hfree =>
    split
    next hij => rw [← hij, hfree]
    next => rfl
  next => rw [tfind_endInstance, discardEntries_cue]

theorem abortInst_queue_subset (i cause : Nat) (s : State) : (abortInst i cause s).xpt.queue ⊆ s.xpt.queue := by
  unfold abortInst
  split
  · exact List.Subset.refl _
  · rw [endInstance_xpt, discardEntries_queue]
    exact fun _ he => (List.mem_filter.mp he).1

theorem effCueAbort_progs (c : HostCmd) (s : State) : (effCueAbort s c).1.cue.progs = s.cue.progs :=
  foldl_keeps (·.cue.progs) _ _ (fun s i => abortInst_progs i 1 s)

theorem tfind_effCueAbort (c : HostCmd) (s : State) (j : Nat) :
    tfind (effCueAbort s c).1.cue.insts j = if j ∈ abortSet s c then none else tfind s.cue.insts j :=
  tfind_foldl_of_removes (·.cue.insts) (fun s i => tfind_abortInst i 1 s) ..

theorem effCueAbort_queue_subset (c : HostCmd) (s : State) : (effCueAbort s c).1.xpt.queue ⊆ s.xpt.queue :=
  List.foldlRecOn (motive := fun u : State => u.xpt.queue ⊆ s.xpt.queue) _ _ (List.Subset.refl _)
    (fun _ hu i _ => List.Subset.trans (abortInst_queue_subset i 1 _) hu)

/-! CUE_UNLOAD. -/

theorem tfind_effCueUnload (c : HostCmd) (s : State) (p : Nat) :
    tfind (effCueUnload s c).1.cue.progs p = if p ∈ unloadSet s c then none else tfind s.cue.progs p :=
  tfind_foldl_of_removes (·.cue.progs) (fun _ _ _ => tfind_tdel ..) ..

theorem effCueUnload_insts (c : HostCmd) (s : State) : (effCueUnload s c).1.cue.insts = s.cue.insts :=
  foldl_keeps (·.cue.insts) _ _

end Sys2Proof.Machine

section
open Sys2Proof Sys2Proof.Machine

/-- Settles O28, one case per command. -/
theorem cueCommandsTakeEffect : Obligations.CueCommandsTakeEffect := by
  refine ⟨fun t c s h => ?load, fun t c s h => ?run, fun t c s h => ?abort, fun t c s h => ?status,
    fun t c s h => ?unload⟩
  case load =>
    refine ⟨_, rfl, ?_⟩
    rw [runCommand_cue effCueLoad h]
    exact ⟨(tfind_tset ..).trans (if_pos rfl), fun p hp => (tfind_tset ..).trans (if_neg hp.symm), rfl⟩
  case run =>
    obtain ⟨hprogs, hinsts, hnext⟩ : _ ∧ _ ∧ _ := by
      simpa only [Cue.running, Prod.mk.injEq] using effCueRun_running c (begun .cueRun t c s)
    have hfind (j : Nat) := (congrArg (tfind · j) hinsts).trans (tfind_tset ..)
    refine ⟨_, execCueRun_of_accepted h, ?_⟩
    rw [runCommand_cue effCueRun h, runCommand_xpt effCueRun h, effCueRun_xpt]
    exact ⟨⟨_, (hfind _).trans (if_pos rfl), rfl, rfl, rfl, rfl, rfl, rfl, rfl, instAsked_t0 ..,
        instAsked_startedAt_timed ..⟩,
      fun j hj => (hfind j).trans (if_neg hj.symm), hnext, hprogs, rfl⟩
  case abort =>
    refine ⟨_, rfl, ?_⟩
    rw [runCommand_cue effCueAbort h, runCommand_xpt effCueAbort h]
    exact ⟨fun i hi => (tfind_effCueAbort ..).trans (if_pos hi), fun i hi => (tfind_effCueAbort ..).trans (if_neg hi),
      effCueAbort_progs .., effCueAbort_queue_subset ..⟩
  case status => exact congrArg _ (runCommand_answered h rfl)
  case unload =>
    refine ⟨_, rfl, ?_⟩
    rw [runCommand_cue effCueUnload h]
    exact ⟨fun p hp => (tfind_effCueUnload ..).trans (if_pos hp), fun p hp => (tfind_effCueUnload ..).trans (if_neg hp),
      effCueUnload_insts ..⟩

end

end

section
/-! PROOFS. The table of compositors: what a read of a compositor gives after a change, and what the commands of
Table 9.12 that load no surface write (O33). -/

-- The package is checked as one text; elaborating these proofs in order keeps the number of threads small.
set_option Elab.async false

namespace Sys2Proof.Machine

/-! Reading a compositor. -/

theorem compOf_congr {s x : State} (h : x.cmp = s.cmp) (c : Nat) : compOf x c = compOf s c := by
  simp only [compOf, h]

@[simp] theorem compOf_modComp (c : Nat) (f : Comp → Comp) (s : State) : compOf (modComp c f s) c = f (compOf s c) :=
  tget_tmod_same ..

theorem compOf_modComp_other {k c : Nat} (h : k ≠ c) (f : Comp → Comp) (s : State) :
    compOf (modComp c f s) k = compOf s k := tget_tmod_other _ _ _ h.symm

@[simp] theorem compOf_advance (t c : Nat) (s : State) : compOf (advance t s) c = compOf s c := rfl

@[simp] theorem compOf_raiseCmp (sev code c m : Nat) (ws : List Word) (s : State) :
    compOf (raiseCmp sev code m ws s) c = compOf s c := compOf_congr (raise_cmp ..) c

@[simp] theorem compOf_lutState (m happening obj c : Nat) (s : State) :
    compOf (lutState m happening obj s) c = compOf s c := compOf_raiseCmp ..

@[simp] theorem compOf_cmpCount (c i k : Nat) (s : State) :
    compOf (cmpCount c i k s) c = { compOf s c with cnt := bumpBy (compOf s c).cnt i k } := compOf_modComp ..

@[simp] theorem compOf_lutReply (j : LutJob) (st : Status) (s : State) (c : Nat) :
    compOf (lutReply j st s) c = compOf s c := by
  have h : Moves [.host, .red, .out] s (lutReply j st s) := lutReply_moves j st (.refl _ s)
  exact compOf_congr (h.same .cmp rfl) c

/-- An accepted command leaves every compositor as its effect left it. -/
theorem compOf_runCommand {op : Op} {own : Refuse} {t : Nat} {c : HostCmd} {s : State} (eff : Effect)
    (h : accepted op own t c s = true) (k : Nat) :
    compOf (runCommand op own eff t c s) k = compOf (eff (begun op t c s) c).1 k :=
  compOf_congr ((runCommand_after_effect eff h).same .cmp rfl) k

/-! CMP_CONFIG (R319, R323). -/

/-- The output part of a CMP_CONFIG: the change and the colour that await an output frame. -/
def configOutput (c : HostCmd) (s : State) : State :=
  let n := u8 c.params 0
  modComp n (fun k => { k with
    change := if compOn s n && (u8 c.params 2, u8 c.params 3) == ((compOf s n).plane, (compOf s n).format) then none
      else some ⟨u8 c.params 2, u8 c.params 3, !compOn s n, s.clock.clk + 1000000⟩
    shadow := if compOn s n || k.change.isSome then k.shadow else {}
    colourNext := some (u8 c.params 4) }) s

/-- The shadow part of a CMP_CONFIG. -/
def configShadow (c : HostCmd) (s : State) : State :=
  modComp (u8 c.params 0) (fun k => { k with shadow := { k.shadow with
    bgR := u16 c.params 8, bgG := u16 c.params 10, bgB := u16 c.params 12, lutEnable := u8 c.params 5 == 1 } }) s

theorem effCmpConfig_parts (c : HostCmd) (s : State) : (effCmpConfig s c).1 =
    if bitOf (u8 c.params 1) 1 then configShadow c (if bitOf (u8 c.params 1) 0 then configOutput c s else s)
    else if bitOf (u8 c.params 1) 0 then configOutput c s else s := rfl

/-- The change and the colour that await their output frame, and the active state. -/
def Comp.awaited (x : Comp) : Option CmpChange × Option Nat × Picture := (x.change, x.colourNext, x.active)

theorem awaited_configShadow (c : HostCmd) (s : State) :
    (compOf (configShadow c s) (u8 c.params 0)).awaited = (compOf s (u8 c.params 0)).awaited :=
  (congrArg Comp.awaited (compOf_modComp ..)).trans rfl

/-- The shadow part leaves what awaits its output frame. -/
theorem awaited_effCmpConfig (c : HostCmd) (s : State) :
    (compOf (effCmpConfig s c).1 (u8 c.params 0)).awaited
      = (compOf (if bitOf (u8 c.params 1) 0 then configOutput c s else s) (u8 c.params 0)).awaited :=
  ite_keeps (fun u => (compOf u (u8 c.params 0)).awaited) (awaited_configShadow ..) rfl

theorem awaited_effCmpConfig_output {c : HostCmd} (s : State) (h : bitOf (u8 c.params 1) 0 = true) :
    (compOf (effCmpConfig s c).1 (u8 c.params 0)).awaited =
      (if compOn s (u8 c.params 0) && (u8 c.params 2, u8 c.params 3)
          == ((compOf s (u8 c.params 0)).plane, (compOf s (u8 c.params 0)).format) then none
        else some ⟨u8 c.params 2, u8 c.params 3, !compOn s (u8 c.params 0), s.clock.clk + 1000000⟩,
        some (u8 c.params 4), (compOf s (u8 c.params 0)).active) := by
  rw [awaited_effCmpConfig, if_pos h]
  exact congrArg Comp.awaited (compOf_modComp ..)

theorem effCmpConfig_active (c : HostCmd) (s : State) :
    (compOf (effCmpConfig s c).1 (u8 c.params 0)).active = (compOf s (u8 c.params 0)).active := by
  have h := congrArg (·.2.2) (awaited_effCmpConfig c s)
  refine h.trans (ite_keeps (fun u => (compOf u (u8 c.params 0)).active) ?_ rfl)
  exact (congrArg Comp.active (compOf_modComp ..)).trans rfl

theorem shadow_effCmpConfig {c : HostCmd} (s : State) (h : bitOf (u8 c.params 1) 1 = true) :
    ∃ p : Picture, (compOf (effCmpConfig s c).1 (u8 c.params 0)).shadow = { p with
      bgR := u16 c.params 8, bgG := u16 c.params 10, bgB := u16 c.params 12, lutEnable := u8 c.params 5 == 1 } := by
  rw [effCmpConfig_parts, if_pos h]
  exact ⟨_, congrArg Comp.shadow (compOf_modComp ..)⟩

theorem compOf_effCmpConfig_other {c : HostCmd} {k : Nat} (h : k ≠ u8 c.params 0) (s : State) :
    compOf (effCmpConfig s c).1 k = compOf s k := by
  have hout : compOf (if bitOf (u8 c.params 1) 0 then configOutput c s else s) k = compOf s k :=
    ite_keeps (compOf · k) (compOf_modComp_other h ..) rfl
  exact ite_keeps (compOf · k) ((compOf_modComp_other h ..).trans hout) hout

/-! CMP_COMMIT (R320). -/

/-- The entries that a CMP_COMMIT asks for. -/
def commitEntries (c : HostCmd) : List Entry :=
  (commitComps c).map (fun n => { order := 0, action := .commit n, tag := u16 c.params 4 })

/-- The commits of a CMP_COMMIT as they stand in the queue. -/
theorem mem_queued_commit {now order : Nat} {c : HostCmd} {wait : Bool} {x : Entry}
    (h : x ∈ queuedFrom now order (commandEntries c wait (commitEntries c))) :
    x.session = c.session ∧ x.tag = u16 c.params 4 ∧ x.sealed_ = none ∧ x.target = none := by
  obtain ⟨_, hcommand, k, rfl⟩ := mem_queuedFrom h
  obtain ⟨_, hcommit, i, rfl⟩ := mem_commandEntries hcommand
  obtain ⟨n, -, rfl⟩ := List.mem_map.mp hcommit
  exact ⟨rfl, rfl, rfl, rfl⟩

theorem effCmpCommit_places (c : HostCmd) (s : State) : (effCmpCommit s c).1 =
    placeCommand .cmpCommit c (bitOf (u8 c.params 0) 0) (commitEntries c) s := rfl

theorem effCmpCommit_cmp (c : HostCmd) (s : State) : (effCmpCommit s c).1.cmp = s.cmp :=
  (effCmpCommit_moves c (.refl [.flash, .evt, .xpt] s)).same .cmp rfl

end Sys2Proof.Machine
end

section
/-! PROOFS. The loading of a surface: what CMP_SURFACE_LOAD leaves of the frame store (R327, O33). -/

-- The package is checked as one text; elaborating these proofs in order keeps the number of threads small.
set_option Elab.async false

namespace Sys2Proof.Machine

/-! Reading an object and a zone. -/

theorem objOf_congr {s x : State} (h : x.fst.objs = s.fst.objs) (n : Nat) : objOf x n = objOf s n := by
  simp only [objOf, h]

@[simp] theorem objOf_modObj (n : Nat) (f : Obj → Obj) (s : State) : objOf (modObj n f s) n = f (objOf s n) :=
  tget_tmod_same ..

theorem objOf_modObj_other {m n : Nat} (h : m ≠ n) (f : Obj → Obj) (s : State) :
    objOf (modObj n f s) m = objOf s m := tget_tmod_other _ _ _ h.symm

theorem tget_tdel_other {α : Type} (d : α) (m : Table α) {n k : Nat} (h : n ≠ k) :
    tget d (tdel m n) k = tget d m k := by
  rw [tget, tfind_tdel, if_neg h, tget]

theorem zoneOf_congr {s x : State} (h : x.fst.zones = s.fst.zones) (k : Nat) : zoneOf x k = zoneOf s k := by
  simp only [zoneOf, h]

theorem zoneAt_congr {s x : State} (h : x.fst.zones = s.fst.zones) (a : Nat) : zoneAt x a = zoneAt s a := by
  simp only [zoneAt, zoneOf_congr h]

/-- The version being loaded on an ID. -/
def loadingVersion (s : State) (n : Nat) : Option Version := (objOf s n).load.map (·.1)

/-! What an operation on one object leaves of the frame store. -/

/-- Of the frame store, the bytes at some addresses, the zones and every object but `n` are the same in two states. -/
structure StoreKeeps (n : Nat) (kept : Nat → Prop) (s u : State) : Prop where
  mem : ∀ a, kept a → memRead 0#8 u.fst.mem a = memRead 0#8 s.fst.mem a
  zones : u.fst.zones = s.fst.zones
  others : ∀ m, m ≠ n → objOf u m = objOf s m

section
variable {n : Nat} {kept : Nat → Prop} {s x u : State}

theorem StoreKeeps.refl (n : Nat) (kept : Nat → Prop) (s : State) : StoreKeeps n kept s s :=
  ⟨fun _ _ => rfl, rfl, fun _ _ => rfl⟩

theorem StoreKeeps.trans (h : StoreKeeps n kept s x) (g : StoreKeeps n kept x u) : StoreKeeps n kept s u :=
  ⟨fun a ha => (g.mem a ha).trans (h.mem a ha), g.zones.trans h.zones,
    fun m hm => (g.others m hm).trans (h.others m hm)⟩

theorem StoreKeeps.sameStore (h : StoreKeeps n kept s x) (hu : u.fst = x.fst) : StoreKeeps n kept s u :=
  ⟨fun a ha => hu ▸ h.mem a ha, hu ▸ h.zones, fun m hm => (objOf_congr (congrArg Fst.objs hu) m).trans (h.others m hm)⟩

theorem StoreKeeps.ite {c : Prop} [Decidable c] {a b : State} (ha : StoreKeeps n kept s a)
    (hb : StoreKeeps n kept s b) : StoreKeeps n kept s (if c then a else b) := by
  split
  · exact ha
  · exact hb

theorem StoreKeeps.modObj (h : StoreKeeps n kept s x) (f : Obj → Obj) : StoreKeeps n kept s (modObj n f x) :=
  h.trans ⟨fun _ _ => rfl, rfl, fun _ hm => objOf_modObj_other hm f x⟩

theorem StoreKeeps.tidyObj (h : StoreKeeps n kept s x) : StoreKeeps n kept s (tidyObj n x) :=
  .ite (h.trans ⟨fun _ _ => rfl, rfl, fun _ hm => tget_tdel_other _ _ hm.symm⟩) h

theorem StoreKeeps.retire (h : StoreKeeps n kept s x) (v : Version) (forced : Bool) :
    StoreKeeps n kept s (retire n v forced x) := .ite h (h.modObj _)

theorem StoreKeeps.modeDecision (h : StoreKeeps n kept s x) : StoreKeeps n kept s (modeDecision x) := by
  have hx : Moves [.mode, .aon, .pins, .start, .flash, .host, .evt, .pwr, .xpt, .cue, .red, .lane, .flow, .cmp, .aud,
    .out] x (Machine.modeDecision x) := modeDecision_moves (.refl _ x)
  exact h.sameStore (hx.same .fst rfl)

/-- A version that loading has made VALID leaves the bytes, the zones and every other object (R268, R269). -/
theorem StoreKeeps.loadValid (h : StoreKeeps n kept s x) (v : Version) : StoreKeeps n kept s (loadValid n v x) := by
  unfold Machine.loadValid
  dsimp only
  have hold : StoreKeeps n kept s (match (objOf x n).cur with
      | some old => if (objOf x n).invalid || (objOf x n).filling then x else Machine.retire n old false x
      | none => x) := by
    split
    · exact .ite h (h.retire _ _)
    · exact h
  have hmade (f : Obj → Obj) := hold.modObj f
  have hreload {y : State} (hy : StoreKeeps n kept s y) : StoreKeeps n kept s (y.cmp.comps.foldl (fun s p =>
      if (p.2.lut.active.map (·.obj)) = some n && !p.2.lut.pending then
        modComp p.1 (fun k => { k with lut := { k.lut with jobs := k.lut.jobs ++ [{ obj := n }], autoSwap := false } }) s
      else s) y) := hy.sameStore (foldl_keeps State.fst _ _ fun _ _ => ite_keeps State.fst rfl rfl)
  exact .ite (hreload (hmade _)).modeDecision (hreload (hmade _))

theorem StoreKeeps.endLoading (h : StoreKeeps n kept s x) (data : List Byte) (mapOf : State → Version → List Bool)
    (gate : State → Version → Bool) : StoreKeeps n kept s (endLoading n data mapOf gate x).1 := by
  have hfails : StoreKeeps n kept s (loadFails n x) := (h.modObj _).tidyObj
  unfold Machine.endLoading
  dsimp only
  repeat' split
  · exact h
  · exact hfails
  · exact hfails
  · exact h.loadValid _

end

/-! Creating a version and writing into it. -/

/-- The version that a CREATE opens on an ID (R267, R268). -/
def createdVersion (n kind zone format length crc width height : Nat) (s : State) : Version :=
  { kind := kind, zone := zone, format := format, length := length, crc := crc
    first := (findRun (clearForCreate n s) zone (unitsFor length)).getD 0, units := unitsFor length
    width := width, height := height }

theorem createVersion_fst (n kind zone format length crc width height : Nat) (s : State) :
    (createVersion n kind zone format length crc width height s).fst = (modObj n (fun o => { o with
      load := some (createdVersion n kind zone format length crc width height s, s.clock.clk) })
        (clearForCreate n s)).fst := by
  have hdecide (x : State) : (modeDecision x).fst = x.fst :=
    Moves.same (k := [.mode, .aon, .pins, .start, .flash, .host, .evt, .pwr, .xpt, .cue, .red, .lane, .flow, .cmp, .aud,
      .out]) (modeDecision_moves (.refl _ x)) .fst rfl
  exact ite_keeps State.fst (hdecide _) rfl

theorem loadingVersion_createVersion (n kind zone format length crc width height : Nat) (s : State) :
    loadingVersion (createVersion n kind zone format length crc width height s) n
      = some (createdVersion n kind zone format length crc width height s) := by
  rw [loadingVersion, objOf_congr (congrArg Fst.objs (createVersion_fst ..)), objOf_modObj]
  rfl

theorem createVersion_keeps (kept : Nat → Prop) (n kind zone format length crc width height : Nat) (s : State) :
    StoreKeeps n kept s (createVersion n kind zone format length crc width height s) :=
  (((StoreKeeps.refl n kept s).modObj _).modObj _).sameStore (createVersion_fst ..)

theorem zoneWriteAt_table (k off : Nat) (data : List Byte) (s : State) :
    (zoneWriteAt k off data s).fst.zones = s.fst.zones ∧ (zoneWriteAt k off data s).fst.objs = s.fst.objs :=
  List.foldlRecOn (motive := fun x : State × List Byte => x.1.fst.zones = s.fst.zones ∧ x.1.fst.objs = s.fst.objs)
    _ _ ⟨rfl, rfl⟩ (fun _ hx _ _ => hx)

/-- A write changes no byte outside its pieces. -/
theorem memRead_zoneWriteAt {k off a : Nat} {data : List Byte} {s : State}
    (h : ∀ p ∈ pieces256 (zoneOf s k) off data.length, a < p.1 ∨ p.1 + p.2 ≤ a) :
    memRead 0#8 (zoneWriteAt k off data s).fst.mem a = memRead 0#8 s.fst.mem a := by
  refine List.foldlRecOn (motive := fun x : State × List Byte => memRead 0#8 x.1.fst.mem a = memRead 0#8 s.fst.mem a)
    _ _ rfl fun x hx p hp => ?_
  have hlen : (x.2.take p.2).length ≤ p.2 := List.length_take_le ..
  have houtside : a < p.1 ∨ p.1 + (x.2.take p.2).length ≤ a := (h p hp).imp_right (by omega)
  exact (memRead_memWriteList_outside _ _ houtside).trans hx

theorem writeLoading_of_none {n : Nat} {s : State} (h : loadingVersion s n = none) (off : Nat) (data : List Byte) :
    writeLoading n off data s = s := by
  rw [writeLoading, Option.map_eq_none_iff.mp h]

theorem writeLoading_of_some {n : Nat} {v : Version} {s : State} (h : loadingVersion s n = some v) (off : Nat)
    (data : List Byte) : ∃ a, writeLoading n off data s = modObj n (fun o => { o with load := some (v, a) })
      (zoneWriteAt v.zone (v.first * 65536 + off) data s) := by
  obtain ⟨⟨w, b⟩, hload, rfl⟩ := Option.map_eq_some_iff.mp h
  exact ⟨_, by rw [writeLoading, hload]⟩

theorem loadingVersion_writeLoading (n off : Nat) (data : List Byte) (s : State) :
    loadingVersion (writeLoading n off data s) n = loadingVersion s n := by
  cases h : loadingVersion s n with
  | none => rw [writeLoading_of_none h, h]
  | some v =>
    obtain ⟨a, hw⟩ := writeLoading_of_some h off data
    rw [hw, loadingVersion, objOf_modObj]
    rfl

theorem writeLoading_keeps {n off : Nat} {data : List Byte} {kept : Nat → Prop} {s : State}
    (h : ∀ v, loadingVersion s n = some v → ∀ a, kept a →
      ∀ p ∈ pieces256 (zoneOf s v.zone) (v.first * 65536 + off) data.length, a < p.1 ∨ p.1 + p.2 ≤ a) :
    StoreKeeps n kept s (writeLoading n off data s) := by
  cases hv : loadingVersion s n with
  | none => rw [writeLoading_of_none hv]; exact .refl ..
  | some v =>
    obtain ⟨b, hw⟩ := writeLoading_of_some hv off data
    obtain ⟨hzones, hobjs⟩ := zoneWriteAt_table v.zone (v.first * 65536 + off) data s
    rw [hw]
    exact StoreKeeps.modObj ⟨fun a ha => memRead_zoneWriteAt (h v hv a ha), hzones, fun m _ => objOf_congr hobjs m⟩ _

theorem loadingVersion_zeroLoading (n : Nat) (s : State) : loadingVersion (zeroLoading n s) n = loadingVersion s n := by
  unfold zeroLoading
  split <;> rfl

/-- The zeroing of a run leaves every byte outside it (R327). -/
theorem zeroLoading_keeps {n : Nat} {kept : Nat → Prop} {s : State}
    (h : ∀ v, loadingVersion s n = some v → ∀ a, kept a → ∀ o, zoneAt s a = some (v.zone, o) →
      o < v.first * 65536 ∨ v.first * 65536 + v.length ≤ o) :
    StoreKeeps n kept s (zeroLoading n s) := by
  unfold zeroLoading
  split
  next => exact .refl ..
  next v _ hload =>
    refine ⟨fun a ha => (memRead_filter _ (fun b => !(match zoneAt s b with
      | some (k, o) => k == v.zone && decide (v.first * 65536 ≤ o) && decide (o < v.first * 65536 + v.length)
      | none => false)) _ a).trans (if_pos ?_), rfl, fun _ _ => rfl⟩
    cases hat : zoneAt s a with
    | none => rfl
    | some q =>
      obtain ⟨k, o⟩ := q
      by_cases hk : k = v.zone
      · have := h v (by rw [loadingVersion, hload]; rfl) a ha o (hk ▸ hat)
        simp [hk]
        omega
      · simp [hk]

/-! The lines of a surface (R327). -/

theorem length_sub {ps : List Byte} {o n : Nat} (h : o + n ≤ ps.length) : (sub ps o n).length = n := by
  rw [sub, List.length_take, List.length_drop]
  omega

theorem tileSide_pos (format : Nat) : 0 < tileSide format := by
  unfold tileSide
  split <;> decide

/-- The runs of a line lie within it. -/
theorem lineRuns_within {width side : Nat} {r : Nat × Nat} (hs : 0 < side) (h : r ∈ lineRuns width side) :
    r.1 + r.2 ≤ width := by
  obtain ⟨i, hi, rfl⟩ := List.mem_map.mp h
  have hstart : (i + 1) * side ≤ width + side - 1 := (Nat.le_div_iff_mul_le hs).mp (List.mem_range.mp hi)
  rw [Nat.succ_mul] at hstart
  dsimp only
  omega

/-- An address lies outside every piece that a run of a raster line takes in a version. -/
def LineSpares (w : SurfaceLoad) (y : Nat) (v : Version) (s : State) (a : Nat) : Prop :=
  ∀ r ∈ lineRuns w.width (tileSide w.format), ∀ p ∈ pieces256 (zoneOf s v.zone)
    (v.first * 65536 + surfaceOffset w.width w.format r.1 y) (r.2 * pixelBytes w.format), a < p.1 ∨ p.1 + p.2 ≤ a

/-- An address lies outside the run of a version, and outside every piece of the header that opens it. -/
def HeaderSpares (w : SurfaceLoad) (v : Version) (s : State) (a : Nat) : Prop :=
  (∀ p ∈ pieces256 (zoneOf s v.zone) (v.first * 65536) (surfaceHeader w.width w.height w.format).length,
      a < p.1 ∨ p.1 + p.2 ≤ a)
    ∧ ∀ o, zoneAt s a = some (v.zone, o) → o < v.first * 65536 ∨ v.first * 65536 + v.length ≤ o

/-- An address lies outside all that a surface load writes or zeroes in a version. -/
def SurfaceSpares (w : SurfaceLoad) (v : Version) (s : State) (a : Nat) : Prop :=
  (w.create = true → HeaderSpares w v s a) ∧ ∀ j, j < w.count → LineSpares w (w.first + j) v s a

theorem SurfaceSpares.sameZones {w : SurfaceLoad} {v : Version} {s x : State} {a : Nat} (h : SurfaceSpares w v s a)
    (hx : x.fst.zones = s.fst.zones) : SurfaceSpares w v x a := by
  simpa only [SurfaceSpares, HeaderSpares, LineSpares, zoneOf_congr hx, zoneAt_congr hx] using h

theorem writeLine_keeps {w : SurfaceLoad} {y : Nat} {line : List Byte} {kept : Nat → Prop} {s : State}
    (hline : line.length = w.width * pixelBytes w.format)
    (h : ∀ v, loadingVersion s w.obj = some v → ∀ a, kept a → LineSpares w y v s a) :
    StoreKeeps w.obj kept s (writeLine w y line s) ∧ loadingVersion (writeLine w y line s) w.obj = loadingVersion s w.obj := by
  refine List.foldlRecOn (motive := fun x => StoreKeeps w.obj kept s x ∧ loadingVersion x w.obj = loadingVersion s w.obj)
    _ _ ⟨.refl .., rfl⟩ fun x ⟨hx, hload⟩ r hr => ?_
  refine ⟨hx.trans (writeLoading_keeps fun v hv a ha => ?_), (loadingVersion_writeLoading ..).trans hload⟩
  have hrun : r.1 * pixelBytes w.format + r.2 * pixelBytes w.format ≤ line.length := by
    rw [hline, ← Nat.add_mul]
    exact Nat.mul_le_mul_right _ (lineRuns_within (tileSide_pos _) hr)
  rw [length_sub hrun, zoneOf_congr hx.zones]
  exact h v (hload ▸ hv) a ha r hr

/-! CMP_SURFACE_LOAD (R327). -/

/-- A surface load after its CREATE: the version is open, its run zeroed and its header written. -/
def surfaceOpened (w : SurfaceLoad) (s : State) : State :=
  if w.create then
    writeLoading w.obj 0 (surfaceHeader w.width w.height w.format)
      (zeroLoading w.obj (createVersion w.obj 2 w.zone w.format (surfaceLength w.width w.height w.format) w.crc w.width
        w.height s))
  else s

/-- A surface load after its lines. -/
def surfaceFilled (w : SurfaceLoad) (s : State) : State :=
  let bpl := w.width * pixelBytes w.format
  (List.range w.count).foldl (fun s j => writeLine w (w.first + j) (sub w.data (j * bpl) bpl) s) (surfaceOpened w s)

theorem effCmpSurfaceLoad_stages (c : HostCmd) (s : State) : (effCmpSurfaceLoad s c).1 =
    if (surfaceLoadOf s c).end_ then
      (endLoading (surfaceLoadOf s c).obj (rasterLines (surfaceFilled (surfaceLoadOf s c) s) (surfaceLoadOf s c))
        (fun _ _ => []) (armedGate (surfaceLoadOf s c).obj) (surfaceFilled (surfaceLoadOf s c) s)).1
    else surfaceFilled (surfaceLoadOf s c) s := by
  unfold effCmpSurfaceLoad
  dsimp only
  split <;> rfl

/-- The version that a surface load writes into: the one that it creates, or the one in loading. -/
def surfaceVersion (w : SurfaceLoad) (s : State) : Option Version :=
  if w.create then
    loadingVersion (createVersion w.obj 2 w.zone w.format (surfaceLength w.width w.height w.format) w.crc w.width w.height
      s) w.obj
  else loadingVersion s w.obj

theorem loadingVersion_surfaceOpened (w : SurfaceLoad) (s : State) :
    loadingVersion (surfaceOpened w s) w.obj = surfaceVersion w s := by
  unfold surfaceOpened surfaceVersion
  split
  · rw [loadingVersion_writeLoading, loadingVersion_zeroLoading]
  · rfl

theorem surfaceOpened_keeps {w : SurfaceLoad} {kept : Nat → Prop} {s : State}
    (h : ∀ v, surfaceVersion w s = some v → w.create = true → ∀ a, kept a → HeaderSpares w v s a) :
    StoreKeeps w.obj kept s (surfaceOpened w s) := by
  unfold surfaceOpened
  split
  case isFalse => exact .refl ..
  case isTrue hc =>
    have hcreated := createVersion_keeps kept w.obj 2 w.zone w.format (surfaceLength w.width w.height w.format) w.crc
      w.width w.height s
    have hversion (x : State) : surfaceVersion w x = loadingVersion (createVersion w.obj 2 w.zone w.format
      (surfaceLength w.width w.height w.format) w.crc w.width w.height x) w.obj := if_pos hc
    have hzeroed := hcreated.trans (zeroLoading_keeps fun v hv a ha o ho =>
      (h v ((hversion s).trans hv) hc a ha).2 o (by rwa [zoneAt_congr hcreated.zones] at ho))
    refine hzeroed.trans (writeLoading_keeps fun v hv a ha => ?_)
    rw [loadingVersion_zeroLoading] at hv
    rw [zoneOf_congr hzeroed.zones, Nat.add_zero]
    exact (h v ((hversion s).trans hv) hc a ha).1

theorem surfaceFilled_keeps {w : SurfaceLoad} {kept : Nat → Prop} {s : State}
    (hdata : w.data.length = w.count * w.width * pixelBytes w.format)
    (h : ∀ v, surfaceVersion w s = some v → ∀ a, kept a → SurfaceSpares w v s a) :
    StoreKeeps w.obj kept s (surfaceFilled w s)
      ∧ loadingVersion (surfaceFilled w s) w.obj = surfaceVersion w s := by
  have hopened : StoreKeeps w.obj kept s (surfaceOpened w s) :=
    surfaceOpened_keeps fun v hv hc a ha => (h v hv a ha).1 hc
  refine List.foldlRecOn (motive := fun x => StoreKeeps w.obj kept s x ∧ loadingVersion x w.obj = surfaceVersion w s)
    _ _ ⟨hopened, loadingVersion_surfaceOpened w s⟩ fun x ⟨hx, hload⟩ j hj => ?_
  have hcount : j < w.count := List.mem_range.mp hj
  have hline : j * (w.width * pixelBytes w.format) + w.width * pixelBytes w.format ≤ w.data.length := by
    rw [hdata, Nat.mul_assoc, ← Nat.succ_mul]
    exact Nat.mul_le_mul_right _ hcount
  obtain ⟨hwritten, hsame⟩ := writeLine_keeps (w := w) (y := w.first + j) (kept := kept) (s := x) (length_sub hline)
    fun v hv a ha r hr => by
      rw [zoneOf_congr hx.zones]
      exact (h v (hload ▸ hv) a ha).2 j hcount r hr
  exact ⟨hx.trans hwritten, hsame.trans hload⟩

/-- What a surface load leaves of the frame store, and, without END, the version that is loading then. -/
theorem effCmpSurfaceLoad_keeps {c : HostCmd} {kept : Nat → Prop} {s : State} {w : SurfaceLoad}
    (hw : surfaceLoadOf s c = w) (hdata : w.data.length = w.count * w.width * pixelBytes w.format)
    (h : ∀ v, surfaceVersion w s = some v → ∀ a, kept a → SurfaceSpares w v s a) :
    StoreKeeps w.obj kept s (effCmpSurfaceLoad s c).1
      ∧ (w.end_ = false → loadingVersion (effCmpSurfaceLoad s c).1 w.obj = surfaceVersion w s) := by
  obtain ⟨hfilled, hload⟩ := surfaceFilled_keeps hdata h
  rw [effCmpSurfaceLoad_stages, hw]
  refine ⟨.ite (hfilled.endLoading ..) hfilled, fun hend => ?_⟩
  rw [hend]
  exact hload

theorem refuseIf_eq_none {b : Bool} {st : Status} : refuseIf b st = none ↔ b = false := by
  cases b <;> simp [refuseIf]

theorem firstRefusal_cons_eq_none {r : Option (Status × List Byte)} {rs : List (Option (Status × List Byte))} :
    firstRefusal (r :: rs) = none ↔ r = none ∧ firstRefusal rs = none := by
  cases r <;> simp [firstRefusal]

/-- The data of an accepted surface load are its lines (R327, Table 9.12). -/
theorem surfaceData_of_accepted {t : Nat} {c : HostCmd} {s : State}
    (h : accepted .cmpSurfaceLoad refuseCmpSurfaceLoad t c s = true) : (surfaceLoadOf s c).data.length =
      (surfaceLoadOf s c).count * (surfaceLoadOf s c).width * pixelBytes (surfaceLoadOf s c).format := by
  have hown : refuseCmpSurfaceLoad (begun .cmpSurfaceLoad t c s) c = none := by
    rw [accepted, Bool.and_eq_true, Option.isNone_iff_eq_none] at h
    exact h.2
  have hsame : surfaceLoadOf (begun .cmpSurfaceLoad t c s) c = surfaceLoadOf s c := rfl
  rw [refuseCmpSurfaceLoad, hsame] at hown
  simp only [firstRefusal_cons_eq_none, refuseIf_eq_none] at hown
  obtain ⟨-, -, -, hlines, -, hknown, -⟩ := hown
  rw [Bool.not_eq_false'] at hknown
  rw [hknown, Bool.true_and, Bool.or_eq_false_iff] at hlines
  simpa using hlines.2

theorem surfaceVersion_of_create {w : SurfaceLoad} (h : w.create = true) (s : State) : surfaceVersion w s =
    some (createdVersion w.obj 2 w.zone w.format (surfaceLength w.width w.height w.format) w.crc w.width w.height s) :=
  (if_pos h).trans (loadingVersion_createVersion ..)

/-- The passing of time and the command queue do not tell which version a surface load writes into. -/
theorem surfaceVersion_begun (w : SurfaceLoad) (op : Op) (t : Nat) (c : HostCmd) (s : State) :
    surfaceVersion w (begun op t c s) = surfaceVersion w s := by
  unfold surfaceVersion
  rw [loadingVersion_createVersion, loadingVersion_createVersion]
  rfl

/-- An accepted CMP_SURFACE_LOAD changes no zone, no other object and no byte that it spares; without END the version
that it writes into is loading then. -/
theorem runCommand_surfaceLoad_keeps {t : Nat} {c : HostCmd} {kept : Nat → Prop} {s : State}
    (h : accepted .cmpSurfaceLoad refuseCmpSurfaceLoad t c s = true)
    (hspares : ∀ v, surfaceVersion (surfaceLoadOf s c) s = some v → ∀ a, kept a →
      SurfaceSpares (surfaceLoadOf s c) v s a) :
    StoreKeeps (u16 c.params 0) kept s (runCommand .cmpSurfaceLoad refuseCmpSurfaceLoad effCmpSurfaceLoad t c s)
      ∧ ((surfaceLoadOf s c).end_ = false →
        loadingVersion (runCommand .cmpSurfaceLoad refuseCmpSurfaceLoad effCmpSurfaceLoad t c s) (u16 c.params 0)
          = surfaceVersion (surfaceLoadOf s c) s) := by
  have hfst := (runCommand_after_effect effCmpSurfaceLoad h).same .fst rfl
  have hbegun : StoreKeeps (u16 c.params 0) kept s (begun .cmpSurfaceLoad t c s) :=
    (StoreKeeps.refl ..).sameStore (begun_fst ..)
  obtain ⟨hkeeps, hload⟩ := effCmpSurfaceLoad_keeps (c := c) (kept := kept) (s := begun .cmpSurfaceLoad t c s)
    (w := surfaceLoadOf s c) rfl (surfaceData_of_accepted h)
    (fun v hv a ha => (hspares v (by rwa [surfaceVersion_begun] at hv) a ha).sameZones hbegun.zones)
  refine ⟨(hbegun.trans hkeeps).sameStore hfst, fun hend => ?_⟩
  rw [← surfaceVersion_begun _ .cmpSurfaceLoad t c, ← hload hend]
  exact congrArg (fun o : Obj => o.load.map (·.1)) (objOf_congr (congrArg Fst.objs hfst) _)

/-- With CREATE the command gives the sizes (R327). -/
theorem surfaceLoadOf_of_create {c : HostCmd} (h : bitOf (u8 c.params 2) 0 = true) (s : State) : surfaceLoadOf s c =
    ⟨u16 c.params 0, true, bitOf (u8 c.params 2) 1, u8 c.params 3, u16 c.params 4, u16 c.params 6, u8 c.params 8,
      u16 c.params 10, u16 c.params 12, u32 c.params 16, c.params.drop 20⟩ := by
  simp only [surfaceLoadOf, h, if_true]

/-- A CREATE without END leaves a LOADING surface of the sizes that it asks for. -/
theorem runCommand_surfaceLoad_creates {t : Nat} {c : HostCmd} {s : State}
    (h : accepted .cmpSurfaceLoad refuseCmpSurfaceLoad t c s = true) (hflags : u8 c.params 2 = 1) :
    ∃ v a, (objOf (runCommand .cmpSurfaceLoad refuseCmpSurfaceLoad effCmpSurfaceLoad t c s) (u16 c.params 0)).load
        = some (v, a) ∧ v.kind = 2 ∧ v.format = u8 c.params 3 ∧ v.width = u16 c.params 4 ∧ v.height = u16 c.params 6
      ∧ v.zone = u8 c.params 8 ∧ v.length = surfaceLength (u16 c.params 4) (u16 c.params 6) (u8 c.params 3) := by
  have hw := surfaceLoadOf_of_create (c := c) (by rw [hflags]; rfl) s
  obtain ⟨-, hload⟩ := runCommand_surfaceLoad_keeps (kept := fun _ => False) h (fun _ _ _ hf => hf.elim)
  rw [hw, hflags, surfaceVersion_of_create rfl] at hload
  obtain ⟨⟨_, a⟩, hcreated, rfl⟩ := Option.map_eq_some_iff.mp (hload rfl)
  exact ⟨_, a, hcreated, rfl, rfl, rfl, rfl, rfl, rfl⟩

end Sys2Proof.Machine

section
open Sys2Proof Sys2Proof.Machine

/-- Settles O33, one case per command. -/
theorem compositorCommandsTakeEffect : Obligations.CompositorCommandsTakeEffect := by
  refine ⟨fun t c s h => ?config, fun t c s h => ?layerSet, fun t c s h => ?commit, fun t c s h => ?lutLoad,
    fun t c s h => ?surfaceLoad, fun t c s u v w a h hu hw hv hheader hlines => ?surfaceBytes, fun t c s h => ?disable,
    fun t c s h => ?query⟩
  case config =>
    refine ⟨_, rfl, ?_⟩
    simp only [compOf_runCommand effCmpConfig h]
    refine ⟨fun hout => ?output, fun hshadow => ?shadow, effCmpConfig_active c (begun .cmpConfig t c s),
      fun k hk => compOf_effCmpConfig_other hk (begun .cmpConfig t c s)⟩
    case output =>
      have hawaited := awaited_effCmpConfig_output (begun .cmpConfig t c s) hout
      exact ⟨congrArg (·.1) hawaited, congrArg (·.2.1) hawaited⟩
    case shadow =>
      obtain ⟨p, hp⟩ := shadow_effCmpConfig (begun .cmpConfig t c s) hshadow
      rw [hp]
      exact ⟨rfl, rfl, rfl, rfl⟩
  case layerSet =>
    refine ⟨_, rfl, ?_⟩
    simp only [compOf_runCommand effCmpLayerSet h, effCmpLayerSet, setShadow, compOf_modComp]
    exact ⟨rfl, rfl, fun k hk => compOf_modComp_other hk ..⟩
  case commit =>
    refine ⟨_, rfl, queuedFrom (begun .cmpCommit t c s).clock.now s.xpt.nextOrder
      (commandEntries c (bitOf (u8 c.params 0) 0) (commitEntries c)), ?_, ?_, fun x hx => mem_queued_commit hx, ?_⟩
    · rw [runCommand_xpt effCmpCommit h, effCmpCommit_places]
      exact (placed_iff.mp (placeCommand_placed ..)).1
    · rw [queuedFrom_action, commandEntries_action]
      simp [commitEntries]
    · exact ((runCommand_after_effect effCmpCommit h).same .cmp rfl).trans (effCmpCommit_cmp ..)
  case lutLoad =>
    refine ⟨_, rfl, ?_⟩
    simp only [compOf_runCommand effCmpLutLoad h, effCmpLutLoad, compOf_modComp]
    exact ⟨⟨_, rfl, rfl, rfl⟩, rfl, fun k hk => compOf_modComp_other hk ..⟩
  case surfaceLoad =>
    obtain ⟨⟨-, hzones, hothers⟩, -⟩ := runCommand_surfaceLoad_keeps (kept := fun _ => False) h (fun _ _ _ hf => hf.elim)
    exact ⟨_, rfl, runCommand_surfaceLoad_creates h, hothers, hzones⟩
  case surfaceBytes =>
    subst hw
    obtain rfl : runCommand .cmpSurfaceLoad refuseCmpSurfaceLoad effCmpSurfaceLoad t c s = u := Host.Outcome.next.inj hu
    obtain ⟨hkeeps, -⟩ := runCommand_surfaceLoad_keeps (kept := (· = a)) h fun v' hv' b hb => by
      obtain rfl : v' = v := Option.some.inj (hv'.symm.trans hv)
      exact hb ▸ ⟨hheader, hlines⟩
    exact hkeeps.mem a rfl
  case disable =>
    refine ⟨_, rfl, ?_⟩
    simp only [compOf_runCommand effCmpDisable h, effCmpDisable, compOf_modComp, true_and]
    exact ⟨rfl, rfl, fun k hk => compOf_modComp_other hk ..⟩
  case query => exact congrArg _ (runCommand_answered h rfl)

end

end

section
/-! PROOFS. What the happenings of an output frame leave of a compositor and of the take queue (O34). -/

-- The package is checked as one text; elaborating these proofs in order keeps the number of threads small.
set_option Elab.async false

namespace Sys2Proof.Machine

/-- A change of every listed value that `p` does not read leaves what `p` reads of each key. -/
theorem tget_tmap_keeps {α β : Type} (p : α → β) (d : α) (m : Table α) {f : Nat → α → α} (hf : ∀ k x, p (f k x) = p x)
    (n : Nat) : p (tget d (tmap m f) n) = p (tget d m n) := by
  induction m with
  | nil => rfl
  | cons q r ih =>
    obtain ⟨k, x⟩ := q
    by_cases hk : k = n
    · simp [tget, tmap, tfind, hk, hf]
    · simpa [tget, tmap, tfind, hk] using ih

/-- The output, the picture, its landing, the commits that wait and the frames counted: what the landing of a commit
reads and changes. -/
def Comp.course (x : Comp) : Nat × Nat × Picture × Nat × List Snapshot × Word :=
  (x.plane, x.format, x.active, x.land, x.sealed_, tget 0#32 x.cnt 0)

theorem Comp.course_congr {x y : Comp} (hplane : x.plane = y.plane) (hformat : x.format = y.format)
    (hactive : x.active = y.active) (hland : x.land = y.land) (hsealed : x.sealed_ = y.sealed_) (hcnt : x.cnt = y.cnt) :
    x.course = y.course := by
  simp only [course, hplane, hformat, hactive, hland, hsealed, hcnt]

/-- A compositor keeps its course between two states, and no entry enters the take queue. -/
structure CourseKept (c : Nat) (s u : State) : Prop where
  course : (compOf u c).course = (compOf s c).course
  queue : u.xpt.queue ⊆ s.xpt.queue

section
variable {c : Nat} {s x u : State}

theorem CourseKept.refl (c : Nat) (s : State) : CourseKept c s s := ⟨rfl, List.Subset.refl _⟩

theorem CourseKept.trans (h : CourseKept c s x) (g : CourseKept c x u) : CourseKept c s u :=
  ⟨g.course.trans h.course, List.Subset.trans g.queue h.queue⟩

theorem CourseKept.active (h : CourseKept c s u) : (compOf u c).active = (compOf s c).active :=
  congrArg (·.2.2.1) h.course

theorem CourseKept.land (h : CourseKept c s u) : (compOf u c).land = (compOf s c).land :=
  congrArg (·.2.2.2.1) h.course

theorem CourseKept.sealed (h : CourseKept c s u) : (compOf u c).sealed_ = (compOf s c).sealed_ :=
  congrArg (·.2.2.2.2.1) h.course

theorem CourseKept.frames (h : CourseKept c s u) : tget 0#32 (compOf u c).cnt 0 = tget 0#32 (compOf s c).cnt 0 :=
  congrArg (·.2.2.2.2.2) h.course

/-- What moves neither compositors nor the crosspoint keeps the course. -/
theorem CourseKept.moved {l : List Part} (h : CourseKept c s x) (hm : Moves l x u)
    (hc : l.contains .cmp = false := by rfl) (hx : l.contains .xpt = false := by rfl) : CourseKept c s u := by
  have hcmp : u.cmp = x.cmp := hm.same .cmp hc
  have hxpt : u.xpt = x.xpt := hm.same .xpt hx
  exact ⟨(congrArg Comp.course (compOf_congr hcmp c)).trans h.course, hxpt ▸ h.queue⟩

theorem CourseKept.setSaf (h : CourseKept c s x) (k : Safety) : CourseKept c s { x with saf := k } :=
  ⟨h.course, h.queue⟩

theorem CourseKept.onSaf (h : CourseKept c s x) (f : Safety → Safety) : CourseKept c s (onSaf f x) :=
  ⟨h.course, h.queue⟩

theorem CourseKept.raise (h : CourseKept c s x) (sev cls code path : Nat) (ws : List Word) :
    CourseKept c s (raise sev cls code path ws x) := h.moved (raise_own ..)

theorem CourseKept.raiseCmp (h : CourseKept c s x) (sev code k : Nat) (ws : List Word) :
    CourseKept c s (raiseCmp sev code k ws x) := h.raise ..

theorem CourseKept.modDst (h : CourseKept c s x) (d : Nat) (f : Dst → Dst) : CourseKept c s (modDst d f x) :=
  ⟨h.course, h.queue⟩

theorem CourseKept.modXd (h : CourseKept c s x) (d : Nat) (f : XptDst → XptDst) : CourseKept c s (modXd d f x) :=
  ⟨h.course, h.queue⟩

theorem CourseKept.xptCount (h : CourseKept c s x) (i : Nat) : CourseKept c s (xptCount i x) := ⟨h.course, h.queue⟩

theorem CourseKept.modComp (h : CourseKept c s x) (k : Nat) {f : Comp → Comp}
    (hf : ∀ y, (f y).course = y.course := by exact fun _ => Comp.course_congr rfl rfl rfl rfl rfl rfl) :
    CourseKept c s (modComp k f x) := by
  refine ⟨Eq.trans ?_ h.course, h.queue⟩
  by_cases hk : c = k
  · rw [hk, compOf_modComp, hf]
  · rw [compOf_modComp_other hk]

/-- Every index of CMP_CNT but 0 counts beside the frames. -/
theorem CourseKept.cmpCount (h : CourseKept c s x) (k : Nat) {i : Nat} (hi : i ≠ 0) (n : Nat) :
    CourseKept c s (cmpCount k i n x) :=
  h.modComp k (fun y => by simp only [Comp.course, bumpBy, tget_tset_other _ _ _ hi])

theorem CourseKept.ite {q : Prop} [Decidable q] {a b : State} (ha : CourseKept c s a) (hb : CourseKept c s b) :
    CourseKept c s (if q then a else b) := by
  split
  · exact ha
  · exact hb

theorem CourseKept.foldl {β : Type} {f : State → β → State} (h : CourseKept c s x) (l : List β)
    (hf : ∀ y b, CourseKept c y (f y b)) : CourseKept c s (l.foldl f x) :=
  List.foldlRecOn (motive := fun y => CourseKept c s y) l f h (fun y hy b _ => hy.trans (hf y b))

/-! The discards of entries, and mode transitions (R213, R220). -/

theorem CourseKept.reportDiscard (h : CourseKept c s x) (cause : Nat) (e : Entry) :
    CourseKept c s (reportDiscard cause e x) := by
  refine h.trans ⟨?_, by rw [reportDiscard_queue]; exact List.Subset.refl _⟩
  unfold Machine.reportDiscard
  split
  next => rw [compOf_congr (raise_cmp ..)]; rfl
  next =>
    rw [cancelAudio, compOf_congr (raise_cmp ..)]
    exact ite_keeps (fun u => (compOf u c).course) rfl rfl
  next k _ =>
    have hcount : CourseKept c x (Machine.modComp k (fun y => { y with cnt := bump y.cnt 2 }) x) :=
      (CourseKept.refl c x).cmpCount k (by decide) 1
    exact (hcount.raise ..).course
  next => rfl

theorem CourseKept.entryGone (h : CourseKept c s x) (e : Entry) (res : Option (Status × Nat)) (frame : Nat) :
    CourseKept c s (entryGone e res frame x) := by
  have hm : Moves [.host, .xpt, .red, .out] x (Machine.entryGone e res frame x) := entryGone_moves e res frame (.refl _ x)
  have hcmp : (Machine.entryGone e res frame x).cmp = x.cmp := hm.same .cmp rfl
  exact h.trans ⟨congrArg Comp.course (compOf_congr hcmp c), by rw [entryGone_queue]; exact List.Subset.refl _⟩

theorem CourseKept.discardEntries (h : CourseKept c s x) (p : Entry → Bool) (cause : Nat) :
    CourseKept c s (discardEntries p cause x) := by
  refine h.trans ⟨?_, by rw [discardEntries_queue]; exact List.filter_sublist.subset⟩
  unfold Machine.discardEntries
  refine (ite_keeps (fun u => (compOf u c).course) rfl rfl : (compOf (queueFell _) c).course = _).trans ?_
  exact foldl_keeps (fun u => (compOf u c).course) _ _
    (fun y e => (((CourseKept.refl c y).reportDiscard ..).entryGone ..).course)

theorem CourseKept.endInstances (h : CourseKept c s x) (p : CueInst → Bool) (cause : Nat) :
    CourseKept c s (endInstances p cause x) :=
  h.moved (endInstances_moves p cause (.refl [.flash, .evt, .cue] x))

theorem CourseKept.transitionQueues (h : CourseKept c s x) (n : Nat) : CourseKept c s (transitionQueues n x) := by
  unfold Machine.transitionQueues
  split
  next => exact ⟨h.course, List.nil_subset _⟩
  next => exact (h.discardEntries ..).endInstances ..
  next => exact (h.discardEntries ..).endInstances ..
  next => exact (h.discardEntries ..).endInstances ..
  next => exact (h.discardEntries ..).endInstances ..
  next => exact (h.discardEntries ..).endInstances ..
  next => exact h

theorem CourseKept.dropLease (h : CourseKept c s x) (state : Nat) : CourseKept c s (dropLease state x) :=
  h.moved (dropLease_moves state (.refl [.pins, .flash, .evt, .red, .lane, .out] x))

theorem CourseKept.transition (h : CourseKept c s x) (n : Nat) (dest : Mode) (cause : Nat) :
    CourseKept c s (transition n dest cause x) := by
  have hqueues := h.transitionQueues n
  have htests : CourseKept c s (if (Machine.transitionQueues n x).mode = .maintenance
      then stopTests (Machine.transitionQueues n x) else Machine.transitionQueues n x) :=
    .ite (hqueues.moved (stopTests_moves (.refl [.flash, .evt, .lane, .flow] _))) hqueues
  have hlease := CourseKept.ite (q := dest.mayLease) htests (htests.dropLease 0)
  have htrial := CourseKept.ite (q := n = 12) (hlease.moved (blockTrial_moves 4 (.refl [.flash] _))) hlease
  have hmode : CourseKept c s (applyTransition n dest cause x) :=
    htrial.moved (setMode_moves n dest cause (.refl [.mode, .aon, .pins, .start, .flash, .evt, .pwr, .lane, .out] _))
  exact hmode.moved (transition_moves_applied n dest cause x)

/-! Chip faults and safety reactions (R499, R504). -/

theorem CourseKept.endLease (h : CourseKept c s x) (state : Nat) : CourseKept c s (endLease state x) := by
  unfold Machine.endLease
  have hraised (r : Red) : CourseKept c s (raiseLease state { x with red := r }) :=
    h.moved (raiseLease_moves state ((Moves.refl [.flash, .evt, .red] x).setRed r))
  refine .ite (h.dropLease state) (.ite (.ite h (hraised _)) (.ite ?_ (h.dropLease state)))
  exact (h.dropLease state).transition ..

theorem CourseKept.chipFault (h : CourseKept c s x) (source : Nat) : CourseKept c s (chipFault source x) :=
  .ite (((h.setSaf _).raise ..).endLease 3) ((h.setSaf _).raise ..)

theorem CourseKept.compFailure (h : CourseKept c s x) (r : Nat) : CourseKept c s (compFailure r x) :=
  .ite (((((h.onSaf _).onSaf _).onSaf _).raise ..).chipFault _) (h.onSaf _)

theorem CourseKept.addSafeFrame (h : CourseKept c s x) (k : Nat) : CourseKept c s (addSafeFrame k x) :=
  .ite h ((h.modComp k).raise ..)

theorem CourseKept.reaction (h : CourseKept c s x) (m : Nat) (ks : List Nat) : CourseKept c s (reaction m ks x) := by
  unfold Machine.reaction
  extract_lets framed pinned _ noted _ counted abandoned
  have hframed : CourseKept c s framed := h.foldl ks (fun y k => (CourseKept.refl c y).addSafeFrame k)
  have hpinned : CourseKept c s pinned := hframed.moved (setSafePins_moves .high (.refl [.saf, .out] framed))
  have hnoted : CourseKept c s noted := hpinned.setSaf _
  have hcounted : CourseKept c s counted := .ite hnoted (hnoted.setSaf _)
  have habandoned : CourseKept c s abandoned := .ite (hcounted.moved (abandonEntry_own counted)) hcounted
  exact .ite habandoned ((habandoned.raise ..).transition ..)

/-! Rectangles, layers and fetches (R305, R312, R325, R333, R340). -/

theorem CourseKept.protFail (h : CourseKept c s x) (k r kind n : Nat) (ref out : Word) :
    CourseKept c s (protFail k r kind n ref out x) := by
  unfold Machine.protFail
  extract_lets was watch noted failed
  have hnoted : CourseKept c s noted := h.modComp k
  have hfailed : CourseKept c s failed := hnoted.modComp k
  exact .ite hnoted ((hfailed.raise ..).reaction 1 [k])

theorem CourseKept.armRects (h : CourseKept c s x) (k n : Nat) : CourseKept c s (armRects k n x) := by
  unfold Machine.armRects
  extract_lets was cond7 layer now fresh mask armed said
  have harmed : CourseKept c s armed := h.modComp k
  have hsaid : CourseKept c s said := .ite (harmed.raiseCmp ..) harmed
  exact .ite (hsaid.foldl _ (fun y r => .ite ((CourseKept.refl c y).protFail ..) (.refl c y))) hsaid

theorem CourseKept.judgeLayers (h : CourseKept c s x) (k : Nat) : CourseKept c s (judgeLayers k x) := by
  unfold Machine.judgeLayers
  extract_lets es old total judged
  have hjudged : CourseKept c s judged := h.modComp k
  refine hjudged.foldl _ (fun y l => ?_)
  split
  · exact (CourseKept.refl c y).moved (layerEvent_moves _ _ _ _ (.refl [.flash, .evt] y))
  · exact .refl c y

theorem CourseKept.kiteFaults (h : CourseKept c s x) (k : Nat) : CourseKept c s (kiteFaults k x) :=
  h.foldl _ (fun y _ => .ite (.refl c y) ((CourseKept.refl c y).foldl _ (fun z _ =>
    ((CourseKept.refl c z).cmpCount k (by decide) 1).raiseCmp ..)))

theorem CourseKept.fetchFaults (h : CourseKept c s x) (k : Nat) : CourseKept c s (fetchFaults k x) :=
  h.moved (fetchFaults_moves k (.refl [.flash, .evt, .fst] x))

theorem CourseKept.frameFaults (h : CourseKept c s x) (k : Nat) (late : List (Nat × Nat))
    (parity : List (Nat × Nat × Nat)) : CourseKept c s (frameFaults k late parity x) := by
  unfold Machine.frameFaults
  dsimp only
  have hlate := h.foldl late (f := fun s p => Machine.compFailure (k / 16)
    (Machine.raiseCmp 2 0x5031 k [pack8 k p.1 0 0, pack16 p.2 0] (Machine.cmpCount k 4 1 s)))
    (fun y p => (((CourseKept.refl c y).cmpCount k (by decide) 1).raiseCmp ..).compFailure _)
  have hparity := hlate.foldl parity (f := fun s p => Machine.compFailure (k / 16)
    (Machine.raiseCmp 3 0x5030 k [pack8 k p.1 p.2.1 0, pack16 p.2.2 0] (Machine.cmpCount k 3 1 s)))
    (fun y p => (((CourseKept.refl c y).cmpCount k (by decide) 1).raiseCmp ..).compFailure _)
  exact .ite hparity (hparity.foldl _ (fun y _ => (CourseKept.refl c y).modDst _ _))

/-! The LUT memories and the layer inputs (R299, R318). -/

theorem CourseKept.swapLut (h : CourseKept c s x) (k happening : Nat) : CourseKept c s (swapLut k happening x) :=
  (h.modComp k).raiseCmp ..

theorem CourseKept.lutFrame (h : CourseKept c s x) (k : Nat) : CourseKept c s (lutFrame k x) := by
  unfold Machine.lutFrame
  dsimp only
  have hswap : CourseKept c s (if (compOf x k).lut.autoSwap && !(compOf x k).lut.pending then Machine.swapLut k 4 x
      else x) := .ite (h.swapLut k 4) h
  generalize (if (compOf x k).lut.autoSwap && !(compOf x k).lut.pending then Machine.swapLut k 4 x else x) = y at hswap ⊢
  have hbypass : CourseKept c s (match (compOf y k).lut.active with
      | some a => if !(compOf y k).lut.bypass && (objOf y a.obj).valid.isNone then
          lutState k 3 a.obj (Machine.modComp k (fun k => { k with lut := { k.lut with bypass := true } }) y) else y
      | none => y) := by
    split
    · exact .ite ((hswap.modComp k).raiseCmp ..) hswap
    · exact hswap
  exact .ite (hbypass.modComp k) hbypass

theorem freeEntry_queue (e : Entry) (s : State) :
    (freeEntry e s).xpt.queue = s.xpt.queue.filter (fun y => y.order != e.order) := queueFell_queue _

theorem CourseKept.freeEntry (h : CourseKept c s x) (e : Entry) : CourseKept c s (freeEntry e x) := by
  have hm : Moves [.xpt] x (Machine.freeEntry e x) := freeEntry_moves e (.refl _ x)
  have hcmp : (Machine.freeEntry e x).cmp = x.cmp := hm.same .cmp rfl
  exact h.trans ⟨congrArg Comp.course (compOf_congr hcmp c), by rw [freeEntry_queue]; exact List.filter_sublist.subset⟩

theorem CourseKept.safeAfterTake (h : CourseKept c s x) (d : Nat) : CourseKept c s (safeAfterTake d x) := by
  refine h.trans ⟨?_, List.Subset.refl _⟩
  simp only [Machine.safeAfterTake, onCmp, compOf]
  refine tget_tmap_keeps Comp.course {} x.cmp.comps (fun k y => ?_) c
  repeat' split
  all_goals rfl

theorem CourseKept.landTake (h : CourseKept c s x) (e : Entry) (d : Nat) (src : Option Nat) (n : Nat) :
    CourseKept c s (landTake e d src n x) := by
  unfold Machine.landTake
  extract_lets freed selected shown counted said followed
  have hfreed : CourseKept c s freed := h.freeEntry e
  have hcounted : CourseKept c s counted := ((hfreed.modXd d _).modDst d _).xptCount 1
  have hsaid : CourseKept c s said := .ite (hcounted.raise ..) hcounted
  have hfollowed : CourseKept c s followed :=
    (hsaid.safeAfterTake d).moved (openFollows_moves e d src (.refl [.aud] _))
  exact hfollowed.entryGone e none n

theorem CourseKept.landInputs (h : CourseKept c s x) (k n : Nat) : CourseKept c s (landInputs k n x) := by
  refine h.foldl _ (fun y l => CourseKept.moved ?_ (showDest_moves _ _ (.refl [.flash, .evt, .flow] _)))
  refine (CourseKept.refl c y).foldl _ (fun z e => ?_)
  split
  · exact (CourseKept.refl c z).landTake ..
  · exact .refl c z

end

end Sys2Proof.Machine
end

section
/-! PROOFS. The events of chapter 9: LUT copies, the landing of configurations, disablings and commits, and output
frames (O34). -/

-- The package is checked as one text; elaborating these proofs in order keeps the number of threads small.
set_option Elab.async false

namespace Sys2Proof.Machine

/-! The LUT copies (R317, R318). -/

/-- A copy in progress ends (R317). -/
theorem execLutCopyDone_ends {t c : Nat} {j : LutJob} {s : State} (hc : c ≤ 63)
    (hjob : (compOf s c).lut.jobs.head? = some j) (hwait : j.waiting = false) :
    exec (.lutCopyDone t c) s = .next (lutCopied c j (advance t s)) := by
  refine (if_neg (Nat.not_lt.mpr hc)).trans ?_
  simp only [compOf_advance, hjob, hwait]
  rfl

/-- A copy that a command awaits, from an object that is VALID, of kind 4 and readable. -/
theorem lut_lutCopied_of_valid {c : Nat} {j : LutJob} {v : Version} {s : State} (hcmd : j.cmd.isSome = true)
    (hvalid : (objOf s j.obj).valid = some v) (hkind : v.kind = 4) (hbad : s.fst.bad = []) :
    (compOf (lutCopied c j s) c).lut = { (compOf s c).lut with
      shadow := some ⟨j.obj, versionBytes s v 0 v.length⟩, pending := true, autoSwap := false
      jobs := (compOf s c).lut.jobs.drop 1 } := by
  obtain ⟨d, hd⟩ := Option.isSome_iff_exists.mp hcmd
  have hobj (f : Comp → Comp) : objOf (modComp c f s) j.obj = objOf s j.obj := rfl
  have hzone (f : Comp → Comp) (k o l : Nat) : zoneBad (modComp c f s) k o l = [] := by
    rw [zoneBad, if_pos (by simp [modComp, hbad])]
  simp only [lutCopied, hd, Option.isNone_some, Bool.false_and, hobj, hvalid, hkind, hzone]
  simp only [Bool.false_eq_true, ↓reduceIte, ne_eq, not_true_eq_false, List.isEmpty_nil, Bool.not_true,
    List.drop_one, Option.isSome_some, compOf_lutReply, compOf_lutState, compOf_cmpCount, compOf_modComp]
  rfl

/-- Without a VALID object the copy leaves the shadow memory empty. -/
theorem lut_lutCopied_of_none {c : Nat} {j : LutJob} {s : State} (hcmd : j.cmd.isSome = true)
    (hvalid : (objOf s j.obj).valid = none) :
    (compOf (lutCopied c j s) c).lut = { (compOf s c).lut with
      shadow := none, pending := false, autoSwap := false, jobs := (compOf s c).lut.jobs.drop 1 } := by
  obtain ⟨d, hd⟩ := Option.isSome_iff_exists.mp hcmd
  have hobj (f : Comp → Comp) : objOf (modComp c f s) j.obj = objOf s j.obj := rfl
  simp only [lutCopied, hd, Option.isNone_some, Bool.false_and, hobj, hvalid]
  simp only [Bool.false_eq_true, ↓reduceIte, List.drop_one, compOf_lutReply, compOf_lutState, compOf_modComp]

/-! The landing of CMP_CONFIG and of CMP_DISABLE (R293, R322, R323). -/

/-- The gang that a leader takes or loses does not hold the leader (R293). -/
@[simp] theorem compOf_setMembers (c : Nat) (on : Bool) (s : State) : compOf (setMembers c on s) c = compOf s c :=
  List.foldlRecOn (motive := fun x => compOf x c = compOf s c) _ _ rfl fun x hx i hi => by
    have hpos : 0 < i := by revert i; decide
    exact (compOf_modComp_other (by omega) ..).trans hx

/-- A configuration as it lands on its compositor: an enabling clears it but for its shadow state (R323). -/
def Comp.configured (x : CmpChange) (k : Comp) : Comp :=
  if x.enable then
    { clearedComp k with state := 1, shadow := k.shadow, plane := x.plane, format := x.format
                         colour := k.colourNext.getD 0 }
  else { k with plane := x.plane, format := x.format, change := none }

theorem compOf_landConfig (c : Nat) (x : CmpChange) (s : State) :
    compOf (landConfig c x s) c = (compOf s c).configured x := by
  unfold landConfig
  extract_lets landed ganged said
  have hlanded : compOf landed c = (compOf s c).configured x := by
    simp only [landed, Comp.configured]
    split <;> exact compOf_modComp ..
  have hganged : compOf ganged c = (compOf s c).configured x :=
    ite_keeps (compOf · c) ((compOf_setMembers ..).trans hlanded) hlanded
  refine ite_keeps (compOf · c) ?_ hganged
  refine (foldl_keeps (compOf · c) _ _ fun y l => ?_).trans ((compOf_raiseCmp ..).trans hganged)
  have hshow : Moves [.flash, .evt, .flow] y (showDest (layerDest c l) false y) := showDest_moves _ _ (.refl _ y)
  exact compOf_congr (hshow.same .cmp rfl) c

theorem execCmpConfigLands_due {t c : Nat} {x : CmpChange} {s : State} (hc : c ≤ 63) (hrun : lanesRun s = true)
    (hchange : (compOf s c).change = some x) (hat : x.at_ ≤ max s.clock.clk t) :
    exec (.cmpConfigLands t c) s = .next (landConfig c x (advance t s)) := by
  refine (if_neg (Nat.not_lt.mpr hc)).trans ?_
  have hdue : x.at_ ≤ (advance t s).clock.clk := hat
  simp only [compOf_advance, lanesRun_advance, hchange, hrun, hdue, decide_true, Bool.and_self, if_true]

theorem execCmpDisableLands_due {t c a : Nat} {s : State} (hc : c ≤ 63) (hrun : lanesRun s = true)
    (hstate : (compOf s c).state = 3) (hdisable : (compOf s c).disableAt = some a) (hat : a ≤ max s.clock.clk t) :
    exec (.cmpDisableLands t c) s = .next (landDisable c (advance t s)) := by
  refine (if_neg (Nat.not_lt.mpr hc)).trans ?_
  have hdue : a ≤ (advance t s).clock.clk := hat
  simp only [compOf_advance, lanesRun_advance, hdisable, hstate, hrun, hdue, decide_true, Bool.and_self, if_true]

/-- A layer input loses its selection and all but its park setting (R322). -/
def dropInput (s : State) (d : Nat) : State :=
  modDst d (fun x => { parkType := x.parkType, parkValue := x.parkValue })
    (onXpt (fun x => { x with dst := tdel x.dst d }) s)

theorem xdst_dropInputs (ds : List Nat) {s : State} {d : Nat} (h : d ∈ ds) : xdst (ds.foldl dropInput s) d = {} := by
  rw [xdst, tget, tfind_foldl_of_removes (·.xpt.dst) (fun _ _ _ => tfind_tdel ..), if_pos h]
  rfl

theorem landDisable_clears (c : Nat) (s : State) : (compOf (landDisable c s) c).state = 0
    ∧ (∀ l, l < 8 → (xdst (landDisable c s) (layerDest c l)).selected = none)
    ∧ ∀ y ∈ (landDisable c s).xpt.queue, y.ofComp c = false := by
  unfold landDisable
  extract_lets n discarded replied parked dropped moved cleared
  have hmoved : Moves [.fst] dropped moved := referencersMove_moves _ (.refl _ dropped)
  have hcleared : Moves [.cmp] moved cleared := setMembers_moves c false (modComp_moves c _ (.refl _ moved))
  have hxpt : (raiseCmp 1 0x5002 c [pack8_16 c 0 0, w32 n] cleared).xpt = dropped.xpt :=
    (raise_xpt ..).trans ((hcleared.same .xpt rfl).trans (hmoved.same .xpt rfl))
  refine ⟨?state, fun l hl => ?inputs, fun y hy => ?queue⟩
  case state =>
    simp only [cleared, compOf_raiseCmp, compOf_setMembers, compOf_modComp]
    rfl
  case inputs =>
    have hfold : dropped = ((List.range 8).map (layerDest c)).foldl dropInput parked := by
      rw [List.foldl_map]
      rfl
    rw [xdst_congr hxpt, hfold, xdst_dropInputs _ (List.mem_map_of_mem (List.mem_range.mpr hl))]
  case queue =>
    have hreplied : replied.xpt.queue = discarded.xpt.queue :=
      foldl_keeps (·.xpt.queue) _ _ fun x j =>
        congrArg Xpt.queue (Moves.same (k := [.host, .red, .out]) (lutReply_moves j .cancelled (.refl _ x)) .xpt rfl)
    have hparked : parked.xpt.queue = replied.xpt.queue := foldl_keeps (·.xpt.queue) _ _
    have hdropped : dropped.xpt.queue = parked.xpt.queue := foldl_keeps (·.xpt.queue) _ _
    rw [hxpt, hdropped, hparked, hreplied] at hy
    exact not_of_mem_discardEntries hy

/-! The landing of a sealed commit (R317, R320). -/

/-- The entries of a landed commit leave the queue. -/
theorem queue_foldl_freeEntry (es : List Entry) (n : Nat) (s : State) :
    (es.foldl (fun s e => entryGone e none n (freeEntry e s)) s).xpt.queue
      = s.xpt.queue.filter (fun y => es.all (fun e => y.order != e.order)) := by
  induction es generalizing s with
  | nil => exact (List.filter_eq_self.mpr fun _ _ => rfl).symm
  | cons e es ih =>
    rw [List.foldl_cons, ih, entryGone_queue, freeEntry_queue, List.filter_filter]
    simp only [List.all_cons, Bool.and_comm]

theorem landCommit_of_none {c n : Nat} {x : Snapshot} {s : State} (h : snapEntries s c x.tick = []) :
    landCommit c n x s = modComp c (fun k => { k with sealed_ := k.sealed_.drop 1 }) s := by
  simp only [landCommit, h, List.isEmpty_nil, if_true]

/-- A compositor with the picture of a sealed commit, which waits no longer (R320). -/
def pictureLanded (c n : Nat) (x : Snapshot) (s : State) : State :=
  modComp c (fun k => { k with active := x.picture, land := n })
    (modComp c (fun k => { k with sealed_ := k.sealed_.drop 1 }) s)

/-- A sealed commit with entries lands: after its picture only the LUT memories, a count and an event change before its
entries are freed. -/
theorem landCommit_of_entries {c : Nat} (n : Nat) {x : Snapshot} {s : State} (h : snapEntries s c x.tick ≠ []) :
    ∃ y, CourseKept c (pictureLanded c n x s) y ∧ landCommit c n x s =
      (snapEntries s c x.tick).foldl (fun s e => entryGone e none n (freeEntry e s)) y := by
  unfold landCommit
  extract_lets es taken pictured swapped counted said
  rw [if_neg (by simpa [es] using h)]
  have hswapped : CourseKept c pictured swapped := .ite (((CourseKept.refl c pictured).swapLut c 1).modComp c) (.refl ..)
  have hcounted : CourseKept c pictured counted := hswapped.cmpCount c (by decide) 1
  have hsaid : CourseKept c pictured said := .ite (hcounted.raiseCmp ..) hcounted
  exact ⟨said, hsaid, rfl⟩

theorem landCommit_course {c : Nat} (n : Nat) {x : Snapshot} {s : State} (h : snapEntries s c x.tick ≠ []) :
    CourseKept c (pictureLanded c n x s) (landCommit c n x s) := by
  obtain ⟨y, hy, hland⟩ := landCommit_of_entries n h
  rw [hland]
  exact hy.foldl _ fun z e => ((CourseKept.refl c z).freeEntry e).entryGone e none n

theorem landCommit_frees {c : Nat} (n : Nat) {x : Snapshot} {s : State} (h : snapEntries s c x.tick ≠ []) :
    ∀ e ∈ (landCommit c n x s).xpt.queue, e ∉ snapEntries s c x.tick := by
  obtain ⟨y, -, hland⟩ := landCommit_of_entries n h
  rw [hland, queue_foldl_freeEntry]
  intro e he hmem
  simpa using List.all_eq_true.mp (List.mem_filter.mp he).2 e hmem

/-- The frames counted stand through the landing of a commit. -/
theorem landCommit_frames (c n : Nat) (x : Snapshot) (s : State) :
    tget 0#32 (compOf (landCommit c n x s) c).cnt 0 = tget 0#32 (compOf s c).cnt 0 := by
  by_cases h : snapEntries s c x.tick = []
  · rw [landCommit_of_none h, compOf_modComp]
  · rw [(landCommit_course n h).frames, pictureLanded, compOf_modComp, compOf_modComp]

theorem landCommits_frames (c n : Nat) (s : State) :
    tget 0#32 (compOf (landCommits c n s) c).cnt 0 = tget 0#32 (compOf s c).cnt 0 :=
  List.foldlRecOn (motive := fun r : Bool × State => tget 0#32 (compOf r.2 c).cnt 0 = tget 0#32 (compOf s c).cnt 0)
    _ _ rfl fun r hr x _ => by
      split
      · exact (landCommit_frames c n x r.2).trans hr
      · exact hr

theorem landCommits_of_ready {c n : Nat} {x : Snapshot} {s : State} (hsealed : (compOf s c).sealed_ = [x])
    (hready : snapReady s c n x = true) : landCommits c n s = landCommit c n x s := by
  simp only [landCommits, hsealed, List.foldl_cons, List.foldl_nil, hready, Bool.and_self, if_true]

/-! Output frames (R296, R312, R320). -/

/-- The compositor's plane and format: what tells the output frames on which an entry may land. -/
def Comp.output (x : Comp) : Nat × Nat := (x.plane, x.format)

/-- What an operation leaves, by which the readiness of entries is judged: the crosspoint, the clock, the frame counts and
the compositor's output. -/
structure ReadinessKept (c : Nat) (s u : State) : Prop where
  output : (compOf u c).output = (compOf s c).output
  xpt : u.xpt = s.xpt
  clock : u.clock = s.clock
  tim : u.tim = s.tim

/-- Whatever moves only events, flows, the frame store and the LUT memories keeps the readiness of entries. -/
theorem CourseKept.readiness {c : Nat} {s u : State} (h : CourseKept c s u)
    (hm : Moves [.flash, .evt, .flow, .fst, .cmp] s u) : ReadinessKept c s u :=
  ⟨congrArg (fun r => (r.1, r.2.1)) h.course, hm.same .xpt rfl, hm.same .clock rfl, hm.same .tim rfl⟩

section
variable {c : Nat} {s u : State}

theorem ReadinessKept.plane (h : ReadinessKept c s u) : compPlane u c = compPlane s c := congrArg (·.1) h.output

theorem ReadinessKept.format (h : ReadinessKept c s u) : compFormat u c = compFormat s c := congrArg (·.2) h.output

theorem ReadinessKept.planeCount (h : ReadinessKept c s u) (p f : Nat) : planeCount u p f = planeCount s p f := by
  simp only [Machine.planeCount, planeOf, h.tim]

theorem ReadinessKept.entryReady (h : ReadinessKept c s u) (p : Nat) (fast : Bool) (n : Nat) (e : Entry) :
    entryReady u p fast n e = entryReady s p fast n e := by
  simp only [Machine.entryReady, h.xpt, h.clock]

theorem ReadinessKept.snapEntries (h : ReadinessKept c s u) (k tick : Nat) :
    snapEntries u k tick = snapEntries s k tick := by
  simp only [Machine.snapEntries, h.xpt]

theorem ReadinessKept.snapReady (h : ReadinessKept c s u) (n : Nat) (x : Snapshot) :
    snapReady u c n x = snapReady s c n x := by
  simp only [Machine.snapReady, h.format, h.plane, h.snapEntries, h.entryReady]

/-- The layer inputs of a compositor take its plane and its format (R299). -/
theorem ReadinessKept.readyTakes (h : ReadinessKept c s u) {l : Nat} (hl : l < 8) :
    readyTakes u (layerDest c l) = readyTakes s (layerDest c l) := by
  have hcomp : (layerDest c l - 1024) / 8 = c := by unfold layerDest; omega
  have hinput : ¬ layerDest c l < 1024 := by unfold layerDest; omega
  simp only [Machine.readyTakes, destFormat, destPlane, destCount, if_neg hinput, hcomp, h.format, h.plane, h.planeCount,
    h.entryReady, h.xpt]

end

/-- Without a take that is ready the layer inputs only decide what they show. -/
theorem landInputs_of_none {c n : Nat} {s : State} (h : ∀ l, l < 8 → readyTakes s (layerDest c l) = []) :
    Moves [.flash, .evt, .flow] s (landInputs c n s) := by
  refine List.foldlRecOn (motive := fun x => Moves [.flash, .evt, .flow] s x) _ _ (.refl ..) fun x hx l hl => ?_
  have hcmp : x.cmp = s.cmp := hx.same .cmp rfl
  have hkept : ReadinessKept c s x :=
    ⟨congrArg Comp.output (compOf_congr hcmp c), hx.same .xpt rfl, hx.same .clock rfl, hx.same .tim rfl⟩
  dsimp only
  rw [hkept.readyTakes (List.mem_range.mp hl), h l (List.mem_range.mp hl)]
  exact showDest_moves _ _ hx

/-- The start of an output frame: referencers move, and what CMP_CONFIG and CMP_PROT_CFG left is taken over. -/
def frameOpened (c : Nat) (s : State) : State :=
  lutFrame c (modComp c (fun k => { k with
      colour := k.colourNext.getD k.colour, colourNext := none, cfg := k.cfgNext.getD k.cfg, cfgNext := none })
    (referencersMove (fun r => match r with | .layer k _ => k == c | .lut k => k == c | _ => false) s))

/-- An output frame after its landings. -/
def frameLanded (c n : Nat) (s : State) : State := landCommits c n (landInputs c n (frameOpened c s))

/-- An output frame after its layers, rectangles and fetches were judged. -/
def frameJudged (c n : Nat) (late : List (Nat × Nat)) (parity : List (Nat × Nat × Nat)) (s : State) : State :=
  frameFaults c late parity (fetchFaults c (kiteFaults c (armRects c n (judgeLayers c s))))

/-- An output frame is counted. -/
def frameCounted (c n : Nat) (tainted : Bool) (s : State) : State :=
  let s := modComp c (fun k => { k with frame := n, tainted := tainted }) (cmpCount c 0 1 s)
  if tainted then cmpCount c 7 1 s else s

/-- The words of an output frame at one position are put out. -/
def probe (c : Nat) (late : List (Nat × Nat)) (s : State) (p : Nat × Nat) : State :=
  let v := composedYcc s c late p.1 p.2
  emit (.composed s.clock.clk c p.1 p.2 v.1 v.2.1 v.2.2) s

theorem outputFrame_probes (c : Nat) (late : List (Nat × Nat)) (parity : List (Nat × Nat × Nat)) (ps : List (Nat × Nat))
    (s : State) : outputFrame c late parity ps s = ps.foldl (probe c late) (outputFrame c late parity [] s) := rfl

theorem outputFrame_stages (c : Nat) (late : List (Nat × Nat)) (parity : List (Nat × Nat × Nat)) (s : State) :
    ∃ tainted, outputFrame c late parity [] s = frameCounted c (planeCount s (compPlane s c) (compFormat s c)) tainted
      (frameJudged c (planeCount s (compPlane s c) (compFormat s c)) late parity
        (frameLanded c (planeCount s (compPlane s c) (compFormat s c)) s)) := ⟨_, rfl⟩

theorem execOutputFrameStart_runs {t c : Nat} (late : List (Nat × Nat)) (parity : List (Nat × Nat × Nat))
    (ps : List (Nat × Nat)) {s : State} (hc : c ≤ 63) (hon : compOn s c = true) (hrun : lanesRun s = true)
    (hawake : inS1 s = false) :
    exec (.outputFrameStart t c late parity ps) s = .next (outputFrame c late parity ps (advance t s)) := by
  have hon' : compOn (advance t s) c = true := hon
  have hawake' : inS1 (advance t s) = false := hawake
  refine (if_neg (Nat.not_lt.mpr hc)).trans ?_
  rw [lanesRun_advance, hon', hrun, hawake']
  rfl

theorem outputFrame_own (c : Nat) (late : List (Nat × Nat)) (parity : List (Nat × Nat × Nat)) (ps : List (Nat × Nat))
    (s : State) : Moves [.mode, .aon, .pins, .start, .flash, .host, .evt, .saf, .pwr, .xpt, .cue, .red, .tim, .lane, .flow,
      .fst, .cmp, .aud, .out] s (outputFrame c late parity ps s) := outputFrame_moves c late parity ps (.refl _ s)

theorem frameOpened_course (c : Nat) (s : State) : CourseKept c s (frameOpened c s) :=
  CourseKept.lutFrame (((CourseKept.refl c s).moved (referencersMove_moves _ (.refl [.fst] s))).modComp c) c

theorem frameOpened_moves (c : Nat) (s : State) : Moves [.flash, .evt, .fst, .cmp] s (frameOpened c s) :=
  lutFrame_moves c (modComp_moves c _ (referencersMove_moves _ (.refl _ s)))

theorem frameJudged_course (c n : Nat) (late : List (Nat × Nat)) (parity : List (Nat × Nat × Nat)) (s : State) :
    CourseKept c s (frameJudged c n late parity s) :=
  (((((CourseKept.refl c s).judgeLayers c).armRects c n).kiteFaults c).fetchFaults c).frameFaults c late parity

theorem compOf_frameCounted (c n : Nat) (tainted : Bool) (s : State) :
    ∃ m, compOf (frameCounted c n tainted s) c = { compOf s c with frame := n, tainted := tainted, cnt := m }
      ∧ tget 0#32 m 0 = tget 0#32 (compOf s c).cnt 0 + 1#32 := by
  cases tainted with
  | false =>
    refine ⟨bump (compOf s c).cnt 0, ?_, bump_same ..⟩
    simp only [frameCounted, Bool.false_eq_true, if_false, compOf_modComp, compOf_cmpCount]
    rfl
  | true =>
    refine ⟨bump (bump (compOf s c).cnt 0) 7, ?_, (bump_other _ (by decide)).trans (bump_same ..)⟩
    simp only [frameCounted, if_true, compOf_modComp, compOf_cmpCount]
    rfl

theorem frameCounted_xpt (c n : Nat) (tainted : Bool) (s : State) : (frameCounted c n tainted s).xpt = s.xpt :=
  ite_keeps State.xpt rfl rfl

/-- An output frame takes the count of its plane and is counted once, whatever lands on it. -/
theorem outputFrame_counts (c : Nat) (late : List (Nat × Nat)) (parity : List (Nat × Nat × Nat)) (s : State) :
    (compOf (outputFrame c late parity [] s) c).frame = planeCount s (compPlane s c) (compFormat s c)
      ∧ tget 0#32 (compOf (outputFrame c late parity [] s) c).cnt 0 = tget 0#32 (compOf s c).cnt 0 + 1#32 := by
  obtain ⟨tainted, h⟩ := outputFrame_stages c late parity s
  rw [h]
  generalize planeCount s (compPlane s c) (compFormat s c) = n
  obtain ⟨m, hcomp, hm⟩ := compOf_frameCounted c n tainted (frameJudged c n late parity (frameLanded c n s))
  have hjudged : tget 0#32 (compOf (frameJudged c n late parity (frameLanded c n s)) c).cnt 0
      = tget 0#32 (compOf (frameLanded c n s) c).cnt 0 := (frameJudged_course ..).frames
  have hinputs : tget 0#32 (compOf (landInputs c n (frameOpened c s)) c).cnt 0 = tget 0#32 (compOf s c).cnt 0 :=
    ((frameOpened_course c s).landInputs c n).frames
  have hlanded : tget 0#32 (compOf (frameLanded c n s) c).cnt 0 = tget 0#32 (compOf s c).cnt 0 :=
    (landCommits_frames ..).trans hinputs
  rw [hcomp]
  exact ⟨rfl, by rw [hm, hjudged, hlanded]⟩

/-- Opening a frame and landing no take keeps the readiness of entries. -/
theorem readiness_landInputs {c : Nat} (n : Nat) {s : State} (hinputs : ∀ l, l < 8 → readyTakes s (layerDest c l) = []) :
    ReadinessKept c s (landInputs c n (frameOpened c s)) := by
  have hopens : Moves [.flash, .evt, .flow, .fst, .cmp] s (frameOpened c s) := (frameOpened_moves c s).mono rfl
  have hopened : ReadinessKept c s (frameOpened c s) := (frameOpened_course c s).readiness hopens
  have hnone (l : Nat) (hl : l < 8) : readyTakes (frameOpened c s) (layerDest c l) = [] :=
    (hopened.readyTakes hl).trans (hinputs l hl)
  have hshows : Moves [.flash, .evt, .flow, .fst, .cmp] (frameOpened c s) (landInputs c n (frameOpened c s)) :=
    (landInputs_of_none hnone).mono rfl
  exact ((frameOpened_course c s).landInputs c n).readiness (hopens.trans hshows)

/-- What the landing of a sealed commit leaves: its picture is active since this frame, no commit waits and its entries
are gone. -/
structure PictureShown (c n : Nat) (x : Snapshot) (es : List Entry) (s : State) : Prop where
  active : (compOf s c).active = x.picture
  land : (compOf s c).land = n
  sealed : (compOf s c).sealed_ = []
  queue : ∀ y ∈ s.xpt.queue, y ∉ es

theorem PictureShown.kept {c n : Nat} {x : Snapshot} {es : List Entry} {s u : State} (h : PictureShown c n x es s)
    (hkept : CourseKept c s u) : PictureShown c n x es u :=
  ⟨hkept.active.trans h.active, hkept.land.trans h.land, hkept.sealed.trans h.sealed,
    fun y hy => h.queue y (hkept.queue hy)⟩

theorem landCommit_shows {c : Nat} (n : Nat) {x : Snapshot} {s : State} (hsealed : (compOf s c).sealed_ = [x])
    (h : snapEntries s c x.tick ≠ []) : PictureShown c n x (snapEntries s c x.tick) (landCommit c n x s) := by
  have hcourse : CourseKept c (pictureLanded c n x s) (landCommit c n x s) := landCommit_course n h
  have hpicture : compOf (pictureLanded c n x s) c = { compOf s c with active := x.picture, land := n, sealed_ := [] } := by
    rw [pictureLanded, compOf_modComp, compOf_modComp, hsealed]
    rfl
  exact ⟨hcourse.active.trans (congrArg Comp.active hpicture), hcourse.land.trans (congrArg Comp.land hpicture),
    hcourse.sealed.trans (congrArg Comp.sealed_ hpicture), landCommit_frees n h⟩

/-- A sealed commit that is ready lands on an output frame on which no take lands. -/
theorem frameLanded_shows {c n : Nat} {x : Snapshot} {s : State} (hsealed : (compOf s c).sealed_ = [x])
    (hinputs : ∀ l, l < 8 → readyTakes s (layerDest c l) = []) (hentries : snapEntries s c x.tick ≠ [])
    (hready : snapReady s c n x = true) : PictureShown c n x (snapEntries s c x.tick) (frameLanded c n s) := by
  have hkept : ReadinessKept c s (landInputs c n (frameOpened c s)) := readiness_landInputs n hinputs
  have hwaits : (compOf (landInputs c n (frameOpened c s)) c).sealed_ = [x] :=
    ((frameOpened_course c s).landInputs c n).sealed.trans hsealed
  have hlands : frameLanded c n s = landCommit c n x (landInputs c n (frameOpened c s)) :=
    landCommits_of_ready hwaits ((hkept.snapReady n x).trans hready)
  have hsame := hkept.snapEntries c x.tick
  rw [hlands, ← hsame]
  exact landCommit_shows n hwaits (by rwa [hsame])

theorem PictureShown.counted {c n : Nat} {x : Snapshot} {es : List Entry} {s : State} (h : PictureShown c n x es s)
    (tainted : Bool) : PictureShown c n x es (frameCounted c n tainted s) := by
  obtain ⟨m, hcomp, -⟩ := compOf_frameCounted c n tainted s
  exact ⟨(congrArg Comp.active hcomp).trans h.active, (congrArg Comp.land hcomp).trans h.land,
    (congrArg Comp.sealed_ hcomp).trans h.sealed, (frameCounted_xpt c n tainted s).symm ▸ h.queue⟩

/-- A sealed commit that is ready, on an output frame on which no take lands, becomes the active picture, and its entries
leave the queue. -/
theorem outputFrame_lands {c : Nat} {x : Snapshot} (late : List (Nat × Nat)) (parity : List (Nat × Nat × Nat)) {s : State}
    (hsealed : (compOf s c).sealed_ = [x]) (hinputs : ∀ l, l < 8 → readyTakes s (layerDest c l) = [])
    (hentries : snapEntries s c x.tick ≠ [])
    (hready : snapReady s c (planeCount s (compPlane s c) (compFormat s c)) x = true) :
    PictureShown c (planeCount s (compPlane s c) (compFormat s c)) x (snapEntries s c x.tick)
      (outputFrame c late parity [] s) := by
  obtain ⟨tainted, h⟩ := outputFrame_stages c late parity s
  rw [h]
  exact ((frameLanded_shows hsealed hinputs hentries hready).kept (frameJudged_course ..)).counted tainted

/-! The words put out (log 65). -/

theorem probe_moves (c : Nat) (late : List (Nat × Nat)) (s : State) (p : Nat × Nat) : Moves [.out] s (probe c late s p) :=
  emit_moves _ (.refl _ s)

theorem probes_moves (c : Nat) (late : List (Nat × Nat)) (ps : List (Nat × Nat)) (s : State) :
    Moves [.out] s (ps.foldl (probe c late) s) :=
  List.foldlRecOn (motive := fun x => Moves [.out] s x) _ _ (.refl ..) fun x hx p _ => hx.trans (probe_moves c late x p)

/-- Each asked position is put out with the words that are composed there. -/
theorem composed_mem_probes {c : Nat} {late : List (Nat × Nat)} {ps : List (Nat × Nat)} {s : State} {p : Nat × Nat}
    (h : p ∈ ps) : ∃ y b r, Out.composed s.clock.clk c p.1 p.2 y b r ∈ (ps.foldl (probe c late) s).out := by
  induction ps generalizing s with
  | nil => cases h
  | cons q ps ih =>
    rcases List.mem_cons.mp h with rfl | hp
    · have hkept := (probes_moves c late ps (probe c late s p)).steady.out
      exact ⟨_, _, _, hkept.subset List.mem_cons_self⟩
    · exact ih (s := probe c late s q) hp

end Sys2Proof.Machine

section
open Sys2Proof Sys2Proof.Machine

/-- Settles O34, one case per event. That an output frame logs the words of the positions that its row asks for is the
model's choice (log 65). -/
theorem compositorEventsTakeEffect : Obligations.CompositorEventsTakeEffect := by
  refine ⟨fun t c j v s hc hjob hwait hcmd hvalid hkind hbad => ?copied, fun t c j s hc hjob hwait hcmd hvalid => ?failed,
    fun t c x s hc hrun hchange hat => ?configured, fun t c a s hc hrun hstate hdisable hat => ?disabled,
    fun t c late parity ps s hc hon hrun hawake => ?frame,
    fun t c x late parity ps s hc hon hrun hawake hsealed hinputs hentries hready => ?landed⟩
  case copied =>
    refine ⟨_, execLutCopyDone_ends hc hjob hwait, ?_⟩
    rw [lut_lutCopied_of_valid (s := advance t s) hcmd hvalid hkind hbad]
    exact ⟨rfl, rfl, rfl, rfl⟩
  case failed =>
    refine ⟨_, execLutCopyDone_ends hc hjob hwait, ?_⟩
    rw [lut_lutCopied_of_none (s := advance t s) hcmd hvalid]
    exact ⟨rfl, rfl, rfl⟩
  case configured =>
    refine ⟨_, execCmpConfigLands_due hc hrun hchange hat, ?_⟩
    rw [compOf_landConfig, compOf_advance, Comp.configured]
    cases henable : x.enable with
    | false => exact ⟨rfl, rfl, rfl, nofun, fun _ => ⟨rfl, rfl⟩, rfl⟩
    | true => exact ⟨rfl, rfl, rfl, fun _ => rfl, nofun, rfl⟩
  case disabled => exact ⟨_, execCmpDisableLands_due hc hrun hstate hdisable hat, landDisable_clears c (advance t s)⟩
  case frame =>
    refine ⟨_, execOutputFrameStart_runs late parity ps hc hon hrun hawake, ?_⟩
    obtain ⟨hframe, hcnt⟩ := outputFrame_counts c late parity (advance t s)
    have hprobes := probes_moves c late ps (outputFrame c late parity [] (advance t s))
    have hclock : (outputFrame c late parity [] (advance t s)).clock = (advance t s).clock :=
      (outputFrame_own c late parity [] _).same .clock rfl
    rw [outputFrame_probes, compOf_congr (hprobes.same .cmp rfl)]
    refine ⟨hframe, hcnt, fun p hp => ?_⟩
    have hout := composed_mem_probes (c := c) (late := late) (s := outputFrame c late parity [] (advance t s)) hp
    rwa [hclock] at hout
  case landed =>
    refine ⟨_, execOutputFrameStart_runs late parity ps hc hon hrun hawake, ?_⟩
    have hprobes := probes_moves c late ps (outputFrame c late parity [] (advance t s))
    have hxpt : (ps.foldl (probe c late) (outputFrame c late parity [] (advance t s))).xpt
        = (outputFrame c late parity [] (advance t s)).xpt := hprobes.same .xpt rfl
    rw [outputFrame_probes, compOf_congr (hprobes.same .cmp rfl), hxpt]
    obtain ⟨hactive, hland, htaken, hqueue⟩ :=
      outputFrame_lands (s := advance t s) late parity hsealed hinputs hentries hready
    exact ⟨hactive, hland, htaken, hqueue⟩

end
end

section
/-! PROOFS. Where the bytes of a zone lie, and what is read from a zone after a write into it (O48). -/

-- The package is checked as one text; elaborating these proofs in order keeps the number of threads small.
set_option Elab.async false

namespace Sys2Proof.Machine

/-! Where the bytes of a zone lie (Table 8.3). -/

/-- The bytes of a 256-byte block of a zone lie together. -/
theorem addr_locate_add (z : Zone) {o i : Nat} (h : o % 256 + i < 256) :
    (locate z (o + i)).addr = (locate z o).addr + i := by
  have hblock : (o + i) / 2 ^ 8 = o / 2 ^ 8 := by omega
  have hdiv (c : Nat) (hc : 8 ≤ c) : (o + i) / 2 ^ c = o / 2 ^ c := by
    obtain ⟨j, rfl⟩ := Nat.exists_eq_add_of_le hc
    rw [Nat.pow_add, ← Nat.div_div_eq_div_mul, ← Nat.div_div_eq_div_mul, hblock]
  have hrow := hdiv (15 + z.pcLog2) (by omega)
  unfold locate Loc.addr bitsOf
  split
  · dsimp only
    rw [hdiv 15 (by omega), hdiv 10 (by omega), hrow]
    omega
  · dsimp only
    rw [hblock, hdiv (8 + z.pcLog2) (by omega), hdiv (13 + z.pcLog2) (by omega), hrow]
    omega
  · dsimp only
    rw [hdiv 10 (by omega), hdiv (10 + z.pcLog2) (by omega), hrow]
    omega

/-- The parts of a location that an address holds at their width (R263). -/
structure Loc.Fits (l : Loc) : Prop where
  bank : l.bank < 32
  row : l.row < 16384
  col : l.col < 32
  byte : l.byte < 32

theorem Loc.addr_inj {l l' : Loc} (hl : l.Fits) (hl' : l'.Fits) (h : l.addr = l'.addr) : l = l' := by
  obtain ⟨hbank, hrow, hcol, hbyte⟩ := hl
  obtain ⟨hbank', hrow', hcol', hbyte'⟩ := hl'
  obtain ⟨pc, bank, row, col, byte⟩ := l
  obtain ⟨pc', bank', row', col', byte'⟩ := l'
  simp only [Loc.addr, Loc.mk.injEq] at *
  omega

/-- Offsets below a zone's end lie in its rows. -/
theorem row_lt_of_lt_units {z : Zone} {o : Nat} (ho : o < z.units * 65536) : o / 2 ^ (15 + z.pcLog2) < z.rowCount := by
  have hunits : z.units ≤ z.rowCount * 2 ^ z.pcLog2 / 2 := by
    unfold Zone.units
    split <;> omega
  rw [Nat.div_lt_iff_lt_mul (Nat.two_pow_pos _), Nat.pow_add]
  calc o < z.units * 65536 := ho
    _ ≤ z.rowCount * 2 ^ z.pcLog2 * 2 ^ 15 := by omega
    _ = z.rowCount * (2 ^ 15 * 2 ^ z.pcLog2) := by ring

theorem locate_row (z : Zone) (o : Nat) : (locate z o).row = z.rowBase + o / 2 ^ (15 + z.pcLog2) := by
  unfold locate
  split <;> rfl

theorem locate_fits {z : Zone} {o : Nat} (hz : zoneBroken z = false) (ho : o < z.units * 65536) :
    (locate z o).Fits := by
  have hrows : z.rowBase + z.rowCount ≤ 16382 := by
    simp only [zoneBroken, Bool.or_eq_false_iff, decide_eq_false_iff_not] at hz
    omega
  have hrow : (locate z o).row < 16384 := by
    rw [locate_row]
    have := row_lt_of_lt_units ho
    omega
  refine ⟨?bank, hrow, ?col, ?byte⟩
  case bank =>
    unfold locate
    split
    · exact Nat.mod_lt _ (by decide)
    · exact Nat.mod_lt _ (by decide)
    · exact Nat.xor_lt_two_pow (n := 5) (Nat.mod_lt _ (by decide)) (Nat.mod_lt _ (by decide))
  case col =>
    unfold locate bitsOf
    split <;> dsimp only <;> omega
  case byte =>
    unfold locate
    split <;> exact Nat.mod_lt _ (by decide)

/-- The bits of two numbers from bit `a` on agree when those from bit `c` on do and those between. -/
theorem div_two_pow_eq_of {x y c : Nat} (a b : Nat) (hc : c = a + b) (hhigh : x / 2 ^ c = y / 2 ^ c)
    (hlow : x / 2 ^ a % 2 ^ b = y / 2 ^ a % 2 ^ b) : x / 2 ^ a = y / 2 ^ a := by
  rw [hc, Nat.pow_add, ← Nat.div_div_eq_div_mul, ← Nat.div_div_eq_div_mul] at hhigh
  rw [← Nat.div_add_mod (x / 2 ^ a) (2 ^ b), hhigh, hlow, Nat.div_add_mod]

/-- No two offsets of a zone have one location: from the row down, each part gives back the bits that it took. -/
theorem locate_inj {z : Zone} {o o' : Nat} (h : locate z o = locate z o') : o = o' := by
  have hrow : o / 2 ^ (15 + z.pcLog2) = o' / 2 ^ (15 + z.pcLog2) := by
    have := congrArg Loc.row h
    rw [locate_row, locate_row] at this
    omega
  unfold locate bitsOf at h
  dsimp only at h
  split at h <;> obtain ⟨hpc, hbank, -, hcol, hbyte⟩ := Loc.mk.injEq .. ▸ h
  next =>
    have h15 := div_two_pow_eq_of 15 z.pcLog2 rfl hrow (Nat.add_left_cancel hpc)
    omega
  next =>
    have h13 := div_two_pow_eq_of (13 + z.pcLog2) 2 (by omega) hrow (by omega)
    have h8p := div_two_pow_eq_of (8 + z.pcLog2) 5 (by omega) h13 hbank
    have h8 := div_two_pow_eq_of 8 z.pcLog2 rfl h8p (Nat.add_left_cancel hpc)
    omega
  next =>
    rw [hrow] at hbank
    have h10p := div_two_pow_eq_of (10 + z.pcLog2) 5 (by omega) hrow (Nat.xor_left_injective hbank)
    have h10 := div_two_pow_eq_of 10 z.pcLog2 rfl h10p (Nat.add_left_cancel hpc)
    omega

/-- No two bytes of a sound zone share an address. -/
theorem addr_locate_inj {z : Zone} (hz : zoneBroken z = false) {o o' : Nat} (ho : o < z.units * 65536)
    (ho' : o' < z.units * 65536) (h : (locate z o).addr = (locate z o').addr) : o = o' :=
  locate_inj (Loc.addr_inj (locate_fits hz ho) (locate_fits hz ho') h)

/-! The pieces of a run of zone bytes. -/

/-- The first piece of a run ends with the run or with its block. -/
theorem firstPiece_ends {off len n : Nat} (h : min len (256 - off % 256) = n) :
    n ≤ len ∧ off % 256 + n ≤ 256 ∧ (n = len ∨ (off + n) % 256 = 0) := by
  rcases Nat.le_total len (256 - off % 256) with hle | hle
  · rw [Nat.min_eq_left hle] at h
    omega
  · rw [Nat.min_eq_right hle] at h
    omega

/-- A piece lies within one 256-byte block and within the run. -/
theorem mem_zonePieces {z : Zone} {fuel off len : Nat} {p : Nat × Nat} (h : p ∈ zonePieces z fuel off len) :
    ∃ o, off ≤ o ∧ o + p.2 ≤ off + len ∧ o % 256 + p.2 ≤ 256 ∧ p.1 = (locate z o).addr := by
  induction fuel generalizing off len with
  | zero => cases h
  | succ fuel ih =>
    rw [zonePieces] at h
    split at h
    · cases h
    · rcases List.mem_cons.mp h with rfl | hp
      · exact ⟨off, Nat.le_refl _, by dsimp only; omega, by dsimp only; omega, rfl⟩
      · obtain ⟨o, hlo, hhi, hblock, haddr⟩ := ih hp
        exact ⟨o, by omega, by omega, hblock, haddr⟩

/-- The memory after a list of pieces has been written with consecutive bytes. -/
def writePieces : List (Nat × Nat) → List Byte → List Host.Cell → List Host.Cell
  | [], _, m => m
  | p :: ps, data, m => writePieces ps (data.drop p.2) (memWriteList 0#8 m p.1 (data.take p.2))

theorem mem_zoneWriteAt (k off : Nat) (data : List Byte) (s : State) :
    (zoneWriteAt k off data s).fst.mem = writePieces (pieces256 (zoneOf s k) off data.length) data s.fst.mem := by
  unfold zoneWriteAt
  generalize pieces256 (zoneOf s k) off data.length = ps
  induction ps generalizing data s with
  | nil => rfl
  | cons p ps ih => exact ih ..

theorem writePieces_wf (ps : List (Nat × Nat)) (data : List Byte) {m : List Host.Cell} (h : memWf 0#8 m = true) :
    memWf 0#8 (writePieces ps data m) = true := by
  induction ps generalizing data m with
  | nil => exact h
  | cons p ps ih => exact ih _ (memWriteList_wf _ _ h)

theorem memRead_writePieces_outside {ps : List (Nat × Nat)} {data : List Byte} {m : List Host.Cell} {a : Nat}
    (h : ∀ p ∈ ps, a < p.1 ∨ p.1 + p.2 ≤ a) : memRead 0#8 (writePieces ps data m) a = memRead 0#8 m a := by
  induction ps generalizing data m with
  | nil => rfl
  | cons p ps ih =>
    obtain ⟨hp, hps⟩ := List.forall_mem_cons.mp h
    rw [writePieces, ih hps]
    have hlen : (data.take p.2).length ≤ p.2 := List.length_take_le ..
    exact memRead_memWriteList_outside _ _ (hp.imp_right (by omega))

/-- A run of bytes of which no two share an address is found in the memory once its pieces are written. -/
theorem memRead_writePieces {z : Zone} {fuel off : Nat} {data : List Byte} {m : List Host.Cell} {bound i : Nat}
    {x : Byte} (hinj : ∀ a b, a < bound → b < bound → (locate z a).addr = (locate z b).addr → a = b)
    (hend : off + data.length ≤ bound) (hfuel : off % 256 + data.length ≤ 256 * fuel) (hx : data[i]? = some x) :
    memRead 0#8 (writePieces (zonePieces z fuel off data.length) data m) (locate z (off + i)).addr = x := by
  have hi : i < data.length := (List.getElem?_eq_some_iff.mp hx).1
  induction fuel generalizing off data m i with
  | zero => omega
  | succ fuel ih =>
    rw [zonePieces, if_neg (by omega)]
    dsimp only
    generalize hn : min data.length (256 - off % 256) = n
    obtain ⟨hle, hblock, hends⟩ := firstPiece_ends hn
    rw [writePieces]
    dsimp only
    have hlen : (data.drop n).length = data.length - n := List.length_drop
    rw [← hlen]
    rcases Nat.lt_or_ge i n with hin | hin
    · rw [memRead_writePieces_outside, addr_locate_add z (by omega)]
      · exact memRead_memWriteList_inside _ _ ((List.getElem?_take_of_lt hin).trans hx)
      · intro p hp
        by_contra hcon
        obtain ⟨o, hlo, hhi, hpiece, haddr⟩ := mem_zonePieces hp
        have hplace := addr_locate_add z (o := o) (i := (locate z (off + i)).addr - p.1) (by omega)
        have hsame : off + i = o + ((locate z (off + i)).addr - p.1) :=
          hinj _ _ (by omega) (by omega) (by rw [hplace]; omega)
        omega
    · have htail : (data.drop n)[i - n]? = some x := by
        rw [List.getElem?_drop]
        rwa [Nat.add_sub_cancel' hin]
      have := ih (off := off + n) (data := data.drop n) (m := memWriteList 0#8 m (locate z off).addr (data.take n))
        (i := i - n) (by omega) (by omega) htail (by omega)
      rwa [show off + n + (i - n) = off + i by omega] at this

/-! Reading runs of bytes. -/

theorem fillFrom_eq_map {d : Byte} {m : List Host.Cell} (hm : memWf d m = true) {a : Nat} (ha : memAbove a m)
    (n : Nat) : fillFrom d m a n = (List.range n).map (fun i => memRead d m (a + i)) := by
  induction n generalizing m a with
  | zero => cases m <;> rfl
  | succ n ih =>
    have hrange (f : Nat → Byte) : (List.range (n + 1)).map (fun i => f (a + i))
        = f a :: (List.range n).map (fun i => f (a + 1 + i)) := by
      simp [List.range_succ_eq_map, Function.comp_def, Nat.add_assoc, Nat.add_comm 1]
    rw [hrange]
    cases m with
    | nil => simp [fillFrom, memRead, List.replicate_succ]
    | cons c r =>
      obtain ⟨k, b⟩ := c
      obtain ⟨-, hr, hrwf⟩ := memWf_cons.mp hm
      have hk : a ≤ k := ha (k, b) List.mem_cons_self
      rw [fillFrom]
      split
      next hka =>
        subst hka
        rw [ih hrwf hr, memRead, if_pos rfl]
        refine congrArg _ (List.map_congr_left fun i _ => ?_)
        rw [memRead, if_neg (by omega)]
      next hka =>
        have habove : memAbove (a + 1) ((k, b) :: r) := by
          intro c hc
          rcases List.mem_cons.mp hc with rfl | hc
          · dsimp only
            omega
          · have := hr c hc
            omega
        rw [ih hm habove, memRead_above habove (Nat.lt_succ_self a)]

/-- A run of addresses reads as its bytes one by one. -/
theorem memReadList_eq_map {d : Byte} {m : List Host.Cell} (hm : memWf d m = true) (a n : Nat) :
    memReadList d m a n = (List.range n).map (fun i => memRead d m (a + i)) := by
  have habove : memAbove a (m.filter fun c => decide (a ≤ c.1) && decide (c.1 < a + n)) := by
    intro c hc
    have := (List.mem_filter.mp hc).2
    simp only [Bool.and_eq_true, decide_eq_true_eq] at this
    exact this.1
  rw [memReadList, fillFrom_eq_map (memWf_filter _ hm) habove]
  refine List.map_congr_left fun i hi => ?_
  have hin : i < n := List.mem_range.mp hi
  rw [memRead_filter d (fun k => decide (a ≤ k) && decide (k < a + n)), if_pos (by simp [hin])]

/-- The pieces of a run read as the bytes of its offsets one by one. -/
theorem flatMap_zonePieces {m : List Host.Cell} (hm : memWf 0#8 m = true) (z : Zone) {fuel off len : Nat}
    (hfuel : 0 < len → off % 256 + len ≤ 256 * fuel) :
    (zonePieces z fuel off len).flatMap (fun p => memReadList 0#8 m p.1 p.2)
      = (List.range len).map (fun i => memRead 0#8 m (locate z (off + i)).addr) := by
  induction fuel generalizing off len with
  | zero => rw [show len = 0 by omega]; rfl
  | succ fuel ih =>
    rw [zonePieces]
    split
    next hlen => subst hlen; rfl
    next hlen =>
      dsimp only
      generalize hn : min len (256 - off % 256) = n
      obtain ⟨hle, hblock, hends⟩ := firstPiece_ends hn
      have hsplit : List.range len = List.range n ++ (List.range (len - n)).map (n + ·) := by
        rw [← List.range_add, Nat.add_sub_cancel' hle]
      have htail := ih (off := off + n) (len := len - n) (by omega)
      rw [List.flatMap_cons, htail, memReadList_eq_map hm, hsplit, List.map_append]
      refine congrArg₂ (· ++ ·) ?_ ?_
      · refine List.map_congr_left fun i hi => ?_
        have hin : i < n := List.mem_range.mp hi
        rw [addr_locate_add z (by omega)]
      · simp [Function.comp_def, Nat.add_assoc]

theorem zoneRead_eq_map {s : State} (hm : memWf 0#8 s.fst.mem = true) (k off len : Nat) :
    zoneRead s k off len = (List.range len).map (fun i => memRead 0#8 s.fst.mem (locate (zoneOf s k) (off + i)).addr) :=
  flatMap_zonePieces hm _ (fun _ => by omega)

/-- What is written into a sound zone is read back. -/
theorem zoneRead_zoneWriteAt {k off : Nat} {data : List Byte} {s : State} (hz : zoneBroken (zoneOf s k) = false)
    (hm : memWf 0#8 s.fst.mem = true) (hend : off + data.length ≤ (zoneOf s k).units * 65536) :
    zoneRead (zoneWriteAt k off data s) k off data.length = data := by
  have hmem := mem_zoneWriteAt k off data s
  have hzone : zoneOf (zoneWriteAt k off data s) k = zoneOf s k := zoneOf_congr (zoneWriteAt_table k off data s).1 k
  rw [zoneRead_eq_map (by rw [hmem]; exact writePieces_wf _ _ hm), hzone, hmem]
  refine List.ext_getElem (by simp) fun i hi hi' => ?_
  rw [List.getElem_map, List.getElem_range]
  exact memRead_writePieces (fun a b ha hb => addr_locate_inj hz ha hb) hend (by omega) (List.getElem?_eq_getElem hi')

/-- Data written within a version is read back from it. -/
theorem versionBytes_zoneWriteAt {v : Version} {o : Nat} {data : List Byte} {s : State}
    (hz : zoneBroken (zoneOf s v.zone) = false) (hm : memWf 0#8 s.fst.mem = true)
    (hrun : v.first * 65536 + v.length ≤ (zoneOf s v.zone).units * 65536) (hfits : o + data.length ≤ v.length) :
    versionBytes (zoneWriteAt v.zone (v.first * 65536 + o) data s) v o data.length = data := by
  have hend : v.first * 65536 + o + data.length ≤ (zoneOf s v.zone).units * 65536 := by
    rw [Nat.add_assoc]
    exact Nat.le_trans (Nat.add_le_add_left hfits _) hrun
  rw [versionBytes]
  exact zoneRead_zoneWriteAt hz hm hend

/-- The bytes of a version in a zone rest on the memory and the zones alone. -/
theorem versionBytes_congr {s u : State} (h : u.fst.mem = s.fst.mem) (hz : u.fst.zones = s.fst.zones) (v : Version)
    (off len : Nat) : versionBytes u v off len = versionBytes s v off len := by
  simp only [versionBytes, zoneRead, zoneOf_congr hz, h]

theorem zoneBad_congr {s u : State} (h : u.fst.bad = s.fst.bad) (hz : u.fst.zones = s.fst.zones) (k off len : Nat) :
    zoneBad u k off len = zoneBad s k off len := by
  simp only [zoneBad, zoneAt_congr hz, h]

end Sys2Proof.Machine
end

section
/-! PROOFS. What the comparison of a pair goes by, and what the fall of the link leaves of it (O48). -/

-- The package is checked as one text; elaborating these proofs in order keeps the number of threads small.
set_option Elab.async false

namespace Sys2Proof.Machine

/-- What the comparison of a pair goes by: the link, the runs of each index, the diverged indexes, and the frames
compared and unequal (R482, R483). -/
def Red.tally (r : Red) : Link × Table SigRun × List Nat × Word × Word :=
  (r.link, r.runs, r.diverged, tget 0#32 r.cnt 6, tget 0#32 r.cnt 7)

/-- Two states agree on the comparison of the pair. -/
def TallyKept (s u : State) : Prop := u.red.tally = s.red.tally

section
variable {s x u : State}

theorem TallyKept.refl (s : State) : TallyKept s s := rfl

theorem TallyKept.trans (h : TallyKept s x) (g : TallyKept x u) : TallyKept s u := Eq.trans g h

/-- What leaves the pair's state alone keeps the tally. -/
theorem TallyKept.moved {l : List Part} (h : TallyKept s x) (hm : Moves l x u)
    (hr : l.contains .red = false := by rfl) : TallyKept s u :=
  Eq.trans (congrArg Red.tally (hm.same .red hr)) h

theorem TallyKept.setRed (h : TallyKept s x) {r : Red} (hr : r.tally = x.red.tally := by exact rfl) :
    TallyKept s { x with red := r } := Eq.trans hr h

theorem TallyKept.ite {q : Prop} [Decidable q] {a b : State} (ha : TallyKept s a) (hb : TallyKept s b) :
    TallyKept s (if q then a else b) := by
  split
  · exact ha
  · exact hb

theorem TallyKept.foldl {β : Type} {f : State → β → State} (h : TallyKept s x) (l : List β)
    (hf : ∀ y b, TallyKept y (f y b)) : TallyKept s (l.foldl f x) :=
  List.foldlRecOn (motive := fun y => TallyKept s y) l f h (fun y hy b _ => hy.trans (hf y b))

theorem TallyKept.raise (h : TallyKept s x) (sev cls code path : Nat) (ws : List Word) :
    TallyKept s (raise sev cls code path ws x) := h.moved (raise_own ..)

theorem TallyKept.finish (h : TallyKept s x) (op : Op) (c : HostCmd) (st : Status) (ps : List Byte) :
    TallyKept s (finish op c st ps x) :=
  .ite h.setRed (.ite (h.moved (cacheReply_moves c st ps (.refl [.host] x)))
    (h.moved (replyTo_moves _ c st ps (.refl [.host, .out] x))))

theorem TallyKept.entryGone (h : TallyKept s x) (e : Entry) (res : Option (Status × Nat)) (frame : Nat) :
    TallyKept s (entryGone e res frame x) := by
  unfold Machine.entryGone
  dsimp only
  refine .ite h ?_
  split
  next => exact h
  next =>
    have hwaits (k : Xpt) : TallyKept s { x with xpt := k } := h
    refine .ite ?_ h
    split
    · exact (hwaits _).finish ..
    · exact (hwaits _).finish ..

theorem TallyKept.discardEntries (h : TallyKept s x) (p : Entry → Bool) (cause : Nat) :
    TallyKept s (discardEntries p cause x) := by
  have hgone (y : State) (e : Entry) :
      TallyKept y (Machine.entryGone e (some (discardResult cause e)) 0 (reportDiscard cause e y)) :=
    ((TallyKept.refl y).moved (reportDiscard_moves cause e (.refl [.flash, .evt, .xpt, .cmp, .aud] y))).entryGone ..
  have hqueue (k : Xpt) : TallyKept s { x with xpt := k } := h
  exact ((hqueue _).foldl _ hgone).moved (queueFell_moves (.refl [.xpt] _))

theorem TallyKept.endInstances (h : TallyKept s x) (p : CueInst → Bool) (cause : Nat) :
    TallyKept s (endInstances p cause x) := h.moved (endInstances_moves p cause (.refl [.flash, .evt, .cue] x))

theorem TallyKept.transitionQueues (h : TallyKept s x) (n : Nat) : TallyKept s (transitionQueues n x) := by
  unfold Machine.transitionQueues
  split
  next => exact h
  next => exact (h.discardEntries ..).endInstances ..
  next => exact (h.discardEntries ..).endInstances ..
  next => exact (h.discardEntries ..).endInstances ..
  next => exact (h.discardEntries ..).endInstances ..
  next => exact (h.discardEntries ..).endInstances ..
  next => exact h

/-- A transition to a mode in which a lease can be held keeps the tally. -/
theorem TallyKept.applyTransition (h : TallyKept s x) (n : Nat) {dest : Mode} (cause : Nat)
    (hd : dest.mayLease = true) : TallyKept s (applyTransition n dest cause x) := by
  unfold Machine.applyTransition
  extract_lets queues tests lease trial
  have hqueues : TallyKept s queues := h.transitionQueues n
  have htests : TallyKept s tests :=
    .ite (hqueues.moved (stopTests_moves (.refl [.flash, .evt, .lane, .flow] _))) hqueues
  have hlease : TallyKept s lease := by rwa [show lease = tests from if_pos hd]
  have htrial : TallyKept s trial := .ite (hlease.moved (blockTrial_moves 4 (.refl [.flash] _))) hlease
  exact htrial.moved (setMode_moves n dest cause
    (.refl [.mode, .aon, .pins, .start, .flash, .evt, .pwr, .lane, .out] _))

theorem TallyKept.acquireLease (h : TallyKept s x) (gen : Nat) : TallyKept s (acquireLease gen x) := by
  have hlease : TallyKept s { x with red := { x.red with lease := true, grant := false, granted := false, t6Due := false
                                                         gen := gen, cnt := bump x.red.cnt 10 } } :=
    h.setRed (by simp only [Red.tally, bump_other _ (show 10 ≠ 6 by decide), bump_other _ (show 10 ≠ 7 by decide)])
  exact (hlease.moved (noteEnsign_moves (.refl [.lane] _))).raise ..

theorem TallyKept.refuseHeld (h : TallyKept s x) : TallyKept s (refuseHeld x) :=
  h.setRed.foldl _ fun y _ => .ite (.refl y) ((TallyKept.refl y).finish ..)

end

/-- The link goes where it is told, and the rest of the tally is kept. -/
theorem tally_linkTo (new : Link) (cause : Nat) (s : State) :
    (linkTo new cause s).red.tally = ({ s.red with link := new } : Red).tally := by
  unfold linkTo
  split
  next h => subst h; rfl
  next h =>
    extract_lets old keepItems _ linked raised held keep _ dropped _ filled moved
    have hraised : TallyKept linked raised := (TallyKept.refl linked).raise ..
    have hheld : TallyKept linked held := hraised.refuseHeld
    have hdropped : TallyKept linked dropped := .ite hheld hheld.setRed
    have hfilled : TallyKept linked filled := hdropped.setRed
    have hmoved : TallyKept linked moved := hfilled.applyTransition 9 2 rfl
    show TallyKept linked _
    exact .ite (.ite (.ite ((hmoved.acquireLease _).applyTransition 10 2 rfl) hmoved) hfilled) hraised

/-- A resynchronisation that starts takes the link from LINKED to RESYNCING. -/
theorem tally_tryResync (s : State) : ∃ l, (l = s.red.link ∨ l = .resyncing)
    ∧ (tryResync s).red.tally = ({ s.red with link := l } : Red).tally := by
  unfold tryResync startResync
  split
  · split
    · exact ⟨.resyncing, .inr rfl, Eq.trans (congrArg Red.tally (raise_red ..)) (tally_linkTo .resyncing 0 s)⟩
    · exact ⟨_, .inl rfl, rfl⟩
  · exact ⟨_, .inl rfl, rfl⟩

/-- A divergence leaves the link out of IN_STEP, and the rest of the tally is kept. -/
theorem tally_divergeOut (s : State) : ∃ l, l ≠ .inStep
    ∧ (divergeOut s).red.tally = ({ s.red with link := l } : Red).tally := by
  unfold divergeOut
  split
  next h =>
    have hlink := tally_linkTo .linked 4 s
    obtain ⟨l, hl, htally⟩ := tally_tryResync (linkTo .linked 4 s)
    refine ⟨l, ?_, ?_⟩
    · rcases hl with rfl | rfl
      · rw [show (linkTo .linked 4 s).red.link = .linked from congrArg Prod.fst hlink]
        decide
      · decide
    · rw [htally]
      exact congrArg (fun x => (l, x.2)) hlink
  next h => exact ⟨s.red.link, by simpa [inStep] using h, rfl⟩

/-! One compared frame (R482, R483). -/

/-- An equal frame counts in the good run; then the index is unmarked when the run is long enough. -/
theorem compareSig_equal_course (index frame : Nat) (s : State) : ∃ x : State,
    x.red.tally = (s.red.link, tset s.red.runs index { good := (tget {} s.red.runs index).good + 1 }, s.red.diverged,
      tget 0#32 s.red.cnt 6 + 1#32, tget 0#32 s.red.cnt 7)
    ∧ compareSig index frame true s
      = if decide (s.red.divergeFrames ≤ (tget {} s.red.runs index).good + 1) && s.red.diverged.contains index then
          raise 1 10 0xA031 0 [pack16 index 0]
            (onRed (fun r => { r with diverged := r.diverged.filter (fun i => i != index) }) x)
        else x := by
  generalize hafter : compareSig index frame true s = u
  unfold compareSig at hafter
  extract_lets r r' n now counted judged marked at hafter
  refine ⟨judged, ?_, hafter.symm⟩
  simp [Red.tally, redCount, bump_other, judged, counted, r, r']

/-- An unequal frame counts in the bad run and as unequal; then the index is marked when the run is long enough, and
with enough marks the link leaves IN_STEP. -/
theorem compareSig_unequal_course (index frame : Nat) (s : State) : ∃ x y : State, ∃ out : Bool,
    x.red.tally = (s.red.link, tset s.red.runs index { bad := (tget {} s.red.runs index).bad + 1 }, s.red.diverged,
      tget 0#32 s.red.cnt 6 + 1#32, tget 0#32 s.red.cnt 7 + 1#32)
    ∧ y.red = { x.red with diverged := x.red.diverged ++ [index] }
    ∧ compareSig index frame false s
      = if decide (s.red.divergeFrames ≤ (tget {} s.red.runs index).bad + 1) && !s.red.diverged.contains index then
          if out then divergeOut y else y
        else x := by
  generalize hafter : compareSig index frame false s = u
  unfold compareSig at hafter
  extract_lets r r' n now counted judged marked at hafter
  have hjudged : judged = redCount 7 counted := if_neg Bool.false_ne_true
  have hdiverged : judged.red.diverged = s.red.diverged := by simp only [hjudged, counted, redCount, onRed_red]
  rw [hdiverged] at hafter
  refine ⟨judged, marked, follows marked && decide (marked.red.resyncDest ≤ marked.red.diverged.length), ?_,
    raise_red .., hafter.symm⟩
  simp [Red.tally, redCount, bump_other, hjudged, counted, r, r']

/-- An equal frame lengthens the good run and ends the bad one; the configured number of them unmarks the index. -/
theorem compareSig_equal (index frame : Nat) (s : State) :
    tget {} (compareSig index frame true s).red.runs index = { good := (tget {} s.red.runs index).good + 1 }
      ∧ tget 0#32 (compareSig index frame true s).red.cnt 6 = tget 0#32 s.red.cnt 6 + 1#32
      ∧ (s.red.divergeFrames ≤ (tget {} s.red.runs index).good + 1 →
        (compareSig index frame true s).red.diverged.contains index = false) := by
  obtain ⟨x, htally, hcourse⟩ := compareSig_equal_course index frame s
  simp only [Red.tally, Prod.mk.injEq] at htally
  obtain ⟨-, hruns, hdiverged, hcount, -⟩ := htally
  rw [hcourse]
  split
  next h =>
    rw [raise_red, onRed_red]
    exact ⟨by rw [hruns, tget_tset_same], hcount, fun _ => by simp⟩
  next h =>
    refine ⟨by rw [hruns, tget_tset_same], hcount, fun hlong => ?_⟩
    simpa [hlong, hdiverged] using h

/-- An unequal frame lengthens the bad run and ends the good one, and is counted as unequal; the configured number of
them marks the index diverged. -/
theorem compareSig_unequal (index frame : Nat) (s : State) :
    tget {} (compareSig index frame false s).red.runs index = { bad := (tget {} s.red.runs index).bad + 1 }
      ∧ tget 0#32 (compareSig index frame false s).red.cnt 6 = tget 0#32 s.red.cnt 6 + 1#32
      ∧ tget 0#32 (compareSig index frame false s).red.cnt 7 = tget 0#32 s.red.cnt 7 + 1#32
      ∧ (s.red.divergeFrames ≤ (tget {} s.red.runs index).bad + 1 →
        (compareSig index frame false s).red.diverged.contains index = true) := by
  obtain ⟨x, y, out, htally, hred, hcourse⟩ := compareSig_unequal_course index frame s
  rw [hcourse]
  split
  next h =>
    obtain ⟨l, hkept⟩ : ∃ l, (if out then divergeOut y else y).red.tally = ({ y.red with link := l } : Red).tally := by
      split
      · obtain ⟨l, -, hl⟩ := tally_divergeOut y
        exact ⟨l, hl⟩
      · exact ⟨_, rfl⟩
    rw [hred] at hkept
    simp only [Red.tally, Prod.mk.injEq] at htally hkept
    obtain ⟨-, hruns, -, hcount, hunequal⟩ := htally
    obtain ⟨-, hruns', hdiverged', hcount', hunequal'⟩ := hkept
    refine ⟨by rw [hruns', hruns, tget_tset_same], hcount'.trans hcount, hunequal'.trans hunequal, fun _ => ?_⟩
    rw [hdiverged']
    simp
  next h =>
    simp only [Red.tally, Prod.mk.injEq] at htally
    obtain ⟨-, hruns, hdiverged, hcount, hunequal⟩ := htally
    refine ⟨by rw [hruns, tget_tset_same], hcount, hunequal, fun hlong => ?_⟩
    simpa [hlong, hdiverged] using h

end Sys2Proof.Machine
end

section
/-! PROOFS. Read-out choices, signatures, the object fill and plane phases (O48). -/

-- The package is checked as one text; elaborating these proofs in order keeps the number of threads small.
set_option Elab.async false

namespace Sys2Proof.Machine

/-! Read-out choices (R467). -/

/-- The choices of some sources are noted one after the other, each as sequence and pass-through flag. -/
def takeChoices (cs : List (Nat × Nat × Bool)) (s : State) : State :=
  cs.foldl (fun s c => onRed (fun r => { r with choices := tset r.choices c.1 c.2 }) s) s

theorem takeChoices_flow (cs : List (Nat × Nat × Bool)) (s : State) : (takeChoices cs s).flow = s.flow :=
  foldl_keeps State.flow _ _

theorem takeChoices_concat (cs : List (Nat × Nat × Bool)) (n : Nat) (x : Nat × Bool) (s : State) :
    (takeChoices (cs ++ [(n, x)]) s).red.choices = tset (takeChoices cs s).red.choices n x := by
  rw [takeChoices, List.foldl_append]
  rfl

theorem tfind_takeChoices_other {cs : List (Nat × Nat × Bool)} {n : Nat} (h : ∀ c ∈ cs, c.1 ≠ n) (s : State) :
    tfind (takeChoices cs s).red.choices n = tfind s.red.choices n := by
  induction cs generalizing s with
  | nil => rfl
  | cons c cs ih =>
    obtain ⟨hc, hcs⟩ := List.forall_mem_cons.mp h
    refine (ih hcs _).trans ?_
    exact (tfind_tset ..).trans (if_neg hc)

/-- Every source among those decided has the choice decided for it. -/
theorem tfind_takeChoices_map {ns : List Nat} {n : Nat} (h : n ∈ ns) (f : Nat → Nat × Bool) (s : State) :
    tfind (takeChoices (ns.map fun m => (m, f m)) s).red.choices n = some (f n) := by
  induction ns generalizing s with
  | nil => cases h
  | cons m ns ih =>
    by_cases hn : n ∈ ns
    · exact ih hn _
    · obtain rfl : n = m := (List.mem_cons.mp h).resolve_right hn
      have hother : ∀ c ∈ ns.map (fun m => (m, f m)), c.1 ≠ n := by
        rintro c hc rfl
        obtain ⟨k, hk, rfl⟩ := List.mem_map.mp hc
        exact hn hk
      exact (tfind_takeChoices_other hother _).trans ((tfind_tset ..).trans (if_pos rfl))

/-- A plane and a rate that exist (Table 0.6). -/
theorem plane_rate_exist {k r : Nat} (hk : k ≤ 7) (hr : r ≤ 1) : ¬(decide (7 < k) || decide (1 < r)) = true := by
  simp only [Bool.or_eq_true, decide_eq_true_eq]
  omega

theorem execReadoutDecision_leads {t k r : Nat} {s : State} (hk : k ≤ 7) (hr : r ≤ 1) (hleads : leads s = true) :
    ∃ p, exec (.readoutDecision t k r) s = .next (sendHalyard 7 p
      (takeChoices ((sourcesOn s k r).map fun n => (n, readoutChoice (advance t s) n))
        (groupMisses (sourcesOn s k r) (advance t s)))) := by
  have hleads' : leads (advance t s) = true := hleads
  exact ⟨_, (if_neg (plane_rate_exist hk hr)).trans (congrArg Host.Outcome.next (if_neg (by simp [hleads'])))⟩

theorem execHalyardReadout_follows {t k r : Nat} {s : State} (cs : List (Nat × Nat × Bool)) (hk : k ≤ 7) (hr : r ≤ 1)
    (hruns : halyardRuns s = true) (hfollows : follows s = true) :
    exec (.halyardReadout t k r cs false) s = .next (takeChoices cs (heardControl (advance t s))) := by
  have hruns' : halyardRuns (advance t s) = true := hruns
  have hfollows' : follows (heardControl (advance t s)) = true := hfollows
  exact (if_neg (plane_rate_exist hk hr)).trans (congrArg Host.Outcome.next
    ((if_neg (by simp [hruns'])).trans (if_pos hfollows')))

/-! Signatures (R348, R481 to R483). -/

theorem red_sendHalyard_eq (kind : Nat) (payload : List Byte) (s : State) :
    (sendHalyard kind payload s).red = { s.red with msgNo := (sendHalyard kind payload s).red.msgNo } := by
  unfold sendHalyard
  split <;> rfl

theorem red_sendSigs_eq (k r f : Nat) (sigs : List Sig) (s : State) :
    (sendSigs k r f sigs s).red = { s.red with msgNo := (sendSigs k r f sigs s).red.msgNo } := red_sendHalyard_eq ..

/-- Sending and hearing a message change the message numbers and the instant of the last control message alone. -/
theorem red_heardControl_sendSigs (k r f : Nat) (sigs : List Sig) (s : State) :
    (heardControl (sendSigs k r f sigs s)).red
      = { s.red with msgNo := (sendSigs k r f sigs s).red.msgNo, lastCtrl := s.clock.clk } := by
  have hclock : (sendSigs k r f sigs s).clock = s.clock := sendHalyard_clock ..
  rw [heardControl, onRed_red, red_sendSigs_eq, hclock]

/-- Signatures that both devices have without a flag are compared, once the plane has settled. -/
theorem execHalyardSignatures_compares {t k r f : Nat} {a b : Sig} {s : State} (hk : k ≤ 7) (hr : r ≤ 1)
    (hruns : halyardRuns s = true) (hstep : inStep s = true) (hsettled : tfind s.red.settling k = none)
    (hindex : a.index = b.index) (ha : a.flags = 0) (hb : b.flags = 0) :
    exec (.halyardSignatures t k r f [a] [b] false) s
      = .next (compareSig a.index f (a.value == b.value) (heardControl (sendSigs k r f [a] (advance t s)))) := by
  have hruns' : halyardRuns (advance t s) = true := hruns
  have hstep' : inStep (heardControl (sendSigs k r f [a] (advance t s))) = true := by
    rw [inStep, red_heardControl_sendSigs]
    exact hstep
  have hsettled' : tfind (heardControl (sendSigs k r f [a] (advance t s))).red.settling k = none := by
    rw [red_heardControl_sendSigs]
    exact hsettled
  refine (if_neg (plane_rate_exist hk hr)).trans ?_
  simp [hruns', hstep', hsettled', hindex, ha, hb]

theorem execHalyardSignatures_bad {t k r : Nat} {s : State} (f : Nat) (own peer : List Sig) (hk : k ≤ 7) (hr : r ≤ 1)
    (hruns : halyardRuns s = true) :
    exec (.halyardSignatures t k r f own peer true) s = .next (discardMsg (sendSigs k r f own (advance t s))) := by
  have hruns' : halyardRuns (advance t s) = true := hruns
  refine (if_neg (plane_rate_exist hk hr)).trans ?_
  rw [hruns']
  rfl

theorem execSignatureWaitExpired_inStep {t k r : Nat} {s : State} (f : Nat) (own : List Sig) (hk : k ≤ 7) (hr : r ≤ 1)
    (hruns : halyardRuns s = true) (hstep : inStep s = true) :
    exec (.signatureWaitExpired t k r f own) s
      = .next (onRed (fun r => { r with missing := r.missing + own.length }) (sendSigs k r f own (advance t s))) := by
  have hruns' : halyardRuns (advance t s) = true := hruns
  have hstep' : inStep (advance t s) = true := hstep
  refine (if_neg (plane_rate_exist hk hr)).trans ?_
  rw [hruns', hstep']
  rfl

/-- The partner's reference signatures are kept, and their comparison does no more than raise events. -/
theorem execHalyardProtSig_keeps {t c : Nat} {s : State} (a f : Nat) (sigs : List Word) (hc : c ≤ 63)
    (hruns : halyardRuns s = true) : ∃ u, exec (.halyardProtSig t c a f sigs false) s = .next u
      ∧ Moves [.flash, .evt]
        (modComp c (fun k => { k with peerSig := some (f, a, sigs) }) (heardControl (advance t s))) u := by
  have hruns' : halyardRuns (advance t s) = true := hruns
  refine ⟨_, (if_neg (Nat.not_lt.mpr hc)).trans (by rw [hruns']), ?_⟩
  exact Moves.foldl (fun x r hx => .ite (comparePair_moves c r hx) hx) _ (.refl _ _)

/-! Bulk parts and the object fill (R459, R479). -/

theorem execHalyardBulkRequest_snapshot {t : Nat} {s : State} (n o : Nat) (hruns : halyardRuns s = true)
    (hsource : (s.red.resync.map (fun x => x.source && x.loaded)).getD false = true) :
    exec (.halyardBulkRequest t 11 n o false) s
      = .next (sendHalyard 11 (beBytes 4 o) (heardControl (advance t s))) := by
  have hruns' : halyardRuns (advance t s) = true := hruns
  have hsource' : ((heardControl (advance t s)).red.resync.map (fun x => x.source && x.loaded)).getD false = true :=
    hsource
  simp [exec, execHalyardBulkRequest, hruns', hsource']

theorem execHalyardBulkRequest_object {t : Nat} {s : State} (n o : Nat) (hruns : halyardRuns s = true)
    (hstep : inStep s = true) :
    exec (.halyardBulkRequest t 12 n o false) s = .next (sendObject n o (heardControl (advance t s))) := by
  have hruns' : halyardRuns (advance t s) = true := hruns
  have hstep' : inStep (heardControl (advance t s)) = true := hstep
  simp [exec, execHalyardBulkRequest, hruns', hstep']

/-- Data within an object that is FILLING fills its place, and the message with its last byte ends it. -/
theorem execHalyardObjectFill_lands {t n o : Nat} {data : List Byte} {v : Version} {s : State} (hn : n ≤ 2046)
    (hruns : halyardRuns s = true) (hstep : inStep s = true) (hfilling : (objOf s n).filling = true)
    (hcur : (objOf s n).cur = some v) (hfits : o + data.length ≤ v.length) :
    exec (.halyardObjectFill t n o data false) s
      = .next (if o + data.length = v.length
          then endFill n v (zoneWriteAt v.zone (v.first * 65536 + o) data (advance t s))
          else zoneWriteAt v.zone (v.first * 65536 + o) data (advance t s)) := by
  have hruns' : halyardRuns (advance t s) = true := hruns
  have hstep' : inStep (advance t s) = true := hstep
  have hobj : objOf (advance t s) n = objOf s n := rfl
  refine (if_neg (Nat.not_lt.mpr hn)).trans ?_
  simp only [hruns', hstep', hobj, hcur, hfilling, hfits, decide_true, Bool.and_self, Bool.not_true, Bool.false_eq_true,
    if_false, if_true]

theorem fillCheck_fst (s : State) : (fillCheck s).fst = s.fst :=
  (fillCheck_moves (.refl [.flash, .evt, .red, .out] s)).same .fst rfl

/-- The end of a fill leaves the zones, their bytes and the parity failures. -/
theorem endFill_store (n : Nat) (v : Version) (s : State) :
    (endFill n v s).fst.mem = s.fst.mem ∧ (endFill n v s).fst.zones = s.fst.zones
      ∧ (endFill n v s).fst.bad = s.fst.bad := by
  have hfail (k : Nat) (x : State) : (if 3 ≤ k then divergeOut x else askAgain 12 n 0 x).fst = x.fst :=
    ite_keeps State.fst ((divergeOut_moves (.refl [.mode, .aon, .pins, .start, .flash, .host, .evt, .pwr, .xpt, .cue,
      .red, .lane, .flow, .cmp, .aud, .out] x)).same .fst rfl) (sendHalyard_fst ..)
  unfold endFill
  dsimp only
  split
  · rw [fillCheck_fst]
    exact ⟨rfl, rfl, rfl⟩
  · rw [hfail]
    exact ⟨rfl, rfl, rfl⟩

/-- An object whose CRC agrees and that fails no parity is whole. -/
theorem endFill_whole {n : Nat} {v : Version} {s : State}
    (hcrc : crc32 (versionBytes s v 0 v.length) = BitVec.ofNat 32 v.crc)
    (hbad : zoneBad s v.zone (v.first * 65536) v.length = []) : (objOf (endFill n v s) n).filling = false := by
  rw [endFill, if_pos (by simp [hcrc, hbad]), objOf_congr (congrArg Fst.objs (fillCheck_fst _))]
  exact congrArg Obj.filling (objOf_modObj ..)

/-! Plane phases (R468, R480). -/

theorem execPlanePhaseDiverge_follows {t k : Nat} {s : State} (hk : k ≤ 7) (hfollows : follows s = true) :
    exec (.planePhaseDiverge t k) s
      = .next (divergeOut (pairDiverge 3 k (planeOf s k).slow (advance t s))) := by
  have hfollows' : follows (advance t s) = true := hfollows
  refine (if_neg (Nat.not_lt.mpr hk)).trans ?_
  rw [hfollows']
  rfl

theorem execSettlingEnd_due {t k a : Nat} {s : State} (hk : k ≤ 7) (hsettling : tfind s.red.settling k = some a)
    (hat : a ≤ max s.clock.clk t) :
    exec (.settlingEnd t k) s = .next (onRed (fun r => { r with settling := tdel r.settling k }) (advance t s)) := by
  have hdue : a ≤ (advance t s).clock.clk := hat
  refine (if_neg (Nat.not_lt.mpr hk)).trans ?_
  simp only [advance_red, hsettling, hdue, if_true]

end Sys2Proof.Machine

section
open Sys2Proof Sys2Proof.Machine

/-- Settles O48, one case per event. Signatures and object data come with their rows (logs 10 and 90), and a fall of the
link leaves the marks of the divergence map (log 99). -/
theorem pairComparisonTakesEffect : Obligations.PairComparisonTakesEffect := by
  refine ⟨fun t k r s hk hr hleads => ?decided, fun t k r n q b xs s hk hr hruns hfollows => ?told,
    fun t k r f a b s hk hr hruns hstep hsettled hindex ha hb => ?compared,
    fun t k r f own peer s hk hr hruns => ⟨?bad, fun hstep => ?missing⟩,
    fun t c a f sigs s hc hruns => ?reference,
    fun t n o s hruns => ⟨execHalyardBulkRequest_snapshot n o hruns, execHalyardBulkRequest_object n o hruns⟩,
    fun t n o data v s hn hruns hstep hfilling hcur hzone hdefined hsound horder hmem hrun => ?filled,
    fun t k s hk hfollows => ?apart, fun t k a s hk hsettling hat => ?settled⟩
  case decided =>
    obtain ⟨p, hexec⟩ := execReadoutDecision_leads (t := t) hk hr hleads
    have hmisses := groupMisses_moves (sourcesOn s k r) (.refl [.flash, .evt] (advance t s))
    have hred : (groupMisses (sourcesOn s k r) (advance t s)).red = s.red := hmisses.same .red rfl
    have hflow : (groupMisses (sourcesOn s k r) (advance t s)).flow = s.flow := hmisses.same .flow rfl
    refine ⟨_, hexec, fun n hn => ?_, fun n hn => ?_, by rw [sendHalyard_flow, takeChoices_flow, hflow]⟩
    · rw [red_sendHalyard_eq]
      exact tfind_takeChoices_map hn ..
    · rw [red_sendHalyard_eq, ← hred]
      refine tfind_takeChoices_other ?_ _
      rintro c hc rfl
      obtain ⟨m, hm, rfl⟩ := List.mem_map.mp hc
      exact hn hm
  case told =>
    refine ⟨_, execHalyardReadout_follows _ hk hr hruns hfollows, ?_, fun m hm hxs => ?_⟩ <;>
      rw [takeChoices_concat, tfind_tset]
    · rw [if_pos rfl]
    · rw [if_neg (Ne.symm hm)]
      exact tfind_takeChoices_other hxs _
  case compared =>
    refine ⟨_, execHalyardSignatures_compares hk hr hruns hstep hsettled hindex ha hb, ?_⟩
    by_cases hvalue : a.value = b.value
    · obtain ⟨hrun, hcount, hunmarks⟩ := compareSig_equal a.index f (heardControl (sendSigs k r f [a] (advance t s)))
      rw [red_heardControl_sendSigs] at hrun hcount hunmarks
      rw [beq_iff_eq.mpr hvalue]
      exact ⟨hcount, fun _ => ⟨hrun, hunmarks⟩, fun h => absurd hvalue h⟩
    · obtain ⟨hrun, hcount, hunequal, hmarks⟩ :=
        compareSig_unequal a.index f (heardControl (sendSigs k r f [a] (advance t s)))
      rw [red_heardControl_sendSigs] at hrun hcount hunequal hmarks
      rw [beq_eq_false_iff_ne.mpr hvalue]
      exact ⟨hcount, fun h => absurd h hvalue, fun _ => ⟨hrun, hunequal, hmarks⟩⟩
  case bad =>
    refine ⟨_, execHalyardSignatures_bad f own peer hk hr hruns, ?_⟩
    rw [discardMsg, redCount, onRed_red, red_sendSigs_eq]
    exact ⟨rfl, bump_same ..⟩
  case missing =>
    refine ⟨_, execSignatureWaitExpired_inStep f own hk hr hruns hstep, ?_⟩
    rw [onRed_red, red_sendSigs_eq]
    exact ⟨rfl, rfl, rfl⟩
  case reference =>
    obtain ⟨u, hexec, hmoves⟩ := execHalyardProtSig_keeps a f sigs hc hruns
    have hcomp : compOf u c = _ := compOf_congr (hmoves.same .cmp rfl) c
    rw [compOf_modComp] at hcomp
    exact ⟨u, hexec, congrArg Comp.peerSig hcomp, (congrArg Comp.watch hcomp :), hmoves.same .mode rfl⟩
  case filled =>
    have hread (hfits : o + data.length ≤ v.length) :
        versionBytes (zoneWriteAt v.zone (v.first * 65536 + o) data (advance t s)) v o data.length = data := by
      have hzoneOf : zoneOf (advance t s) v.zone = zoneOf s v.zone := rfl
      exact versionBytes_zoneWriteAt (by rwa [hzoneOf]) hmem (by rwa [hzoneOf]) hfits
    refine ⟨fun hmore => ?_, fun hlast => ?_⟩
    · refine ⟨_, execHalyardObjectFill_lands hn hruns hstep hfilling hcur hmore.le, ?_⟩
      rw [if_neg hmore.ne, objOf_congr (zoneWriteAt_table ..).2]
      exact ⟨hread hmore.le, hfilling⟩
    · refine ⟨_, execHalyardObjectFill_lands hn hruns hstep hfilling hcur hlast.le, ?_⟩
      rw [if_pos hlast]
      obtain ⟨hsame, hzones, hbad⟩ := endFill_store n v (zoneWriteAt v.zone (v.first * 65536 + o) data (advance t s))
      rw [versionBytes_congr hsame hzones, versionBytes_congr hsame hzones, zoneBad_congr hbad hzones]
      exact ⟨hread hlast.le, endFill_whole⟩
  case apart =>
    refine ⟨_, execPlanePhaseDiverge_follows hk hfollows, ?_⟩
    obtain ⟨l, hl, htally⟩ := tally_divergeOut (pairDiverge 3 k (planeOf s k).slow (advance t s))
    rw [show (divergeOut _).red.link = l from congrArg Prod.fst htally]
    exact hl
  case settled =>
    refine ⟨_, execSettlingEnd_due hk hsettling hat, (tfind_tdel ..).trans (if_pos rfl), fun j hj => ?_⟩
    exact (tfind_tdel ..).trans (if_neg (Ne.symm hj))

end
end

section
/-! PROOFS. An idle step, and the machine before VDD_AON (O2, O3). -/

-- The package is checked as one text; elaborating these proofs in order keeps the number of threads small.
set_option Elab.async false

open Sys2Proof Sys2Proof.Machine

/-- Settles O2: an idle step is the passing of 2 ns (log 2), and time moves the clock alone. -/
theorem emptyQueueOnlyLetsTimePass : Obligations.EmptyQueueOnlyLetsTimePass := by
  intro s h
  have hclk : (idle s).clock.clk = s.clock.clk + 2 := Nat.max_eq_right (Nat.le_add_right ..)
  have hnow : (idle s).clock.now = if s.clock.running then s.clock.now + 2 else s.clock.now := by
    simp [idle, advance]
  exact ⟨idle s, step_of_pending_nil h, hclk, hnow, rfl,
    fun p hp => (idle_moves (.refl [.clock] s)).frame p (by simpa using hp)⟩

/-- Settles O3: each value is the one that the definition of the part gives it. -/
theorem resetIsUnpowered : Obligations.ResetIsUnpowered :=
  ⟨rfl, rfl, rfl, rfl, rfl, rfl, rfl, rfl, rfl, rfl, rfl, rfl, rfl⟩

end

section
/-! PROOFS. The records that wait for the recorder: none is lost when the device escalates, and the over-temperature of a
sensor (O57). -/

-- The package is checked as one text; elaborating these proofs in order keeps the number of threads small.
set_option Elab.async false

namespace Sys2Proof.Machine

/-- Every record that waits in the first state waits in the second, in the same place. -/
def RecordsKept (s u : State) : Prop := s.evt.pending <+: u.evt.pending

section
variable {s x u : State}

theorem RecordsKept.refl (s : State) : RecordsKept s s := List.prefix_refl _

theorem RecordsKept.trans (h : RecordsKept s x) (g : RecordsKept x u) : RecordsKept s u := List.IsPrefix.trans h g

/-- What leaves the recorder alone loses no record. -/
theorem RecordsKept.moved {l : List Part} (h : RecordsKept s x) (hm : Moves l x u)
    (he : l.contains .evt = false := by rfl) : RecordsKept s u := by
  have hevt : u.evt = x.evt := hm.same .evt he
  unfold RecordsKept
  rwa [hevt]

theorem RecordsKept.ite {q : Prop} [Decidable q] {a b : State} (ha : RecordsKept s a) (hb : RecordsKept s b) :
    RecordsKept s (if q then a else b) := by
  split
  · exact ha
  · exact hb

theorem RecordsKept.foldl {β : Type} {f : State → β → State} (h : RecordsKept s x) (l : List β)
    (hf : ∀ y b, RecordsKept y (f y b)) : RecordsKept s (l.foldl f x) :=
  List.foldlRecOn (motive := fun y => RecordsKept s y) l f h (fun y hy b _ => hy.trans (hf y b))

/-- A happening is put behind the records that wait, lost, or kept until the recorder runs (R78, R509). -/
theorem RecordsKept.pushEvent (h : RecordsKept s x) (e : Ev) : RecordsKept s (pushEvent e x) :=
  .ite (.ite (h.trans (List.prefix_append ..)) h) h

theorem RecordsKept.raise (h : RecordsKept s x) (sev cls code path : Nat) (ws : List Word) :
    RecordsKept s (raise sev cls code path ws x) :=
  (h.moved (blockTrial_moves sev (.refl [.flash] x))).pushEvent _

/-! Mode transitions. -/

theorem RecordsKept.reportDiscard (h : RecordsKept s x) (cause : Nat) (e : Entry) :
    RecordsKept s (reportDiscard cause e x) := by
  unfold Machine.reportDiscard
  split
  next =>
    have hcount (k : Xpt) : RecordsKept s { x with xpt := k } := h
    exact (hcount _).raise ..
  next =>
    have hcount (f : Aud → Aud) : RecordsKept s (onAud f x) := h
    exact (RecordsKept.ite (hcount _) h).raise ..
  next =>
    have hcount (f : Cmps → Cmps) : RecordsKept s (onCmp f x) := h
    exact (hcount _).raise ..
  next => exact h

theorem RecordsKept.discardEntries (h : RecordsKept s x) (p : Entry → Bool) (cause : Nat) :
    RecordsKept s (discardEntries p cause x) := by
  have hgone (y : State) (e : Entry) :
      RecordsKept y (Machine.entryGone e (some (discardResult cause e)) 0 (Machine.reportDiscard cause e y)) :=
    ((RecordsKept.refl y).reportDiscard cause e).moved (entryGone_moves _ _ _ (.refl [.host, .xpt, .red, .out] _))
  have hqueue (k : Xpt) : RecordsKept s { x with xpt := k } := h
  exact ((hqueue _).foldl _ hgone).moved (queueFell_moves (.refl [.xpt] _))

theorem RecordsKept.endInstance (h : RecordsKept s x) (i cause : Nat) : RecordsKept s (endInstance i cause x) := by
  have hcue (k : Cue) : RecordsKept s { x with cue := k } := h
  unfold Machine.endInstance
  split
  · exact h
  · exact (hcue _).raise ..

theorem RecordsKept.endInstances (h : RecordsKept s x) (p : CueInst → Bool) (cause : Nat) :
    RecordsKept s (endInstances p cause x) := h.foldl _ fun y i => (RecordsKept.refl y).endInstance i.1 cause

theorem RecordsKept.transitionQueues (h : RecordsKept s x) (n : Nat) : RecordsKept s (transitionQueues n x) := by
  unfold Machine.transitionQueues
  split
  next => exact h
  next => exact (h.discardEntries ..).endInstances ..
  next => exact (h.discardEntries ..).endInstances ..
  next => exact (h.discardEntries ..).endInstances ..
  next => exact (h.discardEntries ..).endInstances ..
  next => exact (h.discardEntries ..).endInstances ..
  next => exact h

theorem RecordsKept.raiseLease (h : RecordsKept s x) (state : Nat) : RecordsKept s (raiseLease state x) := h.raise ..

theorem RecordsKept.dropLease (h : RecordsKept s x) (state : Nat) : RecordsKept s (dropLease state x) := by
  unfold Machine.dropLease
  extract_lets _ raised noted
  have hred (r : Red) : RecordsKept s { x with red := r } := h
  have hraised : RecordsKept s raised := (hred _).raiseLease state
  have hnoted : RecordsKept s noted := hraised.moved (noteEnsign_moves (.refl [.lane] _))
  exact .ite (.ite (hnoted.moved (emitPin_moves _ _ ((Moves.refl [.pins, .out] _).setPins _))) hnoted) h

theorem RecordsKept.setMode (h : RecordsKept s x) (n : Nat) (dest : Mode) (cause : Nat) :
    RecordsKept s (setMode n dest cause x) := by
  unfold Machine.setMode
  extract_lets old _ _ entered
  have hentered : RecordsKept s entered := h
  exact ((hentered.pushEvent _).moved (setReady_moves _ (.refl [.pins, .start, .pwr, .out] _))).moved
    (noteEnsign_moves (.refl [.lane] _))

/-- A transition from a mode other than MAINTENANCE stops no test function. -/
theorem RecordsKept.applyTransition (h : RecordsKept s x) (n : Nat) (dest : Mode) (cause : Nat)
    (hm : x.mode ≠ .maintenance) : RecordsKept s (applyTransition n dest cause x) := by
  unfold Machine.applyTransition
  extract_lets queues tests lease trial
  have hqueues : RecordsKept s queues := h.transitionQueues n
  have hqueued : Moves [.flash, .host, .evt, .xpt, .cue, .red, .cmp, .aud, .out] x queues :=
    transitionQueues_moves n (.refl _ x)
  have htests : RecordsKept s tests := by
    rwa [show tests = queues from if_neg ((hqueued.same .mode rfl : queues.mode = x.mode) ▸ hm)]
  have hlease : RecordsKept s lease := .ite htests (htests.dropLease 0)
  have htrial : RecordsKept s trial := .ite (hlease.moved (blockTrial_moves 4 (.refl [.flash] _))) hlease
  exact htrial.setMode n dest cause

/-- The link of a device that is not in STANDBY falls without a further transition. -/
theorem RecordsKept.linkTo (h : RecordsKept s x) (new : Link) (cause : Nat) (hm : x.mode ≠ .standby) :
    RecordsKept s (linkTo new cause x) := by
  unfold Machine.linkTo
  extract_lets old keepItems _ linked raised held keep _ dropped _ filled moved
  have hraised : RecordsKept s raised := RecordsKept.raise (x := linked) h ..
  have hheld : RecordsKept s held := hraised.moved (refuseHeld_moves (.refl [.host, .red, .out] _))
  have hdropped : RecordsKept s dropped := .ite hheld hheld
  have hfilled : RecordsKept s filled := hdropped
  have hraise : Moves [.flash, .evt] linked raised := raise_own ..
  have hhold : Moves [.host, .red, .out] raised held := refuseHeld_moves (.refl _ _)
  have hdrop : Moves [.red] held dropped := .ite (.refl ..) ((Moves.refl _ held).setRed _)
  have hmode : filled.mode = x.mode := (hdrop.same .mode rfl).trans ((hhold.same .mode rfl).trans (hraise.same .mode rfl))
  rw [if_neg (show ¬ filled.mode = .standby from hmode ▸ hm)]
  exact .ite h (.ite hfilled hraised)

theorem RecordsKept.transition (h : RecordsKept s x) (n : Nat) (dest : Mode) (cause : Nat)
    (hm : x.mode ≠ .maintenance) : RecordsKept s (transition n dest cause x) := by
  have hmoved := h.applyTransition n dest cause hm
  unfold Machine.transition
  dsimp only
  split
  next => exact hmoved
  next hdest =>
    refine .ite (hmoved.linkTo .linked 3 ?_) hmoved
    rw [applyTransition_mode]
    rintro rfl
    exact hdest (by decide)

/-! Chip faults (R504). -/

theorem RecordsKept.endLease (h : RecordsKept s x) (state : Nat) : RecordsKept s (endLease state x) := by
  have hdropped := h.dropLease state
  have hred (r : Red) : RecordsKept s { x with red := r } := h
  unfold Machine.endLease
  refine .ite hdropped (.ite (.ite h ((hred _).raiseLease state)) ?_)
  dsimp only
  split
  next hactive =>
    have hmode : (Machine.dropLease state x).mode = .active := (Bool.and_eq_true_iff.mp hactive).1 |> of_decide_eq_true
    exact hdropped.transition _ _ _ (by rw [hmode]; decide)
  next => exact hdropped

theorem RecordsKept.chipFault (h : RecordsKept s x) (source : Nat) : RecordsKept s (chipFault source x) :=
  have hset (k : Safety) : RecordsKept s { x with saf := k } := h
  have hraised (k : Safety) (w : Word) : RecordsKept s (Machine.raise 4 11 0xB033 0 [w] { x with saf := k }) :=
    (hset k).raise ..
  .ite ((hraised _ _).endLease 3) (hraised _ _)

end

/-- While the recorder runs and has room, a happening is the last record that waits (R509). -/
theorem pending_raise {s : State} (sev cls code path : Nat) (ws : List Word) (hrun : s.evt.running = true)
    (hroom : s.evt.pending.length < 256) : (raise sev cls code path ws s).evt.pending = s.evt.pending ++
      [{ code := code, sev := sev, cls := cls, path := path, mode := s.mode.code, at_ := s.clock.now, payload := ws }] := by
  have hblock : Moves [.flash] s (blockTrial sev s) := blockTrial_moves sev (.refl _ s)
  have hevt : (blockTrial sev s).evt = s.evt := hblock.same .evt rfl
  have hmode : (blockTrial sev s).mode = s.mode := hblock.same .mode rfl
  have hclock : (blockTrial sev s).clock = s.clock := hblock.same .clock rfl
  simp [raise, pushEvent, hevt, hrun, hroom]

/-- A hot sensor that has cooled is taken off, and the clearing is recorded when none is left (R498). -/
theorem execOverTemp_cools (t : Nat) {n d : Nat} {s : State} (hn : n ≤ 4) (hruns : coresRun s = true) (hd : d < 105)
    (hold : s.saf.overTemp.contains n = true) : exec (.overTemp t n d) s = .next
      (let x := onSaf (fun k => { k with overTemp := k.overTemp.filter (fun y => y != n) }) (advance t s)
        if x.saf.overTemp.isEmpty then raise 4 11 0xB050 0 [pack8_16 n 0 d] x else x) := by
  have hgo : ¬ (!coresRun s) = true := by rw [hruns]; decide
  have hhot : ¬ (decide (110 < d) && !s.saf.overTemp.contains n) = true := by rw [hold]; simp
  have hcool : (decide (d < 105) && s.saf.overTemp.contains n) = true := by rw [hold, decide_eq_true hd]; rfl
  exact (if_neg (Nat.not_lt.mpr hn)).trans (congrArg Host.Outcome.next
    ((if_neg hgo).trans ((if_neg hhot).trans (if_pos hcool))))

theorem execOverTemp_lastCool (t : Nat) {n d : Nat} {s : State} (hn : n ≤ 4) (hruns : coresRun s = true) (hd : d < 105)
    (hold : s.saf.overTemp.contains n = true) (hlast : ∀ k ∈ s.saf.overTemp, k = n) :
    exec (.overTemp t n d) s = .next (raise 4 11 0xB050 0 [pack8_16 n 0 d]
      (onSaf (fun k => { k with overTemp := k.overTemp.filter (fun y => y != n) }) (advance t s)))
      ∧ s.saf.overTemp.filter (fun y => y != n) = [] := by
  have hnone : s.saf.overTemp.filter (fun y => y != n) = [] :=
    List.filter_eq_nil_iff.mpr fun k hk => by simp [hlast k hk]
  exact ⟨(execOverTemp_cools t hn hruns hd hold).trans (congrArg _ (if_pos (by simp [hnone]))), hnone⟩

theorem execOverTemp_stillHot (t : Nat) {n d k : Nat} {s : State} (hn : n ≤ 4) (hruns : coresRun s = true) (hd : d < 105)
    (hold : s.saf.overTemp.contains n = true) (hk : k ∈ s.saf.overTemp) (hne : k ≠ n) :
    exec (.overTemp t n d) s = .next (onSaf (fun k => { k with
      overTemp := k.overTemp.filter (fun y => y != n) }) (advance t s)) := by
  have hleft : k ∈ s.saf.overTemp.filter (fun y => y != n) := List.mem_filter.mpr ⟨hk, by simpa using hne⟩
  exact (execOverTemp_cools t hn hruns hd hold).trans (congrArg _ (if_neg (by
    simpa using ⟨k, hk, hne⟩)))

end Sys2Proof.Machine

section
open Sys2Proof Sys2Proof.Machine

/-- Settles O57. The record of a hot sensor waits before the chip fault adds its own, and nothing that a chip fault does
takes a waiting record away; which sensors are recorded, and when, are the choices of log 101. -/
theorem overTemperatureEscalatesAndClears : Obligations.OverTemperatureEscalatesAndClears := by
  refine ⟨fun t n d s hn hruns hd hnew hrec hroom => ?hot, fun t n d s hn hruns hd hold =>
    ⟨fun hlast hrec hroom => ?cleared, fun k hk hne => ?still⟩⟩
  case hot =>
    refine ⟨_, execOverTemp_hot t hn hruns hd hnew, by simp, by simp, by simp, ?_⟩
    have hpending := pending_raise (s := onSaf (fun k => { k with overTemp := k.overTemp ++ [n] }) (advance t s))
      4 11 0xB050 0 [pack8_16 n 1 d] hrec hroom
    have hkept := RecordsKept.chipFault (RecordsKept.refl _) 0xB050 (x := raise 4 11 0xB050 0 [pack8_16 n 1 d]
      (onSaf (fun k => { k with overTemp := k.overTemp ++ [n] }) (advance t s)))
    refine ⟨_, hkept.subset (hpending ▸ List.mem_append_right _ List.mem_cons_self), rfl, rfl, rfl⟩
  case cleared =>
    obtain ⟨hu, hnone⟩ := execOverTemp_lastCool t hn hruns hd hold hlast
    exact ⟨_, hu, by simpa using hnone, _, pending_raise _ _ _ _ _ hrec hroom, rfl, rfl⟩
  case still =>
    refine ⟨_, execOverTemp_stillHot t hn hruns hd hold hk hne, ?_, ?_, rfl⟩
    · simp [hk, hne]
    · simp

end
end

section
/-! PROOFS. The tables of the audio engine: what a read gives after a change, and what the shared operations leave. -/

-- The package is checked as one text; elaborating these proofs in order keeps the number of threads small.
set_option Elab.async false

namespace Sys2Proof.Machine

/-! Reading the audio engine. -/

theorem outOf_congr {s x : State} (h : x.aud.outs = s.aud.outs) (n : Nat) : outOf x n = outOf s n := by
  simp only [outOf, h]

theorem followOf_congr {s x : State} (h : x.aud = s.aud) (d : Nat) : followOf x d = followOf s d := by
  simp only [followOf, h]

theorem inOf_congr {s x : State} (h : x.aud.ins = s.aud.ins) (n : Nat) : inOf x n = inOf s n := by
  simp only [inOf, h]

theorem portOf_congr {s x : State} (h : x.aud.ports = s.aud.ports) (p : Nat) : portOf x p = portOf s p := by
  simp only [portOf, h]

theorem streamOf_congr {s x : State} (h : x.aud.streams = s.aud.streams) (k : Nat) : streamOf x k = streamOf s k := by
  simp only [streamOf, h]

@[simp] theorem outOf_advance (t n : Nat) (s : State) : outOf (advance t s) n = outOf s n := rfl

@[simp] theorem portOf_advance (t p : Nat) (s : State) : portOf (advance t s) p = portOf s p := rfl

@[simp] theorem streamOf_advance (t k : Nat) (s : State) : streamOf (advance t s) k = streamOf s k := rfl

@[simp] theorem outOf_modOut (n : Nat) (f : AudOut → AudOut) (s : State) : outOf (modOut n f s) n = f (outOf s n) :=
  tget_tmod_same ..

theorem outOf_modOut_other {m n : Nat} (h : m ≠ n) (f : AudOut → AudOut) (s : State) :
    outOf (modOut n f s) m = outOf s m := tget_tmod_other _ _ _ h.symm

@[simp] theorem inOf_modIn (n : Nat) (f : AudIn → AudIn) (s : State) : inOf (modIn n f s) n = f (inOf s n) :=
  tget_tmod_same ..

theorem inOf_modIn_other {m n : Nat} (h : m ≠ n) (f : AudIn → AudIn) (s : State) :
    inOf (modIn n f s) m = inOf s m := tget_tmod_other _ _ _ h.symm

@[simp] theorem portOf_modIn (n p : Nat) (f : AudIn → AudIn) (s : State) : portOf (modIn n f s) p = portOf s p := rfl

@[simp] theorem portOf_modPort (p : Nat) (f : AudPort → AudPort) (s : State) :
    portOf (modPort p f s) p = f (portOf s p) := tget_tmod_same ..

theorem portOf_modPort_other {q p : Nat} (h : q ≠ p) (f : AudPort → AudPort) (s : State) :
    portOf (modPort p f s) q = portOf s q := tget_tmod_other _ _ _ h.symm

@[simp] theorem streamOf_modStream (k : Nat) (f : AudStream → AudStream) (s : State) :
    streamOf (modStream k f s) k = f (streamOf s k) := tget_tmod_same ..

theorem streamOf_modStream_other {j k : Nat} (h : j ≠ k) (f : AudStream → AudStream) (s : State) :
    streamOf (modStream k f s) j = streamOf s j := tget_tmod_other _ _ _ h.symm

/-! Fading inputs (R362): what they leave is the engine beside its inputs. -/

/-- The audio engine beside its matrix inputs. -/
def Aud.besideIns (a : Aud) : Aud := { a with ins := [] }

theorem besideIns_fadeOut (n : Nat) (s : State) : (fadeOut n s).aud.besideIns = s.aud.besideIns :=
  ite_keeps (·.aud.besideIns) rfl rfl

theorem besideIns_fadeIn (n : Nat) (s : State) : (fadeIn n s).aud.besideIns = s.aud.besideIns :=
  ite_keeps (·.aud.besideIns) rfl rfl

theorem besideIns_fadeOuts (l : List Nat) (s : State) :
    (l.foldl (fun s i => fadeOut i s) s).aud.besideIns = s.aud.besideIns :=
  foldl_keeps (·.aud.besideIns) l s (fun x i => besideIns_fadeOut i x)

theorem ports_of_besideIns {s x : State} (h : x.aud.besideIns = s.aud.besideIns) : x.aud.ports = s.aud.ports :=
  (congrArg Aud.ports h :)

theorem outs_of_besideIns {s x : State} (h : x.aud.besideIns = s.aud.besideIns) : x.aud.outs = s.aud.outs :=
  (congrArg Aud.outs h :)

theorem streams_of_besideIns {s x : State} (h : x.aud.besideIns = s.aud.besideIns) : x.aud.streams = s.aud.streams :=
  (congrArg Aud.streams h :)

/-! The states of ports and streams (Table 11.12). -/

/-- A port in a new state. -/
def AudPort.inState (x : AudPort) (new rate : Nat) : AudPort := { x with state := new, rate := rate }

/-- A stream context in a new state. -/
def AudStream.inState (x : AudStream) (new : Nat) : AudStream := { x with state := new }

/-- A port that changes its state only fades its inputs beside, and reports the change. -/
theorem besideIns_setPortState (p new rate : Nat) (s : State) : (setPortState p new rate s).aud.besideIns
    = (modPort p (·.inState new rate) s).aud.besideIns := by
  unfold setPortState
  dsimp only
  refine ite_keeps (·.aud.besideIns) ?faded ((congrArg Aud.besideIns (raise_aud ..)).trans ?faded)
  case faded =>
    exact foldl_keeps (·.aud.besideIns) _ _
      (fun x i => ite_keeps (·.aud.besideIns) (besideIns_fadeIn i x) (besideIns_fadeOut i x))

theorem portOf_setPortState (p new rate : Nat) (s : State) :
    portOf (setPortState p new rate s) p = (portOf s p).inState new rate :=
  (portOf_congr (ports_of_besideIns (besideIns_setPortState ..)) p).trans (portOf_modPort ..)

theorem portOf_setPortState_other {q p : Nat} (h : q ≠ p) (new rate : Nat) (s : State) :
    portOf (setPortState p new rate s) q = portOf s q :=
  (portOf_congr (ports_of_besideIns (besideIns_setPortState ..)) q).trans (portOf_modPort_other h ..)

theorem outs_setPortState (p new rate : Nat) (s : State) : (setPortState p new rate s).aud.outs = s.aud.outs :=
  (outs_of_besideIns (besideIns_setPortState ..)).trans rfl

theorem streamOf_setStreamState (k new : Nat) (s : State) :
    streamOf (setStreamState k new s) k = (streamOf s k).inState new := by
  unfold setStreamState
  dsimp only
  split
  next h => rw [← h]; rfl
  next => exact (streamOf_congr (congrArg Aud.streams (raise_aud ..)) k).trans (streamOf_modStream ..)

theorem streamOf_setStreamState_other {j k : Nat} (h : j ≠ k) (new : Nat) (s : State) :
    streamOf (setStreamState k new s) j = streamOf s j := by
  refine ite_keeps (streamOf · j) rfl ?_
  exact (streamOf_congr (congrArg Aud.streams (raise_aud ..)) j).trans (streamOf_modStream_other h ..)

theorem outs_setStreamState (k new : Nat) (s : State) : (setStreamState k new s).aud.outs = s.aud.outs :=
  ite_keeps (·.aud.outs) rfl ((congrArg Aud.outs (raise_aud ..)).trans rfl)

end Sys2Proof.Machine
end

section
/-! PROOFS. The commands of chapter 11 (O37). -/

-- The package is checked as one text; elaborating these proofs in order keeps the number of threads small.
set_option Elab.async false

namespace Sys2Proof.Machine

theorem runCommand_aud {op : Op} {own : Refuse} {t : Nat} {c : HostCmd} {s : State} (eff : Effect)
    (h : accepted op own t c s = true) : (runCommand op own eff t c s).aud = (eff (begun op t c s) c).1.aud :=
  (runCommand_after_effect eff h).same .aud rfl

/-- What an accepted command leaves of the take queue and of the audio engine, when its effect places entries. -/
theorem runCommand_places {op : Op} {own : Refuse} {eff : Effect} {t : Nat} {c : HostCmd} {s x : State} {wait : Bool}
    {es : List Entry} (h : accepted op own t c s = true)
    (he : (eff (begun op t c s) c).1 = placeCommand op c wait es x) (hx : x.placing = (begun op t c s).placing) :
    (runCommand op own eff t c s).xpt.queue
        = s.xpt.queue ++ queuedFrom (advance t s).clock.now s.xpt.nextOrder (commandEntries c wait es)
      ∧ (runCommand op own eff t c s).aud = x.aud := by
  obtain ⟨hqueue, -⟩ := placed_iff.mp ((placeCommand_placed op c wait es x).before hx)
  have hmoves : Moves [.flash, .evt, .xpt] x (placeCommand op c wait es x) := placeCommand_moves op c wait es (.refl _ x)
  rw [runCommand_xpt eff h, runCommand_aud eff h, he]
  exact ⟨hqueue, hmoves.same .aud rfl⟩

/-! Breakaway (R366). -/

theorem breakAway_own (e : Entry) (s : State) : Moves [.aud] s (breakAway e s) := breakAway_moves e (.refl _ s)

theorem breakAway_placing (e : Entry) (s : State) : (breakAway e s).placing = s.placing := by
  have hxpt : (breakAway e s).xpt = s.xpt := (breakAway_own e s).same .xpt rfl
  have hclock : (breakAway e s).clock = s.clock := (breakAway_own e s).same .clock rfl
  simp only [State.placing, hxpt, hclock]

theorem breakAway_outs (e : Entry) (s : State) : (breakAway e s).aud.outs = s.aud.outs := by
  unfold breakAway
  split
  · exact ite_keeps (·.aud.outs) rfl rfl
  · rfl

theorem followOf_tmod (d : Nat) (f : AudFollow → AudFollow) (s : State) :
    followOf (onAud (fun a => { a with follows := tmod {} a.follows d f }) s) d = f (followOf s d) := tget_tmod_same ..

theorem followOf_tmod_other {e d : Nat} (h : e ≠ d) (f : AudFollow → AudFollow) (s : State) :
    followOf (onAud (fun a => { a with follows := tmod {} a.follows d f }) s) e = followOf s e :=
  tget_tmod_other _ _ _ h.symm

theorem testBit_sub_two_pow {m i : Nat} (h : m.testBit i = true) : (m - 2 ^ i).testBit i = false := by
  rw [Nat.testBit_eq_decide_div_mod_eq, decide_eq_true_eq] at h
  rw [Nat.testBit_eq_decide_div_mod_eq, decide_eq_false_iff_not]
  have hdiv : (m - 2 ^ i) / 2 ^ i = m / 2 ^ i - 1 := by simpa using Nat.sub_mul_div m (2 ^ i) 1
  omega

/-- An explicit route that does not keep following clears its output's bit. -/
theorem breakAway_mask {e : Entry} {o : Nat} {inp : Option Nat} {g : GainArg} {hard : Bool} (s : State)
    (he : e.action = .audio o inp false g hard false) (ho : o < 16384) :
    (followOf (breakAway e s) (o / 16)).mask.testBit (o % 16) = false := by
  have hclears : followOf (breakAway e s) (o / 16) = if (followOf s (o / 16)).mask.testBit (o % 16) then
      { followOf s (o / 16) with mask := (followOf s (o / 16)).mask - 2 ^ (o % 16) } else followOf s (o / 16) := by
    unfold breakAway
    rw [he]
    exact (congrArg (followOf · (o / 16)) (if_pos (by simp [ho]))).trans (followOf_tmod ..)
  rw [hclears]
  split
  next hset => exact testBit_sub_two_pow hset
  next hclear => exact Bool.eq_false_iff.mpr hclear

theorem breakAway_of_keepsFollow {e : Entry} {o : Nat} {inp : Option Nat} {keep hard : Bool} {g : GainArg} (s : State)
    (he : e.action = .audio o inp keep g hard true) : breakAway e s = s := by
  simp [breakAway, he]

/-! The commands. -/

theorem routeEntry_leaves {ps : List Byte} {o opts tag : Nat} (h : bitOf opts 1 = false) :
    (routeEntry ps o opts tag).action = .audio (u16 ps o) (if u16 ps (o + 2) = 0xFFFF then none else some (u16 ps (o + 2))) false
      (gainOf (u16 ps (o + 4))) (bitOf opts 0) false :=
  congrArg (Action.audio _ _ false _ _) h

theorem routeEntry_keeps {ps : List Byte} {o opts tag : Nat} (h : bitOf opts 1 = true) :
    (routeEntry ps o opts tag).action = .audio (u16 ps o) (if u16 ps (o + 2) = 0xFFFF then none else some (u16 ps (o + 2))) false
      (gainOf (u16 ps (o + 4))) (bitOf opts 0) true :=
  congrArg (Action.audio _ _ false _ _) h

/-- The entries of AUD_ROUTE_BATCH (Table 11.4). -/
def routeEntries (c : HostCmd) : List Entry :=
  (List.range (u16 c.params 2)).map (fun i => routeEntry c.params (8 + 8 * i) (u8 c.params 0) (u16 c.params 4))

/-- A route entry as it stands in the queue. -/
theorem mem_queued_routes {now order : Nat} {c : HostCmd} {wait : Bool} {x : Entry}
    (h : x ∈ queuedFrom now order (commandEntries c wait (routeEntries c))) :
    x.session = c.session ∧ x.tag = u16 c.params 4 ∧ x.sealed_ = none := by
  obtain ⟨_, hcommand, k, rfl⟩ := mem_queuedFrom h
  obtain ⟨_, hroute, i, rfl⟩ := mem_commandEntries hcommand
  obtain ⟨p, -, rfl⟩ := List.mem_map.mp hroute
  exact ⟨rfl, rfl, rfl⟩

theorem followOf_effAudFollow (c : HostCmd) (s : State) : followOf (effAudFollow s c).1 (u16 c.params 0) =
    { followOf s (u16 c.params 0) with mask := u16 c.params 2, embed := u8 c.params 4 == 1 } := followOf_tmod ..

theorem followOf_effAudFollow_other {c : HostCmd} {d : Nat} (h : d ≠ u16 c.params 0) (s : State) :
    followOf (effAudFollow s c).1 d = followOf s d := followOf_tmod_other h ..

/-- What AUD_PORT_CONFIG carries (Table 11.9). -/
def AudPort.configured (c : HostCmd) (x : AudPort) : AudPort :=
  { x with
    inEn := bitOf (u8 c.params 1) 0, outEn := bitOf (u8 c.params 1) 1, format := u8 c.params 2, clocks := u8 c.params 3
    width := u8 c.params 4, agree := 0, lastHz := 0, glitches := 0 }

theorem effAudPortConfig_sets (c : HostCmd) (s : State) : (effAudPortConfig s c).1 =
    setPortState (u8 c.params 0) (if u8 c.params 1 = 0 then 0 else 1) 0 (modPort (u8 c.params 0) (·.configured c) s) := rfl

/-- What AUD_STREAM_CONFIG carries (Table 11.11). -/
def AudStream.configured (c : HostCmd) (x : AudStream) : AudStream :=
  { x with
    dir := u8 c.params 1, channels := u8 c.params 2, depth := u8 c.params 3, flow := u16 c.params 4
    ptime := u8 c.params 6, linkUs := u16 c.params 8, next := none }

/-- The context of AUD_STREAM_CONFIG is set, and its inputs fade, before it changes its state. -/
theorem effAudStreamConfig_sets (c : HostCmd) (s : State) :
    ∃ x, x.aud.besideIns = (modStream (u8 c.params 0) (·.configured c) s).aud.besideIns
      ∧ (effAudStreamConfig s c).1 = setStreamState (u8 c.params 0) (if u8 c.params 1 = 0 then 0 else 1) x := by
  unfold effAudStreamConfig
  dsimp only
  generalize streamChannels (u8 c.params 0) = channels
  exact ⟨_, besideIns_fadeOuts channels _, rfl⟩

end Sys2Proof.Machine

section
open Sys2Proof Sys2Proof.Machine

/-- Settles O37, one case per command. -/
theorem audioCommandsTakeEffect : Obligations.AudioCommandsTakeEffect := by
  refine ⟨fun t c s h => ?route, fun t c s h => ?batch, fun t c s h => ?gain, fun t c s h => ?follow,
    fun t c s h => ?port, fun t c s h => ?stream, fun t c s h => ?query⟩
  case route =>
    obtain ⟨hqueue, haud⟩ := runCommand_places (eff := effAudRoute) h rfl (breakAway_placing ..)
    refine ⟨_, rfl, _, hqueue, rfl, rfl, rfl, rfl, ?_, fun ho hleaves => ?_, fun hkeeps => ?_⟩
    · rw [haud, breakAway_outs, begun_aud]
    · rw [followOf_congr haud]
      exact breakAway_mask _ (routeEntry_leaves hleaves) ho
    · rw [haud, breakAway_of_keepsFollow _ (routeEntry_keeps hkeeps), begun_aud]
  case batch =>
    have hplacing : ((routeEntries c).foldl (fun s e => breakAway e s) (begun .audRouteBatch t c s)).placing
        = (begun .audRouteBatch t c s).placing := foldl_keeps State.placing _ _ (fun x e => breakAway_placing e x)
    obtain ⟨hqueue, haud⟩ := runCommand_places (eff := effAudRouteBatch) (es := routeEntries c) h rfl hplacing
    refine ⟨_, rfl, _, hqueue, ?_, fun x hx => mem_queued_routes hx, ?_⟩
    · rw [queuedFrom_action, commandEntries_action, routeEntries, List.map_map]
      rfl
    · rw [haud, ← begun_aud .audRouteBatch t c s]
      exact foldl_keeps (·.aud.outs) _ _ (fun x e => breakAway_outs e x)
  case gain =>
    obtain ⟨hqueue, haud⟩ := runCommand_places (eff := effAudGain) h rfl rfl
    exact ⟨_, rfl, _, hqueue, rfl, rfl, rfl, rfl, haud.trans (begun_aud ..)⟩
  case follow =>
    have haud := runCommand_aud effAudFollow h
    have hset := (followOf_congr haud _).trans (followOf_effAudFollow c (begun .audFollow t c s))
    have hother (d : Nat) (hd : d ≠ u16 c.params 0) := (followOf_congr haud d).trans (followOf_effAudFollow_other hd _)
    refine ⟨_, rfl, ?_, ?_, ?_, fun d hd => (hother d hd).trans (followOf_congr (begun_aud ..) d), ?_⟩
    case refine_3 => rw [hset, followOf_congr (begun_aud .audFollow t c s)]
    case refine_4 => exact (congrArg Aud.outs haud).trans (congrArg Aud.outs (begun_aud .audFollow t c s) :)
    all_goals rw [hset]
  case port =>
    have haud := (runCommand_aud effAudPortConfig h).trans (congrArg State.aud (effAudPortConfig_sets ..))
    have hset := (portOf_congr (congrArg Aud.ports haud) (u8 c.params 0)).trans
      ((portOf_setPortState ..).trans (congrArg (AudPort.inState · _ 0) (portOf_modPort ..)))
    have hother (p : Nat) (hp : p ≠ u8 c.params 0) := (portOf_congr (congrArg Aud.ports haud) p).trans
      ((portOf_setPortState_other hp ..).trans (portOf_modPort_other hp ..))
    refine ⟨_, rfl, ?_, ?_, ?_, ?_, ?_, ?_, ?_, hother, ?_⟩
    case refine_8 => rw [haud, outs_setPortState]; rfl
    all_goals rw [hset]; rfl
  case stream =>
    obtain ⟨x, hbeside, heff⟩ := effAudStreamConfig_sets c (begun .audStreamConfig t c s)
    have haud := (runCommand_aud effAudStreamConfig h).trans (congrArg State.aud heff)
    have hx (k : Nat) := streamOf_congr (streams_of_besideIns hbeside) k
    have hset := (streamOf_congr (congrArg Aud.streams haud) (u8 c.params 0)).trans
      ((streamOf_setStreamState ..).trans (congrArg (AudStream.inState · _) ((hx _).trans (streamOf_modStream ..))))
    have hother (k : Nat) (hk : k ≠ u8 c.params 0) := (streamOf_congr (congrArg Aud.streams haud) k).trans
      ((streamOf_setStreamState_other hk ..).trans ((hx k).trans (streamOf_modStream_other hk ..)))
    refine ⟨_, rfl, ?_, ?_, ?_, ?_, ?_, ?_, ?_, hother, ?_⟩
    case refine_8 => rw [haud, outs_setStreamState, outs_of_besideIns hbeside]; rfl
    all_goals rw [hset]; rfl
  case query => exact congrArg _ (runCommand_answered h rfl)

end
end

section
/-! PROOFS. The events of chapter 11 (O38). -/

-- The package is checked as one text; elaborating these proofs in order keeps the number of threads small.
set_option Elab.async false

namespace Sys2Proof.Machine

/-! The landing of a change (R356, R367, R368). -/

@[simp] theorem audCount_outs (i n : Nat) (s : State) : (audCount i n s).aud.outs = s.aud.outs := rfl

@[simp] theorem audCount_same (i : Nat) (s : State) :
    tget 0#32 (audCount i 1 s).aud.cnt i = tget 0#32 s.aud.cnt i + 1#32 := bump_same ..

theorem audCount_other {i j : Nat} (h : i ≠ j) (n : Nat) (s : State) :
    tget 0#32 (audCount i n s).aud.cnt j = tget 0#32 s.aud.cnt j := tget_tset_other _ _ _ h

/-- An output on which a change has landed, but for the course of the change. -/
def AudOut.landed (inp : Option Nat) (keep : Bool) (g : GainArg) (o : AudOut) : AudOut :=
  g.apply { o with input := if keep then o.input else inp, change := none, failed := false }

/-- A landing sets its output and is counted; a change that it completes within its final crossfade is counted first. -/
theorem landAudio_lands (n : Nat) (inp : Option Nat) (keep : Bool) (g : GainArg) (hard : Bool) (s : State) :
    ∃ k x, (x = s ∨ x = audCount 1 1 s) ∧ landAudio n inp keep g hard s
      = audCount 0 1 (modOut n (fun _ => { (outOf s n).landed inp keep g with change := k }) x) := by
  have hcounts (c : Bool) : (if c then audCount 1 1 s else s) = s ∨ (if c then audCount 1 1 s else s) = audCount 1 1 s := by
    cases c
    · exact .inl rfl
    · exact .inr rfl
  exact ⟨_, _, hcounts _, rfl⟩

theorem outOf_landAudio (n : Nat) (inp : Option Nat) (keep : Bool) (g : GainArg) (hard : Bool) (s : State) :
    ∃ k, outOf (landAudio n inp keep g hard s) n = { (outOf s n).landed inp keep g with change := k } := by
  obtain ⟨k, x, -, h⟩ := landAudio_lands n inp keep g hard s
  exact ⟨k, by rw [h, outOf_congr (audCount_outs ..), outOf_modOut]⟩

/-- What a landing leaves: the other outputs and the follow changes that wait; and its count. -/
theorem landAudio_beside (n : Nat) (inp : Option Nat) (keep : Bool) (g : GainArg) (hard : Bool) (s : State) :
    (∀ j, j ≠ n → outOf (landAudio n inp keep g hard s) j = outOf s j)
      ∧ (landAudio n inp keep g hard s).aud.due = s.aud.due
      ∧ tget 0#32 (landAudio n inp keep g hard s).aud.cnt 0 = tget 0#32 s.aud.cnt 0 + 1#32 := by
  obtain ⟨k, x, hx, h⟩ := landAudio_lands n inp keep g hard s
  have hcnt : tget 0#32 x.aud.cnt 0 = tget 0#32 s.aud.cnt 0 := by
    rcases hx with rfl | rfl
    · rfl
    · exact audCount_other (by decide) ..
  have hrest : x.aud.outs = s.aud.outs ∧ x.aud.due = s.aud.due := by
    rcases hx with rfl | rfl <;> exact ⟨rfl, rfl⟩
  obtain ⟨houts, hdue⟩ := hrest
  rw [h]
  exact ⟨fun j hj => (outOf_congr (audCount_outs ..) j).trans ((outOf_modOut_other hj ..).trans (outOf_congr houts j)), hdue,
    (audCount_same ..).trans (congrArg (· + 1#32) hcnt)⟩

theorem landAudio_own (n : Nat) (inp : Option Nat) (keep : Bool) (g : GainArg) (hard : Bool) (s : State) :
    Moves [.aud] s (landAudio n inp keep g hard s) := landAudio_moves n inp keep g hard (.refl _ s)

/-- What a gain field does to an output (R379). -/
theorem AudOut.landed_gain (inp : Option Nat) (keep : Bool) (g : GainArg) (o : AudOut) :
    (g = .mute → (o.landed inp keep g).mute = true)
      ∧ (∀ k, g = .set k → (o.landed inp keep g).gain = k ∧ (o.landed inp keep g).mute = false)
      ∧ (g = .keep → (o.landed inp keep g).gain = o.gain ∧ (o.landed inp keep g).mute = o.mute) := by
  refine ⟨?_, ?_, ?_⟩
  · rintro rfl; rfl
  · rintro k rfl; exact ⟨rfl, rfl⟩
  · rintro rfl; exact ⟨rfl, rfl⟩

theorem AudOut.landed_input (inp : Option Nat) (keep : Bool) (g : GainArg) (o : AudOut) :
    (o.landed inp keep g).input = (if keep = true then o.input else inp) ∧ (o.landed inp keep g).failed = false := by
  cases g <;> exact ⟨rfl, rfl⟩

theorem execAudioChangeLands_entry {t o a k : Nat} {e : Entry} {s : State} (ho : o < matrixSize)
    (hl : landList (advance t s) o = [(a, k, .inl e)]) :
    exec (.audioChangeLands t o) s = .next (landAudioEntry o e (advance t s)) := by
  refine (if_neg (Nat.not_le.mpr ho)).trans (congrArg Host.Outcome.next ?_)
  rw [hl]
  rfl

theorem execAudioChangeLands_follow {t o a k : Nat} {x : FollowDue} {s : State} (ho : o < matrixSize)
    (hl : landList (advance t s) o = [(a, k, .inr x)]) :
    exec (.audioChangeLands t o) s = .next (landFollow x (advance t s)) := by
  refine (if_neg (Nat.not_le.mpr ho)).trans (congrArg Host.Outcome.next ?_)
  rw [hl]
  rfl

/-- An entry that lands leaves the queue before its landing, and its command is answered after it (R212, R228). -/
theorem landAudioEntry_lands {e : Entry} {o' : Nat} {inp : Option Nat} {keep hard kf : Bool} {g : GainArg} (o : Nat)
    (s : State) (he : e.action = .audio o' inp keep g hard kf) :
    (landAudioEntry o e s).aud = (landAudio o inp keep g hard (freeEntry e s)).aud
      ∧ (landAudioEntry o e s).xpt.queue = (freeEntry e s).xpt.queue := by
  have hland : ∃ f, landAudioEntry o e s = entryGone e none f (landAudio o inp keep g hard (freeEntry e s)) :=
    ⟨_, by rw [landAudioEntry, he]⟩
  obtain ⟨f, hland⟩ := hland
  have hgone : Moves [.host, .xpt, .red, .out] (landAudio o inp keep g hard (freeEntry e s)) (landAudioEntry o e s) :=
    hland ▸ entryGone_moves e none f (.refl _ _)
  refine ⟨hgone.same .aud rfl, ?_⟩
  rw [hland, entryGone_queue]
  exact congrArg Xpt.queue ((landAudio_own ..).same .xpt rfl)

/-! The ends of changes (R368, R369). -/

section
variable {t o : Nat} {k : AudChange} {s : State}

/-- The old signal's crossing opens the gap. -/
theorem execZeroCrossing_old (ho : o < matrixSize) (hk : (outOf s o).change = some k) (hkind : k.kind = 0)
    (hnow : sampleNow (advance t s) < k.at_ + k.window) (hstage : k.stage = 0)
    (hinp : (outOf s o).input.isSome = true) : exec (.zeroCrossing t o 0) s
      = .next (modOut o (fun x => { x with change := some { k with stage := 1 } }) (advance t s)) := by
  refine (if_neg (Nat.not_le.mpr ho)).trans (congrArg Host.Outcome.next ?_)
  obtain ⟨i, hi⟩ := Option.isSome_iff_exists.mp hinp
  simp [hk, hkind, hnow, hstage, hi]

/-- The new signal's crossing ends the change; within the final crossfade it is counted. -/
theorem execZeroCrossing_new (ho : o < matrixSize) (hk : (outOf s o).change = some k) (hkind : k.kind = 0)
    (hnow : sampleNow (advance t s) < k.at_ + k.window) (hstage : k.stage = 1) :
    ∃ u, exec (.zeroCrossing t o 1) s = .next u
      ∧ outOf u o = outOf (modOut o (fun x => { x with change := none }) (advance t s)) o := by
  refine ⟨_, if_neg (Nat.not_le.mpr ho), ?_⟩
  simp only [outOf_advance, hk, hkind, hstage]
  rw [if_neg (by simpa using hnow), if_neg (by simp), if_pos (by simp)]
  exact ite_keeps (outOf · o) rfl rfl

theorem execZeroCrossingTimeout_ended (ho : o < matrixSize) (hk : (outOf s o).change = some k) (hkind : k.kind = 0)
    (hnow : k.at_ + k.window ≤ sampleNow (advance t s)) : exec (.zeroCrossingTimeout t o) s
      = .next (audCount 1 1 (modOut o (fun x => { x with change := none }) (advance t s))) := by
  refine (if_neg (Nat.not_le.mpr ho)).trans (congrArg Host.Outcome.next ?_)
  simp [hk, hkind, hnow]

theorem execGainRampDone_ended (ho : o < matrixSize) (hk : (outOf s o).change = some k) (hkind : k.kind = 1)
    (hnow : k.at_ + k.window ≤ sampleNow (advance t s)) : exec (.gainRampDone t o) s
      = .next (modOut o (fun x => { x with change := none }) (advance t s)) := by
  refine (if_neg (Nat.not_le.mpr ho)).trans (congrArg Host.Outcome.next ?_)
  simp [hk, hkind, hnow]

end

theorem execConverterSlip_counts (t : Nat) {n : Nat} (s : State) (hn : n < matrixSize) :
    exec (.converterSlip t n) s = .next (audCount 7 1 (advance t s)) := if_neg (Nat.not_le.mpr hn)

/-! Parity failures (R377): what a chip fault leaves of the matrix. -/

/-- The outputs of the matrix, and the parity failures counted. -/
def Aud.parity (a : Aud) : Table AudOut × Word := (a.outs, tget 0#32 a.cnt 6)

theorem parity_reportDiscard (cause : Nat) (e : Entry) (s : State) :
    (reportDiscard cause e s).aud.parity = s.aud.parity := by
  unfold reportDiscard
  split
  next => rw [raise_aud]
  next =>
    rw [cancelAudio, raise_aud]
    exact ite_keeps (·.aud.parity) (by simp [Aud.parity, bump_other]) rfl
  next => rw [rejectCommit, raise_aud]; rfl
  next => rfl

theorem parity_discardEntries (p : Entry → Bool) (cause : Nat) (s : State) :
    (discardEntries p cause s).aud.parity = s.aud.parity := by
  have hfell (x : State) : (queueFell x).aud = x.aud := ite_keeps State.aud rfl rfl
  rw [discardEntries, hfell]
  refine foldl_keeps (·.aud.parity) _ _ (fun x e => Eq.trans ?_ (parity_reportDiscard cause e x))
  have hgone : Moves [.host, .xpt, .red, .out] (reportDiscard cause e x)
    (entryGone e (some (discardResult cause e)) 0 (reportDiscard cause e x)) := entryGone_moves _ _ _ (.refl _ _)
  exact congrArg Aud.parity (hgone.same .aud rfl)

theorem parity_transitionQueues (n : Nat) (s : State) : (transitionQueues n s).aud.parity = s.aud.parity := by
  have hended (p : CueInst → Bool) (cause : Nat) (x : State) : (endInstances p cause x).aud = x.aud :=
    (endInstances_moves p cause (.refl [.flash, .evt, .cue] x)).same .aud rfl
  unfold transitionQueues
  split
  next => rfl
  next => rw [hended, parity_discardEntries]
  next => rw [hended, parity_discardEntries]
  next => rw [hended, parity_discardEntries]
  next => rw [hended, parity_discardEntries]
  next => rw [hended, parity_discardEntries]
  next => rfl

/-- Beside the take queue, a transition leaves the audio engine alone. -/
theorem parity_transition (n : Nat) (dest : Mode) (cause : Nat) (s : State) :
    (transition n dest cause s).aud.parity = s.aud.parity := by
  refine Eq.trans ?_ (parity_transitionQueues n s)
  have hx : Moves [.mode, .aon, .pins, .start, .flash, .host, .evt, .pwr, .red, .lane, .flow, .out]
      (transitionQueues n s) (applyTransition n dest cause s) := by
    unfold applyTransition
    extract_lets queues tests lease trial
    have htests : Moves [.mode, .aon, .pins, .start, .flash, .host, .evt, .pwr, .red, .lane, .flow, .out] queues tests :=
      .ite (stopTests_moves (.refl _ _)) (.refl _ _)
    have hlease := Moves.ite (c := dest.mayLease) htests (dropLease_moves 0 htests)
    exact setMode_moves n dest cause (.ite (blockTrial_moves 4 hlease) hlease)
  have haud : (transition n dest cause s).aud = (applyTransition n dest cause s).aud :=
    (transition_moves_applied n dest cause s).same .aud rfl
  rw [haud]
  exact congrArg Aud.parity (hx.same .aud rfl)

theorem parity_endLease (state : Nat) (s : State) : (endLease state s).aud.parity = s.aud.parity := by
  have hdropped : (dropLease state s).aud = s.aud :=
    (dropLease_moves state (.refl [.pins, .flash, .evt, .red, .lane, .out] s)).same .aud rfl
  have hraised (r : Red) : (raiseLease state { s with red := r }).aud = s.aud := raise_aud ..
  unfold endLease
  refine ite_keeps (·.aud.parity) (congrArg _ hdropped) (ite_keeps (·.aud.parity)
    (ite_keeps (·.aud.parity) rfl (congrArg _ (hraised _))) (ite_keeps (·.aud.parity) ?_ (congrArg _ hdropped)))
  rw [parity_transition, hdropped]

theorem parity_chipFault (source : Nat) (s : State) : (chipFault source s).aud.parity = s.aud.parity := by
  unfold chipFault
  refine ite_keeps (·.aud.parity) ?_ (congrArg _ (raise_aud ..))
  rw [parity_endLease, raise_aud]

theorem parity_audioFailure (s : State) : (audioFailure s).aud.parity = s.aud.parity :=
  ite_keeps (·.aud.parity) (parity_chipFault ..) rfl

theorem execAudioParity_fails {t n p : Nat} {s : State} (hn : n < matrixSize) (hp : p ≤ 1) (hruns : lanesRun s = true) :
    exec (.audioParity t n p) s = .next (audioFailure (raise 3 6 0x6011 0 [pack16_8 n p 0] (audCount 6 1
      (if p = 1 then modOut n (fun x => { x with failed := true, failedAt := sampleNow (advance t s) }) (advance t s)
        else advance t s)))) := by
  have hexists : ¬ (decide (matrixSize ≤ n) || decide (1 < p)) = true := by simp; omega
  have hgo : ¬ (!lanesRun (advance t s)) = true := by simp [hruns]
  exact (if_neg hexists).trans (congrArg Host.Outcome.next (if_neg hgo))

/-! Serial ports (R371 to R374). -/

@[simp] theorem portOf_portCount (p i : Nat) (s : State) :
    portOf (portCount p i s) p = { portOf s p with cnt := bump (portOf s p).cnt i } := portOf_modPort ..

theorem execAudioPortRateWindow_runs {t p : Nat} (hz : Nat) {s : State} (hp : p ≤ 15) (hruns : lanesRun s = true) :
    exec (.audioPortRateWindow t p hz) s = .next (portWindow p hz (advance t s)) :=
  (if_neg (Nat.not_lt.mpr hp)).trans (congrArg _ (if_pos hruns))

/-- A port that has measured a rate in a window, with the windows that agree. -/
def AudPort.measured (agree hz : Nat) (x : AudPort) : AudPort := { x with glitches := 0, agree := agree, lastHz := hz }

/-- The eighth window that agrees ends the measurement (R372). -/
theorem portWindow_eighth {p hz : Nat} {s : State} (hstate : (portOf s p).state = 1) (hseven : 7 ≤ (portOf s p).agree)
    (hlast : (portOf s p).lastHz ≠ 0) (hagree : ratesAgree 100 hz (portOf s p).lastHz = true) :
    ∃ x, portOf x p = (portOf s p).measured ((portOf s p).agree + 1) hz ∧ (∀ j, j ≠ p → portOf x j = portOf s j)
      ∧ portWindow p hz s = if rateCode hz = 0 then setPortState p 4 0 x else
        setPortState p 2 (rateCode hz) (modPort p (fun x => { x with fifoIn := 32, fifoOut := 32, ppm := 0 }) x) := by
  refine ⟨modPort p (fun x => { x with agree := (portOf s p).agree + 1, lastHz := hz })
    (modPort p (fun x => { x with glitches := 0 }) s), ?_, fun j hj => ?_, ?_⟩
  · rw [portOf_modPort, portOf_modPort]; rfl
  · rw [portOf_modPort_other hj, portOf_modPort_other hj]
  · have hmany : ¬ (portOf s p).agree + 1 < 8 := by omega
    simp [portWindow, hstate, hlast, hagree, hmany]

theorem portOf_portRateChange (p : Nat) (s : State) : portOf (portRateChange p s) p =
    { portOf s p with agree := 0, lastHz := 0, state := 1, rate := 0, cnt := bump (portOf s p).cnt 2 } := by
  rw [portRateChange, portOf_setPortState, portOf_portCount, portOf_modPort]
  rfl

/-- A running port whose rate leaves its nominal one measures anew (Table 11.3). -/
theorem portWindow_leaves {p hz : Nat} {s : State} (hstate : (portOf s p).state = 2)
    (hleaves : ratesAgree 1000 hz (nominalRate (portOf s p).rate) = false) :
    portOf (portWindow p hz s) p =
      { (portOf s p).measured 1 hz with state := 1, rate := 0, cnt := bump (portOf s p).cnt 2 } := by
  simp [portWindow, hstate, hleaves, portOf_portRateChange, AudPort.measured]

theorem execAudioPortStop_stops {t p : Nat} {s : State} (hp : p ≤ 15) (hruns : lanesRun s = true)
    (hon : (portOf s p).state ≠ 0) (hgoing : (portOf s p).state ≠ 3) : exec (.audioPortStop t p) s = .next
      (setPortState p 3 0 (portCount p 1 (modPort p (fun x => { x with agree := 0, lastHz := 0 }) (advance t s)))) :=
  (if_neg (Nat.not_lt.mpr hp)).trans (congrArg _ (if_neg (by simp [hruns, hon, hgoing])))

theorem portOut_aud (p : Nat) (s : State) : (portOut p s).aud = s.aud := foldl_keeps State.aud _ _

theorem execAudioPortFrame_runs {t p : Nat} (k l r a b : Nat) (m : Int) {s : State} (hp : p ≤ 15)
    (hruns : lanesRun s = true) (hstate : (portOf s p).state = 2) :
    exec (.audioPortFrame t p k l r a b m) s = .next (portFrame p k l r a b m (advance t s)) :=
  (if_neg (Nat.not_lt.mpr hp)).trans (congrArg _ (if_pos (by simp [hruns, hstate])))

/-- A frame of the right length, with levels that do not slip: the samples and the levels are taken (R371, R373). -/
theorem portFrame_taken {p k a b : Nat} (l r : Nat) (m : Int) {s : State} (hstate : (portOf s p).state = 2)
    (hk : k = if (portOf s p).clocks = 0 then 32 else 64) (hin : (portOf s p).inEn = true) (ha : 5 ≤ a) (ha' : a ≤ 59)
    (hb : 5 ≤ b) (hb' : b ≤ 59) : (portFrame p k l r a b m s).aud =
      (modIn (16385 + 2 * p) (fun i => { i with sample := portSample (portOf s p).width r })
        (modIn (16384 + 2 * p) (fun i => { i with sample := portSample (portOf s p).width l })
          (modPort p (fun x => { x with ppm := m, fifoIn := a, fifoOut := b }) s))).aud := by
  have hlow : ¬ a ≤ 4 ∧ ¬ 60 ≤ a ∧ ¬ b ≤ 4 ∧ ¬ 60 ≤ b := by omega
  obtain ⟨ha4, ha60, hb4, hb60⟩ := hlow
  simp [portFrame, portLevels, portOut_aud, hstate, ← hk, hin, ha4, ha60, hb4, hb60]

/-- A frame of a wrong length only counts, until the ninth in a window (Table 11.3). -/
theorem portFrame_glitch {p k : Nat} (l r a b : Nat) (m : Int) {s : State}
    (hk : k ≠ if (portOf s p).clocks = 0 then 32 else 64) (hnine : (portOf s p).glitches ≠ 8) :
    (portFrame p k l r a b m s).aud =
      (portCount p 0 (modPort p (fun x => { x with glitches := x.glitches + 1 }) s)).aud := by
  have hraised (ws : List Word) (x : State) : portOf (raise 2 6 0x6002 0 ws x) p = portOf x p :=
    portOf_congr (congrArg Aud.ports (raise_aud ..)) p
  simp [portFrame, portOut_aud, hk, hraised, hnine]

/-! Packet streams (R376). -/

theorem execAudioStreamLate_late {t k : Nat} {s : State} (hk : k ≤ 127) (hdir : (streamOf s k).dir = 1)
    (hstate : (streamOf s k).state = 2) (hlate : (streamOf s k).lastAt + 10000000 ≤ max s.clock.clk t) :
    ∃ x, x.aud.besideIns = s.aud.besideIns ∧ exec (.audioStreamLate t k) s = .next (setStreamState k 3 x) := by
  refine ⟨_, ?faded, (if_neg (Nat.not_lt.mpr hk)).trans (congrArg Host.Outcome.next
    ((if_neg (by simp [hdir])).trans (if_pos (by simp [hstate, hlate]))))⟩
  exact (foldl_keeps (·.aud.besideIns) _ _ (fun x i => besideIns_fadeOut i x) : _)

theorem execAudioStreamLate_again {t k : Nat} {s : State} (hk : k ≤ 127) (hdir : (streamOf s k).dir = 1)
    (hstate : (streamOf s k).state = 3) (hsince : (streamOf s k).since + 10000000 ≤ max s.clock.clk t)
    (hnow : max s.clock.clk t < (streamOf s k).lastAt + 10000000) :
    exec (.audioStreamLate t k) s = .next (setStreamState k 2 (advance t s)) :=
  (if_neg (Nat.not_lt.mpr hk)).trans (congrArg Host.Outcome.next ((if_neg (by simp [hdir])).trans
    ((if_neg (by simp [hstate])).trans (if_pos (by
      simp only [streamOf_advance, hstate, Bool.and_eq_true, decide_eq_true_eq]
      exact ⟨⟨trivial, decide_eq_true hsince⟩, decide_eq_true hnow⟩)))))

end Sys2Proof.Machine

section
open Sys2Proof Sys2Proof.Machine

/-- Settles O38, one case per event. -/
theorem audioEventsTakeEffect : Obligations.AudioEventsTakeEffect := by
  refine ⟨fun t o o' e inp keep hard kf g s ho hl he => ?entry, fun t o x s ho hl => ?follow,
    fun t o k s ho hk hkind hnow => ?crossing, fun t o k s ho hk hnow => ?ended, fun t n s hn => ?slip,
    fun t n p s hn hp hruns => ?parity, fun t p hz s hp hruns hstate hseven hlast hagree => ?window,
    fun t p hz s hp hruns hstate hleaves => ?rate, fun t p s hp hruns hon hgoing => ?stop,
    fun t p k l r a b m s hp hruns hstate => ?frame, fun t k s hk hdir => ?stream⟩
  case entry =>
    obtain ⟨haud, hqueue⟩ := landAudioEntry_lands o (advance t s) he
    have hfree : (freeEntry e (advance t s)).aud = s.aud := (freeEntry_moves e (.refl [.xpt] (advance t s))).same .aud rfl
    obtain ⟨ch, hout⟩ := outOf_landAudio o inp keep g hard (freeEntry e (advance t s))
    obtain ⟨hothers, -, hcnt⟩ := landAudio_beside o inp keep g hard (freeEntry e (advance t s))
    have houts := congrArg Aud.outs haud
    have hfreeOuts := congrArg Aud.outs hfree
    rw [outOf_congr hfreeOuts] at hout
    obtain ⟨hmute, hset, hkeep⟩ := (outOf s o).landed_gain inp keep g
    obtain ⟨hinput, hfailed⟩ := (outOf s o).landed_input inp keep g
    refine ⟨_, execAudioChangeLands_entry ho hl, ?_⟩
    rw [outOf_congr houts, hout]
    refine ⟨hinput, hfailed, hmute, hset, hkeep, fun j hj => ?_, fun y hy => ?_, ?_⟩
    · rw [outOf_congr houts, hothers j hj, outOf_congr hfreeOuts]
    · rw [hqueue, freeEntry_queue] at hy
      simpa using (List.mem_filter.mp hy).2
    · rw [haud, hcnt, hfree]
  case follow =>
    obtain ⟨ch, hout⟩ := outOf_landAudio x.out x.input false .keep false
      (onAud (fun a => { a with due := a.due.erase x }) (advance t s))
    obtain ⟨-, hdue, -⟩ := landAudio_beside x.out x.input false .keep false
      (onAud (fun a => { a with due := a.due.erase x }) (advance t s))
    refine ⟨_, execAudioChangeLands_follow ho hl, ?_, ?_, hdue, (landAudio_own ..).same .xpt rfl⟩
    · rw [landFollow, hout]; rfl
    · rw [landFollow, hout]; rfl
  case crossing =>
    refine ⟨fun hstage hinp => ?old, fun hstage => ?new⟩
    case old =>
      refine ⟨_, execZeroCrossing_old ho hk hkind hnow hstage hinp, ?_⟩
      rw [outOf_modOut]
      exact ⟨rfl, rfl⟩
    case new =>
      obtain ⟨u, hu, hout⟩ := execZeroCrossing_new ho hk hkind hnow hstage
      refine ⟨u, hu, ?_⟩
      rw [hout, outOf_modOut]
      exact ⟨rfl, rfl⟩
  case ended =>
    refine ⟨fun hkind => ?change, fun hkind => ?ramp⟩
    case change =>
      refine ⟨_, execZeroCrossingTimeout_ended ho hk hkind hnow, ?_, audCount_same ..⟩
      rw [outOf_congr (audCount_outs ..), outOf_modOut]
    case ramp =>
      refine ⟨_, execGainRampDone_ended ho hk hkind hnow, ?_⟩
      rw [outOf_modOut]
      exact ⟨rfl, rfl, rfl⟩
  case slip => exact ⟨_, execConverterSlip_counts t s hn, audCount_same .., rfl, rfl⟩
  case parity =>
    refine ⟨_, execAudioParity_fails hn hp hruns, ?_⟩
    have hview := parity_audioFailure (raise 3 6 0x6011 0 [pack16_8 n p 0] (audCount 6 1
      (if p = 1 then modOut n (fun x => { x with failed := true, failedAt := sampleNow (advance t s) }) (advance t s)
        else advance t s)))
    rw [raise_aud] at hview
    obtain ⟨houts, hcnt⟩ := Prod.mk.inj hview
    rw [outOf_congr houts, houts, hcnt, audCount_same]
    refine ⟨?_, ?_, ?_⟩
    · split <;> rfl
    · rintro rfl
      rw [if_pos rfl, outOf_congr (audCount_outs ..), outOf_modOut]
    · rintro rfl
      rfl
  case window =>
    obtain ⟨x, hx, hothers, hend⟩ := portWindow_eighth (s := advance t s) hstate hseven hlast hagree
    refine ⟨_, execAudioPortRateWindow_runs hz hp hruns, ?_⟩
    rw [hend]
    split
    next hnone =>
      refine ⟨fun hsome => absurd hnone hsome, fun _ => ?_, fun j hj => (portOf_setPortState_other hj ..).trans (hothers j hj)⟩
      rw [portOf_setPortState]
      rfl
    next hsome =>
      refine ⟨fun _ => ?_, fun hnone => absurd hnone hsome, fun j hj =>
        (portOf_setPortState_other hj ..).trans ((portOf_modPort_other hj ..).trans (hothers j hj))⟩
      rw [portOf_setPortState, portOf_modPort]
      exact ⟨rfl, rfl, rfl, rfl⟩
  case rate =>
    refine ⟨_, execAudioPortRateWindow_runs hz hp hruns, ?_⟩
    rw [portWindow_leaves (s := advance t s) hstate hleaves]
    exact ⟨rfl, rfl, rfl, bump_same ..⟩
  case stop =>
    refine ⟨_, execAudioPortStop_stops hp hruns hon hgoing, ?_, ?_, outs_setPortState ..⟩
    · rw [portOf_setPortState]; rfl
    · rw [portOf_setPortState, portOf_portCount, portOf_modPort]
      exact bump_same ..
  case frame =>
    refine ⟨fun hk hin ha ha' hb hb' => ?taken, fun hk hnine => ?glitch⟩
    case taken =>
      have haud := portFrame_taken (s := advance t s) l r m hstate hk hin ha ha' hb hb'
      refine ⟨_, execAudioPortFrame_runs k l r a b m hp hruns hstate, ?_⟩
      have hport := portOf_congr (congrArg Aud.ports haud) p
      rw [portOf_modIn, portOf_modIn, portOf_modPort] at hport
      have hright := (inOf_congr (congrArg Aud.ins haud) _).trans (inOf_modIn ..)
      have hleft := (inOf_congr (congrArg Aud.ins haud) (16384 + 2 * p)).trans
        ((inOf_modIn_other (by omega) ..).trans (inOf_modIn ..))
      rw [hport, hright, hleft]
      exact ⟨rfl, rfl, rfl, rfl, rfl, rfl⟩
    case glitch =>
      have haud := portFrame_glitch (s := advance t s) l r a b m hk hnine
      refine ⟨_, execAudioPortFrame_runs k l r a b m hp hruns hstate, ?_⟩
      have hport := (portOf_congr (congrArg Aud.ports haud) p).trans (portOf_portCount ..)
      rw [hport, portOf_modPort, haud]
      exact ⟨bump_same .., rfl, rfl, hstate⟩
  case stream =>
    refine ⟨fun hstate hlate => ?late, fun hstate hsince hnow => ?again⟩
    case late =>
      obtain ⟨x, hx, hu⟩ := execAudioStreamLate_late hk hdir hstate hlate
      refine ⟨_, hu, ?_, (outs_setStreamState ..).trans (outs_of_besideIns hx)⟩
      rw [streamOf_setStreamState]
      rfl
    case again =>
      refine ⟨_, execAudioStreamLate_again hk hdir hstate hsince hnow, ?_, outs_setStreamState ..⟩
      rw [streamOf_setStreamState]
      rfl

end
end

section
/-! PROOFS. The reference selector and the loops: what a run of the selector leaves of the time subsystem. -/

-- The package is checked as one text; elaborating these proofs in order keeps the number of threads small.
set_option Elab.async false

namespace Sys2Proof.Machine

/-! Reading references and compare units. -/

theorem refIn_congr {s x : State} (h : x.tim.refs = s.tim.refs) (i : Nat) : refIn x i = refIn s i := by
  simp only [refIn, h]

theorem compareOf_congr {s x : State} (h : x.tim.compares = s.tim.compares) (k : Nat) : compareOf x k = compareOf s k := by
  simp only [compareOf, h]

@[simp] theorem refIn_advance (t i : Nat) (s : State) : refIn (advance t s) i = refIn s i := rfl

@[simp] theorem refIn_modRef (i : Nat) (f : RefIn → RefIn) (s : State) : refIn (modRef i f s) i = f (refIn s i) :=
  tget_tmod_same ..

theorem pulseOf_modPulse_other {k n : Nat} (h : k ≠ n) (f : Pulse → Pulse) (s : State) :
    pulseOf (modPulse n f s) k = pulseOf s k := tget_tmod_other _ _ _ h.symm

/-! The selector (R435 to R438): it changes the house loop, its own switch and the waits put off, and counts. -/

/-- A reference input beside its wait. -/
def RefIn.beyondWait (r : RefIn) : RefIn := { r with deferred := false, waitUntil := 0 }

/-- The time subsystem beside the house loop, the switch of the selector, the inputs and the counters. -/
def Tim.beyondSwitch (m : Tim) : Tim :=
  { m with
    house := {}, htState := 0, refs := [], cnt := []
    sel := { m.sel with selected := none, last := none, stage := 0, stageAt := 0, edges := 0 } }

/-- What no run of the selector changes: the inputs beside their waits, every counter but that of switches. -/
def State.beyondSelector (s : State) : Tim × (Nat → RefIn) × (Nat → Word) :=
  (s.tim.beyondSwitch, fun i => (refIn s i).beyondWait, fun k => if k = 4 then 0#32 else tget 0#32 s.tim.cnt k)

theorem beyondSelector_of_tim {s x : State} (h : x.tim = s.tim) : x.beyondSelector = s.beyondSelector := by
  simp only [State.beyondSelector, refIn, h]

theorem beyondSelector_recordReference (s : State) : (recordReference s).beyondSelector = s.beyondSelector :=
  beyondSelector_of_tim (recordItem_tim ..)

theorem beyondSelector_raise (sev cls code path : Nat) (ws : List Word) (s : State) :
    (raise sev cls code path ws s).beyondSelector = s.beyondSelector :=
  beyondSelector_of_tim (raise_tim ..)

theorem beyondSelector_driveHt (v : Nat) (s : State) : (driveHt v s).beyondSelector = s.beyondSelector :=
  ite_keeps State.beyondSelector rfl ((beyondSelector_of_tim (emitPin_tim ..)).trans rfl)

theorem beyondWait_startDeferred (s : State) (i : Nat) :
    (refIn (startDeferred s) i).beyondWait = (refIn s i).beyondWait := by
  have hkeeps (k : Nat) (r : RefIn) : RefIn.beyondWait (if r.deferred then
      { r with deferred := false, waitUntil := s.clock.clk + s.tim.sel.wtr * 1000000000 } else r) = r.beyondWait := by
    split <;> rfl
  exact tget_tmap_keeps RefIn.beyondWait {} s.tim.refs hkeeps i

theorem beyondSelector_startDeferred (s : State) : (startDeferred s).beyondSelector = s.beyondSelector := by
  have hrefs := funext (beyondWait_startDeferred s)
  exact congrArg (fun r => (s.tim.beyondSwitch, r, s.beyondSelector.2.2)) hrefs

theorem beyondSelector_setHouseState (new : LoopState) (s : State) :
    (setHouseState new s).beyondSelector = s.beyondSelector := by
  refine ite_keeps State.beyondSelector rfl (ite_keeps State.beyondSelector ((beyondSelector_startDeferred _).trans ?_) ?_)
  all_goals exact (beyondSelector_raise ..).trans (beyondSelector_driveHt ..)

/-- A switch is counted in counter 4 alone. -/
theorem beyondSelector_switches (f : Selector → Selector) (s : State)
    (hf : ∀ x, ({ f x with selected := none, last := none, stage := 0, stageAt := 0, edges := 0 } : Selector)
      = { x with selected := none, last := none, stage := 0, stageAt := 0, edges := 0 }) :
    (onTim (fun m => { m with sel := f m.sel, cnt := bump m.cnt 4 }) s).beyondSelector = s.beyondSelector := by
  refine Prod.ext ?_ (Prod.ext rfl (funext fun k => ?_))
  · simp only [State.beyondSelector, Tim.beyondSwitch, onTim_tim, hf]
  · by_cases hk : k = 4
    · simp [State.beyondSelector, hk]
    · simp [State.beyondSelector, hk, bump_other _ (Ne.symm hk)]

theorem beyondSelector_switchTo (i cause : Nat) (s : State) : (switchTo i cause s).beyondSelector = s.beyondSelector := by
  have hselects (x : State) : (onTim (fun m => { m with
      sel := { m.sel with selected := some i, last := some i, stage := 1, stageAt := x.clock.clk, edges := 0 }
      cnt := bump m.cnt 4 }) x).beyondSelector = x.beyondSelector :=
    beyondSelector_switches (fun y => { y with selected := some i, last := some i, stage := 1, stageAt := x.clock.clk, edges := 0 })
      x (fun _ => rfl)
  refine (beyondSelector_recordReference _).trans (ite_keeps State.beyondSelector ?_ ((beyondSelector_setHouseState ..).trans ?_))
  all_goals exact (hselects _).trans (beyondSelector_raise ..)

theorem beyondSelector_houseHoldover (s : State) : (houseHoldover s).beyondSelector = s.beyondSelector :=
  ite_keeps State.beyondSelector rfl
    ((beyondSelector_recordReference _).trans (beyondSelector_setHouseState ..))

theorem beyondSelector_isolatedSelect (s : State) : (isolatedSelect s).beyondSelector = s.beyondSelector := by
  unfold isolatedSelect
  split
  next => exact ite_keeps State.beyondSelector rfl (beyondSelector_houseHoldover s)
  next =>
    split
    next => exact ite_keeps State.beyondSelector (beyondSelector_setHouseState ..) rfl
    next => rfl

/-- The selector changes only the house loop, its switch, the waits put off and the count of switches. -/
theorem beyondSelector_runSelector (cause : Nat) (s : State) : (runSelector cause s).beyondSelector = s.beyondSelector := by
  refine ite_keeps State.beyondSelector rfl (ite_keeps State.beyondSelector (beyondSelector_isolatedSelect s)
    (ite_keeps State.beyondSelector ?follower ?selects))
  case follower =>
    split
    next => exact ite_keeps State.beyondSelector rfl (beyondSelector_houseHoldover s)
    next => rfl
  case selects =>
    split
    next =>
      split
      next => exact beyondSelector_switchTo ..
      next => rfl
    next i _ =>
      refine ite_keeps State.beyondSelector (ite_keeps State.beyondSelector rfl ?better) ?lost
      case better =>
        split
        next => exact ite_keeps State.beyondSelector (beyondSelector_switchTo ..) rfl
        next => rfl
      case lost =>
        split
        next =>
          exact ite_keeps State.beyondSelector ((beyondSelector_switchTo ..).trans (beyondSelector_houseHoldover s))
            (beyondSelector_switchTo ..)
        next => exact beyondSelector_houseHoldover s

/-! What follows for the parts that the statements name. -/

section
variable {s x : State} (h : x.beyondSelector = s.beyondSelector)
include h

theorem beyondWait_of_beyondSelector (i : Nat) : (refIn x i).beyondWait = (refIn s i).beyondWait :=
  congrFun (congrArg (·.2.1) h) i

theorem cnt_of_beyondSelector {k : Nat} (hk : k ≠ 4) : tget 0#32 x.tim.cnt k = tget 0#32 s.tim.cnt k := by
  simpa [State.beyondSelector, hk] using congrFun (congrArg (·.2.2) h) k

theorem beyondSwitch_of_beyondSelector : x.tim.beyondSwitch = s.tim.beyondSwitch := congrArg Prod.fst h

theorem time_of_beyondSelector : x.tim.time = s.tim.time := (congrArg Tim.time (beyondSwitch_of_beyondSelector h) :)

theorem ptp_of_beyondSelector : x.tim.ptp = s.tim.ptp := (congrArg Tim.ptp (beyondSwitch_of_beyondSelector h) :)

theorem disagree_of_beyondSelector : x.tim.sel.disagree = s.tim.sel.disagree :=
  (congrArg (fun m : Tim => m.sel.disagree) (beyondSwitch_of_beyondSelector h) :)

theorem barred_of_beyondSelector : x.tim.sel.ptpBarred = s.tim.sel.ptpBarred :=
  (congrArg (fun m : Tim => m.sel.ptpBarred) (beyondSwitch_of_beyondSelector h) :)

theorem ptpRank_of_beyondSelector : x.tim.sel.ptpRank = s.tim.sel.ptpRank :=
  (congrArg (fun m : Tim => m.sel.ptpRank) (beyondSwitch_of_beyondSelector h) :)

theorem wtr_of_beyondSelector : x.tim.sel.wtr = s.tim.sel.wtr :=
  (congrArg (fun m : Tim => m.sel.wtr) (beyondSwitch_of_beyondSelector h) :)

theorem isCandidate_of_beyondSelector : isCandidate x = isCandidate s := by
  funext i
  have href := beyondWait_of_beyondSelector h i
  have hkind : (refIn x i).kind = (refIn s i).kind := (congrArg RefIn.kind href :)
  have hphase : (refIn x i).phase = (refIn s i).phase := (congrArg RefIn.phase href :)
  have hsuspect : (refIn x i).suspect = (refIn s i).suspect := (congrArg RefIn.suspect href :)
  simp only [isCandidate, ptpRank_of_beyondSelector h, time_of_beyondSelector h, barred_of_beyondSelector h, hkind, hphase,
    hsuspect]

theorem rankOf_of_beyondSelector : rankOf x = rankOf s := by
  funext i
  have hrank : (refIn x i).rank = (refIn s i).rank :=
    (congrArg RefIn.rank (beyondWait_of_beyondSelector h i) :)
  simp only [rankOf, ptpRank_of_beyondSelector h, hrank]

theorem bestCandidate_of_beyondSelector (hsel : x.tim.sel.selected = s.tim.sel.selected) :
    bestCandidate x = bestCandidate s := by
  have hbetter : betterRef x = betterRef s := by
    funext b i
    simp only [betterRef, rankOf_of_beyondSelector h]
  simp only [bestCandidate, hsel, isCandidate_of_beyondSelector h, hbetter]

end

/-- With the selected reference still the best candidate there is nothing to do. -/
theorem runSelector_of_best {i : Nat} {s : State} (cause : Nat) (hsel : s.tim.sel.selected = some i)
    (hcand : isCandidate s i = true) (hbest : bestCandidate s = some i) : runSelector cause s = s := by
  simp [runSelector, isolatedSelect, hsel, hcand, hbest]

/-! The time loop (R425, R439). -/

theorem errOnState_time (new : LoopState) (s : State) : (errOnState new s).tim.time = s.tim.time := by
  cases new
  case freeRun =>
    unfold errOnState
    dsimp only
    split <;> rfl
  all_goals rfl

theorem errOnState_ptp (new : LoopState) (s : State) : (errOnState new s).tim.ptp = s.tim.ptp := by
  cases new
  case freeRun =>
    unfold errOnState
    dsimp only
    split <;> rfl
  all_goals rfl

theorem errOnState_cnt (new : LoopState) (s : State) : (errOnState new s).tim.cnt = s.tim.cnt := by
  cases new
  case freeRun =>
    unfold errOnState
    dsimp only
    split <;> rfl
  all_goals rfl

theorem setTimeState_ptp (new : LoopState) (s : State) : (setTimeState new s).tim.ptp = s.tim.ptp := by
  refine ite_keeps (·.tim.ptp) rfl ((congrArg Tim.ptp (raise_tim ..)).trans ?_)
  exact ite_keeps (·.tim.ptp) (errOnState_ptp ..) (errOnState_ptp ..)

theorem setTimeState_cnt (new : LoopState) (s : State) : (setTimeState new s).tim.cnt = s.tim.cnt := by
  refine ite_keeps (·.tim.cnt) rfl ((congrArg Tim.cnt (raise_tim ..)).trans ?_)
  exact ite_keeps (·.tim.cnt) (errOnState_cnt ..) (errOnState_cnt ..)

theorem setTimeState_time {new : LoopState} {s : State} (h : s.tim.time.state ≠ new) :
    ∃ now, (setTimeState new s).tim.time = s.tim.time.enter new now := by
  unfold setTimeState
  extract_lets old err barred entered
  rw [if_neg h, raise_tim]
  have hbarred : barred.tim.time = s.tim.time := ite_keeps (·.tim.time) (errOnState_time ..) (errOnState_time ..)
  exact ⟨_, congrArg (Loop.enter · new barred.clock.clk) hbarred⟩

theorem setTimeState_state (new : LoopState) (s : State) : (setTimeState new s).tim.time.state = new := by
  by_cases h : s.tim.time.state = new
  · exact (congrArg (fun u : State => u.tim.time.state) (if_pos h)).trans h
  · obtain ⟨now, hnow⟩ := setTimeState_time h
    rw [hnow]
    rfl

theorem moveTime_ptp (new : LoopState) (s : State) : (moveTime new s).tim.ptp = s.tim.ptp :=
  ite_keeps (·.tim.ptp) (setTimeState_ptp ..)
    ((ptp_of_beyondSelector (beyondSelector_runSelector ..)).trans (setTimeState_ptp ..))

theorem moveTime_cnt (new : LoopState) (s : State) {k : Nat} (hk : k ≠ 4) :
    tget 0#32 (moveTime new s).tim.cnt k = tget 0#32 s.tim.cnt k := by
  have hset : tget 0#32 (setTimeState new s).tim.cnt k = tget 0#32 s.tim.cnt k := by rw [setTimeState_cnt]
  exact ite_keeps (fun u => tget 0#32 u.tim.cnt k) hset
    ((cnt_of_beyondSelector (beyondSelector_runSelector ..) hk).trans hset)

theorem moveTime_time (new : LoopState) (s : State) : (moveTime new s).tim.time = (setTimeState new s).tim.time :=
  ite_keeps (·.tim.time) rfl (time_of_beyondSelector (beyondSelector_runSelector ..))

theorem moveTime_state (new : LoopState) (s : State) : (moveTime new s).tim.time.state = new := by
  rw [moveTime_time, setTimeState_state]

/-- A loop that leaves LOCKED for HOLDOVER keeps its frequency. -/
theorem moveTime_holdover {s : State} (h : s.tim.time.state = .locked) :
    (moveTime .holdover s).tim.time.holdFreq = s.tim.time.freq := by
  obtain ⟨now, hnow⟩ := setTimeState_time (s := s) (new := .holdover) (by rw [h]; decide)
  rw [moveTime_time, hnow]
  rfl

theorem acquire_state (s : State) : (acquire s).tim.time.state = .acquiring := moveTime_state ..

theorem acquire_ptp (s : State) : (acquire s).tim.ptp = { s.tim.ptp with sync := none, lastSync := none } :=
  congrArg (fun p : Ptp => { p with sync := none, lastSync := none }) (moveTime_ptp ..)

theorem acquire_cnt (s : State) {k : Nat} (hk : k ≠ 4) : tget 0#32 (acquire s).tim.cnt k = tget 0#32 s.tim.cnt k :=
  moveTime_cnt _ _ hk

end Sys2Proof.Machine
end

section
/-! PROOFS. The commands of chapter 13 (O42). -/

-- The package is checked as one text; elaborating these proofs in order keeps the number of threads small.
set_option Elab.async false

namespace Sys2Proof.Machine

theorem runCommand_tim {op : Op} {own : Refuse} {t : Nat} {c : HostCmd} {s : State} (eff : Effect)
    (h : accepted op own t c s = true) : (runCommand op own eff t c s).tim = (eff (begun op t c s) c).1.tim :=
  (runCommand_after_effect eff h).same .tim rfl

/-! TIM_REF_CONFIG. -/

/-- The reference inputs carry what the command names; a changed input starts over. -/
theorem configRef_sets (i v : Nat) (s : State) :
    (refIn (configRef i v s) i).kind = bitsOf v 1 0 ∧ (refIn (configRef i v s) i).edge = bitsOf v 2 2
      ∧ (refIn (configRef i v s) i).family = bitsOf v 6 4 ∧ (refIn (configRef i v s) i).rank = bitsOf v 11 8
      ∧ (refIn (configRef i v s) i).tol = bitsOf v 21 16
      ∧ ((refIn s i).kind ≠ bitsOf v 1 0 → (refIn (configRef i v s) i).phase = if bitsOf v 1 0 = 0 then 0 else 2) := by
  unfold configRef
  extract_lets r r' left
  split
  next hsame =>
    simp only [Bool.and_eq_true, decide_eq_true_eq] at hsame
    obtain ⟨⟨⟨⟨hkind, hedge⟩, hfamily⟩, hrank⟩, htol⟩ := hsame
    exact ⟨hkind, hedge, hfamily, hrank, htol, fun hother => absurd hkind hother⟩
  next =>
    have hset := beyondWait_of_beyondSelector (beyondSelector_runSelector 0 (onTim (fun m => { m with
      refs := tset (tmap m.refs (fun k x => { x with suspect := left.any (fun y => y.2.2 == k) })) i r'
      sel := { m.sel with disagree := left } }) s)) i
    replace hset := hset.trans (congrArg RefIn.beyondWait (tget_tset_same ({} : RefIn) _ i r'))
    exact ⟨congrArg RefIn.kind hset, congrArg RefIn.edge hset, congrArg RefIn.family hset, congrArg RefIn.rank hset,
      congrArg RefIn.tol hset, fun _ => congrArg RefIn.phase hset⟩

theorem configRef_time (i v : Nat) (s : State) : (configRef i v s).tim.time = s.tim.time :=
  ite_keeps (·.tim.time) rfl ((time_of_beyondSelector (beyondSelector_runSelector ..)).trans rfl)

/-! TIM_COMPARE_SET. -/

/-- A unit whose targets have passed keeps what it does; a periodic one moves to its next target. -/
def Compare.missed (n : Nat) (x : Compare) : Compare :=
  if x.period = 0 then { x with state := 3 }
  else { x with target := (x.target + n * x.period) % 0x10000000000, started := false }

theorem missTargets_tim (u cause : Nat) (s : State) :
    ∃ n k, (missTargets u cause s).tim = { s.tim with
      compares := tset s.tim.compares u ((compareOf s u).missed n), cnt := bumpBy s.tim.cnt 7 k } :=
  ⟨_, _, raise_tim ..⟩

/-- The unit that TIM_COMPARE_SET asks for, before its target moves ahead. -/
def Compare.asked (c : HostCmd) : Compare :=
  { actions := u8 c.params 1, output := u8 c.params 2, state := if u8 c.params 1 = 0 then 0 else 1, program := u8 c.params 3
    session := c.session, role := c.role, target := targetOf c.params 4 % 0x10000000000, period := u64 c.params 16 }

theorem compareOf_tset (u : Nat) (x : Compare) (s : State) :
    compareOf (onTim (fun m => { m with compares := tset m.compares u x }) s) u = x := tget_tset_same ..

theorem compareOf_tset_other {k u : Nat} (h : k ≠ u) (x : Compare) (s : State) :
    compareOf (onTim (fun m => { m with compares := tset m.compares u x }) s) k = compareOf s k :=
  tget_tset_other _ _ _ h.symm

/-- The unit stands as asked, but for a periodic target that lies behind: it moves ahead. The others stand. -/
theorem effTimCompareSet_sets (c : HostCmd) (s : State) :
    (∃ g, compareOf (effTimCompareSet s c).1 (u8 c.params 0) = { Compare.asked c with target := g }
        ∧ (0 < compareDist (Compare.asked c).target s.clock.now → g = (Compare.asked c).target))
      ∧ (∀ k, k ≠ u8 c.params 0 → compareOf (effTimCompareSet s c).1 k = compareOf s k)
      ∧ (effTimCompareSet s c).1.tim.pulses = s.tim.pulses := by
  unfold effTimCompareSet
  extract_lets u a per g x set d n moved
  have hset : compareOf set u = x := compareOf_tset ..
  have hother (k : Nat) (hk : k ≠ u) : compareOf set k = compareOf s k := compareOf_tset_other hk ..
  by_cases hstands : (a = 0 || per = 0 || decide (0 < d)) = true
  · have hmoved : moved = set := if_pos hstands
    rw [hmoved]
    exact ⟨⟨g, hset, fun _ => rfl⟩, hother, rfl⟩
  · have hbehind : ¬ 0 < compareDist (Compare.asked c).target s.clock.now ∧ per ≠ 0 := by
      simp only [Bool.or_eq_true, decide_eq_true_eq, not_or] at hstands
      exact ⟨hstands.2, hstands.1.2⟩
    obtain ⟨hbehind, hper⟩ := hbehind
    have hmoved : moved = if bitOf a 2 then missTargets u 2 set
      else onTim (fun m => { m with compares := tset m.compares u { x with target := (g + n * per) % 0x10000000000 } }) set :=
      if_neg hstands
    rw [hmoved]
    split
    · obtain ⟨j, k, htim⟩ := missTargets_tim u 2 set
      refine ⟨⟨(g + j * per) % 0x10000000000, ?_, fun h => absurd h hbehind⟩, fun i hi => ?_, ?_⟩
      · have hmissed : compareOf (missTargets u 2 set) u = (compareOf set u).missed j := by
          rw [compareOf, htim]
          exact tget_tset_same ..
        rw [hmissed, hset]
        exact if_neg hper
      · rw [← hother i hi, compareOf, htim]
        exact tget_tset_other _ _ _ hi.symm
      · rw [htim]
        rfl
    · exact ⟨⟨(g + n * per) % 0x10000000000, compareOf_tset .., fun h => absurd h hbehind⟩,
        fun i hi => (compareOf_tset_other hi ..).trans (hother i hi), rfl⟩

/-! TIM_PULSE_SET. -/

theorem pulseOf_endPulse_other {k n : Nat} (h : k ≠ n) (s : State) : pulseOf (endPulse n s) k = pulseOf s k :=
  ite_keeps (pulseOf · k) (pulseOf_modPulse_other h ..) rfl

theorem endPulse_compares (n : Nat) (s : State) : (endPulse n s).tim.compares = s.tim.compares :=
  ite_keeps (·.tim.compares) rfl rfl

theorem endPulse_clock (n : Nat) (s : State) : (endPulse n s).clock = s.clock := ite_keeps State.clock rfl rfl

/-- The output that TIM_PULSE_SET asks for, from its next start. -/
def Pulse.asked (c : HostCmd) (next : Nat) : Pulse :=
  { mode := u8 c.params 1, polarity := u8 c.params 2, plane := u8 c.params 3 % 8, fastest := bitOf (u8 c.params 3) 7
    width := u32 c.params 4, period := u64 c.params 8, start := targetOf c.params 16, next := next }

/-- The first start on a grid of `per` from `st` that is not before `now`. -/
theorem le_gridStart {st now per : Nat} (h : per ≠ 0) : now ≤ st + (now - st + per - 1) / per * per := by
  have hdiv := Nat.div_add_mod (now - st + per - 1) per
  have hmod := Nat.mod_lt (now - st + per - 1) (Nat.pos_of_ne_zero h)
  rw [Nat.mul_comm] at hdiv
  omega

theorem effTimPulseSet_sets (c : HostCmd) (s : State) :
    (∃ next, pulseOf (effTimPulseSet s c).1 (u8 c.params 0) = Pulse.asked c next
        ∧ (u64 c.params 8 ≠ 0 → s.clock.now ≤ next))
      ∧ (∀ k, k ≠ u8 c.params 0 → pulseOf (effTimPulseSet s c).1 k = pulseOf s k)
      ∧ (effTimPulseSet s c).1.tim.compares = s.tim.compares := by
  unfold effTimPulseSet
  extract_lets n st per ended old x set
  have htim : (if old.polarity = x.polarity then set else emit (.pulse set.clock.clk n (x.level false)) set).tim = set.tim :=
    ite_keeps State.tim rfl rfl
  have hpulses := congrArg Tim.pulses htim
  refine ⟨⟨x.next, (pulseOf_congr hpulses n).trans (pulseOf_modPulse ..), fun hper => ?_⟩, fun k hk => ?_, ?_⟩
  · have hnow : ended.clock.now = s.clock.now := congrArg Clock.now (endPulse_clock n s)
    have hnext : x.next = st + (ended.clock.now - st + per - 1) / per * per := if_neg hper
    rw [hnext, hnow]
    exact le_gridStart hper
  · exact (pulseOf_congr hpulses k).trans ((pulseOf_modPulse_other hk ..).trans (pulseOf_endPulse_other hk s))
  · rw [htim]
    exact endPulse_compares n s

/-! TIM_PTP_CONFIG and TIM_REALIGN. -/

/-- The client as TIM_PTP_CONFIG restarts it. -/
def Ptp.restarted (v : Nat) (p : Ptp) : Ptp :=
  { p with
    domain := bitsOf v 6 0, unicast := bitOf v 8, portA := bitOf v 9, portB := bitOf v 10
    masters := [], chosen := none, offset := none, delay := 0 }

theorem effTimPtpConfig_restarts (c : HostCmd) (s : State) :
    (effTimPtpConfig s c).1.tim.ptp = { s.tim.ptp.restarted (u32 c.params 0) with sync := none, lastSync := none }
      ∧ (effTimPtpConfig s c).1.tim.time.state = .acquiring :=
  ⟨acquire_ptp .., acquire_state _⟩

end Sys2Proof.Machine

section
open Sys2Proof Sys2Proof.Machine

/-- Settles O42, one case per command. That a pulse in hand ends when its output is set is the model's choice (log 88). -/
theorem timeCommandsTakeEffect : Obligations.TimeCommandsTakeEffect := by
  refine ⟨fun t c s h => ?status, fun t c s h => ?ref, fun t c s h => ?ptp, fun t c s h => ?compare,
    fun t c s h => ?pulse, fun t c s h => ?realign⟩
  case status =>
    refine (congrArg _ (runCommand_answered h rfl)).trans ?_
    rw [grandmaster, grandmaster, begun_tim]
  case ref =>
    have htim := runCommand_tim effTimRefConfig h
    refine ⟨_, rfl, fun hinput => ?input, fun hsel => ?selector, ?time⟩
    case input =>
      have heff : (effTimRefConfig (begun .timRefConfig t c s) c).1
        = configRef (u8 c.params 0) (u32 c.params 4) (begun .timRefConfig t c s) := if_neg hinput
      rw [refIn_congr (congrArg Tim.refs htim), heff]
      have hsets := configRef_sets (u8 c.params 0) (u32 c.params 4) (begun .timRefConfig t c s)
      rwa [refIn_congr (congrArg Tim.refs (begun_tim .timRefConfig t c s))] at hsets
    case selector =>
      have heff : (effTimRefConfig (begun .timRefConfig t c s) c).1 = runSelector 0 (onTim (fun m => { m with
          sel := { m.sel with ptpRank := bitsOf (u32 c.params 4) 7 4, wtr := bitsOf (u32 c.params 4) 27 16 } })
          (begun .timRefConfig t c s)) := if_pos hsel
      rw [htim, heff]
      exact ⟨ptpRank_of_beyondSelector (beyondSelector_runSelector ..), wtr_of_beyondSelector (beyondSelector_runSelector ..)⟩
    case time =>
      rw [htim, ← begun_tim .timRefConfig t c s]
      exact ite_keeps (·.tim.time) ((time_of_beyondSelector (beyondSelector_runSelector ..)).trans rfl) (configRef_time ..)
  case ptp =>
    have htim := runCommand_tim effTimPtpConfig h
    obtain ⟨hptp, hstate⟩ := effTimPtpConfig_restarts c (begun .timPtpConfig t c s)
    refine ⟨_, rfl, ?_⟩
    rw [htim, hptp, hstate]
    exact ⟨rfl, rfl, rfl, rfl, rfl, rfl, rfl, rfl, rfl⟩
  case compare =>
    have htim := runCommand_tim effTimCompareSet h
    obtain ⟨⟨g, hset, hahead⟩, hothers, hpulses⟩ := effTimCompareSet_sets c (begun .timCompareSet t c s)
    have hcompares := congrArg Tim.compares htim
    refine ⟨_, rfl, ?_⟩
    rw [compareOf_congr hcompares, hset, htim, hpulses, begun_tim]
    refine ⟨rfl, rfl, rfl, rfl, rfl, rfl, rfl, fun hd => hahead hd, fun k hk => ?_, rfl⟩
    · rw [compareOf_congr hcompares, hothers k hk, compareOf_congr (congrArg Tim.compares (begun_tim ..))]
  case pulse =>
    have htim := runCommand_tim effTimPulseSet h
    obtain ⟨⟨next, hset, hnext⟩, hothers, hcompares⟩ := effTimPulseSet_sets c (begun .timPulseSet t c s)
    have hpulses := congrArg Tim.pulses htim
    refine ⟨_, rfl, ?_⟩
    rw [pulseOf_congr hpulses, hset, htim, hcompares, begun_tim]
    refine ⟨rfl, rfl, rfl, rfl, rfl, rfl, rfl, rfl, fun hper => ?_, fun k hk => ?_, rfl⟩
    · exact hnext hper
    · rw [pulseOf_congr hpulses, hothers k hk, pulseOf_congr (congrArg Tim.pulses (begun_tim ..))]
  case realign =>
    have htim := runCommand_tim effTimRealign h
    obtain ⟨hqueue, -⟩ := runCommand_places (eff := effTimRealign) h rfl rfl
    refine ⟨_, rfl, _, hqueue, rfl, rfl, rfl, rfl, ?_⟩
    rw [htim, ← begun_tim .timRealign t c s]
    exact (placeCommand_moves _ c _ _ (.refl [.flash, .evt, .xpt] _)).same .tim rfl

end
end

section
/-! PROOFS. PTP, the reference inputs, the selector and the loops (O43). -/

-- The package is checked as one text; elaborating these proofs in order keeps the number of threads small.
set_option Elab.async false

namespace Sys2Proof.Machine

/-! The PTP client (R427 to R430). -/

@[simp] theorem timCount_same (i : Nat) (s : State) :
    tget 0#32 (timCount i s).tim.cnt i = tget 0#32 s.tim.cnt i + 1#32 := bump_same ..

theorem refIn_timCount (k i : Nat) (s : State) : refIn (timCount k s) i = refIn s i := rfl

theorem chooseMaster_masters (s : State) : (chooseMaster s).tim.ptp.masters = s.tim.ptp.masters := by
  have hacquire (x : State) : (acquire x).tim.ptp.masters = x.tim.ptp.masters := by
    rw [acquire_ptp]
  have hmove (new : LoopState) (x : State) : (moveTime new x).tim.ptp.masters = x.tim.ptp.masters :=
    congrArg Ptp.masters (moveTime_ptp new x)
  unfold chooseMaster
  dsimp only
  split
  next =>
    split
    next => exact ite_keeps (·.tim.ptp.masters) rfl (hacquire _)
    next => exact hacquire _
  next => exact ite_keeps (·.tim.ptp.masters) (hmove _ _) rfl

theorem chooseMaster_cnt (s : State) {k : Nat} (hk : k ≠ 4) :
    tget 0#32 (chooseMaster s).tim.cnt k = tget 0#32 s.tim.cnt k := by
  unfold chooseMaster
  dsimp only
  split
  next =>
    split
    next => exact ite_keeps (fun u => tget 0#32 u.tim.cnt k) rfl (acquire_cnt _ hk)
    next => exact acquire_cnt _ hk
  next => exact ite_keeps (fun u => tget 0#32 u.tim.cnt k) (moveTime_cnt _ _ hk) rfl

/-- A LOCKED client that has lost every master enters HOLDOVER. -/
theorem chooseMaster_of_none {s : State} (hnone : s.tim.ptp.masters = []) (hlocked : s.tim.time.state = .locked)
    (hever : s.tim.time.everLocked = true) :
    chooseMaster s = moveTime .holdover (onPtp (fun p => { p with chosen := none }) s) := by
  have hbest : bestMaster s.tim.ptp.masters = none := by rw [hnone]; rfl
  simp [chooseMaster, hbest, onPtp, hlocked, hever]

theorem execAnnounceTimeout_drops {t p : Nat} {s : State} (hp : p ≤ 2)
    (hany : s.tim.ptp.masters.any (fun m => m.port == p) = true) : exec (.announceTimeout t p) s = .next
      (chooseMaster (onPtp (fun q => { q with masters := q.masters.filter (fun m => m.port != p) })
        (timCount 2 (advance t s)))) :=
  (if_neg (Nat.not_lt.mpr hp)).trans (congrArg _ (if_pos hany))

theorem execDelayReqSend_sends {t : Nat} {m : PtpMaster} {s : State} (hm : s.tim.ptp.chosen = some m)
    (hroom : s.tim.ptp.queue.length < 64) : exec (.delayReqSend t) s = .next (timCount 5 (setStamps
      (s.tim.ptp.queue ++ [⟨m.port, s.tim.ptp.delaySeq, (advance t s).clock.now⟩])
      (onPtp (fun p => { p with delaySeq := (s.tim.ptp.delaySeq + 1) % 0x10000 })
        (emit (.service (max s.clock.clk t) m.port 7 [s.tim.ptp.delaySeq] (delayReq (advance t s) m.port s.tim.ptp.delaySeq))
          (advance t s))))) := by
  refine congrArg Host.Outcome.next ?_
  simp only [advance_tim, hm]
  exact if_pos hroom

/-! The loops in holdover (R425, R439). -/

theorem execHoldoverLimit_time {t : Nat} {s : State} (hstate : s.tim.time.state = .holdover)
    (hlimit : s.tim.holdLimit * 1000 < holdError s.tim.time (advance t s)) :
    exec (.holdoverLimit t false) s = .next (moveTime .lost (advance t s)) :=
  congrArg _ ((if_pos (by simp [hstate, hlimit])).trans (if_neg Bool.false_ne_true))

theorem execHoldoverLimit_house {t : Nat} {s : State} (hstate : s.tim.house.state = .holdover)
    (hlimit : s.tim.holdLimit * 1000 < holdError s.tim.house (advance t s)) :
    exec (.holdoverLimit t true) s = .next (setHouseState .lost (advance t s)) :=
  congrArg _ ((if_pos (by simp [hstate, hlimit])).trans (if_pos rfl))

theorem driveHt_htState (v : Nat) (s : State) : (driveHt v s).tim.htState = v := by
  unfold driveHt
  split
  · assumption
  · rw [emitPin_tim]
    rfl

theorem driveHt_house (v : Nat) (s : State) : (driveHt v s).tim.house = s.tim.house :=
  ite_keeps (·.tim.house) rfl ((congrArg Tim.house (emitPin_tim ..)).trans rfl)

theorem driveHt_sel (v : Nat) (s : State) : (driveHt v s).tim.sel = s.tim.sel :=
  ite_keeps (·.tim.sel) rfl ((congrArg Tim.sel (emitPin_tim ..)).trans rfl)

/-- The house loop in its new state, which stands on HT_STATE; the switch of the selector stands. -/
theorem setHouseState_enters {new : LoopState} {s : State} (h : s.tim.house.state ≠ new) :
    (∃ now, (setHouseState new s).tim.house = s.tim.house.enter new now)
      ∧ (setHouseState new s).tim.htState = new.code ∧ (setHouseState new s).tim.sel = s.tim.sel := by
  unfold setHouseState
  extract_lets old entered driven raised
  rw [if_neg h]
  have hraised : raised.tim = driven.tim := raise_tim ..
  have hhouse : driven.tim.house = s.tim.house.enter new s.clock.clk := driveHt_house ..
  have hht : driven.tim.htState = new.code := driveHt_htState ..
  have hsel : driven.tim.sel = s.tim.sel := driveHt_sel ..
  refine ⟨⟨s.clock.clk, ?_⟩, ?_, ?_⟩
  · exact ite_keeps (·.tim.house) ((congrArg Tim.house hraised).trans hhouse) ((congrArg Tim.house hraised).trans hhouse)
  · exact ite_keeps (·.tim.htState) ((congrArg Tim.htState hraised).trans hht) ((congrArg Tim.htState hraised).trans hht)
  · exact ite_keeps (·.tim.sel) ((congrArg Tim.sel hraised).trans hsel) ((congrArg Tim.sel hraised).trans hsel)

/-! Reference inputs (R432 to R434). -/

/-- An input that starts its wait. -/
theorem startWait_waits (i : Nat) (s : State) :
    (refIn (startWait i s) i).phase = 2 ∧ (refIn (startWait i s) i).cause = (refIn s i).cause
      ∧ (refIn (startWait i s) i).lastEdge = (refIn s i).lastEdge := by
  rw [startWait, refIn_modRef]
  split
  · exact ⟨rfl, rfl, rfl⟩
  · split <;> exact ⟨rfl, rfl, rfl⟩

/-- A disqualified input, and its count. -/
theorem disqualify_marks (i cause : Nat) (s : State) :
    (refIn (disqualify i cause s) i).beyondWait = { refIn s i with phase := 1, cause := cause, deferred := false }.beyondWait
      ∧ tget 0#32 (disqualify i cause s).tim.cnt 3 = tget 0#32 s.tim.cnt 3 + 1#32 := by
  have hview : (disqualify i cause s).beyondSelector = (timCount 3 (modRef i (fun x => { x with
      phase := 1, cause := cause, deferred := false }) s)).beyondSelector :=
    (beyondSelector_runSelector ..).trans (beyondSelector_raise ..)
  have href : refIn (timCount 3 (modRef i (fun x => { x with phase := 1, cause := cause, deferred := false }) s)) i
      = { refIn s i with phase := 1, cause := cause, deferred := false } := (refIn_timCount ..).trans (refIn_modRef ..)
  refine ⟨(beyondWait_of_beyondSelector hview i).trans (congrArg RefIn.beyondWait href), ?_⟩
  rw [cnt_of_beyondSelector hview (by decide), timCount_same]
  rfl

theorem disqualify_phase (i cause : Nat) (s : State) : (refIn (disqualify i cause s) i).phase = 1
    ∧ (refIn (disqualify i cause s) i).cause = cause ∧ (refIn (disqualify i cause s) i).freq = (refIn s i).freq := by
  obtain ⟨href, -⟩ := disqualify_marks i cause s
  exact ⟨(congrArg RefIn.phase href :), (congrArg RefIn.cause href :), (congrArg RefIn.freq href :)⟩

/-- An input that an edge has reached, with the edge counted for a switch in its build-out. -/
def edged (i : Nat) (s : State) : State :=
  let x := modRef i (fun r => { r with lastEdge := some s.clock.clk, edgeTime := some s.clock.now }) s
  if x.tim.sel.stage = 1 && x.tim.sel.selected = some i then
    onTim (fun m => { m with sel := { m.sel with edges := m.sel.edges + 1 } }) x else x

theorem refIn_edged (i : Nat) (s : State) :
    refIn (edged i s) i = { refIn s i with lastEdge := some s.clock.clk, edgeTime := some s.clock.now } := by
  unfold edged
  extract_lets x
  have hx : refIn x i = { refIn s i with lastEdge := some s.clock.clk, edgeTime := some s.clock.now } := refIn_modRef ..
  exact ite_keeps (refIn · i) hx hx

theorem edged_house (i : Nat) (s : State) : (edged i s).tim.house = s.tim.house := ite_keeps (·.tim.house) rfl rfl

theorem edged_cnt (i : Nat) (s : State) : (edged i s).tim.cnt = s.tim.cnt := ite_keeps (·.tim.cnt) rfl rfl

section
variable {t i : Nat} {s : State} (hi : i ≤ 3) (hkind : (refIn s i).kind ≠ 0) (hruns : loopsRun s = true)
include hi hkind hruns

theorem execRefEdge_runs : exec (.refEdge t i) s = .next (if (refIn s i).phase == 1 && (refIn s i).cause == 0 then
      startWait i (edged i (advance t s))
    else if glitches (refIn s i) (edged i (advance t s)).clock.clk then startWait i (if (refIn s i).phase = 1 then
      modRef i (fun x => { x with cause := 1 }) (edged i (advance t s)) else disqualify i 1 (edged i (advance t s)))
    else edged i (advance t s)) := by
  have hgo : ¬ (decide ((refIn s i).kind = 0) || !loopsRun (advance t s)) = true := by
    simp [hkind, show loopsRun (advance t s) = true from hruns]
  exact (if_neg (Nat.not_lt.mpr hi)).trans (congrArg _ (if_neg hgo))

theorem execRefAbsent_missing (hphase : (refIn s i).phase = 3)
    (hspan : (refIn s i).lastEdge.getD (refIn s i).started
      + ((if (refIn s i).kind = 1 then basePeriod (refIn s i).family else 0) + 2000000) ≤ max s.clock.clk t) :
    exec (.refAbsent t i) s = .next (disqualify i 0 (advance t s)) := by
  have hgo : (decide ((refIn s i).kind ≠ 0) && loopsRun (advance t s)
      && (decide ((refIn s i).phase = 2) || decide ((refIn s i).phase = 3))
      && decide ((refIn s i).lastEdge.getD (refIn s i).started
        + ((if (refIn s i).kind = 1 then basePeriod (refIn s i).family else 0) + 2000000) ≤ (advance t s).clock.clk)) = true := by
    simp only [Bool.and_eq_true, Bool.or_eq_true, decide_eq_true_eq]
    exact ⟨⟨⟨hkind, hruns⟩, .inr hphase⟩, hspan⟩
  exact (if_neg (Nat.not_lt.mpr hi)).trans (congrArg _ (if_pos hgo))

theorem execRefFrequencyWindow_runs (f : Int) (hphase : (refIn s i).phase = 3) :
    exec (.refFrequencyWindow t i f) s = .next (if (refIn s i).tol * 1000 < f.natAbs then
      disqualify i 2 (modRef i (fun x => { x with freq := f }) (advance t s))
      else modRef i (fun x => { x with freq := f }) (advance t s)) := by
  have hgo : ¬ (decide ((refIn s i).kind = 0) || !loopsRun (advance t s)) = true := by
    simp [hkind, show loopsRun (advance t s) = true from hruns]
  have hin : (decide ((refIn s i).phase = 2) || decide ((refIn s i).phase = 3)) = true := by simp [hphase]
  have hcalm : ¬ (decide ((refIn s i).phase = 1) && decide ((refIn s i).cause = 2)) = true := by simp [hphase]
  refine (if_neg (Nat.not_lt.mpr hi)).trans (congrArg _ ((if_neg hgo).trans ?_))
  exact ite_congr rfl (fun _ => if_pos hin) (fun _ => if_neg hcalm)

end

theorem execRefQualify_passes {t i : Nat} {s : State} (hi : i ≤ 3) (hphase : (refIn s i).phase = 2)
    (hwaits : (refIn s i).deferred = false) (hdue : (refIn s i).waitUntil ≤ max s.clock.clk t) :
    exec (.refQualify t i) s
      = .next (runSelector 0 (modRef i (fun x => { x with phase := 3, first := false }) (advance t s))) :=
  (if_neg (Nat.not_lt.mpr hi)).trans (congrArg _ (if_pos (by simp [hphase, hwaits, hdue])))

/-! The switch (R436). -/

theorem execBuildOutDone_pulls {t i : Nat} {s : State} (hsel : s.tim.sel.selected = some i)
    (hstate : s.tim.house.state = .acquiring) (hstage : s.tim.sel.stage = 1)
    (hedges : i ≤ 3 → (refIn s i).kind = 1 → 4 ≤ s.tim.sel.edges)
    (hspan : s.tim.sel.stageAt + 10000000 ≤ max s.clock.clk t) : exec (.buildOutDone t) s
      = .next (onTim (fun m => { m with sel := { m.sel with stage := 2, stageAt := max s.clock.clk t } }) (advance t s)) := by
  have hmeasured : (if (decide (i < 4) && (refIn s i).kind == 1) = true then decide (4 ≤ s.tim.sel.edges)
      else decide (s.tim.sel.stageAt + 10000000 ≤ max s.clock.clk t)) = true := by
    split
    next hpulse =>
      obtain ⟨hlow, hkind⟩ := Bool.and_eq_true_iff.mp hpulse
      exact decide_eq_true (hedges (Nat.le_of_lt_succ (of_decide_eq_true hlow)) (beq_iff_eq.mp hkind))
    next => exact decide_eq_true hspan
  refine congrArg Host.Outcome.next ?_
  simp only [advance_tim, hsel]
  refine if_pos (Bool.and_eq_true_iff.mpr ⟨?_, hmeasured⟩)
  exact Bool.and_eq_true_iff.mpr ⟨decide_eq_true hstate, decide_eq_true hstage⟩

/-- A loop that is pulled in is LOCKED; with the selected reference the best one, no switch follows. -/
theorem execHouseLoopLocked_locks {t i : Nat} {s : State} (hsel : s.tim.sel.selected = some i)
    (hstate : s.tim.house.state = .acquiring) (hstage : s.tim.sel.stage = 2)
    (hspan : s.tim.sel.stageAt + 1000000000 ≤ max s.clock.clk t) (hcand : isCandidate s i = true)
    (hbest : bestCandidate s = some i) : exec (.houseLoopLocked t) s = .next (setHouseState .locked
      (onTim (fun m => { m with sel := { m.sel with stage := 0 } }) (advance t s))) := by
  have hview : (setHouseState .locked (onTim (fun m => { m with sel := { m.sel with stage := 0 } })
      (advance t s))).beyondSelector = s.beyondSelector := beyondSelector_setHouseState ..
  obtain ⟨-, -, hswitch⟩ := setHouseState_enters (new := .locked)
    (s := onTim (fun m => { m with sel := { m.sel with stage := 0 } }) (advance t s)) (by simp [hstate])
  have hselected : (setHouseState .locked (onTim (fun m => { m with sel := { m.sel with stage := 0 } })
      (advance t s))).tim.sel.selected = s.tim.sel.selected :=
    (congrArg Selector.selected hswitch :)
  refine congrArg Host.Outcome.next ((if_pos (by simp [hstate, hstage, hspan])).trans (runSelector_of_best 1 (i := i) ?_ ?_ ?_))
  · rw [hselected, hsel]
  · rw [isCandidate_of_beyondSelector hview, hcand]
  · rw [bestCandidate_of_beyondSelector hview hselected, hbest]

/-! Disagreement (R437). -/

/-- What holds of the default and of every changed value holds of a read after a change of every value. -/
theorem tget_tmap_of {α : Type} {p : α → Prop} {d : α} {f : Nat → α → α} {k : Nat} (m : Table α) (hd : p d)
    (hf : ∀ x, p (f k x)) : p (tget d (tmap m f) k) := by
  induction m with
  | nil => exact hd
  | cons q r ih =>
    obtain ⟨j, x⟩ := q
    by_cases hj : j = k
    · subst hj
      simpa [tget, tmap, tfind] using hf x
    · simpa [tget, tmap, tfind, hj] using ih

theorem suspect_modRef (w : Nat) (f : Selector → Selector) (s : State) :
    (refIn (onTim (fun m => { m with sel := f m.sel }) (modRef w (fun r => { r with suspect := true }) s)) w).suspect = true :=
  (congrArg RefIn.suspect (refIn_modRef w (fun r => { r with suspect := true }) s) :)

/-- The input that is not chosen is suspect, and the pair is noted. -/
theorem execRefDisagree_suspects {t a b : Nat} {x y : Int} {s : State} (ha : a ≤ 3) (hb : b ≤ 3) (hab : a ≠ b)
    (hca : isCandidate s a = true) (hcb : isCandidate s b = true) (hrank : (refIn s a).rank = (refIn s b).rank)
    (hfar : 500 < (x - y).natAbs) :
    ∃ u w, exec (.refDisagree t a b x y) s = .next u ∧ (w = a ∨ w = b) ∧ u.beyondSelector
      = (onTim (fun m => { m with sel := { m.sel with disagree := m.sel.disagree ++ [(a, b, w)] } })
          (modRef w (fun r => { r with suspect := true }) s)).beyondSelector := by
  have hexists : ¬ (decide (3 < a) || decide (3 < b)) = true := by simp; omega
  have hgo : (decide (a ≠ b) && isCandidate (advance t s) a && isCandidate (advance t s) b
      && decide ((refIn (advance t s) a).rank = (refIn (advance t s) b).rank) && decide (500 < (x - y).natAbs)) = true := by
    simp only [Bool.and_eq_true, decide_eq_true_eq]
    exact ⟨⟨⟨⟨hab, hca⟩, hcb⟩, hrank⟩, hfar⟩
  refine ⟨_, if (disagreeChoice (advance t s) a b x y).1 = a then b else a,
    (if_neg hexists).trans (congrArg _ (if_pos hgo)), ?_, ?_⟩
  · split
    · exact .inr rfl
    · exact .inl rfl
  · generalize disagreeChoice (advance t s) a b x y = choice
    obtain ⟨win, rule⟩ := choice
    dsimp only
    have hnoted (w : Nat) (ws : List Word) :
        (onTim (fun m => { m with sel := { m.sel with disagree := m.sel.disagree ++ [(a, b, w)] } })
          (modRef w (fun r => { r with suspect := true }) (raise 2 8 0x8022 0 ws (advance t s)))).beyondSelector
        = (onTim (fun m => { m with sel := { m.sel with disagree := m.sel.disagree ++ [(a, b, w)] } })
          (modRef w (fun r => { r with suspect := true }) s)).beyondSelector :=
      beyondSelector_of_tim (by simp only [modRef, onTim_tim, raise_tim, advance_tim])
    exact ite_keeps State.beyondSelector
      ((beyondSelector_switchTo ..).trans (ite_keeps State.beyondSelector
        ((beyondSelector_houseHoldover _).trans (hnoted _ _)) (hnoted _ _)))
      ((beyondSelector_runSelector ..).trans (hnoted _ _))

/-- Two inputs that agree are no longer suspect. -/
def RefIn.trusted (a b i : Nat) (r : RefIn) : RefIn := if i = a || i = b then { r with suspect := false } else r

theorem suspect_trusted {a b k : Nat} (h : k = a ∨ k = b) (m : Table RefIn) :
    (tget {} (tmap m (RefIn.trusted a b)) k).suspect = false := by
  refine tget_tmap_of (p := fun r : RefIn => r.suspect = false) m rfl fun r => ?_
  rw [RefIn.trusted, if_pos (by simpa using h)]

theorem execRefDisagreementEnd_ends {t a b w : Nat} {s : State} (ha : a ≤ 3) (hb : b ≤ 3)
    (hpair : s.tim.sel.disagree = [(a, b, w)]) : exec (.refDisagreementEnd t a b) s = .next (runSelector 0
      (onTim (fun m => { m with
        sel := { m.sel with disagree := [] }
        refs := tmap m.refs (RefIn.trusted a b) }) (advance t s))) := by
  have hexists : ¬ (decide (3 < a) || decide (3 < b)) = true := by simp; omega
  refine (if_neg hexists).trans (congrArg Host.Outcome.next ?_)
  have htrusted : RefIn.trusted a b = fun i r => if i = a || i = b then { r with suspect := false } else r := rfl
  simp [hpair, htrusted]

theorem execPtpWtrExpired_unbars {t : Nat} {s : State} (hbar : s.tim.sel.ptpBarred = true)
    (hstate : s.tim.time.state = .locked)
    (hspan : s.tim.time.since + s.tim.sel.wtr * 1000000000 ≤ max s.clock.clk t) : exec (.ptpWtrExpired t) s
      = .next (runSelector 0 (onTim (fun m => { m with sel := { m.sel with ptpBarred := false } }) (advance t s))) :=
  congrArg _ (if_pos (by simp [hbar, hstate, hspan]))

end Sys2Proof.Machine

section
open Sys2Proof Sys2Proof.Machine

/-- Settles O43, one case per event. -/
theorem referencesAndLoopsFollowTheRules : Obligations.ReferencesAndLoopsFollowTheRules := by
  refine ⟨fun t p s hp hany => ?announce, fun t m s hm hroom => ?delayReq, fun t s => ?holdover,
    fun t i s hi hkind hruns => ?edge, fun t i s hi hkind hruns hphase hspan => ?absent,
    fun t i f s hi hkind hruns hphase => ?window, fun t i s hi hphase hwaits hdue => ?qualify,
    fun t i s hsel hstate => ?switch, fun t a b x y s ha hb hab hca hcb hrank hfar => ?disagree,
    fun t a b w s ha hb hpair => ?agree, fun t s hbar hstate hspan => ?unbarred⟩
  case announce =>
    refine ⟨_, execAnnounceTimeout_drops hp hany, chooseMaster_masters _, ?_, fun hall hlocked hever => ?_⟩
    · exact (chooseMaster_cnt _ (by decide)).trans (timCount_same ..)
    · have hnone : s.tim.ptp.masters.filter (fun m => m.port != p) = [] :=
        List.filter_eq_nil_iff.mpr fun m hm => by simp [hall m hm]
      rw [chooseMaster_of_none (s := onPtp (fun q => { q with masters := q.masters.filter (fun m => m.port != p) })
        (timCount 2 (advance t s))) hnone hlocked hever]
      exact ⟨moveTime_state .., moveTime_holdover hlocked⟩
  case delayReq => exact ⟨_, execDelayReqSend_sends hm hroom, rfl, rfl, rfl⟩
  case holdover =>
    refine ⟨fun hstate hlimit => ⟨_, execHoldoverLimit_time hstate hlimit, moveTime_state ..⟩, fun hstate hlimit => ?_⟩
    obtain ⟨⟨now, hhouse⟩, hht, -⟩ := setHouseState_enters (s := advance t s) (new := .lost) (by simp [hstate])
    exact ⟨_, execHoldoverLimit_house hstate hlimit, by rw [hhouse]; rfl, hht⟩
  case edge =>
    have hruns := execRefEdge_runs (t := t) hi hkind hruns
    refine ⟨fun hphase hcause => ?back, fun hphase hclean => ?clean, fun hphase hglitch => ?glitch⟩
    case back =>
      obtain ⟨hwaits, -, hedge⟩ := startWait_waits i (edged i (advance t s))
      rw [refIn_edged] at hedge
      exact ⟨_, hruns.trans (congrArg _ (if_pos (by simp [hphase, hcause]))), hwaits, hedge⟩
    case clean =>
      have hclk : (edged i (advance t s)).clock.clk = max s.clock.clk t := ite_keeps (·.clock.clk) rfl rfl
      refine ⟨_, hruns.trans (congrArg _ ((if_neg (by simp [hphase])).trans (if_neg (by simp [hclk, hclean])))), ?_⟩
      rw [refIn_edged, edged_house]
      exact ⟨hphase, rfl, rfl⟩
    case glitch =>
      have hclk : (edged i (advance t s)).clock.clk = max s.clock.clk t := ite_keeps (·.clock.clk) rfl rfl
      obtain ⟨hwaits, hcause, -⟩ := startWait_waits i (disqualify i 1 (edged i (advance t s)))
      obtain ⟨-, hone, -⟩ := disqualify_phase i 1 (edged i (advance t s))
      obtain ⟨-, hcnt⟩ := disqualify_marks i 1 (edged i (advance t s))
      rw [edged_cnt] at hcnt
      refine ⟨_, hruns.trans (congrArg _ ((if_neg (by simp [hphase])).trans (if_pos (by simp [hclk, hglitch])))), ?_⟩
      rw [if_neg (by simp [hphase])]
      exact ⟨hwaits, hcause.trans hone, hcnt⟩
  case absent =>
    obtain ⟨hphase', hcause, -⟩ := disqualify_phase i 0 (advance t s)
    exact ⟨_, execRefAbsent_missing hi hkind hruns hphase hspan, hphase', hcause, (disqualify_marks ..).2⟩
  case window =>
    have hruns := execRefFrequencyWindow_runs (t := t) hi hkind hruns f hphase
    refine ⟨fun hin => ⟨_, hruns.trans (congrArg _ (if_neg (Nat.not_lt.mpr hin))), ?_⟩,
      fun hout => ⟨_, hruns.trans (congrArg _ (if_pos hout)), ?_⟩⟩
    · rw [refIn_modRef]
      exact ⟨rfl, hphase⟩
    · obtain ⟨hphase', hcause, hfreq⟩ := disqualify_phase i 2 (modRef i (fun x => { x with freq := f }) (advance t s))
      rw [refIn_modRef] at hfreq
      exact ⟨hfreq, hphase', hcause⟩
  case qualify =>
    have hset := beyondWait_of_beyondSelector (beyondSelector_runSelector 0
      (modRef i (fun x => { x with phase := 3, first := false }) (advance t s))) i
    rw [refIn_modRef] at hset
    exact ⟨_, execRefQualify_passes hi hphase hwaits hdue, (congrArg RefIn.phase hset :), (congrArg RefIn.first hset :)⟩
  case switch =>
    refine ⟨fun hstage hedges hspan => ⟨_, execBuildOutDone_pulls hsel hstate hstage hedges hspan, rfl, rfl, rfl⟩,
      fun hstage hspan hcand hbest => ⟨_, execHouseLoopLocked_locks hsel hstate hstage hspan hcand hbest, ?_⟩⟩
    obtain ⟨⟨now, hhouse⟩, -, hswitch⟩ := setHouseState_enters (new := .locked)
      (s := onTim (fun m => { m with sel := { m.sel with stage := 0 } }) (advance t s)) (by simp [hstate])
    rw [hhouse, hswitch]
    exact ⟨rfl, by simp [Loop.enter], rfl, hsel⟩
  case disagree =>
    obtain ⟨u, w, hu, hw, hview⟩ := execRefDisagree_suspects (t := t) ha hb hab hca hcb hrank hfar
    have hsuspect := (congrArg RefIn.suspect (beyondWait_of_beyondSelector hview w) :)
    exact ⟨u, w, hu, hw, hsuspect.trans (suspect_modRef w (fun x => { x with disagree := x.disagree ++ [(a, b, w)] }) s),
      disagree_of_beyondSelector hview⟩
  case agree =>
    have hview := beyondSelector_runSelector 0 (onTim (fun m => { m with
      sel := { m.sel with disagree := [] }
      refs := tmap m.refs (RefIn.trusted a b) }) (advance t s))
    have hstands (k : Nat) := (congrArg RefIn.suspect (beyondWait_of_beyondSelector hview k) :)
    exact ⟨_, execRefDisagreementEnd_ends ha hb hpair, disagree_of_beyondSelector hview,
      (hstands a).trans (suspect_trusted (.inl rfl) _), (hstands b).trans (suspect_trusted (.inr rfl) _)⟩
  case unbarred =>
    have hview := beyondSelector_runSelector 0 (onTim (fun m => { m with sel := { m.sel with ptpBarred := false } }) (advance t s))
    exact ⟨_, execPtpWtrExpired_unbars hbar hstate hspan, barred_of_beyondSelector hview,
      (time_of_beyondSelector hview).trans rfl⟩

end
end

section
/-! PROOFS. The pair's state through replies, queues, mode transitions, and the rise and fall of the link and the lease:
what each of the shared operations of chapter 14 makes of it. -/

-- The package is checked as one text; elaborating these proofs in order keeps the number of threads small.
set_option Elab.async false

namespace Sys2Proof.Machine

/-- The pair's state beside the outcome noted of a command. -/
def Red.noteless (r : Red) : Red := { r with noted := none }

/-- The pair's state beside the outcome noted of a command, and the partner's address. -/
def State.noteless (s : State) : Red × Option Nat := (s.red.noteless, s.host.partnerAddr)

/-- Two states differ for the pair in the outcome noted of a command alone: replies, records of happenings and the queues
go no further. -/
def OnlyNotes (s u : State) : Prop := u.noteless = s.noteless

/-- The pair's state beside its counters, its message numbers and the outcome noted of a command. -/
def Red.course (r : Red) : Red := { r with cnt := [], msgNo := [], noted := none }

/-- The course of the pair and the partner's address. -/
def State.pairing (s : State) : Red × Option Nat := (s.red.course, s.host.partnerAddr)

/-- Two states agree on the course of the pair. -/
def PairStands (s u : State) : Prop := u.pairing = s.pairing

section
variable {s x u : State}

theorem OnlyNotes.refl (s : State) : OnlyNotes s s := rfl

theorem OnlyNotes.trans (h : OnlyNotes s x) (g : OnlyNotes x u) : OnlyNotes s u := Eq.trans g h

/-- What leaves the pair and the host interface alone. -/
theorem OnlyNotes.moved {l : List Part} (h : OnlyNotes s x) (hm : Moves l x u)
    (hr : l.contains .red = false := by rfl) (hh : l.contains .host = false := by rfl) : OnlyNotes s u := by
  have hred : u.red = x.red := hm.same .red hr
  have hhost : u.host = x.host := hm.same .host hh
  unfold OnlyNotes State.noteless
  rw [hred, hhost]
  exact h

theorem OnlyNotes.ite {q : Prop} [Decidable q] {a b : State} (ha : OnlyNotes s a) (hb : OnlyNotes s b) :
    OnlyNotes s (if q then a else b) := by
  split
  · exact ha
  · exact hb

theorem OnlyNotes.foldl {β : Type} {f : State → β → State} (h : OnlyNotes s x) (l : List β)
    (hf : ∀ y b, OnlyNotes y (f y b)) : OnlyNotes s (l.foldl f x) :=
  List.foldlRecOn (motive := fun y => OnlyNotes s y) l f h (fun y hy b _ => hy.trans (hf y b))

theorem OnlyNotes.raise (h : OnlyNotes s x) (sev cls code path : Nat) (ws : List Word) :
    OnlyNotes s (raise sev cls code path ws x) := h.moved (raise_own ..)

theorem OnlyNotes.finish (h : OnlyNotes s x) (op : Op) (c : HostCmd) (st : Status) (ps : List Byte) :
    OnlyNotes s (finish op c st ps x) := by
  have hred : (Machine.finish op c st ps x).red.noteless = x.red.noteless :=
    ite_keeps (·.red.noteless) rfl (ite_keeps (·.red.noteless)
      (congrArg Red.noteless ((cacheReply_moves c st ps (.refl [.host] x)).same .red rfl))
      (congrArg Red.noteless ((replyTo_moves _ c st ps (.refl [.host, .out] x)).same .red rfl)))
  have haddr : (Machine.finish op c st ps x).host.partnerAddr = x.host.partnerAddr := by rw [finish_alike op c st ps x]
  exact h.trans (Prod.ext hred haddr)

theorem OnlyNotes.entryGone (h : OnlyNotes s x) (e : Entry) (res : Option (Status × Nat)) (frame : Nat) :
    OnlyNotes s (entryGone e res frame x) := by
  unfold Machine.entryGone
  dsimp only
  refine .ite h ?_
  split
  next => exact h
  next =>
    have hwaits (k : Xpt) : OnlyNotes s { x with xpt := k } := h
    refine .ite ?_ h
    split
    · exact (hwaits _).finish ..
    · exact (hwaits _).finish ..

theorem OnlyNotes.discardEntries (h : OnlyNotes s x) (p : Entry → Bool) (cause : Nat) :
    OnlyNotes s (discardEntries p cause x) := by
  have hgone (y : State) (e : Entry) :
      OnlyNotes y (Machine.entryGone e (some (discardResult cause e)) 0 (reportDiscard cause e y)) :=
    ((OnlyNotes.refl y).moved (reportDiscard_moves cause e (.refl [.flash, .evt, .xpt, .cmp, .aud] y))).entryGone ..
  have hqueue (k : Xpt) : OnlyNotes s { x with xpt := k } := h
  exact ((hqueue _).foldl _ hgone).moved (queueFell_moves (.refl [.xpt] _))

theorem OnlyNotes.endInstances (h : OnlyNotes s x) (p : CueInst → Bool) (cause : Nat) :
    OnlyNotes s (endInstances p cause x) := h.moved (endInstances_moves p cause (.refl [.flash, .evt, .cue] x))

theorem OnlyNotes.transitionQueues (h : OnlyNotes s x) (n : Nat) : OnlyNotes s (transitionQueues n x) := by
  unfold Machine.transitionQueues
  split
  next => exact h
  next => exact (h.discardEntries ..).endInstances ..
  next => exact (h.discardEntries ..).endInstances ..
  next => exact (h.discardEntries ..).endInstances ..
  next => exact (h.discardEntries ..).endInstances ..
  next => exact (h.discardEntries ..).endInstances ..
  next => exact h

/-- A transition to a mode in which a lease can be held leaves the pair. -/
theorem OnlyNotes.applyTransition (h : OnlyNotes s x) (n : Nat) {dest : Mode} (cause : Nat)
    (hd : dest.mayLease = true) : OnlyNotes s (applyTransition n dest cause x) := by
  unfold Machine.applyTransition
  extract_lets queues tests lease trial
  have hqueues : OnlyNotes s queues := h.transitionQueues n
  have htests : OnlyNotes s tests :=
    .ite (hqueues.moved (stopTests_moves (.refl [.flash, .evt, .lane, .flow] _))) hqueues
  have hlease : OnlyNotes s lease := by rwa [show lease = tests from if_pos hd]
  have htrial : OnlyNotes s trial := .ite (hlease.moved (blockTrial_moves 4 (.refl [.flash] _))) hlease
  exact htrial.moved (setMode_moves n dest cause
    (.refl [.mode, .aon, .pins, .start, .flash, .evt, .pwr, .lane, .out] _))

theorem PairStands.refl (s : State) : PairStands s s := rfl

theorem PairStands.trans (h : PairStands s x) (g : PairStands x u) : PairStands s u := Eq.trans g h

theorem PairStands.course (h : PairStands s u) : u.red.course = s.red.course := congrArg Prod.fst h

theorem PairStands.partnerAddr (h : PairStands s u) : u.host.partnerAddr = s.host.partnerAddr := congrArg Prod.snd h

theorem PairStands.notes (h : PairStands s x) (g : OnlyNotes x u) : PairStands s u :=
  h.trans (Prod.ext (congrArg (fun v => v.1.course) g :) (congrArg (fun v => v.2) g :))

theorem PairStands.moved {l : List Part} (h : PairStands s x) (hm : Moves l x u)
    (hr : l.contains .red = false := by rfl) (hh : l.contains .host = false := by rfl) : PairStands s u :=
  h.notes ((OnlyNotes.refl x).moved hm hr hh)

/-- The same change of the course on both sides. -/
theorem PairStands.onCourse {r : Red} (h : PairStands { s with red := r } x) (f : Red → Red)
    (hf : ∀ a, (f a).course = f a.course := by exact fun _ => rfl) :
    PairStands { s with red := f r } { x with red := f x.red } :=
  Prod.ext ((hf _).trans ((congrArg f h.course).trans (hf r).symm)) h.partnerAddr

theorem PairStands.ite {q : Prop} [Decidable q] {a b : State} (ha : PairStands s a) (hb : PairStands s b) :
    PairStands s (if q then a else b) := by
  split
  · exact ha
  · exact hb

theorem PairStands.foldl {β : Type} {f : State → β → State} (h : PairStands s x) (l : List β)
    (hf : ∀ y b, PairStands y (f y b)) : PairStands s (l.foldl f x) :=
  List.foldlRecOn (motive := fun y => PairStands s y) l f h (fun y hy b _ => hy.trans (hf y b))

theorem PairStands.raise (h : PairStands s x) (sev cls code path : Nat) (ws : List Word) :
    PairStands s (raise sev cls code path ws x) := h.moved (raise_own ..)

theorem PairStands.finish (h : PairStands s x) (op : Op) (c : HostCmd) (st : Status) (ps : List Byte) :
    PairStands s (finish op c st ps x) := h.notes ((OnlyNotes.refl x).finish ..)

theorem PairStands.applyTransition (h : PairStands s x) (n : Nat) {dest : Mode} (cause : Nat)
    (hd : dest.mayLease = true) : PairStands s (applyTransition n dest cause x) :=
  h.notes ((OnlyNotes.refl x).applyTransition n cause hd)

/-- A transition to ACTIVE, STANDBY or CALIBRATE, in which the link stands (Table 14.4), leaves the pair's course. -/
theorem PairStands.transition (h : PairStands s x) (n : Nat) {dest : Mode} (cause : Nat)
    (hd : dest = .active ∨ dest = .standby ∨ dest = .calibrate) : PairStands s (transition n dest cause x) := by
  have hlease : dest.mayLease = true := by rcases hd with rfl | rfl | rfl <;> rfl
  have hstands : Machine.transition n dest cause x = Machine.applyTransition n dest cause x :=
    if_pos (by rcases hd with rfl | rfl | rfl <;> rfl)
  rw [hstands]
  exact h.applyTransition n cause hlease

theorem PairStands.modeDecision (h : PairStands s x) : PairStands s (modeDecision x) :=
  .ite (.ite (h.transition 3 4 (.inl rfl)) (.ite (h.transition 4 4 (.inr (.inl rfl))) h)) h

theorem PairStands.sendHalyard (h : PairStands s x) (kind : Nat) (payload : List Byte) :
    PairStands s (sendHalyard kind payload x) := by
  unfold Machine.sendHalyard
  split
  · exact h
  · exact h

theorem PairStands.raiseLease (h : PairStands s x) (state : Nat) : PairStands s (raiseLease state x) := h.raise ..

end

/-- A reply and the naming of the command to the partner change only the record in hand of the pair's course. -/
theorem course_items_of_alike {a b : Red} (h : a.alike b) :
    { a.course with items := [] } = { b.course with items := [] } := by
  unfold Red.alike at h
  rw [h]
  rfl

/-! The lease (R471 to R475). -/

/-- The pair's state without lease or grant. -/
def Red.leaseless (r : Red) : Red :=
  { r with lease := false, grant := false, granted := false, t6Due := false, t7Due := false, t10Due := false }

/-- The pair's state with the lease just acquired. -/
def Red.acquired (gen : Nat) (r : Red) : Red :=
  { r with lease := true, grant := false, granted := false, t6Due := false, gen := gen }

theorem pairStands_acquireLease (gen : Nat) (s : State) :
    PairStands { s with red := s.red.acquired gen } (acquireLease gen s) :=
  (PairStands.moved rfl (noteEnsign_moves (.refl [.lane] _))).raise ..

theorem pairStands_dropLease (state : Nat) {s : State} (h : s.red.lease = true ∨ s.red.grant = true) :
    PairStands { s with red := s.red.leaseless } (dropLease state s) := by
  have hheld : (s.red.lease || s.red.grant) = true := by simpa using h
  unfold dropLease
  rw [if_pos hheld]
  extract_lets _ raised noted
  have hraised : PairStands { s with red := s.red.leaseless } raised := PairStands.raise rfl ..
  have hnoted : PairStands { s with red := s.red.leaseless } noted := hraised.moved (noteEnsign_moves (.refl [.lane] _))
  exact .ite (hnoted.moved (emitPin_moves _ _ ((Moves.refl [.pins, .out] _).setPins _))) hnoted

theorem dropLease_of_none (state : Nat) {s : State} (hl : s.red.lease = false) (hg : s.red.grant = false) :
    dropLease state s = s := if_neg (by simp [hl, hg])

theorem leaseOut_dropLease (state : Nat) {s : State} (h : s.red.lease = true ∨ s.red.grant = true) :
    (dropLease state s).pins.leaseOut = false := by
  have hheld : (s.red.lease || s.red.grant) = true := by simpa using h
  unfold dropLease
  rw [if_pos hheld]
  extract_lets _ raised noted
  split
  next =>
    have hpins (x : State) : (emitPin "LEASE_OUT" 0 x).pins = x.pins := (emitPin_own _ _ x).same .pins rfl
    rw [hpins]
  next hlow => exact Bool.eq_false_iff.mpr hlow

theorem setReady_leaseOut (v : Bool) (s : State) : (setReady v s).pins.leaseOut = s.pins.leaseOut := by
  unfold setReady
  dsimp only
  repeat' split
  all_goals rfl

/-- A transition to a mode in which a lease can be held does not move LEASE_OUT. -/
theorem transition_leaseOut (n : Nat) {dest : Mode} (cause : Nat) (s : State) (hd : dest.mayLease = true) :
    (transition n dest cause s).pins.leaseOut = s.pins.leaseOut := by
  have hpins := congrArg Pins.leaseOut ((transition_moves_applied n dest cause s).same .pins rfl)
  refine hpins.trans ?_
  unfold applyTransition
  extract_lets queues tests lease trial
  have hqueues : queues.pins = s.pins :=
    (transitionQueues_moves n (.refl [.flash, .host, .evt, .xpt, .cue, .red, .cmp, .aud, .out] s)).same .pins rfl
  have htests : tests.pins = queues.pins :=
    ite_keeps State.pins ((stopTests_moves (.refl [.flash, .evt, .lane, .flow] _)).same .pins rfl) rfl
  have hlease : lease = tests := if_pos hd
  have htrial : trial.pins = lease.pins := ite_keeps State.pins ((blockTrial_moves 4 (.refl [.flash] _)).same .pins rfl) rfl
  have hnoted (x : State) : (noteEnsign x).pins = x.pins := (noteEnsign_moves (.refl [.lane] x)).same .pins rfl
  have hset : (setMode n dest cause trial).pins.leaseOut = trial.pins.leaseOut := by
    unfold setMode
    dsimp only
    rw [hnoted, setReady_leaseOut]
    exact congrArg Pins.leaseOut ((raiseModeChange_moves _ _ _ _ (.refl [.evt] _)).same .pins rfl)
  rw [hset, htrial, hlease, htests, hqueues]

/-! The link (R461, Table 14.4). -/

/-- The pair's state with the link at a new state, before a loss of IN_STEP is dealt with. -/
def Red.linkedTo (new : Link) (r : Red) : Red :=
  { r with
    link := new, resync := none, buffered := [], resyncDone := false, claim := none, handed := false, unacked := 0
    items := if new = .inStep then r.items else [], kept := if new = .inStep then r.kept else []
    choices := [], missed := [], branches := [], results := [] }

/-- The pair's state after the loss of IN_STEP, with a grant that may be kept (R461, R474). -/
def Red.lost (keep : Bool) (r : Red) : Red :=
  { (if keep then r else { r with grant := false, granted := false, t7Due := false }) with
    held := [], forwarded := [], filling := false, fillLeft := [] }

/-- A grant whose handover was applied is kept while it is still renewed (R474). -/
def keepsGrant (s : State) : Bool :=
  s.red.granted && decide (s.clock.clk - s.red.renewed ≤ s.red.term * 1000000)

theorem linkTo_of_eq {new : Link} (cause : Nat) {s : State} (h : s.red.link = new) : linkTo new cause s = s := if_pos h

/-- A link that was not in step only changes its state. -/
theorem pairStands_linkTo_of_not_inStep {new : Link} (cause : Nat) {s : State} (h : s.red.link ≠ new)
    (hs : s.red.link ≠ .inStep) : PairStands { s with red := s.red.linkedTo new } (linkTo new cause s) := by
  unfold linkTo
  rw [if_neg h]
  dsimp only
  rw [if_neg hs]
  exact PairStands.raise rfl ..

theorem linkTo_mode_of_not_inStep {new : Link} (cause : Nat) {s : State} (hs : s.red.link ≠ .inStep) :
    (linkTo new cause s).mode = s.mode := by
  unfold linkTo
  refine ite_keeps State.mode rfl ?_
  dsimp only
  rw [if_neg hs]
  exact raise_mode ..

theorem refuseHeld_empties (s : State) :
    PairStands { s with red := { s.red with held := [], forwarded := [] } } (refuseHeld s) :=
  (PairStands.refl _).foldl _ fun y _ => .ite (.refl y) ((PairStands.refl y).finish ..)

/-- A link that leaves IN_STEP loses what it held; a STANDBY device takes T9, and T10 with a grant that it keeps. -/
theorem pairStands_linkTo_of_inStep {new : Link} (cause : Nat) {s : State} (h : s.red.link ≠ new)
    (hs : s.red.link = .inStep) :
    (s.mode ≠ .standby → PairStands { s with red := (s.red.linkedTo new).lost (keepsGrant s) } (linkTo new cause s)
        ∧ (linkTo new cause s).mode = s.mode)
      ∧ (s.mode = .standby → keepsGrant s = false →
        PairStands { s with red := (s.red.linkedTo new).lost false } (linkTo new cause s)
          ∧ (linkTo new cause s).mode = .isolated)
      ∧ (s.mode = .standby → keepsGrant s = true → ∃ g,
        PairStands { s with red := ((s.red.linkedTo new).lost true).acquired g } (linkTo new cause s)
          ∧ (linkTo new cause s).mode = .active) := by
  unfold linkTo
  rw [if_neg h]
  extract_lets old keepItems _ linked raised held keep _ dropped _ filled moved
  rw [if_pos hs]
  have hraised : PairStands { s with red := s.red.linkedTo new } raised := PairStands.raise rfl ..
  have hheld : PairStands { s with red := { s.red.linkedTo new with held := [], forwarded := [] } } held :=
    (hraised.onCourse (fun r => { r with held := [], forwarded := [] })).trans (refuseHeld_empties raised)
  have hcourse := hheld.course
  have hmode : held.mode = s.mode := ((refuseHeld_moves (.refl [.host, .red, .out] raised)).same .mode rfl).trans (raise_mode ..)
  have hclock : held.clock = s.clock := ((refuseHeld_moves (.refl [.host, .red, .out] raised)).same .clock rfl).trans (raise_clock ..)
  have hkeep : keep = keepsGrant s := by
    have hgranted : held.red.granted = s.red.granted := (congrArg Red.granted hcourse :)
    have hrenewed : held.red.renewed = s.red.renewed := (congrArg Red.renewed hcourse :)
    have hterm : held.red.term = s.red.term := (congrArg Red.term hcourse :)
    simp only [keep, keepsGrant, hgranted, hrenewed, hterm, hclock]
  have hfilled : PairStands { s with red := (s.red.linkedTo new).lost (keepsGrant s) } filled ∧ filled.mode = s.mode := by
    have hfill : filled = { dropped with red := { dropped.red with filling := false, fillLeft := [] } } := rfl
    by_cases hk : keep = true
    · have hdropped : dropped = held := if_pos hk
      have hlost := hheld.onCourse (fun r => { r with filling := false, fillLeft := [] })
      rw [← hkeep, hk]
      rw [hfill, hdropped]
      exact ⟨hlost, hmode⟩
    · have hdropped : dropped = { held with red := { held.red with grant := false, granted := false, t7Due := false } } :=
        if_neg hk
      have hlost := (hheld.onCourse (fun r => { r with grant := false, granted := false, t7Due := false })).onCourse
        (fun r => { r with filling := false, fillLeft := [] })
      rw [← hkeep, Bool.eq_false_iff.mpr hk]
      rw [hfill, hdropped]
      exact ⟨hlost, hmode⟩
  obtain ⟨hfilled, hfilledMode⟩ := hfilled
  have hmoved : PairStands { s with red := (s.red.linkedTo new).lost (keepsGrant s) } moved := hfilled.applyTransition 9 2 rfl
  have hmovedMode : moved.mode = .isolated := applyTransition_mode ..
  refine ⟨fun hm => ?stays, fun hm hk => ?falls, fun hm hk => ?keeps⟩
  case stays =>
    rw [if_neg (hfilledMode ▸ hm)]
    exact ⟨hfilled, hfilledMode⟩
  case falls =>
    rw [if_pos (hfilledMode.trans hm), if_neg (by rw [hkeep, hk]; decide)]
    exact ⟨hk ▸ hmoved, hmovedMode⟩
  case keeps =>
    rw [if_pos (hfilledMode.trans hm), if_pos (hkeep.trans hk)]
    rw [hk] at hmoved
    have hacquired := (hmoved.onCourse (Red.acquired (moved.red.peer.gen + 1))).trans (pairStands_acquireLease ..)
    exact ⟨_, hacquired.applyTransition 10 2 rfl, applyTransition_mode ..⟩

/-- The pair's course beside the lease, the grant and what a loss of IN_STEP discards. -/
def Red.beyondLoss (r : Red) : Red :=
  { r.course with
    lease := false, grant := false, granted := false, t6Due := false, t7Due := false, t10Due := false, gen := 0
    held := [], forwarded := [], filling := false, fillLeft := [] }

theorem Red.beyondLoss_of_course {a b : Red} (h : a.course = b.course) : a.beyondLoss = b.beyondLoss := by
  have hbeyond (r : Red) : r.beyondLoss = r.course.beyondLoss := rfl
  rw [hbeyond a, hbeyond b, h]

theorem PairStands.beyondLoss {s u : State} (h : PairStands s u) : u.red.beyondLoss = s.red.beyondLoss :=
  Red.beyondLoss_of_course h.course

theorem Red.beyondLoss_lost (keep : Bool) (r : Red) : (r.lost keep).beyondLoss = r.beyondLoss := by cases keep <;> rfl

/-- A link that changes its state: the pair beside the lease and the losses, the partner's address, and the mode. -/
theorem linkTo_changes {new : Link} (cause : Nat) {s : State} (h : s.red.link ≠ new) :
    (linkTo new cause s).red.beyondLoss = (s.red.linkedTo new).beyondLoss
      ∧ (linkTo new cause s).host.partnerAddr = s.host.partnerAddr
      ∧ ((linkTo new cause s).mode = s.mode ∨ (linkTo new cause s).mode = .isolated ∨ (linkTo new cause s).mode = .active) := by
  by_cases hs : s.red.link = .inStep
  · obtain ⟨hstays, hfalls, hkeeps⟩ := pairStands_linkTo_of_inStep cause h hs
    by_cases hm : s.mode = .standby
    · by_cases hk : keepsGrant s = true
      · obtain ⟨g, hpair, hmode⟩ := hkeeps hm hk
        exact ⟨hpair.beyondLoss.trans rfl, hpair.partnerAddr, .inr (.inr hmode)⟩
      · obtain ⟨hpair, hmode⟩ := hfalls hm (Bool.eq_false_iff.mpr hk)
        exact ⟨hpair.beyondLoss.trans (Red.beyondLoss_lost ..), hpair.partnerAddr, .inr (.inl hmode)⟩
    · obtain ⟨hpair, hmode⟩ := hstays hm
      exact ⟨hpair.beyondLoss.trans (Red.beyondLoss_lost ..), hpair.partnerAddr, .inl hmode⟩
  · have hpair := pairStands_linkTo_of_not_inStep cause h hs
    exact ⟨hpair.beyondLoss, hpair.partnerAddr, .inl (linkTo_mode_of_not_inStep cause hs)⟩

theorem linkTo_link (new : Link) (cause : Nat) (s : State) : (linkTo new cause s).red.link = new :=
  (congrArg Prod.fst (tally_linkTo new cause s) :)

theorem linkTo_clock (new : Link) (cause : Nat) (s : State) : (linkTo new cause s).clock = s.clock :=
  (linkTo_moves new cause (.refl [.mode, .aon, .pins, .start, .flash, .host, .evt, .pwr, .xpt, .cue, .red, .lane, .flow,
    .cmp, .aud, .out] s)).same .clock rfl

/-! The end of a lease (R475). -/

theorem endLease_inStep (state : Nat) {s : State} (hl : s.red.lease = true) (hm : s.mode = .active)
    (hp : paired s = true) (hs : inStep s = true) :
    PairStands { s with red := { s.red with t6Due := true } } (endLease state s) ∧ (endLease state s).mode = .active := by
  have hgoes : endLease state s = if s.red.t6Due then s
      else raiseLease state { s with red := { s.red with t6Due := true, cnt := bump s.red.cnt 11 } } := by
    unfold endLease
    rw [if_neg (by simp [hl]), if_pos (by simp [hm, hp, hs])]
  rw [hgoes]
  split
  next hdue =>
    have hcourse : s.red.course = { s.red with t6Due := true }.course := by rw [← hdue]
    exact ⟨Prod.ext hcourse rfl, hm⟩
  next => exact ⟨PairStands.raise rfl .., (raise_mode ..).trans hm⟩

/-- A transition to ISOLATED of a device that is not in step: a resynchronisation ends with it (Table 14.4). -/
theorem pairStands_transition_isolated (n cause : Nat) {s : State} (hs : s.red.link ≠ .inStep) :
    PairStands s (transition n .isolated cause s)
      ∨ (s.red.link = .resyncing ∧ PairStands { s with red := s.red.linkedTo .linked } (transition n .isolated cause s)) := by
  have happlied : PairStands s (applyTransition n .isolated cause s) := (PairStands.refl s).applyTransition n cause rfl
  have hlink : (applyTransition n .isolated cause s).red.link = s.red.link := (congrArg Red.link happlied.course :)
  unfold transition
  dsimp only
  rw [if_neg (by decide)]
  split
  next hfalls =>
    have hresync : s.red.link = .resyncing := by
      simp only [hlink, Bool.or_eq_true, decide_eq_true_eq] at hfalls
      exact hfalls.resolve_left hs
    refine .inr ⟨hresync, (happlied.onCourse (Red.linkedTo .linked)).trans (pairStands_linkTo_of_not_inStep 3 ?_ ?_)⟩
    · rw [hlink, hresync]; decide
    · rw [hlink]; exact hs
  next => exact .inl happlied

theorem dropLease_moved (state : Nat) (s : State) : Moves [.pins, .flash, .evt, .red, .lane, .out] s (dropLease state s) :=
  dropLease_moves state (.refl _ s)

/-- Devices on one course agree on lease, grant and generation. -/
theorem Red.lease_of_course {a b : Red} (h : a.course = b.course) : a.lease = b.lease ∧ a.grant = b.grant ∧ a.gen = b.gen :=
  ⟨(congrArg Red.lease h :), (congrArg Red.grant h :), (congrArg Red.gen h :)⟩

/-- Lease, grant and generation of a device that is not in step stand through a transition to ISOLATED. -/
theorem transition_isolated_lease (n cause : Nat) {s : State} (hs : s.red.link ≠ .inStep) :
    (transition n .isolated cause s).red.lease = s.red.lease ∧ (transition n .isolated cause s).red.grant = s.red.grant
      ∧ (transition n .isolated cause s).red.gen = s.red.gen := by
  rcases pairStands_transition_isolated n cause hs with hpair | ⟨-, hpair⟩
  · exact Red.lease_of_course hpair.course
  · exact Red.lease_of_course (b := s.red.linkedTo .linked) hpair.course

theorem dropLease_paired (state : Nat) (s : State) : paired (dropLease state s) = paired s := by
  have hstart : (dropLease state s).start = s.start := (dropLease_moved state s).same .start rfl
  unfold paired
  rw [hstart]

theorem dropLease_link (state : Nat) (s : State) : (dropLease state s).red.link = s.red.link := by
  by_cases h : s.red.lease = true ∨ s.red.grant = true
  · exact (congrArg Red.link (pairStands_dropLease state h).course :)
  · rw [dropLease_of_none state (by simpa using fun hl => h (.inl hl)) (by simpa using fun hg => h (.inr hg))]

/-- A dropped lease: neither lease nor grant, the generation stands, and LEASE_OUT is low if anything was held. -/
theorem dropLease_drops (state : Nat) (s : State) :
    (dropLease state s).red.lease = false ∧ (dropLease state s).red.grant = false
      ∧ (dropLease state s).red.gen = s.red.gen
      ∧ ((s.red.lease = true ∨ s.red.grant = true) → (dropLease state s).pins.leaseOut = false) := by
  by_cases h : s.red.lease = true ∨ s.red.grant = true
  · have hcourse := (pairStands_dropLease state h).course
    exact ⟨(congrArg Red.lease hcourse :), (congrArg Red.grant hcourse :), (congrArg Red.gen hcourse :),
      leaseOut_dropLease state⟩
  · have hl : s.red.lease = false := by simpa using fun hl => h (.inl hl)
    have hg : s.red.grant = false := by simpa using fun hg => h (.inr hg)
    rw [dropLease_of_none state hl hg]
    exact ⟨hl, hg, rfl, fun held => absurd held h⟩

/-- Out of step, a lease that ends is dropped; an ACTIVE holder of a pair takes T8. -/
theorem endLease_of_ends (state : Nat) {s : State}
    (h : ¬(s.red.lease = true ∧ s.mode = .active ∧ paired s = true ∧ inStep s = true)) :
    endLease state s = if s.red.lease = true ∧ s.mode = .active ∧ paired s = true
      then transition 8 .isolated 2 (dropLease state s) else dropLease state s := by
  have hmode : (dropLease state s).mode = s.mode := (dropLease_moved state s).same .mode rfl
  unfold endLease
  dsimp only
  rw [hmode, dropLease_paired]
  by_cases hl : s.red.lease = true
  · by_cases hactive : s.mode = .active ∧ paired s = true
    · obtain ⟨hm, hp⟩ := hactive
      have hs : inStep s = false := Bool.eq_false_iff.mpr fun hs => h ⟨hl, hm, hp, hs⟩
      simp [hl, hm, hp, hs]
    · simp only [hl, true_and, if_neg hactive]
      have hnot : ¬ (decide (s.mode = .active) && paired s) = true := by simpa using hactive
      simp [hnot]
  · simp [hl]

/-- In every other case lease and grant are gone; an ACTIVE device of a pair takes T8. -/
theorem endLease_ends (state : Nat) {s : State}
    (h : ¬(s.red.lease = true ∧ s.mode = .active ∧ paired s = true ∧ inStep s = true)) :
    (endLease state s).red.lease = false ∧ (endLease state s).red.grant = false ∧ (endLease state s).red.gen = s.red.gen
      ∧ ((s.red.lease = true ∨ s.red.grant = true) → (endLease state s).pins.leaseOut = false)
      ∧ (s.red.lease = true → s.mode = .active → paired s = true → (endLease state s).mode = .isolated) := by
  obtain ⟨hlease, hgrant, hgen, hout⟩ := dropLease_drops state s
  rw [endLease_of_ends state h]
  by_cases hfalls : s.red.lease = true ∧ s.mode = .active ∧ paired s = true
  · obtain ⟨hl, hm, hp⟩ := hfalls
    have hnot : (dropLease state s).red.link ≠ .inStep := by
      rw [dropLease_link]
      exact fun hs => h ⟨hl, hm, hp, by simp [inStep, hs]⟩
    obtain ⟨hl', hg', hn'⟩ := transition_isolated_lease 8 2 hnot
    rw [if_pos ⟨hl, hm, hp⟩]
    exact ⟨hl'.trans hlease, hg'.trans hgrant, hn'.trans hgen,
      fun held => (transition_leaseOut 8 2 _ rfl).trans (hout held), fun _ _ _ => transition_mode ..⟩
  · rw [if_neg hfalls]
    exact ⟨hlease, hgrant, hgen, hout, fun hl hm hp => absurd ⟨hl, hm, hp⟩ hfalls⟩

/-- Beside the lease, its end leaves a pair whose link is neither in step nor resynchronising. -/
theorem beyondLoss_endLease (state : Nat) {s : State} (hs : s.red.link ≠ .inStep) (hr : s.red.link ≠ .resyncing) :
    (endLease state s).red.beyondLoss = s.red.beyondLoss ∧ (endLease state s).host.partnerAddr = s.host.partnerAddr := by
  have hdrop : (dropLease state s).red.beyondLoss = s.red.beyondLoss
      ∧ (dropLease state s).host.partnerAddr = s.host.partnerAddr := by
    by_cases h : s.red.lease = true ∨ s.red.grant = true
    · have hpair := pairStands_dropLease state h
      exact ⟨hpair.beyondLoss, hpair.partnerAddr⟩
    · rw [dropLease_of_none state (by simpa using fun hl => h (.inl hl)) (by simpa using fun hg => h (.inr hg))]
      exact ⟨rfl, rfl⟩
  have hlink : (dropLease state s).red.link = s.red.link := (congrArg Red.link hdrop.1 :)
  have hnot : ¬ (decide (s.mode = .active) && paired s && inStep s) = true := by simp [inStep, hs]
  unfold endLease
  rw [if_neg hnot]
  dsimp only
  split
  · exact hdrop
  · split
    · rcases pairStands_transition_isolated 8 2 (s := dropLease state s) (hlink ▸ hs) with hpair | ⟨hresync, -⟩
      · exact ⟨hpair.beyondLoss.trans hdrop.1, hpair.partnerAddr.trans hdrop.2⟩
      · exact absurd (hlink ▸ hresync) hr
    · exact hdrop

/-! Grants (R471, R473, R474). -/

/-- The term, the instant and the origin of a grant. -/
def Red.renewedFor (term now : Nat) (byCommand : Bool) (r : Red) : Red :=
  { r with term := term, renewed := now, byCommand := byCommand }

theorem pairStands_sendClaim (s : State) : PairStands s (sendClaim s) :=
  .ite ((PairStands.refl s).sendHalyard ..) (.refl s)

/-- A lease or a pending grant in hand is renewed. -/
theorem grantLease_renews (term : Nat) (b : Bool) {s : State}
    (h : (s.red.lease = true ∧ s.red.t6Due = false) ∨ s.red.grant = true) :
    grantLease term b s = { s with red := s.red.renewedFor term s.clock.clk b } := if_pos (by simpa using h)

/-- In step a grant becomes pending. -/
theorem grantLease_pends (term : Nat) (b : Bool) {s : State}
    (h : ¬((s.red.lease = true ∧ s.red.t6Due = false) ∨ s.red.grant = true)) (hs : inStep s = true) :
    PairStands { s with red := { s.red.renewedFor term s.clock.clk b with grant := true } } (grantLease term b s) := by
  unfold grantLease
  dsimp only
  rw [if_neg (by simpa using h), if_pos hs]
  have hpends := (PairStands.refl { s with red := { s.red.renewedFor term s.clock.clk b with grant := true } }).raiseLease 2
  exact .ite hpends (hpends.trans (pairStands_sendClaim _))

/-- Out of step the lease is acquired with a higher generation than either device's. -/
theorem grantLease_acquires (term : Nat) (b : Bool) {s : State}
    (h : ¬((s.red.lease = true ∧ s.red.t6Due = false) ∨ s.red.grant = true)) (hs : inStep s = false) :
    ∃ due, PairStands { s with red := { (s.red.renewedFor term s.clock.clk b).acquired
      ((max s.red.gen s.red.peer.gen + 1) % 0x100000000) with t10Due := due } } (grantLease term b s) := by
  have hacquired := pairStands_acquireLease ((max s.red.gen s.red.peer.gen + 1) % 0x100000000)
    { s with red := s.red.renewedFor term s.clock.clk b }
  unfold grantLease
  dsimp only
  rw [if_neg (by simpa using h), if_neg (by simp [hs])]
  split
  · exact ⟨_, hacquired.modeDecision⟩
  · split
    · exact ⟨true, hacquired.onCourse (fun r => { r with t10Due := true })⟩
    · exact ⟨_, hacquired⟩

/-! Resynchronisation (R477, R478). -/

/-- The pair's state with a resynchronisation just started. -/
def Red.resyncFrom (source : Bool) (tick now : Nat) (r : Red) : Red :=
  { r.linkedTo .resyncing with resync := some { source := source, tick := tick, started := now }, retryAt := none }

theorem startResync_starts {s : State} (hl : s.red.link = .linked) (hm : resyncMode s.mode.code = true)
    (hp : resyncMode s.red.peer.mode = true) :
    PairStands { s with red := s.red.resyncFrom (isSource s) ((s.clock.now / 500000 + 1) % 0x100000000) s.clock.clk }
      (startResync s) := by
  have hlinked := pairStands_linkTo_of_not_inStep (new := .resyncing) 0 (s := s) (by rw [hl]; decide) (by rw [hl]; decide)
  have hclk : (linkTo .resyncing 0 s).clock.clk = s.clock.clk := congrArg Clock.clk (linkTo_clock ..)
  unfold startResync
  rw [if_pos (by simp [hl, hm, hp])]
  refine PairStands.raise ?_ ..
  rw [hclk]
  exact hlinked.onCourse (fun r => { r with
    resync := some { source := isSource s, tick := (s.clock.now / 500000 + 1) % 0x100000000, started := s.clock.clk }
    retryAt := none })

/-- Resynchronisation starts, or nothing happens. -/
theorem tryResync_or (s : State) : tryResync s = s ∨ (s.red.link = .linked ∧ PairStands
    { s with red := s.red.resyncFrom (isSource s) ((s.clock.now / 500000 + 1) % 0x100000000) s.clock.clk } (tryResync s)) := by
  by_cases hwanted : (halyardRuns s && resyncWanted s) = true
  · have htries : tryResync s = startResync s := if_pos hwanted
    rw [htries]
    by_cases hstarts : (decide (s.red.link = .linked) && resyncMode s.mode.code && resyncMode s.red.peer.mode) = true
    · simp only [Bool.and_eq_true, decide_eq_true_eq] at hstarts
      obtain ⟨⟨hl, hm⟩, hp⟩ := hstarts
      exact .inr ⟨hl, startResync_starts hl hm hp⟩
    · exact .inl (if_neg hstarts)
  · exact .inl (if_neg hwanted)

end Sys2Proof.Machine
end

section
/-! PROOFS. The commands of chapter 14 (O45). -/

-- The package is checked as one text; elaborating these proofs in order keeps the number of threads small.
set_option Elab.async false

namespace Sys2Proof.Machine

/-- A lease or a pending grant that a new grant renews (R471). -/
abbrev Red.renewable (r : Red) : Prop := (r.lease = true ∧ r.t6Due = false) ∨ r.grant = true

/-- A grant names its term and its origin; it renews, becomes pending in step, or acquires the lease. -/
theorem grantLease_grants (term : Nat) (b : Bool) (s : State) :
    (grantLease term b s).red.renewed = s.clock.clk ∧ (grantLease term b s).red.term = term
      ∧ (grantLease term b s).red.byCommand = b ∧ (grantLease term b s).red.lastEdge = s.red.lastEdge
      ∧ (s.red.renewable → (grantLease term b s).red.lease = s.red.lease ∧ (grantLease term b s).red.grant = s.red.grant
        ∧ (grantLease term b s).red.gen = s.red.gen)
      ∧ (¬s.red.renewable → inStep s = true → (grantLease term b s).red.grant = true
        ∧ (grantLease term b s).red.lease = s.red.lease ∧ (grantLease term b s).red.gen = s.red.gen)
      ∧ (¬s.red.renewable → inStep s = false → (grantLease term b s).red.lease = true
        ∧ (grantLease term b s).red.grant = false
        ∧ (grantLease term b s).red.gen = (max s.red.gen s.red.peer.gen + 1) % 0x100000000) := by
  by_cases h : s.red.renewable
  · rw [grantLease_renews term b h]
    exact ⟨rfl, rfl, rfl, rfl, fun _ => ⟨rfl, rfl, rfl⟩, fun hnot => absurd h hnot, fun hnot => absurd h hnot⟩
  by_cases hs : inStep s = true
  · have hcourse := (grantLease_pends term b h hs).course
    exact ⟨(congrArg Red.renewed hcourse :), (congrArg Red.term hcourse :), (congrArg Red.byCommand hcourse :),
      (congrArg Red.lastEdge hcourse :), fun held => absurd held h,
      fun _ _ => ⟨(congrArg Red.grant hcourse :), (congrArg Red.lease hcourse :), (congrArg Red.gen hcourse :)⟩,
      fun _ hout => absurd hs (by simp [hout])⟩
  · obtain ⟨_, hpair⟩ := grantLease_acquires term b h (Bool.eq_false_iff.mpr hs)
    have hcourse := hpair.course
    exact ⟨(congrArg Red.renewed hcourse :), (congrArg Red.term hcourse :), (congrArg Red.byCommand hcourse :),
      (congrArg Red.lastEdge hcourse :), fun held => absurd held h, fun _ hin => absurd hin hs,
      fun _ _ => ⟨(congrArg Red.lease hcourse :), (congrArg Red.grant hcourse :), (congrArg Red.gen hcourse :)⟩⟩

/-! The commands. -/

theorem runCommand_mode {op : Op} {own : Refuse} {t : Nat} {c : HostCmd} {s : State} (eff : Effect)
    (h : accepted op own t c s = true) : (runCommand op own eff t c s).mode = (eff (begun op t c s) c).1.mode :=
  (runCommand_after_effect eff h).same .mode rfl

theorem runCommand_pins {op : Op} {own : Refuse} {t : Nat} {c : HostCmd} {s : State} (eff : Effect)
    (h : accepted op own t c s = true) : (runCommand op own eff t c s).pins = (eff (begun op t c s) c).1.pins :=
  (runCommand_after_effect eff h).same .pins rfl

/-- RED_LEASE_RELEASE is refused on an unpaired device (Table 14.12). -/
theorem paired_of_release {t : Nat} {c : HostCmd} {s : State}
    (h : accepted .redLeaseRelease refuseRedLeaseRelease t c s = true) : paired s = true := by
  have hown : refuseRedLeaseRelease (begun .redLeaseRelease t c s) c = none := by
    rw [accepted, Bool.and_eq_true, Option.isNone_iff_eq_none] at h
    exact h.2
  simp only [refuseRedLeaseRelease, firstRefusal_cons_eq_none, refuseIf_eq_none] at hown
  obtain ⟨-, -, hpaired, -⟩ := hown
  exact (Bool.not_eq_false' _).mp hpaired

/-- RED_RESYNC is refused without a halyard (Table 14.12). -/
theorem link_of_resync {t : Nat} {c : HostCmd} {s : State}
    (h : accepted .redResync refuseRedResync t c s = true) : s.red.link ≠ .down := by
  have hown : refuseRedResync (begun .redResync t c s) c = none := by
    rw [accepted, Bool.and_eq_true, Option.isNone_iff_eq_none] at h
    exact h.2
  simp only [refuseRedResync, firstRefusal_cons_eq_none, refuseIf_eq_none, Bool.or_eq_false_iff] at hown
  obtain ⟨-, -, ⟨-, hlink⟩, -⟩ := hown
  simpa using hlink

theorem startResync_of_not_linked {s : State} (h : s.red.link ≠ .linked) : startResync s = s := if_neg (by simp [h])

/-- A start of a resynchronisation: the link, the retry put off no longer, and where the snapshot is taken from. -/
theorem startResync_begins {s : State} (hl : s.red.link = .linked) (hm : resyncMode s.mode.code = true)
    (hp : resyncMode s.red.peer.mode = true) :
    (startResync s).red.link = .resyncing ∧ (startResync s).red.retryAt = none
      ∧ (startResync s).red.resync
        = some { source := isSource s, tick := (s.clock.now / 500000 + 1) % 0x100000000, started := s.clock.clk } := by
  have hcourse := (startResync_starts hl hm hp).course
  exact ⟨(congrArg Red.link hcourse :), (congrArg Red.retryAt hcourse :), (congrArg Red.resync hcourse :)⟩

/-- RED_RESYNC starts a resynchronisation with the next tick; a link in step is lost first (R461). -/
theorem effRedResync_begins (c : HostCmd) {s : State} (hdown : s.red.link ≠ .down) (hnot : s.red.link ≠ .resyncing)
    (hm : resyncMode s.mode.code = true) (hp : resyncMode s.red.peer.mode = true) :
    (effRedResync s c).1.red.link = .resyncing ∧ (effRedResync s c).1.red.retryAt = none
      ∧ ∃ x, (effRedResync s c).1.red.resync = some x ∧ x.tick = (s.clock.now / 500000 + 1) % 0x100000000
        ∧ x.started = s.clock.clk ∧ x.loaded = false ∧ (s.red.link = .linked → x.source = isSource s) := by
  by_cases hs : s.red.link = .inStep
  · have heffect : (effRedResync s c).1 = startResync (linkTo .linked 4 s) :=
      congrArg startResync (if_pos (by simp [inStep, hs]))
    obtain ⟨hbeyond, -, hmode⟩ := linkTo_changes (new := .linked) 4 (s := s) (by rw [hs]; decide)
    have hpeer : (linkTo .linked 4 s).red.peer = s.red.peer := (congrArg Red.peer hbeyond :)
    have hable : resyncMode (linkTo .linked 4 s).mode.code = true := by
      rcases hmode with hmode | hmode | hmode
      · rw [hmode]; exact hm
      · rw [hmode]; rfl
      · rw [hmode]; rfl
    obtain ⟨hlink, hretry, hresync⟩ := startResync_begins (linkTo_link ..) hable (by rw [hpeer]; exact hp)
    rw [linkTo_clock] at hresync
    rw [heffect]
    exact ⟨hlink, hretry, _, hresync, rfl, rfl, rfl, fun hlinked => absurd (hs.symm.trans hlinked) (by decide)⟩
  · have hl : s.red.link = .linked := by
      cases hlink : s.red.link
      case linked => rfl
      case down => exact absurd hlink hdown
      case resyncing => exact absurd hlink hnot
      case inStep => exact absurd hlink hs
    have heffect : (effRedResync s c).1 = startResync s := congrArg startResync (if_neg (by simp [inStep, hs]))
    obtain ⟨hlink, hretry, hresync⟩ := startResync_begins hl hm hp
    rw [heffect]
    exact ⟨hlink, hretry, _, hresync, rfl, rfl, rfl, fun _ => rfl⟩

theorem effRedResync_of_resyncing (c : HostCmd) {s : State} (h : s.red.link = .resyncing) : (effRedResync s c).1 = s :=
  (congrArg startResync (if_neg (by simp [inStep, h]))).trans (startResync_of_not_linked (by rw [h]; decide))

theorem resync_of_course {a b : Red} (h : { a.course with items := [] } = { b.course with items := [] }) :
    a.link = b.link ∧ a.retryAt = b.retryAt ∧ a.resync = b.resync :=
  ⟨(congrArg Red.link h :), (congrArg Red.retryAt h :), (congrArg Red.resync h :)⟩

end Sys2Proof.Machine

section
open Sys2Proof Sys2Proof.Machine

/-- Settles O45, one case per command: the reports are answers; what a grant, the end of a lease and the start of a
resynchronisation make of the pair stands through the reply. -/
theorem redundancyCommandsTakeEffect : Obligations.RedundancyCommandsTakeEffect := by
  unfold Obligations.RedundancyCommandsTakeEffect
  refine ⟨?status, ?request, ?release, ?resync, ?health⟩
  case status =>
    intro t c s h
    exact congrArg _ (runCommand_answered h rfl)
  case health =>
    intro t c s h
    exact congrArg _ (runCommand_answered h rfl)
  case request =>
    intro t c s h
    have hrun := runCommand_answered (eff := effRedLeaseRequest) h rfl
    obtain ⟨hrenewed, hterm, hby, -, hrenews, hpends, hacquires⟩ :=
      grantLease_grants (u16 c.params 0) true (begun .redLeaseRequest t c s)
    refine ⟨_, congrArg Host.Outcome.next hrun, ?_⟩
    simp only [answered_red_renewed, answered_red_term, answered_red_byCommand, answered_red_lease, answered_red_grant,
      answered_red_gen]
    exact ⟨hrenewed, hterm, hby, hrenews, hpends, hacquires⟩
  case release =>
    intro t c s h
    have hrun := runCommand_answered (eff := effRedLeaseRelease) h rfl
    have hp : paired s = true := paired_of_release h
    refine ⟨_, congrArg Host.Outcome.next hrun, ?_⟩
    simp only [answered_red_lease, answered_red_grant, answered_red_gen, answered_red_t6Due, answered_mode, answered_pins]
    by_cases hkeeps : s.red.lease = true ∧ s.mode = .active ∧ inStep s = true
    · obtain ⟨hl, hm, hs⟩ := hkeeps
      obtain ⟨hpair, hmode⟩ := endLease_inStep 3 (s := onRed (fun r => { r with byCommand := true }) (begun .redLeaseRelease t c s))
        hl hm hp hs
      have hcourse := hpair.course
      exact ⟨(congrArg Red.gen hcourse :),
        fun _ _ _ => ⟨(congrArg Red.t6Due hcourse :), (congrArg Red.lease hcourse :).trans hl, hmode⟩,
        fun hnot => absurd ⟨hl, hm, hs⟩ hnot, fun _ _ hout => absurd hs (by simp [hout])⟩
    · obtain ⟨hlease, hgrant, hgen, hout, hfalls⟩ := endLease_ends 3
        (s := onRed (fun r => { r with byCommand := true }) (begun .redLeaseRelease t c s))
        (fun ⟨hl, hm, _, hs⟩ => hkeeps ⟨hl, hm, hs⟩)
      exact ⟨hgen, fun hl hm hs => absurd ⟨hl, hm, hs⟩ hkeeps, fun _ => ⟨hlease, hgrant, hout⟩,
        fun hl hm _ => hfalls hl hm hp⟩
  case resync =>
    intro t c s h
    have hrun : runCommand .redResync refuseRedResync effRedResync t c s
      = answered .redResync c .scheduled [] (effRedResync (begun .redResync t c s) c).1 := runCommand_answered h rfl
    have hcourse := course_items_of_alike (answered_red_alike .redResync c .scheduled []
      (effRedResync (begun .redResync t c s) c).1)
    obtain ⟨hlink, hretry, hresync⟩ := resync_of_course hcourse
    refine ⟨_, congrArg Host.Outcome.next hrun, ?_⟩
    rw [hlink, hretry, hresync]
    have hdown : s.red.link ≠ .down := link_of_resync h
    refine ⟨fun hnot hm hp => effRedResync_begins c hdown hnot hm hp, fun hresyncing => ?_⟩
    have hstays := effRedResync_of_resyncing c (s := begun .redResync t c s) hresyncing
    rw [hstays]
    exact ⟨hresyncing, rfl⟩
end
end

section
/-! PROOFS. The lease, the link and the health reports (O46). -/

-- The package is checked as one text; elaborating these proofs in order keeps the number of threads small.
set_option Elab.async false

namespace Sys2Proof.Machine

/-! What a device knows of its partner. -/

/-- What a device has heard from its partner: its HELLO, why it was incompatible, when it was heard last, its report and its
address. -/
def State.heard (s : State) : Hello × Option Nat × Nat × List Byte × Nat × Option Nat :=
  (s.red.peer, s.red.badCause, s.red.lastCtrl, s.red.peerReport, s.red.peerReportAt, s.host.partnerAddr)

theorem heard_of_beyondLoss {s x : State} (h : x.red.beyondLoss = s.red.beyondLoss)
    (ha : x.host.partnerAddr = s.host.partnerAddr) : x.heard = s.heard := by
  have hred : (x.red.peer, x.red.badCause, x.red.lastCtrl, x.red.peerReport, x.red.peerReportAt)
      = (s.red.peer, s.red.badCause, s.red.lastCtrl, s.red.peerReport, s.red.peerReportAt) :=
    (congrArg (fun r : Red => (r.peer, r.badCause, r.lastCtrl, r.peerReport, r.peerReportAt)) h :)
  simp only [Prod.mk.injEq] at hred
  simp only [State.heard, hred, ha]

theorem heard_of_pairStands {s x : State} (h : PairStands s x) : x.heard = s.heard :=
  heard_of_beyondLoss h.beyondLoss h.partnerAddr

theorem heard_linkTo (new : Link) (cause : Nat) (s : State) : (linkTo new cause s).heard = s.heard := by
  by_cases h : s.red.link = new
  · rw [linkTo_of_eq cause h]
  · obtain ⟨hbeyond, haddr, -⟩ := linkTo_changes cause h
    exact (heard_of_beyondLoss (s := { s with red := s.red.linkedTo new }) hbeyond haddr).trans rfl

theorem heard_notePeerMode (m : Nat) (s : State) :
    (notePeerMode m s).heard = (onRed (fun r => { r with peer := { r.peer with mode := m } }) s).heard :=
  ite_keeps State.heard (heard_linkTo ..) rfl

theorem heard_tryResync (s : State) : (tryResync s).heard = s.heard := by
  rcases tryResync_or s with hsame | ⟨-, hpair⟩
  · rw [hsame]
  · exact (heard_of_pairStands hpair).trans rfl

/-- With a link just LINKED a device whose lease yields stays LINKED, and knows what it knew. -/
theorem leaseConflict_keeps {s : State} (h : s.red.link = .linked) :
    (leaseConflict s).heard = s.heard ∧ (leaseConflict s).red.link = .linked := by
  unfold leaseConflict
  dsimp only
  split
  · have hred (x : State) : (raise 3 10 0xA011 0 [w32 s.red.gen, w32 s.red.peer.gen] x).red = x.red := raise_red ..
    obtain ⟨hbeyond, haddr⟩ := beyondLoss_endLease 3 (s := raise 3 10 0xA011 0 [w32 s.red.gen, w32 s.red.peer.gen] s)
      (by rw [hred, h]; decide) (by rw [hred, h]; decide)
    have hstands : PairStands s (raise 3 10 0xA011 0 [w32 s.red.gen, w32 s.red.peer.gen] s) := (PairStands.refl s).raise ..
    replace hbeyond := hbeyond.trans hstands.beyondLoss
    have hlink : (endLease 3 (raise 3 10 0xA011 0 [w32 s.red.gen, w32 s.red.peer.gen] s)).red.link = s.red.link :=
      (congrArg Red.link hbeyond :)
    exact ⟨heard_of_beyondLoss hbeyond (haddr.trans hstands.partnerAddr), hlink.trans h⟩
  · exact ⟨rfl, h⟩

theorem tryResync_link {s : State} (h : s.red.link ≠ .down) : (tryResync s).red.link ≠ .down := by
  rcases tryResync_or s with hsame | ⟨-, hpair⟩
  · rw [hsame]; exact h
  · have hlink : (tryResync s).red.link = .resyncing := (congrArg Red.link hpair.course :)
    rw [hlink]
    decide

/-- A link that is down rises with a HELLO. -/
theorem helloRaises (s : State) :
    (if s.red.link = .down then leaseConflict (linkTo .linked 0 s) else s).heard = s.heard
      ∧ (if s.red.link = .down then leaseConflict (linkTo .linked 0 s) else s).red.link ≠ .down := by
  split
  next =>
    obtain ⟨hheard, hlink⟩ := leaseConflict_keeps (linkTo_link .linked 0 s)
    exact ⟨hheard.trans (heard_linkTo ..), by rw [hlink]; decide⟩
  next h => exact ⟨rfl, h⟩

/-- A compatible HELLO: the partner is known, and the link is up (R462). -/
theorem takeHello_knows (h : Hello) (s : State) :
    (takeHello h s).red.peer = h ∧ (takeHello h s).red.badCause = none
      ∧ (takeHello h s).red.lastCtrl = s.red.lastCtrl ∧ (takeHello h s).host.partnerAddr = some h.addr
      ∧ (takeHello h s).red.link ≠ .down := by
  unfold takeHello
  extract_lets noted known _ addressed raised
  obtain ⟨hheard, hlink⟩ := helloRaises addressed
  have hnoted : noted.red.lastCtrl = s.red.lastCtrl := (congrArg (fun v => v.2.2.1) (heard_notePeerMode h.mode s) :)
  have hall := (heard_tryResync raised).trans hheard
  exact ⟨(congrArg (fun v => v.1) hall :), (congrArg (fun v => v.2.1) hall :),
    (congrArg (fun v => v.2.2.1) hall :).trans hnoted, (congrArg (fun v => v.2.2.2.2.2) hall :), tryResync_link hlink⟩

/-- A partner that has begun a resynchronisation is followed (R477). -/
theorem takeHello_resyncs {h : Hello} {s : State} (hruns : halyardRuns s = true) (hpartner : h.link = 2)
    (hretry : s.red.retryAt = none) (hl : s.red.link = .linked) (hm : resyncMode s.mode.code = true)
    (hp : resyncMode h.mode = true) : (takeHello h s).red.link = .resyncing := by
  have hnoted : notePeerMode h.mode s = onRed (fun r => { r with peer := { r.peer with mode := h.mode } }) s :=
    if_neg (by simp [hl])
  unfold takeHello
  extract_lets noted known _ addressed raised
  have hlink : addressed.red.link = .linked := by simpa [addressed, known, noted, hnoted] using hl
  have hraised : raised = addressed := if_neg (by rw [hlink]; decide)
  rw [hraised]
  have hmode : addressed.mode = s.mode := by simp [addressed, known, noted, hnoted]
  have hwanted : resyncWanted addressed = true := by
    simp [resyncWanted, addressed, known, noted, hnoted, hretry, hl, hpartner]
  have hable : halyardRuns addressed = true := by
    simp only [addressed, known, noted, hnoted]
    exact hruns
  have hstarts : tryResync addressed = startResync addressed := if_pos (by rw [hable, hwanted]; rfl)
  rw [hstarts]
  exact (startResync_begins hlink (by rw [hmode]; exact hm) hp).1

/-! Messages. -/

/-- Every message but a bulk one leaves on the control lane (R458). -/
theorem sendHalyard_out {c : Nat} {bulk : List Nat} {s : State} (h : usableLanes s = c :: bulk) (kind : Nat)
    (payload : List Byte) (hk : kind ≠ 11 ∧ kind ≠ 12) :
    (sendHalyard kind payload s).out = .halyard s.clock.clk c (tget 0 s.red.msgNo c) kind payload :: s.out := by
  have hlane : (if kind = 11 ∨ kind = 12 then bulk.headD c else c) = c := if_neg (by simp [hk.1, hk.2])
  unfold sendHalyard
  rw [h]
  dsimp only
  simp only [Bool.or_eq_true, decide_eq_true_eq, hlane]
  rfl

theorem usableLanes_congr {s x : State} (hl : x.lane = s.lane) (hs : x.start = s.start) : usableLanes x = usableLanes s := by
  have hlane : laneUsable x = laneUsable s := by
    funext i
    simp only [laneUsable, paired, hl, hs]
  simp only [usableLanes, hlane]

/-- The health that a device notes before it reports it, with a record of a change (R484). -/
def noteHealth (s : State) : State :=
  if healthNow s = s.red.health then s
  else raise 1 10 0xA040 0 [pack8 s.red.health (healthNow s) s.red.peer.health 0]
    (onRed (fun r => { r with health := healthNow s }) s)

theorem noteHealth_notes (s : State) :
    (noteHealth s).red = { s.red with health := healthNow s } ∧ (noteHealth s).out = s.out
      ∧ (noteHealth s).clock = s.clock ∧ usableLanes (noteHealth s) = usableLanes s := by
  unfold noteHealth
  split
  next h => exact ⟨by rw [h], rfl, rfl, rfl⟩
  next =>
    have hown := raise_own 1 10 0xA040 0 [pack8 s.red.health (healthNow s) s.red.peer.health 0]
      (onRed (fun r => { r with health := healthNow s }) s)
    exact ⟨hown.same .red rfl, hown.same .out rfl, hown.same .clock rfl,
      usableLanes_congr (hown.same .lane rfl) (hown.same .start rfl)⟩

theorem execHealthSend_notes {t : Nat} {s : State} (h : halyardRuns s = true) :
    exec (.healthSend t) s = .next (sendHalyard 10 (healthReport (noteHealth (advance t s))) (noteHealth (advance t s))) := by
  have hruns : halyardRuns (advance t s) = true := h
  exact congrArg Host.Outcome.next (if_neg (by simp [hruns]))

/-! The loss of the halyard (R461, Table 14.4). -/

theorem lostHalyard (cause : Nat) {s : State} (h : s.red.link ≠ .down) :
    (linkTo .down cause s).red.link = .down ∧ (linkTo .down cause s).red.held = (if inStep s then [] else s.red.held)
      ∧ (linkTo .down cause s).red.kept = [] ∧ (linkTo .down cause s).red.items = []
      ∧ (inStep s = true → s.mode = .standby → s.red.granted = false →
        (linkTo .down cause s).mode = .isolated ∧ (linkTo .down cause s).red.grant = false) := by
  obtain ⟨hbeyond, -, -⟩ := linkTo_changes cause h
  refine ⟨linkTo_link .., ?held, (congrArg Red.kept hbeyond :), (congrArg Red.items hbeyond :), ?falls⟩
  case held =>
    split
    next hin =>
      obtain ⟨hstays, hfalls, hkeeps⟩ := pairStands_linkTo_of_inStep cause h (by simpa [inStep] using hin)
      by_cases hm : s.mode = .standby
      · by_cases hk : keepsGrant s = true
        · obtain ⟨_, hpair, -⟩ := hkeeps hm hk
          exact (congrArg Red.held hpair.course :)
        · exact (congrArg Red.held (hfalls hm (Bool.eq_false_iff.mpr hk)).1.course :)
      · exact (congrArg Red.held (hstays hm).1.course :)
    next hout =>
      exact (congrArg Red.held (pairStands_linkTo_of_not_inStep cause h (by simpa [inStep] using hout)).course :)
  case falls =>
    intro hin hm hgranted
    have hk : keepsGrant s = false := by simp [keepsGrant, hgranted]
    obtain ⟨-, hfalls, -⟩ := pairStands_linkTo_of_inStep cause h (by simpa [inStep] using hin)
    obtain ⟨hpair, hmode⟩ := hfalls hm hk
    exact ⟨hmode, (congrArg Red.grant hpair.course :)⟩

/-! What the messages do. -/

theorem execHalyardHello_compatible {t : Nat} {h : Hello} {s : State} (hruns : halyardRuns s = true)
    (hfault : helloFault s h = none) :
    exec (.halyardHello t h false) s = .next (takeHello h (heardControl (advance t s))) := by
  have hr : halyardRuns (advance t s) = true := hruns
  have hf : helloFault (heardControl (advance t s)) h = none := hfault
  refine congrArg Host.Outcome.next ?_
  rw [if_neg (by simp [hr]), if_neg (by decide)]
  dsimp only
  rw [hf]

/-- A cause of incompatibility is recorded where it is new. -/
theorem execHalyardHello_incompatible {t n : Nat} {h : Hello} {s : State} (hruns : halyardRuns s = true)
    (hfault : helloFault s h = some n) : ∃ x, exec (.halyardHello t h false) s = .next (linkTo .down 0 x)
      ∧ x.red.badCause = some n ∧ x.red.peer = s.red.peer := by
  have hr : halyardRuns (advance t s) = true := hruns
  have hf : helloFault (heardControl (advance t s)) h = some n := hfault
  have hexec : exec (.halyardHello t h false) s = .next (linkTo .down 0
      (if (heardControl (advance t s)).red.badCause = some n then heardControl (advance t s)
        else raise 3 10 0xA002 0 [pack8_16 n 0 h.addr]
          (onRed (fun r => { r with badCause := some n }) (heardControl (advance t s))))) := by
    refine congrArg Host.Outcome.next ?_
    rw [if_neg (by simp [hr]), if_neg (by decide)]
    dsimp only
    rw [hf]
  refine ⟨_, hexec, ?_⟩
  split
  next hknown => exact ⟨hknown, rfl⟩
  next =>
    rw [raise_red]
    exact ⟨rfl, rfl⟩

theorem execHalyardHealth_notes {t : Nat} {p : List Byte} {s : State} (hruns : halyardRuns s = true) :
    exec (.halyardHealth t p false) s = .next (notePeerMode (u8 p 1 % 8) (onRed (fun r => { r with
      peerReport := p.take 20, peerReportAt := max s.clock.clk t, peer := { r.peer with health := u8 p 0 % 4 } })
      (heardControl (advance t s)))) := by
  have hr : halyardRuns (advance t s) = true := hruns
  refine congrArg Host.Outcome.next ?_
  rw [if_neg (by simp [hr]), if_neg (by decide)]
  rfl

theorem execHalyardLeaseClaim_waits {t g : Nat} {s : State} (hruns : halyardRuns s = true) (hs : inStep s = true) :
    exec (.halyardLeaseClaim t g false) s
      = .next (onRed (fun r => { r with claim := some g }) (heardControl (advance t s))) := by
  have hr : halyardRuns (advance t s) = true := hruns
  have hin : inStep (heardControl (advance t s)) = true := hs
  refine congrArg Host.Outcome.next ?_
  rw [if_neg (by simp [hr]), if_neg (by decide)]
  exact if_pos hin

/-! The referee (R471). -/

/-- An edge of LEASE_IN that is not ignored. -/
def leaseEdge (s : State) : State :=
  let second := match s.red.lastEdge with | some a => decide (s.clock.clk ≤ a + s.red.termMs * 1000000) | none => false
  let s := onRed (fun r => { r with lastEdge := some s.clock.clk }) s
  if s.red.lease || s.red.grant || second then grantLease s.red.termMs false s else s

theorem execLeaseInEdge_taken {t : Nat} {s : State} (hp : paired s = true) (hsrc : s.red.leaseSrc ≠ 1)
    (hm : s.mode.mayLease = true) (hlate : ∀ a, s.red.lastEdge = some a → a + 1000000 ≤ max s.clock.clk t) :
    exec (.leaseInEdge t) s = .next (leaseEdge (advance t s)) := by
  refine congrArg Host.Outcome.next (if_neg fun hignored => ?_)
  simp only [Bool.or_eq_true, Bool.not_eq_true', beq_iff_eq] at hignored
  rcases hignored with ((hunpaired | hother) | hmode) | hsoon
  · exact absurd (hp.symm.trans hunpaired) (by decide)
  · exact hsrc hother
  · exact absurd (hm.symm.trans hmode) (by decide)
  · split at hsoon
    next a ha => exact absurd (of_decide_eq_true hsoon) (Nat.not_lt.mpr (hlate a ha))
    next => cases hsoon

/-- An edge renews, or as the second one in time grants (R471). -/
theorem leaseEdge_grants {s : State} (h : s.red.lease = true ∨ s.red.grant = true
      ∨ ∃ a, s.red.lastEdge = some a ∧ s.clock.clk ≤ a + s.red.termMs * 1000000) :
    leaseEdge s = grantLease s.red.termMs false (onRed (fun r => { r with lastEdge := some s.clock.clk }) s) := by
  refine if_pos ?_
  rcases h with hl | hg | ⟨a, ha, hin⟩
  · simp [hl]
  · simp [hg]
  · simp [ha, hin]

theorem leaseEdge_waits {s : State} (hl : s.red.lease = false) (hg : s.red.grant = false)
    (h : ∀ a, s.red.lastEdge = some a → a + s.red.termMs * 1000000 < s.clock.clk) :
    leaseEdge s = onRed (fun r => { r with lastEdge := some s.clock.clk }) s := by
  have hsecond : (match s.red.lastEdge with
      | some a => decide (s.clock.clk ≤ a + s.red.termMs * 1000000) | none => false) = false := by
    split
    next a ha => exact decide_eq_false (Nat.not_le.mpr (h a ha))
    next => rfl
  unfold leaseEdge
  dsimp only
  rw [hsecond]
  exact if_neg (by simp [hl, hg])

theorem leaseEdge_lastEdge (s : State) : (leaseEdge s).red.lastEdge = some s.clock.clk := by
  refine ite_keeps (fun x : State => x.red.lastEdge) ?_ rfl
  obtain ⟨-, -, -, hedge, -⟩ := grantLease_grants s.red.termMs false
    (onRed (fun r => { r with lastEdge := some s.clock.clk }) s)
  exact hedge

end Sys2Proof.Machine

section
open Sys2Proof Sys2Proof.Machine

/-- Settles O46, one case per event: a bad message only counts; an edge is a grant and a lapse the end of a lease; a HELLO
makes the partner known; what is sent leaves on the control lane; the loss of the halyard is that of IN_STEP. -/
theorem leaseAndLinkEventsTakeEffect : Obligations.LeaseAndLinkEventsTakeEffect := by
  unfold Obligations.LeaseAndLinkEventsTakeEffect
  refine ⟨?bad, ?edge, ?lapse, ?compatible, ?incompatible, ?sent, ?loss, ?claim, ?health⟩
  case bad =>
    intro t k a w i h r p s hruns
    have hr : ¬ (!halyardRuns (advance t s)) = true := by
      have hadvanced : halyardRuns (advance t s) = true := hruns
      simp [hadvanced]
    exact ⟨congrArg _ (if_neg hr), congrArg _ (if_neg hr), congrArg _ (if_neg hr), congrArg _ (if_neg hr),
      congrArg _ (if_neg hr), congrArg _ (if_neg hr), congrArg _ (if_neg hr), congrArg _ (if_neg hr),
      congrArg _ (if_neg hr)⟩
  case edge =>
    intro t s hp hsrc hm hlate
    obtain ⟨hrenewed, hterm, -, -, hrenews, hpends, hacquires⟩ := grantLease_grants s.red.termMs false
      (onRed (fun r => { r with lastEdge := some (max s.clock.clk t) }) (advance t s))
    refine ⟨_, execLeaseInEdge_taken hp hsrc hm hlate, leaseEdge_lastEdge _, fun hheld => ?_, fun a hl hg ha hin => ?_,
      fun hl hg hlast => ?_⟩
    · rw [leaseEdge_grants (s := advance t s) (hheld.elim (fun hl => .inl hl.1) (fun hg => .inr (.inl hg)))]
      obtain ⟨hlease, hgrant, -⟩ := hrenews hheld
      exact ⟨hrenewed, hterm, hlease, hgrant⟩
    · have hnot : ¬((s.red.lease = true ∧ s.red.t6Due = false) ∨ s.red.grant = true) := by simp [hl, hg]
      rw [leaseEdge_grants (s := advance t s) (.inr (.inr ⟨a, ha, hin⟩))]
      refine ⟨fun hs => ?_, fun hs => ?_⟩
      · obtain ⟨hgrant, hlease, -⟩ := hpends hnot hs
        exact ⟨hgrant, hlease.trans hl⟩
      · obtain ⟨hlease, -, hgen⟩ := hacquires hnot hs
        exact ⟨hlease, hgen⟩
    · rw [leaseEdge_waits (s := advance t s) hl hg hlast]
      exact ⟨hl, hg⟩
  case lapse =>
    intro t s hp hheld hlate
    have hexec : exec (.leaseLapse t) s = .next (endLease 0 (advance t s)) :=
      congrArg _ (if_pos (Bool.and_eq_true_iff.mpr ⟨by simpa using hheld, decide_eq_true hlate⟩))
    refine ⟨_, hexec, fun hl hm hs => ?_, fun hnot => ?_, fun hl hm hout => ?_⟩
    · obtain ⟨hpair, hmode⟩ := endLease_inStep 0 (s := advance t s) hl hm hp hs
      exact ⟨(congrArg Red.t6Due hpair.course :), (congrArg Red.lease hpair.course :).trans hl, hmode⟩
    · obtain ⟨hlease, hgrant, -, hpin, -⟩ := endLease_ends 0 (s := advance t s) (fun ⟨hl, hm, _, hs⟩ => hnot ⟨hl, hm, hs⟩)
      exact ⟨hlease, hgrant, hpin hheld⟩
    · obtain ⟨-, -, -, -, hfalls⟩ := endLease_ends 0 (s := advance t s)
        (fun ⟨_, _, _, hs⟩ => absurd (hout.symm.trans hs) (by decide))
      exact hfalls hl hm hp
  case compatible =>
    intro t h s hruns hfault
    obtain ⟨hpeer, hcause, hlast, haddr, hlink⟩ := takeHello_knows h (heardControl (advance t s))
    exact ⟨_, execHalyardHello_compatible hruns hfault, hpeer, hcause, haddr, hlink, hlast,
      fun hpartner hretry hl hm hp => takeHello_resyncs hruns hpartner hretry hl hm hp⟩
  case incompatible =>
    intro t n h s hruns hfault
    obtain ⟨x, hexec, hcause, hpeer⟩ := execHalyardHello_incompatible (t := t) hruns hfault
    have hheard := heard_linkTo .down 0 x
    exact ⟨_, hexec, linkTo_link .., (congrArg (fun v => v.2.1) hheard :).trans hcause,
      (congrArg (fun v => v.1) hheard :).trans hpeer⟩
  case sent =>
    intro t c bulk s hruns hlanes
    have hr : halyardRuns (advance t s) = true := hruns
    have hadvanced : usableLanes (advance t s) = c :: bulk := hlanes
    refine ⟨⟨_, congrArg Host.Outcome.next (if_pos hr), sendHalyard_out hadvanced 1 _ (by decide)⟩, _, execHealthSend_notes hruns, ?_⟩
    obtain ⟨hred, hout, hclock, husable⟩ := noteHealth_notes (advance t s)
    have hsent := sendHalyard_alike 10 (healthReport (noteHealth (advance t s))) (noteHealth (advance t s))
    have hhealth := (congrArg Red.health hsent :).trans (congrArg Red.health hred :)
    have hreport := (congrArg Red.peerReport hsent :).trans (congrArg Red.peerReport hred :)
    refine ⟨hhealth, hreport, healthReport (noteHealth (advance t s)), ?_⟩
    rw [sendHalyard_out (husable.trans hadvanced) 10 _ (by decide), hout, hclock, hred]
    rfl
  case loss =>
    intro t s hlink hlost
    have hup : (advance t s).red.link ≠ .down := hlink
    by_cases hlanes : usableLanes s = []
    · have hnone : (usableLanes (advance t s)).isEmpty = true := List.isEmpty_iff.mpr hlanes
      exact ⟨_, congrArg Host.Outcome.next ((if_neg hup).trans (if_pos hnone)), lostHalyard 0 hup⟩
    · have hsome : ¬ (usableLanes (advance t s)).isEmpty = true := fun hnone => hlanes (List.isEmpty_iff.mp hnone)
      have hsilent := hlost.resolve_left hlanes
      exact ⟨_, congrArg Host.Outcome.next ((if_neg hup).trans ((if_neg hsome).trans (if_pos hsilent))), lostHalyard 1 hup⟩
  case claim =>
    intro t g s hruns hs
    exact ⟨_, execHalyardLeaseClaim_waits hruns hs, rfl, rfl⟩
  case health =>
    intro t p s hruns
    have hheard := heard_notePeerMode (u8 p 1 % 8) (onRed (fun r => { r with
      peerReport := p.take 20, peerReportAt := max s.clock.clk t, peer := { r.peer with health := u8 p 0 % 4 } })
      (heardControl (advance t s)))
    exact ⟨_, execHalyardHealth_notes hruns, (congrArg (fun v => v.2.2.2.1) hheard :),
      (congrArg (fun v => v.2.2.2.2.1) hheard :), (congrArg (fun v => v.1.health) hheard :),
      (congrArg (fun v => v.1.mode) hheard :)⟩
end
end

section
/-! PROOFS. Epoch records, carried commands and resynchronisation (O47). -/

-- The package is checked as one text; elaborating these proofs in order keeps the number of threads small.
set_option Elab.async false

namespace Sys2Proof.Machine

/-! The seal of an epoch answers commands of its entries: the pair goes no further than the outcomes noted. -/

section
variable {s x : State}

theorem OnlyNotes.discardOne (h : OnlyNotes s x) (e : Entry) (cause : Nat) : OnlyNotes s (discardOne e cause x) :=
  h.discardEntries ..

theorem OnlyNotes.sealVideo (h : OnlyNotes s x) (batch : List Entry) : OnlyNotes s (sealVideo batch x) := by
  unfold Machine.sealVideo
  refine OnlyNotes.foldl ?_ _ fun y e => .ite (.refl y) ((OnlyNotes.refl y).discardOne ..)
  refine List.foldlRecOn (motive := fun r : List Entry × State => OnlyNotes s r.2) batch _ h fun r hr e _ => ?_
  split
  next =>
    split
    · exact hr.discardOne ..
    · exact hr
  next => exact hr

theorem OnlyNotes.sealAudio (h : OnlyNotes s x) (batch : List Entry) : OnlyNotes s (sealAudio batch x) := by
  refine h.foldl _ fun y e => ?_
  split
  · exact .ite ((OnlyNotes.refl y).discardOne ..) (.refl y)
  · exact .refl y

theorem OnlyNotes.sealCommit (h : OnlyNotes s x) (k arm : Nat) (batch : List Entry) (c : Nat) :
    OnlyNotes s (sealCommit k arm batch c x) := by
  unfold Machine.sealCommit
  dsimp only
  split
  next => exact h.foldl _ fun y e => (OnlyNotes.refl y).discardOne ..
  next =>
    refine h.foldl _ fun y e => OnlyNotes.entryGone ?_ ..
    exact (OnlyNotes.refl y).moved (rejectCommit_moves _ _ _ _ _ _ (freeEntry_moves e (.refl [.flash, .evt, .xpt, .cmp] y)))
  next => exact h

theorem OnlyNotes.sealEpoch (h : OnlyNotes s x) (k arm : Nat) (sel : Entry → Bool) : OnlyNotes s (sealEpoch k arm sel x) := by
  unfold Machine.sealEpoch
  extract_lets pick names again late video audio commits marked
  have hlate : OnlyNotes s late := h.moved (lateAtSeal_moves _ _ (.refl [.flash, .evt, .xpt] _))
  have hcommits : OnlyNotes s commits :=
    ((hlate.sealVideo _).sealAudio _).foldl _ fun y c => (OnlyNotes.refl y).sealCommit ..
  have hmarked : OnlyNotes s marked := hcommits.moved (markSealed_moves _ _ _ (.refl [.flash, .evt, .xpt, .aud] _))
  exact hmarked.moved (sealRealigns_moves _ _ (.refl [.tim] _))

end

/-! Applying a record (R463 to R466). -/

/-- The record of a tick taken: what the partner says of itself, the tick, and the count. -/
def recordTaken (r : EpochRecord) (s : State) : State :=
  onRed (fun x => { x with peer := { x.peer with gen := r.gen, lease := r.lease }, applied := r.tick, cnt := bump x.cnt 1 }) s

/-- A record is applied: its items, then the seal. -/
theorem applyRecord_seals (r : EpochRecord) (s : State) : OnlyNotes
    (r.items.foldl (fun s it => if inStep s || joining s then applyItem r.tick it s else s) (recordTaken r s))
    (applyRecord r s) :=
  .ite (((OnlyNotes.refl _).sealEpoch ..).moved (cueTick_moves _ (.refl [.cue] _))) (.refl _)

/-- The pair's state beside what is noted of a command and the numbers of the messages sent. -/
def Red.unsent (r : Red) : Red := { r.noteless with msgNo := [] }

theorem OnlyNotes.unsent {s x : State} (h : OnlyNotes s x) : x.red.unsent = s.red.unsent :=
  (congrArg (fun v => ({ v.1 with msgNo := [] } : Red)) h :)

theorem unsent_sendHalyard (kind : Nat) (payload : List Byte) (s : State) :
    (sendHalyard kind payload s).red.unsent = s.red.unsent := by
  rw [red_sendHalyard_eq]
  rfl

/-- The follower that takes the record that comes next applies it, and acknowledges it while it is in step. -/
theorem unsent_followRecord {r : EpochRecord} {s : State} (h : r.tick = tickAfter s.red.applied) :
    (followRecord r s).red.unsent
      = (r.items.foldl (fun s it => if inStep s || joining s then applyItem r.tick it s else s) (recordTaken r s)).red.unsent := by
  have happlied := (applyRecord_seals r s).unsent
  have hfollows : followRecord r s
      = if inStep (applyRecord r s) then sendAck 0 0 (applyRecord r s) else applyRecord r s := if_pos h
  rw [hfollows]
  split
  · exact (unsent_sendHalyard ..).trans happlied
  · exact happlied

/-- After a gap the follower names the record that it wants. -/
theorem followRecord_gap {r : EpochRecord} {s : State} (h : r.tick ≠ tickAfter s.red.applied)
    (hgap : ticksFrom (tickAfter s.red.applied) r.tick < 0x80000000) :
    followRecord r s = sendAck 1 (tickAfter s.red.applied % 0x10000) s := (if_neg h).trans (if_pos hgap)

theorem execHalyardEpochRecord_follows {t : Nat} {r : EpochRecord} {s : State} (hruns : halyardRuns s = true)
    (hfollows : follows s = true) (hserves : conductorStopped s = false) :
    exec (.halyardEpochRecord t r false) s = .next (followRecord r (heardControl (advance t s))) := by
  have hr : ¬ (!halyardRuns (advance t s)) = true := by
    have hadvanced : halyardRuns (advance t s) = true := hruns
    simp [hadvanced]
  have hs : ¬ conductorStopped (heardControl (advance t s)) = true := by
    have hheard : conductorStopped (heardControl (advance t s)) = false := hserves
    simp [hheard]
  have hf : follows (heardControl (advance t s)) = true := hfollows
  exact congrArg Host.Outcome.next ((if_neg hr).trans ((if_neg (by decide)).trans ((if_neg hs).trans (if_pos hf))))

theorem inStep_of_follows {s : State} (h : follows s = true) : s.red.link = .inStep := by
  simp only [follows, inStep, Bool.and_eq_true, beq_iff_eq] at h
  exact h.1.2

theorem inStep_of_leads {s : State} (h : leads s = true) : s.red.link = .inStep := by
  simp only [leads, inStep, Bool.and_eq_true, beq_iff_eq] at h
  exact h.1.2

/-- A follower that diverges leaves IN_STEP with the records that it has applied. -/
theorem divergeOut_leaves {s : State} (h : inStep s = true) :
    (divergeOut s).red.link ≠ .inStep ∧ (divergeOut s).red.applied = s.red.applied := by
  have hlink : s.red.link ≠ .linked := by
    intro hlinked
    rw [inStep, hlinked] at h
    cases h
  have hgoes : divergeOut s = tryResync (linkTo .linked 4 s) := if_pos h
  obtain ⟨hbeyond, -, -⟩ := linkTo_changes (new := .linked) 4 hlink
  have happlied : (linkTo .linked 4 s).red.applied = s.red.applied := (congrArg Red.applied hbeyond :)
  rw [hgoes]
  rcases tryResync_or (linkTo .linked 4 s) with hsame | ⟨-, hpair⟩
  · rw [hsame]
    exact ⟨by rw [linkTo_link]; decide, happlied⟩
  · have hresync : (tryResync (linkTo .linked 4 s)).red.link = .resyncing := (congrArg Red.link hpair.course :)
    exact ⟨by rw [hresync]; decide, (congrArg Red.applied hpair.course :).trans happlied⟩

/-- A command of which the device has no copy is a divergence (R469). -/
theorem applyCommand_missing {session seq status : Nat} {s : State}
    (h : (s.red.held ++ s.red.forwarded).any (HeldCmd.is session seq) = false) :
    applyCommand session seq status s = followerDiverges 1 session seq s := by
  rw [List.any_append, Bool.or_eq_false_iff, List.any_eq_false, List.any_eq_false] at h
  have hheld : s.red.held.find? (·.is session seq) = none := List.find?_eq_none.mpr h.1
  have hforwarded : s.red.forwarded.find? (·.is session seq) = none := List.find?_eq_none.mpr h.2
  unfold applyCommand
  dsimp only
  rw [hheld, hforwarded]

/-! Entering IN_STEP (R478 to R480). -/

/-- What an entry into IN_STEP is asked for: the link, that a resynchronisation has completed, and what both have applied. -/
def Red.entering (r : Red) : Link × Bool × Nat × Nat := (r.link, r.resyncDone, r.peerApplied, r.applied)

theorem PairStands.entering {s x : State} (h : PairStands s x) : x.red.entering = s.red.entering :=
  (congrArg Red.entering h.course :)

theorem PairStands.sendFill {s x : State} (h : PairStands s x) (n : Nat) (v : Version) (fuel off : Nat) :
    PairStands s (sendFill n v fuel off x) := by
  induction fuel generalizing off x with
  | zero => exact h
  | succ fuel ih => exact .ite (h.sendHalyard ..) (ih (h.sendHalyard ..) _)

theorem PairStands.sendObject {s x : State} (h : PairStands s x) (n off : Nat) : PairStands s (sendObject n off x) := by
  unfold Machine.sendObject
  split
  · exact h.sendFill ..
  · exact h

theorem entering_fillPartner (s : State) : (fillPartner s).red.entering = s.red.entering := by
  unfold fillPartner
  extract_lets ns bytes sent
  have hsent : PairStands s sent := (PairStands.refl s).foldl _ fun y n => (PairStands.refl y).sendObject ..
  exact (congrArg Red.entering (raise_red ..)).trans hsent.entering

theorem entering_fillCheck (s : State) : (fillCheck s).red.entering = s.red.entering := by
  refine ite_keeps (fun x : State => x.red.entering) ?_ rfl
  have hdone : (raiseFillDone (onRed (fun r => { r with filling := false, fillLeft := [] }) s)).red.entering = s.red.entering :=
    (congrArg Red.entering (raise_red ..) :)
  exact ite_keeps (fun x : State => x.red.entering) ((pairStands_sendClaim _).entering.trans hdone) hdone

/-- The link enters IN_STEP, and a resynchronisation has completed. -/
theorem enterInStep_enters {x : Resync} {s : State} (h : s.red.resync = some x) (hl : s.red.link ≠ .inStep) :
    (enterInStep s).red.entering = (.inStep, true, s.red.peerApplied, s.red.applied) := by
  unfold enterInStep
  split
  next hnone => exact absurd (h.symm.trans hnone) (by simp)
  next =>
    extract_lets linked planes settled raised filled
    have hlinked : PairStands { s with red := s.red.linkedTo .inStep } linked := pairStands_linkTo_of_not_inStep 0 hl hl
    have hsettled : settled.red.entering = (.inStep, true, s.red.peerApplied, s.red.applied) :=
      (congrArg (fun v : Link × Bool × Nat × Nat => (v.1, true, v.2.2)) hlinked.entering :)
    have hraised : raised.red.entering = (.inStep, true, s.red.peerApplied, s.red.applied) :=
      (congrArg Red.entering (raise_red ..)).trans hsettled
    have hfilled : filled.red.entering = (.inStep, true, s.red.peerApplied, s.red.applied) :=
      ite_keeps (fun y : State => y.red.entering) ((entering_fillPartner _).trans hraised)
        ((entering_fillCheck _).trans hraised)
    exact ite_keeps (fun y : State => y.red.entering) hfilled ((PairStands.refl filled).modeDecision.entering.trans hfilled)

/-! What an entry into IN_STEP leaves of the snapshot just loaded. -/

/-- A transition that does not touch the take queue or what runs of the cue programs, and after which a lease can be held. -/
theorem applyTransition_quiet {n : Nat} (hn : n = 3 ∨ n = 4) {dest : Mode} (cause : Nat) (s : State)
    (hd : dest.mayLease = true) :
    Moves [.mode, .aon, .pins, .start, .flash, .evt, .pwr, .lane, .flow, .out] s (applyTransition n dest cause s) := by
  have hqueues : transitionQueues n s = s := by rcases hn with rfl | rfl <;> rfl
  unfold applyTransition
  rw [hqueues]
  dsimp only
  rw [if_pos hd]
  refine setMode_moves n dest cause ?_
  exact .ite (blockTrial_moves 4 (.ite (stopTests_moves (.refl _ s)) (.refl _ s))) (.ite (stopTests_moves (.refl _ s)) (.refl _ s))

theorem transition_quiet {n : Nat} (hn : n = 3 ∨ n = 4) {dest : Mode} (cause : Nat) (s : State)
    (hd : dest = .active ∨ dest = .standby) :
    Moves [.mode, .aon, .pins, .start, .flash, .evt, .pwr, .lane, .flow, .out] s (transition n dest cause s) := by
  have hstands : transition n dest cause s = applyTransition n dest cause s :=
    if_pos (by rcases hd with rfl | rfl <;> rfl)
  rw [hstands]
  exact applyTransition_quiet hn cause s (by rcases hd with rfl | rfl <;> rfl)

theorem modeDecision_quiet (s : State) :
    Moves [.mode, .aon, .pins, .start, .flash, .evt, .pwr, .lane, .flow, .out] s (modeDecision s) :=
  .ite (.ite (transition_quiet (.inl rfl) 4 s (.inl rfl)) (.ite (transition_quiet (.inr rfl) 4 s (.inr rfl)) (.refl _ s)))
    (.refl _ s)

theorem linkTo_quiet {new : Link} (cause : Nat) {s : State} (h : s.red.link ≠ .inStep) :
    Moves [.flash, .evt, .red] s (linkTo new cause s) := by
  unfold linkTo
  refine .ite (.refl _ s) ?_
  dsimp only
  rw [if_neg h]
  exact raise_moves _ _ _ _ _ ((Moves.refl _ s).setRed _)

theorem enterInStep_quiet {s : State} (h : s.red.link ≠ .inStep) :
    Moves [.mode, .aon, .pins, .start, .flash, .evt, .pwr, .red, .lane, .flow, .out] s (enterInStep s) := by
  unfold enterInStep
  split
  next => exact .refl _ s
  next =>
    extract_lets linked planes settled raised filled
    have hlinked : Moves [.mode, .aon, .pins, .start, .flash, .evt, .pwr, .red, .lane, .flow, .out] s linked :=
      (linkTo_quiet 0 h).mono rfl
    have hraised : Moves [.mode, .aon, .pins, .start, .flash, .evt, .pwr, .red, .lane, .flow, .out] s raised :=
      raise_moves _ _ _ _ _ (hlinked.onRed _)
    have hfilled : Moves [.mode, .aon, .pins, .start, .flash, .evt, .pwr, .red, .lane, .flow, .out] s filled :=
      .ite (fillPartner_moves hraised) (fillCheck_moves (hraised.onRed _))
    exact .ite (hfilled.onRed _) (hfilled.trans ((modeDecision_quiet filled).mono rfl))

end Sys2Proof.Machine
end

section
/-! PROOFS. The snapshot, relayed commands and the rest of the halyard's events (O47). -/

-- The package is checked as one text; elaborating these proofs in order keeps the number of threads small.
set_option Elab.async false

namespace Sys2Proof.Machine

/-! The snapshot that a joiner loads (R478). -/

/-- The link and the records kept for later, which a snapshot leaves as they are. -/
def Red.awaiting (r : Red) : Link × List EpochRecord := (r.link, r.buffered)

theorem zoneWriteAt_pageIdle (k off : Nat) (data : List Byte) (s : State) :
    (zoneWriteAt k off data s).fst.pageIdle = s.fst.pageIdle :=
  List.foldlRecOn (motive := fun x : State × List Byte => x.1.fst.pageIdle = s.fst.pageIdle) _ _ rfl (fun _ hx _ _ => hx)

theorem loadObjects_keeps (objs : Table Obj) (s : State) :
    (loadObjects objs s).fst.pageIdle = s.fst.pageIdle ∧ (loadObjects objs s).red.awaiting = s.red.awaiting := by
  unfold loadObjects
  extract_lets theirs kept isKept table own listed written
  have hwritten : written.fst.pageIdle = s.fst.pageIdle ∧ written.red = s.red :=
    List.foldlRecOn (motive := fun x : State => x.fst.pageIdle = s.fst.pageIdle ∧ x.red = s.red) kept _ ⟨rfl, rfl⟩
      fun x hx k _ => ⟨(zoneWriteAt_pageIdle ..).trans hx.1,
        ((zoneWriteAt_moves _ _ _ (.refl [.fst] x)).same .red rfl).trans hx.2⟩
  obtain ⟨hidle, hred⟩ := hwritten
  exact ⟨hidle, (congrArg Red.awaiting hred :)⟩

theorem awaiting_recordReference (s : State) : (recordReference s).red.awaiting = s.red.awaiting :=
  (congrArg Red.awaiting (recordItem_alike (.reference (selCode s.tim.sel.selected) s.tim.house.state.code) s) :)

theorem setHouseState_red (new : LoopState) (s : State) : (setHouseState new s).red = s.red :=
  (setHouseState_moves new (.refl [.flash, .evt, .tim, .out] s)).same .red rfl

theorem awaiting_switchTo (i cause : Nat) (s : State) : (switchTo i cause s).red.awaiting = s.red.awaiting := by
  refine (awaiting_recordReference _).trans (ite_keeps (fun x : State => x.red.awaiting) ?_ ?_)
  · exact congrArg Red.awaiting (raise_red ..)
  · exact (congrArg Red.awaiting (setHouseState_red ..)).trans (congrArg Red.awaiting (raise_red ..))

theorem awaiting_houseHoldover (s : State) : (houseHoldover s).red.awaiting = s.red.awaiting :=
  ite_keeps (fun x : State => x.red.awaiting) rfl
    ((awaiting_recordReference _).trans (congrArg Red.awaiting (setHouseState_red ..)))

theorem awaiting_applyReference (i : Nat) (s : State) : (applyReference i s).red.awaiting = s.red.awaiting :=
  ite_keeps (fun x : State => x.red.awaiting) (awaiting_houseHoldover s) (ite_keeps (fun x : State => x.red.awaiting)
    ((congrArg Red.awaiting (raise_red ..)).trans (awaiting_houseHoldover s))
    (ite_keeps (fun x : State => x.red.awaiting) rfl (awaiting_switchTo ..)))

theorem beyondSelector_applyReference (i : Nat) (s : State) : (applyReference i s).beyondSelector = s.beyondSelector :=
  ite_keeps State.beyondSelector (beyondSelector_houseHoldover s) (ite_keeps State.beyondSelector
    ((beyondSelector_raise ..).trans (beyondSelector_houseHoldover s))
    (ite_keeps State.beyondSelector rfl (beyondSelector_switchTo ..)))

theorem compares_of_beyondSelector {s x : State} (h : x.beyondSelector = s.beyondSelector) : x.tim.compares = s.tim.compares :=
  (congrArg Tim.compares (beyondSwitch_of_beyondSelector h) :)

/-- The reference that the source has selected is taken over; otherwise the house loop goes to HOLDOVER. -/
def takeReference (selected : Option Nat) (s : State) : State :=
  match selected with
  | some i => applyReference i s
  | none => houseHoldover s

theorem takeReference_keeps (selected : Option Nat) (s : State) :
    (takeReference selected s).beyondSelector = s.beyondSelector
      ∧ (takeReference selected s).red.awaiting = s.red.awaiting
      ∧ Moves [.flash, .evt, .red, .tim, .out] s (takeReference selected s) := by
  unfold takeReference
  split
  · exact ⟨beyondSelector_applyReference .., awaiting_applyReference .., applyReference_moves _ (.refl _ s)⟩
  · exact ⟨beyondSelector_houseHoldover s, awaiting_houseHoldover s, houseHoldover_moves (.refl _ s)⟩

/-- What the snapshot brings, of the parts that the statements name, and what it leaves. -/
def State.snapshotted (s : State) : Table CueProg × Table TpCfg × Table Compare × Nat × Link × List EpochRecord :=
  (s.cue.progs, s.xpt.tps, s.tim.compares, s.fst.pageIdle, s.red.awaiting)

theorem takeReference_snapshotted (selected : Option Nat) (s : State) :
    (takeReference selected s).snapshotted = s.snapshotted := by
  obtain ⟨hselector, hawaiting, hmoves⟩ := takeReference_keeps selected s
  have hcue : (takeReference selected s).cue = s.cue := hmoves.same .cue rfl
  have hxpt : (takeReference selected s).xpt = s.xpt := hmoves.same .xpt rfl
  have hfst : (takeReference selected s).fst = s.fst := hmoves.same .fst rfl
  simp only [State.snapshotted, hcue, hxpt, hfst, hawaiting, compares_of_beyondSelector hselector]

theorem loadPairState_loads (p : PairState) (s : State) :
    (loadPairState p s).snapshotted = (p.progs, p.tps, p.compares, p.pageIdle, s.red.awaiting) := by
  unfold loadPairState
  extract_lets objects crosspoint cues flows queued comps matrix due times
  have hload : (match p.selected with | some i => applyReference i times | none => houseHoldover times)
      = takeReference p.selected times := by cases p.selected <;> rfl
  refine (congrArg State.snapshotted hload :).trans ((takeReference_snapshotted ..).trans ?_)
  obtain ⟨hidle, hawaiting⟩ := loadObjects_keeps p.objs (onFst (fun f => { f with
    zones := p.zones, pageIdle := p.pageIdle, srIdleUs := p.srIdleUs, periodS := p.periodS }) s)
  have hflows : Moves [.flash, .evt, .flow] cues flows := adoptFlow_moves _ _ _ _ (.refl _ cues)
  have hmatrix : Moves [.cmp, .aud] queued matrix := adoptAudio_moves _ _ _ _ _ _ (adoptComps_moves _ (.refl _ queued))
  have hcue : times.cue.progs = p.progs :=
    (congrArg Cue.progs (hmatrix.same .cue rfl) :).trans (congrArg Cue.progs (hflows.same .cue rfl) :)
  have hxpt : times.xpt.tps = p.tps :=
    (congrArg Xpt.tps (hmatrix.same .xpt rfl) :).trans (congrArg Xpt.tps (hflows.same .xpt rfl) :)
  have hfst : times.fst.pageIdle = p.pageIdle :=
    (congrArg Fst.pageIdle (hmatrix.same .fst rfl) :).trans ((congrArg Fst.pageIdle (hflows.same .fst rfl) :).trans hidle)
  have hred : times.red.awaiting = s.red.awaiting :=
    (congrArg Red.awaiting (hmatrix.same .red rfl) :).trans
      ((congrArg Red.awaiting (hflows.same .red rfl) :).trans hawaiting)
  simp only [State.snapshotted, hcue, hxpt, hfst, hred]
  rfl

theorem drainBuffered_of_none (fuel : Nat) {s : State} (h : s.red.buffered = []) : drainBuffered fuel s = s := by
  cases fuel with
  | zero => rfl
  | succ fuel =>
    unfold drainBuffered
    rw [h]
    rfl

theorem filterBuffered_of_none {s : State} (h : s.red.buffered = []) (f : Red → EpochRecord → Bool) :
    onRed (fun r => { r with buffered := r.buffered.filter (f r) }) s = s := by
  have hfilter : s.red.buffered.filter (f s.red) = s.red.buffered := by rw [h, List.filter_nil]
  exact congrArg (fun l => onRed (fun r => { r with buffered := l }) s) hfilter

/-- A joiner that has nothing buffered enters IN_STEP within one tick of its snapshot, and waits otherwise. -/
theorem joinerCatchesUp_of_none {s : State} (h : s.red.buffered = []) :
    joinerCatchesUp s = if ticksFrom s.red.applied (s.clock.now / 500000 % 0x100000000) ≤ 1
      then enterInStep (sendAck 0 0 s) else s := by
  have hdrained : drainBuffered 400 s = s := drainBuffered_of_none 400 h
  have hforgets := filterBuffered_of_none h (fun r y => decide (ticksFrom (tickAfter r.applied) y.tick < 0x80000000))
  unfold joinerCatchesUp
  dsimp only
  rw [hdrained, hforgets, if_neg (by simp [h])]

/-- The joiner with the snapshot of a tick loaded. -/
def snapshotLoaded (k n : Nat) (p : PairState) (x : Resync) (s : State) : State :=
  onRed (fun r => { r with
    resync := some { x with tick := k, bytes := n, loaded := true }, applied := k
    buffered := r.buffered.filter (fun y => decide (ticksFrom (tickAfter k) y.tick < 0x80000000)) }) (loadPairState p s)

theorem execHalyardResyncState_loads {t m k n : Nat} {p : PairState} {x : Resync} {s : State}
    (hruns : halyardRuns s = true) (hjoins : joining s = true) (hx : s.red.resync = some x) (hloaded : x.loaded = false) :
    exec (.halyardResyncState t m (some (k, n, p)) false) s = .next (joinerCatchesUp (snapshotLoaded k n p x (advance t s))) := by
  have hr : ¬ (!halyardRuns (advance t s)) = true := by
    have hadvanced : halyardRuns (advance t s) = true := hruns
    simp [hadvanced]
  have hj : joining (advance t s) = true := hjoins
  have hresync : (advance t s).red.resync = some x := hx
  refine congrArg Host.Outcome.next ((if_neg hr).trans ((if_neg (by decide)).trans ?_))
  rw [hresync]
  dsimp only
  rw [hj, hloaded]
  exact if_neg (by decide)

theorem resyncing_of_joining {s : State} (h : joining s = true) : s.red.link = .resyncing := by
  simp only [joining, Bool.and_eq_true, beq_iff_eq] at h
  exact h.1

/-- An entry into IN_STEP keeps the snapshot. -/
theorem joinerCatchesUp_keeps {s : State} (hb : s.red.buffered = []) (hl : s.red.link ≠ .inStep) :
    (joinerCatchesUp s).cue = s.cue ∧ (joinerCatchesUp s).xpt = s.xpt ∧ (joinerCatchesUp s).tim = s.tim
      ∧ (joinerCatchesUp s).fst = s.fst := by
  rw [joinerCatchesUp_of_none hb]
  have hlink : (sendAck 0 0 s).red.link ≠ .inStep := by
    rw [sendAck, red_sendHalyard_eq]
    exact hl
  have hmoves : Moves [.mode, .aon, .pins, .start, .flash, .evt, .pwr, .red, .lane, .flow, .out] s
      (enterInStep (sendAck 0 0 s)) := ((sendHalyard_own ..).mono rfl).trans (enterInStep_quiet hlink)
  split
  · exact ⟨hmoves.same .cue rfl, hmoves.same .xpt rfl, hmoves.same .tim rfl, hmoves.same .fst rfl⟩
  · exact ⟨rfl, rfl, rfl, rfl⟩

theorem joinerCatchesUp_enters {x : Resync} {s : State} (hb : s.red.buffered = []) (hl : s.red.link = .resyncing)
    (hx : s.red.resync = some x) :
    (joinerCatchesUp s).red.applied = s.red.applied
      ∧ (ticksFrom s.red.applied (s.clock.now / 500000 % 0x100000000) ≤ 1 → (joinerCatchesUp s).red.link = .inStep)
      ∧ (1 < ticksFrom s.red.applied (s.clock.now / 500000 % 0x100000000) → joinerCatchesUp s = s) := by
  rw [joinerCatchesUp_of_none hb]
  have hacked : (sendAck 0 0 s).red.entering = s.red.entering := ((PairStands.refl s).sendHalyard ..).entering
  have hresync : (sendAck 0 0 s).red.resync = some x := by
    rw [sendAck, red_sendHalyard_eq]
    exact hx
  have hlink : (sendAck 0 0 s).red.link = .resyncing := (congrArg Prod.fst hacked :).trans hl
  have henters := enterInStep_enters hresync (by rw [hlink]; decide)
  split
  next hnear =>
    exact ⟨(congrArg (fun v => v.2.2.2) henters :).trans (congrArg (fun v => v.2.2.2) hacked :),
      fun _ => (congrArg Prod.fst henters :), fun hfar => absurd hnear (Nat.not_le.mpr hfar)⟩
  next hfar => exact ⟨rfl, fun hnear => absurd hnear hfar, fun _ => rfl⟩

/-! Relayed and forwarded commands, and results (R463, R464). -/

theorem acceptComplete_of_relayed {opcode : Nat} {op : Op} {c : HostCmd} {s : State} (hop : opOfCode opcode = some op)
    (hrelayed : c.relayed = true) (hrole : roleRefusal op c = none) (hmode : modeRefusal op c s = none)
    (hroom : s.host.queue.length < 256) :
    acceptComplete opcode c s = onHost (fun h => { h with queue := h.queue ++ [(op, c)] }) s := by
  simp [acceptComplete, hop, hrelayed, hrole, hmode, Nat.not_le.mpr hroom, onHost]

/-- A relayed command that its session has not sent before joins the queue. -/
theorem takeRelay_queues {op : Op} {p : List Byte} {s : State}
    (hknown : (sessionAuth s (carriedCmd p s).session).isSome = true)
    (hnew : lastSeq s (carriedCmd p s).session < (carriedCmd p s).seq)
    (hop : opOfCode (readHeader p).opcode = some op) (hrole : roleRefusal op (carriedCmd p s) = none)
    (hmode : modeRefusal op (carriedCmd p s) s = none) (hroom : s.host.queue.length < 256) :
    (takeRelay p s).host.queue = s.host.queue ++ [(op, carriedCmd p s)] := by
  have hgoes : takeRelay p s = commandArrived (readHeader p).opcode (carriedCmd p s) (carriedCmd p s).tag s := by
    unfold takeRelay
    dsimp only
    rw [if_neg (by simp [Option.isSome_iff_ne_none.mp hknown]), if_neg (Nat.not_le.mpr hnew)]
  have hown := setLastSeq_own (carriedCmd p s).session (carriedCmd p s).seq s
  have hqueue : (setLastSeq (carriedCmd p s).session (carriedCmd p s).seq s).host.queue = s.host.queue :=
    congrArg HostSt.queue (hown.same .host rfl)
  have hstill : modeRefusal op (carriedCmd p s) (setLastSeq (carriedCmd p s).session (carriedCmd p s).seq s) = none :=
    (modeRefusal_congr (hown.same .mode rfl) (hown.same .start rfl) (hown.same .pwr rfl) ..).trans hmode
  rw [hgoes]
  unfold commandArrived
  extract_lets raised cached opened
  have hopened : opened.host.queue = s.host.queue := ite_keeps (fun x : State => x.host.queue) hqueue hqueue
  have hopenedMode : modeRefusal op (carriedCmd p s) opened = none :=
    ite_keeps (modeRefusal op (carriedCmd p s)) hstill hstill
  rw [acceptComplete_of_relayed hop rfl hrole hopenedMode (by rw [hopened]; exact hroom)]
  exact congrArg (· ++ [(op, carriedCmd p s)]) hopened

/-- What the result of a held command makes of the follower. -/
def resultTaken (session seq status : Nat) (params : List Byte) (h : HeldCmd) (s : State) : State :=
  if (statusByCode status).passed then
    onRed (fun r => { r with results := r.results ++ [⟨session, seq, status, params⟩] }) s
  else
    onRed (fun r => { r with held := r.held.map (fun x =>
      if x.cmd.session == session && x.cmd.seq == seq then { x with replied := true } else x) })
      (finish h.op h.cmd (statusByCode status) params s)

theorem execHalyardCmdResult_held {t i k a : Nat} {p : List Byte} {h : HeldCmd} {s : State} (hruns : halyardRuns s = true)
    (hheld : s.red.held = [h]) (hhit : (h.cmd.session == i && h.cmd.seq == k) = true) :
    exec (.halyardCmdResult t i k a p false) s = .next (resultTaken i k a p h (heardControl (advance t s))) := by
  have hr : ¬ (!halyardRuns (advance t s)) = true := by
    have hadvanced : halyardRuns (advance t s) = true := hruns
    simp [hadvanced]
  have hfound : (heardControl (advance t s)).red.held.find? (fun h => h.cmd.session == i && h.cmd.seq == k) = some h := by
    have hsame : (heardControl (advance t s)).red.held = [h] := hheld
    rw [hsame, List.find?_cons_of_pos (p := fun h : HeldCmd => h.cmd.session == i && h.cmd.seq == k) hhit]
  refine congrArg Host.Outcome.next ((if_neg hr).trans ((if_neg (by decide)).trans ?_))
  dsimp only
  rw [hfound]
  rfl

/-- The result of the only held command: that of an executed one waits for its record, a refusal is passed on (R464). -/
theorem resultTaken_held {i k a : Nat} {p : List Byte} {h : HeldCmd} {s : State}
    (hheld : s.red.held = [h]) (hhit : (h.cmd.session == i && h.cmd.seq == k) = true) :
    ((statusByCode a).passed = true → (resultTaken i k a p h s).red.results = s.red.results ++ [⟨i, k, a, p⟩]
        ∧ (resultTaken i k a p h s).red.held = [h])
      ∧ ((statusByCode a).passed = false → (resultTaken i k a p h s).red.held = [{ h with replied := true }]) := by
  have hfinish := (OnlyNotes.refl s).finish h.op h.cmd (statusByCode a) p
  have hkept : (finish h.op h.cmd (statusByCode a) p s).red.held = [h] := (congrArg (fun v => v.1.held) hfinish :).trans hheld
  unfold resultTaken
  refine ⟨fun hpassed => ?_, fun hrefused => ?_⟩
  · rw [if_pos hpassed]
    exact ⟨rfl, hheld⟩
  · rw [if_neg (by simp [hrefused])]
    simp only [onRed_red, hkept, List.map_cons, List.map_nil]
    rw [if_pos hhit]

end Sys2Proof.Machine
end

section
/-! PROOFS. Acknowledgements, time-outs and retries of a pair (O47). -/

-- The package is checked as one text; elaborating these proofs in order keeps the number of threads small.
set_option Elab.async false

namespace Sys2Proof.Machine

/-! Acknowledgements (R465). -/

/-- The partner has applied records up to a tick. -/
def ackNoted (k : Nat) (s : State) : State :=
  onRed (fun r => { r with peerApplied := k, unacked := min r.unacked (ticksFrom k s.xpt.tick) }) s

theorem execHalyardEpochAck_writes {t k a w : Nat} {s : State} (hruns : halyardRuns s = true)
    (hwrites : writesRecords s = true) : exec (.halyardEpochAck t k a w false) s = .next (if a = 0 then
      if s.red.link = .resyncing then enterInStep (ackNoted k (heardControl (advance t s)))
        else ackNoted k (heardControl (advance t s))
      else resend w (heardControl (advance t s))) := by
  have hr : ¬ (!halyardRuns (advance t s)) = true := by
    have hadvanced : halyardRuns (advance t s) = true := hruns
    simp [hadvanced]
  have hw : ¬ (!writesRecords (heardControl (advance t s))) = true := by
    have hheard : writesRecords (heardControl (advance t s)) = true := hwrites
    simp [hheard]
  exact congrArg Host.Outcome.next ((if_neg hr).trans ((if_neg (by decide)).trans (if_neg hw)))

/-- A device that resynchronises and writes records is the source. -/
theorem resync_of_writes {s : State} (h : writesRecords s = true) (hl : s.red.link = .resyncing) :
    ∃ x, s.red.resync = some x := by
  cases hx : s.red.resync with
  | some x => exact ⟨x, rfl⟩
  | none => simp [writesRecords, leads, inStep, hl, hx] at h

/-- Records that are kept are sent again. -/
theorem resend_kept {w : Nat} {s : State} (h : s.red.kept.any (fun r => r.tick % 0x10000 == w % 0x10000) = true) :
    PairStands s (resend w s) := by
  have hgoes : resend w s = (s.red.kept.dropWhile (fun r => r.tick % 0x10000 != w % 0x10000)).foldl
      (fun s r => redCount 2 (sendHalyard 2 (recordBytes r) s)) s := if_pos h
  rw [hgoes]
  exact (PairStands.refl s).foldl _ fun y r => (PairStands.refl y).sendHalyard ..

theorem resend_lost {w : Nat} {s : State} (h : s.red.kept.any (fun r => r.tick % 0x10000 == w % 0x10000) = false)
    (hs : inStep s = true) : resend w s = linkTo .linked 5 s := (if_neg (by simp [h])).trans (if_pos hs)

/-- Four ticks without acknowledgement (R465). -/
theorem unacknowledged_leaves {s : State} (h : s.red.link = .inStep) :
    (tryResync (linkTo .linked 2 s)).red.link ≠ .inStep ∧ (tryResync (linkTo .linked 2 s)).red.unacked = 0
      ∧ (tryResync (linkTo .linked 2 s)).red.kept = [] := by
  obtain ⟨hbeyond, -, -⟩ := linkTo_changes (new := .linked) 2 (s := s) (by rw [h]; decide)
  have hunacked : (linkTo .linked 2 s).red.unacked = 0 := (congrArg Red.unacked hbeyond :)
  have hkept : (linkTo .linked 2 s).red.kept = [] := (congrArg Red.kept hbeyond :)
  rcases tryResync_or (linkTo .linked 2 s) with hsame | ⟨-, hpair⟩
  · rw [hsame]
    exact ⟨by rw [linkTo_link]; decide, hunacked, hkept⟩
  · have hcourse := hpair.course
    have hlink : (tryResync (linkTo .linked 2 s)).red.link = .resyncing := (congrArg Red.link hcourse :)
    exact ⟨by rw [hlink]; decide, (congrArg Red.unacked hcourse :), (congrArg Red.kept hcourse :)⟩

/-! The time-out of a resynchronisation (R478). -/

/-- A resynchronisation that has not completed in time is recorded, and tried again after 1 s. -/
def resyncEnds (x : Resync) (s : State) : State :=
  let s := raise 1 10 0xA021 0 [pack8 (bit (!x.source)) 1 0 0, w32 x.bytes, w32 ((s.clock.clk - x.started) / 1000000)] s
  onRed (fun r => { r with retryAt := some (s.clock.clk + 1000000000) }) (linkTo .linked 1 s)

theorem resyncEnds_ends (x : Resync) {s : State} (h : s.red.link = .resyncing) :
    (resyncEnds x s).red.link = .linked ∧ (resyncEnds x s).red.resync = none
      ∧ (resyncEnds x s).red.retryAt = some (s.clock.clk + 1000000000) := by
  unfold resyncEnds
  extract_lets raised
  have hlink : raised.red.link = .resyncing := (congrArg Red.link (raise_red ..)).trans h
  have hclock : raised.clock = s.clock := raise_clock ..
  have hpair := pairStands_linkTo_of_not_inStep (new := .linked) 1 (s := raised) (by rw [hlink]; decide) (by rw [hlink]; decide)
  exact ⟨linkTo_link .., (congrArg Red.resync hpair.course :), congrArg (fun c : Clock => some (c.clk + 1000000000)) hclock⟩

theorem execResyncTimeout_due {t : Nat} {x : Resync} {s : State} (hl : s.red.link = .resyncing) (hx : s.red.resync = some x)
    (hdue : x.started + 200000000 ≤ max s.clock.clk t) :
    exec (.resyncTimeout t) s = .next (resyncEnds x (advance t s)) := by
  have hresync : (advance t s).red.resync = some x := hx
  refine congrArg Host.Outcome.next ?_
  dsimp only
  rw [hresync]
  exact if_pos (Bool.and_eq_true_iff.mpr ⟨decide_eq_true hl, decide_eq_true hdue⟩)

theorem execResyncRetry_due {t a : Nat} {s : State} (ha : s.red.retryAt = some a) (hdue : a ≤ max s.clock.clk t)
    (hruns : halyardRuns s = true) : exec (.resyncRetry t) s = .next (startResync (advance t s)) := by
  have hretry : (advance t s).red.retryAt = some a := ha
  refine congrArg Host.Outcome.next ?_
  rw [hretry]
  exact if_pos (Bool.and_eq_true_iff.mpr ⟨decide_eq_true hdue, hruns⟩)

/-! A record at the follower (R465). -/

/-- What two devices agree on that differ in notes and message numbers alone. -/
theorem Red.agree_of_unsent {a b : Red} (h : a.unsent = b.unsent) :
    a.link = b.link ∧ a.applied = b.applied ∧ a.cnt = b.cnt ∧ a.peer = b.peer ∧ a.granted = b.granted ∧ a.t7Due = b.t7Due :=
  ⟨(congrArg Red.link h :), (congrArg Red.applied h :), (congrArg Red.cnt h :), (congrArg Red.peer h :),
    (congrArg Red.granted h :), (congrArg Red.t7Due h :)⟩

/-- A record without items. -/
theorem followRecord_empty {r : EpochRecord} {s : State} (h : r.tick = tickAfter s.red.applied) (hitems : r.items = []) :
    (followRecord r s).red.unsent = (recordTaken r s).red.unsent := by
  rw [unsent_followRecord h, hitems, List.foldl_nil]

/-- A record with one item, in step. -/
theorem followRecord_single {r : EpochRecord} {it : RecItem} {s : State} (h : r.tick = tickAfter s.red.applied)
    (hitems : r.items = [it]) (hs : inStep s = true) :
    (followRecord r s).red.unsent = (applyItem r.tick it (recordTaken r s)).red.unsent := by
  have hin : (inStep (recordTaken r s) || joining (recordTaken r s)) = true := Bool.or_eq_true_iff.mpr (.inl hs)
  rw [unsent_followRecord h, hitems, List.foldl_cons, List.foldl_nil, if_pos hin]

theorem inStep_congr {s x : State} (h : x.red = s.red) : inStep x = inStep s := by rw [inStep, inStep, h]

/-- A device in step that diverges for a record's sake leaves IN_STEP with the records that it has applied. -/
theorem followerDiverges_leaves (cause index seq : Nat) {s : State} (hs : inStep s = true) :
    (followerDiverges cause index seq s).red.link ≠ .inStep
      ∧ (followerDiverges cause index seq s).red.applied = s.red.applied := by
  have hred : (pairDiverge cause index seq s).red = s.red := raise_red ..
  obtain ⟨hlink, happlied⟩ := divergeOut_leaves ((inStep_congr hred).trans hs)
  exact ⟨hlink, happlied.trans (congrArg Red.applied hred)⟩

/-- A record that names a command of which the follower has no copy (R469). -/
theorem followRecord_missing {r : EpochRecord} {i k a : Nat} {s : State} (h : r.tick = tickAfter s.red.applied)
    (hitems : r.items = [.command i k a]) (hs : inStep s = true)
    (hmissing : (s.red.held ++ s.red.forwarded).any (HeldCmd.is i k) = false) :
    (followRecord r s).red.applied = r.tick ∧ (followRecord r s).red.link ≠ .inStep := by
  have hdiverges : applyItem r.tick (.command i k a) (recordTaken r s) = followerDiverges 1 i k (recordTaken r s) :=
    applyCommand_missing (s := recordTaken r s) hmissing
  have hunsent := followRecord_single h hitems hs
  rw [hdiverges] at hunsent
  obtain ⟨hlink, happlied, -⟩ := Red.agree_of_unsent hunsent
  obtain ⟨hleaves, hkeeps⟩ := followerDiverges_leaves 1 i k (s := recordTaken r s) hs
  exact ⟨happlied.trans hkeeps, fun hin => hleaves (hlink.symm.trans hin)⟩

/-- A record that hands the lease over to a claimant (R473). -/
theorem followRecord_handover {r : EpochRecord} {s : State} (h : r.tick = tickAfter s.red.applied)
    (hitems : r.items = [.handover s.start.straps.pairRole 1]) (hs : inStep s = true) (hgrant : s.red.grant = true) :
    (followRecord r s).red.granted = true ∧ (followRecord r s).red.t7Due = true
      ∧ (followRecord r s).red.link = s.red.link := by
  have happly : applyItem r.tick (.handover s.start.straps.pairRole 1) (recordTaken r s)
      = onRed (fun r => { r with granted := true, t7Due := true }) (recordTaken r s) :=
    if_pos (Bool.and_eq_true_iff.mpr ⟨Bool.and_eq_true_iff.mpr ⟨decide_eq_true rfl, rfl⟩, hgrant⟩)
  have hunsent := followRecord_single h hitems hs
  rw [happly] at hunsent
  obtain ⟨hlink, -, -, -, hgranted, hdue⟩ := Red.agree_of_unsent hunsent
  exact ⟨hgranted, hdue, hlink⟩

/-- A follower that applied what the record says. -/
theorem followRecord_counts {r : EpochRecord} {s : State} (h : r.tick = tickAfter s.red.applied) (hitems : r.items = []) :
    (followRecord r s).red.applied = r.tick
      ∧ tget 0#32 (followRecord r s).red.cnt 1 = tget 0#32 s.red.cnt 1 + 1#32
      ∧ (followRecord r s).red.peer.gen = r.gen ∧ (followRecord r s).red.peer.lease = r.lease
      ∧ (followRecord r s).red.link = s.red.link := by
  obtain ⟨hlink, happlied, hcnt, hpeer, -⟩ := Red.agree_of_unsent (followRecord_empty h hitems)
  rw [hlink, happlied, hcnt, hpeer]
  exact ⟨rfl, bump_same .., rfl, rfl, rfl⟩

/-- A gap is answered by the number of the record that is wanted. -/
theorem followRecord_asks {r : EpochRecord} {s : State} (h : r.tick ≠ tickAfter s.red.applied)
    (hgap : ticksFrom (tickAfter s.red.applied) r.tick < 0x80000000) :
    (followRecord r s).red.applied = s.red.applied
      ∧ ∀ c bulk, usableLanes s = c :: bulk → (followRecord r s).out = .halyard s.clock.clk c (tget 0 s.red.msgNo c) 3
        (beBytes 4 s.red.applied ++ beBytes 1 1 ++ beBytes 1 0 ++ beBytes 2 (tickAfter s.red.applied % 0x10000)) :: s.out := by
  rw [followRecord_gap h hgap]
  refine ⟨?_, fun c bulk hlanes => sendHalyard_out hlanes 3 _ (by decide)⟩
  rw [sendAck, red_sendHalyard_eq]

/-! A snapshot at the joiner (R478). -/

theorem snapshotLoaded_loads {k n : Nat} {p : PairState} {x : Resync} {s : State} (hl : s.red.link = .resyncing)
    (hb : s.red.buffered = []) :
    (joinerCatchesUp (snapshotLoaded k n p x s)).red.applied = k
      ∧ (joinerCatchesUp (snapshotLoaded k n p x s)).cue.progs = p.progs
      ∧ (joinerCatchesUp (snapshotLoaded k n p x s)).xpt.tps = p.tps
      ∧ (joinerCatchesUp (snapshotLoaded k n p x s)).tim.compares = p.compares
      ∧ (joinerCatchesUp (snapshotLoaded k n p x s)).fst.pageIdle = p.pageIdle
      ∧ (ticksFrom k (s.clock.now / 500000 % 0x100000000) ≤ 1 →
        (joinerCatchesUp (snapshotLoaded k n p x s)).red.link = .inStep)
      ∧ (1 < ticksFrom k (s.clock.now / 500000 % 0x100000000) →
        (joinerCatchesUp (snapshotLoaded k n p x s)).red.link = .resyncing
          ∧ (joinerCatchesUp (snapshotLoaded k n p x s)).red.resync = some { x with tick := k, bytes := n, loaded := true }) := by
  have hloads := loadPairState_loads p s
  have hlink : (snapshotLoaded k n p x s).red.link = .resyncing := (congrArg (fun v => v.2.2.2.2.1) hloads :).trans hl
  have hnone : (loadPairState p s).red.buffered = [] := (congrArg (fun v => v.2.2.2.2.2) hloads :).trans hb
  have hstill : (snapshotLoaded k n p x s).red.buffered = [] := by
    simp only [snapshotLoaded, onRed_red, hnone, List.filter_nil]
  have hclock : (snapshotLoaded k n p x s).clock = s.clock :=
    (loadPairState_moves p (.refl [.flash, .evt, .xpt, .cue, .red, .tim, .flow, .fst, .cmp, .aud, .out] s)).same .clock rfl
  have happlied : (snapshotLoaded k n p x s).red.applied = k := rfl
  have hresync : (snapshotLoaded k n p x s).red.resync = some { x with tick := k, bytes := n, loaded := true } := rfl
  obtain ⟨hcue, hxpt, htim, hfst⟩ := joinerCatchesUp_keeps hstill (by rw [hlink]; decide)
  obtain ⟨hkeeps, hnear, hfar⟩ := joinerCatchesUp_enters hstill hlink hresync
  rw [hclock, happlied] at hnear hfar
  rw [hcue, hxpt, htim, hfst]
  refine ⟨hkeeps.trans happlied, (congrArg (fun v => v.1) hloads :), (congrArg (fun v => v.2.1) hloads :),
    (congrArg (fun v => v.2.2.1) hloads :), (congrArg (fun v => v.2.2.2.1) hloads :), hnear, fun h => ?_⟩
  rw [hfar h]
  exact ⟨hlink, hresync⟩

end Sys2Proof.Machine

section
open Sys2Proof Sys2Proof.Machine

/-- Settles O47, one case per event: a record is applied item by item before its seal; what an acknowledgement, a time-out
or a snapshot makes of the link is what the shared operations make of it; carried commands join their lists. -/
theorem recordsAndCarriedCommandsTakeEffect : Obligations.RecordsAndCarriedCommandsTakeEffect := by
  unfold Obligations.RecordsAndCarriedCommandsTakeEffect
  refine ⟨?record, ?ack, ?silence, ?relay, ?forward, ?result, ?forgets, ?snapshot, ?timeout, ?retry⟩
  case record =>
    intro t r s hruns hfollows hserves
    have hexec := execHalyardEpochRecord_follows (t := t) (r := r) hruns hfollows hserves
    have hlink : s.red.link = .inStep := inStep_of_follows hfollows
    have hs : inStep s = true := by simp [inStep, hlink]
    refine ⟨fun hnext => ⟨fun hitems => ?_, fun i k a hitems hmissing => ?_, fun hitems hgrant => ?_⟩, fun hnext hgap => ?_⟩
    · obtain ⟨happlied, hcount, hgen, hlease, hstands⟩ := followRecord_counts (s := heardControl (advance t s)) hnext hitems
      exact ⟨_, hexec, happlied, hcount, hgen, hlease, hstands.trans hlink⟩
    · exact ⟨_, hexec, followRecord_missing (s := heardControl (advance t s)) hnext hitems hs hmissing⟩
    · obtain ⟨hgranted, hdue, hstands⟩ := followRecord_handover (s := heardControl (advance t s)) hnext hitems hs hgrant
      exact ⟨_, hexec, hgranted, hdue, hstands.trans hlink⟩
    · exact ⟨_, hexec, followRecord_asks (s := heardControl (advance t s)) hnext hgap⟩
  case ack =>
    intro t k a w s hruns hwrites
    have hexec := execHalyardEpochAck_writes (t := t) (k := k) (a := a) (w := w) hruns hwrites
    refine ⟨fun ha => ?_, fun ha hkept => ?_, fun ha hkept hs => ?_⟩
    · rw [if_pos ha] at hexec
      refine ⟨_, hexec, ?_⟩
      split
      next hl =>
        obtain ⟨x, hx⟩ := resync_of_writes hwrites hl
        have henters := enterInStep_enters (s := ackNoted k (heardControl (advance t s))) hx (by
          have hsame : (ackNoted k (heardControl (advance t s))).red.link = .resyncing := hl
          rw [hsame]
          decide)
        exact ⟨(congrArg (fun v => v.2.2.1) henters :), fun _ => ⟨(congrArg Prod.fst henters :), (congrArg (fun v => v.2.1) henters :)⟩,
          fun hin => absurd (hl.symm.trans hin) (by decide)⟩
      next hl => exact ⟨rfl, fun hresyncs => absurd hresyncs hl, fun hin => ⟨hin, rfl⟩⟩
    · rw [if_neg ha] at hexec
      have hcourse := (resend_kept (s := heardControl (advance t s)) hkept).course
      exact ⟨_, hexec, (congrArg Red.link hcourse :), (congrArg Red.kept hcourse :)⟩
    · rw [if_neg ha, resend_lost (s := heardControl (advance t s)) hkept hs] at hexec
      exact ⟨_, hexec, linkTo_link ..⟩
  case silence =>
    intro t s hleads hsilent
    have hexec : exec (.recordsUnacknowledged t) s = .next (tryResync (linkTo .linked 2 (advance t s))) :=
      congrArg Host.Outcome.next (if_pos (Bool.and_eq_true_iff.mpr ⟨hleads, decide_eq_true hsilent⟩))
    exact ⟨_, hexec, unacknowledged_leaves (inStep_of_leads hleads)⟩
  case relay =>
    intro t p s hruns hleads hknown
    have hr : ¬ (!halyardRuns (advance t s)) = true := by
      have hadvanced : halyardRuns (advance t s) = true := hruns
      simp [hadvanced]
    have hl : leads (heardControl (advance t s)) = true := hleads
    have hexec : exec (.halyardCmdRelay t p false) s = .next (takeRelay p (heardControl (advance t s))) :=
      congrArg Host.Outcome.next ((if_neg hr).trans ((if_neg (by decide)).trans (if_pos hl)))
    rw [hexec]
    refine ⟨fun hold => ?_, fun op hnew hop hrole hmode hroom => ⟨_, rfl, ?_⟩⟩
    · have hn : ¬ (sessionAuth (heardControl (advance t s)) (carriedCmd p s).session).isNone = true := by
        have hsame : (sessionAuth (heardControl (advance t s)) (carriedCmd p s).session).isSome = true := hknown
        simp [Option.isSome_iff_ne_none.mp hsame]
      exact congrArg Host.Outcome.next ((if_neg hn).trans (if_pos hold))
    · exact takeRelay_queues (s := heardControl (advance t s)) hknown hnew hop hrole hmode hroom
  case forward =>
    intro t op p s hruns hwaits hop
    have hr : ¬ (!halyardRuns (advance t s)) = true := by
      have hadvanced : halyardRuns (advance t s) = true := hruns
      simp [hadvanced]
    have hw : (follows (heardControl (advance t s)) || (heardControl (advance t s)).red.link == .resyncing) = true := by
      rcases hwaits with hfollows | hresyncs
      · exact Bool.or_eq_true_iff.mpr (.inl hfollows)
      · exact Bool.or_eq_true_iff.mpr (.inr (beq_iff_eq.mpr hresyncs))
    have hexec : exec (.halyardCmdForward t p false) s = .next (onRed (fun r => { r with
        forwarded := r.forwarded ++ [{ op := op, cmd := carriedCmd p s, since := max s.clock.clk t }] })
        (heardControl (advance t s))) := by
      refine congrArg Host.Outcome.next ((if_neg hr).trans ((if_neg (by decide)).trans ?_))
      dsimp only
      rw [hop]
      exact if_pos hw
    exact ⟨_, hexec, rfl, rfl⟩
  case result =>
    intro t i k a p h s hruns hheld hi hk
    have hhit : (h.cmd.session == i && h.cmd.seq == k) = true := by simp [hi, hk]
    exact ⟨_, execHalyardCmdResult_held hruns hheld hhit, resultTaken_held (s := heardControl (advance t s)) hheld hhit⟩
  case forgets =>
    intro t i k s
    exact ⟨_, rfl, rfl, rfl⟩
  case snapshot =>
    intro t m k n p x s hruns hjoins hx hloaded hbuffered
    exact ⟨_, execHalyardResyncState_loads hruns hjoins hx hloaded,
      snapshotLoaded_loads (s := advance t s) (resyncing_of_joining hjoins) hbuffered⟩
  case timeout =>
    intro t x s hl hx hdue
    exact ⟨_, execResyncTimeout_due hl hx hdue, resyncEnds_ends x hl⟩
  case retry =>
    intro t a s ha hdue hruns hl hm hp
    obtain ⟨hlink, hretry, -⟩ := startResync_begins (s := advance t s) hl hm hp
    exact ⟨_, execResyncRetry_due ha hdue hruns, hlink, hretry⟩
end
end

section
/-! PROOFS. The commands of chapter 12 (O39). -/

-- The package is checked as one text; elaborating these proofs in order keeps the number of threads small.
set_option Elab.async false

namespace Sys2Proof.Machine

/-! Ports and flows through the operations that several commands share. -/

theorem ethPort_congr {s x : State} (h : x.eth = s.eth) (p : Nat) : ethPort x p = ethPort s p := by
  simp only [ethPort, h]

@[simp] theorem ethPort_modEth (p : Nat) (f : EthPort → EthPort) (s : State) :
    ethPort (modEth p f s) p = f (ethPort s p) := tget_tmod_same ..

theorem ethPort_modEth_other {j p : Nat} (h : j ≠ p) (f : EthPort → EthPort) (s : State) :
    ethPort (modEth p f s) j = ethPort s j := tget_tmod_other _ _ _ h.symm

/-- A change of a port that a reading of ports does not see. -/
theorem readPort_modEth {β : Type} (g : EthPort → β) {f : EthPort → EthPort} (hf : ∀ x, g (f x) = g x) (p : Nat) (s : State)
    (j : Nat) : g (ethPort (modEth p f s) j) = g (ethPort s j) := by
  by_cases h : j = p
  · subst h
    rw [ethPort_modEth, hf]
  · exact congrArg g (ethPort_modEth_other h f s)

theorem readPort_modEth_if {β : Type} (g : EthPort → β) {f : EthPort → EthPort} (hf : ∀ x, g (f x) = g x) (b : Bool) (p : Nat)
    (s : State) (j : Nat) : g (ethPort (if b = true then modEth p f s else s) j) = g (ethPort s j) :=
  ite_keeps (fun x => g (ethPort x j)) (readPort_modEth g hf p s j) rfl

@[simp] theorem rxFlow_modRxFlow (n : Nat) (f : RxFlow → RxFlow) (s : State) :
    rxFlow (modRxFlow n f s) n = f (rxFlow s n) := tget_tmod_same ..

theorem rxFlow_modRxFlow_other {k n : Nat} (h : k ≠ n) (f : RxFlow → RxFlow) (s : State) :
    rxFlow (modRxFlow n f s) k = rxFlow s k := tget_tmod_other _ _ _ h.symm

@[simp] theorem txFlow_modTxFlow (n : Nat) (f : TxFlow → TxFlow) (s : State) :
    txFlow (modTxFlow n f s) n = f (txFlow s n) := tget_tmod_same ..

theorem txFlow_modTxFlow_other {k n : Nat} (h : k ≠ n) (f : TxFlow → TxFlow) (s : State) :
    txFlow (modTxFlow n f s) k = txFlow s k := tget_tmod_other _ _ _ h.symm

/-- The Ethernet block beside its ports. -/
def Eth.beyondPorts (e : Eth) : Eth := { e with ports := [] }

theorem cntRange_eth (scope i f : Nat) (a b : Bool) (s : State) : (cntRange scope i f a b s).eth = s.eth :=
  ite_keeps State.eth rfl (raise_eth ..)

theorem beyondPorts_ethAdd (p i n : Nat) (s : State) : (ethAdd p i n s).eth.beyondPorts = s.eth.beyondPorts :=
  (congrArg Eth.beyondPorts (cntRange_eth ..)).trans rfl

theorem beyondPorts_sendService (p kind : Nat) (args : List Nat) (data : List Byte) (s : State) :
    (sendService p kind args data s).eth.beyondPorts = s.eth.beyondPorts :=
  ite_keeps (fun x : State => x.eth.beyondPorts) (beyondPorts_ethAdd ..) rfl

theorem beyondPorts_reportLeg (f p : Nat) (l : Leg) (leave : Bool) (s : State) :
    (reportLeg f p l leave s).eth.beyondPorts = s.eth.beyondPorts := beyondPorts_sendService ..

/-! ETH_PORT_CONFIG. -/

/-- A port beside what its link, its preemption and PAUSE are doing. -/
def EthPort.settings (x : EthPort) : EthPort :=
  { x with pausing := false, pausedTo := none, link := 0, goodSince := 0, preemptState := 0, verifyTries := 0, verifyAt := 0 }

/-- A change that leaves the settings of every port and the Ethernet block beside its ports. -/
def SettingsStand (s u : State) : Prop :=
  (∀ j, (ethPort u j).settings = (ethPort s j).settings) ∧ u.eth.beyondPorts = s.eth.beyondPorts

theorem SettingsStand.refl (s : State) : SettingsStand s s := ⟨fun _ => rfl, rfl⟩

theorem SettingsStand.trans {s x u : State} (h : SettingsStand s x) (g : SettingsStand x u) : SettingsStand s u :=
  ⟨fun j => (g.1 j).trans (h.1 j), g.2.trans h.2⟩

theorem SettingsStand.ite {q : Prop} [Decidable q] {s a b : State} (ha : SettingsStand s a) (hb : SettingsStand s b) :
    SettingsStand s (if q then a else b) := by
  split
  · exact ha
  · exact hb

theorem SettingsStand.sameEth {s x u : State} (h : SettingsStand s x) (he : u.eth = x.eth) : SettingsStand s u :=
  ⟨fun j => (congrArg EthPort.settings (ethPort_congr he j)).trans (h.1 j), (congrArg Eth.beyondPorts he).trans h.2⟩

theorem SettingsStand.modEth (p : Nat) {f : EthPort → EthPort} (hf : ∀ x, (f x).settings = x.settings) (s : State) :
    SettingsStand s (modEth p f s) := ⟨readPort_modEth EthPort.settings hf p s, rfl⟩

theorem settingsStand_stopPausing (p : Nat) (s : State) : SettingsStand s (stopPausing p s) := by
  refine .ite (SettingsStand.sameEth (SettingsStand.modEth p ?_ s) (raise_eth ..)) (.refl s)
  exact fun _ => rfl

theorem settingsStand_endPause (p : Nat) (s : State) : SettingsStand s (endPause p s) := by
  refine .ite (SettingsStand.sameEth (SettingsStand.modEth p ?_ s) (raise_eth ..)) (.refl s)
  exact fun _ => rfl

theorem settingsStand_setLink (p new cause : Nat) (s : State) : SettingsStand s (setLink p new cause s) := by
  refine .ite (.refl s) (SettingsStand.sameEth ?_ (raise_eth ..))
  refine (SettingsStand.ite (.refl s) ((settingsStand_stopPausing p s).trans (settingsStand_endPause p _))).trans
    (SettingsStand.modEth p ?_ _)
  exact fun _ => rfl

theorem setLink_link (p new cause : Nat) (s : State) : (ethPort (setLink p new cause s) p).link = new := by
  unfold setLink
  split
  next h => exact h
  next =>
    dsimp only
    rw [ethPort_congr (raise_eth ..), ethPort_modEth]

theorem setPreempt_settings (p : Nat) (on : Bool) (s : State) :
    (ethPort (setPreempt p on s) p).settings = { (ethPort s p).settings with preempt := on } := by
  rw [setPreempt, ethPort_modEth]
  split
  next h => rw [← h]; rfl
  next => rfl

/-- The value of ETH_PORT_CFG: what it says holds, the other settings stand, and a port that is not enabled is DOWN. -/
theorem applyPortCfg_applies (p v : Nat) (s : State) :
    (ethPort (applyPortCfg p v s) p).settings = { (ethPort s p).settings with
        preempt := bitOf v 1, enable := bitOf v 0, pauseRx := bitOf v 2, pauseTx := bitOf v 3, mediaPct := bitsOf v 14 8
        dscpPtp := bitsOf v 21 16, dscpCtl := bitsOf v 29 24 }
      ∧ (applyPortCfg p v s).eth.beyondPorts = s.eth.beyondPorts
      ∧ (bitOf v 0 = false → (ethPort (applyPortCfg p v s) p).link = 0) := by
  unfold applyPortCfg
  extract_lets preempted configured unpaused unpausing
  have hpreempted := setPreempt_settings p (bitOf v 1) s
  have hconfigured : (ethPort configured p).settings = { (ethPort s p).settings with
      preempt := bitOf v 1, enable := bitOf v 0, pauseRx := bitOf v 2, pauseTx := bitOf v 3, mediaPct := bitsOf v 14 8
      dscpPtp := bitsOf v 21 16, dscpCtl := bitsOf v 29 24 } := by
    rw [show configured = modEth p _ preempted from rfl, ethPort_modEth]
    exact congrArg (fun x : EthPort => { x with
      enable := bitOf v 0, pauseRx := bitOf v 2, pauseTx := bitOf v 3, mediaPct := bitsOf v 14 8
      dscpPtp := bitsOf v 21 16, dscpCtl := bitsOf v 29 24 }) hpreempted
  have hunpaused : SettingsStand configured unpaused := .ite (.refl _) (settingsStand_endPause p configured)
  have hunpausing : SettingsStand configured unpausing :=
    hunpaused.trans (.ite (.refl _) (settingsStand_stopPausing p unpaused))
  obtain ⟨hports, hbeyond⟩ :=
    hunpausing.trans (.ite (q := bitOf v 0 = true) (.refl _) (settingsStand_setLink p 0 3 unpausing))
  refine ⟨(hports p).trans hconfigured, hbeyond.trans rfl, fun hoff => ?_⟩
  rw [if_neg (by simp [hoff])]
  exact setLink_link ..

/-- The frame size is set on every port of the list. -/
theorem setMaxFrames (n : Nat) (ps : List Nat) (s : State) :
    (∀ q ∈ ps, (ethPort (ps.foldl (fun s q => modEth q (fun x => { x with maxFrame := n }) s) s) q).maxFrame = n)
      ∧ (∀ q, (ethPort s q).maxFrame = n →
        (ethPort (ps.foldl (fun s q => modEth q (fun x => { x with maxFrame := n }) s) s) q).maxFrame = n) := by
  have hstays (x : State) (k q : Nat) (h : (ethPort x q).maxFrame = n) :
      (ethPort (modEth k (fun x => { x with maxFrame := n }) x) q).maxFrame = n := by
    by_cases hq : q = k
    · subst hq
      rw [ethPort_modEth]
    · rw [ethPort_modEth_other hq, h]
  induction ps generalizing s with
  | nil => exact ⟨fun q hq => absurd hq (List.not_mem_nil), fun q h => h⟩
  | cons k ps ih =>
    obtain ⟨hin, hkeeps⟩ := ih (modEth k (fun x => { x with maxFrame := n }) s)
    refine ⟨fun q hq => ?_, fun q h => hkeeps q (hstays s k q h)⟩
    rcases List.mem_cons.mp hq with rfl | hq
    · exact hkeeps q (by rw [ethPort_modEth])
    · exact hin q hq

/-- A port beside the size of its frames. -/
def EthPort.beyondFrame (x : EthPort) : EthPort := { x with maxFrame := 0 }

theorem setMaxFrames_beyond (n : Nat) (ps : List Nat) (s : State) :
    (∀ j, (ethPort (ps.foldl (fun s q => modEth q (fun x => { x with maxFrame := n }) s) s) j).beyondFrame
        = (ethPort s j).beyondFrame)
      ∧ (ps.foldl (fun s q => modEth q (fun x => { x with maxFrame := n }) s) s).eth.beyondPorts = s.eth.beyondPorts
      ∧ (ps.foldl (fun s q => modEth q (fun x => { x with maxFrame := n }) s) s).clock = s.clock := by
  refine List.foldlRecOn (motive := fun x : State => (∀ j, (ethPort x j).beyondFrame = (ethPort s j).beyondFrame)
    ∧ x.eth.beyondPorts = s.eth.beyondPorts ∧ x.clock = s.clock) ps _ ⟨fun _ => rfl, rfl, rfl⟩ fun x hx q _ => ?_
  obtain ⟨hports, hbeyond, hclock⟩ := hx
  refine ⟨fun j => (readPort_modEth EthPort.beyondFrame ?_ q x j).trans (hports j), hbeyond, hclock⟩
  exact fun _ => rfl

/-- The values of ETH_PORT_CFG with the state of the link that they leave. -/
def EthPort.configured (x : EthPort) : (Bool × Bool × Bool × Bool × Nat × Nat) × Nat :=
  ((x.enable, x.preempt, x.pauseRx, x.pauseTx, x.mediaPct, x.dscpPtp), x.link)

/-- ETH_PORT_CONFIG applies the selected values, and puts a change of the port mode off. -/
theorem effEthPortConfig_applies (c : HostCmd) (s : State) : ∃ u, (effEthPortConfig s c).1 = u
    ∧ (bitOf (u8 c.params 1) 0 = true →
      (ethPort u (u8 c.params 0)).configured.1 = (bitOf (u32 c.params 4) 0, bitOf (u32 c.params 4) 1, bitOf (u32 c.params 4) 2,
          bitOf (u32 c.params 4) 3, bitsOf (u32 c.params 4) 14 8, bitsOf (u32 c.params 4) 21 16)
        ∧ (bitOf (u32 c.params 4) 0 = false → (ethPort u (u8 c.params 0)).configured.2 = 0))
    ∧ (bitOf (u8 c.params 1) 1 = true → ∀ q ∈ maxFramePorts s (u8 c.params 0), (ethPort u q).maxFrame = u16 c.params 8)
    ∧ (bitOf (u8 c.params 1) 2 = true → (ethPort u (u8 c.params 0)).vid = bitsOf (u32 c.params 12) 11 0
      ∧ (ethPort u (u8 c.params 0)).pcpExp = bitsOf (u32 c.params 12) 14 12
      ∧ (ethPort u (u8 c.params 0)).pcpMedia = bitsOf (u32 c.params 12) 18 16)
    ∧ (bitOf (u8 c.params 1) 3 = true → (ethPort u (u8 c.params 0)).txPol = bitsOf (u32 c.params 16) 7 0
      ∧ (ethPort u (u8 c.params 0)).rxPol = bitsOf (u32 c.params 16) 15 8)
    ∧ u.eth.modeChange = (if bitOf (u8 c.params 1) 4 = true then
        some (bitOf (u32 c.params 20) 0, bitsOf (u32 c.params 20) 2 1, s.clock.clk + 10000000) else s.eth.modeChange)
    ∧ u.eth.rx = s.eth.rx ∧ u.eth.tx = s.eth.tx := by
  unfold effEthPortConfig
  extract_lets p sel vl pol mode cfgd framed tagged policed moded
  refine ⟨moded, rfl, ?_⟩
  have hmoded (j : Nat) : ethPort moded j = ethPort policed j := ite_keeps (fun x => ethPort x j) rfl rfl
  have hcfgdMoves : Moves [.flash, .evt, .eth] s cfgd := .ite (applyPortCfg_moves _ _ (.refl _ s)) (.refl _ s)
  have hcfgdBeyond : cfgd.eth.beyondPorts = s.eth.beyondPorts :=
    ite_keeps (fun x : State => x.eth.beyondPorts) (applyPortCfg_applies ..).2.1 rfl
  obtain ⟨hframed, hframedBeyond, hframedClock⟩ : (∀ j, (ethPort framed j).beyondFrame = (ethPort cfgd j).beyondFrame)
      ∧ framed.eth.beyondPorts = cfgd.eth.beyondPorts ∧ framed.clock = cfgd.clock := by
    by_cases h : bitOf sel 1 = true
    · rw [show framed = _ from if_pos h]
      exact setMaxFrames_beyond ..
    · rw [show framed = _ from if_neg h]
      exact ⟨fun _ => rfl, rfl, rfl⟩
  have htaggedSame : tagged.eth.beyondPorts = framed.eth.beyondPorts ∧ tagged.clock = framed.clock := by
    simp only [tagged]
    split <;> exact ⟨rfl, rfl⟩
  have hpolicedSame : policed.eth.beyondPorts = tagged.eth.beyondPorts ∧ policed.clock = tagged.clock := by
    simp only [policed]
    split <;> exact ⟨rfl, rfl⟩
  have hbeyond : policed.eth.beyondPorts = s.eth.beyondPorts :=
    hpolicedSame.1.trans (htaggedSame.1.trans (hframedBeyond.trans hcfgdBeyond))
  have hclock : policed.clock = s.clock :=
    hpolicedSame.2.trans (htaggedSame.2.trans (hframedClock.trans (hcfgdMoves.same .clock rfl)))
  refine ⟨fun h => ?cfg, fun h q hq => ?frame, fun h => ?vlan, fun h => ?pol, ?mode, ?rx, ?tx⟩
  case cfg =>
    have hcfgd : cfgd = applyPortCfg p (u32 c.params 4) s := if_pos h
    obtain ⟨hsettings, -, hlink⟩ := applyPortCfg_applies p (u32 c.params 4) s
    have hread : (ethPort moded p).configured = (ethPort cfgd p).configured := by
      rw [hmoded]
      refine (readPort_modEth_if EthPort.configured ?_ _ p tagged p).trans
        ((readPort_modEth_if EthPort.configured ?_ _ p framed p).trans ?_)
      · exact fun _ => rfl
      · exact fun _ => rfl
      · exact (congrArg EthPort.configured (hframed p) :)
    rw [hread, hcfgd]
    exact ⟨(congrArg (fun x => x.configured.1) hsettings :), hlink⟩
  case frame =>
    have hlist : maxFramePorts cfgd p = maxFramePorts s p := by
      have haon : cfgd.aon = s.aon := hcfgdMoves.same .aon rfl
      simp only [maxFramePorts, haon]
    rw [hmoded]
    refine (readPort_modEth_if EthPort.maxFrame ?_ _ p tagged q).trans
      ((readPort_modEth_if EthPort.maxFrame ?_ _ p framed q).trans ?_)
    · exact fun _ => rfl
    · exact fun _ => rfl
    · rw [show framed = _ from if_pos h]
      exact (setMaxFrames ..).1 q (hlist ▸ hq)
  case vlan =>
    have htagged : tagged = modEth p _ framed := if_pos h
    have hread (g : EthPort → Nat) (hg : ∀ (x : EthPort) a b, g { x with txPol := a, rxPol := b } = g x) :
        g (ethPort moded p) = g (ethPort tagged p) := by
      rw [hmoded]
      exact readPort_modEth_if g (fun x => hg x _ _) _ p tagged p
    have hset := ethPort_modEth p (fun x => { x with
      vid := bitsOf vl 11 0, pcpExp := bitsOf vl 14 12, pcpMedia := bitsOf vl 18 16 }) framed
    exact ⟨(hread EthPort.vid fun _ _ _ => rfl).trans (htagged ▸ congrArg EthPort.vid hset),
      (hread EthPort.pcpExp fun _ _ _ => rfl).trans (htagged ▸ congrArg EthPort.pcpExp hset),
      (hread EthPort.pcpMedia fun _ _ _ => rfl).trans (htagged ▸ congrArg EthPort.pcpMedia hset)⟩
  case pol =>
    have hpoliced : policed = modEth p _ tagged := if_pos h
    rw [hmoded, hpoliced, ethPort_modEth]
    exact ⟨rfl, rfl⟩
  case mode =>
    have hstill : policed.eth.modeChange = s.eth.modeChange := (congrArg Eth.modeChange hbeyond :)
    simp only [moded]
    split
    next => exact congrArg (fun x : Clock => some (bitOf mode 0, bitsOf mode 2 1, x.clk + 10000000)) hclock
    next => exact hstill
  case rx =>
    have hmodedRx : moded.eth.rx = policed.eth.rx := ite_keeps (fun x : State => x.eth.rx) rfl rfl
    exact hmodedRx.trans (congrArg Eth.rx hbeyond :)
  case tx =>
    have hmodedTx : moded.eth.tx = policed.eth.tx := ite_keeps (fun x : State => x.eth.tx) rfl rfl
    exact hmodedTx.trans (congrArg Eth.tx hbeyond :)

theorem runCommand_eth {op : Op} {own : Refuse} {t : Nat} {c : HostCmd} {s : State} (eff : Effect)
    (h : accepted op own t c s = true) : (runCommand op own eff t c s).eth = (eff (begun op t c s) c).1.eth :=
  (runCommand_after_effect eff h).same .eth rfl

theorem runCommand_aon {op : Op} {own : Refuse} {t : Nat} {c : HostCmd} {s : State} (eff : Effect)
    (h : accepted op own t c s = true) : (runCommand op own eff t c s).aon = (eff (begun op t c s) c).1.aon :=
  (runCommand_after_effect eff h).same .aon rfl

/-! ETH_IP_CONFIG. -/

/-- The IPv4 values that the command gives a port. -/
def ip4Given (c : HostCmd) (x : IpRegs) : IpRegs :=
  { x with ip4 := u32 c.params 4, prefix4 := u8 c.params 8, gw4 := u32 c.params 12 }

/-- The IPv6 values that the command gives a port. -/
def ip6Given (c : HostCmd) (x : IpRegs) : IpRegs :=
  { x with ip6 := beNat (sub c.params 16 16), prefix6 := u8 c.params 32, gw6 := beNat (sub c.params 36 16) }

/-- IPv4 values are set; the address must be probed anew. -/
def setIp4 (c : HostCmd) (s : State) : State :=
  onEth (fun e => { e with probes := tdel e.probes (3 * u8 c.params 0) })
    (onAon (fun a => { a with ip := tmod {} a.ip (u8 c.params 0) (ip4Given c) }) s)

/-- IPv6 values are set; the address must be probed anew. -/
def setIp6 (c : HostCmd) (s : State) : State :=
  onEth (fun e => { e with probes := tdel e.probes (3 * u8 c.params 0 + 2) })
    (onAon (fun a => { a with ip := tmod {} a.ip (u8 c.params 0) (ip6Given c) }) s)

theorem effEthIpConfig_stages (c : HostCmd) (s : State) : (effEthIpConfig s c).1
    = if bitOf (u8 c.params 1) 1 = true then setIp6 c (if bitOf (u8 c.params 1) 0 = true then setIp4 c s else s)
      else if bitOf (u8 c.params 1) 0 = true then setIp4 c s else s := rfl

theorem tget_tdel_same {α : Type} (d : α) (m : Table α) (n : Nat) : tget d (tdel m n) n = d := by
  rw [tget, tfind_tdel, if_pos rfl, Option.getD_none]

theorem setIp4_sets (c : HostCmd) (s : State) :
    tget {} (setIp4 c s).aon.ip (u8 c.params 0) = ip4Given c (tget {} s.aon.ip (u8 c.params 0))
      ∧ (∀ p, p ≠ u8 c.params 0 → tget {} (setIp4 c s).aon.ip p = tget {} s.aon.ip p)
      ∧ probeOf (setIp4 c s) (u8 c.params 0) 0 = {} :=
  ⟨tget_tmod_same .., fun _ hp => tget_tmod_other {} s.aon.ip (ip4Given c) hp.symm, tget_tdel_same ..⟩

theorem setIp6_sets (c : HostCmd) (s : State) :
    tget {} (setIp6 c s).aon.ip (u8 c.params 0) = ip6Given c (tget {} s.aon.ip (u8 c.params 0))
      ∧ (∀ p, p ≠ u8 c.params 0 → tget {} (setIp6 c s).aon.ip p = tget {} s.aon.ip p)
      ∧ probeOf (setIp6 c s) (u8 c.params 0) 2 = {}
      ∧ probeOf (setIp6 c s) (u8 c.params 0) 0 = probeOf s (u8 c.params 0) 0 :=
  ⟨tget_tmod_same .., fun _ hp => tget_tmod_other {} s.aon.ip (ip6Given c) hp.symm, tget_tdel_same .., tget_tdel_other _ _ (by omega)⟩

/-- ETH_IP_CONFIG sets the selected values of one port. -/
theorem effEthIpConfig_sets (c : HostCmd) (s : State) : ∃ u, (effEthIpConfig s c).1 = u
    ∧ (bitOf (u8 c.params 1) 0 = true → (tget {} u.aon.ip (u8 c.params 0)).ip4 = u32 c.params 4
      ∧ (tget {} u.aon.ip (u8 c.params 0)).prefix4 = u8 c.params 8 ∧ (tget {} u.aon.ip (u8 c.params 0)).gw4 = u32 c.params 12
      ∧ probeOf u (u8 c.params 0) 0 = {})
    ∧ (bitOf (u8 c.params 1) 1 = true → (tget {} u.aon.ip (u8 c.params 0)).ip6 = beNat (sub c.params 16 16)
      ∧ (tget {} u.aon.ip (u8 c.params 0)).prefix6 = u8 c.params 32
      ∧ (tget {} u.aon.ip (u8 c.params 0)).gw6 = beNat (sub c.params 36 16) ∧ probeOf u (u8 c.params 0) 2 = {})
    ∧ ∀ p, p ≠ u8 c.params 0 → tget {} u.aon.ip p = tget {} s.aon.ip p := by
  rw [effEthIpConfig_stages]
  generalize hfirst : (if bitOf (u8 c.params 1) 0 = true then setIp4 c s else s) = x
  obtain ⟨hfour, hfourOthers, hfourProbe⟩ := setIp4_sets c s
  obtain ⟨hsix, hsixOthers, hsixProbe, hstill⟩ := setIp6_sets c x
  have hothers (p : Nat) (hp : p ≠ u8 c.params 0) : tget {} x.aon.ip p = tget {} s.aon.ip p := by
    subst hfirst
    exact ite_keeps (fun y : State => tget ({} : IpRegs) y.aon.ip p) (hfourOthers p hp) rfl
  refine ⟨_, rfl, fun h => ?_, fun h => ?_, fun p hp => ?_⟩
  · rw [if_pos h] at hfirst
    subst hfirst
    split
    · rw [hsix, hstill]
      exact ⟨congrArg (·.ip4) hfour, congrArg (·.prefix4) hfour, congrArg (·.gw4) hfour, hfourProbe⟩
    · exact ⟨congrArg (·.ip4) hfour, congrArg (·.prefix4) hfour, congrArg (·.gw4) hfour, hfourProbe⟩
  · rw [if_pos h]
    exact ⟨congrArg (·.ip6) hsix, congrArg (·.prefix6) hsix, congrArg (·.gw6) hsix, hsixProbe⟩
  · exact (ite_keeps (fun y : State => tget ({} : IpRegs) y.aon.ip p) (hsixOthers p hp) rfl).trans (hothers p hp)

/-! ETH_TX_FLOW and ETH_RX_FLOW. -/

theorem effEthTxFlow_defines (c : HostCmd) (s : State) : ∃ u, (effEthTxFlow s c).1 = u
    ∧ (u8 c.params 2 = 0 → txFlow u (u16 c.params 0) = { cnt := (txFlow s (u16 c.params 0)).cnt })
    ∧ (u8 c.params 2 ≠ 0 → (txDest s (u16 c.params 0)).isSome = true →
      (txFlow u (u16 c.params 0)).next = some (txCfgOf c) ∧ (txFlow u (u16 c.params 0)).cfg = (txFlow s (u16 c.params 0)).cfg)
    ∧ (u8 c.params 2 ≠ 0 → txDest s (u16 c.params 0) = none →
      (txFlow u (u16 c.params 0)).next = none ∧ (txFlow u (u16 c.params 0)).cfg = txCfgOf c)
    ∧ (∀ f, f ≠ u16 c.params 0 → txFlow u f = txFlow s f) ∧ u.eth.rx = s.eth.rx := by
  have hkind : (txCfgOf c).kind = u8 c.params 2 := rfl
  refine ⟨_, rfl, fun h => ?_, fun h hdest => ?_, fun h hdest => ?_, fun f hf => ?_, ?_⟩
  · have heffect : (effEthTxFlow s c).1 = modTxFlow (u16 c.params 0) (fun y => { cnt := y.cnt }) s := if_pos (hkind.trans h)
    rw [heffect, txFlow_modTxFlow]
  · have heffect : (effEthTxFlow s c).1 = modTxFlow (u16 c.params 0) (fun y => { y with next := some (txCfgOf c) }) s :=
      (if_neg (hkind ▸ h)).trans (if_pos hdest)
    rw [heffect, txFlow_modTxFlow]
    exact ⟨rfl, rfl⟩
  · have heffect : (effEthTxFlow s c).1 = modTxFlow (u16 c.params 0) (fun y => { y with cfg := txCfgOf c, next := none }) s :=
      (if_neg (hkind ▸ h)).trans (if_neg (by simp [hdest]))
    rw [heffect, txFlow_modTxFlow]
    exact ⟨rfl, rfl⟩
  · exact ite_keeps (fun x => txFlow x f) (txFlow_modTxFlow_other hf ..)
      (ite_keeps (fun x => txFlow x f) (txFlow_modTxFlow_other hf ..) (txFlow_modTxFlow_other hf ..))
  · exact ite_keeps (fun x : State => x.eth.rx) rfl (ite_keeps (fun x : State => x.eth.rx) rfl rfl)

/-- What ETH_RX_FLOW makes of the flow that it names. -/
def RxFlow.taken (y x old : RxFlow) : RxFlow :=
  if x.kind = 0 then { cnt := y.cnt }
  else if (decide (old.kind = x.kind) && decide (old.format = x.format)) = true then { y with
    legA := x.legA, legB := x.legB, pt := x.pt, pd := x.pd, anc := x.anc, joinAt := x.joinAt, joinLeft := 2
    a := if y.legA = x.legA then y.a else x.a, b := if y.legB = x.legB then y.b else x.b }
  else { x with cnt := y.cnt }

/-- Memberships that a flow gives up are reported; then the flow is as the command says. -/
theorem effEthRxFlow_takes (c : HostCmd) (s : State) : ∃ y, y.eth.beyondPorts = s.eth.beyondPorts
    ∧ (effEthRxFlow s c).1 = modRxFlow (u16 c.params 0)
      (fun z => z.taken (rxFlowOf c s.clock.clk) (rxFlow s (u16 c.params 0))) y := by
  refine ⟨_, ?_, rfl⟩
  exact List.foldlRecOn (motive := fun y : State => y.eth.beyondPorts = s.eth.beyondPorts) _ _ rfl
    fun y hy l _ => (beyondPorts_reportLeg ..).trans hy

theorem effEthRxFlow_defines (c : HostCmd) (s : State) : ∃ u, (effEthRxFlow s c).1 = u
    ∧ (u8 c.params 2 = 0 → rxFlow u (u16 c.params 0) = { cnt := (rxFlow s (u16 c.params 0)).cnt })
    ∧ (u8 c.params 2 ≠ 0 → (rxFlow u (u16 c.params 0)).kind = u8 c.params 2
      ∧ (rxFlow u (u16 c.params 0)).format = u8 c.params 4 ∧ (rxFlow u (u16 c.params 0)).pt = u8 c.params 5
      ∧ (rxFlow u (u16 c.params 0)).pd = u8 c.params 6
      ∧ ((rxFlow u (u16 c.params 0)).legA, (rxFlow u (u16 c.params 0)).legB) = legsOf c.params (u8 c.params 3) 12
      ∧ (rxFlow u (u16 c.params 0)).joinLeft = 2 ∧ (rxFlow u (u16 c.params 0)).cnt = (rxFlow s (u16 c.params 0)).cnt)
    ∧ (∀ f, f ≠ u16 c.params 0 → rxFlow u f = rxFlow s f) ∧ u.eth.tx = s.eth.tx := by
  obtain ⟨y, hbeyond, heffect⟩ := effEthRxFlow_takes c s
  have hrx : y.eth.rx = s.eth.rx := (congrArg Eth.rx hbeyond :)
  have htx : y.eth.tx = s.eth.tx := (congrArg Eth.tx hbeyond :)
  have hflow (f : Nat) : rxFlow y f = rxFlow s f := by simp only [rxFlow, hrx]
  have hkind : (rxFlowOf c s.clock.clk).kind = u8 c.params 2 := rfl
  refine ⟨_, heffect, fun h => ?_, fun h => ?_, fun f hf => (rxFlow_modRxFlow_other hf ..).trans (hflow f), htx⟩
  · rw [rxFlow_modRxFlow, hflow]
    exact if_pos (hkind.trans h)
  · rw [rxFlow_modRxFlow, hflow]
    unfold RxFlow.taken
    rw [if_neg (hkind ▸ h)]
    split
    next hsame =>
      obtain ⟨hsameKind, hsameFormat⟩ := Bool.and_eq_true_iff.mp hsame
      exact ⟨of_decide_eq_true hsameKind, of_decide_eq_true hsameFormat, rfl, rfl, rfl, rfl, rfl⟩
    next => exact ⟨rfl, rfl, rfl, rfl, rfl, rfl, rfl⟩

end Sys2Proof.Machine

section
open Sys2Proof Sys2Proof.Machine

/-- Settles O39, one case per command: the block after an accepted command is that of its effect; queries are answers. -/
theorem ethernetCommandsTakeEffect : Obligations.EthernetCommandsTakeEffect := by
  unfold Obligations.EthernetCommandsTakeEffect
  refine ⟨?port, ?ip, ?counters, ?tx, ?rx, ?query⟩
  case port =>
    intro t c s h
    obtain ⟨u, hu, hcfg, hframe, hvlan, hpol, hmode, hrx, htx⟩ := effEthPortConfig_applies c (begun .ethPortConfig t c s)
    have heth : (runCommand .ethPortConfig refuseEthPortConfig effEthPortConfig t c s).eth = u.eth :=
      (runCommand_eth effEthPortConfig h).trans (congrArg State.eth hu)
    refine ⟨_, rfl, ?_⟩
    simp only [ethPort_congr heth, heth]
    refine ⟨fun hsel => ?_, hframe, hvlan, hpol, hmode, hrx, htx⟩
    obtain ⟨hvalues, hlink⟩ := hcfg hsel
    simp only [EthPort.configured, Prod.mk.injEq] at hvalues
    obtain ⟨henable, hpreempt, hpauseRx, hpauseTx, hpct, hdscp⟩ := hvalues
    exact ⟨henable, hpreempt, hpauseRx, hpauseTx, hpct, hdscp, hlink⟩
  case ip =>
    intro t c s h
    obtain ⟨u, hu, hfour, hsix, hothers⟩ := effEthIpConfig_sets c (begun .ethIpConfig t c s)
    have heth : (runCommand .ethIpConfig refuseEthIpConfig effEthIpConfig t c s).eth = u.eth :=
      (runCommand_eth effEthIpConfig h).trans (congrArg State.eth hu)
    have haon : (runCommand .ethIpConfig refuseEthIpConfig effEthIpConfig t c s).aon = u.aon :=
      (runCommand_aon effEthIpConfig h).trans (congrArg State.aon hu)
    refine ⟨_, rfl, ?_⟩
    simp only [probeOf, heth, haon]
    exact ⟨hfour, hsix, hothers⟩
  case counters =>
    intro t c s h
    exact congrArg _ (runCommand_answered h rfl)
  case tx =>
    intro t c s h
    obtain ⟨u, hu, hdeletes, hwaits, hchanges, hothers, hrx⟩ := effEthTxFlow_defines c (begun .ethTxFlow t c s)
    have heth : (runCommand .ethTxFlow refuseEthTxFlow effEthTxFlow t c s).eth = u.eth :=
      (runCommand_eth effEthTxFlow h).trans (congrArg State.eth hu)
    refine ⟨_, rfl, ?_⟩
    simp only [txFlow, heth]
    exact ⟨hdeletes, hwaits, hchanges, hothers, hrx⟩
  case rx =>
    intro t c s h
    obtain ⟨u, hu, hdeletes, hdefines, hothers, htx⟩ := effEthRxFlow_defines c (begun .ethRxFlow t c s)
    have heth : (runCommand .ethRxFlow refuseEthRxFlow effEthRxFlow t c s).eth = u.eth :=
      (runCommand_eth effEthRxFlow h).trans (congrArg State.eth hu)
    refine ⟨_, rfl, ?_⟩
    simp only [rxFlow, heth]
    exact ⟨hdeletes, hdefines, hothers, htx⟩
  case query =>
    intro t c s h
    exact congrArg _ (runCommand_answered h rfl)
end
end

section
/-! PROOFS. The merge, the legs and the sending of media flows (O41). -/

-- The package is checked as one text; elaborating these proofs in order keeps the number of threads small.
set_option Elab.async false

namespace Sys2Proof.Machine

/-! Receive flows and their counters. -/

theorem bumpBy_same (m : Counters) (i n : Nat) : tget 0#32 (bumpBy m i n) i = tget 0#32 m i + w32 n := tget_tset_same ..

theorem bumpBy_other (m : Counters) {i j : Nat} (n : Nat) (h : i ≠ j) : tget 0#32 (bumpBy m i n) j = tget 0#32 m j :=
  tget_tset_other _ _ _ h

theorem rxFlow_congr {s x : State} (h : x.eth = s.eth) (f : Nat) : rxFlow x f = rxFlow s f := by simp only [rxFlow, h]

theorem txFlow_congr {s x : State} (h : x.eth = s.eth) (f : Nat) : txFlow x f = txFlow s f := by simp only [txFlow, h]

theorem rxFlow_rxAdd (f i n : Nat) (s : State) :
    rxFlow (rxAdd f i n s) f = { rxFlow s f with cnt := bumpBy (rxFlow s f).cnt i n } :=
  (rxFlow_congr (cntRange_eth ..) f).trans (rxFlow_modRxFlow ..)

theorem rxFlow_rxAdd_other {g f : Nat} (h : g ≠ f) (i n : Nat) (s : State) : rxFlow (rxAdd f i n s) g = rxFlow s g :=
  (rxFlow_congr (cntRange_eth ..) g).trans (rxFlow_modRxFlow_other h ..)

/-- What a delivery makes of a flow's merge: the packets held, the next number, the timestamp, and the packets counted as
delivered and as lost. -/
def RxFlow.merge (x : RxFlow) : List HeldPkt × Option Nat × Option Nat × Word × Word :=
  (x.held, x.next, x.lastRtp, tget 0#32 x.cnt 0, tget 0#32 x.cnt 1)

/-- The counters of deliveries and losses do not see the others. -/
theorem merge_bumpBy {i : Nat} (h0 : i ≠ 0) (h1 : i ≠ 1) (n : Nat) (x : RxFlow) :
    ({ x with cnt := bumpBy x.cnt i n } : RxFlow).merge = x.merge := by
  simp only [RxFlow.merge, bumpBy_other _ n h0, bumpBy_other _ n h1]

/-- A frame that begins notes the timestamp. -/
theorem rxFrameStarts_starts (f : Nat) (k : HeldPkt) (s : State) :
    (rxFlow (rxFrameStarts f k s) f).merge = ({ rxFlow s f with lastRtp := some k.rtp } : RxFlow).merge
      ∧ ∀ g, g ≠ f → rxFlow (rxFrameStarts f k s) g = rxFlow s g := by
  unfold rxFrameStarts
  split
  next =>
    refine ⟨?_, fun g hg => rxFlow_modRxFlow_other hg ..⟩
    rw [rxFlow_modRxFlow]
    rfl
  next =>
    extract_lets _ added
    have hadded : (rxFlow added f).merge = ({ rxFlow s f with lastRtp := some k.rtp } : RxFlow).merge := by
      rw [rxFlow_rxAdd, merge_bumpBy (by decide) (by decide), rxFlow_modRxFlow]
      rfl
    have hothers (g : Nat) (hg : g ≠ f) : rxFlow added g = rxFlow s g :=
      (rxFlow_rxAdd_other hg ..).trans (rxFlow_modRxFlow_other hg ..)
    refine ⟨ite_keeps (fun x => (rxFlow x f).merge) hadded
        ((congrArg RxFlow.merge (rxFlow_congr (raise_eth ..) f)).trans hadded),
      fun g hg => ite_keeps (fun x => rxFlow x g) (hothers g hg) ((rxFlow_congr (raise_eth ..) g).trans (hothers g hg))⟩

/-- A video packet that is delivered is counted, and its timestamp is the flow's last. -/
theorem deliverPacket_video {f : Nat} (k : HeldPkt) (fails : List (Nat × Nat)) {s : State} (h : (rxFlow s f).kind = 1) :
    (rxFlow (deliverPacket f k fails s) f).merge = ((rxFlow s f).held, (rxFlow s f).next, some k.rtp,
        tget 0#32 (rxFlow s f).cnt 0 + 1#32, tget 0#32 (rxFlow s f).cnt 1)
      ∧ ∀ g, g ≠ f → rxFlow (deliverPacket f k fails s) g = rxFlow s g := by
  unfold deliverPacket
  extract_lets bad counted x
  have hcounted : (rxFlow counted f).merge = ((rxFlow s f).held, (rxFlow s f).next, (rxFlow s f).lastRtp,
      tget 0#32 (rxFlow s f).cnt 0 + 1#32, tget 0#32 (rxFlow s f).cnt 1) := by
    rw [rxFlow_rxAdd, merge_bumpBy (by decide) (by decide), rxFlow_rxAdd]
    simp only [RxFlow.merge, bumpBy_same, bumpBy_other _ 1 (show 0 ≠ 1 by decide)]
    rfl
  have hkind : x.kind = 1 := by
    simp only [x, counted, rxFlow_rxAdd]
    exact h
  have hothers (g : Nat) (hg : g ≠ f) : rxFlow counted g = rxFlow s g :=
    (rxFlow_rxAdd_other hg ..).trans (rxFlow_rxAdd_other hg ..)
  rw [if_pos hkind]
  split
  next hsame =>
    have hlast : (rxFlow s f).lastRtp = some k.rtp := (congrArg (fun v => v.2.2.1) hcounted :).symm.trans hsame
    rw [hcounted, hlast]
    exact ⟨rfl, hothers⟩
  next =>
    obtain ⟨hstarts, hstartsOthers⟩ := rxFrameStarts_starts f k counted
    refine ⟨hstarts.trans ?_, fun g hg => (hstartsOthers g hg).trans (hothers g hg)⟩
    exact (congrArg (fun v : List HeldPkt × Option Nat × Option Nat × Word × Word => (v.1, v.2.1, some k.rtp, v.2.2.2)) hcounted :)

/-! The loop of the merge (R412). -/

/-- The merge of a flow moves on from the number `n` to `m`. -/
def takeTurn (f n m : Nat) (s : State) : State :=
  modRxFlow f (fun y => { y with next := some m, held := y.held.filter (fun z => z.n != n) }) s

theorem releaseLoop_of_empty (f : Nat) (fails : List (Nat × Nat)) (fuel : Nat) {s : State} (h : (rxFlow s f).held = []) :
    releaseLoop f fails fuel s = s := by
  cases fuel with
  | zero => rfl
  | succ fuel =>
    unfold releaseLoop
    dsimp only
    rw [h]
    cases (rxFlow s f).next <;> rfl

/-- The packet whose turn it is goes to delivery. -/
theorem releaseLoop_delivers {f : Nat} {k : HeldPkt} (fails : List (Nat × Nat)) (fuel : Nat) {s : State}
    (hheld : (rxFlow s f).held = [k]) (hnext : (rxFlow s f).next = some k.n) :
    releaseLoop f fails (fuel + 1) s
      = releaseLoop f fails fuel (deliverPacket f k fails (takeTurn f k.n ((k.n + 1) % 0x100000000) s)) := by
  have hfound : [k].find? (fun z => z.n == k.n) = some k := List.find?_cons_of_pos (beq_self_eq_true _)
  rw [releaseLoop, takeTurn]
  dsimp only
  rw [hnext, hheld]
  dsimp only
  rw [hfound]

theorem rxFlow_takeTurn {f : Nat} {k : HeldPkt} (m : Nat) {s : State} (hheld : (rxFlow s f).held = [k]) :
    rxFlow (takeTurn f k.n m s) f = { rxFlow s f with next := some m, held := [] } := by
  rw [takeTurn, rxFlow_modRxFlow, hheld, List.filter_cons_of_neg (by simp), List.filter_nil]

theorem rxFlow_takeTurn_other {f g : Nat} (h : g ≠ f) (n m : Nat) (s : State) :
    rxFlow (takeTurn f n m s) g = rxFlow s g := rxFlow_modRxFlow_other h ..

/-- The delivery of the packet whose turn it is. -/
theorem deliverPacket_turn {f : Nat} {k : HeldPkt} (m : Nat) (fails : List (Nat × Nat)) {s : State}
    (hkind : (rxFlow s f).kind = 1) (hheld : (rxFlow s f).held = [k]) :
    (rxFlow (deliverPacket f k fails (takeTurn f k.n m s)) f).merge = ([], some m, some k.rtp,
        tget 0#32 (rxFlow s f).cnt 0 + 1#32, tget 0#32 (rxFlow s f).cnt 1)
      ∧ ∀ g, g ≠ f → rxFlow (deliverPacket f k fails (takeTurn f k.n m s)) g = rxFlow s g := by
  have hturn := rxFlow_takeTurn m hheld
  have hvideo : (rxFlow (takeTurn f k.n m s) f).kind = 1 := (congrArg RxFlow.kind hturn :).trans hkind
  obtain ⟨hmerge, hothers⟩ := deliverPacket_video k fails hvideo
  rw [hturn] at hmerge
  exact ⟨hmerge, fun g hg => (hothers g hg).trans (rxFlow_takeTurn_other hg ..)⟩

/-- The only packet held is delivered in its turn, and the loop ends. -/
theorem releaseLoop_turn {f : Nat} {k : HeldPkt} (fails : List (Nat × Nat)) (fuel : Nat) {s : State}
    (hkind : (rxFlow s f).kind = 1) (hheld : (rxFlow s f).held = [k]) (hnext : (rxFlow s f).next = some k.n) :
    releaseLoop f fails (fuel + 1) s = deliverPacket f k fails (takeTurn f k.n ((k.n + 1) % 0x100000000) s) := by
  have hempty : (rxFlow (deliverPacket f k fails (takeTurn f k.n ((k.n + 1) % 0x100000000) s)) f).held = [] :=
    (congrArg Prod.fst (deliverPacket_turn ((k.n + 1) % 0x100000000) fails hkind hheld).1 :)
  rw [releaseLoop_delivers fails fuel hheld hnext, releaseLoop_of_empty f fails fuel hempty]

/-- The packets that never came are counted as lost once the only packet held has aged PD. -/
theorem releaseLoop_gap {f n : Nat} {k : HeldPkt} (fails : List (Nat × Nat)) (fuel : Nat) {s : State}
    (hheld : (rxFlow s f).held = [k]) (hnext : (rxFlow s f).next = some n) (hn : k.n ≠ n)
    (haged : k.at_ + (rxFlow s f).pd * 100000 ≤ s.clock.clk) :
    releaseLoop f fails (fuel + 1) s = releaseLoop f fails fuel (rxAdd f 1 (aheadOf n k.n) (modRxFlow f (fun y => { y with
      next := some ((n + aheadOf n k.n) % 0x100000000) }) s)) := by
  have hmissing : [k].find? (fun z => z.n == n) = none := List.find?_eq_none.mpr (by simpa using hn)
  have hany : [k].any (fun z => decide (z.at_ + (rxFlow s f).pd * 100000 ≤ s.clock.clk)) = true := by
    simpa using haged
  rw [releaseLoop]
  dsimp only
  rw [hnext, hheld]
  dsimp only
  rw [hmissing]
  dsimp only
  rw [if_pos hany, List.foldl_nil]

/-- The number after a gap is that of the packet held. -/
theorem afterGap {n m : Nat} (hn : n < 0x100000000) (hm : m < 0x100000000) : (n + aheadOf n m) % 0x100000000 = m := by
  unfold aheadOf
  omega

/-! Legs (R413). -/

/-- The state of a leg set as LOST or restored. -/
def RxFlow.withLost (x : RxFlow) (leg : Nat) (lost : Bool) : RxFlow :=
  if leg = 0 then { x with a := { x.a with lost := lost } } else { x with b := { x.b with lost := lost } }

theorem rxFlow_setLegLost (f leg : Nat) (lost : Bool) (s : State) :
    rxFlow (setLegLost f leg lost s) f = (rxFlow s f).withLost leg lost :=
  (rxFlow_congr (raise_eth ..) f).trans (rxFlow_modRxFlow ..)

theorem rxFlow_setLegLost_other {g f : Nat} (h : g ≠ f) (leg : Nat) (lost : Bool) (s : State) :
    rxFlow (setLegLost f leg lost s) g = rxFlow s g :=
  (rxFlow_congr (raise_eth ..) g).trans (rxFlow_modRxFlow_other h ..)

theorem withLost_leg (x : RxFlow) (l : Nat) (lost : Bool) : ((x.withLost l lost).leg l).lost = lost := by
  unfold RxFlow.withLost RxFlow.leg
  split <;> rfl

theorem withLost_leg_other (x : RxFlow) {l m : Nat} (hl : l ≤ 1) (hm : m ≤ 1) (h : m ≠ l) (lost : Bool) :
    (x.withLost l lost).leg m = x.leg m := by
  unfold RxFlow.withLost RxFlow.leg
  by_cases hl0 : l = 0
  · rw [if_pos hl0, if_neg (hl0 ▸ h), if_neg (hl0 ▸ h)]
  · have hm0 : m = 0 := by omega
    rw [if_neg hl0, if_pos hm0, if_pos hm0]

theorem withLost_legs (x : RxFlow) (l : Nat) (lost : Bool) : (x.withLost l lost).legs = x.legs := by
  unfold RxFlow.withLost
  split <;> rfl

theorem legs_le (x : RxFlow) {m : Nat × Leg} (h : m ∈ x.legs) : m.1 ≤ 1 := by
  unfold RxFlow.legs at h
  rcases List.mem_append.mp h with h | h
  · cases ha : x.legA <;> simp_all
  · cases hb : x.legB <;> simp_all

theorem rxFlow_setFlowState (f new : Nat) (s : State) :
    rxFlow (setFlowState f new s) f = { rxFlow s f with state := new } := by
  unfold setFlowState
  dsimp only
  split
  next h => rw [← h]
  next =>
    refine ite_keeps (fun x => rxFlow x f) ((rxFlow_congr (raise_eth ..) f).trans ?_) ?_
    all_goals exact rxFlow_modRxFlow ..

theorem rxFlow_setFlowState_other {g f : Nat} (h : g ≠ f) (new : Nat) (s : State) :
    rxFlow (setFlowState f new s) g = rxFlow s g :=
  ite_keeps (fun x => rxFlow x g) rfl (ite_keeps (fun x => rxFlow x g)
    ((rxFlow_congr (raise_eth ..) g).trans (rxFlow_modRxFlow_other h ..)) (rxFlow_modRxFlow_other h ..))

theorem execLegLost_lost {t f l : Nat} {s : State} (hf : f ≤ 511) (hl : l ≤ 1) (hhas : (rxFlow s f).hasLeg l = true)
    (hup : ((rxFlow s f).leg l).lost = false) (hsilent : ((rxFlow s f).leg l).lastAt + 10000000 ≤ max s.clock.clk t) :
    exec (.legLost t f l) s = .next (if (rxFlow (setLegLost f l true (advance t s)) f).legs.all
        (fun m => ((rxFlow (setLegLost f l true (advance t s)) f).leg m.1).lost)
      then setFlowState f 3 (setLegLost f l true (advance t s)) else setLegLost f l true (advance t s)) := by
  have hthere : ¬ (decide (511 < f) || decide (1 < l)) = true := by simp [Nat.not_lt.mpr hf, Nat.not_lt.mpr hl]
  refine (if_neg hthere).trans (congrArg Host.Outcome.next (if_pos ?_))
  exact Bool.and_eq_true_iff.mpr ⟨Bool.and_eq_true_iff.mpr ⟨hhas, (Bool.not_eq_true' _).mpr hup⟩, decide_eq_true hsilent⟩

theorem execLegRestored_restored {t f l : Nat} {s : State} (hf : f ≤ 511) (hl : l ≤ 1) (hhas : (rxFlow s f).hasLeg l = true)
    (hlost : ((rxFlow s f).leg l).lost = true) (hgood : ((rxFlow s f).leg l).goodSince + 10000000 ≤ max s.clock.clk t)
    (hfresh : max s.clock.clk t ≤ ((rxFlow s f).leg l).lastAt + 1000000) :
    exec (.legRestored t f l) s = .next (if (rxFlow (setLegLost f l false (advance t s)) f).state = 3
      then setFlowState f 2 (setLegLost f l false (advance t s)) else setLegLost f l false (advance t s)) := by
  have hthere : ¬ (decide (511 < f) || decide (1 < l)) = true := by simp [Nat.not_lt.mpr hf, Nat.not_lt.mpr hl]
  refine (if_neg hthere).trans (congrArg Host.Outcome.next (if_pos ?_))
  exact Bool.and_eq_true_iff.mpr ⟨Bool.and_eq_true_iff.mpr ⟨Bool.and_eq_true_iff.mpr ⟨hhas, hlost⟩, decide_eq_true hgood⟩,
    decide_eq_true hfresh⟩

/-- A lost leg, and NO_PACKETS once every leg is lost. -/
theorem legLost_loses {f l : Nat} {s : State} (hl : l ≤ 1) : ∃ u, (if (rxFlow (setLegLost f l true s) f).legs.all
        (fun m => ((rxFlow (setLegLost f l true s) f).leg m.1).lost)
      then setFlowState f 3 (setLegLost f l true s) else setLegLost f l true s) = u
    ∧ ((rxFlow u f).leg l).lost = true
    ∧ ((∀ m ∈ (rxFlow s f).legs, m.1 ≠ l → ((rxFlow s f).leg m.1).lost = true) → (rxFlow u f).state = 3)
    ∧ ∀ g, g ≠ f → rxFlow u g = rxFlow s g := by
  have hlost : ((rxFlow (setLegLost f l true s) f).leg l).lost = true := by rw [rxFlow_setLegLost, withLost_leg]
  refine ⟨_, rfl, ?loses, fun hothers => ?state, fun g hg => ?others⟩
  case loses =>
    refine ite_keeps (fun x => ((rxFlow x f).leg l).lost) ?_ hlost
    rw [rxFlow_setFlowState]
    exact hlost
  case state =>
    have hall : (rxFlow (setLegLost f l true s) f).legs.all
        (fun m => ((rxFlow (setLegLost f l true s) f).leg m.1).lost) = true := by
      rw [rxFlow_setLegLost, withLost_legs, List.all_eq_true]
      intro m hm
      by_cases hml : m.1 = l
      · rw [hml, withLost_leg]
      · rw [withLost_leg_other _ hl (legs_le _ hm) hml]
        exact hothers m hm hml
    rw [if_pos hall, rxFlow_setFlowState]
  case others =>
    exact ite_keeps (fun x => rxFlow x g) ((rxFlow_setFlowState_other hg ..).trans (rxFlow_setLegLost_other hg ..))
      (rxFlow_setLegLost_other hg ..)

/-- A leg that is restored ends NO_PACKETS. -/
theorem legRestored_restores (f l : Nat) (s : State) : ∃ u, (if (rxFlow (setLegLost f l false s) f).state = 3
      then setFlowState f 2 (setLegLost f l false s) else setLegLost f l false s) = u
    ∧ ((rxFlow u f).leg l).lost = false ∧ (rxFlow u f).state ≠ 3 := by
  have hrestored : ((rxFlow (setLegLost f l false s) f).leg l).lost = false := by rw [rxFlow_setLegLost, withLost_leg]
  refine ⟨_, rfl, ?_⟩
  split
  next =>
    rw [rxFlow_setFlowState]
    exact ⟨hrestored, show (2 : Nat) ≠ 3 by decide⟩
  next h => exact ⟨hrestored, h⟩

/-! Sending (R402 to R406). -/

theorem txFlow_txCount (f i : Nat) (s : State) :
    txFlow (txCount f i s) f = { txFlow s f with cnt := bump (txFlow s f).cnt i } :=
  (txFlow_congr (cntRange_eth ..) f).trans (txFlow_modTxFlow ..)

theorem txCount_out (f i : Nat) (s : State) : (txCount f i s).out = s.out :=
  (cntRange_moves _ _ _ _ _ (.refl [.flash, .evt] _)).same .out rfl

theorem ethAdd_out (p i n : Nat) (s : State) : (ethAdd p i n s).out = s.out :=
  (ethAdd_moves p i n (.refl [.flash, .evt, .eth] s)).same .out rfl

theorem txFlow_ethAdd (p i n f : Nat) (s : State) : txFlow (ethAdd p i n s) f = txFlow s f := by
  have htx : (ethAdd p i n s).eth.tx = s.eth.tx := (congrArg Eth.tx (beyondPorts_ethAdd p i n s) :)
  simp only [txFlow, htx]

/-- A packet that is sent leaves, and is counted for its leg. -/
theorem sendMedia_sends (f p : Nat) (rtp : List Byte) (s : State) :
    (sendMedia f p rtp s).out = .media s.clock.clk p f rtp :: s.out
      ∧ tget 0#32 (txFlow (sendMedia f p rtp s) f).cnt p = tget 0#32 (txFlow s f).cnt p + 1#32 := by
  unfold sendMedia
  extract_lets len
  have hsent (x : State) : txFlow (emit (.media s.clock.clk p f rtp) x) f = txFlow x f := txFlow_congr (emit_eth ..) f
  refine ⟨(txCount_out ..).trans ?_, ?_⟩
  · rw [emit_out, ethAdd_out]
    exact congrArg _ (ethAdd_out ..)
  · rw [txFlow_txCount, hsent, txFlow_ethAdd, ethCount, txFlow_ethAdd]
    exact bump_same ..

/-- A packet whose bytes failed parity is dropped, and taints its frame (R406). -/
theorem dropPacket_parity (f p : Nat) (s : State) :
    (dropPacket f p true s).out = s.out ∧ (txFlow (dropPacket f p true s) f).tainted = true
      ∧ tget 0#32 (txFlow (dropPacket f p true s) f).cnt 2 = tget 0#32 (txFlow s f).cnt 2 + 1#32 := by
  have hdrops : dropPacket f p true s = modTxFlow f (fun y => { y with tainted := true }) (txCount f 2 (ethCount p 15 s)) := rfl
  rw [hdrops, txFlow_modTxFlow, txFlow_txCount, ethCount, txFlow_ethAdd]
  exact ⟨(txCount_out ..).trans (ethAdd_out ..), rfl, bump_same ..⟩

/-! The events. -/

theorem execMergeRelease_of_le {t f : Nat} (fails : List (Nat × Nat)) {s : State} (h : f ≤ 511) :
    exec (.mergeRelease t f fails) s = .next (mergeRelease f fails (advance t s)) := if_neg (Nat.not_lt.mpr h)

theorem mergeRelease_of_single {f : Nat} {k : HeldPkt} (fails : List (Nat × Nat)) {s : State}
    (h : (rxFlow s f).held = [k]) : mergeRelease f fails s = releaseLoop f fails 2 s := by
  rw [mergeRelease, h]
  rfl

/-- After a gap the packet held has its turn. -/
theorem mergeRelease_gap {f n : Nat} {k : HeldPkt} (fails : List (Nat × Nat)) {s : State}
    (hkind : (rxFlow s f).kind = 1) (hheld : (rxFlow s f).held = [k]) (hnext : (rxFlow s f).next = some n)
    (hn : n < 0x100000000) (hk : k.n < 0x100000000) (hne : k.n ≠ n)
    (haged : k.at_ + (rxFlow s f).pd * 100000 ≤ s.clock.clk) :
    (rxFlow (mergeRelease f fails s) f).merge = ([], some ((k.n + 1) % 0x100000000), some k.rtp,
      tget 0#32 (rxFlow s f).cnt 0 + 1#32, tget 0#32 (rxFlow s f).cnt 1 + w32 (aheadOf n k.n)) := by
  rw [mergeRelease_of_single fails hheld, releaseLoop_gap fails 1 hheld hnext hne haged, afterGap hn hk]
  generalize hskips : rxAdd f 1 (aheadOf n k.n) (modRxFlow f (fun y => { y with next := some k.n }) s) = x
  have hflow : rxFlow x f = { rxFlow s f with next := some k.n, cnt := bumpBy (rxFlow s f).cnt 1 (aheadOf n k.n) } := by
    rw [← hskips, rxFlow_rxAdd, rxFlow_modRxFlow]
  have hkindStill : (rxFlow x f).kind = 1 := (congrArg RxFlow.kind hflow :).trans hkind
  have hheldStill : (rxFlow x f).held = [k] := (congrArg RxFlow.held hflow :).trans hheld
  have hnextNow : (rxFlow x f).next = some k.n := (congrArg RxFlow.next hflow :)
  have hcnt : (rxFlow x f).cnt = bumpBy (rxFlow s f).cnt 1 (aheadOf n k.n) := (congrArg RxFlow.cnt hflow :)
  rw [releaseLoop_turn fails 0 hkindStill hheldStill hnextNow, (deliverPacket_turn _ fails hkindStill hheldStill).1, hcnt,
    bumpBy_same, bumpBy_other _ _ (show 1 ≠ 0 by decide)]

/-- The sending of a packet of a video flow on leg `l` at the state `s`, as R402 to R406 give it. -/
def sendVideo (f l i sched d : Nat) (parity : Bool) (data : List Byte) (s : State) : State :=
  if parity = true then dropPacket f l true s
  else if sched + 500000 < s.clock.clk then dropPacket f l false s
  else if (ethPort s l).pausedTo.isSome = true then s
  else
    let k := videoPacket s f d l i data
    let u := sendMedia f l k.1 s
    if (k.2 && decide (((txFlow s f).cfg.legs.head?.map (·.1)) = some l)
        && decide (i + 1 = (cutOf u (txFlow s f).cfg l).fieldCount * (cutOf u (txFlow s f).cfg l).perField)) = true then
      modTxFlow f (fun y => { y with tainted := false }) (txCount f 3 u) else u

theorem execMediaPacketSend_video {t f l i sched d : Nat} {data : List Byte} {s : State} (parity : Bool) (hf : f ≤ 511)
    (hl : l ≤ 1) (hsends : mediaSends s = true) (hkind : (txFlow s f).cfg.kind = 1)
    (hleg : (txFlow s f).cfg.legs.any (fun x => x.1 == l) = true) (hlink : (ethPort s l).link = 2) (hdest : txDest s f = some d) :
    exec (.mediaPacketSend t f l i sched parity data) s = .next (sendVideo f l i sched d parity data (advance t s)) := by
  have hthere : ¬ (511 < f ∨ 1 < l) := by omega
  refine Eq.trans (b := execMediaPacketSend t f l i sched parity data s) rfl ?_
  unfold execMediaPacketSend
  rw [if_neg (by simpa using hthere)]
  extract_lets a x owner dest has
  have hkindNow : x.kind = 1 := hkind
  have howner : owner = f := if_neg (by rw [hkindNow]; decide)
  have hdestNow : dest = some d := (congrArg (txDest a) howner :).trans hdest
  have hsendsNow : mediaSends a = true := hsends
  have hhas : has = true := hleg
  have hlinkNow : (ethPort a l).link = 2 := hlink
  have hreached : ¬ (!mediaSends a || !has || decide ((ethPort a l).link ≠ 2) || (decide (x.kind ≠ 2) && dest.isNone)
      || (decide (x.kind = 2) && (streamFor a 2 f).isNone)) = true := by
    simp [hsendsNow, hhas, hlinkNow, hkindNow, hdestNow]
  rw [if_neg hreached, if_pos hkindNow]
  clear_value dest
  subst hdestNow
  rfl

/-- A packet that is due and not held by PAUSE leaves, and is counted. -/
theorem sendVideo_sends {f l i sched d : Nat} {data : List Byte} {s : State} (hl : l ≤ 1)
    (htime : s.clock.clk ≤ sched + 500000) (hopen : (ethPort s l).pausedTo = none) :
    (sendVideo f l i sched d false data s).out = .media s.clock.clk l f (videoPacket s f d l i data).1 :: s.out
      ∧ tget 0#32 (txFlow (sendVideo f l i sched d false data s) f).cnt l = tget 0#32 (txFlow s f).cnt l + 1#32 := by
  obtain ⟨hout, hcnt⟩ := sendMedia_sends f l (videoPacket s f d l i data).1 s
  have hunpaused : ¬ (ethPort s l).pausedTo.isSome = true := by rw [hopen]; decide
  unfold sendVideo
  rw [if_neg (by decide), if_neg (Nat.not_lt.mpr htime), if_neg hunpaused]
  extract_lets k u
  split
  next =>
    rw [txFlow_modTxFlow, txFlow_txCount]
    exact ⟨(txCount_out ..).trans hout, (bump_other _ (show 3 ≠ l by omega)).trans hcnt⟩
  next => exact ⟨hout, hcnt⟩

end Sys2Proof.Machine

section
open Sys2Proof Sys2Proof.Machine

/-- Settles O41, one case per event. -/
theorem mediaFlowEventsTakeEffect : Obligations.MediaFlowEventsTakeEffect := by
  unfold Obligations.MediaFlowEventsTakeEffect
  refine ⟨?turn, ?gap, ?legs, ?send⟩
  case turn =>
    intro t f k fails s hf hkind hheld hnext
    obtain ⟨hmerge, hothers⟩ := deliverPacket_turn ((k.n + 1) % 0x100000000) fails (s := advance t s) hkind hheld
    simp only [RxFlow.merge, Prod.mk.injEq] at hmerge
    obtain ⟨hempty, hnextNow, hlast, hdelivered, hlost⟩ := hmerge
    refine ⟨deliverPacket f k fails (takeTurn f k.n ((k.n + 1) % 0x100000000) (advance t s)), ?_,
      hempty, hnextNow, hlast, hdelivered, hlost, hothers⟩
    rw [execMergeRelease_of_le fails hf, mergeRelease_of_single fails (s := advance t s) hheld,
      releaseLoop_turn fails 1 (s := advance t s) hkind hheld hnext]
  case gap =>
    intro t f n k fails s hf hkind hheld hnext hn hk hne haged
    have hmerge := mergeRelease_gap fails (s := advance t s) hkind hheld hnext hn hk hne haged
    simp only [RxFlow.merge, Prod.mk.injEq] at hmerge
    obtain ⟨hempty, hnextNow, -, hdelivered, hlost⟩ := hmerge
    exact ⟨_, execMergeRelease_of_le fails hf, hempty, hnextNow, hdelivered, hlost⟩
  case legs =>
    intro t f l s hf hl hhas
    refine ⟨fun hup hsilent => ?_, fun hlost hgood hfresh => ?_⟩
    · obtain ⟨u, hu, heffect⟩ := legLost_loses (f := f) (s := advance t s) hl
      exact ⟨u, (execLegLost_lost hf hl hhas hup hsilent).trans (congrArg Host.Outcome.next hu), heffect⟩
    · obtain ⟨u, hu, heffect⟩ := legRestored_restores f l (advance t s)
      exact ⟨u, (execLegRestored_restored hf hl hhas hlost hgood hfresh).trans (congrArg Host.Outcome.next hu), heffect⟩
  case send =>
    intro t f l i sched d data s hf hl hsends hkind hleg hlink hdest
    refine ⟨fun htime hopen => ?_, ?_⟩
    · obtain ⟨hout, hcnt⟩ := sendVideo_sends (f := f) (i := i) (d := d) (data := data) (s := advance t s) hl htime hopen
      exact ⟨_, execMediaPacketSend_video false hf hl hsends hkind hleg hlink hdest, hout ▸ List.mem_cons_self, hcnt⟩
    · exact ⟨_, execMediaPacketSend_video true hf hl hsends hkind hleg hlink hdest, dropPacket_parity f l (advance t s)⟩

end
end

section
/-! PROOFS. Transfers of the bus matrix (O51). -/

-- The package is checked as one text; elaborating these proofs in order keeps the number of threads small.
set_option Elab.async false

namespace Sys2Proof.Machine

/-! The parts of the bus matrix's operations. -/

theorem transfers_congr {s x : State} (h : x.ctl.out = s.ctl.out) (p : Nat) : transfers x p = transfers s p := by
  simp only [transfers, h]

theorem transfers_completePort (p : Nat) (s : State) :
    transfers (completePort p s) p = retireList [] (transfers s p) := by
  unfold completePort
  extract_lets l l'
  show tget [] (if l'.isEmpty = true then tdel s.ctl.out p else tset s.ctl.out p l') p = l'
  split
  next h => rw [tget_tdel_same, List.isEmpty_iff.mp h]
  next => exact tget_tset_same ..

/-- The counters after an answer of a status. -/
def statusCounted (status : Nat) (m : Counters) : Counters :=
  if status = 1 then bumpBy m 0 1 else if status = 2 then bumpBy m 1 1 else m

theorem statusCounted_void (a : Nat) (m : Counters) :
    tget 0#32 (statusCounted a m) 0 = tget 0#32 m 0 + (if a = 1 then 1#32 else 0#32) := by
  unfold statusCounted
  split
  next => exact bumpBy_same ..
  next =>
    rw [BitVec.add_zero]
    split
    next => exact bumpBy_other m 1 (by decide)
    next => rfl

theorem statusCounted_fail (a : Nat) (m : Counters) :
    tget 0#32 (statusCounted a m) 1 = tget 0#32 m 1 + (if a = 2 then 1#32 else 0#32) := by
  unfold statusCounted
  split
  next h => rw [bumpBy_other m 1 (by decide), h, if_neg (by decide), BitVec.add_zero]
  next =>
    split
    next => exact bumpBy_same ..
    next => rw [BitVec.add_zero]

theorem statusCounted_other (a : Nat) {i : Nat} (h : 2 ≤ i) (m : Counters) :
    tget 0#32 (statusCounted a m) i = tget 0#32 m i := by
  unfold statusCounted
  split
  next => exact bumpBy_other m 1 (by omega)
  next =>
    split
    next => exact bumpBy_other m 1 (by omega)
    next => rfl

/-- An answer marks its transfer. -/
def Transfer.answeredBy (tag status : Nat) (x : Transfer) : Transfer :=
  if x.tag = tag then { x with answered := some status } else x

/-- An answer on a port that is not in reset: what is outstanding afterwards, and what is counted. -/
theorem answer_answers {p : Nat} (tag status : Nat) {s : State} (h : s.ctl.portReset.contains p = false) :
    transfers (answer p tag status s) p = retireList [] ((transfers s p).map (Transfer.answeredBy tag status))
      ∧ (answer p tag status s).ctl.cnt = statusCounted status s.ctl.cnt := by
  unfold answer
  extract_lets counted
  have hreset : counted.ctl.portReset = s.ctl.portReset :=
    ite_keeps (fun x => x.ctl.portReset) rfl (ite_keeps (fun x => x.ctl.portReset) rfl rfl)
  have hout : counted.ctl.out = s.ctl.out := ite_keeps (fun x => x.ctl.out) rfl (ite_keeps (fun x => x.ctl.out) rfl rfl)
  have hcnt : counted.ctl.cnt = statusCounted status s.ctl.cnt := by
    unfold statusCounted
    simp only [counted]
    split
    · rfl
    · split <;> rfl
  rw [if_neg (by rw [hreset, h]; decide)]
  refine ⟨?_, hcnt⟩
  rw [transfers_completePort]
  refine congrArg (retireList []) ((tget_tmod_same ..).trans ?_)
  rw [hout]
  rfl

/-- The only transfer of a port, answered, retires. -/
theorem retireList_only (x : Transfer) (status : Nat) :
    retireList [] ([x].map (Transfer.answeredBy x.tag status)) = [] := by
  simp [retireList, Transfer.answeredBy]

/-- An answer waits for an older transfer of its stream (R524). -/
theorem retireList_behind {x y : Transfer} (hx : x.answered = none) (hne : x.tag ≠ y.tag) (status : Nat) :
    retireList [] ([x, y].map (Transfer.answeredBy y.tag status))
      = if x.stream = y.stream then [x, { y with answered := some status }] else [x] := by
  by_cases h : x.stream = y.stream
  · simp [retireList, Transfer.answeredBy, hx, hne, h]
  · simp [retireList, Transfer.answeredBy, hx, hne, h, Ne.symm h]

theorem awaited_only {p : Nat} {x : Transfer} {s : State} (h : transfers s p = [x]) (hx : x.answered = none) :
    awaited s p x.tag = some x := by
  rw [awaited, h]
  exact List.find?_cons_of_pos (by simp [hx])

theorem awaited_second {p : Nat} {x y : Transfer} {s : State} (h : transfers s p = [x, y]) (hy : y.answered = none)
    (hne : x.tag ≠ y.tag) : awaited s p y.tag = some y := by
  rw [awaited, h, List.find?_cons_of_neg (by simp [hne])]
  exact List.find?_cons_of_pos (by simp [hy])

theorem contains_filter_ne (l : List Nat) (n : Nat) : (l.filter (fun x => x != n)).contains n = false := by simp

/-! The failure of a target. -/

/-- The parts that a failure at region or chip level moves. -/
def failureParts : List Part :=
  [.mode, .aon, .pins, .start, .flash, .host, .evt, .saf, .pwr, .xpt, .cue, .red, .lane, .flow, .cmp, .aud, .out]

theorem failTransfers_empty (b p : Nat) {s : State} (h : transfers s p = []) : transfers (failTransfers b s) p = [] :=
  List.eq_nil_of_length_eq_zero
    ((tget_tmap_keeps List.length [] s.ctl.out (fun _ _ => List.length_map _) p).trans (congrArg List.length h))

/-- The failure of a target leaves an empty port empty, and does not count a parity failure of read data. -/
theorem targetFailure_ctl (g : BusTarget) {p : Nat} {s : State} (h : transfers s p = []) :
    transfers (targetFailure g s) p = [] ∧ tget 0#32 (targetFailure g s).ctl.cnt 5 = tget 0#32 s.ctl.cnt 5 := by
  have hsame {x : State} (hx : x.ctl = s.ctl) : transfers x p = [] ∧ tget 0#32 x.ctl.cnt 5 = tget 0#32 s.ctl.cnt 5 :=
    ⟨(transfers_congr (congrArg Ctl.out hx :) p).trans h, by rw [hx]⟩
  cases g with
  | chip => exact hsame ((chipFault_moves _ (.refl failureParts s)).same .ctl rfl)
  | comp n => exact hsame ((compFailure_moves _ (.refl failureParts s)).same .ctl rfl)
  | block n =>
    have hparked := hsame ((parkBlock_moves n (blockFailure_moves n (.refl failureParts s))).same .ctl rfl)
    show transfers (containBlock n s (blockFailure n s)) p = [] ∧ tget 0#32 (containBlock n s (blockFailure n s)).ctl.cnt 5 = _
    unfold containBlock
    dsimp only
    split
    next => exact ⟨failTransfers_empty n p hparked.1, (bumpBy_other _ _ (by decide)).trans hparked.2⟩
    next => exact hparked

/-! Issuing (R523). -/

/-- A transfer that a master issues on an empty port stays outstanding. -/
theorem issueOne_issues {p : Nat} {x : Transfer} {s : State} (hp : p ≤ 6) (hempty : transfers s p = [])
    (hreset : s.ctl.portReset.contains p = false) (htag : x.tag ≤ 31) (hstream : x.stream ≤ 3) (hsome : 1 ≤ x.beats)
    (hmost : x.beats ≤ 16) (hown : ownAnswer s p x = none) :
    transfers (issueOne p x s) p = [{ x with since := s.clock.clk, answered := none }]
      ∧ (issueOne p x s).ctl.cnt = s.ctl.cnt := by
  have hany : [].any (fun y : Transfer => y.tag == x.tag) = false := rfl
  unfold issueOne
  dsimp only
  rw [hreset, hempty, hany, decide_eq_false (show ¬ 6 < p by omega), decide_eq_false (show ¬ 31 < x.tag by omega),
    decide_eq_false (show ¬ 3 < x.stream by omega), decide_eq_false (show ¬ x.beats = 0 by omega),
    decide_eq_false (show ¬ 16 < x.beats by omega), if_neg (by decide), hown]
  refine ⟨?_, rfl⟩
  rw [transfers_completePort]
  have hlist := tget_tset_same [] s.ctl.out p [{ x with since := s.clock.clk, answered := none }]
  refine (congrArg (retireList []) (Eq.trans rfl hlist)).trans (by simp [retireList])

/-! The events. -/

theorem execBusTransferResponse_of_le {t p tag a : Nat} (bad : Bool) (l : List (Nat × Transfer)) {s : State} (h : p ≤ 6) :
    exec (.busTransferResponse t p tag a bad l) s = .next (match awaited (issueAll l (advance t s)) p tag with
      | some x =>
        if bad && !x.write then targetFailure x.target (answer p tag 2 (busCount 5 1 (issueAll l (advance t s))))
        else answer p tag (min a 2) (issueAll l (advance t s))
      | none => issueAll l (advance t s)) := (if_neg (Nat.not_lt.mpr h)).trans rfl

theorem execTargetTimeout_of_awaited {t p tag : Nat} {x : Transfer} {s : State} (h : p ≤ 6)
    (hx : awaited (advance t s) p tag = some x) : exec (.targetTimeout t p tag []) s = .next
      (if x.since + 10000 ≤ max s.clock.clk t then answer p tag 2 (busCount 2 1 (advance t s)) else advance t s) := by
  refine (if_neg (Nat.not_lt.mpr h)).trans (congrArg Host.Outcome.next ?_)
  rw [show issueAll [] (advance t s) = advance t s from rfl, hx]
  rfl

theorem execMasterPortReset_resets {t p : Nat} (n : Nat) {s : State} (h : p ≤ 6) (hmaster : masterResets s p = true)
    (hfree : s.ctl.portReset.contains p = false) : exec (.masterPortReset t p n []) s = .next
      (busCount 4 n (onCtl (fun k => { k with portReset := k.portReset ++ [p] }) (advance t s))) := by
  refine (if_neg (Nat.not_lt.mpr h)).trans (congrArg Host.Outcome.next (if_pos ?_))
  exact Bool.and_eq_true_iff.mpr ⟨hmaster, (Bool.not_eq_true' _).mpr hfree⟩

/-- The reset of a port ends with everything outstanding retired, and the pair that its master held open closed. -/
def retirePort (p : Nat) (s : State) : State :=
  busCount 3 (transfers s p).length (onCtl (fun k => { k with
    out := tdel k.out p, portReset := k.portReset.filter (fun x => x != p)
    lockedPair := match k.lockedPair with
      | some (q, st, a) => if q = p then none else some (q, st, a)
      | none => none }) s)

theorem execPortRetireDone_retires {t p : Nat} {s : State} (h : p ≤ 6) (hheld : s.ctl.portReset.contains p = true) :
    exec (.portRetireDone t p) s = .next (retirePort p (advance t s)) :=
  (if_neg (Nat.not_lt.mpr h)).trans (congrArg Host.Outcome.next (if_pos hheld))

theorem retirePort_lockedPair {p st a : Nat} {s : State} (h : s.ctl.lockedPair = some (p, st, a)) :
    (retirePort p s).ctl.lockedPair = none := by
  simp only [retirePort, busCount, onCtl_ctl, h, if_pos]

theorem execLockedPairTimeout_closes {t p st a : Nat} (n : Nat) {s : State} (hpair : s.ctl.lockedPair = some (p, st, a))
    (hopen : a + 1000 ≤ max s.clock.clk t) : exec (.lockedPairTimeout t n []) s = .next
      (busCount 6 n (onCtl (fun k => { k with lockedPair := none }) (advance t s))) := by
  have hpairNow : (issueAll [] (advance t s)).ctl.lockedPair = some (p, st, a) := hpair
  refine Eq.trans (b := execLockedPairTimeout t n [] s) rfl ?_
  unfold execLockedPairTimeout
  dsimp only
  rw [hpairNow]
  exact congrArg Host.Outcome.next (if_pos hopen)

end Sys2Proof.Machine

section
open Sys2Proof Sys2Proof.Machine

/-- Settles O51, one case per event. -/
theorem busTransfersFollowTheRules : Obligations.BusTransfersFollowTheRules := by
  unfold Obligations.BusTransfersFollowTheRules
  refine ⟨?issue, ?answer, ?behind, ?reset, ?locked⟩
  case issue =>
    intro t p tag x s hp hempty hreset htag hstream hsome hmost hown hne
    obtain ⟨hout, hcnt⟩ := issueOne_issues (s := advance t s) hp hempty hreset htag hstream hsome hmost hown
    have hawaited : awaited (issueAll [(p, x)] (advance t s)) p tag = none := by
      rw [awaited]
      refine (congrArg (List.find? _) hout).trans ?_
      simp [Ne.symm hne]
    refine ⟨issueOne p x (advance t s), ?_, hout, hcnt⟩
    rw [execBusTransferResponse_of_le false _ hp, hawaited]
    rfl
  case answer =>
    intro t p a x s hp honly hx hreset
    have hawaited : awaited (advance t s) p x.tag = some x := awaited_only (s := advance t s) honly hx
    have hanswers (status : Nat) (y : State) (hy : transfers y p = [x]) (hr : y.ctl.portReset.contains p = false) :
        transfers (answer p x.tag status y) p = [] ∧ (answer p x.tag status y).ctl.cnt = statusCounted status y.ctl.cnt := by
      obtain ⟨hout, hcnt⟩ := answer_answers x.tag status hr
      exact ⟨by rw [hout, hy, retireList_only], hcnt⟩
    refine ⟨fun ha => ?answered, fun hread => ?parity, fun hlate => ?timeout⟩
    case answered =>
      obtain ⟨hout, hcnt⟩ := hanswers a (advance t s) honly hreset
      refine ⟨answer p x.tag a (advance t s), ?_, hout, ?_, ?_⟩
      · rw [execBusTransferResponse_of_le false _ hp, show issueAll [] (advance t s) = advance t s from rfl, hawaited,
          Nat.min_eq_left ha]
        rfl
      · rw [hcnt]
        exact statusCounted_void ..
      · rw [hcnt]
        exact statusCounted_fail ..
    case parity =>
      obtain ⟨hout, hcnt⟩ := hanswers 2 (busCount 5 1 (advance t s)) honly hreset
      obtain ⟨hfailed, hfailures⟩ := targetFailure_ctl x.target hout
      refine ⟨targetFailure x.target (answer p x.tag 2 (busCount 5 1 (advance t s))), ?_, hfailed, ?_⟩
      · rw [execBusTransferResponse_of_le true _ hp, show issueAll [] (advance t s) = advance t s from rfl, hawaited]
        exact congrArg Host.Outcome.next (if_pos (by rw [hread]; rfl))
      · rw [hfailures, hcnt, statusCounted_other 2 (by decide)]
        exact bumpBy_same ..
    case timeout =>
      obtain ⟨hout, hcnt⟩ := hanswers 2 (busCount 2 1 (advance t s)) honly hreset
      refine ⟨answer p x.tag 2 (busCount 2 1 (advance t s)), ?_, hout, ?_, ?_⟩
      · exact (execTargetTimeout_of_awaited hp hawaited).trans (congrArg Host.Outcome.next (if_pos hlate))
      · rw [hcnt, statusCounted_other 2 (by decide)]
        exact bumpBy_same ..
      · rw [hcnt, statusCounted_fail, if_pos rfl]
        exact congrArg (· + 1#32) (bumpBy_other s.ctl.cnt 1 (by decide))
  case behind =>
    intro t p a x y s hp hboth hx hy hne hreset ha
    obtain ⟨hout, -⟩ := answer_answers (s := advance t s) y.tag a hreset
    refine ⟨answer p y.tag a (advance t s), ?_, ?_⟩
    · rw [execBusTransferResponse_of_le false _ hp, show issueAll [] (advance t s) = advance t s from rfl,
        awaited_second (s := advance t s) hboth hy hne, Nat.min_eq_left ha]
      rfl
    · rw [hout]
      refine Eq.trans (congrArg (fun l => retireList [] (l.map (Transfer.answeredBy y.tag a))) hboth) ?_
      exact retireList_behind hx hne a
  case reset =>
    intro t p n s hp
    refine ⟨fun hmaster hfree => ?reset, fun hheld => ?retired⟩
    case reset =>
      refine ⟨_, execMasterPortReset_resets n hp hmaster hfree, rfl, bumpBy_same ..⟩
    case retired =>
      refine ⟨_, execPortRetireDone_retires hp hheld, tget_tdel_same .., ?_, bumpBy_same .., fun st a hpair => ?_⟩
      · exact contains_filter_ne _ _
      · exact retirePort_lockedPair (s := advance t s) hpair
  case locked =>
    intro t n p st a s hpair hopen
    exact ⟨_, execLockedPairTimeout_closes n hpair hopen, rfl, rfl, bumpBy_same ..⟩

end
end

section
/-! PROOFS. Parity failures of contexts, of a processor's own SRAM and of the control SRAM, and the reloads (O50). -/

-- The package is checked as one text; elaborating these proofs in order keeps the number of threads small.
set_option Elab.async false

namespace Sys2Proof.Machine

/-! The command queue through a chip fault: replies and transitions leave it. -/

/-- Two states hold the same commands that wait. -/
def QueueKept (s x : State) : Prop := x.host.queue = s.host.queue

section
variable {s x u : State}

theorem QueueKept.refl (s : State) : QueueKept s s := rfl

theorem QueueKept.trans (h : QueueKept s x) (g : QueueKept x u) : QueueKept s u := Eq.trans g h

/-- What leaves the host interface alone. -/
theorem QueueKept.moved {l : List Part} (h : QueueKept s x) (hm : Moves l x u)
    (hh : l.contains .host = false := by rfl) : QueueKept s u := by
  have hhost : u.host = x.host := hm.same .host hh
  unfold QueueKept
  rw [hhost]
  exact h

theorem QueueKept.ite {q : Prop} [Decidable q] {a b : State} (ha : QueueKept s a) (hb : QueueKept s b) :
    QueueKept s (if q then a else b) := by
  split
  · exact ha
  · exact hb

theorem QueueKept.foldl {β : Type} {f : State → β → State} (h : QueueKept s x) (l : List β)
    (hf : ∀ y b, QueueKept y (f y b)) : QueueKept s (l.foldl f x) :=
  List.foldlRecOn (motive := fun y => QueueKept s y) l f h (fun y hy b _ => hy.trans (hf y b))

theorem QueueKept.alike (h : QueueKept s x) (g : u.host.alike x.host) : QueueKept s u :=
  h.trans (by rw [QueueKept, g])

theorem QueueKept.finish (h : QueueKept s x) (op : Op) (c : HostCmd) (st : Status) (ps : List Byte) :
    QueueKept s (finish op c st ps x) := h.alike (finish_alike ..)

theorem QueueKept.entryGone (h : QueueKept s x) (e : Entry) (res : Option (Status × Nat)) (frame : Nat) :
    QueueKept s (entryGone e res frame x) := by
  unfold Machine.entryGone
  dsimp only
  refine .ite h ?_
  split
  next => exact h
  next =>
    have hwaits (k : Xpt) : QueueKept s { x with xpt := k } := h
    refine .ite ?_ h
    split
    · exact (hwaits _).finish ..
    · exact (hwaits _).finish ..

theorem QueueKept.discardEntries (h : QueueKept s x) (p : Entry → Bool) (cause : Nat) :
    QueueKept s (discardEntries p cause x) := by
  have hgone (y : State) (e : Entry) :
      QueueKept y (Machine.entryGone e (some (discardResult cause e)) 0 (reportDiscard cause e y)) :=
    ((QueueKept.refl y).moved (reportDiscard_moves cause e (.refl [.flash, .evt, .xpt, .cmp, .aud] y))).entryGone ..
  have hqueue (k : Xpt) : QueueKept s { x with xpt := k } := h
  exact ((hqueue _).foldl _ hgone).moved (queueFell_moves (.refl [.xpt] _))

theorem QueueKept.endInstances (h : QueueKept s x) (p : CueInst → Bool) (cause : Nat) :
    QueueKept s (endInstances p cause x) := h.moved (endInstances_moves p cause (.refl [.flash, .evt, .cue] x))

theorem QueueKept.transitionQueues (h : QueueKept s x) (n : Nat) : QueueKept s (transitionQueues n x) := by
  unfold Machine.transitionQueues
  split
  next => exact h
  next => exact (h.discardEntries ..).endInstances ..
  next => exact (h.discardEntries ..).endInstances ..
  next => exact (h.discardEntries ..).endInstances ..
  next => exact (h.discardEntries ..).endInstances ..
  next => exact (h.discardEntries ..).endInstances ..
  next => exact h

theorem QueueKept.dropLease (h : QueueKept s x) (state : Nat) : QueueKept s (dropLease state x) :=
  h.moved (dropLease_moves state (.refl [.pins, .flash, .evt, .red, .lane, .out] x))

theorem QueueKept.applyTransition (h : QueueKept s x) (n : Nat) (dest : Mode) (cause : Nat) :
    QueueKept s (applyTransition n dest cause x) := by
  unfold Machine.applyTransition
  extract_lets queues tests lease trial
  have hqueues : QueueKept s queues := h.transitionQueues n
  have htests : QueueKept s tests :=
    .ite (hqueues.moved (stopTests_moves (.refl [.flash, .evt, .lane, .flow] _))) hqueues
  have hlease : QueueKept s lease := .ite htests (htests.dropLease 0)
  have htrial : QueueKept s trial := .ite (hlease.moved (blockTrial_moves 4 (.refl [.flash] _))) hlease
  exact htrial.moved (setMode_moves n dest cause
    (.refl [.mode, .aon, .pins, .start, .flash, .evt, .pwr, .lane, .out] _))

theorem QueueKept.acquireLease (h : QueueKept s x) (gen : Nat) : QueueKept s (acquireLease gen x) :=
  h.moved (acquireLease_moves gen (.refl [.flash, .evt, .red, .lane] x))

theorem QueueKept.refuseHeld (h : QueueKept s x) : QueueKept s (refuseHeld x) := by
  have hred (r : Red) : QueueKept s { x with red := r } := h
  exact (hred _).foldl _ fun y _ => .ite (.refl y) ((QueueKept.refl y).finish ..)

theorem QueueKept.linkTo (h : QueueKept s x) (new : Link) (cause : Nat) : QueueKept s (linkTo new cause x) := by
  unfold Machine.linkTo
  split
  next => exact h
  next =>
    extract_lets old keepItems _ linked raised held keep _ dropped _ filled moved
    have hraised : QueueKept s raised := QueueKept.moved (x := linked) h (raise_own ..)
    have hheld : QueueKept s held := hraised.refuseHeld
    have hdropped : QueueKept s dropped := .ite hheld hheld
    have hmoved : QueueKept s moved := QueueKept.applyTransition (x := filled) hdropped 9 .isolated 2
    exact .ite (.ite (.ite ((hmoved.acquireLease _).applyTransition 10 .active 2) hmoved) hdropped) hraised

theorem QueueKept.transition (h : QueueKept s x) (n : Nat) (dest : Mode) (cause : Nat) :
    QueueKept s (transition n dest cause x) := by
  have happlied := h.applyTransition n dest cause
  exact .ite happlied (.ite (happlied.linkTo .linked 3) happlied)

theorem QueueKept.endLease (h : QueueKept s x) (state : Nat) : QueueKept s (endLease state x) := by
  unfold Machine.endLease
  have hraised (r : Red) : QueueKept s (raiseLease state { x with red := r }) :=
    QueueKept.moved (x := { x with red := r }) h (raise_own ..)
  refine .ite (h.dropLease state) (.ite (.ite h (hraised _)) (.ite ?_ (h.dropLease state)))
  exact (h.dropLease state).transition ..

theorem QueueKept.chipFault (h : QueueKept s x) (source : Nat) : QueueKept s (chipFault source x) := by
  have hraised (k : Safety) (ws : List Word) : QueueKept s (raise 4 11 0xB033 0 ws { x with saf := k }) :=
    QueueKept.moved (x := { x with saf := k }) h (raise_own ..)
  exact .ite ((hraised _ _).endLease 3) (hraised _ _)

end


/-! The safety block's state after a failure (Table 15.5). -/

theorem regionFault_saf (r cause : Nat) (s : State) : (regionFault r cause s).saf.restarting = s.saf.restarting
    ∧ (regionFault r cause s).saf.isolated = s.saf.isolated ∧ (regionFault r cause s).saf.reloading = s.saf.reloading
    ∧ (regionFault r cause s).saf.arbFails = s.saf.arbFails ∧ (regionFault r cause s).saf.chipFault = true := by
  simp only [regionFault, chipFault_saf, raise_saf, escCount, onSaf_saf, and_self]

/-- A region fault has the steward of the region reloaded. -/
theorem regionFault_reloads (r cause : Nat) (s : State) : (regionFault r cause s).saf.stewardReload.contains r = true := by
  simp only [regionFault, chipFault_saf, raise_saf, escCount, onSaf_saf]
  split
  next h => simpa using h
  next => simp

/-- A block that restarts is listed, and no reload begins by it. -/
theorem restartBlock_restarts (b cause : Nat) (s : State) : (restartBlock b cause s).saf.restarting.contains b = true
    ∧ ∀ n, s.saf.reloading.contains n = false → (restartBlock b cause s).saf.reloading.contains n = false := by
  unfold restartBlock
  split
  next h => exact ⟨h, fun _ hn => hn⟩
  next =>
    extract_lets listed raised r x counted
    have hlisted : counted.saf.restarting.contains b = true := by simp [counted, raised, listed, escCount]
    have hreloads (n : Nat) (hn : s.saf.reloading.contains n = false) : counted.saf.reloading.contains n = false := by
      simp only [List.contains_eq_mem, decide_eq_false_iff_not] at hn
      simp [counted, raised, listed, escCount, hn]
    obtain ⟨hrestarting, -, hreloading, -⟩ := regionFault_saf r 0 counted
    refine ⟨ite_keeps (fun y => y.saf.restarting.contains b) ?_ hlisted,
      fun n hn => ite_keeps (fun y => y.saf.reloading.contains n) ?_ (hreloads n hn)⟩
    · rw [hrestarting, hlisted]
    · rw [hreloading, hreloads n hn]

/-- A sliding count below its threshold notes the failure. -/
theorem slide_below {s : State} {ns threshold : Nat} {l : List Nat} (h : (within s ns l).length + 1 < threshold) :
    slide s ns threshold l = (false, s.clock.clk :: within s ns l) := if_neg (Nat.not_le.mpr h)

/-- The failure that reaches the threshold begins the count afresh. -/
theorem slide_reaches {s : State} {ns threshold : Nat} {l : List Nat} (h : threshold ≤ (within s ns l).length + 1) :
    slide s ns threshold l = (true, []) := if_pos h

theorem containBlock_saf (b : Nat) (s0 s : State) : (containBlock b s0 s).saf = s.saf :=
  (containBlock_moves b s0 (.refl [.ctl, .flow] s)).same .saf rfl

theorem blockFailure_below {b : Nat} {s : State} (h : (within s 1000000000 (tget [] s.saf.blockFails b)).length < 31) :
    (blockFailure b s).saf = { s.saf with
      blockFails := tset s.saf.blockFails b (s.clock.clk :: within s 1000000000 (tget [] s.saf.blockFails b)) } := by
  unfold blockFailure
  dsimp only
  rw [slide_below (by omega)]
  rfl

theorem blockFailure_reaches {b : Nat} {s : State} (h : 31 ≤ (within s 1000000000 (tget [] s.saf.blockFails b)).length) :
    (blockFailure b s).saf.restarting.contains b = true := by
  unfold blockFailure
  dsimp only
  rw [slide_reaches (by omega), if_pos rfl]
  exact (restartBlock_restarts b 1 _).1

theorem arbiterFailure_below {r : Nat} {s : State} (h : (within s 1000000000 (tget [] s.saf.arbFails r)).length < 99) :
    (arbiterFailure r s).saf = { s.saf with
      arbFails := tset s.saf.arbFails r (s.clock.clk :: within s 1000000000 (tget [] s.saf.arbFails r)) } := by
  unfold arbiterFailure
  dsimp only
  rw [slide_below (by omega)]
  rfl

theorem arbiterFailure_reaches {r : Nat} {s : State} (h : 99 ≤ (within s 1000000000 (tget [] s.saf.arbFails r)).length) :
    (arbiterFailure r s).saf.stewardReload.contains r = true ∧ (arbiterFailure r s).saf.chipFault = true := by
  unfold arbiterFailure
  dsimp only
  rw [slide_reaches (by omega), if_pos rfl]
  exact ⟨regionFault_reloads r 3 _, (regionFault_saf r 3 _).2.2.2.2⟩

/-- A cell that neither is isolated nor reloads or restarts is reloaded. -/
theorem cellFailure_reloads {n : Nat} {s : State} (hi : s.saf.isolated.contains n = false)
    (hl : s.saf.reloading.contains n = false) (hr : s.saf.restarting.contains (n / 16) = false) :
    (cellFailure n s).saf.reloading = s.saf.reloading ++ [n] ∧ (cellFailure n s).saf.escCnt = bump s.saf.escCnt 0 := by
  unfold cellFailure
  dsimp only
  rw [if_neg (by rw [hi, hl, hr]; decide)]
  exact ⟨rfl, rfl⟩

/-- The third reload in 600 s isolates the cell or restarts its block. -/
theorem isolateCell_isolates (n k : Nat) {s : State} (h : s.saf.reloading.contains n = false) :
    (isolateCell n k s).saf.reloading.contains n = false
      ∧ ((isolateCell n k s).saf.isolated.contains n || (isolateCell n k s).saf.restarting.contains (n / 16)) = true := by
  unfold isolateCell
  extract_lets listed raised failed b
  have hsource : Moves [.flash, .evt, .flow] raised (failSource n 0 raised) := failSource_moves n 0 (.refl _ raised)
  have hfailed : failed.saf = raised.saf := ite_keeps (·.saf) (hsource.same .saf rfl) rfl
  have hraised : raised.saf.isolated = s.saf.isolated ++ [n] ∧ raised.saf.reloading = s.saf.reloading := by
    simp only [raised, listed, raise_saf, escCount, onSaf_saf, and_self]
  have hreloading : failed.saf.reloading.contains n = false := by rw [hfailed, hraised.2, h]
  obtain ⟨hrestarting, hreloads⟩ := restartBlock_restarts b 0 failed
  split
  next => exact ⟨hreloads n hreloading, by rw [hrestarting, Bool.or_true]⟩
  next =>
    refine ⟨hreloading, ?_⟩
    rw [hfailed, hraised.1]
    simp

/-! The reload of a cell's context. -/

theorem cellReloaded_below {n : Nat} {s : State} (h : s.saf.reloading.contains n = true)
    (hfew : (within s 600000000000 (tget [] s.saf.cellReloads n)).length < 3) :
    (cellReloaded n s).saf = { s.saf with reloading := s.saf.reloading.filter (fun c => c != n) } := by
  unfold cellReloaded
  dsimp only
  rw [if_neg (by rw [h]; decide)]
  exact congrArg State.saf (if_neg (Nat.not_le.mpr hfew))

theorem cellReloaded_reaches {n : Nat} {s : State} (h : s.saf.reloading.contains n = true)
    (hmany : 3 ≤ (within s 600000000000 (tget [] s.saf.cellReloads n)).length) :
    (cellReloaded n s).saf.reloading.contains n = false
      ∧ ((cellReloaded n s).saf.isolated.contains n || (cellReloaded n s).saf.restarting.contains (n / 16)) = true := by
  have hgoes : cellReloaded n s = isolateCell n (within s 600000000000 (tget [] s.saf.cellReloads n)).length
      (onSaf (fun k => { k with reloading := k.reloading.filter (fun c => c != n) }) s) := by
    unfold cellReloaded
    dsimp only
    rw [if_neg (by rw [h]; decide)]
    exact if_pos hmany
  rw [hgoes]
  exact isolateCell_isolates n _ (contains_filter_ne _ _)

/-! The restart of a block. -/

/-- A change of every listed value that leaves those of key `k` leaves what is read of it. -/
theorem tget_tmap_fixed {α : Type} (d : α) (m : Table α) {f : Nat → α → α} {k : Nat} (hf : ∀ x, f k x = x) :
    tget d (tmap m f) k = tget d m k := by
  induction m with
  | nil => rfl
  | cons q r ih =>
    obtain ⟨j, x⟩ := q
    by_cases hj : j = k
    · subst hj
      simp [tget, tmap, tfind, hf]
    · simpa [tget, tmap, tfind, hj] using ih

/-- What the restart of block `b` makes of source `n`. -/
def Src.refreshed (b n : Nat) (x : Src) : Src :=
  if n / 16 = b then
    { x with bufs := x.bufs.filter (·.read), c1 := { x.c1 with inFrame := none, taking := false, bytes := 0 }
             c2 := { x.c2 with inFrame := none, taking := false, bytes := 0 } }
  else x

theorem srcOf_clearBlock (b n : Nat) (s : State) :
    srcOf (clearBlock b s) n = tget {} (tmap s.flow.src (Src.refreshed b)) n := rfl

/-- The frames that a restarted block still holds are read ones. -/
theorem clearBlock_read {b n : Nat} (s : State) (h : n / 16 = b) : ∀ x ∈ (srcOf (clearBlock b s) n).bufs, x.read = true := by
  rw [srcOf_clearBlock]
  refine tget_tmap_of (p := fun y : Src => ∀ x ∈ y.bufs, x.read = true) s.flow.src (fun _ hx => nomatch hx) (fun y => ?_)
  rw [Src.refreshed, if_pos h]
  exact fun x hx => (List.mem_filter.mp hx).2

theorem clearBlock_other {b n : Nat} (s : State) (h : n / 16 ≠ b) : srcOf (clearBlock b s) n = srcOf s n :=
  (srcOf_clearBlock b n s).trans (tget_tmap_fixed _ _ (fun _ => if_neg h))

/-! Reloads of processors. -/

/-- A reloaded processor neither is halted nor stalls, and its reload is counted. -/
theorem runsAgain_runs (p : Nat) (s : State) : (runsAgain p s).ctl.halted.contains p = false
    ∧ (runsAgain p s).saf.stalled.contains p = false
    ∧ tget 0 (runsAgain p s).ctl.reloads p = min 255 (tget 0 s.ctl.reloads p + 1) :=
  ⟨contains_filter_ne _ _, contains_filter_ne _ _, tget_tset_same ..⟩

theorem tfind_endAll {j : Nat} (cause : Nat) (l : Table CueInst) {s : State}
    (h : tfind s.cue.insts j = none ∨ j ∈ l.map Prod.fst) :
    tfind (l.foldl (fun s x => endInstance x.1 cause s) s).cue.insts j = none := by
  induction l generalizing s with
  | nil => simpa using h
  | cons x l ih =>
    refine ih ?_
    rw [tfind_endInstance]
    by_cases hj : x.1 = j
    · exact .inl (if_pos hj)
    · rw [if_neg hj]
      rcases h with h | h
      · exact .inl h
      · rcases List.mem_cons.mp h with h | h
        · exact absurd h.symm hj
        · exact .inr h

theorem tfind_eq_none {α : Type} {m : Table α} {j : Nat} (h : j ∉ m.map Prod.fst) : tfind m j = none := by
  induction m with
  | nil => rfl
  | cons q r ih =>
    rw [List.map_cons, List.mem_cons, not_or] at h
    obtain ⟨hne, hrest⟩ := h
    rw [tfind, if_neg (Ne.symm hne), ih hrest]

theorem eq_nil_of_tfind {α : Type} {m : Table α} (h : ∀ j, tfind m j = none) : m = [] := by
  cases m with
  | nil => rfl
  | cons q r => simpa [tfind] using h q.1

/-- All that ran has ended, and the programs stand. -/
theorem endInstances_all (cause : Nat) (s : State) : (endInstances (fun _ => true) cause s).cue.insts = []
    ∧ (endInstances (fun _ => true) cause s).cue.progs = s.cue.progs := by
  refine ⟨eq_nil_of_tfind fun j => ?_, foldl_keeps (fun x => x.cue.progs) _ _ (fun y x => endInstance_progs x.1 cause y)⟩
  unfold endInstances
  rw [List.filter_true]
  refine tfind_endAll cause _ ?_
  by_cases hj : j ∈ s.cue.insts.map Prod.fst
  · exact .inr hj
  · exact .inl (tfind_eq_none hj)

/-! A processor's own SRAM (R519). -/

/-- A running processor halts; the reload of a halted steward begins. -/
theorem haltProcessor_halts {p : Nat} {s : State} (hp : p ≤ 5) (hrunning : s.ctl.halted.contains p = false)
    (hproc : tget 0 s.start.procs p = 2) : (haltProcessor p s).ctl.halted = s.ctl.halted ++ [p]
      ∧ (2 ≤ p → (haltProcessor p s).saf.stewardReload.contains (p - 2) = true)
      ∧ (p < 2 → (haltProcessor p s).saf = s.saf) := by
  unfold haltProcessor
  dsimp only
  rw [if_neg (by omega), if_neg (by rw [hrunning, hproc]; decide)]
  refine ⟨ite_keeps (fun x => x.ctl.halted) rfl rfl, fun h => ?_, fun h => ?_⟩
  · rw [if_pos h, onSaf_saf, onCtl_saf]
    dsimp only
    split
    next hin => simpa using hin
    next => simp
  · rw [if_neg (by omega)]
    rfl

/-! Control SRAM (R534). -/

/-- A failure of the control SRAM is a chip fault and is counted, before its effect on what is stored there. -/
theorem controlParity_fails (u : SramUse) {s : State} (h : s.start.procs ≠ []) :
    controlParity u s = sramEffect u (chipFault 0 (onCtl (fun k => { k with cnt := bump k.cnt 7 }) s)) := by
  refine if_neg ?_
  rwa [List.isEmpty_iff]

theorem chipFault_ctl (source : Nat) (s : State) : (chipFault source s).ctl = s.ctl :=
  (chipFault_moves source (.refl failureParts s)).same .ctl rfl

/-- The state in which the effect of a control SRAM failure begins. -/
def sramFailed (s : State) : State := chipFault 0 (onCtl (fun k => { k with cnt := bump k.cnt 7 }) s)

theorem sramFailed_chipFault (s : State) : (sramFailed s).saf.chipFault = true := by
  rw [sramFailed, chipFault_saf]

theorem sramFailed_isolated (s : State) : (sramFailed s).saf.isolated = s.saf.isolated := by
  rw [sramFailed, chipFault_saf]
  rfl

theorem sramFailed_cnt (s : State) : tget 0#32 (sramFailed s).ctl.cnt 7 = tget 0#32 s.ctl.cnt 7 + 1#32 := by
  rw [sramFailed, chipFault_ctl]
  exact bump_same ..

theorem sramFailed_queue (s : State) : (sramFailed s).host.queue = s.host.queue :=
  (QueueKept.refl (onCtl (fun k => { k with cnt := bump k.cnt 7 }) s)).chipFault 0

theorem execControlSramParity_fails (t : Nat) (v : SramUse) {s : State} (h : s.start.procs ≠ []) :
    exec (.controlSramParity t v) s = .next (sramEffect v (sramFailed (advance t s))) :=
  congrArg Host.Outcome.next (controlParity_fails v (s := advance t s) h)

/-- A damaged reassembly is gone, and its sender is told. -/
theorem sramEffect_reassembly (k : Nat) (s : State) : (sramEffect (.reassembly k) s).saf = s.saf
    ∧ ∀ r ∈ (sramEffect (.reassembly k) s).host.reasm, r.session ≠ k := by
  unfold sramEffect
  dsimp only
  split
  next r hr =>
    refine ⟨sendReply_saf .., fun x hx => ?_⟩
    rw [sendReply_alike] at hx
    simpa using (List.mem_filter.mp hx).2
  next hnone =>
    refine ⟨rfl, fun x hx => ?_⟩
    simpa using List.find?_eq_none.mp hnone x hx

/-- A damaged command that waits alone is refused, and the queue is empty. -/
theorem sramEffect_queued {op : Op} {c : HostCmd} {s : State} (h : s.host.queue = [(op, c)]) :
    (sramEffect (.queued c.session c.seq) s).saf = s.saf ∧ (sramEffect (.queued c.session c.seq) s).host.queue = [] := by
  have hfound : s.host.queue.find? (fun q => q.2.session == c.session && q.2.seq == c.seq) = some (op, c) := by
    rw [h]
    exact List.find?_cons_of_pos (by simp)
  unfold sramEffect
  dsimp only
  rw [hfound]
  dsimp only
  have hempty : (dequeue op c s).host.queue = [] := by simp [dequeue, h]
  refine ⟨(refuseWith_moves op c (.internal, []) (.refl [.flash, .host, .evt, .red, .out] _)).same .saf rfl, ?_⟩
  unfold refuseWith
  rw [pairAfter_host, finish_alike]
  exact hempty

/-! The events. -/

theorem execContextParityConfirm_confirms {t level i : Nat} {s : State} (hb : s.mode ≠ .boot) (hr : s.mode ≠ .retain)
    (hl : level ≤ 3) (hi : i ≤ [1023, 63, 3, 261].getD level 0) : exec (.contextParityConfirm t level i) s = .next
      (if level = 0 then containBlock (i / 16) (advance t s) (cellFailure i (advance t s))
        else if level = 1 then containBlock i (advance t s) (blockFailure i (advance t s))
        else if level = 2 then arbiterFailure i (advance t s) else chipFault 0 (advance t s)) := by
  have hthere : ¬ (decide (3 < level) || decide ([1023, 63, 3, 261].getD level 0 < i)) = true := by
    simpa using ⟨hl, hi⟩
  refine (if_neg hthere).trans (congrArg Host.Outcome.next (if_neg ?_))
  have hmode : ¬ (decide (s.mode = .boot) || decide (s.mode = .retain)) = true := by simp [hb, hr]
  exact hmode

theorem execContextReloadDone_reloading {t n : Nat} {s : State} (h : n ≤ 1023) :
    exec (.contextReloadDone t n) s = .next (containBlock (n / 16) (advance t s) (cellReloaded n (advance t s))) :=
  (if_neg (Nat.not_lt.mpr h)).trans rfl

theorem execBlockRestartDone_restarting {t b : Nat} {s : State} (h : b ≤ 63) (hr : s.saf.restarting.contains b = true) :
    exec (.blockRestartDone t b) s = .next (clearBlock b
      (onSaf (fun k => { k with restarting := k.restarting.filter (fun x => x != b) }) (advance t s))) :=
  (if_neg (Nat.not_lt.mpr h)).trans (congrArg Host.Outcome.next (if_pos hr))

theorem execStewardReloadDone_reloading {t r : Nat} {s : State} (h : r ≤ 3) (hr : s.saf.stewardReload.contains r = true) :
    exec (.stewardReloadDone t r) s = .next (runsAgain (2 + r)
      (onSaf (fun k => { k with stewardReload := k.stewardReload.filter (fun x => x != r) }) (advance t s))) :=
  (if_neg (Nat.not_lt.mpr h)).trans (congrArg Host.Outcome.next (if_pos hr))

theorem execPrivateSramParity_of_le {t p : Nat} {s : State} (h : p ≤ 6) :
    exec (.privateSramParity t p) s = .next (haltProcessor p (advance t s)) := if_neg (Nat.not_lt.mpr h)

theorem execBackgroundSramCheck_private {t p : Nat} {s : State} (h : p ≤ 6) :
    exec (.backgroundSramCheck t (some p) none) s = .next (haltProcessor p (advance t s)) :=
  (if_neg (Nat.not_lt.mpr h)).trans rfl

theorem execBackgroundSramCheck_shared (t : Nat) (v : SramUse) {s : State} (h : s.start.procs ≠ []) :
    exec (.backgroundSramCheck t none (some v)) s = .next (sramEffect v (sramFailed (advance t s))) := by
  refine Eq.trans (b := execBackgroundSramCheck t none (some v) s) rfl ?_
  unfold execBackgroundSramCheck
  rw [if_neg (by decide)]
  exact congrArg Host.Outcome.next (controlParity_fails v (s := advance t s) h)

/-- A safety core whose own SRAM fails breaks lockstep on some channel. -/
theorem execPrivateSramParity_core {t : Nat} {s : State} (h : coresRun s = true) :
    exec (.privateSramParity t 6) s = .next (danger 2 0xB010 11 [pack16 (Config.lockstepChannel s.free) 0]
      (escCount 6 (onSaf (fun k => { k with lockstep := true, held := true }) { advance t s with free := s.free + 1 }))) := by
  rw [execPrivateSramParity_of_le (by decide)]
  exact congrArg Host.Outcome.next ((if_pos rfl).trans (if_pos h))

theorem execCueProcessorReloadDone_reloads {t : Nat} {s : State} (h : s.ctl.halted.contains 1 = true) :
    exec (.cueProcessorReloadDone t) s = .next (runsAgain 1 (endInstances (fun _ => true) 3 (advance t s))) :=
  congrArg Host.Outcome.next (if_pos h)

end Sys2Proof.Machine

section
open Sys2Proof Sys2Proof.Machine

/-- Settles O50, one case per event. -/
theorem parityFailuresAreContained : Obligations.ParityFailuresAreContained := by
  unfold Obligations.ParityFailuresAreContained
  refine ⟨?context, ?reload, ?restart, ?steward, ?sram, ?core, ?shared, ?cue⟩
  case context =>
    intro t i s hb hr
    refine ⟨fun hi hiso hrel hres => ?cell, fun hi hfew => ?below, fun hi hmany => ?reaches, fun hi hfew => ?arbiter,
      fun hi hmany => ?region, fun hi => ?chip⟩
    case cell =>
      obtain ⟨hreloading, hcnt⟩ := cellFailure_reloads (s := advance t s) hiso hrel hres
      refine ⟨_, execContextParityConfirm_confirms hb hr (by decide) hi, ?_, ?_⟩
      · rw [if_pos rfl, containBlock_saf, hreloading]
        rfl
      · rw [if_pos rfl, containBlock_saf, hcnt]
        exact bump_same ..
    case below =>
      have hsaf := blockFailure_below (s := advance t s) hfew
      refine ⟨_, execContextParityConfirm_confirms hb hr (by decide) hi, ?_, ?_⟩
      · rw [if_neg (by decide), if_pos rfl, containBlock_saf, hsaf]
        rfl
      · rw [if_neg (by decide), if_pos rfl, containBlock_saf, hsaf]
        exact tget_tset_same ..
    case reaches =>
      refine ⟨_, execContextParityConfirm_confirms hb hr (by decide) hi, ?_⟩
      rw [if_neg (by decide), if_pos rfl, containBlock_saf]
      exact blockFailure_reaches hmany
    case arbiter =>
      refine ⟨_, execContextParityConfirm_confirms hb hr (by decide) hi, ?_⟩
      rw [if_neg (by decide), if_neg (by decide), if_pos rfl, arbiterFailure_below (s := advance t s) hfew]
      exact tget_tset_same ..
    case region =>
      refine ⟨_, execContextParityConfirm_confirms hb hr (by decide) hi, ?_⟩
      rw [if_neg (by decide), if_neg (by decide), if_pos rfl]
      exact arbiterFailure_reaches hmany
    case chip =>
      refine ⟨_, execContextParityConfirm_confirms hb hr (by decide) hi, ?_⟩
      rw [if_neg (by decide), if_neg (by decide), if_neg (by decide), chipFault_saf]
  case reload =>
    intro t n s hn hrel
    refine ⟨fun hfew => ⟨_, execContextReloadDone_reloading hn, ?_⟩,
      fun hmany => ⟨_, execContextReloadDone_reloading hn, ?_⟩⟩
    · rw [containBlock_saf, cellReloaded_below (s := advance t s) hrel hfew]
      exact ⟨rfl, rfl⟩
    · rw [containBlock_saf]
      exact cellReloaded_reaches (s := advance t s) hrel hmany
  case restart =>
    intro t b s hb hr
    exact ⟨_, execBlockRestartDone_restarting hb hr, rfl, fun n hn => clearBlock_read _ hn, fun n hn => clearBlock_other _ hn⟩
  case steward =>
    intro t r s hr hrel
    obtain ⟨hhalted, hstalled, hreloads⟩ := runsAgain_runs (2 + r)
      (onSaf (fun k => { k with stewardReload := k.stewardReload.filter (fun x => x != r) }) (advance t s))
    exact ⟨_, execStewardReloadDone_reloading hr hrel, rfl, hstalled, hhalted, hreloads⟩
  case sram =>
    intro t p s hp hrunning hproc
    obtain ⟨hhalted, hsteward, hother⟩ := haltProcessor_halts (s := advance t s) hp hrunning hproc
    exact ⟨⟨_, execPrivateSramParity_of_le (by omega), hhalted, hsteward, hother⟩,
      ⟨_, execBackgroundSramCheck_private (by omega), hhalted⟩⟩
  case core =>
    intro t s hruns hb hr
    obtain ⟨u, hu, hreacted, hsaf⟩ := reacted_of_eq_danger (execPrivateSramParity_core (t := t) hruns) hb hr
    exact ⟨u, hu, by rw [hsaf]; rfl, by rw [hsaf]; rfl, hreacted.pins, hreacted.mode⟩
  case shared =>
    intro t k a b s hprocs
    have hfault : (sramFailed (advance t s)).saf.chipFault = true := sramFailed_chipFault _
    have hcnt : tget 0#32 (sramFailed (advance t s)).ctl.cnt 7 = tget 0#32 s.ctl.cnt 7 + 1#32 := sramFailed_cnt (advance t s)
    refine ⟨?reply, ?kept, ?reassembly, fun op c hqueue ha hb => ?queued, ?copy, ?table, ?background⟩
    case reply =>
      refine ⟨_, execControlSramParity_fails t _ hprocs, hfault, ?_, hcnt⟩
      exact (tfind_tdel ..).trans (if_pos rfl)
    case kept =>
      refine ⟨_, execControlSramParity_fails t _ hprocs, hfault, fun x hx => ?_⟩
      simpa using (List.mem_filter.mp hx).2
    case reassembly =>
      obtain ⟨hsaf, hgone⟩ := sramEffect_reassembly k (sramFailed (advance t s))
      exact ⟨_, execControlSramParity_fails t _ hprocs, by rw [hsaf, hfault], hgone⟩
    case queued =>
      subst ha hb
      obtain ⟨hsaf, hempty⟩ := sramEffect_queued ((sramFailed_queue (advance t s)).trans hqueue)
      exact ⟨_, execControlSramParity_fails t _ hprocs, by rw [hsaf, hfault], hempty⟩
    case copy => exact ⟨_, execControlSramParity_fails t _ hprocs, hfault, sramFailed_isolated (advance t s)⟩
    case table => exact ⟨_, execControlSramParity_fails t _ hprocs, hfault⟩
    case background => exact ⟨_, execBackgroundSramCheck_shared t _ hprocs, hfault, hcnt⟩
  case cue =>
    intro t s hhalted
    obtain ⟨hruns, hstalled, hreloads⟩ := runsAgain_runs 1 (endInstances (fun _ => true) 3 (advance t s))
    obtain ⟨hended, hprogs⟩ := endInstances_all 3 (advance t s)
    have hctl : (endInstances (fun _ => true) 3 (advance t s)).ctl = s.ctl :=
      (endInstances_moves _ 3 (.refl [.flash, .evt, .cue] (advance t s))).same .ctl rfl
    rw [hctl] at hreloads
    exact ⟨_, execCueProcessorReloadDone_reloads hhalted, hruns, hstalled, hended, hprogs, hreloads⟩

end
end

section
/-! PROOFS. Performance levels and the entry into a sleep state (O53). -/

-- The package is checked as one text; elaborating these proofs in order keeps the number of threads small.
set_option Elab.async false

namespace Sys2Proof.Machine

theorem runCommand_pwr {op : Op} {own : Refuse} {t : Nat} {c : HostCmd} {s : State} (eff : Effect)
    (h : accepted op own t c s = true) : (runCommand op own eff t c s).pwr = (eff (begun op t c s) c).1.pwr :=
  (runCommand_after_effect eff h).same .pwr rfl

/-! The performance level (R541). -/

theorem setVsel_own (v : Nat) (s : State) : Moves [.pins, .out] s (setVsel v s) := setVsel_moves v (.refl _ s)

theorem setVsel_pwr (v : Nat) (s : State) : (setVsel v s).pwr = s.pwr := (setVsel_own v s).same .pwr rfl

theorem setVsel_coreVsel (v : Nat) (s : State) : (setVsel v s).pins.coreVsel = v := by
  unfold setVsel
  split
  next h => exact h
  next => rfl

/-- A change to another level starts; towards higher capacity CORE_VSEL is driven first. -/
theorem effPwrLevelSet_starts {c : HostCmd} {s : State} (h : u8 c.params 0 ≠ s.pwr.level) :
    (effPwrLevelSet s c).1.pwr = { s.pwr with changing := true, target := u8 c.params 0, switched := false, levelCmd := some c,
                                              changeAt := s.clock.clk }
      ∧ (effPwrLevelSet s c).1.pins.coreVsel = if u8 c.params 0 < s.pwr.level then u8 c.params 0 else s.pins.coreVsel := by
  unfold effPwrLevelSet
  dsimp only
  rw [if_neg h]
  dsimp only
  split
  next hup => exact ⟨setVsel_pwr .., (setVsel_coreVsel ..).trans (if_pos hup).symm⟩
  next hdown => exact ⟨rfl, Eq.symm (if_neg hdown)⟩

theorem effPwrLevelSet_stays {c : HostCmd} {s : State} (h : u8 c.params 0 = s.pwr.level) :
    effPwrLevelSet s c = (s, some (.ok, [])) := if_pos h

theorem execLevelClockSwitch_rising {t : Nat} {s : State} (hc : s.pwr.changing = true) (hs : s.pwr.switched = false)
    (hup : s.pwr.target < s.pwr.level) (hdue : s.pwr.changeAt + 2000000 ≤ max s.clock.clk t) :
    exec (.levelClockSwitch t) s = .next (onPwr (fun p => { p with switched := true }) (advance t s)) := by
  have hchanges : ¬ (!s.pwr.changing || s.pwr.switched) = true := by rw [hc, hs]; decide
  exact congrArg Host.Outcome.next ((if_neg hchanges).trans ((if_pos hup).trans (if_pos hdue)))

theorem execLevelClockSwitch_falling {t : Nat} {s : State} (hc : s.pwr.changing = true) (hs : s.pwr.switched = false)
    (hdown : s.pwr.level ≤ s.pwr.target) : exec (.levelClockSwitch t) s = .next
      (setVsel s.pwr.target (onPwr (fun p => { p with switched := true }) (advance t s))) := by
  have hchanges : ¬ (!s.pwr.changing || s.pwr.switched) = true := by rw [hc, hs]; decide
  exact congrArg Host.Outcome.next ((if_neg hchanges).trans (if_neg (Nat.not_lt.mpr hdown)))

/-- A change that is complete: the level stands, and no command waits for it. -/
theorem execLevelChangeDone_completes {t : Nat} {s : State} (hc : s.pwr.changing = true) (hs : s.pwr.switched = true) :
    ∃ u, exec (.levelChangeDone t) s = .next u
      ∧ u.pwr = { s.pwr with level := s.pwr.target, changing := false, switched := false, levelCmd := none } := by
  have hchanges : (s.pwr.changing && s.pwr.switched) = true := by rw [hc, hs]; rfl
  refine ⟨_, congrArg Host.Outcome.next (if_pos hchanges), ?_⟩
  dsimp only
  split
  next => rw [finish_pwr, raise_pwr]; rfl
  next => rw [raise_pwr]; rfl

/-! The entry (R547). -/

/-- The parts that a transition moves beside the queues. -/
def transitionParts : List Part := [.mode, .aon, .pins, .start, .flash, .evt, .pwr, .red, .lane, .flow, .out]

/-- The queues after a transition are those that its rule leaves (R220, R248). -/
theorem transition_queues (n : Nat) (dest : Mode) (cause : Nat) (s : State) :
    (transition n dest cause s).xpt = (transitionQueues n s).xpt
      ∧ (transition n dest cause s).cue = (transitionQueues n s).cue := by
  have hmoves := transition_moves_applied n dest cause s
  have happlied : Moves transitionParts (transitionQueues n s) (applyTransition n dest cause s) := by
    unfold applyTransition
    extract_lets queues tests lease trial
    have htests : Moves transitionParts queues tests := .ite (stopTests_moves (.refl _ _)) (.refl _ _)
    have hlease : Moves transitionParts queues lease := .ite htests (dropLease_moves 0 htests)
    exact setMode_moves n dest cause (.ite (blockTrial_moves 4 hlease) hlease)
  exact ⟨(hmoves.same .xpt rfl).trans (happlied.same .xpt rfl), (hmoves.same .cue rfl).trans (happlied.same .cue rfl)⟩

/-- The settings of a sleep state that begins. -/
def Pwr.entry (n units alarm now : Nat) (mode : Mode) (p : Pwr) : Pwr :=
  { p with sleep := n, entering := true, acceptedAt := now, fromMode := mode, imageWritten := false, committed := false
           imageUnits := units, alarmArg := alarm, exiting := false, enLowAt := none }

theorem effPwrSleep_leaves {c : HostCmd} {s : State} (h : u8 c.params 0 = 0) :
    (effPwrSleep s c).1.pwr = { s.pwr with exiting := true, wakeAt := s.clock.clk } ∧ (effPwrSleep s c).1.mode = s.mode := by
  unfold effPwrSleep
  dsimp only
  rw [if_pos h]
  exact ⟨rfl, rfl⟩

theorem effPwrSleep_asleep {c : HostCmd} {s : State} (h : u8 c.params 0 = 1) (hs : inS1 s = true) :
    effPwrSleep s c = (s, some (.ok, [])) := by
  unfold effPwrSleep
  dsimp only
  rw [h, if_neg (by decide), hs]
  rfl

theorem effPwrSleep_S1 {c : HostCmd} {s : State} (h : u8 c.params 0 = 1) (hs : inS1 s = false) :
    (effPwrSleep s c).1.pwr = s.pwr.entry 1 (imageSize s) (u32 c.params 4) s.clock.clk s.mode
      ∧ (effPwrSleep s c).1.aon.wakeSeen = 0 ∧ (effPwrSleep s c).1.mode = s.mode := by
  unfold effPwrSleep
  dsimp only
  rw [h, if_neg (by decide), hs]
  exact ⟨rfl, rfl, rfl⟩

theorem effPwrSleep_deep {c : HostCmd} {s : State} (h : 2 ≤ u8 c.params 0) :
    (effPwrSleep s c).1.pwr = s.pwr.entry (u8 c.params 0) (imageSize s) (u32 c.params 4) s.clock.clk s.mode
      ∧ (effPwrSleep s c).1.mode = .retain ∧ (effPwrSleep s c).1.xpt.queue = [] ∧ (effPwrSleep s c).1.cue.insts = [] := by
  have hnot : u8 c.params 0 ≠ 1 := by omega
  unfold effPwrSleep
  dsimp only
  rw [if_neg (by omega), if_neg (by simp [hnot]), if_neg hnot]
  dsimp only
  generalize hx : onPwr _ _ = x
  have hpwr : x.pwr = s.pwr.entry (u8 c.params 0) (imageSize s) (u32 c.params 4) s.clock.clk s.mode := by rw [← hx]; rfl
  have hidle : Moves [.flash, .evt, .eth, .tim, .out] (transition 16 .retain 0 x)
      (portsIdle (driveHt 7 (transition 16 .retain 0 x))) := portsIdle_moves (driveHt_moves 7 (.refl _ _))
  obtain ⟨hxpt, hcue⟩ := transition_queues 16 .retain 0 x
  refine ⟨?_, (hidle.same .mode rfl).trans (transition_mode ..), ?_, ?_⟩
  · exact ((hidle.same .pwr rfl).trans (transition_pwr_of_not_ready 16 0 x rfl)).trans hpwr
  · rw [show (portsIdle _).xpt = _ from hidle.same .xpt rfl, hxpt]
    rfl
  · rw [show (portsIdle _).cue = _ from hidle.same .cue rfl, hcue]
    rfl

/-! The state image (R284). -/

/-- The state image stands as object 2047 in the place that suits it. -/
theorem writeImage_writes {k f : Nat} {s : State} (h : imagePlace s s.pwr.imageUnits = some (k, f)) :
    objOf (writeImage s) 2047 = { cur := some (imageVersion k f s) } := by
  have hplaced : writeImage s = keepImage (takeImage s) (modObj 2047 (fun _ => { cur := some (imageVersion k f s) })
      (zoneWriteAt k (f * 65536) (imageBytes s) (withoutImage s))) := by
    unfold writeImage
    rw [h]
  rw [hplaced]
  exact objOf_modObj 2047 (fun _ => { cur := some (imageVersion k f s) }) _

theorem writeImage_own (s : State) : Moves [.fst, .free, .image] s (writeImage s) := writeImage_moves (.refl _ s)

/-- The retention store of an entry with a sleep count and the banks flagged (R284 steps 3 and 6). -/
def storeRetention (fs : List Nat) (s : State) : State :=
  onAon (fun a => { a with
    retainCount := (s.aon.retainCount + 1) % 0x10000, retainChecked := false
    retainStore := some { count := (s.aon.retainCount + 1) % 0x10000, mask := a.retainMask
                          flagged := fs.filter (fun g => retainedPc s (g / 32)) } }) s

/-- The canaries of the retained banks (R284 step 4). -/
def writeCanaries (count : Nat) (s : State) : State :=
  (retainedBanks s).foldl (fun s g => writePiece (canaryAt g) (canary (g / 32) (g % 32) count) s) s

theorem writeCanaries_objs (count : Nat) (s : State) : (writeCanaries count s).fst.objs = s.fst.objs :=
  foldl_keeps (fun x => x.fst.objs) _ _ (fun _ _ => rfl)

theorem writeCanaries_own (count : Nat) (s : State) : Moves [.fst] s (writeCanaries count s) :=
  Moves.foldl (fun _ _ h => writePiece_moves _ _ h) _ (.refl _ s)

theorem execStateImageWrite_writes {t : Nat} (fs : List Nat) {s : State} (he : s.pwr.entering = true) (hs : s.pwr.sleep = 2)
    (hm : s.mode = .retain) (hw : s.pwr.imageWritten = false) : exec (.stateImageWrite t fs) s = .next
      (onPwr (fun p => { p with imageWritten := true }) (writeCanaries ((s.aon.retainCount + 1) % 0x10000)
        (storeRetention fs (writeImage (advance t s))))) := by
  have hwrites : (s.pwr.entering && decide (s.pwr.sleep = 2) && decide (s.mode = .retain) && !s.pwr.imageWritten) = true := by
    simp [he, hs, hm, hw]
  have haon : (writeImage (advance t s)).aon = s.aon := (writeImage_own (advance t s)).same .aon rfl
  refine (congrArg Host.Outcome.next (if_pos hwrites)).trans ?_
  rw [← haon]
  rfl

/-! The commit point (R547 steps 4 to 6). -/

/-- The state at the commit point, before the device sleeps. -/
def atCommit (s : State) : State :=
  let n := s.pwr.sleep
  let s := recordTime s
  let s := if 2 ≤ n then onAon (fun a => { a with alarm := s.pwr.alarmArg }) s else s
  let s := raise 1 12 0xC022 0 [pack8_16 n 0 (retainedPcs s).length, w32 s.pwr.alarmArg] s
  onPwr (fun p => { p with
    entering := false, committed := true, enteredAt := s.clock.clk, entryMs := msSince p.acceptedAt s
    exiting := p.sleep == 1 && s.aon.wakeSeen != 0, wakeAt := s.clock.clk }) s

theorem execSleepCommitPoint_commits {t : Nat} {s : State} (he : s.pwr.entering = true)
    (hw : s.pwr.sleep = 2 → s.pwr.imageWritten = true) : exec (.sleepCommitPoint t) s = .next
      (if s.pwr.sleep = 1 then stopTests (atCommit (advance t s)) else asleep (s.pwr.sleep = 2) (atCommit (advance t s))) := by
  have hcommits : ¬ (!s.pwr.entering || decide (s.pwr.sleep = 2) && !s.pwr.imageWritten) = true := by
    by_cases hs : s.pwr.sleep = 2
    · simp [he, hw hs]
    · simp [he, hs]
  exact congrArg Host.Outcome.next (if_neg hcommits)

/-- The commit point records the time and the event, and leaves the rest of the device. -/
theorem atCommit_own (s : State) : Moves [.aon, .flash, .evt, .pwr] s (atCommit s) := by
  unfold atCommit
  extract_lets n timed alarmed
  have htimed : Moves [.aon, .flash, .evt, .pwr] s timed := recordTime_moves (.refl _ s)
  have halarmed : Moves [.aon, .flash, .evt, .pwr] s alarmed := .ite (htimed.onAon _) htimed
  exact (raise_moves _ _ _ _ _ halarmed).onPwr _

theorem atCommit_pwr (s : State) : (atCommit s).pwr.sleep = s.pwr.sleep ∧ (atCommit s).pwr.committed = true
    ∧ (atCommit s).pwr.entering = false ∧ (atCommit s).pwr.enteredAt = s.clock.clk := by
  unfold atCommit
  extract_lets n timed alarmed told
  have hsleep : alarmed.pwr.sleep = s.pwr.sleep := ite_keeps (·.pwr.sleep) rfl rfl
  have hclk : alarmed.clock.clk = s.clock.clk := ite_keeps (·.clock.clk) rfl rfl
  have htold : told.pwr = alarmed.pwr := raise_pwr ..
  have htoldClk : told.clock = alarmed.clock := raise_clock ..
  simp only [onPwr_pwr, htold, htoldClk, hsleep, hclk, and_self]

theorem atCommit_aon (s : State) : (atCommit s).aon.timeRec.isSome = true
    ∧ (2 ≤ s.pwr.sleep → (atCommit s).aon.alarm = s.pwr.alarmArg) := by
  unfold atCommit
  extract_lets n timed alarmed told
  have htold : told.aon = alarmed.aon := raise_aon ..
  rw [onPwr_aon, htold]
  refine ⟨ite_keeps (·.aon.timeRec.isSome) rfl rfl, fun h => ?_⟩
  rw [show alarmed = _ from if_pos h]
  rfl

/-- Sleep leaves the time record and the alarm of the always-on domain. -/
theorem asleep_aon (keep : Bool) (s : State) :
    (asleep keep s).aon.timeRec = s.aon.timeRec ∧ (asleep keep s).aon.alarm = s.aon.alarm := by
  cases keep with
  | false => exact ⟨rfl, rfl⟩
  | true => exact ⟨rfl, rfl⟩

/-- S2 keeps the state image and the zones, S3 neither image nor objects. -/
theorem asleep_store (s : State) : (asleep true s).image = s.image ∧ (asleep true s).fst.zones = s.fst.zones
    ∧ (asleep false s).image = none ∧ (asleep false s).fst.objs = [] := ⟨rfl, rfl, rfl, rfl⟩

/-! The enables fall (R544). -/

theorem execSleepEnableDeassert_falls {t : Nat} {s : State} (hc : s.pwr.committed = true) (hs : 2 ≤ s.pwr.sleep)
    (hl : s.pwr.enLowAt = none) : ∃ u a, exec (.sleepEnableDeassert t) s = .next u ∧ u.pwr.enLowAt = some a
      ∧ max s.clock.clk t ≤ a ∧ u.seq.en = [false, false, false, s.pwr.sleep == 2 && s.seq.en.getD 3 false, false] := by
  have hfalls : (s.pwr.committed && decide (2 ≤ s.pwr.sleep) && s.pwr.enLowAt.isNone) = true := by
    simp [hc, hs, hl]
  refine ⟨_, _, congrArg Host.Outcome.next (if_pos hfalls), rfl, ?_, ?_⟩
  · rw [onSeq_clock, (dropEnables_own _ (advance t s)).same .clock rfl]
    exact Nat.le_add_right ..
  · dsimp only
    rw [onPwr_seq, onSeq_seq, dropEnables_seq]
    rfl

/-! The entry is abandoned (R548). -/

theorem execSleepAbandoned_boot (t : Nat) {s : State} (hm : s.mode = .retain) (he : s.pwr.entering = true) :
    exec (.sleepAbandoned t none) s = .next (takeT1Start 1 (advance t s)) := by
  have hentry : (decide (s.mode = .retain) && s.pwr.entering) = true := by simp [hm, he]
  exact congrArg Host.Outcome.next (if_pos hentry)

end Sys2Proof.Machine

section
open Sys2Proof Sys2Proof.Machine

/-- Settles O53, one case per command and event. -/
theorem powerCommandsAndSleepEntry : Obligations.PowerCommandsAndSleepEntry := by
  unfold Obligations.PowerCommandsAndSleepEntry
  refine ⟨?status, ?level, ?clock, ?done, ?sleep, ?image, ?commit, ?enables, ?abandoned⟩
  case status => exact fun t c s h => congrArg Host.Outcome.next (runCommand_answered (eff := effPwrStatus) h rfl)
  case level =>
    intro t c s h
    have hpwr := runCommand_pwr effPwrLevelSet h
    have hpins := runCommand_pins effPwrLevelSet h
    refine ⟨_, rfl, fun hsame => ?same, fun hother => ?other⟩
    case same =>
      rw [effPwrLevelSet_stays (s := begun .pwrLevelSet t c s) hsame] at hpwr hpins
      exact ⟨hpwr, congrArg Pins.coreVsel hpins⟩
    case other =>
      obtain ⟨hstarts, hvsel⟩ := effPwrLevelSet_starts (s := begun .pwrLevelSet t c s) hother
      have hnow := hpwr.trans hstarts
      exact ⟨(congrArg Pwr.changing hnow :), (congrArg Pwr.target hnow :), (congrArg Pwr.switched hnow :),
        (congrArg Pwr.levelCmd hnow :), (congrArg Pwr.changeAt hnow :), (congrArg Pwr.level hnow :),
        (congrArg Pins.coreVsel hpins).trans hvsel⟩
  case clock =>
    intro t s hc hs
    refine ⟨fun hup hdue => ?_, fun hdown => ?_⟩
    · exact ⟨_, execLevelClockSwitch_rising hc hs hup hdue, rfl, rfl⟩
    · exact ⟨_, execLevelClockSwitch_falling hc hs hdown, by rw [setVsel_pwr]; rfl, setVsel_coreVsel ..⟩
  case done =>
    intro t s hc hs
    obtain ⟨u, hu, hpwr⟩ := execLevelChangeDone_completes (t := t) hc hs
    exact ⟨u, hu, by rw [hpwr], by rw [hpwr], by rw [hpwr]⟩
  case sleep =>
    intro t c s h
    have hpwr := runCommand_pwr effPwrSleep h
    have hmode := runCommand_mode effPwrSleep h
    refine ⟨_, rfl, fun h0 => ?leaves, fun h1 hin => ?asleep, fun h1 hout => ?shallow, fun h2 => ?deep⟩
    case leaves =>
      obtain ⟨hleaves, hstays⟩ := effPwrSleep_leaves (s := begun .pwrSleep t c s) h0
      have hnow := hpwr.trans hleaves
      exact ⟨(congrArg Pwr.exiting hnow :), (congrArg Pwr.wakeAt hnow :), (congrArg Pwr.sleep hnow :), hmode.trans hstays⟩
    case asleep =>
      rw [effPwrSleep_asleep (s := begun .pwrSleep t c s) h1 hin] at hpwr hmode
      exact ⟨hpwr, hmode⟩
    case shallow =>
      obtain ⟨hentry, hseen, hstays⟩ := effPwrSleep_S1 (s := begun .pwrSleep t c s) h1 hout
      have hnow := hpwr.trans hentry
      exact ⟨(congrArg Pwr.sleep hnow :), (congrArg Pwr.entering hnow :),
        (congrArg Aon.wakeSeen (runCommand_aon effPwrSleep h)).trans hseen, hmode.trans hstays⟩
    case deep =>
      obtain ⟨hentry, hretain, hqueue, hinsts⟩ := effPwrSleep_deep (s := begun .pwrSleep t c s) h2
      have hnow := hpwr.trans hentry
      exact ⟨(congrArg Pwr.sleep hnow :), (congrArg Pwr.entering hnow :), (congrArg Pwr.imageWritten hnow :),
        (congrArg Pwr.fromMode hnow :), (congrArg Pwr.alarmArg hnow :), hmode.trans hretain,
        (congrArg Xpt.queue (runCommand_xpt effPwrSleep h)).trans hqueue,
        (congrArg Cue.insts (runCommand_cue effPwrSleep h)).trans hinsts⟩
  case image =>
    intro t fs s he hs hm hw
    have haon : (writeImage (advance t s)).aon = s.aon := (writeImage_own (advance t s)).same .aon rfl
    have hstored : (writeCanaries ((s.aon.retainCount + 1) % 0x10000) (storeRetention fs (writeImage (advance t s)))).aon
        = (storeRetention fs (writeImage (advance t s))).aon := (writeCanaries_own _ _).same .aon rfl
    refine ⟨_, execStateImageWrite_writes fs he hs hm hw, rfl, ?_, ?_, ?_, fun k f hplace => ?_⟩
    · rw [onPwr_aon, hstored, storeRetention, haon]
      rfl
    · rw [onPwr_aon, hstored]
      rfl
    · rw [onPwr_aon, hstored, storeRetention, haon]
      refine ⟨_, rfl, rfl, ?_, ?_⟩
      · exact congrArg Aon.retainMask haon
      · simp only [retainedPc, haon]
    · have hobj := writeImage_writes (s := advance t s) hplace
      refine ⟨imageVersion k f (advance t s), ?_, rfl, rfl, rfl, rfl⟩
      exact (congrArg Obj.cur (objOf_congr (writeCanaries_objs ..) 2047)).trans (congrArg Obj.cur hobj)
  case commit =>
    intro t s he hw
    obtain ⟨hsleep, hcommitted, hentering, hentered⟩ := atCommit_pwr (advance t s)
    obtain ⟨htime, halarm⟩ := atCommit_aon (advance t s)
    have hown := atCommit_own (advance t s)
    refine ⟨_, execSleepCommitPoint_commits he hw, ?_⟩
    by_cases h1 : s.pwr.sleep = 1
    · have hstops : Moves [.flash, .evt, .lane, .flow] (atCommit (advance t s)) (stopTests (atCommit (advance t s))) :=
        stopTests_moves (.refl _ _)
      rw [if_pos h1, hstops.same .pwr rfl, hstops.same .aon rfl]
      refine ⟨hcommitted, hentering, hsleep, hentered, htime, fun _ => ⟨?_, ?_⟩, fun h2 => ?_, fun h2 => ?_, fun h3 => ?_⟩
      · exact (hstops.same .mode rfl).trans (hown.same .mode rfl)
      · exact congrArg Xpt.queue ((hstops.same .xpt rfl).trans (hown.same .xpt rfl))
      all_goals omega
    · obtain ⟨htimeKept, halarmKept⟩ := asleep_aon (s.pwr.sleep = 2) (atCommit (advance t s))
      obtain ⟨hkept, hzones, hdropped, hempty⟩ := asleep_store (atCommit (advance t s))
      rw [if_neg h1]
      refine ⟨rfl, rfl, hsleep, hentered, ?_, fun h => absurd h h1, fun h2 => ⟨rfl, ?_, rfl, rfl, rfl⟩, fun h2 => ?_,
        fun h3 => ?_⟩
      · rw [htimeKept, htime]
      · rw [halarmKept, halarm h2]
        rfl
      · rw [decide_eq_true h2]
        exact ⟨hkept.trans (hown.same .image rfl), hzones.trans (congrArg Fst.zones (hown.same .fst rfl))⟩
      · rw [decide_eq_false (show ¬ s.pwr.sleep = 2 by omega)]
        exact ⟨hdropped, hempty⟩
  case enables => exact fun t s => execSleepEnableDeassert_falls
  case abandoned =>
    intro t m s hm he
    refine ⟨fun h1 h7 hf => ?_, ?_⟩
    · obtain ⟨hsafe, -, -, hpwr⟩ := reaction_of_entering m (armedComps (advance t s)) (s := advance t s) hm he hf
      exact ⟨_, execSleepAbandoned_reaction t hm he h1 h7, hsafe, by rw [hpwr], by rw [hpwr], by rw [reaction_saf]; rfl⟩
    · obtain ⟨b, haon⟩ := takeT1Start_aon 1 (advance t s)
      exact ⟨_, execSleepAbandoned_boot t hm he, takeT1Start_mode .., by rw [haon]⟩

end
end
